-- ==== Sys2Proof/Word.lean ====
section
/-!
DEFINITION. The word types of the KZ48 model and the ranges its operands run over.
A value the manual adds, shifts or masks as a hub word is a bit vector. A name of a thing (a die, a core, a queue)
is a `Fin` of the number of such things the manual gives. A register field is held as a natural number below
two to its width.
-/
namespace Sys2Proof

/-- A byte of memory. -/
abbrev Byte := BitVec 8
/-- A 64-bit hub word (R7, R248). -/
abbrev Word := BitVec 64
/-- A fabric die F0 to F3 (R13). -/
abbrev Die := Fin 4
/-- A service core 0 to 63; core 0 is the foreman (R172). -/
abbrev Core := Fin 64
/-- A general register g0 to g31 of a service core (R174). -/
abbrev Reg := Fin 32
/-- A user clock network of one die. -/
abbrev Net := Fin 64
/-- A fabric port of one die. -/
abbrev Port := Fin 8
/-- A sector of one die: column n mod 12, row n div 12. -/
abbrev Sector := Fin 192
/-- A work queue (R242). -/
abbrev Queue := Fin 16384
/-- A Bortik link. -/
abbrev Link := Fin 64
/-- A general serial lane. -/
abbrev Lane := Fin 64
/-- A DRAM channel C0 to C3. -/
abbrev Chan := Fin 4
/-- A user I/O bank; bank b belongs to die b div 12 (R15). -/
abbrev Bank := Fin 48
/-- A PCI Express function: 0 the PF, 1 to 63 the VFs. -/
abbrev Func := Fin 64
/-- A seam of R14: 0 to 3 the fabric seam owned by that die, 4 to 7 the hub seam of die k - 4. -/
abbrev SeamId := Fin 8

end Sys2Proof
end

