-- ==== Sys2Proof/Syntax.lean ====
section
/-!
DEFINITION. The commands of the KZ48 block: one constructor of `Instr` for each row of the table of operations and
events, with the row's operands. A command is a register access, an instruction step of a service core, or an event of
a pin, a link or a unit. What an outside agent decides (which lane failed, which bytes arrived, what a line of DRAM
read as) is an operand; everything the device decides is computed from the state.
-/
namespace Sys2Proof

/-- A master of the Gallery, as R249 names them; `block` stands for the hub's own blocks, which carry no code. -/
inductive Master where
  | core (c : Core)
  | host (f : Func)
  | fport (d : Die) (p : Port)
  | link (l : Link)
  | guest
  | adit
  | block
  deriving DecidableEq, Repr

/-- The two faces of the Adit session registers (R471): the TAP and the debug window. -/
inductive Face where
  | tap | window
  deriving DecidableEq, Repr

/-- Who accesses an outpost peripheral (R63): the hub, as that master, or the user design. -/
inductive Side where
  | hub (m : Master)
  | design
  deriving DecidableEq, Repr

/-- A work descriptor: eight 64-bit words (R248). -/
structure Desc where
  w0 : Word
  w1 : Word
  w2 : Word
  w3 : Word
  w4 : Word
  w5 : Word
  w6 : Word
  w7 : Word
  deriving DecidableEq, Repr

/-- The response status codes of R25; 0b111 is never generated. -/
inductive Status where
  | ok | decerr | denied | tgterr | poison | offline | stalled
  deriving DecidableEq, Repr

/-- The kinds of transaction a fabric port issues (R29). -/
inductive PortOp where
  | read | write | pwrite
  deriving DecidableEq, Repr

/-- What changed the select of a network's switch (R105). -/
inductive SwitchCause where
  | selWrite (m : Master) (v : Bool)
  | fabricSelect (v : Bool)
  deriving DecidableEq, Repr

/-- A lane of a seam: direction, group, and lane 0 to 15 or the spare 16 (R112). -/
structure LaneRef where
  dir : Fin 2
  g : Fin 128
  lane : Fin 17
  deriving DecidableEq, Repr

/-- What the receiver of a lane has found by the end of PRBS (R130): whether it locked, the physical lane of its direction whose
sequence it hears, whether it received 2^20 consecutive bits of it without an error, and its eye margin. -/
structure LaneTest where
  ln : LaneRef
  locked : Bool
  heard : Nat
  clean : Bool
  margin : Fin 64
  deriving DecidableEq, Repr

/-- What the receivers of a seam report at the end of PRBS. -/
structure PrbsReport where
  seam : SeamId
  tests : List LaneTest
  deriving DecidableEq, Repr

/-- The eye measurement of a lane: margin in 1/64 UI, and the PRBS or parity errors of the interval (R136). -/
structure EyeSample where
  ln : LaneRef
  margin : Fin 64
  errs : Nat
  deriving DecidableEq, Repr

/-- The result of a climbing step: errors and margin of each own lane, in lane order, and whether the partner's lanes passed
(R358). -/
structure StepResult where
  lanes : List (Nat × Fin 64)
  theirs : Bool
  deriving DecidableEq, Repr

/-- The kinds of Gallery packets, by the table of classes of R16. -/
inductive Packet where
  | read | write | atomic | flush
  | pwrite | doorbell | message
  | readData | ack | error
  deriving DecidableEq, Repr

/-- A Gallery flit as a router sees it: its packet, the packet's kind and the master that originated it or, for a response,
its request (R16), the hub attach point it is bound for, and whether it is the packet's last flit. -/
structure Flit where
  pkt : Nat
  kind : Packet
  m : Master
  dest : Fin 16
  last : Bool
  deriving DecidableEq, Repr

/-- What the frame code reported for a frame the scrubber read (R312). -/
inductive FrameSeen where
  | clean | single | uncorr
  deriving DecidableEq, Repr

/-- Errors of a DRAM line as a read finds it: code symbols, the 64 data symbols first, and what is added to each (R395). -/
abbrev LineErrs := List (Fin 80 × Byte)

/-- A configuration-space request of the host. -/
inductive CfgReq where
  | read (reg : Nat)
  | busMaster (v : Bool)
  | memSpace (v : Bool)
  | vfEnable (n : Fin 64)
  | msixMask (v : Bool)
  deriving DecidableEq, Repr

/-- The ADVERT block a Bortik partner sends (R357). `lanesOk` says whether its lane indices form the set 0 to w - 1. -/
structure Advert where
  serial : Word
  maxStep : Fin 8
  width : Fin 4
  precode : Bool
  resume : Bool
  lastSeq : BitVec 16
  nonce : Word
  lanesOk : Bool
  deriving DecidableEq, Repr

/-- A block of a received Bortik frame (R361); the two beacon blocks are one (R374). -/
inductive BBlock where
  | ack (seq : BitVec 16)
  | nak (seq : BitVec 16)
  | credit (q : Queue) (cred : BitVec 13) (admitted : BitVec 16)
  | reject (seq : BitVec 16) (check : Byte)
  | doorbell (q : Queue) (seq : BitVec 16) (desc : Desc)
  | keySwitch (epoch : BitVec 32) (newBase : Bool)
  | rscMark (v0 : BitVec 48) (k : BitVec 12) (w : BitVec 13) (kmin : BitVec 12)
  | beacon (serial : Word) (port : Byte) (caps : BitVec 16) (imageId : BitVec 32) (digest : BitVec 256)
      (devEpoch : BitVec 32) (devReady : Bool)
  /-- A block of a reserved type, and a CTRL block of a reserved OP. -/
  | badType
  | badOp
  deriving DecidableEq, Repr

/-- A received Bortik frame: whether a codeword was uncorrectable, whether the tag verified, whether it held RSC blocks,
its blocks in order, and the symbols that FEC corrected on each lane, in lane order. -/
structure BFrame where
  uncorr : Bool
  tagOk : Bool
  rsc : Bool
  blocks : List BBlock
  fixed : List Nat
  deriving DecidableEq, Repr

/-- The rails whose monitors hold the power-on reset (R440). -/
inductive CoreRail where
  | vccint | vcchub | vccsram | vccaux
  deriving DecidableEq, Repr

/-- A unit whose critical state failed (R93, R424). -/
inductive CritUnit where
  | survey | queueTables (q : Queue) | other (code : Fin 256)
  deriving DecidableEq, Repr

/-- A block the power ladder powers down in A1 or A2 (R454). -/
inductive WakeBlock where
  | crew | dram | lanes
  deriving DecidableEq, Repr

/-- A guest transaction's header. -/
structure GuestHdr where
  tag : Fin 256
  addr : Nat
  size : Nat
  /-- TYPE is not reserved and every field marked 0 is 0 (R490, order 2). -/
  legal : Bool
  deriving DecidableEq, Repr

/-- An event of an outpost's I2C bus: the byte sent was acknowledged or not, another controller addresses a target, a byte
arrives, a STOP. -/
inductive I2cEvent where
  | sent (ack : Bool)
  | addressed (a : BitVec 7)
  | received (v : Byte)
  | stopped
  deriving DecidableEq, Repr

/-- The commands of the block. -/
inductive Instr where
  /-- CSR_WRITE (R8): A write to a CSR that has no row of its own acts on its fields by their access codes. -/
  | csrWrite (m : Master) (addr size data : Nat)
  /-- RC_READ (R8): A read of an RC field returns the value and clears it, except from Adit. -/
  | rcRead (m : Master) (addr size : Nat)
  /-- ST_WRITE (R300): A write to an ST field range-checks and clamps the staged shadow only. -/
  | stWrite (m : Master) (addr size data : Nat)
  /-- GRIDTIME_LOW_READ (R95): A read of the lower half of GRIDTIME latches the upper half for a later 32-bit read. -/
  | gridtimeLowRead (m : Master) (size : Nat)
  /-- FLIT_FORWARD (R17): A router forwards a flit once it holds a credit at the next hop, and the credit is returned when the flit leaves its buffer. -/
  | flitForward (r : Fin 16) (inp : Fin 5) (cv : Fin 6) (inject : Option Flit)
  /-- GALLERY_REQUEST (R24): A Gallery request reaches its target after the rights check, or is answered DENIED or DECERR. -/
  | galleryRequest (i : Nat)
  /-- GALLERY_RESPONSE (R20): A response arrives at its master, which accepts it at once into reserved space. -/
  | galleryResponse (i : Nat)
  /-- FPORT_OUTBOUND_REQUEST (R28): The design issues an outbound request that takes a tag and is checked against R28 and ALLOW. -/
  | fportOutboundRequest (d : Die) (p : Port) (op : PortOp) (hostSpace : Bool) (addr beats data be : Nat)
  /-- FPORT_POSTED_ACCEPT (R29): The hub accepts an outbound posted write into the port's ordering buffer and the tag is freed. -/
  | fportPostedAccept (d : Die) (p : Port) (tag : Fin 256)
  /-- FPORT_OUTBOUND_RESPONSE (R31): A response is delivered to the design with its tag and the tag is freed. -/
  | fportOutboundResponse (d : Die) (p : Port) (tag : Fin 256)
  /-- FPORT_FLUSH (R32): The design issues a FLUSH request. -/
  | fportFlush (d : Die) (p : Port)
  /-- FPORT_FLUSH_COMPLETE (R32): A FLUSH completes once every earlier posted write of the port has been performed. -/
  | fportFlushComplete (d : Die) (p : Port) (tag : Fin 256)
  /-- FPORT_INBOUND_REQUEST (R30): A Gallery master holding an end-to-end credit delivers an inbound transaction, which takes the next free inbound tag. -/
  | fportInboundRequest (i : Nat)
  /-- FPORT_INBOUND_RESPONSE (R31): The design returns an inbound response by tag, and a response with a tag that is not outstanding is discarded and logged. -/
  | fportInboundResponse (d : Die) (p : Port) (tag : Fin 256) (data : Nat)
  /-- FPORT_STALL_TIMEOUT (R33): The stall limit passes and the port sets STALLED and completes inbound requests with STALLED. -/
  | fportStallTimeout (d : Die) (p : Port)
  /-- FPORT_STALLED_CLEAR (R33): Writing 1 to STALLED resumes inbound delivery with tags restarting at 0. -/
  | fportStalledClear (m : Master) (d : Die) (p : Port)
  /-- SECTOR_PORT_REQUEST (R60): The design issues a sector port read or write beat, refused with RINGERR in claimed areas. -/
  | sectorPortRequest (d : Die) (s : Sector) (wr : Bool) (beat : Fin 2097152) (data be : Nat)
  /-- SECTOR_PORT_RESPONSE (R61): A sector port read beat returns in request order, corrected or flagged POISON. -/
  | sectorPortResponse (d : Die) (s : Sector)
  /-- OUTPOST_PORT_ACCESS (R63): The design accesses an outpost register through the sector 11 register port, and a write is ignored with ERR if the hub owns the block. -/
  | outpostPortAccess (d : Die) (wr : Bool) (off : Fin 4096) (data : Nat)
  /-- FLASH_READ (R64): An FLCMD READ copies a flash line into FLBUF. -/
  | flashRead (d : Die) (src : Side) (line : Fin 8192)
  /-- FLASH_PROGRAM (R64): An FLCMD PROGRAM ANDs FLBUF into a flash line. -/
  | flashProgram (d : Die) (src : Side) (line : Fin 8192)
  /-- FLASH_ERASE (R64): An FLCMD ERASE sets a page to ones and increments its erase count, or is refused WORN. -/
  | flashErase (d : Die) (src : Side) (line : Fin 8192)
  /-- FLASH_OP_COMPLETE (R64): A flash operation ends, clearing BUSY and setting STATUS. -/
  | flashOpComplete (d : Die)
  /-- UART_DATA_WRITE (R63): A write to UARTu.DATA pushes the transmit FIFO, or is dropped with OVR when the FIFO is full. -/
  | uartDataWrite (d : Die) (u : Fin 2) (src : Side) (v : Byte)
  /-- UART_DATA_POP (R63): A read of UARTu.DATA pops the receive FIFO, except from Adit. -/
  | uartDataPop (d : Die) (u : Fin 2) (src : Side)
  /-- UART_RX_FRAME (R65): A UART frame is received and pushed to the receive FIFO with its error flags. -/
  | uartRxFrame (d : Die) (u : Fin 2) (v : Byte) (perr ferr : Bool)
  /-- UART_TX_FRAME (R65): The UART finishes sending a frame from its transmit FIFO. -/
  | uartTxFrame (d : Die) (u : Fin 2)
  /-- SPI_DATA_WRITE (R63): A write to SPI.DATA pushes the transmit FIFO. -/
  | spiDataWrite (d : Die) (src : Side) (v : Byte)
  /-- SPI_DATA_POP (R63): A read of SPI.DATA pops the receive FIFO. -/
  | spiDataPop (d : Die) (src : Side)
  /-- I2C_CMD_WRITE (R63): A write to I2C.CMD issues a byte, START, STOP or ACK action. -/
  | i2cCmdWrite (d : Die) (src : Side) (cmd : Nat)
  /-- I2C_CMD_POP (R63): A read of I2C.CMD pops the received byte. -/
  | i2cCmdPop (d : Die) (src : Side)
  /-- SPINE_CONTENTION_DETECT (R85): A sensor sees two enables true on a spine, disables its drivers, logs the event and requests a repair. -/
  | spineContentionDetect (d : Die) (col : Fin 12) (spine : Fin 48) (drv : BitVec 16)
  /-- SPINE_REPAIR_COMPLETE (R86): The scrubber's spine repair ends and the spine is re-enabled (REPAIRED) or left off (RELOAD). -/
  | spineRepairComplete (d : Die) (uncorr : Bool)
  /-- QUAL_WINDOW (R90): A window of 1,024 IRO cycles ends and its crystal edge count is judged. -/
  | qualWindow (count : Nat)
  /-- CRYSTAL_QUAL_TIMEOUT (R91): No run qualifies within 20 ms, so the crystal is declared absent and the reduced state begins. -/
  | crystalQualTimeout
  /-- HOLDOVER_TIMEOUT (R92): Holdover lasts 1 ms without requalification, so the PLL switches to the IRO and the reduced state begins. -/
  | holdoverTimeout
  /-- SURVEY_PLL_LOCK (R91): The survey PLL locks, SLOCK is set and GRIDTIME starts. -/
  | surveyPllLock
  /-- FPLL_LOCK (R100): A fabric PLL achieves or regains lock and sets LOCK and its GLOCK bits. -/
  | fpllLock (d : Die) (i : Fin 16)
  /-- FPLL_LOCK_TIMEOUT (R101): A fabric PLL has not locked within 100 µs of COMMIT and sets LOLS. -/
  | fpllLockTimeout (d : Die) (i : Fin 16)
  /-- FPLL_LOCK_LOSS (R101): A locked fabric PLL loses lock, clears LOCK and GLOCK, logs and tells the link manager. -/
  | fpllLockLoss (d : Die) (i : Fin 16)
  /-- CLOCK_SWITCH_START (R105): A select change, a SEL write or a fabric select input change starts a glitch-free switch. -/
  | clockSwitchStart (d : Die) (m : Net) (cause : SwitchCause)
  /-- CLOCK_SWITCH_PARK (R105): A falling edge of the old source arrives and the switch parks its output low. -/
  | clockSwitchPark (d : Die) (m : Net)
  /-- CLOCK_SWITCH_DEADSRC_TIMEOUT (R105): The old source gives no falling edge in time, so the switch parks at once and sets DEADSRC. -/
  | clockSwitchDeadsrcTimeout (d : Die) (m : Net)
  /-- CLOCK_SWITCH_COMPLETE (R105): A falling edge of the new source arrives and the switch passes it from the next rising edge. -/
  | clockSwitchComplete (d : Die) (m : Net)
  /-- CLOCK_SWITCH_NOSRC_TIMEOUT (R105): The new source gives no edge within 10.24 µs and NOSRC is set. -/
  | clockSwitchNosrcTimeout (d : Die) (m : Net)
  /-- HUB_GATE_CLOSE (R106): A commanded hub gate closes at its network's next falling edge and HALTED is set. -/
  | hubGateClose (d : Die) (m : Net)
  /-- FABRIC_ENABLE_CHANGE (R107): The fabric enable of a network changes and takes effect at the next falling edge of the switch output. -/
  | fabricEnableChange (d : Die) (m : Net) (v : Bool)
  /-- STAKE_LATCH (R109): Writing STAKELATCH.GO copies all 64 stake counters of the die and records the time. -/
  | stakeLatch (who : Master) (d : Die)
  /-- STAKE_LATCH_RELEASE (R109): Writing 1 to HELD returns stake reads to live values. -/
  | stakeLatchRelease (who : Master) (d : Die)
  /-- FABRIC_SEAM_TRAIN_START (R129): A fabric seam starts training once the hub seams of both its ends are LIVE. -/
  | fabricSeamTrainStart (n : Die)
  /-- SEAM_RESET_DONE (R132): The 20 µs RESET state of a seam ends and the seam enters PRBS. -/
  | seamResetDone (k : SeamId)
  /-- SEAM_PRBS_DONE (R130): Every lane of a seam has passed PRBS and the seam enters REPORT. -/
  | seamPrbsDone (r : PrbsReport)
  /-- SEAM_PRBS_TIMEOUT (R132): The PRBS state of a seam times out and the lanes that have not passed fail. -/
  | seamPrbsTimeout (k : SeamId) (tests : List LaneTest)
  /-- SEAM_LRPT (R133): The manager receives a lane report, or drops it for a bad CRC. -/
  | seamLrpt (k : SeamId) (dir : Fin 2) (body : List Byte) (crc : BitVec 16)
  /-- SEAM_REPORT_TIMEOUT (R132): An end has not reported within 50 µs and the seam fails. -/
  | seamReportTimeout (k : SeamId)
  /-- SEAM_MACK (R135): The manager receives a MACK and, when both match, records the map and sends GO. -/
  | seamMack (k : SeamId) (owner : Bool) (received computed : BitVec 16)
  /-- SEAM_MAP_TIMEOUT (R132): A MAP attempt ends without matching MACKs and is resent, or the seam fails after three attempts. -/
  | seamMapTimeout (k : SeamId)
  /-- EYE_MEASURE (R136): The 10 µs eye measurement of a lane ends and the margin is compared with EYEWARN and EYESWAP. -/
  | eyeMeasure (k : SeamId) (dir : Fin 2) (g : Fin 128) (lanes : List (Fin 17 × Fin 64 × Nat))
  /-- SPARE_SWAP_COMPLETE (R137): The receiver switches to the spare at a group resynchronisation. -/
  | spareSwapComplete (k : SeamId) (dir : Fin 2) (g : Fin 128)
  /-- LANE_ABRUPT_FAIL (R138): A seam lane loses lock or fails the parity rule, holds its last values and sets LOSSY. -/
  | laneAbruptFail (k : SeamId) (ln : LaneRef)
  /-- DEGRADE_PLAN_APPLY (R144): The manager selects and applies a degrade plan for the retired set, or declares the seam FAILED. -/
  | degradePlanApply (n : Die)
  /-- BINDING_ALIGN (R124): A binding whose conditions hold is aligned, DELTA is recorded and held domains are released. -/
  | bindingAlign (n : Die) (dir : Fin 2) (b : Fin 16) (delta : BitVec 48)
  /-- SEAM_REJOIN (R147): A quarantined fabric seam retrains with the reset die and compares maps. -/
  | seamRejoin (n : Die) (late : Bool)
  /-- FABRIC_TRIGGER (R151): A rising edge on an enabled fabric trigger line registers a trigger with its TTIME. -/
  | fabricTrigger (d : Die) (line : Fin 16)
  /-- TRIG_IN_PIN (R151): A rising edge on TRIG_IN registers a trigger. -/
  | trigInPin (j : Fin 4)
  /-- HTRIG_WRITE (R151): A write of HTRIG.GO triggers the named profile on the named dies. -/
  | htrigWrite (m : Master) (d : Die) (dies : BitVec 4) (profile : Fin 8)
  /-- TRIGGER_ARRIVAL (R152): A trigger reaches a die's strata engine, which accepts it or refuses it with a status. -/
  | triggerArrival (d : Die) (i : Nat)
  /-- CAPTURE_NETWORK (R153): A network's capture edge passes and its flip-flops load their shadows, with STAKE and EDGEDLY recorded. -/
  | captureNetwork (d : Die) (m : Net)
  /-- CAPTURE_WAIT_TIMEOUT (R153): A network gives no edge within CAPWAIT and is marked MISSING. -/
  | captureWaitTimeout (d : Die) (m : Net)
  /-- STRATA_DRAIN_START (R154): After the last capture edge, all sectors start draining their shadows to the home tiles. -/
  | strataDrainStart (d : Die)
  /-- STRATA_DRAIN_COMPLETE (R154): A drain ends and the header gets its final KIND and DRAINEND. -/
  | strataDrainComplete (d : Die)
  /-- STRATA_WINDOW_ACCESS (R159): A window access to a claimed strata area is performed, refused DENIED or made to wait. -/
  | strataWindowAccess (i : Nat)
  /-- DEEP_DRAIN_COMPLETE (R162): A deep drain finishes reading the mask frames and the header becomes DEEP. -/
  | deepDrainComplete (d : Die)
  /-- RESTORE_COMPLETE (R164): A restore loads the shadows into the masked flip-flops and ends OK, SKIPPED or POISON. -/
  | restoreComplete (d : Die)
  /-- ADD (R178): ALU register add. -/
  | add (c : Core) (rd rs1 rs2 : Reg)
  /-- SUB (R178): ALU register subtract. -/
  | sub (c : Core) (rd rs1 rs2 : Reg)
  /-- AND (R178): ALU register bitwise and. -/
  | andOp (c : Core) (rd rs1 rs2 : Reg)
  /-- OR (R178): ALU register bitwise or. -/
  | orOp (c : Core) (rd rs1 rs2 : Reg)
  /-- XOR (R178): ALU register bitwise exclusive or. -/
  | xorOp (c : Core) (rd rs1 rs2 : Reg)
  /-- SLL (R178): Shift left logical by rs2[5:0]. -/
  | sll (c : Core) (rd rs1 rs2 : Reg)
  /-- SRL (R178): Shift right logical by rs2[5:0]. -/
  | srl (c : Core) (rd rs1 rs2 : Reg)
  /-- SRA (R178): Shift right arithmetic by rs2[5:0]. -/
  | sra (c : Core) (rd rs1 rs2 : Reg)
  /-- SLT (R178): Set if less than, signed. -/
  | slt (c : Core) (rd rs1 rs2 : Reg)
  /-- SLTU (R178): Set if less than, unsigned. -/
  | sltu (c : Core) (rd rs1 rs2 : Reg)
  /-- MUL (R178): Low 64 bits of the product. -/
  | mul (c : Core) (rd rs1 rs2 : Reg)
  /-- MULH (R178): High 64 bits of the signed product. -/
  | mulh (c : Core) (rd rs1 rs2 : Reg)
  /-- MULHU (R178): High 64 bits of the unsigned product. -/
  | mulhu (c : Core) (rd rs1 rs2 : Reg)
  /-- DIV (R179): Signed divide, with the divide-by-zero and overflow results of R179. -/
  | div (c : Core) (rd rs1 rs2 : Reg)
  /-- DIVU (R179): Unsigned divide. -/
  | divu (c : Core) (rd rs1 rs2 : Reg)
  /-- REM (R179): Signed remainder. -/
  | rem (c : Core) (rd rs1 rs2 : Reg)
  /-- REMU (R179): Unsigned remainder. -/
  | remu (c : Core) (rd rs1 rs2 : Reg)
  /-- CLZ (R178): Count the leading zero bits of rs1. -/
  | clz (c : Core) (rd rs1 : Reg)
  /-- POPC (R178): Count the set bits of rs1. -/
  | popc (c : Core) (rd rs1 : Reg)
  /-- ADDI (R180): Add an immediate. -/
  | addi (c : Core) (rd rs1 : Reg) (imm : BitVec 12)
  /-- ANDI (R180): And with an immediate. -/
  | andi (c : Core) (rd rs1 : Reg) (imm : BitVec 12)
  /-- ORI (R180): Or with an immediate. -/
  | ori (c : Core) (rd rs1 : Reg) (imm : BitVec 12)
  /-- XORI (R180): Exclusive or with an immediate. -/
  | xori (c : Core) (rd rs1 : Reg) (imm : BitVec 12)
  /-- SLTI (R180): Set if less than an immediate, signed. -/
  | slti (c : Core) (rd rs1 : Reg) (imm : BitVec 12)
  /-- SLTIU (R180): Set if less than an immediate, unsigned. -/
  | sltiu (c : Core) (rd rs1 : Reg) (imm : BitVec 12)
  /-- SLLI (R180): Shift left logical by an immediate. -/
  | slli (c : Core) (rd rs1 : Reg) (sh : BitVec 6)
  /-- SRLI (R180): Shift right logical by an immediate. -/
  | srli (c : Core) (rd rs1 : Reg) (sh : BitVec 6)
  /-- SRAI (R180): Shift right arithmetic by an immediate. -/
  | srai (c : Core) (rd rs1 : Reg) (sh : BitVec 6)
  /-- LUI (R181): Load the sign-extended imm20 shifted left by 12. -/
  | lui (c : Core) (rd : Reg) (imm : BitVec 20)
  /-- LB (R182): Load a byte, sign-extended. -/
  | lb (c : Core) (rd rs1 : Reg) (imm : BitVec 12)
  /-- LH (R182): Load 16 bits, sign-extended. -/
  | lh (c : Core) (rd rs1 : Reg) (imm : BitVec 12)
  /-- LW (R182): Load 32 bits, sign-extended. -/
  | lw (c : Core) (rd rs1 : Reg) (imm : BitVec 12)
  /-- LD (R182): Load 64 bits. -/
  | ld (c : Core) (rd rs1 : Reg) (imm : BitVec 12)
  /-- LBU (R182): Load a byte, zero-extended. -/
  | lbu (c : Core) (rd rs1 : Reg) (imm : BitVec 12)
  /-- LHU (R182): Load 16 bits, zero-extended. -/
  | lhu (c : Core) (rd rs1 : Reg) (imm : BitVec 12)
  /-- LWU (R182): Load 32 bits, zero-extended. -/
  | lwu (c : Core) (rd rs1 : Reg) (imm : BitVec 12)
  /-- SB (R182): Store a byte. -/
  | sb (c : Core) (rs1 rs2 : Reg) (imm : BitVec 12)
  /-- SH (R182): Store 16 bits. -/
  | sh (c : Core) (rs1 rs2 : Reg) (imm : BitVec 12)
  /-- SW (R182): Store 32 bits. -/
  | sw (c : Core) (rs1 rs2 : Reg) (imm : BitVec 12)
  /-- SD (R182): Store 64 bits. -/
  | sd (c : Core) (rs1 rs2 : Reg) (imm : BitVec 12)
  /-- LOAD_RESPONSE (R184): A hub load response returns to the core, writes rd or raises an imprecise trap. -/
  | loadResponse (c : Core) (i : Nat)
  /-- STORE_ACK (R184): A hub store acknowledgement frees a store buffer entry, or raises an imprecise STOREERR. -/
  | storeAck (c : Core) (i : Nat)
  /-- ICACHE_FILL_RESPONSE (R174): An instruction cache line fill completes, or traps FETCH or POISON. -/
  | icacheFillResponse (c : Core) (status : Status)
  /-- BEQ (R186): Branch if equal. -/
  | beq (c : Core) (rs1 rs2 : Reg) (off : BitVec 12)
  /-- BNE (R186): Branch if not equal. -/
  | bne (c : Core) (rs1 rs2 : Reg) (off : BitVec 12)
  /-- BLT (R186): Branch if less than, signed. -/
  | blt (c : Core) (rs1 rs2 : Reg) (off : BitVec 12)
  /-- BGE (R186): Branch if greater or equal, signed. -/
  | bge (c : Core) (rs1 rs2 : Reg) (off : BitVec 12)
  /-- BLTU (R186): Branch if less than, unsigned. -/
  | bltu (c : Core) (rs1 rs2 : Reg) (off : BitVec 12)
  /-- BGEU (R186): Branch if greater or equal, unsigned. -/
  | bgeu (c : Core) (rs1 rs2 : Reg) (off : BitVec 12)
  /-- JALR (R187): Jump to a register-relative target and link. -/
  | jalr (c : Core) (rd rs1 : Reg) (imm : BitVec 12)
  /-- JAL (R187): Jump to a pc-relative target and link. -/
  | jal (c : Core) (rd : Reg) (off : BitVec 17)
  /-- TRET (R187): The foreman returns from its trap handler to EPC and clears TACTIVE. -/
  | tret (c : Core)
  /-- ILLEGAL_INSTRUCTION (R177): An unlisted or malformed instruction traps ILLEGAL. -/
  | illegalInstruction (c : Core) (w : BitVec 32)
  /-- LOCK (R198): Opens a locked sequence. -/
  | lockOp (c : Core)
  /-- ENDLOCK (R199): Sends the buffered stores and the reservations and writes them all or nothing, returning 0 or 1. -/
  | endlock (c : Core) (rd : Reg)
  /-- PRIORITY_RESERVATION_GRANT (R202): A LOCK waiting after 16 failures is granted the hub's priority reservation. -/
  | priorityReservationGrant
  /-- PRIORITY_RESERVATION_TIMEOUT (R202): A priority reservation is released after 4 µs. -/
  | priorityReservationTimeout
  /-- FENCE_R (R195): Waits until every earlier load is performed. -/
  | fenceR (c : Core)
  /-- FENCE_W (R195): Waits until every earlier store is acknowledged. -/
  | fenceW (c : Core)
  /-- FENCE_RW (R195): Waits for both loads and stores. -/
  | fenceRw (c : Core)
  /-- FENCE_RWI (R195): Waits for both and invalidates the instruction cache. -/
  | fenceRwi (c : Core)
  /-- TRAP (R194): Raises a SOFT trap with TVAL = rs1. -/
  | trap (c : Core) (rs1 : Reg)
  /-- ENQ (R210): Appends a descriptor to a queue with a ticket, or returns a status. -/
  | enq (c : Core) (rd rs1 rs2 : Reg)
  /-- DEQ (R211): Removes the oldest entry of a non-auto queue and releases its ticket. -/
  | deq (c : Core) (rd rs1 rs2 : Reg)
  /-- REPLY (R212): Sends a record to the current item's reply queue. -/
  | reply (c : Core) (rd rs1 : Reg)
  /-- DONE (R213): Ends the item, posts a completion record if needed, frees its resources and idles the core. -/
  | doneItem (c : Core) (rd rs1 : Reg)
  /-- FSET_CLAIM (R214): Claims a die's frame engine and sets its frame pointer. -/
  | fsetClaim (c : Core) (rd rs1 rs2 : Reg)
  /-- FSET_RELEASE (R214): Releases the core's frame engine claim. -/
  | fsetRelease (c : Core) (rd rs1 rs2 : Reg)
  /-- FRAME_CLAIM_TIMEOUT (R214): A foreman claim made outside an item is released after 625 µs and logged. -/
  | frameClaimTimeout (d : Die)
  /-- FWR (R216): Writes consecutive frames from memory, stopping at LIVE, CONTEND, POISON or DATAERR. -/
  | fwr (c : Core) (rd rs1 rs2 : Reg)
  /-- FRD (R217): Reads and corrects consecutive frames into memory. -/
  | frd (c : Core) (rd rs1 rs2 : Reg)
  /-- FVERIFY (R218): Compares consecutive corrected frames with a reference. -/
  | fverify (c : Core) (rd rs1 rs2 : Reg)
  /-- FRAME_OP_COMPLETE (R215): A frame streaming operation ends, leaves the pointer and writes rd with the frame count. -/
  | frameOpComplete (d : Die)
  /-- STAGE (R220): Writes a CSR and reads it back in one exchange. -/
  | stage (c : Core) (rd rs1 rs2 : Reg)
  /-- COMMIT (R222): Applies all staged fields of a commit group at once with coupled-field clamps. -/
  | commit (c : Core) (rd rs1 : Reg)
  /-- CFG_COMMIT_GO (R222): A write of HUB.CFG.COMMIT.GO commits GROUP as the instruction does. -/
  | cfgCommitGo (m : Master) (group : BitVec 16)
  /-- COMMIT_DEFERRED_APPLY (R301): A deferred commit applies when its group's operation ends, with its clamps logged then. -/
  | commitDeferredApply (group : BitVec 16)
  /-- KLOAD (R225): Copies a key into the current IMAGE half or the pending half of a slot. -/
  | kload (c : Core) (rd rs1 rs2 : Reg)
  /-- KROLL (R226): Derives the next image key, starts a cipher install or re-key, or rekeys a Bortik link. -/
  | kroll (c : Core) (rd rs1 rs2 : Reg)
  /-- KWIPE (R227): Zeroes both halves of a key slot. -/
  | kwipe (c : Core) (rd rs2 : Reg)
  /-- ADIG (R229): Writes a scope's digest and epoch to memory. -/
  | adig (c : Core) (rd rs1 rs2 : Reg)
  /-- ACMP (R230): Compares a scope's digest with an expected value. -/
  | acmp (c : Core) (rd rs1 rs2 : Reg)
  /-- STRAIN (R231): Retrains a fabric seam and clears its retired set. -/
  | strain (c : Core) (rd rs1 : Reg)
  /-- SWIDTH (R232): Reports a seam direction's live and retired groups, plan and state. -/
  | swidth (c : Core) (rd rs1 rs2 : Reg)
  /-- SPLAN_QUERY (R233): Tries a degrade plan against the current retired set without change. -/
  | splanQuery (c : Core) (rd rs1 rs2 : Reg)
  /-- SPLAN_RETIRE (R233): Retires a group of a fabric seam, and plan selection follows. -/
  | splanRetire (c : Core) (rd rs1 rs2 : Reg)
  /-- CAP (R234): Triggers a capture profile on a die mask and returns CAPID and slots. -/
  | cap (c : Core) (rd rs1 rs2 : Reg)
  /-- DRAIN (R235): Deepens a shallow stratum into a destination after the checks of R161. -/
  | drain (c : Core) (rd rs1 rs2 : Reg)
  /-- RESTORE (R235): Restores a stratum into the masked networks after the checks of R163. -/
  | restore (c : Core) (rd rs1 rs2 : Reg)
  /-- CLKHALT (R236): Commands the hub gates of a network set to close, optionally waiting for all. -/
  | clkhalt (c : Core) (rd rs1 rs2 : Reg)
  /-- CLKRUN (R236): Opens the hub gates of a network set, counting refusals. -/
  | clkrun (c : Core) (rd rs1 : Reg)
  /-- WAIT (R237): Waits for a write to a watch line or for a timeout. -/
  | waitOp (c : Core) (rd rs1 rs2 : Reg)
  /-- WAIT_WAKE (R237): Another master writes the watched line, or the timeout expires, and WAIT returns. -/
  | waitWake (c : Core) (timeout : Bool)
  /-- MSG_MSIX (R238): Raises an MSI-X vector of a PCI Express function. -/
  | msgMsix (c : Core) (rd rs1 rs2 : Reg)
  /-- MSG_LOG (R238): Writes a software event to the error log. -/
  | msgLog (c : Core) (rd rs1 rs2 : Reg)
  /-- RSTREQ_WARM (R239): Requests a warm reset. -/
  | rstreqWarm (c : Core) (rd rs1 rs2 : Reg)
  /-- RSTREQ_COLD (R239): Requests a cold reset. -/
  | rstreqCold (c : Core) (rd rs1 rs2 : Reg)
  /-- RSTREQ_DIE (R239): Requests a die reset of one die. -/
  | rstreqDie (c : Core) (rd rs1 rs2 : Reg)
  /-- FUSERD (R240): Returns a fuse word. -/
  | fuserd (c : Core) (rd rs1 : Reg)
  /-- FUSEPROG (R240): Blows bits of an unlocked fuse word. -/
  | fuseprog (c : Core) (rd rs1 rs2 : Reg)
  /-- OPTWR (R241): Writes an option image to the older writable copy. -/
  | optwr (c : Core) (rd rs1 : Reg)
  /-- DOORBELL (R250): A 64-byte doorbell write carries a descriptor to the scheduler for admission. -/
  | doorbell (m : Master) (q : Queue) (desc : Desc)
  /-- FPORT_CREDIT_UPDATE (R252): The scheduler raises a port's credit copy after CRED rises, and refused doorbells are resent. -/
  | fportCreditUpdate (d : Die) (p : Port) (q : Queue)
  /-- QUEUE_ENABLE (R245): Writing EN = 1 enables a queue if its conditions hold, or logs the refusal. -/
  | queueEnable (m : Master) (q : Queue)
  /-- QUEUE_DISABLE (R246): Writing EN = 0 discards undispatched entries and releases their tickets and credits. -/
  | queueDisable (m : Master) (q : Queue)
  /-- QUEUE_POP (R247): A write to Qq.PTR.POP frees the oldest entries of a non-auto, non-deliver queue. -/
  | queuePop (m : Master) (q : Queue) (n : Fin 8192)
  /-- AFF_WRITE (R265): A write to Qq.AFF changes eligibility and is a dispatch event. -/
  | affWrite (m : Master) (q : Queue) (mask : BitVec 64)
  /-- SHIFT_CHANGE (R261): An entry that has waited longer than PATIENCE moves up one level. -/
  | shiftChange (q : Queue) (seq : Nat)
  /-- BURN_LIMIT_ABORT (R262): An item's burn count reaches its limit, so the item is aborted and an abort record is posted. -/
  | burnLimitAbort (c : Core)
  /-- FPORT_DELIVERY (R242): The oldest entry of a deliver queue owned by a fabric port is written to the port's DEST offset. -/
  | fportDelivery (q : Queue)
  /-- FPORT_DELIVERY_ACCEPT (R242): The port reports acceptance of a delivery and the entry's slot frees. -/
  | fportDeliveryAccept (q : Queue)
  /-- LOAD_REQUEST (R277): The foreman takes a Q0 entry and starts a load, reading the Legend and directory. -/
  | loadRequest
  /-- LEGEND_CHECK (R282): With the Legend and directory arrived, checks 1–12 run and the key is unwrapped. -/
  | legendCheck (bytes : List Byte)
  /-- SEGMENT_COMPLETE (R280): A segment's last byte arrives and its HASH and TAG are checked. -/
  | segmentComplete (bytes : List Byte)
  /-- IMAGE_PROGRAM_RETURN (R281): The image program returns, with g1 deciding success or PROGFAIL. -/
  | imageProgramReturn
  /-- LOAD_VERIFY_TIMEOUT (R282): A PLL feeding RUNNETS is not locked within 200 µs of VERIFY and the load fails NOLOCK. -/
  | loadVerifyTimeout
  /-- LOAD_SOURCE_STALL (R282): The source delivers nothing for 100 ms and the load fails STALLED. -/
  | loadSourceStall
  /-- LOAD_CLEAR_COMPLETE (R279): The CLEAR stage finishes zeroing frames, then golden fallback starts or CFG_ERR_N falls. -/
  | loadClearComplete
  /-- RELEASE_WRITE (R286): A write of HUB.CFG.RELEASE in stage RELEASE releases a die: set-reset lifted, RUNNETS opened, banks and ports enabled. -/
  | releaseWrite (m : Master) (dies : BitVec 4)
  /-- PLP_WORD (R289): The parallel load port takes a word, detecting the image start or staging bytes. -/
  | plpWord (w : BitVec 32)
  /-- SLP_WRITE (R291): A quad serial WRITE transaction delivers image bytes, dropped with DATAERR without space. -/
  | slpWrite (bytes : List Byte)
  /-- SLP_STATUS (R291): A quad serial STATUS transaction returns the status byte. -/
  | slpStatus
  /-- SLP_OTHER_COMMAND (R291): Any other quad serial command is ignored until SLP_CS_N rises. -/
  | slpOtherCommand (cmd : Byte)
  /-- BOOT_FLASH_BURST (R293): The boot flash port completes a 4,096-byte quad-SPI read burst. -/
  | bootFlashBurst (bytes : List Byte)
  /-- FENCE_CLOSE (R306): Writing FENCE = 1 acts the fence latches and input gates and starts closing the tap gates. -/
  | fenceClose (m : Master) (d : Die) (s : Sector)
  /-- FENCE_SETTLED (R306): Every tap gate of the fenced sector has closed, or 1 µs has passed, and SETTLED is set. -/
  | fenceSettled (d : Die) (s : Sector)
  /-- FENCE_LIFT (R307): Writing FENCE = 0 resets the sector to INIT, opens its gates and releases its latches. -/
  | fenceLift (m : Master) (d : Die) (s : Sector)
  /-- MASK_TABLE_WRITE (R317): A write to a mask table word is performed only for a fenced sector or unreleased die. -/
  | maskTableWrite (m : Master) (d : Die) (s : Sector) (w : Fin 16) (v : Word)
  /-- SCRUB_FRAME (R312): The scrubber's 40 ns frame slot ends: it skips, hashes, corrects or flags the frame. -/
  | scrubFrame (d : Die) (seen : FrameSeen)
  /-- SCRUB_STUCK_TIMEOUT (R316): No frame slot completes in 100 µs, so STUCK is set and the sequencer restarts. -/
  | scrubStuckTimeout (d : Die)
  /-- DIE_DIGEST_COMPUTE (R319): After a complete pass the die digest is computed and the epoch increments. -/
  | dieDigestCompute (d : Die)
  /-- HUB_DIGEST_RECOMPUTE (R320): The hub configuration digest is recomputed after a covered COMMIT or a load. -/
  | hubDigestRecompute
  /-- DEVICE_DIGEST_RECOMPUTE (R321): The device digest is recomputed after a new die or hub digest. -/
  | deviceDigestRecompute
  /-- PCIE_LINK_UP (R341): The PCI Express link reaches L0. -/
  | pcieLinkUp (gen : Fin 8) (width : Fin 32) (flit : Bool)
  /-- PCIE_LINK_DOWN (R344): The link goes down without PERST_N and acts with the reach of HOTREACH. -/
  | pcieLinkDown
  /-- PCIE_HOT_RESET (R344): A hot reset causes a warm reset or a controller-only reset per HOTREACH. -/
  | pcieHotReset
  /-- PCIE_CONFIG_REQUEST (R341): A configuration request is answered, or completes with Request Retry Status before 20 ms. -/
  | pcieConfigRequest (f : Func) (req : CfgReq)
  /-- PCIE_MEM_WRITE (R332): A host write TLP is translated through a BAR into the Gallery, or refused as poisoned. -/
  | pcieMemWrite (f : Func) (bar : Fin 6) (off size data : Nat) (poisoned : Bool)
  /-- PCIE_MEM_READ (R332): A host read TLP is translated and answered with completions. -/
  | pcieMemRead (f : Func) (bar : Fin 6) (off size : Nat) (tag : Fin 16384)
  /-- PCIE_COMPLETION_RECEIVED (R342): A completion to a host-bound read arrives, or is discarded as unexpected. -/
  | pcieCompletionReceived (id : Nat) (status : Status) (data : Nat)
  /-- PCIE_COMPLETION_TIMEOUT (R342): A host-bound request times out and completes at its requester with TGTERR. -/
  | pcieCompletionTimeout (id : Nat)
  /-- PCIE_FLR (R330): A Function Level Reset disables the function's queues and resets its state. -/
  | pcieFlr (f : Func)
  /-- BAR_RESIZE (R334): The host resizes PF BAR4, changing the aperture size. -/
  | barResize (log2 : Fin 64)
  /-- MSIX_ENABLE (R338): A function sets MSI-X Enable and its vector range is checked. -/
  | msixEnable (f : Func) (on : Bool)
  /-- MSIX_UNMASK (R339): A vector's mask clears and a pending message is sent. -/
  | msixUnmask (f : Func) (vec : Fin 2048)
  /-- FUNC_MSIX_WRITE (R338): A write to FUNCf.MSIX takes effect only while MSI-X (and VF) enable is 0. -/
  | funcMsixWrite (m : Master) (f : Func) (data : Word)
  /-- HOST_RING_DELIVERY (R336): The oldest entry of a host-owned deliver queue is written to the host ring and TAIL increments. -/
  | hostRingDelivery (q : Queue)
  /-- HRING_HEAD_WRITE (R337): A host write to HEAD frees ring room, or is ignored if it exceeds DEPTH. -/
  | hringHeadWrite (m : Master) (q : Queue) (head : BitVec 16)
  /-- DBGWIN_WRITE (R340): A write of HUB.PCIE.CTL.DBGWIN opens or closes the debug window if the writer is permitted. -/
  | dbgwinWrite (m : Master) (v : Bool)
  /-- LINK_SIGNAL_DETECT (R356): Signal appears on all lanes of a Bortik link in DETECT and the link enters STEP1. -/
  | linkSignalDetect (l : Link)
  /-- BORTIK_ADVERT (R357): An ADVERT block is received and the step, width and resumption are agreed. -/
  | bortikAdvert (l : Link) (a : Advert)
  /-- LINK_STEP1_TIMEOUT (R356): STEP1 fails and the link returns to DETECT after 100 ms with its cause. -/
  | linkStep1Timeout (l : Link)
  /-- CLIMB_STEP_COMPLETE (R358): A climbing step's pattern check and result exchange end, and the link climbs further or stops. -/
  | climbStepComplete (l : Link) (r : StepResult)
  /-- LINK_ALIGN_COMPLETE (R363): Block lock and deskew complete, session keys are derived and the link goes UP or NOKEY. -/
  | linkAlignComplete (l : Link)
  /-- LINK_KEY_AVAILABLE (R363): A key becomes present for a NOKEY link, which derives session keys and goes UP. -/
  | linkKeyAvailable (l : Link)
  /-- LANE_LOCK_LOSS (R359): A Bortik lane loses clock or block lock and RSC channels are held. -/
  | laneLockLoss (k : Lane)
  /-- LANE_LOCK_REGAIN (R359): All lanes regain lock within 10 µs and the link stays UP. -/
  | laneLockRegain (l : Link)
  /-- LANE_LOCK_TIMEOUT (R359): A lock loss lasts over 10 µs and the link ends with LOL. -/
  | laneLockTimeout (l : Link)
  /-- LANE_MARGIN_MEASURE (R360): The 100 µs vertical margin measurement ends and a MARGIN event may be posted. -/
  | laneMarginMeasure (k : Lane) (margin : Fin 64)
  /-- BORTIK_FRAME_RECEIVE (R362): A sealed frame and its TAG arrive; on a good tag its blocks are delivered, otherwise NAK and AUTHFAIL. -/
  | bortikFrameReceive (l : Link) (fr : BFrame)
  /-- BORTIK_RSC_BLOCK (R372): An RSC block is delivered at once to the channel's receive buffer. -/
  | bortikRscBlock (l : Link) (cycle : Fin 128) (index : Fin 32) (slots : BitVec 240)
  /-- BEACON_SEND (R374): Every 1 ms an UP or NOKEY link sends BEACON0 and BEACON1. -/
  | beaconSend (l : Link)
  /-- BEACON_LOST_TIMEOUT (R375): 3 ms pass on a link without a beacon and BEACONLOST is posted. -/
  | beaconLostTimeout (l : Link)
  /-- REPLAY_TIMEOUT (R365): 20 µs pass without an ACK and the sender resends from the oldest unacknowledged frame. -/
  | replayTimeout (l : Link)
  /-- KEY_EPOCH_SWITCH (R364): A direction's block count reaches the switch point and both ends change key and restart the count. -/
  | keyEpochSwitch (l : Link) (dir : Fin 2)
  /-- CREDIT_SEND (R367): A device sends CREDIT for its link-owned queues at UP and after each CRED change. -/
  | creditSend (l : Link) (q : Queue)
  /-- BORTIK_DELIVERY (R366): An entry of a link-owned deliver queue is sent as three DATA blocks against a credit. -/
  | bortikDelivery (q : Queue)
  /-- RSC_ALIGN_COMPLETE (R372): The remote seam channel's 1 ms fill check passes and the channel is aligned, or NOTSYNC is set and it retries. -/
  | rscAlignComplete (l : Link) (steady : Bool) (delta : BitVec 48)
  /-- DDR_TRAIN_COMPLETE (R391): Initial channel training ends ACTIVE, or FAILED with TRAINFAIL. -/
  | ddrTrainComplete (n : Chan) (fail : Option (Fin 16 × Fin 4))
  /-- DDR_REFRESH_DUE (R384): A rank's refresh falls due and is issued all-bank or by fallback. -/
  | ddrRefreshDue (n : Chan) (rank : Fin 4)
  /-- DDR_SAME_BANK_REFRESH (R386): A REFsb for a bank index is issued when its banks are idle or the interval ends. -/
  | ddrSameBankRefresh (n : Chan) (rank : Fin 4) (b : Fin 4)
  /-- DDR_OWED_REFRESH_PAY (R387): After REF.IDLE without requests, an owed DDR4 refresh is paid. -/
  | ddrOwedRefreshPay (n : Chan) (rank : Fin 4)
  /-- DDR_MR4_POLL (R384): Every 1 ms the DDR5 MR4 refresh rate is read and doubling begins or ends. -/
  | ddrMr4Poll (n : Chan) (want : Bool)
  /-- DDR_DQS_TRACK (R392): Every 1 ms the DQS oscillator is read and the write DQS delay is corrected. -/
  | ddrDqsTrack (n : Chan) (rank : Fin 4) (lane : Fin 16) (drift : Int)
  /-- DDR_MARGIN_AUDIT (R393): Every AUDIT ms a lane's read and write margins are measured. -/
  | ddrMarginAudit (n : Chan) (rd wr : Fin 64)
  /-- DDR_REFRESH_WINDOW (R389): A refresh window starts and every activate table is cleared. -/
  | ddrRefreshWindow (n : Chan)
  /-- DDR_READ (R395): A channel reads a line and corrects it, or returns POISON. -/
  | ddrRead (i : Nat) (seen : List LineErrs)
  /-- DDR_WRITE (R396): A channel writes a whole line, or does read-merge-write for a partial write. -/
  | ddrWrite (i : Nat) (seen : List LineErrs)
  /-- DDR_RETRAIN (R394): A write of CMD.RETRAIN retrains the channel with contents kept. -/
  | ddrRetrain (m : Master) (n : Chan)
  /-- DDR_RETRAIN_COMPLETE (R394): The retrain ends ACTIVE with RETRAINED, or FAILED. -/
  | ddrRetrainComplete (n : Chan) (fail : Option (Fin 16 × Fin 4))
  /-- CIPHER_READ (R408): A DRAM read in a region is decrypted with the keystream of its counters. -/
  | cipherRead (i : Nat) (seen : List LineErrs)
  /-- CIPHER_WRITE (R407): A DRAM write in a region increments its minor counter, writes both counter copies, then the encrypted line. -/
  | cipherWrite (i : Nat) (seen : List LineErrs)
  /-- COUNTER_FETCH_COMPLETE (R406): Both counter copies of a missed block arrive and are resolved, repaired or poisoned. -/
  | counterFetchComplete (r : Fin 16) (page : Nat) (aOk bOk : Bool)
  /-- CIPHER_INSTALL_COMPLETE (R410): Counter zeroing of a key install ends and the region is accessible. -/
  | cipherInstallComplete (r : Fin 16)
  /-- MERIDIAN_PAGE (R411): The Meridian engine re-keys one page and advances MERIDIAN, finishing the re-key at LIMIT. -/
  | meridianPage (r : Fin 16)
  /-- CIPHER_PAGE_CLEAR (R414): A write of CMD with CLR = 1 zeroes a page's counter copies. -/
  | cipherPageClear (m : Master) (page : BitVec 27)
  /-- ECC_FILL_COMPLETE (R421): The power-on fill of code-byte memories ends and FILL.DONE is set. -/
  | eccFillComplete
  /-- POWER_ON_RESET (R440): Power-on or a core rail falling below its threshold causes a POR cold reset. -/
  | powerOnReset (rail : CoreRail)
  /-- RESET_PIN_ASSERT (R435): RESET_N held low causes a cold reset. -/
  | resetPinAssert
  /-- RESET_PIN_RELEASE (R435): RESET_N rises and the reset sequence continues. -/
  | resetPinRelease
  /-- PERST_ASSERT (R432): PERST_N low causes a warm or cold reset per option. -/
  | perstAssert
  /-- PERST_RELEASE (R341): PERST_N rises and link training and configuration readiness begin. -/
  | perstRelease
  /-- COLD_RESET (R441): A cold reset restarts fuse sense, options, crystal qualification, PLL, fill and seams. -/
  | coldReset
  /-- WARM_RESET (R437): A warm reset parks pins, puts DRAM in self-refresh, zeroes frames and retrains seams. -/
  | warmReset
  /-- DIE_RESET (R438): A die reset parks the die's pins, quarantines its seams, zeroes its frames and retrains its hub seam. -/
  | dieReset (d : Die)
  /-- CRIT_RESET (R439): A parity or uncorrectable error in critical state is logged and causes a warm reset. -/
  | critReset (what : CritUnit)
  /-- FUSE_SENSE_COMPLETE (R443): All 128 fuse words are sensed and the shadow applies, with pins taking fuse state. -/
  | fuseSenseComplete
  /-- OPTION_LOAD_COMPLETE (R445): Both option copies are read and the newer valid one, or the safe defaults, applies. -/
  | optionLoadComplete
  /-- FOREMAN_START (R441): The foreman starts from the boot ROM, every core leaves reset and the Canary starts. -/
  | foremanStart
  /-- VCCIO_CHANGE (R450): A bank's VCCIO becomes good or falls, and its pins change state. -/
  | vccioChange (b : Bank) (good : Bool)
  /-- VCCIO_MEASURE (R510): Every 10 µs a bank measures VCCIO and judges a mismatch. -/
  | vccioMeasure (b : Bank) (mv : Fin 4096)
  /-- POWER_TARGET_UPDATE (R456): After a change in tolerances or entry conditions the controller recomputes TARGET. -/
  | powerTargetUpdate
  /-- POWER_STATE_STEP (R454): The controller moves one power state toward TARGET. -/
  | powerStateStep
  /-- A3_ENTRY (R457): Entering A3 halts all networks, stops PLLs, pauses scrubbers and lowers VCCINT. -/
  | a3Entry
  /-- RETSKIP_TIMEOUT (R457): VCCINT has not fallen within 1 ms, so RETSKIP is set and posted. -/
  | retskipTimeout
  /-- A3_EXIT (R459): An exit cause raises VRET_N, restarts PLLs, realigns bindings and reopens gates. -/
  | a3Exit
  /-- BLOCK_WAKE (R455): A block powered down in A1 or A2 wakes alone when work arrives for it. -/
  | blockWake (b : WakeBlock) (awake : Bool)
  /-- PAUSE_WRITE (R459): A write of HUB.PWR.PAUSE permits A3 or causes an A3 exit. -/
  | pauseWrite (m : Master) (v : Bool)
  /-- TEMP_SAMPLE (R460): Every 50 µs the sensors are sampled and die levels, throttling and sensor failures are judged. -/
  | tempSample (die : Fin 9) (readings : List Int)
  /-- TAP_RESET (R467): TRST_N or Test-Logic-Reset resets the TAP controller and selects IDCODE. -/
  | tapReset
  /-- EXTEST (R469): The boundary register drives every user I/O pin with good VCCIO. -/
  | extest
  /-- SAMPLE_PRELOAD (R468): Loads the boundary register's update stage. -/
  | samplePreload (cells : Nat)
  /-- IDCODE (R467): Selects the 32-bit IDCODE register. -/
  | idcode
  /-- BYPASS (R468): Selects the 1-bit bypass register, as do reserved instructions. -/
  | bypass (ir : Byte)
  /-- ACCESS_READ (R470): A TAP ACCESS with WRITE = 0 reads a HUB.ADIT register without side effect. -/
  | accessRead (reg : Fin 1024)
  /-- ACCESS_WRITE (R470): A TAP ACCESS with WRITE = 1 writes a HUB.ADIT register. -/
  | accessWrite (reg : Fin 1024) (data : Word)
  /-- TAP_TRIGGER (R468): The TAP TRIGGER instruction writes HTRIG as the Adit master. -/
  | tapTrigger (dies : BitVec 4) (profile : Fin 8) (go : Bool)
  /-- TAP_DBGWIN (R468): The TAP DBGWIN instruction writes HUB.PCIE.CTL.DBGWIN. -/
  | tapDbgwin (v : Bool)
  /-- DEBUG_WINDOW_ACCESS (R471): A host access through the debug window reaches HUB.ADIT or the bus-master aperture. -/
  | debugWindowAccess (wr : Bool) (off size data : Nat)
  /-- ADIT_ATTACH (R472): A face writes ATTACH = 1 and opens a session if none is open. -/
  | aditAttach (face : Face)
  /-- ADIT_DETACH (R473): The owner writes ATTACH = 0 and the session ends, resuming cores and disabling breakpoints. -/
  | aditDetach (face : Face)
  /-- ADIT_PEEK (R475): BUSCMD.GO with WRITE = 0 issues a side-effect-free read. -/
  | aditPeek (face : Face)
  /-- ADIT_POKE (R475): BUSCMD.GO with WRITE = 1 issues a write. -/
  | aditPoke (face : Face)
  /-- ADIT_BUS_CANCEL (R474): CANCEL ends a pending bus transaction with TGTERR. -/
  | aditBusCancel (face : Face)
  /-- ADIT_BUS_RESPONSE (R474): The bus-master response arrives, BUSY clears and BUSSTATUS is set. -/
  | aditBusResponse
  /-- ADIT_HALT (R476): Writing HALT requests a halt of cores. -/
  | aditHalt (face : Face) (cores : Word)
  /-- CORE_HALT_TAKE (R476): A core stops issuing at an instruction boundary and HALTED is set. -/
  | coreHaltTake (c : Core)
  /-- HALT_DEFERRAL_TIMEOUT (R201): A halt deferred in a locked sequence for 256 cycles takes effect and breaks the lock. -/
  | haltDeferralTimeout (c : Core)
  /-- ADIT_RUN (R476): Writing RUN resumes halted cores. -/
  | aditRun (face : Face) (cores : Word)
  /-- ADIT_STEP (R477): STEP.GO runs a halted core for one instruction and halts it again. -/
  | aditStep (face : Face) (c : Core)
  /-- BREAKPOINT_HIT (R478): A core about to issue at an enabled breakpoint address halts. -/
  | breakpointHit (c : Core)
  /-- ADIT_REG_WRITE (R479): A write to GREGr or PC changes a halted core's register. -/
  | aditRegWrite (face : Face) (reg : Fin 33) (v : Word)
  /-- DTX_STORE (R481): A core stores to its DTX, setting FULL or OVR. -/
  | dtxStore (c : Core) (v : BitVec 32)
  /-- DTX_RELEASE (R481): The debugger writes 1 to DTX.FULL to release it. -/
  | dtxRelease (face : Face) (c : Core)
  /-- DRX_WRITE (R481): The debugger writes DRX, setting FULL or REFUSED. -/
  | drxWrite (face : Face) (c : Core) (v : BitVec 32)
  /-- DRX_READ (R481): The core reads its DRX and FULL clears. -/
  | drxRead (c : Core) (m : Master)
  /-- ADIT_RESET_WARM (R482): HUB.ADIT.RESET requests a warm reset. -/
  | aditResetWarm (face : Face)
  /-- ADIT_RESET_COLD (R482): HUB.ADIT.RESET requests a cold reset. -/
  | aditResetCold (face : Face)
  /-- ADIT_RESET_DIE (R482): HUB.ADIT.RESET requests a die reset. -/
  | aditResetDie (face : Face) (d : Die)
  /-- CANARY_FEED (R483): The foreman writes 0x5A to FEED and REMAIN reloads. -/
  | canaryFeed (m : Master) (key : Byte)
  /-- CANARY_EXPIRY (R483): REMAIN reaches 0, the event is logged and a CANARY warm reset follows. -/
  | canaryExpiry
  /-- GUEST_LINK_UP (R487): The UCIe link trains up and LINKUP is posted to Q7. -/
  | guestLinkUp (rate : Fin 4) (full : Bool)
  /-- GUEST_LINK_DOWN (R487): The UCIe link goes down, LINKDOWN is posted and FENCE is set. -/
  | guestLinkDown
  /-- GUEST_READ (R490): A guest READ passes the firewall checks or receives a RESP with the failure status. -/
  | guestRead (h : GuestHdr)
  /-- GUEST_FETCH (R490): A guest FETCH is checked under X permission. -/
  | guestFetch (h : GuestHdr)
  /-- GUEST_WRITE (R490): A guest non-posted WRITE is checked and forwarded. -/
  | guestWrite (h : GuestHdr) (data : Nat)
  /-- GUEST_PWRITE (R490): A guest posted write is checked, forwarded or dropped. -/
  | guestPwrite (h : GuestHdr) (data : Nat)
  /-- GUEST_BUCKET_RELEASE (R491): A transaction waiting for tokens finds enough and proceeds. -/
  | guestBucketRelease
  /-- GUEST_DELIVERY (R492): An entry of a guest-owned deliver queue is sent as one PWRITE. -/
  | guestDelivery (q : Queue)
  /-- GUEST_CREDIT_RETURN (R492): The guest returns a posted credit and the delivered entry's slot frees. -/
  | guestCreditReturn
  /-- GUEST_UNFENCE (R493): Writing CLR.UNFENCE clears CTL.FENCE. -/
  | guestUnfence (m : Master)
  /-- TOGUEST_GO (R494): A foreman GO sends the TOGUEST words with a sideband notification. -/
  | toguestGo (m : Master)
  /-- FROMGUEST_GO (R494): A guest GO posts MBOX to Q7. -/
  | fromguestGo
  /-- GUEST_TEMP_REPORT (R496): A guest temperature report updates TEMP and may post TEMPWARN or TEMPTRIP and start a trip hold. -/
  | guestTempReport (t : BitVec 16)
  /-- GUEST_TEMP_SILENT (R496): 10 ms pass without a report, which counts as a trip and posts SILENT. -/
  | guestTempSilent
  /-- GUEST_GRST_WRITE (R496): A write of CTL.GRST or TRIPRST drives GRST_N and may end a trip hold. -/
  | guestGrstWrite (m : Master) (grst triprst : Bool)
  /-- VGUEST_CHANGE (R495): VGUEST becomes good or fails, changing GRST_N and the link. -/
  | vguestChange (good : Bool)
  /-- CORE_RAILS_GOOD (R440): The core rails rise above their good thresholds: the IRO starts, the power-on reset is released, or VCCINT returns from retention at A3 exit. -/
  | coreRailsGood
  /-- VCCINT_AT_RETENTION (R457): VCCINT reaches 0.58 V or below after VRET_N falls, and STAT.STATE becomes A3. -/
  | vccintAtRetention
  /-- LANE_SUPPLY_CHANGE (R506): AVCC_LANE or AVTT_LANE becomes good or fails, powering the general and PCI Express lanes up or down. -/
  | laneSupplyChange (good : Bool)
  /-- DIE_FRAMES_ZEROED (R438): The frames of a die in die reset have been zeroed, and retraining of its hub seam starts. -/
  | dieFramesZeroed (d : Die)
  /-- CLKHALT_WAITALL_TIMEOUT (R236): A CLKHALT with WAITALL finds gates still open after 10 µs and writes TIMEOUT with the open count. -/
  | clkhaltWaitallTimeout (c : Core)
  /-- OPTWR_COMPLETE (R241): An option write ends after up to 20 ms with its read-back verified, and OK, FAILED or WORN is written to rd. -/
  | optwrComplete (ok : Bool)
  /-- FUSEPROG_COMPLETE (R240): A fuse programming operation ends after up to 2 ms and writes its status to rd. -/
  | fuseprogComplete (ok : Bool)
  /-- SPI_BYTE_TRANSFER (R63): The outpost SPI controller completes a transfer, shifting out its transmit FIFO and pushing received data into its receive FIFO. -/
  | spiByteTransfer (d : Die) (rx : Byte)
  /-- I2C_BYTE_TRANSFER (R63): The outpost I2C controller completes a byte, START, STOP or ACK on the bus, or as target receives a byte into its FIFO. -/
  | i2cByteTransfer (d : Die) (ev : I2cEvent)
  /-- RSC_SLIP (R373): Values of a remote seam channel cycle are missing at their capture edge on RXNET, or the buffer fill exceeds RLAT + 1, so the channel is held with SLIP. -/
  | rscSlip (l : Link)
  deriving DecidableEq, Repr

end Sys2Proof
end

