-- ==== Sys2Proof/Decode.lean ====
section
/-!
DEFINITION. Which command a word spells. The operation table gives no row a field or a bit pattern, so no table word spells
one. The 32-bit instruction words of the service cores (R175 to R177, R203) are decoded beside: a legal word is the command
of its class and selector with its operands in place, every other word is ILLEGAL_INSTRUCTION. Where rows share a word
(FSET, SPLAN, MSG and RSTREQ tell them apart by the value of a register), the first of them stands for all: they have one
meaning, which looks at that value.
-/
namespace Sys2Proof

/-- No row of the table has bits. -/
def decodeTableWord (_nbits _w : Nat) : Option Instr := none

/-! ### Instruction words of the service cores -/

/-- Bits lo + n - 1 to lo of a word. -/
def wordField (w : BitVec 32) (lo n : Nat) : BitVec n := w.extractLsb' lo n
/-- The register named at a bit position. -/
def wordReg (w : BitVec 32) (lo : Nat) : Reg := (wordField w lo 5).toFin
/-- The fields of the formats of R175: rd, rs1, rs2, the selector of A and D, func3 and the immediate of I. -/
def wordRd (w : BitVec 32) : Reg := wordReg w 7
def wordRs1 (w : BitVec 32) : Reg := wordReg w 12
def wordRs2 (w : BitVec 32) : Reg := wordReg w 17
def wordSel (w : BitVec 32) : Nat := (wordField w 22 10).toNat
def wordFunc3 (w : BitVec 32) : Nat := (wordField w 17 3).toNat
def wordImm (w : BitVec 32) : BitVec 12 := wordField w 20 12
/-- The immediate of the S format, in its two parts. -/
def wordImmS (w : BitVec 32) : BitVec 12 := wordField w 25 7 ++ wordField w 7 5

/-- A command, where a condition on unused fields holds. -/
def legalIf (p : Bool) (x : Instr) : Option Instr := if p then some x else none

/-- Op 0x01: ALU register (R178, R179). -/
def decodeAlu (c : Core) (w : BitVec 32) : Option Instr :=
  let (rd, a, b) := (wordRd w, wordRs1 w, wordRs2 w)
  match wordSel w with
  | 0x000 => some (.add c rd a b)
  | 0x001 => some (.sub c rd a b)
  | 0x002 => some (.andOp c rd a b)
  | 0x003 => some (.orOp c rd a b)
  | 0x004 => some (.xorOp c rd a b)
  | 0x005 => some (.sll c rd a b)
  | 0x006 => some (.srl c rd a b)
  | 0x007 => some (.sra c rd a b)
  | 0x008 => some (.slt c rd a b)
  | 0x009 => some (.sltu c rd a b)
  | 0x010 => some (.mul c rd a b)
  | 0x011 => some (.mulh c rd a b)
  | 0x012 => some (.mulhu c rd a b)
  | 0x018 => some (.div c rd a b)
  | 0x019 => some (.divu c rd a b)
  | 0x01a => some (.rem c rd a b)
  | 0x01b => some (.remu c rd a b)
  | 0x020 => legalIf (b == 0) (.clz c rd a)
  | 0x021 => legalIf (b == 0) (.popc c rd a)
  | _ => none

/-- Op 0x02: ALU immediate (R180). -/
def decodeImm (c : Core) (w : BitVec 32) : Option Instr :=
  let (rd, a, i) := (wordRd w, wordRs1 w, wordImm w)
  match wordFunc3 w with
  | 0 => some (.addi c rd a i)
  | 1 => some (.andi c rd a i)
  | 2 => some (.ori c rd a i)
  | 3 => some (.xori c rd a i)
  | 4 => some (.slti c rd a i)
  | 5 => some (.sltiu c rd a i)
  | 6 =>
    let sh : BitVec 6 := wordField w 20 6
    match (wordField w 26 6).toNat with
    | 0x00 => some (.slli c rd a sh)
    | 0x10 => some (.srli c rd a sh)
    | 0x20 => some (.srai c rd a sh)
    | _ => none
  | _ => none

/-- Op 0x03: LOAD (R182). -/
def decodeLoad (c : Core) (w : BitVec 32) : Option Instr :=
  let (rd, a, i) := (wordRd w, wordRs1 w, wordImm w)
  match wordFunc3 w with
  | 0 => some (.lb c rd a i)
  | 1 => some (.lh c rd a i)
  | 2 => some (.lw c rd a i)
  | 3 => some (.ld c rd a i)
  | 4 => some (.lbu c rd a i)
  | 5 => some (.lhu c rd a i)
  | 6 => some (.lwu c rd a i)
  | _ => none

/-- Op 0x04: STORE (R182). -/
def decodeStore (c : Core) (w : BitVec 32) : Option Instr :=
  let (a, b, i) := (wordRs1 w, wordRs2 w, wordImmS w)
  match (wordField w 22 3).toNat with
  | 0 => some (.sb c a b i)
  | 1 => some (.sh c a b i)
  | 2 => some (.sw c a b i)
  | 3 => some (.sd c a b i)
  | _ => none

/-- Op 0x05: BRANCH, with rs2 where the other formats hold rd (R175, R186). -/
def decodeBranch (c : Core) (w : BitVec 32) : Option Instr :=
  let (a, b, i) := (wordRs1 w, wordRd w, wordImm w)
  match wordFunc3 w with
  | 0 => some (.beq c a b i)
  | 1 => some (.bne c a b i)
  | 2 => some (.blt c a b i)
  | 3 => some (.bge c a b i)
  | 4 => some (.bltu c a b i)
  | 5 => some (.bgeu c a b i)
  | _ => none

/-- Op 0x06: JUMP (R187). -/
def decodeJump (c : Core) (w : BitVec 32) : Option Instr :=
  match wordFunc3 w with
  | 0 => some (.jalr c (wordRd w) (wordRs1 w) (wordImm w))
  | 1 => some (.jal c (wordRd w) (wordImm w ++ wordField w 12 5))
  | 2 => legalIf (wordRd w == 0 && wordRs1 w == 0 && wordImm w == 0) (.tret c)
  | _ => none

/-- Op 0x08: LOCK and ENDLOCK (R198). -/
def decodeLock (c : Core) (w : BitVec 32) : Option Instr :=
  let bare := wordRs1 w == 0 && wordImm w == 0
  match wordFunc3 w with
  | 0 => legalIf (bare && wordRd w == 0) (.lockOp c)
  | 1 => legalIf bare (.endlock c (wordRd w))
  | _ => none

/-- Ops 0x10 to 0x16: the device operations (R203). -/
def decodeDevice (c : Core) (w : BitVec 32) : Option Instr :=
  let (rd, a, b) := (wordRd w, wordRs1 w, wordRs2 w)
  match (wordField w 0 7).toNat, wordSel w with
  | 0x10, 1 => some (.enq c rd a b)
  | 0x10, 2 => some (.deq c rd a b)
  | 0x10, 3 => legalIf (b == 0) (.reply c rd a)
  | 0x10, 4 => legalIf (b == 0) (.doneItem c rd a)
  | 0x11, 1 => some (.fsetClaim c rd a b)
  | 0x11, 2 => some (.fwr c rd a b)
  | 0x11, 3 => some (.frd c rd a b)
  | 0x11, 4 => some (.fverify c rd a b)
  | 0x12, 1 => some (.stage c rd a b)
  | 0x12, 2 => legalIf (b == 0) (.commit c rd a)
  | 0x13, 1 => some (.kload c rd a b)
  | 0x13, 2 => some (.kroll c rd a b)
  | 0x13, 3 => legalIf (a == 0) (.kwipe c rd b)
  | 0x14, 1 => some (.adig c rd a b)
  | 0x14, 2 => some (.acmp c rd a b)
  | 0x15, 1 => legalIf (b == 0) (.strain c rd a)
  | 0x15, 2 => some (.swidth c rd a b)
  | 0x15, 3 => some (.splanQuery c rd a b)
  | 0x16, 1 => some (.cap c rd a b)
  | 0x16, 2 => some (.drain c rd a b)
  | 0x16, 3 => some (.restore c rd a b)
  | 0x16, 4 => some (.clkhalt c rd a b)
  | 0x16, 5 => legalIf (b == 0) (.clkrun c rd a)
  | _, _ => none

/-- Op 0x17: SYS, FENCE and TRAP (R194, R195, R237 to R241). -/
def decodeSys (c : Core) (w : BitVec 32) : Option Instr :=
  let (rd, a, b) := (wordRd w, wordRs1 w, wordRs2 w)
  let bare := rd == 0 && a == 0 && b == 0
  match wordSel w with
  | 0x001 => legalIf bare (.fenceR c)
  | 0x002 => legalIf bare (.fenceW c)
  | 0x003 => legalIf bare (.fenceRw c)
  | 0x007 => legalIf bare (.fenceRwi c)
  | 0x010 => legalIf (rd == 0 && b == 0) (.trap c a)
  | 0x020 => some (.waitOp c rd a b)
  | 0x021 => some (.msgMsix c rd a b)
  | 0x030 => some (.rstreqWarm c rd a b)
  | 0x031 => legalIf (b == 0) (.fuserd c rd a)
  | 0x032 => some (.fuseprog c rd a b)
  | 0x033 => legalIf (b == 0) (.optwr c rd a)
  | _ => none

/-- The legal instruction a word spells on core c, by its major opcode (R176); none where the word is illegal (R177). -/
def decodeLegal (c : Core) (w : BitVec 32) : Option Instr :=
  match (wordField w 0 7).toNat with
  | 0x01 => decodeAlu c w
  | 0x02 => decodeImm c w
  | 0x03 => decodeLoad c w
  | 0x04 => decodeStore c w
  | 0x05 => decodeBranch c w
  | 0x06 => decodeJump c w
  | 0x07 => some (.lui c (wordRd w) (wordField w 12 20))
  | 0x08 => decodeLock c w
  | 0x17 => decodeSys c w
  | _ => decodeDevice c w

/-- The command a fetched word is on core c. -/
def decodeWord (c : Core) (w : BitVec 32) : Instr := (decodeLegal c w).getD (.illegalInstruction c w)

end Sys2Proof
end

