-- ==== Sys2Proof/Machine/Wires.lean ====
section
/-!
DEFINITION. The places of a fabric die: cluster coordinates (R35, R36), wires (R67 to R80) and configuration items, as the
routing, the cells and the frames name them.
-/
namespace Sys2Proof.Machine

/-! ### Coordinates (R35, R36) -/

/-- Clusters of a die: width and height. -/
def dieWidth : Nat := 768
def dieHeight : Nat := 1024
/-- Sector of the cluster at die-wide X, Y (R36). -/
def sectorAt (x y : Nat) : Nat := y / 64 * 12 + x / 64
/-- Die-wide X and Y of the cluster in column c and row r of sector n (R36). -/
def clusterX (n c : Nat) : Nat := 64 * (n % 12) + c
def clusterY (n r : Nat) : Nat := 64 * (n / 12) + r
/-- A memory cluster: column c with c mod 4 = 3 (R35). -/
def isMemCluster (x : Nat) : Bool := x % 4 == 3
/-- The fabric seam whose ring neighbour a sector faces, as the far or near die's offset on the ring: column 11 in rows 0 to
11 faces F((d+1) mod 4), row 15 in columns 0 to 7 faces F((d+3) mod 4) (R36). -/
def facesDie (d n : Nat) : Option Nat :=
  if n % 12 = 11 ∧ n / 12 < 12 then some ((d + 1) % 4)
  else if n / 12 = 15 ∧ n % 12 < 8 then some ((d + 3) % 4)
  else none
/-- The hub corner of a die, which faces the hub across its hub seam (R36). -/
def inHubCorner (n : Nat) : Bool := decide (12 ≤ n / 12) && decide (8 ≤ n % 12)
/-- Home sector of local bank j (R37). -/
def homeSector (j : Nat) : Nat := [0, 2, 4, 6, 8, 10, 36, 60, 84, 108, 132, 156].getD j 0

/-! ### Wires -/

/-- Direction of travel of a track. North is towards larger Y, east towards larger X. -/
inductive Dir where
  | north | south | east | west
  deriving DecidableEq, Repr

/-- The four outputs of a cell. -/
inductive CellOut where
  | oa | ob | q1 | q2
  deriving DecidableEq, Repr

/-- The routed inputs of a cell; `a i` is A(i+1). -/
inductive CellPin where
  | a (i : Nat) | x | y | e1 | e2
  deriving DecidableEq, Repr

/-- The routed inputs of a cluster: SR of its two control sets, and WE. -/
inductive CtlPin where
  | sr (cs : Nat) | we
  deriving DecidableEq, Repr

/-- The routed inputs of the hard blocks: of port p of a block RAM, and of an arithmetic block. -/
inductive HardPin where
  | addr (p k : Nat) | data (p k : Nat) | we (p k : Nat) | ce (p : Nat) | rsr (p : Nat)
  | a (k : Nat) | b (k : Nat) | c (k : Nat) | d (k : Nat) | ld | ace | asr
  deriving DecidableEq, Repr

/-- The points where a signal leaves a die's routing for a unit outside it. -/
inductive SitePin where
  /-- Fabric select and fabric enable of a network (R105, R107). -/
  | fsel (m : Nat) | fen (m : Nat)
  /-- Fabric clock entry (R103) and fabric trigger line (R151). -/
  | clock (i : Nat) | trig (i : Nat)
  /-- Transmit slot s of group g of the seam the die owns, or of the one it is the far die of (R114). -/
  | tx (far : Bool) (g s : Nat)
  /-- Transmit slot s of the remote seam channel of the die's link l, 0 to 15 (R370). -/
  | chanTx (l s : Nat)
  /-- Output value, or output enable, of pin i of local bank j (R37). -/
  | pad (j i : Nat) (oe : Bool)
  deriving DecidableEq, Repr

/-- A wire of one die. Tracks and bundles are named by their start. -/
inductive Wire where
  | cell (x y k : Nat) (o : CellOut)
  /-- Carry out of cell k. -/
  | carry (x y k : Nat)
  /-- Stage 31 of lane k of a shift register (R47). -/
  | casc (x y k : Nat)
  /-- Bit track of length len with index t. -/
  | bit (d : Dir) (len x y t : Nat)
  /-- Bit i of the word bundle of length len. -/
  | word (d : Dir) (len x y i : Nat)
  | pin (x y k : Nat) (p : CellPin)
  | ctl (x y : Nat) (p : CtlPin)
  /-- Output of a sector's driver of spine j, and the spine of a sector column. -/
  | driver (s j : Nat)
  | spine (col j : Nat)
  /-- Input of hard block i of a sector. -/
  | hard (s i : Nat) (p : HardPin)
  /-- Bit b of ACC, and so of SUMOUT, of an arithmetic block; bit 64 is OVF. -/
  | sum (s i b : Nat)
  | site (p : SitePin)
  deriving DecidableEq, Repr

/-- What a candidate of a multiplexer can be beside a wire: an output bit of the block RAM or the arithmetic block at its
switch box, a receive slot of a seam or of a remote seam channel, or another input from outside the routing. -/
inductive Source where
  | ram (n : Nat) | arith (n : Nat)
  | rx (far : Bool) (g s : Nat)
  | chanRx (l s : Nat)
  | outside (n : Nat)
  deriving DecidableEq, Repr

/-! ### Configuration items -/

/-- What a group of configuration bits of a sector sets. -/
inductive CfgItem where
  /-- The select of the multiplexer that drives a wire (R71); a bundle's is that of its bit 0. -/
  | select (w : Wire)
  /-- INIT[63:0] of a cell's LUT; in RAM and SHIFT32 modes its contents (R39, R46). -/
  | lut (x y k : Nat)
  /-- FRAC, carry on, GSEL, CINSEL (2 bits) and CASC of a cell, from bit 0 (R39 to R47). -/
  | cell (x y k : Nat)
  /-- DSEL (2 bits), CS, CEUSE, INIT, SRVAL, SREN, SRASYNC and LATCH of FF1 (j = 0) or FF2 (j = 1), from bit 0 (R43). -/
  | ff (x y k j : Nat)
  /-- MEM (2 bits), then clock tap (5 bits) and inversion of control sets 0 and 1 (R43, R46). -/
  | cluster (x y : Nat)
  /-- Network select (6 bits) of clock tap t (R104). -/
  | tap (s t : Nat)
  /-- Enable of a spine driver (R80). -/
  | spineOn (s j : Nat)
  /-- Options of a block RAM: ECC, cascade from the block below, then 116 bits a port (R49 to R54). -/
  | ram (s i : Nat)
  /-- Stored bits of a block RAM, 2,048 rows of 104. -/
  | ramBits (s i : Nat)
  /-- PRE (2), OP (3), SAT, input, product and ACC registers on, clock tap (5), inversion, from bit 0 (R55, R56). -/
  | arith (s i : Nat)
  /-- WORDOUT of a hard block for output code o of a cluster: 0 none, g + 1 for output group g (R78). -/
  | wordOut (isRam : Bool) (x y o : Nat)
  deriving DecidableEq, Repr

/-- Sector in which slot s of the channel of the die's link l enters, counted along row 0 from the link's first quad (R370). -/
def chanSector (l s : Nat) : Nat := (3 * (l / 4 + s / 3072) + s % 3072 / 1024) % 192

/-- Sector of the seam attach point of group g: of the owner, or of the far die (R114). -/
def attachSector (far : Bool) (g : Nat) : Nat :=
  let s := g / 8
  if far then 168 + 12 * (s / 8) + s % 8 else 12 * (s / 2) + 10 + s % 2

end Sys2Proof.Machine
end

