-- ==== Sys2Proof/Config.lean ====
section
/-!
DEFINITION. What the manual leaves open. Each constant here has no body, so no proof can rest on a value of it.
The ciphers, digests and signatures the manual names by their public standards are uninterpreted too: the model says
where they are applied and to what, not what they compute.
-/
namespace Sys2Proof.Config
open Sys2Proof.Machine

/-- A fresh value for the n-th draw, for every value the manual leaves undefined or unspecified. -/
opaque freeValue : Nat → Nat
/-- The value at a place in the n-th draw, where one draw fills several places. -/
opaque freeAt : Nat → List Nat → Nat
/-- Flits that one router input buffer for one class and channel pair holds beyond the first (R17 gives no depth). -/
opaque flitDepth : Nat
/-- The clock edges that pass between two commands: for the n-th draw, sets of rising and of falling edges that come together,
oldest first, bit 64 n + m for network m of die n (R95, R104: the manual fixes no number of them). -/
opaque edges : Nat → List (Nat × Nat)
/-- Place of a bit of a configuration item in the frames of its sector: 4096 * frame + bit. The frame map is the device
database's (R82). -/
opaque bitPlace : CfgItem → Nat → Nat
/-- The frame that holds a multiplexer's select (R82). -/
opaque selFrame : Wire → Nat
/-- Frame number of the spine frame of a sector (R82). -/
opaque spineFrame : Nat → Nat
/-- Which cluster outputs are the candidates of which multiplexers, as far as R73 leaves it open: the candidate places of one
kind and direction, in an order of the device's own. -/
opaque outOrder : (n : Nat) → Dir → Equiv.Perm (Fin n)
/-- Which of the tracks it may take the k-th open candidate of a multiplexer is (R72). -/
opaque pick : Wire → Nat → Nat
/-- Whether the k-th candidate of a multiplexer is a hard block's output, a receive slot or another input from outside the
routing (R70, R114): the device database says so. -/
opaque source : Wire → Nat → Option Source
/-- The value at the c-th draw of an input from outside the routing of a die: I/O banks, ports, the outpost. -/
opaque outside : Nat → Nat → Nat → Bool
/-- The free value of a wire of a die at the c-th draw: of one in a combinational loop, or of a contended spine (R84, R85). -/
opaque freeWire : Nat → Nat → Wire → Bool
/-- Sector of a site the device database gives (R103, R105, R107, R151). -/
opaque siteSector : SitePin → Nat
/-- Cluster of its sector, or of its eight switch boxes, at which a pin attaches. -/
opaque siteCluster : Wire → Nat
/-- Seed of a lane's scrambler from the seed base of TRAIN and its physical lane index (R113, R133). -/
opaque laneSeed : Nat → Nat → BitVec 15
/-- SHA3-256 (FIPS 202), as a 256-bit number, digest byte 0 lowest. -/
opaque sha3 : List Byte → Nat
/-- AES-256 (FIPS 197) of one block under a key: key byte 0 and output byte 0 lowest; the input is given in byte order. -/
opaque aes256 : Nat → List Byte → Nat
/-- AES-256-GCM opening (R276): key, IV, additional authenticated data, ciphertext and 128-bit tag; the plaintext, or
none where the tag does not verify. -/
opaque gcmOpen : Nat → List Byte → List Byte → List Byte → Nat → Option (List Byte)
/-- AES key unwrap (RFC 3394) of a 40-byte wrapped key under a key-encryption key. -/
opaque keyUnwrap : Nat → List Byte → Option Nat
/-- AES-256-CMAC (SP 800-38B) of a byte string under a key: 16 bytes, byte 0 lowest (R275). -/
opaque cmac : Nat → List Byte → Nat
/-- The cell of user I/O pin 48b + i in the boundary register (R469): its order is in a file outside the spec. -/
opaque boundaryCell : Nat → Nat
/-- The bytes of the boot ROM (R173). -/
opaque bootRom : Nat → Byte
/-- SHA-384 (FIPS 180-4), digest byte 0 lowest. -/
opaque sha384 : List Byte → Nat
/-- ECDSA P-384 verification: public key, signature and the signed digest. -/
opaque ecdsaOk : List Byte → List Byte → Nat → Bool

end Sys2Proof.Config
end

