-- ==== Sys2Proof/Machine/Map.lean ====
section
/-!
DEFINITION. Sparse tables: lists of (key, value) pairs with rising keys that list no key whose value is its default.
Every memory and every register file of the model is one of these, so that equal contents are equal data.
`set` first removes the key, then inserts it in order unless the value is the default; the tables of dies, seams and links,
whose entries are whole units, are written with `put`, which inserts it in any case.
-/
namespace Sys2Proof.Machine

/-- A sparse table from numbers to values. -/
abbrev SMap (α : Type) := List (Nat × α)

namespace SMap
variable {α : Type}

/-- The value listed for k, or the default d where none is listed. -/
def get : SMap α → Nat → α → α
  | [], _, d => d
  | (a, v) :: r, k, d => if a = k then v else get r k d

/-- The table without any entry for k. -/
def erase : SMap α → Nat → SMap α
  | [], _ => []
  | (a, v) :: r, k => if a = k then erase r k else (a, v) :: erase r k

/-- Insertion before the first larger key. -/
def ins : SMap α → Nat → α → SMap α
  | [], k, v => [(k, v)]
  | (a, x) :: r, k, v => if k < a then (k, v) :: (a, x) :: r else (a, x) :: ins r k v

/-- Store v at k; an entry equal to the default d is not listed. -/
def set [DecidableEq α] (m : SMap α) (k : Nat) (v d : α) : SMap α :=
  if v = d then erase m k else ins (erase m k) k v

/-- Store v at k, whatever v is: for tables whose entries are large, and which no rule compares. -/
def put (m : SMap α) (k : Nat) (v : α) : SMap α := ins (erase m k) k v

/-- Change the value at k by f. -/
def upd [DecidableEq α] (m : SMap α) (k : Nat) (d : α) (f : α → α) : SMap α :=
  set m k (f (get m k d)) d

/-- Keep the entries whose key and value satisfy p. -/
def keep (m : SMap α) (p : Nat → α → Bool) : SMap α := m.filter fun e => p e.1 e.2

/-- The keys above b rise strictly. -/
def rising : Nat → SMap α → Bool
  | _, [] => true
  | b, (a, _) :: r => decide (b ≤ a) && rising (a + 1) r

/-- The canonical form: rising keys, and no entry equal to the default of its key. -/
def wf [DecidableEq α] (dflt : Nat → α) (m : SMap α) : Bool :=
  rising 0 m && m.all fun e => decide (e.2 ≠ dflt e.1)

end SMap

/-- Bits [hi:lo] of a number. -/
def bits (x hi lo : Nat) : Nat := (x / 2 ^ lo) % 2 ^ (hi + 1 - lo)
/-- Bit i of a number. -/
def bitAt (x i : Nat) : Bool := x.testBit i
/-- A Bool as a number. -/
def b2n (b : Bool) : Nat := if b then 1 else 0
/-- x with bit i set to b. -/
def setBitAt (x i : Nat) (b : Bool) : Nat :=
  if b then x ||| 2 ^ i else x - (if x.testBit i then 2 ^ i else 0)
/-- x with bits [lo+w-1:lo] replaced by v. -/
def setBits (x lo w v : Nat) : Nat :=
  x - (x / 2 ^ lo % 2 ^ w) * 2 ^ lo + (v % 2 ^ w) * 2 ^ lo
/-- The saturating sum below two to the w. -/
def satAdd (w x y : Nat) : Nat := min (x + y) (2 ^ w - 1)
/-- The indexes of the set bits of x among the first n. -/
def bitList (n x : Nat) : List Nat := (List.range n).filter fun i => x.testBit i
/-- The mask whose bits are the listed indexes. -/
def maskOf (l : List Nat) : Nat := l.foldl (fun x i => x ||| 2 ^ i) 0
/-- The number of set bits of x among the first n. -/
def popCount (n x : Nat) : Nat := (bitList n x).length
/-- Little-endian bytes of a number. -/
def toBytes : Nat → Nat → List (BitVec 8)
  | 0, _ => []
  | n + 1, x => BitVec.ofNat 8 x :: toBytes n (x / 256)
/-- The number a little-endian byte list spells. -/
def ofBytes : List (BitVec 8) → Nat
  | [] => 0
  | b :: r => b.toNat + 256 * ofBytes r

end Sys2Proof.Machine
end

