-- ==== Sys2Proof/Machine/Arith.lean ====
section
/-!
DEFINITION. The arithmetic block (R55, R56).
-/
namespace Sys2Proof.Machine

/-- Options of an arithmetic block. -/
structure ArithCfg where
  pre : Nat
  op : Nat
  sat : Bool
  /-- The input, product and ACC registers are used. -/
  inReg : Bool
  prodReg : Bool
  accReg : Bool
  tap : Nat
  inv : Bool
  deriving DecidableEq, Repr
/-- The options from their 15 configuration bits. -/
def ArithCfg.of (v : Nat) : ArithCfg :=
  { pre := v % 4, op := v / 4 % 8, sat := v.testBit 5, inReg := v.testBit 6, prodReg := v.testBit 7, accReg := v.testBit 8, tap := v / 2 ^ 9 % 32, inv := v.testBit 14 }
/-- A combinational loop: an accumulation with the ACC register off (R56). -/
def ArithCfg.loops (c : ArithCfg) : Bool := (c.op == 1 || c.op == 2) && !c.accReg

/-- The inputs of a block, as unsigned numbers of their widths. -/
structure ArithIn where
  a : Nat := 0
  b : Nat := 0
  c : Nat := 0
  d : Nat := 0
  ld : Bool := false
  deriving DecidableEq, Repr

/-- The registers of a block: inputs, product, accumulator and the OVF flag. -/
structure ArithSt where
  ins : ArithIn := {}
  prod : Int := 0
  acc : Nat := 0
  ovf : Bool := false
  deriving DecidableEq, Repr

/-- A number of w bits as a signed one. -/
def signed (w x : Nat) : Int := if x % 2 ^ w < 2 ^ (w - 1) then x % 2 ^ w else x % 2 ^ w - 2 ^ w

/-- The product: PRE selects the 27-bit multiplicand, which wraps (R55). -/
def arithProduct (pre : Nat) (i : ArithIn) : Int :=
  let q : Nat := match pre with
    | 0 => i.a % 2 ^ 27
    | 1 => (i.a + i.d) % 2 ^ 27
    | 2 => (i.a + 2 ^ 27 - i.d % 2 ^ 27) % 2 ^ 27
    | _ => i.d % 2 ^ 27
  signed 27 q * signed 24 i.b

/-- The exact result of OP (R55). -/
def arithExact (op : Nat) (m : Int) (i : ArithIn) (acc sumin : Nat) : Int :=
  let old := if i.ld then signed 64 i.c else signed 64 acc
  match op with
  | 0 => m
  | 1 => old + m
  | 2 => old - m
  | 3 => signed 64 i.c + m
  | 4 => signed 64 i.c - m
  | 5 => signed 64 sumin + m
  | 6 => signed 64 sumin - m
  | _ => signed 64 i.c

/-- ACC from the exact result, and whether it wrapped or saturated (R55). -/
def arithNarrow (sat : Bool) (r : Int) : Nat × Bool :=
  if -(2 ^ 63) ≤ r ∧ r < 2 ^ 63 then ((r % 2 ^ 64).toNat, false)
  else if !sat then ((r % 2 ^ 64).toNat, true)
  else if r < 0 then (2 ^ 63, true)
  else (2 ^ 63 - 1, true)

/-- ACC and OVF as the block forms them now: from the registers that are used, and past those that are not (R56). -/
def arithForm (c : ArithCfg) (s : ArithSt) (ins : ArithIn) (sumin : Nat) : Nat × Bool :=
  let i := if c.inReg then s.ins else ins
  let m := if c.prodReg then s.prod else arithProduct c.pre i
  arithNarrow c.sat (arithExact c.op m i s.acc sumin)

/-- What the block drives on ACC and OVF. -/
def arithOut (c : ArithCfg) (s : ArithSt) (ins : ArithIn) (sumin : Nat) : Nat × Bool :=
  if c.accReg then (s.acc, s.ovf) else let (v, o) := arithForm c s ins sumin; (v, s.ovf || o)

/-- The registers after an edge: SR clears every enabled register and OVF, the clock enable loads them (R55, R56). -/
def arithEdge (c : ArithCfg) (s : ArithSt) (ins : ArithIn) (sumin : Nat) (ce sr : Bool) : ArithSt :=
  if sr then
    { ins := if c.inReg then {} else s.ins, prod := if c.prodReg then 0 else s.prod, acc := if c.accReg then 0 else s.acc, ovf := false }
  else if !ce then s
  else
    let (v, o) := arithForm c s ins sumin
    let i := if c.inReg then s.ins else ins
    { ins := if c.inReg then ins else s.ins, prod := if c.prodReg then arithProduct c.pre i else s.prod,
      acc := if c.accReg then v else s.acc, ovf := s.ovf || o }

end Sys2Proof.Machine
end

