-- ==== Sys2Proof/Machine/CsrKeys.lean ====
section
/-!
DEFINITION. The registers of the KZ48: one key for each field of each register table of the manual, with its CSR
address, lowest bit, width and reset value. A register of a core's own page (R202) stands at 0x1_0000_0000 + core * 0x1000,
outside the hub map. The option-given fields carry the safe defaults of R448 as their reset value here.
-/
namespace Sys2Proof.Machine

/-- One register field: the CSR address of its register, its lowest bit, its width and its reset value. -/
structure Key where
  addr : Nat
  lo : Nat
  w : Nat
  rst : Nat
  deriving DecidableEq, Repr

/-- The key's number in the field table. -/
def Key.id (k : Key) : Nat := k.addr * 64 + k.lo

/-- Base of the register block of seam k in the block of its owner: 0 to 3 fabric, 4 to 7 hub (R14, R149). -/
def seamBase (k : Nat) : Nat := if k < 4 then 0x2800000 + k * 0x1000000 else 0x2900000 + (k - 4) * 0x1000000

namespace K

/-- HUB.ID.IDENT.IDENT (R5). -/
def ID_IDENT_IDENT : Key := ⟨0x0, 0, 64, 5429652609986461873⟩
/-- HUB.ID.CAP.DIES (R5). -/
def ID_CAP_DIES : Key := ⟨0x8, 4, 4, 15⟩
/-- HUB.ID.CAP.SPEED (R5). -/
def ID_CAP_SPEED : Key := ⟨0x8, 1, 2, 0⟩
/-- HUB.ID.CAP.GUEST (R5). -/
def ID_CAP_GUEST : Key := ⟨0x8, 0, 1, 0⟩
/-- HUB.ID.SERIAL.SERIAL (R5). -/
def ID_SERIAL_SERIAL : Key := ⟨0x10, 0, 64, 0⟩
/-- HUB.ID.JTAG.IDCODE (R5). -/
def ID_JTAG_IDCODE : Key := ⟨0x18, 0, 32, 268733019⟩
/-- DIE.Fn.FPORT.CTL.STALL (R34). -/
def FPORT_CTL_STALL (n : Nat) (p : Nat) : Key := ⟨0x2F00000 + n * 0x1000000 + p * 0x40, 16, 16, 1000⟩
/-- DIE.Fn.FPORT.CTL.FUNC (R34). -/
def FPORT_CTL_FUNC (n : Nat) (p : Nat) : Key := ⟨0x2F00000 + n * 0x1000000 + p * 0x40, 8, 6, 0⟩
/-- DIE.Fn.FPORT.CTL.ALLOW (R34). -/
def FPORT_CTL_ALLOW (n : Nat) (p : Nat) : Key := ⟨0x2F00000 + n * 0x1000000 + p * 0x40, 3, 4, 0⟩
/-- DIE.Fn.FPORT.CTL.HOSTSPACE (R34). -/
def FPORT_CTL_HOSTSPACE (n : Nat) (p : Nat) : Key := ⟨0x2F00000 + n * 0x1000000 + p * 0x40, 1, 1, 0⟩
/-- DIE.Fn.FPORT.CTL.EN (R34). -/
def FPORT_CTL_EN (n : Nat) (p : Nat) : Key := ⟨0x2F00000 + n * 0x1000000 + p * 0x40, 0, 1, 0⟩
/-- DIE.Fn.FPORT.STAT.OFFLINE (R34). -/
def FPORT_STAT_OFFLINE (n : Nat) (p : Nat) : Key := ⟨0x2F00008 + n * 0x1000000 + p * 0x40, 33, 1, 0⟩
/-- DIE.Fn.FPORT.STAT.STALLED (R34). -/
def FPORT_STAT_STALLED (n : Nat) (p : Nat) : Key := ⟨0x2F00008 + n * 0x1000000 + p * 0x40, 32, 1, 0⟩
/-- DIE.Fn.FPORT.STAT.INB (R34). -/
def FPORT_STAT_INB (n : Nat) (p : Nat) : Key := ⟨0x2F00008 + n * 0x1000000 + p * 0x40, 16, 9, 0⟩
/-- DIE.Fn.FPORT.STAT.OUTB (R34). -/
def FPORT_STAT_OUTB (n : Nat) (p : Nat) : Key := ⟨0x2F00008 + n * 0x1000000 + p * 0x40, 0, 9, 0⟩
/-- DIE.Fn.FPORT.DROP.COUNT (R34). -/
def FPORT_DROP_COUNT (n : Nat) (p : Nat) : Key := ⟨0x2F00010 + n * 0x1000000 + p * 0x40, 0, 32, 0⟩
/-- DIE.Fn.OUTPOST.OWN.I2C (R63). -/
def OUTPOST_OWN_I2C (n : Nat) : Key := ⟨0x2E00000 + n * 0x1000000, 4, 1, 1⟩
/-- DIE.Fn.OUTPOST.OWN.SPI (R63). -/
def OUTPOST_OWN_SPI (n : Nat) : Key := ⟨0x2E00000 + n * 0x1000000, 3, 1, 1⟩
/-- DIE.Fn.OUTPOST.OWN.UART1 (R63). -/
def OUTPOST_OWN_UART1 (n : Nat) : Key := ⟨0x2E00000 + n * 0x1000000, 2, 1, 1⟩
/-- DIE.Fn.OUTPOST.OWN.UART0 (R63). -/
def OUTPOST_OWN_UART0 (n : Nat) : Key := ⟨0x2E00000 + n * 0x1000000, 1, 1, 1⟩
/-- DIE.Fn.OUTPOST.OWN.FLASH (R63). -/
def OUTPOST_OWN_FLASH (n : Nat) : Key := ⟨0x2E00000 + n * 0x1000000, 0, 1, 1⟩
/-- DIE.Fn.OUTPOST.FLCMD.LINE (R64). -/
def OUTPOST_FLCMD_LINE (n : Nat) : Key := ⟨0x2E00010 + n * 0x1000000, 6, 13, 0⟩
/-- DIE.Fn.OUTPOST.FLCMD.OP (R64). -/
def OUTPOST_FLCMD_OP (n : Nat) : Key := ⟨0x2E00010 + n * 0x1000000, 0, 3, 0⟩
/-- DIE.Fn.OUTPOST.FLSTAT.ECOUNT (R64). -/
def OUTPOST_FLSTAT_ECOUNT (n : Nat) : Key := ⟨0x2E00018 + n * 0x1000000, 32, 17, 0⟩
/-- DIE.Fn.OUTPOST.FLSTAT.STATUS (R64). -/
def OUTPOST_FLSTAT_STATUS (n : Nat) : Key := ⟨0x2E00018 + n * 0x1000000, 1, 3, 0⟩
/-- DIE.Fn.OUTPOST.FLSTAT.BUSY (R64). -/
def OUTPOST_FLSTAT_BUSY (n : Nat) : Key := ⟨0x2E00018 + n * 0x1000000, 0, 1, 0⟩
/-- DIE.Fn.OUTPOST.UARTu.CFG.EN (R64). -/
def OUTPOST_UART_CFG_EN (n : Nat) (u : Nat) : Key := ⟨0x2E00100 + n * 0x1000000 + u * 0x40, 20, 1, 0⟩
/-- DIE.Fn.OUTPOST.UARTu.CFG.STOP2 (R64). -/
def OUTPOST_UART_CFG_STOP2 (n : Nat) (u : Nat) : Key := ⟨0x2E00100 + n * 0x1000000 + u * 0x40, 19, 1, 0⟩
/-- DIE.Fn.OUTPOST.UARTu.CFG.PARITY (R64). -/
def OUTPOST_UART_CFG_PARITY (n : Nat) (u : Nat) : Key := ⟨0x2E00100 + n * 0x1000000 + u * 0x40, 17, 2, 0⟩
/-- DIE.Fn.OUTPOST.UARTu.CFG.DIV (R64). -/
def OUTPOST_UART_CFG_DIV (n : Nat) (u : Nat) : Key := ⟨0x2E00100 + n * 0x1000000 + u * 0x40, 0, 16, 109⟩
/-- DIE.Fn.OUTPOST.SPI.CFG.DIV (R65). -/
def OUTPOST_SPI_CFG_DIV (n : Nat) : Key := ⟨0x2E00200 + n * 0x1000000, 8, 8, 3⟩
/-- DIE.Fn.OUTPOST.SPI.CFG.CS (R65). -/
def OUTPOST_SPI_CFG_CS (n : Nat) : Key := ⟨0x2E00200 + n * 0x1000000, 6, 2, 0⟩
/-- DIE.Fn.OUTPOST.SPI.CFG.MSB (R65). -/
def OUTPOST_SPI_CFG_MSB (n : Nat) : Key := ⟨0x2E00200 + n * 0x1000000, 5, 1, 1⟩
/-- DIE.Fn.OUTPOST.SPI.CFG.MODE (R65). -/
def OUTPOST_SPI_CFG_MODE (n : Nat) : Key := ⟨0x2E00200 + n * 0x1000000, 3, 2, 0⟩
/-- DIE.Fn.OUTPOST.SPI.CFG.SLAVE (R65). -/
def OUTPOST_SPI_CFG_SLAVE (n : Nat) : Key := ⟨0x2E00200 + n * 0x1000000, 2, 1, 0⟩
/-- DIE.Fn.OUTPOST.SPI.CFG.EN (R65). -/
def OUTPOST_SPI_CFG_EN (n : Nat) : Key := ⟨0x2E00200 + n * 0x1000000, 0, 1, 0⟩
/-- DIE.Fn.OUTPOST.I2C.CFG.ADDR (R65). -/
def OUTPOST_I2C_CFG_ADDR (n : Nat) : Key := ⟨0x2E00300 + n * 0x1000000, 5, 7, 0⟩
/-- DIE.Fn.OUTPOST.I2C.CFG.SPEED (R65). -/
def OUTPOST_I2C_CFG_SPEED (n : Nat) : Key := ⟨0x2E00300 + n * 0x1000000, 3, 2, 0⟩
/-- DIE.Fn.OUTPOST.I2C.CFG.TARGET (R65). -/
def OUTPOST_I2C_CFG_TARGET (n : Nat) : Key := ⟨0x2E00300 + n * 0x1000000, 2, 1, 0⟩
/-- DIE.Fn.OUTPOST.I2C.CFG.STRETCH (R65). -/
def OUTPOST_I2C_CFG_STRETCH (n : Nat) : Key := ⟨0x2E00300 + n * 0x1000000, 1, 1, 1⟩
/-- DIE.Fn.OUTPOST.I2C.CFG.EN (R65). -/
def OUTPOST_I2C_CFG_EN (n : Nat) : Key := ⟨0x2E00300 + n * 0x1000000, 0, 1, 0⟩
/-- DIE.Fn.SPINE.CSTAT.COL (R86). -/
def SPINE_CSTAT_COL (n : Nat) : Key := ⟨0x2D00000 + n * 0x1000000, 0, 12, 0⟩
/-- DIE.Fn.SPINE.CLOG.DRV (R86). -/
def SPINE_CLOG_DRV (n : Nat) : Key := ⟨0x2D00008 + n * 0x1000000, 48, 16, 0⟩
/-- DIE.Fn.SPINE.CLOG.SPINE (R86). -/
def SPINE_CLOG_SPINE (n : Nat) : Key := ⟨0x2D00008 + n * 0x1000000, 32, 6, 0⟩
/-- DIE.Fn.SPINE.CLOG.COL (R86). -/
def SPINE_CLOG_COL (n : Nat) : Key := ⟨0x2D00008 + n * 0x1000000, 28, 4, 0⟩
/-- DIE.Fn.SPINE.CLOG.OUTCOME (R86). -/
def SPINE_CLOG_OUTCOME (n : Nat) : Key := ⟨0x2D00008 + n * 0x1000000, 1, 2, 0⟩
/-- DIE.Fn.SPINE.CLOG.VALID (R86). -/
def SPINE_CLOG_VALID (n : Nat) : Key := ⟨0x2D00008 + n * 0x1000000, 0, 1, 0⟩
/-- DIE.Fn.SPINE.COUNT.COUNT (R86). -/
def SPINE_COUNT_COUNT (n : Nat) : Key := ⟨0x2D00010 + n * 0x1000000, 0, 32, 0⟩
/-- DIE.Fn.SPINE.OFFk.OFF (R86). -/
def SPINE_OFF_OFF (n : Nat) (k : Nat) : Key := ⟨0x2D00100 + n * 0x1000000 + k * 0x8, 0, 48, 0⟩
/-- HUB.CLK.STAT.XLOST (R111). -/
def CLK_STAT_XLOST : Key := ⟨0x200000, 4, 1, 0⟩
/-- HUB.CLK.STAT.HOLDOVER (R111). -/
def CLK_STAT_HOLDOVER : Key := ⟨0x200000, 3, 1, 0⟩
/-- HUB.CLK.STAT.XABSENT (R111). -/
def CLK_STAT_XABSENT : Key := ⟨0x200000, 2, 1, 0⟩
/-- HUB.CLK.STAT.SRC (R111). -/
def CLK_STAT_SRC : Key := ⟨0x200000, 1, 1, 0⟩
/-- HUB.CLK.STAT.SLOCK (R111). -/
def CLK_STAT_SLOCK : Key := ⟨0x200000, 0, 1, 0⟩
/-- HUB.CLK.XQUAL.WINDOWS (R111). -/
def CLK_XQUAL_WINDOWS : Key := ⟨0x200008, 48, 16, 0⟩
/-- HUB.CLK.XQUAL.RUN (R111). -/
def CLK_XQUAL_RUN : Key := ⟨0x200008, 32, 4, 0⟩
/-- HUB.CLK.XQUAL.REFCNT (R111). -/
def CLK_XQUAL_REFCNT : Key := ⟨0x200008, 16, 11, 0⟩
/-- HUB.CLK.XQUAL.LASTCNT (R111). -/
def CLK_XQUAL_LASTCNT : Key := ⟨0x200008, 0, 11, 0⟩
/-- HUB.CLK.GRIDTIME.TIME (R111). -/
def CLK_GRIDTIME_TIME : Key := ⟨0x200010, 0, 64, 0⟩
/-- HUB.CLK.SURVEY.REFDIV (R111). -/
def CLK_SURVEY_REFDIV : Key := ⟨0x200018, 8, 8, 1⟩
/-- HUB.CLK.SURVEY.MULT (R111). -/
def CLK_SURVEY_MULT : Key := ⟨0x200018, 0, 8, 32⟩
/-- DIE.Fn.CLK.PLLi.REF.REFPIN (R111). -/
def CLK_PLL_REF_REFPIN (n : Nat) (i : Nat) : Key := ⟨0x2C00000 + n * 0x1000000 + i * 0x40, 24, 5, 0⟩
/-- DIE.Fn.CLK.PLLi.REF.REFKHZ (R111). -/
def CLK_PLL_REF_REFKHZ (n : Nat) (i : Nat) : Key := ⟨0x2C00000 + n * 0x1000000 + i * 0x40, 4, 20, 100000⟩
/-- DIE.Fn.CLK.PLLi.REF.REFSEL (R111). -/
def CLK_PLL_REF_REFSEL (n : Nat) (i : Nat) : Key := ⟨0x2C00000 + n * 0x1000000 + i * 0x40, 0, 3, 0⟩
/-- DIE.Fn.CLK.PLLi.MUL.M (R111). -/
def CLK_PLL_MUL_M (n : Nat) (i : Nat) : Key := ⟨0x2C00008 + n * 0x1000000 + i * 0x40, 16, 9, 24⟩
/-- DIE.Fn.CLK.PLLi.MUL.D (R111). -/
def CLK_PLL_MUL_D (n : Nat) (i : Nat) : Key := ⟨0x2C00008 + n * 0x1000000 + i * 0x40, 0, 7, 1⟩
/-- DIE.Fn.CLK.PLLi.OUTk.PHASE (R111). -/
def CLK_PLL_OUT_PHASE (n : Nat) (i : Nat) (k : Nat) : Key := ⟨0x2C00010 + n * 0x1000000 + i * 0x40 + k * 0x8, 9, 3, 0⟩
/-- DIE.Fn.CLK.PLLi.OUTk.EN (R111). -/
def CLK_PLL_OUT_EN (n : Nat) (i : Nat) (k : Nat) : Key := ⟨0x2C00010 + n * 0x1000000 + i * 0x40 + k * 0x8, 8, 1, 0⟩
/-- DIE.Fn.CLK.PLLi.OUTk.O (R111). -/
def CLK_PLL_OUT_O (n : Nat) (i : Nat) (k : Nat) : Key := ⟨0x2C00010 + n * 0x1000000 + i * 0x40 + k * 0x8, 0, 8, 30⟩
/-- DIE.Fn.CLK.PLLi.STAT.GLOCK (R111). -/
def CLK_PLL_STAT_GLOCK (n : Nat) (i : Nat) : Key := ⟨0x2C00030 + n * 0x1000000 + i * 0x40, 3, 4, 0⟩
/-- DIE.Fn.CLK.PLLi.STAT.LOLS (R111). -/
def CLK_PLL_STAT_LOLS (n : Nat) (i : Nat) : Key := ⟨0x2C00030 + n * 0x1000000 + i * 0x40, 2, 1, 0⟩
/-- DIE.Fn.CLK.PLLi.STAT.LOCK (R111). -/
def CLK_PLL_STAT_LOCK (n : Nat) (i : Nat) : Key := ⟨0x2C00030 + n * 0x1000000 + i * 0x40, 0, 1, 0⟩
/-- DIE.Fn.CLK.NETm.SRC.UENUSE (R111). -/
def CLK_NET_SRC_UENUSE (n : Nat) (m : Nat) : Key := ⟨0x2C10000 + n * 0x1000000 + m * 0x20, 18, 1, 0⟩
/-- DIE.Fn.CLK.NETm.SRC.SELSRC (R111). -/
def CLK_NET_SRC_SELSRC (n : Nat) (m : Nat) : Key := ⟨0x2C10000 + n * 0x1000000 + m * 0x20, 17, 1, 0⟩
/-- DIE.Fn.CLK.NETm.SRC.SEL (R111). -/
def CLK_NET_SRC_SEL (n : Nat) (m : Nat) : Key := ⟨0x2C10000 + n * 0x1000000 + m * 0x20, 16, 1, 0⟩
/-- DIE.Fn.CLK.NETm.SRC.SRC1 (R111). -/
def CLK_NET_SRC_SRC1 (n : Nat) (m : Nat) : Key := ⟨0x2C10000 + n * 0x1000000 + m * 0x20, 8, 8, 0⟩
/-- DIE.Fn.CLK.NETm.SRC.SRC0 (R111). -/
def CLK_NET_SRC_SRC0 (n : Nat) (m : Nat) : Key := ⟨0x2C10000 + n * 0x1000000 + m * 0x20, 0, 8, 0⟩
/-- DIE.Fn.CLK.NETm.STAT.HALTED (R111). -/
def CLK_NET_STAT_HALTED (n : Nat) (m : Nat) : Key := ⟨0x2C10008 + n * 0x1000000 + m * 0x20, 4, 1, 1⟩
/-- DIE.Fn.CLK.NETm.STAT.NOSRC (R111). -/
def CLK_NET_STAT_NOSRC (n : Nat) (m : Nat) : Key := ⟨0x2C10008 + n * 0x1000000 + m * 0x20, 3, 1, 0⟩
/-- DIE.Fn.CLK.NETm.STAT.DEADSRC (R111). -/
def CLK_NET_STAT_DEADSRC (n : Nat) (m : Nat) : Key := ⟨0x2C10008 + n * 0x1000000 + m * 0x20, 2, 1, 0⟩
/-- DIE.Fn.CLK.NETm.STAT.SWITCHING (R111). -/
def CLK_NET_STAT_SWITCHING (n : Nat) (m : Nat) : Key := ⟨0x2C10008 + n * 0x1000000 + m * 0x20, 1, 1, 0⟩
/-- DIE.Fn.CLK.NETm.STAT.ACTIVE (R111). -/
def CLK_NET_STAT_ACTIVE (n : Nat) (m : Nat) : Key := ⟨0x2C10008 + n * 0x1000000 + m * 0x20, 0, 1, 0⟩
/-- DIE.Fn.CLK.STAKEm.COUNT (R111). -/
def CLK_STAKE_COUNT (n : Nat) (m : Nat) : Key := ⟨0x2C20000 + n * 0x1000000 + m * 0x8, 0, 48, 0⟩
/-- DIE.Fn.CLK.STAKELATCH.GO (R111). -/
def CLK_STAKELATCH_GO (n : Nat) : Key := ⟨0x2C20200 + n * 0x1000000, 63, 1, 0⟩
/-- DIE.Fn.CLK.STAKELATCH.HELD (R111). -/
def CLK_STAKELATCH_HELD (n : Nat) : Key := ⟨0x2C20200 + n * 0x1000000, 62, 1, 0⟩
/-- DIE.Fn.CLK.STAKELATCH.TIME (R111). -/
def CLK_STAKELATCH_TIME (n : Nat) : Key := ⟨0x2C20200 + n * 0x1000000, 0, 62, 0⟩
/-- SEAM.CTL.PERSIST (R149). -/
def SEAM_CTL_PERSIST (k : Nat) : Key := ⟨seamBase k + 0x0, 24, 8, 8⟩
/-- SEAM.CTL.EYEMIN (R149). -/
def SEAM_CTL_EYEMIN (k : Nat) : Key := ⟨seamBase k + 0x0, 18, 6, 20⟩
/-- SEAM.CTL.EYEWARN (R149). -/
def SEAM_CTL_EYEWARN (k : Nat) : Key := ⟨seamBase k + 0x0, 12, 6, 16⟩
/-- SEAM.CTL.EYESWAP (R149). -/
def SEAM_CTL_EYESWAP (k : Nat) : Key := ⟨seamBase k + 0x0, 6, 6, 8⟩
/-- SEAM.CTL.AUTORUN (R149). -/
def SEAM_CTL_AUTORUN (k : Nat) : Key := ⟨seamBase k + 0x0, 1, 1, 1⟩
/-- SEAM.CTL.EN (R149). -/
def SEAM_CTL_EN (k : Nat) : Key := ⟨seamBase k + 0x0, 0, 1, 1⟩
/-- SEAM.STAT.CRCERR (R149). -/
def SEAM_STAT_CRCERR (k : Nat) : Key := ⟨seamBase k + 0x8, 56, 8, 0⟩
/-- SEAM.STAT.RET1 (R149). -/
def SEAM_STAT_RET1 (k : Nat) : Key := ⟨seamBase k + 0x8, 44, 8, 0⟩
/-- SEAM.STAT.RET0 (R149). -/
def SEAM_STAT_RET0 (k : Nat) : Key := ⟨seamBase k + 0x8, 36, 8, 0⟩
/-- SEAM.STAT.PLAN (R149). -/
def SEAM_STAT_PLAN (k : Nat) : Key := ⟨seamBase k + 0x8, 30, 3, 0⟩
/-- SEAM.STAT.NOHUB (R149). -/
def SEAM_STAT_NOHUB (k : Nat) : Key := ⟨seamBase k + 0x8, 29, 1, 0⟩
/-- SEAM.STAT.LOSSY (R149). -/
def SEAM_STAT_LOSSY (k : Nat) : Key := ⟨seamBase k + 0x8, 28, 1, 0⟩
/-- SEAM.STAT.MISMATCH (R149). -/
def SEAM_STAT_MISMATCH (k : Nat) : Key := ⟨seamBase k + 0x8, 27, 1, 0⟩
/-- SEAM.STAT.STATE (R149). -/
def SEAM_STAT_STATE (k : Nat) : Key := ⟨seamBase k + 0x8, 0, 4, 0⟩
/-- SEAM.EYESEL.DIR (R149). -/
def SEAM_EYESEL_DIR (k : Nat) : Key := ⟨seamBase k + 0x10, 12, 1, 0⟩
/-- SEAM.EYESEL.GROUP (R149). -/
def SEAM_EYESEL_GROUP (k : Nat) : Key := ⟨seamBase k + 0x10, 5, 7, 0⟩
/-- SEAM.EYESEL.LANE (R149). -/
def SEAM_EYESEL_LANE (k : Nat) : Key := ⟨seamBase k + 0x10, 0, 5, 0⟩
/-- SEAM.EYE.ERRS (R149). -/
def SEAM_EYE_ERRS (k : Nat) : Key := ⟨seamBase k + 0x18, 32, 32, 0⟩
/-- SEAM.EYE.MINMARGIN (R149). -/
def SEAM_EYE_MINMARGIN (k : Nat) : Key := ⟨seamBase k + 0x18, 16, 6, 63⟩
/-- SEAM.EYE.MARGIN (R149). -/
def SEAM_EYE_MARGIN (k : Nat) : Key := ⟨seamBase k + 0x18, 8, 6, 0⟩
/-- SEAM.EYE.LOCK (R149). -/
def SEAM_EYE_LOCK (k : Nat) : Key := ⟨seamBase k + 0x18, 1, 1, 0⟩
/-- SEAM.EYE.INUSE (R149). -/
def SEAM_EYE_INUSE (k : Nat) : Key := ⟨seamBase k + 0x18, 0, 1, 0⟩
/-- SEAM.MAPLOGw.MAP (R149). -/
def SEAM_MAPLOG_MAP (n : Nat) (w : Nat) : Key := ⟨0x2800100 + n * 0x1000000 + w * 0x8, 0, 64, 0⟩
/-- SEAM.GRPd.g.CFG.FENCE (R149). -/
def SEAM_GRP_CFG_FENCE (n : Nat) (d : Nat) (g : Nat) : Key := ⟨0x2801000 + n * 0x1000000 + d * 0x800 + g * 0x10, 10, 2, 0⟩
/-- SEAM.GRPd.g.CFG.BIND (R149). -/
def SEAM_GRP_CFG_BIND (n : Nat) (d : Nat) (g : Nat) : Key := ⟨0x2801000 + n * 0x1000000 + d * 0x800 + g * 0x10, 4, 4, 0⟩
/-- SEAM.GRPd.g.CFG.MODE (R149). -/
def SEAM_GRP_CFG_MODE (n : Nat) (d : Nat) (g : Nat) : Key := ⟨0x2801000 + n * 0x1000000 + d * 0x800 + g * 0x10, 0, 4, 0⟩
/-- SEAM.GRPd.g.STAT.PERR (R149). -/
def SEAM_GRP_STAT_PERR (k : Nat) (d : Nat) (g : Nat) : Key := ⟨seamBase k + 0x1008 + d * 0x800 + g * 0x10, 32, 32, 0⟩
/-- SEAM.GRPd.g.STAT.AMODE (R149). -/
def SEAM_GRP_STAT_AMODE (k : Nat) (d : Nat) (g : Nat) : Key := ⟨seamBase k + 0x1008 + d * 0x800 + g * 0x10, 16, 4, 0⟩
/-- SEAM.GRPd.g.STAT.SPARELANE (R149). -/
def SEAM_GRP_STAT_SPARELANE (k : Nat) (d : Nat) (g : Nat) : Key := ⟨seamBase k + 0x1008 + d * 0x800 + g * 0x10, 8, 4, 0⟩
/-- SEAM.GRPd.g.STAT.SPARE (R149). -/
def SEAM_GRP_STAT_SPARE (k : Nat) (d : Nat) (g : Nat) : Key := ⟨seamBase k + 0x1008 + d * 0x800 + g * 0x10, 6, 2, 0⟩
/-- SEAM.GRPd.g.STAT.LOSSY (R149). -/
def SEAM_GRP_STAT_LOSSY (k : Nat) (d : Nat) (g : Nat) : Key := ⟨seamBase k + 0x1008 + d * 0x800 + g * 0x10, 5, 1, 0⟩
/-- SEAM.GRPd.g.STAT.GSTATE (R149). -/
def SEAM_GRP_STAT_GSTATE (k : Nat) (d : Nat) (g : Nat) : Key := ⟨seamBase k + 0x1008 + d * 0x800 + g * 0x10, 0, 3, 0⟩
/-- SEAM.BINDd.b.CFG.PDOM (R149). -/
def SEAM_BIND_CFG_PDOM (n : Nat) (d : Nat) (b : Nat) : Key := ⟨0x2802000 + n * 0x1000000 + d * 0x100 + b * 0x10, 17, 6, 0⟩
/-- SEAM.BINDd.b.CFG.EN (R149). -/
def SEAM_BIND_CFG_EN (n : Nat) (d : Nat) (b : Nat) : Key := ⟨0x2802000 + n * 0x1000000 + d * 0x100 + b * 0x10, 16, 1, 0⟩
/-- SEAM.BINDd.b.CFG.RXNET (R149). -/
def SEAM_BIND_CFG_RXNET (n : Nat) (d : Nat) (b : Nat) : Key := ⟨0x2802000 + n * 0x1000000 + d * 0x100 + b * 0x10, 8, 6, 0⟩
/-- SEAM.BINDd.b.CFG.TXNET (R149). -/
def SEAM_BIND_CFG_TXNET (n : Nat) (d : Nat) (b : Nat) : Key := ⟨0x2802000 + n * 0x1000000 + d * 0x100 + b * 0x10, 0, 6, 0⟩
/-- SEAM.BINDd.b.STAT.DELTA (R149). -/
def SEAM_BIND_STAT_DELTA (n : Nat) (d : Nat) (b : Nat) : Key := ⟨0x2802008 + n * 0x1000000 + d * 0x100 + b * 0x10, 16, 48, 0⟩
/-- SEAM.BINDd.b.STAT.K (R149). -/
def SEAM_BIND_STAT_K (n : Nat) (d : Nat) (b : Nat) : Key := ⟨0x2802008 + n * 0x1000000 + d * 0x100 + b * 0x10, 4, 12, 0⟩
/-- SEAM.BINDd.b.STAT.KRANGE (R149). -/
def SEAM_BIND_STAT_KRANGE (n : Nat) (d : Nat) (b : Nat) : Key := ⟨0x2802008 + n * 0x1000000 + d * 0x100 + b * 0x10, 3, 1, 0⟩
/-- SEAM.BINDd.b.STAT.KMISMATCH (R149). -/
def SEAM_BIND_STAT_KMISMATCH (n : Nat) (d : Nat) (b : Nat) : Key := ⟨0x2802008 + n * 0x1000000 + d * 0x100 + b * 0x10, 2, 1, 0⟩
/-- SEAM.BINDd.b.STAT.NOLOCK (R149). -/
def SEAM_BIND_STAT_NOLOCK (n : Nat) (d : Nat) (b : Nat) : Key := ⟨0x2802008 + n * 0x1000000 + d * 0x100 + b * 0x10, 1, 1, 0⟩
/-- SEAM.BINDd.b.STAT.ALIGNED (R149). -/
def SEAM_BIND_STAT_ALIGNED (n : Nat) (d : Nat) (b : Nat) : Key := ⟨0x2802008 + n * 0x1000000 + d * 0x100 + b * 0x10, 0, 1, 0⟩
/-- DIE.Fn.PDOMd.NETS.NETS (R149). -/
def PDOM_NETS_NETS (n : Nat) (d : Nat) : Key := ⟨0x2880000 + n * 0x1000000 + d * 0x10, 0, 64, 0⟩
/-- DIE.Fn.PDOMd.STAT.KMIN (R149). -/
def PDOM_STAT_KMIN (n : Nat) (d : Nat) : Key := ⟨0x2880008 + n * 0x1000000 + d * 0x10, 12, 12, 0⟩
/-- DIE.Fn.PDOMd.STAT.TOOFAST (R149). -/
def PDOM_STAT_TOOFAST (n : Nat) (d : Nat) : Key := ⟨0x2880008 + n * 0x1000000 + d * 0x10, 4, 1, 0⟩
/-- DIE.Fn.PDOMd.STAT.HELD (R149). -/
def PDOM_STAT_HELD (n : Nat) (d : Nat) : Key := ⟨0x2880008 + n * 0x1000000 + d * 0x10, 3, 1, 0⟩
/-- DIE.Fn.STRATA.CTL.CAPWAIT (R169). -/
def STRATA_CTL_CAPWAIT (n : Nat) : Key := ⟨0x2A00000 + n * 0x1000000, 24, 8, 10⟩
/-- DIE.Fn.STRATA.CTL.HOSTWR (R169). -/
def STRATA_CTL_HOSTWR (n : Nat) : Key := ⟨0x2A00000 + n * 0x1000000, 17, 1, 0⟩
/-- DIE.Fn.STRATA.CTL.DEPTH (R169). -/
def STRATA_CTL_DEPTH (n : Nat) : Key := ⟨0x2A00000 + n * 0x1000000, 0, 6, 32⟩
/-- DIE.Fn.STRATA.STAT.LASTCAPID (R169). -/
def STRATA_STAT_LASTCAPID (n : Nat) : Key := ⟨0x2A00008 + n * 0x1000000, 32, 32, 0⟩
/-- DIE.Fn.STRATA.STAT.BUSY (R169). -/
def STRATA_STAT_BUSY (n : Nat) : Key := ⟨0x2A00008 + n * 0x1000000, 31, 1, 0⟩
/-- DIE.Fn.STRATA.STAT.OP (R169). -/
def STRATA_STAT_OP (n : Nat) : Key := ⟨0x2A00008 + n * 0x1000000, 29, 2, 0⟩
/-- DIE.Fn.STRATA.STAT.LASTSLOT (R169). -/
def STRATA_STAT_LASTSLOT (n : Nat) : Key := ⟨0x2A00008 + n * 0x1000000, 16, 5, 0⟩
/-- DIE.Fn.STRATA.STAT.NEXT (R169). -/
def STRATA_STAT_NEXT (n : Nat) : Key := ⟨0x2A00008 + n * 0x1000000, 8, 5, 0⟩
/-- DIE.Fn.STRATA.STAT.LAST (R169). -/
def STRATA_STAT_LAST (n : Nat) : Key := ⟨0x2A00008 + n * 0x1000000, 0, 4, 0⟩
/-- DIE.Fn.STRATA.KEEP.KEEP (R169). -/
def STRATA_KEEP_KEEP (n : Nat) : Key := ⟨0x2A00010 + n * 0x1000000, 0, 32, 0⟩
/-- DIE.Fn.STRATA.MISSED.COUNT (R169). -/
def STRATA_MISSED_COUNT (n : Nat) : Key := ⟨0x2A00018 + n * 0x1000000, 0, 32, 0⟩
/-- DIE.Fn.STRATA.HTRIG.DIES (R169). -/
def STRATA_HTRIG_DIES (n : Nat) : Key := ⟨0x2A00020 + n * 0x1000000, 4, 4, 0⟩
/-- DIE.Fn.STRATA.HTRIG.PROFILE (R169). -/
def STRATA_HTRIG_PROFILE (n : Nat) : Key := ⟨0x2A00020 + n * 0x1000000, 1, 3, 0⟩
/-- DIE.Fn.STRATA.HTRIG.GO (R169). -/
def STRATA_HTRIG_GO (n : Nat) : Key := ⟨0x2A00020 + n * 0x1000000, 0, 1, 0⟩
/-- DIE.Fn.STRATA.PROFp.NETS (R169). -/
def STRATA_PROF_NETS (n : Nat) (p : Nat) : Key := ⟨0x2A00100 + n * 0x1000000 + p * 0x8, 0, 64, 0⟩
/-- DIE.Fn.STRATA.TRIGi.DIES (R169). -/
def STRATA_TRIG_DIES (n : Nat) (i : Nat) : Key := ⟨0x2A00200 + n * 0x1000000 + i * 0x8, 5, 4, 0⟩
/-- DIE.Fn.STRATA.TRIGi.PROFILE (R169). -/
def STRATA_TRIG_PROFILE (n : Nat) (i : Nat) : Key := ⟨0x2A00200 + n * 0x1000000 + i * 0x8, 2, 3, 0⟩
/-- DIE.Fn.STRATA.TRIGi.EN (R169). -/
def STRATA_TRIG_EN (n : Nat) (i : Nat) : Key := ⟨0x2A00200 + n * 0x1000000 + i * 0x8, 0, 1, 0⟩
/-- DIE.F0.STRATA.TPINj.DIES (R151). -/
def STRATA_TPIN_DIES (j : Nat) : Key := ⟨0x2A00280 + j * 0x8, 5, 4, 0⟩
/-- DIE.F0.STRATA.TPINj.PROFILE (R151). -/
def STRATA_TPIN_PROFILE (j : Nat) : Key := ⟨0x2A00280 + j * 0x8, 2, 3, 0⟩
/-- DIE.F0.STRATA.TPINj.EN (R151). -/
def STRATA_TPIN_EN (j : Nat) : Key := ⟨0x2A00280 + j * 0x8, 0, 1, 0⟩
/-- CORE.ID.FOREMAN (R202). -/
def CORE_ID_FOREMAN (c : Nat) : Key := ⟨0x100000000 + c * 0x1000, 8, 1, (if c = 0 then 1 else 0)⟩
/-- CORE.ID.CORE (R202). -/
def CORE_ID_CORE (c : Nat) : Key := ⟨0x100000000 + c * 0x1000, 0, 6, c⟩
/-- CORE.TVEC.VEC (R202). -/
def CORE_TVEC_VEC (c : Nat) : Key := ⟨0x100000008 + c * 0x1000, 2, 62, (if c = 0 then 0x3FFFFFFFFFFC0040 else 0)⟩
/-- CORE.EPC.EPC (R202). -/
def CORE_EPC_EPC (c : Nat) : Key := ⟨0x100000010 + c * 0x1000, 0, 64, 0⟩
/-- CORE.CAUSE.DOUBLE (R202). -/
def CORE_CAUSE_DOUBLE (c : Nat) : Key := ⟨0x100000018 + c * 0x1000, 10, 1, 0⟩
/-- CORE.CAUSE.FETCH (R202). -/
def CORE_CAUSE_FETCH (c : Nat) : Key := ⟨0x100000018 + c * 0x1000, 9, 1, 0⟩
/-- CORE.CAUSE.IMPRECISE (R202). -/
def CORE_CAUSE_IMPRECISE (c : Nat) : Key := ⟨0x100000018 + c * 0x1000, 8, 1, 0⟩
/-- CORE.CAUSE.TACTIVE (R202). -/
def CORE_CAUSE_TACTIVE (c : Nat) : Key := ⟨0x100000018 + c * 0x1000, 7, 1, 0⟩
/-- CORE.CAUSE.CODE (R202). -/
def CORE_CAUSE_CODE (c : Nat) : Key := ⟨0x100000018 + c * 0x1000, 0, 6, 0⟩
/-- CORE.TVAL.TVAL (R202). -/
def CORE_TVAL_TVAL (c : Nat) : Key := ⟨0x100000020 + c * 0x1000, 0, 64, 0⟩
/-- CORE.CYCLE.COUNT (R202). -/
def CORE_CYCLE_COUNT (c : Nat) : Key := ⟨0x100000028 + c * 0x1000, 0, 64, 0⟩
/-- CORE.LOCKSTAT.PRIO (R202). -/
def CORE_LOCKSTAT_PRIO (c : Nat) : Key := ⟨0x100000030 + c * 0x1000, 9, 1, 0⟩
/-- CORE.LOCKSTAT.LOCKBRK (R202). -/
def CORE_LOCKSTAT_LOCKBRK (c : Nat) : Key := ⟨0x100000030 + c * 0x1000, 8, 1, 0⟩
/-- CORE.LOCKSTAT.OPEN (R202). -/
def CORE_LOCKSTAT_OPEN (c : Nat) : Key := ⟨0x100000030 + c * 0x1000, 7, 1, 0⟩
/-- CORE.LOCKSTAT.FAILS (R202). -/
def CORE_LOCKSTAT_FAILS (c : Nat) : Key := ⟨0x100000030 + c * 0x1000, 0, 5, 0⟩
/-- HUB.SCHED.TICKETS.HELD (R267). -/
def SCHED_TICKETS_HELD : Key := ⟨0x400000, 32, 17, 0⟩
/-- HUB.SCHED.TICKETS.SHARED (R267). -/
def SCHED_TICKETS_SHARED : Key := ⟨0x400000, 0, 17, 65536⟩
/-- HUB.SCHED.MISS.LOST (R267). -/
def SCHED_MISS_LOST : Key := ⟨0x400008, 32, 32, 0⟩
/-- HUB.SCHED.MISS.MISS (R267). -/
def SCHED_MISS_MISS : Key := ⟨0x400008, 0, 32, 0⟩
/-- HUB.SCHED.DLNEXT.TIME (R267). -/
def SCHED_DLNEXT_TIME : Key := ⟨0x400010, 0, 64, 18446744073709551615⟩
/-- HUB.SCHED.Qq.CFG.PATIENCE (R267). -/
def SCHED_Q_CFG_PATIENCE (q : Nat) : Key := ⟨0x500000 + q * 0x40, 48, 16, 100⟩
/-- HUB.SCHED.Qq.CFG.TRES (R267). -/
def SCHED_Q_CFG_TRES (q : Nat) : Key := ⟨0x500000 + q * 0x40, 32, 13, 0⟩
/-- HUB.SCHED.Qq.CFG.OWNKIND (R267). -/
def SCHED_Q_CFG_OWNKIND (q : Nat) : Key := ⟨0x500000 + q * 0x40, 28, 4, (if q < 8 then 5 else 0)⟩
/-- HUB.SCHED.Qq.CFG.OWNIDX (R267). -/
def SCHED_Q_CFG_OWNIDX (q : Nat) : Key := ⟨0x500000 + q * 0x40, 16, 12, (if q < 8 then q else 0)⟩
/-- HUB.SCHED.Qq.CFG.PLOCK (R267). -/
def SCHED_Q_CFG_PLOCK (q : Nat) : Key := ⟨0x500000 + q * 0x40, 11, 1, (if q < 8 then 1 else 0)⟩
/-- HUB.SCHED.Qq.CFG.PRIO (R267). -/
def SCHED_Q_CFG_PRIO (q : Nat) : Key := ⟨0x500000 + q * 0x40, 8, 3, (if q < 256 then 0 else 1)⟩
/-- HUB.SCHED.Qq.CFG.DEPTH (R267). -/
def SCHED_Q_CFG_DEPTH (q : Nat) : Key := ⟨0x500000 + q * 0x40, 4, 3, 0⟩
/-- HUB.SCHED.Qq.CFG.DELIVER (R267). -/
def SCHED_Q_CFG_DELIVER (q : Nat) : Key := ⟨0x500000 + q * 0x40, 2, 1, 0⟩
/-- HUB.SCHED.Qq.CFG.AUTO (R267). -/
def SCHED_Q_CFG_AUTO (q : Nat) : Key := ⟨0x500000 + q * 0x40, 1, 1, 0⟩
/-- HUB.SCHED.Qq.CFG.EN (R267). -/
def SCHED_Q_CFG_EN (q : Nat) : Key := ⟨0x500000 + q * 0x40, 0, 1, 0⟩
/-- HUB.SCHED.Qq.BASE.ADDR (R267). -/
def SCHED_Q_BASE_ADDR (q : Nat) : Key := ⟨0x500008 + q * 0x40, 0, 64, 0⟩
/-- HUB.SCHED.Qq.AFF.MASK (R267). -/
def SCHED_Q_AFF_MASK (q : Nat) : Key := ⟨0x500010 + q * 0x40, 1, 63, 0⟩
/-- HUB.SCHED.Qq.PROG.PROG (R267). -/
def SCHED_Q_PROG_PROG (q : Nat) : Key := ⟨0x500018 + q * 0x40, 2, 62, 0⟩
/-- HUB.SCHED.Qq.BURN.LIMIT (R267). -/
def SCHED_Q_BURN_LIMIT (q : Nat) : Key := ⟨0x500020 + q * 0x40, 0, 32, 1000000⟩
/-- HUB.SCHED.Qq.PTR.POP (R267). -/
def SCHED_Q_PTR_POP (q : Nat) : Key := ⟨0x500028 + q * 0x40, 48, 13, 0⟩
/-- HUB.SCHED.Qq.PTR.CRED (R267). -/
def SCHED_Q_PTR_CRED (q : Nat) : Key := ⟨0x500028 + q * 0x40, 32, 13, 0⟩
/-- HUB.SCHED.Qq.PTR.OCC (R267). -/
def SCHED_Q_PTR_OCC (q : Nat) : Key := ⟨0x500028 + q * 0x40, 16, 13, 0⟩
/-- HUB.SCHED.Qq.PTR.RES (R267). -/
def SCHED_Q_PTR_RES (q : Nat) : Key := ⟨0x500028 + q * 0x40, 0, 13, 0⟩
/-- HUB.SCHED.Qq.STAT.MISS (R267). -/
def SCHED_Q_STAT_MISS (q : Nat) : Key := ⟨0x500030 + q * 0x40, 48, 16, 0⟩
/-- HUB.SCHED.Qq.STAT.NOTICKET (R267). -/
def SCHED_Q_STAT_NOTICKET (q : Nat) : Key := ⟨0x500030 + q * 0x40, 32, 16, 0⟩
/-- HUB.SCHED.Qq.STAT.DROP (R267). -/
def SCHED_Q_STAT_DROP (q : Nat) : Key := ⟨0x500030 + q * 0x40, 16, 16, 0⟩
/-- HUB.SCHED.Qq.STAT.DISCARD (R267). -/
def SCHED_Q_STAT_DISCARD (q : Nat) : Key := ⟨0x500030 + q * 0x40, 0, 16, 0⟩
/-- HUB.SCHED.Qq.DEST.DEST (R267). -/
def SCHED_Q_DEST_DEST (q : Nat) : Key := ⟨0x500038 + q * 0x40, 0, 64, 0⟩
/-- HUB.CREW.COREc.ITEM.BUSY (R267). -/
def CREW_CORE_ITEM_BUSY (c : Nat) : Key := ⟨0x800000 + c * 0x40, 63, 1, 0⟩
/-- HUB.CREW.COREc.ITEM.LEVEL (R267). -/
def CREW_CORE_ITEM_LEVEL (c : Nat) : Key := ⟨0x800000 + c * 0x40, 56, 3, 0⟩
/-- HUB.CREW.COREc.ITEM.QUEUE (R267). -/
def CREW_CORE_ITEM_QUEUE (c : Nat) : Key := ⟨0x800000 + c * 0x40, 40, 14, 0⟩
/-- HUB.CREW.COREc.ITEM.GEN (R267). -/
def CREW_CORE_ITEM_GEN (c : Nat) : Key := ⟨0x800000 + c * 0x40, 16, 16, 0⟩
/-- HUB.CREW.COREc.ITEM.TICKET (R267). -/
def CREW_CORE_ITEM_TICKET (c : Nat) : Key := ⟨0x800000 + c * 0x40, 0, 16, 0⟩
/-- HUB.CREW.COREc.BURN.LIMIT (R267). -/
def CREW_CORE_BURN_LIMIT (c : Nat) : Key := ⟨0x800008 + c * 0x40, 32, 32, 0⟩
/-- HUB.CREW.COREc.BURN.COUNT (R267). -/
def CREW_CORE_BURN_COUNT (c : Nat) : Key := ⟨0x800008 + c * 0x40, 0, 32, 0⟩
/-- HUB.CREW.IDLE.IDLE (R267). -/
def CREW_IDLE_IDLE : Key := ⟨0x801000, 1, 63, 9223372036854775807⟩
/-- HUB.CFG.LOAD.RELEASED (R303). -/
def CFG_LOAD_RELEASED : Key := ⟨0xC00000, 56, 4, 0⟩
/-- HUB.CFG.LOAD.OPENKEY (R303). -/
def CFG_LOAD_OPENKEY : Key := ⟨0xC00000, 52, 1, 0⟩
/-- HUB.CFG.LOAD.GOLDEN (R303). -/
def CFG_LOAD_GOLDEN : Key := ⟨0xC00000, 51, 1, 0⟩
/-- HUB.CFG.LOAD.SRC (R303). -/
def CFG_LOAD_SRC : Key := ⟨0xC00000, 48, 3, 0⟩
/-- HUB.CFG.LOAD.KIND (R303). -/
def CFG_LOAD_KIND : Key := ⟨0xC00000, 32, 4, 0⟩
/-- HUB.CFG.LOAD.SEG (R303). -/
def CFG_LOAD_SEG : Key := ⟨0xC00000, 16, 10, 0⟩
/-- HUB.CFG.LOAD.STAGE (R303). -/
def CFG_LOAD_STAGE : Key := ⟨0xC00000, 0, 4, 0⟩
/-- HUB.CFG.LOADERR.CODE (R303). -/
def CFG_LOADERR_CODE : Key := ⟨0xC00008, 56, 8, 0⟩
/-- HUB.CFG.LOADERR.PRIMARY (R303). -/
def CFG_LOADERR_PRIMARY : Key := ⟨0xC00008, 48, 8, 0⟩
/-- HUB.CFG.LOADERR.DETAIL (R303). -/
def CFG_LOADERR_DETAIL : Key := ⟨0xC00008, 40, 8, 0⟩
/-- HUB.CFG.LOADERR.FADDR (R303). -/
def CFG_LOADERR_FADDR : Key := ⟨0xC00008, 16, 20, 0⟩
/-- HUB.CFG.LOADERR.SEG (R303). -/
def CFG_LOADERR_SEG : Key := ⟨0xC00008, 0, 10, 0⟩
/-- HUB.CFG.IMAGE.IMAGEID (R303). -/
def CFG_IMAGE_IMAGEID : Key := ⟨0xC00010, 32, 32, 0⟩
/-- HUB.CFG.WORK.ADDR (R303). -/
def CFG_WORK_ADDR : Key := ⟨0xC00018, 22, 42, (0x10000000 / 0x400000)⟩
/-- HUB.CFG.RELEASE.DIES (R303). -/
def CFG_RELEASE_DIES : Key := ⟨0xC00020, 0, 4, 0⟩
/-- HUB.CFG.COMMIT.GO (R303). -/
def CFG_COMMIT_GO : Key := ⟨0xC00100, 63, 1, 0⟩
/-- HUB.CFG.COMMIT.BUSY (R303). -/
def CFG_COMMIT_BUSY : Key := ⟨0xC00100, 62, 1, 0⟩
/-- HUB.CFG.COMMIT.CLAMPS (R303). -/
def CFG_COMMIT_CLAMPS : Key := ⟨0xC00100, 24, 8, 0⟩
/-- HUB.CFG.COMMIT.STATUS (R303). -/
def CFG_COMMIT_STATUS : Key := ⟨0xC00100, 16, 8, 0⟩
/-- HUB.CFG.COMMIT.GROUP (R303). -/
def CFG_COMMIT_GROUP : Key := ⟨0xC00100, 0, 16, 0⟩
/-- HUB.CFG.CLAMPHEAD.TOTAL (R303). -/
def CFG_CLAMPHEAD_TOTAL : Key := ⟨0xC00200, 32, 32, 0⟩
/-- HUB.CFG.CLAMPHEAD.NEXT (R303). -/
def CFG_CLAMPHEAD_NEXT : Key := ⟨0xC00200, 0, 6, 0⟩
/-- HUB.CFG.CLAMPLOGe.ADDR.ADDR (R303). -/
def CFG_CLAMPLOG_ADDR_ADDR (e : Nat) : Key := ⟨0xC01000 + e * 0x20, 0, 28, 0⟩
/-- HUB.CFG.CLAMPLOGe.FIELD.SEQ (R303). -/
def CFG_CLAMPLOG_FIELD_SEQ (e : Nat) : Key := ⟨0xC01008 + e * 0x20, 32, 32, 0⟩
/-- HUB.CFG.CLAMPLOGe.FIELD.REASON (R303). -/
def CFG_CLAMPLOG_FIELD_REASON (e : Nat) : Key := ⟨0xC01008 + e * 0x20, 24, 4, 0⟩
/-- HUB.CFG.CLAMPLOGe.FIELD.WIDTHM1 (R303). -/
def CFG_CLAMPLOG_FIELD_WIDTHM1 (e : Nat) : Key := ⟨0xC01008 + e * 0x20, 16, 6, 0⟩
/-- HUB.CFG.CLAMPLOGe.FIELD.LSB (R303). -/
def CFG_CLAMPLOG_FIELD_LSB (e : Nat) : Key := ⟨0xC01008 + e * 0x20, 8, 6, 0⟩
/-- HUB.CFG.CLAMPLOGe.FIELD.VALID (R303). -/
def CFG_CLAMPLOG_FIELD_VALID (e : Nat) : Key := ⟨0xC01008 + e * 0x20, 0, 1, 0⟩
/-- HUB.CFG.CLAMPLOGe.WRITTEN.VALUE (R303). -/
def CFG_CLAMPLOG_WRITTEN_VALUE (e : Nat) : Key := ⟨0xC01010 + e * 0x20, 0, 64, 0⟩
/-- HUB.CFG.CLAMPLOGe.APPLIED.VALUE (R303). -/
def CFG_CLAMPLOG_APPLIED_VALUE (e : Nat) : Key := ⟨0xC01018 + e * 0x20, 0, 64, 0⟩
/-- DIE.Fn.FENCE.SECs.LIFTING (R325). -/
def FENCE_SEC_LIFTING (n : Nat) (s : Nat) : Key := ⟨0x2B00000 + n * 0x1000000 + s * 0x8, 5, 1, 0⟩
/-- DIE.Fn.FENCE.SECs.SETTLED (R325). -/
def FENCE_SEC_SETTLED (n : Nat) (s : Nat) : Key := ⟨0x2B00000 + n * 0x1000000 + s * 0x8, 4, 1, 0⟩
/-- DIE.Fn.FENCE.SECs.SETTING (R325). -/
def FENCE_SEC_SETTING (n : Nat) (s : Nat) : Key := ⟨0x2B00000 + n * 0x1000000 + s * 0x8, 1, 2, 0⟩
/-- DIE.Fn.FENCE.SECs.FENCE (R325). -/
def FENCE_SEC_FENCE (n : Nat) (s : Nat) : Key := ⟨0x2B00000 + n * 0x1000000 + s * 0x8, 0, 1, 0⟩
/-- DIE.Fn.SCRUB.CTL.FENCEUNC (R325). -/
def SCRUB_CTL_FENCEUNC (n : Nat) : Key := ⟨0x2600000 + n * 0x1000000, 2, 1, 0⟩
/-- DIE.Fn.SCRUB.CTL.EN (R325). -/
def SCRUB_CTL_EN (n : Nat) : Key := ⟨0x2600000 + n * 0x1000000, 0, 1, 1⟩
/-- DIE.Fn.SCRUB.STAT.SECTOR (R325). -/
def SCRUB_STAT_SECTOR (n : Nat) : Key := ⟨0x2600008 + n * 0x1000000, 20, 8, 0⟩
/-- DIE.Fn.SCRUB.STAT.FRAME (R325). -/
def SCRUB_STAT_FRAME (n : Nat) : Key := ⟨0x2600008 + n * 0x1000000, 10, 10, 0⟩
/-- DIE.Fn.SCRUB.STAT.STUCK (R325). -/
def SCRUB_STAT_STUCK (n : Nat) : Key := ⟨0x2600008 + n * 0x1000000, 6, 1, 0⟩
/-- DIE.Fn.SCRUB.STAT.UNCORR (R325). -/
def SCRUB_STAT_UNCORR (n : Nat) : Key := ⟨0x2600008 + n * 0x1000000, 5, 1, 0⟩
/-- DIE.Fn.SCRUB.STAT.INCOMPLETE (R325). -/
def SCRUB_STAT_INCOMPLETE (n : Nat) : Key := ⟨0x2600008 + n * 0x1000000, 4, 1, 0⟩
/-- DIE.Fn.SCRUB.STAT.PAUSE (R325). -/
def SCRUB_STAT_PAUSE (n : Nat) : Key := ⟨0x2600008 + n * 0x1000000, 1, 3, 0⟩
/-- DIE.Fn.SCRUB.COUNT.VOTES (R325). -/
def SCRUB_COUNT_VOTES (n : Nat) : Key := ⟨0x2600010 + n * 0x1000000, 48, 16, 0⟩
/-- DIE.Fn.SCRUB.COUNT.UNCORR (R325). -/
def SCRUB_COUNT_UNCORR (n : Nat) : Key := ⟨0x2600010 + n * 0x1000000, 32, 16, 0⟩
/-- DIE.Fn.SCRUB.COUNT.CORR (R325). -/
def SCRUB_COUNT_CORR (n : Nat) : Key := ⟨0x2600010 + n * 0x1000000, 0, 32, 0⟩
/-- DIE.Fn.SCRUB.UNCLOG.VALID (R325). -/
def SCRUB_UNCLOG_VALID (n : Nat) : Key := ⟨0x2600018 + n * 0x1000000, 63, 1, 0⟩
/-- DIE.Fn.SCRUB.UNCLOG.FADDR (R325). -/
def SCRUB_UNCLOG_FADDR (n : Nat) : Key := ⟨0x2600018 + n * 0x1000000, 32, 20, 0⟩
/-- DIE.Fn.SCRUB.UNCLOG.EPOCH (R325). -/
def SCRUB_UNCLOG_EPOCH (n : Nat) : Key := ⟨0x2600018 + n * 0x1000000, 0, 32, 0⟩
/-- DIE.Fn.MASK.SECs.Ww.BITS (R325). -/
def MASK_SEC_W_BITS (n : Nat) (s : Nat) (w : Nat) : Key := ⟨0x2700000 + n * 0x1000000 + s * 0x80 + w * 0x8, 0, 64, 0⟩
/-- DIE.Fn.ASSAY.STAT.EPOCH (R325). -/
def ASSAY_STAT_EPOCH (n : Nat) : Key := ⟨0x2680000 + n * 0x1000000, 32, 32, 0⟩
/-- DIE.Fn.ASSAY.STAT.MATCH (R325). -/
def ASSAY_STAT_MATCH (n : Nat) : Key := ⟨0x2680000 + n * 0x1000000, 2, 1, 0⟩
/-- DIE.Fn.ASSAY.STAT.INTENDED (R325). -/
def ASSAY_STAT_INTENDED (n : Nat) : Key := ⟨0x2680000 + n * 0x1000000, 1, 1, 0⟩
/-- DIE.Fn.ASSAY.STAT.READY (R325). -/
def ASSAY_STAT_READY (n : Nat) : Key := ⟨0x2680000 + n * 0x1000000, 0, 1, 0⟩
/-- DIE.Fn.ASSAY.DIGw.DIG (R325). -/
def ASSAY_DIG_DIG (n : Nat) (w : Nat) : Key := ⟨0x2680008 + n * 0x1000000 + w * 0x8, 0, 64, 0⟩
/-- DIE.Fn.ASSAY.SECSEL.SECTOR (R325). -/
def ASSAY_SECSEL_SECTOR (n : Nat) : Key := ⟨0x2680040 + n * 0x1000000, 0, 8, 0⟩
/-- DIE.Fn.ASSAY.SECSTAT.EPOCH (R325). -/
def ASSAY_SECSTAT_EPOCH (n : Nat) : Key := ⟨0x2680048 + n * 0x1000000, 32, 32, 0⟩
/-- DIE.Fn.ASSAY.SECSTAT.READY (R325). -/
def ASSAY_SECSTAT_READY (n : Nat) : Key := ⟨0x2680048 + n * 0x1000000, 0, 1, 0⟩
/-- DIE.Fn.ASSAY.SECDIGw.DIG (R325). -/
def ASSAY_SECDIG_DIG (n : Nat) (w : Nat) : Key := ⟨0x2680050 + n * 0x1000000 + w * 0x8, 0, 64, 0⟩
/-- HUB.CFG.ASSAYSTAT.DEVEPOCH (R325). -/
def CFG_ASSAYSTAT_DEVEPOCH : Key := ⟨0xC00300, 32, 32, 0⟩
/-- HUB.CFG.ASSAYSTAT.HUBMATCH (R325). -/
def CFG_ASSAYSTAT_HUBMATCH : Key := ⟨0xC00300, 2, 1, 0⟩
/-- HUB.CFG.ASSAYSTAT.DEVMATCH (R325). -/
def CFG_ASSAYSTAT_DEVMATCH : Key := ⟨0xC00300, 1, 1, 0⟩
/-- HUB.CFG.ASSAYSTAT.DEVREADY (R325). -/
def CFG_ASSAYSTAT_DEVREADY : Key := ⟨0xC00300, 0, 1, 0⟩
/-- HUB.CFG.ASSAYDEVw.DIG (R325). -/
def CFG_ASSAYDEV_DIG (w : Nat) : Key := ⟨0xC00308 + w * 0x8, 0, 64, 0⟩
/-- HUB.CFG.ASSAYHUBw.DIG (R325). -/
def CFG_ASSAYHUB_DIG (w : Nat) : Key := ⟨0xC00328 + w * 0x8, 0, 64, 0⟩
/-- HUB.CFG.ASSAYHUBEP.EPOCH (R325). -/
def CFG_ASSAYHUBEP_EPOCH : Key := ⟨0xC00348, 0, 32, 0⟩
/-- HUB.PCIE.CTL.HOTREACH (R346). -/
def PCIE_CTL_HOTREACH : Key := ⟨0x1400000, 8, 1, 0⟩
/-- HUB.PCIE.CTL.DBGWIN (R346). -/
def PCIE_CTL_DBGWIN : Key := ⟨0x1400000, 7, 1, 0⟩
/-- HUB.PCIE.CTL.MAXWIDTH (R346). -/
def PCIE_CTL_MAXWIDTH : Key := ⟨0x1400000, 4, 3, 3⟩
/-- HUB.PCIE.CTL.MAXGEN (R346). -/
def PCIE_CTL_MAXGEN : Key := ⟨0x1400000, 0, 3, 6⟩
/-- HUB.PCIE.STAT.NUMVF (R346). -/
def PCIE_STAT_NUMVF : Key := ⟨0x1400008, 16, 8, 0⟩
/-- HUB.PCIE.STAT.UP (R346). -/
def PCIE_STAT_UP : Key := ⟨0x1400008, 15, 1, 0⟩
/-- HUB.PCIE.STAT.FLIT (R346). -/
def PCIE_STAT_FLIT : Key := ⟨0x1400008, 14, 1, 0⟩
/-- HUB.PCIE.STAT.GEN (R346). -/
def PCIE_STAT_GEN : Key := ⟨0x1400008, 11, 3, 0⟩
/-- HUB.PCIE.STAT.WIDTH (R346). -/
def PCIE_STAT_WIDTH : Key := ⟨0x1400008, 6, 5, 0⟩
/-- HUB.PCIE.ERRCNT.CTO (R346). -/
def PCIE_ERRCNT_CTO : Key := ⟨0x1400010, 48, 16, 0⟩
/-- HUB.PCIE.ERRCNT.UNEXP (R346). -/
def PCIE_ERRCNT_UNEXP : Key := ⟨0x1400010, 32, 16, 0⟩
/-- HUB.PCIE.ERRCNT.DROPPED (R346). -/
def PCIE_ERRCNT_DROPPED : Key := ⟨0x1400010, 16, 16, 0⟩
/-- HUB.PCIE.ERRCNT.POISONED (R346). -/
def PCIE_ERRCNT_POISONED : Key := ⟨0x1400010, 0, 16, 0⟩
/-- HUB.PCIE.DIESEL.DIE (R346). -/
def PCIE_DIESEL_DIE : Key := ⟨0x1400018, 0, 2, 0⟩
/-- HUB.PCIE.APa.BASE (R346). -/
def PCIE_AP_BASE (a : Nat) : Key := ⟨0x1400100 + a * 0x8, 27, 37, 0⟩
/-- HUB.PCIE.APa.EN (R346). -/
def PCIE_AP_EN (a : Nat) : Key := ⟨0x1400100 + a * 0x8, 0, 1, 0⟩
/-- HUB.PCIE.FUNCf.MSIX.COUNT (R346). -/
def PCIE_FUNC_MSIX_COUNT (f : Nat) : Key := ⟨0x1401000 + f * 0x10, 16, 12, (if f = 0 then 0x800 else 0)⟩
/-- HUB.PCIE.FUNCf.MSIX.BASE (R346). -/
def PCIE_FUNC_MSIX_BASE (f : Nat) : Key := ⟨0x1401000 + f * 0x10, 0, 11, 0⟩
/-- HUB.PCIE.FUNCf.VWIN.BASE (R346). -/
def PCIE_FUNC_VWIN_BASE (f : Nat) : Key := ⟨0x1401008 + f * 0x10, 28, 36, 0⟩
/-- HUB.PCIE.FUNCf.VWIN.EN (R346). -/
def PCIE_FUNC_VWIN_EN (f : Nat) : Key := ⟨0x1401008 + f * 0x10, 0, 1, 0⟩
/-- HUB.PCIE.HRINGq.HEAD (R346). -/
def PCIE_HRING_HEAD (q : Nat) : Key := ⟨0x1500000 + q * 0x8, 48, 16, 0⟩
/-- HUB.PCIE.HRINGq.TAIL (R346). -/
def PCIE_HRING_TAIL (q : Nat) : Key := ⟨0x1500000 + q * 0x8, 16, 16, 0⟩
/-- HUB.PCIE.HRINGq.IEN (R346). -/
def PCIE_HRING_IEN (q : Nat) : Key := ⟨0x1500000 + q * 0x8, 15, 1, 0⟩
/-- HUB.PCIE.HRINGq.VEC (R346). -/
def PCIE_HRING_VEC (q : Nat) : Key := ⟨0x1500000 + q * 0x8, 0, 11, 0⟩
/-- HUB.LANE.k.CFG.PRESET (R377). -/
def LANE_CFG_PRESET (k : Nat) : Key := ⟨0x1600000 + k * 0x1000, 12, 4, 0⟩
/-- HUB.LANE.k.CFG.PRECODE (R377). -/
def LANE_CFG_PRECODE (k : Nat) : Key := ⟨0x1600000 + k * 0x1000, 9, 1, 1⟩
/-- HUB.LANE.k.CFG.POLTX (R377). -/
def LANE_CFG_POLTX (k : Nat) : Key := ⟨0x1600000 + k * 0x1000, 7, 1, 0⟩
/-- HUB.LANE.k.CFG.MAXSTEP (R377). -/
def LANE_CFG_MAXSTEP (k : Nat) : Key := ⟨0x1600000 + k * 0x1000, 0, 3, 5⟩
/-- HUB.LANE.k.TEST.LOOP (R377). -/
def LANE_TEST_LOOP (k : Nat) : Key := ⟨0x1600008 + k * 0x1000, 7, 1, 0⟩
/-- HUB.LANE.k.TEST.CHK (R377). -/
def LANE_TEST_CHK (k : Nat) : Key := ⟨0x1600008 + k * 0x1000, 5, 2, 0⟩
/-- HUB.LANE.k.TEST.GEN (R377). -/
def LANE_TEST_GEN (k : Nat) : Key := ⟨0x1600008 + k * 0x1000, 3, 2, 0⟩
/-- HUB.LANE.k.TEST.STEP (R377). -/
def LANE_TEST_STEP (k : Nat) : Key := ⟨0x1600008 + k * 0x1000, 0, 3, 2⟩
/-- HUB.LANE.k.STAT.MARGLOW (R377). -/
def LANE_STAT_MARGLOW (k : Nat) : Key := ⟨0x1600010 + k * 0x1000, 24, 1, 0⟩
/-- HUB.LANE.k.STAT.MINMARGIN (R377). -/
def LANE_STAT_MINMARGIN (k : Nat) : Key := ⟨0x1600010 + k * 0x1000, 16, 6, 63⟩
/-- HUB.LANE.k.STAT.MARGIN (R377). -/
def LANE_STAT_MARGIN (k : Nat) : Key := ⟨0x1600010 + k * 0x1000, 8, 6, 0⟩
/-- HUB.LANE.k.STAT.PRECODED (R377). -/
def LANE_STAT_PRECODED (k : Nat) : Key := ⟨0x1600010 + k * 0x1000, 4, 1, 0⟩
/-- HUB.LANE.k.STAT.LOCK (R377). -/
def LANE_STAT_LOCK (k : Nat) : Key := ⟨0x1600010 + k * 0x1000, 3, 1, 0⟩
/-- HUB.LANE.k.STAT.STEP (R377). -/
def LANE_STAT_STEP (k : Nat) : Key := ⟨0x1600010 + k * 0x1000, 0, 3, 0⟩
/-- HUB.LANE.k.ERR.COUNT (R377). -/
def LANE_ERR_COUNT (k : Nat) : Key := ⟨0x1600018 + k * 0x1000, 0, 48, 0⟩
/-- HUB.BORTIK.CTL.MARGWARN (R377). -/
def BORTIK_CTL_MARGWARN : Key := ⟨0x1A00000, 8, 6, 16⟩
/-- HUB.BORTIK.CTL.AUTORUN (R377). -/
def BORTIK_CTL_AUTORUN : Key := ⟨0x1A00000, 1, 1, 1⟩
/-- HUB.BORTIK.LINKl.CFG.LINKID (R377). -/
def BORTIK_LINK_CFG_LINKID (l : Nat) : Key := ⟨0x1A10000 + l * 0x100, 32, 31, 0⟩
/-- HUB.BORTIK.LINKl.CFG.WIDTH (R377). -/
def BORTIK_LINK_CFG_WIDTH (l : Nat) : Key := ⟨0x1A10000 + l * 0x100, 2, 2, 0⟩
/-- HUB.BORTIK.LINKl.CFG.EN (R377). -/
def BORTIK_LINK_CFG_EN (l : Nat) : Key := ⟨0x1A10000 + l * 0x100, 0, 1, 0⟩
/-- HUB.BORTIK.LINKl.RSC.EN (R377). -/
def BORTIK_LINK_RSC_EN (l : Nat) : Key := ⟨0x1A10008 + l * 0x100, 63, 1, 0⟩
/-- HUB.BORTIK.LINKl.RSC.SHARE (R377). -/
def BORTIK_LINK_RSC_SHARE (l : Nat) : Key := ⟨0x1A10008 + l * 0x100, 53, 4, 0⟩
/-- HUB.BORTIK.LINKl.RSC.FENCE (R377). -/
def BORTIK_LINK_RSC_FENCE (l : Nat) : Key := ⟨0x1A10008 + l * 0x100, 46, 2, 0⟩
/-- HUB.BORTIK.LINKl.RSC.RLAT (R377). -/
def BORTIK_LINK_RSC_RLAT (l : Nat) : Key := ⟨0x1A10008 + l * 0x100, 40, 5, 4⟩
/-- HUB.BORTIK.LINKl.RSC.PDOM (R377). -/
def BORTIK_LINK_RSC_PDOM (l : Nat) : Key := ⟨0x1A10008 + l * 0x100, 32, 6, 0⟩
/-- HUB.BORTIK.LINKl.RSC.W (R377). -/
def BORTIK_LINK_RSC_W (l : Nat) : Key := ⟨0x1A10008 + l * 0x100, 16, 13, 0⟩
/-- HUB.BORTIK.LINKl.RSC.RXNET (R377). -/
def BORTIK_LINK_RSC_RXNET (l : Nat) : Key := ⟨0x1A10008 + l * 0x100, 8, 6, 0⟩
/-- HUB.BORTIK.LINKl.RSC.TXNET (R377). -/
def BORTIK_LINK_RSC_TXNET (l : Nat) : Key := ⟨0x1A10008 + l * 0x100, 0, 6, 0⟩
/-- HUB.BORTIK.LINKl.STAT.DOWNCAUSE (R377). -/
def BORTIK_LINK_STAT_DOWNCAUSE (l : Nat) : Key := ⟨0x1A10010 + l * 0x100, 56, 8, 0⟩
/-- HUB.BORTIK.LINKl.STAT.STATE (R377). -/
def BORTIK_LINK_STAT_STATE (l : Nat) : Key := ⟨0x1A10010 + l * 0x100, 48, 4, 0⟩
/-- HUB.BORTIK.LINKl.STAT.STEP (R377). -/
def BORTIK_LINK_STAT_STEP (l : Nat) : Key := ⟨0x1A10010 + l * 0x100, 45, 3, 0⟩
/-- HUB.BORTIK.LINKl.STAT.RESUMED (R377). -/
def BORTIK_LINK_STAT_RESUMED (l : Nat) : Key := ⟨0x1A10010 + l * 0x100, 44, 1, 0⟩
/-- HUB.BORTIK.LINKl.STAT.EPOCH (R377). -/
def BORTIK_LINK_STAT_EPOCH (l : Nat) : Key := ⟨0x1A10010 + l * 0x100, 0, 32, 0⟩
/-- HUB.BORTIK.LINKl.RSCSTAT.DELTA (R377). -/
def BORTIK_LINK_RSCSTAT_DELTA (l : Nat) : Key := ⟨0x1A10018 + l * 0x100, 16, 48, 0⟩
/-- HUB.BORTIK.LINKl.RSCSTAT.KMIN (R377). -/
def BORTIK_LINK_RSCSTAT_KMIN (l : Nat) : Key := ⟨0x1A10018 + l * 0x100, 4, 12, 0⟩
/-- HUB.BORTIK.LINKl.RSCSTAT.SLIP (R377). -/
def BORTIK_LINK_RSCSTAT_SLIP (l : Nat) : Key := ⟨0x1A10018 + l * 0x100, 3, 1, 0⟩
/-- HUB.BORTIK.LINKl.RSCSTAT.LOSSY (R377). -/
def BORTIK_LINK_RSCSTAT_LOSSY (l : Nat) : Key := ⟨0x1A10018 + l * 0x100, 2, 1, 0⟩
/-- HUB.BORTIK.LINKl.RSCSTAT.NOTSYNC (R377). -/
def BORTIK_LINK_RSCSTAT_NOTSYNC (l : Nat) : Key := ⟨0x1A10018 + l * 0x100, 1, 1, 0⟩
/-- HUB.BORTIK.LINKl.RSCSTAT.ALIGNED (R377). -/
def BORTIK_LINK_RSCSTAT_ALIGNED (l : Nat) : Key := ⟨0x1A10018 + l * 0x100, 0, 1, 0⟩
/-- HUB.BORTIK.LINKl.CNT.AUTHFAIL (R377). -/
def BORTIK_LINK_CNT_AUTHFAIL (l : Nat) : Key := ⟨0x1A10020 + l * 0x100, 48, 16, 0⟩
/-- HUB.BORTIK.LINKl.CNT.REPLAY (R377). -/
def BORTIK_LINK_CNT_REPLAY (l : Nat) : Key := ⟨0x1A10020 + l * 0x100, 32, 16, 0⟩
/-- HUB.BORTIK.LINKl.CNT.UNCORR (R377). -/
def BORTIK_LINK_CNT_UNCORR (l : Nat) : Key := ⟨0x1A10020 + l * 0x100, 16, 16, 0⟩
/-- HUB.BORTIK.LINKl.CNT.DOWNS (R377). -/
def BORTIK_LINK_CNT_DOWNS (l : Nat) : Key := ⟨0x1A10020 + l * 0x100, 0, 16, 0⟩
/-- HUB.BORTIK.GAZe.SERIAL.SERIAL (R377). -/
def BORTIK_GAZ_SERIAL_SERIAL (e : Nat) : Key := ⟨0x1A20000 + e * 0x40, 0, 64, 0⟩
/-- HUB.BORTIK.GAZe.INFO.VALID (R377). -/
def BORTIK_GAZ_INFO_VALID (e : Nat) : Key := ⟨0x1A20008 + e * 0x40, 63, 1, 0⟩
/-- HUB.BORTIK.GAZe.INFO.UNAUTH (R377). -/
def BORTIK_GAZ_INFO_UNAUTH (e : Nat) : Key := ⟨0x1A20008 + e * 0x40, 62, 1, 0⟩
/-- HUB.BORTIK.GAZe.INFO.DEVREADY (R377). -/
def BORTIK_GAZ_INFO_DEVREADY (e : Nat) : Key := ⟨0x1A20008 + e * 0x40, 61, 1, 0⟩
/-- HUB.BORTIK.GAZe.INFO.PORT (R377). -/
def BORTIK_GAZ_INFO_PORT (e : Nat) : Key := ⟨0x1A20008 + e * 0x40, 48, 8, 0⟩
/-- HUB.BORTIK.GAZe.INFO.CAPS (R377). -/
def BORTIK_GAZ_INFO_CAPS (e : Nat) : Key := ⟨0x1A20008 + e * 0x40, 32, 16, 0⟩
/-- HUB.BORTIK.GAZe.INFO.IMAGEID (R377). -/
def BORTIK_GAZ_INFO_IMAGEID (e : Nat) : Key := ⟨0x1A20008 + e * 0x40, 0, 32, 0⟩
/-- HUB.BORTIK.GAZe.DIGw.DIG (R377). -/
def BORTIK_GAZ_DIG_DIG (e : Nat) (w : Nat) : Key := ⟨0x1A20010 + e * 0x40 + w * 0x8, 0, 64, 0⟩
/-- HUB.BORTIK.GAZe.SEEN.TIME (R377). -/
def BORTIK_GAZ_SEEN_TIME (e : Nat) : Key := ⟨0x1A20030 + e * 0x40, 0, 64, 0⟩
/-- HUB.DDR.MAP.CHANS (R400). -/
def DDR_MAP_CHANS : Key := ⟨0x1300000, 0, 2, 0⟩
/-- HUB.DDR.CHMASKj.MASK (R400). -/
def DDR_CHMASK_MASK (j : Nat) : Key := ⟨0x1300008 + j * 0x8, 0, 40, (0x00100100 * 2 ^ j)⟩
/-- HUB.DDR.Cn.CTL.AUDIT (R400). -/
def DDR_C_CTL_AUDIT (n : Nat) : Key := ⟨0x1200000 + n * 0x40000, 16, 8, 10⟩
/-- HUB.DDR.Cn.CTL.X2 (R400). -/
def DDR_C_CTL_X2 (n : Nat) : Key := ⟨0x1200000 + n * 0x40000, 2, 1, 0⟩
/-- HUB.DDR.Cn.CTL.REFMODE (R400). -/
def DDR_C_CTL_REFMODE (n : Nat) : Key := ⟨0x1200000 + n * 0x40000, 1, 1, 1⟩
/-- HUB.DDR.Cn.CTL.EN (R400). -/
def DDR_C_CTL_EN (n : Nat) : Key := ⟨0x1200000 + n * 0x40000, 0, 1, 0⟩
/-- HUB.DDR.Cn.GEOM.X8 (R400). -/
def DDR_C_GEOM_X8 (n : Nat) : Key := ⟨0x1200008 + n * 0x40000, 19, 1, 0⟩
/-- HUB.DDR.Cn.GEOM.RANKBITS (R400). -/
def DDR_C_GEOM_RANKBITS (n : Nat) : Key := ⟨0x1200008 + n * 0x40000, 17, 2, 1⟩
/-- HUB.DDR.Cn.GEOM.BABITS (R400). -/
def DDR_C_GEOM_BABITS (n : Nat) : Key := ⟨0x1200008 + n * 0x40000, 15, 2, 2⟩
/-- HUB.DDR.Cn.GEOM.BGBITS (R400). -/
def DDR_C_GEOM_BGBITS (n : Nat) : Key := ⟨0x1200008 + n * 0x40000, 13, 2, 2⟩
/-- HUB.DDR.Cn.GEOM.ROWBITS (R400). -/
def DDR_C_GEOM_ROWBITS (n : Nat) : Key := ⟨0x1200008 + n * 0x40000, 8, 5, 16⟩
/-- HUB.DDR.Cn.GEOM.COLBITS (R400). -/
def DDR_C_GEOM_COLBITS (n : Nat) : Key := ⟨0x1200008 + n * 0x40000, 0, 4, 7⟩
/-- HUB.DDR.Cn.TIM0.TRC (R400). -/
def DDR_C_TIM0_TRC (n : Nat) : Key := ⟨0x1200010 + n * 0x40000, 30, 10, 0x04A⟩
/-- HUB.DDR.Cn.TIM0.TRAS (R400). -/
def DDR_C_TIM0_TRAS (n : Nat) : Key := ⟨0x1200010 + n * 0x40000, 20, 10, 0x034⟩
/-- HUB.DDR.Cn.TIM0.TRP (R400). -/
def DDR_C_TIM0_TRP (n : Nat) : Key := ⟨0x1200010 + n * 0x40000, 10, 10, 0x016⟩
/-- HUB.DDR.Cn.TIM0.TRCD (R400). -/
def DDR_C_TIM0_TRCD (n : Nat) : Key := ⟨0x1200010 + n * 0x40000, 0, 10, 0x016⟩
/-- HUB.DDR.Cn.TIM1.TRFCSB (R400). -/
def DDR_C_TIM1_TRFCSB (n : Nat) : Key := ⟨0x1200018 + n * 0x40000, 32, 16, 0⟩
/-- HUB.DDR.Cn.TIM1.TRFC (R400). -/
def DDR_C_TIM1_TRFC (n : Nat) : Key := ⟨0x1200018 + n * 0x40000, 16, 16, 0x0370⟩
/-- HUB.DDR.Cn.TIM1.TREFI (R400). -/
def DDR_C_TIM1_TREFI (n : Nat) : Key := ⟨0x1200018 + n * 0x40000, 0, 16, 12480⟩
/-- HUB.DDR.Cn.REF.IDLE (R400). -/
def DDR_C_REF_IDLE (n : Nat) : Key := ⟨0x1200020 + n * 0x40000, 16, 16, 200⟩
/-- HUB.DDR.Cn.REF.GUARD (R400). -/
def DDR_C_REF_GUARD (n : Nat) : Key := ⟨0x1200020 + n * 0x40000, 0, 16, 500⟩
/-- HUB.DDR.Cn.RH.RFM (R400). -/
def DDR_C_RH_RFM (n : Nat) : Key := ⟨0x1200028 + n * 0x40000, 16, 1, 0⟩
/-- HUB.DDR.Cn.RH.THRESH (R400). -/
def DDR_C_RH_THRESH (n : Nat) : Key := ⟨0x1200028 + n * 0x40000, 0, 16, 4096⟩
/-- HUB.DDR.Cn.MASKi.MASK (R400). -/
def DDR_C_MASK_MASK (n : Nat) (i : Nat) : Key := ⟨0x1200040 + n * 0x40000 + i * 0x8, 0, 40, (0x0000400040 * 2 ^ i)⟩
/-- HUB.DDR.Cn.CMD.RETRAIN (R400). -/
def DDR_C_CMD_RETRAIN (n : Nat) : Key := ⟨0x1200080 + n * 0x40000, 0, 1, 0⟩
/-- HUB.DDR.Cn.STAT.TRAINLANE (R400). -/
def DDR_C_STAT_TRAINLANE (n : Nat) : Key := ⟨0x1200100 + n * 0x40000, 16, 4, 0⟩
/-- HUB.DDR.Cn.STAT.OWED (R400). -/
def DDR_C_STAT_OWED (n : Nat) : Key := ⟨0x1200100 + n * 0x40000, 12, 4, 0⟩
/-- HUB.DDR.Cn.STAT.DOUBLED (R400). -/
def DDR_C_STAT_DOUBLED (n : Nat) : Key := ⟨0x1200100 + n * 0x40000, 11, 1, 0⟩
/-- HUB.DDR.Cn.STAT.STATE (R400). -/
def DDR_C_STAT_STATE (n : Nat) : Key := ⟨0x1200100 + n * 0x40000, 0, 3, 0⟩
/-- HUB.DDR.Cn.CNT.RHACT (R400). -/
def DDR_C_CNT_RHACT (n : Nat) : Key := ⟨0x1200108 + n * 0x40000, 32, 32, 0⟩
/-- HUB.DDR.Cn.CNT.FALLBACK (R400). -/
def DDR_C_CNT_FALLBACK (n : Nat) : Key := ⟨0x1200108 + n * 0x40000, 0, 32, 0⟩
/-- HUB.DDR.Cn.ECC.UNCORR (R400). -/
def DDR_C_ECC_UNCORR (n : Nat) : Key := ⟨0x1200110 + n * 0x40000, 32, 32, 0⟩
/-- HUB.DDR.Cn.ECC.CORR (R400). -/
def DDR_C_ECC_CORR (n : Nat) : Key := ⟨0x1200110 + n * 0x40000, 0, 32, 0⟩
/-- HUB.DDR.Cn.MARGIN.MIN (R400). -/
def DDR_C_MARGIN_MIN (n : Nat) : Key := ⟨0x1200118 + n * 0x40000, 40, 6, 12⟩
/-- HUB.DDR.Cn.MARGIN.LANE (R400). -/
def DDR_C_MARGIN_LANE (n : Nat) : Key := ⟨0x1200118 + n * 0x40000, 36, 4, 0⟩
/-- HUB.DDR.Cn.MARGIN.RANK (R400). -/
def DDR_C_MARGIN_RANK (n : Nat) : Key := ⟨0x1200118 + n * 0x40000, 34, 2, 0⟩
/-- HUB.DDR.Cn.MARGIN.WR (R400). -/
def DDR_C_MARGIN_WR (n : Nat) : Key := ⟨0x1200118 + n * 0x40000, 8, 6, 0⟩
/-- HUB.DDR.Cn.MARGIN.RD (R400). -/
def DDR_C_MARGIN_RD (n : Nat) : Key := ⟨0x1200118 + n * 0x40000, 0, 6, 0⟩
/-- HUB.CIPH.CTL.PACE (R416). -/
def CIPH_CTL_PACE : Key := ⟨0x1100000, 8, 8, 4⟩
/-- HUB.CIPH.STAT.INSTALL (R416). -/
def CIPH_STAT_INSTALL : Key := ⟨0x1100008, 16, 16, 0⟩
/-- HUB.CIPH.STAT.REKEY (R416). -/
def CIPH_STAT_REKEY : Key := ⟨0x1100008, 0, 16, 0⟩
/-- HUB.CIPH.CNT.PAGEREENC (R416). -/
def CIPH_CNT_PAGEREENC : Key := ⟨0x1100010, 48, 16, 0⟩
/-- HUB.CIPH.CNT.CTRFIX (R416). -/
def CIPH_CNT_CTRFIX : Key := ⟨0x1100010, 32, 16, 0⟩
/-- HUB.CIPH.CNT.MISMATCH (R416). -/
def CIPH_CNT_MISMATCH : Key := ⟨0x1100010, 16, 16, 0⟩
/-- HUB.CIPH.CNT.CTRPOISON (R416). -/
def CIPH_CNT_CTRPOISON : Key := ⟨0x1100010, 0, 16, 0⟩
/-- HUB.CIPH.CMD.PAGE (R416). -/
def CIPH_CMD_PAGE : Key := ⟨0x1100018, 12, 27, 0⟩
/-- HUB.CIPH.CMD.CLR (R416). -/
def CIPH_CMD_CLR : Key := ⟨0x1100018, 0, 1, 0⟩
/-- HUB.CIPH.Rr.BASE.BASE (R416). -/
def CIPH_R_BASE_BASE (r : Nat) : Key := ⟨0x1100100 + r * 0x20, 12, 27, 0⟩
/-- HUB.CIPH.Rr.BASE.KEEPCTR (R416). -/
def CIPH_R_BASE_KEEPCTR (r : Nat) : Key := ⟨0x1100100 + r * 0x20, 1, 1, 0⟩
/-- HUB.CIPH.Rr.BASE.EN (R416). -/
def CIPH_R_BASE_EN (r : Nat) : Key := ⟨0x1100100 + r * 0x20, 0, 1, 0⟩
/-- HUB.CIPH.Rr.LIMIT.LIMIT (R416). -/
def CIPH_R_LIMIT_LIMIT (r : Nat) : Key := ⟨0x1100108 + r * 0x20, 12, 27, 0⟩
/-- HUB.CIPH.Rr.CTR.CTR (R416). -/
def CIPH_R_CTR_CTR (r : Nat) : Key := ⟨0x1100110 + r * 0x20, 12, 27, 0⟩
/-- HUB.CIPH.Rr.MER.REKEY (R416). -/
def CIPH_R_MER_REKEY (r : Nat) : Key := ⟨0x1100118 + r * 0x20, 63, 1, 0⟩
/-- HUB.CIPH.Rr.MER.CUT (R416). -/
def CIPH_R_MER_CUT (r : Nat) : Key := ⟨0x1100118 + r * 0x20, 62, 1, 0⟩
/-- HUB.CIPH.Rr.MER.KEYED (R416). -/
def CIPH_R_MER_KEYED (r : Nat) : Key := ⟨0x1100118 + r * 0x20, 61, 1, 0⟩
/-- HUB.CIPH.Rr.MER.PEND (R416). -/
def CIPH_R_MER_PEND (r : Nat) : Key := ⟨0x1100118 + r * 0x20, 60, 1, 0⟩
/-- HUB.CIPH.Rr.MER.MERIDIAN (R416). -/
def CIPH_R_MER_MERIDIAN (r : Nat) : Key := ⟨0x1100118 + r * 0x20, 12, 27, 0⟩
/-- HUB.ERR.FILL.DONE (R431). -/
def ERR_FILL_DONE : Key := ⟨0x1000000, 0, 1, 0⟩
/-- HUB.ERR.LOGHEAD.TOTAL (R431). -/
def ERR_LOGHEAD_TOTAL : Key := ⟨0x1000008, 32, 32, 0⟩
/-- HUB.ERR.LOGHEAD.NEXT (R431). -/
def ERR_LOGHEAD_NEXT : Key := ⟨0x1000008, 0, 8, 0⟩
/-- HUB.ERR.POSTMASK.MASK (R431). -/
def ERR_POSTMASK_MASK : Key := ⟨0x1000010, 1, 22, 4194303⟩
/-- HUB.ERR.TEST.CORE (R431). -/
def ERR_TEST_CORE : Key := ⟨0x1000018, 18, 6, 0⟩
/-- HUB.ERR.TEST.MEM (R431). -/
def ERR_TEST_MEM : Key := ⟨0x1000018, 12, 4, 0⟩
/-- HUB.ERR.TEST.ONESHOT (R431). -/
def ERR_TEST_ONESHOT : Key := ⟨0x1000018, 9, 1, 0⟩
/-- HUB.ERR.TEST.EN (R431). -/
def ERR_TEST_EN : Key := ⟨0x1000018, 8, 1, 0⟩
/-- HUB.ERR.TEST.CHK (R431). -/
def ERR_TEST_CHK : Key := ⟨0x1000018, 0, 5, 0⟩
/-- HUB.ERR.CNTm.UNCORR (R431). -/
def ERR_CNT_UNCORR (m : Nat) : Key := ⟨0x1000100 + m * 0x8, 32, 32, 0⟩
/-- HUB.ERR.CNTm.CORR (R431). -/
def ERR_CNT_CORR (m : Nat) : Key := ⟨0x1000100 + m * 0x8, 0, 32, 0⟩
/-- HUB.ERR.LOGe.Ww.WORD (R431). -/
def ERR_LOG_W_WORD (e : Nat) (w : Nat) : Key := ⟨0x1001000 + e * 0x20 + w * 0x8, 0, 64, 0⟩
/-- HUB.RST.CAUSE.LASTREACH (R453). -/
def RST_CAUSE_LASTREACH : Key := ⟨0x100000, 16, 2, 0⟩
/-- HUB.RST.CAUSE.OPT (R453). -/
def RST_CAUSE_OPT : Key := ⟨0x100000, 9, 1, 0⟩
/-- HUB.RST.CAUSE.ADIT (R453). -/
def RST_CAUSE_ADIT : Key := ⟨0x100000, 8, 1, 0⟩
/-- HUB.RST.CAUSE.THERM (R453). -/
def RST_CAUSE_THERM : Key := ⟨0x100000, 7, 1, 0⟩
/-- HUB.RST.CAUSE.CRIT (R453). -/
def RST_CAUSE_CRIT : Key := ⟨0x100000, 6, 1, 0⟩
/-- HUB.RST.CAUSE.CANARY (R453). -/
def RST_CAUSE_CANARY : Key := ⟨0x100000, 5, 1, 0⟩
/-- HUB.RST.CAUSE.WARM (R453). -/
def RST_CAUSE_WARM : Key := ⟨0x100000, 4, 1, 0⟩
/-- HUB.RST.CAUSE.HOT (R453). -/
def RST_CAUSE_HOT : Key := ⟨0x100000, 3, 1, 0⟩
/-- HUB.RST.CAUSE.PERST (R453). -/
def RST_CAUSE_PERST : Key := ⟨0x100000, 2, 1, 0⟩
/-- HUB.RST.CAUSE.PIN (R453). -/
def RST_CAUSE_PIN : Key := ⟨0x100000, 1, 1, 0⟩
/-- HUB.RST.CAUSE.POR (R453). -/
def RST_CAUSE_POR : Key := ⟨0x100000, 0, 1, 0⟩
/-- HUB.RST.DIE.COUNTn (R453). -/
def RST_DIE_COUNT (n : Nat) : Key := ⟨0x100008, 8 * n + 4, 4, 0⟩
/-- HUB.RST.DIE.SRCn (R453). -/
def RST_DIE_SRC (n : Nat) : Key := ⟨0x100008, 8 * n + 1, 3, 0⟩
/-- HUB.RST.DIE.INRESETn (R453). -/
def RST_DIE_INRESET (n : Nat) : Key := ⟨0x100008, 8 * n + 0, 1, 0⟩
/-- HUB.RST.OPTSTAT.SEQ (R453). -/
def RST_OPTSTAT_SEQ : Key := ⟨0x100010, 32, 32, 0⟩
/-- HUB.RST.OPTSTAT.COPY (R453). -/
def RST_OPTSTAT_COPY : Key := ⟨0x100010, 30, 2, 0⟩
/-- HUB.RST.OPTSTAT.DEFAULTS (R453). -/
def RST_OPTSTAT_DEFAULTS : Key := ⟨0x100010, 29, 1, 0⟩
/-- HUB.RST.OPTSTAT.BADA (R453). -/
def RST_OPTSTAT_BADA : Key := ⟨0x100010, 28, 1, 0⟩
/-- HUB.RST.OPTSTAT.BADB (R453). -/
def RST_OPTSTAT_BADB : Key := ⟨0x100010, 27, 1, 0⟩
/-- HUB.RST.OPTSTAT.ROA (R453). -/
def RST_OPTSTAT_ROA : Key := ⟨0x100010, 26, 1, 0⟩
/-- HUB.RST.OPTSTAT.ROB (R453). -/
def RST_OPTSTAT_ROB : Key := ⟨0x100010, 25, 1, 0⟩
/-- HUB.RST.OPTSTAT.FAILS (R453). -/
def RST_OPTSTAT_FAILS : Key := ⟨0x100010, 21, 4, 0⟩
/-- HUB.RST.OPTWEAR.WRCNTB (R453). -/
def RST_OPTWEAR_WRCNTB : Key := ⟨0x100018, 32, 14, 0⟩
/-- HUB.RST.OPTWEAR.WRCNTA (R453). -/
def RST_OPTWEAR_WRCNTA : Key := ⟨0x100018, 0, 14, 0⟩
/-- HUB.RST.OPTw.BYTES (R453). -/
def RST_OPT_BYTES (w : Nat) : Key := ⟨0x100100 + w * 0x8, 0, 64, 0⟩
/-- HUB.RST.PINMAPw.CODES (R453). -/
def RST_PINMAP_CODES (w : Nat) : Key := ⟨0x100200 + w * 0x8, 0, 64, 0⟩
/-- HUB.PWR.CTL.THROTTLE (R466). -/
def PWR_CTL_THROTTLE : Key := ⟨0x300000, 24, 8, 100⟩
/-- HUB.PWR.CTL.WARN (R466). -/
def PWR_CTL_WARN : Key := ⟨0x300000, 16, 8, 95⟩
/-- HUB.PWR.CTL.UNDERLAY (R466). -/
def PWR_CTL_UNDERLAY : Key := ⟨0x300000, 5, 1, 1⟩
/-- HUB.PWR.CTL.MANAGED (R466). -/
def PWR_CTL_MANAGED : Key := ⟨0x300000, 4, 1, 1⟩
/-- HUB.PWR.CTL.MAXSTATE (R466). -/
def PWR_CTL_MAXSTATE : Key := ⟨0x300000, 0, 2, 3⟩
/-- HUB.PWR.PAUSE.PAUSE (R466). -/
def PWR_PAUSE_PAUSE : Key := ⟨0x300008, 0, 1, 0⟩
/-- HUB.PWR.TOLk.NS (R466). -/
def PWR_TOL_NS (k : Nat) : Key := ⟨0x300010 + k * 0x8, 0, 32, (if k = 0 then 0 else 0xFFFFFFFF)⟩
/-- HUB.PWR.STAT.THALT (R466). -/
def PWR_STAT_THALT : Key := ⟨0x300028, 8, 4, 0⟩
/-- HUB.PWR.STAT.RETSKIP (R466). -/
def PWR_STAT_RETSKIP : Key := ⟨0x300028, 7, 1, 0⟩
/-- HUB.PWR.STAT.AWAKE (R466). -/
def PWR_STAT_AWAKE : Key := ⟨0x300028, 5, 2, 0⟩
/-- HUB.PWR.STAT.TARGET (R466). -/
def PWR_STAT_TARGET : Key := ⟨0x300028, 2, 2, 0⟩
/-- HUB.PWR.STAT.STATE (R466). -/
def PWR_STAT_STATE : Key := ⟨0x300028, 0, 2, 0⟩
/-- HUB.PWR.THRNETSn.NETS (R466). -/
def PWR_THRNETS_NETS (n : Nat) : Key := ⟨0x300040 + n * 0x8, 0, 64, 0⟩
/-- HUB.PWR.TRIP.VALID (R466). -/
def PWR_TRIP_VALID : Key := ⟨0x300080, 63, 1, 0⟩
/-- HUB.PWR.TRIP.DIE (R466). -/
def PWR_TRIP_DIE : Key := ⟨0x300080, 24, 4, 0⟩
/-- HUB.PWR.TRIP.SENSOR (R466). -/
def PWR_TRIP_SENSOR : Key := ⟨0x300080, 16, 8, 0⟩
/-- HUB.PWR.TRIP.TEMP (R466). -/
def PWR_TRIP_TEMP : Key := ⟨0x300080, 0, 16, 0⟩
/-- HUB.PWR.TEMPd.LEVEL (R466). -/
def PWR_TEMP_LEVEL (d : Nat) : Key := ⟨0x300100 + d * 0x8, 40, 2, 0⟩
/-- HUB.PWR.TEMPd.MAXIDX (R466). -/
def PWR_TEMP_MAXIDX (d : Nat) : Key := ⟨0x300100 + d * 0x8, 32, 8, 0⟩
/-- HUB.PWR.TEMPd.FAILED (R466). -/
def PWR_TEMP_FAILED (d : Nat) : Key := ⟨0x300100 + d * 0x8, 16, 7, 0⟩
/-- HUB.PWR.TEMPd.TEMP (R466). -/
def PWR_TEMP_TEMP (d : Nat) : Key := ⟨0x300100 + d * 0x8, 0, 16, 0⟩
/-- HUB.ADIT.SESSION.LOSTCAUSE (R485). -/
def ADIT_SESSION_LOSTCAUSE : Key := ⟨0x1C00000, 4, 2, 0⟩
/-- HUB.ADIT.SESSION.OWNER (R485). -/
def ADIT_SESSION_OWNER : Key := ⟨0x1C00000, 1, 2, 0⟩
/-- HUB.ADIT.SESSION.ATTACH (R485). -/
def ADIT_SESSION_ATTACH : Key := ⟨0x1C00000, 0, 1, 0⟩
/-- HUB.ADIT.STAT.NOTHALTED (R485). -/
def ADIT_STAT_NOTHALTED : Key := ⟨0x1C00008, 5, 1, 0⟩
/-- HUB.ADIT.STAT.REFUSED (R485). -/
def ADIT_STAT_REFUSED : Key := ⟨0x1C00008, 4, 1, 0⟩
/-- HUB.ADIT.STAT.BUSSTATUS (R485). -/
def ADIT_STAT_BUSSTATUS : Key := ⟨0x1C00008, 1, 3, 0⟩
/-- HUB.ADIT.STAT.BUSY (R485). -/
def ADIT_STAT_BUSY : Key := ⟨0x1C00008, 0, 1, 0⟩
/-- HUB.ADIT.BUSADDR.ADDR (R485). -/
def ADIT_BUSADDR_ADDR : Key := ⟨0x1C00010, 0, 64, 0⟩
/-- HUB.ADIT.BUSDATA.DATA (R485). -/
def ADIT_BUSDATA_DATA : Key := ⟨0x1C00018, 0, 64, 0⟩
/-- HUB.ADIT.BUSCMD.CORE (R485). -/
def ADIT_BUSCMD_CORE : Key := ⟨0x1C00020, 10, 6, 0⟩
/-- HUB.ADIT.BUSCMD.LOCAL (R485). -/
def ADIT_BUSCMD_LOCAL : Key := ⟨0x1C00020, 9, 1, 0⟩
/-- HUB.ADIT.BUSCMD.AUTOINC (R485). -/
def ADIT_BUSCMD_AUTOINC : Key := ⟨0x1C00020, 8, 1, 0⟩
/-- HUB.ADIT.BUSCMD.SIZE (R485). -/
def ADIT_BUSCMD_SIZE : Key := ⟨0x1C00020, 6, 2, 3⟩
/-- HUB.ADIT.BUSCMD.CANCEL (R485). -/
def ADIT_BUSCMD_CANCEL : Key := ⟨0x1C00020, 2, 1, 0⟩
/-- HUB.ADIT.BUSCMD.WRITE (R485). -/
def ADIT_BUSCMD_WRITE : Key := ⟨0x1C00020, 1, 1, 0⟩
/-- HUB.ADIT.BUSCMD.GO (R485). -/
def ADIT_BUSCMD_GO : Key := ⟨0x1C00020, 0, 1, 0⟩
/-- HUB.ADIT.WINBASE.BASE (R485). -/
def ADIT_WINBASE_BASE : Key := ⟨0x1C00028, 21, 43, 0⟩
/-- HUB.ADIT.RESET.DIE (R485). -/
def ADIT_RESET_DIE : Key := ⟨0x1C00030, 3, 2, 0⟩
/-- HUB.ADIT.RESET.REACH (R485). -/
def ADIT_RESET_REACH : Key := ⟨0x1C00030, 1, 2, 0⟩
/-- HUB.ADIT.RESET.GO (R485). -/
def ADIT_RESET_GO : Key := ⟨0x1C00030, 0, 1, 0⟩
/-- HUB.ADIT.BOOTHALT.EN (R485). -/
def ADIT_BOOTHALT_EN : Key := ⟨0x1C00038, 0, 1, 0⟩
/-- HUB.ADIT.HALT.REQ (R485). -/
def ADIT_HALT_REQ : Key := ⟨0x1C00040, 0, 64, 0⟩
/-- HUB.ADIT.RUN.CORES (R485). -/
def ADIT_RUN_CORES : Key := ⟨0x1C00048, 0, 64, 0⟩
/-- HUB.ADIT.HALTED.CORES (R485). -/
def ADIT_HALTED_CORES : Key := ⟨0x1C00050, 0, 64, 0⟩
/-- HUB.ADIT.LOCKBRK.CORES (R485). -/
def ADIT_LOCKBRK_CORES : Key := ⟨0x1C00058, 0, 64, 0⟩
/-- HUB.ADIT.STEP.GO (R485). -/
def ADIT_STEP_GO : Key := ⟨0x1C00060, 6, 1, 0⟩
/-- HUB.ADIT.STEP.CORE (R485). -/
def ADIT_STEP_CORE : Key := ⟨0x1C00060, 0, 6, 0⟩
/-- HUB.ADIT.CSEL.CORE (R485). -/
def ADIT_CSEL_CORE : Key := ⟨0x1C00068, 0, 6, 0⟩
/-- HUB.ADIT.BPCORES.CORES (R485). -/
def ADIT_BPCORES_CORES : Key := ⟨0x1C00080, 0, 64, 0⟩
/-- HUB.ADIT.BPk.ADDR (R485). -/
def ADIT_BP_ADDR (k : Nat) : Key := ⟨0x1C00088 + k * 0x8, 2, 62, 0⟩
/-- HUB.ADIT.BPk.EN (R485). -/
def ADIT_BP_EN (k : Nat) : Key := ⟨0x1C00088 + k * 0x8, 0, 1, 0⟩
/-- HUB.ADIT.GREGr.VALUE (R485). -/
def ADIT_GREG_VALUE (r : Nat) : Key := ⟨0x1C00100 + r * 0x8, 0, 64, 0⟩
/-- HUB.ADIT.PC.VALUE (R485). -/
def ADIT_PC_VALUE : Key := ⟨0x1C00200, 0, 64, 0⟩
/-- HUB.ADIT.COREc.DTX.FULL (R485). -/
def ADIT_CORE_DTX_FULL (c : Nat) : Key := ⟨0x1C01000 + c * 0x10, 63, 1, 0⟩
/-- HUB.ADIT.COREc.DTX.OVR (R485). -/
def ADIT_CORE_DTX_OVR (c : Nat) : Key := ⟨0x1C01000 + c * 0x10, 62, 1, 0⟩
/-- HUB.ADIT.COREc.DTX.DATA (R485). -/
def ADIT_CORE_DTX_DATA (c : Nat) : Key := ⟨0x1C01000 + c * 0x10, 0, 32, 0⟩
/-- HUB.ADIT.COREc.DRX.FULL (R485). -/
def ADIT_CORE_DRX_FULL (c : Nat) : Key := ⟨0x1C01008 + c * 0x10, 63, 1, 0⟩
/-- HUB.ADIT.COREc.DRX.DATA (R485). -/
def ADIT_CORE_DRX_DATA (c : Nat) : Key := ⟨0x1C01008 + c * 0x10, 0, 32, 0⟩
/-- HUB.RST.CANARY.CTL.FREEZE (R485). -/
def RST_CANARY_CTL_FREEZE : Key := ⟨0x100400, 16, 1, 1⟩
/-- HUB.RST.CANARY.CTL.PERIOD (R485). -/
def RST_CANARY_CTL_PERIOD : Key := ⟨0x100400, 0, 16, 1000⟩
/-- HUB.RST.CANARY.FEED.KEY (R485). -/
def RST_CANARY_FEED_KEY : Key := ⟨0x100408, 0, 8, 0⟩
/-- HUB.RST.CANARY.STAT.FROZEN (R485). -/
def RST_CANARY_STAT_FROZEN : Key := ⟨0x100410, 63, 1, 0⟩
/-- HUB.RST.CANARY.STAT.REMAIN (R485). -/
def RST_CANARY_STAT_REMAIN : Key := ⟨0x100410, 0, 32, 1000000⟩
/-- HUB.GUEST.CTL.VLIMIT (R497). -/
def GUEST_CTL_VLIMIT : Key := ⟨0x1E00000, 40, 24, 16⟩
/-- HUB.GUEST.CTL.TTRIP (R497). -/
def GUEST_CTL_TTRIP : Key := ⟨0x1E00000, 32, 8, 105⟩
/-- HUB.GUEST.CTL.TWARN (R497). -/
def GUEST_CTL_TWARN : Key := ⟨0x1E00000, 24, 8, 95⟩
/-- HUB.GUEST.CTL.MAXRATE (R497). -/
def GUEST_CTL_MAXRATE : Key := ⟨0x1E00000, 8, 3, 3⟩
/-- HUB.GUEST.CTL.TRIPRST (R497). -/
def GUEST_CTL_TRIPRST : Key := ⟨0x1E00000, 6, 1, 1⟩
/-- HUB.GUEST.CTL.WARMRST (R497). -/
def GUEST_CTL_WARMRST : Key := ⟨0x1E00000, 5, 1, 1⟩
/-- HUB.GUEST.CTL.QUAR (R497). -/
def GUEST_CTL_QUAR : Key := ⟨0x1E00000, 4, 1, 1⟩
/-- HUB.GUEST.CTL.FENCE (R497). -/
def GUEST_CTL_FENCE : Key := ⟨0x1E00000, 3, 1, 1⟩
/-- HUB.GUEST.CTL.GRST (R497). -/
def GUEST_CTL_GRST : Key := ⟨0x1E00000, 2, 1, 0⟩
/-- HUB.GUEST.CTL.EN (R497). -/
def GUEST_CTL_EN : Key := ⟨0x1E00000, 0, 1, 0⟩
/-- HUB.GUEST.CLR.UNFENCE (R497). -/
def GUEST_CLR_UNFENCE : Key := ⟨0x1E00008, 0, 1, 0⟩
/-- HUB.GUEST.STAT.WIDTH (R497). -/
def GUEST_STAT_WIDTH : Key := ⟨0x1E00010, 8, 5, 0⟩
/-- HUB.GUEST.STAT.RATE (R497). -/
def GUEST_STAT_RATE : Key := ⟨0x1E00010, 5, 3, 0⟩
/-- HUB.GUEST.STAT.VGOOD (R497). -/
def GUEST_STAT_VGOOD : Key := ⟨0x1E00010, 4, 1, 0⟩
/-- HUB.GUEST.STAT.TRIPHOLD (R497). -/
def GUEST_STAT_TRIPHOLD : Key := ⟨0x1E00010, 1, 1, 0⟩
/-- HUB.GUEST.STAT.UP (R497). -/
def GUEST_STAT_UP : Key := ⟨0x1E00010, 0, 1, 0⟩
/-- HUB.GUEST.LIMITS.QHI (R497). -/
def GUEST_LIMITS_QHI : Key := ⟨0x1E00018, 50, 14, 256⟩
/-- HUB.GUEST.LIMITS.QLO (R497). -/
def GUEST_LIMITS_QLO : Key := ⟨0x1E00018, 36, 14, 256⟩
/-- HUB.GUEST.LIMITS.BURST (R497). -/
def GUEST_LIMITS_BURST : Key := ⟨0x1E00018, 26, 10, 64⟩
/-- HUB.GUEST.LIMITS.RATE (R497). -/
def GUEST_LIMITS_RATE : Key := ⟨0x1E00018, 0, 9, 64⟩
/-- HUB.GUEST.VIOL.COUNT (R497). -/
def GUEST_VIOL_COUNT : Key := ⟨0x1E00020, 0, 32, 0⟩
/-- HUB.GUEST.TEMP.TEMP (R497). -/
def GUEST_TEMP_TEMP : Key := ⟨0x1E00028, 0, 16, 32767⟩
/-- HUB.GUEST.GWk.BASE.BASE (R497). -/
def GUEST_GW_BASE_BASE (k : Nat) : Key := ⟨0x1E00100 + k * 0x10, 4, 36, 0⟩
/-- HUB.GUEST.GWk.BASE.X (R497). -/
def GUEST_GW_BASE_X (k : Nat) : Key := ⟨0x1E00100 + k * 0x10, 3, 1, 0⟩
/-- HUB.GUEST.GWk.BASE.W (R497). -/
def GUEST_GW_BASE_W (k : Nat) : Key := ⟨0x1E00100 + k * 0x10, 2, 1, 0⟩
/-- HUB.GUEST.GWk.BASE.R (R497). -/
def GUEST_GW_BASE_R (k : Nat) : Key := ⟨0x1E00100 + k * 0x10, 1, 1, 0⟩
/-- HUB.GUEST.GWk.BASE.EN (R497). -/
def GUEST_GW_BASE_EN (k : Nat) : Key := ⟨0x1E00100 + k * 0x10, 0, 1, 0⟩
/-- HUB.GUEST.GWk.LIMIT.LIMIT (R497). -/
def GUEST_GW_LIMIT_LIMIT (k : Nat) : Key := ⟨0x1E00108 + k * 0x10, 4, 36, 0⟩
/-- HUB.GUEST.MBOX.TOGUESTw.WORD (R497). -/
def GUEST_MBOX_TOGUEST_WORD (w : Nat) : Key := ⟨0x1FA0000 + w * 0x8, 0, 64, 0⟩
/-- HUB.GUEST.MBOX.FROMGUESTw.WORD (R497). -/
def GUEST_MBOX_FROMGUEST_WORD (w : Nat) : Key := ⟨0x1FA0040 + w * 0x8, 0, 64, 0⟩
/-- HUB.GUEST.MBOX.CTL.FROMFULL (R497). -/
def GUEST_MBOX_CTL_FROMFULL : Key := ⟨0x1FA0080, 3, 1, 0⟩
/-- HUB.GUEST.MBOX.CTL.TOFULL (R497). -/
def GUEST_MBOX_CTL_TOFULL : Key := ⟨0x1FA0080, 2, 1, 0⟩
/-- HUB.GUEST.MBOX.CTL.FROMGO (R497). -/
def GUEST_MBOX_CTL_FROMGO : Key := ⟨0x1FA0080, 1, 1, 0⟩
/-- HUB.GUEST.MBOX.CTL.TOGO (R497). -/
def GUEST_MBOX_CTL_TOGO : Key := ⟨0x1FA0080, 0, 1, 0⟩
/-- DIE.Fn.IOBANKj.CFG.VREF (R513). -/
def IOBANK_CFG_VREF (n : Nat) (j : Nat) : Key := ⟨0x2500000 + n * 0x1000000 + j * 0x1000, 8, 6, 20⟩
/-- DIE.Fn.IOBANKj.CFG.VCCIO (R513). -/
def IOBANK_CFG_VCCIO (n : Nat) (j : Nat) : Key := ⟨0x2500000 + n * 0x1000000 + j * 0x1000, 0, 2, 3⟩
/-- DIE.Fn.IOBANKj.STAT.VGOOD (R513). -/
def IOBANK_STAT_VGOOD (n : Nat) (j : Nat) : Key := ⟨0x2500008 + n * 0x1000000 + j * 0x1000, 17, 1, 0⟩
/-- DIE.Fn.IOBANKj.STAT.VMISMATCH (R513). -/
def IOBANK_STAT_VMISMATCH (n : Nat) (j : Nat) : Key := ⟨0x2500008 + n * 0x1000000 + j * 0x1000, 16, 1, 0⟩
/-- DIE.Fn.IOBANKj.STAT.VMEAS (R513). -/
def IOBANK_STAT_VMEAS (n : Nat) (j : Nat) : Key := ⟨0x2500008 + n * 0x1000000 + j * 0x1000, 0, 12, 0⟩
/-- DIE.Fn.IOBANKj.PINi.DIFFTERM (R513). -/
def IOBANK_PIN_DIFFTERM (n : Nat) (j : Nat) (i : Nat) : Key := ⟨0x2500100 + n * 0x1000000 + j * 0x1000 + i * 0x8, 18, 1, 0⟩
/-- DIE.Fn.IOBANKj.PINi.PULL (R513). -/
def IOBANK_PIN_PULL (n : Nat) (j : Nat) (i : Nat) : Key := ⟨0x2500100 + n * 0x1000000 + j * 0x1000 + i * 0x8, 16, 2, 0⟩
/-- DIE.Fn.IOBANKj.PINi.ODT (R513). -/
def IOBANK_PIN_ODT (n : Nat) (j : Nat) (i : Nat) : Key := ⟨0x2500100 + n * 0x1000000 + j * 0x1000 + i * 0x8, 14, 2, 0⟩
/-- DIE.Fn.IOBANKj.PINi.SLEW (R513). -/
def IOBANK_PIN_SLEW (n : Nat) (j : Nat) (i : Nat) : Key := ⟨0x2500100 + n * 0x1000000 + j * 0x1000 + i * 0x8, 12, 1, 0⟩
/-- DIE.Fn.IOBANKj.PINi.DRIVE (R513). -/
def IOBANK_PIN_DRIVE (n : Nat) (j : Nat) (i : Nat) : Key := ⟨0x2500100 + n * 0x1000000 + j * 0x1000 + i * 0x8, 8, 3, 2⟩
/-- DIE.Fn.IOBANKj.PINi.STD (R513). -/
def IOBANK_PIN_STD (n : Nat) (j : Nat) (i : Nat) : Key := ⟨0x2500100 + n * 0x1000000 + j * 0x1000 + i * 0x8, 0, 5, 0⟩
/-- DIE.Fn.OUTPOST.FLBUFw.BYTES (R63). -/
def OUTPOST_FLBUF_BYTES (n : Nat) (w : Nat) : Key := ⟨0x2E00040 + n * 0x1000000 + w * 0x8, 0, 64, 0⟩
/-- DIE.Fn.OUTPOST.UARTu.DATA.DATA (R63). -/
def OUTPOST_UART_DATA_DATA (n : Nat) (u : Nat) : Key := ⟨0x2E00108 + n * 0x1000000 + u * 0x40, 0, 8, 0⟩
/-- DIE.Fn.OUTPOST.UARTu.STAT.OVR (R63; DESIGN CHOICE: the spec gives the field no bits). -/
def OUTPOST_UART_STAT_OVR (n : Nat) (u : Nat) : Key := ⟨0x2E00110 + n * 0x1000000 + u * 0x40, 26, 1, 0⟩
/-- DIE.Fn.OUTPOST.UARTu.STAT.PERR (R63; DESIGN CHOICE: the spec gives the field no bits). -/
def OUTPOST_UART_STAT_PERR (n : Nat) (u : Nat) : Key := ⟨0x2E00110 + n * 0x1000000 + u * 0x40, 25, 1, 0⟩
/-- DIE.Fn.OUTPOST.UARTu.STAT.FERR (R63; DESIGN CHOICE: the spec gives the field no bits). -/
def OUTPOST_UART_STAT_FERR (n : Nat) (u : Nat) : Key := ⟨0x2E00110 + n * 0x1000000 + u * 0x40, 24, 1, 0⟩
/-- DIE.Fn.OUTPOST.UARTu.STAT.RXLVL (R63; DESIGN CHOICE: the spec gives the field no bits). -/
def OUTPOST_UART_STAT_RXLVL (n : Nat) (u : Nat) : Key := ⟨0x2E00110 + n * 0x1000000 + u * 0x40, 8, 7, 0⟩
/-- DIE.Fn.OUTPOST.UARTu.STAT.TXLVL (R63; DESIGN CHOICE: the spec gives the field no bits). -/
def OUTPOST_UART_STAT_TXLVL (n : Nat) (u : Nat) : Key := ⟨0x2E00110 + n * 0x1000000 + u * 0x40, 0, 7, 0⟩
/-- DIE.Fn.OUTPOST.SPI.DATA.DATA (R63). -/
def OUTPOST_SPI_DATA_DATA (n : Nat) : Key := ⟨0x2E00208 + n * 0x1000000, 0, 8, 0⟩
/-- DIE.Fn.OUTPOST.I2C.CMD.DATA (R63; DESIGN CHOICE: the spec gives the field no bits). -/
def OUTPOST_I2C_CMD_DATA (n : Nat) : Key := ⟨0x2E00308 + n * 0x1000000, 0, 8, 0⟩
/-- DIE.Fn.OUTPOST.I2C.CMD.START (R63; DESIGN CHOICE: the spec gives the field no bits). -/
def OUTPOST_I2C_CMD_START (n : Nat) : Key := ⟨0x2E00308 + n * 0x1000000, 8, 1, 0⟩
/-- DIE.Fn.OUTPOST.I2C.CMD.STOP (R63; DESIGN CHOICE: the spec gives the field no bits). -/
def OUTPOST_I2C_CMD_STOP (n : Nat) : Key := ⟨0x2E00308 + n * 0x1000000, 9, 1, 0⟩
/-- DIE.Fn.OUTPOST.I2C.CMD.ACK (R63; DESIGN CHOICE: the spec gives the field no bits). -/
def OUTPOST_I2C_CMD_ACK (n : Nat) : Key := ⟨0x2E00308 + n * 0x1000000, 10, 1, 0⟩

end K
end Sys2Proof.Machine
end

