-- ==== Sys2Proof/Machine/CsrTable.lean ====
section
/-!
DEFINITION. The register map of R23 and the field tables of the manual: which register stands at a CSR address, and
the access code, the reset reach and the value check of each of its fields (R8, R10, R12, R300).
-/
namespace Sys2Proof.Machine

/-- The register tables of the manual, by name. -/
inductive RegId where
  | ID_IDENT | ID_CAP | ID_SERIAL | ID_JTAG | FPORT_CTL | FPORT_STAT
  | FPORT_DROP | OUTPOST_OWN | OUTPOST_FLCMD | OUTPOST_FLSTAT | OUTPOST_UART_CFG | OUTPOST_SPI_CFG
  | OUTPOST_I2C_CFG | SPINE_CSTAT | SPINE_CLOG | SPINE_COUNT | SPINE_OFF | CLK_STAT
  | CLK_XQUAL | CLK_GRIDTIME | CLK_SURVEY | CLK_PLL_REF | CLK_PLL_MUL | CLK_PLL_OUT
  | CLK_PLL_STAT | CLK_NET_SRC | CLK_NET_STAT | CLK_STAKE | CLK_STAKELATCH | SEAM_CTL
  | SEAM_STAT | SEAM_EYESEL | SEAM_EYE | SEAM_MAPLOG | SEAM_GRP_CFG | SEAM_GRP_STAT
  | SEAM_BIND_CFG | SEAM_BIND_STAT | PDOM_NETS | PDOM_STAT | STRATA_CTL | STRATA_STAT
  | STRATA_KEEP | STRATA_MISSED | STRATA_HTRIG | STRATA_PROF | STRATA_TRIG | STRATA_TPIN
  | CORE_ID | CORE_TVEC | CORE_EPC | CORE_CAUSE | CORE_TVAL | CORE_CYCLE
  | CORE_LOCKSTAT | SCHED_TICKETS | SCHED_MISS | SCHED_DLNEXT | SCHED_Q_CFG | SCHED_Q_BASE
  | SCHED_Q_AFF | SCHED_Q_PROG | SCHED_Q_BURN | SCHED_Q_PTR | SCHED_Q_STAT | SCHED_Q_DEST
  | CREW_CORE_ITEM | CREW_CORE_BURN | CREW_IDLE | CFG_LOAD | CFG_LOADERR | CFG_IMAGE
  | CFG_WORK | CFG_RELEASE | CFG_COMMIT | CFG_CLAMPHEAD | CFG_CLAMPLOG_ADDR | CFG_CLAMPLOG_FIELD
  | CFG_CLAMPLOG_WRITTEN | CFG_CLAMPLOG_APPLIED | FENCE_SEC | SCRUB_CTL | SCRUB_STAT | SCRUB_COUNT
  | SCRUB_UNCLOG | MASK_SEC_W | ASSAY_STAT | ASSAY_DIG | ASSAY_SECSEL | ASSAY_SECSTAT
  | ASSAY_SECDIG | CFG_ASSAYSTAT | CFG_ASSAYDEV | CFG_ASSAYHUB | CFG_ASSAYHUBEP | PCIE_CTL
  | PCIE_STAT | PCIE_ERRCNT | PCIE_DIESEL | PCIE_AP | PCIE_FUNC_MSIX | PCIE_FUNC_VWIN
  | PCIE_HRING | LANE_CFG | LANE_TEST | LANE_STAT | LANE_ERR | BORTIK_CTL
  | BORTIK_LINK_CFG | BORTIK_LINK_RSC | BORTIK_LINK_STAT | BORTIK_LINK_RSCSTAT | BORTIK_LINK_CNT | BORTIK_GAZ_SERIAL
  | BORTIK_GAZ_INFO | BORTIK_GAZ_DIG | BORTIK_GAZ_SEEN | DDR_MAP | DDR_CHMASK | DDR_C_CTL
  | DDR_C_GEOM | DDR_C_TIM0 | DDR_C_TIM1 | DDR_C_REF | DDR_C_RH | DDR_C_MASK
  | DDR_C_CMD | DDR_C_STAT | DDR_C_CNT | DDR_C_ECC | DDR_C_MARGIN | CIPH_CTL
  | CIPH_STAT | CIPH_CNT | CIPH_CMD | CIPH_R_BASE | CIPH_R_LIMIT | CIPH_R_CTR
  | CIPH_R_MER | ERR_FILL | ERR_LOGHEAD | ERR_POSTMASK | ERR_TEST | ERR_CNT
  | ERR_LOG_W | RST_CAUSE | RST_DIE | RST_OPTSTAT | RST_OPTWEAR | RST_OPT
  | RST_PINMAP | PWR_CTL | PWR_PAUSE | PWR_TOL | PWR_STAT | PWR_THRNETS
  | PWR_TRIP | PWR_TEMP | ADIT_SESSION | ADIT_STAT | ADIT_BUSADDR | ADIT_BUSDATA
  | ADIT_BUSCMD | ADIT_WINBASE | ADIT_RESET | ADIT_BOOTHALT | ADIT_HALT | ADIT_RUN
  | ADIT_HALTED | ADIT_LOCKBRK | ADIT_STEP | ADIT_CSEL | ADIT_BPCORES | ADIT_BP
  | ADIT_GREG | ADIT_PC | ADIT_CORE_DTX | ADIT_CORE_DRX | RST_CANARY_CTL | RST_CANARY_FEED
  | RST_CANARY_STAT | GUEST_CTL | GUEST_CLR | GUEST_STAT | GUEST_LIMITS | GUEST_VIOL
  | GUEST_TEMP | GUEST_GW_BASE | GUEST_GW_LIMIT | GUEST_MBOX_TOGUEST | GUEST_MBOX_FROMGUEST | GUEST_MBOX_CTL
  | IOBANK_CFG | IOBANK_STAT | IOBANK_PIN | OUTPOST_FLBUF | OUTPOST_UART_DATA | OUTPOST_UART_STAT
  | OUTPOST_SPI_DATA | OUTPOST_I2C_CMD | HSEAM_CTL | HSEAM_STAT | HSEAM_EYESEL | HSEAM_EYE
  | HSEAM_GRP_STAT
  deriving DecidableEq, Repr

/-- The access codes of R8. -/
inductive Access where
  | rw | ro | wo | w1c | w1s | rc | st
  deriving DecidableEq, Repr

/-- The reset reaches of R10. -/
inductive Reach where
  | C | W | D | none
  deriving DecidableEq, Repr

/-- How a value written to a field is checked (R12, R97, R300). -/
inductive Chk where
  | any
  /-- A value outside the limits is clamped to the nearest. -/
  | range (lo hi : Nat)
  /-- A value outside the listed ranges is a reserved code, replaced by repl. -/
  | code (ok : List (Nat × Nat)) (repl : Nat)
  /-- PLL REFSEL: 4 to 7 reserved; CASCADE on PLL 0 names an absent resource (R97). -/
  | refsel (i : Nat)
  deriving DecidableEq, Repr

/-- One field of a register. -/
structure Field where
  key : Key
  acc : Access
  reach : Reach
  chk : Chk
  deriving DecidableEq, Repr

/-- Where the registers of one table stand: a base and, per index letter, its stride and count. -/
structure RegRow where
  id : RegId
  base : Nat
  dims : List (Nat × Nat)
  deriving DecidableEq, Repr

/-- Clamp log reasons of the clamp log (RANGE, RESERVED, COUPLED, ABSENT, EXCLUSIVE). -/
inductive Reason where
  | range | reserved | coupled | absent | exclusive
  deriving DecidableEq, Repr

/-- The REASON code of HUB.CFG.CLAMPLOG. -/
def Reason.code : Reason → Nat
  | .range => 1 | .reserved => 2 | .coupled => 3 | .absent => 4 | .exclusive => 5

/-- The value a checked field takes in place of v, and why, where v is not allowed. -/
def Chk.apply : Chk → Nat → Option (Nat × Reason)
  | .any, _ => .none
  | .range lo hi, v => if v < lo then some (lo, .range) else if hi < v then some (hi, .range) else .none
  | .code ok repl, v => if ok.any (fun r => r.1 ≤ v && v ≤ r.2) then .none else some (repl, .reserved)
  | .refsel i, v => if 4 ≤ v then some (0, .reserved) else if v = 3 ∧ i = 0 then some (0, .absent) else .none

open K in
/-- The fields of the register of that name with those indexes, highest bits first. -/
def csrFields : RegId → List Nat → List Field
  | .ID_IDENT, [] =>
    [⟨ID_IDENT_IDENT, .ro, .C, .any⟩]
  | .ID_CAP, [] =>
    [⟨ID_CAP_DIES, .ro, .C, .any⟩,
     ⟨ID_CAP_SPEED, .ro, .C, .any⟩,
     ⟨ID_CAP_GUEST, .ro, .C, .any⟩]
  | .ID_SERIAL, [] =>
    [⟨ID_SERIAL_SERIAL, .ro, .C, .any⟩]
  | .ID_JTAG, [] =>
    [⟨ID_JTAG_IDCODE, .ro, .C, .any⟩]
  | .FPORT_CTL, [n, p] =>
    [⟨FPORT_CTL_STALL n p, .st, .D, .any⟩,
     ⟨FPORT_CTL_FUNC n p, .st, .D, .any⟩,
     ⟨FPORT_CTL_ALLOW n p, .st, .D, .any⟩,
     ⟨FPORT_CTL_HOSTSPACE n p, .st, .D, .any⟩,
     ⟨FPORT_CTL_EN n p, .st, .D, .any⟩]
  | .FPORT_STAT, [n, p] =>
    [⟨FPORT_STAT_OFFLINE n p, .ro, .D, .any⟩,
     ⟨FPORT_STAT_STALLED n p, .w1c, .D, .any⟩,
     ⟨FPORT_STAT_INB n p, .ro, .D, .any⟩,
     ⟨FPORT_STAT_OUTB n p, .ro, .D, .any⟩]
  | .FPORT_DROP, [n, p] =>
    [⟨FPORT_DROP_COUNT n p, .rc, .D, .any⟩]
  | .OUTPOST_OWN, [n] =>
    [⟨OUTPOST_OWN_I2C n, .rw, .D, .any⟩,
     ⟨OUTPOST_OWN_SPI n, .rw, .D, .any⟩,
     ⟨OUTPOST_OWN_UART1 n, .rw, .D, .any⟩,
     ⟨OUTPOST_OWN_UART0 n, .rw, .D, .any⟩,
     ⟨OUTPOST_OWN_FLASH n, .rw, .D, .any⟩]
  | .OUTPOST_FLCMD, [n] =>
    [⟨OUTPOST_FLCMD_LINE n, .rw, .D, .any⟩,
     ⟨OUTPOST_FLCMD_OP n, .wo, .D, .any⟩]
  | .OUTPOST_FLSTAT, [n] =>
    [⟨OUTPOST_FLSTAT_ECOUNT n, .ro, .none, .any⟩,
     ⟨OUTPOST_FLSTAT_STATUS n, .ro, .D, .any⟩,
     ⟨OUTPOST_FLSTAT_BUSY n, .ro, .D, .any⟩]
  | .OUTPOST_UART_CFG, [n, u] =>
    [⟨OUTPOST_UART_CFG_EN n u, .rw, .D, .any⟩,
     ⟨OUTPOST_UART_CFG_STOP2 n u, .rw, .D, .any⟩,
     ⟨OUTPOST_UART_CFG_PARITY n u, .rw, .D, .code [(0, 2)] 0⟩,
     ⟨OUTPOST_UART_CFG_DIV n u, .rw, .D, .code [(1, 0xFFFF)] 1⟩]
  | .OUTPOST_SPI_CFG, [n] =>
    [⟨OUTPOST_SPI_CFG_DIV n, .rw, .D, .code [(1, 0xFF)] 1⟩,
     ⟨OUTPOST_SPI_CFG_CS n, .rw, .D, .any⟩,
     ⟨OUTPOST_SPI_CFG_MSB n, .rw, .D, .any⟩,
     ⟨OUTPOST_SPI_CFG_MODE n, .rw, .D, .any⟩,
     ⟨OUTPOST_SPI_CFG_SLAVE n, .rw, .D, .any⟩,
     ⟨OUTPOST_SPI_CFG_EN n, .rw, .D, .any⟩]
  | .OUTPOST_I2C_CFG, [n] =>
    [⟨OUTPOST_I2C_CFG_ADDR n, .rw, .D, .any⟩,
     ⟨OUTPOST_I2C_CFG_SPEED n, .rw, .D, .code [(0, 2)] 0⟩,
     ⟨OUTPOST_I2C_CFG_TARGET n, .rw, .D, .any⟩,
     ⟨OUTPOST_I2C_CFG_STRETCH n, .rw, .D, .any⟩,
     ⟨OUTPOST_I2C_CFG_EN n, .rw, .D, .any⟩]
  | .SPINE_CSTAT, [n] =>
    [⟨SPINE_CSTAT_COL n, .w1c, .D, .any⟩]
  | .SPINE_CLOG, [n] =>
    [⟨SPINE_CLOG_DRV n, .ro, .D, .any⟩,
     ⟨SPINE_CLOG_SPINE n, .ro, .D, .any⟩,
     ⟨SPINE_CLOG_COL n, .ro, .D, .any⟩,
     ⟨SPINE_CLOG_OUTCOME n, .ro, .D, .any⟩,
     ⟨SPINE_CLOG_VALID n, .ro, .D, .any⟩]
  | .SPINE_COUNT, [n] =>
    [⟨SPINE_COUNT_COUNT n, .rc, .D, .any⟩]
  | .SPINE_OFF, [n, k] =>
    [⟨SPINE_OFF_OFF n k, .ro, .D, .any⟩]
  | .CLK_STAT, [] =>
    [⟨CLK_STAT_XLOST, .w1c, .C, .any⟩,
     ⟨CLK_STAT_HOLDOVER, .ro, .C, .any⟩,
     ⟨CLK_STAT_XABSENT, .ro, .C, .any⟩,
     ⟨CLK_STAT_SRC, .ro, .C, .any⟩,
     ⟨CLK_STAT_SLOCK, .ro, .C, .any⟩]
  | .CLK_XQUAL, [] =>
    [⟨CLK_XQUAL_WINDOWS, .ro, .C, .any⟩,
     ⟨CLK_XQUAL_RUN, .ro, .C, .any⟩,
     ⟨CLK_XQUAL_REFCNT, .ro, .C, .any⟩,
     ⟨CLK_XQUAL_LASTCNT, .ro, .C, .any⟩]
  | .CLK_GRIDTIME, [] =>
    [⟨CLK_GRIDTIME_TIME, .ro, .C, .any⟩]
  | .CLK_SURVEY, [] =>
    [⟨CLK_SURVEY_REFDIV, .ro, .C, .any⟩,
     ⟨CLK_SURVEY_MULT, .ro, .C, .any⟩]
  | .CLK_PLL_REF, [n, i] =>
    [⟨CLK_PLL_REF_REFPIN n i, .st, .D, .code [(0, 23)] 0⟩,
     ⟨CLK_PLL_REF_REFKHZ n i, .st, .D, .range 10000 800000⟩,
     ⟨CLK_PLL_REF_REFSEL n i, .st, .D, .refsel i⟩]
  | .CLK_PLL_MUL, [n, i] =>
    [⟨CLK_PLL_MUL_M n i, .st, .D, .range 4 320⟩,
     ⟨CLK_PLL_MUL_D n i, .st, .D, .range 1 64⟩]
  | .CLK_PLL_OUT, [n, i, k] =>
    [⟨CLK_PLL_OUT_PHASE n i k, .st, .D, .any⟩,
     ⟨CLK_PLL_OUT_EN n i k, .st, .D, .any⟩,
     ⟨CLK_PLL_OUT_O n i k, .st, .D, .range 1 128⟩]
  | .CLK_PLL_STAT, [n, i] =>
    [⟨CLK_PLL_STAT_GLOCK n i, .ro, .D, .any⟩,
     ⟨CLK_PLL_STAT_LOLS n i, .w1c, .D, .any⟩,
     ⟨CLK_PLL_STAT_LOCK n i, .ro, .D, .any⟩]
  | .CLK_NET_SRC, [n, m] =>
    [⟨CLK_NET_SRC_UENUSE n m, .st, .D, .any⟩,
     ⟨CLK_NET_SRC_SELSRC n m, .st, .D, .any⟩,
     ⟨CLK_NET_SRC_SEL n m, .rw, .D, .any⟩,
     ⟨CLK_NET_SRC_SRC1 n m, .st, .D, .code [(0, 0x6B)] 0⟩,
     ⟨CLK_NET_SRC_SRC0 n m, .st, .D, .code [(0, 0x6B)] 0⟩]
  | .CLK_NET_STAT, [n, m] =>
    [⟨CLK_NET_STAT_HALTED n m, .ro, .D, .any⟩,
     ⟨CLK_NET_STAT_NOSRC n m, .ro, .D, .any⟩,
     ⟨CLK_NET_STAT_DEADSRC n m, .w1c, .D, .any⟩,
     ⟨CLK_NET_STAT_SWITCHING n m, .ro, .D, .any⟩,
     ⟨CLK_NET_STAT_ACTIVE n m, .ro, .D, .any⟩]
  | .CLK_STAKE, [n, m] =>
    [⟨CLK_STAKE_COUNT n m, .ro, .D, .any⟩]
  | .CLK_STAKELATCH, [n] =>
    [⟨CLK_STAKELATCH_GO n, .wo, .D, .any⟩,
     ⟨CLK_STAKELATCH_HELD n, .w1c, .D, .any⟩,
     ⟨CLK_STAKELATCH_TIME n, .ro, .D, .any⟩]
  | .SEAM_CTL, [n] =>
    [⟨SEAM_CTL_PERSIST n, .st, .W, .range 1 255⟩,
     ⟨SEAM_CTL_EYEMIN n, .st, .W, .any⟩,
     ⟨SEAM_CTL_EYEWARN n, .st, .W, .any⟩,
     ⟨SEAM_CTL_EYESWAP n, .st, .W, .any⟩,
     ⟨SEAM_CTL_AUTORUN n, .st, .W, .any⟩,
     ⟨SEAM_CTL_EN n, .st, .W, .any⟩]
  | .SEAM_STAT, [n] =>
    [⟨SEAM_STAT_CRCERR n, .rc, .W, .any⟩,
     ⟨SEAM_STAT_RET1 n, .ro, .W, .any⟩,
     ⟨SEAM_STAT_RET0 n, .ro, .W, .any⟩,
     ⟨SEAM_STAT_PLAN n, .ro, .W, .any⟩,
     ⟨SEAM_STAT_NOHUB n, .ro, .W, .any⟩,
     ⟨SEAM_STAT_LOSSY n, .w1c, .W, .any⟩,
     ⟨SEAM_STAT_MISMATCH n, .w1c, .W, .any⟩,
     ⟨SEAM_STAT_STATE n, .ro, .W, .any⟩]
  | .SEAM_EYESEL, [n] =>
    [⟨SEAM_EYESEL_DIR n, .rw, .W, .any⟩,
     ⟨SEAM_EYESEL_GROUP n, .rw, .W, .any⟩,
     ⟨SEAM_EYESEL_LANE n, .rw, .W, .code [(0, 16)] 0⟩]
  | .SEAM_EYE, [n] =>
    [⟨SEAM_EYE_ERRS n, .rc, .W, .any⟩,
     ⟨SEAM_EYE_MINMARGIN n, .rc, .W, .any⟩,
     ⟨SEAM_EYE_MARGIN n, .ro, .W, .any⟩,
     ⟨SEAM_EYE_LOCK n, .ro, .W, .any⟩,
     ⟨SEAM_EYE_INUSE n, .ro, .W, .any⟩]
  | .SEAM_MAPLOG, [n, w] =>
    [⟨SEAM_MAPLOG_MAP n w, .ro, .W, .any⟩]
  | .SEAM_GRP_CFG, [n, d, g] =>
    [⟨SEAM_GRP_CFG_FENCE n d g, .st, .W, .code [(0, 2)] 0⟩,
     ⟨SEAM_GRP_CFG_BIND n d g, .st, .W, .any⟩,
     ⟨SEAM_GRP_CFG_MODE n d g, .st, .W, .code [(0, 7)] 0⟩]
  | .SEAM_GRP_STAT, [n, d, g] =>
    [⟨SEAM_GRP_STAT_PERR n d g, .rc, .W, .any⟩,
     ⟨SEAM_GRP_STAT_AMODE n d g, .ro, .W, .any⟩,
     ⟨SEAM_GRP_STAT_SPARELANE n d g, .ro, .W, .any⟩,
     ⟨SEAM_GRP_STAT_SPARE n d g, .ro, .W, .any⟩,
     ⟨SEAM_GRP_STAT_LOSSY n d g, .w1c, .W, .any⟩,
     ⟨SEAM_GRP_STAT_GSTATE n d g, .ro, .W, .any⟩]
  | .SEAM_BIND_CFG, [n, d, b] =>
    [⟨SEAM_BIND_CFG_PDOM n d b, .st, .W, .any⟩,
     ⟨SEAM_BIND_CFG_EN n d b, .st, .W, .any⟩,
     ⟨SEAM_BIND_CFG_RXNET n d b, .st, .W, .any⟩,
     ⟨SEAM_BIND_CFG_TXNET n d b, .st, .W, .any⟩]
  | .SEAM_BIND_STAT, [n, d, b] =>
    [⟨SEAM_BIND_STAT_DELTA n d b, .ro, .W, .any⟩,
     ⟨SEAM_BIND_STAT_K n d b, .ro, .W, .any⟩,
     ⟨SEAM_BIND_STAT_KRANGE n d b, .ro, .W, .any⟩,
     ⟨SEAM_BIND_STAT_KMISMATCH n d b, .ro, .W, .any⟩,
     ⟨SEAM_BIND_STAT_NOLOCK n d b, .ro, .W, .any⟩,
     ⟨SEAM_BIND_STAT_ALIGNED n d b, .ro, .W, .any⟩]
  | .PDOM_NETS, [n, d] =>
    [⟨PDOM_NETS_NETS n d, .st, .W, .any⟩]
  | .PDOM_STAT, [n, d] =>
    [⟨PDOM_STAT_KMIN n d, .ro, .W, .any⟩,
     ⟨PDOM_STAT_TOOFAST n d, .ro, .W, .any⟩,
     ⟨PDOM_STAT_HELD n d, .ro, .W, .any⟩]
  | .STRATA_CTL, [n] =>
    [⟨STRATA_CTL_CAPWAIT n, .st, .D, .range 1 255⟩,
     ⟨STRATA_CTL_HOSTWR n, .st, .D, .any⟩,
     ⟨STRATA_CTL_DEPTH n, .st, .C, .range 0 32⟩]
  | .STRATA_STAT, [n] =>
    [⟨STRATA_STAT_LASTCAPID n, .ro, .C, .any⟩,
     ⟨STRATA_STAT_BUSY n, .ro, .D, .any⟩,
     ⟨STRATA_STAT_OP n, .ro, .D, .any⟩,
     ⟨STRATA_STAT_LASTSLOT n, .ro, .C, .any⟩,
     ⟨STRATA_STAT_NEXT n, .ro, .C, .any⟩,
     ⟨STRATA_STAT_LAST n, .ro, .C, .any⟩]
  | .STRATA_KEEP, [n] =>
    [⟨STRATA_KEEP_KEEP n, .rw, .C, .any⟩]
  | .STRATA_MISSED, [n] =>
    [⟨STRATA_MISSED_COUNT n, .rc, .D, .any⟩]
  | .STRATA_HTRIG, [n] =>
    [⟨STRATA_HTRIG_DIES n, .wo, .D, .any⟩,
     ⟨STRATA_HTRIG_PROFILE n, .wo, .D, .any⟩,
     ⟨STRATA_HTRIG_GO n, .wo, .D, .any⟩]
  | .STRATA_PROF, [n, p] =>
    [⟨STRATA_PROF_NETS n p, .st, .D, .any⟩]
  | .STRATA_TRIG, [n, i] =>
    [⟨STRATA_TRIG_DIES n i, .st, .D, .any⟩,
     ⟨STRATA_TRIG_PROFILE n i, .st, .D, .any⟩,
     ⟨STRATA_TRIG_EN n i, .st, .D, .any⟩]
  | .STRATA_TPIN, [j] =>
    [⟨STRATA_TPIN_DIES j, .st, .W, .any⟩,
     ⟨STRATA_TPIN_PROFILE j, .st, .W, .any⟩,
     ⟨STRATA_TPIN_EN j, .st, .W, .any⟩]
  | .CORE_ID, [c] =>
    [⟨CORE_ID_FOREMAN c, .ro, .W, .any⟩,
     ⟨CORE_ID_CORE c, .ro, .W, .any⟩]
  | .CORE_TVEC, [c] =>
    [⟨CORE_TVEC_VEC c, .rw, .W, .any⟩]
  | .CORE_EPC, [c] =>
    [⟨CORE_EPC_EPC c, .rw, .W, .any⟩]
  | .CORE_CAUSE, [c] =>
    [⟨CORE_CAUSE_DOUBLE c, .ro, .W, .any⟩,
     ⟨CORE_CAUSE_FETCH c, .ro, .W, .any⟩,
     ⟨CORE_CAUSE_IMPRECISE c, .ro, .W, .any⟩,
     ⟨CORE_CAUSE_TACTIVE c, .ro, .W, .any⟩,
     ⟨CORE_CAUSE_CODE c, .ro, .W, .any⟩]
  | .CORE_TVAL, [c] =>
    [⟨CORE_TVAL_TVAL c, .ro, .W, .any⟩]
  | .CORE_CYCLE, [c] =>
    [⟨CORE_CYCLE_COUNT c, .ro, .W, .any⟩]
  | .CORE_LOCKSTAT, [c] =>
    [⟨CORE_LOCKSTAT_PRIO c, .ro, .W, .any⟩,
     ⟨CORE_LOCKSTAT_LOCKBRK c, .w1c, .W, .any⟩,
     ⟨CORE_LOCKSTAT_OPEN c, .ro, .W, .any⟩,
     ⟨CORE_LOCKSTAT_FAILS c, .ro, .W, .any⟩]
  | .SCHED_TICKETS, [] =>
    [⟨SCHED_TICKETS_HELD, .ro, .W, .any⟩,
     ⟨SCHED_TICKETS_SHARED, .ro, .W, .any⟩]
  | .SCHED_MISS, [] =>
    [⟨SCHED_MISS_LOST, .rc, .W, .any⟩,
     ⟨SCHED_MISS_MISS, .rc, .W, .any⟩]
  | .SCHED_DLNEXT, [] =>
    [⟨SCHED_DLNEXT_TIME, .ro, .W, .any⟩]
  | .SCHED_Q_CFG, [q] =>
    [⟨SCHED_Q_CFG_PATIENCE q, .rw, .W, .any⟩,
     ⟨SCHED_Q_CFG_TRES q, .rw, .W, .any⟩,
     ⟨SCHED_Q_CFG_OWNKIND q, .rw, .W, .code [(0, 5)] 0⟩,
     ⟨SCHED_Q_CFG_OWNIDX q, .rw, .W, .any⟩,
     ⟨SCHED_Q_CFG_PLOCK q, .rw, .W, .any⟩,
     ⟨SCHED_Q_CFG_PRIO q, .rw, .W, .any⟩,
     ⟨SCHED_Q_CFG_DEPTH q, .rw, .W, .code [(0, 6)] 0⟩,
     ⟨SCHED_Q_CFG_DELIVER q, .rw, .W, .any⟩,
     ⟨SCHED_Q_CFG_AUTO q, .rw, .W, .any⟩,
     ⟨SCHED_Q_CFG_EN q, .rw, .W, .any⟩]
  | .SCHED_Q_BASE, [q] =>
    [⟨SCHED_Q_BASE_ADDR q, .rw, .W, .any⟩]
  | .SCHED_Q_AFF, [q] =>
    [⟨SCHED_Q_AFF_MASK q, .rw, .W, .any⟩]
  | .SCHED_Q_PROG, [q] =>
    [⟨SCHED_Q_PROG_PROG q, .rw, .W, .any⟩]
  | .SCHED_Q_BURN, [q] =>
    [⟨SCHED_Q_BURN_LIMIT q, .rw, .W, .any⟩]
  | .SCHED_Q_PTR, [q] =>
    [⟨SCHED_Q_PTR_POP q, .wo, .W, .any⟩,
     ⟨SCHED_Q_PTR_CRED q, .ro, .W, .any⟩,
     ⟨SCHED_Q_PTR_OCC q, .ro, .W, .any⟩,
     ⟨SCHED_Q_PTR_RES q, .ro, .W, .any⟩]
  | .SCHED_Q_STAT, [q] =>
    [⟨SCHED_Q_STAT_MISS q, .rc, .W, .any⟩,
     ⟨SCHED_Q_STAT_NOTICKET q, .rc, .W, .any⟩,
     ⟨SCHED_Q_STAT_DROP q, .rc, .W, .any⟩,
     ⟨SCHED_Q_STAT_DISCARD q, .rc, .W, .any⟩]
  | .SCHED_Q_DEST, [q] =>
    [⟨SCHED_Q_DEST_DEST q, .rw, .W, .any⟩]
  | .CREW_CORE_ITEM, [c] =>
    [⟨CREW_CORE_ITEM_BUSY c, .ro, .W, .any⟩,
     ⟨CREW_CORE_ITEM_LEVEL c, .ro, .W, .any⟩,
     ⟨CREW_CORE_ITEM_QUEUE c, .ro, .W, .any⟩,
     ⟨CREW_CORE_ITEM_GEN c, .ro, .W, .any⟩,
     ⟨CREW_CORE_ITEM_TICKET c, .ro, .W, .any⟩]
  | .CREW_CORE_BURN, [c] =>
    [⟨CREW_CORE_BURN_LIMIT c, .ro, .W, .any⟩,
     ⟨CREW_CORE_BURN_COUNT c, .ro, .W, .any⟩]
  | .CREW_IDLE, [] =>
    [⟨CREW_IDLE_IDLE, .ro, .W, .any⟩]
  | .CFG_LOAD, [] =>
    [⟨CFG_LOAD_RELEASED, .ro, .W, .any⟩,
     ⟨CFG_LOAD_OPENKEY, .ro, .W, .any⟩,
     ⟨CFG_LOAD_GOLDEN, .ro, .W, .any⟩,
     ⟨CFG_LOAD_SRC, .ro, .W, .any⟩,
     ⟨CFG_LOAD_KIND, .ro, .W, .any⟩,
     ⟨CFG_LOAD_SEG, .ro, .W, .any⟩,
     ⟨CFG_LOAD_STAGE, .ro, .W, .any⟩]
  | .CFG_LOADERR, [] =>
    [⟨CFG_LOADERR_CODE, .ro, .C, .any⟩,
     ⟨CFG_LOADERR_PRIMARY, .ro, .C, .any⟩,
     ⟨CFG_LOADERR_DETAIL, .ro, .C, .any⟩,
     ⟨CFG_LOADERR_FADDR, .ro, .C, .any⟩,
     ⟨CFG_LOADERR_SEG, .ro, .C, .any⟩]
  | .CFG_IMAGE, [] =>
    [⟨CFG_IMAGE_IMAGEID, .ro, .W, .any⟩]
  | .CFG_WORK, [] =>
    [⟨CFG_WORK_ADDR, .rw, .W, .any⟩]
  | .CFG_RELEASE, [] =>
    [⟨CFG_RELEASE_DIES, .wo, .W, .any⟩]
  | .CFG_COMMIT, [] =>
    [⟨CFG_COMMIT_GO, .wo, .W, .any⟩,
     ⟨CFG_COMMIT_BUSY, .ro, .W, .any⟩,
     ⟨CFG_COMMIT_CLAMPS, .ro, .W, .any⟩,
     ⟨CFG_COMMIT_STATUS, .ro, .W, .any⟩,
     ⟨CFG_COMMIT_GROUP, .rw, .W, .any⟩]
  | .CFG_CLAMPHEAD, [] =>
    [⟨CFG_CLAMPHEAD_TOTAL, .ro, .C, .any⟩,
     ⟨CFG_CLAMPHEAD_NEXT, .ro, .C, .any⟩]
  | .CFG_CLAMPLOG_ADDR, [e] =>
    [⟨CFG_CLAMPLOG_ADDR_ADDR e, .ro, .C, .any⟩]
  | .CFG_CLAMPLOG_FIELD, [e] =>
    [⟨CFG_CLAMPLOG_FIELD_SEQ e, .ro, .C, .any⟩,
     ⟨CFG_CLAMPLOG_FIELD_REASON e, .ro, .C, .any⟩,
     ⟨CFG_CLAMPLOG_FIELD_WIDTHM1 e, .ro, .C, .any⟩,
     ⟨CFG_CLAMPLOG_FIELD_LSB e, .ro, .C, .any⟩,
     ⟨CFG_CLAMPLOG_FIELD_VALID e, .ro, .C, .any⟩]
  | .CFG_CLAMPLOG_WRITTEN, [e] =>
    [⟨CFG_CLAMPLOG_WRITTEN_VALUE e, .ro, .C, .any⟩]
  | .CFG_CLAMPLOG_APPLIED, [e] =>
    [⟨CFG_CLAMPLOG_APPLIED_VALUE e, .ro, .C, .any⟩]
  | .FENCE_SEC, [n, s] =>
    [⟨FENCE_SEC_LIFTING n s, .ro, .D, .any⟩,
     ⟨FENCE_SEC_SETTLED n s, .ro, .D, .any⟩,
     ⟨FENCE_SEC_SETTING n s, .rw, .D, .code [(0, 2)] 0⟩,
     ⟨FENCE_SEC_FENCE n s, .rw, .D, .any⟩]
  | .SCRUB_CTL, [n] =>
    [⟨SCRUB_CTL_FENCEUNC n, .rw, .D, .any⟩,
     ⟨SCRUB_CTL_EN n, .rw, .D, .any⟩]
  | .SCRUB_STAT, [n] =>
    [⟨SCRUB_STAT_SECTOR n, .ro, .D, .any⟩,
     ⟨SCRUB_STAT_FRAME n, .ro, .D, .any⟩,
     ⟨SCRUB_STAT_STUCK n, .w1c, .D, .any⟩,
     ⟨SCRUB_STAT_UNCORR n, .w1c, .D, .any⟩,
     ⟨SCRUB_STAT_INCOMPLETE n, .ro, .D, .any⟩,
     ⟨SCRUB_STAT_PAUSE n, .ro, .D, .any⟩]
  | .SCRUB_COUNT, [n] =>
    [⟨SCRUB_COUNT_VOTES n, .rc, .D, .any⟩,
     ⟨SCRUB_COUNT_UNCORR n, .rc, .D, .any⟩,
     ⟨SCRUB_COUNT_CORR n, .rc, .D, .any⟩]
  | .SCRUB_UNCLOG, [n] =>
    [⟨SCRUB_UNCLOG_VALID n, .ro, .W, .any⟩,
     ⟨SCRUB_UNCLOG_FADDR n, .ro, .W, .any⟩,
     ⟨SCRUB_UNCLOG_EPOCH n, .ro, .W, .any⟩]
  | .MASK_SEC_W, [n, s, w] =>
    [⟨MASK_SEC_W_BITS n s w, .rw, .D, .any⟩]
  | .ASSAY_STAT, [n] =>
    [⟨ASSAY_STAT_EPOCH n, .ro, .D, .any⟩,
     ⟨ASSAY_STAT_MATCH n, .ro, .D, .any⟩,
     ⟨ASSAY_STAT_INTENDED n, .ro, .D, .any⟩,
     ⟨ASSAY_STAT_READY n, .ro, .D, .any⟩]
  | .ASSAY_DIG, [n, w] =>
    [⟨ASSAY_DIG_DIG n w, .ro, .D, .any⟩]
  | .ASSAY_SECSEL, [n] =>
    [⟨ASSAY_SECSEL_SECTOR n, .rw, .D, .code [(0, 191)] 0⟩]
  | .ASSAY_SECSTAT, [n] =>
    [⟨ASSAY_SECSTAT_EPOCH n, .ro, .D, .any⟩,
     ⟨ASSAY_SECSTAT_READY n, .ro, .D, .any⟩]
  | .ASSAY_SECDIG, [n, w] =>
    [⟨ASSAY_SECDIG_DIG n w, .ro, .D, .any⟩]
  | .CFG_ASSAYSTAT, [] =>
    [⟨CFG_ASSAYSTAT_DEVEPOCH, .ro, .W, .any⟩,
     ⟨CFG_ASSAYSTAT_HUBMATCH, .ro, .W, .any⟩,
     ⟨CFG_ASSAYSTAT_DEVMATCH, .ro, .W, .any⟩,
     ⟨CFG_ASSAYSTAT_DEVREADY, .ro, .W, .any⟩]
  | .CFG_ASSAYDEV, [w] =>
    [⟨CFG_ASSAYDEV_DIG w, .ro, .W, .any⟩]
  | .CFG_ASSAYHUB, [w] =>
    [⟨CFG_ASSAYHUB_DIG w, .ro, .W, .any⟩]
  | .CFG_ASSAYHUBEP, [] =>
    [⟨CFG_ASSAYHUBEP_EPOCH, .ro, .W, .any⟩]
  | .PCIE_CTL, [] =>
    [⟨PCIE_CTL_HOTREACH, .rw, .C, .any⟩,
     ⟨PCIE_CTL_DBGWIN, .rw, .W, .any⟩,
     ⟨PCIE_CTL_MAXWIDTH, .st, .W, .code [(0, 3)] 3⟩,
     ⟨PCIE_CTL_MAXGEN, .st, .W, .code [(1, 6)] 6⟩]
  | .PCIE_STAT, [] =>
    [⟨PCIE_STAT_NUMVF, .ro, .W, .any⟩,
     ⟨PCIE_STAT_UP, .ro, .W, .any⟩,
     ⟨PCIE_STAT_FLIT, .ro, .W, .any⟩,
     ⟨PCIE_STAT_GEN, .ro, .W, .any⟩,
     ⟨PCIE_STAT_WIDTH, .ro, .W, .any⟩]
  | .PCIE_ERRCNT, [] =>
    [⟨PCIE_ERRCNT_CTO, .rc, .W, .any⟩,
     ⟨PCIE_ERRCNT_UNEXP, .rc, .W, .any⟩,
     ⟨PCIE_ERRCNT_DROPPED, .rc, .W, .any⟩,
     ⟨PCIE_ERRCNT_POISONED, .rc, .W, .any⟩]
  | .PCIE_DIESEL, [] =>
    [⟨PCIE_DIESEL_DIE, .rw, .W, .any⟩]
  | .PCIE_AP, [a] =>
    [⟨PCIE_AP_BASE a, .rw, .W, .any⟩,
     ⟨PCIE_AP_EN a, .rw, .W, .any⟩]
  | .PCIE_FUNC_MSIX, [f] =>
    [⟨PCIE_FUNC_MSIX_COUNT f, .rw, .W, .code [(0, 2048)] (if f = 0 then 0x800 else 0)⟩,
     ⟨PCIE_FUNC_MSIX_BASE f, .rw, .W, .any⟩]
  | .PCIE_FUNC_VWIN, [f] =>
    [⟨PCIE_FUNC_VWIN_BASE f, .rw, .W, .any⟩,
     ⟨PCIE_FUNC_VWIN_EN f, .rw, .W, .any⟩]
  | .PCIE_HRING, [q] =>
    [⟨PCIE_HRING_HEAD q, .rw, .W, .any⟩,
     ⟨PCIE_HRING_TAIL q, .ro, .W, .any⟩,
     ⟨PCIE_HRING_IEN q, .rw, .W, .any⟩,
     ⟨PCIE_HRING_VEC q, .rw, .W, .any⟩]
  | .LANE_CFG, [k] =>
    [⟨LANE_CFG_PRESET k, .st, .W, .range 0 10⟩,
     ⟨LANE_CFG_PRECODE k, .st, .W, .any⟩,
     ⟨LANE_CFG_POLTX k, .st, .W, .any⟩,
     ⟨LANE_CFG_MAXSTEP k, .st, .W, .code [(0, 5)] 5⟩]
  | .LANE_TEST, [k] =>
    [⟨LANE_TEST_LOOP k, .rw, .W, .any⟩,
     ⟨LANE_TEST_CHK k, .rw, .W, .code [(0, 2)] 0⟩,
     ⟨LANE_TEST_GEN k, .rw, .W, .code [(0, 2)] 0⟩,
     ⟨LANE_TEST_STEP k, .rw, .W, .code [(1, 5)] 2⟩]
  | .LANE_STAT, [k] =>
    [⟨LANE_STAT_MARGLOW k, .w1c, .W, .any⟩,
     ⟨LANE_STAT_MINMARGIN k, .rc, .W, .any⟩,
     ⟨LANE_STAT_MARGIN k, .ro, .W, .any⟩,
     ⟨LANE_STAT_PRECODED k, .ro, .W, .any⟩,
     ⟨LANE_STAT_LOCK k, .ro, .W, .any⟩,
     ⟨LANE_STAT_STEP k, .ro, .W, .any⟩]
  | .LANE_ERR, [k] =>
    [⟨LANE_ERR_COUNT k, .rc, .W, .any⟩]
  | .BORTIK_CTL, [] =>
    [⟨BORTIK_CTL_MARGWARN, .st, .W, .any⟩,
     ⟨BORTIK_CTL_AUTORUN, .st, .W, .any⟩]
  | .BORTIK_LINK_CFG, [l] =>
    [⟨BORTIK_LINK_CFG_LINKID l, .st, .W, .any⟩,
     ⟨BORTIK_LINK_CFG_WIDTH l, .st, .W, .any⟩,
     ⟨BORTIK_LINK_CFG_EN l, .st, .W, .any⟩]
  | .BORTIK_LINK_RSC, [l] =>
    [⟨BORTIK_LINK_RSC_EN l, .st, .W, .any⟩,
     ⟨BORTIK_LINK_RSC_SHARE l, .st, .W, .any⟩,
     ⟨BORTIK_LINK_RSC_FENCE l, .st, .W, .code [(0, 2)] 0⟩,
     ⟨BORTIK_LINK_RSC_RLAT l, .st, .W, .range 1 31⟩,
     ⟨BORTIK_LINK_RSC_PDOM l, .st, .W, .any⟩,
     ⟨BORTIK_LINK_RSC_W l, .st, .W, .range 0 6144⟩,
     ⟨BORTIK_LINK_RSC_RXNET l, .st, .W, .any⟩,
     ⟨BORTIK_LINK_RSC_TXNET l, .st, .W, .any⟩]
  | .BORTIK_LINK_STAT, [l] =>
    [⟨BORTIK_LINK_STAT_DOWNCAUSE l, .ro, .W, .any⟩,
     ⟨BORTIK_LINK_STAT_STATE l, .ro, .W, .any⟩,
     ⟨BORTIK_LINK_STAT_STEP l, .ro, .W, .any⟩,
     ⟨BORTIK_LINK_STAT_RESUMED l, .ro, .W, .any⟩,
     ⟨BORTIK_LINK_STAT_EPOCH l, .ro, .W, .any⟩]
  | .BORTIK_LINK_RSCSTAT, [l] =>
    [⟨BORTIK_LINK_RSCSTAT_DELTA l, .ro, .W, .any⟩,
     ⟨BORTIK_LINK_RSCSTAT_KMIN l, .ro, .W, .any⟩,
     ⟨BORTIK_LINK_RSCSTAT_SLIP l, .w1c, .W, .any⟩,
     ⟨BORTIK_LINK_RSCSTAT_LOSSY l, .w1c, .W, .any⟩,
     ⟨BORTIK_LINK_RSCSTAT_NOTSYNC l, .ro, .W, .any⟩,
     ⟨BORTIK_LINK_RSCSTAT_ALIGNED l, .ro, .W, .any⟩]
  | .BORTIK_LINK_CNT, [l] =>
    [⟨BORTIK_LINK_CNT_AUTHFAIL l, .rc, .W, .any⟩,
     ⟨BORTIK_LINK_CNT_REPLAY l, .rc, .W, .any⟩,
     ⟨BORTIK_LINK_CNT_UNCORR l, .rc, .W, .any⟩,
     ⟨BORTIK_LINK_CNT_DOWNS l, .rc, .W, .any⟩]
  | .BORTIK_GAZ_SERIAL, [e] =>
    [⟨BORTIK_GAZ_SERIAL_SERIAL e, .ro, .W, .any⟩]
  | .BORTIK_GAZ_INFO, [e] =>
    [⟨BORTIK_GAZ_INFO_VALID e, .ro, .W, .any⟩,
     ⟨BORTIK_GAZ_INFO_UNAUTH e, .ro, .W, .any⟩,
     ⟨BORTIK_GAZ_INFO_DEVREADY e, .ro, .W, .any⟩,
     ⟨BORTIK_GAZ_INFO_PORT e, .ro, .W, .any⟩,
     ⟨BORTIK_GAZ_INFO_CAPS e, .ro, .W, .any⟩,
     ⟨BORTIK_GAZ_INFO_IMAGEID e, .ro, .W, .any⟩]
  | .BORTIK_GAZ_DIG, [e, w] =>
    [⟨BORTIK_GAZ_DIG_DIG e w, .ro, .W, .any⟩]
  | .BORTIK_GAZ_SEEN, [e] =>
    [⟨BORTIK_GAZ_SEEN_TIME e, .ro, .W, .any⟩]
  | .DDR_MAP, [] =>
    [⟨DDR_MAP_CHANS, .rw, .C, .code [(0, 2)] 0⟩]
  | .DDR_CHMASK, [j] =>
    [⟨DDR_CHMASK_MASK j, .rw, .C, .any⟩]
  | .DDR_C_CTL, [n] =>
    [⟨DDR_C_CTL_AUDIT n, .st, .C, .range 1 255⟩,
     ⟨DDR_C_CTL_X2 n, .st, .C, .any⟩,
     ⟨DDR_C_CTL_REFMODE n, .st, .C, .any⟩,
     ⟨DDR_C_CTL_EN n, .st, .C, .any⟩]
  | .DDR_C_GEOM, [n] =>
    [⟨DDR_C_GEOM_X8 n, .st, .C, .any⟩,
     ⟨DDR_C_GEOM_RANKBITS n, .st, .C, .range 0 2⟩,
     ⟨DDR_C_GEOM_BABITS n, .st, .C, .code [(1, 2)] 2⟩,
     ⟨DDR_C_GEOM_BGBITS n, .st, .C, .range 1 3⟩,
     ⟨DDR_C_GEOM_ROWBITS n, .st, .C, .range 14 18⟩,
     ⟨DDR_C_GEOM_COLBITS n, .st, .C, .range 6 8⟩]
  | .DDR_C_TIM0, [n] =>
    [⟨DDR_C_TIM0_TRC n, .st, .C, .any⟩,
     ⟨DDR_C_TIM0_TRAS n, .st, .C, .any⟩,
     ⟨DDR_C_TIM0_TRP n, .st, .C, .any⟩,
     ⟨DDR_C_TIM0_TRCD n, .st, .C, .any⟩]
  | .DDR_C_TIM1, [n] =>
    [⟨DDR_C_TIM1_TRFCSB n, .st, .C, .any⟩,
     ⟨DDR_C_TIM1_TRFC n, .st, .C, .any⟩,
     ⟨DDR_C_TIM1_TREFI n, .st, .C, .range 1024 12480⟩]
  | .DDR_C_REF, [n] =>
    [⟨DDR_C_REF_IDLE n, .st, .C, .any⟩,
     ⟨DDR_C_REF_GUARD n, .st, .C, .any⟩]
  | .DDR_C_RH, [n] =>
    [⟨DDR_C_RH_RFM n, .st, .C, .any⟩,
     ⟨DDR_C_RH_THRESH n, .st, .C, .range 256 65535⟩]
  | .DDR_C_MASK, [n, i] =>
    [⟨DDR_C_MASK_MASK n i, .st, .C, .any⟩]
  | .DDR_C_CMD, [n] =>
    [⟨DDR_C_CMD_RETRAIN n, .wo, .C, .any⟩]
  | .DDR_C_STAT, [n] =>
    [⟨DDR_C_STAT_TRAINLANE n, .ro, .C, .any⟩,
     ⟨DDR_C_STAT_OWED n, .ro, .C, .any⟩,
     ⟨DDR_C_STAT_DOUBLED n, .ro, .C, .any⟩,
     ⟨DDR_C_STAT_STATE n, .ro, .C, .any⟩]
  | .DDR_C_CNT, [n] =>
    [⟨DDR_C_CNT_RHACT n, .rc, .C, .any⟩,
     ⟨DDR_C_CNT_FALLBACK n, .rc, .C, .any⟩]
  | .DDR_C_ECC, [n] =>
    [⟨DDR_C_ECC_UNCORR n, .rc, .C, .any⟩,
     ⟨DDR_C_ECC_CORR n, .rc, .C, .any⟩]
  | .DDR_C_MARGIN, [n] =>
    [⟨DDR_C_MARGIN_MIN n, .rw, .C, .any⟩,
     ⟨DDR_C_MARGIN_LANE n, .ro, .C, .any⟩,
     ⟨DDR_C_MARGIN_RANK n, .ro, .C, .any⟩,
     ⟨DDR_C_MARGIN_WR n, .ro, .C, .any⟩,
     ⟨DDR_C_MARGIN_RD n, .ro, .C, .any⟩]
  | .CIPH_CTL, [] =>
    [⟨CIPH_CTL_PACE, .st, .C, .any⟩]
  | .CIPH_STAT, [] =>
    [⟨CIPH_STAT_INSTALL, .ro, .W, .any⟩,
     ⟨CIPH_STAT_REKEY, .ro, .W, .any⟩]
  | .CIPH_CNT, [] =>
    [⟨CIPH_CNT_PAGEREENC, .rc, .C, .any⟩,
     ⟨CIPH_CNT_CTRFIX, .rc, .C, .any⟩,
     ⟨CIPH_CNT_MISMATCH, .rc, .C, .any⟩,
     ⟨CIPH_CNT_CTRPOISON, .rc, .C, .any⟩]
  | .CIPH_CMD, [] =>
    [⟨CIPH_CMD_PAGE, .wo, .C, .any⟩,
     ⟨CIPH_CMD_CLR, .wo, .C, .any⟩]
  | .CIPH_R_BASE, [r] =>
    [⟨CIPH_R_BASE_BASE r, .st, .C, .any⟩,
     ⟨CIPH_R_BASE_KEEPCTR r, .st, .C, .any⟩,
     ⟨CIPH_R_BASE_EN r, .st, .C, .any⟩]
  | .CIPH_R_LIMIT, [r] =>
    [⟨CIPH_R_LIMIT_LIMIT r, .st, .C, .any⟩]
  | .CIPH_R_CTR, [r] =>
    [⟨CIPH_R_CTR_CTR r, .st, .C, .any⟩]
  | .CIPH_R_MER, [r] =>
    [⟨CIPH_R_MER_REKEY r, .ro, .W, .any⟩,
     ⟨CIPH_R_MER_CUT r, .ro, .C, .any⟩,
     ⟨CIPH_R_MER_KEYED r, .ro, .W, .any⟩,
     ⟨CIPH_R_MER_PEND r, .ro, .W, .any⟩,
     ⟨CIPH_R_MER_MERIDIAN r, .ro, .C, .any⟩]
  | .ERR_FILL, [] =>
    [⟨ERR_FILL_DONE, .ro, .C, .any⟩]
  | .ERR_LOGHEAD, [] =>
    [⟨ERR_LOGHEAD_TOTAL, .ro, .C, .any⟩,
     ⟨ERR_LOGHEAD_NEXT, .ro, .C, .any⟩]
  | .ERR_POSTMASK, [] =>
    [⟨ERR_POSTMASK_MASK, .rw, .W, .any⟩]
  | .ERR_TEST, [] =>
    [⟨ERR_TEST_CORE, .rw, .W, .any⟩,
     ⟨ERR_TEST_MEM, .rw, .W, .code [(0, 2), (4, 7)] 0⟩,
     ⟨ERR_TEST_ONESHOT, .rw, .W, .any⟩,
     ⟨ERR_TEST_EN, .rw, .W, .any⟩,
     ⟨ERR_TEST_CHK, .rw, .W, .any⟩]
  | .ERR_CNT, [m] =>
    [⟨ERR_CNT_UNCORR m, .rc, .C, .any⟩,
     ⟨ERR_CNT_CORR m, .rc, .C, .any⟩]
  | .ERR_LOG_W, [e, w] =>
    [⟨ERR_LOG_W_WORD e w, .ro, .C, .any⟩]
  | .RST_CAUSE, [] =>
    [⟨RST_CAUSE_LASTREACH, .ro, .none, .any⟩,
     ⟨RST_CAUSE_OPT, .w1c, .none, .any⟩,
     ⟨RST_CAUSE_ADIT, .w1c, .none, .any⟩,
     ⟨RST_CAUSE_THERM, .w1c, .none, .any⟩,
     ⟨RST_CAUSE_CRIT, .w1c, .none, .any⟩,
     ⟨RST_CAUSE_CANARY, .w1c, .none, .any⟩,
     ⟨RST_CAUSE_WARM, .w1c, .none, .any⟩,
     ⟨RST_CAUSE_HOT, .w1c, .none, .any⟩,
     ⟨RST_CAUSE_PERST, .w1c, .none, .any⟩,
     ⟨RST_CAUSE_PIN, .w1c, .none, .any⟩,
     ⟨RST_CAUSE_POR, .w1c, .none, .any⟩]
  | .RST_DIE, [] =>
    [⟨RST_DIE_COUNT 0, .ro, .W, .any⟩,
     ⟨RST_DIE_SRC 0, .ro, .W, .any⟩,
     ⟨RST_DIE_INRESET 0, .ro, .W, .any⟩,
     ⟨RST_DIE_COUNT 1, .ro, .W, .any⟩,
     ⟨RST_DIE_SRC 1, .ro, .W, .any⟩,
     ⟨RST_DIE_INRESET 1, .ro, .W, .any⟩,
     ⟨RST_DIE_COUNT 2, .ro, .W, .any⟩,
     ⟨RST_DIE_SRC 2, .ro, .W, .any⟩,
     ⟨RST_DIE_INRESET 2, .ro, .W, .any⟩,
     ⟨RST_DIE_COUNT 3, .ro, .W, .any⟩,
     ⟨RST_DIE_SRC 3, .ro, .W, .any⟩,
     ⟨RST_DIE_INRESET 3, .ro, .W, .any⟩]
  | .RST_OPTSTAT, [] =>
    [⟨RST_OPTSTAT_SEQ, .ro, .C, .any⟩,
     ⟨RST_OPTSTAT_COPY, .ro, .C, .any⟩,
     ⟨RST_OPTSTAT_DEFAULTS, .ro, .C, .any⟩,
     ⟨RST_OPTSTAT_BADA, .ro, .C, .any⟩,
     ⟨RST_OPTSTAT_BADB, .ro, .C, .any⟩,
     ⟨RST_OPTSTAT_ROA, .ro, .C, .any⟩,
     ⟨RST_OPTSTAT_ROB, .ro, .C, .any⟩,
     ⟨RST_OPTSTAT_FAILS, .ro, .none, .any⟩]
  | .RST_OPTWEAR, [] =>
    [⟨RST_OPTWEAR_WRCNTB, .ro, .none, .any⟩,
     ⟨RST_OPTWEAR_WRCNTA, .ro, .none, .any⟩]
  | .RST_OPT, [w] =>
    [⟨RST_OPT_BYTES w, .ro, .C, .any⟩]
  | .RST_PINMAP, [w] =>
    [⟨RST_PINMAP_CODES w, .ro, .C, .any⟩]
  | .PWR_CTL, [] =>
    [⟨PWR_CTL_THROTTLE, .st, .W, .range 60 100⟩,
     ⟨PWR_CTL_WARN, .st, .W, .range 60 95⟩,
     ⟨PWR_CTL_UNDERLAY, .st, .W, .any⟩,
     ⟨PWR_CTL_MANAGED, .st, .W, .any⟩,
     ⟨PWR_CTL_MAXSTATE, .st, .W, .any⟩]
  | .PWR_PAUSE, [] =>
    [⟨PWR_PAUSE_PAUSE, .rw, .W, .any⟩]
  | .PWR_TOL, [k] =>
    [⟨PWR_TOL_NS k, .rw, .W, .any⟩]
  | .PWR_STAT, [] =>
    [⟨PWR_STAT_THALT, .ro, .W, .any⟩,
     ⟨PWR_STAT_RETSKIP, .ro, .W, .any⟩,
     ⟨PWR_STAT_AWAKE, .ro, .W, .any⟩,
     ⟨PWR_STAT_TARGET, .ro, .W, .any⟩,
     ⟨PWR_STAT_STATE, .ro, .W, .any⟩]
  | .PWR_THRNETS, [n] =>
    [⟨PWR_THRNETS_NETS n, .rw, .W, .any⟩]
  | .PWR_TRIP, [] =>
    [⟨PWR_TRIP_VALID, .ro, .C, .any⟩,
     ⟨PWR_TRIP_DIE, .ro, .C, .any⟩,
     ⟨PWR_TRIP_SENSOR, .ro, .C, .any⟩,
     ⟨PWR_TRIP_TEMP, .ro, .C, .any⟩]
  | .PWR_TEMP, [d] =>
    [⟨PWR_TEMP_LEVEL d, .ro, .W, .any⟩,
     ⟨PWR_TEMP_MAXIDX d, .ro, .W, .any⟩,
     ⟨PWR_TEMP_FAILED d, .ro, .C, .any⟩,
     ⟨PWR_TEMP_TEMP d, .ro, .W, .any⟩]
  | .ADIT_SESSION, [] =>
    [⟨ADIT_SESSION_LOSTCAUSE, .ro, .C, .any⟩,
     ⟨ADIT_SESSION_OWNER, .ro, .W, .any⟩,
     ⟨ADIT_SESSION_ATTACH, .rw, .W, .any⟩]
  | .ADIT_STAT, [] =>
    [⟨ADIT_STAT_NOTHALTED, .w1c, .W, .any⟩,
     ⟨ADIT_STAT_REFUSED, .w1c, .W, .any⟩,
     ⟨ADIT_STAT_BUSSTATUS, .ro, .W, .any⟩,
     ⟨ADIT_STAT_BUSY, .ro, .W, .any⟩]
  | .ADIT_BUSADDR, [] =>
    [⟨ADIT_BUSADDR_ADDR, .rw, .W, .any⟩]
  | .ADIT_BUSDATA, [] =>
    [⟨ADIT_BUSDATA_DATA, .rw, .W, .any⟩]
  | .ADIT_BUSCMD, [] =>
    [⟨ADIT_BUSCMD_CORE, .rw, .W, .any⟩,
     ⟨ADIT_BUSCMD_LOCAL, .rw, .W, .any⟩,
     ⟨ADIT_BUSCMD_AUTOINC, .rw, .W, .any⟩,
     ⟨ADIT_BUSCMD_SIZE, .rw, .W, .any⟩,
     ⟨ADIT_BUSCMD_CANCEL, .wo, .W, .any⟩,
     ⟨ADIT_BUSCMD_WRITE, .rw, .W, .any⟩,
     ⟨ADIT_BUSCMD_GO, .wo, .W, .any⟩]
  | .ADIT_WINBASE, [] =>
    [⟨ADIT_WINBASE_BASE, .rw, .W, .any⟩]
  | .ADIT_RESET, [] =>
    [⟨ADIT_RESET_DIE, .wo, .W, .any⟩,
     ⟨ADIT_RESET_REACH, .wo, .W, .any⟩,
     ⟨ADIT_RESET_GO, .wo, .W, .any⟩]
  | .ADIT_BOOTHALT, [] =>
    [⟨ADIT_BOOTHALT_EN, .rw, .C, .any⟩]
  | .ADIT_HALT, [] =>
    [⟨ADIT_HALT_REQ, .w1s, .W, .any⟩]
  | .ADIT_RUN, [] =>
    [⟨ADIT_RUN_CORES, .wo, .W, .any⟩]
  | .ADIT_HALTED, [] =>
    [⟨ADIT_HALTED_CORES, .ro, .W, .any⟩]
  | .ADIT_LOCKBRK, [] =>
    [⟨ADIT_LOCKBRK_CORES, .w1c, .W, .any⟩]
  | .ADIT_STEP, [] =>
    [⟨ADIT_STEP_GO, .wo, .W, .any⟩,
     ⟨ADIT_STEP_CORE, .wo, .W, .any⟩]
  | .ADIT_CSEL, [] =>
    [⟨ADIT_CSEL_CORE, .rw, .W, .any⟩]
  | .ADIT_BPCORES, [] =>
    [⟨ADIT_BPCORES_CORES, .rw, .W, .any⟩]
  | .ADIT_BP, [k] =>
    [⟨ADIT_BP_ADDR k, .rw, .W, .any⟩,
     ⟨ADIT_BP_EN k, .rw, .W, .any⟩]
  | .ADIT_GREG, [r] =>
    [⟨ADIT_GREG_VALUE r, .rw, .W, .any⟩]
  | .ADIT_PC, [] =>
    [⟨ADIT_PC_VALUE, .rw, .W, .any⟩]
  | .ADIT_CORE_DTX, [c] =>
    [⟨ADIT_CORE_DTX_FULL c, .w1c, .W, .any⟩,
     ⟨ADIT_CORE_DTX_OVR c, .w1c, .W, .any⟩,
     ⟨ADIT_CORE_DTX_DATA c, .ro, .W, .any⟩]
  | .ADIT_CORE_DRX, [c] =>
    [⟨ADIT_CORE_DRX_FULL c, .rc, .W, .any⟩,
     ⟨ADIT_CORE_DRX_DATA c, .rw, .W, .any⟩]
  | .RST_CANARY_CTL, [] =>
    [⟨RST_CANARY_CTL_FREEZE, .rw, .W, .any⟩,
     ⟨RST_CANARY_CTL_PERIOD, .rw, .W, .range 10 60000⟩]
  | .RST_CANARY_FEED, [] =>
    [⟨RST_CANARY_FEED_KEY, .wo, .W, .any⟩]
  | .RST_CANARY_STAT, [] =>
    [⟨RST_CANARY_STAT_FROZEN, .ro, .W, .any⟩,
     ⟨RST_CANARY_STAT_REMAIN, .ro, .W, .any⟩]
  | .GUEST_CTL, [] =>
    [⟨GUEST_CTL_VLIMIT, .st, .W, .any⟩,
     ⟨GUEST_CTL_TTRIP, .st, .W, .any⟩,
     ⟨GUEST_CTL_TWARN, .st, .W, .any⟩,
     ⟨GUEST_CTL_MAXRATE, .st, .W, .code [(0, 3)] 3⟩,
     ⟨GUEST_CTL_TRIPRST, .rw, .W, .any⟩,
     ⟨GUEST_CTL_WARMRST, .rw, .C, .any⟩,
     ⟨GUEST_CTL_QUAR, .rw, .W, .any⟩,
     ⟨GUEST_CTL_FENCE, .w1s, .W, .any⟩,
     ⟨GUEST_CTL_GRST, .rw, .W, .any⟩,
     ⟨GUEST_CTL_EN, .st, .W, .any⟩]
  | .GUEST_CLR, [] =>
    [⟨GUEST_CLR_UNFENCE, .wo, .W, .any⟩]
  | .GUEST_STAT, [] =>
    [⟨GUEST_STAT_WIDTH, .ro, .W, .any⟩,
     ⟨GUEST_STAT_RATE, .ro, .W, .any⟩,
     ⟨GUEST_STAT_VGOOD, .ro, .W, .any⟩,
     ⟨GUEST_STAT_TRIPHOLD, .ro, .W, .any⟩,
     ⟨GUEST_STAT_UP, .ro, .W, .any⟩]
  | .GUEST_LIMITS, [] =>
    [⟨GUEST_LIMITS_QHI, .st, .W, .any⟩,
     ⟨GUEST_LIMITS_QLO, .st, .W, .range 256 16383⟩,
     ⟨GUEST_LIMITS_BURST, .st, .W, .range 1 1023⟩,
     ⟨GUEST_LIMITS_RATE, .st, .W, .range 1 500⟩]
  | .GUEST_VIOL, [] =>
    [⟨GUEST_VIOL_COUNT, .rc, .W, .any⟩]
  | .GUEST_TEMP, [] =>
    [⟨GUEST_TEMP_TEMP, .ro, .W, .any⟩]
  | .GUEST_GW_BASE, [k] =>
    [⟨GUEST_GW_BASE_BASE k, .st, .W, .any⟩,
     ⟨GUEST_GW_BASE_X k, .st, .W, .any⟩,
     ⟨GUEST_GW_BASE_W k, .st, .W, .any⟩,
     ⟨GUEST_GW_BASE_R k, .st, .W, .any⟩,
     ⟨GUEST_GW_BASE_EN k, .st, .W, .any⟩]
  | .GUEST_GW_LIMIT, [k] =>
    [⟨GUEST_GW_LIMIT_LIMIT k, .st, .W, .any⟩]
  | .GUEST_MBOX_TOGUEST, [w] =>
    [⟨GUEST_MBOX_TOGUEST_WORD w, .rw, .W, .any⟩]
  | .GUEST_MBOX_FROMGUEST, [w] =>
    [⟨GUEST_MBOX_FROMGUEST_WORD w, .rw, .W, .any⟩]
  | .GUEST_MBOX_CTL, [] =>
    [⟨GUEST_MBOX_CTL_FROMFULL, .w1c, .W, .any⟩,
     ⟨GUEST_MBOX_CTL_TOFULL, .w1c, .W, .any⟩,
     ⟨GUEST_MBOX_CTL_FROMGO, .wo, .W, .any⟩,
     ⟨GUEST_MBOX_CTL_TOGO, .wo, .W, .any⟩]
  | .IOBANK_CFG, [n, j] =>
    [⟨IOBANK_CFG_VREF n j, .st, .D, .any⟩,
     ⟨IOBANK_CFG_VCCIO n j, .st, .D, .any⟩]
  | .IOBANK_STAT, [n, j] =>
    [⟨IOBANK_STAT_VGOOD n j, .ro, .D, .any⟩,
     ⟨IOBANK_STAT_VMISMATCH n j, .ro, .D, .any⟩,
     ⟨IOBANK_STAT_VMEAS n j, .ro, .D, .any⟩]
  | .IOBANK_PIN, [n, j, i] =>
    [⟨IOBANK_PIN_DIFFTERM n j i, .st, .D, .any⟩,
     ⟨IOBANK_PIN_PULL n j i, .st, .D, .any⟩,
     ⟨IOBANK_PIN_ODT n j i, .st, .D, .any⟩,
     ⟨IOBANK_PIN_SLEW n j i, .st, .D, .any⟩,
     ⟨IOBANK_PIN_DRIVE n j i, .st, .D, .code [(0, 4)] 2⟩,
     ⟨IOBANK_PIN_STD n j i, .st, .D, .code [(0, 9)] 0⟩]
  | .OUTPOST_FLBUF, [n, w] =>
    [⟨OUTPOST_FLBUF_BYTES n w, .rw, .D, .any⟩]
  | .OUTPOST_UART_DATA, [n, u] =>
    [⟨OUTPOST_UART_DATA_DATA n u, .rc, .D, .any⟩]
  | .OUTPOST_UART_STAT, [n, u] =>
    [⟨OUTPOST_UART_STAT_OVR n u, .w1c, .D, .any⟩,
     ⟨OUTPOST_UART_STAT_PERR n u, .w1c, .D, .any⟩,
     ⟨OUTPOST_UART_STAT_FERR n u, .w1c, .D, .any⟩,
     ⟨OUTPOST_UART_STAT_RXLVL n u, .ro, .D, .any⟩,
     ⟨OUTPOST_UART_STAT_TXLVL n u, .ro, .D, .any⟩]
  | .OUTPOST_SPI_DATA, [n] =>
    [⟨OUTPOST_SPI_DATA_DATA n, .rc, .D, .any⟩]
  | .OUTPOST_I2C_CMD, [n] =>
    [⟨OUTPOST_I2C_CMD_DATA n, .rc, .D, .any⟩,
     ⟨OUTPOST_I2C_CMD_START n, .wo, .D, .any⟩,
     ⟨OUTPOST_I2C_CMD_STOP n, .wo, .D, .any⟩,
     ⟨OUTPOST_I2C_CMD_ACK n, .wo, .D, .any⟩]
  | .HSEAM_CTL, [n] =>
    [⟨SEAM_CTL_PERSIST (n + 4), .st, .W, .range 1 255⟩,
     ⟨SEAM_CTL_EYEMIN (n + 4), .st, .W, .any⟩,
     ⟨SEAM_CTL_EYEWARN (n + 4), .st, .W, .any⟩,
     ⟨SEAM_CTL_EYESWAP (n + 4), .st, .W, .any⟩,
     ⟨SEAM_CTL_AUTORUN (n + 4), .ro, .W, .any⟩,
     ⟨SEAM_CTL_EN (n + 4), .ro, .W, .any⟩]
  | .HSEAM_STAT, [n] =>
    [⟨SEAM_STAT_CRCERR (n + 4), .rc, .W, .any⟩,
     ⟨SEAM_STAT_RET1 (n + 4), .ro, .W, .any⟩,
     ⟨SEAM_STAT_RET0 (n + 4), .ro, .W, .any⟩,
     ⟨SEAM_STAT_PLAN (n + 4), .ro, .W, .any⟩,
     ⟨SEAM_STAT_NOHUB (n + 4), .ro, .W, .any⟩,
     ⟨SEAM_STAT_LOSSY (n + 4), .w1c, .W, .any⟩,
     ⟨SEAM_STAT_MISMATCH (n + 4), .w1c, .W, .any⟩,
     ⟨SEAM_STAT_STATE (n + 4), .ro, .W, .any⟩]
  | .HSEAM_EYESEL, [n] =>
    [⟨SEAM_EYESEL_DIR (n + 4), .rw, .W, .any⟩,
     ⟨SEAM_EYESEL_GROUP (n + 4), .rw, .W, .code [(0, 63)] 0⟩,
     ⟨SEAM_EYESEL_LANE (n + 4), .rw, .W, .code [(0, 16)] 0⟩]
  | .HSEAM_EYE, [n] =>
    [⟨SEAM_EYE_ERRS (n + 4), .rc, .W, .any⟩,
     ⟨SEAM_EYE_MINMARGIN (n + 4), .rc, .W, .any⟩,
     ⟨SEAM_EYE_MARGIN (n + 4), .ro, .W, .any⟩,
     ⟨SEAM_EYE_LOCK (n + 4), .ro, .W, .any⟩,
     ⟨SEAM_EYE_INUSE (n + 4), .ro, .W, .any⟩]
  | .HSEAM_GRP_STAT, [n, d, g] =>
    [⟨SEAM_GRP_STAT_PERR (n + 4) d g, .rc, .W, .any⟩,
     ⟨SEAM_GRP_STAT_AMODE (n + 4) d g, .ro, .W, .any⟩,
     ⟨SEAM_GRP_STAT_SPARELANE (n + 4) d g, .ro, .W, .any⟩,
     ⟨SEAM_GRP_STAT_SPARE (n + 4) d g, .ro, .W, .any⟩,
     ⟨SEAM_GRP_STAT_LOSSY (n + 4) d g, .w1c, .W, .any⟩,
     ⟨SEAM_GRP_STAT_GSTATE (n + 4) d g, .ro, .W, .any⟩]
  | _, _ => []

/-- Rows 0 on of the register map. -/
def regRows0 : List RegRow :=
  [⟨.ID_IDENT, 0x0, []⟩,
   ⟨.ID_CAP, 0x8, []⟩,
   ⟨.ID_SERIAL, 0x10, []⟩,
   ⟨.ID_JTAG, 0x18, []⟩,
   ⟨.FPORT_CTL, 0x2F00000, [(0x1000000, 4), (0x40, 8)]⟩,
   ⟨.FPORT_STAT, 0x2F00008, [(0x1000000, 4), (0x40, 8)]⟩,
   ⟨.FPORT_DROP, 0x2F00010, [(0x1000000, 4), (0x40, 8)]⟩,
   ⟨.OUTPOST_OWN, 0x2E00000, [(0x1000000, 4)]⟩,
   ⟨.OUTPOST_FLCMD, 0x2E00010, [(0x1000000, 4)]⟩,
   ⟨.OUTPOST_FLSTAT, 0x2E00018, [(0x1000000, 4)]⟩,
   ⟨.OUTPOST_UART_CFG, 0x2E00100, [(0x1000000, 4), (0x40, 2)]⟩,
   ⟨.OUTPOST_SPI_CFG, 0x2E00200, [(0x1000000, 4)]⟩,
   ⟨.OUTPOST_I2C_CFG, 0x2E00300, [(0x1000000, 4)]⟩,
   ⟨.SPINE_CSTAT, 0x2D00000, [(0x1000000, 4)]⟩,
   ⟨.SPINE_CLOG, 0x2D00008, [(0x1000000, 4)]⟩,
   ⟨.SPINE_COUNT, 0x2D00010, [(0x1000000, 4)]⟩,
   ⟨.SPINE_OFF, 0x2D00100, [(0x1000000, 4), (0x8, 12)]⟩,
   ⟨.CLK_STAT, 0x200000, []⟩,
   ⟨.CLK_XQUAL, 0x200008, []⟩,
   ⟨.CLK_GRIDTIME, 0x200010, []⟩,
   ⟨.CLK_SURVEY, 0x200018, []⟩,
   ⟨.CLK_PLL_REF, 0x2C00000, [(0x1000000, 4), (0x40, 16)]⟩,
   ⟨.CLK_PLL_MUL, 0x2C00008, [(0x1000000, 4), (0x40, 16)]⟩,
   ⟨.CLK_PLL_OUT, 0x2C00010, [(0x1000000, 4), (0x40, 16), (0x8, 4)]⟩,
   ⟨.CLK_PLL_STAT, 0x2C00030, [(0x1000000, 4), (0x40, 16)]⟩,
   ⟨.CLK_NET_SRC, 0x2C10000, [(0x1000000, 4), (0x20, 64)]⟩,
   ⟨.CLK_NET_STAT, 0x2C10008, [(0x1000000, 4), (0x20, 64)]⟩,
   ⟨.CLK_STAKE, 0x2C20000, [(0x1000000, 4), (0x8, 64)]⟩,
   ⟨.CLK_STAKELATCH, 0x2C20200, [(0x1000000, 4)]⟩,
   ⟨.SEAM_CTL, 0x2800000, [(0x1000000, 4)]⟩]

/-- Rows 30 on of the register map. -/
def regRows1 : List RegRow :=
  [⟨.SEAM_STAT, 0x2800008, [(0x1000000, 4)]⟩,
   ⟨.SEAM_EYESEL, 0x2800010, [(0x1000000, 4)]⟩,
   ⟨.SEAM_EYE, 0x2800018, [(0x1000000, 4)]⟩,
   ⟨.SEAM_MAPLOG, 0x2800100, [(0x1000000, 4), (0x8, 8)]⟩,
   ⟨.SEAM_GRP_CFG, 0x2801000, [(0x1000000, 4), (0x800, 2), (0x10, 128)]⟩,
   ⟨.SEAM_GRP_STAT, 0x2801008, [(0x1000000, 4), (0x800, 2), (0x10, 128)]⟩,
   ⟨.SEAM_BIND_CFG, 0x2802000, [(0x1000000, 4), (0x100, 2), (0x10, 16)]⟩,
   ⟨.SEAM_BIND_STAT, 0x2802008, [(0x1000000, 4), (0x100, 2), (0x10, 16)]⟩,
   ⟨.PDOM_NETS, 0x2880000, [(0x1000000, 4), (0x10, 64)]⟩,
   ⟨.PDOM_STAT, 0x2880008, [(0x1000000, 4), (0x10, 64)]⟩,
   ⟨.STRATA_CTL, 0x2A00000, [(0x1000000, 4)]⟩,
   ⟨.STRATA_STAT, 0x2A00008, [(0x1000000, 4)]⟩,
   ⟨.STRATA_KEEP, 0x2A00010, [(0x1000000, 4)]⟩,
   ⟨.STRATA_MISSED, 0x2A00018, [(0x1000000, 4)]⟩,
   ⟨.STRATA_HTRIG, 0x2A00020, [(0x1000000, 4)]⟩,
   ⟨.STRATA_PROF, 0x2A00100, [(0x1000000, 4), (0x8, 8)]⟩,
   ⟨.STRATA_TRIG, 0x2A00200, [(0x1000000, 4), (0x8, 16)]⟩,
   ⟨.STRATA_TPIN, 0x2A00280, [(0x8, 4)]⟩,
   ⟨.CORE_ID, 0x100000000, [(0x1000, 64)]⟩,
   ⟨.CORE_TVEC, 0x100000008, [(0x1000, 64)]⟩,
   ⟨.CORE_EPC, 0x100000010, [(0x1000, 64)]⟩,
   ⟨.CORE_CAUSE, 0x100000018, [(0x1000, 64)]⟩,
   ⟨.CORE_TVAL, 0x100000020, [(0x1000, 64)]⟩,
   ⟨.CORE_CYCLE, 0x100000028, [(0x1000, 64)]⟩,
   ⟨.CORE_LOCKSTAT, 0x100000030, [(0x1000, 64)]⟩,
   ⟨.SCHED_TICKETS, 0x400000, []⟩,
   ⟨.SCHED_MISS, 0x400008, []⟩,
   ⟨.SCHED_DLNEXT, 0x400010, []⟩,
   ⟨.SCHED_Q_CFG, 0x500000, [(0x40, 16384)]⟩,
   ⟨.SCHED_Q_BASE, 0x500008, [(0x40, 16384)]⟩]

/-- Rows 60 on of the register map. -/
def regRows2 : List RegRow :=
  [⟨.SCHED_Q_AFF, 0x500010, [(0x40, 16384)]⟩,
   ⟨.SCHED_Q_PROG, 0x500018, [(0x40, 16384)]⟩,
   ⟨.SCHED_Q_BURN, 0x500020, [(0x40, 16384)]⟩,
   ⟨.SCHED_Q_PTR, 0x500028, [(0x40, 16384)]⟩,
   ⟨.SCHED_Q_STAT, 0x500030, [(0x40, 16384)]⟩,
   ⟨.SCHED_Q_DEST, 0x500038, [(0x40, 16384)]⟩,
   ⟨.CREW_CORE_ITEM, 0x800000, [(0x40, 64)]⟩,
   ⟨.CREW_CORE_BURN, 0x800008, [(0x40, 64)]⟩,
   ⟨.CREW_IDLE, 0x801000, []⟩,
   ⟨.CFG_LOAD, 0xC00000, []⟩,
   ⟨.CFG_LOADERR, 0xC00008, []⟩,
   ⟨.CFG_IMAGE, 0xC00010, []⟩,
   ⟨.CFG_WORK, 0xC00018, []⟩,
   ⟨.CFG_RELEASE, 0xC00020, []⟩,
   ⟨.CFG_COMMIT, 0xC00100, []⟩,
   ⟨.CFG_CLAMPHEAD, 0xC00200, []⟩,
   ⟨.CFG_CLAMPLOG_ADDR, 0xC01000, [(0x20, 64)]⟩,
   ⟨.CFG_CLAMPLOG_FIELD, 0xC01008, [(0x20, 64)]⟩,
   ⟨.CFG_CLAMPLOG_WRITTEN, 0xC01010, [(0x20, 64)]⟩,
   ⟨.CFG_CLAMPLOG_APPLIED, 0xC01018, [(0x20, 64)]⟩,
   ⟨.FENCE_SEC, 0x2B00000, [(0x1000000, 4), (0x8, 192)]⟩,
   ⟨.SCRUB_CTL, 0x2600000, [(0x1000000, 4)]⟩,
   ⟨.SCRUB_STAT, 0x2600008, [(0x1000000, 4)]⟩,
   ⟨.SCRUB_COUNT, 0x2600010, [(0x1000000, 4)]⟩,
   ⟨.SCRUB_UNCLOG, 0x2600018, [(0x1000000, 4)]⟩,
   ⟨.MASK_SEC_W, 0x2700000, [(0x1000000, 4), (0x80, 192), (0x8, 16)]⟩,
   ⟨.ASSAY_STAT, 0x2680000, [(0x1000000, 4)]⟩,
   ⟨.ASSAY_DIG, 0x2680008, [(0x1000000, 4), (0x8, 4)]⟩,
   ⟨.ASSAY_SECSEL, 0x2680040, [(0x1000000, 4)]⟩,
   ⟨.ASSAY_SECSTAT, 0x2680048, [(0x1000000, 4)]⟩]

/-- Rows 90 on of the register map. -/
def regRows3 : List RegRow :=
  [⟨.ASSAY_SECDIG, 0x2680050, [(0x1000000, 4), (0x8, 2)]⟩,
   ⟨.CFG_ASSAYSTAT, 0xC00300, []⟩,
   ⟨.CFG_ASSAYDEV, 0xC00308, [(0x8, 4)]⟩,
   ⟨.CFG_ASSAYHUB, 0xC00328, [(0x8, 4)]⟩,
   ⟨.CFG_ASSAYHUBEP, 0xC00348, []⟩,
   ⟨.PCIE_CTL, 0x1400000, []⟩,
   ⟨.PCIE_STAT, 0x1400008, []⟩,
   ⟨.PCIE_ERRCNT, 0x1400010, []⟩,
   ⟨.PCIE_DIESEL, 0x1400018, []⟩,
   ⟨.PCIE_AP, 0x1400100, [(0x8, 8)]⟩,
   ⟨.PCIE_FUNC_MSIX, 0x1401000, [(0x10, 64)]⟩,
   ⟨.PCIE_FUNC_VWIN, 0x1401008, [(0x10, 64)]⟩,
   ⟨.PCIE_HRING, 0x1500000, [(0x8, 16384)]⟩,
   ⟨.LANE_CFG, 0x1600000, [(0x1000, 64)]⟩,
   ⟨.LANE_TEST, 0x1600008, [(0x1000, 64)]⟩,
   ⟨.LANE_STAT, 0x1600010, [(0x1000, 64)]⟩,
   ⟨.LANE_ERR, 0x1600018, [(0x1000, 64)]⟩,
   ⟨.BORTIK_CTL, 0x1A00000, []⟩,
   ⟨.BORTIK_LINK_CFG, 0x1A10000, [(0x100, 64)]⟩,
   ⟨.BORTIK_LINK_RSC, 0x1A10008, [(0x100, 64)]⟩,
   ⟨.BORTIK_LINK_STAT, 0x1A10010, [(0x100, 64)]⟩,
   ⟨.BORTIK_LINK_RSCSTAT, 0x1A10018, [(0x100, 64)]⟩,
   ⟨.BORTIK_LINK_CNT, 0x1A10020, [(0x100, 64)]⟩,
   ⟨.BORTIK_GAZ_SERIAL, 0x1A20000, [(0x40, 64)]⟩,
   ⟨.BORTIK_GAZ_INFO, 0x1A20008, [(0x40, 64)]⟩,
   ⟨.BORTIK_GAZ_DIG, 0x1A20010, [(0x40, 64), (0x8, 4)]⟩,
   ⟨.BORTIK_GAZ_SEEN, 0x1A20030, [(0x40, 64)]⟩,
   ⟨.DDR_MAP, 0x1300000, []⟩,
   ⟨.DDR_CHMASK, 0x1300008, [(0x8, 2)]⟩,
   ⟨.DDR_C_CTL, 0x1200000, [(0x40000, 4)]⟩]

/-- Rows 120 on of the register map. -/
def regRows4 : List RegRow :=
  [⟨.DDR_C_GEOM, 0x1200008, [(0x40000, 4)]⟩,
   ⟨.DDR_C_TIM0, 0x1200010, [(0x40000, 4)]⟩,
   ⟨.DDR_C_TIM1, 0x1200018, [(0x40000, 4)]⟩,
   ⟨.DDR_C_REF, 0x1200020, [(0x40000, 4)]⟩,
   ⟨.DDR_C_RH, 0x1200028, [(0x40000, 4)]⟩,
   ⟨.DDR_C_MASK, 0x1200040, [(0x40000, 4), (0x8, 6)]⟩,
   ⟨.DDR_C_CMD, 0x1200080, [(0x40000, 4)]⟩,
   ⟨.DDR_C_STAT, 0x1200100, [(0x40000, 4)]⟩,
   ⟨.DDR_C_CNT, 0x1200108, [(0x40000, 4)]⟩,
   ⟨.DDR_C_ECC, 0x1200110, [(0x40000, 4)]⟩,
   ⟨.DDR_C_MARGIN, 0x1200118, [(0x40000, 4)]⟩,
   ⟨.CIPH_CTL, 0x1100000, []⟩,
   ⟨.CIPH_STAT, 0x1100008, []⟩,
   ⟨.CIPH_CNT, 0x1100010, []⟩,
   ⟨.CIPH_CMD, 0x1100018, []⟩,
   ⟨.CIPH_R_BASE, 0x1100100, [(0x20, 16)]⟩,
   ⟨.CIPH_R_LIMIT, 0x1100108, [(0x20, 16)]⟩,
   ⟨.CIPH_R_CTR, 0x1100110, [(0x20, 16)]⟩,
   ⟨.CIPH_R_MER, 0x1100118, [(0x20, 16)]⟩,
   ⟨.ERR_FILL, 0x1000000, []⟩,
   ⟨.ERR_LOGHEAD, 0x1000008, []⟩,
   ⟨.ERR_POSTMASK, 0x1000010, []⟩,
   ⟨.ERR_TEST, 0x1000018, []⟩,
   ⟨.ERR_CNT, 0x1000100, [(0x8, 16)]⟩,
   ⟨.ERR_LOG_W, 0x1001000, [(0x20, 256), (0x8, 4)]⟩,
   ⟨.RST_CAUSE, 0x100000, []⟩,
   ⟨.RST_DIE, 0x100008, []⟩,
   ⟨.RST_OPTSTAT, 0x100010, []⟩,
   ⟨.RST_OPTWEAR, 0x100018, []⟩,
   ⟨.RST_OPT, 0x100100, [(0x8, 32)]⟩]

/-- Rows 150 on of the register map. -/
def regRows5 : List RegRow :=
  [⟨.RST_PINMAP, 0x100200, [(0x8, 3)]⟩,
   ⟨.PWR_CTL, 0x300000, []⟩,
   ⟨.PWR_PAUSE, 0x300008, []⟩,
   ⟨.PWR_TOL, 0x300010, [(0x8, 3)]⟩,
   ⟨.PWR_STAT, 0x300028, []⟩,
   ⟨.PWR_THRNETS, 0x300040, [(0x8, 4)]⟩,
   ⟨.PWR_TRIP, 0x300080, []⟩,
   ⟨.PWR_TEMP, 0x300100, [(0x8, 9)]⟩,
   ⟨.ADIT_SESSION, 0x1C00000, []⟩,
   ⟨.ADIT_STAT, 0x1C00008, []⟩,
   ⟨.ADIT_BUSADDR, 0x1C00010, []⟩,
   ⟨.ADIT_BUSDATA, 0x1C00018, []⟩,
   ⟨.ADIT_BUSCMD, 0x1C00020, []⟩,
   ⟨.ADIT_WINBASE, 0x1C00028, []⟩,
   ⟨.ADIT_RESET, 0x1C00030, []⟩,
   ⟨.ADIT_BOOTHALT, 0x1C00038, []⟩,
   ⟨.ADIT_HALT, 0x1C00040, []⟩,
   ⟨.ADIT_RUN, 0x1C00048, []⟩,
   ⟨.ADIT_HALTED, 0x1C00050, []⟩,
   ⟨.ADIT_LOCKBRK, 0x1C00058, []⟩,
   ⟨.ADIT_STEP, 0x1C00060, []⟩,
   ⟨.ADIT_CSEL, 0x1C00068, []⟩,
   ⟨.ADIT_BPCORES, 0x1C00080, []⟩,
   ⟨.ADIT_BP, 0x1C00088, [(0x8, 4)]⟩,
   ⟨.ADIT_GREG, 0x1C00100, [(0x8, 32)]⟩,
   ⟨.ADIT_PC, 0x1C00200, []⟩,
   ⟨.ADIT_CORE_DTX, 0x1C01000, [(0x10, 64)]⟩,
   ⟨.ADIT_CORE_DRX, 0x1C01008, [(0x10, 64)]⟩,
   ⟨.RST_CANARY_CTL, 0x100400, []⟩,
   ⟨.RST_CANARY_FEED, 0x100408, []⟩]

/-- Rows 180 on of the register map. -/
def regRows6 : List RegRow :=
  [⟨.RST_CANARY_STAT, 0x100410, []⟩,
   ⟨.GUEST_CTL, 0x1E00000, []⟩,
   ⟨.GUEST_CLR, 0x1E00008, []⟩,
   ⟨.GUEST_STAT, 0x1E00010, []⟩,
   ⟨.GUEST_LIMITS, 0x1E00018, []⟩,
   ⟨.GUEST_VIOL, 0x1E00020, []⟩,
   ⟨.GUEST_TEMP, 0x1E00028, []⟩,
   ⟨.GUEST_GW_BASE, 0x1E00100, [(0x10, 16)]⟩,
   ⟨.GUEST_GW_LIMIT, 0x1E00108, [(0x10, 16)]⟩,
   ⟨.GUEST_MBOX_TOGUEST, 0x1FA0000, [(0x8, 8)]⟩,
   ⟨.GUEST_MBOX_FROMGUEST, 0x1FA0040, [(0x8, 8)]⟩,
   ⟨.GUEST_MBOX_CTL, 0x1FA0080, []⟩,
   ⟨.IOBANK_CFG, 0x2500000, [(0x1000000, 4), (0x1000, 12)]⟩,
   ⟨.IOBANK_STAT, 0x2500008, [(0x1000000, 4), (0x1000, 12)]⟩,
   ⟨.IOBANK_PIN, 0x2500100, [(0x1000000, 4), (0x1000, 12), (0x8, 48)]⟩,
   ⟨.OUTPOST_FLBUF, 0x2E00040, [(0x1000000, 4), (0x8, 8)]⟩,
   ⟨.OUTPOST_UART_DATA, 0x2E00108, [(0x1000000, 4), (0x40, 2)]⟩,
   ⟨.OUTPOST_UART_STAT, 0x2E00110, [(0x1000000, 4), (0x40, 2)]⟩,
   ⟨.OUTPOST_SPI_DATA, 0x2E00208, [(0x1000000, 4)]⟩,
   ⟨.OUTPOST_I2C_CMD, 0x2E00308, [(0x1000000, 4)]⟩,
   ⟨.HSEAM_CTL, 0x2900000, [(0x1000000, 4)]⟩,
   ⟨.HSEAM_STAT, 0x2900008, [(0x1000000, 4)]⟩,
   ⟨.HSEAM_EYESEL, 0x2900010, [(0x1000000, 4)]⟩,
   ⟨.HSEAM_EYE, 0x2900018, [(0x1000000, 4)]⟩,
   ⟨.HSEAM_GRP_STAT, 0x2901008, [(0x1000000, 4), (0x800, 2), (0x10, 64)]⟩]

/-- The register map: every register table of the manual. -/
def regRows : List RegRow :=
  regRows0 ++ regRows1 ++ regRows2 ++ regRows3 ++ regRows4 ++ regRows5 ++ regRows6

/-- The indexes that bring an offset from a table's base to zero, strides falling. -/
def matchDims : List (Nat × Nat) → Nat → Option (List Nat)
  | [], off => if off = 0 then some [] else .none
  | (stride, count) :: r, off =>
    if off / stride < count then (matchDims r (off % stride)).map (off / stride :: ·) else .none

/-- The register at an aligned address, if one stands there. -/
def RegRow.at? (r : RegRow) (addr : Nat) : Option (RegId × List Nat) :=
  if addr < r.base then .none else (matchDims r.dims (addr - r.base)).map fun ix => (r.id, ix)

/-- The first register of a list of tables that stands at an address. -/
def findReg : List RegRow → Nat → Option (RegId × List Nat)
  | [], _ => .none
  | r :: rs, addr => match r.at? addr with
    | some x => some x
    | .none => findReg rs addr

/-- The register at a CSR address (R23): its table and its indexes. -/
def csrAt (addr : Nat) : Option (RegId × List Nat) := findReg regRows addr

/-- The fields of the register at a CSR address; none where no register stands. -/
def fieldsAt (addr : Nat) : List Field :=
  match csrAt addr with
  | some (id, ix) => csrFields id ix
  | .none => []

/-- The reach of the field a field-table number names. -/
def reachOf (id : Nat) : Reach :=
  match (fieldsAt (id / 64)).find? fun f => f.key.lo == id % 64 with
  | some f => f.reach
  | .none => .W

end Sys2Proof.Machine
end

