-- ==== Sys2Proof/Machine/State.lean ====
section
/-!
DEFINITION. The state of the KZ48: the waiting commands, the non-volatile memories, and the device. Register fields
stand in one sparse table (`csr`, and `shadow` for the staged values of ST fields); everything the manual gives the
machine beside its registers has a field of its own. The initial value of every field is its value at the start of the
power-up sequence of R441.
-/
namespace Sys2Proof.Machine

/-- The fault reasons. -/
inductive Fault where
  /-- Raised by nothing: the manual names no event on which the block stops. Safe. -/
  | stopped
  deriving DecidableEq, Repr

/-- Why a command has no meaning. -/
inductive Refusal where
  /-- Raised by the dispatcher for a command that has no meaning yet. Safe. -/
  | notModelled (mnemonic : String)
  deriving DecidableEq, Repr

/-! ### Memory -/

/-- The addressed memories: every stored byte that is not zero, and for every code byte whose stored check bits differ
from the computed ones the difference c4..c0 (R417). A byte of a core's local SRAM stands at `localBase`. -/
structure Mem where
  cells : List Host.Cell := []
  ecc : List (Nat × Nat) := []
  /-- Per memory m of R419: address and core of the last correctable entry logged (R422). -/
  lastCe : List (Nat × (Nat × Nat)) := []
  deriving DecidableEq, Repr

/-! ### Gallery -/

/-- What a Gallery request asks for. -/
inductive GKind where
  | read | write | pwrite
  deriving DecidableEq, Repr

/-- A request on the Gallery that has not reached its target. Data and byte enables are numbers, byte 0 lowest. -/
structure GReq where
  id : Nat
  m : Master
  kind : GKind
  addr : Nat
  size : Nat
  data : Nat := 0
  be : Nat := 0
  /-- The master's own tag. -/
  tag : Nat := 0
  deriving DecidableEq, Repr

/-- A response on its way, or arrived at its master. -/
structure GResp where
  id : Nat
  m : Master
  kind : GKind
  status : Status
  data : Nat := 0
  addr : Nat := 0
  tag : Nat := 0
  deriving DecidableEq, Repr

/-- One router input buffer of one class and channel pair, and the arbitration state of R18. -/
structure Mesh where
  /-- Flits per input buffer, keyed (router * 5 + input) * 6 + pair, oldest first. -/
  bufs : List (Nat × List Flit) := []
  /-- Credits used toward the next hop's buffers, with the same keys. -/
  used : List (Nat × Nat) := []
  /-- The input and pair holding each output until its packet's last flit, keyed router * 5 + output, plus one. -/
  grant : List (Nat × Nat) := []
  /-- The round-robin pointer of each output. -/
  rr : List (Nat × Nat) := []
  /-- Packets ejected at each router, newest first. -/
  out : List (Nat × Flit) := []
  deriving DecidableEq, Repr

/-- The Gallery's traffic in flight. -/
structure Gallery where
  reqs : List GReq := []
  resps : List GResp := []
  arrived : List GResp := []
  /-- Responses to non-posted fence writes that wait for SETTLED, keyed 1024 * die + sector (R306). -/
  fenceAcks : List (Nat × GResp) := []
  nextId : Nat := 0
  mesh : Mesh := {}
  /-- What the last register read by a command of its own returned: master, address and value. -/
  lastRead : Option (Master × Nat × Nat) := none
  deriving DecidableEq, Repr

/-! ### Scheduler and crew -/

/-- An entry of a queue: its ring slot, age, level, times in GRIDTIME, and the ticket it holds, if it took one. -/
structure QEntry where
  slot : Nat
  age : Nat
  level : Nat
  admitted : Nat
  joined : Nat
  ticket : Option Nat
  deriving DecidableEq, Repr

/-- A queue beyond its registers: entries oldest first, tail slot, and reply credits reserved in its ring (R251, R258). -/
structure QState where
  entries : List QEntry := []
  tail : Nat := 0
  res : Nat := 0
  deriving DecidableEq, Repr

/-- A held ticket: the queue that drew it and whether it came from the shared pool (R256). -/
structure Held where
  q : Nat
  shared : Bool
  deriving DecidableEq, Repr

/-- The reply queue of a running item (R258, R265). -/
inductive ReplyState where
  /-- The descriptor names none. -/
  | absent
  /-- It named a queue that was disabled or automatic at dispatch. -/
  | refused
  /-- A credit is reserved. -/
  | credit (q : Nat)
  /-- The first reply was sent. -/
  | used (q : Nat)
  /-- The queue was disabled while the credit was held. -/
  | lost (q : Nat)
  deriving DecidableEq, Repr

/-- A running work item. -/
structure Item where
  q : Nat
  ticket : Option Nat
  w5 : Word
  w6 : Word
  w7 : Word
  reply : ReplyState
  /-- Deadline in GRIDTIME, while it is not yet judged (R264). -/
  deadline : Option Nat
  /-- Lateness already counted as a miss, in 100 ns units. -/
  late : Option Nat := none
  deriving DecidableEq, Repr

/-- A hub load outstanding at a core (R184). -/
structure LoadSlot where
  id : Nat
  rd : Reg
  addr : Nat
  size : Nat
  signed : Bool
  dead : Bool := false
  deriving DecidableEq, Repr

/-- A hub store outstanding at a core. -/
structure StoreSlot where
  id : Nat
  addr : Nat
  /-- It is acknowledged, and waits for an older store to leave the buffer first (R184). -/
  acked : Bool := false
  deriving DecidableEq, Repr

/-- A buffered store of a locked sequence. -/
structure LockStore where
  addr : Nat
  size : Nat
  data : Nat
  deriving DecidableEq, Repr

/-- An open locked sequence (R198 to R200). -/
structure LockSeq where
  executed : Nat := 0
  lines : List Nat := []
  stores : List LockStore := []
  storeCount : Nat := 0
  broken : Bool := false
  /-- The foreman's handler runs, and the sequence neither counts nor restricts it (R200). -/
  suspended : Bool := false
  deriving DecidableEq, Repr

/-- A device operation a core waits for, other than one that ends in its own step (R197, R207). -/
inductive DevOp where
  | frame (d : Die)
  | drain (d : Die)
  | restore (d : Die)
  | waitAll (nets : List Nat)
  | wait (line : Option Nat) (hit : Bool)
  | optwr
  | fuseprog
  deriving DecidableEq, Repr

/-- A device operation in progress: where its result goes; `done` holds a result that waits for the core to resume. -/
structure DevWait where
  op : DevOp
  rd : Reg
  done : Option Word := none
  deriving DecidableEq, Repr

/-- An item that is ending waits for its store acknowledgements with this final record (R192, R213). -/
structure Ending where
  /-- Cause of an abort; 0 for a completion. -/
  cause : Nat
  tval : Word
  value : Nat
  deriving DecidableEq, Repr

/-- A service core beyond its register page. -/
structure CoreSt where
  /-- g1 to g31; g0 is never listed (R170). -/
  regs : List (Nat × Word) := []
  pc : Word := 0
  /-- The foreman fetches: started and not stopped by a double trap (R193). -/
  fetching : Bool := false
  item : Option Item := none
  ending : Option Ending := none
  loads : List LoadSlot := []
  stores : List StoreSlot := []
  /-- An error response that has not yet trapped: cause and address (R191). -/
  pendErr : Option (Nat × Nat) := none
  lock : Option LockSeq := none
  /-- A LOCK waits for the priority reservation (R202). -/
  lockWait : Bool := false
  dev : Option DevWait := none
  /-- A single step is in progress (R477). -/
  stepping : Bool := false
  /-- The next instruction issues without a breakpoint check (R478). -/
  skipBp : Bool := false
  /-- The halt belongs to no session (R480). -/
  bootHalted : Bool := false
  /-- Line addresses in the instruction cache, most recently filled first (R174). -/
  icache : List Nat := []
  /-- GRIDTIME since which the core is idle. -/
  idleSince : Nat := 0
  /-- GRIDTIME at which a foreman frame engine claim outside an item began, through its die. -/
  claim : Option Die := none
  deriving DecidableEq, Repr

/-- A write to hub SRAM by a hub block or a device operation that waits for the priority reservation of a line (R202): the
writing core, if a core writes, and given check bits in the test mode of R429. -/
structure HeldWrite where
  who : Option Nat
  addr : Nat
  size : Nat
  data : Nat
  be : Nat
  chk : Option Nat := none
  deriving DecidableEq, Repr

/-- The scheduler beyond its registers. -/
structure Sched where
  queues : List (Nat × QState) := []
  held : List (Nat × Option Held) := []
  gens : List (Nat × Nat) := []
  age : Nat := 0
  /-- Deadlines of entries and items are found in them; deliveries in flight at fabric ports: queue and its entry's age. -/
  delivering : List (Nat × Nat) := []
  /-- Credit copies of the fabric ports, keyed (die * 8 + port) * 16384 + queue (R252). -/
  copies : List (Nat × Nat) := []
  /-- Doorbells the scheduler returned to their port, oldest first (R252). -/
  refused : List GReq := []
  /-- Cores waiting for the priority reservation, first come first (R202). -/
  prioQueue : List Nat := []
  /-- Writes the hub SRAM holds back for the priority reservation, oldest first (R202). -/
  heldWrites : List HeldWrite := []
  deriving DecidableEq, Repr

/-! ### Clocks -/

/-- Phase of a fabric PLL (R100, R101, R111). -/
inductive PllPhase where
  | stopped | acquiring | locked | freeRunning
  deriving DecidableEq, Repr

/-- Phase of a network's glitch-free switch (R105). -/
inductive SwPhase where
  | idle | waitOld | parked
  deriving DecidableEq, Repr

/-- A user clock network beyond its registers. -/
structure NetSt where
  sw : SwPhase := .idle
  /-- Source code of the input the switch last passed. -/
  cur : Nat := 0
  /-- Input the switch in progress goes to. -/
  target : Nat := 0
  /-- Value last presented at the fabric select input. -/
  fsel : Bool := false
  /-- Value last presented at the fabric enable. -/
  fen : Bool := false
  /-- The network is in a high phase: its last edge was a rising one. -/
  high : Bool := false
  /-- The hub gate was commanded to close and waits for a falling edge (R106). -/
  closing : Bool := false
  /-- Live stake counter (R108), and its latched copy (R109). -/
  stake : Nat := 0
  latched : Nat := 0
  deriving DecidableEq, Repr

/-- The crystal qualifier and the clock state beyond the registers (R90 to R92, R515). -/
structure Clk where
  /-- The qualifier counts windows. -/
  counting : Bool := false
  /-- A run reached eight windows. -/
  stable : Bool := false
  /-- Count of the first window of the current run. -/
  first : Nat := 0
  /-- The last monitor window was far from REFCNT. -/
  far : Bool := false
  /-- Upper half of GRIDTIME latched by a read of the lower half. -/
  gridUpper : Nat := 0
  /-- Phases of the PLLs, keyed die * 16 + i. -/
  plls : List (Nat × PllPhase) := []
  /-- Networks, keyed die * 64 + m. -/
  nets : List (Nat × NetSt) := []
  deriving DecidableEq, Repr

/-! ### Seams -/

/-- A physical lane of a seam at its receiver. -/
structure LaneSt where
  margin : Nat := 0
  minMargin : Nat := 63
  errs : Nat := 0
  /-- The receiver lost lock since the seam trained. -/
  noLock : Bool := false
  /-- Consecutive measurements below EYESWAP (R136). -/
  below : Nat := 0
  /-- An EYEWARN event was posted and the margin has not yet recovered. -/
  warned : Bool := false
  /-- Out of service until the seam next trains. -/
  failed : Bool := false
  deriving DecidableEq, Repr

/-- A message of the link manager to both ends of a seam (R133): the seed base of the scramblers; the live-group masks and the
lanes the spares replace, with their CRC-16; or the word to enter LIVE. -/
inductive SeamMsg where
  | train (seedBase : Nat)
  | map (body : List Byte) (crc : Nat)
  | go
  deriving DecidableEq, Repr

/-- A seam beyond its registers. Masks have one bit per group. -/
structure SeamSt where
  /-- Lanes, keyed dir * 2304 + 17 * g + lane. -/
  lanes : List (Nat × LaneSt) := []
  /-- Lane reports received, per direction: the pass bits of its physical lanes (R133). -/
  report0 : Option Nat := none
  report1 : Option Nat := none
  /-- MACKs that matched: owner's end, far end. -/
  mackOwner : Bool := false
  mackFar : Bool := false
  attempts : Nat := 0
  /-- Stage of the training that REJOIN runs, coded as in R132: 1 RESET to 4 MAP, and 5 once the new map stands. -/
  phase : Nat := 0
  /-- The message last sent to the seam's ends, and the seed base of TRAIN (R113, R133). -/
  msg : Option SeamMsg := none
  seedBase : Nat := 0
  /-- Recorded live-group maps of the two directions (R135). -/
  map0 : Nat := 0
  map1 : Nat := 0
  /-- Groups whose spare swap is in progress, keyed dir * 128 + g, with the lane replaced. -/
  swaps : List (Nat × Nat) := []
  /-- Lanes whose slots present their last good value until the spare switch completes, keyed as lanes (R138). -/
  frozen : List Nat := []
  /-- The retired set grew, and a plan is to be selected (R142). -/
  planDue : Bool := false
  /-- A map is recorded: the receivers locked at the last training. -/
  trained : Bool := false
  /-- DELTA recorded at alignment, keyed dir * 16 + b, plus one (R124). -/
  deltas : List (Nat × Nat) := []
  /-- Degrade plans carried by the image, four words each (R141). -/
  plans : List (List Nat) := []
  /-- The plan applied, and the retired groups of the two directions it was applied to (R143). -/
  plan : Option (List Nat) := none
  ret0 : Nat := 0
  ret1 : Nat := 0
  /-- Samples of packed groups on their way, keyed dir * 128 + g: the transmit edge and the slots' values (R120). -/
  sent : List (Nat × List (Nat × Nat)) := []
  /-- Values the receive slots of a group presented last while live, with the same keys (R116). -/
  shown : List (Nat × Nat) := []
  /-- Edges of RXNET for which a binding still presents FENCE values after a restore, keyed dir * 16 + b: 2 while it waits for
  CLKRUN and then fewer (R166). -/
  mute : List (Nat × Nat) := []
  deriving DecidableEq, Repr

/-- A packed domain: device-wide numbers 64n + m of the networks the link manager halted (R125, R126). -/
structure PdomSt where
  closed : List Nat := []
  deriving DecidableEq, Repr

/-- The link manager. -/
structure SeamUnit where
  seams : List (Nat × SeamSt) := []
  pdoms : List (Nat × PdomSt) := []
  deriving DecidableEq, Repr

/-! ### Fabric dies -/

/-- The record of a capture from its acceptance on (R152 to R160). Masks have one bit per network or sector. -/
structure Capture where
  slot : Nat
  capid : Nat
  origin : Nat
  profile : Nat
  source : Nat
  ttime : Nat
  nets : Nat
  halted : Nat := 0
  missing : Nat := 0
  fenced : Nat := 0
  /-- Die digest in force at arrival. -/
  assay : Nat := 0
  /-- Networks whose capture edge is still awaited. -/
  waiting : Nat := 0
  /-- STAKE and EDGEDLY by network. -/
  stake : List (Nat × Nat) := []
  edge : List (Nat × Nat) := []
  deriving DecidableEq, Repr

/-- What the strata engine of a die is doing. -/
inductive StrataOp where
  | none
  | capture (c : Capture)
  | drain (c : Capture)
  /-- Deep drain of a slot to a destination, and the mask frames read so far. -/
  | deep (slot dest pos : Nat)
  /-- Restore: slot, mask, DEEP, the mask frames written so far, and whether one read with POISON. -/
  | restore (slot mask : Nat) (deep : Bool) (pos : Nat) (bad : Bool)
  deriving DecidableEq, Repr

/-- The streaming state of a frame engine (R214, R215). -/
structure FrameEng where
  claim : Option Nat := none
  pointer : Nat := 0
  /-- A streaming operation whose result is not yet written: core and result word. -/
  op : Option (Nat × Nat) := none
  deriving DecidableEq, Repr

/-- The scrubber and the Assay unit of a die beyond their registers (R311 to R323). -/
structure Scrub where
  /-- Spine repairs requested, oldest first: column, spine, and rows of the drivers enabled at the contention (R85). -/
  repairs : List (Nat × Nat × Nat) := []
  /-- Spines left disabled until a reload: column, spine, and rows of the drivers enabled at the contention (R86). -/
  down : List (Nat × Nat × Nat) := []
  /-- A lift or load happened since the pass began, so its end does not make the die digest ready (R323). -/
  stale : Bool := false
  /-- Frames received from the current sector in this pass, newest first (R318). -/
  acc : List Nat := []
  /-- Live sector digests, their epochs, and the sectors that have one ready. -/
  secDig : List (Nat × Nat) := []
  secEpoch : List (Nat × Nat) := []
  secReady : List Nat := []
  /-- A complete pass ended and its die digest is to be computed; true when that makes the digest ready (R319, R323). -/
  passDone : Option Bool := none
  deriving DecidableEq, Repr

/-- An operation of the user flash (R64). -/
inductive FlashOp where
  | read | program | erase
  deriving DecidableEq, Repr

/-- The outpost of a die beyond its registers (R63, R64): FIFOs oldest first, with UARTs keyed 0 and 1. -/
structure Outpost where
  uartTx0 : List Byte := []
  uartTx1 : List Byte := []
  uartRx0 : List Byte := []
  uartRx1 : List Byte := []
  spiTx : List Byte := []
  spiRx : List Byte := []
  i2cRx : List Byte := []
  /-- The action written to I2C.CMD that the bus has not finished. -/
  i2cCmd : Option Nat := none
  /-- The block answers as the target another controller addressed (R65). -/
  i2cTarget : Bool := false
  flash : Option (FlashOp × Nat) := none
  /-- An operation was cut short by a reset: FLSTAT reports it at the next die start. -/
  cut : Bool := false
  deriving DecidableEq, Repr

/-- A fabric port beyond its registers (R29 to R34). -/
structure FPort where
  /-- Outbound tags held, with the number of the request each waits for. -/
  outTags : List (Nat × Nat) := []
  /-- Posted writes the hub has not yet accepted into the ordering buffer, oldest first; the tag is in the request. -/
  waiting : List GReq := []
  /-- Numbers of the posted writes not yet performed, accepted or not. -/
  posted : List Nat := []
  /-- Flush requests: tag, and the posted writes they wait for. -/
  flushes : List (Nat × List Nat) := []
  /-- Inbound transactions outstanding: tag and the request to answer. -/
  inTags : List (Nat × GReq) := []
  nextIn : Nat := 0
  /-- The response last delivered to the design: tag, status, data. -/
  lastOut : Option (Nat × Status × Nat) := none
  deriving DecidableEq, Repr

/-- A response of a sector port: data, POISON, RINGERR. -/
structure SecResp where
  data : Nat
  poison : Bool
  ringerr : Bool
  /-- It answers a read. -/
  read : Bool
  deriving DecidableEq, Repr

/-- A request of a design in the queue of its sector port (R60): write or read, beat address, data and byte enables. -/
structure SecReq where
  wr : Bool
  beat : Nat
  data : Nat
  be : Nat
  deriving DecidableEq, Repr

/-- The output registers of a block RAM port: what the array last gave, the register of OREG = 1, and reads on their way up a
cascade, newest first (R53, R54). -/
structure RamPort where
  latch : Nat := 0
  reg : Nat := 0
  pipe : List Nat := []
  deriving DecidableEq, Repr

/-- The registers of a block RAM: its two ports. -/
structure RamSt where
  a : RamPort := {}
  b : RamPort := {}
  deriving DecidableEq, Repr

/-- A fabric die beyond its registers, its clocks and its seams. -/
structure DieSt where
  /-- Configuration frames, keyed 1024 * sector + frame: 4,096 data bits each (R82). -/
  frames : List (Nat × Nat) := []
  /-- Frames whose stored code is in error: 1 one bit, 2 uncorrectable. -/
  frameErr : List (Nat × Nat) := []
  /-- Mirror of the spine enables, 48 bits per sector (R83). -/
  mirror : List (Nat × Nat) := []
  /-- Device set-reset is held: the die is not released (R44, R286). -/
  setReset : Bool := true
  /-- Flip-flop values and shadow bits, 131,072 per sector, indexed as in R158. -/
  ff : List (Nat × Nat) := []
  shadow : List (Nat × Nat) := []
  /-- Flip-flops of the networks in the capture set of the capture in progress (R154), per sector. -/
  captured : List (Nat × Nat) := []
  /-- Registers of the block RAMs and the arithmetic blocks, keyed 16 * sector + block (R53, R56). Contents of LUT-RAM, shift
  registers and block RAM stand in the frames (R48). -/
  rams : List (Nat × RamSt) := []
  ariths : List (Nat × ArithSt) := []
  /-- Wires leaving a fenced sector that were 1 when its fence closed (R304). -/
  held : List (Nat × List Wire) := []
  /-- Networks whose tap gate in a sector still stands the other way while the fence closes or is lifted: open, or closed,
  until the network's next falling edge (R306, R307). -/
  taps : List (Nat × Nat) := []
  strata : StrataOp := .none
  /-- TTIME of the last accepted trigger. -/
  lastTtime : Option Nat := none
  eng : FrameEng := {}
  scrub : Scrub := {}
  /-- Intended die digest (R322), and whether one is set. -/
  intended : Option Nat := none
  out : Outpost := {}
  fports : List (Nat × FPort) := []
  /-- Sector port requests not yet performed, oldest first, and the sector whose turn it is (R60, R61). -/
  secReqs : List (Nat × List SecReq) := []
  secTurn : Nat := 0
  /-- Sector port responses on their way to the design, oldest first, and the one last delivered. -/
  secResps : List (Nat × List SecResp) := []
  secLast : List (Nat × Option SecResp) := []
  /-- Last access of the outpost's design port: read data and ERR. -/
  portData : Nat := 0
  portErr : Bool := false
  deriving DecidableEq, Repr

/-- A trigger registered at the hub and still on its way to some dies (R151). -/
structure Trigger where
  ttime : Nat
  source : Nat
  origin : Nat
  profile : Nat
  dies : Nat
  capid : Option Nat
  master : Nat
  deriving DecidableEq, Repr

/-- The hub's side of the strata. -/
structure StrataHub where
  nextCapid : Nat := 0
  inFlight : List Trigger := []
  /-- Times TRIG_OUT[n] was pulsed, by die. -/
  pulses : List (Nat × Nat) := []
  deriving DecidableEq, Repr

/-- The hub's side of the Assay (R320 to R322): the intended digests, and the recomputations that are due. -/
structure AssaySt where
  intDev : Option Nat := none
  intHub : Option Nat := none
  hubDue : Bool := false
  devDue : Bool := false
  deriving DecidableEq, Repr

/-! ### Keys, images and load ports -/

/-- The key store (R224): 256-bit keys; no command reads one. Slots of regions and links are keyed by their index. -/
structure KeyStore where
  image : Option Nat := none
  ciphCur : List (Nat × Option Nat) := []
  ciphPend : List (Nat × Option Nat) := []
  linkCur : List (Nat × Option Nat) := []
  linkPend : List (Nat × Option Nat) := []
  deriving DecidableEq, Repr

/-- Where an image comes from (HUB.CFG.LOAD.SRC). -/
inductive LoadSrc where
  /-- Host bus address, through the PF. -/
  | host (addr : Nat)
  /-- Hub address in hub SRAM or DRAM. -/
  | hub (addr : Nat)
  | plp | slp
  /-- Boot flash at an address: the primary or the golden image. -/
  | boot (addr : Nat) (golden : Bool)
  deriving DecidableEq, Repr

/-- A directory entry (R273), with its first 16 bytes for the additional authenticated data of R276. -/
structure DirEnt where
  len : Nat
  faddr : Nat
  frames : Bool
  offset : Nat
  hash : Nat
  tag : Nat
  head : Nat
  deriving DecidableEq, Repr

/-- The Legend fields a load uses after its checks (R269). -/
structure Legend where
  verify : Bool
  wrapped : Bool
  dieMask : Nat
  kind : Nat
  imageId : Nat
  entry : Nat
  assayD : List Nat
  assayDev : Nat
  assayHub : Nat
  runnets : List Nat
  plans : List (List (List Nat))
  dir : List DirEnt
  deriving DecidableEq, Repr

/-- A load in progress (R277 to R299). -/
structure Load where
  src : LoadSrc
  /-- Reply queue of the Q0 entry, if it named one. -/
  reply : Option Nat := none
  legend : Option Legend := none
  /-- Next segment to complete. -/
  seg : Nat := 0
  /-- Dies of which the load wrote frames under device set-reset. -/
  wrote : Nat := 0
  /-- Sectors of released dies the load fenced: die * 192 + sector, and those it lifted again. -/
  fenced : List Nat := []
  lifted : List Nat := []
  /-- Program bytes laid into the workspace so far. -/
  progLen : Nat := 0
  /-- Return address of the image program. -/
  ret : Word := 0
  /-- KIND read from the Legend; 0 before it is read. -/
  kind : Nat := 0
  /-- Failure code, DETAIL, segment and frame, once the load goes to CLEAR. -/
  fail : Option (Nat × Nat × Nat × Nat) := none
  /-- Primary failure code of a golden load. -/
  primary : Option Nat := none
  deriving DecidableEq, Repr

/-- A load port (R289 to R291): the image bytes it took, and whether its Q0 entry is posted or taken up. -/
structure LoadPort where
  active : Bool := false
  bytes : List Byte := []
  posted : Bool := false
  taken : Bool := false
  /-- Image bytes a load has used up. -/
  used : Nat := 0
  /-- Bytes of a serial WRITE found no space (R291). -/
  overrun : Bool := false
  deriving DecidableEq, Repr

/-- The loader, the load ports and the commit unit. -/
structure Loader where
  load : Option Load := none
  plp : LoadPort := {}
  slp : LoadPort := {}
  /-- Bytes of the current load read from the boot flash, or taken over from a load port that has seen the image's end. -/
  boot : List Byte := []
  /-- Load-port entries posted to Q0 and not yet taken, oldest first: true for the parallel port. -/
  portQueue : List Bool := []
  /-- Commit groups whose settings apply when their operation ends, oldest first (R301). -/
  deferred : List Nat := []
  /-- The status byte last driven on the quad serial port. -/
  slpStatus : Nat := 0
  deriving DecidableEq, Repr

/-- Pins the hub drives. -/
structure Pins where
  done : Bool := false
  /-- CFG_ERR_N is low. -/
  cfgErr : Bool := false
  deriving DecidableEq, Repr

/-! ### Host link -/

/-- A PCI Express function beyond its registers (R329 to R339). MSI-X table entries are 128-bit numbers; an unlisted
entry has its mask bit, bit 96, set and is otherwise 0. -/
structure FuncSt where
  busMaster : Bool := false
  memSpace : Bool := false
  msixEn : Bool := false
  /-- The function mask of its MSI-X capability. -/
  msixMask : Bool := false
  /-- COUNT is treated as 0 after a range conflict, until the next write to FUNCf.MSIX (R338). -/
  conflict : Bool := false
  table : List (Nat × Nat) := []
  /-- Pending bits. -/
  pend : List Nat := []
  deriving DecidableEq, Repr

/-- A host-bound non-posted request: its number, function, and the request it answers; none for the loader's reads. -/
structure HostReq where
  id : Nat
  f : Nat
  q : Option GReq
  deriving DecidableEq, Repr

/-- A message or posted write that waits for the link (R345). -/
inductive HostMsg where
  | msix (f vec : Nat)
  | write (f addr size data be : Nat)
  deriving DecidableEq, Repr

/-- The completion status of a PCI Express completion: Successful Completion, Unsupported Request, Completer Abort (R25). -/
inductive Completion where
  | sc | ur | ca
  deriving DecidableEq, Repr

/-- The PCI Express controller. -/
structure Pcie where
  funcs : List (Nat × FuncSt) := []
  reqs : List HostReq := []
  waiting : List HostMsg := []
  /-- log2 of the size of PF BAR4 (R331, R334). -/
  barLog : Nat := 36
  /-- Entries written in the delivery batch of each queue (R337). -/
  batch : List (Nat × Nat) := []
  /-- Configuration requests are answered (R341). -/
  ready : Bool := false
  /-- What the controller last sent: a message (function and vector), a write (host address, size, data, byte enables), and
  the completions last returned, in order: tag, its status, the poisoned bit and its data. -/
  lastMsix : Option (Nat × Nat) := none
  lastWrite : Option (Nat × Nat × Nat × Nat) := none
  lastCpl : List (Nat × Completion × Bool × Nat) := []
  /-- Pieces of host reads not yet answered: request numbers in address order (R328). -/
  reads : List (List Nat) := []
  /-- Reads of the window aperture that wait for the debug bus master: host tag. -/
  winRead : Option Nat := none
  deriving DecidableEq, Repr

/-! ### Bortik links -/

/-- A doorbell sent over a link and not yet acknowledged: SEQ, own queue, ring slot, partner's queue. -/
structure SentBell where
  seq : Nat
  q : Nat
  slot : Nat
  dest : Nat
  deriving DecidableEq, Repr

/-- What is known of a partner's queue: its announced CRED and ADMITTED, and doorbells sent to it (R367). -/
structure Announced where
  cred : Nat := 0
  admitted : Nat := 0
  sent : Nat := 0
  deriving DecidableEq, Repr

/-- A Bortik link beyond its registers (R355 to R376). -/
structure LinkSt where
  /-- The partner's serial number as recorded at the last bring-up. -/
  partner : Option Word := none
  /-- Nonces of this bring-up: own and the partner's. -/
  nonce : Nat := 0
  nonceIn : Nat := 0
  /-- Step now climbed to. -/
  climb : Nat := 0
  agreed : Nat := 0
  /-- The records of the last connection stand, and its sequence may be resumed (R368). -/
  keep : Bool := false
  resume : Bool := false
  lastIn : Nat := 65535
  lastInTheirs : Nat := 65535
  nextOut : Nat := 0
  unacked : List SentBell := []
  /-- Admissions made to each own queue from this link, modulo 2^16. -/
  admitted : List (Nat × Nat) := []
  known : List (Nat × Option Announced) := []
  /-- Own queues announced to the partner: the CRED last sent, plus one. -/
  told : List (Nat × Nat) := []
  /-- Consecutive tag failures (R365). -/
  fails : Nat := 0
  /-- Session keys of the sending and the receiving direction, and the receiving epoch (R363, R364). -/
  keyOut : Option Nat := none
  keyIn : Option Nat := none
  epochIn : Nat := 0
  /-- Sealed blocks sent and received under the current keys (R362, R364). -/
  countOut : Nat := 0
  countIn : Nat := 0
  /-- KEYSWITCH outstanding: its NEWBASE; and a KROLL that waits behind it. -/
  switchOut : Option Bool := none
  switchIn : Option Bool := none
  rollDue : Bool := false
  /-- Lanes that lost lock since less than 10 µs. -/
  lost : List Nat := []
  beaconLost : Bool := false
  /-- The remote seam channel is held. -/
  rscHeld : Bool := false
  /-- RSCMARK received: v0, K, W and KMIN of the partner's direction. -/
  rscMark : Option (Nat × Nat × Nat × Nat) := none
  /-- RXNET's edge r0, once every block of cycle v0 was in the buffer (R372); and whether this end has sent its RSCMARK. -/
  rscR0 : Option Nat := none
  rscTold : Bool := false
  /-- DELTA recorded at the last alignment, plus one. -/
  rscDelta : Nat := 0
  /-- Slots last received, keyed 32 * cycle + index. -/
  rscBuf : List (Nat × Nat) := []
  /-- What the receive slots presented last while the channel was aligned, bit s slot s (R372). -/
  rscShown : Nat := 0
  /-- The edge of TXNET last sampled, and its slots (R372). -/
  rscSent : Option (Nat × Nat) := none
  /-- Edges of RXNET for which the receive slots still present FENCE after a restore (R377). -/
  rscMute : Nat := 0
  /-- The block last sent to the partner, of those the device decides to send. -/
  sentBlock : Option BBlock := none
  deriving DecidableEq, Repr

/-- The lane and link controllers. -/
structure Bortik where
  links : List (Nat × LinkSt) := []
  /-- Lanes with a MARGIN event posted and not yet recovered (R360). -/
  warned : List Nat := []
  /-- Lanes powered down in A2 (R377). -/
  asleep : Bool := false
  deriving DecidableEq, Repr

/-! ### DRAM -/

/-- The DDR controllers and the cipher beyond their registers. -/
structure Dram where
  /-- Requests at the channels, in order of arrival. -/
  queue : List GReq := []
  /-- Lines known to be uncorrectable, by line number of the DRAM offset (R396). -/
  bad : List Nat := []
  /-- Activate tables (R389), keyed by channel, rank, subchannel and bank; entries are row and count. -/
  tables : List (Nat × List (Nat × Nat)) := []
  /-- Line of the last correctable entry logged per channel, plus one. -/
  lastCe : List (Nat × Nat) := []
  /-- Lanes with a MARGIN event posted and not yet recovered, and the rotation of the audit. -/
  warned : List Nat := []
  auditPos : List (Nat × Nat) := []
  /-- Channels trained since the last cold reset (R391). -/
  trained : Nat := 0
  /-- Fallback refreshes of the interval still to be issued: keyed channel * 4 + rank, mask of bank indexes. -/
  sbDue : List (Nat × Nat) := []
  /-- Write DQS delays as moved by R392, keyed channel, rank, lane; offset by 2^15. -/
  dqs : List (Nat × Nat) := []
  /-- Counter blocks in the cache, most recently used first: 2^27 * region + page (R406). -/
  cache : List Nat := []
  /-- Pages whose counters are lost (R414), with the same numbers. -/
  poisoned : List Nat := []
  /-- Regions for which MAJORNEAR was posted. -/
  near : List Nat := []
  /-- Pages that refuse writes since their MAJOR reached its end (R413), numbered as in the cache. -/
  ended : List Nat := []
  deriving DecidableEq, Repr

/-! ### Reset, power, guest and debug -/

/-- Where a reset sequence stands (R437, R441). -/
inductive BootPhase where
  /-- A core rail is not good. -/
  | rails
  | fuses
  | options
  /-- Crystal qualification. -/
  | crystal
  /-- The survey PLL locks. -/
  | pll
  /-- ECC fill; or the frames and seams of a warm reset. -/
  | fill
  /-- The foreman may start. -/
  | start
  | running
  deriving DecidableEq, Repr

/-- The reset controller beyond its registers. -/
structure RstSt where
  phase : BootPhase := .fuses
  /-- The sequence in progress is that of a warm reset. -/
  warm : Bool := false
  /-- A requested reset that has not started: true for cold (R434). -/
  request : Option Bool := none
  /-- RESET_N, PERST_N are low. -/
  pinLow : Bool := false
  perstLow : Bool := false
  /-- Fuse shadow, and whether it applies (R443). -/
  sensed : Bool := false
  fuses : List (Nat × Nat) := []
  /-- A thermal trip holds the sequence (R464). -/
  thermHold : Bool := false
  /-- Entries to be logged once the foreman starts: kind, ADDR, DATA (R445, R448). -/
  toLog : List (Nat × Nat × Nat) := []
  /-- Dies in die reset whose frames have been zeroed. -/
  zeroed : Nat := 0
  /-- LOADERR is ABORTED when the hub restarts. -/
  aborted : Bool := false
  /-- Die resets requested and not yet begun: 0b001 RSTREQ or 0b010 Adit, 3 bits a die. -/
  dieReq : Nat := 0
  /-- An option write in progress (true for copy B, and the image), and a fuse operation in progress (word and bits). -/
  optImage : Option (Bool × Nat) := none
  fuseOp : Option (Nat × Nat) := none
  deriving DecidableEq, Repr

/-- Steps of A3 entry and exit (R457, R459). -/
inductive A3Phase where
  | out
  /-- Entry steps 1 to 3 done, VRET_N low, VCCINT not yet down. -/
  | falling
  /-- In A3. -/
  | inside
  /-- Exit has begun: VRET_N high, VCCINT rising; or the PLLs restart. -/
  | rising
  | locking
  deriving DecidableEq, Repr

/-- The power controller beyond its registers. -/
structure Pwr where
  /-- The device is entering A3: triggers and CLKRUN are refused (R457 step 1). -/
  entering : Bool := false
  a3 : A3Phase := .out
  /-- Networks A3 entry closed, as 64n + m, and PLLs it stopped, as 16n + i. -/
  closed : List Nat := []
  stopped : List Nat := []
  /-- Networks halted under R463, per die. -/
  thermal : List (Nat × List Nat) := []
  /-- Failed sensors, by die and index: 256 * die + sensor (R460). -/
  failed : List Nat := []
  /-- Sensors whose last sample was at or above 110 °C. -/
  hot : List Nat := []
  /-- Last temperature of every die in quarter degrees, offset by 2^15. -/
  temps : List (Nat × Nat) := []
  /-- AVCC_LANE and AVTT_LANE are good. -/
  lanesGood : Bool := true
  /-- User I/O banks with good VCCIO, and banks committed at least once; bit b (R510). -/
  vccio : Nat := 0
  banked : Nat := 0
  deriving DecidableEq, Repr

/-- A guest transaction at the firewall. -/
structure GuestTx where
  kind : GKind
  fetch : Bool
  tag : Nat
  addr : Nat
  size : Nat
  data : Nat
  deriving DecidableEq, Repr

/-- The guest site beyond its registers. -/
structure Guest where
  /-- Tokens in units of 1/800 byte (R491). -/
  tokens : Nat := 0
  waiting : List GuestTx := []
  /-- Violations in the current 1 ms window, and ticks left in it. -/
  window : Nat := 0
  windowEnd : Nat := 0
  warned : Bool := false
  /-- CTL.GRST was written 1, and then 0, during the trip hold (R496). -/
  sawOne : Bool := false
  sawZero : Bool := false
  /-- Deliveries that wait for the guest's credit: queue and ring slot, oldest first. -/
  sent : List (Nat × Nat) := []
  lastResp : Option (Nat × Status × Nat) := none
  /-- Tags of the non-posted transactions not yet answered (R489). -/
  tags : List Nat := []
  /-- The delivery last sent: guest address and data. -/
  lastWrite : Option (Nat × Nat) := none
  /-- GRST_N is high. -/
  running : Bool := false
  deriving DecidableEq, Repr

/-- The TAP and the debug bus master beyond their registers. -/
structure Debug where
  /-- The selected TAP instruction. -/
  ir : Nat := 2
  /-- The value kept by the last ACCESS read (R470). -/
  kept : Nat := 0
  /-- Update stage of the boundary register (R469). -/
  boundary : Nat := 0
  /-- The bus transaction outstanding: request number. -/
  bus : Option Nat := none
  /-- It came from the window aperture: completions return to the host. -/
  fromWindow : Bool := false
  /-- Aperture accesses that wait for the transaction outstanding, oldest first: a write, its offset, size and data, and the
  host's tag (R471). -/
  apertures : List (Bool × Nat × Nat × Nat × Nat) := []
  /-- Canary ticks towards the next microsecond. -/
  canTick : Nat := 0
  deriving DecidableEq, Repr

/-! ### The whole -/

/-- A copy of the option flash: its 256 bytes as a number, byte 0 lowest, and its write counter (R444). -/
structure OptCopy where
  image : Nat := 0
  writes : Nat := 0
  deriving DecidableEq, Repr

/-- The memories that keep their contents through every reset and without power. -/
structure NonVol where
  /-- The 128 fuse words. At shipment word 126 locks words 0 to 3, 15 and 19 (R442). -/
  fuses : List (Nat × Nat) := [(126, 0x8800F)]
  optA : OptCopy := {}
  optB : OptCopy := {}
  /-- User flash lines of the outposts, keyed die * 8192 + line; an unlisted line is erased, all ones. -/
  flash : List (Nat × Nat) := []
  deriving DecidableEq, Repr

/-- The device. -/
structure Hw where
  /-- Register fields whose value differs from their reset value, keyed by `Key.id`. -/
  csr : List (Nat × Nat) := []
  /-- Staged shadows of ST fields that differ from the reset value (R8). -/
  shadow : List (Nat × Nat) := []
  mem : Mem := {}
  gal : Gallery := {}
  sched : Sched := {}
  cores : List (Nat × CoreSt) := []
  clk : Clk := {}
  seam : SeamUnit := {}
  /-- The fabric dies. -/
  dies : List (Nat × DieSt) := []
  strata : StrataHub := {}
  assay : AssaySt := {}
  keys : KeyStore := {}
  ldr : Loader := {}
  pins : Pins := {}
  pcie : Pcie := {}
  bortik : Bortik := {}
  dram : Dram := {}
  rst : RstSt := {}
  pwr : Pwr := {}
  guest : Guest := {}
  dbg : Debug := {}
  /-- Free values drawn so far: the n-th draw is `Config.freeValue n`. -/
  freeCtr : Nat := 0
  /-- Erase counts of the user flash, keyed die * 128 + page; no reset restores them (R64). -/
  ecount : List (Nat × Nat) := []
  deriving DecidableEq, Repr

/-- The state of the block. -/
structure State where
  /-- The commands that wait, first in, first out. -/
  pending : List Instr
  /-- Fuses, option flash and outpost flash. -/
  nv : NonVol
  /-- Everything else. -/
  hw : Hw
  deriving DecidableEq, Repr

/-- The state when the power-on reset is released, at the start of the sequence of R441. -/
def State.reset : State := ⟨[], {}, { csr := [(K.RST_CAUSE_POR.id, 1)] }⟩

end Sys2Proof.Machine
end

