-- ==== Sys2Proof/Machine/Ops.lean ====
section
/-!
DEFINITION. The named operations on registers and memory: reading and writing a register field, drawing a free value,
the code byte of R417, the addressed memories of R22 and R173, and writing an entry of the error log (R426).
-/
namespace Sys2Proof.Machine

/-! ### Register fields -/
namespace Hw

/-- The value of a register field. -/
def rd (h : Hw) (k : Key) : Nat := SMap.get h.csr k.id k.rst
/-- A one-bit field. -/
def bit (h : Hw) (k : Key) : Bool := h.rd k != 0
/-- Write a register field. -/
def wr (h : Hw) (k : Key) (v : Nat) : Hw := { h with csr := SMap.set h.csr k.id (v % 2 ^ k.w) k.rst }
/-- Write a one-bit field. -/
def wrB (h : Hw) (k : Key) (b : Bool) : Hw := h.wr k (b2n b)
/-- Add to a counter that saturates at the top of its field. -/
def addSat (h : Hw) (k : Key) (n : Nat) : Hw := h.wr k (satAdd k.w (h.rd k) n)
/-- Count one, saturating. -/
def cnt (h : Hw) (k : Key) : Hw := h.addSat k 1
/-- The staged shadow of an ST field. -/
def sh (h : Hw) (k : Key) : Nat := SMap.get h.shadow k.id k.rst
/-- Write the staged shadow of an ST field. -/
def wrSh (h : Hw) (k : Key) (v : Nat) : Hw := { h with shadow := SMap.set h.shadow k.id (v % 2 ^ k.w) k.rst }
/-- Write a field and its shadow together, as a commit or a clamp at a commit does. -/
def wrBoth (h : Hw) (k : Key) (v : Nat) : Hw := (h.wr k v).wrSh k v
/-- GRIDTIME. -/
def now (h : Hw) : Nat := h.rd K.CLK_GRIDTIME_TIME
/-- A fresh free value, and the state in which it is spent. -/
def draw (h : Hw) : Nat × Hw := (Config.freeValue h.freeCtr, { h with freeCtr := h.freeCtr + 1 })
/-- The service core c. -/
def core (h : Hw) (c : Nat) : CoreSt := SMap.get h.cores c {}
/-- Replace the service core c. -/
def setCore (h : Hw) (c : Nat) (x : CoreSt) : Hw := { h with cores := SMap.set h.cores c x {} }
/-- Change the service core c. -/
def onCore (h : Hw) (c : Nat) (f : CoreSt → CoreSt) : Hw := h.setCore c (f (h.core c))
/-- The queue q beyond its registers. -/
def queue (h : Hw) (q : Nat) : QState := SMap.get h.sched.queues q {}
/-- Replace the queue q. -/
def setQueue (h : Hw) (q : Nat) (x : QState) : Hw :=
  { h with sched := { h.sched with queues := SMap.set h.sched.queues q x {} } }

end Hw

/-- Change the device and nothing else. -/
def State.onHw (s : State) (f : Hw → Hw) : State := { s with hw := f s.hw }
/-- The outcome of a command that changes the device only. -/
def doHw (s : State) (f : Hw → Hw) : Host.Outcome State Fault Refusal := .next (s.onHw f)

/-- The code of a master in a descriptor's SOURCE and in the log's MASTER (R249); 0 for a hub block. -/
def mcode : Master → Nat
  | .core c => c
  | .host f => 0x1000 + f
  | .fport d p => 0x2000 + 8 * d + p
  | .link l => 0x3000 + l
  | .guest => 0x4000
  | .adit => 0x6000
  | .block => 0

/-- The 3-bit code of a response status (R25). -/
def scode : Status → Nat
  | .ok => 0 | .decerr => 1 | .denied => 2 | .tgterr => 3 | .poison => 4 | .offline => 5 | .stalled => 6

/-! ### Code bytes (R417, R418) -/

/-- The computed check bits c4..c0 of a data byte (R417). -/
def codeBits (b : Byte) : Nat :=
  let d (i : Nat) : Bool := b.toNat.testBit i
  let c0 := d 0 ^^ d 1 ^^ d 3 ^^ d 4 ^^ d 6
  let c1 := d 0 ^^ d 2 ^^ d 3 ^^ d 5 ^^ d 6
  let c2 := d 1 ^^ d 2 ^^ d 3 ^^ d 7
  let c3 := d 4 ^^ d 5 ^^ d 6 ^^ d 7
  let c4 := d 0 ^^ d 1 ^^ d 2 ^^ d 3 ^^ d 4 ^^ d 5 ^^ d 6 ^^ d 7 ^^ c0 ^^ c1 ^^ c2 ^^ c3
  b2n c0 + 2 * b2n c1 + 4 * b2n c2 + 8 * b2n c3 + 16 * b2n c4

/-- What a read finds in one code byte. -/
inductive ByteSeen where
  | clean
  | corrected (v : Byte)
  | uncorrectable
  deriving DecidableEq, Repr

/-- The data byte with the bit at Hamming position s flipped; positions 1, 2, 4 and 8 hold check bits (R417). -/
def flipAt (b : Byte) : Nat → Byte
  | 3 => b ^^^ 1 | 5 => b ^^^ 2 | 6 => b ^^^ 4 | 7 => b ^^^ 8
  | 9 => b ^^^ 16 | 10 => b ^^^ 32 | 11 => b ^^^ 64 | 12 => b ^^^ 128
  | _ => b

/-- Syndrome s and parity p of a stored code byte, from the difference e of its check bits to the computed ones. -/
def syndrome (e : Nat) : Nat × Bool := (e % 16, (popCount 5 e) % 2 == 1)

/-- The decision table of R418. -/
def judgeByte (b : Byte) (e : Nat) : ByteSeen :=
  let (s, p) := syndrome e
  if s = 0 then (if p then .corrected b else .clean)
  else if p ∧ s ≤ 12 then .corrected (flipAt b s)
  else .uncorrectable

/-! ### The addressed memories (R22, R173, R419) -/

/-- Where the local SRAM of core 0 stands among the addressed memories; core c follows at c * 0x4_0000. -/
def localBase : Nat := 0x1000000000000000
/-- First address and size of hub SRAM (R22). -/
def hubBase : Nat := 0x10000000
def hubSize : Nat := 0x2000000
/-- First address of the populated part of stacked SRAM Sn, and its size (R22). -/
def stackBase (n : Nat) : Nat := 0x100000000 + n * 0x40000000
def stackSize : Nat := 0x8000000
/-- First address of the DRAM range. -/
def dramBase : Nat := 0x10000000000

/-- The index m of the code-byte memory an address lies in (R419); none for DRAM. -/
def memIndex (a : Nat) : Option Nat :=
  if localBase ≤ a then some 1
  else if hubBase ≤ a ∧ a < hubBase + hubSize then some 0
  else if 0x100000000 ≤ a ∧ a < 0x200000000 then some (4 + (a - 0x100000000) / 0x40000000)
  else none

namespace Mem

/-- A byte no write has reached reads 0: the power-on fill wrote code byte 0x0000 (R421); for DRAM a design choice. -/
def readByte (m : Mem) (a : Nat) : Byte := SMap.get m.cells a 0
/-- Store a byte with computed check bits (R420). -/
def writeByte (m : Mem) (a : Nat) (b : Byte) : Mem :=
  { m with cells := SMap.set m.cells a b 0, ecc := SMap.erase m.ecc a }
/-- Store a byte with given check bits (R429). -/
def writeRaw (m : Mem) (a : Nat) (b : Byte) (chk : Nat) : Mem :=
  { m with cells := SMap.set m.cells a b 0, ecc := SMap.set m.ecc a ((chk ^^^ codeBits b) % 32) 0 }
/-- Store n bytes of a number where byte enables ask for it. -/
def writeN (m : Mem) (a n data be : Nat) : Mem :=
  (List.range n).foldl
    (fun m i => if be.testBit i then m.writeByte (a + i) (BitVec.ofNat 8 (data / 256 ^ i)) else m) m
/-- The n bytes at a as stored, as a number. -/
def readN (m : Mem) (a n : Nat) : Nat := ofBytes ((List.range n).map fun i => m.readByte (a + i))
/-- The canonical form of the memory lists. -/
def wf (m : Mem) : Bool := SMap.wf (fun _ => 0) m.cells && SMap.wf (fun _ => 0) m.ecc
/-- What a read finds at each of n bytes. -/
def seen (m : Mem) (a n : Nat) : List (Nat × ByteSeen) :=
  (List.range n).map fun i => (a + i, judgeByte (m.readByte (a + i)) (SMap.get m.ecc (a + i) 0))
/-- The byte a read returns: corrected where it can be, else as stored (R422, R423). -/
def value (m : Mem) (x : Nat × ByteSeen) : Byte :=
  match x.2 with
  | .corrected v => v
  | _ => m.readByte x.1
/-- The n bytes a read returns, as a number. -/
def fixedN (m : Mem) (a n : Nat) : Nat := ofBytes ((m.seen a n).map m.value)

end Mem

/-- All n byte enables on. -/
def allOn (n : Nat) : Nat := 2 ^ n - 1

/-! ### The error log (R426, R427) -/

/-- Word 1 of an entry. -/
def logWord1 (source master code : Nat) : Nat :=
  2 ^ 63 + source % 256 * 2 ^ 48 + master % 65536 * 2 ^ 32 + code % 65536 * 2 ^ 16

/-- Write the entry at LOGHEAD.NEXT and advance NEXT and TOTAL (R426). -/
def logRaw (h : Hw) (source master code addr data : Nat) : Hw :=
  let e := h.rd K.ERR_LOGHEAD_NEXT % 256
  ((((((h.wr (K.ERR_LOG_W_WORD e 0) h.now).wr (K.ERR_LOG_W_WORD e 1) (logWord1 source master code)).wr
    (K.ERR_LOG_W_WORD e 2) addr).wr (K.ERR_LOG_W_WORD e 3) data).wr K.ERR_LOGHEAD_NEXT (e + 1)).wr
    K.ERR_LOGHEAD_TOTAL (h.rd K.ERR_LOGHEAD_TOTAL + 1))

/-- The kinds of entry of R514. -/
inductive LogKind where
  | wrro | wrunimp | replaced | ignored | access | operation | event | trap | software
  deriving DecidableEq, Repr

/-- CODE [15:8] of a kind (R514). -/
def LogKind.code : LogKind → Nat
  | .wrro => 1 | .wrunimp => 2 | .replaced => 3 | .ignored => 4 | .access => 5
  | .operation => 6 | .event => 7 | .trap => 8 | .software => 9

/-- The SOURCE codes of R427. -/
def srcGallery : Nat := 0x01
def srcReset : Nat := 0x02
def srcClock : Nat := 0x03
def srcPower : Nat := 0x04
def srcSched : Nat := 0x05
def srcCrew : Nat := 0x06
def srcCfg : Nat := 0x07
def srcMem : Nat := 0x08
def srcCipher : Nat := 0x09
def srcDdr : Nat := 0x0A
def srcPcie : Nat := 0x0B
def srcLane : Nat := 0x0C
def srcSeam : Nat := 0x0D
def srcAdit : Nat := 0x0E
def srcGuest : Nat := 0x0F
def srcDie (n : Nat) : Nat := 0x10 + n
def srcSoftware : Nat := 0x14
def srcId : Nat := 0x15
def srcErr : Nat := 0x16

/-! ### The key derivation of R275 -/

/-- A number of n bytes in big-endian order. -/
def bigEndian (n x : Nat) : List Byte := (toBytes n x).reverse

/-- The derivation of a 256-bit key from a key, a label and a context (R275): counters and the output length are 32-bit
big-endian, and a zero byte parts the label from the context. Key byte 0 is lowest. -/
def kdf (label : List Byte) (key : Nat) (context : List Byte) : Nat :=
  let half (i : Nat) : Nat := Config.cmac key (bigEndian 4 i ++ label ++ [0] ++ context ++ bigEndian 4 0x100) % 2 ^ 128
  half 1 + 2 ^ 128 * half 2

/-- The next image key, from the current one and a 16-byte segment tag: label "CIHL ROLL" (R226, R275). -/
def keyNext (key tag : Nat) : Nat := kdf [0x43, 0x49, 0x48, 0x4C, 0x20, 0x52, 0x4F, 0x4C, 0x4C] key (toBytes 16 tag)

/-- A Bortik session key: label "BRTK ROLL", and the context of R363 from LINKID, DIR, the nonce of the lower-serial end, the
other nonce and the epoch. PRESUMED: the nonces stand in big-endian order, as the context's other numbers do. -/
def sessionKey (key linkId dir low other epoch : Nat) : Nat :=
  kdf [0x42, 0x52, 0x54, 0x4B, 0x20, 0x52, 0x4F, 0x4C, 0x4C] key
    (bigEndian 4 linkId ++ bigEndian 1 dir ++ bigEndian 8 low ++ bigEndian 8 other ++ bigEndian 4 epoch ++ bigEndian 4 0)

end Sys2Proof.Machine
end

