-- ==== Sys2Proof/Machine/BlockRam.lean ====
section
/-!
DEFINITION. The block RAM (R49 to R54): port widths and word addresses, the code byte in ECC mode, read-during-write,
collisions, output registers and cascades.
-/
namespace Sys2Proof.Machine

/-- Options of a port of a block RAM (R49 to R53). -/
structure RamPortCfg where
  /-- 0 to 3 for widths 13, 26, 52 and 104. -/
  width : Nat
  /-- 0 WRITE_FIRST, 1 READ_FIRST, 2 and 3 NO_CHANGE. -/
  rdw : Nat
  oreg : Bool
  tap : Nat
  inv : Bool
  srval : Nat
  deriving DecidableEq, Repr
/-- The options of a port from their 116 configuration bits. -/
def RamPortCfg.of (v : Nat) : RamPortCfg :=
  { width := v % 4, rdw := v / 4 % 4, oreg := v.testBit 4, tap := v / 2 ^ 5 % 32, inv := v.testBit 10, srval := v / 2 ^ 11 % 2 ^ 104 }

/-- Lanes of 13 stored bits in a word of a port: 1, 2, 4 or 8; ECC mode has the word of width 104 (R49). -/
def ramLanes (ecc : Bool) (c : RamPortCfg) : Nat := if ecc then 8 else 2 ^ c.width
/-- First 13-bit lane of the linear array that an address names: word w of width W stands at bit w × W (R49). -/
def ramLane (lanes addr : Nat) : Nat := low14 addr / lanes * lanes
where
  /-- The 14 bits of a port address. -/
  low14 (a : Nat) : Nat := a % 2 ^ 14

/-- What a port is given at its clock edge. -/
structure RamIn where
  addr : Nat
  data : Nat
  we : Nat
  ce : Bool
  sr : Bool
  deriving DecidableEq, Repr

/-- The 13-bit lane a write stores: in ECC mode a data byte with its check bits (R50). -/
def laneStored (ecc : Bool) (data i : Nat) : Nat :=
  if ecc then data / 256 ^ i % 256 + codeBits (BitVec.ofNat 8 (data / 256 ^ i)) * 256 else data / 2 ^ (13 * i) % 2 ^ 13

/-- The lanes a port writes: number of the lane in the array, and its stored bits. -/
def ramWrites (ecc : Bool) (c : RamPortCfg) (p : RamIn) : List (Nat × Nat) :=
  let n := ramLanes ecc c
  if !p.ce then []
  else ((List.range n).filter p.we.testBit).map fun i => (ramLane n p.addr + i, laneStored ecc p.data i)

/-- What a read finds in a stored 13-bit lane in ECC mode: the difference of its check bits, and the verdict. -/
def laneDiff (l : Nat) : Nat := l / 256 % 32 ^^^ codeBits (BitVec.ofNat 8 l)
def laneJudged (l : Nat) : ByteSeen := judgeByte (BitVec.ofNat 8 l) (laneDiff l)

/-- What a port reads from its lanes: data, whether a byte was corrected, and whether one could not be (R50). The data of a byte
that cannot be corrected passes as stored. -/
def ramRead (ecc : Bool) (lanes : List Nat) : Nat × Bool × Bool :=
  if !ecc then ((lanes.zipIdx).foldl (fun x e => x + e.1 % 2 ^ 13 * 2 ^ (13 * e.2)) 0, false, false)
  else (lanes.zipIdx).foldl (fun (acc : Nat × Bool × Bool) e =>
    let b := BitVec.ofNat 8 e.1
    match laneJudged e.1 with
    | .clean => (acc.1 + b.toNat * 256 ^ e.2, acc.2.1, acc.2.2)
    | .corrected v => (acc.1 + v.toNat * 256 ^ e.2, true, acc.2.2)
    | .uncorrectable => (acc.1 + b.toNat * 256 ^ e.2, acc.2.1, true)) (0, false, false)

/-- A port's output: data in bits 103 to 0, SBE in bit 104 and DBE in bit 105. -/
def ramWord (r : Nat × Bool × Bool) : Nat := r.1 % 2 ^ 104 + b2n r.2.1 * 2 ^ 104 + b2n r.2.2 * 2 ^ 105

/-- The lanes a port's word holds when it reads them (R51): the old contents, and on a write cycle of a WRITE_FIRST port its
own data in the lanes it writes; none where NO_CHANGE holds the output. -/
def ramSeen (old : Nat → Nat) (ecc : Bool) (c : RamPortCfg) (p : RamIn) : Option (List Nat) :=
  let n := ramLanes ecc c
  let mine := ramWrites ecc c p
  let stored := (List.range n).map fun i => old (ramLane n p.addr + i)
  if !p.ce then none
  else if mine.isEmpty then some stored
  else match c.rdw with
    | 0 => some ((List.range n).map fun i => ((mine.find? fun e => e.1 == ramLane n p.addr + i).map (·.2)).getD
        (old (ramLane n p.addr + i)))
    | 1 => some stored
    | _ => none

/-- A port's registers after an edge (R53): a read enters the latch, behind one stage for each sector border its cascade
crosses (R54); the output register takes what the latch held; SR loads SRVAL into whichever drives the port. -/
def ramPortEdge (c : RamPortCfg) (borders : Nat) (p : RamIn) (read : Option Nat) (s : RamPort) : RamPort :=
  let moved := if p.ce then (read.getD s.latch) :: s.pipe else s.pipe
  let latch := if !p.ce then s.latch else if borders = 0 then read.getD s.latch else moved.getD borders s.latch
  { latch := if p.sr && !c.oreg then c.srval else latch
    reg := if p.sr && c.oreg then c.srval else if p.ce then s.latch else s.reg
    pipe := moved.take borders }

/-- What a port drives. -/
def RamPort.out (c : RamPortCfg) (s : RamPort) : Nat := if c.oreg then s.reg else s.latch

end Sys2Proof.Machine
end

