-- ==== Sys2Proof/Machine/Cells.lean ====
section
/-!
DEFINITION. The cell (R39 to R47): the LUT, the carry logic, the flip-flop with its options, and the LUT as RAM and as shift
register.
-/
namespace Sys2Proof.Machine

/-! ### LUT and carry (R39 to R42) -/

/-- Use of a cluster's LUTs (R46). -/
inductive MemMode where
  | logic | ram64 | ram32 | shift32
  deriving DecidableEq, Repr

/-- A number as an address: the low n bits. -/
def low (a n : Nat) : Nat := a % 2 ^ n

/-- Outputs O5 and O6 of a LUT holding `init`, at inputs A6 to A1 = a (R39, R46): FRAC = 1, carry and RAM32 split the LUT in
two functions of five inputs. A shift register's stages stand in bits 31 to 0, the newest lowest. -/
def lutOut (mode : MemMode) (frac : Bool) (init a : Nat) : Bool × Bool :=
  match mode with
  | .shift32 => (init.testBit (31 - low a 5), init.testBit (low a 5))
  | .ram32 => (init.testBit (low a 5), init.testBit (32 + low a 5))
  | .ram64 => (init.testBit (low a 5), init.testBit (low a 6))
  | .logic => (init.testBit (low a 5), if frac then init.testBit (32 + low a 5) else init.testBit (low a 6))

/-- The two carry bits of a cell: c1, co, s0 and s1 of R41. -/
structure Carry where
  c1 : Bool
  co : Bool
  s0 : Bool
  s1 : Bool
  deriving DecidableEq, Repr
/-- The carry rule (R41). -/
def carryOf (p0 p1 g0 g1 ci : Bool) : Carry :=
  let c1 := if p0 then ci else g0
  { c1 := c1, co := if p1 then c1 else g1, s0 := p0 ^^ ci, s1 := p1 ^^ c1 }

/-- Combinational outputs OA and OB (R40). -/
def cellOuts (carryOn : Bool) (o : Bool × Bool) (c : Carry) : Bool × Bool := if carryOn then (c.s1, c.s0) else (o.2, o.1)

/-! ### Flip-flops (R43 to R45) -/

/-- The options of a flip-flop, as configured (R43). -/
structure FfCfg where
  dsel : Nat
  cs : Nat
  ceuse : Bool
  init : Bool
  srval : Bool
  sren : Bool
  srasync : Bool
  latch : Bool
  deriving DecidableEq, Repr
/-- The options from their nine configuration bits. -/
def FfCfg.of (v : Nat) : FfCfg :=
  { dsel := v % 4, cs := v / 4 % 2, ceuse := v.testBit 3, init := v.testBit 4, srval := v.testBit 5, sren := v.testBit 6, srasync := v.testBit 7, latch := v.testBit 8 }

/-- D of FF1 (j = 0) or FF2 (j = 1) by DSEL (R43). -/
def ffData (j dsel : Nat) (oa ob x y : Bool) : Bool :=
  match j, dsel with
  | 0, 0 => ob | 0, 1 => oa | 0, 2 => x | 0, _ => y
  | _, 0 => oa | _, 1 => ob | _, 2 => y | _, _ => x

/-- What an active edge, or the transparent phase of a latch, loads: items 2 to 4 of R44. -/
def ffLoad (c : FfCfg) (q d e sr : Bool) : Bool :=
  if c.sren && sr then c.srval else if !c.ceuse || e then d else q

/-- Q between edges (R44): INIT under set-reset, SRVAL under an asynchronous SR, D through a transparent latch, else the value
held. -/
def ffNow (c : FfCfg) (setReset high q d e sr : Bool) : Bool :=
  if setReset then c.init
  else if c.sren && c.srasync && sr then c.srval
  else if c.latch && high then ffLoad c q d e sr
  else q

/-! ### LUTs written by the design (R46, R47) -/

/-- Contents of lane k of a memory cluster after an active edge with WE = 1: the write address is that of cell 15; a lane
shifts in its own input, or with CASC = 1 the stage 31 of the cluster below. -/
def lutWritten (mode : MemMode) (init addr15 : Nat) (x y casc fromBelow : Bool) : Nat :=
  match mode with
  | .logic => init
  | .ram64 => setBitAt init (low addr15 6) x
  | .ram32 => setBitAt (setBitAt init (32 + low addr15 5) x) (low addr15 5) y
  | .shift32 => setBits init 0 32 (low init 31 * 2 + b2n (if casc then fromBelow else x))

end Sys2Proof.Machine
end

