-- ==== Sys2Proof/Machine/Routing.lean ====
section
/-!
DEFINITION. The routing of a fabric die (R67 to R80, R87): tracks and where they start and end, and the candidates of every
multiplexer by select code.
-/
namespace Sys2Proof.Machine

/-! ### Directions and positions -/

/-- The direction a left turn leads to, and a right turn. -/
def Dir.left : Dir → Dir
  | .north => .west | .west => .south | .south => .east | .east => .north
def Dir.right : Dir → Dir
  | .north => .east | .east => .south | .south => .west | .west => .north
/-- The three directions a track that turns onto this one, or runs straight into it, can have: no U-turn (R72). -/
def Dir.into (d : Dir) : List Dir := [d, d.right, d.left]
/-- All four directions. -/
def allDirs : List Dir := [.north, .south, .east, .west]

/-- The cluster n positions upstream of (x, y), if it lies on the die (R70). -/
def Dir.back (d : Dir) (n x y : Nat) : Option (Nat × Nat) :=
  match d with
  | .north => if n ≤ y then some (x, y - n) else none
  | .south => if y + n < dieHeight then some (x, y + n) else none
  | .east => if n ≤ x then some (x - n, y) else none
  | .west => if x + n < dieWidth then some (x + n, y) else none

/-- Bit track starts per cluster and direction (R68). -/
def trackStarts : Nat → Nat
  | 1 => 64 | 2 => 48 | 4 => 48 | 12 => 12 | _ => 0

/-- Whether a word bundle of this direction and length starts at a cluster (R68). -/
def bundleStarts (d : Dir) (len x y : Nat) : Bool :=
  len == 4 || (len == 12 && match d with
    | .north | .south => y % 4 == 0
    | .east | .west => x % 4 == 0)

/-- Number of bit tracks of one length that cross a cut with k clusters upstream of it (R68, R87). -/
def bitsCrossing (len k : Nat) : Nat := trackStarts len * min len k
/-- The starts upstream of a cut whose tracks cross it: k clusters lie upstream of it, numbered from the cut (R87). -/
def startsCrossing (len k : Nat) : List Nat := (List.range k).filter fun i => i < len
/-- Number of word bundles that cross the cut downstream of die-wide coordinate p in rising direction (R68, R87). -/
def bundlesCrossing (len p : Nat) : Nat :=
  ((List.range (p + 1)).filter fun q => decide (p < q + len) && (len != 12 || q % 4 == 0)).length

/-! ### Candidates -/

/-- What a multiplexer passes for a code: nothing (0), the constant 1, a wire, or an input from outside the routing. -/
inductive Cand where
  | zero | one
  | wire (w : Wire)
  | source (s : Source)
  deriving DecidableEq, Repr

/-- A wire that may not exist. -/
def Cand.ofOption : Option Wire → Cand
  | some w => .wire w
  | none => .zero

/-- The bit track of direction d and length len with index t that passes (x, y) `reach` clusters from its start. -/
def arriving (d : Dir) (len reach x y t : Nat) : Cand :=
  .ofOption ((d.back reach x y).map fun p => .bit d len p.1 p.2 t)
/-- Bit i of the bundle of direction d and length len that passes (x, y) `reach` clusters from its start. -/
def arrivingWord (d : Dir) (len reach x y i : Nat) : Cand :=
  match d.back reach x y with
  | some p => if bundleStarts d len p.1 p.2 then .wire (.word d len p.1 p.2 i) else .zero
  | none => .zero

/-- One of the tracks of the listed directions and (length, reach) pairs that arrive at (x, y), by its number n. -/
def pickTrack (dirs : List Dir) (kinds : List (Nat × Nat)) (x y n : Nat) : Cand :=
  match dirs[n % dirs.length]?, kinds[n / dirs.length % kinds.length]? with
  | some d, some (len, reach) => arriving d len reach x y (n / dirs.length / kinds.length % trackStarts len)
  | _, _ => .zero

/-- The straight (0), left (1) and right (2) candidate of a bit start: turning pattern of R73. -/
def turning (d : Dir) (len x y t : Nat) : Nat → Cand
  | 0 => arriving d len len x y t
  | 1 => arriving d.right len len x y ((t + trackStarts len - len % trackStarts len) % trackStarts len)
  | _ => arriving d.left len len x y ((t + len) % trackStarts len)

/-- Cluster output o of 64: cell o / 4, output type o mod 4 (R73). -/
def clusterOut (x y o : Nat) : Cand :=
  .wire (.cell x y (o / 4 % 16) (match o % 4 with | 0 => .oa | 1 => .ob | 2 => .q1 | _ => .q2))

/-- A place in the device's own order of n candidate places. -/
def placeOf (n : Nat) (d : Dir) (p : Nat) : Nat :=
  if h : p < n then (Config.outOrder n d ⟨p, h⟩).val else 0

/-- The j-th output candidate of start t: every output is the candidate of 8 length-1, 6 length-2 and 12 length-4 starts, and
of 2 or 1 length-12 starts (R73). -/
def startOut (d : Dir) (len t j : Nat) : Nat :=
  match len with
  | 1 => placeOf 512 d (8 * t + j) / 8
  | 2 => placeOf 384 d (8 * t + j) / 6
  | 4 => placeOf 768 d (16 * t + j) / 12
  | _ =>
    let p := placeOf 96 d (8 * t + j)
    if p < 64 then p / 2 else p - 32

/-- Candidates of a bit start, codes 1 upward (R72). -/
def bitCand (d : Dir) (len x y t code : Nat) : Cand :=
  let w := Wire.bit d len x y t
  let out (j : Nat) : Cand := clusterOut x y (startOut d len t j)
  let take (kinds : List (Nat × Nat)) : Cand := pickTrack d.into kinds x y (Config.pick w code)
  match len with
  | 1 => if code ≤ 8 then out (code - 1) else if code ≤ 11 then turning d 1 x y t (code - 9)
    else if code ≤ 13 then take [(2, 2)] else if code ≤ 15 then take [(4, 4)] else .zero
  | 2 => if code ≤ 8 then out (code - 1) else if code ≤ 11 then turning d 2 x y t (code - 9)
    else if code ≤ 13 then take [(1, 1)] else if code ≤ 15 then take [(4, 4)] else .zero
  | 4 => if code ≤ 16 then out (code - 1) else if code ≤ 19 then turning d 4 x y t (code - 17)
    else if code ≤ 23 then take [(2, 2)] else if code ≤ 27 then take [(1, 1)]
    else if code ≤ 31 then take [(12, 4), (12, 8)] else .zero
  | 12 => if code ≤ 8 then out (code - 1) else if code ≤ 11 then turning d 12 x y t (code - 9)
    else if code ≤ 15 then take [(4, 4)] else .zero
  | _ => .zero

/-- Candidates of bit i of a word start (R72, R76); codes 1 to 4 stand for an output type of the cells. -/
def wordCand (d : Dir) (len x y i code : Nat) : Cand :=
  match code with
  | 1 => clusterOut x y (4 * i)
  | 2 => clusterOut x y (4 * i + 1)
  | 3 => clusterOut x y (4 * i + 2)
  | 4 => clusterOut x y (4 * i + 3)
  | 5 => arrivingWord d len len x y i
  | 6 => arrivingWord d.right len len x y i
  | 7 => arrivingWord d.left len len x y i
  | _ => .zero

/-- Bit i of every bundle that ends at a cluster or has a tap there (R69, R77). -/
def bundleCands (x y i : Nat) : List Cand :=
  (allDirs.flatMap fun d => [arrivingWord d 4 4 x y i, arrivingWord d 12 12 x y i, arrivingWord d 12 4 x y i,
    arrivingWord d 12 8 x y i]).filter fun c => c != .zero

/-- Bit tracks and taps that end at a cluster: lengths and reaches (R69). -/
def endingKinds : List (Nat × Nat) := [(1, 1), (2, 2), (4, 4), (12, 12), (12, 4), (12, 8)]

/-- The eight spines the clusters of die row y of a column read (R79). -/
def spineCand (x y k : Nat) : Cand := .wire (.spine (x / 64) (8 * (y % 6) + k))

/-- Number of an input pin of a cell among A1 to A6, X and Y. -/
def CellPin.no : CellPin → Nat
  | .a i => i % 6 | .x => 6 | .y => 7 | .e1 => 8 | .e2 => 9

/-- Candidates of A1 to A6, X and Y of cell k: bit tracks and taps, 16 cluster outputs, bit k of the bundles, 8 spines, and the
constant 1 at code 63 (R72). Tracks fill what the 62 routed codes leave. -/
def inputCand (w : Wire) (x y k pin code : Nat) : Cand :=
  let words := bundleCands x y k
  let tracks := 62 - 24 - words.length
  if code = 63 then .one
  else if code = 0 then .zero
  else if code ≤ tracks then pickTrack allDirs endingKinds x y (Config.pick w code)
  else if code ≤ tracks + 16 then
    clusterOut x y (placeOf 2048 .north ((8 * k + pin) * 16 + (code - tracks - 1)) / 32)
  else if code ≤ tracks + 16 + words.length then words.getD (code - tracks - 17) .zero
  else if code ≤ 62 then spineCand x y (code - tracks - 17 - words.length)
  else .zero

/-- Candidates of E1, E2, SR and WE (R72). -/
def controlCand (w : Wire) (x y code : Nat) : Cand :=
  if code = 0 then .zero
  else if code ≤ 15 then pickTrack allDirs [(1, 1), (2, 2)] x y (Config.pick w code)
  else if code ≤ 23 then spineCand x y (code - 16)
  else if code ≤ 31 then clusterOut x y (Config.pick w code % 64)
  else .zero

/-- Cluster at which a pin of hard block i of a sector attaches: columns 31 and 32, rows 4i to 4i + 3 (R70). -/
def hardCluster (w : Wire) (s i : Nat) : Nat × Nat :=
  let b := Config.siteCluster w % 8
  (clusterX s (31 + b % 2), clusterY s (4 * i + b / 2))
/-- Sector of a site. -/
def SitePin.sector (p : SitePin) : Nat :=
  match p with
  | .tx far g _ => attachSector far g
  | .chanTx l s => chanSector l s
  | .pad j _ _ => homeSector j
  | p => Config.siteSector p % 192
/-- Cluster of a site. -/
def siteXY (p : SitePin) : Nat × Nat :=
  let b := Config.siteCluster (.site p)
  (clusterX p.sector (b % 64), clusterY p.sector (b / 64 % 64))

/-- Bit of the bundles a pin takes: data bit k takes bit k mod 16 (R78), transmit slot s bit s mod 16 (R114). -/
def HardPin.bundleBit : HardPin → Option Nat
  | .data _ k | .a k | .b k | .c k | .d k => some (k % 16)
  | _ => none
def SitePin.bundleBit : SitePin → Option Nat
  | .tx _ _ s | .chanTx _ s => some (s % 16)
  | _ => none

/-- Candidates of a pin of a hard block or a site: bit tracks and taps of its switch box, and one bit of the bundles. -/
def pinCand (w : Wire) (x y : Nat) (bit : Option Nat) (code : Nat) : Cand :=
  let words := match bit with | some i => bundleCands x y i | none => []
  let tracks := 62 - words.length
  if code = 63 then .one
  else if code = 0 then .zero
  else if code ≤ tracks then pickTrack allDirs endingKinds x y (Config.pick w code)
  else words.getD (code - tracks - 1) .zero

/-- Candidates of a spine driver's source: bit tracks that end at its site, on the southern edge of the sector (R72, R79). -/
def driverCand (w : Wire) (s code : Nat) : Cand :=
  if 1 ≤ code ∧ code ≤ 15 then
    pickTrack allDirs [(1, 1), (2, 2), (4, 4), (12, 12)] (clusterX s (Config.siteCluster w % 64)) (clusterY s 0) (Config.pick w code)
  else .zero

/-- Cluster, hard block or site at which the multiplexer of a wire stands. -/
def Wire.place : Wire → Nat × Nat
  | .cell x y _ _ | .carry x y _ | .casc x y _ | .bit _ _ x y _ | .word _ _ x y _ | .pin x y _ _ | .ctl x y _ => (x, y)
  | .driver s j => (clusterX s (Config.siteCluster (.driver s j) % 64), clusterY s 0)
  | .spine col _ => (64 * col, 0)
  | .hard s i p => hardCluster (.hard s i p) s i
  | .sum s i _ => (clusterX s 31, clusterY s (4 * i))
  | .site p => siteXY p
/-- Sector whose configuration and fence a wire belongs to. -/
def Wire.sector (w : Wire) : Nat := sectorAt w.place.1 w.place.2

/-- Width of a multiplexer's select (R72). -/
def Wire.selBits : Wire → Nat
  | .bit _ len _ _ _ => if len = 4 then 5 else 4
  | .word .. => 3
  | .pin _ _ _ .e1 | .pin _ _ _ .e2 | .ctl .. => 5
  | .driver .. => 4
  | _ => 6

/-- Where an output of a hard block may stand among the candidates: at the switch boxes of its rows (R70); a receive slot: in
its attach sector (R114, R370). -/
def Source.allowed (s : Source) (x y : Nat) : Bool :=
  match s with
  | .ram _ | .arith _ => x % 64 == 31 || x % 64 == 32
  | .rx far g _ => sectorAt x y == attachSector far g
  | .chanRx l s => sectorAt x y == chanSector l s
  | .outside _ => true

/-- The candidate of a multiplexer for a select code (R71, R72). Word starts, spine drivers and constants take none from
outside (R76, R77). -/
def candidate (w : Wire) (code : Nat) : Cand :=
  let inner : Cand := match w with
    | .bit d len x y t => if code = 0 then .zero else bitCand d len x y t code
    | .word d len x y i => wordCand d len x y i code
    | .pin x y k .e1 => controlCand (.pin x y k .e1) x y code
    | .pin x y k .e2 => controlCand (.pin x y k .e2) x y code
    | .pin x y k p => inputCand (.pin x y k p) x y k p.no code
    | .ctl x y p => controlCand (.ctl x y p) x y code
    | .driver s j => driverCand (.driver s j) s code
    | .hard s i p => pinCand (.hard s i p) (hardCluster (.hard s i p) s i).1 (hardCluster (.hard s i p) s i).2 p.bundleBit code
    | .site p => pinCand (.site p) (siteXY p).1 (siteXY p).2 p.bundleBit code
    | _ => .zero
  match w with
  | .word .. | .driver .. => inner
  | w => match inner, Config.source w code with
    | .wire v, some s => if s.allowed w.place.1 w.place.2 then .source s else .wire v
    | c, _ => c

end Sys2Proof.Machine
end

