-- ==== Sys2Proof/Machine/Sched.lean ====
section
/-!
DEFINITION. The scheduler: admission, tickets, dispatch, records, deadlines (R242 to R267), and with it the posting of
events to Q0 to Q7 and of error log entries to Q4 (R254, R428), which every later file uses to log.
-/
namespace Sys2Proof.Machine

/-! ### Writes to hub SRAM and the waits on them -/

/-- Whether [a, a + n) meets the 64-byte line l. -/
def meetsLine (a n l : Nat) : Bool := decide (a < l + 64 ∧ l < a + n)

/-- The effect of a write to hub SRAM on one other core: its reservation on a written line breaks (R200), and its WAIT
on a written line ends (R237). -/
def CoreSt.touch (x : CoreSt) (a n : Nat) : CoreSt :=
  let x := match x.lock with
    | some l => if l.lines.any (meetsLine a n) then { x with lock := some { l with broken := true } } else x
    | none => x
  match x.dev with
  | some ⟨.wait (some l) _, rd, done⟩ => if meetsLine a n l then { x with dev := some ⟨.wait (some l) true, rd, done⟩ } else x
  | _ => x

/-- Tell every core but `who` of a write to [a, a + n). -/
def touchLines (h : Hw) (who : Option Nat) (a n : Nat) : Hw :=
  h.cores.foldl (fun h e => if who = some e.1 then h else h.setCore e.1 (e.2.touch a n)) h

/-- A line of a range is reserved by a core that holds the priority reservation, other than `who` (R202). -/
def prioHolds (h : Hw) (who : Option Nat) (a n : Nat) : Bool :=
  h.cores.any fun e => who != some e.1 && h.bit (K.CORE_LOCKSTAT_PRIO e.1) && match e.2.lock with
    | some l => !l.broken && l.lines.any (meetsLine a n)
    | none => false

/-- What a write does to the memory: with computed check bits, or with given ones (R429). -/
def HeldWrite.store (w : HeldWrite) (m : Mem) : Mem :=
  match w.chk with
  | none => m.writeN w.addr w.size w.data w.be
  | some k => (List.range w.size).foldl (fun m i =>
      if w.be.testBit i then m.writeRaw (w.addr + i) (BitVec.ofNat 8 (w.data / 256 ^ i)) k else m) m

/-- A write reaches its memory: its line's reservations break and the waits on it end. -/
def performWrite (h : Hw) (w : HeldWrite) : Hw := touchLines { h with mem := w.store h.mem } w.who w.addr w.size

/-- A write that goes past the masters of the Gallery's requests: the hub SRAM holds it while another core's priority
reservation covers a line of it (R202). -/
def tryWrite (h : Hw) (w : HeldWrite) : Hw :=
  if prioHolds h w.who w.addr w.size then { h with sched := { h.sched with heldWrites := h.sched.heldWrites ++ [w] } }
  else performWrite h w

/-- A priority reservation has ended: the writes it held back go on, in order. -/
def flushHeld (h : Hw) : Hw :=
  h.sched.heldWrites.foldl tryWrite { h with sched := { h.sched with heldWrites := [] } }

/-- The memory as the scheduler finds it, behind its own writes. -/
def memSeen (h : Hw) : Mem := h.sched.heldWrites.foldl (fun m w => w.store m) h.mem

/-- Store n bytes with computed check bits; `who` is the writing core, if a core writes. -/
def hubWrite (h : Hw) (who : Option Nat) (a n data be : Nat) : Hw := tryWrite h ⟨who, a, n, data, be, none⟩

/-! ### Queues -/

/-- Who brings an entry to the scheduler: a master, or a hub block that posts an event to queue q. -/
inductive Src where
  | master (m : Master)
  | event (q : Nat)
  deriving DecidableEq, Repr

/-- The SOURCE code of R249. -/
def Src.code : Src → Nat
  | .master m => mcode m
  | .event q => 0x5000 + q

/-- DEPTH of a queue in slots. -/
def qDepth (h : Hw) (q : Nat) : Nat := 64 * 2 ^ h.rd (K.SCHED_Q_CFG_DEPTH q)
/-- Entries in the ring. -/
def qOcc (h : Hw) (q : Nat) : Nat := (h.queue q).entries.length
/-- Free slots: DEPTH - OCC - RES (R251); none while the queue is disabled. -/
def qCred (h : Hw) (q : Nat) : Nat :=
  if h.bit (K.SCHED_Q_CFG_EN q) then qDepth h q - qOcc h q - (h.queue q).res else 0
/-- Owner of a queue. -/
def qKind (h : Hw) (q : Nat) : Nat := h.rd (K.SCHED_Q_CFG_OWNKIND q)
def qIdx (h : Hw) (q : Nat) : Nat := h.rd (K.SCHED_Q_CFG_OWNIDX q)
def qAuto (h : Hw) (q : Nat) : Bool := h.bit (K.SCHED_Q_CFG_AUTO q)
/-- Entries are delivered to an owner; DELIVER is ignored for owner kinds 0 and 5. -/
def qDeliver (h : Hw) (q : Nat) : Bool :=
  h.bit (K.SCHED_Q_CFG_DELIVER q) && qKind h q != 0 && qKind h q != 5
def qEn (h : Hw) (q : Nat) : Bool := h.bit (K.SCHED_Q_CFG_EN q)

/-- Whether a master owns a queue (R243). -/
def owns (h : Hw) (m : Master) (q : Nat) : Bool :=
  match m with
  | .host f => qKind h q == 1 && qIdx h q == f.val
  | .fport d p => qKind h q == 2 && qIdx h q == 8 * d.val + p.val
  | .link l => qKind h q == 3 && qIdx h q == l.val
  | .guest => qKind h q == 4
  | _ => false

/-- The sources a queue admits (R243, R244). -/
def permitted (h : Hw) (s : Src) (q : Nat) : Bool :=
  match s with
  | .event p => p == q
  | .master (.core c) => c.val == 0 || decide (256 ≤ q)
  | .master .adit => true
  | .master .block => false
  | .master (.host f) => owns h (.host f) q || (f.val == 0 && q == 0)
  | .master m => owns h m q

/-- The enabled queues: EN is 0 at reset, so an enabled queue's EN stands in the field table. -/
def enabledQueues (h : Hw) : List Nat :=
  h.csr.filterMap fun e =>
    let a := e.1 / 64 - 0x500000
    if e.1 % 64 = 0 ∧ 0x500000 ≤ e.1 / 64 ∧ a < 0x100000 ∧ a % 64 = 0 then some (a / 64) else none

/-- Sum of TRES over the enabled queues (R245). -/
def tresSum (h : Hw) : Nat := (enabledQueues h).foldl (fun x q => x + h.rd (K.SCHED_Q_CFG_TRES q)) 0

/-- Tickets a queue holds, and shared tickets held. -/
def heldBy (h : Hw) (q : Nat) : Nat := (h.sched.held.filter fun e => e.2.elim false fun x => x.q == q).length
def sharedHeld (h : Hw) : Nat := (h.sched.held.filter fun e => e.2.elim false (·.shared)).length
/-- Free tickets of the shared pool (R256). -/
def sharedFree (h : Hw) : Nat := 65536 - tresSum h - sharedHeld h

/-- The n-th number that is not among the rising list. -/
def nthFree : List Nat → Nat → Nat
  | [], n => n
  | t :: r, n => if t ≤ n then nthFree r (n + 1) else n

/-- Take a ticket for queue q: from its reserve while it holds fewer than TRES, else from the shared pool (R256). Which
free ticket is taken is a free value (R255). -/
def takeTicket (h : Hw) (q : Nat) : Option (Nat × Hw) :=
  let reserve := decide (heldBy h q < h.rd (K.SCHED_Q_CFG_TRES q))
  if (reserve || decide (0 < sharedFree h)) && decide (h.sched.held.length < 65536) then
    let (v, h) := h.draw
    let t := nthFree (h.sched.held.map (·.1)) (v % (65536 - h.sched.held.length))
    some (t, { h with sched := { h.sched with held := SMap.set h.sched.held t (some ⟨q, !reserve⟩) none } })
  else none

/-- Generation of a ticket. -/
def genOf (h : Hw) (t : Nat) : Nat := SMap.get h.sched.gens t 0

/-- Release a ticket, if one was taken, and advance its generation (R255). -/
def dropTicket (h : Hw) (t : Option Nat) : Hw :=
  match t with
  | none => h
  | some t => { h with sched := { h.sched with
      held := SMap.erase h.sched.held t, gens := SMap.set h.sched.gens t ((genOf h t + 1) % 65536) 0 } }

/-- The words of a descriptor, first word lowest. -/
def descNat (d : Desc) : Nat :=
  ([d.w0, d.w1, d.w2, d.w3, d.w4, d.w5, d.w6, d.w7].map BitVec.toNat).foldr (fun w x => w + 2 ^ 64 * x) 0
/-- A descriptor from 64 bytes. -/
def natDesc (x : Nat) : Desc :=
  let w (i : Nat) : Word := BitVec.ofNat 64 (x / 2 ^ (64 * i))
  ⟨w 0, w 1, w 2, w 3, w 4, w 5, w 6, w 7⟩
/-- A descriptor from eight numbers. -/
def mkDesc (a b c d e f g i : Nat) : Desc :=
  ⟨.ofNat 64 a, .ofNat 64 b, .ofNat 64 c, .ofNat 64 d, .ofNat 64 e, .ofNat 64 f, .ofNat 64 g, .ofNat 64 i⟩

/-- Hub address of ring slot s of queue q. -/
def slotAddr (h : Hw) (q s : Nat) : Nat := h.rd (K.SCHED_Q_BASE_ADDR q) + s * 64
/-- The copy a queue holds in a ring slot, as the hub SRAM returns it. -/
def slotDesc (h : Hw) (q s : Nat) : Desc := natDesc ((memSeen h).fixedN (slotAddr h q s) 64)

/-- The first free slot at or after the tail, ascending modulo DEPTH (R251). -/
def freeSlot (h : Hw) (q : Nat) : Nat :=
  let used := (h.queue q).entries.map (·.slot)
  let depth := qDepth h q
  let cand := (List.range depth).map fun i => ((h.queue q).tail + i) % depth
  (cand.find? fun s => !(used.contains s)).getD 0

/-- Place a 64-byte record in the ring of q and move the tail (R251). -/
def place (h : Hw) (q : Nat) (level : Nat) (ticket : Option Nat) (d : Desc) : Hw :=
  let s := freeSlot h q
  let e : QEntry := ⟨s, h.sched.age, level, h.now, h.now, ticket⟩
  let h := hubWrite h none (slotAddr h q s) 64 (descNat d) (allOn 64)
  let x := h.queue q
  let h := h.setQueue q { x with entries := x.entries ++ [e], tail := (s + 1) % qDepth h q }
  { h with sched := { h.sched with age := h.sched.age + 1 } }

/-- Results of the checks of R251. -/
inductive Adm where
  | ok (ticket : Nat)
  | noqueue | denied | full | noticket
  deriving DecidableEq, Repr

/-- The order number of a failed check (R251). -/
def Adm.order : Adm → Nat
  | .ok _ => 0 | .noqueue => 1 | .denied => 2 | .full => 3 | .noticket => 4

/-- PLOCK as it reads: 1 for the owner kinds 1 to 5 (R249). -/
def plocked (h : Hw) (q : Nat) : Bool :=
  h.bit (K.SCHED_Q_CFG_PLOCK q) || (decide (1 ≤ qKind h q) && decide (qKind h q ≤ 5))

/-- The queued copy: reserved bits 0, TICKET, GEN and SOURCE written, PROG from the queue when PLOCK = 1 (R248, R249). -/
def queuedCopy (h : Hw) (q : Nat) (src t : Nat) (d : Desc) : Desc :=
  let w0 := if plocked h q then h.rd (K.SCHED_Q_PROG_PROG q) * 4 else d.w0.toNat / 4 * 4
  let w5 := d.w5.toNat
  let w5 := bits w5 63 32 * 2 ^ 32 + bits w5 31 31 * 2 ^ 31 + bits w5 29 16 * 2 ^ 16 + bits w5 2 0
  let w6 := bits d.w6.toNat 63 32 * 2 ^ 32 + genOf h t * 2 ^ 16 + t
  { d with w0 := .ofNat 64 w0, w5 := .ofNat 64 w5, w6 := .ofNat 64 w6, w7 := .ofNat 64 src }

/-- The level of an entry: max(PRIO, Qq.CFG.PRIO) (R249). -/
def entryLevel (h : Hw) (q : Nat) (d : Desc) : Nat := max (bits d.w5.toNat 2 0) (h.rd (K.SCHED_Q_CFG_PRIO q))

/-- The admission checks of R251 in order, and the admission of an entry that passes. Nothing is logged or counted. -/
def tryEnter (h : Hw) (q : Nat) (s : Src) (d : Desc) : Hw × Adm :=
  if !qEn h q then (h, .noqueue)
  else if !permitted h s q then (h, .denied)
  else if qCred h q = 0 then (h, .full)
  else match takeTicket h q with
    | none => (h, .noticket)
    | some (t, h) => (place h q (entryLevel h q d) (some t) (queuedCopy h q s.code t d), .ok t)

/-! ### Dispatch -/

/-- Whether Adit holds core c halted. -/
def isHalted (h : Hw) (c : Nat) : Bool := (h.rd K.ADIT_HALTED_CORES).testBit c
/-- Core c is idle: a crew core with no item that is not halted (R257, R476). -/
def coreIdle (h : Hw) (c : Nat) : Bool :=
  decide (1 ≤ c) && (h.core c).item.isNone && !isHalted h c
/-- The idle cores. -/
def idleCores (h : Hw) : List Nat := (List.range 64).filter (coreIdle h)

/-- Bit c of the affinity of a queue; bit 0 reads 0. -/
def affinity (h : Hw) (q : Nat) : Nat := h.rd (K.SCHED_Q_AFF_MASK q) * 2

/-- The reply queue a descriptor names, when RQV = 1. -/
def replyOf (d : Desc) : Option Nat := if d.w5.toNat.testBit 31 then some (bits d.w5.toNat 29 16) else none

/-- Whether the reply queue of an entry has a free slot, or none is needed (R258). -/
def replyOk (h : Hw) (d : Desc) : Bool :=
  match replyOf d with
  | none => true
  | some r => !qEn h r || qAuto h r || decide (0 < qCred h r)

/-- The core an entry of q would go to: of the idle cores in its mask the one idle longest, then the lowest (R257). -/
def pickCore (h : Hw) (q : Nat) : Option Nat :=
  ((idleCores h).filter (affinity h q).testBit).foldl
    (fun best c => match best with
      | none => some c
      | some b => if (h.core c).idleSince < (h.core b).idleSince then some c else some b) none

/-- The better of two candidates: lower level, then older. -/
def betterEntry (x y : Nat × QEntry) : Bool :=
  decide (x.2.level < y.2.level ∨ (x.2.level = y.2.level ∧ x.2.age < y.2.age))

/-- The entry dispatched next, with its core: the oldest of the lowest level that some idle core may run and whose reply
credit is there (R257). -/
def pickEntry (h : Hw) : Option (Nat × QEntry × Nat) :=
  let cands := h.sched.queues.flatMap fun e =>
    if qEn h e.1 && qAuto h e.1 then e.2.entries.map fun x => (e.1, x) else []
  let best := cands.foldl (fun (best : Option (Nat × QEntry)) x =>
    if (pickCore h x.1).isSome && replyOk h (slotDesc h x.1 x.2.slot) && best.elim true (betterEntry x) then some x
    else best) none
  best.bind fun x => (pickCore h x.1).map fun c => (x.1, x.2, c)

/-- Remove the entry in a slot from its ring. -/
def removeSlot (h : Hw) (q s : Nat) : Hw :=
  let x := h.queue q
  h.setQueue q { x with entries := x.entries.filter fun e => e.slot != s }

/-- Add to the reply credits reserved in q. -/
def addRes (h : Hw) (q : Nat) (up : Bool) : Hw :=
  let x := h.queue q
  h.setQueue q { x with res := if up then x.res + 1 else x.res - 1 }

/-- Load an entry on core c: R258 and R259. -/
def dispatchTo (h : Hw) (q : Nat) (e : QEntry) (c : Nat) : Hw :=
  let d := slotDesc h q e.slot
  let h := removeSlot h q e.slot
  let (reply, h) := match replyOf d with
    | none => (ReplyState.absent, h)
    | some r => if !qEn h r || qAuto h r then (.refused, h) else (.credit r, addRes h r true)
  let dl := bits d.w5.toNat 63 32
  let prog := if plocked h q then h.rd (K.SCHED_Q_PROG_PROG q) * 4 else d.w0.toNat / 4 * 4
  let item : Item := ⟨q, e.ticket, d.w5, d.w6, d.w7, reply,
    if dl = 0 then none else some (e.admitted + dl * 80), none⟩
  let regs := [(1, d.w1), (2, d.w2), (3, d.w3), (4, d.w4), (5, d.w5), (6, d.w6), (7, d.w7)].filter fun r => r.2 != 0
  let old := h.core c
  let h := h.setCore c { regs := regs, pc := .ofNat 64 prog, item := some item, icache := old.icache, idleSince := old.idleSince }
  let h := h.wr (K.CREW_CORE_ITEM_BUSY c) 1
  let h := h.wr (K.CREW_CORE_ITEM_LEVEL c) e.level
  let h := h.wr (K.CREW_CORE_ITEM_QUEUE c) q
  let h := h.wr (K.CREW_CORE_ITEM_GEN c) (bits d.w6.toNat 31 16)
  let h := h.wr (K.CREW_CORE_ITEM_TICKET c) (bits d.w6.toNat 15 0)
  let h := h.wr (K.CREW_CORE_BURN_COUNT c) 0
  h.wr (K.CREW_CORE_BURN_LIMIT c) (max 1024 (h.rd (K.SCHED_Q_BURN_LIMIT q)))

/-- Dispatch until no entry can go to a core; at most n dispatches. -/
def dispatchN : Nat → Hw → Hw
  | 0, h => h
  | n + 1, h => match pickEntry h with
    | none => h
    | some (q, e, c) => dispatchN n (dispatchTo h q e c)

/-- The dispatch rule of R257, after an event that can make a dispatch possible. -/
def dispatch (h : Hw) : Hw := dispatchN 63 h

/-! ### Event postings and the error log -/

/-- Post an error event for the log entry with these words to Q4; a drop is counted and not logged (R428). -/
def postError (h : Hw) (w1 addr data time : Nat) : Hw :=
  let (h, r) := tryEnter h 4 (.event 4) (mkDesc 0 w1 addr data time 0 0 0)
  match r with
  | .ok _ => dispatch h
  | .full => h.cnt (K.SCHED_Q_STAT_DROP 4)
  | .noticket => h.cnt (K.SCHED_Q_STAT_NOTICKET 4)
  | _ => h

/-- Write an entry of the error log and post it to Q4 when POSTMASK or its code asks for it (R426, R428). -/
def logEntry (h : Hw) (source master code addr data : Nat) : Hw :=
  let time := h.now
  let h := logRaw h source master code addr data
  let always := (source == srcMem || source == srcDdr) && (code == 2 || code == 3)
  if always || (h.rd K.ERR_POSTMASK_MASK * 2).testBit source then
    postError h (logWord1 source master code) addr data time
  else h

/-- Log an entry of R514. -/
def logErr (h : Hw) (source : Nat) (m : Option Master) (kind : LogKind) (sub addr data : Nat) : Hw :=
  logEntry h source (m.elim 0 mcode) (kind.code * 256 + sub) addr data

/-- The value of a register as its fields stand; write-only fields read 0. -/
def regVal (h : Hw) (addr : Nat) : Nat :=
  (fieldsAt addr).foldl (fun x f => if f.acc = .wo then x else x + h.rd f.key * 2 ^ f.key.lo) 0

/-- Log a hardware event recorded in a status register (R514). -/
def logEvent (h : Hw) (source code addr : Nat) : Hw := logErr h source none .event code addr (regVal h addr)

/-- Log an operation refused or ended with a status, recorded in a register or nowhere (R514). -/
def logOp (h : Hw) (source : Nat) (m : Option Master) (status addr : Nat) : Hw :=
  logErr h source m .operation status addr (if addr = 0 then 0 else regVal h addr)

/-- Hub address of the doorbell of queue q (R250). -/
def doorbellAddr (q : Nat) : Nat := 0x600000 + q * 0x40

/-- A doorbell or event posting that failed a check is dropped, counted where R251 names a counter, and logged. -/
def dropPosting (h : Hw) (q : Nat) (src : Nat) (r : Adm) : Hw :=
  let h := match r with
    | .full => h.cnt (K.SCHED_Q_STAT_DROP q)
    | .noticket => h.cnt (K.SCHED_Q_STAT_NOTICKET q)
    | _ => h
  logEntry h srcSched src (LogKind.access.code * 256 + 0x10 + r.order) (doorbellAddr q) 0

/-- Post an event entry to one of Q0 to Q7 (R254). -/
def postEvent (h : Hw) (q : Nat) (a0 a1 a2 a3 : Nat) : Hw :=
  let (h, r) := tryEnter h q (.event q) (mkDesc 0 a0 a1 a2 a3 0 0 0)
  match r with
  | .ok _ => dispatch h
  | r => dropPosting h q (Src.event q).code r

/-- Post an event whose code and data the manual does not give (Q1, Q2): each argument is a free value. -/
def postOpen (h : Hw) (q : Nat) : Hw :=
  let (a, h) := h.draw
  let (b, h) := h.draw
  let (c, h) := h.draw
  let (d, h) := h.draw
  postEvent h q a b c d

/-- A doorbell from a master that is not a fabric port (R251). -/
def ringDoorbell (h : Hw) (m : Master) (q : Nat) (d : Desc) : Hw :=
  let (h, r) := tryEnter h q (.master m) d
  match r with
  | .ok _ => dispatch h
  | r => dropPosting h q (mcode m) r

/-! ### Deadlines, records and the end of items -/

/-- Judge the deadline of the item on core c by the present moment (R264). -/
def judgeDeadline (h : Hw) (c : Nat) : Hw :=
  match (h.core c).item with
  | some i => match i.deadline with
    | some dl =>
      let late := if h.now ≤ dl then none else some (min ((h.now - dl + 79) / 80) (2 ^ 32 - 1))
      let h := h.onCore c fun x => { x with item := some { i with deadline := none, late := late } }
      if late.isSome then (h.cnt (K.SCHED_Q_STAT_MISS i.q)).cnt K.SCHED_MISS_MISS else h
    | none => h
  | none => h

/-- Append a record to a reply queue without a ticket. -/
def placeRecord (h : Hw) (q : Nat) (d : Desc) : Hw := place h q (entryLevel h q d) none d

/-- The completion or abort record of the item on core c (R263). -/
def finalRecord (h : Hw) (c : Nat) (i : Item) (e : Ending) : Desc :=
  let kind := if e.cause = 0 then 1 else 2
  mkDesc (e.value % 2 ^ 32 * 2 ^ 32 + e.cause * 256 + kind) e.tval.toNat
    (i.late.getD 0 * 2 ^ 32 + b2n i.late.isSome * 2 ^ 31 + c * 2 ^ 16 + i.q)
    (h.rd (K.CREW_CORE_BURN_COUNT c)) 0 0 i.w6.toNat i.w7.toNat

/-- Change the reply state of the item on core c. -/
def setReply (h : Hw) (c : Nat) (r : ReplyState) : Hw :=
  h.onCore c fun x => { x with item := x.item.map fun i => { i with reply := r } }

/-- The final record of an item that ends (R213, R258, R263, R265). -/
def sendFinal (h : Hw) (c : Nat) (i : Item) (e : Ending) : Hw :=
  match i.reply with
  | .absent => h
  | .refused | .lost _ => h.cnt K.SCHED_MISS_LOST
  | .credit r => placeRecord (addRes h r false) r (finalRecord h c i e)
  | .used r =>
    if e.cause = 0 then h
    else if !qEn h r || qCred h r = 0 then h.cnt K.SCHED_MISS_LOST
    else placeRecord h r (finalRecord h c i e)

/-- The end of the item on core c: its deadline is judged, its final record sent, its ticket released, and the core is
idle (R192, R213). A core that Adit steps halts idle. -/
def endItem (h : Hw) (c : Nat) (e : Ending) : Hw :=
  let h := judgeDeadline h c
  match (h.core c).item with
  | none => h
  | some i =>
    let h := dropTicket (sendFinal h c i e) i.ticket
    let h := h.wr (K.CREW_CORE_ITEM_BUSY c) 0
    let old := h.core c
    dispatch (h.setCore c { icache := old.icache, idleSince := h.now, stores := old.stores, loads := old.loads })

end Sys2Proof.Machine
end

