-- ==== Sys2Proof/Machine/Memory.lean ====
section
/-!
DEFINITION. Reads of code-byte memories (R422, R423), DRAM address mapping and lines (R381, R389, R395, R396), the inline
cipher (R401 to R414), and reads and writes of hub memory by hub blocks.
-/
namespace Sys2Proof.Machine

/-! ### Reads of code-byte memories (R422, R423) -/

/-- The byte addresses a read found in error, and those it could not correct. -/
def badBytes (l : List (Nat × ByteSeen)) : List Nat := (l.filter fun x => x.2 != .clean).map (·.1)
def deadBytes (l : List (Nat × ByteSeen)) : List Nat := (l.filter fun x => x.2 == .uncorrectable).map (·.1)

/-- ADDR of a memory error (R427): a core-local address for m = 1, else the hub address. -/
def errAddr (a : Nat) : Nat := if localBase ≤ a then 0xFFFFFFFFFFFC0000 + (a - localBase) % 0x40000 else a
/-- Core number of a local SRAM address. -/
def errCore (a : Nat) : Nat := if localBase ≤ a then (a - localBase) / 0x40000 else 0

/-- DATA of a memory error (R427). -/
def errData (h : Hw) (n m a : Nat) : Nat :=
  let (s, p) := syndrome (SMap.get h.mem.ecc a 0)
  min n 255 * 2 ^ 16 + m * 2 ^ 12 + errCore a * 2 ^ 6 + b2n p * 2 ^ 5 + s

/-- Count and log what a read of n bytes at a found (R422, R423). -/
def countRead (h : Hw) (who : Nat) (a n : Nat) : Hw :=
  match memIndex a with
  | none => h
  | some m =>
    let l := h.mem.seen a n
    let bad := badBytes l
    let dead := deadBytes l
    let fixed := bad.length - dead.length
    let h := if fixed = 0 then h else h.cnt (K.ERR_CNT_CORR m)
    match dead with
    | d :: _ =>
      logEntry (h.cnt (K.ERR_CNT_UNCORR m)) srcMem who 2 (errAddr d) (errData h bad.length m d)
    | [] => match bad with
      | [] => h
      | b :: _ =>
        let key := (errAddr b, errCore b)
        if SMap.get (h.mem.lastCe.map fun e => (e.1, some e.2)) m none = some key then h
        else
          let data := errData h bad.length m b
          let h := { h with mem := { h.mem with lastCe := SMap.ins (SMap.erase h.mem.lastCe m) m key } }
          logEntry h srcMem who 1 (errAddr b) data

/-- Read n bytes of a code-byte memory or DRAM: the value, whether a byte was uncorrectable, and the state after the
counting. -/
def memRead (h : Hw) (who : Nat) (a n : Nat) : Nat × Bool × Hw :=
  (h.mem.fixedN a n, !(deadBytes (h.mem.seen a n)).isEmpty, countRead h who a n)


/-! ### DRAM geometry (R378 to R383) -/

/-- Byte i of the option shadow. -/
def optByte (h : Hw) (i : Nat) : Nat := h.rd (K.RST_OPT_BYTES (i / 8)) / 256 ^ (i % 8) % 256
/-- RATE of channel n: 2 and 3 are DDR5 (R448). -/
def ddrRate (h : Hw) (n : Nat) : Nat := optByte h (0x18 + n) % 4
/-- The channels of the set run one type. -/
def isDdr5 (h : Hw) : Bool := decide (2 ≤ ddrRate h 0)
/-- Channels of the interleave set: 1, 2 or 4 (R383). -/
def chanCount (h : Hw) : Nat := match h.rd K.DDR_MAP_CHANS with | 0 => 1 | 1 => 2 | _ => 4
/-- STATE codes of a channel. -/
def chState (h : Hw) (n : Nat) : Nat := h.rd (K.DDR_C_STAT_STATE n)
def chReset : Nat := 0
def chTraining : Nat := 1
def chActive : Nat := 2
def chSelfref : Nat := 3
def chRetrain : Nat := 4
def chFailed : Nat := 5
/-- A channel in one of the states in which its data counts as installed (R383). -/
def chHolds (h : Hw) (n : Nat) : Bool := chState h n == chActive || chState h n == chRetrain || chState h n == chSelfref

/-- The installed total in bytes (R383). -/
def installedDram (h : Hw) : Nat :=
  if h.bit K.CLK_STAT_XABSENT || !((List.range (chanCount h)).all (chHolds h)) then 0
  else chanCount h * 2 ^ (6 + h.rd (K.DDR_C_GEOM_COLBITS 0) + h.rd (K.DDR_C_GEOM_BGBITS 0) + h.rd (K.DDR_C_GEOM_BABITS 0) +
    b2n (isDdr5 h) + h.rd (K.DDR_C_GEOM_ROWBITS 0) + h.rd (K.DDR_C_GEOM_RANKBITS 0))

/-- Parity of a number below 2^40. -/
def parity (x : Nat) : Nat := popCount 40 x % 2
/-- Anchor of a mask: its lowest set bit, if it has one. -/
def anchor (m : Nat) : Option Nat := (List.range 40).find? m.testBit
/-- Delete the bits at the listed places and close up. -/
def removeBits (x : Nat) (set : List Nat) : Nat :=
  ofBits ((List.range 40).filterMap fun i => if set.contains i then none else some (x.testBit i))
where
  /-- The number with these bits, lowest first. -/
  ofBits : List Bool → Nat
    | [] => 0
    | b :: r => b2n b + 2 * ofBits r

/-- Where a line lies. -/
structure DramLoc where
  ch : Nat
  sc : Nat
  rank : Nat
  bg : Nat
  ba : Nat
  row : Nat
  column : Nat
  deriving DecidableEq, Repr

/-- Channel masks in use (R381). -/
def chanMasks (h : Hw) : List Nat := match h.rd K.DDR_MAP_CHANS with
  | 0 => []
  | 1 => [h.rd (K.DDR_CHMASK_MASK 0)]
  | _ => [h.rd (K.DDR_CHMASK_MASK 0), h.rd (K.DDR_CHMASK_MASK 1)]

/-- Whether mask i of a channel is in use (R381). -/
def maskUsed (h : Hw) (n i : Nat) : Bool :=
  match i with
  | 2 => h.rd (K.DDR_C_GEOM_BGBITS n) == 3
  | 1 => decide (2 ≤ h.rd (K.DDR_C_GEOM_BGBITS n))
  | 4 => h.rd (K.DDR_C_GEOM_BABITS n) == 2
  | 5 => isDdr5 h
  | _ => true

/-- The mapping of R381 for a DRAM offset. -/
def ddrMap (h : Hw) (o : Nat) : DramLoc :=
  let cm := chanMasks h
  let ch := (cm.zipIdx).foldl (fun x e => x + 2 ^ e.2 * parity (o &&& e.1)) 0
  let o1 := removeBits o (cm.filterMap anchor)
  let m (i : Nat) : Nat := if maskUsed h ch i then h.rd (K.DDR_C_MASK_MASK ch i) else 0
  let p (i : Nat) : Nat := parity (o1 &&& m i)
  let o2 := removeBits o1 ((List.range 6).filterMap fun i => anchor (m i))
  let col := h.rd (K.DDR_C_GEOM_COLBITS ch)
  let row := h.rd (K.DDR_C_GEOM_ROWBITS ch)
  { ch := ch, bg := p 0 + 2 * p 1 + 4 * p 2, ba := p 3 + 2 * p 4, sc := p 5, column := bits o2 (5 + col) 6, row := bits o2 (5 + col + row) (6 + col), rank := o2 / 2 ^ (6 + col + row) % 2 ^ h.rd (K.DDR_C_GEOM_RANKBITS ch) }

/-- ADDR and DATA of a DRAM line error (R427). -/
def dramErrData (l : DramLoc) (symbols : Nat) : Nat :=
  l.row * 2 ^ 32 + min symbols 255 * 2 ^ 24 + l.ch * 2 ^ 16 + l.rank * 2 ^ 14 + l.bg * 2 ^ 11 + l.ba * 2 ^ 9 + l.sc * 2 ^ 8

/-! ### Row disturbance (R389, R390) -/

/-- Number of a bank's activate table. -/
def bankNo (l : DramLoc) : Nat := (((l.ch * 4 + l.rank) * 2 + l.sc) * 8 + l.bg) * 4 + l.ba

/-- One activate of row r in a table; the flag asks for a neighbour refresh. -/
def rhCount (t : List (Nat × Nat)) (r thresh : Nat) : List (Nat × Nat) × Bool :=
  let old := SMap.get (t.map fun e => (e.1, some e.2)) r none
  let (t, n) := match old with
    | some c => (SMap.erase t r, c + 1)
    | none =>
      if t.length < 16 then (t, 1)
      else
        let low := t.foldl (fun (best : Option (Nat × Nat)) e => match best with
          | none => some e
          | some b => if e.2 < b.2 then some e else some b) none
        match low with
        | some b => (SMap.erase t b.1, b.2 + 1)
        | none => (t, 1)
  if thresh ≤ n then (SMap.ins t r 0, true) else (SMap.ins t r n, false)

/-- An access to a line activates its row unless the row is open, which the manual leaves to the controller: a free
value. -/
def activate (h : Hw) (l : DramLoc) : Hw :=
  let (v, h) := h.draw
  if v % 2 = 0 then h
  else
    let (t, hit) := rhCount (SMap.get h.dram.tables (bankNo l) []) l.row (h.rd (K.DDR_C_RH_THRESH l.ch))
    let h := { h with dram := { h.dram with tables := SMap.set h.dram.tables (bankNo l) t [] } }
    if hit then h.cnt (K.DDR_C_CNT_RHACT l.ch) else h

/-! ### Lines (R395, R396) -/

/-- The stored line at a line-aligned DRAM offset. -/
def rawLine (h : Hw) (o : Nat) : Nat := h.mem.readN (dramBase + o) 64
/-- Write a whole line; it is good again. -/
def putLine (h : Hw) (o v : Nat) : Hw :=
  { h with mem := h.mem.writeN (dramBase + o) 64 v (allOn 64), dram := { h.dram with bad := h.dram.bad.filter (· != o / 64) } }
/-- Whether a line is known to be uncorrectable. -/
def lineBad (h : Hw) (o : Nat) : Bool := h.dram.bad.contains (o / 64)

/-- What the line code makes of a read of a line (R395): a miscorrection returns other data. -/
inductive LineSeen where
  | clean
  | corrected (n : Nat)
  | uncorrectable
  | wrong (n data : Nat)
  deriving DecidableEq, Repr

/-- The code symbols in error. -/
def badSymbols (h : Hw) (l : LineErrs) : List Nat :=
  (List.range (if isDdr5 h then 80 else 72)).filter fun s =>
    (l.filter fun e => e.1.val == s).foldl (fun x e => x ^^^ e.2.toNat) 0 != 0

/-- The device a code symbol of x4 devices lies on: data symbols in ascending beat and then ascending DQ order, check symbols on
the two check devices (R395). -/
def symbolDevice (h : Hw) (s : Nat) : Nat :=
  let n := if isDdr5 h then 8 else 16
  if s < 64 then s % n else n + s % 2

/-- What the Reed-Solomon code of a channel makes of the errors of a line, by the table of R395: beyond its bounds it finds the
line uncorrectable or miscorrects it, which is open. -/
def judgeLine (h : Hw) (ch : Nat) (l : LineErrs) : LineSeen × Hw :=
  let bad := badSymbols h l
  let t := bad.length
  let x8 := h.bit (K.DDR_C_GEOM_X8 ch)
  let confined := match bad with | [] => true | s :: r => r.all fun x => symbolDevice h x == symbolDevice h s
  let fixes := if x8 then decide (t ≤ if isDdr5 h then 7 else 3) else confined
  let finds := decide (t ≤ match x8, isDdr5 h with | true, true => 9 | true, false => 5 | false, true => 8 | false, false => 4)
  if t = 0 then (.clean, h)
  else if fixes then (.corrected t, h)
  else if finds then (.uncorrectable, h)
  else
    let (v, h) := h.draw
    (if v % 2 = 0 then .uncorrectable else .wrong (v / 2 % 256) (v / 2 ^ 9 % 2 ^ 512), h)

/-- What the line code reports for a line read: counters and the log (R395, R396, R422). -/
def lineSeen (h : Hw) (who o : Nat) (seen : LineSeen) : Hw :=
  let l := ddrMap h o
  let h := activate h l
  let h := { h with dram := { h.dram with bad := h.dram.bad.filter (· != o / 64) } }
  match seen with
  | .clean => h
  | .corrected n | .wrong n _ =>
    let h := h.cnt (K.DDR_C_ECC_CORR l.ch)
    if SMap.get h.dram.lastCe l.ch 0 = o / 64 + 1 then h
    else logEntry { h with dram := { h.dram with lastCe := SMap.set h.dram.lastCe l.ch (o / 64 + 1) 0 } } srcDdr who 1
      (dramBase + o) (dramErrData l n)
  | .uncorrectable =>
    logEntry ({ h with dram := { h.dram with bad := o / 64 :: h.dram.bad } }.cnt (K.DDR_C_ECC_UNCORR l.ch)) srcDdr who 2
      (dramBase + o) (dramErrData l 0)

/-- What a hub block finds at a line: a line known to be uncorrectable stays so. -/
def knownSeen (h : Hw) (o : Nat) : LineSeen := if lineBad h o then .uncorrectable else .clean

/-! ### Regions and counters (R401 to R406) -/

/-- First and limit page, and first counter page, of region r; the number N of its pages. -/
def regBase (h : Hw) (r : Nat) : Nat := h.rd (K.CIPH_R_BASE_BASE r)
def regLimit (h : Hw) (r : Nat) : Nat := h.rd (K.CIPH_R_LIMIT_LIMIT r)
def regCtr (h : Hw) (r : Nat) : Nat := h.rd (K.CIPH_R_CTR_CTR r)
def regEn (h : Hw) (r : Nat) : Bool := h.bit (K.CIPH_R_BASE_EN r)
def regPages (h : Hw) (r : Nat) : Nat := regLimit h r - regBase h r

/-- The enabled region a DRAM offset lies in (R401). -/
def regionAt (h : Hw) (o : Nat) : Option Nat :=
  (List.range 16).find? fun r => regEn h r && decide (regBase h r ≤ o / 4096 ∧ o / 4096 < regLimit h r)
/-- Whether an offset lies in the counter area of an enabled region (R404, R405). -/
def inCounters (h : Hw) (o : Nat) : Bool :=
  (List.range 16).any fun r => regEn h r && decide (regCtr h r * 4096 ≤ o ∧ o < regCtr h r * 4096 + regPages h r * 256)

/-- Offset of counter line half of page p, copy A or B (R404). -/
def ctrLine (h : Hw) (r p copy half : Nat) : Nat :=
  regCtr h r * 4096 + copy * (regPages h r * 128) + p * 128 + half * 64
/-- A counter block: its two lines. -/
structure CtrBlock where
  l0 : Nat
  l1 : Nat
  deriving DecidableEq, Repr
/-- A stored copy of a block. -/
def readCopy (h : Hw) (r p copy : Nat) : CtrBlock := ⟨rawLine h (ctrLine h r p copy 0), rawLine h (ctrLine h r p copy 1)⟩
/-- Write one copy of a block. -/
def writeCopy (h : Hw) (r p copy : Nat) (b : CtrBlock) : Hw :=
  putLine (putLine h (ctrLine h r p copy 0) b.l0) (ctrLine h r p copy 1) b.l1
/-- Write both copies. -/
def writeCtr (h : Hw) (r p : Nat) (b : CtrBlock) : Hw := writeCopy (writeCopy h r p 0 b) r p 1 b
/-- MAJOR of a counter line, and of a block: the larger of its two lines holds (R406). -/
def lineMajor (l : Nat) : Nat := bits l 503 448
def CtrBlock.major (b : CtrBlock) : Nat := max (lineMajor b.l0) (lineMajor b.l1)
/-- Minor of line i of the page. -/
def CtrBlock.minor (b : CtrBlock) (i : Nat) : Nat :=
  bits (if i < 32 then b.l0 else b.l1) (14 * (i % 32) + 13) (14 * (i % 32))
/-- A block from a MAJOR and its minors. -/
def mkCtr (major : Nat) (minor : Nat → Nat) : CtrBlock :=
  let line (k : Nat) : Nat :=
    major % 2 ^ 56 * 2 ^ 448 + (List.range 32).foldl (fun x j => x + minor (32 * k + j) % 2 ^ 14 * 2 ^ (14 * j)) 0
  ⟨line 0, line 1⟩
/-- The block that holds when two correct copies differ (R406). -/
def mergeCtr (a b : CtrBlock) : CtrBlock :=
  if b.major < a.major then mkCtr a.major a.minor
  else if a.major < b.major then mkCtr b.major b.minor
  else mkCtr a.major fun i => max (a.minor i) (b.minor i)

/-- Post a cipher event to Q6 (R400, R416). -/
def ciphEvent (h : Hw) (code r arg1 : Nat) : Hw := postEvent h 6 (r * 2 ^ 16 + code) arg1 0 0

/-- Number of page p of region r in the cache, the poison list and the list of ended pages. -/
def pageNo (r p : Nat) : Nat := r * 2 ^ 27 + p
/-- Hub address of page p of region r. -/
def pageAddr (h : Hw) (r p : Nat) : Nat := dramBase + (regBase h r + p) * 4096
/-- A block becomes the most recently used; of more than eight blocks of one of the 512 sets the last used one leaves
(R406). -/
def touchCache (h : Hw) (r p : Nat) : Hw :=
  let c := pageNo r p :: h.dram.cache.filter (· != pageNo r p)
  let set := c.filter fun x => x % 512 == p % 512
  let c := match set.drop 8 with
    | [] => c
    | gone => c.filter fun x => !gone.contains x
  { h with dram := { h.dram with cache := c } }
/-- A counter block is in the cache. -/
def cached (h : Hw) (r p : Nat) : Bool := h.dram.cache.contains (pageNo r p)
/-- A page's counters are lost (R414). -/
def isPoisoned (h : Hw) (r p : Nat) : Bool := h.dram.poisoned.contains (pageNo r p)

/-- Both copies of a missed block have arrived and are resolved (R406, R414). -/
def resolveCtr (h : Hw) (r p : Nat) (aOk bOk : Bool) : Hw :=
  let a := readCopy h r p 0
  let b := readCopy h r p 1
  if isPoisoned h r p then touchCache h r p
  else match aOk, bOk with
  | true, true =>
    if a = b then touchCache h r p
    else touchCache ((writeCtr h r p (mergeCtr a b)).cnt K.CIPH_CNT_MISMATCH) r p
  | true, false => touchCache ((writeCopy h r p 1 a).cnt K.CIPH_CNT_CTRFIX) r p
  | false, true => touchCache ((writeCopy h r p 0 b).cnt K.CIPH_CNT_CTRFIX) r p
  | false, false =>
    let h := { h with dram := { h.dram with poisoned := pageNo r p :: h.dram.poisoned } }
    let h := h.cnt K.CIPH_CNT_CTRPOISON
    let h := logErr h srcCipher none .event 0x11 (pageAddr h r p) (regVal h (K.CIPH_CNT_CTRPOISON).addr)
    touchCache (ciphEvent h 0x11 r (pageAddr h r p)) r p

/-! ### Keystream and lines of a region (R407, R408, R412, R413) -/

/-- Key slots of region r. -/
def ciphCur (h : Hw) (r : Nat) : Option Nat := SMap.get h.keys.ciphCur r none
def ciphPend (h : Hw) (r : Nat) : Option Nat := SMap.get h.keys.ciphPend r none
/-- The key a page is served under: pending below the Meridian of a running re-key, else current (R412). -/
def pageKey (h : Hw) (r p : Nat) : Option Nat :=
  if h.bit (K.CIPH_R_MER_REKEY r) && decide (regBase h r + p < h.rd (K.CIPH_R_MER_MERIDIAN r)) then ciphPend h r
  else ciphCur h r
/-- Whether accesses to a region complete with TGTERR (R403, R410). -/
def regionShut (h : Hw) (r : Nat) : Bool :=
  (ciphCur h r).isNone || h.bit (K.CIPH_R_MER_CUT r) || (h.rd K.CIPH_STAT_INSTALL).testBit r

/-- The counter block of block b of a line (R408). -/
def aesInput (r major minor o b : Nat) : Nat :=
  r * 2 ^ 124 + major % 2 ^ 56 * 2 ^ 68 + minor % 2 ^ 14 * 2 ^ 54 + bits o 38 6 * 2 ^ 21 + b
/-- The keystream of a line: byte k of block b is byte 16 b + k. -/
def keystream (key r major minor o : Nat) : Nat :=
  (List.range 4).foldl (fun x b =>
    x + Config.aes256 key (toBytes 16 (aesInput r major minor o b)).reverse % 2 ^ 128 * 2 ^ (128 * b)) 0

/-- The plaintext of a stored line of a region. -/
def plainLine (h : Hw) (r o : Nat) : Nat :=
  let p := o / 4096 - regBase h r
  let c := readCopy h r p 0
  rawLine h o ^^^ keystream ((pageKey h r p).getD 0) r c.major (c.minor (o / 64 % 64)) o

/-- The 64 plaintext lines of a page; a line that cannot be corrected reads as a free value. -/
def pageLines (h : Hw) (r p : Nat) : List Nat × Hw :=
  let base := (regBase h r + p) * 4096
  let (v, h) := h.draw
  ((List.range 64).map fun i =>
    let o := base + 64 * i
    if lineBad h o || isPoisoned h r p then v / 2 ^ (512 * i) % 2 ^ 512 else plainLine h r o, h)

/-- Write a page's lines under a key and a MAJOR with every minor 0, and then both counter copies. -/
def writePage (h : Hw) (r p key major : Nat) (lines : List Nat) : Hw :=
  let base := (regBase h r + p) * 4096
  let h := (lines.zipIdx).foldl (fun h x =>
    let o := base + 64 * x.2
    putLine h o (x.1 ^^^ keystream key r major 0 o)) h
  touchCache (writeCtr h r p (mkCtr major fun _ => 0)) r p

/-- A MAJOR has grown to `major`: MAJORNEAR is posted once for the region (R413). -/
def majorNear (h : Hw) (r p major : Nat) : Hw :=
  if 2 ^ 56 - 2 ^ 16 < major ∧ !h.dram.near.contains r then
    ciphEvent { h with dram := { h.dram with near := r :: h.dram.near } } 0x12 r (pageAddr h r p)
  else h

/-- Write a plaintext line into a region: counters first, then the line (R407, R413). Answers the status. -/
def storeLine (h : Hw) (r o v : Nat) : Status × Hw :=
  let p := o / 4096 - regBase h r
  let i := o / 64 % 64
  let key := (pageKey h r p).getD 0
  let c := readCopy h r p 0
  if isPoisoned h r p || h.dram.ended.contains (pageNo r p) then (.tgterr, h)
  else if c.minor i < 2 ^ 14 - 1 then
    let c := mkCtr c.major fun j => if j = i then c.minor i + 1 else c.minor j
    let line (k : Nat) : Nat := if i < 32 then ctrLine h r p k 0 else ctrLine h r p k 1
    let w := if i < 32 then c.l0 else c.l1
    let h := putLine (putLine h (line 0) w) (line 1) w
    (.ok, putLine (touchCache h r p) o (v ^^^ keystream key r c.major (c.minor i) o))
  else if c.major = 2 ^ 56 - 1 then
    (.tgterr, ciphEvent { h with dram := { h.dram with ended := pageNo r p :: h.dram.ended } } 0x13 r (pageAddr h r p))
  else
    let (ls, h) := pageLines h r p
    let h := writePage h r p key (c.major + 1) (ls.set i v)
    (.ok, (majorNear h r p (c.major + 1)).cnt K.CIPH_CNT_PAGEREENC)

/-- x with the bytes enabled in be replaced by those of v. -/
def mergeBytes (n x v be : Nat) : Nat :=
  (List.range n).foldl (fun x i => if be.testBit i then setBits x (8 * i) 8 (v / 256 ^ i % 256) else x) x

/-- Read one line of DRAM through the cipher. Answers data, whether it is poisoned, and the state. -/
def loadLine (h : Hw) (who o : Nat) (seen : LineSeen) : Nat × Bool × Hw :=
  let h := lineSeen h who o seen
  match regionAt h o with
  | none => match seen with
    | .wrong _ v => (v, false, h)
    | _ => (rawLine h o, seen == .uncorrectable, h)
  | some r =>
    let p := o / 4096 - regBase h r
    if isPoisoned h r p then (0, true, h)
    else match seen with
      | .wrong _ v => (v, false, touchCache h r p)
      | _ => (plainLine h r o, seen == .uncorrectable, touchCache h r p)

/-- Write bytes of one line of DRAM through the cipher; a partial write is a read, a merge and a write (R396, R407). -/
def saveLine (h : Hw) (who o v be : Nat) (seen : LineSeen) : Status × Hw :=
  let whole := be % 2 ^ 64 == 2 ^ 64 - 1
  let (old, bad, h) := if whole then (0, false, activate h (ddrMap h o)) else loadLine h who o seen
  if be % 2 ^ 64 = 0 then (.ok, h)
  else match regionAt h o with
    | none => if bad then (.poison, h) else (.ok, putLine h o (mergeBytes 64 old v be))
    | some r =>
      if isPoisoned h r (o / 4096 - regBase h r) then (.tgterr, h)
      else if bad then (.poison, h) else storeLine h r o (mergeBytes 64 old v be)

/-! ### Accesses by hub blocks -/

/-- The parts of [a, a + n) that lie in single 64-byte lines: address and length. -/
def lineParts (a n : Nat) : List (Nat × Nat) :=
  (List.range ((a + n + 63) / 64 - a / 64)).map fun i =>
    let lo := max a ((a / 64 + i) * 64)
    let hi := min (a + n) ((a / 64 + i + 1) * 64)
    (lo, hi - lo)

/-- Whether an address lies in the DRAM range. -/
def inDram (a : Nat) : Bool := decide (dramBase ≤ a ∧ a < dramBase + 2 ^ 39)

/-- The counters of every page an access needs are fetched. -/
def fetchCounters (h : Hw) (o : Nat) : Hw :=
  match regionAt h o with
  | none => h
  | some r =>
    let p := o / 4096 - regBase h r
    if cached h r p then h
    else
      let ok (k : Nat) : Bool := !lineBad h (ctrLine h r p k 0) && !lineBad h (ctrLine h r p k 1)
      resolveCtr h r p (ok 0) (ok 1)

/-- A hub block reads n bytes of hub memory: the data, the status of R25, and the state. -/
def busRead (h : Hw) (who a n : Nat) : Nat × Status × Hw :=
  if !inDram a then
    let (v, bad, h) := memRead h who a n
    (v, if bad then .poison else .ok, h)
  else if dramBase + installedDram h < a + n then (0, .decerr, h)
  else
    let (x, _, st, h) := (lineParts a n).foldl (fun (acc : Nat × Nat × Status × Hw) part =>
      let (x, k, st, h) := acc
      let o := part.1 - dramBase
      match regionAt h o with
      | some r =>
        if regionShut h r then (x, k + part.2, .tgterr, h)
        else
          let (v, bad, h) := loadLine (fetchCounters h o) who (o / 64 * 64) (knownSeen h (o / 64 * 64))
          (x + v / 256 ^ (o % 64) % 256 ^ part.2 * 256 ^ k, k + part.2, if bad then .poison else st, h)
      | none =>
        if inCounters h o then (x, k + part.2, .denied, h)
        else
          let (v, bad, h) := loadLine h who (o / 64 * 64) (knownSeen h (o / 64 * 64))
          (x + v / 256 ^ (o % 64) % 256 ^ part.2 * 256 ^ k, k + part.2, if bad then .poison else st, h)) (0, 0, .ok, h)
    (x, st, h)

/-- A hub block writes n bytes of hub memory. -/
def busWrite (h : Hw) (who : Option Nat) (a n v : Nat) : Status × Hw :=
  if !inDram a then (.ok, hubWrite h who a n v (allOn n))
  else if dramBase + installedDram h < a + n then (.decerr, h)
  else
    let (_, st, h) := (lineParts a n).foldl (fun (acc : Nat × Status × Hw) part =>
      let (k, st, h) := acc
      let o := part.1 - dramBase
      let shut := match regionAt h o with | some r => regionShut h r | none => false
      if shut then (k + part.2, .tgterr, h)
      else if inCounters h o then (k + part.2, .denied, h)
      else
        let h := fetchCounters h o
        let (s, h) := saveLine h (who.getD 0) (o / 64 * 64) (v / 256 ^ k * 256 ^ (o % 64))
          (allOn part.2 * 2 ^ (o % 64)) (knownSeen h (o / 64 * 64))
        (k + part.2, if s = .ok then st else s, h)) (0, .ok, h)
    (st, h)

end Sys2Proof.Machine
end

