-- ==== Sys2Proof/Machine/Clock.lean ====
section
/-!
DEFINITION. User clocks (R96 to R111): PLL frequencies and their clamps, grid lock, network sources and switches, hub
gates and stake counters, as operations the commands and the other units share.
-/
namespace Sys2Proof.Machine

/-- Of the values that satisfy ok, the one nearest v; of two equally near, the one nearer the reset value, then the
lower (R302). v itself where none does. -/
def nearest (cands : List Nat) (v rst : Nat) : Nat :=
  let dist (a b : Nat) : Nat := (a - b) + (b - a)
  (cands.foldl (fun (best : Option Nat) c => match best with
    | none => some c
    | some b =>
      if dist c v < dist b v ∨ (dist c v = dist b v ∧
        (dist c rst < dist b rst ∨ (dist c rst = dist b rst ∧ c < b))) then some c else some b) none).getD v

/-- The values lo..hi. -/
def upTo (lo hi : Nat) : List Nat := (List.range (hi + 1 - lo)).map (· + lo)

namespace Hw

/-- Phase of PLL i of die n. -/
def pll (h : Hw) (n i : Nat) : PllPhase := SMap.get h.clk.plls (n * 16 + i) .stopped
/-- Set the phase of PLL i of die n. -/
def setPll (h : Hw) (n i : Nat) (p : PllPhase) : Hw :=
  { h with clk := { h.clk with plls := SMap.set h.clk.plls (n * 16 + i) p .stopped } }
/-- Network m of die n beyond its registers. -/
def net (h : Hw) (n m : Nat) : NetSt := SMap.get h.clk.nets (n * 64 + m) {}
/-- Replace network m of die n. -/
def setNet (h : Hw) (n m : Nat) (x : NetSt) : Hw :=
  { h with clk := { h.clk with nets := SMap.set h.clk.nets (n * 64 + m) x {} } }
/-- Change network m of die n. -/
def onNet (h : Hw) (n m : Nat) (f : NetSt → NetSt) : Hw := h.setNet n m (f (h.net n m))

end Hw

/-! ### PLL frequencies, in kHz as a fraction (R97, R98) -/

/-- Reference frequency of a PLL from its applied fields; a CASCADE reference is computed (R97). -/
def pllRef (h : Hw) (n : Nat) : Nat → Nat × Nat
  | 0 => match h.rd (K.CLK_PLL_REF_REFSEL n 0) with
    | 1 => (h.rd (K.CLK_PLL_REF_REFKHZ n 0), 1)
    | 2 => (200000, 1)
    | _ => (100000, 1)
  | i + 1 => match h.rd (K.CLK_PLL_REF_REFSEL n (i + 1)) with
    | 1 => (h.rd (K.CLK_PLL_REF_REFKHZ n (i + 1)), 1)
    | 2 => (200000, 1)
    | 3 =>
      let (a, b) := pllRef h n i
      (a * h.rd (K.CLK_PLL_MUL_M n i), b * h.rd (K.CLK_PLL_MUL_D n i) * h.rd (K.CLK_PLL_OUT_O n i 3))
    | _ => (100000, 1)

/-- 10 MHz ≤ fpfd ≤ 400 MHz (R98). -/
def okD (r : Nat × Nat) (d : Nat) : Bool := decide (10000 * (r.2 * d) ≤ r.1 ∧ r.1 ≤ 400000 * (r.2 * d))
/-- 1,600 MHz ≤ fvco ≤ 3,200 MHz (R98). -/
def okM (r : Nat × Nat) (d m : Nat) : Bool :=
  decide (1600000 * (r.2 * d) ≤ r.1 * m ∧ r.1 * m ≤ 3200000 * (r.2 * d))
/-- fout ≤ 1,600 MHz (R98). -/
def okO (r : Nat × Nat) (d m o : Nat) : Bool := decide (r.1 * m ≤ 1600000 * (r.2 * d * o))

/-- D, M and the four O after the checks of R99 in their order, from the staged values. -/
def pllClamp (r : Nat × Nat) (d m : Nat) (os : List Nat) : Nat × Nat × List Nat :=
  let d := nearest ((upTo 1 64).filter (okD r)) d 1
  let m := nearest ((upTo 4 320).filter (okM r d)) m 24
  (d, m, os.map fun o => nearest ((upTo 1 128).filter (okO r d m)) o 30)

/-! ### Grid lock (R102) -/

/-- K × D × O / M as an integer, if it is one. -/
def kStep (kref d o m : Nat) : Option Nat := if (kref * d * o) % m = 0 then some (kref * d * o / m) else none

/-- K of output k of PLL i, if the output is grid-locked: the PLL is locked, its reference is grid-locked, and K is an
integer (R102). -/
def pllK (h : Hw) (n : Nat) : Nat → Nat → Option Nat
  | 0, k =>
    if h.pll n 0 = .locked ∧ h.rd (K.CLK_PLL_REF_REFSEL n 0) = 0 then
      kStep 32 (h.rd (K.CLK_PLL_MUL_D n 0)) (h.rd (K.CLK_PLL_OUT_O n 0 k)) (h.rd (K.CLK_PLL_MUL_M n 0))
    else none
  | i + 1, k =>
    if h.pll n (i + 1) ≠ .locked then none
    else
      let kref := match h.rd (K.CLK_PLL_REF_REFSEL n (i + 1)) with
        | 0 => some 32
        | 3 => pllK h n i 3
        | _ => none
      kref.bind fun kr => kStep kr (h.rd (K.CLK_PLL_MUL_D n (i + 1))) (h.rd (K.CLK_PLL_OUT_O n (i + 1) k))
        (h.rd (K.CLK_PLL_MUL_M n (i + 1)))

/-- GLOCK of every PLL of a die follows R102. -/
def refreshGlock (h : Hw) (n : Nat) : Hw :=
  (List.range 16).foldl (fun g i =>
    g.wr (K.CLK_PLL_STAT_GLOCK n i) (maskOf ((List.range 4).filter fun k => (pllK h n i k).isSome))) h

/-- K of the clock a source code names, if it is grid-locked (R102, R103). -/
def sourceK (h : Hw) (n code : Nat) : Option Nat :=
  if code = 0x6A then some 16
  else if code = 0x6B then some 32
  else if 1 ≤ code ∧ code ≤ 0x40 then pllK h n ((code - 1) / 4) ((code - 1) % 4)
  else none

/-- K of a network: of the source its switch passes. -/
def netK (h : Hw) (n m : Nat) : Option Nat := sourceK h n (h.net n m).cur

/-! ### Networks (R103 to R107) -/

/-- Source code applied at input i of a network. -/
def netSrc (h : Hw) (n m i : Nat) : Nat :=
  if i = 0 then h.rd (K.CLK_NET_SRC_SRC0 n m) else h.rd (K.CLK_NET_SRC_SRC1 n m)

/-- The input the select asks for (R105). -/
def wantedInput (h : Hw) (n m : Nat) : Nat :=
  if h.bit (K.CLK_NET_SRC_SELSRC n m) then b2n (h.net n m).fsel else h.rd (K.CLK_NET_SRC_SEL n m)

/-- Start a switch when the select or the source of the input passed differs from what the switch passes (R105). -/
def trySwitch (h : Hw) (n m : Nat) : Hw :=
  let x := h.net n m
  let want := wantedInput h n m
  if x.sw = .idle ∧ (want ≠ h.rd (K.CLK_NET_STAT_ACTIVE n m) ∨ netSrc h n m want ≠ x.cur) then
    (h.setNet n m { x with sw := .waitOld, target := want }).wr (K.CLK_NET_STAT_SWITCHING n m) 1
  else h

/-- Whether the clock a source code names delivers edges (R97, R100, R103). -/
def sourceLive (h : Hw) (n code : Nat) : Bool :=
  if code = 0 then false
  else if code ≤ 0x40 then
    let i := (code - 1) / 4
    (h.pll n i == .locked || h.pll n i == .freeRunning) && h.bit (K.CLK_PLL_OUT_EN n i ((code - 1) % 4))
  else if code = 0x6A ∨ code = 0x6B then h.bit K.CLK_STAT_SLOCK
  else true

/-- Whether edges arrive at a network's hub gate: the switch is not parked, its source runs, and the fabric enable, if
used, is 1 (R103, R107). -/
def netEdges (h : Hw) (n m : Nat) : Bool :=
  let x := h.net n m
  x.sw != .parked && sourceLive h n x.cur && (!h.bit (K.CLK_NET_SRC_UENUSE n m) || x.fen)

/-- Whether a network's hub gate is closed. -/
def netHalted (h : Hw) (n m : Nat) : Bool := h.bit (K.CLK_NET_STAT_HALTED n m)

/-! ### Fabric dies -/
namespace Hw
/-- Die n beyond its registers. -/
def die (h : Hw) (n : Nat) : DieSt := SMap.get h.dies n {}
/-- Change die n beyond its registers. -/
def onDie (h : Hw) (n : Nat) (f : DieSt → DieSt) : Hw := { h with dies := SMap.put h.dies n (f (h.die n)) }
end Hw

end Sys2Proof.Machine
end

