-- ==== Sys2Proof/Machine/SeamBase.lean ====
section
/-!
DEFINITION. The parts of a seam by number (R14, R112, R231), its messages' CRC (R134), the modes of its groups (R116 to R118) and
the conditions of a binding (R124).
-/
namespace Sys2Proof.Machine

/-- CRC-16 of R134, most significant bit first, over bytes in transmission order. -/
def crc16Byte (crc : Nat) (b : Byte) : Nat :=
  (List.range 8).foldl (fun c _ => if c.testBit 15 then ((c * 2) % 65536) ^^^ 0x1021 else (c * 2) % 65536)
    (crc ^^^ (b.toNat * 256))
/-- CRC-16 of a message (R134). -/
def crc16 (l : List Byte) : Nat := l.foldl crc16Byte 0xFFFF

/-! ### Access to a seam -/
namespace Hw
/-- Seam k beyond its registers. -/
def seamSt (h : Hw) (k : Nat) : SeamSt := SMap.get h.seam.seams k {}
/-- Change seam k beyond its registers. -/
def onSeam (h : Hw) (k : Nat) (f : SeamSt → SeamSt) : Hw :=
  { h with seam := { h.seam with seams := SMap.put h.seam.seams k (f (h.seamSt k)) } }
/-- Networks the manager halted in packed domain d. -/
def pdomClosed (h : Hw) (d : Nat) : List Nat := (SMap.get h.seam.pdoms d {}).closed
/-- Replace that record. -/
def setPdomClosed (h : Hw) (d : Nat) (l : List Nat) : Hw :=
  { h with seam := { h.seam with pdoms := SMap.set h.seam.pdoms d ⟨l⟩ {} } }
/-- The lane at a place of seam k. -/
def lane (h : Hw) (k : Nat) (i : Nat) : LaneSt := SMap.get (h.seamSt k).lanes i {}
/-- Change a lane of seam k. -/
def onLane (h : Hw) (k i : Nat) (f : LaneSt → LaneSt) : Hw :=
  h.onSeam k fun s => { s with lanes := SMap.set s.lanes i (f (h.lane k i)) {} }
end Hw

/-- The physical lane number of a lane, direction 1 above direction 0 (R112). -/
def laneNo (l : LaneRef) : Nat := l.dir * 2304 + 17 * l.g + l.lane

/-- STATE codes of R132. -/
def seamState (h : Hw) (k : Nat) : Nat := h.rd (K.SEAM_STAT_STATE k)
def seamLive (h : Hw) (k : Nat) : Bool := seamState h k == 5
/-- Fabric seams are 0 to 3. -/
def isFabric (k : Nat) : Bool := decide (k < 4)
/-- Groups per direction (R112). -/
def seamGroups (k : Nat) : Nat := if k < 4 then 128 else 64
/-- The far die of the fabric seam owned by Fn (R14). -/
def farDie (n : Nat) : Nat := (n + 1) % 4
/-- Hub seam of die n. -/
def hubSeam (n : Nat) : Nat := n + 4
/-- The dies a seam touches. -/
def seamDies (k : Nat) : List Nat := if k < 4 then [k, farDie k] else [k - 4]
/-- Sending and receiving die of a direction of the fabric seam of Fn (R112). -/
def sendDie (n dir : Nat) : Nat := if dir = 0 then n else farDie n
def recvDie (n dir : Nat) : Nat := if dir = 0 then farDie n else n

/-- GSTATE codes. -/
def gOff : Nat := 0
def gLive : Nat := 1
def gResync : Nat := 2
def gHold : Nat := 3
def gRetired : Nat := 4
def gRemapped : Nat := 5

/-- Whether a group is retired, remapped or not. -/
def isRetired (h : Hw) (k d g : Nat) : Bool := decide (4 ≤ h.rd (K.SEAM_GRP_STAT_GSTATE k d g))
/-- Retired groups of a direction. -/
def retiredGroups (h : Hw) (k d : Nat) : List Nat := (List.range (seamGroups k)).filter (isRetired h k d)
/-- Committed mode of a group of a fabric seam; hub groups count as DIRECT. -/
def cmode (h : Hw) (k d g : Nat) : Nat := if k < 4 then h.rd (K.SEAM_GRP_CFG_MODE k d g) else 1
/-- Signals per lane of a packed mode code: 2, 4, ..., 64; 0 for OFF and DIRECT (R116). -/
def packN (mode : Nat) : Nat := if 2 ≤ mode ∧ mode ≤ 7 then 2 ^ (mode - 1) else 0
/-- KMIN of a packed mode (R118). -/
def kminOf (mode : Nat) : Nat := (17 * packN mode + 31) / 32


/-! ### Bindings and the plan applied (R122, R141, R143) -/

/-- Groups committed to binding b in a packed mode. -/
def bindGroups (h : Hw) (n d b : Nat) : List Nat :=
  (List.range 128).filter fun g => packN (cmode h n d g) != 0 && h.rd (K.SEAM_GRP_CFG_BIND n d g) == b

/-- Word i of a plan. -/
def planWord (p : List Nat) (i : Nat) : Nat := p.getD i 0
/-- Mode code a plan gives a binding (R141). -/
def planCode (p : List Nat) (d b : Nat) : Nat := bits (planWord p (2 + d)) (4 * b + 3) (4 * b)
/-- Groups of quarter q. -/
def quarter (q : Nat) : List Nat := (List.range 32).map (32 * q + ·)

/-- Whether the plan in force was applied with group g retired. -/
def planRetired (h : Hw) (n d g : Nat) : Bool := (if d = 0 then (h.seamSt n).ret0 else (h.seamSt n).ret1).testBit g
/-- Retired DIRECT groups of a quarter, each with the live committed-OFF group that carries it (R143). -/
def drafts (h : Hw) (n d q : Nat) : List (Nat × Nat) :=
  ((quarter q).filter fun g => planRetired h n d g && cmode h n d g == 1).zip
    ((quarter q).filter fun g => !planRetired h n d g && cmode h n d g == 0)
/-- Code of the plan in force for the binding of a packed group; 0 where it leaves the binding unchanged. -/
def planCodeOf (h : Hw) (n d g : Nat) : Nat :=
  match (h.seamSt n).plan with
  | some p => if packN (cmode h n d g) = 0 then 0 else planCode p d (h.rd (K.SEAM_GRP_CFG_BIND n d g))
  | none => 0
/-- The groups of the binding of group g in its quarter: all of them, and those that carry values under the plan in force. -/
def planSrc (h : Hw) (n d g : Nat) : List Nat :=
  (bindGroups h n d (h.rd (K.SEAM_GRP_CFG_BIND n d g))).filter fun x => x / 32 == g / 32
def planDst (h : Hw) (n d g : Nat) : List Nat := (planSrc h n d g).filter fun x => !planRetired h n d x

/-- Mode applied to a group, the plan in force included (R143); hub groups read 0. -/
def amode (h : Hw) (k d g : Nat) : Nat :=
  if !isFabric k then 0
  else if planCodeOf h k d g ≠ 0 then planCodeOf h k d g
  else if (h.seamSt k).plan.isSome && (drafts h k d (g / 32)).any fun x => x.2 == g then 1
  else cmode h k d g

/-- Whether the plan in force carries the slots of a retired group in other groups (R143). -/
def remapped (h : Hw) (n d g : Nat) : Bool :=
  planRetired h n d g && (planCodeOf h n d g != 0 ||
    ((h.seamSt n).plan.isSome && (drafts h n d (g / 32)).any fun x => x.1 == g))

/-- Group and slot in which slot s of group g travels (R143). -/
def slotCarrier (h : Hw) (n d g s : Nat) : Nat × Nat :=
  if planCodeOf h n d g ≠ 0 then
    let i := ((planSrc h n d g).filter fun x => decide (x < g)).foldl (fun a x => a + 16 * packN (cmode h n d x)) s
    let w := 16 * packN (planCodeOf h n d g)
    ((planDst h n d g).getD (i / w) 128, i % w)
  else match (if (h.seamSt n).plan.isSome then (drafts h n d (g / 32)).find? fun x => x.1 == g else none) with
    | some x => (x.2, s)
    | none => (g, s)

end Sys2Proof.Machine
end

