-- ==== Sys2Proof/Machine/Design.lean ====
section
/-!
DEFINITION. What the design of the fabric dies computes: the configuration the frames hold (R82), the value of every wire
(R39 to R47, R55, R67 to R81) through the fences (R304), the seam slots (R114 to R120), and what a clock edge does to
flip-flops, LUT-RAM, block RAM, arithmetic blocks and slots (R44, R47, R49 to R56, R108).
-/
namespace Sys2Proof.Machine

/-- q with the bits of mask taken from v. -/
def mergeBits (q mask v : Nat) : Nat := q ^^^ ((q ^^^ v) &&& mask)

/-! ### Configuration (R82) -/

/-- Frame k = 1024 * sector + f of die n. -/
def frameOf (h : Hw) (n k : Nat) : Nat := SMap.get (h.die n).frames k 0

/-- Sector in whose frames an item lies: that in which the multiplexer or the block sits. -/
def CfgItem.sector : CfgItem → Nat
  | .select w => w.sector
  | .lut x y _ | .cell x y _ | .ff x y _ _ | .cluster x y | .wordOut _ x y _ => sectorAt x y
  | .tap s _ | .spineOn s _ | .ram s _ | .ramBits s _ | .arith s _ => s

/-- Frame and bit of a bit of an item: a select lies in one frame, and the enables and sources of a sector's spine drivers in
its spine frame (R82). -/
def bitAddr (it : CfgItem) (b : Nat) : Nat × Nat :=
  let p := Config.bitPlace it b
  match it with
  | .spineOn s _ | .select (.driver s _) => (Config.spineFrame s % 1024, p % 4096)
  | .select w => (Config.selFrame w % 1024, p % 4096)
  | _ => (p / 4096 % 1024, p % 4096)

/-- Bit b of an item among the frames `fr` of a die. -/
def itemBit (fr : Nat → Nat) (it : CfgItem) (b : Nat) : Bool :=
  let a := bitAddr it b
  (fr (1024 * it.sector + a.1)).testBit a.2
/-- Bits lo to lo + w - 1 of an item. -/
def itemNum (fr : Nat → Nat) (it : CfgItem) (lo w : Nat) : Nat :=
  (List.range w).foldl (fun x i => x + b2n (itemBit fr it (lo + i)) * 2 ^ i) 0
/-- An item of die n as configured. -/
def cfgNum (h : Hw) (n : Nat) (it : CfgItem) (lo w : Nat) : Nat := itemNum (frameOf h n) it lo w
def cfgBit (h : Hw) (n : Nat) (it : CfgItem) (b : Nat) : Bool := itemBit (frameOf h n) it b
/-- Write a bit of an item into the frames of a die. -/
def putBit (fr : SMap Nat) (e : CfgItem × Nat × Bool) : SMap Nat :=
  let a := bitAddr e.1 e.2.1
  SMap.upd fr (1024 * e.1.sector + a.1) 0 fun x => setBitAt x a.2 e.2.2

/-- Select code of the multiplexer that drives a wire. The 16 bits of a bundle share one (R67). -/
def muxCode (h : Hw) (n : Nat) (w : Wire) : Nat :=
  let w := match w with | .word d len x y _ => .word d len x y 0 | w => w
  cfgNum h n (.select w) 0 w.selBits

/-- Use of a cluster's LUTs (R46); only memory clusters have a choice (R35). -/
def memMode (h : Hw) (n x y : Nat) : MemMode :=
  if !isMemCluster x then .logic
  else match cfgNum h n (.cluster x y) 0 2 with | 0 => .logic | 1 => .ram64 | 2 => .ram32 | _ => .shift32

/-- Network a clock tap of a sector selects; there are 24 taps (R104). -/
def tapNet (h : Hw) (n s t : Nat) : Option Nat := if t < 24 then some (cfgNum h n (.tap s t) 0 6) else none
/-- Network and inversion of control set cs of a cluster (R43). -/
def setClock (h : Hw) (n x y cs : Nat) : Option (Nat × Bool) :=
  (tapNet h n (sectorAt x y) (cfgNum h n (.cluster x y) (2 + 6 * cs) 5)).map fun m =>
    (m, cfgBit h n (.cluster x y) (7 + 6 * cs))
/-- Options of a flip-flop (R43). -/
def ffCfg (h : Hw) (n x y k j : Nat) : FfCfg := FfCfg.of (cfgNum h n (.ff x y k j) 0 9)
/-- Options of the hard blocks. -/
def ramEcc (h : Hw) (n s i : Nat) : Bool := cfgBit h n (.ram s i) 0
def ramPortCfg (h : Hw) (n s i p : Nat) : RamPortCfg := RamPortCfg.of (cfgNum h n (.ram s i) (2 + 116 * p) 116)
def arithCfg (h : Hw) (n s i : Nat) : ArithCfg := ArithCfg.of (cfgNum h n (.arith s i) 0 15)

/-- Cell place of flip-flop f of sector s: X, Y, cell and j (R158). -/
def ffPlace (s f : Nat) : Nat × Nat × Nat × Nat :=
  (clusterX s (f / 32 % 64), clusterY s (f / 2048), f / 2 % 16, f % 2)
/-- Index of flip-flop j of cell k of the cluster at X, Y in its sector (R158). -/
def ffIndex (x y k j : Nat) : Nat := (((y % 64) * 64 + x % 64) * 16 + k) * 2 + j
/-- Flip-flops of a sector. -/
def ffCount : Nat := 131072

/-- The flip-flops of sector s clocked from network m, as a mask (R104). -/
def netMask (h : Hw) (n s m : Nat) : Nat :=
  maskOf ((List.range ffCount).filter fun f =>
    let (x, y, k, j) := ffPlace s f
    match setClock h n x y (ffCfg h n x y k j).cs with
    | some (net, _) => net == m
    | none => false)
/-- The INIT values of a sector's flip-flops (R43). -/
def initMask (h : Hw) (n s : Nat) : Nat :=
  maskOf ((List.range ffCount).filter fun f =>
    let (x, y, k, j) := ffPlace s f
    (ffCfg h n x y k j).init)

/-! ### Fences (R304) -/

/-- Whether a sector is fenced. -/
def isFenced (h : Hw) (n s : Nat) : Bool := h.bit (K.FENCE_SEC_FENCE n s)
/-- Whether the tap gate of network m in a sector is closed: the sector is fenced, or the device is in A3 (R104, R304). A gate
changes at its network's next edge after the fence closes or is lifted (R306, R307). -/
def tapClosed (h : Hw) (n s m : Nat) : Bool :=
  (isFenced h n s != (SMap.get (h.die n).taps s 0).testBit m) || h.rd K.PWR_STAT_STATE == 3
/-- Whether no tap gate of a sector passes edges, so that its flip-flops keep their values (R304). -/
def tapsShut (h : Hw) (n s : Nat) : Bool :=
  (isFenced h n s && SMap.get (h.die n).taps s 0 == 0) || h.rd K.PWR_STAT_STATE == 3
/-- What leaves a sector on wire w, of value v: a fenced sector presents its SETTING (R304). -/
def leaving (h : Hw) (n s : Nat) (w : Wire) (v : Bool) : Bool :=
  if !isFenced h n s then v
  else match h.rd (K.FENCE_SEC_SETTING n s) with
    | 1 => false
    | 2 => true
    | _ => (SMap.get (h.die n).held s []).contains w
/-- What arrives in sector `to` of a wire of sector `from` (R70, R304). -/
def crossing (h : Hw) (n source dest : Nat) (w : Wire) (v : Bool) : Bool :=
  if source = dest then v else if isFenced h n dest then false else leaving h n source w v

/-! ### Seam slots (R114 to R118) -/

/-- The fabric seam and the direction of the slots of a die: the seam it owns, or the one it is the far die of. -/
def rxSide (n : Nat) (far : Bool) : Nat × Nat := if far then ((n + 3) % 4, 0) else (n, 1)
def txSide (n : Nat) (far : Bool) : Nat × Nat := if far then ((n + 3) % 4, 1) else (n, 0)
/-- Whether the receive end, or the transmit end, of direction d lies on the far die. -/
def rxFar (d : Nat) : Bool := d == 0
def txFar (d : Nat) : Bool := d != 0

/-- Signals per group of a mode (R116). -/
def modeSignals (mode : Nat) : Nat := if mode = 1 then 16 else 16 * packN mode
/-- Value the group's receive slots present when it is not live: FENCE, where 0 holds the last value (R116). -/
def fenceValue (h : Hw) (k d g s : Nat) : Bool :=
  match h.rd (K.SEAM_GRP_CFG_FENCE k d g) with
  | 1 => false
  | 2 => true
  | _ => (SMap.get (h.seamSt k).shown (d * 128 + g) 0).testBit s
/-- Whether slot s of a group carries values: the group is LIVE or in RESYNC, or carried by a group that is (R137, R143). -/
def slotCarries (h : Hw) (k d g s : Nat) : Bool :=
  let up (g : Nat) : Bool := h.rd (K.SEAM_GRP_STAT_GSTATE k d g) == gLive || h.rd (K.SEAM_GRP_STAT_GSTATE k d g) == gResync
  let carrier := (slotCarrier h k d g s).1
  up carrier && (carrier == g || up g || h.rd (K.SEAM_GRP_STAT_GSTATE k d g) == gRemapped)
/-- Lane of its group that carries slot s in a mode (R116, R118). -/
def slotLane (mode s : Nat) : Nat := if mode = 1 then s else s / packN mode
/-- Whether the lane on which slot s of group g travels has failed abruptly and its spare has not yet taken over (R138). -/
def slotFrozen (h : Hw) (k d g s : Nat) : Bool :=
  let (c, t) := slotCarrier h k d g s
  (h.seamSt k).frozen.contains (d * 2304 + 17 * c + slotLane (amode h k d c) t)
/-- Value of receive slot s of group g at die n; `live` gives what a DIRECT slot's transmit slot carries (R116, R117, R120,
R138). -/
def rxSlot (h : Hw) (n : Nat) (far : Bool) (g s : Nat) (live : Bool) : Bool :=
  let (k, d) := rxSide n far
  let mode := cmode h k d g
  let b := h.rd (K.SEAM_GRP_CFG_BIND k d g)
  let last := (SMap.get (h.seamSt k).shown (d * 128 + g) 0).testBit s
  if mode = 0 ∨ modeSignals mode ≤ s then false
  else if !slotCarries h k d g s then fenceValue h k d g s
  else if slotFrozen h k d g s then last
  else if packN mode = 0 then live
  else if SMap.get (h.seamSt k).mute (d * 16 + b) 0 ≠ 0 then fenceValue h k d g s
  else last

/-! ### Remote seam channels (R369 to R373) -/

/-- Link l of the die n it belongs to, by its number on the die. -/
def chanLink (n l : Nat) : Nat := 16 * n + l
/-- Value the receive slots of a channel present while it is not aligned: FENCE, where 0 holds the last value (R373). -/
def chanFence (h : Hw) (l s : Nat) : Bool :=
  match h.rd (K.BORTIK_LINK_RSC_FENCE l) with
  | 1 => false
  | 2 => true
  | _ => (SMap.get h.bortik.links l {}).rscShown.testBit s
/-- Value of receive slot s of the channel of link l: 0 beyond its W signals, FENCE while it is not aligned or after a restore
(R370, R373, R377). -/
def chanSlot (h : Hw) (l s : Nat) : Bool :=
  let x := SMap.get h.bortik.links l {}
  if !h.bit (K.BORTIK_LINK_RSC_EN l) ∨ h.rd (K.BORTIK_LINK_RSC_W l) ≤ s then false
  else if !h.bit (K.BORTIK_LINK_RSCSTAT_ALIGNED l) ∨ x.rscMute ≠ 0 then chanFence h l s
  else x.rscShown.testBit s

/-! ### Values of wires -/

/-- The number on a group of wires of die n, bit 0 first. -/
def wireNum (v : Nat → Wire → Bool) (n w : Nat) (f : Nat → Wire) : Nat :=
  (List.range w).foldl (fun x i => x + b2n (v n (f i)) * 2 ^ i) 0

/-- What a candidate passes into a multiplexer in sector s of die n; c numbers the free values. Inputs from outside the routing
present 0 to a fenced sector (R304). -/
def candValue (h : Hw) (c : Nat) (v : Nat → Wire → Bool) (n : Nat) (w : Wire) (cand : Cand) : Bool :=
  let s := w.sector
  match cand with
  | .zero => false
  | .one => true
  | .wire (.spine col j) => if isFenced h n s then false else v n (.spine col j)
  | .wire u => crossing h n u.sector s u (v n u)
  | .source src =>
    let i := w.place.2 % 64 / 4
    if isFenced h n s then false
    else match src with
      | .ram b =>
        let st := SMap.get (h.die n).rams (16 * s + i) {}
        if b < 112 then (st.a.out (ramPortCfg h n s i 0)).testBit b else (st.b.out (ramPortCfg h n s i 1)).testBit (b - 112)
      | .arith b => v n (.sum s i (min b 64))
      | .rx far g k =>
        let (sm, d) := rxSide n far
        let u := Wire.site (.tx (txFar d) g k)
        let m := sendDie sm d
        rxSlot h n far g k (leaving h m u.sector u (v m u))
      | .chanRx l k => chanSlot h (chanLink n l) k
      | .outside b => Config.outside c n b

/-- Output of a multiplexer (R71). -/
def muxValue (h : Hw) (c : Nat) (v : Nat → Wire → Bool) (n : Nat) (w : Wire) : Bool :=
  candValue h c v n w (candidate w (muxCode h n w))

/-- Output of a word start, bit i: at the switch boxes of columns 31 and 32 a block's output group takes the place of the cells'
outputs where WORDOUT says so (R78). -/
def wordValue (h : Hw) (c : Nat) (v : Nat → Wire → Bool) (n : Nat) (d : Dir) (len x y i : Nat) : Bool :=
  let w := Wire.word d len x y i
  let code := muxCode h n w
  let atBlock := (x % 64 == 31 || x % 64 == 32) && decide (1 ≤ code) && decide (code ≤ 4)
  let ram := if atBlock then cfgNum h n (.wordOut true x y (code - 1)) 0 4 else 0
  let ar := if atBlock then cfgNum h n (.wordOut false x y (code - 1)) 0 4 else 0
  if ram ≠ 0 then candValue h c v n w (.source (.ram (16 * (ram - 1) + i)))
  else if ar ≠ 0 then candValue h c v n w (.source (.arith (16 * (ar - 1) + i)))
  else candValue h c v n w (candidate w code)

/-- Carry into cell k of a cluster (R42). -/
def carryIn (h : Hw) (v : Nat → Wire → Bool) (n x y k : Nat) : Bool :=
  match cfgNum h n (.cell x y k) 3 2 with
  | 1 => false
  | 2 => true
  | 3 => v n (.pin x y k .x)
  | _ =>
    if k ≠ 0 then v n (.carry x y (k - 1))
    else if y = 0 then false
    else crossing h n (sectorAt x (y - 1)) (sectorAt x y) (.carry x (y - 1) 15) (v n (.carry x (y - 1) 15))

/-- The LUT outputs, the carry bits and OA, OB of a cell (R39 to R41). -/
def cellValue (h : Hw) (v : Nat → Wire → Bool) (n x y k : Nat) : Carry × Bool × Bool :=
  let on := cfgBit h n (.cell x y k) 1
  let o := lutOut (memMode h n x y) (on || cfgBit h n (.cell x y k) 0) (cfgNum h n (.lut x y k) 0 64)
    (wireNum v n 6 fun i => .pin x y k (.a i))
  let gsel := cfgBit h n (.cell x y k) 2
  let g0 := v n (.pin x y k (if gsel then .x else .a 0))
  let g1 := v n (.pin x y k (if gsel then .y else .a 2))
  let cr := carryOf o.1 o.2 g0 g1 (carryIn h v n x y k)
  (cr, cellOuts on o cr)

/-- Whether the clock of control set cs, after inversion, is high in a cluster; a closed tap gate holds it low before inversion
(R43, R104). -/
def clockHigh (h : Hw) (n x y cs : Nat) : Bool :=
  match setClock h n x y cs with
  | some (m, inv) => ((h.net n m).high && !tapClosed h n (sectorAt x y) m) != inv
  | none => false

/-- What flip-flop j of a cell would load, its SR, and its clock enable input. -/
def ffInputs (h : Hw) (v : Nat → Wire → Bool) (n x y k j : Nat) (c : FfCfg) : Bool × Bool × Bool :=
  let (_, oa, ob) := cellValue h v n x y k
  (ffData j c.dsel oa ob (v n (.pin x y k .x)) (v n (.pin x y k .y)), v n (.pin x y k (if j = 0 then .e1 else .e2)),
    v n (.ctl x y (.sr c.cs)))

/-- Q of flip-flop j of a cell (R44). -/
def ffValue (h : Hw) (v : Nat → Wire → Bool) (n x y k j : Nat) : Bool :=
  let c := ffCfg h n x y k j
  let q := (SMap.get (h.die n).ff (sectorAt x y) 0).testBit (ffIndex x y k j)
  let (d, e, sr) := ffInputs h v n x y k j c
  if tapsShut h n (sectorAt x y) && !(h.die n).setReset then q
  else ffNow c (h.die n).setReset (clockHigh h n x y c.cs) q d e sr

/-- The inputs of an arithmetic block, its SUMIN, clock enable and SR (R55, R56). -/
def arithInputs (v : Nat → Wire → Bool) (n s i : Nat) : ArithIn :=
  { a := wireNum v n 27 fun b => .hard s i (.a b), b := wireNum v n 24 fun b => .hard s i (.b b),
    c := wireNum v n 64 fun b => .hard s i (.c b), d := wireNum v n 27 fun b => .hard s i (.d b), ld := v n (.hard s i .ld) }
/-- SUMIN: the sum of the block below, 0 at die row 0 (R55). -/
def arithSumin (h : Hw) (v : Nat → Wire → Bool) (n s i : Nat) : Nat :=
  if i ≠ 0 then wireNum v n 64 fun b => .sum s (i - 1) b
  else if s < 12 then 0
  else (List.range 64).foldl (fun x b =>
    x + b2n (crossing h n (s - 12) s (.sum (s - 12) 15 b) (v n (.sum (s - 12) 15 b))) * 2 ^ b) 0

/-- The enabled drivers of a spine, by sector row (R80). -/
def driversOn (h : Hw) (n col j : Nat) : List Nat := (List.range 16).filter fun r => cfgBit h n (.spineOn (12 * r + col) j) 0

/-- The value of a wire, from those of the wires it depends on. -/
def wireStep (h : Hw) (c : Nat) (v : Nat → Wire → Bool) (n : Nat) (w : Wire) : Bool :=
  match w with
  | .cell x y k .oa => (cellValue h v n x y k).2.1
  | .cell x y k .ob => (cellValue h v n x y k).2.2
  | .cell x y k .q1 => ffValue h v n x y k 0
  | .cell x y k .q2 => ffValue h v n x y k 1
  | .carry x y k => (cellValue h v n x y k).1.co
  | .casc x y k => cfgBit h n (.lut x y k) 31
  | .word d len x y i => wordValue h c v n d len x y i
  | .spine col j =>
    if (h.rd (K.SPINE_OFF_OFF n col)).testBit j then false
    else match driversOn h n col j with
      | [] => false
      | [r] => leaving h n (12 * r + col) (.driver (12 * r + col) j) (v n (.driver (12 * r + col) j))
      | _ => Config.freeWire c n (.spine col j)
  | .sum s i b =>
    let a := arithOut (arithCfg h n s i) (SMap.get (h.die n).ariths (16 * s + i) {}) (arithInputs v n s i) (arithSumin h v n s i)
    if b < 64 then a.1.testBit b else a.2
  | w => muxValue h c v n w

/-- The value of a wire to a depth; a wire that depends on itself takes a free value (R84). -/
def wireValue (h : Hw) (c : Nat) : Nat → Nat → Wire → Bool
  | 0, n, w => Config.freeWire c n w
  | f + 1, n, w => wireStep h c (wireValue h c f) n w

/-- More than the number of wires of the device: no path without a loop is as deep. -/
def wireDepth : Nat := 2 ^ 34
/-- The value of wire w of die n as the design stands; c numbers the free values, inputs from outside among them. -/
def look (h : Hw) (c n : Nat) (w : Wire) : Bool := wireValue h c wireDepth n w

/-- What the design presents at a site: 0 while the site's sector is fenced, 0 while nothing is configured there, INIT of a
driving flip-flop under set-reset (R105, R107). -/
def presented (h : Hw) (c n : Nat) (p : SitePin) : Bool :=
  if isFenced h n p.sector then false else look h c n (.site p)

/-- Value of receive slot s of group g of direction d of a fabric seam. -/
def slotNow (h : Hw) (c k d g s : Nat) : Bool :=
  let u := Wire.site (.tx (txFar d) g s)
  let m := sendDie k d
  rxSlot h (recvDie k d) (rxFar d) g s (leaving h m u.sector u (look h c m u))
/-- The receive slots of the DIRECT groups of a seam that are live keep what they present now, for the FENCE code that holds the
last value and for a lane that fails abruptly (R116, R138). -/
def snapSeam (h : Hw) (k : Nat) : Hw :=
  if !isFabric k then h
  else
    let c := h.freeCtr
    (List.range 2).foldl (fun h d => (List.range 128).foldl (fun h g =>
      if cmode h k d g = 1 ∧ slotCarries h k d g 0 then
        h.onSeam k fun s => { s with shown := SMap.put s.shown (d * 128 + g) (maskOf ((List.range 16).filter (slotNow h c k d g))) }
      else h) h) h.draw.2

/-- The wires that leave a sector: tracks and bundles that start in it, carries, cascades and sums at its northern edge, spine
drivers, transmit slots of seams and channels and the bank pins of its home bank (R304, R305, R370). -/
def wiresOf (s : Nat) : List Wire :=
  let at' (r c : Nat) : List Wire :=
    allDirs.flatMap fun d =>
      ([1, 2, 4, 12].flatMap fun len => (List.range (trackStarts len)).map fun t => Wire.bit d len (clusterX s c) (clusterY s r) t) ++
      ([4, 12].flatMap fun len => if bundleStarts d len (clusterX s c) (clusterY s r) then
        (List.range 16).map fun i => Wire.word d len (clusterX s c) (clusterY s r) i else [])
  ((List.range 64).flatMap fun r => (List.range 64).flatMap fun c => at' r c) ++
  ((List.range 64).flatMap fun c => .carry (clusterX s c) (clusterY s 63) 15 ::
    (List.range 16).map fun k => .casc (clusterX s c) (clusterY s 63) k) ++
  ((List.range 64).map fun b => .sum s 15 b) ++ ((List.range 48).map fun j => .driver s j) ++
  ([false, true].flatMap fun far => ((List.range 128).filter fun g => attachSector far g == s).flatMap fun g =>
    (List.range 1024).map fun k => .site (.tx far g k)) ++
  ((List.range 16).flatMap fun l => ((List.range 8192).filter fun k => chanSector l k == s).map fun k => .site (.chanTx l k)) ++
  (((List.range 12).filter fun j => homeSector j == s).flatMap fun j =>
    (List.range 48).flatMap fun i => [.site (.pad j i false), .site (.pad j i true)])

/-- What a sector's leaving wires hold when its fence closes (R304). -/
def heldWires (h : Hw) (c n s : Nat) : List Wire := (wiresOf s).filter (look h c n)

/-- What the design drives on pin i of local bank j: none is high impedance. While the home sector is fenced, the output enable
is held, and the value held or forced by SETTING (R305). -/
def padDrive (h : Hw) (c n j i : Nat) : Option Bool :=
  let s := homeSector j
  let oe := Wire.site (.pad j i true)
  let v := Wire.site (.pad j i false)
  let on := if isFenced h n s then (SMap.get (h.die n).held s []).contains oe else look h c n oe
  if on then some (leaving h n s v (look h c n v)) else none

/-! ### What an edge does -/

/-- Networks that rise, or fall, at one instant: bit 64 n + m. -/
structure Edges where
  rise : Nat
  fall : Nat
  deriving DecidableEq, Repr
namespace Edges
/-- A rising, a falling edge of network m of die n. -/
def rises (e : Edges) (n m : Nat) : Bool := e.rise.testBit (64 * n + m)
def falls (e : Edges) (n m : Nat) : Bool := e.fall.testBit (64 * n + m)
end Edges
/-- An active edge of a clock in sector s: rising after inversion, through an open tap gate (R43, R104). -/
def active (h : Hw) (e : Edges) (n s : Nat) (c : Option (Nat × Bool)) : Bool :=
  match c with
  | some (m, inv) => !tapClosed h n s m && (if inv then e.falls n m else e.rises n m)
  | none => false

/-- Flip-flops of a sector after the edges, as a number: an edge-triggered one with an active edge loads, every other keeps what
it drives (R44). -/
def ffAfter (h : Hw) (c : Nat) (e : Edges) (n s : Nat) : Nat :=
  maskOf ((List.range ffCount).filter fun f =>
    let (x, y, k, j) := ffPlace s f
    let o := ffCfg h n x y k j
    let q := look h c n (.cell x y k (if j = 0 then .q1 else .q2))
    if !o.latch && active h e n s (setClock h n x y o.cs) then
      let (d, en, sr) := ffInputs h (look h c) n x y k j o
      ffLoad o q d en sr
    else q)

/-- Writes of LUTs of a cluster by the edges, as configuration bits (R46, R47). -/
def lutWrites (h : Hw) (c : Nat) (e : Edges) (n x y : Nat) : List (CfgItem × Nat × Bool) :=
  let mode := memMode h n x y
  if mode = .logic ∨ !active h e n (sectorAt x y) (setClock h n x y 0) ∨ !look h c n (.ctl x y .we) then []
  else
    let addr := wireNum (look h c) n 6 fun i => .pin x y 15 (.a i)
    (List.range 16).flatMap fun k =>
      let old := cfgNum h n (.lut x y k) 0 64
      let below := if y = 0 then false
        else crossing h n (sectorAt x (y - 1)) (sectorAt x y) (.casc x (y - 1) k) (look h c n (.casc x (y - 1) k))
      let new := lutWritten mode old addr (look h c n (.pin x y k .x)) (look h c n (.pin x y k .y))
        (cfgBit h n (.cell x y k) 5) below
      ((List.range 64).filter fun b => old.testBit b != new.testBit b).map fun b => (.lut x y k, b, new.testBit b)

/-! ### Block RAM (R49 to R54). Blocks of a column are numbered 16 * sector row + i. -/

/-- Sector and index of block g of a column. -/
def ramAt (col g : Nat) : Nat × Nat := (12 * (g / 16) + col, g % 16)
/-- Whether block g is cascaded from the block below. -/
def ramJoined (h : Hw) (n col g : Nat) : Bool := g != 0 && cfgBit h n (.ram (ramAt col g).1 (ramAt col g).2) 1
/-- Lowest block of the cascade of block g; one that is not cascaded is its own. -/
def ramBase (h : Hw) (n col : Nat) : Nat → Nat
  | 0 => 0
  | g + 1 => if ramJoined h n col (g + 1) then ramBase h n col g else g + 1

/-- A stored 13-bit lane of a block. -/
def ramLaneOf (h : Hw) (n s i l : Nat) : Nat := cfgNum h n (.ramBits s i) (13 * l) 13

/-- What port p of the cascade from block b is given: its pins are those of the lowest block, and address bits 14 upward select
the block. -/
def ramInputs (v : Nat → Wire → Bool) (n s i p : Nat) : RamIn × Nat :=
  ({ addr := wireNum v n 14 fun k => .hard s i (.addr p k), data := wireNum v n 104 fun k => .hard s i (.data p k),
     we := wireNum v n 8 fun k => .hard s i (.we p k), ce := v n (.hard s i (.ce p)), sr := v n (.hard s i (.rsr p)) },
   wireNum v n 6 fun k => .hard s i (.addr p (14 + k)))

/-- What the edges do at one cascade: writes, the two port registers of its top block, and for reads in ECC mode the block, the
row and the lanes. -/
structure RamDone where
  writes : List (CfgItem × Nat × Bool) := []
  st : RamSt := {}
  seen : List (Nat × Nat × Nat × List Nat) := []

/-- Both ports of the cascade whose top block is g (R49 to R54). A cascade of which a sector is fenced does nothing. -/
def ramDo (h : Hw) (c : Nat) (e : Edges) (n col g : Nat) : RamDone :=
  let base := ramBase h n col g
  let (s, i) := ramAt col base
  let top := ramAt col g
  let old := SMap.get (h.die n).rams (16 * top.1 + top.2) {}
  let ecc := ramEcc h n s i
  let borders := g / 16 - base / 16
  let clk (p : Nat) : Option (Nat × Bool) :=
    (tapNet h n s (ramPortCfg h n s i p).tap).map fun m => (m, (ramPortCfg h n s i p).inv)
  let shut := (List.range (borders + 1)).any fun r => tapsShut h n (12 * (base / 16 + r) + col)
  let on (p : Nat) : Bool := !shut && active h e n s (clk p)
  let ins (p : Nat) : RamIn × Nat := ramInputs (look h c) n s i p
  let blk (p : Nat) : Nat := base + (ins p).2
  let there (p : Nat) : Bool := on p && decide (blk p ≤ g)
  let wr (p : Nat) : List (Nat × Nat) := if there p then ramWrites ecc (ramPortCfg h n s i p) (ins p).1 else []
  let common := clk 0 == clk 1
  let tie (p l : Nat) : Bool := !common && blk 0 == blk 1 && Config.freeWire c n (.hard s i (.data p l))
  /- A lane as port p finds it: the old contents, or at unrelated clocks wholly one or the other (R52). -/
  let found (p l : Nat) : Nat :=
    let (bs, bi) := ramAt col (blk p)
    let other := (wr (1 - p)).find? fun x => x.1 == l
    match other with
    | some x => if tie p l then x.2 else ramLaneOf h n bs bi l
    | none => ramLaneOf h n bs bi l
  let seen (p : Nat) : Option (List Nat) :=
    if there p then ramSeen (found p) ecc (ramPortCfg h n s i p) (ins p).1 else none
  /- Port B's lanes that port A also writes: A's data hold, or at unrelated clocks wholly one or the other (R52). -/
  let wrB := (wr 1).filter fun x => !(blk 0 == blk 1 && (wr 0).any (fun y => y.1 == x.1)) || tie 1 x.1
  let wrA := (wr 0).filter fun x => !(blk 0 == blk 1 && wrB.any fun y => y.1 == x.1)
  let bits (p : Nat) (l : List (Nat × Nat)) : List (CfgItem × Nat × Bool) :=
    let (bs, bi) := ramAt col (blk p)
    l.flatMap fun x => (List.range 13).map fun b => (.ramBits bs bi, 13 * x.1 + b, x.2.testBit b)
  let read (p : Nat) : Option Nat :=
    if on p && !there p then some (Config.freeAt c [0, n, col, g, p] % 2 ^ 106) else (seen p).map fun l => ramWord (ramRead ecc l)
  let step (p : Nat) (r : RamPort) : RamPort :=
    if on p then ramPortEdge (ramPortCfg h n s i p) borders (ins p).1 (read p) r else r
  let log (p : Nat) : List (Nat × Nat × Nat × List Nat) := match seen p with
    | some l => if ecc then [((ramAt col (blk p)).1, (ramAt col (blk p)).2, ramLane 8 (ins p).1.addr / 8, l)] else []
    | none => []
  { writes := bits 0 wrA ++ bits 1 wrB, st := { a := step 0 old.a, b := step 1 old.b }, seen := log 0 ++ log 1 }

/-- The top blocks of the cascades of a column. -/
def ramTops (h : Hw) (n col : Nat) : List Nat := (List.range 256).filter fun g => !(ramJoined h n col (g + 1) && decide (g < 255))

/-- Count and log what a read of a block RAM row in ECC mode found (R50, R422, R423, R427). -/
def countRam (h : Hw) (n : Nat) (r : Nat × Nat × Nat × List Nat) : Hw :=
  let (s, i, row, lanes) := r
  let m := 8 + n
  let addr := (16 * s + i) * 2 ^ 11 + row
  let bad := lanes.filter fun l => laneJudged l != .clean
  let dead := lanes.filter fun l => laneJudged l == .uncorrectable
  let data (l : Nat) : Nat :=
    min bad.length 255 * 2 ^ 16 + m * 2 ^ 12 + b2n (syndrome (laneDiff l)).2 * 2 ^ 5 + (syndrome (laneDiff l)).1
  let h := if bad.length = dead.length then h else h.cnt (K.ERR_CNT_CORR m)
  match dead with
  | l :: _ => logEntry (h.cnt (K.ERR_CNT_UNCORR m)) srcMem 0 2 addr (data l)
  | [] => match bad with
    | [] => h
    | l :: _ =>
      if SMap.get (h.mem.lastCe.map fun e => (e.1, some e.2)) m none = some (addr, 0) then h
      else logEntry { h with mem := { h.mem with lastCe := SMap.ins (SMap.erase h.mem.lastCe m) m (addr, 0) } } srcMem 0 1 addr
        (data l)

/-! ### Packed seam groups (R120) -/

/-- Enabled and aligned bindings of the fabric seams: owner, direction, binding. -/
def alignedBindings (h : Hw) : List (Nat × Nat × Nat) :=
  (List.range 4).flatMap fun k => (List.range 2).flatMap fun d => ((List.range 16).filter fun b =>
    h.bit (K.SEAM_BIND_CFG_EN k d b) && h.bit (K.SEAM_BIND_STAT_ALIGNED k d b)).map fun b => (k, d, b)
/-- Transmit and receive network of a binding, as 64 n + m. -/
def txNet (h : Hw) (x : Nat × Nat × Nat) : Nat := 64 * sendDie x.1 x.2.1 + h.rd (K.SEAM_BIND_CFG_TXNET x.1 x.2.1 x.2.2)
def rxNet (h : Hw) (x : Nat × Nat × Nat) : Nat := 64 * recvDie x.1 x.2.1 + h.rd (K.SEAM_BIND_CFG_RXNET x.1 x.2.1 x.2.2)
/-- Packed groups of a binding. -/
def packedGroups (h : Hw) (x : Nat × Nat × Nat) : List Nat :=
  (List.range 128).filter fun g => packN (cmode h x.1 x.2.1 g) != 0 && h.rd (K.SEAM_GRP_CFG_BIND x.1 x.2.1 g) == x.2.2

/-- The transmit slots of a group sampled at an edge. -/
def sampleGroup (h : Hw) (c k d g : Nat) : Nat :=
  let n := sendDie k d
  maskOf ((List.range (modeSignals (cmode h k d g))).filter fun s =>
    let w := Wire.site (.tx (txFar d) g s)
    leaving h n w.sector w (look h c n w))

/-- Seam k after the edges: samples enter at edge v of TXNET, and the value of edge v shows from edge v + DELTA + 1 of RXNET
(R120); for two edges after a restore the FENCE values show instead, and what was in flight is lost (R166). -/
def slotsAfter (h : Hw) (c : Nat) (e : Edges) (k : Nat) : SeamSt :=
  let keep (d g : Nat) (st : SeamSt) (v : Nat) : Nat :=
    mergeBits v (maskOf ((List.range (modeSignals (cmode h k d g))).filter (slotFrozen h k d g)))
      (SMap.get st.shown (d * 128 + g) 0)
  ((alignedBindings h).filter fun x => x.1 == k).foldl (fun st x =>
    let (_, d, b) := x
    let tx := txNet h x
    let rx := rxNet h x
    let vTx := ((h.net (tx / 64) (tx % 64)).stake + 1) % 2 ^ 48
    let vRx := ((h.net (rx / 64) (rx % 64)).stake + 1) % 2 ^ 48
    let due := (vRx + 2 ^ 49 - h.rd (K.SEAM_BIND_STAT_DELTA k d b) - 1) % 2 ^ 48
    let mute := SMap.get st.mute (d * 16 + b) 0
    let st := if e.rise.testBit rx && mute != 0 then { st with mute := SMap.set st.mute (d * 16 + b) (mute - 1) 0 } else st
    (packedGroups h x).foldl (fun st g =>
      let key := d * 128 + g
      let st := if e.rise.testBit rx then
          match (SMap.get st.sent key []).find? fun y => y.1 == due with
          | some y => { st with
              sent := SMap.set st.sent key ((SMap.get st.sent key []).filter fun z => z.1 != due) []
              shown := if mute = 0 then SMap.set st.shown key (keep d g st y.2) 0 else st.shown }
          | none => if mute = 0 then
              { st with shown := SMap.set st.shown key (keep d g st (Config.freeAt c [1, k, key] % 2 ^ 1024)) 0 } else st
        else st
      if e.rise.testBit tx then
        { st with sent := SMap.set st.sent key (SMap.get st.sent key [] ++ [(vTx, sampleGroup h c k d g)]) [] }
      else st) st) (h.seamSt k)

/-! ### Remote seam channels: what an edge does (R372) -/

/-- Slots 240 i to 240 i + 239 of cycle v in the receive buffer; open where the block has not come. -/
def chanPart (x : LinkSt) (l c v i : Nat) : Nat :=
  match x.rscBuf.find? fun e => e.1 == 32 * (v % 128) + i with
  | some e => e.2
  | none => Config.freeAt c [2, l, i] % 2 ^ 240
/-- The slots of cycle v. -/
def chanCycle (x : LinkSt) (l w c v : Nat) : Nat :=
  (List.range ((w + 239) / 240)).foldl (fun a i => a + chanPart x l c v i * 2 ^ (240 * i)) 0 % 2 ^ w

/-- The transmit slots of a channel sampled at an edge. -/
def sampleChan (h : Hw) (c l : Nat) : Nat :=
  maskOf ((List.range (h.rd (K.BORTIK_LINK_RSC_W l))).filter fun s =>
    let w := Wire.site (.chanTx (l % 16) s)
    leaving h (l / 16) w.sector w (look h c (l / 16) w))

/-- Sealed blocks are sent: at a count of 2^32 - 2^20 KEYSWITCH for the next epoch goes out with them (R364). -/
def LinkSt.counted (x : LinkSt) (n : Nat) : LinkSt :=
  if x.keyOut.isNone then x
  else { x with
    countOut := x.countOut + n
    switchOut := if 2 ^ 32 - 2 ^ 20 ≤ x.countOut + n ∧ x.switchOut.isNone then some false else x.switchOut }

/-- Lanes of link l (R355). -/
def linkWidth (h : Hw) (l : Nat) : Nat := 2 ^ h.rd (K.BORTIK_LINK_CFG_WIDTH l)

/-- Block positions per ms and lane, by step (R349). -/
def positions (step : Nat) : Nat :=
  match step with | 1 => 3676 | 2 => 36760 | 3 => 102930 | 4 => 193760 | 5 => 387520 | _ => 0

/-- KMIN of the sending direction (R371). -/
def rscKmin (h : Hw) (l : Nat) : Nat :=
  let b := (h.rd (K.BORTIK_LINK_RSC_W l) + 239) / 240
  let c := linkWidth h l * positions (h.rd (K.BORTIK_LINK_STAT_STEP l)) * h.rd (K.BORTIK_LINK_RSC_SHARE l)
  if c = 0 then 0 else (3200 * b * 16000 + c - 1) / c

/-- Every block of the marked cycle is in the receive buffer (R372). -/
def markIn (x : LinkSt) : Bool :=
  match x.rscMark with
  | some (v, _, w, _) => (List.range ((w + 239) / 240)).all fun i => x.rscBuf.any fun y => y.1 == 32 * (v % 128) + i
  | none => false

/-- A channel that is not yet aligned, after the edges: this end marks an edge of TXNET once its link is UP and its K is not below
its KMIN, and notes the edge of RXNET at which the partner's marked cycle is in the buffer (R372 steps 1 and 2). -/
def chanSeeks (h : Hw) (e : Edges) (l : Nat) (x : LinkSt) : LinkSt :=
  let n := l / 16
  let tx := h.rd (K.BORTIK_LINK_RSC_TXNET l)
  let rx := h.rd (K.BORTIK_LINK_RSC_RXNET l)
  let x := if e.rises n rx && markIn x && x.rscR0.isNone then { x with rscR0 := some (((h.net n rx).stake + 1) % 2 ^ 48) } else x
  match netK h n tx with
  | some k =>
    if e.rises n tx && h.rd (K.BORTIK_LINK_STAT_STATE l) == 6 && !x.rscTold && decide (rscKmin h l ≤ k) then
      { x.counted 1 with
        rscTold := true
        sentBlock := some (.rscMark (BitVec.ofNat 48 ((h.net n tx).stake + 1)) (BitVec.ofNat 12 k)
          (BitVec.ofNat 13 (h.rd (K.BORTIK_LINK_RSC_W l))) (BitVec.ofNat 12 (rscKmin h l))) }
    else x
  | none => x

/-- Link l after the edges: every slot is sampled at edge v of TXNET, and the values of cycle v show from the edge of RXNET
before v + DELTA + RLAT, at which a flip-flop captures them (R372). -/
def chanAfter (h : Hw) (c : Nat) (e : Edges) (l : Nat) : LinkSt :=
  let x := SMap.get h.bortik.links l {}
  let n := l / 16
  let w := h.rd (K.BORTIK_LINK_RSC_W l)
  let tx := h.rd (K.BORTIK_LINK_RSC_TXNET l)
  let rx := h.rd (K.BORTIK_LINK_RSC_RXNET l)
  if !h.bit (K.BORTIK_LINK_RSC_EN l) then x
  else if !h.bit (K.BORTIK_LINK_RSCSTAT_ALIGNED l) then chanSeeks h e l x
  else
    let x := if e.rises n rx then
        let due := ((h.net n rx).stake + 2 + 2 ^ 49 - h.rd (K.BORTIK_LINK_RSCSTAT_DELTA l) - h.rd (K.BORTIK_LINK_RSC_RLAT l)) % 2 ^ 48
        { x with
          rscShown := chanCycle x l w c due
          rscBuf := x.rscBuf.filter fun y => y.1 / 32 != due % 128
          rscMute := x.rscMute - 1 }
      else x
    if e.rises n tx then { x.counted ((w + 239) / 240) with rscSent := some (((h.net n tx).stake + 1) % 2 ^ 48, sampleChan h c l) } else x

/-! ### Edges that can come -/

/-- A network delivers edges: its hub gate is open and edges arrive at it (R103, R106, R107). -/
def netRuns (h : Hw) (n m : Nat) : Bool := !netHalted h n m && netEdges h n m
/-- Networks bound by an aligned binding run in step: each rises only with the other, while both run. A network told to close
gives no more rising edges once its partner has closed (R106, R120). -/
def inStep (h : Hw) (rise : Nat) (x : Nat × Nat × Nat) (i : Nat) : Bool :=
  let tx := txNet h x
  let rx := rxNet h x
  let j := if i = tx then rx else tx
  (i != tx && i != rx) || (if netRuns h (j / 64) (j % 64) then rise.testBit j else !(h.net (i / 64) (i % 64)).closing)
/-- The rising edges of a set that can come together. -/
def stepFilter (h : Hw) : Nat → Nat → Nat
  | 0, r => r
  | f + 1, r => stepFilter h f (maskOf ((bitList 256 r).filter fun i => (alignedBindings h).all fun x => inStep h r x i))
/-- The next rising edge of a network is the capture edge of a capture in progress, which CAPTURE_NETWORK stands for (R153). -/
def awaited (h : Hw) (n m : Nat) : Bool := match (h.die n).strata with
  | .capture c => c.waiting.testBit m
  | _ => false
/-- The edges of a draw that can come as the networks stand: rising edges of running networks that are low, falling edges of those
that are high. -/
def edgesOf (h : Hw) (r : Nat × Nat) : Edges :=
  { rise := stepFilter h 256 (maskOf ((bitList 256 r.1).filter fun i =>
      netRuns h (i / 64) (i % 64) && !(h.net (i / 64) (i % 64)).high && !awaited h (i / 64) (i % 64)))
    fall := maskOf ((bitList 256 r.2).filter fun i => (h.net (i / 64) (i % 64)).high) }

/-- Tap gates of die n after the edges: one still open behind a closing fence shuts when its network falls, and one shut in the
high phase in which a fence is lifted opens then (R306, R307). -/
def tapsAfter (h : Hw) (e : Edges) (n : Nat) : SMap Nat :=
  (h.die n).taps.foldl (fun t x => SMap.set t x.1
    (maskOf ((bitList 64 x.2).filter fun m => !e.falls n m)) 0) (h.die n).taps

/-- Die n after the edges: flip-flops, arithmetic blocks, block RAMs and the frames they and LUT-RAM write. Under device
set-reset nothing moves. -/
def dieAfter (h : Hw) (c : Nat) (e : Edges) (n : Nat) : DieSt :=
  let x := { h.die n with taps := tapsAfter h e n }
  if x.setReset then x
  else
    let open' := (List.range 192).filter fun s => !tapsShut h n s
    let rams := (List.range 12).flatMap fun col => (ramTops h n col).map fun g => (16 * (ramAt col g).1 + (ramAt col g).2, ramDo h c e n col g)
    let luts := open'.flatMap fun s => (List.range 4096).flatMap fun q =>
      lutWrites h c e n (clusterX s (q % 64)) (clusterY s (q / 64))
    { x with
      ff := open'.foldl (fun f s => SMap.set f s (ffAfter h c e n s) 0) x.ff
      ariths := open'.foldl (fun a s => (List.range 16).foldl (fun a i =>
        let o := arithCfg h n s i
        if active h e n s ((tapNet h n s o.tap).map fun m => (m, o.inv)) then
          SMap.upd a (16 * s + i) {} fun st => arithEdge o st (arithInputs (look h c) n s i) (arithSumin h (look h c) n s i)
            (look h c n (.hard s i .ace)) (look h c n (.hard s i .asr))
        else a) a) x.ariths
      rams := rams.foldl (fun r q => SMap.set r q.1 q.2.st {}) x.rams
      frames := (luts ++ rams.flatMap fun q => q.2.writes).foldl putBit x.frames }

/-- The networks after the edges: levels, and the stake counters of those that rose (R108). -/
def netsAfter (h : Hw) (e : Edges) : SMap NetSt :=
  (bitList 256 (e.rise ||| e.fall)).foldl (fun t i =>
    SMap.upd t i {} fun x =>
      if e.rise.testBit i then { x with high := true, stake := (x.stake + 1) % 2 ^ 48 } else { x with high := false }) h.clk.nets

/-- Edges that come together act on every die and seam, from what stood before them. -/
def edgeStep (h : Hw) (e : Edges) : Hw :=
  let c := h.freeCtr
  let seen := (List.range 4).flatMap fun n => if (h.die n).setReset then [] else
    (List.range 12).flatMap fun col => (ramTops h n col).flatMap fun g => (ramDo h c e n col g).seen.map fun r => (n, r)
  let h' := { h with
    dies := (List.range 4).foldl (fun t n => SMap.put t n (dieAfter h c e n)) h.dies
    clk := { h.clk with nets := netsAfter h e }
    bortik := { h.bortik with links := (List.range 64).foldl (fun t l => SMap.set t l (chanAfter h c e l) {}) h.bortik.links }
    seam := { h.seam with seams := (List.range 4).foldl (fun t k => SMap.put t k (slotsAfter h c e k)) h.seam.seams }
    freeCtr := c + 1 }
  seen.foldl (fun h r => countRam h r.1 r.2) h'

/-- Whether any network of the device runs. -/
def anyRuns (h : Hw) : Bool := (List.range 256).any fun i => netRuns h (i / 64) (i % 64)

/-- Time passes for the design: some number of edges come, which the manual does not fix. Nothing happens where every network is
halted. -/
def runDesign (h : Hw) : Hw :=
  if !anyRuns h then h
  else (Config.edges h.freeCtr).foldl (fun h r => edgeStep h (edgesOf h r)) { h with freeCtr := h.freeCtr + 1 }

end Sys2Proof.Machine
end

