-- ==== Sys2Proof/Machine/Gates.lean ====
section
/-!
DEFINITION. Hub gates, stake counters and flip-flops (R104 to R109), as operations the commands and the other units share.
-/
namespace Sys2Proof.Machine

/-- What the flip-flops of a sector drive (R44), and the state in which the free values of looking are spent. -/
def ffOf (h : Hw) (n s : Nat) : Nat × Hw :=
  (maskOf ((List.range ffCount).filter fun f =>
    let (x, y, k, j) := ffPlace s f
    look h h.freeCtr n (.cell x y k (if j = 0 then .q1 else .q2))), h.draw.2)

/-- One rising edge of network m of die n, after the falling edge of a high phase; networks bound to it rise with it. -/
def oneEdge (h : Hw) (n m : Nat) : Hw :=
  let i := 64 * n + m
  let h := if (h.net n m).high then edgeStep h { rise := 0, fall := 2 ^ i } else h
  let with' := (alignedBindings h).flatMap fun x =>
    if i = txNet h x then [rxNet h x] else if i = rxNet h x then [txNet h x] else []
  edgeStep h { rise := maskOf (i :: with'.filter fun j => netRuns h (j / 64) (j % 64)), fall := 0 }

/-- The hub gate has closed, at a falling edge (R106). -/
def gateClosed (h : Hw) (n m : Nat) : Hw :=
  let h := runDesign h
  let h := if (h.net n m).high then edgeStep h { rise := 0, fall := 2 ^ (64 * n + m) } else h
  (h.onNet n m fun x => { x with closing := false, high := false }).wr (K.CLK_NET_STAT_HALTED n m) 1

/-- Command a hub gate to close: at the next falling edge, or at once where no edges come (R106). -/
def closeGate (h : Hw) (n m : Nat) : Hw :=
  if netHalted h n m then h
  else if netEdges h n m then (runDesign h).onNet n m fun x => { x with closing := true }
  else gateClosed h n m

/-- Open a hub gate (R106). -/
def openGate (h : Hw) (n m : Nat) : Hw :=
  ((runDesign h).onNet n m fun x => { x with closing := false }).wr (K.CLK_NET_STAT_HALTED n m) 0

/-! ### Select and enable inputs from the fabric (R105, R107) -/

/-- What a fabric select or enable input can present when the design drives v: 0 while the site's sector is fenced or nothing is
routed to it (R71, R105). -/
def presentable (h : Hw) (n : Nat) (p : SitePin) (v : Bool) : Bool :=
  v && !isFenced h n p.sector && muxCode h n (.site p) != 0

/-- The fabric enable of a network changes (R107). -/
def setFen (h : Hw) (n m : Nat) (v : Bool) : Hw := (runDesign h).onNet n m fun x => { x with fen := v }
/-- The fabric select of a network changes: a select change (R105). -/
def setFsel (h : Hw) (n m : Nat) (v : Bool) : Hw := trySwitch ((runDesign h).onNet n m fun x => { x with fsel := v }) n m

/-- The select and enable inputs in use on a die present what their sources give now: after a fence closes or is lifted, a frame
is written, or set-reset begins or ends (R105, R107). -/
def refreshSites (h : Hw) (n : Nat) : Hw :=
  (List.range 64).foldl (fun h m =>
    let h := if h.bit (K.CLK_NET_SRC_SELSRC n m) then
        let v := presented h h.freeCtr n (.fsel m)
        if v = (h.net n m).fsel then h.draw.2 else setFsel h.draw.2 n m v
      else h
    if h.bit (K.CLK_NET_SRC_UENUSE n m) then
      let v := presented h h.freeCtr n (.fen m)
      if v = (h.net n m).fen then h.draw.2 else setFen h.draw.2 n m v
    else h) h

/-- Copy the 64 stake counters of a die and record the time (R109). -/
def latchStakes (h : Hw) (n : Nat) : Hw :=
  let h := runDesign h
  let h := (List.range 64).foldl (fun h m => h.onNet n m fun x => { x with latched := x.stake }) h
  (h.wr (K.CLK_STAKELATCH_TIME n) h.now).wr (K.CLK_STAKELATCH_HELD n) 1

/-- The value a read of STAKEm returns (R109). -/
def readStake (h : Hw) (n m : Nat) : Nat × Hw :=
  if h.bit (K.CLK_STAKELATCH_HELD n) then ((h.net n m).latched, h)
  else
    let h := runDesign h
    ((h.net n m).stake, h)

/-- Restart or start a PLL: its outputs stay low until it locks (R100). -/
def startPll (h : Hw) (n i : Nat) : Hw :=
  refreshGlock ((h.setPll n i .acquiring).wr (K.CLK_PLL_STAT_LOCK n i) 0) n

/-- Whether a PLL has a reference: a CASCADE reference needs output 3 of the PLL below enabled and not held low (R97). -/
def pllHasRef (h : Hw) (n i : Nat) : Bool :=
  if h.rd (K.CLK_PLL_REF_REFSEL n i) = 3 then
    h.bit (K.CLK_PLL_OUT_EN n (i - 1) 3) && (h.pll n (i - 1) == .locked || h.pll n (i - 1) == .freeRunning)
  else true

/-- All PLLs and networks of a die after a reset that reaches it (R111): stopped, sources none, gates closed, counters 0.
The registers take their values with the reset of the field table. -/
def resetClocks (h : Hw) (n : Nat) : Hw :=
  { h with clk := { h.clk with
      plls := SMap.keep h.clk.plls fun k _ => k / 16 != n
      nets := SMap.keep h.clk.nets fun k _ => k / 64 != n } }

end Sys2Proof.Machine
end

