-- ==== Sys2Proof/Machine/Seam.lean ====
section
/-!
DEFINITION. Seams (R112 to R149): groups, bindings and packed domains, training, sparing, degrade plans, quarantine and
rejoin, as operations the commands and the resets share. Seams are numbered as in R231.
-/
namespace Sys2Proof.Machine

/-- KMIN of a binding: the largest over its groups that are not retired, in the mode applied (R124). -/
def bindKmin (h : Hw) (n d b : Nat) : Nat :=
  ((bindGroups h n d b).filter fun g => !isRetired h n d g).foldl
    (fun x g => max x (kminOf (amode h n d g))) 0

/-- K of a binding's two networks. -/
def bindTxK (h : Hw) (n d b : Nat) : Option Nat := netK h (sendDie n d) (h.rd (K.SEAM_BIND_CFG_TXNET n d b))
def bindRxK (h : Hw) (n d b : Nat) : Option Nat := netK h (recvDie n d) (h.rd (K.SEAM_BIND_CFG_RXNET n d b))

/-- The conditions of R124. -/
def bindOk (h : Hw) (n d b : Nat) : Bool :=
  match bindTxK h n d b, bindRxK h n d b with
  | some x, some y => x == y && decide (x ≤ 4095) && decide (bindKmin h n d b ≤ x)
  | _, _ => false

/-- K, KRANGE, KMISMATCH and NOLOCK of a binding follow its networks (BINDd.b.STAT). -/
def bindStat (h : Hw) (n d b : Nat) : Hw :=
  let (kv, rng, mis, nol) := match bindTxK h n d b, bindRxK h n d b with
    | some x, some y => (if x = y then x else 0, decide (x = y ∧ 4095 < x), x != y, false)
    | _, _ => (0, false, false, true)
  (((h.wr (K.SEAM_BIND_STAT_K n d b) kv).wrB (K.SEAM_BIND_STAT_KRANGE n d b) rng).wrB
    (K.SEAM_BIND_STAT_KMISMATCH n d b) mis).wrB (K.SEAM_BIND_STAT_NOLOCK n d b) nol

/-- The fabric seams' bindings: owner, direction, binding. -/
def allBindings : List (Nat × Nat × Nat) :=
  (List.range 4).flatMap fun n => (List.range 2).flatMap fun d => (List.range 16).map fun b => (n, d, b)
/-- Whether a binding is enabled. -/
def bindEn (h : Hw) (x : Nat × Nat × Nat) : Bool := h.bit (K.SEAM_BIND_CFG_EN x.1 x.2.1 x.2.2)
/-- Packed domain of a binding. -/
def bindPdom (h : Hw) (x : Nat × Nat × Nat) : Nat := h.rd (K.SEAM_BIND_CFG_PDOM x.1 x.2.1 x.2.2)
/-- Enabled bindings of a packed domain. -/
def pdomBindings (h : Hw) (d : Nat) : List (Nat × Nat × Nat) :=
  allBindings.filter fun x => bindEn h x && bindPdom h x == d

/-- Networks of packed domain d on every die, as 64n + m. -/
def pdomNets (h : Hw) (d : Nat) : List Nat :=
  (List.range 4).flatMap fun n => (bitList 64 (h.rd (K.PDOM_NETS_NETS n d))).map (n * 64 + ·)
/-- The packed domain a network belongs to, if any. -/
def pdomOf (h : Hw) (n m : Nat) : Option Nat :=
  (List.range 64).find? fun d => (h.rd (K.PDOM_NETS_NETS n d)).testBit m
/-- HELD of a packed domain. -/
def pdomHeld (h : Hw) (d : Nat) : Bool := h.bit (K.PDOM_STAT_HELD 0 d)

/-- The packed groups of a binding present fence values (HOLD) or live ones, retired ones apart. -/
def setBindGroups (h : Hw) (n d b st : Nat) : Hw :=
  ((bindGroups h n d b).filter fun g => !isRetired h n d g).foldl
    (fun h g => h.wr (K.SEAM_GRP_STAT_GSTATE n d g) st) h

/-- TOOFAST of a domain on each die: a network of the domain runs at a K below KMIN (R125, R144). -/
def refreshTooFast (h : Hw) (d : Nat) : Hw :=
  (List.range 4).foldl (fun h n =>
    let kmin := h.rd (K.PDOM_STAT_KMIN n d)
    let fast := (bitList 64 (h.rd (K.PDOM_NETS_NETS n d))).any fun m =>
      match netK h n m with
      | some kv => decide (kv < kmin)
      | none => false
    h.wrB (K.PDOM_STAT_TOOFAST n d) fast) h

/-- Link l beyond its registers. -/
def linkSt (h : Hw) (l : Nat) : LinkSt := SMap.get h.bortik.links l {}
/-- Change link l beyond its registers. -/
def onLink (h : Hw) (l : Nat) (f : LinkSt → LinkSt) : Hw :=
  { h with bortik := { h.bortik with links := SMap.upd h.bortik.links l {} f } }
/-- Links with an enabled remote seam channel of a packed domain. -/
def rscLinks (h : Hw) (d : Nat) : List Nat :=
  (List.range 64).filter fun l => h.bit (K.BORTIK_LINK_CFG_EN l) && h.bit (K.BORTIK_LINK_RSC_EN l) && h.rd (K.BORTIK_LINK_RSC_PDOM l) == d

/-- KMIN of a domain, the same on every die: the largest over the groups of its bindings and its remote seam channels
(R143, R371). -/
def refreshKmin (h : Hw) (d : Nat) : Hw :=
  let v := (pdomBindings h d).foldl (fun x y => max x (bindKmin h y.1 y.2.1 y.2.2)) 0
  let v := (rscLinks h d).foldl (fun x l => max x (h.rd (K.BORTIK_LINK_RSCSTAT_KMIN l))) v
  refreshTooFast ((List.range 4).foldl (fun h n => h.wr (K.PDOM_STAT_KMIN n d) v) h) d

/-- Halt a packed domain on all dies and set HELD (R125). The networks halted here are recorded. -/
def holdDomain (h : Hw) (d : Nat) : Hw :=
  let nets := (pdomNets h d).filter fun x => !netHalted h (x / 64) (x % 64)
  let h := nets.foldl (fun h x => closeGate h (x / 64) (x % 64)) h
  let old := h.pdomClosed d
  let h := h.setPdomClosed d (old ++ nets.filter fun x => !old.contains x)
  let h := (List.range 4).foldl (fun h n => h.wr (K.PDOM_STAT_HELD n d) 1) h
  refreshTooFast h d

/-- Release a packed domain once every enabled binding of it on a LIVE seam is aligned: with AUTORUN its halted networks
reopen; HELD clears (R125). -/
def tryRelease (h : Hw) (d : Nat) (autorun : Bool) : Hw :=
  let ready := (pdomBindings h d).all fun x =>
    h.bit (K.SEAM_BIND_STAT_ALIGNED x.1 x.2.1 x.2.2) || seamState h x.1 == 7
  let ready := ready && (rscLinks h d).all fun l => !(linkSt h l).rscHeld
  if pdomHeld h d && ready then
    let h := if autorun then (h.pdomClosed d).foldl (fun h x => openGate h (x / 64) (x % 64)) h else h
    let h := h.setPdomClosed d []
    refreshTooFast ((List.range 4).foldl (fun h n => h.wr (K.PDOM_STAT_HELD n d) 0) h) d
  else h

/-- A binding stops being aligned without its domain being held: its groups present fence values, and what is on its way is
lost. -/
def unalign (h : Hw) (n d b : Nat) : Hw :=
  let gs := bindGroups h n d b
  let h := (runDesign h).onSeam n fun s => { s with sent := SMap.keep s.sent fun key _ => !(key / 128 == d && gs.contains (key % 128)) }
  setBindGroups (h.wr (K.SEAM_BIND_STAT_ALIGNED n d b) 0) n d b gHold

/-- A remote seam channel meets its own conditions of R369 and R371: both networks lie in its domain and are grid-locked at
the partner's K, which is at least KMIN. -/
def rscOk (h : Hw) (l : Nat) : Bool :=
  let n := l / 16
  let d := h.rd (K.BORTIK_LINK_RSC_PDOM l)
  let tx := h.rd (K.BORTIK_LINK_RSC_TXNET l)
  let rx := h.rd (K.BORTIK_LINK_RSC_RXNET l)
  let nets := h.rd (K.PDOM_NETS_NETS n d)
  nets.testBit tx && nets.testBit rx &&
  match netK h n tx, netK h n rx, (linkSt h l).rscMark with
  | some a, some b, some (_, k, _, _) => a == b && a == k && decide (h.rd (K.BORTIK_LINK_RSCSTAT_KMIN l) ≤ a)
  | _, _, _ => false

/-- An event of a link posted to Q3 (R376). -/
def linkEvent (h : Hw) (code l lane arg1 : Nat) : Hw := postEvent h 3 (lane * 2 ^ 16 + l * 2 ^ 8 + code) arg1 0 0

/-- A remote seam channel is held: its packed domain halts (R373). -/
def holdRsc (h : Hw) (l cause : Nat) : Hw :=
  if !h.bit (K.BORTIK_LINK_RSC_EN l) || !h.bit (K.BORTIK_LINK_RSCSTAT_ALIGNED l) then h
  else
    let h := onLink (h.wr (K.BORTIK_LINK_RSCSTAT_ALIGNED l) 0) l fun x => { x with rscHeld := true, rscMark := none, rscR0 := none, rscTold := false }
    linkEvent (holdDomain h (h.rd (K.BORTIK_LINK_RSC_PDOM l))) 8 l 0 cause

/-- Every aligned remote seam channel is judged again after a change of clocks (R373). -/
def checkRsc (h : Hw) : Hw :=
  (List.range 64).foldl (fun h l => if h.bit (K.BORTIK_LINK_RSCSTAT_ALIGNED l) && !rscOk h l then holdRsc h l 6 else h) h

/-- Every enabled binding is judged again after its clocks, its networks or its modes changed: an aligned binding that no
longer meets R124 is unaligned and its domain held (R125). -/
def checkBindings (h : Hw) : Hw :=
  checkRsc <| (allBindings.filter (bindEn h)).foldl (fun h x =>
    let (n, d, b) := x
    let h := bindStat h n d b
    if h.bit (K.SEAM_BIND_STAT_ALIGNED n d b) && !bindOk h n d b then
      holdDomain (unalign h n d b) (bindPdom h x)
    else h) h

/-- Hold every packed domain with an enabled binding on the fabric seam of Fn (R145, R231). -/
def holdSeamDomains (h : Hw) (n : Nat) : Hw :=
  (allBindings.filter fun x => x.1 == n && bindEn h x).foldl
    (fun h x => holdDomain (unalign h x.1 x.2.1 x.2.2) (bindPdom h x)) h

/-! ### Groups and maps -/

/-- RET0 and RET1 follow the retired groups; the fields are 8 bits wide. -/
def refreshRet (h : Hw) (k : Nat) : Hw :=
  (h.wr (K.SEAM_STAT_RET0 k) (retiredGroups h k 0).length).wr (K.SEAM_STAT_RET1 k) (retiredGroups h k 1).length

/-- Bit mask of the groups of a direction that are not retired. -/
def liveMap (h : Hw) (k d : Nat) : Nat :=
  maskOf ((List.range (seamGroups k)).filter fun g => !isRetired h k d g)

/-- Whether a group's lane is being replaced by its spare. -/
def swapping (h : Hw) (k d g : Nat) : Option Nat := SMap.get ((h.seamSt k).swaps.map fun e => (e.1, some e.2)) (d * 128 + g) none

/-- GSTATE of a group that is not retired, from its mode, its binding and its spare swap. -/
def groupState (h : Hw) (k d g : Nat) : Nat :=
  let m := if isFabric k then amode h k d g else 1
  if (swapping h k d g).isSome then gResync
  else if m = 0 then gOff
  else if packN m = 0 then gLive
  else if h.bit (K.SEAM_BIND_STAT_ALIGNED k d (h.rd (K.SEAM_GRP_CFG_BIND k d g))) then gLive else gHold

/-- Every group takes the mode applied to it and its state; the plan in force carries what it remaps (R143). -/
def refreshGroups (h : Hw) (k : Nat) : Hw :=
  (List.range 2).foldl (fun h d => (List.range (seamGroups k)).foldl (fun h g =>
    if isRetired h k d g then h.wr (K.SEAM_GRP_STAT_GSTATE k d g) (if isFabric k && remapped h k d g then gRemapped else gRetired)
    else (h.wr (K.SEAM_GRP_STAT_AMODE k d g) (amode h k d g)).wr (K.SEAM_GRP_STAT_GSTATE k d g) (groupState h k d g)) h) h

/-- OFFLINE of the ports of Fn: die in reset, or hub seam quarantined or failed (R34). -/
def refreshOffline (h : Hw) (n : Nat) : Hw :=
  let off := h.bit (K.RST_DIE_INRESET n) || seamState h (hubSeam n) == 7 || seamState h (hubSeam n) == 9
  (List.range 8).foldl (fun h p => h.wrB (K.FPORT_STAT_OFFLINE n p) off) h

/-- Whether accesses that cross the hub seam of Fn are answered (R25). -/
def dieReachable (h : Hw) (n : Nat) : Bool := !h.bit (K.RST_DIE_INRESET n) && seamLive h (hubSeam n)

/-- Groups of a direction that are not retired and not OFF present fence values. -/
def holdGroups (h : Hw) (k : Nat) (p : Nat → Nat → Bool) : Hw :=
  (List.range 2).foldl (fun h d => (List.range (seamGroups k)).foldl (fun h g =>
    if isRetired h k d g || h.rd (K.SEAM_GRP_STAT_GSTATE k d g) == gOff || !p d g then h
    else h.wr (K.SEAM_GRP_STAT_GSTATE k d g) gHold) h) h

/-- A seam fails: all groups present fence values; the packed domains bound to a fabric seam are held; a hub seam leaves
its die unreachable (R128, R132, R145). -/
def failSeam (h : Hw) (k : Nat) : Hw :=
  let h := snapSeam (runDesign h) k
  let h := (h.onSeam k fun s => { s with swaps := [], frozen := [], msg := none }).wr (K.SEAM_STAT_STATE k) 9
  let h := holdGroups h k fun _ _ => true
  if k < 4 then holdSeamDomains h k else refreshOffline h (k - 4)

/-- A fabric seam waits for a plan: its DIRECT groups present fence values until the plan stands (R144 step 1). -/
def awaitPlan (h : Hw) (k : Nat) : Hw :=
  holdGroups ((h.onSeam k fun s => { s with planDue := true }).wr (K.SEAM_STAT_STATE k) 6) k fun d g => amode h k d g == 1

/-- Retire a group: it presents fence values; a fabric seam then waits for a plan (R140, R144); a hub seam with fewer than
8 live groups in a direction fails (R128). -/
def retireGroup (h : Hw) (k d g : Nat) : Hw :=
  if isRetired h k d g then h
  else
    let h := (snapSeam (runDesign h) k).wr (K.SEAM_GRP_STAT_GSTATE k d g) gRetired
    let h := h.onSeam k fun s => { s with
      swaps := SMap.erase s.swaps (d * 128 + g)
      frozen := s.frozen.filter fun x => !(x / 2304 == d && x % 2304 / 17 == g) }
    let h := refreshRet h k
    if k < 4 then awaitPlan h k
    else if 64 - (retiredGroups h k d).length < 8 then failSeam h k else h

/-! ### Training (R129 to R135) -/

/-- A lane that trains is in service again; its counters stay (R137, R147). -/
def LaneSt.renewed (x : LaneSt) : LaneSt := { x with noLock := false, below := 0, warned := false, failed := false }
/-- The seam's lanes train afresh: TRAIN goes to both ends with a seed base of the manager's choice (R113, R133). -/
def startLanes (h : Hw) (k : Nat) : Hw :=
  let (v, h) := h.draw
  h.onSeam k fun s => { s with
    lanes := (s.lanes.map fun e => (e.1, e.2.renewed)).filter fun e => e.2 != {}
    report0 := none, report1 := none, mackOwner := false, mackFar := false, attempts := 0, phase := 1
    swaps := [], frozen := [], sent := [], planDue := false, msg := some (.train v), seedBase := v }

/-- Start training from scratch: the retired set and the lanes' failures are cleared (R132, R140). -/
def trainStart (h : Hw) (k : Nat) : Hw :=
  let h := (startLanes h k).onSeam k fun s => { s with plan := none, ret0 := 0, ret1 := 0, trained := false, map0 := 0, map1 := 0 }
  let h := (List.range 2).foldl (fun h d => (List.range (seamGroups k)).foldl (fun h g =>
    ((((h.wr (K.SEAM_GRP_STAT_GSTATE k d g) (if cmode h k d g = 0 then gOff else gHold)).wr
      (K.SEAM_GRP_STAT_SPARE k d g) 0).wr (K.SEAM_GRP_STAT_SPARELANE k d g) 0).wr
      (K.SEAM_GRP_STAT_AMODE k d g) 0)) h) h
  let h := if k < 4 then (allBindings.filter fun x => x.1 == k).foldl
    (fun h x => h.wr (K.SEAM_BIND_STAT_ALIGNED x.1 x.2.1 x.2.2) 0) h else h
  let h := (refreshRet h k).wr (K.SEAM_STAT_NOHUB k) 0
  let h := if k < 4 then h.wr (K.SEAM_STAT_PLAN k) 0 else h
  h.wr (K.SEAM_STAT_STATE k) 1

/-- The four hub seams start training (R129). -/
def trainHubSeams (h : Hw) : Hw := (List.range 4).foldl (fun h n => trainStart h (hubSeam n)) h

/-- Stage of a seam's training: its STATE, or the stage REJOIN has come to (R132). -/
def stage (h : Hw) (k : Nat) : Nat := if seamState h k = 8 then (h.seamSt k).phase else seamState h k
/-- Go to a stage of training. -/
def setStage (h : Hw) (k st : Nat) : Hw :=
  if seamState h k = 8 then h.onSeam k fun s => { s with phase := st } else h.wr (K.SEAM_STAT_STATE k) st

/-- A lane passes training (R130): its receiver locks and receives its own sequence without an error, with enough margin. -/
def lanePasses (h : Hw) (k : Nat) (t : LaneTest) : Bool :=
  t.locked && t.clean && t.heard == 17 * t.ln.g.val + t.ln.lane.val && decide (h.rd (K.SEAM_CTL_EYEMIN k) ≤ t.margin.val)

/-- Lanes of a group that have not passed, by the report of its direction. -/
def badLanes (h : Hw) (k d g : Nat) : List Nat :=
  let report := ((if d = 0 then (h.seamSt k).report0 else (h.seamSt k).report1)).getD 0
  (List.range 17).filter fun l => (h.lane k (d * 2304 + 17 * g + l)).failed || !report.testBit (17 * g + l)

/-- Live groups of a direction as newly trained: at least 16 of the 17 lanes pass (R131). -/
def trainedMap (h : Hw) (k d : Nat) : Nat :=
  maskOf ((List.range (seamGroups k)).filter fun g => decide ((badLanes h k d g).length ≤ 1))

/-- Lane the spare of a group replaces by the new map, or 31 (R133). -/
def mapLane (h : Hw) (k d g : Nat) : Nat := match badLanes h k d g with
  | [l] => if l = 16 then 31 else l
  | _ => 31

/-- Body of MAP: per direction the live-group mask, and then the replaced lane of each group (R133). -/
def mapBody (h : Hw) (k : Nat) : List Byte :=
  (List.range 2).flatMap fun d => toBytes (seamGroups k / 8) (trainedMap h k d) ++
    (List.range (seamGroups k)).flatMap fun g => toBytes 1 (mapLane h k d g)

/-- A group's spare and liveness after training (R131): no failure leaves the spare standing by, one failed data lane is
replaced, a failed spare is marked, two or more failures retire the group. A group retired before stays retired. -/
def settleGroup (h : Hw) (k d g : Nat) (bad : List Nat) : Hw :=
  let h := bad.foldl (fun h l => h.onLane k (d * 2304 + 17 * g + l) fun x => { x with failed := true }) h
  if isRetired h k d g then h
  else match bad with
  | [] => (h.wr (K.SEAM_GRP_STAT_SPARE k d g) 0).wr (K.SEAM_GRP_STAT_SPARELANE k d g) 0
  | [l] => if l = 16 then (h.wr (K.SEAM_GRP_STAT_SPARE k d g) 1).wr (K.SEAM_GRP_STAT_SPARELANE k d g) 0
      else (h.wr (K.SEAM_GRP_STAT_SPARE k d g) 2).wr (K.SEAM_GRP_STAT_SPARELANE k d g) l
  | _ => h.wr (K.SEAM_GRP_STAT_GSTATE k d g) gRetired

/-- Settle every group of a seam by the lane reports. -/
def settleSeam (h : Hw) (k : Nat) : Hw :=
  (List.range 2).foldl (fun h d => (List.range (seamGroups k)).foldl (fun h g => settleGroup h k d g (badLanes h k d g)) h) h

/-- Whether a retired group's committed mode is not OFF. -/
def planNeeded (h : Hw) (n : Nat) : Bool :=
  (List.range 2).any fun d => (retiredGroups h n d).any fun g => cmode h n d g != 0

/-- Both ends agree on the map: it is recorded and the seam goes LIVE, or fails a hub seam of fewer than 8 live groups
(R128, R132, R135). -/
def goLive (h : Hw) (k : Nat) : Hw :=
  let h := h.onSeam k fun s => { s with map0 := trainedMap h k 0, map1 := trainedMap h k 1, trained := true }
  let h := settleSeam h k
  let h := refreshRet (refreshGroups h k) k
  if !isFabric k && (decide (64 - (retiredGroups h k 0).length < 8) || decide (64 - (retiredGroups h k 1).length < 8)) then
    failSeam h k
  else
    let h := h.wr (K.SEAM_STAT_STATE k) 5
    if k < 4 then (if planNeeded h k then awaitPlan h k else h)
    else refreshOffline h (k - 4)

/-! ### Lane failures (R136 to R140) -/

/-- A lane that fails takes the spare if it stands by, else its group is retired (R137 to R140). -/
def laneFails (h : Hw) (k : Nat) (l : LaneRef) : Hw :=
  let d := l.dir.val
  let g := l.g.val
  let spare := h.rd (K.SEAM_GRP_STAT_SPARE k d g)
  if isRetired h k d g || (h.lane k (laneNo l)).failed then h
  else
    let h := h.onLane k (laneNo l) fun x => { x with failed := true }
    match swapping h k d g with
    | some _ => retireGroup h k d g
    | none =>
      if l.lane.val = 16 then
        if spare = 2 then retireGroup h k d g else h.wr (K.SEAM_GRP_STAT_SPARE k d g) 1
      else if spare = 0 then
        (h.onSeam k fun s => { s with swaps := SMap.ins (SMap.erase s.swaps (d * 128 + g)) (d * 128 + g) l.lane.val }).wr
          (K.SEAM_GRP_STAT_GSTATE k d g) gResync
      else retireGroup h k d g

/-! ### Degrade plans (R141 to R145) -/

/-- TOL of a quarter. -/
def planTol (p : List Nat) (d q : Nat) : Nat := bits (planWord p 1) (32 * d + 8 * q + 7) (32 * d + 8 * q)
/-- INDEX of a plan. -/
def planIndex (p : List Nat) : Nat := bits (planWord p 0) 41 40
/-- A plan slot of an image that holds a plan: all-zero is none (R269). -/
def planSet (p : List Nat) : Bool := p.any (· != 0)
/-- CRC over the four words with the CRC field as 0 (R141). -/
def planCrc (p : List Nat) : Nat :=
  crc16 (toBytes 8 (planWord p 0 / 65536 * 65536) ++ toBytes 8 (planWord p 1) ++ toBytes 8 (planWord p 2) ++
    toBytes 8 (planWord p 3))

/-- Whether a plan is usable for the fabric seam of Fn (R141). -/
def planUsable (h : Hw) (n : Nat) (p : List Nat) : Bool :=
  bits (planWord p 0) 63 48 == 0x504C && bits (planWord p 0) 43 42 == n && bits (planWord p 0) 15 0 == planCrc p &&
  (List.range 2).all fun d =>
    ((List.range 4).all fun q => decide (planTol p d q ≤ 32)) &&
    (List.range 16).all fun b =>
      let c := planCode p d b
      (c == 0 || (decide (2 ≤ c) && decide (c ≤ 7))) &&
      (c == 0 || (bindGroups h n d b).all fun g => decide (packN (cmode h n d g) ≤ packN c))

/-- Whether a usable plan fits the committed configuration and the retired set (R142). -/
def planFits (h : Hw) (n : Nat) (p : List Nat) : Bool :=
  (List.range 2).all fun d =>
    ((List.range 4).all fun q =>
      decide (((quarter q).filter fun g => isRetired h n d g && cmode h n d g != 0).length ≤ planTol p d q) &&
      decide (((quarter q).filter fun g => isRetired h n d g && cmode h n d g == 1).length ≤
        ((quarter q).filter fun g => !isRetired h n d g && cmode h n d g == 0).length)) &&
    (List.range 16).all fun b =>
      let gs := bindGroups h n d b
      if gs.any (isRetired h n d) then
        planCode p d b != 0 && (List.range 4).all fun q =>
          let gq := gs.filter fun g => g / 32 == q
          let u := gq.foldl (fun x g => x + 16 * packN (cmode h n d g)) 0
          let l := (gq.filter fun g => !isRetired h n d g).length
          decide (u ≤ l * 16 * packN (planCode p d b))
      else true

/-- The first usable plan that fits, in INDEX order (R142). -/
def choosePlan (h : Hw) (n : Nat) : Option (List Nat) :=
  ((List.range 4).flatMap fun i => (h.seamSt n).plans.filter fun p => planIndex p == i).find? fun p => planUsable h n p && planFits h n p

/-- A plan in force with the retired groups as they stand (R143). -/
def withPlan (h : Hw) (n : Nat) (p : List Nat) : Hw :=
  let r (d : Nat) : Nat := maskOf (retiredGroups h n d)
  h.onSeam n fun s => { s with plan := some p, ret0 := r 0, ret1 := r 1 }

/-- What the plan in force makes of the groups of a binding: their modes, and the group that carries each. -/
def bindMap (h : Hw) (x : Nat × Nat × Nat) : List (Nat × Nat × List Nat) :=
  (bindGroups h x.1 x.2.1 x.2.2).map fun g => (g, amode h x.1 x.2.1 g, if planCodeOf h x.1 x.2.1 g = 0 then [] else planDst h x.1 x.2.1 g)

/-- Select and apply a plan, or declare the seam FAILED (R142 to R145). Where the plan is the one in force, only the slot map and
the realignment are redone. -/
def applyPlan (h : Hw) (n : Nat) : Hw :=
  let h := (runDesign h).onSeam n fun s => { s with planDue := false }
  match choosePlan h n with
  | none => if planNeeded h n then failSeam h n else refreshGroups (h.wr (K.SEAM_STAT_STATE n) 5) n
  | some p =>
    let same := (h.seamSt n).plan == some p
    let moved := allBindings.filter fun x => x.1 == n && bindEn h x && bindMap h x != bindMap (withPlan h n p) x
    let h := if same then h else moved.foldl (fun h x => holdDomain h (bindPdom h x)) h
    let h := withPlan h n p
    let h := moved.foldl (fun h x => unalign h x.1 x.2.1 x.2.2) h
    let h := refreshGroups (h.wr (K.SEAM_STAT_STATE n) 5) n
    if same then h
    else
      let h := moved.foldl (fun h x => refreshKmin h (bindPdom h x)) h
      postOpen (h.wr (K.SEAM_STAT_PLAN n) (planIndex p + 1)) 2

/-- The largest KMIN a plan would give over the seam's bindings (R233). -/
def planKmin (h : Hw) (n : Nat) (p : List Nat) : Nat :=
  (allBindings.filter fun x => x.1 == n && bindEn h x).foldl (fun v x =>
    let c := planCode p x.2.1 x.2.2
    max v (if c = 0 then bindKmin h x.1 x.2.1 x.2.2 else kminOf c)) 0

/-! ### Quarantine and rejoin (R146 to R148) -/

/-- A seam of a die in reset enters QUAR: fence values, bindings suspended without HELD, no plan in progress (R146). One that is
OFF or FAILED stays so. -/
def quarantine (h : Hw) (k : Nat) : Hw :=
  if seamState h k = 0 ∨ seamState h k = 9 then h
  else
    let h := snapSeam (runDesign h) k
    let h := (h.onSeam k fun s => { s with planDue := false, swaps := [], frozen := [], sent := [], phase := 0 }).wr (K.SEAM_STAT_STATE k) 7
    if k < 4 then
      (allBindings.filter fun x => x.1 == k).foldl
        (fun h x => h.wr (K.SEAM_BIND_STAT_ALIGNED x.1 x.2.1 x.2.2) 0) (holdGroups h k fun _ _ => true)
    else refreshOffline h (k - 4)

/-- Quarantine the three seams of die n (R146). -/
def quarantineDie (h : Hw) (n : Nat) : Hw :=
  quarantine (quarantine (quarantine h n) ((n + 3) % 4)) (hubSeam n)

/-- Groups live in exactly one of two maps. -/
def mapDiff (a b : Nat) : List Nat := (List.range 128).filter fun g => a.testBit g != b.testBit g

/-- Compare the recorded with the newly trained maps; groups live in only one are retired (R147, R148). -/
def rejoinSeam (h : Hw) (n : Nat) : Hw :=
  let s := h.seamSt n
  let (t0, t1) := (trainedMap h n 0, trainedMap h n 1)
  let differ := decide (t0 ≠ s.map0 ∨ t1 ≠ s.map1)
  let h := (mapDiff t0 s.map0).foldl (fun h g => h.wr (K.SEAM_GRP_STAT_GSTATE n 0 g) gRetired) h
  let h := (mapDiff t1 s.map1).foldl (fun h g => h.wr (K.SEAM_GRP_STAT_GSTATE n 1 g) gRetired) h
  let h := (settleSeam h n).onSeam n fun s => { s with map0 := t0, map1 := t1 }
  let h := refreshRet (refreshGroups h n) n
  let h := if differ then
      let parts := [s.map0 % 2 ^ 64, s.map0 / 2 ^ 64, s.map1 % 2 ^ 64, s.map1 / 2 ^ 64,
        t0 % 2 ^ 64, t0 / 2 ^ 64, t1 % 2 ^ 64, t1 / 2 ^ 64]
      let h := h.wr (K.SEAM_STAT_MISMATCH n) 1
      let h := (List.range 8).foldl (fun h w => h.wr (K.SEAM_MAPLOG_MAP n w) (parts.getD w 0)) h
      postOpen (logEvent h srcSeam 0 (seamBase n + 8)) 2
    else h
  if planNeeded h n then awaitPlan h n else h.wr (K.SEAM_STAT_STATE n) 5

end Sys2Proof.Machine
end

