-- ==== Sys2Proof/Machine/Strata.lean ====
section
/-!
DEFINITION. Strata (R150 to R169) and the frames of a die: triggers, capture, drain, headers, deep strata and restore, and
reading and writing configuration frames (R82, R83).
-/
namespace Sys2Proof.Machine

/-! ### Configuration frames -/

/-- Error state of a frame's stored code: 0 clean, 1 one bit, 2 uncorrectable. -/
def frameErrOf (h : Hw) (n k : Nat) : Nat := SMap.get (h.die n).frameErr k 0
/-- Mirror of the 48 spine enables of a sector (R83). -/
def mirrorOf (h : Hw) (n s : Nat) : Nat := SMap.get (h.die n).mirror s 0
/-- Whether a frame is its sector's spine frame (R82). -/
def isSpineFrame (s f : Nat) : Bool := Config.spineFrame s % 1024 == f
/-- The 48 spine enables in the data of the spine frame of sector s (R82). -/
def enablesIn (s data : Nat) : Nat := maskOf ((List.range 48).filter fun j => data.testBit (bitAddr (.spineOn s j) 0).2)

/-- Whether setting these enables in sector s would give a spine of its column a second enable (R83). -/
def spineClash (h : Hw) (n s en : Nat) : Bool :=
  (List.range 16).any fun r =>
    let o := 12 * r + s % 12
    o != s && (mirrorOf h n o &&& en) != 0

/-- Whether writing a frame would leave an arithmetic block of its sector with bits in that frame in a combinational loop
(R56). -/
def accLoop (h : Hw) (n k data : Nat) : Bool :=
  let fr (q : Nat) : Nat := if q = k then data else frameOf h n q
  (List.range 16).any fun i =>
    let it := CfgItem.arith (k / 1024) i
    (List.range 9).any (fun b => (bitAddr it b).1 == k % 1024) && (ArithCfg.of (itemNum fr it 0 15)).loops

/-- Whether the frame engine refuses a frame with CONTEND (R56, R83). -/
def frameRefused (h : Hw) (n k data : Nat) : Bool :=
  (isSpineFrame (k / 1024) (k % 1024) && spineClash h n (k / 1024) (enablesIn (k / 1024) data)) || accLoop h n k data

/-- A reload's spine frame has passed R83: the spines of its column that an uncorrectable frame left disabled come back, where
the reload is of a sector whose driver was enabled at the contention (R86). -/
def reviveSpines (h : Hw) (n s : Nat) : Hw :=
  let col := s % 12
  let back := (h.die n).scrub.down.filter fun x => x.1 == col && x.2.2.testBit (s / 12)
  let h := back.foldl (fun h x => h.wr (K.SPINE_OFF_OFF n col) (setBitAt (h.rd (K.SPINE_OFF_OFF n col)) x.2.1 false)) h
  h.onDie n fun x => { x with scrub := { x.scrub with down := x.scrub.down.filter fun y => !back.contains y } }

/-- Transfer a frame into the configuration cells (R82); a spine frame updates the mirror. -/
def putFrame (h : Hw) (n k data : Nat) : Hw :=
  let h := h.onDie n fun x =>
    { x with frames := SMap.set x.frames k (data % 2 ^ 4096) 0, frameErr := SMap.erase x.frameErr k }
  if isSpineFrame (k / 1024) (k % 1024) then
    reviveSpines (h.onDie n fun x => { x with mirror := SMap.set x.mirror (k / 1024) (enablesIn (k / 1024) data) 0 }) n (k / 1024)
  else h

/-- A refused frame is logged with its frame address (R83), and the core that wrote it, if one did. -/
def logContend (h : Hw) (n k who : Nat) : Hw :=
  logEntry h (srcDie n) who (LogKind.operation.code * 256 + 5) (n * 2 ^ 18 + k) 0

/-- The mask frames of a die in ascending order (R317). -/
def maskFrames (h : Hw) (n : Nat) : List Nat :=
  (List.range 192).flatMap fun s => (List.range 16).flatMap fun w =>
    (bitList 64 (h.rd (K.MASK_SEC_W_BITS n s w))).map fun b => 1024 * s + 64 * w + b

/-! ### Strata headers (R157, R160) -/

/-- Hub address of the header of slot i of die n. -/
def headerAddr (n i : Nat) : Nat := stackBase n + 0x8000000 - (i + 1) * 0x1000
/-- Hub address of the record of sector s in slot i of die n. -/
def recordAddr (n s i : Nat) : Nat := stackBase n + s * 0x80000 + i * 0x4000

/-- Whether a window offset lies in an area a ring of the given depth claims (R59). -/
def claimedAt (depth off : Nat) : Bool :=
  (decide (off < 192 * 0x80000) && decide (off % 0x80000 < depth * 0x4000)) ||
    (decide (0x8000000 - depth * 0x1000 ≤ off) && decide (off < 0x8000000))
/-- Ring depth of a die. -/
def ringDepth (h : Hw) (n : Nat) : Nat := h.rd (K.STRATA_CTL_DEPTH n)
/-- The slot a claimed window offset belongs to. -/
def slotAt (off : Nat) : Nat :=
  if off < 192 * 0x80000 ∧ off % 0x80000 < 32 * 0x4000 then off % 0x80000 / 0x4000 else (0x8000000 - 1 - off) / 0x1000

/-- KIND codes. -/
def kindEmpty : Nat := 0
def kindShallow : Nat := 1
def kindDeep : Nat := 2
def kindPartial : Nat := 3

/-- Word w of the header of a capture (R160). -/
def headerWord (n : Nat) (c : Capture) (kind drainEnd deepAddr deepCount w : Nat) : Nat :=
  match w with
  | 0 => 0x53545241 * 2 ^ 32 + 2 ^ 24 + c.slot * 2 ^ 8 + n * 2 ^ 4 + kind
  | 1 => c.capid * 2 ^ 32 + c.origin % 256 * 2 ^ 24 + c.profile * 2 ^ 8 + c.source
  | 2 => c.ttime
  | 3 => drainEnd
  | 4 => c.nets
  | 5 => c.halted
  | 6 => c.missing
  | 7 => c.fenced % 2 ^ 64
  | 8 => c.fenced / 2 ^ 64 % 2 ^ 64
  | 9 => c.fenced / 2 ^ 128
  | 10 => c.assay % 2 ^ 64
  | 11 => c.assay / 2 ^ 64 % 2 ^ 64
  | 12 => c.assay / 2 ^ 128 % 2 ^ 64
  | 13 => c.assay / 2 ^ 192 % 2 ^ 64
  | 14 => deepAddr
  | 15 => deepCount
  | w => if w < 80 then SMap.get c.edge (w - 16) 0 * 2 ^ 48 + SMap.get c.stake (w - 16) 0 else 0

/-- Write a header of 4 KiB. -/
def writeHeader (h : Hw) (n : Nat) (c : Capture) (kind drainEnd : Nat) : Hw :=
  let mem := (List.range 512).foldl
    (fun m w => m.writeN (headerAddr n c.slot + 8 * w) 8 (headerWord n c kind drainEnd 0 0 w) 0xFF) h.mem
  { h with mem := mem }

/-- Word w of the header that stands in a slot. -/
def readHeader (h : Hw) (n i w : Nat) : Nat := h.mem.fixedN (headerAddr n i + 8 * w) 8

/-- KIND of the header in a slot; EMPTY where R160 says so. -/
def headerKind (h : Hw) (n i : Nat) : Nat :=
  let w0 := readHeader h n i 0
  let w1 := readHeader h n i 1
  if bits w0 63 32 = 0x53545241 ∧ bits w0 31 24 = 1 ∧ bits w0 12 8 = i ∧ bits w0 5 4 = n ∧ bits w0 3 0 ≤ 3 ∧ bits w1 2 0 ≤ 4
  then bits w0 3 0 else kindEmpty

/-- Replace the KIND field of a header in place. -/
def setKind (h : Hw) (n i kind : Nat) : Hw :=
  let w0 := readHeader h n i 0
  { h with mem := h.mem.writeN (headerAddr n i) 8 (setBits w0 0 4 kind) 0xFF }

/-! ### Captures -/

/-- Status codes of R167. -/
def stOk : Nat := 0
def stBusy : Nat := 1
def stFull : Nat := 2
def stRunning : Nat := 3
def stNotcap : Nat := 4
def stEmpty : Nat := 5
def stImage : Nat := 6
def stPoison : Nat := 7
def stPower : Nat := 8
def stNodepth : Nat := 9
def stSkipped : Nat := 10
def stAborted : Nat := 11
def stBaddest : Nat := 12
def stOffline : Nat := 13

/-- CSR address of STRATA.STAT of a die. -/
def strataStat (n : Nat) : Nat := 0x2A00008 + n * 0x1000000

/-- In A3, or entering it (R152). -/
def inA3 (h : Hw) : Bool := h.rd K.PWR_STAT_STATE == 3 || h.pwr.entering

/-- Whether the strata engine of a die works on something. -/
def strataBusy (h : Hw) (n : Nat) : Bool := (h.die n).strata != .none
/-- A COMMIT of group STRATA of die n waits for its operation to end (R168). -/
def strataDeferred (h : Hw) (n : Nat) : Bool := h.ldr.deferred.contains (n * 2 ^ 12 + 5 * 2 ^ 6)

/-- The slot a capture would take: the first not kept at or after NEXT (R155). -/
def nextSlot (h : Hw) (n : Nat) : Option Nat :=
  let depth := ringDepth h n
  let keep := h.rd (K.STRATA_KEEP_KEEP n)
  ((List.range depth).map fun i => (h.rd (K.STRATA_STAT_NEXT n) + i) % depth).find? fun i => !keep.testBit i

/-- The checks of R152 in their order: none where the die accepts. -/
def triggerRefusal (h : Hw) (n : Nat) : Option Nat :=
  if h.bit (K.RST_DIE_INRESET n) then some stOffline
  else if inA3 h then some stPower
  else if ringDepth h n = 0 then some stNodepth
  else if strataBusy h n || strataDeferred h n || (match (h.die n).lastTtime with | some t => decide (h.now < t + 800) | none => false) then
    some stBusy
  else if (nextSlot h n).isNone then some stFull
  else none

/-- Set STRATA.STAT.OP and BUSY (R169 table). -/
def setStrataOp (h : Hw) (n : Nat) (op : StrataOp) : Hw :=
  let code := match op with | .none => 0 | .capture _ | .drain _ => 1 | .deep _ _ _ => 2 | .restore _ _ _ _ _ => 3
  ((h.onDie n fun x => { x with strata := op }).wr (K.STRATA_STAT_OP n) code).wrB (K.STRATA_STAT_BUSY n) (code != 0)

/-- Mask of the fenced sectors of a die. -/
def fencedMask (h : Hw) (n : Nat) : Nat := maskOf ((List.range 192).filter fun s => h.bit (K.FENCE_SEC_FENCE n s))

/-- Flip-flops of sector s that are latches closing at the falling edge of their network (R45). -/
def lateMask (h : Hw) (n s : Nat) : Nat :=
  maskOf ((List.range ffCount).filter fun f =>
    let (x, y, k, j) := ffPlace s f
    let o := ffCfg h n x y k j
    o.latch && match setClock h n x y o.cs with
      | some (_, inv) => !inv
      | none => false)

/-- Flip-flops of a network load their shadows from Q, where the tap gate is open (R45, R153): `late` takes the latches that
close at the falling edge, or those apart from them, or every one. -/
def captureFlops (h : Hw) (n m : Nat) (late : Option Bool) : Hw :=
  (List.range 192).foldl (fun h s =>
    let mine := netMask h n s m
    let mine := match late with
      | none => mine
      | some true => mine &&& lateMask h n s
      | some false => mine - (mine &&& lateMask h n s)
    let h := h.onDie n fun x => { x with captured := SMap.upd x.captured s 0 (· ||| mine) }
    if tapClosed h n s m then h
    else
      let (q, h) := ffOf h n s
      h.onDie n fun x => { x with shadow := SMap.upd x.shadow s 0 fun v => mergeBits v mine q }) h

/-- One network's capture edge, halted capture or timeout: STAKE and EDGEDLY are recorded (R153). -/
def recordNet (c : Capture) (m stake edge : Nat) : Capture :=
  { c with stake := SMap.set c.stake m stake 0, edge := SMap.set c.edge m edge 0, waiting := setBitAt c.waiting m false }

/-- A trigger a die accepts: its slot is taken, the header becomes PARTIAL, and halted networks are captured (R152 to R155). -/
def acceptTrigger (h : Hw) (n slot : Nat) (t : Trigger) (capid : Nat) : Hw :=
  let h := (runDesign h).onDie n fun x => { x with captured := [] }
  let nets := h.rd (K.STRATA_PROF_NETS n t.profile)
  let halted := maskOf ((bitList 64 nets).filter fun m => netHalted h n m)
  let c : Capture := { slot := slot, capid := capid, origin := t.origin, profile := t.profile, source := t.source, ttime := t.ttime, nets := nets, halted := halted, fenced := fencedMask h n, assay := (h.die n).intended.getD 0, waiting := nets - (nets &&& halted) }
  let c := (bitList 64 halted).foldl (fun c m => recordNet c m (h.net n m).stake 0) c
  let h := (bitList 64 halted).foldl (fun h m => captureFlops h n m none) h
  let h := h.wr (K.STRATA_STAT_NEXT n) ((slot + 1) % ringDepth h n)
  let h := (h.wr (K.STRATA_STAT_LASTSLOT n) slot).wr (K.STRATA_STAT_LASTCAPID n) capid
  let h := h.onDie n fun x => { x with lastTtime := some t.ttime }
  let h := { h with strata := { h.strata with pulses := SMap.upd h.strata.pulses n 0 (· + 1) } }
  setStrataOp (writeHeader h n c kindPartial 0) n (.capture c)

/-- A trigger a die refuses: logged, and counted unless the die is in reset (R152). -/
def refuseTrigger (h : Hw) (n : Nat) (t : Trigger) (st : Nat) : Hw :=
  let h := if st = stOffline then h else (h.cnt (K.STRATA_MISSED_COUNT n)).wr (K.STRATA_STAT_LAST n) st
  logEntry h (srcDie n) t.master (LogKind.operation.code * 256 + st) (strataStat n) (regVal h (strataStat n))

/-- A trigger arrives at a die. Answers the trigger with its CAPID, the status, and the slot taken (R150 to R152). -/
def arriveTrigger (h : Hw) (n : Nat) (t : Trigger) : Hw × Trigger × Option Nat × Option Nat :=
  if h.rd (K.STRATA_PROF_NETS n t.profile) = 0 ∧ !h.bit (K.RST_DIE_INRESET n) then (h, t, none, none)
  else match triggerRefusal h n, nextSlot h n with
    | some st, _ => (refuseTrigger h n t st, t, some st, none)
    | none, none => (refuseTrigger h n t stFull, t, some stFull, none)
    | none, some slot =>
      let capid := t.capid.getD h.strata.nextCapid
      let h := if t.capid.isNone then
        { h with strata := { h.strata with nextCapid := (h.strata.nextCapid + 1) % 2 ^ 32 } } else h
      (acceptTrigger h n slot t capid, { t with capid := some capid }, some stOk, some slot)

/-- The capture edge of a running network passes (R153): the next rising edge, and for latches the falling edge after it. -/
def captureEdge (h : Hw) (n m : Nat) : Hw :=
  match (h.die n).strata with
  | .capture c =>
    if c.waiting.testBit m && netRuns h n m then
      let h := captureFlops (oneEdge (runDesign h) n m) n m (some false)
      let c := recordNet c m (h.net n m).stake (min (h.now - c.ttime) 0xFFFE)
      let h := captureFlops (edgeStep h { rise := 0, fall := 2 ^ (64 * n + m) }) n m (some true)
      setStrataOp h n (.capture { c with fenced := c.fenced ||| fencedMask h n })
    else h
  | _ => h

/-- A network gave no edge within CAPWAIT: MISSING, its shadows unchanged (R153). -/
def captureMissing (h : Hw) (n m : Nat) : Hw :=
  match (h.die n).strata with
  | .capture c =>
    if c.waiting.testBit m then
      let c := recordNet { c with missing := setBitAt c.missing m true } m (h.net n m).stake 0xFFFF
      setStrataOp h n (.capture c)
    else h
  | _ => h

/-- The drain starts once no capture edge is awaited (R154). -/
def startDrain (h : Hw) (n : Nat) : Hw :=
  match (h.die n).strata with
  | .capture c => if c.waiting = 0 then setStrataOp h n (.drain { c with fenced := c.fenced ||| fencedMask h n }) else h
  | _ => h

/-- The shadows of a sector as drained: the bits of flip-flops outside the capture set are undefined (R154), so free. -/
def drainBits (h : Hw) (n s v : Nat) : Nat :=
  mergeBits (Config.freeValue (v + s) % 2 ^ 131072) (SMap.get (h.die n).captured s 0) (SMap.get (h.die n).shadow s 0)

/-- The drain ends: every sector's record is written, then the final header (R154, R158). -/
def finishDrain (h : Hw) (n : Nat) : Hw :=
  match (h.die n).strata with
  | .drain c =>
    let v := h.freeCtr
    let h := { h with freeCtr := v + 192 }
    let mem := (List.range 192).foldl
      (fun m s => m.writeN (recordAddr n s c.slot) 16384 (drainBits h n s v) (allOn 16384)) h.mem
    let h := writeHeader { h with mem := mem } n c kindShallow h.now
    setStrataOp (h.wr (K.STRATA_STAT_LAST n) stOk) n .none
  | _ => h

/-! ### Deep strata and restore -/

/-- Whether every network of a die is halted. -/
def allHalted (h : Hw) (n : Nat) : Bool := (List.range 64).all fun m => netHalted h n m

/-- Whether [a, a + len) lies in one memory that may take streamed data: hub SRAM, installed DRAM, or an unclaimed part of
a stacked SRAM window (R161, R206). -/
def streamOk (h : Hw) (a len : Nat) : Bool :=
  (decide (hubBase ≤ a) && decide (a + len ≤ hubBase + hubSize)) ||
  (decide (dramBase ≤ a) && decide (a + len ≤ dramBase + installedDram h)) ||
  (List.range 4).any fun n =>
    let off := a - stackBase n
    decide (stackBase n ≤ a) && decide (off + len ≤ stackSize) &&
      (List.range ((len + 63) / 64)).all fun i => !claimedAt (ringDepth h n) (off + 64 * i)

/-- The checks of R161 in their order: none where a deep drain may start. -/
def deepRefusal (h : Hw) (n slot dest : Nat) : Option Nat :=
  if h.bit (K.RST_DIE_INRESET n) then some stOffline
  else if inA3 h then some stPower
  else if strataBusy h n then some stBusy
  else if ringDepth h n ≤ slot then some stNodepth
  else if headerKind h n slot ≠ kindShallow then some stEmpty
  else if !allHalted h n || !((bitList 64 (readHeader h n slot 4)).all fun m =>
      bits (readHeader h n slot (16 + m)) 47 0 == (h.net n m).stake) then some stRunning
  else if dest % 64 ≠ 0 ∨ !streamOk h dest (512 * (maskFrames h n).length) then some stBaddest
  else none

/-- One frame of a deep drain: the next mask frame's 512 bytes stand at the destination (R162). -/
def deepFrame (h : Hw) (n slot dest pos : Nat) : Hw :=
  match (maskFrames h n)[pos]? with
  | some k => setStrataOp (busWrite h none (dest + 512 * pos) 512 (frameOf h n k)).2 n (.deep slot dest (pos + 1))
  | none => h

/-- The rest of a deep drain, frame by frame. -/
def deepRest (n slot dest : Nat) : Nat → Hw → Nat → Hw
  | 0, h, _ => h
  | left + 1, h, pos => deepRest n slot dest left (deepFrame h n slot dest pos) (pos + 1)

/-- The deep drain ends: the frames from `pos` on are read, and the header becomes DEEP (R162). -/
def finishDeep (h : Hw) (n slot dest pos : Nat) : Hw :=
  let total := (maskFrames h n).length
  let h := deepRest n slot dest (total - pos) (runDesign h) pos
  let h := { h with mem := (h.mem.writeN (headerAddr n slot + 0x70) 8 dest 0xFF).writeN (headerAddr n slot + 0x78) 8 total 0xFF }
  setStrataOp ((setKind h n slot kindDeep).wr (K.STRATA_STAT_LAST n) stOk) n .none

/-- The checks of R163 in their order: none where a restore may start. -/
def restoreRefusal (h : Hw) (n slot mask : Nat) (deep force : Bool) : Option Nat :=
  let kind := headerKind h n slot
  let w (i : Nat) : Nat := readHeader h n slot i
  let assay := w 10 + w 11 * 2 ^ 64 + w 12 * 2 ^ 128 + w 13 * 2 ^ 192
  if h.bit (K.RST_DIE_INRESET n) then some stOffline
  else if inA3 h then some stPower
  else if strataBusy h n then some stBusy
  else if ringDepth h n ≤ slot then some stNodepth
  else if kind ≠ kindShallow ∧ kind ≠ kindDeep ∨ (deep ∧ kind ≠ kindDeep) then some stEmpty
  else if mask = 0 ∨ mask &&& w 4 ≠ mask ∨ mask &&& w 6 ≠ 0 then some stNotcap
  else if !force && !((h.die n).intended == some assay) then some stImage
  else if !((bitList 64 mask).all fun m => netHalted h n m) || (deep && !allHalted h n) then some stRunning
  else none

/-- The mask frames a deep restore of a slot writes (R164 step 1). -/
def restoreList (h : Hw) (n slot : Nat) : List Nat := (maskFrames h n).take (bits (readHeader h n slot 15) 31 0)

/-- One frame of a deep restore (R164 step 1): a read with POISON stops it; a frame the engine refuses is logged and not written
(R83). -/
def restoreFrame (h : Hw) (n slot mask pos : Nat) : Hw :=
  match (restoreList h n slot)[pos]? with
  | some k =>
    let (v, st, h) := busRead h 0 (readHeader h n slot 14 + 512 * pos) 512
    if st ≠ .ok then setStrataOp h n (.restore slot mask true pos true)
    else
      let h := if frameRefused h n k v then logContend h n k 0 else putFrame h n k v
      setStrataOp h n (.restore slot mask true (pos + 1) false)
  | none => h

/-- The rest of a deep restore's frames; answers whether it met no POISON. -/
def restoreRest (n slot mask : Nat) : Nat → Hw → Hw × Bool
  | 0, h => (h, true)
  | left + 1, h =>
    match (h.die n).strata with
    | .restore _ _ _ pos bad => if bad then (h, false) else restoreRest n slot mask left (restoreFrame h n slot mask pos)
    | _ => (h, true)

/-- One frame of the deep drain or deep restore of a die, if one runs (R219). -/
def deepTurn (h : Hw) (n : Nat) : Hw :=
  match (h.die n).strata with
  | .deep slot dest pos => deepFrame h n slot dest pos
  | .restore slot mask true pos false => restoreFrame h n slot mask pos
  | _ => h

/-- Whether a record of a slot holds an uncorrectable byte (R164 step 2). -/
def recordsBad (h : Hw) (n slot : Nat) : Bool :=
  (List.range 192).any fun s => !(deadBytes (h.mem.seen (recordAddr n s slot) 16384)).isEmpty

/-- Load the shadows from the records and take them into the flip-flops of the masked networks; sectors fenced then or now
are skipped (R164 steps 2 and 3). Answers the status. -/
def restoreFlops (h : Hw) (n slot mask : Nat) : Hw × Nat :=
  let h := (List.range 192).foldl (fun h s => countRead h 0 (recordAddr n s slot) 16384) h
  if recordsBad h n slot then (h, stPoison)
  else
    let old := readHeader h n slot 7 + readHeader h n slot 8 * 2 ^ 64 + readHeader h n slot 9 * 2 ^ 128
    let skip := old ||| fencedMask h n
    let h := (List.range 192).foldl (fun h s =>
      let v := h.mem.fixedN (recordAddr n s slot) 16384
      let h := h.onDie n fun x => { x with shadow := SMap.set x.shadow s v 0 }
      if skip.testBit s then h
      else
        let q := (bitList 64 mask).foldl (fun q m => mergeBits q (netMask h n s m) v) (SMap.get (h.die n).ff s 0)
        h.onDie n fun x => { x with ff := SMap.set x.ff s q 0 }) h
    (h, if skip % 2 ^ 192 = 0 then stOk else stSkipped)

/-- Packed bindings with a network of die n in a restore mask: their receive slots present FENCE values for two edges after the
next CLKRUN, and what is in flight is lost (R166). -/
def muteBindings (h : Hw) (n mask : Nat) : Hw :=
  ((List.range 4).flatMap fun k => (List.range 2).flatMap fun d => (List.range 16).map fun b => (k, d, b)).foldl (fun h x =>
    let hit (i : Nat) : Bool := decide (i / 64 = n) && mask.testBit (i % 64)
    if h.bit (K.SEAM_BIND_CFG_EN x.1 x.2.1 x.2.2) && (hit (txNet h x) || hit (rxNet h x)) then
      let gs := packedGroups h x
      h.onSeam x.1 fun s => { s with
        mute := SMap.set s.mute (x.2.1 * 16 + x.2.2) 2 0
        sent := SMap.keep s.sent fun key _ => !(key / 128 == x.2.1 && gs.contains (key % 128)) }
    else h) h

/-- Remote seam channels with a network of die n in a restore mask: their receive slots present FENCE for RLAT edges after the
next CLKRUN (R377). -/
def muteChans (h : Hw) (n mask : Nat) : Hw :=
  ((List.range 16).map fun l => 16 * n + l).foldl (fun h l =>
    if h.bit (K.BORTIK_LINK_RSC_EN l) && (mask.testBit (h.rd (K.BORTIK_LINK_RSC_TXNET l)) || mask.testBit (h.rd (K.BORTIK_LINK_RSC_RXNET l))) then
      onLink h l fun x => { x with rscMute := h.rd (K.BORTIK_LINK_RSC_RLAT l) }
    else h) h

/-- A restore runs to its end and reports its status (R164, R166). -/
def finishRestore (h : Hw) (n slot mask : Nat) (deep : Bool) : Hw × Nat :=
  let h := runDesign h
  let (h, ok) := if deep then restoreRest n slot mask ((restoreList h n slot).length + 1) h else (h, true)
  let (h, st) := if ok then restoreFlops h n slot mask else (h, stPoison)
  let h := if st = stOk ∨ st = stSkipped then muteChans (muteBindings h n mask) n mask else h
  (setStrataOp (h.wr (K.STRATA_STAT_LAST n) st) n .none, st)

/-- An operation cut short by a reset: its header stays PARTIAL or SHALLOW, and LAST reads ABORTED (R169). -/
def abortStrata (h : Hw) (n : Nat) : Hw :=
  if strataBusy h n then (h.onDie n fun x => { x with strata := .none }).wr (K.STRATA_STAT_LAST n) stAborted else h

/-- A COMMIT that changes DEPTH empties the header of every slot that was or becomes one of the ring, and sets NEXT to 0
(R168). -/
def emptyRing (h : Hw) (n old : Nat) : Hw :=
  ((List.range (max old (ringDepth h n))).foldl (fun h i => setKind h n i kindEmpty) h).wr (K.STRATA_STAT_NEXT n) 0

end Sys2Proof.Machine
end

