-- ==== Sys2Proof/Machine/Gallery.lean ====
section
/-!
DEFINITION. The Gallery: the hub address map (R22, R23), the rights of the masters (R24), the requests and responses in
flight, and the statuses of R25 and R26. What a request does at its target stands in Deliver.lean.
-/
namespace Sys2Proof.Machine

/-! ### The address map -/

/-- What an address of the hub map names (R22). -/
inductive Region where
  | csr
  | hub
  | stack (n : Nat)
  | dram
  | port (n p : Nat)
  | nothing
  deriving DecidableEq, Repr

/-- The blocks of R23, each extending to the next base; DIE.F3 ends at 0x5FF_FFFF. -/
def inBlock (a : Nat) : Bool := decide (a < 0x6000000)

/-- The region of an address, populated or not (R22). -/
def regionOf (a : Nat) : Region :=
  if a < 0x10000000 then .csr
  else if hubBase ≤ a ∧ a < hubBase + hubSize then .hub
  else if 0x100000000 ≤ a ∧ a < 0x200000000 then .stack ((a - 0x100000000) / 0x40000000)
  else if dramBase ≤ a ∧ a < 0x18000000000 then .dram
  else if 0x20000000000 ≤ a ∧ a < 0x60000000000 then
    .port ((a - 0x20000000000) / 0x10000000000) (a / 0x2000000000 % 8)
  else .nothing

/-- Whether [a, a + n) of a region is populated (R22). -/
def populated (h : Hw) (a n : Nat) : Bool :=
  match regionOf a with
  | .csr => inBlock a
  | .hub => decide (a + n ≤ hubBase + hubSize)
  | .stack k => decide (a + n ≤ stackBase k + stackSize)
  | .dram => decide (a + n ≤ dramBase + installedDram h)
  | .port _ _ => true
  | .nothing => false

/-- Base of DIE.Fn. -/
def dieBase (n : Nat) : Nat := 0x2000000 + n * 0x1000000

/-- SOURCE of the block a CSR address lies in (R23, R427). -/
def blockSource (a : Nat) : Nat :=
  if 0x2000000 ≤ a then srcDie ((a - 0x2000000) / 0x1000000)
  else if 0x1E00000 ≤ a then srcGuest
  else if 0x1C00000 ≤ a then srcAdit
  else if 0x1600000 ≤ a then srcLane
  else if 0x1400000 ≤ a then srcPcie
  else if 0x1200000 ≤ a then srcDdr
  else if 0x1100000 ≤ a then srcCipher
  else if 0x1000000 ≤ a then srcErr
  else if 0xC00000 ≤ a then srcCfg
  else if 0x800000 ≤ a then srcCrew
  else if 0x400000 ≤ a then srcSched
  else if 0x300000 ≤ a then srcPower
  else if 0x200000 ≤ a then srcClock
  else if 0x100000 ≤ a then srcReset
  else srcId

/-- SOURCE that logs a failed access to an address: the target's block, or the Gallery for a memory (R26). -/
def targetSource (a : Nat) : Nat :=
  match regionOf a with
  | .csr => if inBlock a then blockSource a else srcGallery
  | .stack n => srcDie n
  | .port n _ => srcDie n
  | _ => srcGallery

/-! ### Rights (R24) -/

/-- Whether an address lies in the doorbell window of R250, and its queue. -/
def isDoorbell (a : Nat) : Bool := decide (0x600000 ≤ a ∧ a < 0x700000)
def doorbellQueue (a : Nat) : Nat := (a - 0x600000) / 0x40
/-- Whether an address is Qq.PTR of some queue, and its queue. -/
def isQPtr (a : Nat) : Bool := decide (0x500000 ≤ a ∧ a < 0x600000 ∧ a / 8 % 8 = (K.SCHED_Q_PTR_POP 0).addr / 8 % 8)
def qPtrQueue (a : Nat) : Nat := (a - 0x500000) / 0x40

/-- Whether an address lies in [lo, hi). -/
def within (a lo hi : Nat) : Bool := decide (lo ≤ a ∧ a < hi)

/-- The CSR writes R24 gives a crew core c; the host has the same but for its own differences. -/
def crewMayWrite (c : Option Nat) (a : Nat) : Bool :=
  if within a 0x100000 0x200000 || within a 0x1100000 0x1200000 || within a 0x1000000 0x1100000 ||
    within a 0x1E00000 0x2000000 then false
  else if within a 0x400000 0x800000 then isDoorbell a
  else if within a 0xC00000 0x1000000 then a / 8 == K.CFG_COMMIT_GO.addr / 8
  else if within a 0x1C00000 0x1E00000 then c.elim false fun c => a / 8 == (K.ADIT_CORE_DTX_FULL c).addr / 8
  else if within a 0x1400000 0x1600000 then
    !(within a 0x1401000 0x1401400 && a / 8 % 2 == 1)
  else true

/-- Whether a master may read a CSR (R24). -/
def mayReadCsr (m : Master) (a : Nat) : Bool :=
  match m with
  | .fport _ _ | .link _ => false
  | .guest => within a K.GUEST_MBOX_CTL_TOGO.addr (K.GUEST_MBOX_CTL_TOGO.addr + 8) ||
      within a (K.GUEST_MBOX_TOGUEST_WORD 0).addr ((K.GUEST_MBOX_TOGUEST_WORD 7).addr + 8) ||
      within a (K.GUEST_MBOX_FROMGUEST_WORD 0).addr ((K.GUEST_MBOX_FROMGUEST_WORD 7).addr + 8)
  | _ => true

/-- Whether a master may write a CSR (R24, R247). The crew, the host and Adit may write the whole doorbell window, where a
queue that does not admit them fails check 2 of R251; a port, a link and the guest may ring the queues assigned to them
alone. -/
def mayWriteCsr (h : Hw) (m : Master) (a : Nat) : Bool :=
  match m with
  | .core c => c.val == 0 || crewMayWrite (some c.val) a
  | .adit | .block => true
  | .host f => (isQPtr a && owns h (.host f) (qPtrQueue a)) ||
      (within a 0x1400000 0x1600000) || crewMayWrite none a
  | .fport d p => (isDoorbell a && owns h m (doorbellQueue a)) || (isQPtr a && owns h (.fport d p) (qPtrQueue a))
  | .link _ => isDoorbell a && owns h m (doorbellQueue a)
  | .guest => (isDoorbell a && owns h m (doorbellQueue a)) || mayReadCsr .guest a

/-- Whether a master may reach an address (R24). -/
def mayReach (h : Hw) (m : Master) (wr : Bool) (a : Nat) : Bool :=
  match regionOf a with
  | .nothing => true
  | .csr => if wr then mayWriteCsr h m a else mayReadCsr m a
  | .hub => match m with
    | .fport d p => (h.rd (K.FPORT_CTL_ALLOW d p)).testBit 0
    | .link _ => false
    | _ => true
  | .stack _ => match m with
    | .fport d p => (h.rd (K.FPORT_CTL_ALLOW d p)).testBit 1
    | .link _ => false
    | _ => true
  | .dram => match m with
    | .fport d p => (h.rd (K.FPORT_CTL_ALLOW d p)).testBit 2
    | .link _ => false
    | _ => true
  | .port _ _ => match m with
    | .fport d p => (h.rd (K.FPORT_CTL_ALLOW d p)).testBit 3
    | .link _ => false
    | _ => true

/-! ### Requests and responses -/

/-- Put a request on the Gallery; answers its number. -/
def issue (h : Hw) (m : Master) (kind : GKind) (addr size data be tag : Nat) : Nat × Hw :=
  let id := h.gal.nextId
  let q : GReq := ⟨id, m, kind, addr, size, data, be, tag⟩
  (id, { h with gal := { h.gal with reqs := h.gal.reqs ++ [q], nextId := id + 1 } })

/-- Take a request number without putting the request on the Gallery. -/
def takeId (h : Hw) : Nat × Hw := (h.gal.nextId, { h with gal := { h.gal with nextId := h.gal.nextId + 1 } })

/-- Log an access that completed with a status other than OK, or a posted write dropped (R24, R26, R514). -/
def logAccess (h : Hw) (source : Nat) (m : Master) (st : Status) (addr : Nat) : Hw :=
  logErr h source (some m) .access (scode st) addr 0

/-- The response to a request, in flight. -/
def respOf (q : GReq) (st : Status) (data : Nat) : GResp := ⟨q.id, q.m, q.kind, st, data, q.addr, q.tag⟩

/-- A posted write of a fabric port is performed, or dropped: it no longer holds back a FLUSH (R32). -/
def donePosted (h : Hw) (q : GReq) : Hw :=
  match q.m, q.kind with
  | .fport d p, .pwrite => h.onDie d.val fun x =>
      let f := SMap.get x.fports p.val {}
      let f := { f with posted := f.posted.filter (· != q.id), flushes := f.flushes.map fun e => (e.1, e.2.filter (· != q.id)) }
      { x with fports := SMap.set x.fports p.val f {} }
  | _, _ => h

/-- A violation of the guest is counted, and with QUAR the one that passes VLIMIT within a window of 1 ms fences the guest
(R490, R493). The window opens with the first violation. -/
def guestViolates (h : Hw) : Hw :=
  let h := h.cnt K.GUEST_VIOL_COUNT
  let n := if h.guest.windowEnd = 0 then 1 else h.guest.window + 1
  let h := { h with guest := { h.guest with window := n, windowEnd := if h.guest.windowEnd = 0 then 800000 else h.guest.windowEnd } }
  if h.bit K.GUEST_CTL_QUAR && n == h.rd K.GUEST_CTL_VLIMIT + 1 then
    postEvent (h.wr K.GUEST_CTL_FENCE 1) 7 0x04 (h.rd K.GUEST_VIOL_COUNT) 0 0
  else h

/-- A guest transaction that fails is logged and counts as a violation (R490). -/
def guestFails (h : Hw) (st : Status) (addr : Nat) : Hw := guestViolates (logAccess h srcGuest .guest st addr)

/-- SOURCE of a posted write that failed at its target: the cipher's where the cipher refused it, else the target's (R26). -/
def failSource (q : GReq) (st : Status) : Nat :=
  match regionOf q.addr, st with
  | .dram, .tgterr => srcCipher
  | _, _ => targetSource q.addr

/-- Answer a request. A posted write has no response, and a failed one is logged by its target (R26); every failed request
of the guest is logged by the firewall too (R490). -/
def answer (h : Hw) (q : GReq) (st : Status) (data : Nat) : Hw :=
  let h := if q.m = .guest ∧ st ≠ .ok then guestFails h st q.addr else h
  match q.kind with
  | .pwrite => if st = .ok then donePosted h q else logAccess (donePosted h q) (failSource q st) q.m st q.addr
  | _ => { h with gal := { h.gal with resps := h.gal.resps ++ [respOf q st data] } }

/-- The Gallery itself turns a request away: DENIED is logged (R24), and so is a failed posted write (R26). -/
def refuse (h : Hw) (q : GReq) (st : Status) : Hw :=
  let h := if q.m = .guest then guestFails h st q.addr else h
  match q.kind with
  | .pwrite => logAccess (donePosted h q) srcGallery q.m st q.addr
  | _ =>
    let h := if st = .denied then logAccess h srcGallery q.m st q.addr else h
    { h with gal := { h.gal with resps := h.gal.resps ++ [respOf q st 0] } }

/-- Remove the i-th request. -/
def dropReq (h : Hw) (i : Nat) : Hw := { h with gal := { h.gal with reqs := h.gal.reqs.eraseIdx i } }

/-- Two requests touch a 64-byte line in common. -/
def lineShared (x q : GReq) : Bool :=
  decide (x.addr / 64 ≤ (q.addr + q.size - 1) / 64 ∧ q.addr / 64 ≤ (x.addr + x.size - 1) / 64)

/-- A core's earlier access to the same 64-byte line must be performed before this one (R196). -/
def goesBefore (x q : GReq) : Bool :=
  decide (x.m = q.m) && match q.m with
    | .core _ => lineShared x q
    | _ => false

/-- A refused doorbell holds back no later doorbell of its port to its queue: those are refused too (R252). -/
def refusedBell (h : Hw) (id : Nat) (q : GReq) : Bool :=
  isDoorbell q.addr && h.sched.refused.any fun r => r.id == id && doorbellQueue r.addr == doorbellQueue q.addr

/-- Posted writes of a port into the hub map that have not been performed: held by the port, on the Gallery, at the DRAM
channels, or refused doorbells. -/
def postedWrites (h : Hw) (m : Master) (x : FPort) : List GReq :=
  (x.waiting.filter (·.tag < 256) ++ h.gal.reqs ++ h.dram.queue ++ h.sched.refused).filter fun r => r.kind == .pwrite && r.m == m

/-- A fabric port's earlier posted write holds a request back (R32): every earlier one a posted write, one to a line in common
any other request. -/
def portHolds (h : Hw) (q : GReq) : Bool :=
  match q.m with
  | .fport d p =>
    let x := SMap.get (h.die d.val).fports p.val {}
    if q.kind = .pwrite then x.posted.any fun id => decide (id < q.id) && !refusedBell h id q
    else (postedWrites h q.m x).any fun r => decide (r.id < q.id) && lineShared r q
  | _ => false

/-- Whether the i-th request must wait: for an earlier one, or for the priority reservation of a core (R202). -/
def mustWait (h : Hw) (i : Nat) : Bool :=
  match h.gal.reqs[i]? with
  | some q => ((h.gal.reqs.take i).any fun x => goesBefore x q) || portHolds h q ||
      (q.kind != .read && prioHolds h (match q.m with | .core c => some c.val | _ => none) q.addr q.size)
  | none => false

/-- Take the first arrived response with a number. -/
def takeArrived (h : Hw) (id : Nat) : Option (GResp × Hw) :=
  match h.gal.arrived.find? fun r => r.id == id with
  | some r => some (r, { h with gal := { h.gal with arrived := h.gal.arrived.filter fun x => x.id != id } })
  | none => none

/-- Drop every request, response and arrived response of a master. -/
def forgetMaster (h : Hw) (p : Master → Bool) : Hw :=
  { h with gal := { h.gal with
      reqs := h.gal.reqs.filter fun q => !p q.m
      resps := h.gal.resps.filter fun r => !p r.m
      arrived := h.gal.arrived.filter fun r => !p r.m } }

end Sys2Proof.Machine
end

