-- ==== Sys2Proof/Machine/Fabric.lean ====
section
/-!
DEFINITION. Sector fences (R304 to R309), the scrubber and spine repair (R81 to R86, R311 to R316), the mask table
(R317), Assay digests (R318 to R323), sector ports (R58 to R61) and the outpost (R62 to R66).
-/
namespace Sys2Proof.Machine

/-! ### Fences -/

/-- SECs of a die: CSR address. -/
def fenceAddr (n s : Nat) : Nat := dieBase n + 0xB00000 + s * 8

/-- A die digest loses readiness at a lift or a load, and with it the device digest (R323). -/
def dieUnready (h : Hw) (n : Nat) : Hw :=
  let h := h.onDie n fun x => { x with scrub := { x.scrub with stale := true, passDone := x.scrub.passDone.map fun _ => false } }
  (h.wr (K.ASSAY_STAT_READY n) 0).wr K.CFG_ASSAYSTAT_DEVREADY 0

/-! ### Sector ports (R58 to R61, R309) -/

/-- Hub address of a sector port beat (R58, R60). -/
def beatAddr (n s beat : Nat) : Nat :=
  let tile := if beat / 2 ^ 20 = 0 then s else 192 + beat / 2 ^ 14 % 64
  stackBase n + tile * 0x80000 + beat % 2 ^ 14 * 32

/-- Responses, and requests not yet performed, at a sector port. -/
def secQueue (h : Hw) (n s : Nat) : List SecResp := SMap.get (h.die n).secResps s []
def secWaiting (h : Hw) (n s : Nat) : List SecReq := SMap.get (h.die n).secReqs s []
/-- Append a response at a sector port. -/
def pushSec (h : Hw) (n s : Nat) (r : SecResp) : Hw :=
  h.onDie n fun x => { x with secResps := SMap.set x.secResps s (SMap.get x.secResps s [] ++ [r]) [] }
/-- Replace the requests waiting at a sector port. -/
def setSecReqs (h : Hw) (n s : Nat) (l : List SecReq) : Hw :=
  h.onDie n fun x => { x with secReqs := SMap.set x.secReqs s l [] }

/-- A beat of a sector port is performed (R59 to R61): one in a claimed area answers RINGERR. -/
def secPerform (h : Hw) (n s : Nat) (r : SecReq) : Hw :=
  let a := beatAddr n s r.beat
  if claimedAt (ringDepth h n) (a - stackBase n) then pushSec h n s ⟨0, false, true, !r.wr⟩
  else if r.wr then hubWrite h none a 32 r.data r.be
  else
    let (v, bad, h) := memRead h 0 a 32
    pushSec h n s ⟨v, bad, false, true⟩

/-- A drain or restore of the die's sectors has the sector ports (R61). -/
def portsHeld (h : Hw) (n : Nat) : Bool := match (h.die n).strata with
  | .drain _ | .restore _ _ _ _ _ => true
  | _ => false

/-- A sector's turn: its oldest request is performed, if the 16 places for responses are not all taken (R60, R61). -/
def secTake (h : Hw) (n s : Nat) : Hw :=
  match secWaiting h n s with
  | r :: rest =>
    if decide (16 ≤ (secQueue h n s).length) then h
    else (secPerform (setSecReqs h n s rest) n s r).onDie n fun x => { x with secTurn := (s + 1) % 192 }
  | [] => h

/-- Sectors in round-robin order from t. -/
def turnOrder (t : Nat) (l : List Nat) : List Nat := l.filter (fun s => decide (t ≤ s)) ++ l.filter fun s => decide (s < t)

/-- Rounds of the arbitration: one beat of each waiting sector a round (R61). -/
def secRounds (n : Nat) : Nat → Hw → Hw
  | 0, h => h
  | f + 1, h => secRounds n f ((turnOrder (h.die n).secTurn ((h.die n).secReqs.map (·.1))).foldl (fun h s => secTake h n s) h)

/-- What waits at the sector ports of a die is performed, unless a drain or restore has the ports (R61). -/
def servePorts (h : Hw) (n : Nat) : Hw := if portsHeld h n then h else secRounds n 16 h

/-- Close a fence (R304 to R306 step 1, R309, R153): latches hold what they pass and input gates act. Writes the sector port holds
are performed, its reads and read responses discarded; a capture in progress notes the sector. -/
def closeFence (h : Hw) (n s : Nat) : Hw :=
  if h.bit (K.FENCE_SEC_FENCE n s) then h
  else
    let h := runDesign h
    let c := h.freeCtr
    let wires := heldWires h c n s
    let taps := maskOf ((List.range 64).filter fun m => netRuns h n m)
    let h := ((secWaiting h n s).filter (·.wr)).foldl (fun h r => secPerform h n s r) (setSecReqs h.draw.2 n s [])
    let h := (h.wr (K.FENCE_SEC_FENCE n s) 1).wr (K.FENCE_SEC_SETTLED n s) 0
    let h := h.onDie n fun x => { x with
      secResps := SMap.set x.secResps s ((SMap.get x.secResps s []).filter fun r => !r.read) []
      held := SMap.put x.held s wires
      taps := SMap.set x.taps s taps 0
      strata := match x.strata with
        | .capture c => .capture { c with fenced := setBitAt c.fenced s true }
        | o => o }
    refreshSites h n

/-- The tap gates have closed (R306 steps 2 and 3); waiting acknowledgements of the write return. -/
def settleFence (h : Hw) (n s : Nat) : Hw :=
  if h.bit (K.FENCE_SEC_FENCE n s) && !h.bit (K.FENCE_SEC_SETTLED n s) then
    let h := (runDesign h).wr (K.FENCE_SEC_SETTLED n s) 1
    let h := h.onDie n fun x => { x with taps := SMap.erase x.taps s }
    let k := 1024 * n + s
    let acks := (h.gal.fenceAcks.filter fun e => e.1 == k).map (·.2)
    { h with gal := { h.gal with resps := h.gal.resps ++ acks, fenceAcks := h.gal.fenceAcks.filter fun e => e.1 != k } }
  else h

/-- The scrubber goes on to frame 0 of the next sector, or of a new pass (R311, R312, R319). -/
def nextSector (h : Hw) (n s : Nat) : Hw :=
  let h := h.wr (K.SCRUB_STAT_FRAME n) 0
  let h := h.onDie n fun x => { x with scrub := { x.scrub with acc := [] } }
  if s < 191 then h.wr (K.SCRUB_STAT_SECTOR n) (s + 1)
  else
    let whole := !h.bit (K.SCRUB_STAT_INCOMPLETE n)
    let h := h.onDie n fun x =>
      let done := if whole then some (!x.scrub.stale) else x.scrub.passDone
      { x with scrub := { x.scrub with passDone := done, stale := false } }
    (h.wr (K.SCRUB_STAT_SECTOR n) 0).wr (K.SCRUB_STAT_INCOMPLETE n) 0

/-- A fence that closed on the sector the scrubber is reading leaves out the rest of it (R324). -/
def skipRest (h : Hw) (n s : Nat) : Hw :=
  if h.rd (K.SCRUB_STAT_SECTOR n) = s ∧ h.rd (K.SCRUB_STAT_FRAME n) ≠ 0 then
    nextSector (h.wr (K.SCRUB_STAT_INCOMPLETE n) 1) n s
  else h

/-- Lift a fence (R307): the sector restarts from INIT, its tap gates open in the low phase of their networks, and its digest and
its die's are not ready (R323). -/
def liftFence (h : Hw) (n s : Nat) : Hw :=
  if !h.bit (K.FENCE_SEC_FENCE n s) then h
  else
    let h := skipRest (runDesign (settleFence h n s)) n s
    let init := initMask h n s
    let high := maskOf ((List.range 64).filter fun m => (h.net n m).high)
    let h := h.onDie n fun x => { x with
      ff := SMap.put x.ff s init, held := SMap.erase x.held s, taps := SMap.set x.taps s high 0
      scrub := { x.scrub with secReady := x.scrub.secReady.filter (· != s) } }
    refreshSites (dieUnready (((h.wr (K.FENCE_SEC_FENCE n s) 0).wr (K.FENCE_SEC_SETTLED n s) 0).wr
      (K.FENCE_SEC_LIFTING n s) 0) n) n

/-- A write to FENCE.SECs (R306 to R308): SETTING is ignored and logged while the fence is closed. -/
def writeFence (h : Hw) (m : Master) (n s data : Nat) : Hw :=
  let closed := h.bit (K.FENCE_SEC_FENCE n s)
  let want := data.testBit 0
  let setting := bits data 2 1
  let h :=
    if closed then
      if setting ≠ h.rd (K.FENCE_SEC_SETTING n s) then
        logErr h (srcDie n) (some m) .ignored 0 (fenceAddr n s) data else h
    else if setting = 3 then
      logErr (h.wr (K.FENCE_SEC_SETTING n s) 0) (srcDie n) (some m) .replaced 0 (fenceAddr n s) data
    else h.wr (K.FENCE_SEC_SETTING n s) setting
  if want then closeFence h n s else liftFence h n s

/-- A sector counts as fenced for frame writes while SETTLED = 1 (R306). -/
def fenceSettled (h : Hw) (n s : Nat) : Bool := h.bit (K.FENCE_SEC_SETTLED n s)

/-- A die is released: device set-reset is lifted (R286). -/
def released (h : Hw) (n : Nat) : Bool := !(h.die n).setReset

/-- A write to a mask table word (R317). -/
def writeMask (h : Hw) (m : Master) (n s w v : Nat) : Hw :=
  if fenceSettled h n s || !released h n then h.wr (K.MASK_SEC_W_BITS n s w) v
  else logErr h (srcDie n) (some m) .ignored 0 (dieBase n + 0x700000 + s * 0x80 + w * 8) v

/-! ### Digests -/

/-- The hub configuration digest, device digest and die digests stand in their registers: four words each. -/
def putDigest (h : Hw) (k : Nat → Key) (d : Nat) : Hw :=
  (List.range 4).foldl (fun h w => h.wr (k w) (d / 2 ^ (64 * w))) h
/-- Read a digest of four words. -/
def getDigest (h : Hw) (k : Nat → Key) : Nat :=
  (List.range 4).foldl (fun x w => x + h.rd (k w) * 2 ^ (64 * w)) 0

/-- The digest of a sector from the 1,024 frames the scrubber handed over, oldest first (R318): 16 bytes. -/
def sectorDigest (h : Hw) (n s : Nat) (frames : List Nat) : Nat :=
  let mask := (List.range 16).flatMap fun w => toBytes 8 (h.rd (K.MASK_SEC_W_BITS n s w))
  Config.sha3 (toBytes 1 n ++ toBytes 1 s ++ toBytes 6 0 ++ frames.flatMap (toBytes 512) ++ mask) % 2 ^ 128

/-- The digest of a die from its sector digests (R319). -/
def dieDigest (h : Hw) (n : Nat) : Nat :=
  Config.sha3 (toBytes 1 n ++ toBytes 7 0 ++
    (List.range 192).flatMap fun s => toBytes 16 (SMap.get (h.die n).scrub.secDig s 0)) % 2 ^ 256

/-- Compute a die digest after a complete pass (R319, R322, R323). -/
def computeDieDigest (h : Hw) (n : Nat) : Hw :=
  match (h.die n).scrub.passDone with
  | none => h
  | some fresh =>
    let d := dieDigest h n
    let h := putDigest h (K.ASSAY_DIG_DIG n) d
    let h := h.wr (K.ASSAY_STAT_EPOCH n) (h.rd (K.ASSAY_STAT_EPOCH n) + 1)
    let h := h.wrB (K.ASSAY_STAT_MATCH n) ((h.die n).intended == some d)
    let h := h.onDie n fun x => { x with scrub := { x.scrub with passDone := none } }
    let h := if fresh then h.wr (K.ASSAY_STAT_READY n) 1 else h
    { h with assay := { h.assay with devDue := true } }

/-- The ST fields of a register as applied, in their places (R320). -/
def stagedPart (h : Hw) (addr : Nat) : Nat :=
  (fieldsAt addr).foldl (fun x f => if f.acc = .st then x + h.rd f.key * 2 ^ f.key.lo else x) 0

/-- The registers of a die's covered commit groups in the order of R320. -/
def coveredRegs (n : Nat) : List Nat :=
  (List.range 8).map (fun p => (K.FPORT_CTL_EN n p).addr) ++
  ((List.range 16).flatMap fun i =>
    [(K.CLK_PLL_REF_REFSEL n i).addr, (K.CLK_PLL_MUL_M n i).addr] ++
      (List.range 4).map fun k => (K.CLK_PLL_OUT_O n i k).addr) ++
  ((List.range 64).map fun m => (K.CLK_NET_SRC_SRC0 n m).addr) ++
  [(K.SEAM_CTL_EN n).addr] ++
  ((List.range 2).flatMap fun d => (List.range 128).map fun g => (K.SEAM_GRP_CFG_MODE n d g).addr) ++
  ((List.range 2).flatMap fun d => (List.range 16).map fun b => (K.SEAM_BIND_CFG_EN n d b).addr) ++
  [(K.SEAM_CTL_PERSIST (hubSeam n)).addr] ++
  ((List.range 64).map fun d => (K.PDOM_NETS_NETS n d).addr) ++
  ((List.range 12).flatMap fun j =>
    (K.IOBANK_CFG_VCCIO n j).addr :: (List.range 48).map fun i => (K.IOBANK_PIN_STD n j i).addr)

/-- The hub configuration digest (R320). -/
def hubDigest (h : Hw) : Nat :=
  let plans := (List.range 4).flatMap fun k => (List.range 4).flatMap fun i => (List.range 4).flatMap fun w =>
    toBytes 8 (((h.seamSt k).plans.getD i []).getD w 0)
  Config.sha3 (((List.range 4).flatMap fun n => (coveredRegs n).flatMap fun a => toBytes 8 (stagedPart h a)) ++ plans) % 2 ^ 256

/-- Recompute the hub configuration digest (R320, R322). -/
def computeHubDigest (h : Hw) : Hw :=
  let d := hubDigest h
  let h := putDigest h K.CFG_ASSAYHUB_DIG d
  let h := h.wr K.CFG_ASSAYHUBEP_EPOCH (h.rd K.CFG_ASSAYHUBEP_EPOCH + 1)
  let h := h.wrB K.CFG_ASSAYSTAT_HUBMATCH (h.assay.intHub == some d)
  { h with assay := { h.assay with hubDue := false, devDue := true } }

/-- Recompute the device digest (R321 to R323). -/
def computeDevDigest (h : Hw) : Hw :=
  let bytes := ((List.range 4).flatMap fun n => toBytes 32 (getDigest h (K.ASSAY_DIG_DIG n))) ++
    toBytes 32 (getDigest h K.CFG_ASSAYHUB_DIG)
  let d := Config.sha3 bytes % 2 ^ 256
  let h := putDigest h K.CFG_ASSAYDEV_DIG d
  let h := h.wr K.CFG_ASSAYSTAT_DEVEPOCH (h.rd K.CFG_ASSAYSTAT_DEVEPOCH + 1)
  let h := h.wrB K.CFG_ASSAYSTAT_DEVMATCH (h.assay.intDev == some d)
  let h := h.wrB K.CFG_ASSAYSTAT_DEVREADY ((List.range 4).all fun n => h.bit (K.ASSAY_STAT_READY n))
  { h with assay := { h.assay with devDue := false } }

/-! ### The scrubber -/

/-- PAUSE of SCRUB.STAT (R313, R314). -/
def scrubPause (h : Hw) (n : Nat) : Nat :=
  let deep := match (h.die n).strata with | .deep _ _ _ => true | .restore _ _ d _ _ => d | _ => false
  if inA3 h then 3
  else if !(h.die n).scrub.repairs.isEmpty then 5
  else if !h.bit (K.SCRUB_CTL_EN n) then 4
  else if (h.die n).eng.claim.isSome then 1
  else if deep then 2
  else 0

/-- The frame the scrubber has read is handed to the Assay unit; after the last of a sector its digest is taken (R318). -/
def handOver (h : Hw) (n s f data : Nat) : Hw :=
  let h := h.onDie n fun x => { x with scrub := { x.scrub with acc := data :: x.scrub.acc } }
  if f < 1023 then h.wr (K.SCRUB_STAT_FRAME n) (f + 1)
  else
    let d := sectorDigest h n s (h.die n).scrub.acc.reverse
    let ep := (h.rd (K.ASSAY_STAT_EPOCH n) + 1) % 2 ^ 32
    let h := h.onDie n fun x => { x with scrub := { x.scrub with
      secDig := SMap.set x.scrub.secDig s d 0, secEpoch := SMap.set x.scrub.secEpoch s ep 0,
      secReady := s :: x.scrub.secReady.filter (· != s) } }
    nextSector h n s

/-- An uncorrectable frame (R315). What it reads as from now on is open. -/
def scrubUncorr (h : Hw) (n s f : Nat) : Hw :=
  let k := 1024 * s + f
  let h := if frameErrOf h n k = 2 then h else
    let (v, h) := (runDesign h).draw
    h.onDie n fun x => { x with frames := SMap.set x.frames k (v % 2 ^ 4096) 0, frameErr := SMap.set x.frameErr k 2 0 }
  let h := (h.wr (K.SCRUB_STAT_UNCORR n) 1).cnt (K.SCRUB_COUNT_UNCORR n)
  let h := ((h.wr (K.SCRUB_UNCLOG_VALID n) 1).wr (K.SCRUB_UNCLOG_FADDR n) (n * 2 ^ 18 + k)).wr
    (K.SCRUB_UNCLOG_EPOCH n) (h.rd (K.ASSAY_STAT_EPOCH n))
  let h := logEvent h (srcDie n) 0 (dieBase n + 0x600008)
  refreshSites (if h.bit (K.SCRUB_CTL_FENCEUNC n) then closeFence h n s else h) n

/-- One frame slot of the scrubber (R312). -/
def scrubSlot (h : Hw) (n : Nat) (seen : FrameSeen) : Hw :=
  let s := h.rd (K.SCRUB_STAT_SECTOR n)
  let f := h.rd (K.SCRUB_STAT_FRAME n)
  let k := 1024 * s + f
  if h.bit (K.RST_DIE_INRESET n) || scrubPause h n != 0 then h
  else if h.bit (K.FENCE_SEC_FENCE n s) then nextSector (h.wr (K.SCRUB_STAT_INCOMPLETE n) 1) n s
  else if (h.rd (K.MASK_SEC_W_BITS n s (f / 64))).testBit (f % 64) then handOver h n s f 0
  else if frameErrOf h n k = 2 ∨ seen = .uncorr then
    let h := scrubUncorr h n s f
    handOver h n s f (frameOf h n k)
  else if frameErrOf h n k = 1 ∨ seen = .single then
    let h := if frameRefused h n k (frameOf h n k) then logContend h n k 0
      else (h.onDie n fun x => { x with frameErr := SMap.erase x.frameErr k }).cnt (K.SCRUB_COUNT_CORR n)
    handOver h n s f (frameOf h n k)
  else handOver h n s f (frameOf h n k)

/-- The sequencer restarts at frame 0 of a new pass (R316). -/
def scrubRestart (h : Hw) (n : Nat) : Hw :=
  let h := h.onDie n fun x => { x with scrub := { x.scrub with acc := [], stale := false } }
  ((h.wr (K.SCRUB_STAT_SECTOR n) 0).wr (K.SCRUB_STAT_FRAME n) 0).wr (K.SCRUB_STAT_INCOMPLETE n) 0

/-- A contention sensor fires (R85): the spine's drivers are off, and it reads 0. -/
def spineContention (h : Hw) (n col spine drv : Nat) : Hw :=
  let h := runDesign h
  let h := h.wr (K.SPINE_CSTAT_COL n) (h.rd (K.SPINE_CSTAT_COL n) ||| 2 ^ col)
  let h := h.wr (K.SPINE_OFF_OFF n col) (h.rd (K.SPINE_OFF_OFF n col) ||| 2 ^ spine)
  let h := ((((h.wr (K.SPINE_CLOG_DRV n) drv).wr (K.SPINE_CLOG_SPINE n) spine).wr (K.SPINE_CLOG_COL n) col).wr
    (K.SPINE_CLOG_OUTCOME n) 0).wr (K.SPINE_CLOG_VALID n) 1
  let h := h.cnt (K.SPINE_COUNT_COUNT n)
  let h := logEvent h (srcDie n) 0 (dieBase n + 0xD00008)
  h.onDie n fun x => { x with scrub := { x.scrub with repairs := x.scrub.repairs ++ [(col, spine, drv)] } }

/-- The enables of spine j of a column as mirrored. -/
def spineDrivers (h : Hw) (n col j : Nat) : Nat :=
  ((List.range 16).filter fun r => (mirrorOf h n (12 * r + col)).testBit j).length

/-- The spine frames of a column: one in each of its 16 sectors (R82). -/
def spineFrames (col : Nat) : List Nat :=
  (List.range 16).map fun r => 1024 * (12 * r + col) + Config.spineFrame (12 * r + col) % 1024

/-- The oldest spine repair ends (R86, R314): the column's spine frames with one bit in error are corrected, and the spine comes
back unless one is uncorrectable or the mirror still shows contention; then it waits for the reload of a sector whose driver was
enabled. -/
def spineRepaired (h : Hw) (n : Nat) (uncorr : Bool) : Hw :=
  match (h.die n).scrub.repairs with
  | [] => h
  | (col, j, drv) :: rest =>
    if inA3 h || !h.bit (K.SCRUB_CTL_EN n) then h
    else
      let bad := uncorr || (spineFrames col).any fun k => frameErrOf h n k == 2
      let good := !bad && decide (spineDrivers h n col j ≤ 1)
      let h := (runDesign h).onDie n fun x => { x with
        frameErr := SMap.keep x.frameErr fun k v => !((spineFrames col).contains k && v == 1)
        scrub := { x.scrub with repairs := rest, down := if good then x.scrub.down else (col, j, drv) :: x.scrub.down } }
      let mine := h.rd (K.SPINE_CLOG_COL n) == col && h.rd (K.SPINE_CLOG_SPINE n) == j
      let h := if good then h.wr (K.SPINE_OFF_OFF n col) (setBitAt (h.rd (K.SPINE_OFF_OFF n col)) j false) else h
      if mine then h.wr (K.SPINE_CLOG_OUTCOME n) (if good then 1 else 2) else h

/-! ### The design's side of the sector ports (R60, R61) -/

/-- Whether the design of a die runs behind a sector: released, not in reset, the sector not fenced. -/
def designRuns (h : Hw) (n s : Nat) : Bool :=
  released h n && !h.bit (K.RST_DIE_INRESET n) && !inA3 h && !h.bit (K.FENCE_SEC_FENCE n s)

/-- A request enters the queue of a sector port, which deasserts ready when its 16 places are taken, and is performed in its turn
(R60, R61). -/
def secRequest (h : Hw) (n s : Nat) (wr : Bool) (beat data be : Nat) : Hw :=
  if !designRuns h n s || decide (16 ≤ (secWaiting h n s).length) then h
  else servePorts (setSecReqs h n s (secWaiting h n s ++ [⟨wr, beat, data, be⟩])) n

/-- The oldest response of a sector port reaches the design (R61). -/
def secRespond (h : Hw) (n s : Nat) : Hw :=
  match secQueue h n s with
  | [] => h
  | r :: rest => servePorts (h.onDie n fun x =>
    { x with secResps := SMap.set x.secResps s rest [], secLast := SMap.set x.secLast s (some r) none }) n

/-! ### The outpost (R63 to R66) -/

namespace Hw
/-- Change the outpost of die n. -/
def onOut (h : Hw) (n : Nat) (f : Outpost → Outpost) : Hw := h.onDie n fun x => { x with out := f x.out }
end Hw

/-- The hard blocks of an outpost, as OWN names them. -/
inductive OutBlock where
  | flash | uart (u : Fin 2) | spi | i2c
  deriving DecidableEq, Repr

/-- Whether the hub owns a block (R63). -/
def hubOwns (h : Hw) (n : Nat) : OutBlock → Bool
  | .flash => h.bit (K.OUTPOST_OWN_FLASH n)
  | .uart 0 => h.bit (K.OUTPOST_OWN_UART0 n)
  | .uart 1 => h.bit (K.OUTPOST_OWN_UART1 n)
  | .spi => h.bit (K.OUTPOST_OWN_SPI n)
  | .i2c => h.bit (K.OUTPOST_OWN_I2C n)

/-- Whether a side can act on the outpost at all: the hub while the die is reachable, the design while it runs (R25, R38). -/
def sideReaches (h : Hw) (n : Nat) : Side → Bool
  | .hub m => dieReachable h n && mayWriteCsr h m (dieBase n + 0xE00000)
  | .design => designRuns h n 11

/-- Whether a side may write a block (R63). -/
def sideOwns (h : Hw) (n : Nat) (b : OutBlock) : Side → Bool
  | .hub _ => hubOwns h n b
  | .design => !hubOwns h n b

/-- A write from the side that does not own the block: ignored, logged for the hub, flagged for the design (R63). -/
def notOwner (h : Hw) (n off data : Nat) : Side → Hw
  | .hub m => logErr h (srcDie n) (some m) .wrro 0 (dieBase n + 0xE00000 + off) data
  | .design => h.onDie n fun x => { x with portErr := true }

/-- The levels of the UART FIFOs stand in UARTu.STAT. -/
def uartLevels (h : Hw) (n : Nat) : Hw :=
  let o := (h.die n).out
  (((h.wr (K.OUTPOST_UART_STAT_TXLVL n 0) o.uartTx0.length).wr (K.OUTPOST_UART_STAT_RXLVL n 0) o.uartRx0.length).wr
    (K.OUTPOST_UART_STAT_TXLVL n 1) o.uartTx1.length).wr (K.OUTPOST_UART_STAT_RXLVL n 1) o.uartRx1.length

/-- FIFOs of a UART. -/
def uartTx (h : Hw) (n u : Nat) : List Byte := if u = 0 then (h.die n).out.uartTx0 else (h.die n).out.uartTx1
def uartRx (h : Hw) (n u : Nat) : List Byte := if u = 0 then (h.die n).out.uartRx0 else (h.die n).out.uartRx1
def setUartTx (h : Hw) (n u : Nat) (l : List Byte) : Hw :=
  uartLevels (h.onOut n fun o => if u = 0 then { o with uartTx0 := l } else { o with uartTx1 := l }) n
def setUartRx (h : Hw) (n u : Nat) (l : List Byte) : Hw :=
  uartLevels (h.onOut n fun o => if u = 0 then { o with uartRx0 := l } else { o with uartRx1 := l }) n

/-- Push a byte for transmission; a full FIFO drops it and sets OVR (R63). -/
def uartPush (h : Hw) (n u : Nat) (v : Byte) : Hw :=
  if (uartTx h n u).length < 64 then setUartTx h n u (uartTx h n u ++ [v]) else h.wr (K.OUTPOST_UART_STAT_OVR n u) 1

/-- Read UARTu.DATA: pops unless Adit reads; an empty FIFO reads an open value (R63). -/
def uartPop (h : Hw) (n u : Nat) (pops : Bool) : Nat × Hw :=
  match uartRx h n u with
  | [] => let (v, h) := h.draw; (v % 256, h)
  | b :: rest => (b.toNat, if pops then setUartRx h n u rest else h)

/-- The outpost of a die stands still: die reset, or A3 (R66, R457). -/
def outStops (h : Hw) (n : Nat) : Bool := h.bit (K.RST_DIE_INRESET n) || inA3 h

/-- A frame arrives at a UART (R65). DESIGN CHOICE, where the spec is silent: a byte that finds the receive FIFO full is dropped
and sets OVR, and a byte with a parity or framing error is pushed beside its flag. -/
def uartReceive (h : Hw) (n u : Nat) (v : Byte) (perr ferr : Bool) : Hw :=
  if !h.bit (K.OUTPOST_UART_CFG_EN n u) || outStops h n then h
  else
    let h := if perr then h.wr (K.OUTPOST_UART_STAT_PERR n u) 1 else h
    let h := if ferr then h.wr (K.OUTPOST_UART_STAT_FERR n u) 1 else h
    if (uartRx h n u).length < 64 then setUartRx h n u (uartRx h n u ++ [v]) else h.wr (K.OUTPOST_UART_STAT_OVR n u) 1

/-- A UART has sent a frame (R65). -/
def uartSent (h : Hw) (n u : Nat) : Hw :=
  if h.bit (K.OUTPOST_UART_CFG_EN n u) && !outStops h n then setUartTx h n u (uartTx h n u).tail else h

/-- Push a byte for SPI transmission; a full FIFO drops it (R63). -/
def spiPush (h : Hw) (n : Nat) (v : Byte) : Hw :=
  h.onOut n fun o => if o.spiTx.length < 64 then { o with spiTx := o.spiTx ++ [v] } else o

/-- Read SPI.DATA (R63). -/
def spiPop (h : Hw) (n : Nat) (pops : Bool) : Nat × Hw :=
  match (h.die n).out.spiRx with
  | [] => let (v, h) := h.draw; (v % 256, h)
  | b :: rest => (b.toNat, if pops then h.onOut n fun o => { o with spiRx := rest } else h)

/-- An SPI transfer ends (R63): a master transfers what its FIFO holds, a slave whenever it is clocked. A byte that finds the
receive FIFO full is dropped without a flag (DESIGN CHOICE: the spec is silent). -/
def spiTransfer (h : Hw) (n : Nat) (rx : Byte) : Hw :=
  let o := (h.die n).out
  if !h.bit (K.OUTPOST_SPI_CFG_EN n) || outStops h n then h
  else if !h.bit (K.OUTPOST_SPI_CFG_SLAVE n) && o.spiTx.isEmpty then h
  else h.onOut n fun o => { o with
    spiTx := o.spiTx.tail, spiRx := if o.spiRx.length < 64 then o.spiRx ++ [rx] else o.spiRx }

/-- Read I2C.CMD (R63). -/
def i2cPop (h : Hw) (n : Nat) (pops : Bool) : Nat × Hw :=
  match (h.die n).out.i2cRx with
  | [] => let (v, h) := h.draw; (v % 256, h)
  | b :: rest => (b.toNat, if pops then h.onOut n fun o => { o with i2cRx := rest } else h)

/-- An event of the I2C bus (R63, R65): the action written to CMD ends; another controller addresses ADDR, which the block
answers under TARGET = 1; a byte arrives for the action outstanding or for the block as target. While STRETCH = 1 and the
receive FIFO is full the target holds the bus. The FIFO holds 64 bytes, and a byte that finds it full without STRETCH is
dropped (DESIGN CHOICE). -/
def i2cEvent (h : Hw) (n : Nat) (ev : I2cEvent) : Hw :=
  let o := (h.die n).out
  if !h.bit (K.OUTPOST_I2C_CFG_EN n) || outStops h n then h
  else match ev with
    | .sent ack => if o.i2cCmd.isNone then h
        else (h.onOut n fun o => { o with i2cCmd := none }).wrB (K.OUTPOST_I2C_CMD_ACK n) ack
    | .addressed a => h.onOut n fun o => { o with
        i2cTarget := h.bit (K.OUTPOST_I2C_CFG_TARGET n) && h.rd (K.OUTPOST_I2C_CFG_ADDR n) == a.toNat }
    | .stopped => h.onOut n fun o => { o with i2cCmd := none, i2cTarget := false }
    | .received v =>
      if o.i2cCmd.isNone && !o.i2cTarget then h
      else if o.i2cRx.length < 64 then h.onOut n fun o => { o with i2cRx := o.i2cRx ++ [v], i2cCmd := none }
      else if o.i2cTarget && h.bit (K.OUTPOST_I2C_CFG_STRETCH n) then h
      else h.onOut n fun o => { o with i2cCmd := none }

/-! ### User flash (R64) -/

/-- Status codes of FLSTAT. -/
def flOk : Nat := 0
def flRefused : Nat := 1
def flWorn : Nat := 2
def flBadop : Nat := 3
def flInterrupted : Nat := 4

/-- An erased line. -/
def flashOnes : Nat := 2 ^ 512 - 1
/-- A line of the flash of die n. -/
def flashLine (v : NonVol) (n line : Nat) : Nat := SMap.get v.flash (n * 8192 + line) flashOnes
/-- Erase count of a page of die n. -/
def eraseCount (h : Hw) (n page : Nat) : Nat := SMap.get h.ecount (n * 128 + page) 0

/-- A write of FLCMD (R64). OP codes: 0 none, 1 READ, 2 PROGRAM, 3 ERASE. LINE is written by every command taken, one that ends
with BADOP or WORN as well (DESIGN CHOICE). -/
def flashCommand (h : Hw) (n line op : Nat) : Hw :=
  if h.bit (K.OUTPOST_FLSTAT_BUSY n) then h.wr (K.OUTPOST_FLSTAT_STATUS n) flRefused
  else
    let h := h.wr (K.OUTPOST_FLCMD_LINE n) line
    let start (o : FlashOp) (h : Hw) : Hw :=
      (h.onOut n fun x => { x with flash := some (o, line) }).wr (K.OUTPOST_FLSTAT_BUSY n) 1
    match op with
    | 0 => h
    | 1 => start .read h
    | 2 => start .program h
    | 3 =>
      let page := line / 64
      if 100000 ≤ eraseCount h n page then h.wr (K.OUTPOST_FLSTAT_STATUS n) flWorn
      else start .erase { h with ecount := SMap.set h.ecount (n * 128 + page) (eraseCount h n page + 1) 0 }
    | _ => h.wr (K.OUTPOST_FLSTAT_STATUS n) flBadop

/-- FLBUF as one number. -/
def flBuf (h : Hw) (n : Nat) : Nat :=
  (List.range 8).foldl (fun x w => x + h.rd (K.OUTPOST_FLBUF_BYTES n w) * 2 ^ (64 * w)) 0

/-- A flash operation ends (R64). DESIGN CHOICE, where the spec is silent: PROGRAM takes FLBUF as it stands now, and the status
of the operation that ends replaces a REFUSED of a command given while it ran. -/
def flashEnds (v : NonVol) (h : Hw) (n : Nat) : NonVol × Hw :=
  match (h.die n).out.flash with
  | none => (v, h)
  | some (op, line) =>
    let h1 := ((h.onOut n fun x => { x with flash := none }).wr (K.OUTPOST_FLSTAT_BUSY n) 0).wr
      (K.OUTPOST_FLSTAT_STATUS n) flOk
    match op with
    | .read => (v, (List.range 8).foldl
        (fun h w => h.wr (K.OUTPOST_FLBUF_BYTES n w) (flashLine v n line / 2 ^ (64 * w))) h1)
    | .program =>
      ({ v with flash := SMap.set v.flash (n * 8192 + line) (flashLine v n line &&& flBuf h n) flashOnes }, h1)
    | .erase =>
      ({ v with flash := SMap.keep v.flash fun k _ => k / 64 != n * 128 + line / 64 }, h1)

/-- A reset cuts an operation short: a line being programmed, or every line of a page being erased, is undefined (R64). -/
def flashCut (v : NonVol) (h : Hw) (n : Nat) : NonVol × Hw :=
  match (h.die n).out.flash with
  | none => (v, h)
  | some (op, line) =>
    let (x, h) := h.draw
    let h := h.onOut n fun o => { o with flash := none, cut := true }
    match op with
    | .read => (v, h)
    | .program => ({ v with flash := SMap.set v.flash (n * 8192 + line) (x % 2 ^ 512) flashOnes }, h)
    | .erase =>
      let base := n * 8192 + line / 64 * 64
      let flash := (List.range 64).foldl
        (fun f i => SMap.set f (base + i) (x / 2 ^ (512 * i) % 2 ^ 512) flashOnes) v.flash
      ({ v with flash := flash }, h)

end Sys2Proof.Machine
end

