-- ==== Sys2Proof/Machine/Rights.lean ====
section
/-!
DEFINITION. Register accesses: the gates a register access passes (R24, R25), the write and the read of a register by its
fields' access codes (R7, R8, R12, R300), the clamp log (R303), and the outpost's register file (R63).
-/
namespace Sys2Proof.Machine

/-! ### Gates -/

/-- The die whose DIE block an address lies in. -/
def dieOfCsr (a : Nat) : Option Nat := if 0x2000000 ≤ a ∧ a < 0x6000000 then some ((a - 0x2000000) / 0x1000000) else none
/-- Registers of a DIE block that are held in the hub: seams, packed domains and trigger pins (R25). -/
def heldInHub (a : Nat) : Bool := within (a % 0x1000000) 0x800000 0xA00000 || within a 0x2A00280 0x2A002A0

/-- The status with which a register access is turned away before it reaches its block; OK where it is not. -/
def csrGate (h : Hw) (m : Master) (wr : Bool) (a : Nat) : Status :=
  if !inBlock a then .decerr
  else if !(if wr then mayWriteCsr h m a else mayReadCsr m a) then .denied
  else match dieOfCsr a with
    | some n => if heldInHub a || dieReachable h n then .ok else .offline
    | none => .ok

/-- A register write by a master: performed where the gates let it through, else logged (R24 to R26). -/
def gated (h : Hw) (m : Master) (a : Nat) (f : Hw → Hw) : Hw :=
  match csrGate h m true a with
  | .ok => f h
  | .offline => logAccess h (targetSource a) m .offline a
  | st => logAccess h srcGallery m st a

/-- A size and alignment R7 allows. -/
def csrShape (a size : Nat) : Bool := (size == 8 && a % 8 == 0) || (size == 4 && a % 4 == 0)

/-! ### Clamps (R300 to R303) -/

/-- Write an entry of the clamp log. -/
def logClamp (h : Hw) (k : Key) (r : Reason) (written applied : Nat) : Hw :=
  let e := h.rd K.CFG_CLAMPHEAD_NEXT
  let total := h.rd K.CFG_CLAMPHEAD_TOTAL
  let h := h.wr (K.CFG_CLAMPLOG_ADDR_ADDR e) k.addr
  let h := h.wr (K.CFG_CLAMPLOG_FIELD_SEQ e) total
  let h := h.wr (K.CFG_CLAMPLOG_FIELD_REASON e) r.code
  let h := h.wr (K.CFG_CLAMPLOG_FIELD_WIDTHM1 e) (k.w - 1)
  let h := h.wr (K.CFG_CLAMPLOG_FIELD_LSB e) k.lo
  let h := h.wr (K.CFG_CLAMPLOG_FIELD_VALID e) 1
  let h := h.wr (K.CFG_CLAMPLOG_WRITTEN_VALUE e) written
  let h := h.wr (K.CFG_CLAMPLOG_APPLIED_VALUE e) applied
  (h.wr K.CFG_CLAMPHEAD_NEXT (e + 1)).wr K.CFG_CLAMPHEAD_TOTAL (total + 1)

/-- Clamp a staged value to `v` at a COMMIT: the shadow takes it and the clamp is logged (R302). -/
def clampSh (h : Hw) (k : Key) (r : Reason) (v : Nat) : Hw :=
  if h.sh k = v then h else logClamp (h.wrSh k v) k r (h.sh k) v

/-! ### Reading and writing registers by their fields (R7, R8) -/

/-- The bits of a register a write of this size at this address names. -/
def writeMask64 (a size : Nat) : Nat := if size = 8 then 2 ^ 64 - 1 else if a % 8 = 4 then (2 ^ 32 - 1) * 2 ^ 32 else 2 ^ 32 - 1
/-- The write data in its place in the register. -/
def placed (a size data : Nat) : Nat := if size = 8 then data % 2 ^ 64 else data % 2 ^ 32 * (if a % 8 = 4 then 2 ^ 32 else 1)

/-- The value of a field in a 64-bit word. -/
def fieldIn (k : Key) (x : Nat) : Nat := x / 2 ^ k.lo % 2 ^ k.w

/-- The value a write gives a field: bits the write names, others as they were. -/
def merged (k : Key) (old data mask : Nat) : Nat := mergeBits old (fieldIn k mask) (fieldIn k data)

/-- A write of one field by its access code. -/
def writeField (h : Hw) (m : Master) (f : Field) (data mask : Nat) : Hw :=
  if fieldIn f.key mask = 0 then h
  else match f.acc with
    | .ro | .rc | .wo => h
    | .w1c => h.wr f.key (h.rd f.key - (h.rd f.key &&& fieldIn f.key (data &&& mask)))
    | .w1s => h.wr f.key (h.rd f.key ||| fieldIn f.key (data &&& mask))
    | .rw =>
      let v := merged f.key (h.rd f.key) data mask
      match f.chk.apply v with
      | none => h.wr f.key v
      | some (x, _) => logErr (h.wr f.key x) (blockSource f.key.addr) (some m) .replaced 0 f.key.addr data
    | .st =>
      let v := merged f.key (h.sh f.key) data mask
      match f.chk.apply v with
      | none => h.wrSh f.key v
      | some (x, r) => logClamp (h.wrSh f.key x) f.key r v x

/-- A write to a register acts on each of its fields; an offset with no register ignores the write and logs it (R23). -/
def writeReg (h : Hw) (m : Master) (a size data : Nat) : Hw :=
  let base := a / 8 * 8
  match fieldsAt base with
  | [] => logErr h (blockSource a) (some m) .wrunimp 0 a data
  | fs => fs.foldl (fun h f => writeField h m f (placed a size data) (writeMask64 a size)) h

/-- What a read of a register returns before side effects: staged values of ST fields, 0 for WO fields (R8). -/
def readVal (h : Hw) (base : Nat) : Nat :=
  (fieldsAt base).foldl (fun x f => match f.acc with
    | .wo => x
    | .st => x + h.sh f.key * 2 ^ f.key.lo
    | _ => x + h.rd f.key * 2 ^ f.key.lo) 0

/-- The half or the whole of a register value a read returns. -/
def readPart (a size v : Nat) : Nat := if size = 8 then v else if a % 8 = 4 then v / 2 ^ 32 else v % 2 ^ 32

/-- The side effect of a read: every RC field of the register clears (R7, R8). -/
def clearRc (h : Hw) (base : Nat) : Hw :=
  (fieldsAt base).foldl (fun h f => if f.acc = .rc then h.wr f.key 0 else h) h

/-! ### The outpost's registers (R63) -/

/-- The block of an outpost offset, where one owns it. -/
def outBlockOf (off : Nat) : Option OutBlock :=
  if off = 0x10 ∨ (0x40 ≤ off ∧ off < 0x80) then some .flash
  else if 0x100 ≤ off ∧ off < 0x118 then some (.uart 0)
  else if 0x140 ≤ off ∧ off < 0x158 then some (.uart 1)
  else if off = 0x200 ∨ off = 0x208 then some .spi
  else if off = 0x300 ∨ off = 0x308 then some .i2c
  else none

/-- The master whose name a log entry about an outpost write carries. -/
def sideMaster : Side → Master
  | .hub m => m
  | .design => .block

/-- A write to I2C.CMD issues the action it names (R63). -/
def i2cCommand (h : Hw) (n cmd : Nat) : Hw := h.onOut n fun o => { o with i2cCmd := some (cmd % 2 ^ 11) }

/-- A write to an outpost register from a side. The design's port carries 64-bit data. -/
def outWrite (h : Hw) (n : Nat) (src : Side) (off size data : Nat) : Hw :=
  let base := off / 8 * 8
  let a := dieBase n + 0xE00000 + off
  if base = 0 ∧ src = .design then h.onDie n fun x => { x with portErr := true }
  else match outBlockOf base with
    | some b =>
      if !sideOwns h n b src then notOwner h n off data src
      else if base = 0x10 then
        if off % 8 = 4 then h else flashCommand h n (bits data 18 6) (bits data 2 0)
      else if base = 0x108 ∨ base = 0x148 then
        if off % 8 = 4 then h else uartPush h n (if base = 0x108 then 0 else 1) (BitVec.ofNat 8 data)
      else if base = 0x208 then if off % 8 = 4 then h else spiPush h n (BitVec.ofNat 8 data)
      else if base = 0x308 then if off % 8 = 4 then h else i2cCommand h n data
      else writeReg h (sideMaster src) a size data
    | none =>
      if base = 0 ∨ base = 0x18 then writeReg h (sideMaster src) a size data
      else match src with
        | .hub m => logErr h (srcDie n) (some m) .wrunimp 0 a data
        | .design => h

/-- Whether a read by a side pops: every read but Adit's (R63). -/
def sidePops : Side → Bool
  | .hub .adit => false
  | _ => true

/-- A read of an outpost register from a side. -/
def outRead (h : Hw) (n : Nat) (src : Side) (off : Nat) : Nat × Hw :=
  let base := off / 8 * 8
  let pops := sidePops src
  match base with
  | 0x108 => uartPop h n 0 pops
  | 0x148 => uartPop h n 1 pops
  | 0x208 => spiPop h n pops
  | 0x308 => i2cPop h n pops
  | 0x18 => (readVal h (dieBase n + 0xE00018) % 2 ^ 32 + eraseCount h n (h.rd (K.OUTPOST_FLCMD_LINE n) / 64) * 2 ^ 32, h)
  | _ => (readVal h (dieBase n + 0xE00000 + base), h)

end Sys2Proof.Machine
end

