-- ==== Sys2Proof/Machine/CoreOps.lean ====
section
/-!
DEFINITION. What the units do to a service core: its registers, traps (R191 to R193), the end of its item, the results of
device operations (R207), and the failure of a load (R279, R282).
-/
namespace Sys2Proof.Machine

/-! ### Registers (R170) -/
namespace Hw
/-- General register r of core c; g0 reads 0. -/
def g (h : Hw) (c : Core) (r : Reg) : Word := if r = 0 then 0 else SMap.get (h.core c.val).regs r.val 0
/-- Write general register r of core c; a write of g0 is discarded. -/
def setG (h : Hw) (c : Core) (r : Reg) (v : Word) : Hw :=
  if r = 0 then h else h.onCore c.val fun x => { x with regs := SMap.set x.regs r.val v 0 }
/-- pc of core c. -/
def pc (h : Hw) (c : Core) : Word := (h.core c.val).pc
/-- Set the pc of core c. -/
def setPc (h : Hw) (c : Core) (v : Word) : Hw := h.onCore c.val fun x => { x with pc := v }
end Hw

/-- Core 0 is the foreman (R189). -/
def isForeman (c : Core) : Bool := decide (c.val = 0)
/-- Master code of a core. -/
def coreCode (c : Core) : Nat := c.val

/-! ### Claims and the end of an item -/

/-- Release the frame engine claims a core holds (R213, R214). -/
def releaseClaims (h : Hw) (c : Nat) : Hw :=
  let h := (List.range 4).foldl (fun h n =>
    if (h.die n).eng.claim = some c then h.onDie n fun x => { x with eng := { x.eng with claim := none } } else h) h
  h.onCore c fun x => { x with claim := none }

/-- The priority reservation is released, or the core leaves the line for it; writes it held back go on (R202). -/
def releasePrio (h : Hw) (c : Nat) : Hw :=
  flushHeld { h.wr (K.CORE_LOCKSTAT_PRIO c) 0 with sched := { h.sched with prioQueue := h.sched.prioQueue.filter (· != c) } }

/-- A core that Adit steps halts again once its instruction is over (R477). -/
def endStep (h : Hw) (c : Nat) : Hw :=
  if (h.core c).stepping then
    (h.onCore c fun x => { x with stepping := false }).wr K.ADIT_HALTED_CORES (setBitAt (h.rd K.ADIT_HALTED_CORES) c true)
  else h

/-- An ending item is over once no store of its core is unacknowledged (R192, R213). -/
def tryEnd (h : Hw) (c : Core) : Hw :=
  match (h.core c.val).ending with
  | some e =>
    if (h.core c.val).stores.isEmpty then endItem (releasePrio (releaseClaims (endStep h c.val) c.val) c.val) c.val e else h
  | none => h

/-- The item of core c begins to end: loads are discarded, buffered stores dropped, claims released. -/
def startEnd (h : Hw) (c : Core) (e : Ending) : Hw :=
  let h := releaseClaims h c.val
  let h := h.onCore c.val fun x =>
    { x with ending := some e, loads := x.loads.map fun l => { l with dead := true }, lock := none, lockWait := false, dev := none, pendErr := none }
  tryEnd ((releasePrio h c.val).wr (K.CORE_LOCKSTAT_OPEN c.val) 0) c

/-! ### The failure of a load -/

/-- STAGE codes of R279. -/
def stIdle : Nat := 0
def stLegend : Nat := 1
def stProgseg : Nat := 2
def stFrames : Nat := 3
def stProgram : Nat := 4
def stVerify : Nat := 5
def stRelease : Nat := 6
def stClear : Nat := 7
def loadStage (h : Hw) : Nat := h.rd K.CFG_LOAD_STAGE

/-- A load fails and goes to CLEAR with its code, DETAIL, segment and frame (R279, R282). -/
def loadFails (h : Hw) (code detail seg faddr : Nat) : Hw :=
  match h.ldr.load with
  | some l =>
    if l.fail.isSome then h
    else { h with ldr := { h.ldr with load := some { l with fail := some (code, detail, seg, faddr) } } }.wr K.CFG_LOAD_STAGE stClear
  | none => h

/-- A trap on the foreman while the image program runs ends the load with PROGFAIL (R281). -/
def programTraps (h : Hw) (c : Core) (cause : Nat) : Hw :=
  if isForeman c && loadStage h == stProgram then loadFails h 0x10 cause (h.rd K.CFG_LOAD_SEG) 0 else h

/-! ### Traps (R191 to R193) -/

/-- Trap causes. -/
def cIllegal : Nat := 0x01
def cPriv : Nat := 0x02
def cFetch : Nat := 0x03
def cMisalign : Nat := 0x04
def cBuserr : Nat := 0x05
def cStoreerr : Nat := 0x06
def cPoison : Nat := 0x07
def cLockseq : Nat := 0x08
def cSoft : Nat := 0x09
def cBurn : Nat := 0x0A

/-- The trap registers of a core. -/
def recordTrap (h : Hw) (c : Core) (cause : Nat) (tval epc : Word) (imprecise fetch : Bool) : Hw :=
  let n := c.val
  (((((h.wr (K.CORE_EPC_EPC n) (epc.toNat / 4 * 4)).wr (K.CORE_TVAL_TVAL n) tval.toNat).wr (K.CORE_CAUSE_CODE n) cause).wrB
    (K.CORE_CAUSE_IMPRECISE n) imprecise).wrB (K.CORE_CAUSE_FETCH n) fetch)

/-- Log a trap with its cause, EPC and TVAL (R192, R193, R514). -/
def logTrap (h : Hw) (c : Core) (cause : Nat) (tval epc : Word) : Hw :=
  logErr h srcCrew (some (.core c)) .trap cause epc.toNat tval.toNat

/-- A trap. The foreman enters its handler, or stops on a double trap (R193); on a crew core it ends the item (R192). A
locked sequence of the foreman is broken and rests while the handler runs (R200). -/
def trap (h : Hw) (c : Core) (cause : Nat) (tval epc : Word) (imprecise fetch : Bool) : Hw :=
  let h := programTraps h c cause
  if isForeman c then
    if h.bit (K.CORE_CAUSE_TACTIVE 0) then
      (logTrap (h.wr (K.CORE_CAUSE_DOUBLE 0) 1) c cause tval epc).onCore 0 fun x => { x with fetching := false, pendErr := none }
    else
      let h := (recordTrap h c cause tval epc imprecise fetch).wr (K.CORE_CAUSE_TACTIVE 0) 1
      h.onCore 0 fun x => { x with
        pc := BitVec.ofNat 64 (h.rd (K.CORE_TVEC_VEC 0) * 4)
        lock := x.lock.map fun l => { l with broken := true, suspended := true }
        pendErr := none }
  else
    startEnd (logTrap (recordTrap h c cause tval epc imprecise fetch) c cause tval epc) c ⟨cause, tval, 0⟩

/-- An imprecise trap is raised at an instruction boundary: no device operation is in progress, no LOCK that has issued waits
for the priority reservation, and the core is not halted (R191). -/
def boundary (h : Hw) (c : Core) : Hw :=
  match (h.core c.val).pendErr with
  | some (cause, addr) =>
    if (h.core c.val).dev.isSome || (h.core c.val).lockWait || isHalted h c.val || (h.core c.val).ending.isSome then h
    else trap h c cause (BitVec.ofNat 64 addr) (h.pc c) true false
  | none => h

/-- An error response arrives at a core: the first one before the boundary traps, a later one is logged (R191, R192). -/
def errorArrives (h : Hw) (c : Core) (cause addr : Nat) : Hw :=
  let x := h.core c.val
  if x.pendErr.isSome || x.ending.isSome then logTrap h c cause (BitVec.ofNat 64 addr) (h.pc c)
  else boundary (h.onCore c.val fun x => { x with pendErr := some (cause, addr) }) c

/-! ### Device operations (R197, R207) -/

/-- A device operation that a core waits for ends with this result: rd is written now, or at resume while the core is
halted. -/
def finishDev (h : Hw) (c : Core) (v : Word) : Hw :=
  match (h.core c.val).dev with
  | some d =>
    if isHalted h c.val then h.onCore c.val fun x => { x with dev := some { d with done := some v } }
    else boundary (endStep ((h.setG c d.rd v).onCore c.val fun x => { x with dev := none }) c.val) c
  | none => h

/-- The 64 cores. -/
def allCores : List Core := List.finRange 64

/-- A status word with a count in [48:40] (R236). -/
def statusCount (st n : Nat) : Word := BitVec.ofNat 64 (n % 512 * 2 ^ 40 + st)

/-- CLKHALT with WAITALL ends at the first moment at which every named network is halted (R236). -/
def wakeWaitAll (h : Hw) : Hw :=
  allCores.foldl (fun h c => match (h.core c.val).dev with
    | some ⟨.waitAll nets, _, none⟩ =>
      if nets.all fun x => netHalted h (x / 64) (x % 64) then finishDev h c 0 else h
    | _ => h) h

end Sys2Proof.Machine
end

