-- ==== Sys2Proof/Machine/Queues.lean ====
section
/-!
DEFINITION. Writes to the scheduler's registers, the doorbells of fabric ports, and the ways an entry leaves a queue other
than dispatch (R242 to R247, R252, R258, R265).
-/
namespace Sys2Proof.Machine

/-- The device has a guest site. -/
def hasGuest (h : Hw) : Bool := h.bit K.ID_CAP_GUEST

/-- Addresses of Qq.CFG, BASE, AFF and PTR. -/
def qCfgAddr (q : Nat) : Nat := (K.SCHED_Q_CFG_EN q).addr
def qBaseAddr (q : Nat) : Nat := (K.SCHED_Q_BASE_ADDR q).addr
def qAffAddr (q : Nat) : Nat := (K.SCHED_Q_AFF_MASK q).addr
def qPtrAddr (q : Nat) : Nat := (K.SCHED_Q_PTR_POP q).addr

/-- A write ignored under a rule of its target (R514). -/
def logIgnored (h : Hw) (m : Master) (a data : Nat) : Hw := logErr h (blockSource a) (some m) .ignored 0 a data

/-! ### Fabric port doorbells (R252) -/

/-- Key of a port's credit copy of a queue. -/
def copyKey (n p q : Nat) : Nat := (n * 8 + p) * 16384 + q
/-- The port's copy of CRED of a queue. -/
def creditCopy (h : Hw) (n p q : Nat) : Nat := SMap.get h.sched.copies (copyKey n p q) 0
/-- Set that copy. -/
def setCopy (h : Hw) (n p q v : Nat) : Hw :=
  { h with sched := { h.sched with copies := SMap.set h.sched.copies (copyKey n p q) v 0 } }

/-- Whether a request comes from port p of die n. -/
def fromPort (r : GReq) (n p : Nat) : Bool :=
  match r.m with
  | .fport d q => d.val == n && q.val == p
  | _ => false

/-- Whether the scheduler has returned a doorbell of this port for this queue. -/
def hasRefused (h : Hw) (n p q : Nat) : Bool :=
  h.sched.refused.any fun r => fromPort r n p && doorbellQueue r.addr == q

/-- A doorbell of a fabric port reaches the scheduler: one that finds the queue full, or follows one that did, returns to
its port and the port's copy becomes 0. -/
def portDoorbell (h : Hw) (n p : Nat) (r : GReq) : Hw :=
  let q := doorbellQueue r.addr
  let giveBack (h : Hw) : Hw := setCopy { h with sched := { h.sched with refused := h.sched.refused ++ [r] } } n p q 0
  if hasRefused h n p q then giveBack h
  else
    let (h, a) := tryEnter h q (.master r.m) (natDesc r.data)
    match a with
    | .ok _ => dispatch (donePosted h r)
    | .full => giveBack h
    | a => dropPosting (donePosted h r) q (mcode r.m) a

/-- Resend the refused doorbells of a port for a queue, in order, while its copy has credit; at most k of them. -/
def resend : Nat → Hw → Nat → Nat → Nat → Hw
  | 0, h, _, _, _ => h
  | k + 1, h, n, p, q =>
    match h.sched.refused.find? fun r => fromPort r n p && doorbellQueue r.addr == q with
    | none => h
    | some r =>
      if creditCopy h n p q = 0 then h
      else
        let (h', a) := tryEnter h q (.master r.m) (natDesc r.data)
        match a with
        | .full => setCopy h n p q 0
        | a =>
          let h := setCopy h' n p q (creditCopy h n p q - 1)
          let h := { h with sched := { h.sched with refused := h.sched.refused.erase r } }
          let h := donePosted h r
          let h := match a with | .ok _ => dispatch h | a => dropPosting h q (mcode r.m) a
          resend k h n p q

/-- The scheduler raises the port's copy to CRED, and refused doorbells are resent first. -/
def creditUpdate (h : Hw) (n p q : Nat) : Hw :=
  if qEn h q && qKind h q == 2 && qIdx h q == 8 * n + p then
    let h := setCopy h n p q (max (creditCopy h n p q) (qCred h q))
    resend h.sched.refused.length h n p q
  else h

/-- Doorbells held at ports for a queue are discarded (R246). -/
def dropHeldBells (h : Hw) (q : Nat) : Hw :=
  let bell (r : GReq) : Bool := isDoorbell r.addr && doorbellQueue r.addr == q
  let gone := h.sched.refused.filter bell
  let h := gone.foldl donePosted { h with sched := { h.sched with refused := h.sched.refused.filter fun r => !bell r } }
  (List.range 4).foldl (fun h n => (List.range 8).foldl (fun h p =>
    let x := SMap.get (h.die n).fports p {}
    let gone := x.waiting.filter bell
    if gone.isEmpty then h
    else
      let tags := gone.map (·.tag)
      let x := { x with waiting := x.waiting.filter fun r => !bell r, outTags := x.outTags.filter fun t => !(tags.contains t.1) }
      let h := h.onDie n fun d => { d with fports := SMap.set d.fports p x {} }
      gone.foldl donePosted (h.wr (K.FPORT_STAT_OUTB n p) x.outTags.length)) h) h

/-! ### Entries that leave -/

/-- The oldest entry of a queue. -/
def oldest (h : Hw) (q : Nat) : Option QEntry := (h.queue q).entries.head?

/-- An entry leaves its queue and its ticket is released (R242, R255). -/
def leave (h : Hw) (q : Nat) (e : QEntry) : Hw := dropTicket (removeSlot h q e.slot) e.ticket

/-- Discard every entry of a queue, each counted (R246, R266). -/
def discardAll (h : Hw) (q : Nat) : Hw :=
  let es := (h.queue q).entries
  let h := es.foldl (fun h e => dropTicket h e.ticket) h
  let h := h.setQueue q { h.queue q with entries := [] }
  let h := { h with sched := { h.sched with delivering := h.sched.delivering.filter fun e => e.1 != q } }
  h.addSat (K.SCHED_Q_STAT_DISCARD q) es.length

/-- Writing 0 to EN (R246, R265). -/
def disableQueue (h : Hw) (q : Nat) : Hw :=
  if !qEn h q then h
  else
    let h := discardAll h q
    let h := h.setQueue q { h.queue q with res := 0 }
    let h := allCores.foldl (fun h c => match (h.core c.val).item with
      | some i => if i.reply = .credit q then setReply h c.val (.lost q) else h
      | none => h) h
    dispatch ((dropHeldBells h q).wr (K.SCHED_Q_CFG_EN q) 0)

/-- POP: frees the oldest entries of a queue whose entries are neither dispatched nor delivered. -/
def popQueue (h : Hw) (q n : Nat) : Hw :=
  if qAuto h q || qDeliver h q then h
  else dispatch (((h.queue q).entries.take n).foldl (fun h e => leave h q e) h)

/-! ### Enabling (R245) -/

/-- Whether a kind of owner is permitted on a queue (R243). -/
def kindPermitted (h : Hw) (q k : Nat) : Bool :=
  if q < 8 then k == 5 else k == 0 || (decide (256 ≤ q ∧ k ≤ 4) && (k != 4 || hasGuest h))

/-- Enabled queues a fabric port owns. -/
def ownedByPort (h : Hw) (idx : Nat) : Nat := ((enabledQueues h).filter fun q => qKind h q == 2 && qIdx h q == idx).length

/-- The conditions of R245. -/
def mayEnable (h : Hw) (q : Nat) : Bool :=
  let base := h.rd (K.SCHED_Q_BASE_ADDR q)
  let size := qDepth h q * 64
  let tres := h.rd (K.SCHED_Q_CFG_TRES q)
  decide (hubBase ≤ base ∧ base + size ≤ hubBase + hubSize ∧ base % size = 0) &&
  decide (tres ≤ qDepth h q + 63 ∧ tresSum h + tres ≤ 65536) &&
  (!qAuto h q || affinity h q != 0) &&
  (!qAuto h q || !qDeliver h q) &&
  (qKind h q != 2 || decide (ownedByPort h (qIdx h q) < 16))

/-- Writing 1 to EN of a disabled queue: it is enabled, empty, and a host ring starts at 0 (R245, R336). -/
def enableQueue (h : Hw) (m : Master) (q data : Nat) : Hw :=
  if qEn h q then h
  else if mayEnable h q then
    let h := (h.setQueue q {}).wr (K.SCHED_Q_CFG_EN q) 1
    let h := if qKind h q = 1 then (h.wr (K.PCIE_HRING_HEAD q) 0).wr (K.PCIE_HRING_TAIL q) 0 else h
    dispatch h
  else logIgnored h m (qCfgAddr q) data

/-! ### Writes to the table registers -/

/-- The value a write of part of a register gives a field. -/
def newVal (h : Hw) (k : Key) (data mask : Nat) : Nat := merged k (h.rd k) data mask

/-- A write to Qq.CFG: fields first, then EN (R243 to R246, R249). -/
def writeQCfg (h : Hw) (m : Master) (q data mask : Nat) : Hw :=
  let v (k : Key) : Nat := newVal h k data mask
  let a := qCfgAddr q
  let locked : List Key := [K.SCHED_Q_CFG_DEPTH q, K.SCHED_Q_CFG_TRES q, K.SCHED_Q_CFG_OWNKIND q, K.SCHED_Q_CFG_OWNIDX q,
    K.SCHED_Q_CFG_AUTO q, K.SCHED_Q_CFG_DELIVER q]
  let fixed : List Key := if q < 8 then [K.SCHED_Q_CFG_OWNKIND q, K.SCHED_Q_CFG_OWNIDX q] else []
  let en := qEn h q
  let h' := if en && locked.any (fun k => !(fixed.contains k) && v k != h.rd k) then logIgnored h m a data else h
  let replaced (h : Hw) (k : Key) (x : Nat) : Hw := logErr (h.wr k x) srcSched (some m) .replaced 0 a data
  let h' := if en then h' else
    (locked.filter fun k => !(fixed.contains k)).foldl (fun h k =>
      if k = K.SCHED_Q_CFG_OWNKIND q ∧ !kindPermitted h q (v k) then replaced h k 0
      else if k = K.SCHED_Q_CFG_DEPTH q ∧ v k = 7 then replaced h k 0
      else h.wr k (v k)) h'
  let h' := h'.wr (K.SCHED_Q_CFG_PATIENCE q) (v (K.SCHED_Q_CFG_PATIENCE q))
  let h' := if qKind h' q = 0 then h'.wr (K.SCHED_Q_CFG_PLOCK q) (v (K.SCHED_Q_CFG_PLOCK q)) else h'
  let prio := v (K.SCHED_Q_CFG_PRIO q)
  let h' := if 256 ≤ q ∧ prio = 0 then replaced h' (K.SCHED_Q_CFG_PRIO q) 1 else h'.wr (K.SCHED_Q_CFG_PRIO q) prio
  if v (K.SCHED_Q_CFG_EN q) = 0 then disableQueue h' q else enableQueue h' m q data

/-- A write to Qq.BASE: ignored and logged while the queue is enabled (R245). -/
def writeQBase (h : Hw) (m : Master) (q data mask : Nat) : Hw :=
  if qEn h q then logIgnored h m (qBaseAddr q) data
  else h.wr (K.SCHED_Q_BASE_ADDR q) (newVal h (K.SCHED_Q_BASE_ADDR q) data mask)

/-- A write to Qq.AFF: an event of the dispatch rule; it may not empty the mask of an enabled automatic queue (R245, R257). -/
def writeQAff (h : Hw) (m : Master) (q data mask : Nat) : Hw :=
  let v := newVal h (K.SCHED_Q_AFF_MASK q) data mask
  if qEn h q && qAuto h q && v == 0 then logIgnored h m (qAffAddr q) data
  else dispatch (h.wr (K.SCHED_Q_AFF_MASK q) v)

/-- A write to a register of HUB.SCHED below the doorbell window. -/
def writeSched (h : Hw) (m : Master) (a size data : Nat) : Hw :=
  if a < 0x500000 ∨ 0x600000 ≤ a then writeReg h m a size data
  else
    let q := (a - 0x500000) / 0x40
    let d := placed a size data
    let mask := writeMask64 a size
    match a / 8 % 8 with
    | 0 => writeQCfg h m q d mask
    | 1 => writeQBase h m q d mask
    | 2 => writeQAff h m q d mask
    | 5 => if fieldIn (K.SCHED_Q_PTR_POP q) mask = 0 then h else popQueue h q (fieldIn (K.SCHED_Q_PTR_POP q) d)
    | _ => writeReg h m a size data

/-! ### Values a read of the scheduler's registers computes -/

/-- Earliest pending deadline: of running items and of waiting entries of automatic queues (R264). -/
def nextDeadline (h : Hw) : Nat :=
  let items := h.cores.filterMap fun e => e.2.item.bind (·.deadline)
  let waits := h.sched.queues.flatMap fun x => if qEn h x.1 && qAuto h x.1 then x.2.entries.filterMap (fun e =>
      let dl := bits (slotDesc h x.1 e.slot).w5.toNat 63 32
      if dl = 0 then none else some (e.admitted + dl * 80)) else []
  (items ++ waits).foldl min (2 ^ 64 - 1)

/-- A read of a register of HUB.SCHED. -/
def readSched (h : Hw) (a : Nat) : Nat :=
  if a = 0x400000 then h.sched.held.length * 2 ^ 32 + sharedFree h
  else if a = 0x400010 then nextDeadline h
  else if 0x600000 ≤ a then 0
  else if 0x500000 ≤ a then
    let q := (a - 0x500000) / 0x40
    match a / 8 % 8 with
    | 0 => readVal h a ||| (if 1 ≤ qKind h q ∧ qKind h q ≤ 5 then 2 ^ 11 else 0)
    | 5 => qCred h q * 2 ^ 32 + qOcc h q * 2 ^ 16 + (h.queue q).res
    | _ => readVal h a
  else readVal h a

/-! ### ENQ, DEQ and REPLY (R210 to R212) -/

/-- Status codes of the QUEUE class. -/
def qsOk : Nat := 0
def qsFull : Nat := 1
def qsEmpty : Nat := 2
def qsNoqueue : Nat := 3
def qsDenied : Nat := 4
def qsNoticket : Nat := 5
def qsNoitem : Nat := 6
def qsNoreply : Nat := 7
def qsAuto : Nat := 8

/-- ENQ of a descriptor by a core: the result word. -/
def enqueue (h : Hw) (c : Core) (q : Nat) (d : Desc) : Nat × Hw :=
  let (h, a) := tryEnter h q (.master (.core c)) d
  match a with
  | .ok t => (t * 2 ^ 16 + qsOk, dispatch h)
  | .noqueue => (qsNoqueue, h)
  | .denied => (qsDenied, h)
  | .full => (qsFull, h)
  | .noticket => (qsNoticket, h)

/-- DEQ by a core: the result word, and the entry it removes. The ticket field of an entry without a ticket is returned
unchanged (R255). -/
def dequeue (h : Hw) (c : Core) (q : Nat) : Nat × Option Desc × Hw :=
  if !qEn h q then (qsNoqueue, none, h)
  else if c.val != 0 && decide (q < 256) then (qsDenied, none, h)
  else if qAuto h q then (qsAuto, none, h)
  else match oldest h q with
    | none => (qsEmpty, none, h)
    | some e =>
      let d := slotDesc h q e.slot
      (bits d.w6.toNat 15 0 * 2 ^ 16 + qsOk, some d, dispatch (leave h q e))

/-- A record with its ticket and generation overwritten by the item's (R212). -/
def stampRecord (i : Item) (d : Desc) : Desc :=
  { d with w6 := BitVec.ofNat 64 (bits d.w6.toNat 63 32 * 2 ^ 32 + bits i.w6.toNat 31 0) }

/-- REPLY by a core: the result word (R212, R258, R265). -/
def sendReply (h : Hw) (c : Core) (d : Desc) : Nat × Hw :=
  match (h.core c.val).item with
  | none => (qsNoitem, h)
  | some i =>
    match i.reply with
    | .absent => (qsNoreply, h)
    | .refused => (qsNoreply, h.cnt K.SCHED_MISS_LOST)
    | .lost _ => (qsNoqueue, h.cnt K.SCHED_MISS_LOST)
    | .credit r =>
      let h := judgeDeadline h c.val
      let h := placeRecord (addRes h r false) r (stampRecord i d)
      (qsOk, dispatch (setReply h c.val (.used r)))
    | .used r =>
      if !qEn h r then (qsNoqueue, h)
      else if qCred h r = 0 then (qsFull, h)
      else (qsOk, dispatch (placeRecord h r (stampRecord i d)))

/-! ### Delivery to fabric ports (R242, Qq.DEST) -/

/-- The entries of a queue that are on their way to a port. -/
def inDelivery (h : Hw) (q age : Nat) : Bool := h.sched.delivering.contains (q, age)

/-- A deliver queue of a fabric port sends its oldest entry that is not on its way; entries of a port that is OFFLINE are
discarded (R266). -/
def portDelivery (h : Hw) (q : Nat) : Hw :=
  if !qEn h q || !qDeliver h q || qKind h q != 2 then h
  else
    let n := qIdx h q / 8 % 4
    let p := qIdx h q % 8
    if h.bit (K.FPORT_STAT_OFFLINE n p) then dispatch (discardAll h q)
    else if !h.bit (K.FPORT_CTL_EN n p) || h.bit (K.FPORT_STAT_STALLED n p) then h
    else match (h.queue q).entries.find? fun e => !inDelivery h q e.age with
      | some e => { h with sched := { h.sched with delivering := h.sched.delivering ++ [(q, e.age)] } }
      | none => h

/-- The port reports that it accepted the oldest delivery on its way, and the slot frees. -/
def portAccepts (h : Hw) (q : Nat) : Hw :=
  match h.sched.delivering.find? fun e => e.1 == q with
  | none => h
  | some x =>
    let h := { h with sched := { h.sched with delivering := h.sched.delivering.erase x } }
    match (h.queue q).entries.find? fun e => e.age == x.2 with
    | some e => dispatch (leave h q e)
    | none => h

/-- Deliveries on their way to a port that entered STALLED are dropped by it and sent again later. -/
def recallDeliveries (h : Hw) (n p : Nat) : Hw :=
  { h with sched := { h.sched with delivering := h.sched.delivering.filter fun e => !(qKind h e.1 == 2 && qIdx h e.1 == 8 * n + p) } }

end Sys2Proof.Machine
end

