-- ==== Sys2Proof/Machine/Loading.lean ====
section
/-!
DEFINITION. The end of a load and its VERIFY stage (R277, R279, R283, R286), as the loader and the events it waits for share
them.
-/
namespace Sys2Proof.Machine

/-- The completion record of a load goes to the queue its entry named (R277). Its other words are open. -/
def loadReply (h : Hw) (l : Load) : Hw :=
  match l.reply with
  | none => h
  | some q =>
    if !qEn h q || qCred h q = 0 then h
    else
      let (v, h) := h.draw
      let w (i : Nat) : Nat := v / 2 ^ (64 * i) % 2 ^ 64
      let value := regVal h K.CFG_LOADERR_CODE.addr / 2 ^ 32
      dispatch (placeRecord h q (mkDesc (value * 2 ^ 32 + 1) (w 0) (w 1) (w 2) (w 3) (w 4) (w 5) (w 6)))

/-- The load port a source reads, if it is one: true for the parallel port. -/
def srcPort : LoadSrc → Option Bool
  | .plp => some true
  | .slp => some false
  | _ => none

/-- Change a load port. -/
def onPort (h : Hw) (par : Bool) (f : LoadPort → LoadPort) : Hw :=
  { h with ldr := if par then { h.ldr with plp := f h.ldr.plp } else { h.ldr with slp := f h.ldr.slp } }
/-- A load port. -/
def port (h : Hw) (par : Bool) : LoadPort := if par then h.ldr.plp else h.ldr.slp

/-- The loader lets go of its source: the port it read becomes idle, reads through the PF are forgotten. -/
def dropSource (h : Hw) (l : Load) : Hw :=
  let h := match srcPort l.src with
    | some p => if (port h p).taken then onPort h p fun _ => {} else h
    | none => h
  { h with ldr := { h.ldr with boot := [] }, pcie := { h.pcie with reqs := h.pcie.reqs.filter fun r => r.q.isSome } }

/-- Write LOADERR (R283). -/
def putLoadErr (h : Hw) (code primary detail seg faddr : Nat) : Hw :=
  ((((h.wr K.CFG_LOADERR_CODE code).wr K.CFG_LOADERR_PRIMARY primary).wr K.CFG_LOADERR_DETAIL detail).wr K.CFG_LOADERR_SEG seg).wr
    K.CFG_LOADERR_FADDR faddr

/-- For a load the queues Q252 + n, through which the loader dispatches the frames of Fn to core 60 + n, are enabled (R278); their
rings are the loader's own. -/
def openWriters (h : Hw) : Hw :=
  (List.range 4).foldl (fun h n =>
    if qEn h (252 + n) then h
    else (((h.setQueue (252 + n) {}).wr (K.SCHED_Q_CFG_AUTO (252 + n)) 1).wr (K.SCHED_Q_AFF_MASK (252 + n)) (2 ^ (59 + n))).wr
      (K.SCHED_Q_CFG_EN (252 + n)) 1) h
/-- At the end of a load they are disabled (R278). -/
def closeWriters (h : Hw) : Hw := (List.range 4).foldl (fun h n => disableQueue h (252 + n)) h

/-- A load ends: its queues are disabled, LOADERR is written, the stage becomes IDLE and the requester is told. -/
def endLoad (h : Hw) (l : Load) (code detail seg faddr : Nat) : Hw :=
  let h := putLoadErr (dropSource (closeWriters h) l) code (l.primary.getD 0) detail seg faddr
  loadReply ({ h with ldr := { h.ldr with load := none } }.wr K.CFG_LOAD_STAGE stIdle) l

/-- The intended digests of a load that has ended well (R322); hub and device digests of 0 in a PARTIAL image keep the
value in force. -/
def setIntended (h : Hw) (g : Legend) : Hw :=
  let full := g.kind != 2
  let h := (List.range 4).foldl (fun h n =>
    if full || g.dieMask.testBit n then h.onDie n fun x => { x with intended := some (g.assayD.getD n 0) } else h) h
  let h := if full || g.assayDev != 0 then { h with assay := { h.assay with intDev := some g.assayDev } } else h
  let h := if full || g.assayHub != 0 then { h with assay := { h.assay with intHub := some g.assayHub } } else h
  { h with assay := { h.assay with hubDue := true } }

/-- Dies of the load that are not yet released. -/
def toRelease (h : Hw) (g : Legend) : List Nat := (bitList 4 g.dieMask).filter fun n => !released h n

/-- The load has released its dies and ends with OK. Where it stopped is open. -/
def loadDone (h : Hw) (l : Load) (g : Legend) : Hw :=
  let h := if g.kind = 2 then h else h.wr K.CFG_IMAGE_IMAGEID g.imageId
  let (v, h) := h.draw
  endLoad (setIntended h g) l 0 0 v (v / 2 ^ 10)

/-- The fabric PLL that feeds network m of die n, if one does. -/
def feedingPll (h : Hw) (n m : Nat) : Option Nat :=
  let code := netSrc h n m (wantedInput h n m)
  if 1 ≤ code ∧ code ≤ 0x40 then some ((code - 1) / 4) else none

/-- Every PLL that feeds a RUNNETS network of the load is locked (R282 order 16). -/
def locksOk (h : Hw) (g : Legend) : Bool :=
  (bitList 4 g.dieMask).all fun n => (bitList 64 (g.runnets.getD n 0)).all fun m =>
    match feedingPll h n m with
    | some i => h.pll n i == .locked
    | none => true

/-- In VERIFY: the load goes on to RELEASE once the PLLs are locked and, with VERIFYASSAY, every die of the load has a ready
digest that equals its intended one; a ready digest that differs ends the load (R279, R282). -/
def tryVerify (h : Hw) : Hw :=
  match h.ldr.load with
  | some l => match l.legend with
    | some g =>
      let dies := if g.verify then bitList 4 g.dieMask else []
      let ready (n : Nat) : Bool := h.bit (K.ASSAY_STAT_READY n)
      let same (n : Nat) : Bool := getDigest h (K.ASSAY_DIG_DIG n) == g.assayD.getD n 0
      if loadStage h ≠ stVerify then h
      else if dies.any fun n => ready n && !same n then loadFails h 0x12 0 (h.rd K.CFG_LOAD_SEG) 0
      else if locksOk h g && dies.all ready then
        let h := h.wr K.CFG_LOAD_STAGE stRelease
        if (toRelease h g).isEmpty then loadDone h l g else h
      else h
    | none => h
  | none => h

end Sys2Proof.Machine
end

