-- ==== Sys2Proof/Machine/ClockCmds.lean ====
section
/-!
DEFINITION. The commands of the fabric PLLs, the user clock networks and the stake counters (R100 to R109).
-/
namespace Sys2Proof.Machine

/-- Whether a die's registers run: it is not in die reset. -/
def dieUp (h : Hw) (n : Nat) : Bool := !h.bit (K.RST_DIE_INRESET n)

/-- TOOFAST of every packed domain (R125). -/
def refreshAllTooFast (h : Hw) : Hw := (List.range 64).foldl refreshTooFast h

/-- The link manager is told of a change of clocks (R101, R125). -/
def clocksChanged (h : Hw) (n : Nat) : Hw := refreshAllTooFast (checkBindings (refreshGlock h n))

/-- CSR address of PLLi.STAT and of NETm.SRC. -/
def pllStatAddr (n i : Nat) : Nat := (K.CLK_PLL_STAT_LOCK n i).addr

/-- A PLL locks: LOCK and the GLOCK bits R102 gives (R100, R101). -/
def pllLocks (h : Hw) (n i : Nat) : Hw :=
  if dieUp h n && (h.pll n i == .acquiring || h.pll n i == .freeRunning) && pllHasRef h n i then
    tryVerify (clocksChanged (((runDesign h).setPll n i .locked).wr (K.CLK_PLL_STAT_LOCK n i) 1) n)
  else h

/-- FPLL_LOCK. -/
def execFpllLock (d : Die) (i : Fin 16) (s : State) : Host.Outcome State Fault Refusal :=
  doHw s fun h => pllLocks h d.val i.val

/-- FPLL_LOCK_TIMEOUT: LOLS is set and the event logged; the outputs stay low until the PLL locks (R101). -/
def execFpllLockTimeout (d : Die) (i : Fin 16) (s : State) : Host.Outcome State Fault Refusal :=
  doHw s fun h =>
    if dieUp h d.val && h.pll d.val i.val == .acquiring then
      logEvent (h.wr (K.CLK_PLL_STAT_LOLS d.val i.val) 1) (srcDie d.val) 0 (pllStatAddr d.val i.val)
    else h

/-- FPLL_LOCK_LOSS: the outputs follow the free-running VCO (R101). -/
def execFpllLockLoss (d : Die) (i : Fin 16) (s : State) : Host.Outcome State Fault Refusal :=
  doHw s fun h =>
    if dieUp h d.val && h.pll d.val i.val == .locked then
      let h := ((runDesign h).setPll d.val i.val .freeRunning).wr (K.CLK_PLL_STAT_LOLS d.val i.val) 1
      let h := refreshGlock (h.wr (K.CLK_PLL_STAT_LOCK d.val i.val) 0) d.val
      clocksChanged (logEvent h (srcDie d.val) 0 (pllStatAddr d.val i.val)) d.val
    else h

/-! ### Switches (R105) -/

/-- A write of SEL by a master (R105). -/
def writeSel (h : Hw) (n m : Nat) (v : Bool) : Hw := trySwitch (h.wrB (K.CLK_NET_SRC_SEL n m) v) n m

/-- CLOCK_SWITCH_START. -/
def execClockSwitchStart (d : Die) (m : Net) (cause : SwitchCause) (s : State) : Host.Outcome State Fault Refusal :=
  doHw s fun h => match cause with
    | .selWrite who v => gated h who (K.CLK_NET_SRC_SEL d.val m.val).addr fun h => writeSel h d.val m.val v
    | .fabricSelect v =>
      if dieUp h d.val then setFsel h d.val m.val (presentable h d.val (.fsel m.val) v) else h

/-- The switch parks its output low (R105 step 1). -/
def parkSwitch (h : Hw) (n m : Nat) : Hw :=
  let h := runDesign h
  let h := if (h.net n m).high then edgeStep h { rise := 0, fall := 2 ^ (64 * n + m) } else h
  h.onNet n m fun x => { x with sw := .parked }

/-- CLOCK_SWITCH_PARK. -/
def execClockSwitchPark (d : Die) (m : Net) (s : State) : Host.Outcome State Fault Refusal :=
  doHw s fun h =>
    if (h.net d.val m.val).sw == .waitOld && sourceLive h d.val (h.net d.val m.val).cur then parkSwitch h d.val m.val else h

/-- CLOCK_SWITCH_DEADSRC_TIMEOUT. -/
def execClockSwitchDeadsrcTimeout (d : Die) (m : Net) (s : State) : Host.Outcome State Fault Refusal :=
  doHw s fun h =>
    if (h.net d.val m.val).sw == .waitOld then (parkSwitch h d.val m.val).wr (K.CLK_NET_STAT_DEADSRC d.val m.val) 1 else h

/-- The switch passes its new source, and a select change made meanwhile takes effect (R105 step 2). -/
def finishSwitch (h : Hw) (n m : Nat) : Hw :=
  let h := runDesign h
  let t := (h.net n m).target
  let h := h.onNet n m fun x => { x with sw := .idle, cur := netSrc h n m t }
  let h := ((h.wr (K.CLK_NET_STAT_ACTIVE n m) t).wr (K.CLK_NET_STAT_SWITCHING n m) 0).wr (K.CLK_NET_STAT_NOSRC n m) 0
  clocksChanged (trySwitch h n m) n

/-- CLOCK_SWITCH_COMPLETE. -/
def execClockSwitchComplete (d : Die) (m : Net) (s : State) : Host.Outcome State Fault Refusal :=
  doHw s fun h =>
    let x := h.net d.val m.val
    if x.sw == .parked && sourceLive h d.val (netSrc h d.val m.val x.target) then finishSwitch h d.val m.val else h

/-- CLOCK_SWITCH_NOSRC_TIMEOUT. -/
def execClockSwitchNosrcTimeout (d : Die) (m : Net) (s : State) : Host.Outcome State Fault Refusal :=
  doHw s fun h =>
    if (h.net d.val m.val).sw == .parked then h.wr (K.CLK_NET_STAT_NOSRC d.val m.val) 1 else h

/-! ### Gates and stake counters (R106 to R109) -/

/-- HUB_GATE_CLOSE: a commanded gate has closed. -/
def execHubGateClose (d : Die) (m : Net) (s : State) : Host.Outcome State Fault Refusal :=
  doHw s fun h => if (h.net d.val m.val).closing then wakeWaitAll (gateClosed h d.val m.val) else h

/-- FABRIC_ENABLE_CHANGE. -/
def execFabricEnableChange (d : Die) (m : Net) (v : Bool) (s : State) : Host.Outcome State Fault Refusal :=
  doHw s fun h =>
    if dieUp h d.val then setFen h d.val m.val (presentable h d.val (.fen m.val) v) else h

/-- STAKE_LATCH: a write of STAKELATCH.GO. -/
def execStakeLatch (who : Master) (d : Die) (s : State) : Host.Outcome State Fault Refusal :=
  doHw s fun h => gated h who (K.CLK_STAKELATCH_HELD d.val).addr fun h => latchStakes h d.val

/-- STAKE_LATCH_RELEASE: a write of 1 to HELD. -/
def execStakeLatchRelease (who : Master) (d : Die) (s : State) : Host.Outcome State Fault Refusal :=
  doHw s fun h => gated h who (K.CLK_STAKELATCH_HELD d.val).addr fun h => h.wr (K.CLK_STAKELATCH_HELD d.val) 0

end Sys2Proof.Machine
end

