-- ==== Sys2Proof/Machine/Request.lean ====
section
/-!
DEFINITION. Requests of the reset controller (R432, R434): every source sets its CAUSE bit and asks for its reach; the
commands WARM_RESET and COLD_RESET carry the request out.
-/
namespace Sys2Proof.Machine

/-- A reset sequence is in progress. -/
def resetting (h : Hw) : Bool := h.rst.phase != .running

/-- Ask for a cold or a warm reset. A reset that is no wider than the one in progress is absorbed and records its bit
(R434). -/
def requestReset (h : Hw) (cold : Bool) (cause : Key) : Hw :=
  let h := h.wr cause 1
  if resetting h && (h.rst.warm == false || !cold) then h
  else { h with rst := { h.rst with request := some (cold || h.rst.request == some true) } }

/-- The foreman runs: the sequence of R441 or R437 has come to its end. -/
def hubRuns (h : Hw) : Bool := h.rst.phase == .running

/-- A die reset of Fn has been asked for or is in progress. -/
def dieResetting (h : Hw) (n : Nat) : Bool := h.bit (K.RST_DIE_INRESET n) || h.rst.dieReq / 8 ^ n % 8 != 0

/-- Ask for a die reset of Fn with a SRC code; DIE_RESET carries it out. During a wider reset it is absorbed (R434). -/
def requestDie (h : Hw) (n src : Nat) : Hw :=
  if resetting h then h else { h with rst := { h.rst with dieReq := setBits h.rst.dieReq (3 * n) 3 src } }

end Sys2Proof.Machine
end

