-- ==== Sys2Proof/Machine/Pcie.lean ====
section
/-!
DEFINITION. The PCI Express controller: host accesses and their translation (R331 to R335), host rings (R336, R337), MSI-X
(R338, R339), function resets (R330) and link events (R341 to R345).
-/
namespace Sys2Proof.Machine

/-- A function beyond its registers. -/
def func (h : Hw) (f : Nat) : FuncSt := SMap.get h.pcie.funcs f {}
/-- Change a function. -/
def onFunc (h : Hw) (f : Nat) (g : FuncSt → FuncSt) : Hw :=
  { h with pcie := { h.pcie with funcs := SMap.set h.pcie.funcs f (g (func h f)) {} } }
/-- Function f is enabled: the PF, or a VF up to NUMVF. -/
def funcOn (h : Hw) (f : Nat) : Bool := f == 0 || decide (f ≤ h.rd K.PCIE_STAT_NUMVF)
/-- Link in L0. -/
def linkUp (h : Hw) : Bool := h.bit K.PCIE_STAT_UP

/-! ### What the controller sends -/

/-- Send a message or a posted write, or let it wait while the link is out of L0 (R345). -/
def sendHost (h : Hw) (x : HostMsg) : Hw :=
  if !linkUp h then { h with pcie := { h.pcie with waiting := h.pcie.waiting ++ [x] } }
  else match x with
    | .msix f v => { h with pcie := { h.pcie with lastMsix := some (f, v) } }
    | .write _ a n d be => { h with pcie := { h.pcie with lastWrite := some (a, n, d, be) } }

/-- The link is in L0 again: what waited is sent in order. -/
def sendWaiting (h : Hw) : Hw :=
  let l := h.pcie.waiting
  l.foldl sendHost { h with pcie := { h.pcie with waiting := [] } }

/-- The PCI Express completion that presents a status of R25, and its poisoned bit. -/
def completionOf : Status → Completion × Bool
  | .ok => (.sc, false)
  | .poison => (.sc, true)
  | .decerr | .denied => (.ur, false)
  | .tgterr | .offline | .stalled => (.ca, false)

/-- Return a completion with a tag to the host; only a successful one carries data. -/
def complete (h : Hw) (tag : Nat) (st : Status) (data : Nat) : Hw :=
  let c := completionOf st
  { h with pcie := { h.pcie with lastCpl := [(tag, c.1, c.2, if c.1 = .sc then data else 0)] } }

/-- The responses to the pieces of a host read that have arrived without a gap, and the pieces still to come. -/
def readyPieces (l : List GResp) : List Nat → List GResp × List Nat
  | [] => ([], [])
  | id :: rest => match l.find? fun r => r.id == id with
    | some r => let (out, left) := readyPieces l rest; (r :: out, left)
    | none => ([], id :: rest)

/-- A response to a piece of a host read: completions return in address order (R328). -/
def returnPiece (h : Hw) (r : GResp) : Hw :=
  match h.pcie.reads.find? fun ids => ids.contains r.id with
  | none => complete h r.tag r.status r.data
  | some ids =>
    let (out, left) := readyPieces (h.gal.arrived ++ [r]) ids
    let gone := out.map (·.id)
    let h := { h with
      gal := { h.gal with arrived := (h.gal.arrived ++ [r]).filter fun x => !gone.contains x.id }
      pcie := { h.pcie with reads := (h.pcie.reads.filter (· != ids)) ++ (if left.isEmpty then [] else [left]) } }
    if out.isEmpty then h
    else { h with pcie := { h.pcie with lastCpl := out.flatMap fun x => (complete h x.tag x.status x.data).pcie.lastCpl } }

/-! ### MSI-X (R338, R339) -/

/-- Vectors of a function: COUNT, or 0 after a range conflict. -/
def msixCount (h : Hw) (f : Nat) : Nat := if (func h f).conflict then 0 else h.rd (K.PCIE_FUNC_MSIX_COUNT f)
/-- A table entry: bit 96 is the mask bit, set in an entry nobody has written. -/
def msixEntry (h : Hw) (f v : Nat) : Nat := SMap.get (func h f).table v (2 ^ 96)
/-- Whether a vector may be sent. -/
def vectorOpen (h : Hw) (f v : Nat) : Bool :=
  (func h f).msixEn && !(func h f).msixMask && !(msixEntry h f v).testBit 96

/-- Send the pending messages of a function whose vectors are open. -/
def sendPending (h : Hw) (f : Nat) : Hw :=
  let ready := (func h f).pend.filter fun v => vectorOpen h f v && decide (v < msixCount h f)
  ready.foldl (fun h v => sendHost (onFunc h f fun x => { x with pend := x.pend.filter (· != v) }) (.msix f v)) h

/-- Raise a vector: 0 sent, 1 MASKED with the pending bit set, 2 NOFUNC. -/
def raiseMsix (h : Hw) (f v : Nat) : Nat × Hw :=
  if !funcOn h f || decide (msixCount h f ≤ v) then (2, h)
  else if vectorOpen h f v then (0, sendHost h (.msix f v))
  else (1, onFunc h f fun x => { x with pend := if x.pend.contains v then x.pend else x.pend ++ [v] })

/-- Write bytes of the MSI-X table: entries of 16 bytes. -/
def writeTable (h : Hw) (f off size data : Nat) : Hw :=
  let v := off / 16
  let old := msixEntry h f v
  let lo := off % 16 * 8
  let new := setBits old lo (8 * size) data % 2 ^ 128
  sendPending (onFunc h f fun x => { x with table := SMap.set x.table v new (2 ^ 96) }) f

/-- Unmask a vector. -/
def unmask (h : Hw) (f v : Nat) : Hw := writeTable h f (16 * v + 12) 1 0

/-- Whether the ranges of two functions with MSI-X enabled meet. -/
def rangesMeet (h : Hw) (f g : Nat) : Bool :=
  let lo (x : Nat) : Nat := h.rd (K.PCIE_FUNC_MSIX_BASE x)
  let hi (x : Nat) : Nat := lo x + msixCount h x
  decide (lo f < hi g ∧ lo g < hi f)

/-- CSR address of FUNCf.MSIX. -/
def msixAddr (f : Nat) : Nat := (K.PCIE_FUNC_MSIX_BASE f).addr

/-- The host sets or clears MSI-X Enable of a function: at a set the range is checked (R338). -/
def enableMsix (h : Hw) (f : Nat) (on : Bool) : Hw :=
  if !funcOn h f then h
  else if !on then onFunc h f fun x => { x with msixEn := false }
  else
    let clash := decide (2048 < h.rd (K.PCIE_FUNC_MSIX_BASE f) + msixCount h f) ||
      (List.range 64).any fun g => g != f && (func h g).msixEn && rangesMeet h f g
    let h := onFunc h f fun x => { x with msixEn := true, conflict := x.conflict || clash }
    let h := if clash then logErr h srcPcie (some (.host (Fin.ofNat 64 f))) .ignored 0 (msixAddr f) (regVal h (msixAddr f)) else h
    sendPending h f

/-- A write to FUNCf.MSIX (R338). -/
def writeFuncMsix (h : Hw) (m : Master) (f data mask : Nat) : Hw :=
  let a := msixAddr f
  if (func h f).msixEn || (f != 0 && h.rd K.PCIE_STAT_NUMVF != 0) then logIgnored h m a data
  else
    let h := onFunc h f fun x => { x with conflict := false }
    let h := h.wr (K.PCIE_FUNC_MSIX_BASE f) (newVal h (K.PCIE_FUNC_MSIX_BASE f) data mask)
    let c := newVal h (K.PCIE_FUNC_MSIX_COUNT f) data mask
    if 2048 < c then
      logErr (h.wr (K.PCIE_FUNC_MSIX_COUNT f) (K.PCIE_FUNC_MSIX_COUNT f).rst) srcPcie (some m) .replaced 0 a data
    else h.wr (K.PCIE_FUNC_MSIX_COUNT f) c

/-! ### Host rings (R336, R337) -/

/-- Entries in the host ring of a queue. -/
def ringFill (h : Hw) (q : Nat) : Nat :=
  (h.rd (K.PCIE_HRING_TAIL q) + 65536 - h.rd (K.PCIE_HRING_HEAD q)) % 65536
/-- Whether the host ring has room. -/
def ringRoom (h : Hw) (q : Nat) : Bool := decide (ringFill h q < qDepth h q)
/-- CSR address of HRINGq. -/
def hringAddr (q : Nat) : Nat := (K.PCIE_HRING_VEC q).addr

/-- A delivery batch ends: the vector of the ring is raised when IEN = 1. -/
def endBatch (h : Hw) (q : Nat) : Hw :=
  let h := { h with pcie := { h.pcie with batch := SMap.erase h.pcie.batch q } }
  if h.bit (K.PCIE_HRING_IEN q) then
    let (st, h) := raiseMsix h (qIdx h q) (h.rd (K.PCIE_HRING_VEC q))
    if st = 2 then logOp h srcPcie none 2 (hringAddr q) else h
  else h

/-- The oldest entry of a host-owned deliver queue is written to the host ring. -/
def ringDelivery (h : Hw) (q : Nat) : Hw :=
  if !qEn h q || !qDeliver h q || qKind h q != 1 || !ringRoom h q || !(func h (qIdx h q)).busMaster || !linkUp h then h
  else match oldest h q with
    | none => h
    | some e =>
      let tail := h.rd (K.PCIE_HRING_TAIL q)
      let a := h.rd (K.SCHED_Q_DEST_DEST q) / 64 * 64 + tail % qDepth h q * 64
      let h := sendHost h (.write (qIdx h q) a 64 (descNat (slotDesc h q e.slot)) (allOn 64))
      let h := leave (h.wr (K.PCIE_HRING_TAIL q) (tail + 1)) q e
      let n := SMap.get h.pcie.batch q 0 + 1
      let h := { h with pcie := { h.pcie with batch := SMap.set h.pcie.batch q n 0 } }
      let h := if (oldest h q).isNone || !ringRoom h q || decide (16 ≤ n) then endBatch h q else h
      dispatch h

/-- A write to HRINGq: HEAD may not pass TAIL by more than DEPTH (R337); registers of queues below 256 ignore writes. -/
def writeHring (h : Hw) (m : Master) (q data mask : Nat) : Hw :=
  if q < 256 then h
  else
    let h := h.wr (K.PCIE_HRING_IEN q) (newVal h (K.PCIE_HRING_IEN q) data mask)
    let h := h.wr (K.PCIE_HRING_VEC q) (newVal h (K.PCIE_HRING_VEC q) data mask)
    let head := newVal h (K.PCIE_HRING_HEAD q) data mask
    if (h.rd (K.PCIE_HRING_TAIL q) + 65536 - head) % 65536 > qDepth h q then logIgnored h m (hringAddr q) data
    else h.wr (K.PCIE_HRING_HEAD q) head

/-! ### Function and controller resets (R330, R344) -/

/-- The effects of a Function Level Reset on one function. -/
def resetFunc (h : Hw) (f : Nat) : Hw :=
  let h := onFunc h f fun x => { conflict := x.conflict }
  let h := if f = 0 then { h with pcie := { h.pcie with barLog := 36 } } else h
  let qs := (enabledQueues h).filter fun q => qKind h q == 1 && qIdx h q == f
  let owned := h.csr.filterMap fun e =>
    let q := (e.1 / 64 - 0x1500000) / 8
    if 0x1500000 ≤ e.1 / 64 ∧ e.1 / 64 < 0x1520000 ∧ qKind h q = 1 ∧ qIdx h q = f then some q else none
  let h := qs.foldl disableQueue h
  let h := owned.foldl (fun h q => (((h.wr (K.PCIE_HRING_HEAD q) 0).wr (K.PCIE_HRING_TAIL q) 0).wr
    (K.PCIE_HRING_IEN q) 0).wr (K.PCIE_HRING_VEC q) 0) h
  let gone := h.pcie.reqs.filter fun r => r.f == f && r.q.isSome
  let h := { h with pcie := { h.pcie with reqs := h.pcie.reqs.filter fun r => !(r.f == f && r.q.isSome) } }
  let h := gone.foldl (fun h r => match r.q with | some g => answer h g .tgterr 0 | none => h) h
  let ofF (x : HostMsg) : Bool := match x with | .msix g _ => g == f | .write g _ _ _ _ => g == f
  let isWrite (x : HostMsg) : Bool := match x with | .msix _ _ => false | .write _ _ _ _ _ => true
  let n := (h.pcie.waiting.filter fun x => ofF x && isWrite x).length
  { h with pcie := { h.pcie with waiting := h.pcie.waiting.filter fun x => !ofF x } }.addSat K.PCIE_ERRCNT_DROPPED n

/-- A Function Level Reset; one of the PF ends VF Enable and reaches every VF. -/
def flr (h : Hw) (f : Nat) : Hw :=
  if f != 0 then (if funcOn h f then resetFunc h f else h)
  else
    let h := (List.range 64).foldl resetFunc h
    h.wr K.PCIE_STAT_NUMVF 0

/-- The link leaves L0. -/
def linkFalls (h : Hw) : Hw :=
  (((h.wr K.PCIE_STAT_UP 0).wr K.PCIE_STAT_GEN 0).wr K.PCIE_STAT_WIDTH 0).wr K.PCIE_STAT_FLIT 0

/-- A hot reset, or the link going down without PERST_N (R344). -/
def hotReset (h : Hw) : Hw :=
  let h := linkFalls h
  if h.bit K.PCIE_CTL_HOTREACH then flr { h with pcie := { h.pcie with ready := false } } 0
  else requestReset h false K.RST_CAUSE_HOT

/-- Lane count of a MAXWIDTH code. -/
def widthOf (code : Nat) : Nat := match code with | 0 => 1 | 1 => 4 | 2 => 8 | _ => 16

/-- The link reaches L0 within the limits of R327, and configuration requests are answered from then on (R341). -/
def linkRises (h : Hw) (gen width : Nat) (flit : Bool) : Hw :=
  if linkUp h || h.rst.perstLow || h.rst.pinLow || gen = 0 || decide (h.rd K.PCIE_CTL_MAXGEN < gen) ||
    !([1, 4, 8, 16].contains width) || decide (widthOf (h.rd K.PCIE_CTL_MAXWIDTH) < width) ||
    (gen == 6 && !flit) || !h.rst.sensed then h
  else
    let h := (((h.wr K.PCIE_STAT_UP 1).wr K.PCIE_STAT_GEN gen).wr K.PCIE_STAT_WIDTH width).wrB K.PCIE_STAT_FLIT flit
    sendWaiting { h with pcie := { h.pcie with ready := true } }

/-- VF Enable with a number of VFs; VFs no longer enabled lose their function state. -/
def setVfs (h : Hw) (n : Nat) : Hw :=
  let gone := (List.range 64).filter fun f => decide (n < f ∧ f ≤ h.rd K.PCIE_STAT_NUMVF)
  (gone.foldl (fun h f => onFunc h f fun x => { conflict := x.conflict }) h).wr K.PCIE_STAT_NUMVF n

/-! ### Host accesses (R331 to R335) -/

/-- Where a BAR access goes. -/
inductive HostTarget where
  /-- A hub address. -/
  | hub (a : Nat)
  /-- A completion status without a target, and the status logged, if one is. -/
  | fail (st : Status) (logged : Option Status)
  /-- Reads 0, drops writes and logs them as unimplemented. -/
  | hole
  /-- Reads 0 and drops writes. -/
  | zero
  /-- A queue page access of a function that does not own the queue. -/
  | notOwned
  | msixTable (off : Nat)
  | pba (off : Nat)
  | window (off : Nat)
  deriving DecidableEq, Repr

/-- A hub address reached through an aperture or a VF window: never CSR space or hub SRAM. -/
def viaAperture (a : Nat) (logged : Option Status) : HostTarget :=
  match regionOf (a % 2 ^ 64) with
  | .csr | .hub => .fail .decerr logged
  | _ => .hub (a % 2 ^ 64)

/-- A function page (R333). -/
def pageTarget (h : Hw) (f off : Nat) (wr : Bool) : HostTarget :=
  let owned (q : Nat) : Bool := qKind h q == 1 && qIdx h q == f
  if off < 0x100000 then (if wr then .hub (doorbellAddr 0 + off) else .zero)
  else if off < 0x200000 then
    let q := (off - 0x100000) / 0x40
    match off / 8 % 8 with
    | 0 => if owned q || (f == 0 && q == 0 && !wr) then .hub (qPtrAddr q + off % 8) else .notOwned
    | 1 => if owned q then .hub (hringAddr q + off % 8) else .notOwned
    | _ => if wr then .hole else .zero
  else if off < 0x300000 then
    (if off - 0x200000 < 16 * msixCount h f then .msixTable (off - 0x200000) else .hole)
  else if off - 0x300000 < (msixCount h f + 63) / 64 * 8 then .pba (off - 0x300000)
  else .hole

/-- Where an access to a BAR goes. -/
def hostTarget (h : Hw) (f bar off : Nat) (wr : Bool) : HostTarget :=
  match f, bar with
  | 0, 0 =>
    if off < 0x2000000 then .hub off
    else if off < 0x3000000 then .hub (dieBase (h.rd K.PCIE_DIESEL_DIE) + (off - 0x2000000))
    else if off < 0x3400000 then pageTarget h 0 (off - 0x3000000) wr
    else if off < 0x3C00000 then .hole
    else if off < 0x4000000 then .window (off - 0x3C00000)
    else .fail .decerr none
  | 0, 2 => if off < hubSize then .hub (hubBase + off) else .fail .decerr none
  | 0, 4 =>
    let s := 2 ^ (h.pcie.barLog - 3)
    let a := off / s
    if 8 ≤ a then .fail .decerr none
    else if !h.bit (K.PCIE_AP_EN a) then .fail .decerr none
    else viaAperture (h.rd (K.PCIE_AP_BASE a) * 2 ^ 27 / s * s + off % s) (some .denied)
  | f, 0 => if f ≠ 0 ∧ off < 0x400000 then pageTarget h f off wr else .fail .decerr none
  | f, 2 =>
    if off < 0x10000000 ∧ h.bit (K.PCIE_FUNC_VWIN_EN f) then viaAperture (h.rd (K.PCIE_FUNC_VWIN_BASE f) * 2 ^ 28 + off) none
    else .fail .decerr none
  | _, _ => .fail .decerr none

/-- The pieces of [a, a + n) of at most 256 bytes that no 256-byte boundary splits. -/
def pieces : Nat → Nat → Nat → List (Nat × Nat)
  | 0, _, _ => []
  | k + 1, a, n => if n = 0 then [] else
      let m := min n (256 - a % 256)
      (a, m) :: pieces k (a + m) (n - m)

/-- Put a host access on the Gallery in packets of at most 256 bytes in address order (R328). -/
def hostIssue (h : Hw) (f : Func) (kind : GKind) (a size data tag : Nat) : Hw :=
  let first := h.gal.nextId
  let h := (pieces (size / 256 + 2) a size).foldl (fun h x =>
    (issue h (.host f) kind x.1 x.2 (data / 256 ^ (x.1 - a) % 256 ^ x.2) (allOn x.2) tag).2) h
  if kind = .read then
    { h with pcie := { h.pcie with reads := h.pcie.reads ++ [(List.range (h.gal.nextId - first)).map (first + ·)] } }
  else h

/-- CSR-style place named when an access to a BAR is logged: its BAR offset. -/
def logBar (h : Hw) (f : Func) (st : Status) (off : Nat) : Hw := logAccess h srcPcie (.host f) st off

/-- Whether a memory request of the host reaches a function at all. -/
def hostReaches (h : Hw) (f : Func) : Bool := linkUp h && h.pcie.ready && funcOn h f.val && (func h f.val).memSpace

/-- A host write TLP, but for the debug window (R332, R343). -/
def hostWrite (h : Hw) (f : Func) (bar off size data : Nat) : Hw :=
  match hostTarget h f.val bar off true with
  | .hub a => hostIssue h f .pwrite a size data 0
  | .fail st logged => logBar h f (logged.getD st) off
  | .hole => logErr h srcPcie (some (.host f)) .wrunimp 0 off data
  | .zero => h
  | .notOwned => logBar h f .denied off
  | .msixTable o => writeTable h f.val o size data
  | .pba _ => h
  | .window _ => h

/-- A host read TLP, but for the debug window. -/
def hostRead (h : Hw) (f : Func) (bar off size tag : Nat) : Hw :=
  match hostTarget h f.val bar off false with
  | .hub a => hostIssue h f .read a size 0 tag
  | .fail st logged => match logged with
    | some l => complete (logBar h f l off) tag st 0
    | none => complete h tag st 0
  | .msixTable o => complete h tag .ok (msixEntry h f.val (o / 16) / 256 ^ (o % 16) % 256 ^ size)
  | .pba o => complete h tag .ok (maskOf (func h f.val).pend / 256 ^ o % 256 ^ size)
  | .window _ => h
  | .hole => complete (logErr h srcPcie (some (.host f)) .wrunimp 0 off 0) tag .ok 0
  | _ => complete h tag .ok 0

/-! ### Host-bound requests (R342) -/

/-- The controller holds all the host-bound non-posted requests it can (R328). -/
def hostFull (h : Hw) : Bool := decide (16384 ≤ h.pcie.reqs.length)

/-- A unit asks to read or write host memory through function f; the request answered is `q`, none for the loader. -/
def hostBound (h : Hw) (f : Nat) (q : Option GReq) : Nat × Hw :=
  let (id, h) := takeId h
  (id, { h with pcie := { h.pcie with reqs := h.pcie.reqs ++ [⟨id, f, q⟩] } })

/-- The outstanding host-bound request with a number, and the controller without it. -/
def takeHostReq (h : Hw) (id : Nat) : Option (HostReq × Hw) :=
  match h.pcie.reqs.find? fun r => r.id == id with
  | some r => some (r, { h with pcie := { h.pcie with reqs := h.pcie.reqs.filter fun x => x.id != id } })
  | none => none

end Sys2Proof.Machine
end

