-- ==== Sys2Proof/Machine/Fport.lean ====
section
/-!
DEFINITION. The fabric ports (R28 to R34, R252): outbound requests, posted writes and flushes of the design, and inbound
transactions.
-/
namespace Sys2Proof.Machine

/-- Port p of die n beyond its registers. -/
def fport (h : Hw) (n p : Nat) : FPort := SMap.get (h.die n).fports p {}
/-- Replace it, with INB and OUTB as they follow. -/
def setFport (h : Hw) (n p : Nat) (x : FPort) : Hw :=
  ((h.onDie n fun d => { d with fports := SMap.set d.fports p x {} }).wr (K.FPORT_STAT_INB n p) x.inTags.length).wr
    (K.FPORT_STAT_OUTB n p) x.outTags.length

/-- Sector of the site of port p (R38). -/
def portSector (p : Nat) : Nat := 12 * (14 + p / 4) + 8 + p % 4

/-- Whether the design stands behind port p: the die runs, and the port's sector is not fenced (R34, R38, R304). -/
def portDesign (h : Hw) (n p : Nat) : Bool :=
  designRuns h n (portSector p) && !h.bit (K.FPORT_STAT_OFFLINE n p) && h.bit (K.FPORT_CTL_EN n p)

/-- CSR address of STAT of a port. -/
def fportStat (n p : Nat) : Nat := (K.FPORT_STAT_OUTB n p).addr

/-! ### Outbound -/

/-- The rules of R28 for an outbound transaction. -/
def beatsOk (addr beats : Nat) : Bool := addr % 64 == 0 && decide (1 ≤ beats ∧ beats ≤ 4) && decide (addr % 256 + 64 * beats ≤ 256)

/-- Outbound ready: a tag is free, and the port holds no doorbell without credit and no refused one (R29, R252). -/
def portReady (h : Hw) (n p : Nat) : Bool :=
  decide ((fport h n p).outTags.length < 256) &&
  !(h.sched.refused.any fun r => fromPort r n p) &&
  !((fport h n p).waiting.any fun r => isDoorbell r.addr &&
      (let q := doorbellQueue r.addr
       owns h r.m q && creditCopy h n p q == 0))

/-- Take a free tag; which one is open. -/
def takeTag (h : Hw) (n p id : Nat) : Nat × Hw :=
  let x := fport h n p
  let (v, h) := h.draw
  let used := (List.range 256).filter fun t => x.outTags.any fun e => e.1 == t
  let t := nthFree used (v % (256 - used.length))
  (t, setFport h n p { x with outTags := x.outTags ++ [(t, id)] })

/-- Free a tag. -/
def freeTag (h : Hw) (n p tag : Nat) : Hw :=
  let x := fport h n p
  setFport h n p { x with outTags := x.outTags.filter fun e => e.1 != tag }

/-- A response made at the port itself, waiting for delivery to the design. -/
def portAnswer (h : Hw) (id : Nat) (m : Master) (kind : GKind) (st : Status) (addr tag : Nat) : Hw :=
  { h with gal := { h.gal with arrived := h.gal.arrived ++ [⟨id, m, kind, st, 0, addr, tag⟩] } }

/-- The kind of a Gallery request. -/
def portKind : PortOp → GKind
  | .read => .read | .write => .write | .pwrite => .pwrite

/-- The status of an outbound request before it is issued: space 1 (R28), and the port's reach (R24). -/
def portCheck (h : Hw) (d : Die) (p : Port) (op : PortOp) (hostSpace : Bool) (addr : Nat) : Status :=
  if hostSpace then (if h.bit (K.FPORT_CTL_HOSTSPACE d.val p.val) then .ok else .denied)
  else if mayReach h (.fport d p) (op != .read) addr then .ok else .denied

/-- The aligned half or whole register of a beat that byte enables name: offset and size, where they name one (R7). -/
def namedPart (be : Nat) : Option (Nat × Nat) :=
  ((List.range 8).map fun i => (8 * i, 8)).append ((List.range 16).map fun i => (4 * i, 4)) |>.find? fun x =>
    be == allOn x.2 * 2 ^ x.1

/-- What an outbound request asks of the Gallery: address, size, data and byte enables. A port moves whole beats; a write of
one beat to CSR space whose byte enables name one register, or an aligned half of one, is the access of that size. -/
def portAccess (op : PortOp) (hostSpace : Bool) (addr beats data be : Nat) : Nat × Nat × Nat × Nat :=
  let whole : Nat × Nat × Nat × Nat := (addr, 64 * beats, data % 2 ^ (512 * beats), be % 2 ^ (64 * beats))
  if !beatsOk addr beats ∨ op = .read ∨ hostSpace ∨ beats ≠ 1 ∨ regionOf addr ≠ .csr then whole
  else match namedPart (be % 2 ^ 64) with
    | some (o, n) => (addr + o, n, data / 256 ^ o % 256 ^ n, allOn n)
    | none => whole

/-- A request to host space waits at the design for the port's earlier posted write to a line in common (R32). -/
def hostLineHeld (h : Hw) (n p : Nat) (op : PortOp) (hostSpace : Bool) (addr size : Nat) : Bool :=
  hostSpace && op != .pwrite && (fport h n p).waiting.any fun r => decide (256 ≤ r.tag ∧
    r.addr / 64 ≤ (addr + size - 1) / 64 ∧ addr / 64 ≤ (r.addr + r.size - 1) / 64)

/-- The design issues an outbound request. A posted write that the port itself refuses takes no tag: R29 gives its tag's life
only up to its acceptance by the hub, which never comes (DESIGN CHOICE). -/
def portRequest (h : Hw) (d : Die) (p : Port) (op : PortOp) (hostSpace : Bool) (addr beats data be : Nat) : Hw :=
  let n := d.val
  let m : Master := .fport d p
  if !portDesign h n p.val || !portReady h n p.val || hostLineHeld h n p.val op hostSpace addr (64 * beats) ||
    (hostSpace && op == .read && hostFull h) then h
  else
    let kind := portKind op
    let fits := beatsOk addr beats
    let (addr, size, data, be) := portAccess op hostSpace addr beats data be
    match if fits then portCheck h d p op hostSpace addr else .tgterr with
    | .ok =>
      let (id, h) := takeId h
      let (tag, h) := takeTag h n p.val id
      let q : GReq := ⟨id, m, kind, addr, size, data, be, tag⟩
      if op = .pwrite then
        let x := fport h n p.val
        setFport h n p.val { x with waiting := x.waiting ++ [{ q with tag := tag + (if hostSpace then 256 else 0) }], posted := x.posted ++ [id] }
      else if hostSpace then
        if op = .read then (hostBound h (h.rd (K.FPORT_CTL_FUNC n p.val)) (some q)).2
        else answer (sendHost h (.write (h.rd (K.FPORT_CTL_FUNC n p.val)) addr size data be)) q .ok 0
      else { h with gal := { h.gal with reqs := h.gal.reqs ++ [q] } }
    | st =>
      let h := if st = .denied then logAccess h srcGallery m st addr else h
      if op = .pwrite then (if st = .denied then h else logAccess h (srcDie n) m st addr)
      else
        let (id, h) := takeId h
        let (tag, h) := takeTag h n p.val id
        portAnswer h id m kind st addr tag

/-- The hub accepts the oldest posted write of a port into the ordering buffer: its tag is free, and it is issued. One to host
space is performed at once, and so waits for every earlier one (R32). A doorbell of a queue the port owns goes only against a credit of the port's copy (R29, R252). -/
def acceptPosted (h : Hw) (n p tag : Nat) : Hw :=
  let x := fport h n p
  match x.waiting with
  | [] => h
  | r :: rest =>
    if r.tag % 256 != tag then h
    else
      let q := doorbellQueue r.addr
      let bell := isDoorbell r.addr && r.tag < 256 && owns h r.m q
      if bell && creditCopy h n p q == 0 then h
      else if decide (256 ≤ r.tag) && x.posted.any (· < r.id) then h
      else
        let h := freeTag (setFport h n p { x with waiting := rest }) n p tag
        let h := if bell then setCopy h n p q (creditCopy h n p q - 1) else h
        if 256 ≤ r.tag then donePosted (sendHost h (.write (h.rd (K.FPORT_CTL_FUNC n p)) r.addr r.size r.data r.be)) r
        else { h with gal := { h.gal with reqs := h.gal.reqs ++ [{ r with tag := tag }] } }

/-- A response that has reached the port is delivered to the design in any order, and its tag is free (R31). -/
def portDeliver (h : Hw) (n p tag : Nat) : Hw :=
  if !portDesign h n p then h
  else match (fport h n p).outTags.find? fun e => e.1 == tag with
    | none => h
    | some e => match takeArrived h e.2 with
      | none => h
      | some (r, h) =>
        let x := fport h n p
        freeTag (setFport h n p { x with lastOut := some (tag, r.status, r.data) }) n p tag

/-- A FLUSH takes a tag and waits for the posted writes issued so far (R32). -/
def portFlush (h : Hw) (n p : Nat) : Hw :=
  if !portDesign h n p || !portReady h n p then h
  else
    let (id, h) := takeId h
    let (tag, h) := takeTag h n p id
    let x := fport h n p
    setFport h n p { x with flushes := x.flushes ++ [(tag, x.posted)] }

/-- A FLUSH whose posted writes have all been performed completes. -/
def flushDone (h : Hw) (n p tag : Nat) : Hw :=
  let x := fport h n p
  match x.flushes.find? fun e => e.1 == tag with
  | some (_, []) =>
    freeTag (setFport h n p { x with flushes := x.flushes.filter fun e => e.1 != tag, lastOut := some (tag, .ok, 0) }) n p tag
  | _ => h

/-! ### Inbound -/

/-- The next inbound tag: ascending modulo 256, skipping those outstanding (R31). -/
def nextInTag (x : FPort) : Nat :=
  let cand := (List.range 256).map fun i => (x.nextIn + i) % 256
  (cand.find? fun t => !(x.inTags.any fun e => e.1 == t)).getD x.nextIn

/-- The status with which a port turns an inbound request away, if it does (R25, R33, R34). Where EN = 0 and STALLED = 1 hold
together the spec does not say which status answers: DECERR goes before STALLED, and OFFLINE before both (DESIGN CHOICE). -/
def portTurnsAway (h : Hw) (n p : Nat) : Option Status :=
  if h.bit (K.FPORT_STAT_OFFLINE n p) || !dieReachable h n then some .offline
  else if !h.bit (K.FPORT_CTL_EN n p) then some .decerr
  else if h.bit (K.FPORT_STAT_STALLED n p) then some .stalled
  else none

/-- End-to-end credits of a port that no transaction holds (R30). A request on the Gallery that addresses the port stands at its
source until one is free. -/
def portCredits (h : Hw) (n p : Nat) : Nat := 256 - (fport h n p).inTags.length

/-- The i-th Gallery request reaches the port it addresses: it takes a credit and the next tag (R30, R31) and waits for the
design, or is turned away. A posted write needs no response: the design takes it, and its credit and its tag are free at
once. -/
def portInbound (h : Hw) (i : Nat) : Hw :=
  match h.gal.reqs[i]? with
  | none => h
  | some q =>
    match regionOf q.addr with
    | .port n p =>
      if mustWait h i then h
      else if !mayReach h q.m (q.kind != .read) q.addr then
        refuse (dropReq h i) q .denied
      else match portTurnsAway h n p with
        | some st =>
          let h := dropReq h i
          let h := if q.kind = .pwrite ∧ (st = .stalled ∨ st = .offline) then h.cnt (K.FPORT_DROP_COUNT n p) else h
          answer h q st 0
        | none =>
          if !designRuns h n (portSector p) then h
          else if portCredits h n p = 0 then h
          else
            let x := fport h n p
            let t := nextInTag x
            if q.kind = .pwrite then donePosted (setFport (dropReq h i) n p { x with nextIn := (t + 1) % 256 }) q
            else setFport (dropReq h i) n p { x with inTags := x.inTags ++ [(t, q)], nextIn := (t + 1) % 256 }
    | _ => h

/-- The design returns an inbound response; one with a tag that is not outstanding is discarded and logged (R31), and every
one is discarded while the port is STALLED (R33). -/
def portResponse (h : Hw) (d : Die) (p : Port) (tag data : Nat) : Hw :=
  let n := d.val
  if !portDesign h n p.val || h.bit (K.FPORT_STAT_STALLED n p.val) then h
  else
    let x := fport h n p.val
    match x.inTags.find? fun e => e.1 == tag with
    | some e =>
      let h := setFport h n p.val { x with inTags := x.inTags.filter fun e => e.1 != tag }
      answer h e.2 .ok (if e.2.kind = .read then data % 2 ^ (8 * e.2.size) else 0)
    | none => logErr h (srcDie n) (some (.fport d p)) .access (scode .tgterr) (fportStat n p.val) 0

/-- The design keeps the port waiting: it owes an answer, or it holds ready low to a request or a queue delivery on its way
to the port (R33). -/
def portOwes (h : Hw) (n p : Nat) : Bool :=
  !(fport h n p).inTags.isEmpty || (h.bit (K.FPORT_CTL_EN n p) &&
    ((h.gal.reqs.any fun q => regionOf q.addr == .port n p) ||
      h.sched.delivering.any fun e => qKind h e.1 == 2 && qIdx h e.1 == 8 * n + p))

/-- The stall limit of a port passes while the design owes an answer or holds ready low (R33). -/
def portStalls (h : Hw) (n p : Nat) : Hw :=
  let x := fport h n p
  if h.rd (K.FPORT_CTL_STALL n p) = 0 || h.bit (K.FPORT_STAT_STALLED n p) || h.bit (K.FPORT_STAT_OFFLINE n p) ||
    !portOwes h n p then h
  else
    let h := recallDeliveries (setFport h n p { x with inTags := [] }) n p
    let h := x.inTags.foldl (fun h e => answer h e.2 .stalled 0) (h.wr (K.FPORT_STAT_STALLED n p) 1)
    logEvent h (srcDie n) 0 (fportStat n p)

/-- A write to FPORT.STAT: writing 1 to STALLED clears it, and inbound tags restart at 0 (R33). -/
def writeFportStat (h : Hw) (n p data mask : Nat) : Hw :=
  if fieldIn (K.FPORT_STAT_STALLED n p) (data &&& mask) = 1 ∧ h.bit (K.FPORT_STAT_STALLED n p) then
    let x := fport h n p
    setFport (h.wr (K.FPORT_STAT_STALLED n p) 0) n p { x with nextIn := 0 }
  else h

/-! ### Resets -/

/-- The ports of a die are unreachable: their outstanding inbound requests complete with OFFLINE (R34). -/
def portsOffline (h : Hw) (n : Nat) : Hw :=
  (List.range 8).foldl (fun h p =>
    let x := fport h n p
    x.inTags.foldl (fun h e => answer h e.2 .offline 0) (if x.inTags.isEmpty then h else setFport h n p { x with inTags := [] })) h

/-- A reset reaches the ports of a die: inbound requests complete with OFFLINE, outbound responses are discarded, held
doorbells too (R34, R266). -/
def resetPorts (h : Hw) (n : Nat) : Hw :=
  let h := (List.range 8).foldl (fun h p =>
    (fport h n p).inTags.foldl (fun h e => answer h e.2 .offline 0) h) h
  let ofDie (m : Master) : Bool := match m with | .fport d _ => d.val == n | _ => false
  let h := h.onDie n fun d => { d with fports := [] }
  let h := { h with sched := { h.sched with refused := h.sched.refused.filter fun r => !ofDie r.m } }
  let h := { h with gal := { h.gal with resps := h.gal.resps.filter fun r => !ofDie r.m, arrived := h.gal.arrived.filter fun r => !ofDie r.m } }
  { h with pcie := { h.pcie with reqs := h.pcie.reqs.filter fun r => !(r.q.elim false fun q => ofDie q.m) } }

/-- At the release of a die each port reloads its credit copies (R266). -/
def reloadCopies (h : Hw) (n : Nat) : Hw :=
  (enabledQueues h).foldl (fun h q =>
    if qKind h q = 2 ∧ qIdx h q / 8 = n then setCopy h n (qIdx h q % 8) q (qCred h q) else h) h

end Sys2Proof.Machine
end

