-- ==== Sys2Proof/Machine/Ddr.lean ====
section
/-!
DEFINITION. The DRAM channels (R378 to R400) and the inline cipher (R401 to R416): their events and the accesses they serve.
-/
namespace Sys2Proof.Machine

/-- A DRAM event posted to Q6 (R400). -/
def ddrEvent (h : Hw) (code n lane arg1 : Nat) : Hw := postEvent h 6 (lane * 2 ^ 10 + n * 2 ^ 8 + code) arg1 0 0

/-- A channel lies in the interleave set (R383). -/
def inSet (h : Hw) (n : Nat) : Bool := decide (n < chanCount h)
/-- Ranks of a channel. -/
def rankCount (h : Hw) (n : Nat) : Nat := 2 ^ h.rd (K.DDR_C_GEOM_RANKBITS n)
/-- The DDR clock period of a channel in units of 0.1 ps (R378). -/
def ddrPeriod (h : Hw) (n : Nat) : Nat := match ddrRate h n with | 0 => 6250 | 1 => 12500 | 2 => 3125 | _ => 6250

/-- An enabled channel of the set trains, or stays in reset while the survey PLL does not run on the crystal (R380). -/
def startChannel (h : Hw) (n : Nat) : Hw :=
  if inSet h n && h.bit (K.DDR_C_CTL_EN n) && !h.bit K.CLK_STAT_XABSENT then h.wr (K.DDR_C_STAT_STATE n) chTraining
  else h.wr (K.DDR_C_STAT_STATE n) chReset

/-- A channel fails training (R391). -/
def trainFails (h : Hw) (n lane rank : Nat) : Hw :=
  ddrEvent ((h.wr (K.DDR_C_STAT_STATE n) chFailed).wr (K.DDR_C_STAT_TRAINLANE n) lane) 1 n lane rank

/-- Initial training of a channel ends (R391). -/
def trainEnds (h : Hw) (n : Nat) (fail : Option (Fin 16 × Fin 4)) : Hw :=
  if chState h n ≠ chTraining then h
  else match fail with
    | some (lane, rank) => trainFails h n lane.val rank.val
    | none =>
      let h := { h with dram := { h.dram with trained := setBitAt h.dram.trained n true } }
      h.wr (K.DDR_C_STAT_STATE n) chActive

/-- DDR_TRAIN_COMPLETE. -/
def execDdrTrainComplete (n : Chan) (fail : Option (Fin 16 × Fin 4)) (s : State) : Host.Outcome State Fault Refusal :=
  doHw s fun h => trainEnds h n.val fail

/-! ### Refresh (R384 to R387) -/

/-- Whether the earliest pending deadline lies in the window of R385. -/
def deadlineNear (h : Hw) (n : Nat) : Bool :=
  decide (nextDeadline h * 12500 < h.now * 12500 + h.rd (K.DDR_C_TIM1_TRFC n) * ddrPeriod h n + h.rd (K.DDR_C_REF_GUARD n) * 10000)

/-- A channel refreshes its ranks: its devices are under its control. -/
def refreshing (h : Hw) (n rank : Nat) : Bool :=
  (chState h n == chActive || chState h n == chRetrain) && decide (rank < rankCount h n)

/-- A rank's refresh falls due. All-bank refreshes leave no trace; the fallbacks of R386 and R387 do. A same-bank round of
the interval before is over at the latest now. -/
def refreshDue (h : Hw) (n rank : Nat) : Hw :=
  if !refreshing h n rank then h
  else
    let key := n * 4 + rank
    let h := { h with dram := { h.dram with sbDue := SMap.erase h.dram.sbDue key } }
    if !h.bit (K.DDR_C_CTL_REFMODE n) || !deadlineNear h n then h
    else if isDdr5 h then
      let all := 2 ^ 2 ^ h.rd (K.DDR_C_GEOM_BABITS n) - 1
      { h with dram := { h.dram with sbDue := SMap.set h.dram.sbDue key all 0 } }.cnt (K.DDR_C_CNT_FALLBACK n)
    else if h.rd (K.DDR_C_STAT_OWED n) = 8 then h
    else (h.wr (K.DDR_C_STAT_OWED n) (h.rd (K.DDR_C_STAT_OWED n) + 1)).cnt (K.DDR_C_CNT_FALLBACK n)

/-- DDR_REFRESH_DUE. -/
def execDdrRefreshDue (n : Chan) (rank : Fin 4) (s : State) : Host.Outcome State Fault Refusal :=
  doHw s fun h => refreshDue h n.val rank.val

/-- DDR_SAME_BANK_REFRESH. -/
def execDdrSameBankRefresh (n : Chan) (rank : Fin 4) (b : Fin 4) (s : State) : Host.Outcome State Fault Refusal :=
  doHw s fun h => { h with dram := { h.dram with
    sbDue := SMap.upd h.dram.sbDue (n.val * 4 + rank.val) 0 fun x => setBitAt x b.val false } }

/-- A request is queued for a rank of a channel. -/
def rankBusy (h : Hw) (n rank : Nat) : Bool :=
  h.dram.queue.any fun q => let l := ddrMap h (q.addr - dramBase)
    l.ch == n && l.rank == rank

/-- An owed refresh is paid while the rank is idle and no deadline is near (R387). -/
def payOwed (h : Hw) (n rank : Nat) : Hw :=
  if !refreshing h n rank || isDdr5 h || rankBusy h n rank || deadlineNear h n then h
  else h.wr (K.DDR_C_STAT_OWED n) (h.rd (K.DDR_C_STAT_OWED n) - 1)

/-- DDR_OWED_REFRESH_PAY. -/
def execDdrOwedRefreshPay (n : Chan) (rank : Fin 4) (s : State) : Host.Outcome State Fault Refusal :=
  doHw s fun h => payOwed h n.val rank.val

/-- The doubled refresh rate begins or ends (R384). -/
def setDoubled (h : Hw) (n : Nat) (v : Bool) : Hw :=
  if h.bit (K.DDR_C_STAT_DOUBLED n) = v then h else ddrEvent (h.wrB (K.DDR_C_STAT_DOUBLED n) v) 4 n 0 (b2n v)

/-- DDR_MR4_POLL. -/
def execDdrMr4Poll (n : Chan) (want : Bool) (s : State) : Host.Outcome State Fault Refusal :=
  doHw s fun h => if isDdr5 h && chState h n.val == chActive then setDoubled h n.val want else h

/-- DDR_DQS_TRACK: the write DQS delay moves by the drift (R392). -/
def execDdrDqsTrack (n : Chan) (rank : Fin 4) (lane : Fin 16) (drift : Int) (s : State) :
    Host.Outcome State Fault Refusal :=
  doHw s fun h =>
    if isDdr5 h && chState h n.val == chActive then
      { h with dram := { h.dram with dqs := SMap.upd h.dram.dqs ((n.val * 4 + rank.val) * 16 + lane.val) 32768 fun x => ((x : Int) + drift).toNat } }
    else h

/-- Byte lanes of a channel: 72 bits on DDR4, two of 40 on DDR5 (R378). -/
def byteLanes (h : Hw) : Nat := if isDdr5 h then 10 else 9

/-- The margin audit of the next lane and rank in rotation (R393). -/
def audit (h : Hw) (n rdm wrm : Nat) : Hw :=
  if chState h n ≠ chActive then h
  else
    let k := SMap.get h.dram.auditPos n 0
    let rank := k % rankCount h n
    let lane := k / rankCount h n % byteLanes h
    let h := { h with dram := { h.dram with auditPos := SMap.set h.dram.auditPos n ((k + 1) % (rankCount h n * byteLanes h)) 0 } }
    let h := (((h.wr (K.DDR_C_MARGIN_LANE n) lane).wr (K.DDR_C_MARGIN_RANK n) rank).wr (K.DDR_C_MARGIN_WR n) wrm).wr (K.DDR_C_MARGIN_RD n) rdm
    let low := h.rd (K.DDR_C_MARGIN_MIN n)
    let key := (n * 4 + rank) * 16 + lane
    if rdm < low ∨ wrm < low then
      if h.dram.warned.contains key then h
      else ddrEvent { h with dram := { h.dram with warned := key :: h.dram.warned } } 2 n lane (wrm * 256 + rdm)
    else if low + 4 ≤ rdm ∧ low + 4 ≤ wrm then { h with dram := { h.dram with warned := h.dram.warned.filter (· != key) } }
    else h

/-- DDR_MARGIN_AUDIT. -/
def execDdrMarginAudit (n : Chan) (rd wr : Fin 64) (s : State) : Host.Outcome State Fault Refusal :=
  doHw s fun h => audit h n.val rd.val wr.val

/-- DDR_REFRESH_WINDOW: every activate table of the channel is cleared (R389). -/
def execDdrRefreshWindow (n : Chan) (s : State) : Host.Outcome State Fault Refusal :=
  doHw s fun h => { h with dram := { h.dram with tables := h.dram.tables.filter fun e => e.1 / 256 != n.val } }

/-! ### Accesses -/

/-- Line offsets a request touches. -/
def reqLines (q : GReq) : List Nat := (lineParts q.addr q.size).map fun p => (p.1 - dramBase) / 64
/-- Whether an earlier request at the channels touches a line of the i-th (R409). -/
def lineTaken (h : Hw) (i : Nat) (q : GReq) : Bool :=
  (h.dram.queue.take i).any fun x => (reqLines x).any (reqLines q).contains
/-- The channel of a DRAM offset serves requests. -/
def serves (h : Hw) (o : Nat) : Bool := chState h (ddrMap h o).ch == chActive

/-- The i-th request at the channels, if the channel may serve it now. -/
def ready (h : Hw) (i : Nat) : Option GReq :=
  match h.dram.queue[i]? with
  | some q => if lineTaken h i q || !((reqLines q).all fun l => serves h (64 * l)) then none else some q
  | none => none

/-- Remove a request from the channels. -/
def dropDram (h : Hw) (i : Nat) : Hw := { h with dram := { h.dram with queue := h.dram.queue.eraseIdx i } }

/-- Read the lines of a request: the data and the status. -/
def readLines (h : Hw) (q : GReq) (seen : List LineErrs) : Nat × Status × Hw :=
  let (x, _, st, h) := ((lineParts q.addr q.size).zipIdx).foldl (fun (acc : Nat × Nat × Status × Hw) e =>
    let (x, k, st, h) := acc
    let o := e.1.1 - dramBase
    let (found, h) := judgeLine h (ddrMap h o).ch (seen.getD e.2 [])
    let (v, bad, h) := loadLine h (mcode q.m) (o / 64 * 64) found
    (x + v / 256 ^ (o % 64) % 256 ^ e.1.2 * 256 ^ k, k + e.1.2, if bad then .poison else st, h)) (0, 0, .ok, h)
  (x, st, h)

/-- Write the lines of a request. -/
def writeLines (h : Hw) (q : GReq) (seen : List LineErrs) : Status × Hw :=
  let (_, st, h) := ((lineParts q.addr q.size).zipIdx).foldl (fun (acc : Nat × Status × Hw) e =>
    let (k, st, h) := acc
    let o := e.1.1 - dramBase
    let be := q.be / 2 ^ k % 2 ^ e.1.2 * 2 ^ (o % 64)
    let (found, h) := judgeLine h (ddrMap h o).ch (seen.getD e.2 [])
    let (s, h) := saveLine h (mcode q.m) (o / 64 * 64) (q.data / 256 ^ k * 256 ^ (o % 64)) be found
    (k + e.1.2, if s = .ok then st else s, h)) (0, .ok, h)
  (st, h)

/-- A read at the channels is served. -/
def serveRead (h : Hw) (i : Nat) (q : GReq) (seen : List LineErrs) : Hw :=
  let (x, st, h) := readLines (dropDram h i) q seen
  answer h q st x
/-- A write at the channels is served. -/
def serveWrite (h : Hw) (i : Nat) (q : GReq) (seen : List LineErrs) : Hw :=
  let (st, h) := writeLines (dropDram h i) q seen
  answer h q st 0

/-- DDR_READ: a read outside every region (R395, R396). -/
def execDdrRead (i : Nat) (seen : List LineErrs) (s : State) : Host.Outcome State Fault Refusal :=
  doHw s fun h => match ready h i with
    | some q => if q.kind = .read ∧ (regionAt h (q.addr - dramBase)).isNone then serveRead h i q seen else h
    | none => h

/-- DDR_WRITE: a write outside every region. -/
def execDdrWrite (i : Nat) (seen : List LineErrs) (s : State) : Host.Outcome State Fault Refusal :=
  doHw s fun h => match ready h i with
    | some q => if q.kind ≠ .read ∧ (regionAt h (q.addr - dramBase)).isNone then serveWrite h i q seen else h
    | none => h

/-- A request into a region: refused while the region is shut, and waiting for its counter block (R403, R406). -/
def inRegion (h : Hw) (i : Nat) (f : GReq → Hw) : Hw :=
  match ready h i with
  | none => h
  | some q => match regionAt h (q.addr - dramBase) with
    | none => h
    | some r =>
      if regionShut h r then
        let h := if q.kind = .pwrite then dropDram h i else logAccess (dropDram h i) srcCipher q.m .tgterr q.addr
        answer h q .tgterr 0
      else if cached h r ((q.addr - dramBase) / 4096 - regBase h r) then f q else h

/-- CIPHER_READ. -/
def execCipherRead (i : Nat) (seen : List LineErrs) (s : State) : Host.Outcome State Fault Refusal :=
  doHw s fun h => inRegion h i fun q => if q.kind = .read then serveRead h i q seen else h

/-- CIPHER_WRITE. -/
def execCipherWrite (i : Nat) (seen : List LineErrs) (s : State) : Host.Outcome State Fault Refusal :=
  doHw s fun h => inRegion h i fun q => if q.kind = .read then h else serveWrite h i q seen

/-! ### Retraining (R394) -/

/-- A write of CMD with RETRAIN = 1. -/
def retrain (h : Hw) (m : Master) (n data : Nat) : Hw :=
  if chState h n = chActive then h.wr (K.DDR_C_STAT_STATE n) chRetrain
  else logIgnored h m (K.DDR_C_CMD_RETRAIN n).addr data

/-- DDR_RETRAIN. -/
def execDdrRetrain (m : Master) (n : Chan) (s : State) : Host.Outcome State Fault Refusal :=
  doHw s fun h => gated h m (K.DDR_C_CMD_RETRAIN n.val).addr fun h => retrain h m n.val 1

/-- A retrain ends. -/
def retrainEnds (h : Hw) (n : Nat) (fail : Option (Fin 16 × Fin 4)) : Hw :=
  if chState h n ≠ chRetrain then h
  else match fail with
    | some (lane, rank) => trainFails h n lane.val rank.val
    | none => ddrEvent (h.wr (K.DDR_C_STAT_STATE n) chActive) 3 n 0 0

/-- DDR_RETRAIN_COMPLETE. -/
def execDdrRetrainComplete (n : Chan) (fail : Option (Fin 16 × Fin 4)) (s : State) : Host.Outcome State Fault Refusal :=
  doHw s fun h => retrainEnds h n.val fail

/-! ### The cipher -/

/-- COUNTER_FETCH_COMPLETE: both copies of a block that a waiting request needs have arrived (R406). -/
def execCounterFetchComplete (r : Fin 16) (page : Nat) (aOk bOk : Bool) (s : State) : Host.Outcome State Fault Refusal :=
  doHw s fun h =>
    let wanted := h.dram.queue.any fun q => regionAt h (q.addr - dramBase) == some r.val &&
      (q.addr - dramBase) / 4096 - regBase h r.val == page
    if wanted && !cached h r.val page then resolveCtr h r.val page aOk bOk else h

/-- Set the key halves of a region, and the KEYED and PEND flags that show them. -/
def setCiphKeys (h : Hw) (r : Nat) (cur pend : Option Nat) : Hw :=
  let h := { h with keys := { h.keys with ciphCur := SMap.set h.keys.ciphCur r cur none, ciphPend := SMap.set h.keys.ciphPend r pend none } }
  (h.wrB (K.CIPH_R_MER_KEYED r) cur.isSome).wrB (K.CIPH_R_MER_PEND r) pend.isSome

/-- Set the re-key flags of a region. -/
def setRekey (h : Hw) (r : Nat) (v : Bool) : Hw :=
  (h.wr K.CIPH_STAT_REKEY (setBitAt (h.rd K.CIPH_STAT_REKEY) r v)).wrB (K.CIPH_R_MER_REKEY r) v
/-- Set the install flag of a region. -/
def setInstall (h : Hw) (r : Nat) (v : Bool) : Hw := h.wr K.CIPH_STAT_INSTALL (setBitAt (h.rd K.CIPH_STAT_INSTALL) r v)
/-- A re-key or install runs in a region. -/
def regionBusy (h : Hw) (r : Nat) : Bool := (h.rd K.CIPH_STAT_REKEY).testBit r || (h.rd K.CIPH_STAT_INSTALL).testBit r
/-- A re-key or install runs in some region. -/
def cipherBusy (h : Hw) : Bool := h.rd K.CIPH_STAT_REKEY != 0 || h.rd K.CIPH_STAT_INSTALL != 0

/-- KROLL of a cipher slot (R410, R415): the status. 0 OK, 1 BUSY, 3 EMPTY. An install over CUT = 1 is the recovery of
R415, which keeps the counters. -/
def rollRegion (h : Hw) (r : Nat) : Nat × Hw :=
  let cut := h.bit (K.CIPH_R_MER_CUT r)
  let keep := h.bit (K.CIPH_R_BASE_KEEPCTR r)
  if regionBusy h r then (1, h)
  else match ciphCur h r, ciphPend h r with
    | none, some k =>
      if cut then (if keep then (0, setCiphKeys h r (some k) none) else (3, h))
      else
        let h := setCiphKeys h r (some k) none
        (0, if keep then h else setInstall h r true)
    | some _, some _ =>
      let h := if cut then h.wr (K.CIPH_R_MER_CUT r) 0 else h.wr (K.CIPH_R_MER_MERIDIAN r) (regBase h r)
      (0, setRekey h r true)
    | _, _ => (3, h)

/-- KWIPE of a cipher slot: a running re-key stops with CUT = 1 (R227, R415). -/
def wipeRegion (h : Hw) (r : Nat) : Hw :=
  let h := if (h.rd K.CIPH_STAT_REKEY).testBit r then (setRekey h r false).wr (K.CIPH_R_MER_CUT r) 1 else h
  setInstall (setCiphKeys h r none none) r false

/-- Forget what is remembered of the pages of a region that satisfy p: poison, ended and cached blocks. -/
def forgetPages (h : Hw) (r : Nat) (p : Nat → Bool) : Hw :=
  let keep (x : Nat) : Bool := !(x / 2 ^ 27 == r && p (x % 2 ^ 27))
  { h with dram := { h.dram with poisoned := h.dram.poisoned.filter keep, ended := h.dram.ended.filter keep } }

/-- Zero both counter copies of every page of a region (R410). -/
def zeroCounters (h : Hw) (r : Nat) : Hw :=
  let lo := dramBase + regCtr h r * 4096
  let hi := lo + regPages h r * 256
  let mem := { h.mem with cells := h.mem.cells.filter fun e => !(decide (lo ≤ e.1 ∧ e.1 < hi)) }
  let bad := h.dram.bad.filter fun l => !(decide (lo ≤ dramBase + 64 * l ∧ dramBase + 64 * l < hi))
  forgetPages { h with mem := mem, dram := { h.dram with bad := bad } } r fun _ => true

/-- CIPHER_INSTALL_COMPLETE. -/
def execCipherInstallComplete (r : Fin 16) (s : State) : Host.Outcome State Fault Refusal :=
  doHw s fun h => if (h.rd K.CIPH_STAT_INSTALL).testBit r.val then setInstall (zeroCounters h r.val) r.val false else h

/-- The Meridian engine re-keys one page (R411, R414). -/
def meridian (h : Hw) (r : Nat) : Hw :=
  match ciphPend h r with
  | some key =>
    if !(h.rd K.CIPH_STAT_REKEY).testBit r then h
    else
      let at_ := h.rd (K.CIPH_R_MER_MERIDIAN r)
      let p := at_ - regBase h r
      let (ls, h) := pageLines (fetchCounters h (at_ * 4096)) r p
      let h := forgetPages (writePage h r p key 0 ls) r (· == p)
      let h := h.wr (K.CIPH_R_MER_MERIDIAN r) (at_ + 1)
      if at_ + 1 < regLimit h r then h
      else
        let h := setRekey (setCiphKeys h r (some key) none) r false
        ciphEvent { h with dram := { h.dram with near := h.dram.near.filter (· != r) } } 0x10 r 0
  | none => h

/-- MERIDIAN_PAGE. -/
def execMeridianPage (r : Fin 16) (s : State) : Host.Outcome State Fault Refusal := doHw s fun h => meridian h r.val

/-- A write of CMD with CLR = 1 (R414). -/
def clearPage (h : Hw) (m : Master) (page : Nat) : Hw :=
  match regionAt h (page * 4096) with
  | some r =>
    let p := page - regBase h r
    forgetPages (writeCtr h r p ⟨0, 0⟩) r (· == p)
  | none => logIgnored h m K.CIPH_CMD_CLR.addr (page * 4096 + 1)

/-- CIPHER_PAGE_CLEAR. -/
def execCipherPageClear (m : Master) (page : BitVec 27) (s : State) : Host.Outcome State Fault Refusal :=
  doHw s fun h => gated h m K.CIPH_CMD_CLR.addr fun h => clearPage h m page.toNat

/-! ### Writes to HUB.DDR and HUB.CIPH -/

/-- A channel is enabled. -/
def anyChannel (h : Hw) : Bool := (List.range 4).any fun n => h.bit (K.DDR_C_CTL_EN n)

/-- A write to CHMASKj (R382): a mask without an anchor at bit 6 or above takes its reset value; the other mask's anchor is
cleared from it. -/
def writeChmask (h : Hw) (m : Master) (j data mask : Nat) : Hw :=
  let k := K.DDR_CHMASK_MASK j
  let v := newVal h k data mask
  let v' := if (match anchor v with | some b => decide (b < 6) | none => true) then k.rst else v
  let v' := match anchor (h.rd (K.DDR_CHMASK_MASK (1 - j))) with
    | some b => setBitAt v' b false
    | none => v'
  let h := h.wr k v'
  if v' = v then h else logErr h srcDdr (some m) .replaced 0 k.addr data

/-- A write to MAP: the reserved code of CHANS is replaced by the reset value option byte 0x16 gives it (R12, R448). -/
def writeChans (h : Hw) (m : Master) (d mask data : Nat) : Hw :=
  let v := merged K.DDR_MAP_CHANS (h.rd K.DDR_MAP_CHANS) d mask
  if fieldIn K.DDR_MAP_CHANS mask = 0 then h
  else if v = 3 then
    logErr (h.wr K.DDR_MAP_CHANS (if optByte h 0x16 % 4 = 3 then 0 else optByte h 0x16)) srcDdr (some m) .replaced 0
      K.DDR_MAP_CHANS.addr data
  else h.wr K.DDR_MAP_CHANS v

/-- A write to a register of HUB.DDR. -/
def writeDdr (h : Hw) (m : Master) (a size data : Nat) : Hw :=
  let d := placed a size data
  let mask := writeMask64 a size
  let base := a / 8 * 8
  if 0x1300000 ≤ base ∧ base ≤ 0x1300010 then
    if anyChannel h then logIgnored h m a data
    else if base = 0x1300000 then writeChans h m d mask data
    else writeChmask h m ((base - 0x1300008) / 8) d mask
  else if base < 0x1300000 ∧ base % 0x40000 = 0x80 then
    (if fieldIn (K.DDR_C_CMD_RETRAIN 0) (d &&& mask) = 1 then retrain h m ((base - 0x1200000) / 0x40000) data else h)
  else writeReg h m a size data

/-- A write to a register of HUB.CIPH. -/
def writeCiph (h : Hw) (m : Master) (a size data : Nat) : Hw :=
  let d := placed a size data &&& writeMask64 a size
  if a / 8 * 8 = K.CIPH_CMD_CLR.addr then
    (if fieldIn K.CIPH_CMD_CLR d = 1 then clearPage h m (fieldIn K.CIPH_CMD_PAGE d) else h)
  else writeReg h m a size data

end Sys2Proof.Machine
end

