-- ==== Sys2Proof/Machine/Bortik.lean ====
section
/-!
DEFINITION. The serial lanes and the Bortik links (R347 to R377): bring-up, sealed frames, work items between devices, remote
seam channels, beacons and the Gazetteer.
-/
namespace Sys2Proof.Machine

/-! ### Links and lanes -/

/-- STATE codes of R356. -/
def lkOff : Nat := 0
def lkDetect : Nat := 1
def lkStep1 : Nat := 2
def lkClimb : Nat := 3
def lkAlign : Nat := 4
def lkNokey : Nat := 5
def lkUp : Nat := 6
def lkState (h : Hw) (l : Nat) : Nat := h.rd (K.BORTIK_LINK_STAT_STATE l)
def setLk (h : Hw) (l st : Nat) : Hw := h.wr (K.BORTIK_LINK_STAT_STATE l) st

/-- DOWNCAUSE codes. -/
def dcDisabled : Nat := 1
def dcLol : Nat := 2
def dcAuth : Nat := 3
def dcKeywipe : Nat := 4
def dcCrystal : Nat := 5
def dcDiereset : Nat := 6
def dcLanefail : Nat := 7
def dcWidth : Nat := 8

/-- Lanes of link l (R355). -/
def linkLanes (h : Hw) (l : Nat) : List Nat := (List.range (linkWidth h l)).map (l + ·)
def linkEn (h : Hw) (l : Nat) : Bool := h.bit (K.BORTIK_LINK_CFG_EN l)
/-- The enabled link a lane belongs to. -/
def linkOfLane (h : Hw) (k : Nat) : Option Nat := (List.range 64).find? fun l => linkEn h l && (linkLanes h l).contains k
/-- A link index covered by a wider enabled link. -/
def covered (h : Hw) (l : Nat) : Bool := match linkOfLane h l with | some x => x != l | none => false

/-- The lanes of a link have power and clock: not in the reduced state, lane supplies good, die not in reset, not asleep in
A2 (R348, R377, R506). -/
def lanesPowered (h : Hw) (l : Nat) : Bool :=
  !h.bit K.CLK_STAT_XABSENT && h.pwr.lanesGood && dieUp h (l / 16) && !h.bortik.asleep

/-- The lanes of a link run at a step. -/
def setLaneStep (h : Hw) (l step : Nat) : Hw := (linkLanes h l).foldl (fun h k => h.wr (K.LANE_STAT_STEP k) step) h
/-- The lanes of a link hold lock or not. -/
def setLaneLock (h : Hw) (l : Nat) (v : Bool) : Hw := (linkLanes h l).foldl (fun h k => h.wrB (K.LANE_STAT_LOCK k) v) h

/-- An enabled link in OFF whose lanes are powered starts to look for signal. -/
def startLink (h : Hw) (l : Nat) : Hw :=
  if lkState h l = lkOff && linkEn h l && lanesPowered h l then setLaneStep (setLk h l lkDetect) l 1 else h
/-- Every link is looked at again after a change of power. -/
def startLinks (h : Hw) : Hw := (List.range 64).foldl startLink h

/-- A link returns to DETECT, or to OFF where it may not run. -/
def rest (h : Hw) (l : Nat) : Hw :=
  let h := setLaneLock h l false
  if linkEn h l && lanesPowered h l then setLaneStep (setLk h l lkDetect) l 1 else setLaneStep (setLk h l lkOff) l 0

/-- A link ends (R356, R359, R368, R375, R377). A link that was UP or NOKEY posts LINKDOWN. -/
def endLink (h : Hw) (l cause : Nat) : Hw :=
  if lkState h l = lkOff then h
  else
    let live := decide (lkNokey ≤ lkState h l)
    let h := if live then holdRsc h l 5 else h
    let h := h.wr (K.BORTIK_LINK_STAT_DOWNCAUSE l) cause
    let h := onLink h l fun x => { x with keyOut := none, keyIn := none, switchOut := none, switchIn := none, rollDue := false, lost := [], fails := 0, keep := x.keep && cause != dcKeywipe, rscMark := none, rscR0 := none, rscTold := false, told := [] }
    let h := h.wr (K.BORTIK_GAZ_INFO_VALID l) 0
    let h := if live then linkEvent (h.cnt (K.BORTIK_LINK_CNT_DOWNS l)) 2 l 0 cause else h
    rest h l

/-- A bring-up fails: the cause is recorded and the link looks for signal again. -/
def bringUpFails (h : Hw) (l cause : Nat) : Hw := rest (h.wr (K.BORTIK_LINK_STAT_DOWNCAUSE l) cause) l

/-- LINK_SIGNAL_DETECT. -/
def execLinkSignalDetect (l : Link) (s : State) : Host.Outcome State Fault Refusal :=
  doHw s fun h => if lkState h l.val = lkDetect && lanesPowered h l.val then setLk h l.val lkStep1 else h

/-- LINK_STEP1_TIMEOUT. -/
def execLinkStep1Timeout (l : Link) (s : State) : Host.Outcome State Fault Refusal :=
  doHw s fun h => if lkState h l.val = lkStep1 then bringUpFails h l.val dcLanefail else h

/-- Lowest MAXSTEP over the lanes of a link. -/
def ownMaxStep (h : Hw) (l : Nat) : Nat := (linkLanes h l).foldl (fun x k => min x (h.rd (K.LANE_CFG_MAXSTEP k))) 7

/-- Whether this end asks to resume: the partner is the one recorded and the records stand (R368). -/
def wantsResume (h : Hw) (l : Nat) (serial : Word) : Bool := (linkSt h l).keep && (linkSt h l).partner == some serial

/-- An ADVERT is received in STEP1: step, width, precoding and resumption are agreed, and a new nonce is drawn (R357, R368). -/
def advert (h : Hw) (l : Nat) (a : Advert) : Hw :=
  if lkState h l ≠ lkStep1 then h
  else if a.width.val ≠ h.rd (K.BORTIK_LINK_CFG_WIDTH l) ∨ !a.lanesOk then bringUpFails h l dcWidth
  else if a.maxStep.val = 0 then bringUpFails h l dcLanefail
  else
    let step := min 5 (min (ownMaxStep h l) a.maxStep.val)
    let (nonce, h) := h.draw
    let resume := wantsResume h l a.serial && a.resume
    let h := onLink h l fun x => { x with partner := some a.serial, nonce := nonce % 2 ^ 64, nonceIn := a.nonce.toNat, agreed := step, climb := 2, resume := resume, lastInTheirs := a.lastSeq.toNat }
    let h := (linkLanes h l).foldl (fun h k => h.wrB (K.LANE_STAT_PRECODED k) (h.bit (K.LANE_CFG_PRECODE k) && a.precode && decide (4 ≤ step))) h
    let h := h.wr (K.BORTIK_LINK_STAT_STEP l) step
    if step = 1 then setLk h l lkAlign else setLaneStep (setLk h l lkClimb) l 2

/-- BORTIK_ADVERT. -/
def execBortikAdvert (l : Link) (a : Advert) (s : State) : Host.Outcome State Fault Refusal := doHw s fun h => advert h l.val a

/-- Errors a lane may show at a step's check (R358). -/
def errorLimit (step : Nat) : Nat := if step ≤ 3 then 0 else 2 ^ 16
/-- A step passes if every lane of both directions passes: errors and margin of each own lane, in lane order, and the partner's
result (R358). -/
def stepPasses (h : Hw) (l step : Nat) (r : StepResult) : Bool :=
  r.theirs && r.lanes.length == linkWidth h l &&
  r.lanes.all fun x => decide (x.1 ≤ errorLimit step) && decide (h.rd K.BORTIK_CTL_MARGWARN ≤ x.2.val)

/-- The checkers of a link's lanes add the bit errors of a step's check to LANE.ERR (R354). -/
def countErrors (h : Hw) (l : Nat) (r : StepResult) : Hw :=
  ((linkLanes h l).zip r.lanes).foldl (fun h x => h.addSat (K.LANE_ERR_COUNT x.1) x.2.1) h

/-- A climbing step ends (R358). -/
def climbEnds (h : Hw) (l : Nat) (r : StepResult) : Hw :=
  if lkState h l ≠ lkClimb then h
  else
    let h := countErrors h l r
    let x := linkSt h l
    if stepPasses h l x.climb r then
      if x.climb < x.agreed then setLaneStep (onLink h l fun x => { x with climb := x.climb + 1 }) l (x.climb + 1)
      else setLk h l lkAlign
    else
      let h := onLink h l fun x => { x with agreed := x.climb - 1 }
      setLaneStep (setLk (h.wr (K.BORTIK_LINK_STAT_STEP l) (x.climb - 1)) l lkAlign) l (x.climb - 1)

/-- CLIMB_STEP_COMPLETE. -/
def execClimbStepComplete (l : Link) (r : StepResult) (s : State) : Host.Outcome State Fault Refusal :=
  doHw s fun h => climbEnds h l.val r

/-! ### Keys (R363, R364) -/

def linkCur (h : Hw) (l : Nat) : Option Nat := SMap.get h.keys.linkCur l none
def linkPend (h : Hw) (l : Nat) : Option Nat := SMap.get h.keys.linkPend l none
/-- Set the key halves of a link's slot. -/
def setLinkKeys (h : Hw) (l : Nat) (cur pend : Option Nat) : Hw :=
  { h with keys := { h.keys with linkCur := SMap.set h.keys.linkCur l cur none, linkPend := SMap.set h.keys.linkPend l pend none } }

/-- The session key of a direction: `sending` names this device's own. DIR is 0 for the end with the lower serial number. -/
def deriveKey (h : Hw) (l : Nat) (sending : Bool) (key epoch : Nat) : Nat :=
  let x := linkSt h l
  let own := h.rd K.ID_SERIAL_SERIAL
  let lower := decide (own < (x.partner.elim 0 BitVec.toNat))
  let dir := if sending == lower then 0 else 1
  let (a, b) := if lower then (x.nonce, x.nonceIn) else (x.nonceIn, x.nonce)
  sessionKey key (h.rd (K.BORTIK_LINK_CFG_LINKID l)) dir a b epoch

/-- Both directions take the session keys of epoch 0 from the current key. -/
def freshKeys (h : Hw) (l : Nat) : Hw :=
  match linkCur h l with
  | some k =>
    let o := deriveKey h l true k 0
    let i := deriveKey h l false k 0
    (onLink h l fun x => { x with keyOut := some o, keyIn := some i, epochIn := 0, countOut := 0, countIn := 0 }).wr (K.BORTIK_LINK_STAT_EPOCH l) 0
  | none => h

/-- The pending key becomes current. -/
def promoteKey (h : Hw) (l : Nat) : Hw := setLinkKeys h l (linkPend h l) none

/-- The entries of a link that were sent and not acknowledged are discarded and counted (R368). -/
def dropUnacked (h : Hw) (l : Nat) : Hw :=
  (linkSt h l).unacked.foldl (fun h b =>
    match (h.queue b.q).entries.find? fun e => e.slot == b.slot with
    | some e => (leave h b.q e).cnt (K.SCHED_Q_STAT_DISCARD b.q)
    | none => h) h

/-- 256-bit blocks that a block of the link layer takes (R361). -/
def blocksOf : BBlock → Nat
  | .doorbell _ _ _ => 3
  | .beacon .. => 2
  | _ => 1

/-- A block is sent, and counts under the current key (R362). -/
def sendBlock (h : Hw) (l : Nat) (b : BBlock) : Hw := onLink h l fun x => { x.counted (blocksOf b) with sentBlock := some b }

/-- Resend the doorbells that stand unacknowledged and satisfy p, in order; each counts as one frame (R365). -/
def replayFrom (h : Hw) (l : Nat) (p : SentBell → Bool) : Hw :=
  let bells := (linkSt h l).unacked.filter p
  bells.foldl (fun h b => sendBlock h l (.doorbell (Fin.ofNat 16384 b.dest) (BitVec.ofNat 16 b.seq) (slotDesc h b.q b.slot)))
    (h.addSat (K.BORTIK_LINK_CNT_REPLAY l) bells.length)

/-- A link with a key goes UP: the sequence is resumed, or starts afresh (R363, R368). -/
def goUp (h : Hw) (l : Nat) : Hw :=
  let x := linkSt h l
  let h := freshKeys h l
  let h := if x.resume then replayFrom h l fun _ => true
    else
      let h := dropUnacked h l
      dispatch (onLink h l fun x => { x with unacked := [], nextOut := 0, lastIn := 65535, known := [], admitted := [] })
  let h := onLink h l fun x => { x with keep := true, told := [], beaconLost := false, fails := 0 }
  let h := (setLk h l lkUp).wrB (K.BORTIK_LINK_STAT_RESUMED l) x.resume
  linkEvent h 1 l 0 (h.rd (K.BORTIK_LINK_CFG_WIDTH l) * 16 + h.rd (K.BORTIK_LINK_STAT_STEP l))

/-- A key is there: the pending one becomes current where the current half is empty, and the link goes UP. -/
def tryKey (h : Hw) (l : Nat) : Hw :=
  let h := if (linkCur h l).isNone then promoteKey h l else h
  if (linkCur h l).isSome then goUp h l else setLk h l lkNokey

/-- LINK_ALIGN_COMPLETE. -/
def execLinkAlignComplete (l : Link) (s : State) : Host.Outcome State Fault Refusal :=
  doHw s fun h => if lkState h l.val = lkAlign then tryKey (setLaneLock h l.val true) l.val else h

/-- LINK_KEY_AVAILABLE. -/
def execLinkKeyAvailable (l : Link) (s : State) : Host.Outcome State Fault Refusal :=
  doHw s fun h => if lkState h l.val = lkNokey then tryKey h l.val else h

/-- KEYSWITCH is sent for the next epoch, or for a new base key. -/
def sendSwitch (h : Hw) (l : Nat) (newBase : Bool) : Hw :=
  let e := if newBase then 0 else h.rd (K.BORTIK_LINK_STAT_EPOCH l) + 1
  sendBlock (onLink h l fun x => { x with switchOut := some newBase }) l (.keySwitch (BitVec.ofNat 32 e) newBase)

/-- KROLL of a link's slot: 0 OK, 3 EMPTY (R226, R364). With no session the pending key becomes current at once. -/
def rollLink (h : Hw) (l : Nat) : Nat × Hw :=
  if (linkPend h l).isNone then (3, h)
  else if lkState h l ≠ lkUp then (0, promoteKey h l)
  else if (linkSt h l).switchOut.isSome || (linkSt h l).switchIn.isSome then (0, onLink h l fun x => { x with rollDue := true })
  else (0, sendSwitch h l true)

/-- KWIPE of a link's slot: the link ends (R227, R377). -/
def wipeLink (h : Hw) (l : Nat) : Hw :=
  endLink (onLink (setLinkKeys h l none none) l fun x => { x with keep := false }) l dcKeywipe

/-- A new base key takes effect in both directions. -/
def newBaseKey (h : Hw) (l : Nat) : Hw :=
  let h := if (linkPend h l).isSome then promoteKey h l else h
  freshKeys (onLink h l fun x => { x with switchOut := none, switchIn := none }) l

/-- A direction for which a KEYSWITCH stands reaches its switch block: 0 the sending one, 1 the receiving one (R364). -/
def epochSwitch (h : Hw) (l : Nat) (dir : Nat) : Hw :=
  let x := linkSt h l
  if lkState h l ≠ lkUp || (if dir = 0 then x.switchOut.isNone else x.switchIn.isNone) then h
  else
    let h := match dir, x.switchOut, x.switchIn with
      | 0, some true, _ => newBaseKey h l
      | 0, _, _ =>
        let e := (h.rd (K.BORTIK_LINK_STAT_EPOCH l) + 1) % 2 ^ 32
        let k := (linkCur h l).map fun k => deriveKey h l true k e
        (onLink h l fun x => { x with switchOut := none, keyOut := k, countOut := 0 }).wr (K.BORTIK_LINK_STAT_EPOCH l) e
      | _, _, some true => newBaseKey h l
      | _, _, _ =>
        let e := (x.epochIn + 1) % 2 ^ 32
        let k := (linkCur h l).map fun k => deriveKey h l false k e
        onLink h l fun x => { x with switchIn := none, keyIn := k, epochIn := e, countIn := 0 }
    if (linkSt h l).rollDue && (linkSt h l).switchOut.isNone && (linkSt h l).switchIn.isNone then
      sendSwitch (onLink h l fun x => { x with rollDue := false }) l true
    else h

/-- KEY_EPOCH_SWITCH. -/
def execKeyEpochSwitch (l : Link) (dir : Fin 2) (s : State) : Host.Outcome State Fault Refusal :=
  doHw s fun h => epochSwitch h l.val dir.val

/-! ### Lanes of a live link (R359, R360) -/

/-- LANE_LOCK_LOSS. -/
def execLaneLockLoss (k : Lane) (s : State) : Host.Outcome State Fault Refusal :=
  doHw s fun h => match linkOfLane h k.val with
    | some l =>
      if lkState h l < lkNokey then h
      else
        let h := onLink (h.wr (K.LANE_STAT_LOCK k.val) 0) l fun x => { x with lost := if x.lost.contains k.val then x.lost else x.lost ++ [k.val] }
        holdRsc h l 2
    | none => h

/-- LANE_LOCK_REGAIN. -/
def execLaneLockRegain (l : Link) (s : State) : Host.Outcome State Fault Refusal :=
  doHw s fun h =>
    if (linkSt h l.val).lost.isEmpty then h
    else setLaneLock (onLink h l.val fun x => { x with lost := [] }) l.val true

/-- LANE_LOCK_TIMEOUT. -/
def execLaneLockTimeout (l : Link) (s : State) : Host.Outcome State Fault Refusal :=
  doHw s fun h => if (linkSt h l.val).lost.isEmpty then h else endLink h l.val dcLol

/-- A margin measurement of a lane of an UP link (R360). -/
def measureMargin (h : Hw) (k margin : Nat) : Hw :=
  match linkOfLane h k with
  | none => h
  | some l =>
    if lkState h l ≠ lkUp then h
    else
      let h := h.wr (K.LANE_STAT_MARGIN k) margin
      let h := h.wr (K.LANE_STAT_MINMARGIN k) (min margin (h.rd (K.LANE_STAT_MINMARGIN k)))
      let warn := h.rd K.BORTIK_CTL_MARGWARN
      if margin < warn then
        if h.bortik.warned.contains k then h
        else
          let h := { h with bortik := { h.bortik with warned := k :: h.bortik.warned } }.wr (K.LANE_STAT_MARGLOW k) 1
          linkEvent h 7 l k margin
      else if warn + 4 ≤ margin then { h with bortik := { h.bortik with warned := h.bortik.warned.filter (· != k) } }
      else h

/-- LANE_MARGIN_MEASURE. -/
def execLaneMarginMeasure (k : Lane) (margin : Fin 64) (s : State) : Host.Outcome State Fault Refusal :=
  doHw s fun h => measureMargin h k.val margin.val

/-! ### Remote seam channels (R369 to R373) -/

/-- The partner's RSCMARK is received: the larger KMIN of the two directions enters the domain's (R371, R372). -/
def rscMarked (h : Hw) (l v k w kmin : Nat) : Hw :=
  let h := onLink h l fun x => { x with rscMark := some (v, k, w, kmin), rscR0 := none }
  refreshKmin (h.wr (K.BORTIK_LINK_RSCSTAT_KMIN l) (max (rscKmin h l) kmin)) (h.rd (K.BORTIK_LINK_RSC_PDOM l))

/-- DELTA of a channel: r0 - v0 modulo 2^48, r0 the edge of RXNET that found the marked cycle in the buffer, or the next edge where
none has (R372). -/
def chanDelta (h : Hw) (l : Nat) : Nat :=
  let x := linkSt h l
  let r0 := x.rscR0.getD ((h.net (l / 16) (h.rd (K.BORTIK_LINK_RSC_RXNET l))).stake + 1)
  match x.rscMark with
  | some (v, _, _, _) => (r0 + 2 ^ 48 - v % 2 ^ 48) % 2 ^ 48
  | none => 0

/-- The fill check of a channel ends (R372). -/
def rscAligns (h : Hw) (l : Nat) (steady : Bool) : Hw :=
  if lkState h l ≠ lkUp || !h.bit (K.BORTIK_LINK_RSC_EN l) || h.bit (K.BORTIK_LINK_RSCSTAT_ALIGNED l) || !released h (l / 16) ||
    !rscOk h l then h
  else if !steady then h.wr (K.BORTIK_LINK_RSCSTAT_NOTSYNC l) 1
  else
    let old := (linkSt h l).rscDelta
    let delta := chanDelta h l
    let h := onLink h l fun x => { x with rscDelta := delta + 1, rscHeld := false }
    let h := ((h.wr (K.BORTIK_LINK_RSCSTAT_NOTSYNC l) 0).wr (K.BORTIK_LINK_RSCSTAT_ALIGNED l) 1).wr (K.BORTIK_LINK_RSCSTAT_DELTA l) delta
    let h := if old ≠ 0 ∧ old ≠ delta + 1 then logEvent h srcLane 0 (K.BORTIK_LINK_RSCSTAT_DELTA l).addr else h
    tryRelease h (h.rd (K.BORTIK_LINK_RSC_PDOM l)) (h.bit K.BORTIK_CTL_AUTORUN)

/-- RSC_ALIGN_COMPLETE: a fill check that was steady has found DELTA; no other than that of the marked cycle can be found. -/
def execRscAlignComplete (l : Link) (steady : Bool) (delta : BitVec 48) (s : State) : Host.Outcome State Fault Refusal :=
  doHw s fun h => if steady && chanDelta (runDesign h) l.val != delta.toNat then h else rscAligns (runDesign h) l.val steady

/-- RSC_SLIP. -/
def execRscSlip (l : Link) (s : State) : Host.Outcome State Fault Refusal :=
  doHw s fun h =>
    if h.bit (K.BORTIK_LINK_RSCSTAT_ALIGNED l.val) then holdRsc (h.wr (K.BORTIK_LINK_RSCSTAT_SLIP l.val) 1) l.val 1 else h

/-- BORTIK_RSC_BLOCK: the slots reach the receive buffer at once. -/
def execBortikRscBlock (l : Link) (cycle : Fin 128) (index : Fin 32) (slots : BitVec 240) (s : State) :
    Host.Outcome State Fault Refusal :=
  doHw s fun h =>
    if lkState h l.val = lkUp && h.bit (K.BORTIK_LINK_RSC_EN l.val) then
      onLink h l.val fun x => { x with rscBuf := SMap.set x.rscBuf (32 * cycle.val + index.val) slots.toNat 0 }
    else h

/-! ### Work items between devices (R365 to R368) -/

/-- Admissions made to an own queue from a link, modulo 2^16. -/
def admittedTo (h : Hw) (l q : Nat) : Nat := SMap.get (linkSt h l).admitted q 0

/-- CREDIT for a queue the link owns (R367). -/
def creditSend (h : Hw) (l q : Nat) : Hw :=
  let cred := qCred h q
  let told := (linkSt h l).told
  if lkState h l ≠ lkUp || !qEn h q || qKind h q != 3 || qIdx h q != l || SMap.get told q 0 == cred + 1 ||
    (SMap.get told q 0 == 0 && decide (256 ≤ told.length)) then h
  else
    let h := onLink h l fun x => { x with told := SMap.set x.told q (cred + 1) 0 }
    sendBlock h l (.credit (Fin.ofNat 16384 q) (BitVec.ofNat 13 cred) (BitVec.ofNat 16 (admittedTo h l q)))

/-- CREDIT_SEND. -/
def execCreditSend (l : Link) (q : Queue) (s : State) : Host.Outcome State Fault Refusal :=
  doHw s fun h => creditSend h l.val q.val

/-- The partner's CREDIT: its CRED and ADMITTED; the first one after a fresh start counts nothing as outstanding. -/
def creditArrives (h : Hw) (l q cred adm : Nat) : Hw :=
  onLink h l fun x =>
    let sent := match SMap.get x.known q none with | some a => a.sent | none => adm
    { x with known := SMap.set x.known q (some ⟨cred, adm, sent⟩) none }

/-- The credit copy of an announced queue: CRED - (SENT - ADMITTED) mod 2^16 (R367). -/
def partnerCredit (a : Announced) : Nat := a.cred - (a.sent + 65536 - a.admitted) % 65536

/-- Change what is known of a partner's queue. -/
def onKnown (h : Hw) (l q : Nat) (f : Announced → Announced) : Hw :=
  onLink h l fun x => { x with known := SMap.set x.known q ((SMap.get x.known q none).map f) none }

/-- An entry that a link may not deliver is discarded, counted and logged with the failed check (R366). -/
def rejectEntry (h : Hw) (q slot check : Nat) : Hw :=
  match (h.queue q).entries.find? fun e => e.slot == slot with
  | some e =>
    let h := (leave h q e).cnt (K.SCHED_Q_STAT_DISCARD q)
    dispatch (logErr h srcLane none .access (0x10 + check) (doorbellAddr q) 0)
  | none => h

/-- The oldest entry of a link-owned deliver queue that has not been sent is sent against a credit (R366, R367). -/
def linkDelivery (h : Hw) (q : Nat) : Hw :=
  let l := qIdx h q % 64
  let x := linkSt h l
  let dest := h.rd (K.SCHED_Q_DEST_DEST q)
  if !qEn h q || !qDeliver h q || qKind h q != 3 || lkState h l != lkUp || decide (64 ≤ x.unacked.length) then h
  else match (h.queue q).entries.find? fun e => !(x.unacked.any fun b => b.q == q && b.slot == e.slot) with
    | none => h
    | some e =>
      match (if 16384 ≤ dest then none else SMap.get x.known dest none) with
      | none => rejectEntry h q e.slot 5
      | some a =>
        if partnerCredit a = 0 then h
        else
          let d := slotDesc h q e.slot
          let h := onLink h l fun x => { x with unacked := x.unacked ++ [⟨x.nextOut, q, e.slot, dest⟩], nextOut := (x.nextOut + 1) % 65536 }
          let h := onKnown h l dest fun a => { a with sent := (a.sent + 1) % 65536 }
          sendBlock h l (.doorbell (Fin.ofNat 16384 dest) (BitVec.ofNat 16 x.nextOut) d)

/-- BORTIK_DELIVERY. -/
def execBortikDelivery (q : Queue) (s : State) : Host.Outcome State Fault Refusal := doHw s fun h => linkDelivery h q.val

/-- Whether SEQ a is at or before SEQ b, modulo 2^16. -/
def seqUpTo (a b : Nat) : Bool := decide ((b + 65536 - a) % 65536 < 32768)

/-- ACK: every doorbell up to SEQ is admitted, and its slot frees. -/
def ackArrives (h : Hw) (l seq : Nat) : Hw :=
  let done := (linkSt h l).unacked.filter fun b => seqUpTo b.seq seq
  let h := onLink h l fun x => { x with unacked := x.unacked.filter fun b => !(seqUpTo b.seq seq) }
  dispatch (done.foldl (fun h b => match (h.queue b.q).entries.find? fun e => e.slot == b.slot with
    | some e => leave h b.q e
    | none => h) h)

/-- REJECT: the entry is discarded, counted and logged, and no longer counts against the credit. -/
def rejectArrives (h : Hw) (l seq check : Nat) : Hw :=
  match (linkSt h l).unacked.find? fun b => b.seq == seq with
  | none => h
  | some b =>
    let h := onLink h l fun x => { x with unacked := x.unacked.filter fun b => b.seq != seq }
    rejectEntry (onKnown h l b.dest fun a => { a with sent := (a.sent + 65535) % 65536 }) b.q b.slot check

/-- The SEQ after a SEQ. -/
def nextSeq (x : Nat) : Nat := (x + 1) % 65536

/-- A doorbell arrives: an old SEQ is discarded, a gap asks for replay, the next one is admitted or rejected (R365, R366). -/
def bellArrives (h : Hw) (l : Nat) (lk : Link) (q seq : Nat) (d : Desc) : Hw :=
  let x := linkSt h l
  if seq ≠ nextSeq x.lastIn then
    if seqUpTo seq x.lastIn then sendBlock h l (.ack (BitVec.ofNat 16 x.lastIn))
    else sendBlock h l (.nak (BitVec.ofNat 16 (nextSeq x.lastIn)))
  else
    let h := onLink h l fun x => { x with lastIn := seq }
    let (h, a) := tryEnter h q (.master (.link lk)) d
    match a with
    | .ok _ =>
      let h := onLink h l fun x => { x with admitted := SMap.upd x.admitted q 0 nextSeq }
      sendBlock (dispatch h) l (.ack (BitVec.ofNat 16 seq))
    | .full => sendBlock (dropPosting h q (mcode (.link lk)) .full) l (.ack (BitVec.ofNat 16 seq))
    | a => sendBlock (dropPosting h q (mcode (.link lk)) a) l (.reject (BitVec.ofNat 16 seq) (BitVec.ofNat 8 a.order))

/-! ### Beacons (R374, R375) -/

/-- A beacon is received: the Gazetteer entry and its events. -/
def beaconArrives (h : Hw) (l : Nat) (serial : Word) (port : Byte) (caps : BitVec 16) (image : BitVec 32) (dig : BitVec 256)
    (epoch : BitVec 32) (rdy : Bool) : Hw :=
  let kept := h.rd (K.BORTIK_GAZ_SERIAL_SERIAL l)
  let wasValid := h.bit (K.BORTIK_GAZ_INFO_VALID l)
  let oldImage := h.rd (K.BORTIK_GAZ_INFO_IMAGEID l)
  let oldReady := h.bit (K.BORTIK_GAZ_INFO_DEVREADY l)
  let oldDig := getDigest h (K.BORTIK_GAZ_DIG_DIG l)
  let h := (h.wr (K.BORTIK_GAZ_SERIAL_SERIAL l) serial.toNat).wr (K.BORTIK_GAZ_INFO_VALID l) 1
  let h := (h.wrB (K.BORTIK_GAZ_INFO_UNAUTH l) (lkState h l == lkNokey)).wrB (K.BORTIK_GAZ_INFO_DEVREADY l) rdy
  let h := (h.wr (K.BORTIK_GAZ_INFO_PORT l) port.toNat).wr (K.BORTIK_GAZ_INFO_CAPS l) caps.toNat
  let h := putDigest (h.wr (K.BORTIK_GAZ_INFO_IMAGEID l) image.toNat) (K.BORTIK_GAZ_DIG_DIG l) dig.toNat
  let h := onLink (h.wr (K.BORTIK_GAZ_SEEN_TIME l) h.now) l fun x => { x with beaconLost := false }
  let h := if !wasValid && (kept == 0 || kept != serial.toNat) then linkEvent h 3 l 0 serial.toNat else h
  let h := if kept ≠ 0 ∧ oldImage ≠ image.toNat then linkEvent h 4 l 0 image.toNat else h
  if kept ≠ 0 ∧ oldReady ∧ rdy ∧ oldDig ≠ dig.toNat then linkEvent h 5 l 0 epoch.toNat else h

/-- CAPS of this device (R374). -/
def ownCaps (h : Hw) (l : Nat) : Nat :=
  ownMaxStep h l * 2 ^ 13 + b2n (h.bit (K.LANE_CFG_PRECODE l)) * 2 ^ 12 + 2 ^ 11 + b2n (hasGuest h) * 2 ^ 10

/-- The beacon this device sends on a link. -/
def ownBeacon (h : Hw) (l : Nat) : BBlock :=
  .beacon (BitVec.ofNat 64 (h.rd K.ID_SERIAL_SERIAL)) (BitVec.ofNat 8 l) (BitVec.ofNat 16 (ownCaps h l))
    (BitVec.ofNat 32 (h.rd K.CFG_IMAGE_IMAGEID)) (BitVec.ofNat 256 (getDigest h K.CFG_ASSAYDEV_DIG))
    (BitVec.ofNat 32 (h.rd K.CFG_ASSAYSTAT_DEVEPOCH)) (h.bit K.CFG_ASSAYSTAT_DEVREADY)

/-- BEACON_SEND. -/
def execBeaconSend (l : Link) (s : State) : Host.Outcome State Fault Refusal :=
  doHw s fun h => if lkNokey ≤ lkState h l.val then sendBlock h l.val (ownBeacon h l.val) else h

/-- BEACON_LOST_TIMEOUT. -/
def execBeaconLostTimeout (l : Link) (s : State) : Host.Outcome State Fault Refusal :=
  doHw s fun h =>
    if lkState h l.val < lkNokey || (linkSt h l.val).beaconLost then h
    else linkEvent (onLink h l.val fun x => { x with beaconLost := true }) 6 l.val 0 0

/-! ### Frames (R361, R362, R365) -/

/-- One block of a verified frame is delivered. -/
def deliverBlock (l : Link) (h : Hw) (b : BBlock) : Hw :=
  match b with
  | .ack seq => ackArrives h l.val seq.toNat
  | .nak seq => replayFrom h l.val fun b => seqUpTo seq.toNat b.seq
  | .credit q c a => creditArrives h l.val q.val c.toNat a.toNat
  | .reject seq check => rejectArrives h l.val seq.toNat check.toNat
  | .doorbell q seq d => bellArrives h l.val l q.val seq.toNat d
  | .keySwitch _ nb => onLink h l.val fun x => { x with switchIn := some nb }
  | .rscMark v k w kmin => rscMarked h l.val v.toNat k.toNat w.toNat kmin.toNat
  | .beacon sr p c i d e r => beaconArrives h l.val sr p c i d e r
  | .badType => h
  | .badOp => h.cnt (K.BORTIK_LINK_CNT_UNCORR l.val)

/-- Whether a frame holds DATA blocks. -/
def hasData (fr : BFrame) : Bool := fr.blocks.any fun b => match b with | .doorbell _ _ _ => true | _ => false

/-- LANE.ERR counts the symbols that FEC corrected on the lanes of a link: no checker runs on them (R354). -/
def countSymbols (h : Hw) (l : Nat) (fr : BFrame) : Hw :=
  ((linkLanes h l).zip fr.fixed).foldl (fun h x => h.addSat (K.LANE_ERR_COUNT x.1) x.2) h

/-- A frame arrives (R362, R365, R373). In NOKEY only beacons travel, in clear. -/
def frameArrives (h : Hw) (l : Link) (fr : BFrame) : Hw :=
  let n := l.val
  if lkState h n = lkNokey then
    let h := countSymbols h n fr
    fr.blocks.foldl (fun h b => match b with | .beacon .. => deliverBlock l h b | _ => h) h
  else if lkState h n ≠ lkUp then h
  else
    let h := countSymbols h n fr
    let nak (h : Hw) : Hw := sendBlock h n (.nak (BitVec.ofNat 16 (nextSeq (linkSt h n).lastIn)))
    if fr.uncorr then
      let h := h.cnt (K.BORTIK_LINK_CNT_UNCORR n)
      let h := if hasData fr then nak h else h
      if fr.rsc then holdRsc h n 3 else h
    else if !fr.tagOk || fr.blocks.contains .badType then
      let h := h.addSat (K.BORTIK_LINK_CNT_UNCORR n) (fr.blocks.filter (· == .badType)).length
      let h := nak (onLink (h.cnt (K.BORTIK_LINK_CNT_AUTHFAIL n)) n fun x => { x with fails := x.fails + 1 })
      let h := if fr.rsc then holdRsc (h.wr (K.BORTIK_LINK_RSCSTAT_LOSSY n) 1) n 4 else h
      if 8 ≤ (linkSt h n).fails then endLink h n dcAuth else h
    else fr.blocks.foldl (deliverBlock l) (onLink h n fun x => { x with fails := 0, countIn := x.countIn + (fr.blocks.map blocksOf).sum })

/-- BORTIK_FRAME_RECEIVE. -/
def execBortikFrameReceive (l : Link) (fr : BFrame) (s : State) : Host.Outcome State Fault Refusal :=
  doHw s fun h => frameArrives h l fr

/-- REPLAY_TIMEOUT. -/
def execReplayTimeout (l : Link) (s : State) : Host.Outcome State Fault Refusal :=
  doHw s fun h => if lkState h l.val = lkUp then replayFrom h l.val fun _ => true else h

/-! ### Register accesses -/

/-- A pattern code that suits a step's signalling: PRBS-31 for NRZ, PRBS-13Q for PAM4. -/
def patternFits (code step : Nat) : Bool := code == 0 || (code == 1 && decide (step ≤ 3)) || (code == 2 && decide (4 ≤ step))

/-- A write to a register of HUB.LANE or HUB.BORTIK. -/
def writeLane (h : Hw) (m : Master) (a size data : Nat) : Hw :=
  if a < 0x1A00000 then
    let k := (a - 0x1600000) / 0x1000
    if a / 8 * 8 = 0x1600008 + k * 0x1000 then
      if (linkOfLane h k).isSome then logIgnored h m a data
      else
        let h := writeReg h m a size data
        let step := h.rd (K.LANE_TEST_STEP k)
        if patternFits (h.rd (K.LANE_TEST_GEN k)) step && patternFits (h.rd (K.LANE_TEST_CHK k)) step then h
        else logErr h srcLane (some m) .replaced 0 a data
    else writeReg h m a size data
  else if 0x1A10000 ≤ a ∧ a < 0x1A14000 ∧ covered h ((a - 0x1A10000) / 0x100) then h
  else writeReg h m a size data

/-- A read of a register of HUB.LANE or HUB.BORTIK. -/
def readLane (h : Hw) (base : Nat) : Nat :=
  if 0x1A10000 ≤ base ∧ base < 0x1A14000 ∧ covered h ((base - 0x1A10000) / 0x100) then 0 else readVal h base

end Sys2Proof.Machine
end

