-- ==== Sys2Proof/Machine/Guest.lean ====
section
/-!
DEFINITION. The guest site of the KZ48G (R486 to R497): the firewall, the mailbox page, deliveries, the link and the
guest's reset and temperature. Without a guest site (R3) every operation here leaves the state as it is.
-/
namespace Sys2Proof.Machine

/-- Change the guest site beyond its registers. -/
def onGuest (h : Hw) (f : Guest → Guest) : Hw := { h with guest := f h.guest }

/-- An event of the guest site posted to Q7 (R497). -/
def guestEvent (h : Hw) (code arg1 : Nat) : Hw := postEvent h 7 code arg1 0 0

/-! ### GRST_N and the link (R487, R495) -/

/-- The reset sequence holds GRST_N low: until step 7 of R441, and in a warm reset with WARMRST until step 5 of R437. -/
def guestHeld (h : Hw) : Bool := h.rst.phase != .running && (!h.rst.warm || h.bit K.GUEST_CTL_WARMRST)

/-- GRST_N is high. -/
def grstHigh (h : Hw) : Bool :=
  hasGuest h && h.bit K.GUEST_STAT_VGOOD && !guestHeld h && !h.bit K.GUEST_CTL_GRST && !h.bit K.GUEST_STAT_TRIPHOLD

/-- The clocks of the link's PLL come from the crystal (R486). -/
def guestClock (h : Hw) : Bool := !h.bit K.CLK_STAT_XABSENT

/-- The link may be up. -/
def guestLinkOk (h : Hw) : Bool := grstHigh h && h.bit K.GUEST_CTL_EN && guestClock h

/-- The link goes down: LINKDOWN, FENCE (R487, R493). Deliveries the guest has not credited are sent again later. -/
def guestLinkFalls (h : Hw) : Hw :=
  if !h.bit K.GUEST_STAT_UP then h
  else
    let h := ((h.wr K.GUEST_STAT_UP 0).wr K.GUEST_STAT_RATE 0).wr K.GUEST_STAT_WIDTH 0
    let h := onGuest (h.wr K.GUEST_CTL_FENCE 1) fun g =>
      { g with waiting := [], sent := [], tags := g.tags.filter fun t => g.waiting.all fun x => x.kind = .pwrite || x.tag != t }
    guestEvent h 0x02 0

/-- GRST_N and the link follow their conditions; a guest reset sets FENCE (R493, R495). -/
def refreshGuest (h : Hw) : Hw :=
  let up := grstHigh h
  let h := if h.guest.running && !up then h.wr K.GUEST_CTL_FENCE 1 else h
  let h := onGuest h fun g => { g with running := up }
  if guestLinkOk h then h else guestLinkFalls h

/-- Rate in GT/s of a MAXRATE code. -/
def guestRate (code : Nat) : Nat := 4 * (code + 1)

/-- The UCIe link trains up. -/
def guestLinkRises (h : Hw) (rate : Nat) (full : Bool) : Hw :=
  if guestLinkOk h && !h.bit K.GUEST_STAT_UP && decide (rate ≤ h.rd K.GUEST_CTL_MAXRATE) then
    let width := if full then 16 else 8
    let h := ((h.wr K.GUEST_STAT_UP 1).wr K.GUEST_STAT_RATE rate).wr K.GUEST_STAT_WIDTH width
    guestEvent h 0x01 (width * 256 + guestRate rate)
  else h

/-! ### The mailbox page (R494) -/

/-- First address of the mailbox page. -/
def mailBase : Nat := 0x1E80000

/-- Whether an address lies in the mailbox page. -/
def inMailbox (a : Nat) : Bool := within a mailBase 0x2000000

/-- A word of the page as the guest reads it. -/
def mailWord (h : Hw) (off : Nat) : Nat :=
  if within off 0x100000 0x120000 then
    let q := (off - 0x100000) / 8
    if qKind h q = 4 then readSched h (qPtrAddr q) else 0
  else if within off 0x120000 0x120088 then readVal h (mailBase + off)
  else if off = 0x120100 then h.rd (K.PWR_TOL_NS 2)
  else 0

/-- Log a word the page drops; a word of zeros asks for nothing. -/
def mailDrop (h : Hw) (off v : Nat) : Hw :=
  if v = 0 then h else logErr h srcGuest (some .guest) .ignored 0 (mailBase + off) v

/-- A guest GO: MBOX to Q7, or a violation while the last message stands (R494). -/
def fromGo (h : Hw) : Hw :=
  if h.bit K.GUEST_MBOX_CTL_FROMFULL then guestViolates (logErr h srcGuest (some .guest) .ignored 0 K.GUEST_MBOX_CTL_FROMGO.addr 2)
  else guestEvent (h.wr K.GUEST_MBOX_CTL_FROMFULL 1) 0x03 (h.rd (K.GUEST_MBOX_FROMGUEST_WORD 0))

/-- A foreman GO: TOFULL is set and the sideband notification goes out, or a violation while the last message stands. -/
def toGo (h : Hw) (m : Master) : Hw :=
  if h.bit K.GUEST_MBOX_CTL_TOFULL then guestViolates (logErr h srcGuest (some m) .ignored 0 K.GUEST_MBOX_CTL_TOGO.addr 1)
  else h.wr K.GUEST_MBOX_CTL_TOFULL 1

/-- A word the guest writes to the page, the doorbells apart. -/
def mailStore (h : Hw) (off v : Nat) : Hw :=
  if within off 0x100000 0x120000 then
    let q := (off - 0x100000) / 8
    if qKind h q = 4 then popQueue h q (fieldIn (K.SCHED_Q_PTR_POP q) v) else mailDrop h off v
  else if within off 0x120040 0x120080 then h.wr (K.GUEST_MBOX_FROMGUEST_WORD ((off - 0x120040) / 8)) v
  else if off = 0x120080 then
    let h := if v.testBit 2 then h.wr K.GUEST_MBOX_CTL_TOFULL 0 else h
    if v.testBit 1 then fromGo h else h
  else if off = 0x120100 then h.wr (K.PWR_TOL_NS 2) v
  else mailDrop h off v

/-- A read of the page: its words in ascending order. -/
def mailRead (h : Hw) (off size : Nat) : Nat :=
  (List.range (size / 8)).foldl (fun x i => x + mailWord h (off + 8 * i) * 2 ^ (64 * i)) 0

/-- A write to the page: a doorbell for each 64 bytes of the doorbell part, else word by word. -/
def mailWrite (h : Hw) (off size data : Nat) : Hw :=
  if off < 0x100000 then
    (List.range (size / 64)).foldl (fun h i => ringDoorbell h .guest (off / 64 + i) (natDesc (data / 2 ^ (512 * i)))) h
  else (List.range (size / 8)).foldl (fun h i => mailStore h (off + 8 * i) (data / 2 ^ (64 * i) % 2 ^ 64)) h

/-! ### The firewall (R488 to R491) -/

/-- A RESP to the guest; a posted write has none. -/
def guestRespond (h : Hw) (t : GuestTx) (st : Status) (data : Nat) : Hw :=
  if t.kind = .pwrite then h else onGuest h fun g =>
    { g with lastResp := some (t.tag, st, data), tags := g.tags.filter (· != t.tag) }

/-- A transaction that fails in the firewall. -/
def guestRefuse (h : Hw) (t : GuestTx) (st : Status) : Hw := guestRespond (guestFails h st t.addr) t st 0

/-- Whether window k is enabled and contains an address. -/
def windowHolds (h : Hw) (a k : Nat) : Bool :=
  h.bit (K.GUEST_GW_BASE_EN k) &&
  decide (h.rd (K.GUEST_GW_BASE_BASE k) * 4096 ≤ a ∧ a < h.rd (K.GUEST_GW_LIMIT_LIMIT k) * 4096)

/-- The permission window k gives a transaction. -/
def windowGrants (h : Hw) (t : GuestTx) (k : Nat) : Bool :=
  match t.kind with
  | .read => if t.fetch then h.bit (K.GUEST_GW_BASE_X k) else h.bit (K.GUEST_GW_BASE_R k)
  | _ => h.bit (K.GUEST_GW_BASE_W k)

/-- Cost of a transaction, in the units of the bucket: 1/800 byte. -/
def guestCost (t : GuestTx) : Nat := (if t.kind = .read then 16 else 16 + t.size) * 800

/-- Orders 5 to 7: the mailbox page, the windows, and the Gallery. -/
def guestForward (h : Hw) (t : GuestTx) : Hw :=
  if inMailbox t.addr then
    if t.kind = .read then guestRespond h t .ok (mailRead h (t.addr - mailBase) t.size)
    else guestRespond (mailWrite h (t.addr - mailBase) t.size t.data) t .ok 0
  else match (List.range 16).find? (windowHolds h t.addr) with
    | none => guestRefuse h t .denied
    | some k =>
      if windowGrants h t k then (issue h .guest t.kind t.addr t.size t.data (allOn t.size) t.tag).2
      else guestRefuse h t .denied

/-- Take the cost from the bucket and forward. -/
def guestSpend (h : Hw) (t : GuestTx) : Hw :=
  guestForward (onGuest h fun g => { g with tokens := g.tokens - guestCost t }) t

/-- Credits of one class in use: 64 request credits and 64 posted credits, each returned once the Gallery has accepted the
transaction (R489). -/
def guestCreditsUsed (h : Hw) (posted : Bool) : Nat :=
  (h.guest.waiting.filter fun t => (t.kind == .pwrite) == posted).length +
  (h.gal.reqs.filter fun q => q.m == .guest && (q.kind == .pwrite) == posted).length

/-- The guest may send: it holds a credit, and the tag of a non-posted transaction is free (R489). -/
def guestMaySend (h : Hw) (t : GuestTx) : Bool :=
  decide (guestCreditsUsed h (t.kind == .pwrite) < 64) && (t.kind == .pwrite || !h.guest.tags.contains t.tag)

/-- A non-posted transaction holds its tag until its RESP. -/
def guestHolds (h : Hw) (t : GuestTx) : Hw :=
  if t.kind = .pwrite then h else onGuest h fun g => { g with tags := g.tags ++ [t.tag] }

/-- Orders 1 to 4 of R490; `legal` says whether the header meets order 2. -/
def guestCheck (h : Hw) (t : GuestTx) (legal : Bool) : Hw :=
  if h.bit K.GUEST_CTL_FENCE then guestRefuse h t .denied
  else if !legal || t.size % 64 != 0 || !beatsOk t.addr (t.size / 64) then guestRefuse h t .tgterr
  else if !h.guest.waiting.isEmpty || decide (h.guest.tokens < guestCost t) then
    onGuest h fun g => { g with waiting := g.waiting ++ [t] }
  else guestSpend h t

/-- A guest transaction at the firewall. Without a link, a credit or a free tag the guest sends nothing (R489). -/
def guestTake (h : Hw) (t : GuestTx) (legal : Bool) : Hw :=
  if hasGuest h && h.bit K.GUEST_STAT_UP && guestMaySend h t then guestCheck (guestHolds h t) t legal else h

/-- The transaction at the front of the wait finds its tokens (R491). -/
def guestRelease (h : Hw) : Hw :=
  match h.guest.waiting with
  | [] => h
  | t :: rest =>
    if h.guest.tokens < guestCost t then h
    else guestSpend (onGuest h fun g => { g with waiting := rest }) t

/-- Fill the bucket (R491). -/
def fillBucket (h : Hw) : Hw := onGuest h fun g => { g with tokens := h.rd K.GUEST_LIMITS_BURST * 1024 * 800 }

/-! ### Deliveries (R492) -/

/-- The oldest entry of a guest-owned deliver queue that is not on its way is sent as one PWRITE. -/
def guestDeliver (h : Hw) (q : Nat) : Hw :=
  if !hasGuest h || !qEn h q || !qDeliver h q || qKind h q != 4 || h.bit K.GUEST_CTL_FENCE || !h.bit K.GUEST_STAT_UP then h
  else match (h.queue q).entries.find? fun e => !(h.guest.sent.contains (q, e.slot)) with
    | none => h
    | some e =>
      let data := descNat (slotDesc h q e.slot)
      onGuest h fun g => { g with sent := g.sent ++ [(q, e.slot)], lastWrite := some (h.rd (K.SCHED_Q_DEST_DEST q) / 64 * 64, data) }

/-- The guest returns the posted credit of its oldest delivery, and the entry leaves. -/
def guestCredit (h : Hw) : Hw :=
  match h.guest.sent with
  | [] => h
  | (q, slot) :: rest =>
    let h := onGuest h fun g => { g with sent := rest }
    match (h.queue q).entries.find? fun e => e.slot == slot with
    | some e => dispatch (leave h q e)
    | none => h

/-! ### Temperature and reset (R496) -/

/-- Quarter degrees as a signed number. -/
def quarters (v : Nat) : Int := if v < 2 ^ 15 then (v : Int) else (v : Int) - 2 ^ 16

/-- A trip starts a trip hold under TRIPRST. -/
def guestTrip (h : Hw) : Hw :=
  if h.bit K.GUEST_CTL_TRIPRST && !h.bit K.GUEST_STAT_TRIPHOLD then
    onGuest (h.wr K.GUEST_STAT_TRIPHOLD 1) fun g => { g with sawOne := false, sawZero := false }
  else h

/-- A temperature report over the sideband. -/
def guestReport (h : Hw) (t : Nat) : Hw :=
  if !h.bit K.GUEST_STAT_VGOOD then h
  else
    let h := h.wr K.GUEST_TEMP_TEMP t
    let warm := decide ((4 * h.rd K.GUEST_CTL_TWARN : Int) ≤ quarters t)
    let h := if warm && !h.guest.warned then guestEvent h 0x05 t else h
    let h := onGuest h fun g => { g with warned := warm }
    let ends := !warm && h.bit K.GUEST_STAT_TRIPHOLD && h.guest.sawZero
    let h := if ends then h.wr K.GUEST_STAT_TRIPHOLD 0 else h
    let h := if (4 * h.rd K.GUEST_CTL_TTRIP : Int) ≤ quarters t then guestTrip (guestEvent h 0x06 t) else h
    refreshGuest h

/-- Silence for 10 ms counts as a trip. -/
def guestSilent (h : Hw) : Hw :=
  if h.bit K.GUEST_STAT_VGOOD then refreshGuest (guestTrip (guestEvent h 0x07 0)) else h

/-- A write of GRST and TRIPRST: during a trip hold the 1 and then 0 of GRST are seen, and TRIPRST = 0 ends the hold. -/
def guestGrst (h : Hw) (grst trip : Bool) : Hw :=
  let h := (h.wrB K.GUEST_CTL_GRST grst).wrB K.GUEST_CTL_TRIPRST trip
  let h := if h.bit K.GUEST_STAT_TRIPHOLD then
      onGuest h fun g => { g with sawOne := g.sawOne || grst, sawZero := g.sawZero || (g.sawOne && !grst) } else h
  refreshGuest (if trip then h else h.wr K.GUEST_STAT_TRIPHOLD 0)

/-- A write to a register of HUB.GUEST by a hub master, or by the guest through its page (R494). -/
def writeGuest (h : Hw) (m : Master) (a size data : Nat) : Hw :=
  let base := a / 8 * 8
  let d := placed a size data
  let mask := writeMask64 a size
  if !hasGuest h then h
  else if m = .guest then mailStore h (base - mailBase) (d &&& mask)
  else if base = K.GUEST_CTL_GRST.addr then
    let h := writeReg h m a size data
    if mask.testBit 2 then guestGrst h (h.bit K.GUEST_CTL_GRST) (h.bit K.GUEST_CTL_TRIPRST) else h
  else if base = K.GUEST_CLR_UNFENCE.addr then (if (d &&& mask).testBit 0 then h.wr K.GUEST_CTL_FENCE 0 else h)
  else if base = K.GUEST_MBOX_CTL_TOGO.addr then
    let h := writeReg h m a size data
    if (d &&& mask).testBit 0 then toGo h m else h
  else writeReg h m a size data

/-! ### The commands -/

/-- GUEST_LINK_UP (R487): the UCIe link trains up; LINKUP is posted. -/
def execGuestLinkUp (rate : Fin 4) (full : Bool) (s : State) : Host.Outcome State Fault Refusal :=
  doHw s fun h => guestLinkRises h rate.val full

/-- GUEST_LINK_DOWN (R487, R493): the link goes down; LINKDOWN is posted and FENCE set. -/
def execGuestLinkDown (s : State) : Host.Outcome State Fault Refusal := doHw s guestLinkFalls

/-- GUEST_READ (R490): a READ at the firewall. -/
def execGuestRead (hd : GuestHdr) (s : State) : Host.Outcome State Fault Refusal :=
  doHw s fun h => guestTake h ⟨.read, false, hd.tag.val, hd.addr, hd.size, 0⟩ hd.legal

/-- GUEST_FETCH (R490): a read under X permission. -/
def execGuestFetch (hd : GuestHdr) (s : State) : Host.Outcome State Fault Refusal :=
  doHw s fun h => guestTake h ⟨.read, true, hd.tag.val, hd.addr, hd.size, 0⟩ hd.legal

/-- GUEST_WRITE (R490): a non-posted write. -/
def execGuestWrite (hd : GuestHdr) (data : Nat) (s : State) : Host.Outcome State Fault Refusal :=
  doHw s fun h => guestTake h ⟨.write, false, hd.tag.val, hd.addr, hd.size, data % 2 ^ (8 * hd.size)⟩ hd.legal

/-- GUEST_PWRITE (R490): a posted write. -/
def execGuestPwrite (hd : GuestHdr) (data : Nat) (s : State) : Host.Outcome State Fault Refusal :=
  doHw s fun h => guestTake h ⟨.pwrite, false, hd.tag.val, hd.addr, hd.size, data % 2 ^ (8 * hd.size)⟩ hd.legal

/-- GUEST_BUCKET_RELEASE (R491): the first waiting transaction finds its tokens. -/
def execGuestBucketRelease (s : State) : Host.Outcome State Fault Refusal := doHw s guestRelease

/-- GUEST_DELIVERY (R492): an entry of a guest-owned deliver queue is sent. -/
def execGuestDelivery (q : Queue) (s : State) : Host.Outcome State Fault Refusal := doHw s fun h => guestDeliver h q.val

/-- GUEST_CREDIT_RETURN (R492): the guest returns a posted credit. -/
def execGuestCreditReturn (s : State) : Host.Outcome State Fault Refusal := doHw s guestCredit

/-- GUEST_UNFENCE (R493): a write of 1 to CLR.UNFENCE. -/
def execGuestUnfence (m : Master) (s : State) : Host.Outcome State Fault Refusal :=
  doHw s fun h => gated h m K.GUEST_CLR_UNFENCE.addr fun h => writeGuest h m K.GUEST_CLR_UNFENCE.addr 8 1

/-- TOGUEST_GO (R494): a write of 1 to MBOX.CTL.TOGO. -/
def execToguestGo (m : Master) (s : State) : Host.Outcome State Fault Refusal :=
  doHw s fun h => gated h m K.GUEST_MBOX_CTL_TOGO.addr fun h => writeGuest h m K.GUEST_MBOX_CTL_TOGO.addr 8 1

/-- FROMGUEST_GO (R494): the guest writes 1 to MBOX.CTL.FROMGO through the firewall, as one beat. -/
def execFromguestGo (s : State) : Host.Outcome State Fault Refusal :=
  doHw s fun h => guestTake h ⟨.pwrite, false, 0, mailBase + 0x120080, 64, 2⟩ true

/-- GUEST_TEMP_REPORT (R496): a temperature report. -/
def execGuestTempReport (t : BitVec 16) (s : State) : Host.Outcome State Fault Refusal := doHw s fun h => guestReport h t.toNat

/-- GUEST_TEMP_SILENT (R496): 10 ms without a report. -/
def execGuestTempSilent (s : State) : Host.Outcome State Fault Refusal := doHw s guestSilent

/-- GUEST_GRST_WRITE (R496): a write of CTL.GRST and CTL.TRIPRST. -/
def execGuestGrstWrite (m : Master) (grst triprst : Bool) (s : State) : Host.Outcome State Fault Refusal :=
  doHw s fun h => gated h m K.GUEST_CTL_GRST.addr fun h => if hasGuest h then guestGrst h grst triprst else h

/-- VGUEST_CHANGE (R495): VGUEST becomes good or fails. -/
def execVguestChange (good : Bool) (s : State) : Host.Outcome State Fault Refusal :=
  doHw s fun h => if hasGuest h then refreshGuest (h.wrB K.GUEST_STAT_VGOOD good) else h

end Sys2Proof.Machine
end

