-- ==== Sys2Proof/Machine/Adit.lean ====
section
/-!
DEFINITION. Adit (R467 to R485): sessions, the debug bus master, halt and resume, breakpoints, register access, the
virtual terminal, the TAP and the debug window; and the Canary's freezing. The core register page stands here too (R173,
the table after R202), since the bus master reaches it.
-/
namespace Sys2Proof.Machine

/-! ### Stores in test mode (R429) -/

/-- Whether a byte a master writes at an address is stored with the test check bits. -/
def testHits (h : Hw) (m : Master) (a : Nat) : Bool :=
  h.bit K.ERR_TEST_EN && (m == .core 0 || m == .adit) && memIndex a == some (h.rd K.ERR_TEST_MEM) &&
  (decide (a < localBase) || errCore a == h.rd K.ERR_TEST_CORE)

/-- Store n bytes for a master: in test mode with the given check bits, else with computed ones. -/
def storeBytes (h : Hw) (m : Master) (a n data be : Nat) : Hw :=
  let who := match m with | .core c => some c.val | _ => none
  if testHits h m a then
    let h := tryWrite h ⟨who, a, n, data, be, some (h.rd K.ERR_TEST_CHK)⟩
    if h.bit K.ERR_TEST_ONESHOT then h.wr K.ERR_TEST_EN 0 else h
  else hubWrite h who a n data be

/-! ### The core register page -/

/-- Address of a register of core c's page. -/
def pageAt (c off : Nat) : Nat := 0x100000000 + c * 0x1000 + off

/-- A read of the page; offsets without a register read 0. -/
def pageRead (h : Hw) (c off : Nat) : Nat := readVal h (pageAt c off)

/-- A write of the page: TVEC and EPC are writable on core 0, LOCKBRK clears by a 1, all else ignores writes. -/
def pageWrite (h : Hw) (c off v : Nat) : Hw :=
  if off = 0x008 then (if c = 0 then h.wr (K.CORE_TVEC_VEC 0) (v / 4) else h)
  else if off = 0x010 then (if c = 0 then h.wr (K.CORE_EPC_EPC 0) (v / 4 * 4) else h)
  else if off = 0x030 then (if v.testBit 8 then h.wr (K.CORE_LOCKSTAT_LOCKBRK c) 0 else h)
  else h

/-! ### The Canary's freezing (R484) -/

/-- The foreman is halted, or steps. -/
def foremanHeld (h : Hw) : Bool := isHalted h 0 || (h.core 0).stepping

/-- REMAIN holds: the foreman is halted under FREEZE, or the crew clock is gated. -/
def canaryHolds (h : Hw) : Bool :=
  (foremanHeld h && h.bit K.RST_CANARY_CTL_FREEZE) ||
  (h.rd K.PWR_STAT_STATE != 0 && !(h.rd K.PWR_STAT_AWAKE).testBit 0)

/-- FROZEN follows its conditions; when it ends, REMAIN becomes at least 10,000. -/
def refreshFrozen (h : Hw) : Hw :=
  let now := canaryHolds h
  let h := if h.bit K.RST_CANARY_STAT_FROZEN && !now then
      h.wr K.RST_CANARY_STAT_REMAIN (max (h.rd K.RST_CANARY_STAT_REMAIN) 10000) else h
  h.wrB K.RST_CANARY_STAT_FROZEN now

/-- REMAIN reloads (R483). -/
def reloadCanary (h : Hw) : Hw := h.wr K.RST_CANARY_STAT_REMAIN (h.rd K.RST_CANARY_CTL_PERIOD * 1000)

/-! ### Halt and resume (R476 to R480) -/

/-- Core c is inside a locked sequence, its foreman's handler apart (R200, R201). -/
def inSequence (h : Hw) (c : Nat) : Bool := match (h.core c).lock with | some l => !l.suspended | none => false

/-- Core c stops issuing: HALTED is set and the request is taken. -/
def haltCore (h : Hw) (c : Nat) : Hw :=
  let h := h.wr K.ADIT_HALT_REQ (setBitAt (h.rd K.ADIT_HALT_REQ) c false)
  let h := h.wr K.ADIT_HALTED_CORES (setBitAt (h.rd K.ADIT_HALTED_CORES) c true)
  refreshFrozen (h.onCore c fun x => { x with stepping := false })

/-- A halted core resumes at its pc: a finished device operation writes its rd, and an error that came meanwhile traps
(R191, R476). -/
def resumeCore (h : Hw) (c : Core) (step : Bool) : Hw :=
  if !isHalted h c.val then h
  else
    let h := h.wr K.ADIT_HALTED_CORES (setBitAt (h.rd K.ADIT_HALTED_CORES) c.val false)
    let idle := (h.core c.val).item.isNone
    let h := h.onCore c.val fun x => { x with skipBp := true, bootHalted := false, stepping := step, idleSince := if idle then h.now else x.idleSince }
    let h := match (h.core c.val).dev with
      | some ⟨_, rd, some v⟩ => (h.setG c rd v).onCore c.val fun x => { x with dev := none }
      | _ => h
    refreshFrozen (dispatch (boundary h c))

/-- A halt breaks a locked sequence at the end of its deferral (R201). -/
def breakLock (h : Hw) (c : Nat) : Hw :=
  let h := h.onCore c fun x => { x with lock := x.lock.map fun l => { l with broken := true } }
  flushHeld ((h.wr (K.CORE_LOCKSTAT_LOCKBRK c) 1).wr K.ADIT_LOCKBRK_CORES (setBitAt (h.rd K.ADIT_LOCKBRK_CORES) c true))

/-- A core that could issue: the foreman fetches, or a crew core runs an item that is not ending. -/
def mayRun (h : Hw) (c : Nat) : Bool :=
  if c = 0 then (h.core 0).fetching else (h.core c).item.isSome && (h.core c).ending.isNone

/-- The pc of a core meets an enabled breakpoint that applies to it (R478). -/
def atBreakpoint (h : Hw) (c : Nat) : Bool :=
  (h.rd K.ADIT_BPCORES_CORES).testBit c && !(h.core c).skipBp &&
  (List.range 4).any fun k => h.bit (K.ADIT_BP_EN k) && h.rd (K.ADIT_BP_ADDR k) == (h.core c).pc.toNat / 4

/-! ### Sessions (R472, R473) -/

/-- OWNER code of a face. -/
def faceCode : Face → Nat
  | .tap => 1 | .window => 2
def owner (h : Hw) : Nat := h.rd K.ADIT_SESSION_OWNER
/-- A face owns the session. -/
def faceOwns (h : Hw) (f : Face) : Bool := owner h == faceCode f
def setRefused (h : Hw) : Hw := h.wr K.ADIT_STAT_REFUSED 1
def setNothalted (h : Hw) : Hw := h.wr K.ADIT_STAT_NOTHALTED 1

/-- LOSTCAUSE codes. -/
def lostReset : Nat := 1
def lostA3 : Nat := 2
def lostDetach : Nat := 3

/-- ATTACH = 1 by a face. -/
def attach (h : Hw) (f : Face) : Hw :=
  if owner h = 0 then (h.wr K.ADIT_SESSION_OWNER (faceCode f)).wr K.ADIT_SESSION_ATTACH 1
  else if faceOwns h f then h
  else setRefused h

/-- The size in bytes of a bus transaction. -/
def busSize (h : Hw) : Nat := 2 ^ h.rd K.ADIT_BUSCMD_SIZE

/-- A completion to the host for the aperture access outstanding. -/
def windowAnswer (h : Hw) (st : Status) (data : Nat) : Hw :=
  match h.pcie.winRead with
  | some tag => complete { h with pcie := { h.pcie with winRead := none } } tag st data
  | none => h

/-- A bus transaction ends with a status (R474). A read of the aperture goes to the host and not to BUSDATA. -/
def busEnds (h : Hw) (st : Status) (data : Nat) (read : Bool) : Hw :=
  let win := h.dbg.fromWindow
  let h := { h with dbg := { h.dbg with bus := none, fromWindow := false } }
  let h := (h.wr K.ADIT_STAT_BUSY 0).wr K.ADIT_STAT_BUSSTATUS (scode st)
  if win then windowAnswer h st data
  else
    let h := if read && st == .ok then h.wr K.ADIT_BUSDATA_DATA data else h
    if h.bit K.ADIT_BUSCMD_AUTOINC then h.wr K.ADIT_BUSADDR_ADDR (h.rd K.ADIT_BUSADDR_ADDR + busSize h) else h

/-- CANCEL: the wait ends at once with TGTERR, and the response will be discarded. -/
def busCancel (h : Hw) : Hw :=
  if h.bit K.ADIT_STAT_BUSY then
    let win := h.dbg.fromWindow
    let h := { h with dbg := { h.dbg with bus := none, fromWindow := false } }
    let h := (h.wr K.ADIT_STAT_BUSY 0).wr K.ADIT_STAT_BUSSTATUS (scode .tgterr)
    if win then windowAnswer h .tgterr 0 else h
  else h

/-- The session is over: the aperture accesses that wait complete with TGTERR, a write logged (R472). -/
def aperturesEnd (h : Hw) : Hw :=
  h.dbg.apertures.foldl (fun h x =>
    if x.1 then logAccess h srcAdit (.host 0) .tgterr (0x3C00000 + x.2.1) else complete h x.2.2.2.2 .tgterr 0)
    { h with dbg := { h.dbg with apertures := [] } }

/-- The session ends (R473). -/
def endSession (h : Hw) (cause : Nat) : Hw :=
  if owner h = 0 then h
  else
    let h := h.wr K.ADIT_HALT_REQ 0
    let h := (List.range 4).foldl (fun h k => h.wr (K.ADIT_BP_EN k) 0) h
    let h := allCores.foldl (fun h c =>
      let h := h.onCore c.val fun x => { x with stepping := false }
      if (h.core c.val).bootHalted then h else resumeCore h c false) h
    let h := aperturesEnd (busCancel h)
    refreshFrozen (((h.wr K.ADIT_SESSION_OWNER 0).wr K.ADIT_SESSION_ATTACH 0).wr K.ADIT_SESSION_LOSTCAUSE cause)

/-- ATTACH = 0 by a face. -/
def detach (h : Hw) (f : Face) : Hw :=
  if faceOwns h f then endSession h lostDetach else if owner h = 0 then h else setRefused h

/-! ### The bus master (R474, R475) -/

/-- A transaction in the local ranges of a core (R173). -/
def localBus (h : Hw) (c a size : Nat) (wr : Bool) (data : Nat) : Status × Nat × Hw :=
  if 0xFFFFFFFFFFFC0000 ≤ a then
    let p := localBase + c * 0x40000 + (a - 0xFFFFFFFFFFFC0000)
    if wr then (.ok, 0, storeBytes h .adit p size data (allOn size))
    else
      let (v, bad, h) := memRead h (mcode .adit) p size
      (if bad then .poison else .ok, v, h)
  else if within a 0xFFFFFFFFFFFBF000 0xFFFFFFFFFFFC0000 then
    if size ≠ 8 then (.tgterr, 0, h)
    else if wr then (.ok, 0, pageWrite h c (a - 0xFFFFFFFFFFFBF000) data)
    else (.ok, pageRead h c (a - 0xFFFFFFFFFFFBF000), h)
  else if within a 0xFFFFFFFFFFF00000 0xFFFFFFFFFFF10000 then
    if wr then (.tgterr, 0, h)
    else (.ok, ofBytes ((List.range size).map fun i => Config.bootRom (a - 0xFFFFFFFFFFF00000 + i)), h)
  else (.decerr, 0, h)

/-- Put one transaction of the bus master on the Gallery. A misaligned one ends with TGTERR (R474); one that names a register
is logged too (R7). -/
def busIssue (h : Hw) (wr : Bool) (a size data : Nat) (window : Bool) : Hw :=
  let h := { h with dbg := { h.dbg with fromWindow := window } }.wr K.ADIT_STAT_BUSY 1
  if a % size ≠ 0 then
    let h := if regionOf a == .csr && inBlock a then logAccess h (blockSource a) .adit .tgterr a else h
    busEnds h .tgterr 0 (!wr)
  else
    let (id, h) := issue h .adit (if wr then .write else .read) a size (data % 256 ^ size) (allOn size) 0
    { h with dbg := { h.dbg with bus := some id } }

/-- One access of the aperture at an offset of the window; `tag` names a read's completion (R471). -/
def apertureIssue (h : Hw) (wr : Bool) (off size data tag : Nat) : Hw :=
  let h := if wr then h else { h with pcie := { h.pcie with winRead := some tag } }
  busIssue h wr ((h.rd K.ADIT_WINBASE_BASE * 2 ^ 21 + (off - 0x200000)) % 2 ^ 64) size data true

/-- The bus master is free: the oldest aperture access that waits is issued. -/
def apertureNext (h : Hw) : Hw :=
  if h.bit K.ADIT_STAT_BUSY then h
  else match h.dbg.apertures with
    | [] => h
    | (wr, off, size, data, tag) :: rest =>
      apertureIssue { h with dbg := { h.dbg with apertures := rest } } wr off size data tag

/-- BUSCMD.GO with the fields as they stand. -/
def busGo (h : Hw) : Hw :=
  if h.bit K.ADIT_STAT_BUSY then setRefused h
  else
    let wr := h.bit K.ADIT_BUSCMD_WRITE
    let a := h.rd K.ADIT_BUSADDR_ADDR
    let size := busSize h
    let data := h.rd K.ADIT_BUSDATA_DATA
    if h.bit K.ADIT_BUSCMD_LOCAL then
      if a % size ≠ 0 then busEnds h .tgterr 0 (!wr)
      else
        let (st, v, h) := localBus h (h.rd K.ADIT_BUSCMD_CORE) a size wr data
        busEnds h st v (!wr)
    else busIssue h wr a size data false

/-- The response to the transaction outstanding has arrived. -/
def busArrives (h : Hw) : Hw :=
  match h.dbg.bus with
  | none => h
  | some id => match takeArrived h id with
    | none => h
    | some (r, h) => apertureNext (busEnds h r.status r.data (r.kind == .read))

/-! ### The registers of HUB.ADIT -/

/-- The core CSEL names. -/
def cselCore (h : Hw) : Core := ⟨h.rd K.ADIT_CSEL_CORE % 64, Nat.mod_lt _ (by decide)⟩

/-- GREGr (r below 32) and PC (32) of the core CSEL names; 0 unless it is halted (R479). -/
def shownReg (h : Hw) (r : Nat) : Nat :=
  let c := cselCore h
  if !isHalted h c.val then 0
  else if r = 32 then (h.pc c).toNat
  else (h.g c (Fin.ofNat 32 r)).toNat

/-- The index of GREGr or PC at an offset of the block. -/
def regIndex (off : Nat) : Option Nat :=
  if within off 0x100 0x200 then some ((off - 0x100) / 8) else if off = 0x200 then some 32 else none

/-- A register of HUB.ADIT as a read without side effect shows it. -/
def aditVal (h : Hw) (off : Nat) : Nat :=
  match regIndex off with
  | some r => shownReg h r
  | none => readVal h (0x1C00000 + off)

/-- A write to GREGr or PC. -/
def writeShown (h : Hw) (r v : Nat) : Hw :=
  let c := cselCore h
  if !isHalted h c.val then setNothalted h
  else if r = 32 then (if v % 4 = 0 then h.setPc c (BitVec.ofNat 64 v) else setNothalted h)
  else h.setG c (Fin.ofNat 32 r) (BitVec.ofNat 64 v)

/-- A debugger write to COREc.DRX. -/
def writeDrx (h : Hw) (c v : Nat) : Hw :=
  if h.bit (K.ADIT_CORE_DRX_FULL c) then setRefused h
  else (h.wr (K.ADIT_CORE_DRX_DATA c) v).wr (K.ADIT_CORE_DRX_FULL c) 1

/-- A store of core c to its DTX. -/
def storeDtx (h : Hw) (c v : Nat) : Hw :=
  if h.bit (K.ADIT_CORE_DTX_FULL c) then h.wr (K.ADIT_CORE_DTX_OVR c) 1
  else (h.wr (K.ADIT_CORE_DTX_DATA c) v).wr (K.ADIT_CORE_DTX_FULL c) 1

/-- STEP.GO for a core (R477). -/
def stepCore (h : Hw) (c : Core) : Hw :=
  if !isHalted h c.val then setNothalted h
  else if mayRun h c.val then resumeCore h c true
  else h

/-- RESET.GO (R482). -/
def aditReset (h : Hw) (reach n : Nat) : Hw :=
  match reach with
  | 0 => requestReset h false K.RST_CAUSE_ADIT
  | 1 => requestReset h true K.RST_CAUSE_ADIT
  | 2 => if dieResetting h n then logErr h srcAdit (some .adit) .ignored 0 K.ADIT_RESET_GO.addr (8 * n + 5)
    else requestDie h n 2
  | _ => logErr h srcAdit (some .adit) .replaced 0 K.ADIT_RESET_GO.addr (8 * n + 7)

/-- A write by a face to a register of HUB.ADIT at hub address a. -/
def aditWrite (h : Hw) (f : Face) (a size data : Nat) : Hw :=
  let off := a / 8 * 8 - 0x1C00000
  let mask := writeMask64 a size
  let d := placed a size data &&& mask
  if off = 0 then
    (if !mask.testBit 0 then h else if d.testBit 0 then attach h f else detach h f)
  else if off = 8 then writeReg h .adit a size data
  else if !faceOwns h f then setRefused h
  else match regIndex off with
    | some r => writeShown h r (mergeBits (shownReg h r) mask d)
    | none =>
      if off = 0x20 then
        let h := writeReg h .adit a size data
        let h := if d.testBit 2 then busCancel h else h
        apertureNext (if d.testBit 0 then busGo h else h)
      else if off = 0x30 then (if d.testBit 0 then aditReset h (bits d 2 1) (bits d 4 3) else h)
      else if off = 0x40 then h.wr K.ADIT_HALT_REQ (h.rd K.ADIT_HALT_REQ ||| (d - (d &&& h.rd K.ADIT_HALTED_CORES)))
      else if off = 0x48 then allCores.foldl (fun h c => if d.testBit c.val then resumeCore h c false else h) h
      else if off = 0x60 then (if d.testBit 6 then stepCore h (Fin.ofNat 64 (d % 64)) else h)
      else if within off 0x1000 0x1400 && off % 16 == 8 then (if mask.testBit 0 then writeDrx h ((off - 0x1000) / 16) d else h)
      else writeReg h .adit a size data

/-- An offset of the block with no register (R23). -/
def aditHole (off : Nat) : Bool := (regIndex off).isNone && (fieldsAt (0x1C00000 + off)).isEmpty

/-- A write by a master of the hub to HUB.ADIT: a core's store to its DTX; the debug bus master acts as the owning face;
all else was denied by R24. -/
def writeAdit (h : Hw) (m : Master) (a size data : Nat) : Hw :=
  match m with
  | .core c =>
    if a = (K.ADIT_CORE_DTX_FULL c.val).addr then storeDtx h c.val (data % 2 ^ 32)
    else if aditHole (a / 8 * 8 - 0x1C00000) then logErr h srcAdit (some m) .wrunimp 0 a data
    else logErr h srcAdit (some m) .ignored 0 a data
  | .adit => aditWrite h (if owner h = 2 then .window else .tap) a size data
  | _ => logErr h srcAdit (some m) .ignored 0 a data

/-- A read by a master of the hub: core c's read of its DRX takes the word. -/
def readAdit (h : Hw) (m : Master) (a : Nat) : Nat × Hw :=
  let v := aditVal h (a - 0x1C00000)
  match m with
  | .core c => (v, if a = (K.ADIT_CORE_DRX_FULL c.val).addr then h.wr (K.ADIT_CORE_DRX_FULL c.val) 0 else h)
  | _ => (v, h)

/-! ### The debug window (R340, R471) -/

/-- A host access through the debug window; `tag` names a read's completion. -/
def windowAccess (h : Hw) (wr : Bool) (off size data tag : Nat) : Hw :=
  let fails (st : Status) (h : Hw) : Hw := if wr then logAccess h srcAdit (.host 0) st (0x3C00000 + off) else complete h tag st 0
  let drops (h : Hw) : Hw := if wr then logErr h srcAdit (some (.host 0)) .ignored 0 (0x3C00000 + off) data else complete h tag .ok 0
  if !h.bit K.PCIE_CTL_DBGWIN then drops h
  else if off < 0x2000 then
    if !csrShape off size then
      let h := logAccess h srcAdit (.host 0) .tgterr (0x3C00000 + off)
      if wr then h else complete h tag .tgterr 0
    else if wr then aditWrite h .window (0x1C00000 + off) size data
    else
      let v := aditVal h (off / 8 * 8)
      let h := if (regIndex (off / 8 * 8)).isSome && !isHalted h (cselCore h).val then setNothalted h else h
      complete h tag .ok (readPart off size v)
  else if off < 0x200000 then drops h
  else if !(size == 1 || size == 2 || size == 4 || size == 8) || off % size != 0 || !faceOwns h .window then fails .tgterr h
  else if h.bit K.ADIT_STAT_BUSY then { h with dbg := { h.dbg with apertures := h.dbg.apertures ++ [(wr, off, size, data, tag)] } }
  else apertureIssue h wr off size data tag

/-- A write of CTL.DBGWIN by a master: the foreman, or Adit outside a session of the window (R340). -/
def writeDbgwin (h : Hw) (m : Master) (v : Bool) : Hw :=
  if m == .core 0 || (m == .adit && owner h != 2) then h.wrB K.PCIE_CTL_DBGWIN v
  else logErr h srcPcie (some m) .ignored 0 K.PCIE_CTL_DBGWIN.addr (b2n v)

/-! ### The TAP (R467 to R470) -/

/-- Select a TAP instruction. -/
def selectIr (h : Hw) (ir : Nat) : Hw := { h with dbg := { h.dbg with ir := ir } }

/-- TRST_N or Test-Logic-Reset: IDCODE is selected, and a session of the TAP ends. -/
def tapReset (h : Hw) : Hw :=
  let h := if faceOwns h .tap then endSession h lostDetach else h
  selectIr h 2

/-- The TAP instructions other than BYPASS. -/
def tapKnown : List Nat := [0x00, 0x01, 0x02, 0x10, 0x11, 0x12]

/-! ### The commands -/

/-- The hub address of a register of the block. -/
def aditAddr (off : Nat) : Nat := 0x1C00000 + off

/-- TAP_RESET. -/
def execTapReset (s : State) : Host.Outcome State Fault Refusal := doHw s tapReset
/-- EXTEST: the boundary register drives the pins while it is selected. -/
def execExtest (s : State) : Host.Outcome State Fault Refusal := doHw s fun h => selectIr h 0x00
/-- SAMPLE_PRELOAD: loads the update stage of the boundary register, one bit a user I/O pin. -/
def execSamplePreload (cells : Nat) (s : State) : Host.Outcome State Fault Refusal :=
  doHw s fun h => { selectIr h 0x01 with dbg := { (selectIr h 0x01).dbg with boundary := cells % 2 ^ 2304 } }
/-- IDCODE. -/
def execIdcode (s : State) : Host.Outcome State Fault Refusal := doHw s fun h => selectIr h 0x02
/-- BYPASS and the reserved instructions. -/
def execBypass (ir : Byte) (s : State) : Host.Outcome State Fault Refusal :=
  doHw s fun h => if tapKnown.contains ir.toNat then h else selectIr h ir.toNat
/-- ACCESS_READ: the value is kept for the next Capture-DR. -/
def execAccessRead (reg : Fin 1024) (s : State) : Host.Outcome State Fault Refusal :=
  doHw s fun h => { selectIr h 0x10 with dbg := { (selectIr h 0x10).dbg with kept := aditVal h (reg.val * 8) } }
/-- ACCESS_WRITE. -/
def execAccessWrite (reg : Fin 1024) (data : Word) (s : State) : Host.Outcome State Fault Refusal :=
  doHw s fun h => aditWrite (selectIr h 0x10) .tap (aditAddr (reg.val * 8)) 8 data.toNat
/-- TAP_DBGWIN: the TAP writes CTL.DBGWIN; it needs no session (R340, R468). -/
def execTapDbgwin (v : Bool) (s : State) : Host.Outcome State Fault Refusal :=
  doHw s fun h => (selectIr h 0x12).wrB K.PCIE_CTL_DBGWIN v
/-- DEBUG_WINDOW_ACCESS. -/
def execDebugWindowAccess (wr : Bool) (off size data : Nat) (s : State) : Host.Outcome State Fault Refusal :=
  doHw s fun h => if hostReaches h 0 && decide (off < 0x400000) then windowAccess h wr off size data 0 else h
/-- ADIT_ATTACH. -/
def execAditAttach (face : Face) (s : State) : Host.Outcome State Fault Refusal :=
  doHw s fun h => aditWrite h face (aditAddr 0) 8 1
/-- ADIT_DETACH. -/
def execAditDetach (face : Face) (s : State) : Host.Outcome State Fault Refusal :=
  doHw s fun h => aditWrite h face (aditAddr 0) 8 0
/-- BUSCMD as it stands, with WRITE, GO and CANCEL replaced. -/
def busWord (h : Hw) (wr go cancel : Bool) : Nat :=
  regVal h (aditAddr 0x20) / 8 * 8 + 4 * b2n cancel + 2 * b2n wr + b2n go
/-- ADIT_PEEK. -/
def execAditPeek (face : Face) (s : State) : Host.Outcome State Fault Refusal :=
  doHw s fun h => aditWrite h face (aditAddr 0x20) 8 (busWord h false true false)
/-- ADIT_POKE. -/
def execAditPoke (face : Face) (s : State) : Host.Outcome State Fault Refusal :=
  doHw s fun h => aditWrite h face (aditAddr 0x20) 8 (busWord h true true false)
/-- ADIT_BUS_CANCEL. -/
def execAditBusCancel (face : Face) (s : State) : Host.Outcome State Fault Refusal :=
  doHw s fun h => aditWrite h face (aditAddr 0x20) 8 (busWord h (h.bit K.ADIT_BUSCMD_WRITE) false true)
/-- ADIT_BUS_RESPONSE. -/
def execAditBusResponse (s : State) : Host.Outcome State Fault Refusal := doHw s busArrives
/-- ADIT_HALT. -/
def execAditHalt (face : Face) (cores : Word) (s : State) : Host.Outcome State Fault Refusal :=
  doHw s fun h => aditWrite h face (aditAddr 0x40) 8 cores.toNat
/-- CORE_HALT_TAKE: at an instruction boundary outside a locked sequence. -/
def execCoreHaltTake (c : Core) (s : State) : Host.Outcome State Fault Refusal :=
  doHw s fun h =>
    if (h.rd K.ADIT_HALT_REQ).testBit c.val && !isHalted h c.val && !inSequence h c.val then haltCore h c.val else h
/-- HALT_DEFERRAL_TIMEOUT. -/
def execHaltDeferralTimeout (c : Core) (s : State) : Host.Outcome State Fault Refusal :=
  doHw s fun h =>
    if ((h.rd K.ADIT_HALT_REQ).testBit c.val || (h.core c.val).stepping) && !isHalted h c.val && inSequence h c.val then
      haltCore (breakLock h c.val) c.val
    else h
/-- ADIT_RUN. -/
def execAditRun (face : Face) (cores : Word) (s : State) : Host.Outcome State Fault Refusal :=
  doHw s fun h => aditWrite h face (aditAddr 0x48) 8 cores.toNat
/-- ADIT_STEP. -/
def execAditStep (face : Face) (c : Core) (s : State) : Host.Outcome State Fault Refusal :=
  doHw s fun h => aditWrite h face (aditAddr 0x60) 8 (64 + c.val)
/-- BREAKPOINT_HIT: outside a locked sequence the core halts; inside, the halt is deferred as R201 says. -/
def execBreakpointHit (c : Core) (s : State) : Host.Outcome State Fault Refusal :=
  doHw s fun h =>
    if mayRun h c.val && !isHalted h c.val && (h.core c.val).dev.isNone && atBreakpoint h c.val then
      if inSequence h c.val then
        (h.onCore c.val fun x => { x with skipBp := true }).wr K.ADIT_HALT_REQ (setBitAt (h.rd K.ADIT_HALT_REQ) c.val true)
      else haltCore h c.val
    else h
/-- ADIT_REG_WRITE: GREG0 to GREG31, and PC as number 32. -/
def execAditRegWrite (face : Face) (reg : Fin 33) (v : Word) (s : State) : Host.Outcome State Fault Refusal :=
  doHw s fun h => aditWrite h face (aditAddr (0x100 + reg.val * 8)) 8 v.toNat
/-- DTX_STORE. -/
def execDtxStore (c : Core) (v : BitVec 32) (s : State) : Host.Outcome State Fault Refusal :=
  doHw s fun h => storeDtx h c.val v.toNat
/-- DTX_RELEASE. -/
def execDtxRelease (face : Face) (c : Core) (s : State) : Host.Outcome State Fault Refusal :=
  doHw s fun h => aditWrite h face (K.ADIT_CORE_DTX_FULL c.val).addr 8 (2 ^ 63)
/-- DRX_WRITE. -/
def execDrxWrite (face : Face) (c : Core) (v : BitVec 32) (s : State) : Host.Outcome State Fault Refusal :=
  doHw s fun h => aditWrite h face (K.ADIT_CORE_DRX_FULL c.val).addr 8 v.toNat
/-- DRX_READ: only core c's own read takes the word. -/
def execDrxRead (c : Core) (m : Master) (s : State) : Host.Outcome State Fault Refusal :=
  doHw s fun h => if mayReadCsr m (K.ADIT_CORE_DRX_FULL c.val).addr then (readAdit h m (K.ADIT_CORE_DRX_FULL c.val).addr).2 else h
/-- ADIT_RESET_WARM. -/
def execAditResetWarm (face : Face) (s : State) : Host.Outcome State Fault Refusal :=
  doHw s fun h => aditWrite h face (aditAddr 0x30) 8 1
/-- ADIT_RESET_COLD. -/
def execAditResetCold (face : Face) (s : State) : Host.Outcome State Fault Refusal :=
  doHw s fun h => aditWrite h face (aditAddr 0x30) 8 3
/-- ADIT_RESET_DIE. -/
def execAditResetDie (face : Face) (d : Die) (s : State) : Host.Outcome State Fault Refusal :=
  doHw s fun h => aditWrite h face (aditAddr 0x30) 8 (8 * d.val + 5)

/-- CANARY_FEED (R483): 0x5A from the foreman reloads REMAIN; any other write that reaches the register is ignored and
logged. -/
def canaryFeed (h : Hw) (m : Master) (key : Nat) : Hw :=
  if m == .core 0 && key == 0x5A then reloadCanary h
  else logErr h srcReset (some m) .ignored 0 K.RST_CANARY_FEED_KEY.addr key
/-- CANARY_FEED. -/
def execCanaryFeed (m : Master) (key : Byte) (s : State) : Host.Outcome State Fault Refusal :=
  doHw s fun h => gated h m K.RST_CANARY_FEED_KEY.addr fun h => canaryFeed h m key.toNat
/-- CANARY_EXPIRY. -/
def execCanaryExpiry (s : State) : Host.Outcome State Fault Refusal :=
  doHw s fun h =>
    if hubRuns h && h.rd K.RST_CANARY_STAT_REMAIN = 0 && h.rst.request.isNone then
      requestReset (logEvent h srcReset 5 K.RST_CANARY_STAT_REMAIN.addr) false K.RST_CAUSE_CANARY
    else h

end Sys2Proof.Machine
end

