-- ==== Sys2Proof/Machine/Power.lean ====
section
/-!
DEFINITION. The power ladder, A3, temperature sensing and thermal management (R454 to R466), and the supplies of the user
I/O banks and of the lanes (R450, R506, R510).
-/
namespace Sys2Proof.Machine

/-- Change the power controller beyond its registers. -/
def onPwr (h : Hw) (f : Pwr → Pwr) : Hw := { h with pwr := f h.pwr }

/-- An event of the power controller posted to Q5 (R465). -/
def powerEvent (h : Hw) (code die arg1 : Nat) : Hw := postEvent h 5 (die * 256 + code) arg1 0 0

/-- STATE of the ladder. -/
def pwrState (h : Hw) : Nat := h.rd K.PWR_STAT_STATE

/-! ### Target (R454, R456) -/

/-- The foreman is in WAIT. -/
def foremanWaits (h : Hw) : Bool := match (h.core 0).dev with | some ⟨.wait _ _, _, none⟩ => true | _ => false

/-- Entry conditions of A1. -/
def a1Ok (h : Hw) : Bool :=
  ((List.range 63).all fun i => coreIdle h (i + 1)) && foremanWaits h && h.rd K.ADIT_HALTED_CORES == 0 &&
  loadStage h == stIdle && !cipherBusy h

/-- Entry conditions of A2 beyond those of A1. -/
def a2Ok (h : Hw) : Bool := (List.range 4).all fun n => chState h n != chTraining && chState h n != chRetrain

/-- Entry conditions of A3 beyond those of A2; a fence lift ends in its own step. -/
def a3Ok (h : Hw) : Bool :=
  h.bit K.PWR_PAUSE_PAUSE && (List.range 4).all fun n =>
    !dieResetting h n && !strataBusy h n && !h.bit (K.OUTPOST_FLSTAT_BUSY n)

/-- A tolerance in quarter nanoseconds; all ones is no limit. -/
def tolOf (v : Nat) : Nat := if v = 0xFFFFFFFF then 2 ^ 80 else 4 * v

/-- The tolerance in force, in quarter nanoseconds (R456). A tick of GRIDTIME is 5 of them. -/
def tolerance (h : Hw) : Nat :=
  let d := nextDeadline h
  let slack := if d = 2 ^ 64 - 1 then 2 ^ 80 else 5 * (d - h.now)
  let t2 := if hasGuest h then tolOf (h.rd (K.PWR_TOL_NS 2)) else 2 ^ 80
  min (min (tolOf (h.rd (K.PWR_TOL_NS 0))) (tolOf (h.rd (K.PWR_TOL_NS 1)))) (min t2 slack)

/-- Exit latency of a state in quarter nanoseconds. -/
def exitLatency : Nat → Nat
  | 0 => 0 | 1 => 8000 | 2 => 200000 | _ => 8000000

/-- A state may be chosen as far as its own latency and conditions go. -/
def stateOk (h : Hw) (s : Nat) : Bool :=
  decide (exitLatency s ≤ tolerance h ∧ s ≤ h.rd K.PWR_CTL_MAXSTATE) &&
  match s with | 0 => true | 1 => a1Ok h | 2 => a2Ok h | _ => a3Ok h

/-- The deepest state that meets its conditions and those of every shallower one. -/
def targetState (h : Hw) : Nat :=
  if !stateOk h 1 then 0 else if !stateOk h 2 then 1 else if !stateOk h 3 then 2 else 3

/-! ### Steps between A0, A1 and A2 -/

/-- Every active channel pays its owed refreshes and enters self-refresh (R397, R398). -/
def sleepDram (h : Hw) : Hw :=
  (List.range 4).foldl (fun h n =>
    if chState h n = chActive then (h.wr (K.DDR_C_STAT_OWED n) 0).wr (K.DDR_C_STAT_STATE n) chSelfref else h) h

/-- Trained channels leave self-refresh, unless the survey PLL runs on the IRO (R92). -/
def wakeDram (h : Hw) : Hw :=
  if h.bit K.CLK_STAT_XABSENT then h
  else (List.range 4).foldl (fun h n => if chState h n = chSelfref then h.wr (K.DDR_C_STAT_STATE n) chActive else h) h

/-- Lanes outside links that are UP or NOKEY lose power (R377). -/
def sleepLanes (h : Hw) : Hw :=
  let h := { h with bortik := { h.bortik with asleep := true } }
  (List.range 64).foldl (fun h l => if lkState h l != lkOff && decide (lkState h l < lkNokey) then rest h l else h) h

/-- The lanes are powered up. -/
def wakeLanes (h : Hw) : Hw := startLinks { h with bortik := { h.bortik with asleep := false } }

/-- STATE changes, and the change is posted. -/
def setPwrState (h : Hw) (s : Nat) : Hw := refreshFrozen (powerEvent (h.wr K.PWR_STAT_STATE s) 1 0 s)

/-- One state toward TARGET; A3 is entered and left by A3_ENTRY and A3_EXIT. -/
def powerStep (h : Hw) : Hw :=
  let s := pwrState h
  let t := h.rd K.PWR_STAT_TARGET
  if h.pwr.a3 != .out || !hubRuns h then h
  else if s = 0 ∧ 0 < t then setPwrState (h.wr K.PWR_STAT_AWAKE 0) 1
  else if s = 1 ∧ 1 < t then setPwrState (sleepLanes (sleepDram h)) 2
  else if s = 2 ∧ t < 2 then setPwrState (wakeLanes (wakeDram (h.wr K.PWR_STAT_AWAKE (h.rd K.PWR_STAT_AWAKE % 2)))) 1
  else if s = 1 ∧ t < 1 then setPwrState (h.wr K.PWR_STAT_AWAKE 0) 0
  else h

/-- A block powered down wakes when work arrives for it, and powers down again when it is idle (R455). -/
def blockWake (h : Hw) (b : WakeBlock) (awake : Bool) : Hw :=
  let aw := h.rd K.PWR_STAT_AWAKE
  match b with
  | .crew =>
    let idle := (List.range 63).all fun i => (h.core (i + 1)).item.isNone
    if pwrState h = 0 || idle == awake then h
    else refreshFrozen (h.wr K.PWR_STAT_AWAKE (setBitAt aw 0 awake))
  | .dram =>
    if pwrState h < 2 || h.dram.queue.isEmpty == awake then h
    else (if awake then wakeDram h else sleepDram h).wr K.PWR_STAT_AWAKE (setBitAt aw 1 awake)
  | .lanes =>
    let work := (List.range 64).any fun l => linkEn h l && lkState h l == lkOff
    if pwrState h < 2 then h
    else if awake then (if work then wakeLanes h else h)
    else sleepLanes h

/-! ### A3 (R457, R459) -/

/-- The 256 networks as 64n + m. -/
def allNets : List Nat := List.range 256

/-- Every aligned binding and remote seam channel is suspended without HELD (R127, R377). -/
def suspendBindings (h : Hw) : Hw :=
  let h := allBindings.foldl (fun h x =>
    if h.bit (K.SEAM_BIND_STAT_ALIGNED x.1 x.2.1 x.2.2) then unalign h x.1 x.2.1 x.2.2 else h) h
  (List.range 64).foldl (fun h l => h.wr (K.BORTIK_LINK_RSCSTAT_ALIGNED l) 0) h

/-- Steps 1 to 3, and VRET_N low. Entry waits for a strata operation in progress on any die (R169). -/
def a3Enter (h : Hw) : Hw :=
  if h.pwr.a3 != .out || !hubRuns h || pwrState h != 2 || h.rd K.PWR_STAT_TARGET != 3 ||
    (List.range 4).any (strataBusy h) then h
  else
    let h := onPwr (endSession (runDesign h) lostA3) fun p => { p with entering := true }
    let nets := allNets.filter fun x => !netHalted h (x / 64) (x % 64)
    let h := nets.foldl (fun h x => gateClosed h (x / 64) (x % 64)) h
    let plls := (List.range 64).filter fun x => h.pll (x / 16) (x % 16) != .stopped
    let h := suspendBindings h
    let h := plls.foldl (fun h x => (h.setPll (x / 16) (x % 16) .stopped).wr (K.CLK_PLL_STAT_LOCK (x / 16) (x % 16)) 0) h
    let h := (List.range 4).foldl refreshGlock h
    onPwr (h.wr K.PWR_STAT_RETSKIP 0) fun p => { p with a3 := .falling, closed := nets, stopped := plls }

/-- VCCINT reaches 0.58 V: the device is in A3. -/
def a3Reached (h : Hw) : Hw :=
  if h.pwr.a3 = .falling then setPwrState (onPwr h fun p => { p with a3 := .inside }) 3 else h

/-- VCCINT did not fall: the device is in A3 all the same. -/
def a3Skip (h : Hw) : Hw :=
  if h.pwr.a3 = .falling then powerEvent (a3Reached (h.wr K.PWR_STAT_RETSKIP 1)) 4 0 0 else h

/-- A request on the Gallery goes to a fabric port window or a stacked SRAM window. -/
def wantsFabric (q : GReq) : Bool := match regionOf q.addr with | .stack _ | .port _ _ => true | _ => false

/-- The exit causes of R459. -/
def exitCause (h : Hw) : Bool :=
  !h.bit K.PWR_PAUSE_PAUSE || decide (tolerance h < exitLatency 3) || decide (h.rd K.PWR_CTL_MAXSTATE < 3) ||
  h.gal.reqs.any wantsFabric || h.rst.request.isSome || h.rst.dieReq != 0

/-- Step 3 of the exit: the PLLs restart. -/
def a3Restart (h : Hw) : Hw :=
  let plls := h.pwr.stopped
  let h := plls.foldl (fun h x => startPll h (x / 16) (x % 16)) h
  onPwr h fun p => { p with a3 := .locking, stopped := [] }

/-- Every PLL that feeds a network closed for A3 has locked, and every binding and channel that can is aligned again. -/
def a3Ready (h : Hw) : Bool :=
  (h.pwr.closed.all fun x =>
    let c := (h.net (x / 64) (x % 64)).cur
    c == 0 || decide (0x40 < c) || h.pll (x / 64) ((c - 1) / 4) == .locked || h.pll (x / 64) ((c - 1) / 4) == .freeRunning) &&
  (allBindings.all fun x => !bindEn h x || !seamLive h x.1 || !bindOk h x.1 x.2.1 x.2.2 ||
    h.bit (K.SEAM_BIND_STAT_ALIGNED x.1 x.2.1 x.2.2) || !released h x.1 || !released h (farDie x.1)) &&
  (List.range 64).all fun l => !h.bit (K.BORTIK_LINK_RSC_EN l) || lkState h l != lkUp || !rscOk h l ||
    h.bit (K.BORTIK_LINK_RSCSTAT_ALIGNED l)

/-- The networks halted under R463 while their die is at level 2. -/
def thermalNets (h : Hw) : List Nat := h.pwr.thermal.flatMap (·.2)

/-- Step 5 of the exit: the gates closed for A3 reopen, and the device is in A2. -/
def a3Leave (h : Hw) : Hw :=
  let stay := thermalNets h
  let h := (h.pwr.closed.filter fun x => !stay.contains x).foldl (fun h x => openGate h (x / 64) (x % 64)) h
  let h := onPwr h fun p => { p with a3 := .out, entering := false, closed := [] }
  setPwrState h 2

/-- A3_EXIT: an exit cause raises VRET_N; once the PLLs run and the bindings are aligned the gates reopen. -/
def a3Exit (h : Hw) : Hw :=
  match h.pwr.a3 with
  | .falling | .inside => if exitCause h then onPwr h fun p => { p with a3 := .rising } else h
  | .locking => if a3Ready h then a3Leave h else h
  | _ => h

/-! ### Temperature (R460 to R464) -/

/-- Sensors of a die, coded as in R465. -/
def sensorCount (d : Nat) : Nat := if d < 4 then 64 else if d < 8 then 8 else 16

/-- A signed number of quarter degrees in 16 bits. -/
def quarterBits (t : Int) : Nat := (t % 65536).toNat

/-- A sensor reads outside −40 °C to 150 °C: it is excluded until a cold reset. -/
def sensorFails (h : Hw) (d i : Nat) : Hw :=
  let h := onPwr h fun p => { p with failed := p.failed ++ [256 * d + i], hot := p.hot.filter (· != 256 * d + i) }
  let h := h.cnt (K.PWR_TEMP_FAILED d)
  powerEvent (logEvent h srcPower 3 (K.PWR_TEMP_TEMP d).addr) 3 d i

/-- A thermal trip (R464). -/
def thermalTrip (h : Hw) (d i : Nat) (t : Int) : Hw :=
  let h := (h.wr K.PWR_TRIP_VALID 1).wr K.PWR_TRIP_DIE d
  let h := (h.wr K.PWR_TRIP_SENSOR i).wr K.PWR_TRIP_TEMP (quarterBits t)
  let h := { h with rst := { h.rst with thermHold := true } }
  requestReset h false K.RST_CAUSE_THERM

/-- One valid reading: two in a row at or above 110 °C trip. -/
def readSensor (h : Hw) (d i : Nat) (t : Int) : Hw :=
  let k := 256 * d + i
  if h.pwr.failed.contains k then h
  else if t < -160 ∨ 600 < t then sensorFails h d i
  else if 440 ≤ t then
    if h.pwr.hot.contains k then thermalTrip h d i t else onPwr h fun p => { p with hot := p.hot ++ [k] }
  else onPwr h fun p => { p with hot := p.hot.filter (· != k) }

/-- The hottest valid reading and its sensor, the lowest of equals. -/
def hottest (h : Hw) (d : Nat) (l : List Int) : Option (Int × Nat) :=
  l.zipIdx.foldl (fun best x =>
    if h.pwr.failed.contains (256 * d + x.2) then best
    else match best with
      | none => some x
      | some b => if b.1 < x.1 then some x else best) none

/-- The level of a die after a reading, from its level before (R461). -/
def nextLevel (h : Hw) (old : Nat) (t : Int) : Nat :=
  let w := (4 * h.rd K.PWR_CTL_WARN : Int)
  let x := (4 * h.rd K.PWR_CTL_THROTTLE : Int)
  if x ≤ t ∨ (old = 2 ∧ x - 12 < t) then 2
  else if w ≤ t ∨ (1 ≤ old ∧ w - 12 < t) then 1
  else 0

/-- The networks R463 halts for a die: those of THRNETS and every network of the packed domains they touch. -/
def throttleNets (h : Hw) (n : Nat) : List Nat :=
  let own := (bitList 64 (h.rd (K.PWR_THRNETS_NETS n))).map (64 * n + ·)
  let doms := own.filterMap fun x => pdomOf h (x / 64) (x % 64)
  (own ++ doms.flatMap (pdomNets h)).dedup

/-- Level 2 of a fabric die under MANAGED: its listed networks are halted, again at each sample where software let one run; those
the controller halted are recorded. In A3 they are halted already (R463, R466). -/
def thermalHalt (h : Hw) (n : Nat) : Hw :=
  if !h.bit K.PWR_CTL_MANAGED then h
  else
    let old := SMap.get h.pwr.thermal n []
    let now := (throttleNets h n).filter fun x => !netHalted h (x / 64) (x % 64) || h.pwr.closed.contains x
    let h := now.foldl (fun h x => closeGate h (x / 64) (x % 64)) h
    let h := onPwr h fun p => { p with thermal := SMap.set p.thermal n (old ++ now.filter (!old.contains ·)) [] }
    h.wr K.PWR_STAT_THALT (setBitAt (h.rd K.PWR_STAT_THALT) n true)

/-- The die returns to level 1: the networks the controller halted reopen as by CLKRUN, in A3 with its exit. -/
def thermalRelease (h : Hw) (n : Nat) : Hw :=
  let l := SMap.get h.pwr.thermal n []
  let h := onPwr h fun p => { p with thermal := SMap.erase p.thermal n }
  let h := h.wr K.PWR_STAT_THALT (setBitAt (h.rd K.PWR_STAT_THALT) n false)
  if inA3 h then onPwr h fun p => { p with closed := (p.closed ++ l).dedup }
  else l.foldl (fun h x =>
    let held := match pdomOf h (x / 64) (x % 64) with | some d => pdomHeld h d | none => false
    if held then h else openGate h (x / 64) (x % 64)) h

/-- A die takes its level; a change is posted. -/
def setLevel (h : Hw) (d lvl : Nat) : Hw :=
  let old := h.rd (K.PWR_TEMP_LEVEL d)
  let h := h.wr (K.PWR_TEMP_LEVEL d) lvl
  let h := if old = lvl then h else powerEvent h 2 d (h.rd (K.PWR_TEMP_TEMP d) * 65536 + lvl)
  if 4 ≤ d then h
  else if lvl = 2 then thermalHalt h d
  else if h.rd K.PWR_STAT_THALT / 2 ^ d % 2 = 1 then thermalRelease h d
  else h

/-- Every die's last temperature is at or below 90 °C (R464); 2^15 stands for 0 °C. -/
def coolEnough (h : Hw) : Bool := h.pwr.temps.all fun e => decide (e.2 ≤ 2 ^ 15 + 360)

/-- The sensors of a die are sampled. -/
def tempSample (h : Hw) (d : Nat) (l : List Int) : Hw :=
  if l.length ≠ sensorCount d then h
  else
    let h := l.zipIdx.foldl (fun h x => readSensor h d x.2 x.1) h
    match hottest h d l with
    | none =>
      let h := onPwr h fun p => { p with temps := SMap.erase p.temps d }
      setLevel (h.wr (K.PWR_TEMP_TEMP d) 0x7FFF) d 2
    | some (t, i) =>
      let h := onPwr h fun p => { p with temps := SMap.set p.temps d (2 ^ 15 + t).toNat 0 }
      let h := (h.wr (K.PWR_TEMP_TEMP d) (quarterBits t)).wr (K.PWR_TEMP_MAXIDX d) i
      let h := setLevel h d (nextLevel h (h.rd (K.PWR_TEMP_LEVEL d)) t)
      if h.rst.thermHold && coolEnough h && h.rst.request.isNone then { h with rst := { h.rst with thermHold := false } } else h

/-! ### User I/O banks (R450, R510) -/

/-- Die and bank of that die. -/
def bankDie (b : Nat) : Nat := b / 12
def bankJ (b : Nat) : Nat := b % 12

/-- VCCIO settings in mV by code. -/
def vccioMv (code : Nat) : Nat := match code with | 0 => 1000 | 1 => 1200 | 2 => 1500 | _ => 1800

/-- Distance of two numbers. -/
def gap (a b : Nat) : Nat := (a - b) + (b - a)

/-- The setting nearest to a measured voltage, the lower of equals. -/
def nearestVccio (mv : Nat) : Nat :=
  [1, 2, 3].foldl (fun best c => if gap mv (vccioMv c) < gap mv (vccioMv best) then c else best) 0

/-- A measured voltage does not fit a code. -/
def vccioBad (code mv : Nat) : Bool := nearestVccio mv != code || decide (8 * vccioMv code < 100 * gap mv (vccioMv code))

/-- A bank measures its VCCIO; a mismatch is judged once the bank has been committed. -/
def measureVccio (h : Hw) (b mv : Nat) : Hw :=
  let n := bankDie b
  let j := bankJ b
  let h := h.wr (K.IOBANK_STAT_VMEAS n j) mv
  let bad := h.pwr.banked.testBit b && vccioBad (h.rd (K.IOBANK_CFG_VCCIO n j)) mv
  let old := h.bit (K.IOBANK_STAT_VMISMATCH n j)
  let h := h.wrB (K.IOBANK_STAT_VMISMATCH n j) bad
  if bad && !old then logEvent h (srcDie n) 0 (K.IOBANK_STAT_VMISMATCH n j).addr else h

/-- VCCIO of a bank becomes good or fails. -/
def setVccio (h : Hw) (b : Nat) (good : Bool) : Hw :=
  let h := onPwr h fun p => { p with vccio := setBitAt p.vccio b good }
  h.wrB (K.IOBANK_STAT_VGOOD (bankDie b) (bankJ b)) good

/-- The states of a user I/O pin (R449, R450, R469). -/
inductive PinState where
  | highZ
  | fuse (code : Nat)
  /-- Held by the fence of its home sector (R305). -/
  | fenced
  /-- Driven by the design; in A3 with its values held. -/
  | design
  /-- Driven by the boundary register under EXTEST. -/
  | boundary
  deriving DecidableEq, Repr

/-- The state of the pins of a bank (R450); EXTEST overrides design and fuse state alike. -/
def bankPins (h : Hw) (b : Nat) : PinState :=
  let n := bankDie b
  let j := bankJ b
  if !h.pwr.vccio.testBit b || h.bit (K.IOBANK_STAT_VMISMATCH n j) then .highZ
  else if h.dbg.ir = 0 then .boundary
  else if !h.rst.sensed then .highZ
  else if !hubRuns h || h.bit (K.RST_DIE_INRESET n) || !released h n || h.pins.cfgErr then
    .fuse (bits (h.rd (K.RST_PINMAP_CODES (3 * b / 64)) + h.rd (K.RST_PINMAP_CODES (3 * b / 64 + 1)) * 2 ^ 64) (3 * b % 64 + 2) (3 * b % 64))
  else if h.bit (K.FENCE_SEC_FENCE n (homeSector j)) then .fenced
  else .design

/-- DONE, CFG_ERR_N and TRIG_OUT[3:0] as driven, TRIG_OUT between its pulses; none while they are high impedance, before step 1
of R441 (R452). -/
def statusPins (h : Hw) : Option (Bool × Bool × Nat) :=
  if h.rst.phase = .rails then none else some (h.pins.done, !h.pins.cfgErr, 0)

/-! ### The commands -/

/-- POWER_TARGET_UPDATE. -/
def execPowerTargetUpdate (s : State) : Host.Outcome State Fault Refusal :=
  doHw s fun h => if hubRuns h then h.wr K.PWR_STAT_TARGET (targetState h) else h
/-- POWER_STATE_STEP. -/
def execPowerStateStep (s : State) : Host.Outcome State Fault Refusal := doHw s powerStep
/-- A3_ENTRY. -/
def execA3Entry (s : State) : Host.Outcome State Fault Refusal := doHw s a3Enter
/-- VCCINT_AT_RETENTION. -/
def execVccintAtRetention (s : State) : Host.Outcome State Fault Refusal := doHw s a3Reached
/-- RETSKIP_TIMEOUT. -/
def execRetskipTimeout (s : State) : Host.Outcome State Fault Refusal := doHw s a3Skip
/-- A3_EXIT. -/
def execA3Exit (s : State) : Host.Outcome State Fault Refusal := doHw s a3Exit
/-- BLOCK_WAKE. -/
def execBlockWake (b : WakeBlock) (awake : Bool) (s : State) : Host.Outcome State Fault Refusal :=
  doHw s fun h => if hubRuns h then blockWake h b awake else h
/-- PAUSE_WRITE. -/
def execPauseWrite (m : Master) (v : Bool) (s : State) : Host.Outcome State Fault Refusal :=
  doHw s fun h => gated h m K.PWR_PAUSE_PAUSE.addr fun h => h.wrB K.PWR_PAUSE_PAUSE v
/-- TEMP_SAMPLE. -/
def execTempSample (die : Fin 9) (readings : List Int) (s : State) : Host.Outcome State Fault Refusal :=
  doHw s fun h => tempSample h die.val readings
/-- VCCIO_CHANGE. -/
def execVccioChange (b : Bank) (good : Bool) (s : State) : Host.Outcome State Fault Refusal :=
  doHw s fun h => setVccio h b.val good
/-- VCCIO_MEASURE. -/
def execVccioMeasure (b : Bank) (mv : Fin 4096) (s : State) : Host.Outcome State Fault Refusal :=
  doHw s fun h => measureVccio h b.val mv.val

/-- AVCC_LANE and AVTT_LANE become good, or one fails: links lose lock and end with LOL, and the PCI Express link goes down
(R506, R513). -/
def laneSupply (h : Hw) (good : Bool) : Hw :=
  let h := onPwr h fun p => { p with lanesGood := good }
  if good then startLinks h
  else
    let h := (List.range 64).foldl (fun h l => endLink h l dcLol) h
    if linkUp h then hotReset h else h
/-- LANE_SUPPLY_CHANGE. -/
def execLaneSupplyChange (good : Bool) (s : State) : Host.Outcome State Fault Refusal := doHw s fun h => laneSupply h good

end Sys2Proof.Machine
end

