-- ==== Sys2Proof/Machine/SeamCmds.lean ====
section
/-!
DEFINITION. The commands of the seams: training (R129 to R135), the eye monitor and sparing (R136 to R140), degrade plans
(R142 to R145), alignment (R124, R125) and rejoin (R146 to R148).
-/
namespace Sys2Proof.Machine

/-- STATE codes of R132. -/
def smOff : Nat := 0
def smReset : Nat := 1
def smPrbs : Nat := 2
def smReport : Nat := 3
def smMap : Nat := 4
def smLive : Nat := 5
def smDegrade : Nat := 6
def smQuar : Nat := 7
def smRejoin : Nat := 8
def smFailed : Nat := 9

/-- Both hub seams of the ends of the fabric seam of Fn are LIVE. -/
def endsLive (h : Hw) (n : Nat) : Bool := seamLive h (hubSeam n) && seamLive h (hubSeam (farDie n))

/-- A fabric seam starts training once both hub seams are LIVE; otherwise NOHUB is set (R129). -/
def trainFabric (h : Hw) (n : Nat) : Hw :=
  if seamState h n != smOff || !h.bit (K.SEAM_CTL_EN n) then h
  else if endsLive h n then trainStart h n
  else h.wr (K.SEAM_STAT_NOHUB n) 1

/-- FABRIC_SEAM_TRAIN_START. -/
def execFabricSeamTrainStart (n : Die) (s : State) : Host.Outcome State Fault Refusal :=
  doHw s fun h => trainFabric h n.val

/-- SEAM_RESET_DONE. -/
def execSeamResetDone (k : SeamId) (s : State) : Host.Outcome State Fault Refusal :=
  doHw s fun h => if stage h k.val == smReset then setStage h k.val smPrbs else h

/-- SEAM_PRBS_DONE: the receivers' findings; lanes not named have passed. While one has not, the seam stays in PRBS (R132). -/
def execSeamPrbsDone (r : PrbsReport) (s : State) : Host.Outcome State Fault Refusal :=
  doHw s fun h =>
    if stage h r.seam.val == smPrbs && r.tests.all (lanePasses h r.seam.val) then setStage h r.seam.val smReport else h

/-- SEAM_PRBS_TIMEOUT: the lanes that have not passed fail (R130, R132). -/
def execSeamPrbsTimeout (k : SeamId) (tests : List LaneTest) (s : State) : Host.Outcome State Fault Refusal :=
  doHw s fun h =>
    if stage h k.val == smPrbs then
      let h := (tests.filter fun t => !lanePasses h k.val t).foldl (fun h t =>
        h.onLane k.val (laneNo t.ln) fun x => { x with failed := true, noLock := !t.locked }) h
      setStage h k.val smReport
    else h

/-- A seam message with a bad CRC is ignored and counted (R135). -/
def badMessage (h : Hw) (k : Nat) : Hw := h.cnt (K.SEAM_STAT_CRCERR k)

/-- Whether an end of a seam and the link manager reach each other: those of a fabric seam through the end's hub seam, those of a
hub seam in band (R133). -/
def endReached (h : Hw) (k : Nat) (owner : Bool) : Bool :=
  !isFabric k || seamLive h (hubSeam (if owner then k else farDie k))

/-- MAP is sent to both ends (R132, R133). -/
def sendMap (h : Hw) (k : Nat) : Hw :=
  let body := mapBody h k
  h.onSeam k fun x => { x with mackOwner := false, mackFar := false, msg := some (.map body (crc16 body)) }

/-- SEAM_LRPT: the pass bits of the lanes of a direction, lane 0 in bit 0 of the first byte, and the message's CRC (R132 to
R135). -/
def execSeamLrpt (k : SeamId) (dir : Fin 2) (body : List Byte) (crc : BitVec 16) (s : State) :
    Host.Outcome State Fault Refusal :=
  doHw s fun h =>
    if !endReached h k.val (dir.val == 1) then h
    else if crc16 body != crc.toNat then badMessage h k.val
    else if stage h k.val != smReport then h
    else
      let h := h.onSeam k.val fun x =>
        if dir = 0 then { x with report0 := some (ofBytes body) } else { x with report1 := some (ofBytes body) }
      if (h.seamSt k.val).report0.isSome && (h.seamSt k.val).report1.isSome then
        setStage (sendMap (h.onSeam k.val fun x => { x with attempts := 0 }) k.val) k.val smMap
      else h

/-- SEAM_REPORT_TIMEOUT. -/
def execSeamReportTimeout (k : SeamId) (s : State) : Host.Outcome State Fault Refusal :=
  doHw s fun h => if stage h k.val == smReport then failSeam h k.val else h

/-- A quarantined fabric seam enters REJOIN once both its dies are out of reset and their hub seams LIVE (R147). One without a
record trains from scratch. -/
def startRejoin (h : Hw) (n : Nat) : Hw :=
  if seamState h n == smQuar && endsLive h n && dieUp h n && dieUp h (farDie n) then
    if (h.seamSt n).trained then (startLanes h n).wr (K.SEAM_STAT_STATE n) smRejoin else trainStart h n
  else h

/-- The fields of the ports of Fn: DIE.Fn.FPORT. -/
def portField (n id : Nat) : Bool := within (id / 64) (dieBase n + 0xF00000) (dieBase n + 0xF00200)

/-- Every register of the ports of Fn takes its D value at the end of a die reset (R34). -/
def portRegisters (h : Hw) (n : Nat) : Hw :=
  { h with csr := SMap.keep h.csr fun k _ => !portField n k }

/-- A flash operation that a reset cut short shows when the die starts (R64). -/
def flashReport (h : Hw) (n : Nat) : Hw :=
  if (h.die n).out.cut then
    (h.onOut n fun o => { o with cut := false }).wr (K.OUTPOST_FLSTAT_STATUS n) flInterrupted
  else h

/-- The hub seam of a die is LIVE again: a die reset ends (R438 step 4): its ports take their D values (R34), the scrubber
starts a new pass (R313), and the fabric seams rejoin (R147). -/
def dieResetEnds (h : Hw) (n : Nat) : Hw :=
  if !h.bit (K.RST_DIE_INRESET n) then h
  else
    let h := portRegisters (scrubRestart (h.wr (K.RST_DIE_INRESET n) 0) n) n
    startLinks (startRejoin (startRejoin (refreshOffline h n) n) ((n + 3) % 4))

/-- The map stands: the seam goes LIVE, and what waited for it goes on. -/
def seamUp (h : Hw) (k : Nat) : Hw :=
  let h := goLive h k
  if k < 4 then h
  else if seamLive h k then dieResetEnds (flashReport h (k - 4)) (k - 4) else h

/-- Whether a MACK echoes the CRC of the MAP that stands, as received and as computed (R133, R135). -/
def mackMatches (h : Hw) (k : Nat) (received computed : BitVec 16) : Bool := match (h.seamSt k).msg with
  | some (.map _ crc) => received.toNat == crc && computed.toNat == crc
  | _ => false

/-- SEAM_MACK: an end answers with the CRC it received and the CRC it computed (R132, R135). -/
def execSeamMack (k : SeamId) (owner : Bool) (received computed : BitVec 16) (s : State) :
    Host.Outcome State Fault Refusal :=
  doHw s fun h =>
    if !endReached h k.val owner then h
    else if received ≠ computed then badMessage h k.val
    else if stage h k.val != smMap || !mackMatches h k.val received computed then h
    else
      let h := h.onSeam k.val fun x => if owner then { x with mackOwner := true } else { x with mackFar := true }
      if !(h.seamSt k.val).mackOwner || !(h.seamSt k.val).mackFar then h
      else
        let h := h.onSeam k.val fun x => { x with msg := some .go }
        if seamState h k.val == smRejoin then setStage h k.val 5 else seamUp h k.val

/-- SEAM_MAP_TIMEOUT: MAP is sent again, or the seam fails after three attempts (R132). -/
def execSeamMapTimeout (k : SeamId) (s : State) : Host.Outcome State Fault Refusal :=
  doHw s fun h =>
    if stage h k.val != smMap then h
    else
      let h := sendMap (h.onSeam k.val fun x => { x with attempts := x.attempts + 1 }) k.val
      if 3 ≤ (h.seamSt k.val).attempts then failSeam h k.val else h

/-! ### The eye monitor (R136 to R140) -/

/-- A hub seam that has failed takes the die's fabric ports with it: what they owe completes with OFFLINE (R34, R128). -/
def hubGone (h : Hw) (k : Nat) : Hw := if !isFabric k && seamState h k == smFailed then portsOffline h (k - 4) else h

/-- A lane of a seam exists in its block: hub seams have 64 groups. -/
def laneExists (k : Nat) (l : LaneRef) : Bool := decide (l.g.val < seamGroups k)

/-- Whether a lane carries packed data of its group: a data lane, or the spare in use (R136). -/
def lanePacked (h : Hw) (k : Nat) (l : LaneRef) : Bool :=
  packN (h.rd (K.SEAM_GRP_STAT_AMODE k l.dir.val l.g.val)) != 0 && !isRetired h k l.dir.val l.g.val &&
    (l.lane.val != 16 || h.rd (K.SEAM_GRP_STAT_SPARE k l.dir.val l.g.val) == 2)

/-- EYEWARN: one event per excursion below the threshold (R136). -/
def eyeWarn (h : Hw) (k : Nat) (l : LaneRef) (margin : Nat) : Hw :=
  let warn := h.rd (K.SEAM_CTL_EYEWARN k)
  let x := h.lane k (laneNo l)
  if margin < warn then
    if x.warned then h
    else postOpen (logEvent (h.onLane k (laneNo l) fun x => { x with warned := true }) srcSeam 0 (seamBase k + 8)) 2
  else if warn + 4 ≤ margin then h.onLane k (laneNo l) fun x => { x with warned := false }
  else h

/-- A lane fails abruptly: its slots present their last good value, LOSSY, the log, and the spare or retirement (R138). -/
def abruptFail (h : Hw) (k : Nat) (l : LaneRef) (lostLock : Bool) : Hw :=
  let h := (snapSeam (runDesign h) k).onSeam k fun s => { s with frozen := laneNo l :: s.frozen }
  let h := (h.wr (K.SEAM_GRP_STAT_LOSSY k l.dir.val l.g.val) 1).wr (K.SEAM_STAT_LOSSY k) 1
  let h := h.onLane k (laneNo l) fun x => { x with noLock := lostLock }
  laneFails (logEvent h srcSeam 0 (seamBase k + 8)) k l

/-- One lane's measurement is recorded (R136). -/
def measureLane (h : Hw) (k : Nat) (x : EyeSample) : Hw :=
  let i := laneNo x.ln
  let low := decide (x.margin.val < h.rd (K.SEAM_CTL_EYESWAP k))
  let h := h.onLane k i fun y => { y with
    margin := x.margin.val, minMargin := min y.minMargin x.margin.val, errs := satAdd 32 y.errs x.errs
    below := if low then y.below + 1 else 0 }
  let h := if lanePacked h k x.ln then h.addSat (K.SEAM_GRP_STAT_PERR k x.ln.dir.val x.ln.g.val) x.errs else h
  eyeWarn h k x.ln x.margin.val

/-- The parity rule makes a lane fail abruptly; PERSIST measurements below EYESWAP make it fail (R136). -/
def laneAbrupt (h : Hw) (k : Nat) (x : EyeSample) : Bool := lanePacked h k x.ln && decide (16 ≤ x.errs)
def laneFailing (h : Hw) (k : Nat) (x : EyeSample) : Bool :=
  decide (x.margin.val < h.rd (K.SEAM_CTL_EYESWAP k)) && decide (h.rd (K.SEAM_CTL_PERSIST k) ≤ (h.lane k (laneNo x.ln)).below)

/-- Put a sample in its place: the lower margin first, and on a tie the lower lane (R139). -/
def placeSample (x : EyeSample) : List EyeSample → List EyeSample
  | [] => [x]
  | y :: r => if x.margin < y.margin ∨ (x.margin = y.margin ∧ x.ln.lane < y.ln.lane) then x :: y :: r else y :: placeSample x r

/-- A measurement of lanes of a seam (R136, R139): all are recorded, and then those that fail are dealt with in order. -/
def measureLanes (h : Hw) (k : Nat) (lanes : List EyeSample) : Hw :=
  let lanes := lanes.filter fun x => laneExists k x.ln && !(h.lane k (laneNo x.ln)).failed
  let h := lanes.foldl (fun h x => measureLane h k x) h
  ((lanes.filter fun x => laneAbrupt h k x || laneFailing h k x).foldr placeSample []).foldl
    (fun g x => if laneAbrupt h k x then abruptFail g k x.ln false else laneFails g k x.ln) h

/-- EYE_MEASURE: lanes of one group, each with its margin and its errors. -/
def execEyeMeasure (k : SeamId) (dir : Fin 2) (g : Fin 128) (lanes : List (Fin 17 × Fin 64 × Nat)) (s : State) :
    Host.Outcome State Fault Refusal :=
  doHw s fun h =>
    if seamLive h k.val then hubGone (measureLanes h k.val (lanes.map fun x => ⟨⟨dir, g, x.1⟩, x.2.1, x.2.2⟩)) k.val else h

/-- SPARE_SWAP_COMPLETE: the receiver switches to the spare (R137). -/
def execSpareSwapComplete (k : SeamId) (dir : Fin 2) (g : Fin 128) (s : State) : Host.Outcome State Fault Refusal :=
  doHw s fun h =>
    match swapping h k.val dir.val g.val with
    | none => h
    | some l =>
      let h := (runDesign h).onSeam k.val fun x => { x with
        swaps := SMap.erase x.swaps (dir.val * 128 + g.val)
        frozen := x.frozen.filter (· != dir.val * 2304 + 17 * g.val + l) }
      let h := (h.wr (K.SEAM_GRP_STAT_SPARE k.val dir.val g.val) 2).wr (K.SEAM_GRP_STAT_SPARELANE k.val dir.val g.val) l
      h.wr (K.SEAM_GRP_STAT_GSTATE k.val dir.val g.val) (groupState h k.val dir.val g.val)

/-- LANE_ABRUPT_FAIL. -/
def execLaneAbruptFail (k : SeamId) (ln : LaneRef) (s : State) : Host.Outcome State Fault Refusal :=
  doHw s fun h =>
    if (seamLive h k.val || seamState h k.val == smDegrade) && laneExists k.val ln && !(h.lane k.val (laneNo ln)).failed then
      hubGone (abruptFail h k.val ln true) k.val
    else h

/-- DEGRADE_PLAN_APPLY. -/
def execDegradePlanApply (n : Die) (s : State) : Host.Outcome State Fault Refusal :=
  doHw s fun h => if (h.seamSt n.val).planDue && seamState h n.val == smDegrade then applyPlan h n.val else h

/-! ### Alignment (R124, R125) -/

/-- The offset of the stake counters of a binding's networks, modulo 2^48 (R108, R120). -/
def bindOffset (h : Hw) (x : Nat × Nat × Nat) : Nat :=
  let stake (i : Nat) : Nat := (h.net (i / 64) (i % 64)).stake
  (stake (rxNet h x) + 2 ^ 48 - stake (txNet h x)) % 2 ^ 48

/-- A binding aligns: DELTA, the offset of its two stake counters, is recorded, its groups go live, and its domain is released
when every binding of it is aligned (R120, R124, R125). -/
def alignBinding (h : Hw) (n d b : Nat) : Hw :=
  let delta := bindOffset h (n, d, b)
  let i := d * 16 + b
  let old := SMap.get (h.seamSt n).deltas i 0
  let h := h.onSeam n fun x => { x with deltas := SMap.set x.deltas i (delta + 1) 0 }
  let h := (bindStat h n d b).wr (K.SEAM_BIND_STAT_DELTA n d b) delta
  let h := h.wr (K.SEAM_BIND_STAT_ALIGNED n d b) 1
  let h := if old ≠ 0 ∧ old ≠ delta + 1 then logEvent h srcSeam 0 (K.SEAM_BIND_STAT_DELTA n d b).addr else h
  tryRelease (setBindGroups h n d b gLive) (bindPdom h (n, d, b)) (h.bit (K.SEAM_CTL_AUTORUN n))

/-- BINDING_ALIGN: the seam marks an edge and finds DELTA; no other than the offset of the counters can be found. -/
def execBindingAlign (n : Die) (dir : Fin 2) (b : Fin 16) (delta : BitVec 48) (s : State) : Host.Outcome State Fault Refusal :=
  doHw s fun h =>
    let x := (n.val, dir.val, b.val)
    if seamLive h n.val && bindEn h x && !h.bit (K.SEAM_BIND_STAT_ALIGNED n.val dir.val b.val) && bindOk h n.val dir.val b.val &&
      released h n.val && released h (farDie n.val) && bindOffset (runDesign h) x == delta.toNat then
      alignBinding (runDesign h) n.val dir.val b.val
    else h

/-- SEAM_REJOIN: the new map stands, and is compared with the recorded one; or the 650 µs of REJOIN have passed without it, and
the seam fails (R132, R147). -/
def execSeamRejoin (n : Die) (late : Bool) (s : State) : Host.Outcome State Fault Refusal :=
  doHw s fun h =>
    if seamState h n.val ≠ smRejoin then h
    else if late then failSeam h n.val
    else if stage h n.val == 5 then rejoinSeam h n.val else h

end Sys2Proof.Machine
end

