-- ==== Sys2Proof/Machine/StrataCmds.lean ====
section
/-!
DEFINITION. The commands of the strata engines: triggers, captures, drains, deep drains and restores (R150 to R169).
-/
namespace Sys2Proof.Machine

/-- SOURCE codes of R160. -/
def tsLine : Nat := 0
def tsCrew : Nat := 1
def tsAdit : Nat := 2
def tsHost : Nat := 3
def tsPin : Nat := 4

/-- The hub registers a trigger; it is on its way to every die it names (R151). -/
def registerTrigger (h : Hw) (source origin profile dies master : Nat) : Hw :=
  if dies % 16 = 0 then h
  else
    let t : Trigger := ⟨h.now, source, origin, profile % 8, dies % 16, none, master⟩
    { h with strata := { h.strata with inFlight := h.strata.inFlight ++ [t] } }

/-- A rising edge on fabric trigger line i of die n (R151). -/
def fabricTrigger (h : Hw) (n i : Nat) : Hw :=
  if !dieUp h n || !released h n || !h.bit (K.STRATA_TRIG_EN n i) ||
    isFenced h n (SitePin.trig i).sector then h
  else registerTrigger h tsLine (16 * n + i) (h.rd (K.STRATA_TRIG_PROFILE n i)) (h.rd (K.STRATA_TRIG_DIES n i)) 0

/-- FABRIC_TRIGGER. -/
def execFabricTrigger (d : Die) (line : Fin 16) (s : State) : Host.Outcome State Fault Refusal :=
  doHw s fun h => fabricTrigger h d.val line.val

/-- TRIG_IN_PIN. -/
def execTrigInPin (j : Fin 4) (s : State) : Host.Outcome State Fault Refusal :=
  doHw s fun h =>
    if h.bit (K.STRATA_TPIN_EN j.val) then
      registerTrigger h tsPin j.val (h.rd (K.STRATA_TPIN_PROFILE j.val)) (h.rd (K.STRATA_TPIN_DIES j.val)) 0
    else h

/-- A write of HTRIG with GO = 1 (R151). The sources are the host, a crew core and Adit. -/
def htrig (h : Hw) (m : Master) (dies profile : Nat) : Hw :=
  match m with
  | .core c => registerTrigger h tsCrew c.val profile dies (mcode m)
  | .adit => registerTrigger h tsAdit 0 profile dies (mcode m)
  | .host _ => registerTrigger h tsHost 0 profile dies (mcode m)
  | _ => h

/-- HTRIG_WRITE. -/
def execHtrigWrite (m : Master) (d : Die) (dies : BitVec 4) (profile : Fin 8) (s : State) :
    Host.Outcome State Fault Refusal :=
  doHw s fun h => gated h m (K.STRATA_HTRIG_GO d.val).addr fun h => htrig h m dies.toNat profile.val

/-- A registered trigger reaches die n, which leaves its record; the last die to be reached removes it. -/
def triggerArrives (h : Hw) (n i : Nat) : Hw :=
  match h.strata.inFlight[i]? with
  | some t =>
    if !t.dies.testBit n then h
    else
      let (h, t, _, _) := arriveTrigger h n t
      let t := { t with dies := setBitAt t.dies n false }
      let l := if t.dies = 0 then h.strata.inFlight.eraseIdx i else h.strata.inFlight.set i t
      { h with strata := { h.strata with inFlight := l } }
  | none => h

/-- TRIGGER_ARRIVAL. -/
def execTriggerArrival (d : Die) (i : Nat) (s : State) : Host.Outcome State Fault Refusal :=
  doHw s fun h => triggerArrives h d.val i

/-- CAPTURE_NETWORK. -/
def execCaptureNetwork (d : Die) (m : Net) (s : State) : Host.Outcome State Fault Refusal :=
  doHw s fun h => captureEdge h d.val m.val

/-- CAPTURE_WAIT_TIMEOUT. -/
def execCaptureWaitTimeout (d : Die) (m : Net) (s : State) : Host.Outcome State Fault Refusal :=
  doHw s fun h => captureMissing h d.val m.val

/-- STRATA_DRAIN_START. -/
def execStrataDrainStart (d : Die) (s : State) : Host.Outcome State Fault Refusal :=
  doHw s fun h => startDrain h d.val

/-- STRATA_DRAIN_COMPLETE. -/
def execStrataDrainComplete (d : Die) (s : State) : Host.Outcome State Fault Refusal :=
  doHw s fun h => servePorts (finishDrain h d.val) d.val

/-- The core that waits for a DRAIN or a RESTORE of die n gets its status (R235). -/
def strataAnswers (h : Hw) (n st : Nat) : Hw :=
  allCores.foldl (fun h c => match (h.core c.val).dev with
    | some ⟨.drain d, _, none⟩ => if d.val = n then finishDev h c (BitVec.ofNat 64 st) else h
    | some ⟨.restore d, _, none⟩ => if d.val = n then finishDev h c (BitVec.ofNat 64 st) else h
    | _ => h) h

/-- DEEP_DRAIN_COMPLETE. -/
def execDeepDrainComplete (d : Die) (s : State) : Host.Outcome State Fault Refusal :=
  doHw s fun h => match (h.die d.val).strata with
    | .deep slot dest pos => strataAnswers (finishDeep h d.val slot dest pos) d.val stOk
    | _ => h

/-- RESTORE_COMPLETE. -/
def execRestoreComplete (d : Die) (s : State) : Host.Outcome State Fault Refusal :=
  doHw s fun h => match (h.die d.val).strata with
    | .restore slot mask deep _ _ =>
      let (h, st) := finishRestore h d.val slot mask deep
      strataAnswers (servePorts (refreshSites h d.val) d.val) d.val st
    | _ => h

end Sys2Proof.Machine
end

