-- ==== Sys2Proof/Machine/Commit.lean ====
section
/-!
DEFINITION. Commit groups (R221), the coupled checks of each group and what a COMMIT of it does (R220 to R223, R301, R302),
and the commands CFG_COMMIT_GO and COMMIT_DEFERRED_APPLY.
-/
namespace Sys2Proof.Machine

/-- The commit groups of R221. -/
inductive Group where
  | fport (n : Nat)
  | fpll (n i : Nat)
  | clknet (n : Nat)
  | seamf (n : Nat)
  | pdom (n : Nat)
  | strata (n : Nat)
  | iobank (n j : Nat)
  | ddr (n : Nat)
  | quad (q : Nat)
  | bortik
  | pcie
  | ciph
  | pwr
  | guest
  deriving DecidableEq, Repr

/-- The group a code names; none for a reserved kind or index, and on a device without a guest site for GUEST. -/
def groupOf (h : Hw) (code : Nat) : Option Group :=
  let kind := bits code 11 6
  let idx := bits code 5 0
  let n := bits code 13 12
  if code.testBit 15 then
    if n ≠ 0 then none
    else match kind with
      | 0 => if idx < 4 then some (.ddr idx) else none
      | 1 => if idx < 16 then some (.quad idx) else none
      | 2 => if idx = 0 then some .bortik else none
      | 3 => if idx = 0 then some .pcie else none
      | 4 => if idx = 0 then some .ciph else none
      | 5 => if idx = 0 then some .pwr else none
      | 6 => if idx = 0 ∧ hasGuest h then some .guest else none
      | _ => none
  else match kind with
    | 0 => if idx = 0 then some (.fport n) else none
    | 1 => if idx < 16 then some (.fpll n idx) else none
    | 2 => if idx = 0 then some (.clknet n) else none
    | 3 => if idx = 0 then some (.seamf n) else none
    | 4 => if idx = 0 then some (.pdom n) else none
    | 5 => if idx = 0 then some (.strata n) else none
    | 6 => if idx < 12 then some (.iobank n idx) else none
    | _ => none

/-- The die of a die group. -/
def Group.die : Group → Option Nat
  | .fport n | .fpll n _ | .clknet n | .seamf n | .pdom n | .strata n | .iobank n _ => some n
  | _ => none

/-- A covered group: its applied values enter the hub configuration digest (R320). -/
def Group.covered : Group → Bool
  | .fport _ | .fpll _ _ | .clknet _ | .seamf _ | .pdom _ | .iobank _ _ => true
  | _ => false

/-- Whether a group is busy: a COMMIT returns DEFERRED (R168, R402, R398 and the collisions of each chapter). -/
def groupBusy (h : Hw) : Group → Bool
  | .strata n => strataBusy h n
  | .ddr n => chState h n == chRetrain
  | .ciph => cipherBusy h
  | .pwr => h.pwr.a3 != .out && h.pwr.a3 != .inside || h.pwr.entering
  | _ => false

/-- Every ST field of a register takes its staged value. -/
def applyReg (h : Hw) (addr : Nat) : Hw :=
  (fieldsAt addr).foldl (fun h f => if f.acc = .st then h.wr f.key (h.sh f.key) else h) h
/-- The registers of a list take their staged values. -/
def applyRegs (h : Hw) (l : List Nat) : Hw := l.foldl applyReg h
/-- Clamp a field to 0 where a condition holds. -/
def clampIf (h : Hw) (b : Bool) (k : Key) (r : Reason) (v : Nat) : Hw := if b then clampSh h k r v else h
/-- A dependent field may not exceed a limit. -/
def clampMax (h : Hw) (k : Key) (v : Nat) : Hw := clampIf h (decide (v < h.sh k)) k .coupled v
/-- A dependent field may not fall below a limit. -/
def clampMin (h : Hw) (k : Key) (v : Nat) : Hw := clampIf h (decide (h.sh k < v)) k .coupled v

/-! ### Die groups -/

/-- FPORT (R28, R34). -/
def commitFport (h : Hw) (n : Nat) : Hw :=
  (List.range 8).foldl (fun h p =>
    let k := K.FPORT_CTL_FUNC n p
    applyReg (clampIf h (h.sh k != 0 && !funcOn h (h.sh k)) k .absent 0) k.addr) h

/-- FPLLi (R99, R100). -/
def commitPll (h : Hw) (n i : Nat) : Hw :=
  let view (h : Hw) : List Nat := [h.rd (K.CLK_PLL_REF_REFSEL n i), h.rd (K.CLK_PLL_REF_REFKHZ n i),
    h.rd (K.CLK_PLL_REF_REFPIN n i), h.rd (K.CLK_PLL_MUL_D n i), h.rd (K.CLK_PLL_MUL_M n i)]
  let h := runDesign h
  let old := view h
  let h := applyReg h (K.CLK_PLL_REF_REFSEL n i).addr
  let os := (List.range 4).map fun k => h.sh (K.CLK_PLL_OUT_O n i k)
  let (d, m, os) := pllClamp (pllRef h n i) (h.sh (K.CLK_PLL_MUL_D n i)) (h.sh (K.CLK_PLL_MUL_M n i)) os
  let h := clampSh h (K.CLK_PLL_MUL_D n i) .coupled d
  let h := clampSh h (K.CLK_PLL_MUL_M n i) .coupled m
  let h := (os.zipIdx).foldl (fun h x => clampSh h (K.CLK_PLL_OUT_O n i x.2) .coupled x.1) h
  let h := applyRegs h ((K.CLK_PLL_MUL_M n i).addr :: (List.range 4).map fun k => (K.CLK_PLL_OUT_O n i k).addr)
  let h := if h.pll n i = .stopped ∨ view h ≠ old then startPll h n i else h
  clocksChanged h n

/-- CLKNET (R103 to R107). -/
def commitNets (h : Hw) (n : Nat) : Hw :=
  let h := applyRegs (runDesign h) ((List.range 64).map fun m => (K.CLK_NET_SRC_SRC0 n m).addr)
  clocksChanged (refreshSites ((List.range 64).foldl (fun h m => trySwitch h n m) h) n) n

/-- The eye thresholds of a seam are coupled (SEAM.CTL). -/
def clampEyes (h : Hw) (k : Nat) : Hw :=
  let h := clampMax h (K.SEAM_CTL_EYEWARN k) (h.sh (K.SEAM_CTL_EYEMIN k))
  clampMax h (K.SEAM_CTL_EYESWAP k) (h.sh (K.SEAM_CTL_EYEWARN k))

/-- Whether the networks of a binding, from its staged fields, lie in its packed domain on both dies (R123). -/
def bindNetsOk (h : Hw) (n d b : Nat) : Bool :=
  let p := h.sh (K.SEAM_BIND_CFG_PDOM n d b)
  (h.rd (K.PDOM_NETS_NETS (sendDie n d) p)).testBit (h.sh (K.SEAM_BIND_CFG_TXNET n d b)) &&
  (h.rd (K.PDOM_NETS_NETS (recvDie n d) p)).testBit (h.sh (K.SEAM_BIND_CFG_RXNET n d b))

/-- A binding's networks and domain, its EN, and the groups bound to it with their modes, as applied. -/
def bindView (h : Hw) (n d b : Nat) : List Nat :=
  h.rd (K.SEAM_BIND_CFG_EN n d b) :: h.rd (K.SEAM_BIND_CFG_TXNET n d b) :: h.rd (K.SEAM_BIND_CFG_RXNET n d b) ::
    h.rd (K.SEAM_BIND_CFG_PDOM n d b) ::
    (bindGroups h n d b).flatMap fun g => [g, cmode h n d g, h.rd (K.SEAM_GRP_CFG_FENCE n d g)]

/-- Domains, their KMIN and the bindings follow a change of bindings or modes: an aligned binding that no longer meets R124
holds its domain; one that changed realigns (R124, R125). -/
def rebind (h : Hw) (changed : List (Nat × Nat × Nat)) : Hw :=
  let h := (List.range 64).foldl refreshKmin h
  let h := checkBindings h
  changed.foldl (fun h x =>
    if h.bit (K.SEAM_BIND_STAT_ALIGNED x.1 x.2.1 x.2.2) then unalign h x.1 x.2.1 x.2.2 else h) h

/-- EN of a fabric seam changes at a COMMIT: 1 to 0 puts it in OFF, where retired groups stay retired; 0 to 1 retrains from
scratch (SEAM.CTL, R132, R140). -/
def seamEnable (h : Hw) (n : Nat) (was : Bool) : Hw :=
  let now := h.bit (K.SEAM_CTL_EN n)
  if was && !now then
    let h := holdSeamDomains (snapSeam (runDesign h) n) n
    let h := (List.range 2).foldl (fun h d => (List.range 128).foldl (fun h g =>
      if isRetired h n d g then h else h.wr (K.SEAM_GRP_STAT_GSTATE n d g) gOff) h) h
    (h.onSeam n fun s => { s with swaps := [], frozen := [], planDue := false }).wr (K.SEAM_STAT_STATE n) smOff
  else if !was && now then trainFabric (h.wr (K.SEAM_STAT_STATE n) smOff) n
  else h

/-- SEAMF (R122, R123, R141, R149); the staged fields of the die's hub seam belong to it too. -/
def commitSeam (h : Hw) (n : Nat) : Hw :=
  let mine := allBindings.filter fun x => x.1 == n
  let old := mine.map fun x => bindView h x.1 x.2.1 x.2.2
  let was := h.bit (K.SEAM_CTL_EN n)
  let h := snapSeam (runDesign h) n
  let h := clampEyes (clampEyes h n) (hubSeam n)
  let h := mine.foldl (fun h x =>
    let k := K.SEAM_BIND_CFG_EN x.1 x.2.1 x.2.2
    clampIf h (h.sh k == 1 && !bindNetsOk h x.1 x.2.1 x.2.2) k .coupled 0) h
  let h := (List.range 2).foldl (fun h d => (List.range 128).foldl (fun h g =>
    let k := K.SEAM_GRP_CFG_MODE n d g
    clampIf h (packN (h.sh k) != 0 && h.sh (K.SEAM_BIND_CFG_EN n d (h.sh (K.SEAM_GRP_CFG_BIND n d g))) == 0) k .coupled 0) h) h
  let regs := (K.SEAM_CTL_EN n).addr :: (K.SEAM_CTL_PERSIST (hubSeam n)).addr ::
    ((List.range 2).flatMap fun d => (List.range 128).map fun g => (K.SEAM_GRP_CFG_MODE n d g).addr) ++
    mine.map fun x => (K.SEAM_BIND_CFG_EN x.1 x.2.1 x.2.2).addr
  let h := applyRegs h regs
  let h := ((h.seamSt n).plans.filter fun p => planSet p && !planUsable h n p).foldl
    (fun h _ => logEvent h srcSeam 0 (seamBase n + 8)) h
  let changed := (mine.zip old).filterMap fun x => if bindView h x.1.1 x.1.2.1 x.1.2.2 == x.2 then none else some x.1
  let h := seamEnable h n was
  let h := if seamLive h n then refreshGroups h n else h
  rebind h changed

/-- Clear a binding's EN and the MODE of its packed groups, applied and staged (R123). -/
def dropBinding (h : Hw) (x : Nat × Nat × Nat) : Hw :=
  let (n, d, b) := x
  let clear (h : Hw) (k : Key) : Hw := logClamp (h.wrBoth k 0) k .coupled (h.rd k) 0
  let gs := bindGroups h n d b
  gs.foldl (fun h g => clear h (K.SEAM_GRP_CFG_MODE n d g)) (clear h (K.SEAM_BIND_CFG_EN n d b))

/-- PDOM of a die (R123): a network stays in the lowest domain that names it; bindings whose networks leave their domain are
cleared. -/
def commitPdom (h : Hw) (n : Nat) : Hw :=
  let (h, _) := (List.range 64).foldl (fun (acc : Hw × Nat) d =>
    let (h, seen) := acc
    let k := K.PDOM_NETS_NETS n d
    let v := h.sh k
    (clampIf h (v &&& seen != 0) k .exclusive (v - (v &&& seen)), seen ||| v)) (h, 0)
  let h := applyRegs h ((List.range 64).map fun d => (K.PDOM_NETS_NETS n d).addr)
  let applied (x : Nat × Nat × Nat) : Bool :=
    let p := bindPdom h x
    (h.rd (K.PDOM_NETS_NETS (sendDie x.1 x.2.1) p)).testBit (h.rd (K.SEAM_BIND_CFG_TXNET x.1 x.2.1 x.2.2)) &&
    (h.rd (K.PDOM_NETS_NETS (recvDie x.1 x.2.1) p)).testBit (h.rd (K.SEAM_BIND_CFG_RXNET x.1 x.2.1 x.2.2))
  let lost := allBindings.filter fun x => (x.1 == n || farDie x.1 == n) && bindEn h x && !applied x
  let h := lost.foldl (fun h x => unalign (dropBinding h x) x.1 x.2.1 x.2.2) h
  let h := (lost.map (·.1)).dedup.foldl (fun h k => if seamLive h k then refreshGroups h k else h) h
  rebind h []

/-- STRATA of a die; F0's holds the trigger pins too (R151, R168). -/
def commitStrata (h : Hw) (n : Nat) : Hw :=
  let old := h.rd (K.STRATA_CTL_DEPTH n)
  let regs := (K.STRATA_CTL_DEPTH n).addr :: ((List.range 8).map fun p => (K.STRATA_PROF_NETS n p).addr) ++
    ((List.range 16).map fun i => (K.STRATA_TRIG_EN n i).addr) ++
    (if n = 0 then (List.range 4).map fun j => (K.STRATA_TPIN_EN j).addr else [])
  let h := applyRegs h regs
  if h.rd (K.STRATA_CTL_DEPTH n) = old then h else emptyRing h n old

/-- Whether R507 permits a standard at a VCCIO code: 0 1.0 V, 1 1.2 V, 2 1.5 V, 3 1.8 V. -/
def stdPermitted (std vccio : Nat) : Bool :=
  match std with
  | 2 | 3 | 7 | 8 => decide (1 ≤ vccio)
  | 4 | 9 => vccio == 1
  | 5 => decide (2 ≤ vccio)
  | 6 => decide (vccio ≤ 1)
  | _ => true
/-- A differential standard. -/
def stdDiff (std : Nat) : Bool := decide (5 ≤ std ∧ std ≤ 9)

/-- IOBANKj (R507, R509, R510): the odd pin of a differential pair takes the even pin's standard. -/
def commitBank (h : Hw) (n j : Nat) : Hw :=
  let v := h.sh (K.IOBANK_CFG_VCCIO n j)
  let h := (List.range 48).foldl (fun h i =>
    let k := K.IOBANK_PIN_STD n j i
    if i % 2 = 1 ∧ stdDiff (h.sh (K.IOBANK_PIN_STD n j (i - 1))) then h
    else if i % 2 = 1 ∧ stdDiff (h.sh k) then clampSh h k .exclusive 1
    else clampIf h (!stdPermitted (h.sh k) v) k .coupled 1) h
  let h := applyRegs h ((K.IOBANK_CFG_VCCIO n j).addr :: (List.range 48).map fun i => (K.IOBANK_PIN_STD n j i).addr)
  let h := (List.range 24).foldl (fun h i =>
    let std := h.rd (K.IOBANK_PIN_STD n j (2 * i))
    if stdDiff std then h.wr (K.IOBANK_PIN_STD n j (2 * i + 1)) std else h) h
  onPwr h fun p => { p with banked := setBitAt p.banked (12 * n + j) true }

/-! ### Hub groups -/

/-- Clear in mask i of a channel the bits that are anchors of other masks in use (R382). -/
def clampMask (h : Hw) (n i : Nat) : Hw :=
  let k := K.DDR_C_MASK_MASK n i
  let h := clampIf h (match anchor (h.sh k) with | some a => decide (a < 6) | none => true) k .range k.rst
  if !maskUsed h n i then h
  else
    let others := ((List.range 6).filter fun j => j != i && maskUsed h n j).filterMap fun j => anchor (h.sh (K.DDR_C_MASK_MASK n j))
    let v := others.foldl (fun v a => setBitAt v a false) (h.sh k)
    clampSh h k .exclusive v

/-- DDR channel Cn (R382, R383, the order of the DDR register section). -/
def commitDdr (h : Hw) (n : Nat) : Hw :=
  let was := h.bit (K.DDR_C_CTL_EN n)
  let h := clampMin h (K.DDR_C_TIM0_TRC n) (min 1023 (h.sh (K.DDR_C_TIM0_TRAS n) + h.sh (K.DDR_C_TIM0_TRP n)))
  let h := clampMax h (K.DDR_C_TIM1_TRFCSB n) (h.sh (K.DDR_C_TIM1_TRFC n))
  let h := clampMin h (K.DDR_C_TIM1_TREFI n) (2 * h.sh (K.DDR_C_TIM1_TRFC n))
  let h := clampIf h (!isDdr5 h && h.sh (K.DDR_C_GEOM_BGBITS n) == 3) (K.DDR_C_GEOM_BGBITS n) .range 2
  let h := clampIf h (!isDdr5 h && h.sh (K.DDR_C_RH_RFM n) != 0) (K.DDR_C_RH_RFM n) .coupled 0
  let h := if n = 0 then h else
    [K.DDR_C_GEOM_X8, K.DDR_C_GEOM_RANKBITS, K.DDR_C_GEOM_BABITS, K.DDR_C_GEOM_BGBITS, K.DDR_C_GEOM_ROWBITS,
      K.DDR_C_GEOM_COLBITS].foldl (fun h k => clampSh h (k n) .coupled (h.rd (k 0))) h
  let h := applyReg h (K.DDR_C_GEOM_X8 n).addr
  let h := (List.range 6).foldl (fun h i => clampMask h n i) h
  let h := clampIf h (!inSet h n && h.sh (K.DDR_C_CTL_EN n) != 0) (K.DDR_C_CTL_EN n) .coupled 0
  let h := applyRegs h ([(K.DDR_C_CTL_EN n).addr, (K.DDR_C_TIM0_TRC n).addr, (K.DDR_C_TIM1_TREFI n).addr, (K.DDR_C_REF_IDLE n).addr,
    (K.DDR_C_RH_RFM n).addr] ++ (List.range 6).map fun i => (K.DDR_C_MASK_MASK n i).addr)
  let h := if isDdr5 h then h else setDoubled h n (h.bit (K.DDR_C_CTL_X2 n))
  if was == h.bit (K.DDR_C_CTL_EN n) then h else startChannel h n

/-- Serial lane quad q (R355, R377): MAXSTEP 4 and 5 limit PRESET to 6; a changed MAXSTEP ends the lane's link. -/
def commitQuad (h : Hw) (q : Nat) : Hw :=
  (List.range 4).foldl (fun h i =>
    let k := 4 * q + i
    let h := if 4 ≤ h.sh (K.LANE_CFG_MAXSTEP k) then clampMax h (K.LANE_CFG_PRESET k) 6 else h
    let old := h.rd (K.LANE_CFG_MAXSTEP k)
    let h := applyReg h (K.LANE_CFG_MAXSTEP k).addr
    match linkOfLane h k with
    | some l => if h.rd (K.LANE_CFG_MAXSTEP k) = old then h else startLink (endLink h l dcDisabled) l
    | none => h) h

/-- Staged lanes of a link. -/
def stagedLanes (h : Hw) (l : Nat) : List Nat := (List.range (2 ^ h.sh (K.BORTIK_LINK_CFG_WIDTH l))).map (l + ·)

/-- EN of a link is clamped where the link is misaligned, overlaps a lower enabled one, or has a lane that is off (R355). -/
def clampLink (h : Hw) (l : Nat) : Hw :=
  let lanes := stagedLanes h l
  let overlap := (List.range l).any fun j => h.sh (K.BORTIK_LINK_CFG_EN j) == 1 && (stagedLanes h j).any lanes.contains
  let off := lanes.any fun k => h.rd (K.LANE_CFG_MAXSTEP k) == 0
  let bad := l % 2 ^ h.sh (K.BORTIK_LINK_CFG_WIDTH l) != 0 || overlap || off
  clampIf h (h.sh (K.BORTIK_LINK_CFG_EN l) == 1 && bad) (K.BORTIK_LINK_CFG_EN l) .exclusive 0

/-- EN and W of a remote seam channel are clamped to what R369 allows. -/
def clampRsc (h : Hw) (l : Nat) : Hw :=
  let quads := (2 ^ h.sh (K.BORTIK_LINK_CFG_WIDTH l) + 3) / 4
  let h := clampMax h (K.BORTIK_LINK_RSC_W l) (3072 * quads)
  let nets := h.rd (K.PDOM_NETS_NETS (l / 16) (h.sh (K.BORTIK_LINK_RSC_PDOM l)))
  let bad := !nets.testBit (h.sh (K.BORTIK_LINK_RSC_TXNET l)) || !nets.testBit (h.sh (K.BORTIK_LINK_RSC_RXNET l)) ||
    h.sh (K.BORTIK_LINK_RSC_W l) == 0 || h.sh (K.BORTIK_LINK_RSC_SHARE l) == 0
  clampIf h (h.sh (K.BORTIK_LINK_RSC_EN l) == 1 && bad) (K.BORTIK_LINK_RSC_EN l) .coupled 0

/-- The staged ST fields of a register, in their places. -/
def shadowPart (h : Hw) (addr : Nat) : Nat :=
  (fieldsAt addr).foldl (fun x f => if f.acc = .st then x + h.sh f.key * 2 ^ f.key.lo else x) 0
/-- A COMMIT would change a register. -/
def stagedChange (h : Hw) (addr : Nat) : Bool := shadowPart h addr != stagedPart h addr

/-- A COMMIT changes the remote seam channel of a link that stays as it is: the channel is held and realigns (R373, R377). The
cause its RSCHELD event names is open. A channel that is switched off holds nothing. -/
def rechannel (h : Hw) (l : Nat) : Hw :=
  if h.sh (K.BORTIK_LINK_RSC_EN l) = 1 then
    let (v, h) := h.draw
    holdRsc h l (v % 6 + 1)
  else onLink (h.wr (K.BORTIK_LINK_RSCSTAT_ALIGNED l) 0) l fun x => { x with rscHeld := false, rscMark := none, rscR0 := none, rscTold := false }

/-- A link ends with DISABLED and its lanes are idle. -/
def stopLink (h : Hw) (l : Nat) : Hw :=
  let h := endLink h l dcDisabled
  if lkState h l = lkOff then h else setLaneStep (setLaneLock (setLk h l lkOff) l false) l 0

/-- BORTIK (R355, R369, R377). -/
def commitBortik (h : Hw) : Hw :=
  let h := (List.range 64).foldl (fun h l => clampRsc (clampLink h l) l) h
  let h := applyReg h K.BORTIK_CTL_AUTORUN.addr
  let h := (List.range 64).foldl (fun h l =>
    let cfg := (K.BORTIK_LINK_CFG_EN l).addr
    let rsc := (K.BORTIK_LINK_RSC_EN l).addr
    let moved := stagedChange h cfg
    let h := if moved then stopLink h l else if stagedChange h rsc then rechannel h l else h
    applyRegs h [cfg, rsc]) h
  (List.range 64).foldl refreshKmin (startLinks h)

/-- PCIE (R327): a change while the link is up makes the controller retrain. -/
def commitPcie (h : Hw) : Hw :=
  let view (h : Hw) : List Nat := [h.rd K.PCIE_CTL_MAXGEN, h.rd K.PCIE_CTL_MAXWIDTH]
  let old := view h
  let h := applyReg h K.PCIE_CTL_MAXGEN.addr
  if view h ≠ old && linkUp h then linkFalls h else h

/-- Whether two page ranges meet. -/
def pagesMeet (a b c d : Nat) : Bool := decide (a < d ∧ c < b)

/-- The staged pages of region r, and the first page and length in bytes of its counter area (R401, R404). -/
def stagedRegion (h : Hw) (r : Nat) : Nat × Nat := (h.sh (K.CIPH_R_BASE_BASE r), h.sh (K.CIPH_R_LIMIT_LIMIT r))
/-- The counter area of region r as staged: byte offsets. -/
def stagedCtr (h : Hw) (r : Nat) : Nat × Nat :=
  let c := h.sh (K.CIPH_R_CTR_CTR r) * 4096
  (c, c + (h.sh (K.CIPH_R_LIMIT_LIMIT r) - h.sh (K.CIPH_R_BASE_BASE r)) * 256)
/-- A region staged as enabled. -/
def stagedEn (h : Hw) (r : Nat) : Bool := h.sh (K.CIPH_R_BASE_EN r) == 1

/-- The checks of R402 for region r. -/
def clampRegion (h : Hw) (r : Nat) : Hw :=
  let k := K.CIPH_R_BASE_EN r
  let (b, l) := stagedRegion h r
  let (c0, c1) := stagedCtr h r
  let others := (List.range 16).filter fun j => j != r && stagedEn h j
  let laps (j : Nat) : Bool := pagesMeet b l (stagedRegion h j).1 (stagedRegion h j).2
  let ctr (j : Nat) : Bool :=
    pagesMeet c0 c1 ((stagedRegion h j).1 * 4096) ((stagedRegion h j).2 * 4096) || pagesMeet c0 c1 (stagedCtr h j).1 (stagedCtr h j).2
  if !stagedEn h r then h
  else if l ≤ b then clampSh h k .coupled 0
  else if others.any (fun j => decide (j < r) && laps j) then clampSh h k .exclusive 0
  else if pagesMeet c0 c1 (b * 4096) (l * 4096) || others.any ctr then clampSh h k .exclusive 0
  else if installedDram h < c1 then clampSh h k .range 0
  else h

/-- CIPH (R402). -/
def commitCiph (h : Hw) : Hw :=
  let h := (List.range 16).foldl clampRegion h
  applyRegs h (K.CIPH_CTL_PACE.addr :: (List.range 16).flatMap fun r =>
    [(K.CIPH_R_BASE_EN r).addr, (K.CIPH_R_LIMIT_LIMIT r).addr, (K.CIPH_R_CTR_CTR r).addr])

/-- PWR: WARN is at most THROTTLE. -/
def commitPwr (h : Hw) : Hw :=
  applyReg (clampMax h K.PWR_CTL_WARN (h.sh K.PWR_CTL_THROTTLE)) K.PWR_CTL_WARN.addr

/-- GUEST: thresholds, queue range and windows (R490 to R492); the bucket starts full (R491). -/
def commitGuest (h : Hw) : Hw :=
  let h := clampMin h K.GUEST_CTL_TTRIP (h.sh K.GUEST_CTL_TWARN)
  let h := clampMin h K.GUEST_LIMITS_QHI (h.sh K.GUEST_LIMITS_QLO)
  let h := (List.range 16).foldl (fun h k =>
    let b := h.sh (K.GUEST_GW_BASE_BASE k)
    let l := h.sh (K.GUEST_GW_LIMIT_LIMIT k)
    let e := K.GUEST_GW_BASE_EN k
    if h.sh e = 0 then h
    else if l ≤ b then clampSh h e .coupled 0
    else clampIf h (decide (b * 4096 < 0x10000000)) e .exclusive 0) h
  let h := applyRegs h (K.GUEST_CTL_EN.addr :: K.GUEST_LIMITS_QHI.addr :: (List.range 16).flatMap fun k =>
    [(K.GUEST_GW_BASE_EN k).addr, (K.GUEST_GW_LIMIT_LIMIT k).addr])
  refreshGuest (fillBucket h)

/-! ### COMMIT -/

/-- The settings of a group are taken (R222). -/
def commitNow (h : Hw) : Group → Hw
  | .fport n => commitFport h n
  | .fpll n i => commitPll h n i
  | .clknet n => commitNets h n
  | .seamf n => commitSeam h n
  | .pdom n => commitPdom h n
  | .strata n => commitStrata h n
  | .iobank n j => commitBank h n j
  | .ddr n => commitDdr h n
  | .quad q => commitQuad h q
  | .bortik => commitBortik h
  | .pcie => commitPcie h
  | .ciph => commitCiph h
  | .pwr => commitPwr h
  | .guest => commitGuest h

/-- The settings of a group are taken, and the hub configuration digest follows (R320). -/
def takeSettings (h : Hw) (g : Group) : Hw :=
  let h := commitNow h g
  if g.covered then { h with assay := { h.assay with hubDue := true } } else h

/-- COMMIT status codes (R220). -/
def csOk : Nat := 0
def csClamped : Nat := 1
def csDeferred : Nat := 2
def csBadgroup : Nat := 3
def csOffline : Nat := 4

/-- COMMIT of a group code: status, clamps logged, and the state (R220 to R223). -/
def commitCode (h : Hw) (code : Nat) : Nat × Nat × Hw :=
  match groupOf h code with
  | none => (csBadgroup, 0, h)
  | some g =>
    if g.die.elim false fun n => h.bit (K.RST_DIE_INRESET n) then (csOffline, 0, h)
    else if groupBusy h g then
      (csDeferred, 0, { h with ldr := { h.ldr with deferred := if h.ldr.deferred.contains code then h.ldr.deferred else h.ldr.deferred ++ [code] } })
    else
      let t := h.rd K.CFG_CLAMPHEAD_TOTAL
      let h := takeSettings h g
      let n := (h.rd K.CFG_CLAMPHEAD_TOTAL + 2 ^ 32 - t) % 2 ^ 32
      (if n = 0 then csOk else csClamped, min n 255, h)

/-- A write to HUB.CFG.COMMIT: GROUP is kept, and GO commits it (R301). -/
def writeCommit (h : Hw) (data mask : Nat) : Hw :=
  let h := h.wr K.CFG_COMMIT_GROUP (newVal h K.CFG_COMMIT_GROUP data mask)
  if fieldIn K.CFG_COMMIT_GO (data &&& mask) = 0 then h
  else
    let (st, n, h) := commitCode h (h.rd K.CFG_COMMIT_GROUP)
    (h.wr K.CFG_COMMIT_STATUS st).wr K.CFG_COMMIT_CLAMPS n

/-- Deferred settings of a group apply once its operation has ended (R301). -/
def applyDeferred (h : Hw) (code : Nat) : Hw :=
  match groupOf h code with
  | some g =>
    if !h.ldr.deferred.contains code || groupBusy h g then h
    else takeSettings { h with ldr := { h.ldr with deferred := h.ldr.deferred.filter (· != code) } } g
  | none => h

/-- CFG_COMMIT_GO. -/
def execCfgCommitGo (m : Master) (group : BitVec 16) (s : State) : Host.Outcome State Fault Refusal :=
  doHw s fun h => gated h m K.CFG_COMMIT_GO.addr fun h => writeCommit h (2 ^ 63 + group.toNat) (2 ^ 64 - 1)

/-- COMMIT_DEFERRED_APPLY. -/
def execCommitDeferredApply (group : BitVec 16) (s : State) : Host.Outcome State Fault Refusal :=
  doHw s fun h => applyDeferred h group.toNat

end Sys2Proof.Machine
end

