-- ==== Sys2Proof/Machine/Loader.lean ====
section
/-!
DEFINITION. The loader (R268 to R299): the Legend and the directory, the checks of R282, the segments, the image program,
release and golden fallback, and the load ports (R289 to R293).
-/
namespace Sys2Proof.Machine

/-! ### Reading an image -/

/-- n bytes of an image at an offset, as a number, byte 0 lowest. -/
def fieldAt (l : List Byte) (off n : Nat) : Nat := ofBytes ((l.drop off).take n)
/-- Whether every byte of a range is 0. -/
def zeroAt (l : List Byte) (off n : Nat) : Bool := fieldAt l off n == 0

/-- CRC-32 of R271. -/
def crc32Byte (crc : Nat) (b : Byte) : Nat :=
  (List.range 8).foldl (fun c _ => if c.testBit 0 then (c / 2) ^^^ 0xEDB88320 else c / 2) (crc ^^^ b.toNat)
/-- CRC-32 over bytes: initial value and final XOR all ones. -/
def crc32 (l : List Byte) : Nat := l.foldl crc32Byte 0xFFFFFFFF ^^^ 0xFFFFFFFF

/-- A word of the fuse shadow. -/
def fuseWord (h : Hw) (w : Nat) : Nat := SMap.get h.rst.fuses w 0
/-- Several words of the fuse shadow as one number. -/
def fuseWords (h : Hw) (lo n : Nat) : Nat := (List.range n).foldl (fun x i => x + fuseWord h (lo + i) * 2 ^ (64 * i)) 0

/-- Legend bytes marked as 0 in R269. -/
def legendZeros (l : List Byte) : Bool :=
  bits (fieldAt l 0 8) 63 59 == 0 && bits (fieldAt l 0x10 8) 31 24 == 0 && zeroAt l 0x78 8 && zeroAt l 0x160 0xA0 &&
    zeroAt l 0x400 0xB00 && zeroAt l 0xF61 0x3F

/-- The fields a load uses, from the Legend's bytes. -/
def readLegend (l : List Byte) (dir : List DirEnt) : Legend where
  verify := (fieldAt l 0 8).testBit 58
  wrapped := bits (fieldAt l 0 8) 57 56 == 1
  dieMask := bits (fieldAt l 0 8) 55 52
  kind := bits (fieldAt l 0 8) 51 48
  imageId := bits (fieldAt l 0x10 8) 63 32
  entry := bits (fieldAt l 0x18 8) 63 32
  assayD := (List.range 4).map fun n => fieldAt l (0x80 + 0x20 * n) 32
  assayDev := fieldAt l 0x100 32
  assayHub := fieldAt l 0x120 32
  runnets := (List.range 4).map fun n => fieldAt l (0x140 + 8 * n) 8
  plans := (List.range 4).map fun n => (List.range 4).map fun k => (List.range 4).map fun w =>
    fieldAt l (0x200 + 0x80 * n + 0x20 * k + 8 * w) 8
  dir := dir

/-- SEGCOUNT of a Legend; 0 where it lies outside 1 to 1,024. -/
def segCount (l : List Byte) : Nat :=
  let n := fieldAt l 0x10 2
  if 1 ≤ n ∧ n ≤ 1024 then n else 0

/-- A directory entry (R273); a reserved SKIND answers none. -/
def readEntry (l : List Byte) : Option DirEnt :=
  let w := fieldAt l 0 8
  let skind := bits w 7 0
  if skind = 1 ∨ skind = 2 then
    some ⟨bits w 63 32, bits w 31 12, skind == 2, fieldAt l 8 8, fieldAt l 0x10 48, fieldAt l 0x40 16, fieldAt l 0 16⟩
  else none

/-- The entries of a directory. -/
def readDir : Nat → List Byte → Option (List DirEnt)
  | 0, _ => some []
  | n + 1, l => (readEntry l).bind fun e => (readDir n (l.drop 128)).map (e :: ·)

/-- Frames of a die an entry covers: die, first frame and count. -/
def DirEnt.range (e : DirEnt) : Nat × Nat × Nat := (e.faddr / 2 ^ 18, e.faddr % 2 ^ 18, e.len / 512)
/-- Sectors an entry writes, as die * 192 + sector. -/
def DirEnt.sectors (e : DirEnt) : List Nat :=
  if !e.frames then []
  else
    let (d, k, n) := e.range
    (List.range ((k + n + 1023) / 1024 - k / 1024)).map fun i => d * 192 + k / 1024 + i

/-- Two FRAMES entries that write a frame twice. -/
def framesMeet (a b : DirEnt) : Bool :=
  a.frames && b.frames &&
    (let (d, k, n) := a.range
     let (e, j, m) := b.range
     d == e && decide (k < j + m ∧ j < k + n))

/-- Frames of die d a directory covers. -/
def framesOf (dir : List DirEnt) (d : Nat) : Nat :=
  (dir.filter fun e => e.frames && e.range.1 == d).foldl (fun x e => x + e.range.2.2) 0

/-- OFFSET values ascend without overlap from a first permitted offset. -/
def offsetsOk : Nat → List DirEnt → Bool
  | _, [] => true
  | lo, e :: r => decide (lo ≤ e.offset) && e.offset % 64 == 0 && offsetsOk (e.offset + e.len) r

/-- No pair of entries of a list meets. -/
def noneMeet : List DirEnt → Bool
  | [] => true
  | e :: r => !(r.any (framesMeet e)) && noneMeet r

/-- The rules of R274, and R298 for an unreleased die of a PARTIAL image. -/
def dirOk (h : Hw) (g : Legend) (epochLog : Nat) : Bool :=
  let dir := g.dir
  decide (20 ≤ epochLog ∧ epochLog ≤ 26) && !dir.isEmpty &&
  dir.all (fun e => decide (0 < e.len ∧ e.len ≤ 2 ^ epochLog) && e.len % (if e.frames then 512 else 64) == 0 &&
    (if e.frames then
      let (d, k, n) := e.range
      g.dieMask.testBit d && decide (k + n ≤ 196608)
     else e.faddr == 0)) &&
  offsetsOk (4096 + 128 * dir.length) dir &&
  (dir.head?.elim false fun e => !e.frames) &&
  !((dir.dropWhile fun e => !e.frames).any fun e => !e.frames) &&
  decide ((dir.filter fun e => !e.frames).foldl (fun x e => x + e.len) 0 ≤ 0x100000) &&
  noneMeet dir &&
  (if g.kind = 2 then (bitList 4 g.dieMask).all fun n => released h n || framesOf dir n == 196608
   else (List.range 4).all fun n => framesOf dir n == 196608)

/-- CRC-32 of the pin fuse map (R271). -/
def fuseMapCrc (h : Hw) : Nat :=
  crc32 (toBytes 18 ((List.range 3).foldl (fun x w => x + h.rd (K.RST_PINMAP_CODES w) * 2 ^ (64 * w)) 0))

/-- The unwrap of R275: the first key where it succeeds. -/
def unwrapped (h : Hw) (l : List Byte) : Option Nat :=
  if fuseWords h 10 4 = 0 then none else Config.keyUnwrap (fuseWords h 10 4) ((l.drop 0x50).take 40)

/-- Checks 1 to 12 of R282 in their order: the code of the first that fails. -/
def legendFails (h : Hw) (ld : Load) (l : List Byte) : Option Nat :=
  let w := fieldAt l 0 8
  let kind := bits w 51 48
  let mode := bits w 57 56
  let golden : Bool := match ld.src with | .boot _ g => g | _ => false
  let full := kind == 1 || kind == 3
  let dies := bits w 55 52
  let n := segCount l
  let dirBytes := (l.drop 4096).take (128 * n)
  if bits w 31 0 ≠ 0x4C484943 then some 0x01
  else if bits w 47 32 ≠ 1 ∨ 2 ≤ mode ∨ !legendZeros l then some 0x02
  else if fieldAt l 8 8 ≠ h.rd K.ID_IDENT_IDENT then some 0x03
  else if kind = 0 ∨ 4 ≤ kind ∨ (golden ∧ kind ≠ 3) then some 0x04
  else if full && (List.range 4).any (released h) then some 0x05
  else if dies = 0 ∨ (full ∧ dies ≠ 15) then some 0x06
  else if fuseWords h 4 6 ≠ 0 ∧ Config.sha384 ((l.drop 0xF00).take 97) ≠ fuseWords h 4 6 then some 0x07
  else if !Config.ecdsaOk ((l.drop 0xF00).take 97) ((l.drop 0xFA0).take 96) (Config.sha384 (l.take 0xFA0)) then some 0x08
  else if fieldAt l 0x18 4 ≠ fuseMapCrc h then some 0x09
  else if (fuseWord h 14).testBit 0 ∧ mode = 0 then some 0x0A
  else if mode = 1 ∧ (unwrapped h l).isNone then some 0x0B
  else if n = 0 ∨ Config.sha384 dirBytes ≠ fieldAt l 0x20 48 then some 0x0C
  else match readDir n dirBytes with
    | none => some 0x0C
    | some dir => if dirOk h (readLegend l dir) (fieldAt l 0x12 1) then none else some 0x0C

/-! ### The source -/

/-- The loader acts: the foreman runs and is not halted (R299). -/
def loaderRuns (h : Hw) : Bool := hubRuns h && (h.core 0).fetching && !isHalted h 0

/-- Bytes a port or the boot flash has delivered to the current load. -/
def arrivedBytes (h : Hw) (l : Load) : List Byte :=
  match srcPort l.src with
  | some p => if (port h p).taken then (port h p).bytes else h.ldr.boot
  | none => h.ldr.boot

/-- The bytes [off, off + n) of the image, once they have arrived: from the operand for a load through the PF, else from
memory, the port or the boot flash. The status is that of a hub memory source. -/
def sourceBytes (h : Hw) (l : Load) (off n : Nat) (operand : List Byte) : Option (List Byte × Status × Hw) :=
  match l.src with
  | .host _ => if linkUp h && (func h 0).busMaster && decide (n ≤ operand.length) then some (operand.take n, .ok, h) else none
  | .hub a =>
    if (hubBase ≤ a ∧ a + off + n ≤ hubBase + hubSize) ∨ (inDram a ∧ inDram (a + off + n)) then
      let (v, st, h) := busRead h 0 (a + off) n
      some (toBytes n v, st, h)
    else some ([], .decerr, h)
  | _ =>
    let b := arrivedBytes h l
    if off + n ≤ b.length then some ((b.drop off).take n, .ok, h) else none

/-- Offset of the end of an image's last segment. -/
def imageEnd (g : Legend) : Nat := g.dir.foldl (fun x e => max x (e.offset + e.len)) 0

/-- A load port that has seen the end of its image returns to idle; the load keeps the bytes (R289). -/
def portEnds (h : Hw) (l : Load) : Hw :=
  match srcPort l.src, l.legend with
  | some p, some g =>
    if (port h p).taken && decide (imageEnd g ≤ (port h p).bytes.length) then
      onPort { h with ldr := { h.ldr with boot := (port h p).bytes.take (imageEnd g) } } p fun _ => {}
    else h
  | _, _ => h

/-- SRC codes of HUB.CFG.LOAD. -/
def srcCode : LoadSrc → Nat
  | .host _ | .hub _ => 1
  | .plp => 2
  | .slp => 3
  | .boot _ false => 4
  | .boot _ true => 5

/-- A load enters LEGEND (R278, R279, R296). -/
def startLoad (h : Hw) (l : Load) : Hw :=
  let golden : Bool := match l.src with | .boot _ g => g | _ => false
  let h := openWriters h
  let h := { h with ldr := { h.ldr with load := some l, boot := [] }, pins := { h.pins with cfgErr := false } }
  let h := (((h.wr K.CFG_LOAD_STAGE stLegend).wr K.CFG_LOAD_SRC (srcCode l.src)).wrB K.CFG_LOAD_GOLDEN golden).wr K.CFG_LOAD_SEG 0
  match l.src with
  | .host _ => (hostBound h 0 none).2
  | .plp => onPort h true fun p => { p with taken := true }
  | .slp =>
    let late := h.ldr.slp.overrun
    let h := onPort h false fun p => { p with taken := true }
    if late then loadFails h 0x14 0xFF 0 0 else h
  | _ => h

/-- Boot flash addresses of the primary and the golden image; bits [11:0] are ignored (R448). -/
def optWord (h : Hw) (i : Nat) : Nat := (List.range 4).foldl (fun x j => x + optByte h (i + j) * 256 ^ j) 0
def primaryAddr (h : Hw) : Nat := optWord h 0x08 / 4096 * 4096
def goldenAddr (h : Hw) : Nat := optWord h 0x0C / 4096 * 4096
/-- Golden fallback is enabled. -/
def goldenOn (h : Hw) : Bool := (optByte h 4).testBit 0

/-- The port a Q0 entry of the load-port logic stands for: entries and posts pair off from the youngest. -/
def postedPort (h : Hw) : Option Bool :=
  let mine := (h.queue 0).entries.filter fun e => (slotDesc h 0 e.slot).w7.toNat == (Src.event 0).code
  (h.ldr.portQueue.drop (h.ldr.portQueue.length - mine.length)).head?

/-- The foreman takes the oldest Q0 entry and starts a load (R277). -/
def takeRequest (h : Hw) : Hw :=
  if !loaderRuns h || h.ldr.load.isSome || !qEn h 0 || qAuto h 0 then h
  else match oldest h 0 with
    | none => h
    | some e =>
      let d := slotDesc h 0 e.slot
      let isPort := d.w7.toNat == (Src.event 0).code
      let src : Option LoadSrc :=
        if isPort then (postedPort h).map fun p => if p then .plp else .slp
        else some (if d.w2.toNat.testBit 0 then .hub d.w1.toNat else .host d.w1.toNat)
      let h := if isPort then { h with ldr := { h.ldr with portQueue := h.ldr.portQueue.drop 1 } } else h
      let h := dispatch (leave h 0 e)
      match src with
      | some s => startLoad h { src := s, reply := replyOf d }
      | none => h

/-! ### Legend and segments -/

/-- The stage that follows once segment i is to be loaded next. -/
def stageFor (g : Legend) (i : Nat) : Nat :=
  match g.dir[i]? with
  | some e => if e.frames then stFrames else stProgseg
  | none => stProgram

/-- Workspace base (R278). -/
def workBase (h : Hw) : Nat := h.rd K.CFG_WORK_ADDR * 2 ^ 22

/-- The plans of the image come into force: all four of a fabric seam, for a PARTIAL image only where one of them is not zero
(R297). Unusable plans are logged (R141). -/
def setPlans (h : Hw) (g : Legend) : Hw :=
  (List.range 4).foldl (fun h n =>
    let ps := g.plans.getD n []
    let some' := ps.any fun p => p.any (· != 0)
    if g.kind = 2 ∧ !some' then h
    else
      let h := h.onSeam n fun x => { x with plans := ps }
      ((h.seamSt n).plans.filter fun p => planSet p && !planUsable h n p).foldl (fun h _ => logEvent h srcSeam 0 (seamBase n + 8)) h) h

/-- The loader calls the image program (R281). The return address is open; it lies in the boot ROM. -/
def callProgram (h : Hw) (l : Load) (g : Legend) : Hw :=
  let (v, h) := h.draw
  let ret : Word := BitVec.ofNat 64 (0xFFFFFFFFFFF00000 + v % 0x4000 * 4)
  let base := workBase h
  let h := setPlans h g
  let h := (((h.setG 0 1 (BitVec.ofNat 64 base)).setG 0 2 (BitVec.ofNat 64 g.kind)).setG 0 3 (BitVec.ofNat 64 g.dieMask)).setG 0 31 ret
  let h := { h with ldr := { h.ldr with load := some { l with ret := ret } } }
  reloadCanary ((h.setPc 0 (BitVec.ofNat 64 (base + g.entry))).wr K.CFG_LOAD_STAGE stProgram)

/-- The load goes on with segment i, or with the image program. -/
def proceed (h : Hw) (l : Load) (g : Legend) (i : Nat) : Hw :=
  let h := { h with ldr := { h.ldr with load := some { l with seg := i } } }
  if stageFor g i = stProgram then callProgram h { l with seg := i } g
  else (h.wr K.CFG_LOAD_STAGE (stageFor g i)).wr K.CFG_LOAD_SEG i

/-- The Legend and the directory have arrived: checks 1 to 12, and the unwrap (R275, R279, R282). -/
def checkLegend (h : Hw) (operand : List Byte) : Hw :=
  match h.ldr.load with
  | none => h
  | some l =>
    if !loaderRuns h || loadStage h ≠ stLegend || l.fail.isSome then h
    else match sourceBytes h l 0 4096 operand with
      | none => h
      | some (head, st, h) =>
        if st ≠ .ok then loadFails h 0x14 (scode st) 0 0
        else
          let size := 4096 + 128 * segCount head
          match sourceBytes h l 0 size operand with
          | none => h
          | some (b, st, h) =>
            if st ≠ .ok then loadFails h 0x14 (scode st) 0 0
            else
              let kind := bits (fieldAt b 0 8) 51 48
              let h := h.wr K.CFG_LOAD_KIND kind
              let l := { l with kind := kind }
              let h := { h with ldr := { h.ldr with load := some l } }
              let why := legendFails h l b
              let h := if why.all (8 ≤ ·) then h.wrB K.CFG_LOAD_OPENKEY (fuseWords h 4 6 == 0) else h
              match why with
              | some code => loadFails h code 0 0 0
              | none =>
                let g := readLegend b ((readDir (segCount b) (b.drop 4096)).getD [])
                let l := { l with legend := some g }
                let h := if g.wrapped then { h with keys := { h.keys with image := unwrapped h b } } else h
                proceed (portEnds { h with ldr := { h.ldr with load := some l } } l) l g 0

/-- A segment's plaintext after its checks, or the failure code (R276, R280). -/
def openSegment (h : Hw) (g : Legend) (i : Nat) (e : DirEnt) (b : List Byte) : Except Nat (List Byte) :=
  if Config.sha384 b ≠ e.hash then .error 0x0D
  else if !g.wrapped then .ok b
  else
    let iv := (toBytes 4 i).reverse ++ toBytes 8 0
    match Config.gcmOpen (h.keys.image.getD 0) iv (toBytes 16 e.head) b e.tag with
    | some p => .ok p
    | none => .error 0x0E

/-- The loader fences the sectors of released dies a segment writes, and notes the unreleased ones (R297, R310). -/
def prepareSectors (h : Hw) (l : Load) (e : DirEnt) : Hw × Load :=
  let d := e.range.1
  let h := dieUnready h d
  if !released h d then (h, { l with wrote := l.wrote ||| 2 ^ d })
  else
    let h := e.sectors.foldl (fun h x => settleFence (closeFence h (x / 192) (x % 192)) (x / 192) (x % 192)) h
    (h, { l with fenced := l.fenced ++ e.sectors.filter fun x => !l.fenced.contains x })

/-- Write frames of a die in order: a refused one is logged (R83). The state, and the frame refused with its status, if one was (R216, R282 order 14). -/
def loadFrames : Hw → Nat → Nat → List Nat → Hw × Option (Nat × Nat)
  | h, _, _, [] => (h, none)
  | h, n, k, v :: r =>
    if !dieReachable h n then (h, some (8, k))
    else if released h n && !fenceSettled h n (k / 1024) then (h, some (4, k))
    else if frameRefused h n k v then (logContend h n k 0, some (5, k))
    else loadFrames (putFrame h n k v) n (k + 1) r

/-- The 512-byte frames of a segment. -/
def splitFrames : Nat → List Byte → List Nat
  | 0, _ => []
  | n + 1, b => ofBytes (b.take 512) :: splitFrames n (b.drop 512)

/-- Sectors the load fenced whose every segment has passed are lifted (R297). -/
def liftDone (h : Hw) (l : Load) (g : Legend) (i : Nat) : Hw × Load :=
  let later := (g.dir.drop (i + 1)).flatMap DirEnt.sectors
  let go := l.fenced.filter fun x => !(later.contains x) && !(l.lifted.contains x)
  (go.foldl (fun h x => liftFence h (x / 192) (x % 192)) h, { l with lifted := l.lifted ++ go })

/-- The last byte of the next segment has arrived (R280): its checks, its plaintext, its frames and the next key. -/
def takeSegment (h : Hw) (operand : List Byte) : Hw :=
  match h.ldr.load with
  | none => h
  | some l => match l.legend with
    | none => h
    | some g => match g.dir[l.seg]? with
      | none => h
      | some e =>
        let busy := e.frames && (h.die e.range.1).eng.claim.isSome
        if !loaderRuns h || (loadStage h ≠ stProgseg ∧ loadStage h ≠ stFrames) || busy then h
        else match sourceBytes h l e.offset e.len operand with
          | none => h
          | some (b, st, h) =>
            if st ≠ .ok then loadFails h 0x14 (scode st) l.seg e.faddr
            else
              let (h, l) := if e.frames then prepareSectors h l e else (h, l)
              let h := { h with ldr := { h.ldr with load := some l } }
              match openSegment h g l.seg e b with
              | .error code => loadFails h code 0 l.seg e.faddr
              | .ok p =>
                let h := { h with keys := { h.keys with image := h.keys.image.map fun k => keyNext k e.tag } }
                let h := match srcPort l.src with
                  | some q => if (port h q).taken then onPort h q fun x => { x with used := e.offset + e.len } else h
                  | none => h
                if e.frames then
                  let (d, k, n) := e.range
                  match loadFrames (runDesign h) d k (splitFrames n p) with
                  | (h, some (st, k)) => loadFails (refreshSites h d) 0x0F st l.seg (d * 2 ^ 18 + k)
                  | (h, none) =>
                    let (h, l) := liftDone (refreshSites h d) l g l.seg
                    proceed h l g (l.seg + 1)
                else
                  let h := hubWrite h none (workBase h + l.progLen) e.len (ofBytes p) (allOn e.len)
                  proceed h { l with progLen := l.progLen + e.len } g (l.seg + 1)

/-! ### Program, release and failure -/

/-- The image program returns to the loader with its result in g1 (R281). -/
def programReturns (h : Hw) : Hw :=
  match h.ldr.load with
  | none => h
  | some l =>
    if !loaderRuns h || loadStage h ≠ stProgram || h.pc 0 ≠ l.ret || (h.core 0).dev.isSome then h
    else if h.g 0 1 = 0 then tryVerify (h.wr K.CFG_LOAD_STAGE stVerify)
    else loadFails h 0x10 0xFF l.seg 0

/-- 200 µs in VERIFY without every lock (R282 order 16). -/
def verifyTimeout (h : Hw) : Hw :=
  match h.ldr.load with
  | some l => match l.legend with
    | some g => if loaderRuns h && loadStage h == stVerify && !locksOk h g then loadFails h 0x11 0 l.seg 0 else h
    | none => h
  | none => h

/-- The source has delivered nothing for 100 ms (R282). -/
def sourceStalls (h : Hw) : Hw :=
  match h.ldr.load with
  | some l =>
    let st := loadStage h
    if loaderRuns h && (st == stLegend || st == stProgseg || st == stFrames) then loadFails h 0x13 0 l.seg 0 else h
  | none => h

/-- Set frames of a die to zero where a condition holds. -/
def zeroFrames (h : Hw) (n : Nat) (p : Nat → Bool) : Hw :=
  refreshSites ((runDesign h).onDie n fun x => { x with
    frames := SMap.keep x.frames fun k _ => !p k, frameErr := SMap.keep x.frameErr fun k _ => !p k
    mirror := SMap.keep x.mirror fun s _ => !p (1024 * s) }) n

/-- CLEAR has zeroed the frames of the dies the load wrote, whose digests are not ready from then on (R323), and of the sectors
it fenced and had not lifted. -/
def clearFrames (h : Hw) (l : Load) : Hw :=
  let h := (bitList 4 l.wrote).foldl (fun h n => dieUnready (zeroFrames h n fun _ => true) n) h
  (l.fenced.filter fun x => !l.lifted.contains x).foldl
    (fun h x => zeroFrames h (x / 192) fun k => k / 1024 == x % 192) h

/-- CLEAR is complete: golden fallback starts, or the load ends and CFG_ERR_N goes low (R283, R295, R296). -/
def clearDone (h : Hw) : Hw :=
  match h.ldr.load with
  | none => h
  | some l => match l.fail with
    | none => h
    | some (code, detail, seg, faddr) =>
      if !loaderRuns h then h
      else
        let h := clearFrames h l
        let golden : Bool := match l.src with | .boot _ g => g | _ => false
        let part := l.kind == 2
        let mild := code == 5 || code == 6
        if !golden && !part && !mild && code != 0x15 && goldenOn h then
          startLoad (dropSource h l) { src := .boot (goldenAddr h) true, reply := l.reply, primary := some code }
        else
          let h := if part || mild then h else { h with pins := { h.pins with cfgErr := true } }
          endLoad h l code detail seg faddr

/-- Release of die n (R286): set-reset lifts, RUNNETS open, the banks pass to the design, the ports take their EN and copies. -/
def releaseDie (h : Hw) (n runnets : Nat) : Hw :=
  if released h n || h.bit (K.RST_DIE_INRESET n) then h
  else
    let h := runDesign h
    let h := h.onDie n fun x => { x with
      setReset := false
      ff := (List.range 192).foldl (fun f s => SMap.put f s (initMask h n s)) [] }
    let h := (bitList 64 runnets).foldl (fun h m => openGate h n m) h
    let h := refreshSites (reloadCopies h n) n
    let h := h.wr K.CFG_LOAD_RELEASED (setBitAt (h.rd K.CFG_LOAD_RELEASED) n true)
    if (List.range 4).all (released h) then { h with pins := { h.pins with done := true } } else h

/-- A write to HUB.CFG.RELEASE: acted on in stage RELEASE only; the load ends once all its dies are released. -/
def writeRelease (h : Hw) (m : Master) (dies : Nat) : Hw :=
  match h.ldr.load with
  | some l => match l.legend with
    | some g =>
      if loadStage h ≠ stRelease then logIgnored h m K.CFG_RELEASE_DIES.addr dies
      else
        let h := (bitList 4 dies).foldl (fun h n => releaseDie h n (g.runnets.getD n 0)) h
        if (toRelease h g).isEmpty then loadDone h l g else h
    | none => logIgnored h m K.CFG_RELEASE_DIES.addr dies
  | none => logIgnored h m K.CFG_RELEASE_DIES.addr dies

/-- A write to HUB.CFG.WORK: ignored and logged during a load; a value outside hub SRAM is replaced (R278). -/
def writeWork (h : Hw) (m : Master) (data mask : Nat) : Hw :=
  let k := K.CFG_WORK_ADDR
  let v := newVal h k data mask
  if loadStage h ≠ stIdle then logIgnored h m k.addr data
  else if hubBase ≤ v * 2 ^ 22 ∧ v * 2 ^ 22 + 2 ^ 22 ≤ hubBase + hubSize then h.wr k v
  else logErr (h.wr k k.rst) srcCfg (some m) .replaced 0 k.addr data

/-! ### Load ports (R289, R291) -/

/-- The image magic as a word. -/
def imageMagic : Nat := 0x4C484943

/-- Bytes of the staging ring a port has free. -/
def ringFree (p : LoadPort) : Nat := 0x100000 - (p.bytes.length - p.used)

/-- A port that has staged 4 KiB posts its Q0 entry; how ARG0 names the port is open. -/
def postPort (h : Hw) (par : Bool) : Hw :=
  let p := port h par
  if !p.active || p.posted || p.bytes.length < 4096 then h
  else
    let (v, h) := h.draw
    let h := onPort h par fun p => { p with posted := true }
    let (h, a) := tryEnter h 0 (.event 0) (mkDesc 0 v 0 0 0 0 0 0)
    match a with
    | .ok _ => dispatch { h with ldr := { h.ldr with portQueue := h.ldr.portQueue ++ [par] } }
    | a => dropPosting h 0 (Src.event 0).code a

/-- Bytes enter a port; the image's end returns it to idle. -/
def stageBytes (h : Hw) (par : Bool) (b : List Byte) : Hw :=
  let h := postPort (onPort h par fun p => { p with bytes := p.bytes ++ b }) par
  match h.ldr.load with
  | some l => if srcPort l.src = some par then portEnds h l else h
  | none => h

/-- PLP_READY. -/
def plpReady (h : Hw) : Bool :=
  let p := h.ldr.plp
  !p.active || ((!p.posted || p.taken) && decide (256 ≤ ringFree p))

/-- The parallel port takes a word. -/
def plpTake (h : Hw) (w : Nat) : Hw :=
  if !hubRuns h || !plpReady h then h
  else if h.ldr.plp.active then stageBytes h true (toBytes 4 w)
  else if w = imageMagic then stageBytes (onPort h true fun p => { p with active := true }) true (toBytes 4 w)
  else h

/-- The bytes from the first word of a WRITE that is the image magic on. -/
def fromMagic : Nat → List Byte → List Byte
  | 0, _ => []
  | n + 1, b => if fieldAt b 0 4 = imageMagic ∧ 4 ≤ b.length then b else fromMagic n (b.drop 4)

/-- SPACE of the quad serial port. -/
def slpSpace (h : Hw) : Bool :=
  let p := h.ldr.slp
  (!p.posted || p.taken) && decide (4096 ≤ ringFree p)

/-- A WRITE of the quad serial port; bytes that find no space are dropped and the load ends (R291). -/
def slpTake (h : Hw) (b : List Byte) : Hw :=
  if !hubRuns h || b.isEmpty || decide (4096 < b.length) then h
  else
    let b := if h.ldr.slp.active then b else fromMagic (b.length / 4) b
    if b.isEmpty then h
    else
      let p := h.ldr.slp
      let room := if p.posted && !p.taken then 0 else ringFree p
      let h := stageBytes (onPort h false fun p => { p with active := true }) false (b.take room)
      if b.length ≤ room then h
      else
        let h := onPort h false fun p => { p with overrun := true }
        match h.ldr.load with
        | some l => if srcPort l.src = some false then loadFails h 0x14 0xFF l.seg 0 else h
        | none => h

/-- The status byte of the quad serial port (R291). -/
def slpByte (h : Hw) : Nat :=
  b2n (slpSpace h) + 2 * b2n (loadStage h != stIdle) + 4 * b2n h.pins.cfgErr + 8 * b2n h.pins.done

/-- A burst of the boot flash port is over: 4,096 bytes (R293). -/
def bootBurst (h : Hw) (b : List Byte) : Hw :=
  match h.ldr.load with
  | some l =>
    let reading := loadStage h == stLegend || loadStage h == stProgseg || loadStage h == stFrames
    match l.src with
    | .boot _ _ => if reading && b.length == 4096 then { h with ldr := { h.ldr with boot := h.ldr.boot ++ b } } else h
    | _ => h
  | none => h

/-! ### Commands -/

/-- LOAD_REQUEST. -/
def execLoadRequest (s : State) : Host.Outcome State Fault Refusal := doHw s takeRequest
/-- LEGEND_CHECK. -/
def execLegendCheck (bytes : List Byte) (s : State) : Host.Outcome State Fault Refusal := doHw s fun h => checkLegend h bytes
/-- SEGMENT_COMPLETE. -/
def execSegmentComplete (bytes : List Byte) (s : State) : Host.Outcome State Fault Refusal := doHw s fun h => takeSegment h bytes
/-- IMAGE_PROGRAM_RETURN. -/
def execImageProgramReturn (s : State) : Host.Outcome State Fault Refusal := doHw s programReturns
/-- LOAD_VERIFY_TIMEOUT. -/
def execLoadVerifyTimeout (s : State) : Host.Outcome State Fault Refusal := doHw s verifyTimeout
/-- LOAD_SOURCE_STALL. -/
def execLoadSourceStall (s : State) : Host.Outcome State Fault Refusal := doHw s sourceStalls
/-- LOAD_CLEAR_COMPLETE. -/
def execLoadClearComplete (s : State) : Host.Outcome State Fault Refusal := doHw s clearDone
/-- RELEASE_WRITE. -/
def execReleaseWrite (m : Master) (dies : BitVec 4) (s : State) : Host.Outcome State Fault Refusal :=
  doHw s fun h => gated h m K.CFG_RELEASE_DIES.addr fun h => writeRelease h m dies.toNat
/-- PLP_WORD. -/
def execPlpWord (w : BitVec 32) (s : State) : Host.Outcome State Fault Refusal := doHw s fun h => plpTake h w.toNat
/-- SLP_WRITE. -/
def execSlpWrite (bytes : List Byte) (s : State) : Host.Outcome State Fault Refusal := doHw s fun h => slpTake h bytes
/-- SLP_STATUS. -/
def execSlpStatus (s : State) : Host.Outcome State Fault Refusal :=
  doHw s fun h => { h with ldr := { h.ldr with slpStatus := slpByte h } }
/-- SLP_OTHER_COMMAND: ignored until chip select rises (R291). -/
def execSlpOtherCommand (_cmd : Byte) (s : State) : Host.Outcome State Fault Refusal := doHw s id
/-- BOOT_FLASH_BURST. -/
def execBootFlashBurst (bytes : List Byte) (s : State) : Host.Outcome State Fault Refusal := doHw s fun h => bootBurst h bytes

end Sys2Proof.Machine
end

