-- ==== Sys2Proof/Machine/Reset.lean ====
section
/-!
DEFINITION. Resets and the start of the device (R88 to R92, R432 to R448): the crystal qualifier, the reset requests, the
cold, warm and die resets, fuse sensing, the option load, and the start of the foreman.
-/
namespace Sys2Proof.Machine

/-- Change the reset controller beyond its registers. -/
def onRst (h : Hw) (f : RstSt → RstSt) : Hw := { h with rst := f h.rst }

/-- RESET_N or PERST_N is low: the sequence waits (R435). -/
def pinsLow (h : Hw) : Bool := h.rst.pinLow || h.rst.perstLow

/-- A phase of a cold sequence is in progress and may end. -/
def inPhase (h : Hw) (p : BootPhase) : Bool := h.rst.phase == p && !pinsLow h && h.rst.request.isNone

/-! ### The crystal (R90 to R92, R515) -/

/-- The qualifier stops and the reduced state begins. -/
def crystalAbsent (h : Hw) : Hw :=
  let h := { h with clk := { h.clk with counting := false } }
  (h.wr K.CLK_STAT_XABSENT 1).wr K.CLK_STAT_SRC 0

/-- A window passes (R90). -/
def windowPasses (h : Hw) (c : Nat) : Bool :=
  decide (922 ≤ c ∧ c ≤ 1126) && (h.rd K.CLK_XQUAL_RUN == 0 || decide (gap c h.clk.first ≤ 20))

/-- A run has reached eight windows: the crystal is stable, or is back after a loss. -/
def runComplete (h : Hw) : Hw :=
  let h := h.wr K.CLK_XQUAL_REFCNT h.clk.first
  let h := { h with clk := { h.clk with stable := true, far := false } }
  if h.rst.phase == .crystal then onRst (h.wr K.CLK_STAT_SRC 1) fun r => { r with phase := .pll }
  else h.wr K.CLK_STAT_HOLDOVER 0

/-- The monitor: two windows in a row more than 102 from REFCNT lose the crystal (R92). -/
def monitorWindow (h : Hw) (c : Nat) : Hw :=
  if !h.clk.stable || h.bit K.CLK_STAT_HOLDOVER then h
  else if gap c (h.rd K.CLK_XQUAL_REFCNT) ≤ 102 then { h with clk := { h.clk with far := false } }
  else if !h.clk.far then { h with clk := { h.clk with far := true } }
  else
    let h := (h.wr K.CLK_STAT_HOLDOVER 1).wr K.CLK_STAT_XLOST 1
    postOpen (logEvent h srcClock 0 K.CLK_STAT_XLOST.addr) 1

/-- A window of 1,024 IRO cycles ends (R90, R92, R515). -/
def qualWindow (h : Hw) (count : Nat) : Hw :=
  if !h.clk.counting then h
  else
    let c := min count 0x7FF
    let h := (h.cnt K.CLK_XQUAL_WINDOWS).wr K.CLK_XQUAL_LASTCNT c
    let run := h.rd K.CLK_XQUAL_RUN
    let h := monitorWindow h c
    if !windowPasses h c then h.wr K.CLK_XQUAL_RUN 0
    else
      let h := if run = 0 then { h with clk := { h.clk with first := c } } else h
      let h := h.wr K.CLK_XQUAL_RUN (min 8 (run + 1))
      if run = 7 then runComplete h else h

/-- A channel enters self-refresh for a warm reset or for good; one that was training trains afresh when it leaves it (R92, R397,
R399). -/
def parkChannel (h : Hw) (n : Nat) : Hw :=
  let st := chState h n
  let h := h.wr (K.DDR_C_STAT_OWED n) 0
  if st = chActive ∨ st = chSelfref then h.wr (K.DDR_C_STAT_STATE n) chSelfref
  else if st = chTraining ∨ st = chRetrain then
    { h.wr (K.DDR_C_STAT_STATE n) chSelfref with dram := { h.dram with trained := setBitAt h.dram.trained n false } }
  else h

/-- Requests that wait at the channels complete with DECERR: the channels are held in self-refresh (R92). -/
def failDram (h : Hw) : Hw :=
  h.dram.queue.foldl (fun h q => answer h q .decerr 0) { h with dram := { h.dram with queue := [] } }

/-- 1 ms in holdover without a new run: the survey PLL goes over to the IRO (R92). -/
def holdoverEnds (h : Hw) : Hw :=
  if !h.bit K.CLK_STAT_HOLDOVER then h
  else
    let h := crystalAbsent (failDram ((List.range 4).foldl parkChannel (h.wr K.CLK_STAT_HOLDOVER 0)))
    let h := (List.range 64).foldl (fun h l => endLink h l dcCrystal) h
    refreshGuest h

/-- The survey PLL locks: GRIDTIME starts, the seams and the DRAM channels train (R91, R129, R380). -/
def surveyLocks (h : Hw) : Hw :=
  if !inPhase h .pll then h
  else
    let h := (h.wr K.CLK_STAT_SLOCK 1).wr K.CLK_GRIDTIME_TIME 0
    let h := (List.range 4).foldl startChannel (trainHubSeams h)
    onRst h fun r => { r with phase := .fill }

/-! ### Fuses and option bytes (R442 to R448) -/

/-- The pin codes in force: reserved codes read as 0 (R449). -/
def pinCodes (v : NonVol) : Nat :=
  let raw := (List.range 3).foldl (fun x w => x + SMap.get v.fuses (16 + w) 0 % 2 ^ 64 * 2 ^ (64 * w)) 0
  (List.range 48).foldl (fun x b =>
    let c := bits raw (3 * b + 2) (3 * b)
    x + (if 5 ≤ c then 0 else c) * 8 ^ b) 0

/-- All 128 fuse words have been sensed: their shadow applies (R442, R443). -/
def fusesApply (v : NonVol) (h : Hw) : Hw :=
  let h := onRst h fun r => { r with sensed := true, fuses := v.fuses }
  let h := h.wr K.ID_SERIAL_SERIAL (fuseWord h 0)
  let h := (h.wr K.ID_CAP_GUEST (fuseWord h 1)).wr K.ID_CAP_SPEED (fuseWord h 1 / 2)
  (List.range 3).foldl (fun h w => h.wr (K.RST_PINMAP_CODES w) (pinCodes v / 2 ^ (64 * w))) h

/-- Byte i of an option image. -/
def imageByte (x i : Nat) : Nat := x / 256 ^ i % 256

/-- A copy is valid (R444). -/
def copyValid (c : OptCopy) : Bool :=
  imageByte c.image 0 == 1 && crc32 (toBytes 0xFC c.image) == c.image / 256 ^ 0xFC % 2 ^ 32

/-- SEQ of a copy. -/
def copySeq (c : OptCopy) : Nat := c.image / 256 ^ 0xF8 % 2 ^ 32

/-- Copy x is newer than copy y (R445). -/
def seqNewer (x y : Nat) : Bool := decide (1 ≤ (x + 2 ^ 32 - y) % 2 ^ 32 ∧ (x + 2 ^ 32 - y) % 2 ^ 32 < 2 ^ 31)

/-- The copy the option load uses: 0 none, 1 A, 2 B (R445). -/
def chosenCopy (v : NonVol) : Nat :=
  if copyValid v.optA && copyValid v.optB then (if seqNewer (copySeq v.optB) (copySeq v.optA) then 2 else 1)
  else if copyValid v.optA then 1
  else if copyValid v.optB then 2
  else 0

/-- The safe defaults of R448 as an image; FORMAT and the fields without a default are 0. -/
def safeImage : Nat :=
  8 * 256 ^ 3 + 4 * 256 ^ 4 + 6 * 256 ^ 5 + 1000 * 256 ^ 6 + 16 * 256 ^ 0x1C + 7 * 256 ^ 0x1D + 0x1A * 256 ^ 0x1E

/-- A field of the option image with a range: byte offset, lowest bit, width, permitted range, safe default (R448). -/
structure OptField where
  off : Nat
  lo : Nat
  w : Nat
  min : Nat
  max : Nat
  dflt : Nat
  deriving DecidableEq, Repr

/-- The fields of R448 whose value may be replaced. -/
def optFields : List OptField :=
  [⟨0x01, 0, 8, 0, 1, 0⟩, ⟨0x02, 0, 2, 0, 2, 0⟩, ⟨0x03, 0, 8, 4, 14, 8⟩, ⟨0x05, 0, 8, 1, 6, 6⟩,
   ⟨0x06, 0, 16, 10, 60000, 1000⟩, ⟨0x16, 0, 2, 0, 2, 0⟩, ⟨0x1C, 0, 5, 14, 18, 16⟩, ⟨0x1D, 0, 4, 6, 8, 7⟩,
   ⟨0x1E, 4, 2, 0, 2, 1⟩, ⟨0x1E, 2, 2, 1, 2, 2⟩, ⟨0x1E, 0, 2, 1, 3, 2⟩]

/-- The bytes R448 shows as 0, with the bits concerned. -/
def optZeros : List (Nat × Nat) :=
  [(0x04, 0xF8), (0x17, 0xFF), (0x18, 0x7C), (0x19, 0x7C), (0x1A, 0x7C), (0x1B, 0x7C)] ++
  ((List.range 0x61).map fun i => (0x1F + i, 0xFF))

/-- Replace a field outside its range; the list of entries to log grows. Kind 3 is REPLACED. -/
def optReplace (x : Nat × List (Nat × Nat × Nat)) (f : OptField) (ok : Nat → Bool) : Nat × List (Nat × Nat × Nat) :=
  let v := x.1 / 2 ^ (8 * f.off + f.lo) % 2 ^ f.w
  if ok v then x
  else (setBits x.1 (8 * f.off + f.lo) f.w f.dflt, x.2 ++ [(3, f.off, x.1 / 256 ^ f.off % 2 ^ (if f.w = 16 then 16 else 8))])

/-- The image after the replacements of R448, and the entries to log: kind 3 REPLACED, 4 IGNORED. -/
def optCheck (image : Nat) : Nat × List (Nat × Nat × Nat) :=
  let x := optFields.foldl (fun x f => optReplace x f fun v => decide (f.min ≤ v ∧ v ≤ f.max)) (image, [])
  let chans := 2 ^ (imageByte x.1 0x16 % 4)
  let c0 := imageByte x.1 0x18 % 4
  let x := (List.range 3).foldl (fun x i =>
    if i + 1 < chans then optReplace x ⟨0x19 + i, 0, 2, c0, c0, c0⟩ fun v => v == c0 else x) x
  optZeros.foldl (fun x z =>
    if imageByte image z.1 &&& z.2 = 0 then x else (x.1, x.2 ++ [(4, z.1, imageByte image z.1)])) x

/-- TRCD, TRP, TRAS, TRC, TRFC, TRFCSB and TREFI by RATE (the DDR register section's values by type). -/
def timings : Nat → List Nat
  | 0 => [0x16, 0x16, 0x34, 0x4A, 0x370, 0, 0x30C0]
  | 1 => [0x0B, 0x0B, 0x1A, 0x25, 0x1B8, 0, 0x1860]
  | 2 => [0x34, 0x34, 0x67, 0x9B, 0x3B0, 0x1A0, 0x30C0]
  | _ => [0x1A, 0x1A, 0x34, 0x4E, 0x1D8, 0xD0, 0x1860]

/-- Reset values the option bytes give to W fields (R448). -/
def optionWarm (h : Hw) : Hw :=
  let h := h.wrBoth K.PCIE_CTL_MAXGEN (optByte h 5)
  let period := optByte h 6 + 256 * optByte h 7
  ((h.wr K.RST_CANARY_CTL_PERIOD period).wr K.RST_CANARY_STAT_REMAIN (period * 1000)).wr K.RST_CANARY_CTL_FREEZE (optByte h 4 / 4 % 2)

/-- Reset values they give to the DDR registers of a channel. -/
def optionChannel (h : Hw) (n : Nat) : Hw :=
  let b := optByte h (0x18 + n)
  let t := timings (b % 4)
  let g := optByte h 0x1E
  let h := (h.wrBoth (K.DDR_C_CTL_EN n) (b / 128)).wrBoth (K.DDR_C_GEOM_X8 n) (g / 128)
  let h := (h.wrBoth (K.DDR_C_GEOM_ROWBITS n) (optByte h 0x1C % 32)).wrBoth (K.DDR_C_GEOM_COLBITS n) (optByte h 0x1D % 16)
  let h := ((h.wrBoth (K.DDR_C_GEOM_RANKBITS n) (g / 16 % 4)).wrBoth (K.DDR_C_GEOM_BABITS n) (g / 4 % 4)).wrBoth (K.DDR_C_GEOM_BGBITS n) (g % 4)
  let h := ((h.wrBoth (K.DDR_C_TIM0_TRCD n) (t.getD 0 0)).wrBoth (K.DDR_C_TIM0_TRP n) (t.getD 1 0)).wrBoth (K.DDR_C_TIM0_TRAS n) (t.getD 2 0)
  let h := (h.wrBoth (K.DDR_C_TIM0_TRC n) (t.getD 3 0)).wrBoth (K.DDR_C_TIM1_TRFC n) (t.getD 4 0)
  (h.wrBoth (K.DDR_C_TIM1_TRFCSB n) (t.getD 5 0)).wrBoth (K.DDR_C_TIM1_TREFI n) (t.getD 6 0)

/-- The option shadow applies (R445, R448), and qualification starts. -/
def optionsApply (v : NonVol) (h : Hw) (copy : Nat) (image : Nat) (log : List (Nat × Nat × Nat)) : Hw :=
  let h := (List.range 32).foldl (fun h w => h.wr (K.RST_OPT_BYTES w) (image / 2 ^ (64 * w))) h
  let h := (h.wr K.RST_OPTSTAT_COPY copy).wrB K.RST_OPTSTAT_DEFAULTS (copy == 0)
  let h := (h.wr K.RST_OPTSTAT_SEQ (if copy = 0 then 0 else image / 256 ^ 0xF8)).wr K.RST_OPTSTAT_FAILS 0
  let h := (h.wrB K.RST_OPTSTAT_ROA (decide (10000 ≤ v.optA.writes))).wrB K.RST_OPTSTAT_ROB (decide (10000 ≤ v.optB.writes))
  let h := (h.wr K.RST_OPTWEAR_WRCNTA v.optA.writes).wr K.RST_OPTWEAR_WRCNTB v.optB.writes
  let h := (List.range 4).foldl optionChannel (optionWarm (h.wr K.DDR_MAP_CHANS (imageByte image 0x16)))
  let h := { h with clk := { h.clk with counting := true } }
  onRst h fun r => { r with phase := .crystal, toLog := log }

/-- The option load starts, or is skipped after eight loads cut short (R446). -/
def optionStart (v : NonVol) (h : Hw) : Hw :=
  if h.rd K.RST_OPTSTAT_FAILS = 8 then optionsApply v (h.wr K.RST_CAUSE_OPT 1) 0 safeImage []
  else onRst (h.cnt K.RST_OPTSTAT_FAILS) fun r => { r with phase := .options }

/-- Both copies have been read (R445). An invalid copy is logged once the foreman starts: kind 7, EVENT. -/
def optionLoaded (v : NonVol) (h : Hw) : Hw :=
  let h := (h.wrB K.RST_OPTSTAT_BADA (!copyValid v.optA)).wrB K.RST_OPTSTAT_BADB (!copyValid v.optB)
  let bad := ([v.optA, v.optB].filter fun c => !copyValid c).map fun _ => (7, 0, 0)
  match chosenCopy v with
  | 0 => optionsApply v h 0 safeImage bad
  | c =>
    let x := optCheck (if c = 1 then v.optA.image else v.optB.image)
    optionsApply v h c x.1 (bad ++ x.2)

/-! ### Cold and warm reset (R432 to R437) -/

/-- A register field keeps its value through a reset (R10). -/
def survives (cold : Bool) (id : Nat) : Bool :=
  match reachOf id with
  | .none => true
  | .C => !cold
  | .W | .D => false

/-- The flash operations of every outpost are cut short (R64). -/
def cutFlashes (v : NonVol) (h : Hw) : NonVol × Hw :=
  (List.range 4).foldl (fun (x : NonVol × Hw) n => flashCut x.1 x.2 n) (v, h)

/-- What the outposts keep through a reset: that their operation was cut short, until the next die start shows it (R64). -/
def cutDies (l : List (Nat × DieSt)) : List (Nat × DieSt) :=
  (l.filter fun e => e.2.out.cut).map fun e => (e.1, { out := { cut := true } })

/-- Signals from outside that no reset changes stand in their registers again. -/
def restoreInputs (old h : Hw) : Hw :=
  let h := (List.range 48).foldl (fun h b => h.wrB (K.IOBANK_STAT_VGOOD (bankDie b) (bankJ b)) (h.pwr.vccio.testBit b)) h
  h.wr K.GUEST_STAT_VGOOD (old.rd K.GUEST_STAT_VGOOD)

/-- The device after the first step of a cold reset: what no reset clears is kept. -/
def coldBase (h : Hw) : Hw :=
  let h2 : Hw :=
    { csr := SMap.keep h.csr fun k _ => survives true k
      shadow := SMap.keep h.shadow fun k _ => survives true k
      mem := h.mem
      dies := cutDies h.dies
      rst := { phase := .fuses, pinLow := h.rst.pinLow, perstLow := h.rst.perstLow }
      pwr := { lanesGood := h.pwr.lanesGood, vccio := h.pwr.vccio }
      dbg := { ir := h.dbg.ir, boundary := h.dbg.boundary }
      freeCtr := h.freeCtr
      ecount := h.ecount }
  restoreInputs h h2

/-- Step 1 of the cold sequence. -/
def coldReset (v : NonVol) (h : Hw) : NonVol × Hw :=
  let (v, h) := cutFlashes v (endSession h lostReset)
  (v, (coldBase h).wr K.RST_CAUSE_LASTREACH 0)

/-- What the DRAM controllers keep through a warm reset: queued requests are dropped, the cipher's cache is lost. -/
def warmDram (d : Dram) : Dram :=
  { bad := d.bad, tables := d.tables, lastCe := d.lastCe, auditPos := d.auditPos, trained := d.trained, dqs := d.dqs }

/-- The device after the first steps of a warm reset. -/
def warmBase (h : Hw) : Hw :=
  let cut := (List.range 16).filter fun r => h.bit (K.CIPH_R_MER_REKEY r)
  let held := h.bit K.GUEST_CTL_WARMRST
  let h2 : Hw :=
    { csr := SMap.keep h.csr fun k _ => survives false k
      shadow := SMap.keep h.shadow fun k _ => survives false k
      mem := h.mem
      dies := cutDies h.dies
      clk := { h.clk with plls := [], nets := [] }
      dram := warmDram h.dram
      rst := { phase := .fill, warm := true, pinLow := h.rst.pinLow, perstLow := h.rst.perstLow, sensed := h.rst.sensed, fuses := h.rst.fuses, thermHold := h.rst.thermHold, aborted := h.ldr.load.isSome }
      pwr := { failed := h.pwr.failed, hot := h.pwr.hot, temps := h.pwr.temps, lanesGood := h.pwr.lanesGood, vccio := h.pwr.vccio }
      guest := { running := h.guest.running && !held }
      dbg := { ir := h.dbg.ir, boundary := h.dbg.boundary }
      freeCtr := h.freeCtr
      ecount := h.ecount }
  let h2 := optionWarm (restoreInputs h h2)
  cut.foldl (fun h r => h.wr (K.CIPH_R_MER_CUT r) 1) h2

/-- Steps 1 to 3 of the warm sequence, and the start of step 4 (R437). -/
def warmReset (v : NonVol) (h : Hw) : NonVol × Hw :=
  let (v, h) := cutFlashes v (endSession h lostReset)
  let h := (List.range 4).foldl abortStrata ((List.range 4).foldl parkChannel h)
  (v, trainHubSeams ((warmBase h).wr K.RST_CAUSE_LASTREACH 1))

/-- A reset's own sequence may run: in A3 it waits until VCCINT is good again (R459). -/
def resetFree (h : Hw) : Bool := h.pwr.a3 == .out || h.pwr.a3 == .locking

/-- A cold or warm reset that was requested acts. -/
def resetActs (v : NonVol) (h : Hw) (cold : Bool) : NonVol × Hw :=
  if h.rst.request != some cold || !resetFree h then (v, h)
  else if cold then coldReset v h else warmReset v h

/-- Power-on, or a core rail fails: a POR cold reset that holds until every core rail is good (R433, R440). -/
def powerOn (v : NonVol) (h : Hw) (rail : CoreRail) : NonVol × Hw :=
  let (v, h) := coldReset v h
  let h := [K.RST_CAUSE_OPT, K.RST_CAUSE_ADIT, K.RST_CAUSE_THERM, K.RST_CAUSE_CRIT, K.RST_CAUSE_CANARY, K.RST_CAUSE_WARM,
    K.RST_CAUSE_HOT, K.RST_CAUSE_PERST, K.RST_CAUSE_PIN].foldl (fun h k => h.wr k 0) h
  let h := if rail = .vccaux then h.wr K.RST_OPTSTAT_FAILS 0 else h
  (v, onRst (h.wr K.RST_CAUSE_POR 1) fun r => { r with phase := .rails })

/-! ### Die reset (R438) -/

/-- A register field of Fn that a die reset restores. -/
def dieField (n id : Nat) : Bool :=
  decide (dieBase n ≤ id / 64 ∧ id / 64 < dieBase n + 0x1000000) && reachOf id == .D

/-- What a die keeps through a die reset: its frames until they are zeroed, and the mark of a flash operation cut short. -/
def dieBaseSt (x : DieSt) : DieSt :=
  { frames := x.frames, frameErr := x.frameErr, out := { cut := x.out.cut } }

/-- The registers of Fn take their D values, and what the hub holds of its clocks is forgotten. -/
def dieRegisters (h : Hw) (n : Nat) : Hw :=
  let h := { h with csr := SMap.keep h.csr fun k _ => !dieField n k, shadow := SMap.keep h.shadow fun k _ => !dieField n k }
  let h := resetClocks (h.onDie n dieBaseSt) n
  let h := { h with seam := { h.seam with pdoms := (h.seam.pdoms.map fun e => (e.1, ({ closed := e.2.closed.filter fun x => x / 64 != n } : PdomSt))).filter fun e => e.2 != {} } }
  let h := onPwr h fun p => { p with closed := p.closed.filter (· / 64 != n), stopped := p.stopped.filter (· / 16 != n), thermal := SMap.erase p.thermal n, banked := setBits p.banked (12 * n) 12 0 }
  (List.range 12).foldl (fun h j => h.wrB (K.IOBANK_STAT_VGOOD n j) (h.pwr.vccio.testBit (12 * n + j))) h

/-- Accesses that wait in the die are answered: fence acknowledgements, frame operations, drains and restores. -/
def dieAnswers (h : Hw) (n : Nat) : Hw :=
  let acks := h.gal.fenceAcks.filter fun e => e.1 / 1024 == n
  let h := { h with gal := { h.gal with fenceAcks := h.gal.fenceAcks.filter fun e => e.1 / 1024 != n, resps := h.gal.resps ++ acks.map (fun (e : Nat × GResp) => { e.2 with status := Status.offline }) } }
  let h := match (h.die n).eng.op with
    | some (c, _) => if hc : c < 64 then finishDev h ⟨c, hc⟩ 8 else h
    | none => h
  let h := match (h.die n).eng.claim with
    | some c => h.onCore c fun x => { x with claim := none }
    | none => h
  strataAnswers (abortStrata h n) n stAborted

/-- Entries of deliver queues owned by the ports of Fn are discarded (R266). -/
def dieQueues (h : Hw) (n : Nat) : Hw :=
  let h := { h with sched := { h.sched with copies := SMap.keep h.sched.copies fun k _ => k / 16384 / 8 != n, delivering := h.sched.delivering.filter fun e => !(qKind h e.1 == 2 && qIdx h e.1 / 8 == n) } }
  dispatch ((enabledQueues h).foldl (fun h q =>
    if qDeliver h q && qKind h q == 2 && qIdx h q / 8 == n then discardAll h q else h) h)

/-- A load that names Fn fails with FRAMEERR, DETAIL OFFLINE (R299). -/
def dieLoad (h : Hw) (n : Nat) : Hw :=
  match h.ldr.load with
  | some l => match l.legend with
    | some g => if g.dieMask.testBit n then loadFails h 0x0F 8 l.seg 0 else h
    | none => h
  | none => h

/-- Steps 1 and 2 of a die reset that was requested (R438). -/
def dieReset (v : NonVol) (h : Hw) (n : Nat) : NonVol × Hw :=
  let src := bits h.rst.dieReq (3 * n + 2) (3 * n)
  if src = 0 ∨ !hubRuns h ∨ !resetFree h then (v, h)
  else
    let (v, h) := flashCut v (endSession (runDesign h) lostReset) n
    let h := onRst h fun r => { r with dieReq := setBits r.dieReq (3 * n) 3 0, zeroed := setBitAt r.zeroed n false }
    let h := ((h.wr (K.RST_DIE_INRESET n) 1).wr (K.RST_DIE_SRC n) src).wr (K.RST_DIE_COUNT n) (h.rd (K.RST_DIE_COUNT n) + 1)
    let h := dieAnswers (quarantineDie h n) n
    let last := h.rd (K.STRATA_STAT_LAST n)
    let h := resetPorts (dieQueues h n) n
    let h := (List.range 16).foldl (fun h l => endLink h (16 * n + l) dcDiereset) h
    let h := dieLoad (dieUnready h n) n
    let h := (dieRegisters h n).wr (K.STRATA_STAT_LAST n) last
    let h := h.wr K.CFG_LOAD_RELEASED (setBitAt (h.rd K.CFG_LOAD_RELEASED) n false)
    (v, refreshOffline { h with pins := { h.pins with done := false } } n)

/-- Step 3 ends: the frames are zeroed, and the hub seam of Fn retrains. -/
def dieZeroed (h : Hw) (n : Nat) : Hw :=
  if !h.bit (K.RST_DIE_INRESET n) || h.rst.zeroed.testBit n then h
  else
    let h := h.onDie n fun x => { x with frames := [], frameErr := [], mirror := [] }
    let h := onRst h fun r => { r with zeroed := setBitAt r.zeroed n true }
    if seamState h (hubSeam n) = 9 then h else trainStart h (hubSeam n)

/-! ### Requests -/

/-- Critical state fails: the error is logged and a CRIT reset asked for (R424, R439). What the code-byte part of the
entry counts is open. -/
def critFails (h : Hw) (u : CritUnit) : Hw :=
  let h := match u with
    | .queueTables q =>
      let h := h.cnt (K.ERR_CNT_UNCORR 2)
      let (x, h) := h.draw
      logEntry h srcMem 0 3 q.val (bits x 23 16 * 2 ^ 16 + 2 * 2 ^ 12 + x % 64)
    | _ => h
  logEvent (requestReset h false K.RST_CAUSE_CRIT) srcReset 0 K.RST_CAUSE_CRIT.addr

/-- PERST_N falls: the link goes down, and a reset of the reach option PERSTCOLD gives is asked for (R432, R435). -/
def perstFalls (h : Hw) : Hw :=
  if h.rst.phase == .rails then onRst h fun r => { r with perstLow := true }
  else
    let h := linkFalls (onRst h fun r => { r with perstLow := true })
    requestReset { h with pcie := { h.pcie with ready := false } } (optByte h 4 / 2 % 2 == 1) K.RST_CAUSE_PERST

/-- RESET_N falls (R435). -/
def resetPinFalls (h : Hw) : Hw :=
  let h := onRst h fun r => { r with pinLow := true }
  if h.rst.phase == .rails then h else requestReset h true K.RST_CAUSE_PIN

/-! ### The start of the foreman (R437, R441, R480) -/

/-- Every seam that trains has come to its end. -/
def seamsDone (h : Hw) : Bool :=
  (List.range 8).all (fun k => seamState h k == 0 || decide (4 < seamState h k)) &&
  (List.range 4).all fun n => seamState h n != 0 || !h.bit (K.SEAM_CTL_EN n) || !endsLive h n

/-- The foreman may start. -/
def mayStart (h : Hw) : Bool :=
  inPhase h .start || (inPhase h .fill && h.rst.warm && seamsDone h && !h.rst.thermHold)

/-- Entries of the option load are logged (R445, R448). -/
def logOptions (h : Hw) (l : List (Nat × Nat × Nat)) : Hw :=
  l.foldl (fun h e => match e with
    | (3, a, d) => logErr h srcReset none .replaced 0 a d
    | (4, a, d) => logErr h srcReset none .ignored 0 a d
    | _ => logEvent h srcReset 0 K.RST_OPTSTAT_SEQ.addr) h

/-- Channels leave self-refresh at the end of a warm reset, or train (R397, R399). -/
def unparkChannel (h : Hw) (n : Nat) : Hw :=
  if chState h n != chSelfref || h.bit K.CLK_STAT_XABSENT then h
  else if h.dram.trained.testBit n then h.wr (K.DDR_C_STAT_STATE n) chActive
  else startChannel h n

/-- First address of the boot ROM: where the foreman starts. -/
def bootAddr : Word := 0xFFFFFFFFFFF00000

/-- The foreman starts from the boot ROM. -/
def foremanStarts (h : Hw) : Hw :=
  let log := h.rst.toLog
  let aborted := h.rst.aborted
  let warm := h.rst.warm
  let h := onRst h fun r => { r with phase := .running, toLog := [], aborted := false, warm := false }
  let h := if warm then (List.range 4).foldl unparkChannel h else h
  let h := h.onCore 0 fun x => { x with pc := bootAddr, fetching := true }
  let h := reloadCanary h
  let h := if h.bit K.ADIT_BOOTHALT_EN then
      haltCore ((h.wr K.ADIT_BOOTHALT_EN 0).onCore 0 fun x => { x with bootHalted := true }) 0 else h
  let h := logOptions h log
  let h := if aborted then putLoadErr h 0x15 0 0xFF 0 0 else h
  let h := startLinks (refreshGuest h)
  if optByte h 1 = 1 then startLoad h { src := .boot (primaryAddr h) false } else h

/-! ### The commands -/

/-- QUAL_WINDOW. -/
def execQualWindow (count : Nat) (s : State) : Host.Outcome State Fault Refusal := doHw s fun h => qualWindow h count
/-- CRYSTAL_QUAL_TIMEOUT. -/
def execCrystalQualTimeout (s : State) : Host.Outcome State Fault Refusal :=
  doHw s fun h => if inPhase h .crystal then onRst (crystalAbsent h) fun r => { r with phase := .pll } else h
/-- HOLDOVER_TIMEOUT. -/
def execHoldoverTimeout (s : State) : Host.Outcome State Fault Refusal := doHw s holdoverEnds
/-- SURVEY_PLL_LOCK. -/
def execSurveyPllLock (s : State) : Host.Outcome State Fault Refusal := doHw s surveyLocks
/-- ECC_FILL_COMPLETE: every memory of the code bytes holds zeros (R421). -/
def execEccFillComplete (s : State) : Host.Outcome State Fault Refusal :=
  doHw s fun h => if inPhase h .fill && !h.rst.warm then
      onRst ({ h with mem := {} }.wr K.ERR_FILL_DONE 1) fun r => { r with phase := .start } else h
/-- POWER_ON_RESET. -/
def execPowerOnReset (rail : CoreRail) (s : State) : Host.Outcome State Fault Refusal :=
  let (v, h) := powerOn s.nv s.hw rail
  .next { s with nv := v, hw := h }
/-- CORE_RAILS_GOOD: the power-on reset is released, or VCCINT is back and the PLLs restart (R440, R459). -/
def execCoreRailsGood (s : State) : Host.Outcome State Fault Refusal :=
  doHw s fun h =>
    if h.rst.phase == .rails then onRst h fun r => { r with phase := .fuses }
    else if h.pwr.a3 = .rising then a3Restart h else h
/-- RESET_PIN_ASSERT. -/
def execResetPinAssert (s : State) : Host.Outcome State Fault Refusal := doHw s resetPinFalls
/-- RESET_PIN_RELEASE. -/
def execResetPinRelease (s : State) : Host.Outcome State Fault Refusal :=
  doHw s fun h => onRst h fun r => { r with pinLow := false }
/-- PERST_ASSERT. -/
def execPerstAssert (s : State) : Host.Outcome State Fault Refusal := doHw s perstFalls
/-- PERST_RELEASE. -/
def execPerstRelease (s : State) : Host.Outcome State Fault Refusal :=
  doHw s fun h => onRst h fun r => { r with perstLow := false }
/-- COLD_RESET. -/
def execColdReset (s : State) : Host.Outcome State Fault Refusal :=
  let (v, h) := resetActs s.nv s.hw true
  .next { s with nv := v, hw := h }
/-- WARM_RESET. -/
def execWarmReset (s : State) : Host.Outcome State Fault Refusal :=
  let (v, h) := resetActs s.nv s.hw false
  .next { s with nv := v, hw := h }
/-- DIE_RESET. -/
def execDieReset (d : Die) (s : State) : Host.Outcome State Fault Refusal :=
  let (v, h) := dieReset s.nv s.hw d.val
  .next { s with nv := v, hw := h }
/-- CRIT_RESET. -/
def execCritReset (what : CritUnit) (s : State) : Host.Outcome State Fault Refusal := doHw s fun h => critFails h what
/-- FUSE_SENSE_COMPLETE. -/
def execFuseSenseComplete (s : State) : Host.Outcome State Fault Refusal :=
  doHw s fun h => if inPhase h .fuses then optionStart s.nv (fusesApply s.nv h) else h
/-- OPTION_LOAD_COMPLETE. -/
def execOptionLoadComplete (s : State) : Host.Outcome State Fault Refusal :=
  doHw s fun h => if inPhase h .options then optionLoaded s.nv h else h
/-- FOREMAN_START. -/
def execForemanStart (s : State) : Host.Outcome State Fault Refusal :=
  doHw s fun h => if mayStart h then foremanStarts h else h
/-- DIE_FRAMES_ZEROED. -/
def execDieFramesZeroed (d : Die) (s : State) : Host.Outcome State Fault Refusal := doHw s fun h => dieZeroed h d.val

end Sys2Proof.Machine
end

