-- ==== Sys2Proof/Machine/Access.lean ====
section
/-!
DEFINITION. Reads and writes of registers at their blocks: what each block adds to the access codes of R8, and the commands
that write or read a register.
-/
namespace Sys2Proof.Machine

/-! ### Writes -/

/-- A write to HUB.PCIE. -/
def writePcie (h : Hw) (m : Master) (a size data : Nat) : Hw :=
  let base := a / 8 * 8
  let d := placed a size data
  let mask := writeMask64 a size
  if base = K.PCIE_CTL_DBGWIN.addr then
    let old := h.bit K.PCIE_CTL_DBGWIN
    let h := (writeReg h m a size data).wrB K.PCIE_CTL_DBGWIN old
    if mask.testBit 7 && d.testBit 7 != old then writeDbgwin h m (d.testBit 7) else h
  else if within base 0x1401000 0x1401400 then
    let f := (base - 0x1401000) / 0x10
    if base % 16 = 0 then writeFuncMsix h m f d mask
    else if f = 0 then h
    else writeReg h m a size data
  else if within base 0x1500000 0x1520000 then writeHring h m ((base - 0x1500000) / 8) d mask
  else writeReg h m a size data

/-- A write to HUB.RST. -/
def writeRst (h : Hw) (m : Master) (a size data : Nat) : Hw :=
  if a / 8 * 8 = K.RST_CANARY_FEED_KEY.addr then
    (if (writeMask64 a size).testBit 0 then canaryFeed h m (placed a size data % 256) else h)
  else refreshFrozen (writeReg h m a size data)

/-- A write to HUB.CFG. -/
def writeCfg (h : Hw) (m : Master) (a size data : Nat) : Hw :=
  let base := a / 8 * 8
  let d := placed a size data
  let mask := writeMask64 a size
  if base = K.CFG_WORK_ADDR.addr then writeWork h m d mask
  else if base = K.CFG_RELEASE_DIES.addr then (if mask.testBit 0 then writeRelease h m (d % 16) else h)
  else if base = K.CFG_COMMIT_GO.addr then writeCommit h d mask
  else writeReg h m a size data

/-- A write to a pin register of an I/O bank: the odd pin of a pair whose even pin is staged differential ignores STD and
follows the even pin (R509). -/
def writePin (h : Hw) (m : Master) (n j i a size data : Nat) : Hw :=
  let old := h.sh (K.IOBANK_PIN_STD n j i)
  let h := writeReg h m a size data
  if i % 2 = 1 ∧ stdDiff (h.sh (K.IOBANK_PIN_STD n j (i - 1))) then h.wrSh (K.IOBANK_PIN_STD n j i) old else h

/-- A write to a register of DIE.Fn, at offset `off` of the block. -/
def writeDie (h : Hw) (m : Master) (n off a size data : Nat) : Hw :=
  let base := off / 8 * 8
  let d := placed a size data
  let mask := writeMask64 a size
  if within off 0xF00000 0xF00200 && base % 0x40 == 8 then writeFportStat h n ((base - 0xF00000) / 0x40) d mask
  else if within off 0xE00000 0xF00000 then outWrite h n (.hub m) (off - 0xE00000) size data
  else if within off 0xC10000 0xC10800 && base % 32 == 0 then trySwitch (writeReg h m a size data) n ((base - 0xC10000) / 32)
  else if base = 0xC20200 then
    let h := writeReg h m a size data
    if (d &&& mask).testBit 63 then latchStakes h n else h
  else if base = 0xA00020 then
    (if (d &&& mask).testBit 0 then htrig h m (bits d 7 4) (bits d 3 1) else h)
  else if within off 0xB00000 0xB00600 then (if mask.testBit 0 then writeFence h m n ((base - 0xB00000) / 8) d else h)
  else if within off 0x700000 0x706000 then
    let s := (base - 0x700000) / 0x80
    let w := base / 8 % 16
    writeMask h m n s w (mergeBits (h.rd (K.MASK_SEC_W_BITS n s w)) mask d)
  else match csrAt (a / 8 * 8) with
    | some (.IOBANK_PIN, [_, j, i]) => writePin h m n j i a size data
    | _ => writeReg h m a size data

/-- What the scheduler finds in bytes of the queue tables that were written with the test check bits (R424, R427, R429): an
uncorrectable byte is an error in critical state, a corrected one is counted and logged. -/
def queueTest (h : Hw) (q : Nat) (l : List ByteSeen) : Hw :=
  if l.contains .uncorrectable then critFails h (.queueTables (Fin.ofNat 16384 q))
  else
    let fixed := (l.filter (· != .clean)).length
    let key := (q, 0)
    if fixed = 0 then h
    else if SMap.get (h.mem.lastCe.map fun e => (e.1, some e.2)) 2 none = some key then h.cnt (K.ERR_CNT_CORR 2)
    else
      let h := h.cnt (K.ERR_CNT_CORR 2)
      let h := { h with mem := { h.mem with lastCe := SMap.ins (SMap.erase h.mem.lastCe 2) 2 key } }
      let (x, h) := h.draw
      logEntry h srcMem 0 1 q (min fixed 255 * 2 ^ 16 + 2 * 2 ^ 12 + x % 64)

/-- A write to HUB.SCHED. In test mode with MEM = 2 the bytes that the foreman or Adit writes to a queue's table registers carry
the test check bits, and the scheduler reads them at once (R429; DESIGN CHOICE: when it reads them is open). -/
def writeQueues (h : Hw) (m : Master) (a size data : Nat) : Hw :=
  let g := writeSched h m a size data
  if within a 0x500000 0x600000 && h.bit K.ERR_TEST_EN && (m == .core 0 || m == .adit) && h.rd K.ERR_TEST_MEM == 2 then
    let g := if h.bit K.ERR_TEST_ONESHOT then g.wr K.ERR_TEST_EN 0 else g
    queueTest g ((a - 0x500000) / 0x40)
      ((toBytes size data).map fun b => judgeByte b (codeBits b ^^^ h.rd K.ERR_TEST_CHK))
  else g

/-- A write of a master reaches the block of a register. -/
def csrStore (h : Hw) (m : Master) (a size data : Nat) : Hw :=
  match dieOfCsr a with
  | some n => writeDie h m n (a - dieBase n) a size data
  | none =>
    if 0x1E00000 ≤ a then writeGuest h m a size data
    else if 0x1C00000 ≤ a then writeAdit h m a size data
    else if 0x1600000 ≤ a then writeLane h m a size data
    else if 0x1400000 ≤ a then writePcie h m a size data
    else if 0x1200000 ≤ a then writeDdr h m a size data
    else if 0x1100000 ≤ a then writeCiph h m a size data
    else if 0x1000000 ≤ a then writeReg h m a size data
    else if 0xC00000 ≤ a then writeCfg h m a size data
    else if 0x800000 ≤ a then writeReg h m a size data
    else if 0x400000 ≤ a then writeQueues h m a size data
    else if 0x200000 ≤ a then writeReg h m a size data
    else if 0x100000 ≤ a then writeRst h m a size data
    else match fieldsAt (a / 8 * 8) with
      | [] => writeReg h m a size data
      | _ => logErr h srcId (some m) .wrro 0 a data

/-! ### Reads -/

/-- SEAM.EYE for the lane EYESEL names: MINMARGIN and ERRS clear on a read other than Adit's. -/
def readEye (h : Hw) (k : Nat) (clears : Bool) : Nat × Hw :=
  let d := h.rd (K.SEAM_EYESEL_DIR k)
  let g := h.rd (K.SEAM_EYESEL_GROUP k)
  let l := h.rd (K.SEAM_EYESEL_LANE k)
  let i := d * 2304 + 17 * g + l
  let x := h.lane k i
  let spare := h.rd (K.SEAM_GRP_STAT_SPARE k d g) == 2
  let st := h.rd (K.SEAM_GRP_STAT_GSTATE k d g)
  let carries := if l = 16 then spare else !(spare && h.rd (K.SEAM_GRP_STAT_SPARELANE k d g) == l)
  let inUse := carries && st != gOff && st != gRetired && st != gRemapped
  let lock := (h.seamSt k).trained && !x.noLock
  let v := x.errs * 2 ^ 32 + x.minMargin * 2 ^ 16 + x.margin * 2 ^ 8 + b2n lock * 2 + b2n inUse
  (v, if clears then h.onLane k i fun x => { x with errs := 0, minMargin := 63 } else h)

/-- A read of a register of DIE.Fn: the 64-bit value and the state after its side effects. -/
def readDie (h : Hw) (m : Master) (n base : Nat) : Nat × Hw :=
  let off := base - dieBase n
  let clears := m != .adit
  let plain : Nat × Hw := (readVal h base, if clears then clearRc h base else h)
  if off = 0x800018 then readEye h n clears
  else if off = 0x900018 then readEye h (4 + n) clears
  else if within off 0xE00000 0xF00000 then outRead h n (.hub m) (off - 0xE00000)
  else if within off 0xC20000 0xC20200 then readStake h n ((off - 0xC20000) / 8)
  else if off = 0x680048 then
    let s := h.rd (K.ASSAY_SECSEL_SECTOR n)
    let x := (h.die n).scrub
    (SMap.get x.secEpoch s 0 * 2 ^ 32 + b2n (x.secReady.contains s), h)
  else if within off 0x680050 0x680060 then
    (SMap.get (h.die n).scrub.secDig (h.rd (K.ASSAY_SECSEL_SECTOR n)) 0 / 2 ^ (8 * (off - 0x680050)) % 2 ^ 64, h)
  else if off = 0x600008 then
    ((setBits plain.1 (K.SCRUB_STAT_PAUSE n).lo (K.SCRUB_STAT_PAUSE n).w (scrubPause h n)), plain.2)
  else plain

/-- A read of GRIDTIME (R95): a read of the lower half latches the upper half, and a 32-bit read of the upper half returns
the latched value. -/
def readGrid (h : Hw) (a size : Nat) : Nat × Hw :=
  if size ≠ 8 ∧ a % 8 = 4 then (h.clk.gridUpper * 2 ^ 32, h)
  else (h.now, { h with clk := { h.clk with gridUpper := h.now / 2 ^ 32 } })

/-- A read of a register by a master: the value of the half or the whole, and the state after its side effects. An offset
with no register reads 0 (R23). -/
def csrLoad (h : Hw) (m : Master) (a size : Nat) : Nat × Hw :=
  let base := a / 8 * 8
  let (v, h) : Nat × Hw := match dieOfCsr a with
    | some n => readDie h m n base
    | none =>
      if 0x1E00000 ≤ a then (if hasGuest h then readVal h base else 0, if m != .adit then clearRc h base else h)
      else if 0x1C00000 ≤ a then readAdit h m base
      else if 0x1600000 ≤ a then (readLane h base, if m != .adit then clearRc h base else h)
      else if within base 0x1500000 0x1500800 then (0, h)
      else if base = (K.PCIE_FUNC_VWIN_EN 0).addr then (0, h)
      else if within a 0x400000 0x800000 then (readSched h base, if m != .adit && !isDoorbell base then clearRc h base else h)
      else if base = K.CREW_IDLE_IDLE.addr then (maskOf ((List.range 64).filter fun c => c != 0 && coreIdle h c), h)
      else if base = K.CLK_GRIDTIME_TIME.addr then readGrid h a size
      else if base = (K.PWR_TOL_NS 2).addr && !hasGuest h then (0xFFFFFFFF, h)
      else (readVal h base, if m != .adit then clearRc h base else h)
  (readPart a size v, h)

/-! ### The commands -/

/-- A write to a register through the gates of R24, R25 and R7. -/
def csrWriteBy (h : Hw) (m : Master) (a size data : Nat) : Hw :=
  gated h m a fun h =>
    if csrShape a size then csrStore h m a size data else logAccess h (blockSource a) m .tgterr a

/-- A read of a register through the same gates; what it returns is recorded. -/
def csrReadBy (h : Hw) (m : Master) (a size : Nat) : Hw :=
  match csrGate h m false a with
  | .ok =>
    if csrShape a size then
      let (v, h) := csrLoad h m a size
      { h with gal := { h.gal with lastRead := some (m, a, v) } }
    else logAccess h (blockSource a) m .tgterr a
  | .denied => logAccess h srcGallery m .denied a
  | _ => h

/-- CSR_WRITE. -/
def execCsrWrite (m : Master) (addr size data : Nat) (s : State) : Host.Outcome State Fault Refusal :=
  doHw s fun h => csrWriteBy h m addr size data
/-- ST_WRITE (R300). -/
def execStWrite (m : Master) (addr size data : Nat) (s : State) : Host.Outcome State Fault Refusal :=
  doHw s fun h => csrWriteBy h m addr size data
/-- RC_READ. -/
def execRcRead (m : Master) (addr size : Nat) (s : State) : Host.Outcome State Fault Refusal :=
  doHw s fun h => csrReadBy h m addr size
/-- GRIDTIME_LOW_READ. -/
def execGridtimeLowRead (m : Master) (size : Nat) (s : State) : Host.Outcome State Fault Refusal :=
  doHw s fun h => csrReadBy h m K.CLK_GRIDTIME_TIME.addr size
/-- FUNC_MSIX_WRITE. -/
def execFuncMsixWrite (m : Master) (f : Func) (data : Word) (s : State) : Host.Outcome State Fault Refusal :=
  doHw s fun h => gated h m (msixAddr f.val) fun h => writeFuncMsix h m f.val data.toNat (2 ^ 64 - 1)
/-- HRING_HEAD_WRITE: the upper 16 bits of HRINGq. -/
def execHringHeadWrite (m : Master) (q : Queue) (head : BitVec 16) (s : State) : Host.Outcome State Fault Refusal :=
  doHw s fun h => gated h m (hringAddr q.val) fun h => writeHring h m q.val (head.toNat * 2 ^ 48) (0xFFFF * 2 ^ 48)
/-- DBGWIN_WRITE. -/
def execDbgwinWrite (m : Master) (v : Bool) (s : State) : Host.Outcome State Fault Refusal :=
  doHw s fun h => gated h m K.PCIE_CTL_DBGWIN.addr fun h => writeDbgwin h m v
/-- FPORT_STALLED_CLEAR. -/
def execFportStalledClear (m : Master) (d : Die) (p : Port) (s : State) : Host.Outcome State Fault Refusal :=
  doHw s fun h => gated h m (fportStat d.val p.val) fun h => writeFportStat h d.val p.val (2 ^ 32) (2 ^ 32)
/-- TAP_TRIGGER (R151, R468). -/
def execTapTrigger (dies : BitVec 4) (profile : Fin 8) (go : Bool) (s : State) : Host.Outcome State Fault Refusal :=
  doHw s fun h =>
    let h := selectIr h 0x11
    if go then gated h .adit (K.STRATA_HTRIG_GO 0).addr fun h => htrig h .adit dies.toNat profile.val else h

end Sys2Proof.Machine
end

