-- ==== Sys2Proof/Machine/Deliver.lean ====
section
/-!
DEFINITION. What a Gallery request does at its target, the delivery of responses, and the routers of the mesh (R16 to R26,
R159, R250, R306, R405).
-/
namespace Sys2Proof.Machine

/-! ### Targets -/

/-- A request to the doorbell window (R250). -/
def atDoorbell (h : Hw) (q : GReq) : Hw :=
  if q.kind = .read then answer h q .ok 0
  else if q.size = 64 ∧ q.addr % 64 = 0 ∧ q.be % 2 ^ 64 = allOn 64 then
    let n := doorbellQueue q.addr
    let h := match q.m with
      | .fport d p => portDoorbell h d.val p.val q
      | m => ringDoorbell h m n (natDesc q.data)
    if q.kind = .pwrite then h else answer h q .ok 0
  else answer h q .tgterr 0

/-- Whether a non-posted write that closed a fence waits for SETTLED (R306). -/
def fenceWaits (h : Hw) (q : GReq) : Option Nat :=
  match dieOfCsr q.addr with
  | some n =>
    let off := q.addr - dieBase n
    let s := (off - 0xB00000) / 8
    if within off 0xB00000 0xB00600 && q.kind == .write && h.bit (K.FENCE_SEC_FENCE n s) && !h.bit (K.FENCE_SEC_SETTLED n s)
    then some (1024 * n + s) else none
  | none => none

/-- A request to a register. -/
def atCsr (h : Hw) (q : GReq) : Hw :=
  if isDoorbell q.addr then atDoorbell h q
  else match csrGate h q.m (q.kind != .read) q.addr with
    | .ok =>
      if !csrShape q.addr q.size then
        answer (if q.kind = .pwrite then h else logAccess h (blockSource q.addr) q.m .tgterr q.addr) q .tgterr 0
      else if q.kind = .read then
        let (v, h) := csrLoad h q.m q.addr q.size
        answer h q .ok v
      else
        let h := csrStore h q.m q.addr q.size q.data
        match fenceWaits h q with
        | some k => { h with gal := { h.gal with fenceAcks := h.gal.fenceAcks ++ [(k, respOf q .ok 0)] } }
        | none => answer h q .ok 0
    | .denied => refuse h q .denied
    | .decerr => refuse h q .decerr
    | st => answer h q st 0

/-- A request to a code-byte memory. -/
def atMemory (h : Hw) (q : GReq) : Hw :=
  if q.kind = .read then
    let (v, bad, h) := memRead h (mcode q.m) q.addr q.size
    answer h q (if bad then .poison else .ok) v
  else answer (storeBytes h q.m q.addr q.size q.data q.be) q .ok 0

/-- A window range touches an area the ring of Sn claims (R59). -/
def touchesRing (h : Hw) (n a size : Nat) : Bool :=
  (List.range (size / 64 + 2)).any fun i => claimedAt (ringDepth h n) (min (a / 64 * 64 + 64 * i) (a + size - 1) - stackBase n)

/-- A request to a stacked SRAM window. In A3 it waits for the exit; claimed areas are left to STRATA_WINDOW_ACCESS. -/
def atStack (h : Hw) (i n : Nat) (q : GReq) : Hw :=
  if inA3 h then h
  else if !dieReachable h n then answer (dropReq h i) q .offline 0
  else if !populated h q.addr q.size then refuse (dropReq h i) q .decerr
  else if touchesRing h n q.addr q.size then h
  else atMemory (dropReq h i) q

/-- A request to DRAM joins the channels' queue; a counter area is the cipher's alone, but for Adit's reads (R405). -/
def atDram (h : Hw) (q : GReq) : Hw :=
  if !populated h q.addr q.size then refuse h q .decerr
  else if ((reqLines q).any fun l => inCounters h (64 * l)) && !(q.m == .adit && q.kind == .read) then refuse h q .denied
  else { h with dram := { h.dram with queue := h.dram.queue ++ [q] } }

/-- The i-th request on the Gallery reaches its target (R22 to R26). Requests to fabric ports are left to
FPORT_INBOUND_REQUEST. The rights of R24 are checked before the address is matched against the blocks of R23: a fabric port
or link access to a CSR address outside every block answers DENIED, not DECERR (DESIGN CHOICE). No target holds a request
back for a Gallery request of its own: what a target fetches in the course of a request, the cipher its counters, it fetches
on VC1 into response space of its own, apart from the requests and responses kept here (R21). -/
def deliver (h : Hw) (i : Nat) : Hw :=
  match h.gal.reqs[i]? with
  | none => h
  | some q =>
    if mustWait h i then h
    else if !mayReach h q.m (q.kind != .read) q.addr then refuse (dropReq h i) q .denied
    else match regionOf q.addr with
      | .csr => atCsr (dropReq h i) q
      | .hub => if populated h q.addr q.size then atMemory (dropReq h i) q else refuse (dropReq h i) q .decerr
      | .stack n => atStack h i n q
      | .dram => atDram (dropReq h i) q
      | .port _ _ => h
      | .nothing => refuse (dropReq h i) q .decerr

/-! ### Claimed areas of the stacked SRAM (R159) -/

/-- A slot on which a drain or restore works, and one that a deep operation holds against writes. -/
def slotHeld (h : Hw) (n slot : Nat) (wr : Bool) : Bool :=
  match (h.die n).strata with
  | .drain c => c.slot == slot
  | .deep s _ _ => wr && s == slot
  | .restore s _ _ _ _ => s == slot
  | _ => false

/-- Masters that may write a claimed area (R159). -/
def mayWriteRing (h : Hw) (n : Nat) (m : Master) : Bool :=
  match m with
  | .core _ | .adit => true
  | .host _ => h.bit (K.STRATA_CTL_HOSTWR n)
  | _ => false

/-- The i-th request touches a claimed area of a stacked SRAM. -/
def ringAccess (h : Hw) (i : Nat) : Hw :=
  match h.gal.reqs[i]? with
  | none => h
  | some q => match regionOf q.addr with
    | .stack n =>
      let wr := q.kind != .read
      if mustWait h i || inA3 h || !dieReachable h n || !populated h q.addr q.size || !touchesRing h n q.addr q.size then h
      else if !mayReach h q.m wr q.addr || (wr && !mayWriteRing h n q.m) then refuse (dropReq h i) q .denied
      else if slotHeld h n (slotAt (q.addr - stackBase n)) wr then h
      else atMemory (dropReq h i) q
    | _ => h

/-! ### Responses -/

/-- The i-th response arrives at its master (R20). -/
def responseArrives (h : Hw) (i : Nat) : Hw :=
  match h.gal.resps[i]? with
  | none => h
  | some r =>
    let h := { h with gal := { h.gal with resps := h.gal.resps.eraseIdx i } }
    let keep : Hw := { h with gal := { h.gal with arrived := h.gal.arrived ++ [r] } }
    match r.m with
    | .core _ | .fport _ _ => keep
    | .adit => if h.dbg.bus = some r.id then keep else h
    | .host _ => if r.kind = .read then returnPiece h r else h
    | .guest => onGuest h fun g => { g with lastResp := some (r.tag, r.status, r.data), tags := g.tags.filter (· != r.tag) }
    | .link _ | .block => h

/-! ### The mesh (R17 to R19) -/

/-- Key of an input buffer: router, input, class and channel pair. Inputs and outputs are 0 local, 1 east, 2 west, 3 north,
4 south; an input is named by the neighbour it comes from. -/
def bufKey (r inp cv : Nat) : Nat := (r * 5 + inp) * 6 + cv

/-- Output a packet takes at router r: first along the row, then along the column (R19). -/
def routeOut (r dest : Nat) : Nat :=
  if r % 4 < dest % 4 then 1 else if dest % 4 < r % 4 then 2
  else if r / 4 < dest / 4 then 4 else if dest / 4 < r / 4 then 3 else 0

/-- The neighbour at an output. -/
def neighbour (r out : Nat) : Nat := match out with | 1 => r + 1 | 2 => r - 1 | 3 => r - 4 | _ => r + 4
/-- The input of the neighbour at which an output arrives. -/
def arriveAt (out : Nat) : Nat := match out with | 1 => 2 | 2 => 1 | 3 => 4 | _ => 3

/-- Change the mesh. -/
def onMesh (h : Hw) (f : Mesh → Mesh) : Hw := { h with gal := { h.gal with mesh := f h.gal.mesh } }

/-- A head flit at an input and pair asks for an output and holds a credit there. -/
def wants (x : Mesh) (r out k : Nat) : Bool :=
  match SMap.get x.bufs (bufKey r (k / 6) (k % 6)) [] with
  | [] => false
  | f :: _ => routeOut r f.dest.val == out &&
      (out == 0 || decide (SMap.get x.used (bufKey (neighbour r out) (arriveAt out) (k % 6)) 0 < Config.flitDepth + 1))

/-- The combination an output serves: the one that holds it, else the next in turn (R18). -/
def served (x : Mesh) (r out : Nat) : Option Nat :=
  match SMap.get x.grant (r * 5 + out) 0 with
  | 0 =>
    let p := SMap.get x.rr (r * 5 + out) 0
    ((List.range 30).map fun i => (p + i) % 30).find? fun k => wants x r out k
  | k + 1 => if wants x r out k then some k else none

/-- A flit moves from an input buffer through an output. -/
def moveFlit (x : Mesh) (r inp cv : Nat) (f : Flit) (rest : List Flit) : Mesh :=
  let out := routeOut r f.dest.val
  let k := inp * 6 + cv
  let here := bufKey r inp cv
  let next := bufKey (neighbour r out) (arriveAt out) cv
  let x := { x with bufs := SMap.set x.bufs here rest [] }
  let x := if inp = 0 then x else { x with used := SMap.set x.used here (SMap.get x.used here 0 - 1) 0 }
  let x := { x with grant := SMap.set x.grant (r * 5 + out) (if f.last then 0 else k + 1) 0, rr := SMap.set x.rr (r * 5 + out) (if f.last then (k + 1) % 30 else k) 0 }
  if out = 0 then { x with out := (r, f) :: x.out }
  else { x with
    bufs := SMap.set x.bufs next (SMap.get x.bufs next [] ++ [f]) []
    used := SMap.set x.used next (SMap.get x.used next 0 + 1) 0 }

/-- Class of a packet (R16): 0 request, 1 posted, 2 response. -/
def packetClass : Packet → Nat
  | .read | .write | .atomic | .flush => 0
  | .pwrite | .doorbell | .message => 1
  | .readData | .ack | .error => 2

/-- Virtual channel of an originating master (R16): 0 user, 1 device. -/
def masterVc : Master → Nat
  | .host _ | .fport _ _ | .guest | .link _ => 0
  | .core _ | .adit | .block => 1

/-- The class and channel pair of a packet, which routers keep throughout its journey; a response travels on the channel of
its request (R16). -/
def flitPair (f : Flit) : Nat := 2 * packetClass f.kind + masterVc f.m

/-- The four central routers, to which the crew attaches (R19). -/
def central (r : Nat) : Bool := r == 5 || r == 6 || r == 9 || r == 10

/-- Whether a packet may enter the mesh at a router: a crew core's requests and posted packets enter at a central router, and
the responses to it leave at one (R19). -/
def attaches (r : Nat) (f : Flit) : Bool :=
  match f.m with
  | .core _ => if packetClass f.kind = 2 then central f.dest.val else central r
  | _ => true

/-- Router hops of the path from one router to another (R19). -/
def hops (r dest : Nat) : Nat :=
  (if r % 4 ≤ dest % 4 then dest % 4 - r % 4 else r % 4 - dest % 4) + (if r / 4 ≤ dest / 4 then dest / 4 - r / 4 else r / 4 - dest / 4)

/-- A flit is injected at a router's local input on the pair of its packet, or the head flit of a buffer is forwarded when its
output serves it. -/
def flitForward (h : Hw) (r inp cv : Nat) (inject : Option Flit) : Hw :=
  let x := h.gal.mesh
  match inject with
  | some f =>
    let l := SMap.get x.bufs (bufKey r inp cv) []
    if inp = 0 ∧ cv = flitPair f ∧ attaches r f ∧ l.length < Config.flitDepth + 1 then onMesh h fun x => { x with bufs := SMap.set x.bufs (bufKey r inp cv) (l ++ [f]) [] }
    else h
  | none => match SMap.get x.bufs (bufKey r inp cv) [] with
    | [] => h
    | f :: rest =>
      if served x r (routeOut r f.dest.val) = some (inp * 6 + cv) then onMesh h fun x => moveFlit x r inp cv f rest else h

/-! ### The commands -/

/-- GALLERY_REQUEST. -/
def execGalleryRequest (i : Nat) (s : State) : Host.Outcome State Fault Refusal := doHw s fun h => deliver h i
/-- GALLERY_RESPONSE. -/
def execGalleryResponse (i : Nat) (s : State) : Host.Outcome State Fault Refusal := doHw s fun h => responseArrives h i
/-- STRATA_WINDOW_ACCESS. -/
def execStrataWindowAccess (i : Nat) (s : State) : Host.Outcome State Fault Refusal := doHw s fun h => ringAccess h i
/-- FLIT_FORWARD. -/
def execFlitForward (r : Fin 16) (inp : Fin 5) (cv : Fin 6) (inject : Option Flit) (s : State) :
    Host.Outcome State Fault Refusal :=
  doHw s fun h => flitForward h r.val inp.val cv.val inject

end Sys2Proof.Machine
end

