-- ==== Sys2Proof/Machine/FabricCmds.lean ====
section
/-!
DEFINITION. The commands of sector ports, outposts, spines, fences, the mask table, the scrubber and the Assay units.
-/
namespace Sys2Proof.Machine

/-! ### Sector ports (R60, R61) -/

/-- SECTOR_PORT_REQUEST. -/
def execSectorPortRequest (d : Die) (sec : Sector) (wr : Bool) (beat : Fin 2097152) (data be : Nat) (s : State) :
    Host.Outcome State Fault Refusal :=
  doHw s fun h => secRequest h d.val sec.val wr beat.val data be

/-- SECTOR_PORT_RESPONSE. -/
def execSectorPortResponse (d : Die) (sec : Sector) (s : State) : Host.Outcome State Fault Refusal :=
  doHw s fun h => secRespond h d.val sec.val

/-! ### Outposts (R63 to R65) -/

/-- OUTPOST_PORT_ACCESS. -/
def execOutpostPortAccess (d : Die) (wr : Bool) (off : Fin 4096) (data : Nat) (s : State) :
    Host.Outcome State Fault Refusal :=
  doHw s fun h =>
    if !designRuns h d.val 11 then h
    else
      let h := h.onDie d.val fun x => { x with portErr := false }
      if wr then outWrite h d.val .design (off.val / 8 * 8) 8 data
      else
        let (v, h) := outRead h d.val .design off.val
        h.onDie d.val fun x => { x with portData := v }

/-- A write to an outpost register by the side that a command names. -/
def sideWrite (h : Hw) (n : Nat) (src : Side) (off data : Nat) : Hw :=
  match src with
  | .hub m => gated h m (dieBase n + 0xE00000 + off) fun h => outWrite h n (.hub m) off 8 data
  | .design =>
    if designRuns h n 11 then outWrite (h.onDie n fun x => { x with portErr := false }) n .design off 8 data else h

/-- A read of an outpost register by the side that a command names. -/
def sideRead (h : Hw) (n : Nat) (src : Side) (off : Nat) : Hw :=
  match src with
  | .hub m => match csrGate h m false (dieBase n + 0xE00000 + off) with
    | .ok => (outRead h n (.hub m) off).2
    | st => logAccess h srcGallery m st (dieBase n + 0xE00000 + off)
  | .design =>
    if designRuns h n 11 then
      let (v, h) := outRead h n .design off
      h.onDie n fun x => { x with portData := v, portErr := false }
    else h

/-- FLASH_READ. -/
def execFlashRead (d : Die) (src : Side) (line : Fin 8192) (s : State) : Host.Outcome State Fault Refusal :=
  doHw s fun h => sideWrite h d.val src 0x10 (line.val * 64 + 1)

/-- FLASH_PROGRAM. -/
def execFlashProgram (d : Die) (src : Side) (line : Fin 8192) (s : State) : Host.Outcome State Fault Refusal :=
  doHw s fun h => sideWrite h d.val src 0x10 (line.val * 64 + 2)

/-- FLASH_ERASE. -/
def execFlashErase (d : Die) (src : Side) (line : Fin 8192) (s : State) : Host.Outcome State Fault Refusal :=
  doHw s fun h => sideWrite h d.val src 0x10 (line.val * 64 + 3)

/-- FLASH_OP_COMPLETE. -/
def execFlashOpComplete (d : Die) (s : State) : Host.Outcome State Fault Refusal :=
  let r := flashEnds s.nv s.hw d.val
  .next { s with nv := r.1, hw := r.2 }

/-- UART_DATA_WRITE. -/
def execUartDataWrite (d : Die) (u : Fin 2) (src : Side) (v : Byte) (s : State) : Host.Outcome State Fault Refusal :=
  doHw s fun h => sideWrite h d.val src (0x108 + 0x40 * u.val) v.toNat

/-- UART_DATA_POP. -/
def execUartDataPop (d : Die) (u : Fin 2) (src : Side) (s : State) : Host.Outcome State Fault Refusal :=
  doHw s fun h => sideRead h d.val src (0x108 + 0x40 * u.val)

/-- UART_RX_FRAME. -/
def execUartRxFrame (d : Die) (u : Fin 2) (v : Byte) (perr ferr : Bool) (s : State) :
    Host.Outcome State Fault Refusal :=
  doHw s fun h => uartReceive h d.val u.val v perr ferr

/-- UART_TX_FRAME. -/
def execUartTxFrame (d : Die) (u : Fin 2) (s : State) : Host.Outcome State Fault Refusal :=
  doHw s fun h => uartSent h d.val u.val

/-- SPI_DATA_WRITE. -/
def execSpiDataWrite (d : Die) (src : Side) (v : Byte) (s : State) : Host.Outcome State Fault Refusal :=
  doHw s fun h => sideWrite h d.val src 0x208 v.toNat

/-- SPI_DATA_POP. -/
def execSpiDataPop (d : Die) (src : Side) (s : State) : Host.Outcome State Fault Refusal :=
  doHw s fun h => sideRead h d.val src 0x208

/-- SPI_BYTE_TRANSFER. -/
def execSpiByteTransfer (d : Die) (rx : Byte) (s : State) : Host.Outcome State Fault Refusal :=
  doHw s fun h => spiTransfer h d.val rx

/-- I2C_CMD_WRITE. -/
def execI2cCmdWrite (d : Die) (src : Side) (cmd : Nat) (s : State) : Host.Outcome State Fault Refusal :=
  doHw s fun h => sideWrite h d.val src 0x308 cmd

/-- I2C_CMD_POP. -/
def execI2cCmdPop (d : Die) (src : Side) (s : State) : Host.Outcome State Fault Refusal :=
  doHw s fun h => sideRead h d.val src 0x308

/-- I2C_BYTE_TRANSFER. -/
def execI2cByteTransfer (d : Die) (ev : I2cEvent) (s : State) : Host.Outcome State Fault Refusal :=
  doHw s fun h => i2cEvent h d.val ev

/-! ### Spines (R85, R86) -/

/-- SPINE_CONTENTION_DETECT. -/
def execSpineContentionDetect (d : Die) (col : Fin 12) (spine : Fin 48) (drv : BitVec 16) (s : State) :
    Host.Outcome State Fault Refusal :=
  doHw s fun h =>
    if h.bit (K.RST_DIE_INRESET d.val) || decide (popCount 16 drv.toNat < 2) then h
    else spineContention h d.val col.val spine.val drv.toNat

/-- SPINE_REPAIR_COMPLETE. -/
def execSpineRepairComplete (d : Die) (uncorr : Bool) (s : State) : Host.Outcome State Fault Refusal :=
  doHw s fun h => spineRepaired h d.val uncorr

/-! ### Fences and the mask table (R306, R307, R317) -/

/-- FENCE_CLOSE: a write of FENCE = 1 that leaves SETTING as it stands. -/
def execFenceClose (m : Master) (d : Die) (sec : Sector) (s : State) : Host.Outcome State Fault Refusal :=
  doHw s fun h => gated h m (fenceAddr d.val sec.val) fun h =>
    writeFence h m d.val sec.val (1 + 2 * h.rd (K.FENCE_SEC_SETTING d.val sec.val))

/-- FENCE_SETTLED. -/
def execFenceSettled (d : Die) (sec : Sector) (s : State) : Host.Outcome State Fault Refusal :=
  doHw s fun h => settleFence h d.val sec.val

/-- FENCE_LIFT: a write of FENCE = 0 that leaves SETTING as it stands. -/
def execFenceLift (m : Master) (d : Die) (sec : Sector) (s : State) : Host.Outcome State Fault Refusal :=
  doHw s fun h => gated h m (fenceAddr d.val sec.val) fun h =>
    writeFence h m d.val sec.val (2 * h.rd (K.FENCE_SEC_SETTING d.val sec.val))

/-- MASK_TABLE_WRITE. -/
def execMaskTableWrite (m : Master) (d : Die) (sec : Sector) (w : Fin 16) (v : Word) (s : State) :
    Host.Outcome State Fault Refusal :=
  doHw s fun h => gated h m (dieBase d.val + 0x700000 + sec.val * 0x80 + w.val * 8) fun h =>
    writeMask h m d.val sec.val w.val v.toNat

/-! ### Scrubber and Assay (R312 to R323) -/

/-- SCRUB_FRAME. -/
def execScrubFrame (d : Die) (seen : FrameSeen) (s : State) : Host.Outcome State Fault Refusal :=
  doHw s fun h => scrubSlot h d.val seen

/-- SCRUB_STUCK_TIMEOUT. -/
def execScrubStuckTimeout (d : Die) (s : State) : Host.Outcome State Fault Refusal :=
  doHw s fun h =>
    if h.bit (K.RST_DIE_INRESET d.val) || scrubPause h d.val != 0 then h
    else scrubRestart (logEvent (h.wr (K.SCRUB_STAT_STUCK d.val) 1) (srcDie d.val) 0 (dieBase d.val + 0x600008)) d.val

/-- DIE_DIGEST_COMPUTE. -/
def execDieDigestCompute (d : Die) (s : State) : Host.Outcome State Fault Refusal :=
  doHw s fun h => tryVerify (computeDieDigest h d.val)

/-- HUB_DIGEST_RECOMPUTE. -/
def execHubDigestRecompute (s : State) : Host.Outcome State Fault Refusal :=
  doHw s fun h => if h.assay.hubDue then computeHubDigest h else h

/-- DEVICE_DIGEST_RECOMPUTE. -/
def execDeviceDigestRecompute (s : State) : Host.Outcome State Fault Refusal :=
  doHw s fun h => if h.assay.devDue then computeDevDigest h else h

end Sys2Proof.Machine
end

