-- ==== Sys2Proof/Machine/FportCmds.lean ====
section
/-!
DEFINITION. The commands of the fabric ports (R28 to R34).
-/
namespace Sys2Proof.Machine

/-- FPORT_OUTBOUND_REQUEST. -/
def execFportOutboundRequest (d : Die) (p : Port) (op : PortOp) (hostSpace : Bool) (addr beats data be : Nat) (s : State) :
    Host.Outcome State Fault Refusal :=
  doHw s fun h => portRequest h d p op hostSpace addr beats data be
/-- FPORT_POSTED_ACCEPT. -/
def execFportPostedAccept (d : Die) (p : Port) (tag : Fin 256) (s : State) : Host.Outcome State Fault Refusal :=
  doHw s fun h => acceptPosted h d.val p.val tag.val
/-- FPORT_OUTBOUND_RESPONSE. -/
def execFportOutboundResponse (d : Die) (p : Port) (tag : Fin 256) (s : State) : Host.Outcome State Fault Refusal :=
  doHw s fun h => portDeliver h d.val p.val tag.val
/-- FPORT_FLUSH. -/
def execFportFlush (d : Die) (p : Port) (s : State) : Host.Outcome State Fault Refusal :=
  doHw s fun h => portFlush h d.val p.val
/-- FPORT_FLUSH_COMPLETE. -/
def execFportFlushComplete (d : Die) (p : Port) (tag : Fin 256) (s : State) : Host.Outcome State Fault Refusal :=
  doHw s fun h => flushDone h d.val p.val tag.val
/-- FPORT_INBOUND_REQUEST. A port of a die in A3 waits for the exit (R459). -/
def execFportInboundRequest (i : Nat) (s : State) : Host.Outcome State Fault Refusal :=
  doHw s fun h => if inA3 h then h else portInbound h i
/-- FPORT_INBOUND_RESPONSE. -/
def execFportInboundResponse (d : Die) (p : Port) (tag : Fin 256) (data : Nat) (s : State) :
    Host.Outcome State Fault Refusal :=
  doHw s fun h => portResponse h d p tag.val data
/-- FPORT_STALL_TIMEOUT. -/
def execFportStallTimeout (d : Die) (p : Port) (s : State) : Host.Outcome State Fault Refusal :=
  doHw s fun h => portStalls h d.val p.val

end Sys2Proof.Machine
end

