-- ==== Sys2Proof/Machine/NerterOps.lean ====
section
/-!
DEFINITION. What every Nerter instruction goes through: whether a core may issue, the fetch (R174), privilege (R190), the
rules of locked sequences (R198 to R202), the waits of R184 and R197, and the access of a load or a store (R173, R182 to
R185). Instruction words are made here too, for the traps that report them (R175).
-/
namespace Sys2Proof.Machine

/-! ### Instruction words (R175) -/

/-- A and D formats. -/
def wordA (op func : Nat) (rd rs1 rs2 : Reg) : Nat :=
  func * 2 ^ 22 + rs2.val * 2 ^ 17 + rs1.val * 2 ^ 12 + rd.val * 2 ^ 7 + op
/-- I format. -/
def wordI (op func : Nat) (rd rs1 : Reg) (imm : BitVec 12) : Nat :=
  imm.toNat * 2 ^ 20 + func * 2 ^ 17 + rs1.val * 2 ^ 12 + rd.val * 2 ^ 7 + op
/-- S format. -/
def wordS (op func : Nat) (rs1 rs2 : Reg) (imm : BitVec 12) : Nat :=
  imm.toNat / 32 * 2 ^ 25 + func * 2 ^ 22 + rs2.val * 2 ^ 17 + rs1.val * 2 ^ 12 + imm.toNat % 32 * 2 ^ 7 + op
/-- B format. -/
def wordB (op cond : Nat) (rs1 rs2 : Reg) (off : BitVec 12) : Nat :=
  off.toNat * 2 ^ 20 + cond * 2 ^ 17 + rs1.val * 2 ^ 12 + rs2.val * 2 ^ 7 + op
/-- U format. -/
def wordU (op : Nat) (rd : Reg) (imm : BitVec 20) : Nat := imm.toNat * 2 ^ 12 + rd.val * 2 ^ 7 + op
/-- JAL: the I format with a 17-bit offset (R187). -/
def wordJ (rd : Reg) (off : BitVec 17) : Nat :=
  off.toNat / 32 * 2 ^ 20 + 1 * 2 ^ 17 + off.toNat % 32 * 2 ^ 12 + rd.val * 2 ^ 7 + 0x06

/-- Whether a word is a legal instruction (R176, R177). -/
def legalWord (w : Nat) : Bool := (decodeLegal 0 (BitVec.ofNat 32 w)).isSome

/-! ### The address space of a core (R173) -/

/-- First addresses of the local ranges. -/
def localLo : Nat := 0xFFFFFFFFFFFC0000
def pageLo : Nat := 0xFFFFFFFFFFFBF000
def holeLo : Nat := 0xFFFFFFFFFFF10000
def romLo : Nat := 0xFFFFFFFFFFF00000
/-- Place of a local SRAM address of core c among the memories. -/
def localAt (c : Core) (a : Nat) : Nat := localBase + c.val * 0x40000 + (a - localLo)

/-- Whether an address can be fetched from at all (R174). -/
def fetchable (a : Nat) : Bool :=
  a % 4 == 0 && (decide (localLo ≤ a) || within a romLo holeLo ||
    match regionOf a with | .hub | .dram => true | _ => false)

/-! ### Issue -/

/-- Cause of a trap with its address or word, precise at the instruction. -/
def trapHere (h : Hw) (c : Core) (cause tval : Nat) : Hw := trap h c cause (BitVec.ofNat 64 tval) (h.pc c) false false

/-- The crew clock reaches the core. -/
def crewClockRuns (h : Hw) : Bool := h.rd K.PWR_STAT_STATE == 0 || (h.rd K.PWR_STAT_AWAKE).testBit 0

/-- A core that is at an instruction boundary and free to issue. -/
def mayIssue (h : Hw) (c : Core) : Bool :=
  mayRun h c.val && !isHalted h c.val && (h.core c.val).dev.isNone && !(h.core c.val).lockWait && crewClockRuns h &&
    !atBreakpoint h c.val

/-- Registers that loads still outstanding will write. -/
def busyRegs (h : Hw) (c : Core) : List Reg := ((h.core c.val).loads.filter fun l => !l.dead).map fun l => l.rd

/-- What a fetch at the pc finds (R174). -/
inductive Fetched where
  /-- The instruction is there. -/
  | ready
  /-- The line is not in the instruction cache. -/
  | miss
  /-- The address traps FETCH. -/
  | bad
  /-- An uncorrectable code byte of local SRAM. -/
  | poison
  deriving DecidableEq, Repr

/-- Fetch at the pc: local SRAM is read and counted, hub SRAM and DRAM come from the instruction cache. -/
def fetch (h : Hw) (c : Core) : Fetched × Hw :=
  let a := (h.pc c).toNat
  if !fetchable a then (.bad, h)
  else if localLo ≤ a then
    let (_, bad, h) := memRead h c.val (localAt c a) 4
    (if bad then .poison else .ready, h)
  else if within a romLo holeLo then (.ready, h)
  else if (h.core c.val).icache.contains (a / 64 * 64) then (.ready, h)
  else (.miss, h)

/-- How an instruction stands to the rules of a locked sequence (R198). -/
inductive LockKind where
  | free
  /-- LOCK and ENDLOCK, which judge their sequence themselves. -/
  | edge
  /-- Device operations, FENCE, TRAP, JALR and TRET. -/
  | barred
  deriving DecidableEq, Repr

/-- An instruction as the issue logic sees it. -/
structure Ins where
  word : Nat
  /-- Registers it reads or writes. -/
  uses : List Reg
  lock : LockKind := .free
  foremanOnly : Bool := false

/-- The open sequence of a core whose rules apply: not while the foreman's handler runs (R200). -/
def openSeq (h : Hw) (c : Core) : Option LockSeq := (h.core c.val).lock.filter fun l => !l.suspended

/-- An instruction breaks a rule of its sequence that does not depend on an address (R198). -/
def breaksSeq (h : Hw) (c : Core) (i : Ins) : Bool :=
  match openSeq h c with
  | some l => i.lock == .barred || (i.lock != .edge && decide (64 ≤ l.executed))
  | none => false

/-- An instruction of a sequence has executed. -/
def countSeq (h : Hw) (c : Core) (i : Ins) : Hw :=
  if i.lock == .edge || (openSeq h c).isNone then h
  else h.onCore c.val fun x => { x with lock := x.lock.map fun l => { l with executed := l.executed + 1 } }

/-- The end of an instruction: a core that Adit steps halts, unless the instruction waits for a unit or a sequence is
open (R477). -/
def retire (h : Hw) (c : Core) : Hw :=
  if (h.core c.val).dev.isSome || (h.core c.val).lockWait || (openSeq h c).isSome then h else endStep h c.val

/-- The core begins an instruction: breakpoints are checked again from the next one on (R478). -/
def begun (h : Hw) (c : Core) : Hw := h.onCore c.val fun x => { x with skipBp := false }

/-- Issue an instruction on core c. `act` is its effect at the pc, or none while it must wait. Where the core cannot issue
now, nothing changes. -/
def runIns (h : Hw) (c : Core) (i : Ins) (act : Hw → Option Hw) : Hw :=
  if !mayIssue h c then h
  else if (h.core c.val).pendErr.isSome then boundary h c
  else if i.uses.any fun r => r != 0 && (busyRegs h c).contains r then h
  else
    match fetch h c with
    | (.miss, _) => h
    | (.bad, h) => retire (trapHere (begun h c) c cFetch (h.pc c).toNat) c
    | (.poison, h) => retire (trap (begun h c) c cPoison (h.pc c) (h.pc c) false true) c
    | (.ready, h1) =>
      if i.foremanOnly && !isForeman c then retire (trapHere (begun h1 c) c cPriv i.word) c
      else if breaksSeq h1 c i then retire (trapHere (begun h1 c) c cLockseq i.word) c
      else match act (begun h1 c) with
        | none => h
        | some h2 => retire (if (openSeq h1 c).isSome then countSeq h2 c i else h2) c

/-- The pc moves past the instruction. -/
def advance (h : Hw) (c : Core) : Hw := h.setPc c (h.pc c + 4)

/-- The instruction ends by writing rd. -/
def result (h : Hw) (c : Core) (rd : Reg) (v : Word) : Hw := advance (h.setG c rd v) c

/-- An instruction that computes rd from registers and the pc. -/
def compute (h : Hw) (c : Core) (word : Nat) (rd : Reg) (srcs : List Reg) (f : Hw → Word) : Hw :=
  runIns h c { word := word, uses := rd :: srcs } fun h => some (result h c rd (f h))

/-! ### Loads and stores (R182 to R185, R198, R199) -/

/-- A value of `size` bytes as a load writes it. -/
def extend (size : Nat) (signed : Bool) (v : Nat) : Word :=
  let v := v % 256 ^ size
  if signed && decide (256 ^ size ≤ 2 * v) then BitVec.ofInt 64 ((v : Int) - 256 ^ size) else BitVec.ofNat 64 v

/-- Address of a load or store. -/
def effAddr (h : Hw) (c : Core) (rs1 : Reg) (imm : BitVec 12) : Nat := (h.g c rs1 + imm.signExtend 64).toNat

/-- An earlier access of the core to a line has not reached its target (R196). -/
def lineBusy (h : Hw) (c : Core) (a : Nat) : Bool :=
  h.gal.reqs.any fun q => q.m == .core c && q.addr / 64 == a / 64

/-- A locked access to a line: its reservation is placed; none where a rule of R198 breaks. -/
def lockLine (l : LockSeq) (a : Nat) : Option LockSeq :=
  if regionOf a ≠ .hub ∨ hubBase + hubSize ≤ a then none
  else if l.lines.contains (a / 64 * 64) then some l
  else if 4 ≤ l.lines.length then none
  else some { l with lines := l.lines ++ [a / 64 * 64] }

/-- Replace the sequence of a core. -/
def setLock (h : Hw) (c : Core) (l : Option LockSeq) : Hw := h.onCore c.val fun x => { x with lock := l }

/-- Lay the buffered stores of a sequence over n bytes read at a, oldest first (R199). -/
def overlay (l : List LockStore) (a n v : Nat) : Nat :=
  l.foldl (fun v st => (List.range st.size).foldl (fun v i =>
    let p := st.addr + i
    if a ≤ p ∧ p < a + n then setBits v (8 * (p - a)) 8 (st.data / 256 ^ i % 256) else v) v) v

/-- A load in a sequence: answered at once. One that ends in POISON has executed, and is counted before its imprecise trap
suspends the sequence (R191, R198, R200). -/
def lockedLoad (h : Hw) (c : Core) (l : LockSeq) (word : Nat) (rd : Reg) (a size : Nat) (signed : Bool) : Option Hw :=
  match lockLine l a with
  | none => some (trapHere h c cLockseq word)
  | some l2 =>
    if lineBusy h c a then none
    else
      let (v, bad, h) := memRead (setLock h c (some l2)) c.val a size
      if bad then some (errorArrives (countSeq (result h c rd 0) c { word := word, uses := [] }) c cPoison a)
      else some (result h c rd (extend size signed (overlay l2.stores a size v)))

/-- A load from a local range. -/
def localLoad (h : Hw) (c : Core) (rd : Reg) (a size : Nat) (signed : Bool) : Hw :=
  if localLo ≤ a then
    let (v, bad, h) := memRead h c.val (localAt c a) size
    if bad then trapHere h c cPoison a else result h c rd (extend size signed v)
  else if pageLo ≤ a then
    if size ≠ 8 then trapHere h c cMisalign a else result h c rd (BitVec.ofNat 64 (pageRead h c.val (a - pageLo)))
  else if holeLo ≤ a then trapHere h c cBuserr a
  else result h c rd (extend size signed (ofBytes ((List.range size).map fun i => Config.bootRom (a - romLo + i))))

/-- A load from a hub address goes to the Gallery. -/
def hubLoad (h : Hw) (c : Core) (rd : Reg) (a size : Nat) (signed : Bool) : Option Hw :=
  if 8 ≤ (h.core c.val).loads.length then none
  else
    let (id, h) := issue h (.core c) .read a size 0 0 0
    some (advance (h.onCore c.val fun x => { x with loads := x.loads ++ [⟨id, rd, a, size, signed, false⟩] }) c)

/-- LOAD (R182). -/
def load (h : Hw) (c : Core) (word : Nat) (rd rs1 : Reg) (imm : BitVec 12) (size : Nat) (signed : Bool) : Hw :=
  runIns h c { word := word, uses := [rd, rs1] } fun h =>
    let a := effAddr h c rs1 imm
    if a % size ≠ 0 then some (trapHere h c cMisalign a)
    else match openSeq h c with
      | some l => lockedLoad h c l word rd a size signed
      | none => if romLo ≤ a then some (localLoad h c rd a size signed) else hubLoad h c rd a size signed

/-- A store in a sequence is buffered. -/
def lockedStore (h : Hw) (c : Core) (l : LockSeq) (word a size data : Nat) : Hw :=
  match lockLine l a with
  | none => trapHere h c cLockseq word
  | some l =>
    if 8 ≤ l.storeCount then trapHere h c cLockseq word
    else
      let l := { l with stores := l.stores ++ [⟨a, size, data % 256 ^ size⟩], storeCount := l.storeCount + 1 }
      advance (setLock h c (some l)) c

/-- A store to a local range. -/
def localStore (h : Hw) (c : Core) (a size data : Nat) : Hw :=
  if localLo ≤ a then advance (storeBytes h (.core c) (localAt c a) size data (allOn size)) c
  else if pageLo ≤ a then
    if size ≠ 8 then trapHere h c cMisalign a else advance (pageWrite h c.val (a - pageLo) data) c
  else trapHere h c cBuserr a

/-- A store to a hub address goes to the Gallery as a non-posted write (R184). -/
def hubStore (h : Hw) (c : Core) (a size data : Nat) : Option Hw :=
  if 16 ≤ (h.core c.val).stores.length then none
  else
    let (id, h) := issue h (.core c) .write a size (data % 256 ^ size) (allOn size) 0
    some (advance (h.onCore c.val fun x => { x with stores := x.stores ++ [⟨id, a, false⟩] }) c)

/-- STORE (R182). -/
def store (h : Hw) (c : Core) (word : Nat) (rs1 rs2 : Reg) (imm : BitVec 12) (size : Nat) : Hw :=
  runIns h c { word := word, uses := [rs1, rs2] } fun h =>
    let a := effAddr h c rs1 imm
    let v := (h.g c rs2).toNat
    if a % size ≠ 0 then some (trapHere h c cMisalign a)
    else match openSeq h c with
      | some l => some (lockedStore h c l word a size v)
      | none => if romLo ≤ a then some (localStore h c a size v) else hubStore h c a size v

/-! ### Responses -/

/-- The response to the i-th outstanding load of a core (R184, R191). A load that a trap discarded writes nothing. -/
def loadReturns (h : Hw) (c : Core) (i : Nat) : Hw :=
  match (h.core c.val).loads[i]? with
  | none => h
  | some l => match takeArrived h l.id with
    | none => h
    | some (r, h) =>
      let h := h.onCore c.val fun x => { x with loads := x.loads.eraseIdx i }
      if l.dead then
        (if r.status = .ok ∨ (h.core c.val).ending.isNone then h
         else errorArrives h c (if r.status = .poison then cPoison else cBuserr) l.addr)
      else match r.status with
        | .ok => h.setG c l.rd (extend l.size l.signed r.data)
        | .poison => errorArrives (h.setG c l.rd 0) c cPoison l.addr
        | _ => errorArrives (h.setG c l.rd 0) c cBuserr l.addr

/-- The i-th entry of a store buffer is acknowledged. -/
def ackStore (l : List StoreSlot) (i : Nat) : List StoreSlot := l.modify i fun x => { x with acked := true }

/-- The acknowledgement of the i-th store of a core's buffer (R184, R191). Entries leave the buffer in order, so that a store
that finds 16 entries waits for the oldest; the last one lets an ending item end. -/
def storeReturns (h : Hw) (c : Core) (i : Nat) : Hw :=
  match (h.core c.val).stores[i]? with
  | none => h
  | some st => match takeArrived h st.id with
    | none => h
    | some (r, h) =>
      let h := h.onCore c.val fun x => { x with stores := (ackStore x.stores i).dropWhile (·.acked) }
      tryEnd (if r.status = .ok then h else errorArrives h c cStoreerr st.addr) c

/-- Put a line in the instruction cache: 128 sets of two ways (R174). Which way a full set gives up is open. -/
def fillLine (h : Hw) (c : Core) (line : Nat) : Hw :=
  let l := (h.core c.val).icache.filter (· != line)
  let same := l.filter fun x => x / 64 % 128 == line / 64 % 128
  if same.length < 2 then h.onCore c.val fun x => { x with icache := line :: l }
  else
    let (v, h) := h.draw
    let gone := same.getD (v % same.length) 0
    h.onCore c.val fun x => { x with icache := line :: l.filter (· != gone) }

/-- The line a core waits for arrives, or the fill fails (R174). -/
def fillReturns (h : Hw) (c : Core) (st : Status) : Hw :=
  let a := (h.pc c).toNat
  if !mayIssue h c || (h.core c.val).pendErr.isSome then h
  else match fetch h c with
    | (.miss, _) => match st with
      | .ok => fillLine h c (a / 64 * 64)
      | .poison => retire (trap h c cPoison (h.pc c) (h.pc c) false true) c
      | _ => retire (trapHere h c cFetch a) c
    | _ => h

/-! ### Waits for earlier accesses (R195, R197) -/

/-- Every earlier load of a core is performed; every earlier store is acknowledged. -/
def loadsDone (h : Hw) (c : Core) : Bool := (busyRegs h c).isEmpty
def storesDone (h : Hw) (c : Core) : Bool := (h.core c.val).stores.isEmpty

/-- FENCE (R195). -/
def fence (h : Hw) (c : Core) (sel : Nat) (loads stores flush : Bool) : Hw :=
  runIns h c { word := wordA 0x17 sel 0 0 0, uses := [], lock := .barred } fun h =>
    if (loads && !loadsDone h c) || (stores && !storesDone h c) then none
    else
      let h := if flush then h.onCore c.val fun x => { x with icache := [] } else h
      some (advance h c)

/-- A device operation waits as FENCE.RW does and then issues (R197). -/
def devOp (h : Hw) (c : Core) (word : Nat) (uses : List Reg) (foremanOnly : Bool) (act : Hw → Option Hw) : Hw :=
  runIns h c { word := word, uses := uses, lock := .barred, foremanOnly := foremanOnly } fun h =>
    if loadsDone h c && storesDone h c then act h else none

/-- The core waits for a unit to end an operation. -/
def waitFor (h : Hw) (c : Core) (op : DevOp) (rd : Reg) : Hw :=
  advance (h.onCore c.val fun x => { x with dev := some ⟨op, rd, none⟩ }) c

/-! ### Branches -/

/-- BRANCH (R186). -/
def branch (h : Hw) (c : Core) (cond : Nat) (rs1 rs2 : Reg) (off : BitVec 12) (taken : Word → Word → Bool) : Hw :=
  runIns h c { word := wordB 0x05 cond rs1 rs2 off, uses := [rs1, rs2] } fun h =>
    if taken (h.g c rs1) (h.g c rs2) then some (h.setPc c (h.pc c + off.signExtend 64 * 4)) else some (advance h c)

/-- A jump with a link; a target that cannot be fetched traps and writes no link (R187). -/
def jumpTo (h : Hw) (c : Core) (rd : Reg) (t : Word) : Hw :=
  if fetchable t.toNat then (h.setG c rd (h.pc c + 4)).setPc c t else trapHere h c cFetch t.toNat

/-! ### Locked sequences -/

/-- LOCK opens a sequence. -/
def openLock (h : Hw) (c : Core) : Hw := advance ((setLock h c (some {})).wr (K.CORE_LOCKSTAT_OPEN c.val) 1) c

/-- LOCK (R198, R202): after 16 failures it waits for the priority reservation. -/
def lockBegin (h : Hw) (c : Core) (word : Nat) : Hw :=
  if (h.core c.val).lock.isSome then trapHere h c cLockseq word
  else if h.rd (K.CORE_LOCKSTAT_FAILS c.val) < 16 then openLock h c
  else { h.onCore c.val fun x => { x with lockWait := true } with sched := { h.sched with prioQueue := h.sched.prioQueue ++ [c.val] } }

/-- ENDLOCK (R199, R202). -/
def lockEnd (h : Hw) (c : Core) (word : Nat) (rd : Reg) : Option Hw :=
  match openSeq h c with
  | none => some (trapHere h c cLockseq word)
  | some l =>
    if !l.broken && l.stores.any fun st => lineBusy h c st.addr || prioHolds h (some c.val) st.addr st.size then none
    else
      let closed := (setLock h c none).wr (K.CORE_LOCKSTAT_OPEN c.val) 0
      let fails := h.rd (K.CORE_LOCKSTAT_FAILS c.val)
      if l.broken then some (result ((releasePrio closed c.val).wr (K.CORE_LOCKSTAT_FAILS c.val) (min 16 (fails + 1))) c rd 1)
      else
        let h := l.stores.foldl (fun h st => storeBytes h (.core c) st.addr st.size st.data (allOn st.size)) closed
        some (result ((releasePrio h c.val).wr (K.CORE_LOCKSTAT_FAILS c.val) 0) c rd 0)

/-- Whether some core holds the priority reservation. -/
def prioHeld (h : Hw) : Bool := allCores.any fun c => h.bit (K.CORE_LOCKSTAT_PRIO c.val)

/-- The first core in the line gets the priority reservation, and its LOCK opens the sequence (R202). A core that Adit
has halted leaves the line; its LOCK issues again. -/
def grantPrio (h : Hw) : Hw :=
  if prioHeld h then h
  else match allCores.find? fun c => h.sched.prioQueue.head? == some c.val with
    | none => h
    | some c =>
      let h := { h with sched := { h.sched with prioQueue := h.sched.prioQueue.tail } }
      let waits := (h.core c.val).lockWait
      let h := h.onCore c.val fun x => { x with lockWait := false }
      if isHalted h c.val || !waits then h else boundary (openLock (h.wr (K.CORE_LOCKSTAT_PRIO c.val) 1) c) c

/-- The priority reservation ends after 4 µs (R202). -/
def prioEnds (h : Hw) : Hw := flushHeld (allCores.foldl (fun h c => h.wr (K.CORE_LOCKSTAT_PRIO c.val) 0) h)

end Sys2Proof.Machine
end

