-- ==== Sys2Proof/Machine/Nerter.lean ====
section
/-!
DEFINITION. The general Nerter instructions: ALU, loads and stores, branches and jumps, locked sequences, FENCE and TRAP
(R178 to R202), with the responses and events that belong to them.
-/
namespace Sys2Proof.Machine

/-! ### What the ALU computes (R178 to R180) -/

/-- High 64 bits of the signed product. -/
def mulhVal (x y : Word) : Word := BitVec.ofInt 64 (x.toInt * y.toInt / 2 ^ 64)
/-- High 64 bits of the unsigned product. -/
def mulhuVal (x y : Word) : Word := BitVec.ofNat 64 (x.toNat * y.toNat / 2 ^ 64)
/-- DIV: rounded toward zero; all ones for a divisor of 0 (R179). -/
def divVal (x y : Word) : Word := if y = 0 then BitVec.allOnes 64 else BitVec.ofInt 64 (x.toInt.tdiv y.toInt)
/-- DIVU. -/
def divuVal (x y : Word) : Word := if y = 0 then BitVec.allOnes 64 else BitVec.ofNat 64 (x.toNat / y.toNat)
/-- REM: sign of the dividend; the dividend for a divisor of 0. -/
def remVal (x y : Word) : Word := if y = 0 then x else BitVec.ofInt 64 (x.toInt.tmod y.toInt)
/-- REMU. -/
def remuVal (x y : Word) : Word := if y = 0 then x else BitVec.ofNat 64 (x.toNat % y.toNat)
/-- Leading zero bits. -/
def clzVal (x : Word) : Word := if x = 0 then 64 else BitVec.ofNat 64 (63 - x.toNat.log2)
/-- Set bits. -/
def popcVal (x : Word) : Word := BitVec.ofNat 64 (popCount 64 x.toNat)
/-- A Bool as a word. -/
def flag (b : Bool) : Word := if b then 1 else 0

/-- ALU register: rd from rs1 and rs2. -/
def aluReg (h : Hw) (c : Core) (func : Nat) (rd rs1 rs2 : Reg) (f : Word → Word → Word) : Hw :=
  compute h c (wordA 0x01 func rd rs1 rs2) rd [rs1, rs2] fun h => f (h.g c rs1) (h.g c rs2)
/-- ALU immediate: rd from rs1 and the sign-extended immediate. -/
def aluImm (h : Hw) (c : Core) (func : Nat) (rd rs1 : Reg) (imm : BitVec 12) (f : Word → Word → Word) : Hw :=
  compute h c (wordI 0x02 func rd rs1 imm) rd [rs1] fun h => f (h.g c rs1) (imm.signExtend 64)
/-- Shift by an immediate amount; `kind` stands in imm[11:10]. -/
def shiftImm (h : Hw) (c : Core) (kind : Nat) (rd rs1 : Reg) (sh : BitVec 6) (f : Word → Nat → Word) : Hw :=
  compute h c (wordI 0x02 6 rd rs1 (BitVec.ofNat 12 (kind * 2 ^ 10 + sh.toNat))) rd [rs1] fun h => f (h.g c rs1) sh.toNat
/-- The shift amount in a register. -/
def amount (y : Word) : Nat := y.toNat % 64

/-! ### ALU register -/

/-- ADD. -/
def execAdd (c : Core) (rd rs1 rs2 : Reg) (s : State) : Host.Outcome State Fault Refusal :=
  doHw s fun h => aluReg h c 0x000 rd rs1 rs2 fun x y => x + y
/-- SUB. -/
def execSub (c : Core) (rd rs1 rs2 : Reg) (s : State) : Host.Outcome State Fault Refusal :=
  doHw s fun h => aluReg h c 0x001 rd rs1 rs2 fun x y => x - y
/-- AND. -/
def execAndOp (c : Core) (rd rs1 rs2 : Reg) (s : State) : Host.Outcome State Fault Refusal :=
  doHw s fun h => aluReg h c 0x002 rd rs1 rs2 fun x y => x &&& y
/-- OR. -/
def execOrOp (c : Core) (rd rs1 rs2 : Reg) (s : State) : Host.Outcome State Fault Refusal :=
  doHw s fun h => aluReg h c 0x003 rd rs1 rs2 fun x y => x ||| y
/-- XOR. -/
def execXorOp (c : Core) (rd rs1 rs2 : Reg) (s : State) : Host.Outcome State Fault Refusal :=
  doHw s fun h => aluReg h c 0x004 rd rs1 rs2 fun x y => x ^^^ y
/-- SLL. -/
def execSll (c : Core) (rd rs1 rs2 : Reg) (s : State) : Host.Outcome State Fault Refusal :=
  doHw s fun h => aluReg h c 0x005 rd rs1 rs2 fun x y => x <<< amount y
/-- SRL. -/
def execSrl (c : Core) (rd rs1 rs2 : Reg) (s : State) : Host.Outcome State Fault Refusal :=
  doHw s fun h => aluReg h c 0x006 rd rs1 rs2 fun x y => x >>> amount y
/-- SRA. -/
def execSra (c : Core) (rd rs1 rs2 : Reg) (s : State) : Host.Outcome State Fault Refusal :=
  doHw s fun h => aluReg h c 0x007 rd rs1 rs2 fun x y => x.sshiftRight (amount y)
/-- SLT. -/
def execSlt (c : Core) (rd rs1 rs2 : Reg) (s : State) : Host.Outcome State Fault Refusal :=
  doHw s fun h => aluReg h c 0x008 rd rs1 rs2 fun x y => flag (x.slt y)
/-- SLTU. -/
def execSltu (c : Core) (rd rs1 rs2 : Reg) (s : State) : Host.Outcome State Fault Refusal :=
  doHw s fun h => aluReg h c 0x009 rd rs1 rs2 fun x y => flag (x.ult y)
/-- MUL. -/
def execMul (c : Core) (rd rs1 rs2 : Reg) (s : State) : Host.Outcome State Fault Refusal :=
  doHw s fun h => aluReg h c 0x010 rd rs1 rs2 fun x y => x * y
/-- MULH. -/
def execMulh (c : Core) (rd rs1 rs2 : Reg) (s : State) : Host.Outcome State Fault Refusal :=
  doHw s fun h => aluReg h c 0x011 rd rs1 rs2 fun x y => mulhVal x y
/-- MULHU. -/
def execMulhu (c : Core) (rd rs1 rs2 : Reg) (s : State) : Host.Outcome State Fault Refusal :=
  doHw s fun h => aluReg h c 0x012 rd rs1 rs2 fun x y => mulhuVal x y
/-- DIV. -/
def execDiv (c : Core) (rd rs1 rs2 : Reg) (s : State) : Host.Outcome State Fault Refusal :=
  doHw s fun h => aluReg h c 0x018 rd rs1 rs2 fun x y => divVal x y
/-- DIVU. -/
def execDivu (c : Core) (rd rs1 rs2 : Reg) (s : State) : Host.Outcome State Fault Refusal :=
  doHw s fun h => aluReg h c 0x019 rd rs1 rs2 fun x y => divuVal x y
/-- REM. -/
def execRem (c : Core) (rd rs1 rs2 : Reg) (s : State) : Host.Outcome State Fault Refusal :=
  doHw s fun h => aluReg h c 0x01A rd rs1 rs2 fun x y => remVal x y
/-- REMU. -/
def execRemu (c : Core) (rd rs1 rs2 : Reg) (s : State) : Host.Outcome State Fault Refusal :=
  doHw s fun h => aluReg h c 0x01B rd rs1 rs2 fun x y => remuVal x y
/-- CLZ. -/
def execClz (c : Core) (rd rs1 : Reg) (s : State) : Host.Outcome State Fault Refusal :=
  doHw s fun h => aluReg h c 0x020 rd rs1 0 fun x _ => clzVal x
/-- POPC. -/
def execPopc (c : Core) (rd rs1 : Reg) (s : State) : Host.Outcome State Fault Refusal :=
  doHw s fun h => aluReg h c 0x021 rd rs1 0 fun x _ => popcVal x

/-! ### ALU immediate and LUI -/

/-- ADDI. -/
def execAddi (c : Core) (rd rs1 : Reg) (imm : BitVec 12) (s : State) : Host.Outcome State Fault Refusal :=
  doHw s fun h => aluImm h c 0 rd rs1 imm fun x y => x + y
/-- ANDI. -/
def execAndi (c : Core) (rd rs1 : Reg) (imm : BitVec 12) (s : State) : Host.Outcome State Fault Refusal :=
  doHw s fun h => aluImm h c 1 rd rs1 imm fun x y => x &&& y
/-- ORI. -/
def execOri (c : Core) (rd rs1 : Reg) (imm : BitVec 12) (s : State) : Host.Outcome State Fault Refusal :=
  doHw s fun h => aluImm h c 2 rd rs1 imm fun x y => x ||| y
/-- XORI. -/
def execXori (c : Core) (rd rs1 : Reg) (imm : BitVec 12) (s : State) : Host.Outcome State Fault Refusal :=
  doHw s fun h => aluImm h c 3 rd rs1 imm fun x y => x ^^^ y
/-- SLTI. -/
def execSlti (c : Core) (rd rs1 : Reg) (imm : BitVec 12) (s : State) : Host.Outcome State Fault Refusal :=
  doHw s fun h => aluImm h c 4 rd rs1 imm fun x y => flag (x.slt y)
/-- SLTIU. -/
def execSltiu (c : Core) (rd rs1 : Reg) (imm : BitVec 12) (s : State) : Host.Outcome State Fault Refusal :=
  doHw s fun h => aluImm h c 5 rd rs1 imm fun x y => flag (x.ult y)
/-- SLLI. -/
def execSlli (c : Core) (rd rs1 : Reg) (sh : BitVec 6) (s : State) : Host.Outcome State Fault Refusal :=
  doHw s fun h => shiftImm h c 0 rd rs1 sh fun x n => x <<< n
/-- SRLI. -/
def execSrli (c : Core) (rd rs1 : Reg) (sh : BitVec 6) (s : State) : Host.Outcome State Fault Refusal :=
  doHw s fun h => shiftImm h c 1 rd rs1 sh fun x n => x >>> n
/-- SRAI. -/
def execSrai (c : Core) (rd rs1 : Reg) (sh : BitVec 6) (s : State) : Host.Outcome State Fault Refusal :=
  doHw s fun h => shiftImm h c 2 rd rs1 sh fun x n => x.sshiftRight n
/-- LUI (R181). -/
def execLui (c : Core) (rd : Reg) (imm : BitVec 20) (s : State) : Host.Outcome State Fault Refusal :=
  doHw s fun h => compute h c (wordU 0x07 rd imm) rd [] fun _ => imm.signExtend 64 <<< 12

/-! ### Loads and stores -/

/-- LB. -/
def execLb (c : Core) (rd rs1 : Reg) (imm : BitVec 12) (s : State) : Host.Outcome State Fault Refusal :=
  doHw s fun h => load h c (wordI 0x03 0 rd rs1 imm) rd rs1 imm 1 true
/-- LH. -/
def execLh (c : Core) (rd rs1 : Reg) (imm : BitVec 12) (s : State) : Host.Outcome State Fault Refusal :=
  doHw s fun h => load h c (wordI 0x03 1 rd rs1 imm) rd rs1 imm 2 true
/-- LW. -/
def execLw (c : Core) (rd rs1 : Reg) (imm : BitVec 12) (s : State) : Host.Outcome State Fault Refusal :=
  doHw s fun h => load h c (wordI 0x03 2 rd rs1 imm) rd rs1 imm 4 true
/-- LD. -/
def execLd (c : Core) (rd rs1 : Reg) (imm : BitVec 12) (s : State) : Host.Outcome State Fault Refusal :=
  doHw s fun h => load h c (wordI 0x03 3 rd rs1 imm) rd rs1 imm 8 false
/-- LBU. -/
def execLbu (c : Core) (rd rs1 : Reg) (imm : BitVec 12) (s : State) : Host.Outcome State Fault Refusal :=
  doHw s fun h => load h c (wordI 0x03 4 rd rs1 imm) rd rs1 imm 1 false
/-- LHU. -/
def execLhu (c : Core) (rd rs1 : Reg) (imm : BitVec 12) (s : State) : Host.Outcome State Fault Refusal :=
  doHw s fun h => load h c (wordI 0x03 5 rd rs1 imm) rd rs1 imm 2 false
/-- LWU. -/
def execLwu (c : Core) (rd rs1 : Reg) (imm : BitVec 12) (s : State) : Host.Outcome State Fault Refusal :=
  doHw s fun h => load h c (wordI 0x03 6 rd rs1 imm) rd rs1 imm 4 false
/-- SB. -/
def execSb (c : Core) (rs1 rs2 : Reg) (imm : BitVec 12) (s : State) : Host.Outcome State Fault Refusal :=
  doHw s fun h => store h c (wordS 0x04 0 rs1 rs2 imm) rs1 rs2 imm 1
/-- SH. -/
def execSh (c : Core) (rs1 rs2 : Reg) (imm : BitVec 12) (s : State) : Host.Outcome State Fault Refusal :=
  doHw s fun h => store h c (wordS 0x04 1 rs1 rs2 imm) rs1 rs2 imm 2
/-- SW. -/
def execSw (c : Core) (rs1 rs2 : Reg) (imm : BitVec 12) (s : State) : Host.Outcome State Fault Refusal :=
  doHw s fun h => store h c (wordS 0x04 2 rs1 rs2 imm) rs1 rs2 imm 4
/-- SD. -/
def execSd (c : Core) (rs1 rs2 : Reg) (imm : BitVec 12) (s : State) : Host.Outcome State Fault Refusal :=
  doHw s fun h => store h c (wordS 0x04 3 rs1 rs2 imm) rs1 rs2 imm 8
/-- LOAD_RESPONSE. -/
def execLoadResponse (c : Core) (i : Nat) (s : State) : Host.Outcome State Fault Refusal :=
  doHw s fun h => loadReturns h c i
/-- STORE_ACK. -/
def execStoreAck (c : Core) (i : Nat) (s : State) : Host.Outcome State Fault Refusal :=
  doHw s fun h => storeReturns h c i
/-- ICACHE_FILL_RESPONSE. -/
def execIcacheFillResponse (c : Core) (status : Status) (s : State) : Host.Outcome State Fault Refusal :=
  doHw s fun h => fillReturns h c status

/-! ### Branches and jumps -/

/-- BEQ. -/
def execBeq (c : Core) (rs1 rs2 : Reg) (off : BitVec 12) (s : State) : Host.Outcome State Fault Refusal :=
  doHw s fun h => branch h c 0 rs1 rs2 off fun x y => x == y
/-- BNE. -/
def execBne (c : Core) (rs1 rs2 : Reg) (off : BitVec 12) (s : State) : Host.Outcome State Fault Refusal :=
  doHw s fun h => branch h c 1 rs1 rs2 off fun x y => x != y
/-- BLT. -/
def execBlt (c : Core) (rs1 rs2 : Reg) (off : BitVec 12) (s : State) : Host.Outcome State Fault Refusal :=
  doHw s fun h => branch h c 2 rs1 rs2 off fun x y => x.slt y
/-- BGE. -/
def execBge (c : Core) (rs1 rs2 : Reg) (off : BitVec 12) (s : State) : Host.Outcome State Fault Refusal :=
  doHw s fun h => branch h c 3 rs1 rs2 off fun x y => !x.slt y
/-- BLTU. -/
def execBltu (c : Core) (rs1 rs2 : Reg) (off : BitVec 12) (s : State) : Host.Outcome State Fault Refusal :=
  doHw s fun h => branch h c 4 rs1 rs2 off fun x y => x.ult y
/-- BGEU. -/
def execBgeu (c : Core) (rs1 rs2 : Reg) (off : BitVec 12) (s : State) : Host.Outcome State Fault Refusal :=
  doHw s fun h => branch h c 5 rs1 rs2 off fun x y => !x.ult y
/-- JALR: rs1 is read before rd is written. -/
def execJalr (c : Core) (rd rs1 : Reg) (imm : BitVec 12) (s : State) : Host.Outcome State Fault Refusal :=
  doHw s fun h => runIns h c { word := wordI 0x06 0 rd rs1 imm, uses := [rd, rs1], lock := .barred } fun h =>
    some (jumpTo h c rd (h.g c rs1 + imm.signExtend 64 * 4))
/-- JAL. -/
def execJal (c : Core) (rd : Reg) (off : BitVec 17) (s : State) : Host.Outcome State Fault Refusal :=
  doHw s fun h => runIns h c { word := wordJ rd off, uses := [rd] } fun h =>
    some (jumpTo h c rd (h.pc c + off.signExtend 64 * 4))
/-- TRET: the handler ends; a sequence it interrupted goes on, broken (R187, R200). -/
def execTret (c : Core) (s : State) : Host.Outcome State Fault Refusal :=
  doHw s fun h => runIns h c { word := wordI 0x06 2 0 0 0, uses := [], lock := .barred, foremanOnly := true } fun h =>
    let h := (h.wr (K.CORE_CAUSE_TACTIVE 0) 0).setPc c (BitVec.ofNat 64 (h.rd (K.CORE_EPC_EPC 0)))
    some (h.onCore c.val fun x => { x with lock := x.lock.map fun l => { l with suspended := false } })
/-- ILLEGAL_INSTRUCTION (R177): a word that is legal is no occasion for it. -/
def execIllegalInstruction (c : Core) (w : BitVec 32) (s : State) : Host.Outcome State Fault Refusal :=
  doHw s fun h =>
    if legalWord w.toNat then h
    else runIns h c { word := w.toNat, uses := [], lock := .edge } fun h => some (trapHere h c cIllegal w.toNat)

/-! ### Locked sequences -/

/-- LOCK. -/
def execLockOp (c : Core) (s : State) : Host.Outcome State Fault Refusal :=
  doHw s fun h => runIns h c { word := wordI 0x08 0 0 0 0, uses := [], lock := .edge } fun h =>
    some (lockBegin h c (wordI 0x08 0 0 0 0))
/-- ENDLOCK. -/
def execEndlock (c : Core) (rd : Reg) (s : State) : Host.Outcome State Fault Refusal :=
  doHw s fun h => runIns h c { word := wordI 0x08 1 rd 0 0, uses := [rd], lock := .edge } fun h =>
    lockEnd h c (wordI 0x08 1 rd 0 0) rd
/-- PRIORITY_RESERVATION_GRANT. -/
def execPriorityReservationGrant (s : State) : Host.Outcome State Fault Refusal := doHw s grantPrio
/-- PRIORITY_RESERVATION_TIMEOUT. -/
def execPriorityReservationTimeout (s : State) : Host.Outcome State Fault Refusal := doHw s prioEnds

/-! ### FENCE and TRAP -/

/-- FENCE.R. -/
def execFenceR (c : Core) (s : State) : Host.Outcome State Fault Refusal :=
  doHw s fun h => fence h c 1 true false false
/-- FENCE.W. -/
def execFenceW (c : Core) (s : State) : Host.Outcome State Fault Refusal :=
  doHw s fun h => fence h c 2 false true false
/-- FENCE.RW. -/
def execFenceRw (c : Core) (s : State) : Host.Outcome State Fault Refusal :=
  doHw s fun h => fence h c 3 true true false
/-- FENCE.RWI. -/
def execFenceRwi (c : Core) (s : State) : Host.Outcome State Fault Refusal :=
  doHw s fun h => fence h c 7 true true true
/-- TRAP (R194): EPC is the address of the next instruction. -/
def execTrap (c : Core) (rs1 : Reg) (s : State) : Host.Outcome State Fault Refusal :=
  doHw s fun h => runIns h c { word := wordA 0x17 0x10 0 rs1 0, uses := [rs1], lock := .barred } fun h =>
    some (trap h c cSoft (h.g c rs1) (h.pc c + 4) false false)

end Sys2Proof.Machine
end

