-- ==== Sys2Proof/Machine/NerterDev.lean ====
section
/-!
DEFINITION. The device operations of the service cores (R203 to R241), with the events that end the long ones.
-/
namespace Sys2Proof.Machine

/-! ### Operands (R206) -/

/-- What stands in the way of a memory operand: cause and address. -/
abbrev OperandFault := Nat × Nat

/-- Place of an operand of n bytes: local SRAM, and hub SRAM where the operation permits it. -/
def operandPlace (c : Core) (a n align : Nat) (hub : Bool) : Except OperandFault Nat :=
  if a % align ≠ 0 then .error (cMisalign, a)
  else if localLo ≤ a ∧ a + n ≤ 2 ^ 64 then .ok (localAt c a)
  else if hub && decide (hubBase ≤ a ∧ a + n ≤ hubBase + hubSize) then .ok a
  else .error (cBuserr, a)

/-- Read an operand; uncorrectable data traps POISON. -/
def readOperand (h : Hw) (c : Core) (a n align : Nat) (hub : Bool) : Except OperandFault Nat × Hw :=
  match operandPlace c a n align hub with
  | .error e => (.error e, h)
  | .ok p =>
    let (v, bad, h) := memRead h c.val p n
    (if bad then .error (cPoison, a) else .ok v, h)

/-- Continue with an operand, or trap. -/
def withOperand (h : Hw) (c : Core) (a n align : Nat) (hub : Bool) (f : Hw → Nat → Hw) : Hw :=
  match readOperand h c a n align hub with
  | (.error e, h) => trapHere h c e.1 e.2
  | (.ok v, h) => f h v

/-- A status word with the pieces an operation adds. -/
def status (h : Hw) (c : Core) (rd : Reg) (v : Nat) : Hw := result h c rd (BitVec.ofNat 64 v)

/-- The value of a register as a number. -/
def gv (h : Hw) (c : Core) (r : Reg) : Nat := (h.g c r).toNat

/-! ### QUEUE (R210 to R213) -/

/-- ENQ. -/
def execEnq (c : Core) (rd rs1 rs2 : Reg) (s : State) : Host.Outcome State Fault Refusal :=
  doHw s fun h => devOp h c (wordA 0x10 1 rd rs1 rs2) [rd, rs1, rs2] false fun h =>
    let q := gv h c rs2 % 16384
    some (withOperand h c (gv h c rs1) 64 64 true fun h v =>
      let (st, h) := enqueue h c q (natDesc v)
      status h c rd st)

/-- DEQ. -/
def execDeq (c : Core) (rd rs1 rs2 : Reg) (s : State) : Host.Outcome State Fault Refusal :=
  doHw s fun h => devOp h c (wordA 0x10 2 rd rs1 rs2) [rd, rs1, rs2] false fun h =>
    match operandPlace c (gv h c rs1) 64 64 true with
    | .error e => some (trapHere h c e.1 e.2)
    | .ok p =>
      let (st, d, h) := dequeue h c (gv h c rs2 % 16384)
      let h := match d with | some d => storeBytes h (.core c) p 64 (descNat d) (allOn 64) | none => h
      some (status h c rd st)

/-- REPLY. -/
def execReply (c : Core) (rd rs1 : Reg) (s : State) : Host.Outcome State Fault Refusal :=
  doHw s fun h => devOp h c (wordA 0x10 3 rd rs1 0) [rd, rs1] false fun h =>
    some (withOperand h c (gv h c rs1) 64 64 true fun h v =>
      let (st, h) := sendReply h c (natDesc v)
      status h c rd st)

/-- DONE: the item ends; a core without one gets NOITEM (R213). -/
def execDoneItem (c : Core) (rd rs1 : Reg) (s : State) : Host.Outcome State Fault Refusal :=
  doHw s fun h => devOp h c (wordA 0x10 4 rd rs1 0) [rd, rs1] false fun h =>
    some (if (h.core c.val).item.isNone then status h c rd qsNoitem
      else startEnd h c ⟨0, 0, gv h c rs1 % 2 ^ 32⟩)

/-! ### FRAME (R214 to R219) -/

/-- Status codes of the FRAME class. -/
def fsOk : Nat := 0
def fsBusy : Nat := 1
def fsNoclaim : Nat := 2
def fsBadaddr : Nat := 3
def fsLive : Nat := 4
def fsContend : Nat := 5
def fsUncorr : Nat := 6
def fsMismatch : Nat := 7
def fsOffline : Nat := 8
def fsPoison : Nat := 9
def fsDataerr : Nat := 10

/-- The die a core claims. -/
def claimOf (h : Hw) (c : Core) : Option Nat := (List.range 4).find? fun n => (h.die n).eng.claim == some c.val

/-- The frame engine of a die cannot be reached. -/
def frameOffline (h : Hw) (n : Nat) : Bool := h.bit (K.RST_DIE_INRESET n) || !seamLive h (hubSeam n)

/-- FSET: releases the claim, or claims the engine of a die and sets its frame pointer. -/
def fset (h : Hw) (c : Core) (rd : Reg) (addr flags : Nat) : Hw :=
  if flags.testBit 0 then status (releaseClaims h c.val) c rd fsOk
  else
    let n := bits addr 19 18
    let h := if (claimOf h c).elim false (· != n) then releaseClaims h c.val else h
    if frameOffline h n then status h c rd fsOffline
    else if 192 ≤ bits addr 17 10 then status h c rd fsBadaddr
    else match (h.die n).eng.claim with
      | some x =>
        if x ≠ c.val then status h c rd fsBusy
        else status (h.onDie n fun y => { y with eng := { y.eng with pointer := bits addr 17 0 } }) c rd fsOk
      | none =>
        let h := h.onDie n fun y => { y with eng := { y.eng with claim := some c.val, pointer := bits addr 17 0 } }
        let mark : Option Die := if isForeman c && (h.core c.val).item.isNone then some (Fin.ofNat 4 n) else none
        status (h.onCore c.val fun x => { x with claim := mark }) c rd fsOk

/-- FSET with rs2[0] = 0. -/
def execFsetClaim (c : Core) (rd rs1 rs2 : Reg) (s : State) : Host.Outcome State Fault Refusal :=
  doHw s fun h => devOp h c (wordA 0x11 1 rd rs1 rs2) [rd, rs1, rs2] false fun h =>
    some (fset h c rd (gv h c rs1) (gv h c rs2))
/-- FSET with rs2[0] = 1. -/
def execFsetRelease (c : Core) (rd rs1 rs2 : Reg) (s : State) : Host.Outcome State Fault Refusal :=
  doHw s fun h => devOp h c (wordA 0x11 1 rd rs1 rs2) [rd, rs1, rs2] false fun h =>
    some (fset h c rd (gv h c rs1) (gv h c rs2))

/-- FRAME_CLAIM_TIMEOUT: a foreman claim made outside an item is released and logged (R214). -/
def execFrameClaimTimeout (d : Die) (s : State) : Host.Outcome State Fault Refusal :=
  doHw s fun h =>
    if (h.core 0).claim = some d then
      logOp (releaseClaims h 0) (srcDie d.val) (some (.core 0)) 0 0
    else h

/-- One frame of a streaming operation: the status that ends it, or none, whether a correction was made, and the state. -/
abbrev FrameStep := Hw → Nat → Nat → Nat → Option Nat × Bool × Hw

/-- A streamed read of one frame's data: the status that ends the operation, or the data. -/
def streamIn (h : Hw) (c : Core) (a : Nat) : Except Nat Nat × Hw :=
  match busRead h c.val a 512 with
  | (v, .ok, h) => (.ok v, h)
  | (_, .poison, h) => (.error fsPoison, h)
  | (_, _, h) => (.error fsDataerr, h)

/-- FWR of frame k of die n from address a (R216). -/
def writeStep (c : Core) : FrameStep := fun h n k a =>
  if !(fenceSettled h n (k / 1024) || (h.die n).setReset) then (some fsLive, false, h)
  else match streamIn h c a with
    | (.error st, h) => (some st, false, h)
    | (.ok v, h) =>
      if frameRefused h n k v then (some fsContend, false, logContend h n k c.val) else (none, false, putFrame h n k v)

/-- FRD of frame k of die n to address a; a mask frame holds what the design has made of it (R217). -/
def readStep (c : Core) : FrameStep := fun h n k a =>
  if frameErrOf h n k = 2 then (some fsUncorr, false, h)
  else
    match busWrite h (some c.val) a 512 (frameOf h n k) with
    | (.ok, h) => (none, frameErrOf h n k == 1, h)
    | (_, h) => (some fsDataerr, false, h)

/-- FVERIFY of frame k of die n against address a (R218). -/
def verifyStep (c : Core) : FrameStep := fun h n k a =>
  if frameErrOf h n k = 2 then (some fsUncorr, false, h)
  else
    match streamIn h c a with
    | (.error st, h) => (some st, false, h)
    | (.ok w, h) => if frameOf h n k = w then (none, false, h) else (some fsMismatch, false, h)

/-- Run a streaming operation over `left` frames: status, frames completed and corrected, and the state. The pointer stops
at the frame that ends it (R215). A deep drain or restore of the die is served one frame after each (R219). -/
def runFrames (step : FrameStep) (n : Nat) : Nat → Hw → Nat → Nat → Nat → Nat × Nat × Nat × Hw
  | 0, h, _, done, corr => (fsOk, done, corr, h)
  | left + 1, h, a, done, corr =>
    let k := (h.die n).eng.pointer
    if 192 * 1024 ≤ k then (fsBadaddr, done, corr, h)
    else match step h n k a with
      | (some st, _, h) => (st, done, corr, h)
      | (none, fixed, h) =>
        let h := deepTurn (h.onDie n fun x => { x with eng := { x.eng with pointer := k + 1 } }) n
        runFrames step n left h (a + 512) (done + 1) (corr + b2n fixed)

/-- FWR, FRD and FVERIFY: the checks, then the stream; the result is written when FRAME_OP_COMPLETE reports its end. -/
def frameOp (h : Hw) (c : Core) (rd : Reg) (a count : Nat) (step : FrameStep) : Option Hw :=
  if a % 64 ≠ 0 then some (trapHere h c cMisalign a)
  else if !streamOk h a (512 * count) then some (trapHere h c cBuserr a)
  else match claimOf h c with
    | none => some (status h c rd fsNoclaim)
    | some n =>
      if frameOffline h n then some (status h c rd fsOffline)
      else if count = 0 ∨ 1024 < count ∨ 192 * 1024 ≤ (h.die n).eng.pointer then some (status h c rd fsBadaddr)
      else if (h.die n).eng.op.isSome then none
      else
        let (st, done, corr, h) := runFrames step n count (runDesign h) a 0 0
        let h := (refreshSites h n).onDie n fun x => { x with eng := { x.eng with op := some (c.val, corr * 2 ^ 48 + done * 2 ^ 32 + st) } }
        some (waitFor h c (.frame (Fin.ofNat 4 n)) rd)

/-- FWR. -/
def execFwr (c : Core) (rd rs1 rs2 : Reg) (s : State) : Host.Outcome State Fault Refusal :=
  doHw s fun h => devOp h c (wordA 0x11 2 rd rs1 rs2) [rd, rs1, rs2] false fun h =>
    frameOp h c rd (gv h c rs1) (gv h c rs2 % 2048) (writeStep c)
/-- FRD. -/
def execFrd (c : Core) (rd rs1 rs2 : Reg) (s : State) : Host.Outcome State Fault Refusal :=
  doHw s fun h => devOp h c (wordA 0x11 3 rd rs1 rs2) [rd, rs1, rs2] false fun h =>
    frameOp h c rd (gv h c rs1) (gv h c rs2 % 2048) (readStep c)
/-- FVERIFY. -/
def execFverify (c : Core) (rd rs1 rs2 : Reg) (s : State) : Host.Outcome State Fault Refusal :=
  doHw s fun h => devOp h c (wordA 0x11 4 rd rs1 rs2) [rd, rs1, rs2] false fun h =>
    frameOp h c rd (gv h c rs1) (gv h c rs2 % 2048) (verifyStep c)

/-- FRAME_OP_COMPLETE: the core that waits gets its result; without one the result is discarded (R207). -/
def execFrameOpComplete (d : Die) (s : State) : Host.Outcome State Fault Refusal :=
  doHw s fun h => match (h.die d.val).eng.op with
    | none => h
    | some (c, v) =>
      let h := h.onDie d.val fun x => { x with eng := { x.eng with op := none } }
      match allCores.find? fun x => x.val == c with
      | some core => match (h.core c).dev with
        | some ⟨.frame e, _, none⟩ => if e = d then finishDev h core (BitVec.ofNat 64 v) else h
        | _ => h
      | none => h

/-! ### STAGE and COMMIT (R220 to R223) -/

/-- STAGE: a write and the read-back of one register in one exchange. The read takes no RC side effect: it clears no RC field
and pops no FIFO. -/
def stageReg (h : Hw) (c : Core) (rd : Reg) (a v : Nat) : Hw :=
  let m := Master.core c
  let gate := if csrGate h m true a = .ok then csrGate h m false a else csrGate h m true a
  if 0x10000000 ≤ a then trapHere h c cBuserr a
  else if gate ≠ .ok then
    trapHere (if gate = .denied then logAccess h srcGallery m .denied a else h) c cBuserr a
  else if !csrShape a 8 || isDoorbell a then trapHere (logAccess h (blockSource a) m .tgterr a) c cBuserr a
  else
    let h := csrStore h m a 8 v
    let (x, h2) := csrLoad h m a 8
    status { h with freeCtr := h2.freeCtr } c rd x

/-- STAGE. -/
def execStage (c : Core) (rd rs1 rs2 : Reg) (s : State) : Host.Outcome State Fault Refusal :=
  doHw s fun h => devOp h c (wordA 0x12 1 rd rs1 rs2) [rd, rs1, rs2] false fun h =>
    some (stageReg h c rd (gv h c rs1) (gv h c rs2))
/-- COMMIT. -/
def execCommit (c : Core) (rd rs1 : Reg) (s : State) : Host.Outcome State Fault Refusal :=
  doHw s fun h => devOp h c (wordA 0x12 2 rd rs1 0) [rd, rs1] false fun h =>
    let (st, n, h) := commitCode h (gv h c rs1 % 65536)
    some (status h c rd (n * 256 + st))

/-! ### KEY (R224 to R227) -/

/-- The slots of the key store. -/
inductive KeySlot where
  | image
  | region (r : Nat)
  | link (l : Nat)
  deriving DecidableEq, Repr

/-- The slot rs2 names; none for a reserved kind or index (R224). -/
def keySlot (v : Nat) : Option KeySlot :=
  match bits v 9 8, bits v 5 0 with
  | 0, 0 => some .image
  | 1, i => if i < 16 then some (.region i) else none
  | 2, i => some (.link i)
  | _, _ => none

/-- Status codes of the KEY class. -/
def ksOk : Nat := 0
def ksBusy : Nat := 1
def ksBadslot : Nat := 2
def ksEmpty : Nat := 3

/-- Replace the image key. -/
def setImageKey (h : Hw) (k : Option Nat) : Hw := { h with keys := { h.keys with image := k } }

/-- KLOAD of a key into a slot: the current half of the image slot, the pending half of any other (R225). -/
def loadKey (h : Hw) (slot : KeySlot) (k : Nat) : Hw :=
  match slot with
  | .image => setImageKey h (some k)
  | .region r => setCiphKeys h r (ciphCur h r) (some k)
  | .link l => setLinkKeys h l (linkCur h l) (some k)

/-- KLOAD. -/
def execKload (c : Core) (rd rs1 rs2 : Reg) (s : State) : Host.Outcome State Fault Refusal :=
  doHw s fun h => devOp h c (wordA 0x13 1 rd rs1 rs2) [rd, rs1, rs2] true fun h =>
    let slot := keySlot (gv h c rs2)
    some (withOperand h c (gv h c rs1) 32 32 false fun h v => match slot with
      | some k => status (loadKey h k v) c rd ksOk
      | none => status h c rd ksBadslot)

/-- KROLL (R226). For a region or a link rs1 must name g0; another register is a field the form does not use. -/
def execKroll (c : Core) (rd rs1 rs2 : Reg) (s : State) : Host.Outcome State Fault Refusal :=
  doHw s fun h => devOp h c (wordA 0x13 2 rd rs1 rs2) [rd, rs1, rs2] true fun h =>
    match keySlot (gv h c rs2) with
    | none => some (status h c rd ksBadslot)
    | some .image => some (withOperand h c (gv h c rs1) 16 16 false fun h tag =>
        match h.keys.image with
        | some k => status (setImageKey h (some (keyNext k tag))) c rd ksOk
        | none => status h c rd ksEmpty)
    | some (.region r) =>
      if rs1 ≠ 0 then some (trapHere h c cIllegal (wordA 0x13 2 rd rs1 rs2))
      else
        let (st, h) := rollRegion h r
        some (status h c rd st)
    | some (.link l) =>
      if rs1 ≠ 0 then some (trapHere h c cIllegal (wordA 0x13 2 rd rs1 rs2))
      else
        let (st, h) := rollLink h l
        some (status h c rd st)

/-- KWIPE (R227). -/
def execKwipe (c : Core) (rd rs2 : Reg) (s : State) : Host.Outcome State Fault Refusal :=
  doHw s fun h => devOp h c (wordA 0x13 3 rd 0 rs2) [rd, rs2] true fun h =>
    match keySlot (gv h c rs2) with
    | none => some (status h c rd ksBadslot)
    | some .image => some (status (setImageKey h none) c rd ksOk)
    | some (.region r) => some (status (wipeRegion h r) c rd ksOk)
    | some (.link l) => some (status (wipeLink h l) c rd ksOk)

/-! ### ASSAY (R228 to R230) -/

/-- Status codes of the ASSAY class. -/
def asMatch : Nat := 0
def asDiffer : Nat := 1
def asNotready : Nat := 2
def asBadscope : Nat := 3
def asOffline : Nat := 4

/-- The digest of a scope, its epoch and its length in bytes, or the status that refuses it (R228, R323). -/
def scopeDigest (h : Hw) (scope : Nat) : Except Nat (Nat × Nat × Nat) :=
  let n := bits scope 3 2
  let sec := bits scope 15 8
  let x := (h.die n).scrub
  match bits scope 1 0, scope.testBit 4 with
  | 0, false =>
    if 192 ≤ sec then .error asBadscope
    else if h.bit (K.RST_DIE_INRESET n) then .error asOffline
    else if !x.secReady.contains sec then .error asNotready
    else .ok (SMap.get x.secDig sec 0, SMap.get x.secEpoch sec 0, 16)
  | 1, false =>
    if h.bit (K.RST_DIE_INRESET n) then .error asOffline
    else if !h.bit (K.ASSAY_STAT_READY n) then .error asNotready
    else .ok (getDigest h (K.ASSAY_DIG_DIG n), h.rd (K.ASSAY_STAT_EPOCH n), 32)
  | 1, true =>
    if h.bit (K.RST_DIE_INRESET n) then .error asOffline
    else match (h.die n).intended with | some d => .ok (d, 0, 32) | none => .error asBadscope
  | 2, false =>
    if !h.bit K.CFG_ASSAYSTAT_DEVREADY then .error asNotready
    else .ok (getDigest h K.CFG_ASSAYDEV_DIG, h.rd K.CFG_ASSAYSTAT_DEVEPOCH, 32)
  | 2, true => match h.assay.intDev with | some d => .ok (d, 0, 32) | none => .error asBadscope
  | 3, false =>
    if h.rd K.CFG_ASSAYHUBEP_EPOCH = 0 ∧ h.assay.hubDue then .error asNotready
    else .ok (getDigest h K.CFG_ASSAYHUB_DIG, h.rd K.CFG_ASSAYHUBEP_EPOCH, 32)
  | _, _ => .error asBadscope

/-- ADIG: the digest at the destination, zeros after a sector digest. -/
def execAdig (c : Core) (rd rs1 rs2 : Reg) (s : State) : Host.Outcome State Fault Refusal :=
  doHw s fun h => devOp h c (wordA 0x14 1 rd rs1 rs2) [rd, rs1, rs2] false fun h =>
    match operandPlace c (gv h c rs2) 32 32 true with
    | .error e => some (trapHere h c e.1 e.2)
    | .ok p => match scopeDigest h (gv h c rs1) with
      | .error st => some (status h c rd st)
      | .ok (d, ep, n) =>
        some (status (storeBytes h (.core c) p 32 (d % 256 ^ n) (allOn 32)) c rd (ep % 2 ^ 32 * 2 ^ 32 + asMatch))

/-- ACMP. -/
def execAcmp (c : Core) (rd rs1 rs2 : Reg) (s : State) : Host.Outcome State Fault Refusal :=
  doHw s fun h => devOp h c (wordA 0x14 2 rd rs1 rs2) [rd, rs1, rs2] false fun h =>
    let scope := gv h c rs1
    some (withOperand h c (gv h c rs2) 32 32 true fun h v => match scopeDigest h scope with
      | .error st => status h c rd st
      | .ok (d, ep, n) =>
        status h c rd (ep % 2 ^ 32 * 2 ^ 32 + if d % 256 ^ n = v % 256 ^ n then asMatch else asDiffer))

/-! ### SEAM (R231 to R233) -/

/-- Status codes of the SEAM class. -/
def ssOk : Nat := 0
def ssBusy : Nat := 1
def ssRefused : Nat := 2
def ssFits : Nat := 3
def ssNofit : Nat := 4
def ssUnusable : Nat := 5

/-- A seam in one of the states the SEAM class calls BUSY. -/
def seamBusy (h : Hw) (k : Nat) : Bool := [1, 2, 3, 4, 6, 7, 8].contains (seamState h k)

/-- A fabric seam trains afresh, as by EN = 0 and then EN = 1. -/
def strain (h : Hw) (n : Nat) : Hw :=
  let was := h.bit (K.SEAM_CTL_EN n)
  let h := seamEnable (h.wrBoth (K.SEAM_CTL_EN n) 0) n was
  seamEnable (h.wrBoth (K.SEAM_CTL_EN n) 1) n false

/-- STRAIN. -/
def execStrain (c : Core) (rd rs1 : Reg) (s : State) : Host.Outcome State Fault Refusal :=
  doHw s fun h => devOp h c (wordA 0x15 1 rd rs1 0) [rd, rs1] false fun h =>
    let k := gv h c rs1 % 8
    some (if 4 ≤ k then status h c rd ssRefused
      else if seamBusy h k then status h c rd ssBusy
      else status (strain h k) c rd ssOk)

/-- SWIDTH: live groups are those whose GSTATE is LIVE. -/
def execSwidth (c : Core) (rd rs1 rs2 : Reg) (s : State) : Host.Outcome State Fault Refusal :=
  doHw s fun h => devOp h c (wordA 0x15 2 rd rs1 rs2) [rd, rs1, rs2] false fun h =>
    let k := gv h c rs1 % 8
    let d := gv h c rs2 % 2
    let live := ((List.range (seamGroups k)).filter fun g => h.rd (K.SEAM_GRP_STAT_GSTATE k d g) == gLive).length
    let plan := if k < 4 then h.rd (K.SEAM_STAT_PLAN k) else 0
    some (status h c rd (seamState h k * 2 ^ 52 + plan * 2 ^ 48 + (retiredGroups h k d).length * 2 ^ 40 + live * 2 ^ 32 + ssOk))

/-- QUERY of a plan: the result word. -/
def queryPlan (h : Hw) (n i : Nat) : Nat :=
  match (h.seamSt n).plans.find? fun p => planSet p && planIndex p == i with
  | none => ssUnusable
  | some p =>
    if !planUsable h n p then ssUnusable
    else if planFits h n p then planKmin h n p % 4096 * 2 ^ 32 + ssFits
    else ssNofit

/-- SPLAN (R233). -/
def splan (h : Hw) (c : Core) (rd : Reg) (k v : Nat) : Hw :=
  if 4 ≤ k then status h c rd ssRefused
  else match v % 4 with
    | 1 => status h c rd (if seamBusy h k then ssBusy else queryPlan h k (bits v 5 4))
    | 2 =>
      let d := bits v 8 8
      let g := bits v 22 16
      if !seamLive h k then status h c rd ssBusy
      else if isRetired h k d g then status h c rd ssOk
      else status (retireGroup h k d g) c rd ssOk
    | _ => status h c rd ssOk

/-- SPLAN with rs2[1:0] = 0b01. -/
def execSplanQuery (c : Core) (rd rs1 rs2 : Reg) (s : State) : Host.Outcome State Fault Refusal :=
  doHw s fun h => devOp h c (wordA 0x15 3 rd rs1 rs2) [rd, rs1, rs2] false fun h =>
    some (splan h c rd (gv h c rs1 % 8) (gv h c rs2))
/-- SPLAN with rs2[1:0] = 0b10. -/
def execSplanRetire (c : Core) (rd rs1 rs2 : Reg) (s : State) : Host.Outcome State Fault Refusal :=
  doHw s fun h => devOp h c (wordA 0x15 3 rd rs1 rs2) [rd, rs1, rs2] false fun h =>
    some (splan h c rd (gv h c rs1 % 8) (gv h c rs2))

/-! ### STRATA (R234 to R236) -/

/-- The trigger of a CAP arrives at the dies of its mask: the trigger, the slots, the dies that accepted and the first
refusal. -/
def capDies (h : Hw) (t : Trigger) : Hw × Trigger × Nat × Nat × Nat :=
  ((List.range 4).filter fun n => t.dies.testBit n).foldl (fun (acc : Hw × Trigger × Nat × Nat × Nat) n =>
    let (h, t, slots, took, st) := acc
    match arriveTrigger h n t with
    | (h, t, some x, slot) =>
      (h, t, slots + slot.getD 0 * 2 ^ (5 * n), took + (if slot.isSome then 2 ^ n else 0), if st = 0 then x else st)
    | (h, t, none, _) => (h, t, slots, took, st)) (h, t, 0, 0, 0)

/-- CAP. -/
def execCap (c : Core) (rd rs1 rs2 : Reg) (s : State) : Host.Outcome State Fault Refusal :=
  doHw s fun h => devOp h c (wordA 0x16 1 rd rs1 rs2) [rd, rs1, rs2] false fun h =>
    let t : Trigger := ⟨h.now, tsCrew, c.val, gv h c rs1 % 8, gv h c rs2 % 16, none, coreCode c⟩
    let (h, t, slots, took, st) := capDies h t
    some (status h c rd (t.capid.getD 0 * 2 ^ 32 + slots * 2 ^ 12 + took * 2 ^ 8 + st))

/-- DRAIN. -/
def execDrain (c : Core) (rd rs1 rs2 : Reg) (s : State) : Host.Outcome State Fault Refusal :=
  doHw s fun h => devOp h c (wordA 0x16 2 rd rs1 rs2) [rd, rs1, rs2] false fun h =>
    let n := gv h c rs2 % 4
    let slot := bits (gv h c rs2) 12 8
    match deepRefusal h n slot (gv h c rs1) with
    | some st => some (status h c rd st)
    | none => some (waitFor (setStrataOp h n (.deep slot (gv h c rs1) 0)) c (.drain (Fin.ofNat 4 n)) rd)

/-- RESTORE; FORCE is honoured from the foreman only. -/
def execRestore (c : Core) (rd rs1 rs2 : Reg) (s : State) : Host.Outcome State Fault Refusal :=
  doHw s fun h => devOp h c (wordA 0x16 3 rd rs1 rs2) [rd, rs1, rs2] false fun h =>
    let v := gv h c rs2
    let n := v % 4
    let slot := bits v 12 8
    let deep := v.testBit 16
    match restoreRefusal h n slot (gv h c rs1) deep (v.testBit 17 && isForeman c) with
    | some st => some (status h c rd st)
    | none => some (waitFor (setStrataOp h n (.restore slot (gv h c rs1) deep 0 false)) c (.restore (Fin.ofNat 4 n)) rd)

/-- The networks of a network set that CLKHALT and CLKRUN act on, as 64n + m: those of dies in die reset (R236) and of
dies not yet released (R285) are left out. -/
def namedNets (h : Hw) (set : Nat) : List Nat :=
  (bitList 256 set).filter fun x => !h.bit (K.RST_DIE_INRESET (x / 64)) && !(h.die (x / 64)).setReset

/-- A network that a crew program halts while its packed domain is HELD is no longer the link manager's to reopen (R126). -/
def disownNet (h : Hw) (x : Nat) : Hw :=
  match pdomOf h (x / 64) (x % 64) with
  | some d => if pdomHeld h d then h.setPdomClosed d ((h.pdomClosed d).filter (· != x)) else h
  | none => h

/-- CLKHALT. -/
def execClkhalt (c : Core) (rd rs1 rs2 : Reg) (s : State) : Host.Outcome State Fault Refusal :=
  doHw s fun h => devOp h c (wordA 0x16 4 rd rs1 rs2) [rd, rs1, rs2] false fun h =>
    let all := (gv h c rs2).testBit 0
    some (withOperand h c (gv h c rs1) 32 32 true fun h set =>
      let nets := namedNets h set
      let h := nets.foldl (fun h x => disownNet (closeGate h (x / 64) (x % 64)) x) h
      if !all || nets.all fun x => netHalted h (x / 64) (x % 64) then wakeWaitAll (status h c rd 0)
      else wakeWaitAll (waitFor h c (.waitAll nets) rd))

/-- CLKHALT_WAITALL_TIMEOUT. -/
def execClkhaltWaitallTimeout (c : Core) (s : State) : Host.Outcome State Fault Refusal :=
  doHw s fun h => match (h.core c.val).dev with
    | some ⟨.waitAll nets, _, none⟩ =>
      finishDev h c (statusCount 0x11 (nets.filter fun x => !netHalted h (x / 64) (x % 64)).length)
    | _ => h

/-- Why CLKRUN refuses a network, if it does: POWER, BUSY, SEAMHOLD (R236). -/
def runRefusal (h : Hw) (x : Nat) : Option Nat :=
  if inA3 h then some 0x08
  else if match (h.die (x / 64)).strata with | .deep _ _ _ | .restore _ _ _ _ _ => true | _ => false then some 0x01
  else match pdomOf h (x / 64) (x % 64) with
    | some d => if pdomHeld h d then some 0x10 else none
    | none => none

/-- CLKRUN. -/
def execClkrun (c : Core) (rd rs1 : Reg) (s : State) : Host.Outcome State Fault Refusal :=
  doHw s fun h => devOp h c (wordA 0x16 5 rd rs1 0) [rd, rs1] false fun h =>
    some (withOperand h c (gv h c rs1) 32 32 true fun h set =>
      let nets := namedNets h set
      let refused := nets.filter fun x => (runRefusal h x).isSome
      let why := nets.filterMap (runRefusal h)
      let st := if why.contains 0x08 then 0x08 else if why.contains 0x01 then 0x01 else if why.contains 0x10 then 0x10 else 0
      let h := (nets.filter fun x => (runRefusal h x).isNone).foldl (fun h x => openGate h (x / 64) (x % 64)) h
      result h c rd (statusCount st refused.length))

/-! ### SYS (R237 to R241) -/

/-- WAIT: a watch on a line of hub SRAM, or a pure delay. -/
def execWaitOp (c : Core) (rd rs1 rs2 : Reg) (s : State) : Host.Outcome State Fault Refusal :=
  doHw s fun h => devOp h c (wordA 0x17 0x20 rd rs1 rs2) [rd, rs1, rs2] false fun h =>
    let a := gv h c rs2
    some (if rs2 = 0 then waitFor h c (.wait none false) rd
      else if a % 8 ≠ 0 then trapHere h c cMisalign a
      else if hubBase ≤ a ∧ a < hubBase + hubSize then waitFor h c (.wait (some (a / 64 * 64)) false) rd
      else trapHere h c cBuserr a)

/-- WAIT_WAKE: by the line's write, or by the timeout; a write that came first decides. -/
def execWaitWake (c : Core) (timeout : Bool) (s : State) : Host.Outcome State Fault Refusal :=
  doHw s fun h => match (h.core c.val).dev with
    | some ⟨.wait _ hit, _, none⟩ => if hit then finishDev h c 0 else if timeout then finishDev h c 1 else h
    | _ => h

/-- MSG (R238). A MSI-X message uses no rs1. -/
def msg (h : Hw) (c : Core) (rd rs1 rs2 : Reg) : Hw :=
  let v := gv h c rs2
  match bits v 15 12 with
  | 0 =>
    if rs1 ≠ 0 then trapHere h c cIllegal (wordA 0x17 0x21 rd rs1 rs2)
    else
      let (st, h) := raiseMsix h (bits v 21 16) (bits v 10 0)
      status h c rd st
  | 1 => status (logEntry h srcSoftware (coreCode c) 0x0900 0 (gv h c rs1)) c rd 0
  | _ => status h c rd 3

/-- MSG of kind 0. -/
def execMsgMsix (c : Core) (rd rs1 rs2 : Reg) (s : State) : Host.Outcome State Fault Refusal :=
  doHw s fun h => devOp h c (wordA 0x17 0x21 rd rs1 rs2) [rd, rs1, rs2] false fun h => some (msg h c rd rs1 rs2)
/-- MSG of kind 1. -/
def execMsgLog (c : Core) (rd rs1 rs2 : Reg) (s : State) : Host.Outcome State Fault Refusal :=
  doHw s fun h => devOp h c (wordA 0x17 0x21 rd rs1 rs2) [rd, rs1, rs2] false fun h => some (msg h c rd rs1 rs2)

/-- RSTREQ (R239). -/
def rstreq (h : Hw) (c : Core) (rd : Reg) (reach n : Nat) : Hw :=
  match reach with
  | 0 => advance (requestReset h false K.RST_CAUSE_WARM) c
  | 1 => advance (requestReset h true K.RST_CAUSE_WARM) c
  | 2 => if dieResetting h n then status h c rd 4 else status (requestDie h n 1) c rd 0
  | _ => status h c rd 5

/-- RSTREQ with rs1[1:0] = 0b00. -/
def execRstreqWarm (c : Core) (rd rs1 rs2 : Reg) (s : State) : Host.Outcome State Fault Refusal :=
  doHw s fun h => devOp h c (wordA 0x17 0x30 rd rs1 rs2) [rd, rs1, rs2] true fun h =>
    some (rstreq h c rd (gv h c rs1 % 4) (gv h c rs2 % 4))
/-- RSTREQ with rs1[1:0] = 0b01. -/
def execRstreqCold (c : Core) (rd rs1 rs2 : Reg) (s : State) : Host.Outcome State Fault Refusal :=
  doHw s fun h => devOp h c (wordA 0x17 0x30 rd rs1 rs2) [rd, rs1, rs2] true fun h =>
    some (rstreq h c rd (gv h c rs1 % 4) (gv h c rs2 % 4))
/-- RSTREQ with rs1[1:0] = 0b10. -/
def execRstreqDie (c : Core) (rd rs1 rs2 : Reg) (s : State) : Host.Outcome State Fault Refusal :=
  doHw s fun h => devOp h c (wordA 0x17 0x30 rd rs1 rs2) [rd, rs1, rs2] true fun h =>
    some (rstreq h c rd (gv h c rs1 % 4) (gv h c rs2 % 4))

/-- FUSERD: the sensed word; the words of the key-encryption key read 0 (R240, R442). -/
def execFuserd (c : Core) (rd rs1 : Reg) (s : State) : Host.Outcome State Fault Refusal :=
  doHw s fun h => devOp h c (wordA 0x17 0x31 rd rs1 0) [rd, rs1] true fun h =>
    let w := gv h c rs1 % 2 ^ 32
    some (status h c rd (if 128 ≤ w ∨ (10 ≤ w ∧ w < 14) then 0 else fuseWord h w))

/-- Whether a fuse word is locked by word 126 or 127, as sensed. -/
def fuseLocked (h : Hw) (w : Nat) : Bool := (fuseWord h (126 + w / 64)).testBit (w % 64)

/-- FUSEPROG. -/
def execFuseprog (c : Core) (rd rs1 rs2 : Reg) (s : State) : Host.Outcome State Fault Refusal :=
  doHw s fun h => devOp h c (wordA 0x17 0x32 rd rs1 rs2) [rd, rs1, rs2] true fun h =>
    let w := gv h c rs1 % 2 ^ 32
    if h.rst.fuseOp.isSome then none
    else some (if 128 ≤ w then status h c rd 8
      else if fuseLocked h w then status h c rd 6
      else waitFor { h with rst := { h.rst with fuseOp := some (w, gv h c rs2) } } c .fuseprog rd)

/-- Bits blown in a fuse word: none is ever cleared. -/
def blow (v : NonVol) (w blown : Nat) : NonVol :=
  { v with fuses := SMap.set v.fuses w (SMap.get v.fuses w 0 ||| blown) 0 }

/-- The foreman waits for an option write or a fuse operation, which ends with this status. -/
def foremanDev (h : Hw) (op : DevOp) (st : Nat) : Hw :=
  match (h.core 0).dev with
  | some ⟨o, _, none⟩ => if o = op then finishDev h 0 (BitVec.ofNat 64 st) else h
  | _ => h

/-- FUSEPROG_COMPLETE. Of a failed operation it is open which of the bits are blown. -/
def execFuseprogComplete (ok : Bool) (s : State) : Host.Outcome State Fault Refusal :=
  match s.hw.rst.fuseOp with
  | none => .next s
  | some (w, b) =>
    let (x, h) := s.hw.draw
    let h := { h with rst := { h.rst with fuseOp := none } }
    .next { s with nv := blow s.nv w (if ok then b else b &&& x), hw := foremanDev h .fuseprog (if ok then 0 else 7) }

/-- The copy OPTWR writes: true for B; none where both are read-only (R447). -/
def optTarget (v : NonVol) : Option Bool :=
  let aOpen := decide (v.optA.writes < 10000)
  let bOpen := decide (v.optB.writes < 10000)
  if aOpen && bOpen then
    (if !copyValid v.optA then some false
     else if !copyValid v.optB then some true
     else some (!seqNewer (copySeq v.optB) (copySeq v.optA)))
  else if aOpen then some false
  else if bOpen then some true
  else none

/-- SEQ an OPTWR writes: that of the newer valid copy plus 1, or 1. -/
def optSeq (v : NonVol) : Nat :=
  match chosenCopy v with
  | 0 => 1
  | 1 => (copySeq v.optA + 1) % 2 ^ 32
  | _ => (copySeq v.optB + 1) % 2 ^ 32

/-- The image with SEQ and CRC-32 in place. -/
def optSealed (image seq : Nat) : Nat :=
  let x := image % 256 ^ 0xF8 + seq * 256 ^ 0xF8
  x + crc32 (toBytes 0xFC x) % 2 ^ 32 * 256 ^ 0xFC

/-- Change one option copy. -/
def onCopy (v : NonVol) (b : Bool) (f : OptCopy → OptCopy) : NonVol :=
  if b then { v with optB := f v.optB } else { v with optA := f v.optA }

/-- The write of a copy begins: it holds no valid image, and its write counter has grown. -/
def beginCopy (v : NonVol) (b : Bool) : NonVol := onCopy v b fun c => { c with image := 0, writes := c.writes + 1 }

/-- The registers that show the write counters follow them. -/
def showWear (v : NonVol) (h : Hw) : Hw :=
  let h := (h.wr K.RST_OPTWEAR_WRCNTA v.optA.writes).wr K.RST_OPTWEAR_WRCNTB v.optB.writes
  (h.wrB K.RST_OPTSTAT_ROA (decide (10000 ≤ v.optA.writes))).wrB K.RST_OPTSTAT_ROB (decide (10000 ≤ v.optB.writes))

/-- OPTWR up to the start of the write (R241, R447). -/
def optwrStart (v : NonVol) (h : Hw) (c : Core) (rd rs1 : Reg) : Hw :=
  devOp h c (wordA 0x17 0x33 rd rs1 0) [rd, rs1] true fun h =>
    some (withOperand h c (gv h c rs1) 256 64 false fun h image => match optTarget v with
      | none => status h c rd 9
      | some b =>
        let h := { h with rst := { h.rst with optImage := some (b, optSealed image (optSeq v)) } }
        waitFor (showWear (beginCopy v b) h) c .optwr rd)

/-- OPTWR. -/
def execOptwr (c : Core) (rd rs1 : Reg) (s : State) : Host.Outcome State Fault Refusal :=
  if s.hw.rst.optImage.isSome then .next s
  else
    let h := optwrStart s.nv s.hw c rd rs1
    match h.rst.optImage with
    | some (b, _) => .next { s with nv := beginCopy s.nv b, hw := h }
    | none => .next { s with hw := h }

/-- OPTWR_COMPLETE. What a copy holds whose read-back differed is open. -/
def execOptwrComplete (ok : Bool) (s : State) : Host.Outcome State Fault Refusal :=
  match s.hw.rst.optImage with
  | none => .next s
  | some (b, image) =>
    let (x, h) := s.hw.draw
    let h := { h with rst := { h.rst with optImage := none } }
    .next { s with
      nv := onCopy s.nv b fun c => { c with image := if ok then image else x % 256 ^ 256 }
      hw := foremanDev h .optwr (if ok then 0 else 7) }

end Sys2Proof.Machine
end

