-- ==== Sys2Proof/Machine/PcieCmds.lean ====
section
/-!
DEFINITION. The commands of the PCI Express controller (R327 to R346).
-/
namespace Sys2Proof.Machine

/-- PCIE_LINK_UP. -/
def execPcieLinkUp (gen : Fin 8) (width : Fin 32) (flit : Bool) (s : State) : Host.Outcome State Fault Refusal :=
  doHw s fun h => linkRises h gen.val width.val flit
/-- PCIE_LINK_DOWN. -/
def execPcieLinkDown (s : State) : Host.Outcome State Fault Refusal := doHw s fun h => if linkUp h then hotReset h else h
/-- PCIE_HOT_RESET. -/
def execPcieHotReset (s : State) : Host.Outcome State Fault Refusal := doHw s fun h => if linkUp h then hotReset h else h

/-- Two bytes of the option shadow. -/
def opt16 (h : Hw) (i : Nat) : Nat := optByte h i + 256 * optByte h (i + 1)
/-- The vendor ID in force (R448). -/
def vendorId (h : Hw) : Nat := if opt16 h 0x10 = 0 then fuseWord h 3 % 65536 else opt16 h 0x10

/-- A dword of a function's configuration space at a byte offset: identity, class and subsystem (R329, R448); the rest of
the space is the base specification's, and what it reads is open. -/
def configRead (h : Hw) (f reg : Nat) : Nat × Hw :=
  let (x, h) := h.draw
  let v :=
    if reg = 0 then (if f = 0 then 0x0048 else 0x0148) * 65536 + vendorId h
    else if reg = 8 then 0x120000 * 256 + x % 256
    else if reg = 0x2C then opt16 h 0x14 * 65536 + (if opt16 h 0x12 = 0 then vendorId h else opt16 h 0x12)
    else x % 2 ^ 32
  (v, h)

/-- A configuration request of the host. -/
def configRequest (h : Hw) (f : Func) (r : CfgReq) : Hw :=
  if !linkUp h || !h.pcie.ready || !funcOn h f.val then h
  else match r with
    | .read reg =>
      let (v, h) := configRead h f.val reg
      complete h 0 .ok v
    | .busMaster v => onFunc h f.val fun x => { x with busMaster := v }
    | .memSpace v => onFunc h f.val fun x => { x with memSpace := v }
    | .vfEnable n => if f.val = 0 then setVfs h n.val else h
    | .msixMask v =>
      let h := onFunc h f.val fun x => { x with msixMask := v }
      sendPending h f.val
/-- PCIE_CONFIG_REQUEST. -/
def execPcieConfigRequest (f : Func) (req : CfgReq) (s : State) : Host.Outcome State Fault Refusal :=
  doHw s fun h => configRequest h f req

/-- A host write TLP (R332, R343); the controller accepts payloads of at most 512 bytes (R328), and drops a longer one (DESIGN
CHOICE). -/
def memWrite (h : Hw) (f : Func) (bar off size data : Nat) (poisoned : Bool) : Hw :=
  if !hostReaches h f || decide (512 < size) then h
  else if poisoned then h.cnt K.PCIE_ERRCNT_POISONED
  else match hostTarget h f.val bar off true with
    | .window o => windowAccess h true o size data 0
    | _ => hostWrite h f bar off size data
/-- PCIE_MEM_WRITE. -/
def execPcieMemWrite (f : Func) (bar : Fin 6) (off size data : Nat) (poisoned : Bool) (s : State) :
    Host.Outcome State Fault Refusal :=
  doHw s fun h => memWrite h f bar.val off size data poisoned

/-- A host read TLP; a request for more than 4,096 bytes (R328) is dropped (DESIGN CHOICE). -/
def memRead1 (h : Hw) (f : Func) (bar off size tag : Nat) : Hw :=
  if !hostReaches h f || decide (4096 < size) then h
  else match hostTarget h f.val bar off false with
    | .window o => windowAccess h false o size 0 tag
    | _ => hostRead h f bar off size tag
/-- PCIE_MEM_READ. -/
def execPcieMemRead (f : Func) (bar : Fin 6) (off size : Nat) (tag : Fin 16384) (s : State) :
    Host.Outcome State Fault Refusal :=
  doHw s fun h => memRead1 h f bar.val off size tag.val

/-- A completion to a host-bound read; one that answers no outstanding request is unexpected (R342). The loader's source
read fails with the status. -/
def completionArrives (h : Hw) (id : Nat) (st : Status) (data : Nat) : Hw :=
  match takeHostReq h id with
  | none => h.cnt K.PCIE_ERRCNT_UNEXP
  | some (r, h') => match r.q with
    | some q => answer h' q st data
    | none => if st = .ok then h else loadFails h' 0x14 (scode st) (h.rd K.CFG_LOAD_SEG) 0
/-- PCIE_COMPLETION_RECEIVED. -/
def execPcieCompletionReceived (id : Nat) (status : Status) (data : Nat) (s : State) : Host.Outcome State Fault Refusal :=
  doHw s fun h => completionArrives h id status data

/-- A host-bound request times out and completes with TGTERR (R342). -/
def completionLate (h : Hw) (id : Nat) : Hw :=
  match takeHostReq h id with
  | none => h
  | some (r, h) =>
    let h := h.cnt K.PCIE_ERRCNT_CTO
    match r.q with
    | some q => answer h q .tgterr 0
    | none => loadFails h 0x14 3 (h.rd K.CFG_LOAD_SEG) 0
/-- PCIE_COMPLETION_TIMEOUT. -/
def execPcieCompletionTimeout (id : Nat) (s : State) : Host.Outcome State Fault Refusal :=
  doHw s fun h => completionLate h id

/-- PCIE_FLR. -/
def execPcieFlr (f : Func) (s : State) : Host.Outcome State Fault Refusal :=
  doHw s fun h => if linkUp h then flr h f.val else h
/-- BAR_RESIZE: only while Memory Space Enable of the PF is 0 (R334). -/
def execBarResize (log2 : Fin 64) (s : State) : Host.Outcome State Fault Refusal :=
  doHw s fun h =>
    if linkUp h && !(func h 0).memSpace && decide (30 ≤ log2.val ∧ log2.val ≤ 39) then
      { h with pcie := { h.pcie with barLog := log2.val } }
    else h
/-- MSIX_ENABLE. -/
def execMsixEnable (f : Func) (on : Bool) (s : State) : Host.Outcome State Fault Refusal :=
  doHw s fun h => if linkUp h then enableMsix h f.val on else h
/-- MSIX_UNMASK. -/
def execMsixUnmask (f : Func) (vec : Fin 2048) (s : State) : Host.Outcome State Fault Refusal :=
  doHw s fun h => if hostReaches h f then unmask h f.val vec.val else h
/-- HOST_RING_DELIVERY. -/
def execHostRingDelivery (q : Queue) (s : State) : Host.Outcome State Fault Refusal := doHw s fun h => ringDelivery h q.val

end Sys2Proof.Machine
end

