-- ==== Sys2Proof/Machine/QueueCmds.lean ====
section
/-!
DEFINITION. The commands of the queues (R242 to R262): doorbells, credit updates, enabling and disabling, POP, affinity,
shift change, the burn limit, and deliveries to fabric ports.
-/
namespace Sys2Proof.Machine

/-- A doorbell reaches the scheduler. That of a fabric port may be returned to it (R252). -/
def doorbell (h : Hw) (m : Master) (q : Nat) (d : Desc) : Hw :=
  match m with
  | .fport n p => portDoorbell h n.val p.val ⟨0, m, .write, doorbellAddr q, 64, descNat d, allOn 64, 0⟩
  | _ => ringDoorbell h m q d

/-- DOORBELL. -/
def execDoorbell (m : Master) (q : Queue) (desc : Desc) (s : State) : Host.Outcome State Fault Refusal :=
  doHw s fun h => doorbell h m q.val desc
/-- FPORT_CREDIT_UPDATE. -/
def execFportCreditUpdate (d : Die) (p : Port) (q : Queue) (s : State) : Host.Outcome State Fault Refusal :=
  doHw s fun h => creditUpdate h d.val p.val q.val
/-- QUEUE_ENABLE: Qq.CFG is written as it stands with EN = 1. -/
def execQueueEnable (m : Master) (q : Queue) (s : State) : Host.Outcome State Fault Refusal :=
  doHw s fun h => gated h m (qCfgAddr q.val) fun h =>
    writeQCfg h m q.val (setBitAt (readVal h (qCfgAddr q.val)) 0 true) 1
/-- QUEUE_DISABLE: Qq.CFG is written as it stands with EN = 0. -/
def execQueueDisable (m : Master) (q : Queue) (s : State) : Host.Outcome State Fault Refusal :=
  doHw s fun h => gated h m (qCfgAddr q.val) fun h =>
    writeQCfg h m q.val (setBitAt (readVal h (qCfgAddr q.val)) 0 false) 1
/-- QUEUE_POP. -/
def execQueuePop (m : Master) (q : Queue) (n : Fin 8192) (s : State) : Host.Outcome State Fault Refusal :=
  doHw s fun h => gated h m (qPtrAddr q.val) fun h => popQueue h q.val n.val
/-- AFF_WRITE. -/
def execAffWrite (m : Master) (q : Queue) (mask : BitVec 64) (s : State) : Host.Outcome State Fault Refusal :=
  doHw s fun h => gated h m (qAffAddr q.val) fun h => writeQAff h m q.val mask.toNat (2 ^ 64 - 1)

/-- Shift change: the entry with this age has waited longer than its queue's PATIENCE and moves up one level (R261). -/
def shiftEntry (h : Hw) (q age : Nat) : Hw :=
  let patience := h.rd (K.SCHED_Q_CFG_PATIENCE q)
  if !qEn h q || patience == 0 then h
  else
    let x := h.queue q
    h.setQueue q { x with entries := x.entries.map fun e =>
      if e.age = age ∧ 2 ≤ e.level ∧ patience * 800 < h.now - e.joined then { e with level := e.level - 1, joined := h.now } else e }
/-- SHIFT_CHANGE. -/
def execShiftChange (q : Queue) (seq : Nat) (s : State) : Host.Outcome State Fault Refusal :=
  doHw s fun h => shiftEntry h q.val seq

/-- The burn count of the item on a core reaches its limit: the item ends with cause BURN (R262). The count is not taken
as a trap: the core's trap registers stay as they are. -/
def burnAbort (h : Hw) (c : Core) : Hw :=
  let x := h.core c.val
  if x.item.isNone || x.ending.isSome || isHalted h c.val then h
  else
    let limit := h.rd (K.CREW_CORE_BURN_LIMIT c.val)
    let h := h.wr (K.CREW_CORE_BURN_COUNT c.val) limit
    startEnd (logTrap h c cBurn (BitVec.ofNat 64 limit) x.pc) c ⟨cBurn, BitVec.ofNat 64 limit, 0⟩
/-- BURN_LIMIT_ABORT. -/
def execBurnLimitAbort (c : Core) (s : State) : Host.Outcome State Fault Refusal := doHw s fun h => burnAbort h c

/-- FPORT_DELIVERY. -/
def execFportDelivery (q : Queue) (s : State) : Host.Outcome State Fault Refusal := doHw s fun h => portDelivery h q.val
/-- FPORT_DELIVERY_ACCEPT. -/
def execFportDeliveryAccept (q : Queue) (s : State) : Host.Outcome State Fault Refusal :=
  doHw s fun h => portAccepts h q.val

end Sys2Proof.Machine
end

