-- ==== Sys2Proof/Machine/Dispatch.lean ====
section
/-!
DEFINITION. The dispatcher: one arm per command.
-/
namespace Sys2Proof.Machine

/-- The effect of a command on everything but the queue. -/
def exec (i : Instr) (s : State) : Host.Outcome State Fault Refusal :=
  match i with
  | .csrWrite m addr size data => Sys2Proof.Machine.execCsrWrite m addr size data s
  | .rcRead m addr size => Sys2Proof.Machine.execRcRead m addr size s
  | .stWrite m addr size data => Sys2Proof.Machine.execStWrite m addr size data s
  | .gridtimeLowRead m size => Sys2Proof.Machine.execGridtimeLowRead m size s
  | .flitForward r inp cv inject => Sys2Proof.Machine.execFlitForward r inp cv inject s
  | .galleryRequest idx => Sys2Proof.Machine.execGalleryRequest idx s
  | .galleryResponse idx => Sys2Proof.Machine.execGalleryResponse idx s
  | .fportOutboundRequest d p op hostSpace addr beats data be => Sys2Proof.Machine.execFportOutboundRequest d p op hostSpace addr beats data be s
  | .fportPostedAccept d p tag => Sys2Proof.Machine.execFportPostedAccept d p tag s
  | .fportOutboundResponse d p tag => Sys2Proof.Machine.execFportOutboundResponse d p tag s
  | .fportFlush d p => Sys2Proof.Machine.execFportFlush d p s
  | .fportFlushComplete d p tag => Sys2Proof.Machine.execFportFlushComplete d p tag s
  | .fportInboundRequest idx => Sys2Proof.Machine.execFportInboundRequest idx s
  | .fportInboundResponse d p tag data => Sys2Proof.Machine.execFportInboundResponse d p tag data s
  | .fportStallTimeout d p => Sys2Proof.Machine.execFportStallTimeout d p s
  | .fportStalledClear m d p => Sys2Proof.Machine.execFportStalledClear m d p s
  | .sectorPortRequest d sec wr beat data be => Sys2Proof.Machine.execSectorPortRequest d sec wr beat data be s
  | .sectorPortResponse d sec => Sys2Proof.Machine.execSectorPortResponse d sec s
  | .outpostPortAccess d wr off data => Sys2Proof.Machine.execOutpostPortAccess d wr off data s
  | .flashRead d src line => Sys2Proof.Machine.execFlashRead d src line s
  | .flashProgram d src line => Sys2Proof.Machine.execFlashProgram d src line s
  | .flashErase d src line => Sys2Proof.Machine.execFlashErase d src line s
  | .flashOpComplete d => Sys2Proof.Machine.execFlashOpComplete d s
  | .uartDataWrite d u src v => Sys2Proof.Machine.execUartDataWrite d u src v s
  | .uartDataPop d u src => Sys2Proof.Machine.execUartDataPop d u src s
  | .uartRxFrame d u v perr ferr => Sys2Proof.Machine.execUartRxFrame d u v perr ferr s
  | .uartTxFrame d u => Sys2Proof.Machine.execUartTxFrame d u s
  | .spiDataWrite d src v => Sys2Proof.Machine.execSpiDataWrite d src v s
  | .spiDataPop d src => Sys2Proof.Machine.execSpiDataPop d src s
  | .i2cCmdWrite d src cmd => Sys2Proof.Machine.execI2cCmdWrite d src cmd s
  | .i2cCmdPop d src => Sys2Proof.Machine.execI2cCmdPop d src s
  | .spineContentionDetect d col spine drv => Sys2Proof.Machine.execSpineContentionDetect d col spine drv s
  | .spineRepairComplete d uncorr => Sys2Proof.Machine.execSpineRepairComplete d uncorr s
  | .qualWindow count => Sys2Proof.Machine.execQualWindow count s
  | .crystalQualTimeout => Sys2Proof.Machine.execCrystalQualTimeout s
  | .holdoverTimeout => Sys2Proof.Machine.execHoldoverTimeout s
  | .surveyPllLock => Sys2Proof.Machine.execSurveyPllLock s
  | .fpllLock d idx => Sys2Proof.Machine.execFpllLock d idx s
  | .fpllLockTimeout d idx => Sys2Proof.Machine.execFpllLockTimeout d idx s
  | .fpllLockLoss d idx => Sys2Proof.Machine.execFpllLockLoss d idx s
  | .clockSwitchStart d m cause => Sys2Proof.Machine.execClockSwitchStart d m cause s
  | .clockSwitchPark d m => Sys2Proof.Machine.execClockSwitchPark d m s
  | .clockSwitchDeadsrcTimeout d m => Sys2Proof.Machine.execClockSwitchDeadsrcTimeout d m s
  | .clockSwitchComplete d m => Sys2Proof.Machine.execClockSwitchComplete d m s
  | .clockSwitchNosrcTimeout d m => Sys2Proof.Machine.execClockSwitchNosrcTimeout d m s
  | .hubGateClose d m => Sys2Proof.Machine.execHubGateClose d m s
  | .fabricEnableChange d m v => Sys2Proof.Machine.execFabricEnableChange d m v s
  | .stakeLatch who d => Sys2Proof.Machine.execStakeLatch who d s
  | .stakeLatchRelease who d => Sys2Proof.Machine.execStakeLatchRelease who d s
  | .fabricSeamTrainStart n => Sys2Proof.Machine.execFabricSeamTrainStart n s
  | .seamResetDone k => Sys2Proof.Machine.execSeamResetDone k s
  | .seamPrbsDone r => Sys2Proof.Machine.execSeamPrbsDone r s
  | .seamPrbsTimeout k tests => Sys2Proof.Machine.execSeamPrbsTimeout k tests s
  | .seamLrpt k dir body crc => Sys2Proof.Machine.execSeamLrpt k dir body crc s
  | .seamReportTimeout k => Sys2Proof.Machine.execSeamReportTimeout k s
  | .seamMack k owner received computed => Sys2Proof.Machine.execSeamMack k owner received computed s
  | .seamMapTimeout k => Sys2Proof.Machine.execSeamMapTimeout k s
  | .eyeMeasure k dir g lanes => Sys2Proof.Machine.execEyeMeasure k dir g lanes s
  | .spareSwapComplete k dir g => Sys2Proof.Machine.execSpareSwapComplete k dir g s
  | .laneAbruptFail k ln => Sys2Proof.Machine.execLaneAbruptFail k ln s
  | .degradePlanApply n => Sys2Proof.Machine.execDegradePlanApply n s
  | .bindingAlign n dir b delta => Sys2Proof.Machine.execBindingAlign n dir b delta s
  | .seamRejoin n late => Sys2Proof.Machine.execSeamRejoin n late s
  | .fabricTrigger d line => Sys2Proof.Machine.execFabricTrigger d line s
  | .trigInPin j => Sys2Proof.Machine.execTrigInPin j s
  | .htrigWrite m d dies profile => Sys2Proof.Machine.execHtrigWrite m d dies profile s
  | .triggerArrival d idx => Sys2Proof.Machine.execTriggerArrival d idx s
  | .captureNetwork d m => Sys2Proof.Machine.execCaptureNetwork d m s
  | .captureWaitTimeout d m => Sys2Proof.Machine.execCaptureWaitTimeout d m s
  | .strataDrainStart d => Sys2Proof.Machine.execStrataDrainStart d s
  | .strataDrainComplete d => Sys2Proof.Machine.execStrataDrainComplete d s
  | .strataWindowAccess idx => Sys2Proof.Machine.execStrataWindowAccess idx s
  | .deepDrainComplete d => Sys2Proof.Machine.execDeepDrainComplete d s
  | .restoreComplete d => Sys2Proof.Machine.execRestoreComplete d s
  | .add c rd rs1 rs2 => Sys2Proof.Machine.execAdd c rd rs1 rs2 s
  | .sub c rd rs1 rs2 => Sys2Proof.Machine.execSub c rd rs1 rs2 s
  | .andOp c rd rs1 rs2 => Sys2Proof.Machine.execAndOp c rd rs1 rs2 s
  | .orOp c rd rs1 rs2 => Sys2Proof.Machine.execOrOp c rd rs1 rs2 s
  | .xorOp c rd rs1 rs2 => Sys2Proof.Machine.execXorOp c rd rs1 rs2 s
  | .sll c rd rs1 rs2 => Sys2Proof.Machine.execSll c rd rs1 rs2 s
  | .srl c rd rs1 rs2 => Sys2Proof.Machine.execSrl c rd rs1 rs2 s
  | .sra c rd rs1 rs2 => Sys2Proof.Machine.execSra c rd rs1 rs2 s
  | .slt c rd rs1 rs2 => Sys2Proof.Machine.execSlt c rd rs1 rs2 s
  | .sltu c rd rs1 rs2 => Sys2Proof.Machine.execSltu c rd rs1 rs2 s
  | .mul c rd rs1 rs2 => Sys2Proof.Machine.execMul c rd rs1 rs2 s
  | .mulh c rd rs1 rs2 => Sys2Proof.Machine.execMulh c rd rs1 rs2 s
  | .mulhu c rd rs1 rs2 => Sys2Proof.Machine.execMulhu c rd rs1 rs2 s
  | .div c rd rs1 rs2 => Sys2Proof.Machine.execDiv c rd rs1 rs2 s
  | .divu c rd rs1 rs2 => Sys2Proof.Machine.execDivu c rd rs1 rs2 s
  | .rem c rd rs1 rs2 => Sys2Proof.Machine.execRem c rd rs1 rs2 s
  | .remu c rd rs1 rs2 => Sys2Proof.Machine.execRemu c rd rs1 rs2 s
  | .clz c rd rs1 => Sys2Proof.Machine.execClz c rd rs1 s
  | .popc c rd rs1 => Sys2Proof.Machine.execPopc c rd rs1 s
  | .addi c rd rs1 imm => Sys2Proof.Machine.execAddi c rd rs1 imm s
  | .andi c rd rs1 imm => Sys2Proof.Machine.execAndi c rd rs1 imm s
  | .ori c rd rs1 imm => Sys2Proof.Machine.execOri c rd rs1 imm s
  | .xori c rd rs1 imm => Sys2Proof.Machine.execXori c rd rs1 imm s
  | .slti c rd rs1 imm => Sys2Proof.Machine.execSlti c rd rs1 imm s
  | .sltiu c rd rs1 imm => Sys2Proof.Machine.execSltiu c rd rs1 imm s
  | .slli c rd rs1 sh => Sys2Proof.Machine.execSlli c rd rs1 sh s
  | .srli c rd rs1 sh => Sys2Proof.Machine.execSrli c rd rs1 sh s
  | .srai c rd rs1 sh => Sys2Proof.Machine.execSrai c rd rs1 sh s
  | .lui c rd imm => Sys2Proof.Machine.execLui c rd imm s
  | .lb c rd rs1 imm => Sys2Proof.Machine.execLb c rd rs1 imm s
  | .lh c rd rs1 imm => Sys2Proof.Machine.execLh c rd rs1 imm s
  | .lw c rd rs1 imm => Sys2Proof.Machine.execLw c rd rs1 imm s
  | .ld c rd rs1 imm => Sys2Proof.Machine.execLd c rd rs1 imm s
  | .lbu c rd rs1 imm => Sys2Proof.Machine.execLbu c rd rs1 imm s
  | .lhu c rd rs1 imm => Sys2Proof.Machine.execLhu c rd rs1 imm s
  | .lwu c rd rs1 imm => Sys2Proof.Machine.execLwu c rd rs1 imm s
  | .sb c rs1 rs2 imm => Sys2Proof.Machine.execSb c rs1 rs2 imm s
  | .sh c rs1 rs2 imm => Sys2Proof.Machine.execSh c rs1 rs2 imm s
  | .sw c rs1 rs2 imm => Sys2Proof.Machine.execSw c rs1 rs2 imm s
  | .sd c rs1 rs2 imm => Sys2Proof.Machine.execSd c rs1 rs2 imm s
  | .loadResponse c idx => Sys2Proof.Machine.execLoadResponse c idx s
  | .storeAck c idx => Sys2Proof.Machine.execStoreAck c idx s
  | .icacheFillResponse c status => Sys2Proof.Machine.execIcacheFillResponse c status s
  | .beq c rs1 rs2 off => Sys2Proof.Machine.execBeq c rs1 rs2 off s
  | .bne c rs1 rs2 off => Sys2Proof.Machine.execBne c rs1 rs2 off s
  | .blt c rs1 rs2 off => Sys2Proof.Machine.execBlt c rs1 rs2 off s
  | .bge c rs1 rs2 off => Sys2Proof.Machine.execBge c rs1 rs2 off s
  | .bltu c rs1 rs2 off => Sys2Proof.Machine.execBltu c rs1 rs2 off s
  | .bgeu c rs1 rs2 off => Sys2Proof.Machine.execBgeu c rs1 rs2 off s
  | .jalr c rd rs1 imm => Sys2Proof.Machine.execJalr c rd rs1 imm s
  | .jal c rd off => Sys2Proof.Machine.execJal c rd off s
  | .tret c => Sys2Proof.Machine.execTret c s
  | .illegalInstruction c w => Sys2Proof.Machine.execIllegalInstruction c w s
  | .lockOp c => Sys2Proof.Machine.execLockOp c s
  | .endlock c rd => Sys2Proof.Machine.execEndlock c rd s
  | .priorityReservationGrant => Sys2Proof.Machine.execPriorityReservationGrant s
  | .priorityReservationTimeout => Sys2Proof.Machine.execPriorityReservationTimeout s
  | .fenceR c => Sys2Proof.Machine.execFenceR c s
  | .fenceW c => Sys2Proof.Machine.execFenceW c s
  | .fenceRw c => Sys2Proof.Machine.execFenceRw c s
  | .fenceRwi c => Sys2Proof.Machine.execFenceRwi c s
  | .trap c rs1 => Sys2Proof.Machine.execTrap c rs1 s
  | .enq c rd rs1 rs2 => Sys2Proof.Machine.execEnq c rd rs1 rs2 s
  | .deq c rd rs1 rs2 => Sys2Proof.Machine.execDeq c rd rs1 rs2 s
  | .reply c rd rs1 => Sys2Proof.Machine.execReply c rd rs1 s
  | .doneItem c rd rs1 => Sys2Proof.Machine.execDoneItem c rd rs1 s
  | .fsetClaim c rd rs1 rs2 => Sys2Proof.Machine.execFsetClaim c rd rs1 rs2 s
  | .fsetRelease c rd rs1 rs2 => Sys2Proof.Machine.execFsetRelease c rd rs1 rs2 s
  | .frameClaimTimeout d => Sys2Proof.Machine.execFrameClaimTimeout d s
  | .fwr c rd rs1 rs2 => Sys2Proof.Machine.execFwr c rd rs1 rs2 s
  | .frd c rd rs1 rs2 => Sys2Proof.Machine.execFrd c rd rs1 rs2 s
  | .fverify c rd rs1 rs2 => Sys2Proof.Machine.execFverify c rd rs1 rs2 s
  | .frameOpComplete d => Sys2Proof.Machine.execFrameOpComplete d s
  | .stage c rd rs1 rs2 => Sys2Proof.Machine.execStage c rd rs1 rs2 s
  | .commit c rd rs1 => Sys2Proof.Machine.execCommit c rd rs1 s
  | .cfgCommitGo m group => Sys2Proof.Machine.execCfgCommitGo m group s
  | .commitDeferredApply group => Sys2Proof.Machine.execCommitDeferredApply group s
  | .kload c rd rs1 rs2 => Sys2Proof.Machine.execKload c rd rs1 rs2 s
  | .kroll c rd rs1 rs2 => Sys2Proof.Machine.execKroll c rd rs1 rs2 s
  | .kwipe c rd rs2 => Sys2Proof.Machine.execKwipe c rd rs2 s
  | .adig c rd rs1 rs2 => Sys2Proof.Machine.execAdig c rd rs1 rs2 s
  | .acmp c rd rs1 rs2 => Sys2Proof.Machine.execAcmp c rd rs1 rs2 s
  | .strain c rd rs1 => Sys2Proof.Machine.execStrain c rd rs1 s
  | .swidth c rd rs1 rs2 => Sys2Proof.Machine.execSwidth c rd rs1 rs2 s
  | .splanQuery c rd rs1 rs2 => Sys2Proof.Machine.execSplanQuery c rd rs1 rs2 s
  | .splanRetire c rd rs1 rs2 => Sys2Proof.Machine.execSplanRetire c rd rs1 rs2 s
  | .cap c rd rs1 rs2 => Sys2Proof.Machine.execCap c rd rs1 rs2 s
  | .drain c rd rs1 rs2 => Sys2Proof.Machine.execDrain c rd rs1 rs2 s
  | .restore c rd rs1 rs2 => Sys2Proof.Machine.execRestore c rd rs1 rs2 s
  | .clkhalt c rd rs1 rs2 => Sys2Proof.Machine.execClkhalt c rd rs1 rs2 s
  | .clkrun c rd rs1 => Sys2Proof.Machine.execClkrun c rd rs1 s
  | .waitOp c rd rs1 rs2 => Sys2Proof.Machine.execWaitOp c rd rs1 rs2 s
  | .waitWake c timeout => Sys2Proof.Machine.execWaitWake c timeout s
  | .msgMsix c rd rs1 rs2 => Sys2Proof.Machine.execMsgMsix c rd rs1 rs2 s
  | .msgLog c rd rs1 rs2 => Sys2Proof.Machine.execMsgLog c rd rs1 rs2 s
  | .rstreqWarm c rd rs1 rs2 => Sys2Proof.Machine.execRstreqWarm c rd rs1 rs2 s
  | .rstreqCold c rd rs1 rs2 => Sys2Proof.Machine.execRstreqCold c rd rs1 rs2 s
  | .rstreqDie c rd rs1 rs2 => Sys2Proof.Machine.execRstreqDie c rd rs1 rs2 s
  | .fuserd c rd rs1 => Sys2Proof.Machine.execFuserd c rd rs1 s
  | .fuseprog c rd rs1 rs2 => Sys2Proof.Machine.execFuseprog c rd rs1 rs2 s
  | .optwr c rd rs1 => Sys2Proof.Machine.execOptwr c rd rs1 s
  | .doorbell m q desc => Sys2Proof.Machine.execDoorbell m q desc s
  | .fportCreditUpdate d p q => Sys2Proof.Machine.execFportCreditUpdate d p q s
  | .queueEnable m q => Sys2Proof.Machine.execQueueEnable m q s
  | .queueDisable m q => Sys2Proof.Machine.execQueueDisable m q s
  | .queuePop m q n => Sys2Proof.Machine.execQueuePop m q n s
  | .affWrite m q mask => Sys2Proof.Machine.execAffWrite m q mask s
  | .shiftChange q seq => Sys2Proof.Machine.execShiftChange q seq s
  | .burnLimitAbort c => Sys2Proof.Machine.execBurnLimitAbort c s
  | .fportDelivery q => Sys2Proof.Machine.execFportDelivery q s
  | .fportDeliveryAccept q => Sys2Proof.Machine.execFportDeliveryAccept q s
  | .loadRequest => Sys2Proof.Machine.execLoadRequest s
  | .legendCheck bytes => Sys2Proof.Machine.execLegendCheck bytes s
  | .segmentComplete bytes => Sys2Proof.Machine.execSegmentComplete bytes s
  | .imageProgramReturn => Sys2Proof.Machine.execImageProgramReturn s
  | .loadVerifyTimeout => Sys2Proof.Machine.execLoadVerifyTimeout s
  | .loadSourceStall => Sys2Proof.Machine.execLoadSourceStall s
  | .loadClearComplete => Sys2Proof.Machine.execLoadClearComplete s
  | .releaseWrite m dies => Sys2Proof.Machine.execReleaseWrite m dies s
  | .plpWord w => Sys2Proof.Machine.execPlpWord w s
  | .slpWrite bytes => Sys2Proof.Machine.execSlpWrite bytes s
  | .slpStatus => Sys2Proof.Machine.execSlpStatus s
  | .slpOtherCommand cmd => Sys2Proof.Machine.execSlpOtherCommand cmd s
  | .bootFlashBurst bytes => Sys2Proof.Machine.execBootFlashBurst bytes s
  | .fenceClose m d sec => Sys2Proof.Machine.execFenceClose m d sec s
  | .fenceSettled d sec => Sys2Proof.Machine.execFenceSettled d sec s
  | .fenceLift m d sec => Sys2Proof.Machine.execFenceLift m d sec s
  | .maskTableWrite m d sec w v => Sys2Proof.Machine.execMaskTableWrite m d sec w v s
  | .scrubFrame d seen => Sys2Proof.Machine.execScrubFrame d seen s
  | .scrubStuckTimeout d => Sys2Proof.Machine.execScrubStuckTimeout d s
  | .dieDigestCompute d => Sys2Proof.Machine.execDieDigestCompute d s
  | .hubDigestRecompute => Sys2Proof.Machine.execHubDigestRecompute s
  | .deviceDigestRecompute => Sys2Proof.Machine.execDeviceDigestRecompute s
  | .pcieLinkUp gen width flit => Sys2Proof.Machine.execPcieLinkUp gen width flit s
  | .pcieLinkDown => Sys2Proof.Machine.execPcieLinkDown s
  | .pcieHotReset => Sys2Proof.Machine.execPcieHotReset s
  | .pcieConfigRequest f req => Sys2Proof.Machine.execPcieConfigRequest f req s
  | .pcieMemWrite f bar off size data poisoned => Sys2Proof.Machine.execPcieMemWrite f bar off size data poisoned s
  | .pcieMemRead f bar off size tag => Sys2Proof.Machine.execPcieMemRead f bar off size tag s
  | .pcieCompletionReceived id status data => Sys2Proof.Machine.execPcieCompletionReceived id status data s
  | .pcieCompletionTimeout id => Sys2Proof.Machine.execPcieCompletionTimeout id s
  | .pcieFlr f => Sys2Proof.Machine.execPcieFlr f s
  | .barResize log2 => Sys2Proof.Machine.execBarResize log2 s
  | .msixEnable f on => Sys2Proof.Machine.execMsixEnable f on s
  | .msixUnmask f vec => Sys2Proof.Machine.execMsixUnmask f vec s
  | .funcMsixWrite m f data => Sys2Proof.Machine.execFuncMsixWrite m f data s
  | .hostRingDelivery q => Sys2Proof.Machine.execHostRingDelivery q s
  | .hringHeadWrite m q head => Sys2Proof.Machine.execHringHeadWrite m q head s
  | .dbgwinWrite m v => Sys2Proof.Machine.execDbgwinWrite m v s
  | .linkSignalDetect l => Sys2Proof.Machine.execLinkSignalDetect l s
  | .bortikAdvert l a => Sys2Proof.Machine.execBortikAdvert l a s
  | .linkStep1Timeout l => Sys2Proof.Machine.execLinkStep1Timeout l s
  | .climbStepComplete l r => Sys2Proof.Machine.execClimbStepComplete l r s
  | .linkAlignComplete l => Sys2Proof.Machine.execLinkAlignComplete l s
  | .linkKeyAvailable l => Sys2Proof.Machine.execLinkKeyAvailable l s
  | .laneLockLoss k => Sys2Proof.Machine.execLaneLockLoss k s
  | .laneLockRegain l => Sys2Proof.Machine.execLaneLockRegain l s
  | .laneLockTimeout l => Sys2Proof.Machine.execLaneLockTimeout l s
  | .laneMarginMeasure k margin => Sys2Proof.Machine.execLaneMarginMeasure k margin s
  | .bortikFrameReceive l fr => Sys2Proof.Machine.execBortikFrameReceive l fr s
  | .bortikRscBlock l cycle index slots => Sys2Proof.Machine.execBortikRscBlock l cycle index slots s
  | .beaconSend l => Sys2Proof.Machine.execBeaconSend l s
  | .beaconLostTimeout l => Sys2Proof.Machine.execBeaconLostTimeout l s
  | .replayTimeout l => Sys2Proof.Machine.execReplayTimeout l s
  | .keyEpochSwitch l dir => Sys2Proof.Machine.execKeyEpochSwitch l dir s
  | .creditSend l q => Sys2Proof.Machine.execCreditSend l q s
  | .bortikDelivery q => Sys2Proof.Machine.execBortikDelivery q s
  | .rscAlignComplete l steady delta => Sys2Proof.Machine.execRscAlignComplete l steady delta s
  | .ddrTrainComplete n fail => Sys2Proof.Machine.execDdrTrainComplete n fail s
  | .ddrRefreshDue n rank => Sys2Proof.Machine.execDdrRefreshDue n rank s
  | .ddrSameBankRefresh n rank b => Sys2Proof.Machine.execDdrSameBankRefresh n rank b s
  | .ddrOwedRefreshPay n rank => Sys2Proof.Machine.execDdrOwedRefreshPay n rank s
  | .ddrMr4Poll n want => Sys2Proof.Machine.execDdrMr4Poll n want s
  | .ddrDqsTrack n rank lane drift => Sys2Proof.Machine.execDdrDqsTrack n rank lane drift s
  | .ddrMarginAudit n rd wr => Sys2Proof.Machine.execDdrMarginAudit n rd wr s
  | .ddrRefreshWindow n => Sys2Proof.Machine.execDdrRefreshWindow n s
  | .ddrRead idx seen => Sys2Proof.Machine.execDdrRead idx seen s
  | .ddrWrite idx seen => Sys2Proof.Machine.execDdrWrite idx seen s
  | .ddrRetrain m n => Sys2Proof.Machine.execDdrRetrain m n s
  | .ddrRetrainComplete n fail => Sys2Proof.Machine.execDdrRetrainComplete n fail s
  | .cipherRead idx seen => Sys2Proof.Machine.execCipherRead idx seen s
  | .cipherWrite idx seen => Sys2Proof.Machine.execCipherWrite idx seen s
  | .counterFetchComplete r page aOk bOk => Sys2Proof.Machine.execCounterFetchComplete r page aOk bOk s
  | .cipherInstallComplete r => Sys2Proof.Machine.execCipherInstallComplete r s
  | .meridianPage r => Sys2Proof.Machine.execMeridianPage r s
  | .cipherPageClear m page => Sys2Proof.Machine.execCipherPageClear m page s
  | .eccFillComplete => Sys2Proof.Machine.execEccFillComplete s
  | .powerOnReset rail => Sys2Proof.Machine.execPowerOnReset rail s
  | .resetPinAssert => Sys2Proof.Machine.execResetPinAssert s
  | .resetPinRelease => Sys2Proof.Machine.execResetPinRelease s
  | .perstAssert => Sys2Proof.Machine.execPerstAssert s
  | .perstRelease => Sys2Proof.Machine.execPerstRelease s
  | .coldReset => Sys2Proof.Machine.execColdReset s
  | .warmReset => Sys2Proof.Machine.execWarmReset s
  | .dieReset d => Sys2Proof.Machine.execDieReset d s
  | .critReset what => Sys2Proof.Machine.execCritReset what s
  | .fuseSenseComplete => Sys2Proof.Machine.execFuseSenseComplete s
  | .optionLoadComplete => Sys2Proof.Machine.execOptionLoadComplete s
  | .foremanStart => Sys2Proof.Machine.execForemanStart s
  | .vccioChange b good => Sys2Proof.Machine.execVccioChange b good s
  | .vccioMeasure b mv => Sys2Proof.Machine.execVccioMeasure b mv s
  | .powerTargetUpdate => Sys2Proof.Machine.execPowerTargetUpdate s
  | .powerStateStep => Sys2Proof.Machine.execPowerStateStep s
  | .a3Entry => Sys2Proof.Machine.execA3Entry s
  | .retskipTimeout => Sys2Proof.Machine.execRetskipTimeout s
  | .a3Exit => Sys2Proof.Machine.execA3Exit s
  | .blockWake b awake => Sys2Proof.Machine.execBlockWake b awake s
  | .pauseWrite m v => Sys2Proof.Machine.execPauseWrite m v s
  | .tempSample die readings => Sys2Proof.Machine.execTempSample die readings s
  | .tapReset => Sys2Proof.Machine.execTapReset s
  | .extest => Sys2Proof.Machine.execExtest s
  | .samplePreload cells => Sys2Proof.Machine.execSamplePreload cells s
  | .idcode => Sys2Proof.Machine.execIdcode s
  | .bypass ir => Sys2Proof.Machine.execBypass ir s
  | .accessRead reg => Sys2Proof.Machine.execAccessRead reg s
  | .accessWrite reg data => Sys2Proof.Machine.execAccessWrite reg data s
  | .tapTrigger dies profile go => Sys2Proof.Machine.execTapTrigger dies profile go s
  | .tapDbgwin v => Sys2Proof.Machine.execTapDbgwin v s
  | .debugWindowAccess wr off size data => Sys2Proof.Machine.execDebugWindowAccess wr off size data s
  | .aditAttach face => Sys2Proof.Machine.execAditAttach face s
  | .aditDetach face => Sys2Proof.Machine.execAditDetach face s
  | .aditPeek face => Sys2Proof.Machine.execAditPeek face s
  | .aditPoke face => Sys2Proof.Machine.execAditPoke face s
  | .aditBusCancel face => Sys2Proof.Machine.execAditBusCancel face s
  | .aditBusResponse => Sys2Proof.Machine.execAditBusResponse s
  | .aditHalt face cores => Sys2Proof.Machine.execAditHalt face cores s
  | .coreHaltTake c => Sys2Proof.Machine.execCoreHaltTake c s
  | .haltDeferralTimeout c => Sys2Proof.Machine.execHaltDeferralTimeout c s
  | .aditRun face cores => Sys2Proof.Machine.execAditRun face cores s
  | .aditStep face c => Sys2Proof.Machine.execAditStep face c s
  | .breakpointHit c => Sys2Proof.Machine.execBreakpointHit c s
  | .aditRegWrite face reg v => Sys2Proof.Machine.execAditRegWrite face reg v s
  | .dtxStore c v => Sys2Proof.Machine.execDtxStore c v s
  | .dtxRelease face c => Sys2Proof.Machine.execDtxRelease face c s
  | .drxWrite face c v => Sys2Proof.Machine.execDrxWrite face c v s
  | .drxRead c m => Sys2Proof.Machine.execDrxRead c m s
  | .aditResetWarm face => Sys2Proof.Machine.execAditResetWarm face s
  | .aditResetCold face => Sys2Proof.Machine.execAditResetCold face s
  | .aditResetDie face d => Sys2Proof.Machine.execAditResetDie face d s
  | .canaryFeed m key => Sys2Proof.Machine.execCanaryFeed m key s
  | .canaryExpiry => Sys2Proof.Machine.execCanaryExpiry s
  | .guestLinkUp rate full => Sys2Proof.Machine.execGuestLinkUp rate full s
  | .guestLinkDown => Sys2Proof.Machine.execGuestLinkDown s
  | .guestRead h => Sys2Proof.Machine.execGuestRead h s
  | .guestFetch h => Sys2Proof.Machine.execGuestFetch h s
  | .guestWrite h data => Sys2Proof.Machine.execGuestWrite h data s
  | .guestPwrite h data => Sys2Proof.Machine.execGuestPwrite h data s
  | .guestBucketRelease => Sys2Proof.Machine.execGuestBucketRelease s
  | .guestDelivery q => Sys2Proof.Machine.execGuestDelivery q s
  | .guestCreditReturn => Sys2Proof.Machine.execGuestCreditReturn s
  | .guestUnfence m => Sys2Proof.Machine.execGuestUnfence m s
  | .toguestGo m => Sys2Proof.Machine.execToguestGo m s
  | .fromguestGo => Sys2Proof.Machine.execFromguestGo s
  | .guestTempReport t => Sys2Proof.Machine.execGuestTempReport t s
  | .guestTempSilent => Sys2Proof.Machine.execGuestTempSilent s
  | .guestGrstWrite m grst triprst => Sys2Proof.Machine.execGuestGrstWrite m grst triprst s
  | .vguestChange good => Sys2Proof.Machine.execVguestChange good s
  | .coreRailsGood => Sys2Proof.Machine.execCoreRailsGood s
  | .vccintAtRetention => Sys2Proof.Machine.execVccintAtRetention s
  | .laneSupplyChange good => Sys2Proof.Machine.execLaneSupplyChange good s
  | .dieFramesZeroed d => Sys2Proof.Machine.execDieFramesZeroed d s
  | .clkhaltWaitallTimeout c => Sys2Proof.Machine.execClkhaltWaitallTimeout c s
  | .optwrComplete ok => Sys2Proof.Machine.execOptwrComplete ok s
  | .fuseprogComplete ok => Sys2Proof.Machine.execFuseprogComplete ok s
  | .spiByteTransfer d rx => Sys2Proof.Machine.execSpiByteTransfer d rx s
  | .i2cByteTransfer d ev => Sys2Proof.Machine.execI2cByteTransfer d ev s
  | .rscSlip l => Sys2Proof.Machine.execRscSlip l s

end Sys2Proof.Machine
end

