-- ==== Sys2Proof/Machine/Tick.lean ====
section
/-!
DEFINITION. One tick of the 800 MHz survey grid with no command waiting: what happens because time passes (R93, R262,
R483, R490, R491). Every other timed happening of the manual is a command of its own (log entry 1).
-/
namespace Sys2Proof.Machine

/-- CORE.CYCLE and the burn counter of a core count two crew cycles a tick while it is not halted (R262). -/
def tickCore (h : Hw) (c : Core) : Hw :=
  if isHalted h c.val then h
  else
    let h := h.wr (K.CORE_CYCLE_COUNT c.val) ((h.rd (K.CORE_CYCLE_COUNT c.val) + 2) % 2 ^ 64)
    if (h.core c.val).item.isNone || (h.core c.val).ending.isSome then h
    else
      let b := K.CREW_CORE_BURN_COUNT c.val
      h.wr b (min (h.rd b + 2) (max (h.rd b) (h.rd (K.CREW_CORE_BURN_LIMIT c.val))))

/-- The Canary counts down once a microsecond, unless it is held (R483, R484). -/
def tickCanary (h : Hw) : Hw :=
  let n := h.dbg.canTick + 1
  if n < 800 then { h with dbg := { h.dbg with canTick := n } }
  else
    let h := { h with dbg := { h.dbg with canTick := 0 } }
    if canaryHolds h then h else h.wr K.RST_CANARY_STAT_REMAIN (h.rd K.RST_CANARY_STAT_REMAIN - 1)

/-- The token bucket and the violation window of the guest (R490, R491). -/
def tickGuest (h : Hw) : Hw :=
  onGuest h fun g =>
    let full := h.rd K.GUEST_LIMITS_BURST * 1024 * 800
    let t := min full (g.tokens + h.rd K.GUEST_LIMITS_RATE * 64)
    { g with tokens := t, windowEnd := g.windowEnd - 1 }

/-- A tick of the device: nothing counts before the survey PLL has locked, and the foreman's clocks start with it. -/
def tickHw (h : Hw) : Hw :=
  if !h.bit K.CLK_STAT_SLOCK then h
  else
    let h := h.wr K.CLK_GRIDTIME_TIME ((h.now + 1) % 2 ^ 64)
    if !hubRuns h then h
    else
      let h := if crewClockRuns h then allCores.foldl tickCore h else h
      wakeWaitAll (tickGuest (tickCanary h))

/-- One tick with no command waiting. -/
def tick (s : State) : State := s.onHw tickHw

end Sys2Proof.Machine
end

