-- ==== Sys2Proof/Safety.lean ====
section
/-!
DEFINITION. What the claims about the model are said in: an outcome that is a next state with a property, the parts of the
device that must outlast every reset, and a core that is free to issue.
-/
namespace Sys2Proof.Machine

/-- The outcome is a next state, and it has the property P. -/
def Ends (o : Host.Outcome State Fault Refusal) (P : State → Prop) : Prop := ∃ t, o = .next t ∧ P t

/-- The non-volatile memories w hold what v held and only grew: no blown fuse is cleared and no write counter falls. -/
def NonVol.Outlasts (w v : NonVol) : Prop :=
  (∀ word bit, (SMap.get v.fuses word 0).testBit bit = true → (SMap.get w.fuses word 0).testBit bit = true) ∧
  v.optA.writes ≤ w.optA.writes ∧ v.optB.writes ≤ w.optB.writes

/-- The state's non-volatile memories have only grown since v. -/
def Since (v : NonVol) (s : State) : Prop := s.nv.Outlasts v

/-- Core c can issue the instruction i: it runs, no trap waits, no load still outstanding writes a register i names, the
fetch at its pc finds the instruction and no error to count, the core's level permits i, and i breaks no rule of a
locked sequence. -/
structure Ready (h : Hw) (c : Core) (i : Ins) : Prop where
  free : mayIssue h c = true
  quiet : (h.core c.val).pendErr = none
  regs : (i.uses.any fun r => r != 0 && (busyRegs h c).contains r) = false
  fetched : fetch h c = (.ready, h)
  level : (i.foremanOnly && !isForeman c) = false
  lockRules : breaksSeq h c i = false

/-- The form of a device operation as the issue logic sees it. -/
def devIns (word : Nat) (uses : List Reg) (foremanOnly : Bool) : Ins :=
  { word := word, uses := uses, lock := .barred, foremanOnly := foremanOnly }

/-- Core c can issue a device operation: its earlier loads are performed and its stores acknowledged (R197). -/
structure DevReady (h : Hw) (c : Core) (word : Nat) (uses : List Reg) (foremanOnly : Bool) : Prop
    extends Ready h c (devIns word uses foremanOnly) where
  loads : loadsDone h c = true
  stores : storesDone h c = true

/-- An operand of n bytes at address a may be read by core c, stands clean in memory and has the value v (R206). -/
def OperandIs (h : Hw) (c : Core) (a n align : Nat) (hub : Bool) (v : Nat) : Prop :=
  ∃ p, operandPlace c a n align hub = .ok p ∧ (h.mem.seen p n).all (fun x => x.2 == .clean) = true ∧ h.mem.readN p n = v

/-- The locked fields of Qq.CFG hold values their widths allow, as in every state a run reaches. -/
def CfgFits (h : Hw) (q : Nat) : Prop :=
  ∀ k ∈ [K.SCHED_Q_CFG_DEPTH q, K.SCHED_Q_CFG_TRES q, K.SCHED_Q_CFG_OWNKIND q, K.SCHED_Q_CFG_OWNIDX q, K.SCHED_Q_CFG_AUTO q,
    K.SCHED_Q_CFG_DELIVER q], h.rd k < 2 ^ k.w

/-- Core c has executed a device operation with this result: rd holds it, and the pc stands at the next instruction. -/
def Answers (s t : State) (c : Core) (rd : Reg) (v : Nat) : Prop :=
  t.hw.g c rd = (if rd = 0 then 0 else BitVec.ofNat 64 v) ∧ t.hw.pc c = s.hw.pc c + 4

/-- Core c waits for a unit, which will write rd. -/
def Waits (s t : State) (c : Core) (rd : Reg) (op : DevOp) : Prop :=
  (t.hw.core c.val).dev = some ⟨op, rd, none⟩ ∧ t.hw.pc c = s.hw.pc c + 4 ∧ ∀ r, t.hw.g c r = s.hw.g c r

/-- Core c, not halted, gets the result of the operation it waited for. -/
def Resumes (s t : State) (c : Core) (rd : Reg) (v : Nat) : Prop :=
  t.hw.g c rd = (if rd = 0 then 0 else BitVec.ofNat 64 v) ∧ (t.hw.core c.val).dev = none ∧
    ∀ r, r ≠ rd → t.hw.g c r = s.hw.g c r

end Sys2Proof.Machine
end

