-- ==== Sys2Proof/Forms.lean ====
section
/-!
DEFINITION. The commands of one shape side by side, with what tells them apart, for claims that hold of each.
-/
namespace Sys2Proof.Machine

/-- ALU register instructions with two sources: function code and value (R178, R179). -/
def aluForms : List ((Core → Reg → Reg → Reg → Instr) × Nat × (Word → Word → Word)) :=
  [(.add, 0x000, fun x y => x + y), (.sub, 0x001, fun x y => x - y), (.andOp, 0x002, fun x y => x &&& y),
   (.orOp, 0x003, fun x y => x ||| y), (.xorOp, 0x004, fun x y => x ^^^ y),
   (.sll, 0x005, fun x y => x <<< (y.toNat % 64)), (.srl, 0x006, fun x y => x >>> (y.toNat % 64)),
   (.sra, 0x007, fun x y => x.sshiftRight (y.toNat % 64)),
   (.slt, 0x008, fun x y => if x.toInt < y.toInt then 1 else 0), (.sltu, 0x009, fun x y => if x.toNat < y.toNat then 1 else 0),
   (.mul, 0x010, fun x y => BitVec.ofNat 64 (x.toNat * y.toNat)),
   (.mulh, 0x011, fun x y => BitVec.ofInt 64 (x.toInt * y.toInt / 2 ^ 64)),
   (.mulhu, 0x012, fun x y => BitVec.ofNat 64 (x.toNat * y.toNat / 2 ^ 64)),
   (.div, 0x018, fun x y => if y = 0 then BitVec.allOnes 64 else x.sdiv y),
   (.divu, 0x019, fun x y => if y = 0 then BitVec.allOnes 64 else x / y),
   (.rem, 0x01A, fun x y => x.srem y), (.remu, 0x01B, fun x y => x % y)]

/-- ALU register instructions with one source. -/
def unaryForms : List ((Core → Reg → Reg → Instr) × Nat × (Word → Word)) :=
  [(.clz, 0x020, fun x => BitVec.ofNat 64 (64 - x.toNat.size)),
   (.popc, 0x021, fun x => BitVec.ofNat 64 ((List.range 64).countP fun i => x.getLsbD i))]

/-- ALU immediate instructions: func3 and value of rs1 and the sign-extended immediate (R180). -/
def immForms : List ((Core → Reg → Reg → BitVec 12 → Instr) × Nat × (Word → Word → Word)) :=
  [(.addi, 0, fun x y => x + y), (.andi, 1, fun x y => x &&& y), (.ori, 2, fun x y => x ||| y),
   (.xori, 3, fun x y => x ^^^ y), (.slti, 4, fun x y => if x.toInt < y.toInt then 1 else 0),
   (.sltiu, 5, fun x y => if x.toNat < y.toNat then 1 else 0)]

/-- Shifts by an immediate: imm[11:10] and value. -/
def shiftForms : List ((Core → Reg → Reg → BitVec 6 → Instr) × Nat × (Word → Nat → Word)) :=
  [(.slli, 0, fun x n => x <<< n), (.srli, 1, fun x n => x >>> n), (.srai, 2, fun x n => x.sshiftRight n)]

/-- Loads: func3, bytes, and whether the value is sign-extended (R182). -/
def loadForms : List ((Core → Reg → Reg → BitVec 12 → Instr) × Nat × Nat × Bool) :=
  [(.lb, 0, 1, true), (.lh, 1, 2, true), (.lw, 2, 4, true), (.ld, 3, 8, false), (.lbu, 4, 1, false),
   (.lhu, 5, 2, false), (.lwu, 6, 4, false)]

/-- A value of `size` bytes as a load of that form writes it: sign-extended or zero-extended (R182). -/
def widened (size : Nat) (signed : Bool) (v : Nat) : Word :=
  if signed then (BitVec.ofNat (8 * size) v).signExtend 64 else (BitVec.ofNat (8 * size) v).setWidth 64

/-- Stores: func3 and bytes (R182). -/
def storeForms : List ((Core → Reg → Reg → BitVec 12 → Instr) × Nat × Nat) :=
  [(.sb, 0, 1), (.sh, 1, 2), (.sw, 2, 4), (.sd, 3, 8)]

/-- Branches: condition code and condition (R186). -/
def branchForms : List ((Core → Reg → Reg → BitVec 12 → Instr) × Nat × (Word → Word → Prop)) :=
  [(.beq, 0, fun x y => x = y), (.bne, 1, fun x y => x ≠ y), (.blt, 2, fun x y => x.toInt < y.toInt),
   (.bge, 3, fun x y => y.toInt ≤ x.toInt), (.bltu, 4, fun x y => x.toNat < y.toNat),
   (.bgeu, 5, fun x y => y.toNat ≤ x.toNat)]

/-- FENCEs: selector, whether it waits for loads and for stores, and whether it empties the instruction cache (R195). -/
def fenceForms : List ((Core → Instr) × Nat × Bool × Bool × Bool) :=
  [(.fenceR, 1, true, false, false), (.fenceW, 2, false, true, false), (.fenceRw, 3, true, true, false),
   (.fenceRwi, 7, true, true, true)]

/-- The issue logic's view of an instruction without restrictions of its own. -/
def plainIns (word : Nat) (uses : List Reg) : Ins := { word := word, uses := uses }
/-- The issue logic's view of an instruction that no locked sequence may hold. -/
def barredIns (word : Nat) (uses : List Reg) : Ins := { word := word, uses := uses, lock := .barred }
/-- The issue logic's view of LOCK and ENDLOCK. -/
def edgeIns (word : Nat) (uses : List Reg) : Ins := { word := word, uses := uses, lock := .edge }

/-- A side that may write block b of the outpost of die n, through the register at an offset: a hub master that passes the
gates and has the block, or the running design that has it (R63). -/
def SideWrites (h : Hw) (n : Nat) (b : OutBlock) (off : Nat) : Side → Prop
  | .hub m => csrGate h m true (dieBase n + 0xE00000 + off) = .ok ∧ hubOwns h n b = true
  | .design => designRuns h n 11 = true ∧ hubOwns h n b = false

/-- A side that may read the outpost of die n at an offset. -/
def SideReads (h : Hw) (n off : Nat) : Side → Prop
  | .hub m => csrGate h m false (dieBase n + 0xE00000 + off) = .ok
  | .design => designRuns h n 11 = true

/-- What an instruction of core c that writes only the registers `dst` and the pc leaves alone: the queue of commands, the
non-volatile memories, every byte of memory, every register field but the HALTED bits of a core that Adit steps, every
other register of the core, every other core, and every other part of the device. -/
structure Untouched (s t : State) (c : Core) (dst : List Reg) : Prop where
  pending : t.pending = s.pending
  nv : t.nv = s.nv
  mem : t.hw.mem = s.hw.mem
  fields : ∀ k : Key, k.id ≠ K.ADIT_HALTED_CORES.id → t.hw.rd k = s.hw.rd k
  shadow : t.hw.shadow = s.hw.shadow
  regs : ∀ r, r ∉ dst → t.hw.g c r = s.hw.g c r
  others : ∀ d : Nat, d ≠ c.val → t.hw.core d = s.hw.core d
  item : (t.hw.core c.val).item = (s.hw.core c.val).item
  loads : (t.hw.core c.val).loads = (s.hw.core c.val).loads
  stores : (t.hw.core c.val).stores = (s.hw.core c.val).stores
  rest : t.hw.gal = s.hw.gal ∧ t.hw.sched = s.hw.sched ∧ t.hw.clk = s.hw.clk ∧ t.hw.seam = s.hw.seam ∧
    t.hw.dies = s.hw.dies ∧ t.hw.strata = s.hw.strata ∧ t.hw.assay = s.hw.assay ∧ t.hw.keys = s.hw.keys ∧
    t.hw.ldr = s.hw.ldr ∧ t.hw.pins = s.hw.pins ∧ t.hw.pcie = s.hw.pcie ∧ t.hw.bortik = s.hw.bortik ∧
    t.hw.dram = s.hw.dram ∧ t.hw.rst = s.hw.rst ∧ t.hw.pwr = s.hw.pwr ∧ t.hw.guest = s.hw.guest ∧
    t.hw.dbg = s.hw.dbg ∧ t.hw.ecount = s.hw.ecount

end Sys2Proof.Machine
end

