-- ==== Sys2Proof/Certificates/Slice0/Obligations.lean ====
section
/-!
DEFINITION. The statements for the provers: what the commands of each family do, by the numbered rules of the manual.
-/
open Sys2Proof Sys2Proof.Machine

/-- A step with a command in front of the queue runs that command with the queue's rest. -/
def Obligations.StepTakesFront : Prop :=
  ∀ (s : State) (c : Instr) (rest : List Instr), s.pending = c :: rest → step s = exec c { s with pending := rest }

/-- On an empty queue a step is one tick of the 800 MHz grid, which leaves the queue empty and the non-volatile memories alone:
without a locked survey PLL nothing changes; with it, before the foreman runs, GRIDTIME grows by one and memory stays (the
model's choice, log entry 1). -/
def Obligations.EmptyQueueTicks : Prop :=
  ∀ s : State, s.pending = [] →
    Ends (step s) fun t => t.pending = [] ∧ t.nv = s.nv ∧
      (s.hw.bit K.CLK_STAT_SLOCK = false → t = s) ∧
      (s.hw.bit K.CLK_STAT_SLOCK = true → hubRuns s.hw = false → t.hw.now = (s.hw.now + 1) % 2 ^ 64 ∧ t.hw.mem = s.hw.mem)

/-- A command's effect leaves the queue alone. -/
def Obligations.EffectLeavesQueue : Prop :=
  ∀ (c : Instr) (s t : State), exec c s = .next t → t.pending = s.pending

/-- No command stops the block: each answers a next state in every state. -/
def Obligations.NoCommandStops : Prop := ∀ (c : Instr) (s : State), ∃ t, exec c s = .next t

/-- No step clears a blown fuse bit or lowers a write counter of the option flash. -/
def Obligations.NonvolatileOutlasts : Prop :=
  ∀ (v : NonVol) (s t : State), Since v s → step s = .next t → Since v t

/-- What reset leaves: no command waits, every register field holds its reset value but the POR cause, which is 1, and the
general registers and every byte of memory read 0 (the model's choice where the manual gives no value, log entries 4 to 6), with
memory in its canonical form. -/
def Obligations.ResetState : Prop :=
  State.reset.pending = [] ∧ Since {} State.reset ∧ State.reset.hw.mem.wf = true ∧
  (∀ a, State.reset.hw.mem.readByte a = 0) ∧ State.reset.hw.rd K.RST_CAUSE_POR = 1 ∧
  (∀ k : Key, k.id ≠ K.RST_CAUSE_POR.id → State.reset.hw.rd k = k.rst) ∧
  (∀ (c : Core) (r : Reg), State.reset.hw.g c r = 0)

/-- A byte stored in memory reads as stored, every other byte reads as before, and the canonical form is kept. -/
def Obligations.MemoryReadAfterWrite : Prop :=
  ∀ (m : Mem) (a : Nat) (b : Byte), m.wf = true →
    (m.writeByte a b).readByte a = b ∧ (∀ p, p ≠ a → (m.writeByte a b).readByte p = m.readByte p) ∧
    (m.writeByte a b).wf = true ∧
    (∀ n data be, (m.writeN a n data be).wf = true ∧
      (∀ i, i < n → be.testBit i = true → (m.writeN a n data be).readByte (a + i) = BitVec.ofNat 8 (data / 256 ^ i)) ∧
      (∀ p, (p < a ∨ a + n ≤ p) → (m.writeN a n data be).readByte p = m.readByte p))

/-- The decision table of R418 on a code byte: written with computed check bits it reads clean; with one of its twelve
Hamming positions in error, or the parity bit, it is corrected to what was written; with two of them it is
uncorrectable. -/
def Obligations.CodeByteDecoding : Prop :=
  (∀ b : Byte, judgeByte b (codeBits b ^^^ codeBits b) = .clean ∧ judgeByte b 16 = .corrected b) ∧
  (∀ (b : Byte) (i : Fin 8), judgeByte (b ^^^ (1#8 <<< i.val)) (codeBits (b ^^^ (1#8 <<< i.val)) ^^^ codeBits b) = .corrected b) ∧
  (∀ (b : Byte) (i : Fin 4), judgeByte b (2 ^ i.val) = .corrected b) ∧
  (∀ (b : Byte) (i j : Fin 8), i ≠ j →
    judgeByte (b ^^^ (1#8 <<< i.val) ^^^ (1#8 <<< j.val)) (codeBits (b ^^^ (1#8 <<< i.val) ^^^ (1#8 <<< j.val)) ^^^ codeBits b)
      = .uncorrectable)

/-- The ALU register instructions compute rd as R178 says and change nothing else but the pc; every other func code of
that op is illegal. -/
def Obligations.AluRegister : Prop :=
  (∀ f ∈ aluForms, ∀ (s : State) (c : Core) (rd rs1 rs2 : Reg),
    Ready s.hw c (plainIns (wordA 0x01 f.2.1 rd rs1 rs2) [rd, rs1, rs2]) →
    Ends (exec (f.1 c rd rs1 rs2) s) fun t =>
      t.hw.g c rd = (if rd = 0 then 0 else f.2.2 (s.hw.g c rs1) (s.hw.g c rs2)) ∧ t.hw.pc c = s.hw.pc c + 4 ∧
      Untouched s t c [rd]) ∧
  (∀ f ∈ unaryForms, ∀ (s : State) (c : Core) (rd rs1 : Reg),
    Ready s.hw c (plainIns (wordA 0x01 f.2.1 rd rs1 0) [rd, rs1, 0]) →
    Ends (exec (f.1 c rd rs1) s) fun t =>
      t.hw.g c rd = (if rd = 0 then 0 else f.2.2 (s.hw.g c rs1)) ∧ t.hw.pc c = s.hw.pc c + 4 ∧ Untouched s t c [rd]) ∧
  (∀ (f : Fin 1024) (rd rs1 rs2 : Reg), (∀ x ∈ aluForms, x.2.1 ≠ f.val) → (∀ x ∈ unaryForms, x.2.1 = f.val → rs2 ≠ 0) →
    legalWord (wordA 0x01 f.val rd rs1 rs2) = false)

/-- The ALU immediate instructions (R180) and LUI (R181) compute rd and change nothing else but the pc; the
codes R180 calls illegal are. -/
def Obligations.AluImmediate : Prop :=
  (∀ f ∈ immForms, ∀ (s : State) (c : Core) (rd rs1 : Reg) (imm : BitVec 12),
    Ready s.hw c (plainIns (wordI 0x02 f.2.1 rd rs1 imm) [rd, rs1]) →
    Ends (exec (f.1 c rd rs1 imm) s) fun t =>
      t.hw.g c rd = (if rd = 0 then 0 else f.2.2 (s.hw.g c rs1) (imm.signExtend 64)) ∧ t.hw.pc c = s.hw.pc c + 4 ∧
      Untouched s t c [rd]) ∧
  (∀ f ∈ shiftForms, ∀ (s : State) (c : Core) (rd rs1 : Reg) (sh : BitVec 6),
    Ready s.hw c (plainIns (wordI 0x02 6 rd rs1 (BitVec.ofNat 12 (f.2.1 * 2 ^ 10 + sh.toNat))) [rd, rs1]) →
    Ends (exec (f.1 c rd rs1 sh) s) fun t =>
      t.hw.g c rd = (if rd = 0 then 0 else f.2.2 (s.hw.g c rs1) sh.toNat) ∧ t.hw.pc c = s.hw.pc c + 4 ∧
      Untouched s t c [rd]) ∧
  (∀ (s : State) (c : Core) (rd : Reg) (imm : BitVec 20), Ready s.hw c (plainIns (wordU 0x07 rd imm) [rd]) →
    Ends (exec (.lui c rd imm) s) fun t =>
      t.hw.g c rd = (if rd = 0 then (0 : Word) else imm.signExtend 64 <<< 12) ∧ t.hw.pc c = s.hw.pc c + 4 ∧ Untouched s t c [rd]) ∧
  (∀ (f : Fin 8) (rd rs1 : Reg) (imm : BitVec 12),
    f = 7 ∨ (f = 6 ∧ (bits imm.toNat 11 10 = 3 ∨ bits imm.toNat 9 6 ≠ 0)) →
    legalWord (wordI 0x02 f.val rd rs1 imm) = false)

/-- A divide by zero and the one signed overflow, as R179 says: none traps, and nothing but rd and the pc changes. -/
def Obligations.DivideCorners : Prop :=
  ∀ (s : State) (c : Core) (rd rs1 rs2 : Reg), (∀ f : Nat, Ready s.hw c (plainIns (wordA 0x01 f rd rs1 rs2) [rd, rs1, rs2])) →
    (s.hw.g c rs2 = 0 → ∀ f ∈ [(Instr.div, (0xFFFFFFFFFFFFFFFF : Word)), (.divu, 0xFFFFFFFFFFFFFFFF),
        (.rem, s.hw.g c rs1), (.remu, s.hw.g c rs1)],
      Ends (exec (f.1 c rd rs1 rs2) s) fun t =>
        t.hw.g c rd = (if rd = 0 then 0 else f.2) ∧ t.hw.pc c = s.hw.pc c + 4 ∧ Untouched s t c [rd]) ∧
    (s.hw.g c rs1 = 0x8000000000000000 → s.hw.g c rs2 = 0xFFFFFFFFFFFFFFFF →
      ∀ f ∈ [(Instr.div, (0x8000000000000000 : Word)), (.rem, 0)],
      Ends (exec (f.1 c rd rs1 rs2) s) fun t =>
        t.hw.g c rd = (if rd = 0 then 0 else f.2) ∧ t.hw.pc c = s.hw.pc c + 4 ∧ Untouched s t c [rd])

/-- A load from clean local SRAM writes rd with the widened little-endian value and changes nothing else but the pc. -/
def Obligations.LocalLoads : Prop :=
  ∀ f ∈ loadForms, ∀ (s : State) (c : Core) (rd rs1 : Reg) (imm : BitVec 12),
    Ready s.hw c (plainIns (wordI 0x03 f.2.1 rd rs1 imm) [rd, rs1]) → openSeq s.hw c = none →
    (s.hw.g c rs1 + imm.signExtend 64).toNat % f.2.2.1 = 0 → 0xFFFFFFFFFFFC0000 ≤ (s.hw.g c rs1 + imm.signExtend 64).toNat →
    (s.hw.mem.seen (localAt c (s.hw.g c rs1 + imm.signExtend 64).toNat) f.2.2.1).all (fun x => x.2 == .clean) = true →
    Ends (exec (f.1 c rd rs1 imm) s) fun t =>
      t.hw.g c rd = (if rd = 0 then 0
        else widened f.2.2.1 f.2.2.2 (s.hw.mem.readN (localAt c (s.hw.g c rs1 + imm.signExtend 64).toNat) f.2.2.1)) ∧
      t.hw.pc c = s.hw.pc c + 4 ∧ Untouched s t c [rd]

/-- A store to local SRAM writes the low bytes of rs2 at its address, no other byte of memory and no register. -/
def Obligations.LocalStores : Prop :=
  ∀ f ∈ storeForms, ∀ (s : State) (c : Core) (rs1 rs2 : Reg) (imm : BitVec 12) (a : Nat),
    Ready s.hw c (plainIns (wordS 0x04 f.2.1 rs1 rs2 imm) [rs1, rs2]) → openSeq s.hw c = none →
    a = (s.hw.g c rs1 + imm.signExtend 64).toNat → a % f.2.2 = 0 → 0xFFFFFFFFFFFC0000 ≤ a →
    testHits s.hw (.core c) (localAt c a) = false → prioHolds s.hw (some c.val) (localAt c a) f.2.2 = false →
    Ends (exec (f.1 c rs1 rs2 imm) s) fun t =>
      (∀ i, i < f.2.2 → t.hw.mem.readByte (localAt c a + i) = BitVec.ofNat 8 ((s.hw.g c rs2).toNat / 256 ^ i)) ∧
      (∀ p, (p < localAt c a ∨ localAt c a + f.2.2 ≤ p) → t.hw.mem.readByte p = s.hw.mem.readByte p) ∧
      t.hw.pc c = s.hw.pc c + 4 ∧ (∀ r, t.hw.g c r = s.hw.g c r) ∧
      ∀ k : Key, k.id ≠ K.ADIT_HALTED_CORES.id → t.hw.rd k = s.hw.rd k

/-- A load or store of a hub address goes out on the Gallery with its address, size and data, and the core goes on. A
response to a hub load writes the load's register and frees its slot. Entries of the store buffer leave in order: an
acknowledgement frees the store's entry and those acknowledged behind it when it is the oldest, else the buffer is as full as it
was (R184). -/
def Obligations.HubAccesses : Prop :=
  ((∀ f ∈ loadForms, ∀ (s : State) (c : Core) (rd rs1 : Reg) (imm : BitVec 12) (a : Nat),
      Ready s.hw c (plainIns (wordI 0x03 f.2.1 rd rs1 imm) [rd, rs1]) → openSeq s.hw c = none →
      a = (s.hw.g c rs1 + imm.signExtend 64).toNat → a % f.2.2.1 = 0 → a < 0xFFFFFFFFFFF00000 →
      (s.hw.core c.val).loads.length < 8 →
      Ends (exec (f.1 c rd rs1 imm) s) fun t =>
        t.hw.gal.reqs = s.hw.gal.reqs ++ [⟨s.hw.gal.nextId, .core c, .read, a, f.2.2.1, 0, 0, 0⟩] ∧
        (t.hw.core c.val).loads = (s.hw.core c.val).loads ++ [⟨s.hw.gal.nextId, rd, a, f.2.2.1, f.2.2.2, false⟩] ∧
        t.hw.pc c = s.hw.pc c + 4 ∧ (∀ r, t.hw.g c r = s.hw.g c r) ∧ t.hw.mem = s.hw.mem ∧
        ∀ k : Key, k.id ≠ K.ADIT_HALTED_CORES.id → t.hw.rd k = s.hw.rd k) ∧
    (∀ f ∈ storeForms, ∀ (s : State) (c : Core) (rs1 rs2 : Reg) (imm : BitVec 12) (a : Nat),
      Ready s.hw c (plainIns (wordS 0x04 f.2.1 rs1 rs2 imm) [rs1, rs2]) → openSeq s.hw c = none →
      a = (s.hw.g c rs1 + imm.signExtend 64).toNat → a % f.2.2 = 0 → a < 0xFFFFFFFFFFF00000 →
      (s.hw.core c.val).stores.length < 16 →
      Ends (exec (f.1 c rs1 rs2 imm) s) fun t =>
        t.hw.gal.reqs = s.hw.gal.reqs ++ [⟨s.hw.gal.nextId, .core c, .write, a, f.2.2, (s.hw.g c rs2).toNat % 256 ^ f.2.2,
          2 ^ f.2.2 - 1, 0⟩] ∧
        (t.hw.core c.val).stores = (s.hw.core c.val).stores ++ [⟨s.hw.gal.nextId, a, false⟩] ∧
        t.hw.pc c = s.hw.pc c + 4 ∧ (∀ r, t.hw.g c r = s.hw.g c r) ∧ t.hw.mem = s.hw.mem ∧
        ∀ k : Key, k.id ≠ K.ADIT_HALTED_CORES.id → t.hw.rd k = s.hw.rd k)) ∧
  ((∀ (s : State) (c : Core) (i : Nat) (l : LoadSlot) (r : GResp), (s.hw.core c.val).loads[i]? = some l →
      (s.hw.gal.arrived.find? fun x => x.id == l.id) = some r → r.status = .ok → l.dead = false →
      Ends (exec (.loadResponse c i) s) fun t =>
        t.hw.g c l.rd = (if l.rd = 0 then 0 else extend l.size l.signed r.data) ∧
        (t.hw.core c.val).loads = (s.hw.core c.val).loads.eraseIdx i ∧ (∀ q, q ≠ l.rd → t.hw.g c q = s.hw.g c q) ∧
        t.hw.pc c = s.hw.pc c ∧ t.hw.mem = s.hw.mem) ∧
    (∀ (s : State) (c : Core) (i : Nat) (st : StoreSlot) (r : GResp), (s.hw.core c.val).stores[i]? = some st →
      (s.hw.gal.arrived.find? fun x => x.id == st.id) = some r → r.status = .ok → (s.hw.core c.val).ending = none →
      Ends (exec (.storeAck c i) s) fun t =>
        (i = 0 → (t.hw.core c.val).stores = (s.hw.core c.val).stores.tail.dropWhile (·.acked)) ∧
        (i ≠ 0 → (∀ x, (s.hw.core c.val).stores[0]? = some x → x.acked = false) →
          (t.hw.core c.val).stores = (s.hw.core c.val).stores.modify i fun x => { x with acked := true }) ∧
        (∀ q, t.hw.g c q = s.hw.g c q) ∧ t.hw.mem = s.hw.mem) ∧
    (∀ size, size = 1 ∨ size = 2 ∨ size = 4 ∨ size = 8 → ∀ (sg : Bool) (v : Nat), extend size sg v = widened size sg v))

/-- Where the foreman's trap goes (R191, R193): EPC, TVAL and CAUSE record it, TACTIVE is set, the pc is the handler's, and
general registers and memory are as they were. -/
def ForemanTrapped (s t : State) (cause : Nat) (tval epc : Word) : Prop :=
  t.hw.rd (K.CORE_EPC_EPC 0) = epc.toNat / 4 * 4 ∧ t.hw.rd (K.CORE_TVAL_TVAL 0) = tval.toNat ∧
  t.hw.rd (K.CORE_CAUSE_CODE 0) = cause ∧ t.hw.rd (K.CORE_CAUSE_TACTIVE 0) = 1 ∧
  t.hw.pc 0 = BitVec.ofNat 64 (s.hw.rd (K.CORE_TVEC_VEC 0) * 4) ∧ (∀ r, t.hw.g 0 r = s.hw.g 0 r) ∧
  t.hw.mem = s.hw.mem ∧ t.nv = s.nv

/-- A trap of a crew core ends its item, one of the foreman enters its handler; a misaligned access traps with its
address, and TRET and OPTWR on a crew core with PRIV (R183, R191 to R193). -/
def Obligations.TrapsTaken : Prop :=
  ((∀ (s : State) (rs1 : Reg), Ready s.hw 0 (barredIns (wordA 0x17 0x10 0 rs1 0) [rs1]) →
      s.hw.rd (K.CORE_CAUSE_TACTIVE 0) = 0 →
      Ends (exec (.trap 0 rs1) s) fun t => ForemanTrapped s t 0x09 (s.hw.g 0 rs1) (s.hw.pc 0 + 4)) ∧
    (∀ (s : State) (w : BitVec 32), legalWord w.toNat = false → Ready s.hw 0 (edgeIns w.toNat []) →
      s.hw.rd (K.CORE_CAUSE_TACTIVE 0) = 0 →
      Ends (exec (.illegalInstruction 0 w) s) fun t => ForemanTrapped s t 0x01 (w.setWidth 64) (s.hw.pc 0)) ∧
    (∀ (s : State) (c : Core) (rs1 : Reg), c ≠ 0 → Ready s.hw c (barredIns (wordA 0x17 0x10 0 rs1 0) [rs1]) →
      (s.hw.core c.val).stores ≠ [] → s.hw.rd K.ERR_POSTMASK_MASK = 0 → s.hw.sched.heldWrites = [] →
      Ends (exec (.trap c rs1) s) fun t =>
        t.hw.rd (K.CORE_CAUSE_CODE c.val) = 0x09 ∧ t.hw.rd (K.CORE_TVAL_TVAL c.val) = (s.hw.g c rs1).toNat ∧
        (t.hw.core c.val).ending = some ⟨0x09, s.hw.g c rs1, 0⟩ ∧ (∀ r, t.hw.g c r = s.hw.g c r) ∧ t.hw.mem = s.hw.mem) ∧
    (∀ (s : State) (c : Core) (w : BitVec 32), c ≠ 0 → legalWord w.toNat = false → Ready s.hw c (edgeIns w.toNat []) →
      (s.hw.core c.val).stores ≠ [] → s.hw.rd K.ERR_POSTMASK_MASK = 0 → s.hw.sched.heldWrites = [] →
      Ends (exec (.illegalInstruction c w) s) fun t =>
        t.hw.rd (K.CORE_CAUSE_CODE c.val) = 0x01 ∧ t.hw.rd (K.CORE_TVAL_TVAL c.val) = w.toNat ∧
        (t.hw.core c.val).ending = some ⟨0x01, w.setWidth 64, 0⟩ ∧ (∀ r, t.hw.g c r = s.hw.g c r) ∧ t.hw.mem = s.hw.mem) ∧
    (∀ (s : State) (c : Core) (rd rs1 : Reg), c ≠ 0 → (s.hw.core c.val).stores ≠ [] → s.hw.rd K.ERR_POSTMASK_MASK = 0 →
      s.hw.sched.heldWrites = [] →
      (Ready s.hw c (barredIns (wordI 0x06 2 0 0 0) []) → Ends (exec (.tret c) s) fun t =>
        t.hw.rd (K.CORE_CAUSE_CODE c.val) = 0x02 ∧ (t.hw.core c.val).ending = some ⟨0x02, BitVec.ofNat 64 (wordI 0x06 2 0 0 0), 0⟩ ∧
        (∀ r, t.hw.g c r = s.hw.g c r) ∧ t.hw.mem = s.hw.mem) ∧
      (Ready s.hw c (barredIns (wordA 0x17 0x33 rd rs1 0) [rd, rs1]) → s.hw.rst.optImage = none →
        Ends (exec (.optwr c rd rs1) s) fun t => t.hw.rd (K.CORE_CAUSE_CODE c.val) = 0x02 ∧
          (t.hw.core c.val).ending = some ⟨0x02, BitVec.ofNat 64 (wordA 0x17 0x33 rd rs1 0), 0⟩ ∧
          (∀ r, t.hw.g c r = s.hw.g c r) ∧ t.hw.mem = s.hw.mem ∧ t.nv = s.nv))) ∧
  ((∀ f ∈ loadForms, ∀ (s : State) (rd rs1 : Reg) (imm : BitVec 12),
      Ready s.hw 0 (plainIns (wordI 0x03 f.2.1 rd rs1 imm) [rd, rs1]) → s.hw.rd (K.CORE_CAUSE_TACTIVE 0) = 0 →
      (s.hw.g 0 rs1 + imm.signExtend 64).toNat % f.2.2.1 ≠ 0 →
      Ends (exec (f.1 0 rd rs1 imm) s) fun t => ForemanTrapped s t 0x04 (s.hw.g 0 rs1 + imm.signExtend 64) (s.hw.pc 0)) ∧
    (∀ f ∈ storeForms, ∀ (s : State) (rs1 rs2 : Reg) (imm : BitVec 12),
      Ready s.hw 0 (plainIns (wordS 0x04 f.2.1 rs1 rs2 imm) [rs1, rs2]) → s.hw.rd (K.CORE_CAUSE_TACTIVE 0) = 0 →
      (s.hw.g 0 rs1 + imm.signExtend 64).toNat % f.2.2 ≠ 0 →
      Ends (exec (f.1 0 rs1 rs2 imm) s) fun t => ForemanTrapped s t 0x04 (s.hw.g 0 rs1 + imm.signExtend 64) (s.hw.pc 0)))

/-- A branch goes to pc plus four times its offset if its condition holds, else to the next instruction; it writes
nothing else (condition codes 6 and 7 are illegal). JAL and JALR write the link and go to a fetchable target; TRET returns to EPC, clears TACTIVE and lets an
interrupted sequence go on (R187, R200). -/
def Obligations.ControlTransfer : Prop :=
  (∀ f ∈ branchForms, ∀ (s : State) (c : Core) (rs1 rs2 : Reg) (off : BitVec 12),
      Ready s.hw c (plainIns (wordB 0x05 f.2.1 rs1 rs2 off) [rs1, rs2]) →
      Ends (exec (f.1 c rs1 rs2 off) s) fun t =>
        (f.2.2 (s.hw.g c rs1) (s.hw.g c rs2) → t.hw.pc c = s.hw.pc c + off.signExtend 64 * 4) ∧
        (¬ f.2.2 (s.hw.g c rs1) (s.hw.g c rs2) → t.hw.pc c = s.hw.pc c + 4) ∧ Untouched s t c []) ∧
  (∀ (f : Fin 8) (rs1 rs2 : Reg) (off : BitVec 12), 6 ≤ f.val → legalWord (wordB 0x05 f.val rs1 rs2 off) = false) ∧
  ((∀ (s : State) (c : Core) (rd : Reg) (off : BitVec 17), Ready s.hw c (plainIns (wordJ rd off) [rd]) →
      fetchable (s.hw.pc c + off.signExtend 64 * 4).toNat = true →
      Ends (exec (.jal c rd off) s) fun t =>
        t.hw.g c rd = (if rd = 0 then 0 else s.hw.pc c + 4) ∧ t.hw.pc c = s.hw.pc c + off.signExtend 64 * 4 ∧
        Untouched s t c [rd]) ∧
    (∀ (s : State) (c : Core) (rd rs1 : Reg) (imm : BitVec 12), Ready s.hw c (barredIns (wordI 0x06 0 rd rs1 imm) [rd, rs1]) →
      fetchable (s.hw.g c rs1 + imm.signExtend 64 * 4).toNat = true →
      Ends (exec (.jalr c rd rs1 imm) s) fun t =>
        t.hw.g c rd = (if rd = 0 then 0 else s.hw.pc c + 4) ∧ t.hw.pc c = s.hw.g c rs1 + imm.signExtend 64 * 4 ∧
        Untouched s t c [rd]) ∧
    (∀ (s : State) (c : Core), c = 0 → Ready s.hw c ⟨wordI 0x06 2 0 0 0, [], .barred, true⟩ →
      Ends (exec (.tret c) s) fun t =>
        t.hw.pc 0 = BitVec.ofNat 64 (s.hw.rd (K.CORE_EPC_EPC 0)) ∧ t.hw.rd (K.CORE_CAUSE_TACTIVE 0) = 0 ∧
        (∀ r, t.hw.g 0 r = s.hw.g 0 r) ∧ (∀ l, (t.hw.core 0).lock = some l → l.suspended = false) ∧ t.hw.mem = s.hw.mem))

/-- LOCK opens an empty sequence; ENDLOCK of an unbroken one stores its buffered stores, writes 0 to rd and clears FAILS;
of a broken one it drops them, writes 1 and counts the failure, to 16 at most; the priority reservation goes to the first
core in line and ends at its timeout, when a write it held back goes on; no write of another master to a line it covers changes
memory (R198, R199, R202). -/
def Obligations.LockedSequences : Prop :=
  (∀ (s : State) (c : Core), Ready s.hw c (edgeIns (wordI 0x08 0 0 0 0) []) → (s.hw.core c.val).lock = none →
    s.hw.rd (K.CORE_LOCKSTAT_FAILS c.val) < 16 →
    Ends (exec (.lockOp c) s) fun t =>
      (t.hw.core c.val).lock = some {} ∧ t.hw.rd (K.CORE_LOCKSTAT_OPEN c.val) = 1 ∧ t.hw.pc c = s.hw.pc c + 4 ∧
      (∀ r, t.hw.g c r = s.hw.g c r) ∧ t.hw.mem = s.hw.mem) ∧
  (∀ (s : State) (c : Core) (rd : Reg) (l : LockSeq), Ready s.hw c (edgeIns (wordI 0x08 1 rd 0 0) [rd]) →
    openSeq s.hw c = some l → l.broken = true → s.hw.sched.heldWrites = [] →
    Ends (exec (.endlock c rd) s) fun t =>
      t.hw.g c rd = (if rd = 0 then 0 else 1) ∧ (t.hw.core c.val).lock = none ∧
      t.hw.rd (K.CORE_LOCKSTAT_FAILS c.val) = min 16 (s.hw.rd (K.CORE_LOCKSTAT_FAILS c.val) + 1) ∧
      t.hw.pc c = s.hw.pc c + 4 ∧ t.hw.mem = s.hw.mem) ∧
  (∀ (s : State) (c : Core) (rd : Reg) (l : LockSeq), Ready s.hw c (edgeIns (wordI 0x08 1 rd 0 0) [rd]) →
    openSeq s.hw c = some l → l.broken = false → s.hw.bit K.ERR_TEST_EN = false → s.hw.sched.heldWrites = [] →
    (∀ st ∈ l.stores, lineBusy s.hw c st.addr = false ∧ prioHolds s.hw (some c.val) st.addr st.size = false) →
    Ends (exec (.endlock c rd) s) fun t =>
      t.hw.g c rd = 0 ∧ (t.hw.core c.val).lock = none ∧ t.hw.rd (K.CORE_LOCKSTAT_FAILS c.val) = 0 ∧
      t.hw.rd (K.CORE_LOCKSTAT_OPEN c.val) = 0 ∧ t.hw.pc c = s.hw.pc c + 4 ∧
      t.hw.mem = l.stores.foldl (fun m st => m.writeN st.addr st.size st.data (allOn st.size)) s.hw.mem) ∧
  (∀ (s : State) (c : Core) (rest : List Nat), prioHeld s.hw = false → s.hw.sched.prioQueue = c.val :: rest →
    isHalted s.hw c.val = false → (s.hw.core c.val).lockWait = true → (s.hw.core c.val).pendErr = none →
    Ends (exec .priorityReservationGrant s) fun t =>
      t.hw.rd (K.CORE_LOCKSTAT_PRIO c.val) = 1 ∧ t.hw.sched.prioQueue = rest ∧ (t.hw.core c.val).lock = some {} ∧
      (t.hw.core c.val).lockWait = false ∧ t.hw.pc c = s.hw.pc c + 4) ∧
  (∀ s : State, Ends (exec .priorityReservationTimeout s) fun t =>
    (∀ c : Core, t.hw.rd (K.CORE_LOCKSTAT_PRIO c.val) = 0) ∧
    (s.hw.sched.heldWrites = [] → t.hw.mem = s.hw.mem ∧ t.hw.cores = s.hw.cores) ∧
    (∀ w, s.hw.sched.heldWrites = [w] → prioHolds t.hw w.who w.addr w.size = false →
      t.hw.mem = w.store s.hw.mem ∧ t.hw.sched.heldWrites = [])) ∧
  (∀ (h : Hw) (who : Option Nat) (a n d be : Nat), prioHolds h who a n = true → (hubWrite h who a n d be).mem = h.mem)

/-- A FENCE ends once the accesses it names are done, and writes nothing but the pc; with them outstanding it waits;
FENCE.RWI also empties the instruction cache; other selectors below 16 are illegal (R195). A line that arrives is in the instruction cache, and the
instruction of a hub address can then be fetched; one that fails traps as POISON or as FETCH (R174). -/
def Obligations.FencesAndCache : Prop :=
  (∀ f ∈ fenceForms, ∀ (s : State) (c : Core), Ready s.hw c (barredIns (wordA 0x17 f.2.1 0 0 0) []) →
      ((f.2.2.1 = true → loadsDone s.hw c = true) → (f.2.2.2.1 = true → storesDone s.hw c = true) →
        Ends (exec (f.1 c) s) fun t => t.hw.pc c = s.hw.pc c + 4 ∧ Untouched s t c [] ∧
          (f.2.2.2.2 = true → (t.hw.core c.val).icache = [])) ∧
      ((f.2.2.1 = true ∧ loadsDone s.hw c = false) ∨ (f.2.2.2.1 = true ∧ storesDone s.hw c = false) →
        exec (f.1 c) s = .next s)) ∧
  (∀ (n : Fin 16) (rd rs1 rs2 : Reg), (∀ x ∈ fenceForms, x.2.1 ≠ n.val) ∨ rd ≠ 0 ∨ rs1 ≠ 0 ∨ rs2 ≠ 0 →
    legalWord (wordA 0x17 n.val rd rs1 rs2) = false) ∧
  (∀ (s : State) (c : Core), mayIssue s.hw c = true → (s.hw.core c.val).pendErr = none → fetch s.hw c = (.miss, s.hw) →
      Ends (exec (.icacheFillResponse c .ok) s) fun t =>
        (s.hw.pc c).toNat / 64 * 64 ∈ (t.hw.core c.val).icache ∧ fetch t.hw c = (.ready, t.hw) ∧ t.hw.pc c = s.hw.pc c ∧
        (∀ r, t.hw.g c r = s.hw.g c r) ∧ t.hw.mem = s.hw.mem) ∧
  (∀ (s : State) (c : Core) (st : Status), mayIssue s.hw c = true → (s.hw.core c.val).pendErr = none → fetch s.hw c = (.miss, s.hw) →
      st ≠ .ok → (c = 0 → s.hw.rd (K.CORE_CAUSE_TACTIVE 0) = 0) →
      Ends (exec (.icacheFillResponse c st) s) fun t =>
        t.hw.rd (K.CORE_CAUSE_CODE c.val) = (if st = .poison then 0x07 else 0x03) ∧
        t.hw.rd (K.CORE_TVAL_TVAL c.val) = (s.hw.pc c).toNat)

/-- ENQ admits a descriptor to an enabled queue with a free slot and a ticket and answers the ticket; DEQ takes the oldest
entry of a queue without automatic dispatch to memory and releases its ticket; REPLY appends a stamped record; refusals answer their code
(R210 to R212). -/
def Obligations.QueueOps : Prop :=
  (∀ (s : State) (c : Core) (rd rs1 rs2 : Reg) (v q : Nat), DevReady s.hw c (wordA 0x10 1 rd rs1 rs2) [rd, rs1, rs2] false →
    OperandIs s.hw c (s.hw.g c rs1).toNat 64 64 true v → q = (s.hw.g c rs2).toNat % 16384 →
    (qEn s.hw q = false → Ends (exec (.enq c rd rs1 rs2) s) fun t => Answers s t c rd 3 ∧ t.hw.mem = s.hw.mem) ∧
    (qEn s.hw q = true → c.val ≠ 0 → q < 256 →
      Ends (exec (.enq c rd rs1 rs2) s) fun t => Answers s t c rd 4 ∧ t.hw.mem = s.hw.mem) ∧
    (qEn s.hw q = true → (c.val = 0 ∨ 256 ≤ q) → qCred s.hw q = 0 →
      Ends (exec (.enq c rd rs1 rs2) s) fun t => Answers s t c rd 1 ∧ t.hw.mem = s.hw.mem) ∧
    (qEn s.hw q = true → (c.val = 0 ∨ 256 ≤ q) → qCred s.hw q ≠ 0 →
      s.hw.rd (K.SCHED_Q_CFG_TRES q) ≤ heldBy s.hw q → sharedFree s.hw = 0 →
      Ends (exec (.enq c rd rs1 rs2) s) fun t => Answers s t c rd 5 ∧ t.hw.mem = s.hw.mem) ∧
    (qEn s.hw q = true → (c.val = 0 ∨ 256 ≤ q) → qCred s.hw q ≠ 0 →
      (heldBy s.hw q < s.hw.rd (K.SCHED_Q_CFG_TRES q) ∨ 0 < sharedFree s.hw) → s.hw.sched.held.length < 65536 →
      prioHolds s.hw none (slotAddr s.hw q (freeSlot s.hw q)) 64 = false →
      Ends (exec (.enq c rd rs1 rs2) s) fun t => ∃ tk shared,
        t.hw.g c rd = (if rd = 0 then 0 else BitVec.ofNat 64 (tk * 65536)) ∧
        SMap.get t.hw.sched.held tk none = some ⟨q, shared⟩ ∧
        (SMap.rising 0 s.hw.sched.held = true → SMap.get s.hw.sched.held tk none = none) ∧
        (qAuto s.hw q = false → ∃ e, (t.hw.queue q).entries = (s.hw.queue q).entries ++ [e] ∧
          e.ticket = some tk ∧ e.slot = freeSlot s.hw q) ∧
        t.hw.mem = s.hw.mem.writeN (slotAddr s.hw q (freeSlot s.hw q)) 64
          (descNat (queuedCopy s.hw q c.val tk (natDesc v))) (allOn 64))) ∧
  (∀ (s : State) (c : Core) (rd rs1 rs2 : Reg) (p q : Nat) (e : QEntry),
    DevReady s.hw c (wordA 0x10 2 rd rs1 rs2) [rd, rs1, rs2] false →
    operandPlace c (s.hw.g c rs1).toNat 64 64 true = .ok p → q = (s.hw.g c rs2).toNat % 16384 →
    (qEn s.hw q = false → Ends (exec (.deq c rd rs1 rs2) s) fun t => Answers s t c rd 3 ∧ t.hw.mem = s.hw.mem) ∧
    (qEn s.hw q = true → c.val ≠ 0 → q < 256 →
      Ends (exec (.deq c rd rs1 rs2) s) fun t => Answers s t c rd 4 ∧ t.hw.mem = s.hw.mem) ∧
    (qEn s.hw q = true → (c.val = 0 ∨ 256 ≤ q) → qAuto s.hw q = true →
      Ends (exec (.deq c rd rs1 rs2) s) fun t => Answers s t c rd 8 ∧ t.hw.mem = s.hw.mem) ∧
    (qEn s.hw q = true → (c.val = 0 ∨ 256 ≤ q) → qAuto s.hw q = false → oldest s.hw q = none →
      Ends (exec (.deq c rd rs1 rs2) s) fun t => Answers s t c rd 2 ∧ t.hw.mem = s.hw.mem) ∧
    (qEn s.hw q = true → (c.val = 0 ∨ 256 ≤ q) → qAuto s.hw q = false → oldest s.hw q = some e →
      s.hw.bit K.ERR_TEST_EN = false → prioHolds s.hw (some c.val) p 64 = false →
      Ends (exec (.deq c rd rs1 rs2) s) fun t =>
        t.hw.g c rd = (if rd = 0 then 0
          else BitVec.ofNat 64 (bits (slotDesc s.hw q e.slot).w6.toNat 15 0 * 65536)) ∧
        (t.hw.queue q).entries = (s.hw.queue q).entries.filter (fun x => x.slot != e.slot) ∧
        (∀ tk, e.ticket = some tk → SMap.get t.hw.sched.held tk none = none) ∧
        t.hw.mem = s.hw.mem.writeN p 64 (descNat (slotDesc s.hw q e.slot)) (allOn 64))) ∧
  (∀ (s : State) (c : Core) (rd rs1 : Reg) (v : Nat), DevReady s.hw c (wordA 0x10 3 rd rs1 0) [rd, rs1] false →
    OperandIs s.hw c (s.hw.g c rs1).toNat 64 64 true v →
    ((s.hw.core c.val).item = none → Ends (exec (.reply c rd rs1) s) fun t => Answers s t c rd 6 ∧ t.hw.mem = s.hw.mem) ∧
    (∀ i r, (s.hw.core c.val).item = some i → i.reply = .used r → qEn s.hw r = true → qCred s.hw r ≠ 0 →
      prioHolds s.hw none (slotAddr s.hw r (freeSlot s.hw r)) 64 = false →
      Ends (exec (.reply c rd rs1) s) fun t => t.hw.g c rd = 0 ∧
        t.hw.mem = s.hw.mem.writeN (slotAddr s.hw r (freeSlot s.hw r)) 64 (descNat (stampRecord i (natDesc v))) (allOn 64)))

/-- DONE releases the item's ticket, whose generation advances; a core without an item gets NOITEM (R213, R255). -/
def Obligations.DoneEndsItem : Prop :=
  ∀ (s : State) (c : Core) (rd rs1 : Reg), DevReady s.hw c (wordA 0x10 4 rd rs1 0) [rd, rs1] false →
    ((s.hw.core c.val).item = none → Ends (exec (.doneItem c rd rs1) s) fun t => Answers s t c rd 6 ∧ t.hw.mem = s.hw.mem) ∧
    (∀ i tk, (s.hw.core c.val).item = some i → i.ticket = some tk →
      Ends (exec (.doneItem c rd rs1) s) fun t =>
        genOf t.hw tk = (genOf s.hw tk + 1) % 65536 ∧ SMap.get t.hw.sched.held tk none = none ∧
        ∀ n, n < 4 → (t.hw.die n).eng.claim ≠ some c.val)

/-- FSET claims a free engine and sets its frame pointer, or releases the claim; a foreman claim made outside an item
ends at its limit (R214). FWR, FRD and FVERIFY of a claimed engine start and wait; of a core without a claim they
answer NOCLAIM; one frame that FWR writes from hub SRAM stands in the die; the end of the operation gives the waiting
core its result (R215 to R218). -/
def Obligations.FrameOps : Prop :=
  ((∀ (s : State) (c : Core) (rd rs1 rs2 : Reg) (n : Nat), DevReady s.hw c (wordA 0x11 1 rd rs1 rs2) [rd, rs1, rs2] false →
      n = bits (s.hw.g c rs1).toNat 19 18 → (s.hw.g c rs2).toNat.testBit 0 = false → claimOf s.hw c = none →
      frameOffline s.hw n = false → bits (s.hw.g c rs1).toNat 17 10 < 192 →
      ((s.hw.die n).eng.claim = none → Ends (exec (.fsetClaim c rd rs1 rs2) s) fun t =>
        Answers s t c rd 0 ∧ (t.hw.die n).eng.claim = some c.val ∧ (t.hw.die n).eng.pointer = bits (s.hw.g c rs1).toNat 17 0 ∧
        (∀ m, m ≠ n → t.hw.die m = s.hw.die m) ∧ t.hw.mem = s.hw.mem) ∧
      (∀ x, (s.hw.die n).eng.claim = some x → x ≠ c.val → Ends (exec (.fsetClaim c rd rs1 rs2) s) fun t =>
        Answers s t c rd 1 ∧ t.hw.dies = s.hw.dies ∧ t.hw.mem = s.hw.mem)) ∧
    (∀ (s : State) (c : Core) (rd rs1 rs2 : Reg), DevReady s.hw c (wordA 0x11 1 rd rs1 rs2) [rd, rs1, rs2] false →
      (s.hw.g c rs2).toNat.testBit 0 = true →
      Ends (exec (.fsetRelease c rd rs1 rs2) s) fun t =>
        Answers s t c rd 0 ∧ (∀ n, n < 4 → (t.hw.die n).eng.claim ≠ some c.val) ∧ t.hw.mem = s.hw.mem) ∧
    (∀ (s : State) (d : Die), (s.hw.core 0).claim = some d →
      Ends (exec (.frameClaimTimeout d) s) fun t => ∀ n, n < 4 → (t.hw.die n).eng.claim ≠ some 0)) ∧
  ((∀ (s : State) (c : Core) (rd rs1 rs2 : Reg) (n : Nat), (∀ w, DevReady s.hw c w [rd, rs1, rs2] false) →
      (s.hw.g c rs1).toNat % 64 = 0 → streamOk s.hw (s.hw.g c rs1).toNat (512 * ((s.hw.g c rs2).toNat % 2048)) = true →
      claimOf s.hw c = some n → frameOffline s.hw n = false →
      1 ≤ (s.hw.g c rs2).toNat % 2048 → (s.hw.g c rs2).toNat % 2048 ≤ 1024 → (s.hw.die n).eng.pointer < 192 * 1024 →
      (s.hw.die n).eng.op = none →
      Ends (exec (.fwr c rd rs1 rs2) s) (fun t =>
        (t.hw.core c.val).dev = some ⟨.frame (Fin.ofNat 4 n), rd, none⟩ ∧ ∃ v, (t.hw.die n).eng.op = some (c.val, v)) ∧
      Ends (exec (.frd c rd rs1 rs2) s) (fun t =>
        (t.hw.core c.val).dev = some ⟨.frame (Fin.ofNat 4 n), rd, none⟩ ∧ ∃ v, (t.hw.die n).eng.op = some (c.val, v)) ∧
      Ends (exec (.fverify c rd rs1 rs2) s) (fun t =>
        (t.hw.core c.val).dev = some ⟨.frame (Fin.ofNat 4 n), rd, none⟩ ∧ ∃ v, (t.hw.die n).eng.op = some (c.val, v))) ∧
    (∀ (s : State) (c : Core) (rd rs1 rs2 : Reg), (∀ w, DevReady s.hw c w [rd, rs1, rs2] false) →
      (s.hw.g c rs1).toNat % 64 = 0 → streamOk s.hw (s.hw.g c rs1).toNat (512 * ((s.hw.g c rs2).toNat % 2048)) = true →
      claimOf s.hw c = none →
      Ends (exec (.fwr c rd rs1 rs2) s) (fun t => Answers s t c rd 2 ∧ t.hw.dies = s.hw.dies ∧ t.hw.mem = s.hw.mem) ∧
      Ends (exec (.frd c rd rs1 rs2) s) (fun t => Answers s t c rd 2 ∧ t.hw.dies = s.hw.dies ∧ t.hw.mem = s.hw.mem) ∧
      Ends (exec (.fverify c rd rs1 rs2) s) (fun t => Answers s t c rd 2 ∧ t.hw.dies = s.hw.dies ∧ t.hw.mem = s.hw.mem)) ∧
    (∀ (h : Hw) (c : Core) (n k a : Nat), (fenceSettled h n (k / 1024) || (h.die n).setReset) = true →
      hubBase ≤ a → a + 512 ≤ hubBase + hubSize → (h.mem.seen a 512).all (fun x => x.2 == .clean) = true →
      n < 4 →
      (frameRefused h n k (h.mem.readN a 512) = true → (writeStep c h n k a).1 = some fsContend) ∧
      (frameRefused h n k (h.mem.readN a 512) = false → (writeStep c h n k a).1 = none) ∧
      frameOf (writeStep c h n k a).2.2 n k =
        (if frameRefused h n k (h.mem.readN a 512) then frameOf h n k else h.mem.readN a 512) ∧
      (∀ j, j ≠ k → frameOf (writeStep c h n k a).2.2 n j = frameOf h n j) ∧ 
      (frameRefused h n k (h.mem.readN a 512) = false ∨ h.rd K.ERR_POSTMASK_MASK = 0 → (writeStep c h n k a).2.2.mem = h.mem)) ∧
    (∀ (s : State) (d : Die) (c : Core) (v : Nat) (rd : Reg), (s.hw.die d.val).eng.op = some (c.val, v) →
      (s.hw.core c.val).dev = some ⟨.frame d, rd, none⟩ → isHalted s.hw c.val = false → (s.hw.core c.val).pendErr = none →
      Ends (exec (.frameOpComplete d) s) fun t => Resumes s t c rd v ∧ (t.hw.die d.val).eng.op = none))

/-- STAGE writes a register and reads it back into rd; outside CSR space the foreman's STAGE traps BUSERR; COMMIT answers
its group's status with the number of clamps, and a busy group is deferred (R220 to R223). -/
def Obligations.StageAndCommit : Prop :=
  (∀ (s : State) (c : Core) (rd rs1 rs2 : Reg), DevReady s.hw c (wordA 0x12 1 rd rs1 rs2) [rd, rs1, rs2] false →
    (s.hw.g c rs1).toNat < 0x10000000 → (s.hw.g c rs1).toNat % 8 = 0 → isDoorbell (s.hw.g c rs1).toNat = false →
    csrGate s.hw (.core c) true (s.hw.g c rs1).toNat = .ok → csrGate s.hw (.core c) false (s.hw.g c rs1).toNat = .ok →
    Ends (exec (.stage c rd rs1 rs2) s) fun t => t.hw.g c rd = (if rd = 0 then 0 else BitVec.ofNat 64
      (csrLoad (csrStore (begun s.hw c) (.core c) (s.hw.g c rs1).toNat 8 (s.hw.g c rs2).toNat) (.core c) (s.hw.g c rs1).toNat 8).1)) ∧
  (∀ (s : State) (rd rs1 rs2 : Reg), DevReady s.hw 0 (wordA 0x12 1 rd rs1 rs2) [rd, rs1, rs2] false →
    0x10000000 ≤ (s.hw.g 0 rs1).toNat → s.hw.rd (K.CORE_CAUSE_TACTIVE 0) = 0 →
    Ends (exec (.stage 0 rd rs1 rs2) s) fun t => ForemanTrapped s t 0x05 (s.hw.g 0 rs1) (s.hw.pc 0)) ∧
  (∀ (s : State) (c : Core) (rd rs1 : Reg) (code : Nat), DevReady s.hw c (wordA 0x12 2 rd rs1 0) [rd, rs1] false →
    code = (s.hw.g c rs1).toNat % 65536 →
    (groupOf s.hw code = none → Ends (exec (.commit c rd rs1) s) fun t => Answers s t c rd csBadgroup ∧ t.hw.mem = s.hw.mem) ∧
    (∀ g, groupOf s.hw code = some g → (g.die.elim false fun n => s.hw.bit (K.RST_DIE_INRESET n)) = false →
      groupBusy s.hw g = true → Ends (exec (.commit c rd rs1) s) fun t =>
        Answers s t c rd csDeferred ∧ code ∈ t.hw.ldr.deferred ∧ t.hw.mem = s.hw.mem) ∧
    (∀ g, groupOf s.hw code = some g → (g.die.elim false fun n => s.hw.bit (K.RST_DIE_INRESET n)) = false →
      groupBusy s.hw g = false → Ends (exec (.commit c rd rs1) s) fun t => ∃ n st,
        t.hw.g c rd = (if rd = 0 then 0 else BitVec.ofNat 64 (min n 255 * 256 + st)) ∧
        n = (t.hw.rd K.CFG_CLAMPHEAD_TOTAL + 2 ^ 32 - s.hw.rd K.CFG_CLAMPHEAD_TOTAL) % 2 ^ 32 ∧
        st = (if n = 0 then csOk else csClamped)))

/-- KLOAD puts a key in a slot, KROLL derives the next image key and promotes pending keys, KWIPE empties a slot
(R224 to R227). -/
def Obligations.KeyOps : Prop :=
  (∀ (s : State) (c : Core) (rd rs1 rs2 : Reg) (v : Nat), DevReady s.hw c (wordA 0x13 1 rd rs1 rs2) [rd, rs1, rs2] true →
    OperandIs s.hw c (s.hw.g c rs1).toNat 32 32 false v →
    Ends (exec (.kload c rd rs1 rs2) s) fun t =>
      match keySlot (s.hw.g c rs2).toNat with
      | some .image => Answers s t c rd 0 ∧ t.hw.keys = { s.hw.keys with image := some v }
      | some (.region r) => Answers s t c rd 0 ∧ ciphPend t.hw r = some v ∧ ciphCur t.hw r = ciphCur s.hw r ∧
          t.hw.rd (K.CIPH_R_MER_PEND r) = 1
      | some (.link l) => Answers s t c rd 0 ∧ linkPend t.hw l = some v ∧ linkCur t.hw l = linkCur s.hw l
      | none => Answers s t c rd 2 ∧ t.hw.keys = s.hw.keys) ∧
  (∀ (s : State) (c : Core) (rd rs1 rs2 : Reg), DevReady s.hw c (wordA 0x13 2 rd rs1 rs2) [rd, rs1, rs2] true →
    (∀ k tag, keySlot (s.hw.g c rs2).toNat = some .image → s.hw.keys.image = some k →
      OperandIs s.hw c (s.hw.g c rs1).toNat 16 16 false tag →
      Ends (exec (.kroll c rd rs1 rs2) s) fun t =>
        Answers s t c rd 0 ∧ t.hw.keys.image = some (keyNext k tag)) ∧
    (∀ r k, keySlot (s.hw.g c rs2).toNat = some (.region r) → rs1 = 0 → regionBusy s.hw r = false →
      s.hw.bit (K.CIPH_R_MER_CUT r) = false → ciphCur s.hw r = none → ciphPend s.hw r = some k →
      Ends (exec (.kroll c rd rs1 rs2) s) fun t =>
        Answers s t c rd 0 ∧ ciphCur t.hw r = some k ∧ ciphPend t.hw r = none) ∧
    (∀ r k j, keySlot (s.hw.g c rs2).toNat = some (.region r) → rs1 = 0 → regionBusy s.hw r = false →
      ciphCur s.hw r = some k → ciphPend s.hw r = some j →
      Ends (exec (.kroll c rd rs1 rs2) s) fun t =>
        Answers s t c rd 0 ∧ (t.hw.rd K.CIPH_STAT_REKEY).testBit r = true ∧ t.hw.bit (K.CIPH_R_MER_REKEY r) = true) ∧
    (∀ l, keySlot (s.hw.g c rs2).toNat = some (.link l) → rs1 = 0 → lkState s.hw l ≠ lkUp → (linkPend s.hw l).isSome = true →
      Ends (exec (.kroll c rd rs1 rs2) s) fun t =>
        Answers s t c rd 0 ∧ linkCur t.hw l = linkPend s.hw l ∧ linkPend t.hw l = none)) ∧
  (∀ (s : State) (c : Core) (rd rs2 : Reg), DevReady s.hw c (wordA 0x13 3 rd 0 rs2) [rd, rs2] true →
    (keySlot (s.hw.g c rs2).toNat = some .image →
      Ends (exec (.kwipe c rd rs2) s) fun t => Answers s t c rd 0 ∧ t.hw.keys.image = none) ∧
    (∀ r, keySlot (s.hw.g c rs2).toNat = some (.region r) →
      Ends (exec (.kwipe c rd rs2) s) fun t => Answers s t c rd 0 ∧ ciphCur t.hw r = none ∧ ciphPend t.hw r = none) ∧
    (∀ l, keySlot (s.hw.g c rs2).toNat = some (.link l) →
      Ends (exec (.kwipe c rd rs2) s) fun t => t.hw.g c rd = 0 ∧ linkCur t.hw l = none ∧ linkPend t.hw l = none))

/-- ADIG stores the digest of its scope with zeros after a sector digest and answers its epoch, 0 for an intended digest;
ACMP compares it; a scope without a digest answers its refusal (R228 to R230). -/
def Obligations.AssayOps : Prop :=
  (∀ (s : State) (c : Core) (rd rs1 rs2 : Reg) (p : Nat), DevReady s.hw c (wordA 0x14 1 rd rs1 rs2) [rd, rs1, rs2] false →
    operandPlace c (s.hw.g c rs2).toNat 32 32 true = .ok p → s.hw.bit K.ERR_TEST_EN = false →
    prioHolds s.hw (some c.val) p 32 = false →
    Ends (exec (.adig c rd rs1 rs2) s) fun t =>
      match scopeDigest s.hw (s.hw.g c rs1).toNat with
      | .ok (d, ep, n) => Answers s t c rd (ep % 2 ^ 32 * 2 ^ 32) ∧ t.hw.mem = s.hw.mem.writeN p 32 (d % 256 ^ n) (allOn 32)
      | .error st => Answers s t c rd st ∧ t.hw.mem = s.hw.mem) ∧
  (∀ (s : State) (c : Core) (rd rs1 rs2 : Reg) (v : Nat), DevReady s.hw c (wordA 0x14 2 rd rs1 rs2) [rd, rs1, rs2] false →
    OperandIs s.hw c (s.hw.g c rs2).toNat 32 32 true v →
    Ends (exec (.acmp c rd rs1 rs2) s) fun t => t.hw.mem = s.hw.mem ∧
      match scopeDigest s.hw (s.hw.g c rs1).toNat with
      | .ok (d, ep, n) =>
        Answers s t c rd (ep % 2 ^ 32 * 2 ^ 32 + if d % 256 ^ n = v % 256 ^ n then 0 else 1)
      | .error st => Answers s t c rd st) ∧
  (∀ (h : Hw) (scope d ep n : Nat), scopeDigest h scope = .ok (d, ep, n) →
    n = (if scope % 4 = 0 then 16 else 32) ∧ (scope.testBit 4 = true → ep = 0))

/-- STRAIN trains a fabric seam afresh, SWIDTH reports its state and groups, SPLAN queries a plan or retires a group
(R231 to R233). -/
def Obligations.SeamOps : Prop :=
  (∀ (s : State) (c : Core) (rd rs1 : Reg) (k : Nat), DevReady s.hw c (wordA 0x15 1 rd rs1 0) [rd, rs1] false →
    k = (s.hw.g c rs1).toNat % 8 →
    (4 ≤ k → Ends (exec (.strain c rd rs1) s) fun t => Answers s t c rd 2 ∧ t.hw.seam = s.hw.seam) ∧
    (k < 4 → seamBusy s.hw k = true → Ends (exec (.strain c rd rs1) s) fun t => Answers s t c rd 1 ∧ t.hw.seam = s.hw.seam) ∧
    (k < 4 → seamBusy s.hw k = false →
      Ends (exec (.strain c rd rs1) s) fun t => t.hw.g c rd = 0 ∧ t.hw.rd (K.SEAM_CTL_EN k) = 1 ∧
        (t.hw.rd (K.SEAM_STAT_STATE k) = 1 ∨ t.hw.rd (K.SEAM_STAT_NOHUB k) = 1))) ∧
  (∀ (s : State) (c : Core) (rd rs1 rs2 : Reg) (k d : Nat), DevReady s.hw c (wordA 0x15 2 rd rs1 rs2) [rd, rs1, rs2] false →
    k = (s.hw.g c rs1).toNat % 8 → d = (s.hw.g c rs2).toNat % 2 →
    Ends (exec (.swidth c rd rs1 rs2) s) fun t =>
      Answers s t c rd (seamState s.hw k * 2 ^ 52 + (if k < 4 then s.hw.rd (K.SEAM_STAT_PLAN k) else 0) * 2 ^ 48 +
        (retiredGroups s.hw k d).length * 2 ^ 40 +
        ((List.range (seamGroups k)).filter fun g => s.hw.rd (K.SEAM_GRP_STAT_GSTATE k d g) == gLive).length * 2 ^ 32) ∧
      t.hw.seam = s.hw.seam ∧ t.hw.mem = s.hw.mem) ∧
  (∀ (s : State) (c : Core) (rd rs1 rs2 : Reg) (k : Nat), DevReady s.hw c (wordA 0x15 3 rd rs1 rs2) [rd, rs1, rs2] false →
    k = (s.hw.g c rs1).toNat % 8 → k < 4 →
    ((s.hw.g c rs2).toNat % 4 = 1 → seamBusy s.hw k = false →
      Ends (exec (.splanQuery c rd rs1 rs2) s) fun t =>
        Answers s t c rd (queryPlan s.hw k (bits (s.hw.g c rs2).toNat 5 4)) ∧ t.hw.seam = s.hw.seam) ∧
    ((s.hw.g c rs2).toNat % 4 = 2 → seamLive s.hw k = true →
      isRetired s.hw k (bits (s.hw.g c rs2).toNat 8 8) (bits (s.hw.g c rs2).toNat 22 16) = false →
      Ends (exec (.splanRetire c rd rs1 rs2) s) fun t =>
        t.hw.g c rd = 0 ∧
        t.hw.rd (K.SEAM_GRP_STAT_GSTATE k (bits (s.hw.g c rs2).toNat 8 8) (bits (s.hw.g c rs2).toNat 22 16)) = gRetired ∧
        t.hw.rd (K.SEAM_STAT_STATE k) = 6 ∧ (t.hw.seamSt k).planDue = true))

/-- CAP starts a capture at every die of its mask that accepts it and answers CAPID, slots and the dies that did; DRAIN and RESTORE start and wait, or answer
the refusal of R167 (R234, R235). -/
def Obligations.StrataOps : Prop :=
  (∀ (s : State) (c : Core) (rd rs1 rs2 : Reg) (d : Die) (slot : Nat),
    DevReady s.hw c (wordA 0x16 1 rd rs1 rs2) [rd, rs1, rs2] false → (s.hw.g c rs2).toNat % 16 = 2 ^ d.val →
    s.hw.rd (K.STRATA_PROF_NETS d.val ((s.hw.g c rs1).toNat % 8)) ≠ 0 → triggerRefusal s.hw d.val = none →
    nextSlot s.hw d.val = some slot →
    Ends (exec (.cap c rd rs1 rs2) s) fun t =>
      t.hw.g c rd = (if rd = 0 then 0
        else BitVec.ofNat 64 (s.hw.strata.nextCapid * 2 ^ 32 + slot * 2 ^ (5 * d.val) * 2 ^ 12 + 2 ^ d.val * 2 ^ 8)) ∧
      (∃ x, (t.hw.die d.val).strata = .capture x ∧ x.slot = slot ∧ x.profile = (s.hw.g c rs1).toNat % 8 ∧ x.ttime = s.hw.now) ∧
      t.hw.strata.nextCapid = (s.hw.strata.nextCapid + 1) % 2 ^ 32) ∧
  (∀ (s : State) (c : Core) (rd rs1 rs2 : Reg), DevReady s.hw c (wordA 0x16 1 rd rs1 rs2) [rd, rs1, rs2] false →
    Ends (exec (.cap c rd rs1 rs2) s) fun t => ∀ d : Die,
      ((s.hw.g c rs2).toNat.testBit d.val = false → (t.hw.die d.val).strata = (s.hw.die d.val).strata) ∧
      ((s.hw.g c rs2).toNat.testBit d.val = true → s.hw.rd (K.STRATA_PROF_NETS d.val ((s.hw.g c rs1).toNat % 8)) ≠ 0 →
        (triggerRefusal s.hw d.val ≠ none → (t.hw.die d.val).strata = (s.hw.die d.val).strata ∧
          (rd ≠ 0 → (t.hw.g c rd).toNat.testBit (8 + d.val) = false)) ∧
        (∀ slot, triggerRefusal s.hw d.val = none → nextSlot s.hw d.val = some slot →
          (∃ x, (t.hw.die d.val).strata = .capture x ∧ x.slot = slot ∧ x.profile = (s.hw.g c rs1).toNat % 8 ∧ x.ttime = s.hw.now) ∧
          (rd ≠ 0 → (t.hw.g c rd).toNat.testBit (8 + d.val) = true)))) ∧
  (∀ (s : State) (c : Core) (rd rs1 rs2 : Reg) (n slot : Nat), DevReady s.hw c (wordA 0x16 2 rd rs1 rs2) [rd, rs1, rs2] false →
    n = (s.hw.g c rs2).toNat % 4 → slot = bits (s.hw.g c rs2).toNat 12 8 →
    Ends (exec (.drain c rd rs1 rs2) s) fun t =>
      match deepRefusal s.hw n slot (s.hw.g c rs1).toNat with
      | some st => Answers s t c rd st ∧ t.hw.dies = s.hw.dies
      | none => Waits s t c rd (.drain (Fin.ofNat 4 n)) ∧ (t.hw.die n).strata = .deep slot (s.hw.g c rs1).toNat 0 ∧
          t.hw.rd (K.STRATA_STAT_BUSY n) = 1 ∧ t.hw.mem = s.hw.mem) ∧
  (∀ (s : State) (c : Core) (rd rs1 rs2 : Reg) (n slot : Nat), DevReady s.hw c (wordA 0x16 3 rd rs1 rs2) [rd, rs1, rs2] false →
    n = (s.hw.g c rs2).toNat % 4 → slot = bits (s.hw.g c rs2).toNat 12 8 →
    Ends (exec (.restore c rd rs1 rs2) s) fun t =>
      match restoreRefusal s.hw n slot (s.hw.g c rs1).toNat ((s.hw.g c rs2).toNat.testBit 16)
          ((s.hw.g c rs2).toNat.testBit 17 && isForeman c) with
      | some st => Answers s t c rd st ∧ t.hw.dies = s.hw.dies
      | none => Waits s t c rd (.restore (Fin.ofNat 4 n)) ∧
          (t.hw.die n).strata = .restore slot (s.hw.g c rs1).toNat ((s.hw.g c rs2).toNat.testBit 16) 0 false ∧
          t.hw.rd (K.STRATA_STAT_BUSY n) = 1 ∧ t.hw.mem = s.hw.mem)

/-- CLKHALT commands the gates of the networks it names to close; with WAITALL it waits until all are halted, and at the
limit it answers TIMEOUT with the number still running; CLKRUN opens what nothing refuses (R236). Said where no other core
waits for networks. -/
def Obligations.ClockOps : Prop :=
  (∀ (s : State) (c : Core) (rd rs1 rs2 : Reg) (v : Nat), DevReady s.hw c (wordA 0x16 4 rd rs1 rs2) [rd, rs1, rs2] false →
    OperandIs s.hw c (s.hw.g c rs1).toNat 32 32 true v → (∀ d : Core, d ≠ c → (s.hw.core d.val).dev = none) →
    ((s.hw.g c rs2).toNat.testBit 0 = false → Ends (exec (.clkhalt c rd rs1 rs2) s) fun t => Answers s t c rd 0 ∧
      ∀ x ∈ namedNets s.hw v, netHalted t.hw (x / 64) (x % 64) = true ∨ (t.hw.net (x / 64) (x % 64)).closing = true) ∧
    ((s.hw.g c rs2).toNat.testBit 0 = true →
      (∃ x ∈ namedNets s.hw v, netHalted s.hw (x / 64) (x % 64) = false ∧ netEdges s.hw (x / 64) (x % 64) = true) →
      Ends (exec (.clkhalt c rd rs1 rs2) s) fun t => Waits s t c rd (.waitAll (namedNets s.hw v)))) ∧
  (∀ (s : State) (c : Core) (rd : Reg) (nets : List Nat), (s.hw.core c.val).dev = some ⟨.waitAll nets, rd, none⟩ →
    isHalted s.hw c.val = false → (s.hw.core c.val).pendErr = none →
    (∃ x ∈ nets, netHalted s.hw (x / 64) (x % 64) = false) →
    Ends (exec (.clkhaltWaitallTimeout c) s) fun t => Resumes s t c rd
      ((nets.filter fun x => !netHalted s.hw (x / 64) (x % 64)).length % 512 * 2 ^ 40 + 0x11)) ∧
  (∀ (s : State) (c : Core) (rd rs1 : Reg) (v : Nat), DevReady s.hw c (wordA 0x16 5 rd rs1 0) [rd, rs1] false →
    OperandIs s.hw c (s.hw.g c rs1).toNat 32 32 true v →
    Ends (exec (.clkrun c rd rs1) s) fun t =>
      (∀ x ∈ namedNets s.hw v, runRefusal s.hw x = none → netHalted t.hw (x / 64) (x % 64) = false) ∧
      (∀ x ∈ namedNets s.hw v, (runRefusal s.hw x).isSome = true →
        netHalted t.hw (x / 64) (x % 64) = netHalted s.hw (x / 64) (x % 64)) ∧
      ((∀ x ∈ namedNets s.hw v, runRefusal s.hw x = none) → Answers s t c rd 0) ∧
      (qEn s.hw 4 = false → ∀ a, t.hw.mem.readByte a = s.hw.mem.readByte a))

/-- WAIT watches a line of hub SRAM and ends by its write or its timeout; MSG raises a vector, or traps where rs1 is not g0, or
writes the error log (R237, R238). -/
def Obligations.WaitAndMsg : Prop :=
  (∀ (s : State) (c : Core) (rd rs1 rs2 : Reg), DevReady s.hw c (wordA 0x17 0x20 rd rs1 rs2) [rd, rs1, rs2] false →
    (rs2 = 0 → Ends (exec (.waitOp c rd rs1 rs2) s) fun t => Waits s t c rd (.wait none false) ∧ t.hw.mem = s.hw.mem) ∧
    (∀ a, rs2 ≠ 0 → a = (s.hw.g c rs2).toNat → a % 8 = 0 → hubBase ≤ a → a < hubBase + hubSize →
      Ends (exec (.waitOp c rd rs1 rs2) s) fun t => Waits s t c rd (.wait (some (a / 64 * 64)) false) ∧ t.hw.mem = s.hw.mem)) ∧
  (∀ (s : State) (c : Core) (rd : Reg) (line : Option Nat) (hit timeout : Bool),
    (s.hw.core c.val).dev = some ⟨.wait line hit, rd, none⟩ → isHalted s.hw c.val = false → (s.hw.core c.val).pendErr = none →
    (hit = true → Ends (exec (.waitWake c timeout) s) fun t => Resumes s t c rd 0) ∧
    (hit = false → timeout = true → Ends (exec (.waitWake c timeout) s) fun t => Resumes s t c rd 1)) ∧
  (∀ (s : State) (c : Core) (rd rs2 : Reg) (f v : Nat), DevReady s.hw c (wordA 0x17 0x21 rd 0 rs2) [rd, 0, rs2] false →
    bits (s.hw.g c rs2).toNat 15 12 = 0 → f = bits (s.hw.g c rs2).toNat 21 16 → v = bits (s.hw.g c rs2).toNat 10 0 →
    ((funcOn s.hw f = false ∨ msixCount s.hw f ≤ v) →
      Ends (exec (.msgMsix c rd 0 rs2) s) fun t => Answers s t c rd 2 ∧ t.hw.pcie = s.hw.pcie) ∧
    (funcOn s.hw f = true → v < msixCount s.hw f → vectorOpen s.hw f v = false →
      Ends (exec (.msgMsix c rd 0 rs2) s) fun t => Answers s t c rd 1 ∧ v ∈ (func t.hw f).pend) ∧
    (funcOn s.hw f = true → v < msixCount s.hw f → vectorOpen s.hw f v = true → linkUp s.hw = true →
      Ends (exec (.msgMsix c rd 0 rs2) s) fun t => Answers s t c rd 0 ∧ t.hw.pcie.lastMsix = some (f, v))) ∧
  (∀ (s : State) (c : Core) (rd rs1 rs2 : Reg), DevReady s.hw c (wordA 0x17 0x21 rd rs1 rs2) [rd, rs1, rs2] false → rs1 ≠ 0 →
    bits (s.hw.g c rs2).toNat 15 12 = 0 → (c = 0 → s.hw.rd (K.CORE_CAUSE_TACTIVE 0) = 0) →
    Ends (exec (.msgMsix c rd rs1 rs2) s) fun t => t.hw.rd (K.CORE_CAUSE_CODE c.val) = 0x01 ∧
      t.hw.rd (K.CORE_TVAL_TVAL c.val) = wordA 0x17 0x21 rd rs1 rs2) ∧
  (∀ (s : State) (c : Core) (rd rs1 rs2 : Reg), DevReady s.hw c (wordA 0x17 0x21 rd rs1 rs2) [rd, rs1, rs2] false →
    bits (s.hw.g c rs2).toNat 15 12 = 1 →
    Ends (exec (.msgLog c rd rs1 rs2) s) fun t => t.hw.g c rd = 0 ∧
      t.hw.rd K.ERR_LOGHEAD_TOTAL = (s.hw.rd K.ERR_LOGHEAD_TOTAL + 1) % 2 ^ 32 ∧
      t.hw.rd (K.ERR_LOG_W_WORD (s.hw.rd K.ERR_LOGHEAD_NEXT % 256) 3) = (s.hw.g c rs1).toNat)

/-- RSTREQ asks for a warm, cold or die reset with its cause (R239). FUSERD reads the sensed words but those of the
key-encryption key; FUSEPROG and OPTWR start an operation and wait; a programmed fuse keeps its earlier bits and gains
those asked for; a completed option write leaves the copy as written (R240, R241, R442, R447). -/
def Obligations.SystemOps : Prop :=
  (∀ (s : State) (c : Core) (rd rs1 rs2 : Reg), DevReady s.hw c (wordA 0x17 0x30 rd rs1 rs2) [rd, rs1, rs2] true →
      resetting s.hw = false →
      ((s.hw.g c rs1).toNat % 4 = 0 → Ends (exec (.rstreqWarm c rd rs1 rs2) s) fun t =>
        t.hw.rst.request = some (s.hw.rst.request == some true) ∧ t.hw.rd K.RST_CAUSE_WARM = 1 ∧
        (∀ r, t.hw.g c r = s.hw.g c r) ∧ t.hw.mem = s.hw.mem) ∧
      ((s.hw.g c rs1).toNat % 4 = 1 → Ends (exec (.rstreqCold c rd rs1 rs2) s) fun t =>
        t.hw.rst.request = some true ∧ t.hw.rd K.RST_CAUSE_WARM = 1 ∧ (∀ r, t.hw.g c r = s.hw.g c r) ∧ t.hw.mem = s.hw.mem) ∧
      (∀ n, (s.hw.g c rs1).toNat % 4 = 2 → n = (s.hw.g c rs2).toNat % 4 → dieResetting s.hw n = false →
        Ends (exec (.rstreqDie c rd rs1 rs2) s) fun t =>
          Answers s t c rd 0 ∧ t.hw.rst.dieReq / 8 ^ n % 8 = 1 ∧ dieResetting t.hw n = true ∧ t.hw.mem = s.hw.mem)) ∧
  ((∀ (s : State) (c : Core) (rd rs1 : Reg) (w : Nat), DevReady s.hw c (wordA 0x17 0x31 rd rs1 0) [rd, rs1] true →
      w = (s.hw.g c rs1).toNat % 2 ^ 32 →
      Ends (exec (.fuserd c rd rs1) s) fun t => t.hw.mem = s.hw.mem ∧ t.nv = s.nv ∧
        Answers s t c rd (if 128 ≤ w ∨ (10 ≤ w ∧ w < 14) then 0 else SMap.get s.hw.rst.fuses w 0)) ∧
    (∀ (s : State) (c : Core) (rd rs1 rs2 : Reg) (w : Nat), DevReady s.hw c (wordA 0x17 0x32 rd rs1 rs2) [rd, rs1, rs2] true →
      w = (s.hw.g c rs1).toNat % 2 ^ 32 →
      (128 ≤ w → Ends (exec (.fuseprog c rd rs1 rs2) s) fun t => Answers s t c rd 8 ∧ t.nv = s.nv) ∧
      (w < 128 → (SMap.get s.hw.rst.fuses (126 + w / 64) 0).testBit (w % 64) = true →
        Ends (exec (.fuseprog c rd rs1 rs2) s) fun t => Answers s t c rd 6 ∧ t.nv = s.nv) ∧
      (w < 128 → (SMap.get s.hw.rst.fuses (126 + w / 64) 0).testBit (w % 64) = false → s.hw.rst.fuseOp = none →
        Ends (exec (.fuseprog c rd rs1 rs2) s) fun t =>
          Waits s t c rd .fuseprog ∧ t.hw.rst.fuseOp = some (w, (s.hw.g c rs2).toNat) ∧ t.nv = s.nv)) ∧
    (∀ (s : State) (w b : Nat) (ok : Bool), s.hw.rst.fuseOp = some (w, b) →
      Ends (exec (.fuseprogComplete ok) s) fun t =>
        (ok = true → SMap.get t.nv.fuses w 0 = SMap.get s.nv.fuses w 0 ||| b) ∧
        (∀ x, x ≠ w → SMap.get t.nv.fuses x 0 = SMap.get s.nv.fuses x 0) ∧ t.hw.rst.fuseOp = none) ∧
    (∀ (s : State) (c : Core) (rd rs1 : Reg) (v : Nat) (b : Bool), c = 0 → DevReady s.hw c (wordA 0x17 0x33 rd rs1 0) [rd, rs1] true →
      OperandIs s.hw c (s.hw.g c rs1).toNat 256 64 false v → s.hw.rst.optImage = none → optTarget s.nv = some b →
      Ends (exec (.optwr c rd rs1) s) fun t =>
        Waits s t c rd .optwr ∧ t.hw.rst.optImage = some (b, optSealed v (optSeq s.nv)) ∧
        (if b then t.nv.optB.writes = s.nv.optB.writes + 1 ∧ t.nv.optA = s.nv.optA
         else t.nv.optA.writes = s.nv.optA.writes + 1 ∧ t.nv.optB = s.nv.optB)) ∧
    (∀ (s : State) (b ok : Bool) (image : Nat), s.hw.rst.optImage = some (b, image) →
      Ends (exec (.optwrComplete ok) s) fun t => t.hw.rst.optImage = none ∧
        (ok = true → (if b then t.nv.optB.image else t.nv.optA.image) = image) ∧
        (if b then t.nv.optA = s.nv.optA else t.nv.optB = s.nv.optB)))

/-- The access codes of R8 on one field that a write names, where no check replaces the value: RW sets it, W1C and W1S
clear and set bits, RO, RC and WO leave it, ST writes the shadow alone; a read of a register clears its RC fields only.
An access outside every block, by a master without the right, or of a wrong size changes no register but those of the
error log, the scheduler and the crew (R7, R23, R24). -/
def Obligations.RegisterAccess : Prop :=
  (∀ (h : Hw) (m : Master) (f : Field) (data mask : Nat), fieldIn f.key mask ≠ 0 →
      (f.acc = .ro ∨ f.acc = .rc ∨ f.acc = .wo → writeField h m f data mask = h) ∧
      (f.acc = .w1c → (writeField h m f data mask).rd f.key =
        (h.rd f.key - (h.rd f.key &&& fieldIn f.key (data &&& mask))) % 2 ^ f.key.w) ∧
      (f.acc = .w1s → (writeField h m f data mask).rd f.key = (h.rd f.key ||| fieldIn f.key (data &&& mask)) % 2 ^ f.key.w) ∧
      (f.acc = .rw → f.chk.apply (merged f.key (h.rd f.key) data mask) = none →
        (writeField h m f data mask).rd f.key = merged f.key (h.rd f.key) data mask % 2 ^ f.key.w) ∧
      (f.acc = .st → f.chk.apply (merged f.key (h.sh f.key) data mask) = none →
        (writeField h m f data mask).sh f.key = merged f.key (h.sh f.key) data mask % 2 ^ f.key.w ∧
        ∀ k, (writeField h m f data mask).rd k = h.rd k) ∧
      (∀ k : Key, k.id ≠ f.key.id → (f.acc = .w1c ∨ f.acc = .w1s) → (writeField h m f data mask).rd k = h.rd k)) ∧
  (∀ (s : State) (m : Master) (addr size data : Nat) (k : Key),
      (csrGate s.hw m true addr ≠ .ok ∨ csrShape addr size = false) →
      (k.lo < 64 ∧ (k.addr < 0x400000 ∨ (0x600000 ≤ k.addr ∧ k.addr < 0x800000) ∨
        (0x801000 ≤ k.addr ∧ k.addr < 0x1000000) ∨ 0x1004000 ≤ k.addr)) →
      Ends (exec (.csrWrite m addr size data) s) fun t => t.hw.rd k = s.hw.rd k ∧ t.hw.shadow = s.hw.shadow)

/-- Register commands: an access of R7's sizes that the gates of R24 and R25 let through acts at its register's block: in
blocks without rules of their own a write acts on each field by its access code, and a read returns the fields, clears the RC
ones for every master but Adit, and is recorded. A write of staged fields changes their shadows and no applied value, and the
two halves of GRIDTIME are read as one value (R7, R8, R95, R300). -/
def Obligations.RegisterCommands : Prop :=
  (∀ (s : State) (m : Master) (addr size data : Nat), csrGate s.hw m true addr = .ok → csrShape addr size = true →
    Ends (exec (.csrWrite m addr size data) s) (fun t => t.hw = csrStore s.hw m addr size data ∧ t.nv = s.nv) ∧
    Ends (exec (.stWrite m addr size data) s) (fun t => t.hw = csrStore s.hw m addr size data ∧ t.nv = s.nv) ∧
    ((0x200000 ≤ addr ∧ addr < 0x400000) ∨ (0x800000 ≤ addr ∧ addr < 0xC00000) ∨ (0x1000000 ≤ addr ∧ addr < 0x1100000) →
      fieldsAt (addr / 8 * 8) ≠ [] →
      Ends (exec (.csrWrite m addr size data) s) fun t => t.hw = (fieldsAt (addr / 8 * 8)).foldl
        (fun h f => writeField h m f (placed addr size data) (writeMask64 addr size)) s.hw)) ∧
  (∀ (s : State) (m : Master) (addr size : Nat), csrGate s.hw m false addr = .ok → csrShape addr size = true →
    Ends (exec (.rcRead m addr size) s) (fun t =>
      t.hw.gal.lastRead = some (m, addr, (csrLoad s.hw m addr size).1) ∧ t.hw.csr = (csrLoad s.hw m addr size).2.csr ∧ t.nv = s.nv) ∧
    ((0x200008 ≤ addr ∧ addr < 0x300000) ∨ (0x1000000 ≤ addr ∧ addr < 0x1400000) → addr / 8 * 8 ≠ K.CLK_GRIDTIME_TIME.addr →
      Ends (exec (.rcRead m addr size) s) fun t =>
        t.hw.gal.lastRead = some (m, addr, readPart addr size (readVal s.hw (addr / 8 * 8))) ∧
        t.hw.csr = (if m = .adit then s.hw else clearRc s.hw (addr / 8 * 8)).csr ∧ t.hw.mem = s.hw.mem)) ∧
  (∀ (s : State) (m : Master) (v : Nat), csrGate s.hw m true 0x1000010 = .ok → v < 2 ^ 22 →
    Ends (exec (.csrWrite m 0x1000010 8 (2 * v)) s) fun t =>
      t.hw.rd K.ERR_POSTMASK_MASK = v ∧ (∀ k : Key, k.id ≠ K.ERR_POSTMASK_MASK.id → t.hw.rd k = s.hw.rd k) ∧
      t.hw.mem = s.hw.mem ∧ t.nv = s.nv) ∧
  (∀ (s : State) (m : Master) (d : Die) (i : Fin 16) (mul div : Nat),
    csrGate s.hw m true (K.CLK_PLL_MUL_M d.val i.val).addr = .ok → 4 ≤ mul → mul ≤ 320 → 1 ≤ div → div ≤ 64 →
    Ends (exec (.stWrite m (K.CLK_PLL_MUL_M d.val i.val).addr 8
        (mul * 2 ^ (K.CLK_PLL_MUL_M d.val i.val).lo + div * 2 ^ (K.CLK_PLL_MUL_D d.val i.val).lo)) s) fun t =>
      t.hw.sh (K.CLK_PLL_MUL_M d.val i.val) = mul ∧ t.hw.sh (K.CLK_PLL_MUL_D d.val i.val) = div ∧
      t.hw.csr = s.hw.csr ∧ t.hw.mem = s.hw.mem) ∧
  (∀ (s : State) (m : Master) (d : Die), csrGate s.hw m false (K.SPINE_COUNT_COUNT d.val).addr = .ok →
    Ends (exec (.rcRead m (K.SPINE_COUNT_COUNT d.val).addr 8) s) fun t =>
      t.hw.gal.lastRead = some (m, (K.SPINE_COUNT_COUNT d.val).addr,
        s.hw.rd (K.SPINE_COUNT_COUNT d.val) * 2 ^ (K.SPINE_COUNT_COUNT d.val).lo) ∧
      (m ≠ .adit → t.hw.rd (K.SPINE_COUNT_COUNT d.val) = 0) ∧ (m = .adit → t.hw.csr = s.hw.csr)) ∧
  (∀ (s : State) (m : Master) (size : Nat), csrGate s.hw m false K.CLK_GRIDTIME_TIME.addr = .ok → size = 4 ∨ size = 8 →
    Ends (exec (.gridtimeLowRead m size) s) fun t =>
      t.hw.gal.lastRead = some (m, K.CLK_GRIDTIME_TIME.addr, if size = 8 then s.hw.now else s.hw.now % 2 ^ 32) ∧
      t.hw.clk.gridUpper = s.hw.now / 2 ^ 32 ∧ t.hw.csr = s.hw.csr ∧ t.hw.mem = s.hw.mem)

/-- A Gallery request that may be performed acts on hub SRAM and is answered; a response reaches its core; a write to a
claimed area that nothing holds acts on the stacked SRAM (R20, R22, R24, R159). -/
def Obligations.GalleryTraffic : Prop :=
  (∀ (s : State) (i : Nat) (q : GReq), s.hw.gal.reqs[i]? = some q → mustWait s.hw i = false →
    mayReach s.hw q.m (q.kind != .read) q.addr = true → regionOf q.addr = .hub → populated s.hw q.addr q.size = true →
    (q.kind = .write → s.hw.bit K.ERR_TEST_EN = false → Ends (exec (.galleryRequest i) s) fun t =>
      t.hw.mem = s.hw.mem.writeN q.addr q.size q.data q.be ∧ t.hw.gal.reqs = s.hw.gal.reqs.eraseIdx i ∧
      t.hw.gal.resps = s.hw.gal.resps ++ [⟨q.id, q.m, .write, .ok, 0, q.addr, q.tag⟩]) ∧
    (q.kind = .read → (s.hw.mem.seen q.addr q.size).all (fun x => x.2 == .clean) = true →
      Ends (exec (.galleryRequest i) s) fun t =>
        t.hw.mem = s.hw.mem ∧ t.hw.gal.reqs = s.hw.gal.reqs.eraseIdx i ∧
        t.hw.gal.resps = s.hw.gal.resps ++ [⟨q.id, q.m, .read, .ok, s.hw.mem.readN q.addr q.size, q.addr, q.tag⟩])) ∧
  (∀ (s : State) (i : Nat) (r : GResp) (c : Core), s.hw.gal.resps[i]? = some r → r.m = .core c →
    Ends (exec (.galleryResponse i) s) fun t =>
      t.hw.gal.arrived = s.hw.gal.arrived ++ [r] ∧ t.hw.gal.resps = s.hw.gal.resps.eraseIdx i ∧ t.hw.mem = s.hw.mem) ∧
  (∀ (s : State) (i n : Nat) (q : GReq) (c : Core), s.hw.gal.reqs[i]? = some q → q.m = .core c → q.kind = .write →
    regionOf q.addr = .stack n → mustWait s.hw i = false → inA3 s.hw = false → dieReachable s.hw n = true →
    populated s.hw q.addr q.size = true → touchesRing s.hw n q.addr q.size = true →
    slotHeld s.hw n (slotAt (q.addr - stackBase n)) true = false → s.hw.bit K.ERR_TEST_EN = false →
    mayReach s.hw q.m true q.addr = true →
    Ends (exec (.strataWindowAccess i) s) fun t =>
      t.hw.mem = s.hw.mem.writeN q.addr q.size q.data q.be ∧
      t.hw.gal.resps = s.hw.gal.resps ++ [⟨q.id, q.m, .write, .ok, 0, q.addr, q.tag⟩])

/-- A flit enters a router's local buffer on the class and channel of its packet and at a router its master attaches to; the
head flit that its output serves leaves its buffer, for the neighbour's buffer on the same pair with a credit, or at its
destination. The routers take it there by rows, then columns, in at most 6 hops, the crew's in at most 4 (R16 to R19). -/
def Obligations.MeshMoves : Prop :=
  (∀ (s : State) (r : Fin 16) (inp : Fin 5) (cv : Fin 6) (f : Flit),
    (inp = 0 → cv.val = flitPair f → attaches r.val f = true →
      (SMap.get s.hw.gal.mesh.bufs (bufKey r.val inp.val cv.val) []).length < Config.flitDepth + 1 →
      Ends (exec (.flitForward r inp cv (some f)) s) fun t =>
        SMap.get t.hw.gal.mesh.bufs (bufKey r.val inp.val cv.val) [] =
          SMap.get s.hw.gal.mesh.bufs (bufKey r.val inp.val cv.val) [] ++ [f] ∧
        t.hw.csr = s.hw.csr ∧ t.hw.mem = s.hw.mem) ∧
    (inp ≠ 0 ∨ cv.val ≠ flitPair f → exec (.flitForward r inp cv (some f)) s = .next s)) ∧
  (∀ (s : State) (r : Fin 16) (inp : Fin 5) (cv : Fin 6) (f : Flit) (rest : List Flit) (out : Nat),
    SMap.get s.hw.gal.mesh.bufs (bufKey r.val inp.val cv.val) [] = f :: rest → out = routeOut r.val f.dest.val →
    served s.hw.gal.mesh r.val out = some (inp.val * 6 + cv.val) →
    Ends (exec (.flitForward r inp cv none) s) fun t =>
      SMap.get t.hw.gal.mesh.bufs (bufKey r.val inp.val cv.val) [] = rest ∧
      (f.dest = r → t.hw.gal.mesh.out = (r.val, f) :: s.hw.gal.mesh.out) ∧
      (f.dest ≠ r →
        SMap.get t.hw.gal.mesh.bufs (bufKey (neighbour r.val out) (arriveAt out) cv.val) [] =
          SMap.get s.hw.gal.mesh.bufs (bufKey (neighbour r.val out) (arriveAt out) cv.val) [] ++ [f] ∧
        SMap.get t.hw.gal.mesh.used (bufKey (neighbour r.val out) (arriveAt out) cv.val) 0 =
          SMap.get s.hw.gal.mesh.used (bufKey (neighbour r.val out) (arriveAt out) cv.val) 0 + 1 ∧
        t.hw.gal.mesh.out = s.hw.gal.mesh.out) ∧
      t.hw.csr = s.hw.csr ∧ t.hw.mem = s.hw.mem) ∧
  (∀ r dest : Fin 16, (routeOut r.val dest.val = 0 ↔ r = dest) ∧ hops r.val dest.val ≤ 6 ∧
    (central r.val = true → hops r.val dest.val ≤ 4) ∧
    (r ≠ dest → hops (neighbour r.val (routeOut r.val dest.val)) dest.val + 1 = hops r.val dest.val))

/-- Outbound fabric port traffic: a request takes a tag and goes to the Gallery, or to the host; a posted write waits and is
accepted in order, a doorbell of the port's own queue against its credit; a response reaches the design and frees its tag, and a
FLUSH waits for the posted writes issued before it (R28 to R32, R252). -/
def Obligations.FabricPortOutbound : Prop :=
  (∀ (s : State) (d : Die) (p : Port), portDesign s.hw d.val p.val = true → portReady s.hw d.val p.val = true →
    (∀ (op : PortOp) (hostSpace : Bool) (addr beats data be a size dt en : Nat), beatsOk addr beats = true →
      portAccess op hostSpace addr beats data be = (a, size, dt, en) → portCheck s.hw d p op hostSpace a = .ok →
      hostLineHeld s.hw d.val p.val op hostSpace addr (64 * beats) = false →
      (hostSpace = true → op = .read → hostFull s.hw = false) →
      Ends (exec (.fportOutboundRequest d p op hostSpace addr beats data be) s) fun t => ∃ tag q,
        tag < 256 ∧ (∀ e ∈ (fport s.hw d.val p.val).outTags, e.1 ≠ tag) ∧
        q = ⟨s.hw.gal.nextId, .fport d p, portKind op, a, size, dt, en, tag⟩ ∧
        (fport t.hw d.val p.val).outTags = (fport s.hw d.val p.val).outTags ++ [(tag, q.id)] ∧
        (op = .pwrite → (fport t.hw d.val p.val).waiting = (fport s.hw d.val p.val).waiting ++
            [{ q with tag := tag + (if hostSpace then 256 else 0) }] ∧
          (fport t.hw d.val p.val).posted = (fport s.hw d.val p.val).posted ++ [q.id] ∧ t.hw.gal.reqs = s.hw.gal.reqs) ∧
        (op ≠ .pwrite → hostSpace = false → t.hw.gal.reqs = s.hw.gal.reqs ++ [q]) ∧
        (op = .write → hostSpace = true → t.hw.gal.resps = s.hw.gal.resps ++ [⟨q.id, .fport d p, .write, .ok, 0, a, tag⟩] ∧
          (linkUp s.hw = true → t.hw.pcie.lastWrite = some (a, size, dt, en))) ∧
        (op = .read → hostSpace = true → t.hw.pcie.reqs = s.hw.pcie.reqs ++
          [⟨q.id + 1, s.hw.rd (K.FPORT_CTL_FUNC d.val p.val), some q⟩])) ∧
    Ends (exec (.fportFlush d p) s) (fun t => ∃ tag,
      (fport t.hw d.val p.val).flushes = (fport s.hw d.val p.val).flushes ++ [(tag, (fport s.hw d.val p.val).posted)] ∧
      ∃ id, (fport t.hw d.val p.val).outTags = (fport s.hw d.val p.val).outTags ++ [(tag, id)])) ∧
  (∀ (s : State) (d : Die) (p : Port) (r : GReq) (rest : List GReq) (tag : Fin 256),
    (fport s.hw d.val p.val).waiting = r :: rest → r.tag % 256 = tag.val →
    (r.tag < 256 → (isDoorbell r.addr && owns s.hw r.m (doorbellQueue r.addr)) = false →
      Ends (exec (.fportPostedAccept d p tag) s) fun t =>
        (fport t.hw d.val p.val).waiting = rest ∧ t.hw.gal.reqs = s.hw.gal.reqs ++ [r] ∧
        ∀ e ∈ (fport t.hw d.val p.val).outTags, e.1 ≠ tag.val) ∧
    (r.tag < 256 → (isDoorbell r.addr && owns s.hw r.m (doorbellQueue r.addr)) = true →
      creditCopy s.hw d.val p.val (doorbellQueue r.addr) ≠ 0 →
      Ends (exec (.fportPostedAccept d p tag) s) fun t =>
        (fport t.hw d.val p.val).waiting = rest ∧ t.hw.gal.reqs = s.hw.gal.reqs ++ [r] ∧
        creditCopy t.hw d.val p.val (doorbellQueue r.addr) = creditCopy s.hw d.val p.val (doorbellQueue r.addr) - 1) ∧
    (r.tag < 256 → (isDoorbell r.addr && owns s.hw r.m (doorbellQueue r.addr)) = true →
      creditCopy s.hw d.val p.val (doorbellQueue r.addr) = 0 → exec (.fportPostedAccept d p tag) s = .next s) ∧
    (256 ≤ r.tag → (∀ id ∈ (fport s.hw d.val p.val).posted, r.id ≤ id) → linkUp s.hw = true →
      Ends (exec (.fportPostedAccept d p tag) s) fun t =>
        (fport t.hw d.val p.val).waiting = rest ∧ t.hw.gal.reqs = s.hw.gal.reqs ∧
        t.hw.pcie.lastWrite = some (r.addr, r.size, r.data, r.be))) ∧
  (∀ (s : State) (d : Die) (p : Port) (tag : Fin 256) (e : Nat × Nat) (r : GResp), portDesign s.hw d.val p.val = true →
    ((fport s.hw d.val p.val).outTags.find? fun e => e.1 == tag.val) = some e →
    (s.hw.gal.arrived.find? fun x => x.id == e.2) = some r →
    Ends (exec (.fportOutboundResponse d p tag) s) fun t =>
      (fport t.hw d.val p.val).lastOut = some (tag.val, r.status, r.data) ∧
      ∀ e ∈ (fport t.hw d.val p.val).outTags, e.1 ≠ tag.val) ∧
  (∀ (s : State) (d : Die) (p : Port) (tag : Fin 256),
    ((fport s.hw d.val p.val).flushes.find? fun e => e.1 == tag.val) = some (tag.val, []) →
    Ends (exec (.fportFlushComplete d p tag) s) fun t =>
      (fport t.hw d.val p.val).lastOut = some (tag.val, .ok, 0) ∧
      (∀ e ∈ (fport t.hw d.val p.val).flushes, e.1 ≠ tag.val) ∧ ∀ e ∈ (fport t.hw d.val p.val).outTags, e.1 ≠ tag.val)

/-- Inbound fabric port traffic: a request takes the next tag and waits for the design, a posted write is taken at once, and a
port that does not accept turns it away with a status; a response frees the tag; the stall limit ends every request of the port
with STALLED, and writing STALLED = 1 clears it and restarts the tags (R30 to R33). -/
def Obligations.FabricPortInbound : Prop :=
  (∀ (s : State) (i : Nat) (q : GReq) (d : Die) (p : Port), s.hw.gal.reqs[i]? = some q →
    regionOf q.addr = .port d.val p.val → inA3 s.hw = false → mustWait s.hw i = false →
    mayReach s.hw q.m (q.kind != .read) q.addr = true →
    (portTurnsAway s.hw d.val p.val = none → designRuns s.hw d.val (portSector p.val) = true →
      (fport s.hw d.val p.val).inTags.length < 256 →
      Ends (exec (.fportInboundRequest i) s) fun t =>
        (q.kind ≠ .pwrite →
          (fport t.hw d.val p.val).inTags = (fport s.hw d.val p.val).inTags ++ [(nextInTag (fport s.hw d.val p.val), q)]) ∧
        (q.kind = .pwrite → (fport t.hw d.val p.val).inTags = (fport s.hw d.val p.val).inTags) ∧
        t.hw.gal.reqs = s.hw.gal.reqs.eraseIdx i ∧
        (fport t.hw d.val p.val).nextIn = (nextInTag (fport s.hw d.val p.val) + 1) % 256) ∧
    (∀ st, portTurnsAway s.hw d.val p.val = some st → q.kind ≠ .pwrite → q.m ≠ .guest →
      Ends (exec (.fportInboundRequest i) s) fun t => t.hw.gal.reqs = s.hw.gal.reqs.eraseIdx i ∧
        t.hw.gal.resps = s.hw.gal.resps ++ [⟨q.id, q.m, q.kind, st, 0, q.addr, q.tag⟩] ∧ t.hw.dies = s.hw.dies)) ∧
  (∀ (s : State) (d : Die) (p : Port) (tag : Fin 256) (data : Nat) (e : Nat × GReq), portDesign s.hw d.val p.val = true →
    s.hw.bit (K.FPORT_STAT_STALLED d.val p.val) = false →
    ((fport s.hw d.val p.val).inTags.find? fun e => e.1 == tag.val) = some e → e.2.kind ≠ .pwrite →
    Ends (exec (.fportInboundResponse d p tag data) s) fun t =>
      (∀ x ∈ (fport t.hw d.val p.val).inTags, x.1 ≠ tag.val) ∧
      t.hw.gal.resps = s.hw.gal.resps ++ [⟨e.2.id, e.2.m, e.2.kind, .ok,
        if e.2.kind = .read then data % 2 ^ (8 * e.2.size) else 0, e.2.addr, e.2.tag⟩]) ∧
  (∀ (s : State) (d : Die) (p : Port), s.hw.rd (K.FPORT_CTL_STALL d.val p.val) ≠ 0 →
    s.hw.bit (K.FPORT_STAT_STALLED d.val p.val) = false → s.hw.bit (K.FPORT_STAT_OFFLINE d.val p.val) = false →
    portOwes s.hw d.val p.val = true →
    Ends (exec (.fportStallTimeout d p) s) fun t => t.hw.rd (K.FPORT_STAT_STALLED d.val p.val) = 1 ∧
      (fport t.hw d.val p.val).inTags = []) ∧
  (∀ (s : State) (m : Master) (d : Die) (p : Port), csrGate s.hw m true (fportStat d.val p.val) = .ok →
    s.hw.bit (K.FPORT_STAT_STALLED d.val p.val) = true →
    Ends (exec (.fportStalledClear m d p) s) fun t => t.hw.rd (K.FPORT_STAT_STALLED d.val p.val) = 0 ∧
      (fport t.hw d.val p.val).nextIn = 0)

/-- A sector port writes stacked SRAM, queues what a read finds, answers RINGERR in a claimed area, keeps what waits while a
drain or restore has the ports, and its responses reach the design in order (R58 to R61). The serial blocks of an outpost: FIFOs
of 64 bytes take what their owner writes and what the line brings, a reader other than Adit takes the oldest byte, a block is deaf
to the side that does not own it, and the events of the I2C bus end an action or bring a byte (R63, R65). -/
def Obligations.SectorPortsAndOutpost : Prop :=
  ((∀ (s : State) (d : Die) (sec : Sector) (wr : Bool) (beat : Fin 2097152) (data be a : Nat),
      designRuns s.hw d.val sec.val = true → a = beatAddr d.val sec.val beat.val →
      (portsHeld s.hw d.val = false → (s.hw.die d.val).secReqs = [] → (secQueue s.hw d.val sec.val).length < 16 →
        (claimedAt (ringDepth s.hw d.val) (a - stackBase d.val) = true →
          Ends (exec (.sectorPortRequest d sec wr beat data be) s) fun t => t.hw.mem = s.hw.mem ∧
            secQueue t.hw d.val sec.val = secQueue s.hw d.val sec.val ++ [⟨0, false, true, !wr⟩]) ∧
        (claimedAt (ringDepth s.hw d.val) (a - stackBase d.val) = false → wr = true → prioHolds s.hw none a 32 = false →
          Ends (exec (.sectorPortRequest d sec wr beat data be) s) fun t => t.hw.mem = s.hw.mem.writeN a 32 data be) ∧
        (claimedAt (ringDepth s.hw d.val) (a - stackBase d.val) = false → wr = false →
          (s.hw.mem.seen a 32).all (fun x => x.2 == .clean) = true →
          Ends (exec (.sectorPortRequest d sec wr beat data be) s) fun t => t.hw.mem = s.hw.mem ∧
            secQueue t.hw d.val sec.val = secQueue s.hw d.val sec.val ++ [⟨s.hw.mem.readN a 32, false, false, true⟩])) ∧
      (portsHeld s.hw d.val = true → (secWaiting s.hw d.val sec.val).length < 16 →
        Ends (exec (.sectorPortRequest d sec wr beat data be) s) fun t => t.hw.mem = s.hw.mem ∧
          secWaiting t.hw d.val sec.val = secWaiting s.hw d.val sec.val ++ [⟨wr, beat.val, data, be⟩]) ∧
      (16 ≤ (secWaiting s.hw d.val sec.val).length → exec (.sectorPortRequest d sec wr beat data be) s = .next s)) ∧
    (∀ (s : State) (d : Die) (sec : Sector) (r : SecResp) (rest : List SecResp), secQueue s.hw d.val sec.val = r :: rest →
      (s.hw.die d.val).secReqs = [] →
      Ends (exec (.sectorPortResponse d sec) s) fun t =>
        secQueue t.hw d.val sec.val = rest ∧ SMap.get (t.hw.die d.val).secLast sec.val none = some r ∧ t.hw.mem = s.hw.mem)) ∧
  ((∀ (s : State) (d : Die) (u : Fin 2) (src : Side) (v : Byte), SideWrites s.hw d.val (.uart u) (0x108 + 0x40 * u.val) src →
      ((uartTx s.hw d.val u.val).length < 64 →
        Ends (exec (.uartDataWrite d u src v) s) fun t => uartTx t.hw d.val u.val = uartTx s.hw d.val u.val ++ [v] ∧
          t.hw.mem = s.hw.mem) ∧
      (64 ≤ (uartTx s.hw d.val u.val).length →
        Ends (exec (.uartDataWrite d u src v) s) fun t => uartTx t.hw d.val u.val = uartTx s.hw d.val u.val ∧
          t.hw.rd (K.OUTPOST_UART_STAT_OVR d.val u.val) = 1)) ∧
    (∀ (s : State) (d : Die) (u : Fin 2) (src : Side), SideReads s.hw d.val (0x108 + 0x40 * u.val) src →
      Ends (exec (.uartDataPop d u src) s) fun t =>
        uartRx t.hw d.val u.val = (if sidePops src then (uartRx s.hw d.val u.val).tail else uartRx s.hw d.val u.val) ∧
        (∀ b rest, src = .design → uartRx s.hw d.val u.val = b :: rest → (t.hw.die d.val).portData = b.toNat)) ∧
    (∀ (s : State) (d : Die) (u : Fin 2) (v : Byte) (perr ferr : Bool), s.hw.bit (K.OUTPOST_UART_CFG_EN d.val u.val) = true →
      outStops s.hw d.val = false →
      ((uartRx s.hw d.val u.val).length < 64 → Ends (exec (.uartRxFrame d u v perr ferr) s) fun t =>
        uartRx t.hw d.val u.val = uartRx s.hw d.val u.val ++ [v] ∧ (perr = true → t.hw.rd (K.OUTPOST_UART_STAT_PERR d.val u.val) = 1) ∧
        (ferr = true → t.hw.rd (K.OUTPOST_UART_STAT_FERR d.val u.val) = 1)) ∧
      (64 ≤ (uartRx s.hw d.val u.val).length → Ends (exec (.uartRxFrame d u v perr ferr) s) fun t =>
        uartRx t.hw d.val u.val = uartRx s.hw d.val u.val ∧ t.hw.rd (K.OUTPOST_UART_STAT_OVR d.val u.val) = 1) ∧
      Ends (exec (.uartTxFrame d u) s) (fun t => uartTx t.hw d.val u.val = (uartTx s.hw d.val u.val).tail)) ∧
    (∀ (s : State) (d : Die) (src : Side) (v : Byte), SideWrites s.hw d.val .spi 0x208 src →
      Ends (exec (.spiDataWrite d src v) s) fun t => (t.hw.die d.val).out.spiTx =
        if (s.hw.die d.val).out.spiTx.length < 64 then (s.hw.die d.val).out.spiTx ++ [v] else (s.hw.die d.val).out.spiTx) ∧
    (∀ (s : State) (d : Die) (src : Side), SideReads s.hw d.val 0x208 src →
      Ends (exec (.spiDataPop d src) s) fun t => (t.hw.die d.val).out.spiRx =
        if sidePops src then (s.hw.die d.val).out.spiRx.tail else (s.hw.die d.val).out.spiRx) ∧
    (∀ (s : State) (d : Die) (rx : Byte), s.hw.bit (K.OUTPOST_SPI_CFG_EN d.val) = true → outStops s.hw d.val = false →
      (s.hw.bit (K.OUTPOST_SPI_CFG_SLAVE d.val) = true ∨ (s.hw.die d.val).out.spiTx ≠ []) →
      Ends (exec (.spiByteTransfer d rx) s) fun t => (t.hw.die d.val).out.spiTx = (s.hw.die d.val).out.spiTx.tail ∧
        ((s.hw.die d.val).out.spiRx.length < 64 → (t.hw.die d.val).out.spiRx = (s.hw.die d.val).out.spiRx ++ [rx])) ∧
    (∀ (s : State) (d : Die) (src : Side) (cmd : Nat), SideWrites s.hw d.val .i2c 0x308 src →
      Ends (exec (.i2cCmdWrite d src cmd) s) fun t => (t.hw.die d.val).out.i2cCmd = some (cmd % 2 ^ 11)) ∧
    (∀ (s : State) (d : Die) (src : Side), SideReads s.hw d.val 0x308 src →
      Ends (exec (.i2cCmdPop d src) s) fun t => (t.hw.die d.val).out.i2cRx =
        if sidePops src then (s.hw.die d.val).out.i2cRx.tail else (s.hw.die d.val).out.i2cRx) ∧
    (∀ (s : State) (d : Die), s.hw.bit (K.OUTPOST_I2C_CFG_EN d.val) = true → outStops s.hw d.val = false →
      (∀ v : Byte, (s.hw.die d.val).out.i2cCmd.isSome = true ∨ (s.hw.die d.val).out.i2cTarget = true →
        (s.hw.die d.val).out.i2cRx.length < 64 → Ends (exec (.i2cByteTransfer d (.received v)) s) fun t =>
          (t.hw.die d.val).out.i2cRx = (s.hw.die d.val).out.i2cRx ++ [v] ∧ (t.hw.die d.val).out.i2cCmd = none) ∧
      (∀ ack : Bool, (s.hw.die d.val).out.i2cCmd.isSome = true → Ends (exec (.i2cByteTransfer d (.sent ack)) s) fun t =>
        (t.hw.die d.val).out.i2cCmd = none ∧ t.hw.bit (K.OUTPOST_I2C_CMD_ACK d.val) = ack) ∧
      (∀ a : BitVec 7, Ends (exec (.i2cByteTransfer d (.addressed a)) s) fun t => (t.hw.die d.val).out.i2cTarget =
        (s.hw.bit (K.OUTPOST_I2C_CFG_TARGET d.val) && s.hw.rd (K.OUTPOST_I2C_CFG_ADDR d.val) == a.toNat)) ∧
      Ends (exec (.i2cByteTransfer d .stopped) s) (fun t => (t.hw.die d.val).out.i2cTarget = false ∧
        (t.hw.die d.val).out.i2cCmd = none)) ∧
    (∀ (s : State) (d : Die) (off : Fin 4096) (data : Nat) (h : Hw), designRuns s.hw d.val 11 = true →
      h = s.hw.onDie d.val (fun x => { x with portErr := false }) →
      Ends (exec (.outpostPortAccess d true off data) s) (fun t => t.hw = outWrite h d.val .design (off.val / 8 * 8) 8 data) ∧
      Ends (exec (.outpostPortAccess d false off data) s) (fun t =>
        (t.hw.die d.val).portData = (outRead h d.val .design off.val).1 ∧ t.hw.csr = (outRead h d.val .design off.val).2.csr ∧
        t.hw.mem = s.hw.mem)) ∧
    (∀ (s : State) (d : Die) (data : Nat), designRuns s.hw d.val 11 = true → hubOwns s.hw d.val (.uart 0) = true →
      Ends (exec (.outpostPortAccess d true ⟨0x108, by decide⟩ data) s) fun t =>
        (t.hw.die d.val).portErr = true ∧ uartTx t.hw d.val 0 = uartTx s.hw d.val 0) ∧
    (∀ (s : State) (d : Die) (b : Byte) (rest : List Byte) (data : Nat), designRuns s.hw d.val 11 = true →
      (s.hw.die d.val).out.spiRx = b :: rest →
      Ends (exec (.outpostPortAccess d false ⟨0x208, by decide⟩ data) s) fun t =>
        (t.hw.die d.val).portData = b.toNat ∧ (t.hw.die d.val).portErr = false ∧ (t.hw.die d.val).out.spiRx = rest))

/-- User flash: an operation of the owner starts on an idle block, but for an erase of a worn page, and its end reports OK; READ fills FLBUF, PROGRAM can only
clear bits of its line, ERASE sets every line of the page and no other (R64). -/
def Obligations.UserFlash : Prop :=
  (∀ (s : State) (d : Die) (src : Side) (line : Fin 8192), SideWrites s.hw d.val .flash 0x10 src →
    s.hw.bit (K.OUTPOST_FLSTAT_BUSY d.val) = false →
    Ends (exec (.flashRead d src line) s) (fun t => (t.hw.die d.val).out.flash = some (.read, line.val) ∧
      t.hw.rd (K.OUTPOST_FLSTAT_BUSY d.val) = 1 ∧ t.nv = s.nv) ∧
    Ends (exec (.flashProgram d src line) s) (fun t => (t.hw.die d.val).out.flash = some (.program, line.val) ∧
      t.hw.rd (K.OUTPOST_FLSTAT_BUSY d.val) = 1 ∧ t.nv = s.nv) ∧
    (eraseCount s.hw d.val (line.val / 64) < 100000 →
      Ends (exec (.flashErase d src line) s) fun t => (t.hw.die d.val).out.flash = some (.erase, line.val) ∧
        t.hw.rd (K.OUTPOST_FLSTAT_BUSY d.val) = 1 ∧
        eraseCount t.hw d.val (line.val / 64) = eraseCount s.hw d.val (line.val / 64) + 1 ∧ t.nv = s.nv) ∧
    (100000 ≤ eraseCount s.hw d.val (line.val / 64) →
      Ends (exec (.flashErase d src line) s) fun t => t.hw.rd (K.OUTPOST_FLSTAT_STATUS d.val) = 2 ∧
        (t.hw.die d.val).out = (s.hw.die d.val).out ∧ t.nv = s.nv)) ∧
  (∀ (s : State) (d : Die) (op : FlashOp) (line : Nat), (s.hw.die d.val).out.flash = some (op, line) → line < 8192 →
    Ends (exec (.flashOpComplete d) s) fun t =>
      t.hw.rd (K.OUTPOST_FLSTAT_BUSY d.val) = 0 ∧ t.hw.rd (K.OUTPOST_FLSTAT_STATUS d.val) = 0 ∧
      (t.hw.die d.val).out.flash = none ∧
      (op = .read → t.nv = s.nv ∧ ∀ w, w < 8 →
        t.hw.rd (K.OUTPOST_FLBUF_BYTES d.val w) = flashLine s.nv d.val line / 2 ^ (64 * w) % 2 ^ 64) ∧
      (op = .program → flashLine t.nv d.val line = (flashLine s.nv d.val line &&& flBuf s.hw d.val) ∧
        ∀ j, j < 8192 → j ≠ line → flashLine t.nv d.val j = flashLine s.nv d.val j) ∧
      (op = .erase → ∀ j, j < 8192 → flashLine t.nv d.val j =
        if j / 64 = line / 64 then 2 ^ 512 - 1 else flashLine s.nv d.val j))

/-- A fence closes, settles and lifts: a lifted sector restarts from its initial values, and its die's digest is not
ready; the mask table is written where the sector is fenced or the die not released (R306, R307, R317, R323).
Contention disables the spine, logs it and requests a repair; the repair corrects the column's spine frames, and where it finds
one driver at most it brings the spine back (R85, R86). -/
def Obligations.FencesAndSpines : Prop :=
  ((∀ (s : State) (m : Master) (d : Die) (sec : Sector), csrGate s.hw m true (fenceAddr d.val sec.val) = .ok →
      (s.hw.bit (K.FENCE_SEC_FENCE d.val sec.val) = false →
        Ends (exec (.fenceClose m d sec) s) fun t =>
          t.hw.rd (K.FENCE_SEC_FENCE d.val sec.val) = 1 ∧ t.hw.rd (K.FENCE_SEC_SETTLED d.val sec.val) = 0 ∧
          (∀ r ∈ secQueue t.hw d.val sec.val, r.read = false)) ∧
      (s.hw.bit (K.FENCE_SEC_FENCE d.val sec.val) = true →
        Ends (exec (.fenceLift m d sec) s) fun t =>
          t.hw.rd (K.FENCE_SEC_FENCE d.val sec.val) = 0 ∧ t.hw.rd (K.FENCE_SEC_SETTLED d.val sec.val) = 0 ∧
          ((∀ n m, n < 4 → m < 64 → netHalted s.hw n m = true) →
            SMap.get (t.hw.die d.val).ff sec.val 0 = initMask s.hw d.val sec.val) ∧
          t.hw.rd (K.ASSAY_STAT_READY d.val) = 0 ∧ t.hw.rd K.CFG_ASSAYSTAT_DEVREADY = 0)) ∧
    (∀ (s : State) (d : Die) (sec : Sector), s.hw.bit (K.FENCE_SEC_FENCE d.val sec.val) = true →
      s.hw.bit (K.FENCE_SEC_SETTLED d.val sec.val) = false →
      Ends (exec (.fenceSettled d sec) s) fun t => t.hw.rd (K.FENCE_SEC_SETTLED d.val sec.val) = 1) ∧
    (∀ (s : State) (m : Master) (d : Die) (sec : Sector) (w : Fin 16) (v : Word),
      csrGate s.hw m true (dieBase d.val + 0x700000 + sec.val * 0x80 + w.val * 8) = .ok →
      (fenceSettled s.hw d.val sec.val || !released s.hw d.val) = true →
      Ends (exec (.maskTableWrite m d sec w v) s) fun t =>
        t.hw.rd (K.MASK_SEC_W_BITS d.val sec.val w.val) = v.toNat ∧
        ∀ k : Key, k.id ≠ (K.MASK_SEC_W_BITS d.val sec.val w.val).id → t.hw.rd k = s.hw.rd k)) ∧
  ((∀ (s : State) (d : Die) (col : Fin 12) (spine : Fin 48) (drv : BitVec 16), s.hw.bit (K.RST_DIE_INRESET d.val) = false →
      2 ≤ popCount 16 drv.toNat →
      Ends (exec (.spineContentionDetect d col spine drv) s) fun t =>
        (t.hw.rd (K.SPINE_OFF_OFF d.val col.val)).testBit spine.val = true ∧
        (t.hw.rd (K.SPINE_CSTAT_COL d.val)).testBit col.val = true ∧ t.hw.rd (K.SPINE_CLOG_DRV d.val) = drv.toNat ∧
        t.hw.rd (K.SPINE_CLOG_SPINE d.val) = spine.val ∧ t.hw.rd (K.SPINE_CLOG_COL d.val) = col.val ∧
        t.hw.rd (K.SPINE_CLOG_VALID d.val) = 1 ∧
        (t.hw.die d.val).scrub.repairs = (s.hw.die d.val).scrub.repairs ++ [(col.val, spine.val, drv.toNat)]) ∧
    (∀ (s : State) (d : Die) (col : Fin 12) (spine : Fin 48) (drv : Nat) (rest : List (Nat × Nat × Nat)) (uncorr : Bool),
      (s.hw.die d.val).scrub.repairs = (col.val, spine.val, drv) :: rest → inA3 s.hw = false →
      s.hw.bit (K.SCRUB_CTL_EN d.val) = true →
      Ends (exec (.spineRepairComplete d uncorr) s) fun t => (t.hw.die d.val).scrub.repairs = rest ∧
        (∀ k ∈ spineFrames col.val, frameErrOf t.hw d.val k ≠ 1) ∧
        (uncorr = false → (∀ k ∈ spineFrames col.val, frameErrOf s.hw d.val k ≠ 2) → spineDrivers s.hw d.val col.val spine.val ≤ 1 →
          (t.hw.rd (K.SPINE_OFF_OFF d.val col.val)).testBit spine.val = false) ∧
        (uncorr = true → (col.val, spine.val, drv) ∈ (t.hw.die d.val).scrub.down ∧ t.hw.rd (K.SPINE_OFF_OFF d.val col.val) = s.hw.rd (K.SPINE_OFF_OFF d.val col.val))))

/-- The scrubber walks the frames, skips fenced sectors, hands zeros over for masked frames, counts and repairs a
single error and fences an uncorrectable frame where asked to; a stuck sequencer restarts (R311 to R316). The digests:
after a complete pass the die digest and its epoch are computed and ready if no lift or load came between; a
recomputation of the hub or device digest advances its epoch (R319 to R323). Said where no load waits for a digest. -/
def Obligations.ScrubberAndDigests : Prop :=
  ((∀ (s : State) (d : Die) (seen : FrameSeen) (sec f : Nat), sec = s.hw.rd (K.SCRUB_STAT_SECTOR d.val) →
      f = s.hw.rd (K.SCRUB_STAT_FRAME d.val) → s.hw.bit (K.RST_DIE_INRESET d.val) = false → scrubPause s.hw d.val = 0 →
      sec < 191 → f < 1023 →
      (s.hw.bit (K.FENCE_SEC_FENCE d.val sec) = true → Ends (exec (.scrubFrame d seen) s) fun t =>
        t.hw.rd (K.SCRUB_STAT_SECTOR d.val) = sec + 1 ∧ t.hw.rd (K.SCRUB_STAT_FRAME d.val) = 0 ∧
        t.hw.rd (K.SCRUB_STAT_INCOMPLETE d.val) = 1) ∧
      (s.hw.bit (K.FENCE_SEC_FENCE d.val sec) = false →
        ((s.hw.rd (K.MASK_SEC_W_BITS d.val sec (f / 64))).testBit (f % 64) = true → Ends (exec (.scrubFrame d seen) s) fun t =>
          (t.hw.die d.val).scrub.acc = 0 :: (s.hw.die d.val).scrub.acc ∧ t.hw.rd (K.SCRUB_STAT_FRAME d.val) = f + 1) ∧
        ((s.hw.rd (K.MASK_SEC_W_BITS d.val sec (f / 64))).testBit (f % 64) = false → frameErrOf s.hw d.val (1024 * sec + f) ≠ 2 →
          seen ≠ .uncorr → Ends (exec (.scrubFrame d seen) s) fun t =>
            (t.hw.die d.val).scrub.acc = frameOf s.hw d.val (1024 * sec + f) :: (s.hw.die d.val).scrub.acc ∧
            t.hw.rd (K.SCRUB_STAT_FRAME d.val) = f + 1) ∧
        ((s.hw.rd (K.MASK_SEC_W_BITS d.val sec (f / 64))).testBit (f % 64) = false → frameErrOf s.hw d.val (1024 * sec + f) ≠ 2 →
          seen = .single → frameRefused s.hw d.val (1024 * sec + f) (frameOf s.hw d.val (1024 * sec + f)) = false →
          Ends (exec (.scrubFrame d seen) s) fun t => frameErrOf t.hw d.val (1024 * sec + f) = 0 ∧
            t.hw.rd (K.SCRUB_COUNT_CORR d.val) = min (2 ^ (K.SCRUB_COUNT_CORR d.val).w - 1) (s.hw.rd (K.SCRUB_COUNT_CORR d.val) + 1)) ∧
        ((s.hw.rd (K.MASK_SEC_W_BITS d.val sec (f / 64))).testBit (f % 64) = false → seen = .uncorr →
          Ends (exec (.scrubFrame d seen) s) fun t =>
            frameErrOf t.hw d.val (1024 * sec + f) = 2 ∧ t.hw.rd (K.SCRUB_STAT_UNCORR d.val) = 1 ∧
            t.hw.rd (K.SCRUB_UNCLOG_FADDR d.val) = d.val * 2 ^ 18 + (1024 * sec + f) ∧
            (s.hw.bit (K.SCRUB_CTL_FENCEUNC d.val) = true → t.hw.rd (K.FENCE_SEC_FENCE d.val sec) = 1)))) ∧
    (∀ (s : State) (d : Die), s.hw.bit (K.RST_DIE_INRESET d.val) = false → scrubPause s.hw d.val = 0 →
      Ends (exec (.scrubStuckTimeout d) s) fun t => t.hw.rd (K.SCRUB_STAT_STUCK d.val) = 1 ∧
        t.hw.rd (K.SCRUB_STAT_SECTOR d.val) = 0 ∧ t.hw.rd (K.SCRUB_STAT_FRAME d.val) = 0 ∧
        t.hw.rd (K.SCRUB_STAT_INCOMPLETE d.val) = 0 ∧ (t.hw.die d.val).scrub.acc = [])) ∧
  ((∀ (s : State) (d : Die) (fresh : Bool), (s.hw.die d.val).scrub.passDone = some fresh → s.hw.ldr.load = none →
      Ends (exec (.dieDigestCompute d) s) fun t =>
        (∀ w, w < 4 → t.hw.rd (K.ASSAY_DIG_DIG d.val w) = dieDigest s.hw d.val / 2 ^ (64 * w) % 2 ^ 64) ∧
        t.hw.rd (K.ASSAY_STAT_EPOCH d.val) = (s.hw.rd (K.ASSAY_STAT_EPOCH d.val) + 1) % 2 ^ 32 ∧
        t.hw.bit (K.ASSAY_STAT_MATCH d.val) = ((s.hw.die d.val).intended == some (dieDigest s.hw d.val)) ∧
        (fresh = true → t.hw.rd (K.ASSAY_STAT_READY d.val) = 1) ∧ (t.hw.die d.val).scrub.passDone = none ∧
        t.hw.assay.devDue = true) ∧
    (∀ s : State, s.hw.assay.hubDue = true → Ends (exec .hubDigestRecompute s) fun t =>
      (∀ w, w < 4 → t.hw.rd (K.CFG_ASSAYHUB_DIG w) = hubDigest s.hw / 2 ^ (64 * w) % 2 ^ 64) ∧
      t.hw.rd K.CFG_ASSAYHUBEP_EPOCH = (s.hw.rd K.CFG_ASSAYHUBEP_EPOCH + 1) % 2 ^ 32 ∧ t.hw.assay.hubDue = false ∧
      t.hw.assay.devDue = true) ∧
    (∀ s : State, s.hw.assay.devDue = true → Ends (exec .deviceDigestRecompute s) fun t =>
      t.hw.rd K.CFG_ASSAYSTAT_DEVEPOCH = (s.hw.rd K.CFG_ASSAYSTAT_DEVEPOCH + 1) % 2 ^ 32 ∧ t.hw.assay.devDue = false ∧
      t.hw.bit K.CFG_ASSAYSTAT_DEVREADY = (List.range 4).all fun n => s.hw.bit (K.ASSAY_STAT_READY n)))

/-- A fabric PLL locks, misses its lock limit, or loses lock: LOCK, LOLS and the source of its outputs follow (R100, R101).
Said of the lock where no load waits for PLLs. -/
def Obligations.FabricPlls : Prop :=
  (∀ (s : State) (d : Die) (i : Fin 16), dieUp s.hw d.val = true → pllHasRef s.hw d.val i.val = true → s.hw.ldr.load = none →
    (s.hw.pll d.val i.val = .acquiring ∨ s.hw.pll d.val i.val = .freeRunning) →
    Ends (exec (.fpllLock d i) s) fun t =>
      t.hw.pll d.val i.val = .locked ∧ t.hw.rd (K.CLK_PLL_STAT_LOCK d.val i.val) = 1) ∧
  (∀ (s : State) (d : Die) (i : Fin 16), dieUp s.hw d.val = true →
    (s.hw.pll d.val i.val = .acquiring → Ends (exec (.fpllLockTimeout d i) s) fun t =>
      t.hw.pll d.val i.val = .acquiring ∧ t.hw.rd (K.CLK_PLL_STAT_LOLS d.val i.val) = 1) ∧
    (s.hw.pll d.val i.val = .locked → Ends (exec (.fpllLockLoss d i) s) fun t =>
      t.hw.pll d.val i.val = .freeRunning ∧ t.hw.rd (K.CLK_PLL_STAT_LOLS d.val i.val) = 1 ∧
      t.hw.rd (K.CLK_PLL_STAT_LOCK d.val i.val) = 0))

/-- A network's switch: a select change, of SEL or of what the fabric's select input can present, starts it, it parks low at a falling edge of the old source or, with the source dead,
at the limit, and then passes the new source; a new source that stays dead is reported (R105). -/
def Obligations.ClockSwitches : Prop :=
  (∀ (s : State) (d : Die) (m : Net) (who : Master) (v : Bool), csrGate s.hw who true (K.CLK_NET_SRC_SEL d.val m.val).addr = .ok →
    (s.hw.net d.val m.val).sw = .idle → s.hw.bit (K.CLK_NET_SRC_SELSRC d.val m.val) = false →
    b2n v ≠ s.hw.rd (K.CLK_NET_STAT_ACTIVE d.val m.val) →
    Ends (exec (.clockSwitchStart d m (.selWrite who v)) s) fun t =>
      (t.hw.net d.val m.val).sw = .waitOld ∧ (t.hw.net d.val m.val).target = b2n v ∧
      (t.hw.net d.val m.val).cur = (s.hw.net d.val m.val).cur ∧ t.hw.rd (K.CLK_NET_STAT_SWITCHING d.val m.val) = 1) ∧
  (∀ (s : State) (d : Die) (m : Net) (v : Bool), dieUp s.hw d.val = true → (s.hw.net d.val m.val).sw = .idle →
    s.hw.bit (K.CLK_NET_SRC_SELSRC d.val m.val) = true →
    b2n (presentable s.hw d.val (.fsel m.val) v) ≠ s.hw.rd (K.CLK_NET_STAT_ACTIVE d.val m.val) →
    Ends (exec (.clockSwitchStart d m (.fabricSelect v)) s) fun t =>
      (t.hw.net d.val m.val).sw = .waitOld ∧ (t.hw.net d.val m.val).target = b2n (presentable s.hw d.val (.fsel m.val) v) ∧
      t.hw.rd (K.CLK_NET_STAT_SWITCHING d.val m.val) = 1) ∧
  (∀ (s : State) (d : Die) (m : Net), (s.hw.net d.val m.val).sw = .waitOld →
    (sourceLive s.hw d.val (s.hw.net d.val m.val).cur = true → Ends (exec (.clockSwitchPark d m) s) fun t =>
      (t.hw.net d.val m.val).sw = .parked ∧ (t.hw.net d.val m.val).target = (s.hw.net d.val m.val).target ∧
      netEdges t.hw d.val m.val = false) ∧
    Ends (exec (.clockSwitchDeadsrcTimeout d m) s) (fun t =>
      (t.hw.net d.val m.val).sw = .parked ∧ t.hw.rd (K.CLK_NET_STAT_DEADSRC d.val m.val) = 1)) ∧
  (∀ (s : State) (d : Die) (m : Net), (s.hw.net d.val m.val).sw = .parked →
    (sourceLive s.hw d.val (netSrc s.hw d.val m.val (s.hw.net d.val m.val).target) = true → (s.hw.net d.val m.val).target < 2 →
      Ends (exec (.clockSwitchComplete d m) s) fun t =>
        (t.hw.net d.val m.val).cur = netSrc s.hw d.val m.val (s.hw.net d.val m.val).target ∧
        t.hw.rd (K.CLK_NET_STAT_ACTIVE d.val m.val) = (s.hw.net d.val m.val).target ∧
        t.hw.rd (K.CLK_NET_STAT_NOSRC d.val m.val) = 0 ∧
        ((t.hw.net d.val m.val).sw = .idle ∨ (t.hw.net d.val m.val).sw = .waitOld)) ∧
    Ends (exec (.clockSwitchNosrcTimeout d m) s) (fun t =>
      t.hw.rd (K.CLK_NET_STAT_NOSRC d.val m.val) = 1 ∧ (t.hw.net d.val m.val).sw = .parked))

/-- A commanded hub gate closes and its network is halted; the fabric enable takes the value its input can present; the stake
counters of a die are latched together with the time, and released; a halted network counts no edge (R106 to R109). The gate is said where no core waits for an operation. -/
def Obligations.GatesAndStakes : Prop :=
  (∀ (s : State) (d : Die) (m : Net), (s.hw.net d.val m.val).closing = true → (∀ c : Core, (s.hw.core c.val).dev = none) →
    Ends (exec (.hubGateClose d m) s) fun t =>
      netHalted t.hw d.val m.val = true ∧ (t.hw.net d.val m.val).closing = false) ∧
  (∀ (s : State) (d : Die) (m : Net) (v : Bool), dieUp s.hw d.val = true →
    Ends (exec (.fabricEnableChange d m v) s) fun t => (t.hw.net d.val m.val).fen = presentable s.hw d.val (.fen m.val) v ∧
      (t.hw.net d.val m.val).sw = (s.hw.net d.val m.val).sw ∧ (t.hw.net d.val m.val).cur = (s.hw.net d.val m.val).cur) ∧
  (∀ (s : State) (who : Master) (d : Die), csrGate s.hw who true (K.CLK_STAKELATCH_HELD d.val).addr = .ok →
    Ends (exec (.stakeLatch who d) s) (fun t =>
      t.hw.rd (K.CLK_STAKELATCH_HELD d.val) = 1 ∧
      t.hw.rd (K.CLK_STAKELATCH_TIME d.val) = s.hw.now % 2 ^ (K.CLK_STAKELATCH_TIME d.val).w ∧
      ∀ m, m < 64 → (t.hw.net d.val m).latched = (t.hw.net d.val m).stake) ∧
    Ends (exec (.stakeLatchRelease who d) s) (fun t => t.hw.rd (K.CLK_STAKELATCH_HELD d.val) = 0 ∧ t.hw.clk = s.hw.clk)) ∧
  (∀ (h : Hw) (n : Die) (m : Net), netHalted h n.val m.val = true → ((runDesign h).net n.val m.val).stake = (h.net n.val m.val).stake)

/-- Training takes a seam from RESET over PRBS, REPORT and MAP to LIVE, with the failures and limits of R132, and REJOIN goes
through the same stages: lanes that do not pass are marked, a report is taken, a missing one fails the seam, MAP goes out when
both reports stand, the ends' agreement ends the stage, and the third map without it fails the seam. A message with a bad CRC is
counted and ignored (R129 to R135). -/
def Obligations.SeamTraining : Prop :=
  (∀ (s : State) (n : Die), seamState s.hw n.val = 0 → s.hw.bit (K.SEAM_CTL_EN n.val) = true →
    (endsLive s.hw n.val = true → Ends (exec (.fabricSeamTrainStart n) s) fun t => seamState t.hw n.val = 1) ∧
    (endsLive s.hw n.val = false → Ends (exec (.fabricSeamTrainStart n) s) fun t =>
      seamState t.hw n.val = 0 ∧ t.hw.rd (K.SEAM_STAT_NOHUB n.val) = 1)) ∧
  (∀ (s : State) (k : SeamId) (tests : List LaneTest),
    (stage s.hw k.val = 1 → Ends (exec (.seamResetDone k) s) fun t => stage t.hw k.val = 2) ∧
    (stage s.hw k.val = 2 →
      ((∀ x ∈ tests, lanePasses s.hw k.val x = true) → Ends (exec (.seamPrbsDone ⟨k, tests⟩) s) fun t => stage t.hw k.val = 3) ∧
      ((∃ x ∈ tests, lanePasses s.hw k.val x = false) → exec (.seamPrbsDone ⟨k, tests⟩) s = .next s) ∧
      Ends (exec (.seamPrbsTimeout k tests) s) (fun t => stage t.hw k.val = 3 ∧
        ∀ x ∈ tests, lanePasses s.hw k.val x = false → (t.hw.lane k.val (laneNo x.ln)).failed = true)) ∧
    (stage s.hw k.val = 3 → Ends (exec (.seamReportTimeout k) s) fun t => seamState t.hw k.val = 9) ∧
    (stage s.hw k.val = 4 → Ends (exec (.seamMapTimeout k) s) fun t =>
      if 2 ≤ (s.hw.seamSt k.val).attempts then seamState t.hw k.val = 9
      else stage t.hw k.val = 4 ∧ (t.hw.seamSt k.val).attempts = (s.hw.seamSt k.val).attempts + 1)) ∧
  (∀ (s : State) (k : SeamId) (dir : Fin 2) (body : List Byte) (crc : BitVec 16), endReached s.hw k.val (dir.val == 1) = true →
    (crc16 body = crc.toNat → stage s.hw k.val = 3 → Ends (exec (.seamLrpt k dir body crc) s) fun t =>
      (if dir = 0 then (t.hw.seamSt k.val).report0 else (t.hw.seamSt k.val).report1) = some (ofBytes body) ∧
      (let other := if dir = 0 then (s.hw.seamSt k.val).report1 else (s.hw.seamSt k.val).report0
       (other = none → stage t.hw k.val = 3) ∧
       (other ≠ none → stage t.hw k.val = 4 ∧ (t.hw.seamSt k.val).attempts = 0 ∧
         ∃ b, (t.hw.seamSt k.val).msg = some (.map b (crc16 b))))) ∧
    (crc16 body ≠ crc.toNat → Ends (exec (.seamLrpt k dir body crc) s) fun t => stage t.hw k.val = stage s.hw k.val ∧
      t.hw.rd (K.SEAM_STAT_CRCERR k.val) = min 255 (s.hw.rd (K.SEAM_STAT_CRCERR k.val) + 1) ∧ t.hw.seam = s.hw.seam)) ∧
  (∀ (s : State) (k : SeamId) (owner : Bool) (received computed : BitVec 16), endReached s.hw k.val owner = true →
    (received ≠ computed → Ends (exec (.seamMack k owner received computed) s) fun t => stage t.hw k.val = stage s.hw k.val ∧
      t.hw.rd (K.SEAM_STAT_CRCERR k.val) = min 255 (s.hw.rd (K.SEAM_STAT_CRCERR k.val) + 1) ∧ t.hw.seam = s.hw.seam) ∧
    (received = computed → stage s.hw k.val = 4 → mackMatches s.hw k.val received computed = true →
      ((if owner then (s.hw.seamSt k.val).mackFar else (s.hw.seamSt k.val).mackOwner) = false →
        Ends (exec (.seamMack k owner received computed) s) fun t => stage t.hw k.val = 4 ∧
          (if owner then (t.hw.seamSt k.val).mackOwner else (t.hw.seamSt k.val).mackFar) = true) ∧
      ((if owner then (s.hw.seamSt k.val).mackFar else (s.hw.seamSt k.val).mackOwner) = true →
        Ends (exec (.seamMack k owner received computed) s) fun t =>
          (seamState s.hw k.val = 8 → seamState t.hw k.val = 8 ∧ stage t.hw k.val = 5) ∧
          (seamState s.hw k.val ≠ 8 → (t.hw.seamSt k.val).trained = true) ∧
          (seamState s.hw k.val ≠ 8 → k.val < 4 →
            seamState t.hw k.val = 5 ∨ (seamState t.hw k.val = 6 ∧ (t.hw.seamSt k.val).planDue = true)) ∧
          (seamState s.hw k.val ≠ 8 → 4 ≤ k.val → seamState t.hw k.val = 5 ∨ seamState t.hw k.val = 9))))

/-- The eye monitor records the margins and errors of the lanes measured, a finished spare swap puts the spare in use, and an
abrupt failure is shown (R136 to R138). A degrade plan that fits is applied and the seam is LIVE again, none fails a seam that
needs one; a binding whose networks agree aligns with DELTA, the offset of its two stake counters; a seam that rejoins is LIVE or
waits for a plan (R120, R124, R142 to R148). -/
def Obligations.SeamLanesAndRecovery : Prop :=
  ((∀ (s : State) (k : SeamId) (dir : Fin 2) (g : Fin 128) (lanes : List (Fin 17 × Fin 64 × Nat)), seamLive s.hw k.val = true →
      Ends (exec (.eyeMeasure k dir g lanes) s) fun t => ∀ x ∈ lanes, ∀ i, i = laneNo ⟨dir, g, x.1⟩ →
        laneExists k.val ⟨dir, g, x.1⟩ = true → (s.hw.lane k.val i).failed = false → (∀ y ∈ lanes, y.1 = x.1 → y = x) →
        (t.hw.lane k.val i).margin = x.2.1.val ∧
        (t.hw.lane k.val i).minMargin = min (s.hw.lane k.val i).minMargin x.2.1.val) ∧
    (∀ (s : State) (k : SeamId) (dir : Fin 2) (g : Fin 128) (l : Nat), swapping s.hw k.val dir.val g.val = some l → l < 16 →
      Ends (exec (.spareSwapComplete k dir g) s) fun t =>
        t.hw.rd (K.SEAM_GRP_STAT_SPARE k.val dir.val g.val) = 2 ∧ t.hw.rd (K.SEAM_GRP_STAT_SPARELANE k.val dir.val g.val) = l ∧
        ∀ e ∈ (t.hw.seamSt k.val).swaps, e.1 ≠ dir.val * 128 + g.val) ∧
    (∀ (s : State) (k : SeamId) (ln : LaneRef), (seamLive s.hw k.val = true ∨ seamState s.hw k.val = 6) →
      laneExists k.val ln = true → (s.hw.lane k.val (laneNo ln)).failed = false →
      Ends (exec (.laneAbruptFail k ln) s) fun t =>
        t.hw.rd (K.SEAM_STAT_LOSSY k.val) = 1 ∧ t.hw.rd (K.SEAM_GRP_STAT_LOSSY k.val ln.dir.val ln.g.val) = 1 ∧
        (isRetired s.hw k.val ln.dir.val ln.g.val = false → (t.hw.lane k.val (laneNo ln)).failed = true))) ∧
  ((∀ (s : State) (n : Die), seamState s.hw n.val = 6 → (s.hw.seamSt n.val).planDue = true →
      (choosePlan s.hw n.val = none → Ends (exec (.degradePlanApply n) s) fun t =>
        seamState t.hw n.val = (if planNeeded s.hw n.val then 9 else 5) ∧ (t.hw.seamSt n.val).planDue = false) ∧
      (∀ p, choosePlan s.hw n.val = some p → Ends (exec (.degradePlanApply n) s) fun t =>
        seamState t.hw n.val = 5 ∧ (t.hw.seamSt n.val).plan = some p ∧ (t.hw.seamSt n.val).planDue = false ∧
        ((s.hw.seamSt n.val).plan ≠ some p → t.hw.rd (K.SEAM_STAT_PLAN n.val) = planIndex p + 1))) ∧
    (∀ (s : State) (n : Die) (dir : Fin 2) (b : Fin 16) (delta : BitVec 48) (tx rx : Nat), seamLive s.hw n.val = true →
      bindEn s.hw (n.val, dir.val, b.val) = true → s.hw.bit (K.SEAM_BIND_STAT_ALIGNED n.val dir.val b.val) = false →
      bindOk s.hw n.val dir.val b.val = true → released s.hw n.val = true → released s.hw (farDie n.val) = true →
      tx = txNet s.hw (n.val, dir.val, b.val) → rx = rxNet s.hw (n.val, dir.val, b.val) →
      bindOffset (runDesign s.hw) (n.val, dir.val, b.val) = delta.toNat →
      Ends (exec (.bindingAlign n dir b delta) s) fun t => t.hw.rd (K.SEAM_BIND_STAT_DELTA n.val dir.val b.val) = delta.toNat ∧
        t.hw.rd (K.SEAM_BIND_STAT_ALIGNED n.val dir.val b.val) = 1 ∧
        SMap.get (t.hw.seamSt n.val).deltas (dir.val * 16 + b.val) 0 = t.hw.rd (K.SEAM_BIND_STAT_DELTA n.val dir.val b.val) + 1 ∧
        ((∀ n m, n < 4 → m < 64 → netHalted s.hw n m = true) → delta.toNat =
          ((s.hw.net (rx / 64) (rx % 64)).stake + 2 ^ 48 - (s.hw.net (tx / 64) (tx % 64)).stake) % 2 ^ 48)) ∧
    (∀ (s : State) (n : Die), seamState s.hw n.val = 8 → stage s.hw n.val = 5 →
      Ends (exec (.seamRejoin n false) s) fun t =>
        seamState t.hw n.val = 5 ∨ (seamState t.hw n.val = 6 ∧ (t.hw.seamSt n.val).planDue = true)) ∧
    (∀ (s : State) (n : Die), seamState s.hw n.val = 8 →
      Ends (exec (.seamRejoin n true) s) fun t => seamState t.hw n.val = 9))

/-- The sources of triggers register a trigger with the moment of its registration; a die it reaches takes it into a slot with
a CAPID or refuses it with a status and a count; edges and timeouts are recorded network by network; the drain follows the
last of them, and the ends of drains and restores set LAST and free the engine (R151 to R155, R162, R164). -/
def Obligations.StrataEvents : Prop :=
  (∀ (s : State) (d : Die) (line : Fin 16), dieUp s.hw d.val = true → released s.hw d.val = true →
    s.hw.bit (K.STRATA_TRIG_EN d.val line.val) = true → isFenced s.hw d.val (SitePin.trig line.val).sector = false →
    s.hw.rd (K.STRATA_TRIG_DIES d.val line.val) % 16 ≠ 0 →
    Ends (exec (.fabricTrigger d line) s) fun t => t.hw.strata.inFlight = s.hw.strata.inFlight ++ [⟨s.hw.now, 0,
      16 * d.val + line.val, s.hw.rd (K.STRATA_TRIG_PROFILE d.val line.val) % 8, s.hw.rd (K.STRATA_TRIG_DIES d.val line.val) % 16, none, 0⟩]) ∧
  (∀ (s : State) (j : Fin 4), s.hw.bit (K.STRATA_TPIN_EN j.val) = true → s.hw.rd (K.STRATA_TPIN_DIES j.val) % 16 ≠ 0 →
    Ends (exec (.trigInPin j) s) fun t => t.hw.strata.inFlight = s.hw.strata.inFlight ++ [⟨s.hw.now, 4, j.val,
      s.hw.rd (K.STRATA_TPIN_PROFILE j.val) % 8, s.hw.rd (K.STRATA_TPIN_DIES j.val) % 16, none, 0⟩]) ∧
  (∀ (s : State) (d : Die) (dies : BitVec 4) (p : Fin 8), dies ≠ 0 →
    (∀ c : Core, csrGate s.hw (.core c) true (K.STRATA_HTRIG_GO d.val).addr = .ok → Ends (exec (.htrigWrite (.core c) d dies p) s) fun t =>
      t.hw.strata.inFlight = s.hw.strata.inFlight ++ [⟨s.hw.now, 1, c.val, p.val, dies.toNat, none, c.val⟩]) ∧
    (∀ f : Func, csrGate s.hw (.host f) true (K.STRATA_HTRIG_GO d.val).addr = .ok → Ends (exec (.htrigWrite (.host f) d dies p) s) fun t =>
      t.hw.strata.inFlight = s.hw.strata.inFlight ++ [⟨s.hw.now, 3, 0, p.val, dies.toNat, none, 0x1000 + f.val⟩]) ∧
    (csrGate s.hw .adit true (K.STRATA_HTRIG_GO d.val).addr = .ok → Ends (exec (.htrigWrite .adit d dies p) s) fun t =>
      t.hw.strata.inFlight = s.hw.strata.inFlight ++ [⟨s.hw.now, 2, 0, p.val, dies.toNat, none, 0x6000⟩]) ∧
    (∀ m : Master, (∀ c, m ≠ .core c) → (∀ f, m ≠ .host f) → m ≠ .adit → Ends (exec (.htrigWrite m d dies p) s) fun t =>
      t.hw.strata = s.hw.strata)) ∧
  (∀ (s : State) (d : Die) (i : Nat) (g : Trigger), s.hw.strata.inFlight[i]? = some g → g.dies.testBit d.val = true →
    s.hw.rd (K.STRATA_PROF_NETS d.val g.profile) ≠ 0 →
    (∀ slot, triggerRefusal s.hw d.val = none → nextSlot s.hw d.val = some slot → Ends (exec (.triggerArrival d i) s) fun t =>
      (∃ x, (t.hw.die d.val).strata = .capture x ∧ x.slot = slot ∧ x.ttime = g.ttime ∧ x.profile = g.profile ∧
        x.capid = g.capid.getD s.hw.strata.nextCapid) ∧ t.hw.rd (K.STRATA_STAT_BUSY d.val) = 1) ∧
    (∀ st, triggerRefusal s.hw d.val = some st → st ≠ 13 → Ends (exec (.triggerArrival d i) s) fun t =>
      t.hw.rd (K.STRATA_STAT_LAST d.val) = st ∧ t.hw.dies = s.hw.dies ∧
      t.hw.rd (K.STRATA_MISSED_COUNT d.val) =
        min (2 ^ (K.STRATA_MISSED_COUNT d.val).w - 1) (s.hw.rd (K.STRATA_MISSED_COUNT d.val) + 1))) ∧
  (∀ (s : State) (d : Die) (m : Net) (x : Capture), (s.hw.die d.val).strata = .capture x → x.waiting.testBit m.val = true →
    (netHalted s.hw d.val m.val = false → netEdges s.hw d.val m.val = true → Ends (exec (.captureNetwork d m) s) fun t =>
      ∃ y, (t.hw.die d.val).strata = .capture y ∧ y.waiting.testBit m.val = false ∧ y.slot = x.slot ∧
        SMap.get y.stake m.val 0 = (t.hw.net d.val m.val).stake) ∧
    Ends (exec (.captureWaitTimeout d m) s) (fun t =>
      ∃ y, (t.hw.die d.val).strata = .capture y ∧ y.waiting.testBit m.val = false ∧ y.missing.testBit m.val = true ∧
        SMap.get y.stake m.val 0 = (s.hw.net d.val m.val).stake ∧ SMap.get y.edge m.val 0 = 0xFFFF ∧
        (t.hw.die d.val).shadow = (s.hw.die d.val).shadow)) ∧
  (∀ (s : State) (d : Die) (x : Capture),
    ((s.hw.die d.val).strata = .capture x → x.waiting = 0 → Ends (exec (.strataDrainStart d) s) fun t =>
      ∃ y, (t.hw.die d.val).strata = .drain y ∧ y.slot = x.slot ∧ t.hw.mem = s.hw.mem) ∧
    ((s.hw.die d.val).strata = .drain x → Ends (exec (.strataDrainComplete d) s) fun t =>
      (t.hw.die d.val).strata = .none ∧ t.hw.rd (K.STRATA_STAT_LAST d.val) = 0 ∧ t.hw.rd (K.STRATA_STAT_BUSY d.val) = 0)) ∧
  (∀ (s : State) (d : Die) (c : Core) (rd : Reg) (slot dest pos : Nat), (s.hw.die d.val).strata = .deep slot dest pos →
    (s.hw.core c.val).dev = some ⟨.drain d, rd, none⟩ → (∀ e : Core, e ≠ c → (s.hw.core e.val).dev = none) →
    isHalted s.hw c.val = false → (s.hw.core c.val).pendErr = none →
    Ends (exec (.deepDrainComplete d) s) fun t => Resumes s t c rd 0 ∧
      (t.hw.die d.val).strata = .none ∧ t.hw.rd (K.STRATA_STAT_LAST d.val) = 0 ∧ t.hw.rd (K.STRATA_STAT_BUSY d.val) = 0) ∧
  (∀ (s : State) (d : Die) (slot mask pos : Nat) (deep bad : Bool), (s.hw.die d.val).strata = .restore slot mask deep pos bad →
    (∀ e : Core, (s.hw.core e.val).dev = none) →
    Ends (exec (.restoreComplete d) s) fun t => (t.hw.die d.val).strata = .none ∧ t.hw.rd (K.STRATA_STAT_BUSY d.val) = 0 ∧
      (t.hw.rd (K.STRATA_STAT_LAST d.val) = 0 ∨ t.hw.rd (K.STRATA_STAT_LAST d.val) = 7 ∨ t.hw.rd (K.STRATA_STAT_LAST d.val) = 10))

/-- A doorbell that passes the checks enters its queue with a ticket; one refused is logged, and that of a fabric port returns
to the port, whose credit copy becomes 0 until an update raises it; enabling a queue leaves it empty, disabling discards its
entries, POP frees the oldest, an affinity mask takes its value, patience lifts an entry one level, the burn limit ends the
item, and a delivery frees its slot once the port has accepted it (R242 to R246, R250 to R252, R257, R261, R262). -/
def Obligations.QueueCommands : Prop :=
  (∀ (s : State) (m : Master) (q : Queue) (d : Desc),
    (∀ n p, m = .fport n p → hasRefused s.hw n.val p.val q.val = false) →
    (qEn s.hw q.val = true → permitted s.hw (.master m) q.val = true → qCred s.hw q.val ≠ 0 →
      (heldBy s.hw q.val < s.hw.rd (K.SCHED_Q_CFG_TRES q.val) ∨ 0 < sharedFree s.hw) → s.hw.sched.held.length < 65536 →
      prioHolds s.hw none (slotAddr s.hw q.val (freeSlot s.hw q.val)) 64 = false →
      Ends (exec (.doorbell m q d) s) fun t => ∃ tk shared, SMap.get t.hw.sched.held tk none = some ⟨q.val, shared⟩ ∧
        t.hw.mem = s.hw.mem.writeN (slotAddr s.hw q.val (freeSlot s.hw q.val)) 64
          (descNat (queuedCopy s.hw q.val (mcode m) tk d)) (allOn 64)) ∧
    (qEn s.hw q.val = false → s.hw.rd K.ERR_POSTMASK_MASK = 0 →
      Ends (exec (.doorbell m q d) s) fun t => t.hw.mem = s.hw.mem ∧ t.hw.sched = s.hw.sched ∧
        t.hw.rd K.ERR_LOGHEAD_TOTAL = (s.hw.rd K.ERR_LOGHEAD_TOTAL + 1) % 2 ^ 32)) ∧
  (∀ (s : State) (n : Die) (p : Port) (q : Queue) (d : Desc), qEn s.hw q.val = true →
    permitted s.hw (.master (.fport n p)) q.val = true → qCred s.hw q.val = 0 →
    Ends (exec (.doorbell (.fport n p) q d) s) fun t => creditCopy t.hw n.val p.val q.val = 0 ∧ t.hw.mem = s.hw.mem ∧
      ∃ r, t.hw.sched.refused = s.hw.sched.refused ++ [r] ∧ fromPort r n.val p.val = true) ∧
  (∀ (s : State) (n : Die) (p : Port) (q : Queue), qEn s.hw q.val = true → qKind s.hw q.val = 2 →
    qIdx s.hw q.val = 8 * n.val + p.val → hasRefused s.hw n.val p.val q.val = false →
    Ends (exec (.fportCreditUpdate n p q) s) fun t =>
      creditCopy t.hw n.val p.val q.val = max (creditCopy s.hw n.val p.val q.val) (qCred s.hw q.val) ∧ t.hw.mem = s.hw.mem) ∧
  (∀ (s : State) (m : Master) (q : Queue), csrGate s.hw m true (qCfgAddr q.val) = .ok →
    (q.val < 256 ∨ s.hw.rd (K.SCHED_Q_CFG_PRIO q.val) ≠ 0) →
    (qEn s.hw q.val = false → CfgFits s.hw q.val → mayEnable s.hw q.val = true → s.hw.rd (K.SCHED_Q_CFG_DEPTH q.val) ≠ 7 →
      kindPermitted s.hw q.val (s.hw.rd (K.SCHED_Q_CFG_OWNKIND q.val)) = true →
      Ends (exec (.queueEnable m q) s) fun t => qEn t.hw q.val = true ∧ (t.hw.queue q.val).entries = []) ∧
    (qEn s.hw q.val = true →
      Ends (exec (.queueDisable m q) s) fun t => qEn t.hw q.val = false ∧ (t.hw.queue q.val).entries = [])) ∧
  (∀ (s : State) (m : Master) (q : Queue) (n : Fin 8192), csrGate s.hw m true (qPtrAddr q.val) = .ok →
    qAuto s.hw q.val = false → qDeliver s.hw q.val = false →
    Ends (exec (.queuePop m q n) s) fun t => (t.hw.queue q.val).entries = (s.hw.queue q.val).entries.filter fun e =>
      !(((s.hw.queue q.val).entries.take n.val).any fun x => x.slot == e.slot)) ∧
  (∀ (s : State) (m : Master) (q : Queue) (mask : BitVec 64), csrGate s.hw m true (qAffAddr q.val) = .ok →
    (qEn s.hw q.val = false ∨ qAuto s.hw q.val = false ∨ mask.toNat / 2 ≠ 0) →
    Ends (exec (.affWrite m q mask) s) fun t => t.hw.rd (K.SCHED_Q_AFF_MASK q.val) = mask.toNat / 2) ∧
  (∀ (s : State) (q : Queue) (age : Nat) (e : QEntry), qEn s.hw q.val = true → s.hw.rd (K.SCHED_Q_CFG_PATIENCE q.val) ≠ 0 →
    e ∈ (s.hw.queue q.val).entries →
    Ends (exec (.shiftChange q age) s) fun t => (e.age ≠ age → e ∈ (t.hw.queue q.val).entries) ∧
      (e.age = age → 2 ≤ e.level → s.hw.rd (K.SCHED_Q_CFG_PATIENCE q.val) * 800 < s.hw.now - e.joined →
        { e with level := e.level - 1, joined := s.hw.now } ∈ (t.hw.queue q.val).entries)) ∧
  (∀ (s : State) (c : Core) (i : Item), (s.hw.core c.val).item = some i → (s.hw.core c.val).ending = none →
    isHalted s.hw c.val = false → s.hw.rd K.ERR_POSTMASK_MASK = 0 → (s.hw.core c.val).stores ≠ [] → s.hw.sched.heldWrites = [] →
    Ends (exec (.burnLimitAbort c) s) fun t => (t.hw.core c.val).ending.map (·.cause) = some 0x0A ∧
      t.hw.rd (K.CREW_CORE_BURN_COUNT c.val) = s.hw.rd (K.CREW_CORE_BURN_LIMIT c.val) % 2 ^ (K.CREW_CORE_BURN_COUNT c.val).w ∧ (t.hw.core c.val).dev = none ∧
      t.hw.rd (K.CORE_EPC_EPC c.val) = s.hw.rd (K.CORE_EPC_EPC c.val)) ∧
  (∀ (s : State) (q : Queue) (e : QEntry) (n p : Nat), qEn s.hw q.val = true → qDeliver s.hw q.val = true →
    qKind s.hw q.val = 2 → qIdx s.hw q.val = 8 * n + p → n < 4 → p < 8 → s.hw.bit (K.FPORT_STAT_OFFLINE n p) = false →
    s.hw.bit (K.FPORT_CTL_EN n p) = true → s.hw.bit (K.FPORT_STAT_STALLED n p) = false →
    ((s.hw.queue q.val).entries.find? fun e => !inDelivery s.hw q.val e.age) = some e →
    Ends (exec (.fportDelivery q) s) fun t => t.hw.sched.delivering = s.hw.sched.delivering ++ [(q.val, e.age)]) ∧
  (∀ (s : State) (q : Queue) (e : QEntry), (s.hw.sched.delivering.find? fun x => x.1 == q.val) = some (q.val, e.age) →
    ((s.hw.queue q.val).entries.find? fun x => x.age == e.age) = some e →
    Ends (exec (.fportDeliveryAccept q) s) fun t => t.hw.sched.delivering = s.hw.sched.delivering.erase (q.val, e.age) ∧
      ∀ x ∈ (t.hw.queue q.val).entries, x.slot ≠ e.slot)

/-- The loader takes a request from Q0, judges the Legend, lays checked segments into the workspace, hears the image program,
and ends with its codes: LOCKFAIL, STALL, CLEAR with LOADERR, and the golden fallback (R277 to R283, R296). -/
def Obligations.LoaderStages : Prop :=
  (∀ (s : State) (e : QEntry), loaderRuns s.hw = true → s.hw.ldr.load = none → qEn s.hw 0 = true → qAuto s.hw 0 = false →
    oldest s.hw 0 = some e → (slotDesc s.hw 0 e.slot).w7.toNat ≠ (Src.event 0).code →
    (slotDesc s.hw 0 e.slot).w2.toNat.testBit 0 = true →
    Ends (exec .loadRequest s) fun t => loadStage t.hw = 1 ∧ t.hw.pins.cfgErr = false ∧ (∀ n, n < 4 → qEn t.hw (252 + n) = true) ∧
      t.hw.ldr.load = some { src := .hub (slotDesc s.hw 0 e.slot).w1.toNat, reply := replyOf (slotDesc s.hw 0 e.slot) }) ∧
  (∀ (s : State) (l : Load) (op head b : List Byte), loaderRuns s.hw = true → s.hw.ldr.load = some l → l.fail = none →
    loadStage s.hw = 1 → sourceBytes s.hw l 0 4096 op = some (head, .ok, s.hw) →
    sourceBytes s.hw l 0 (4096 + 128 * segCount head) op = some (b, .ok, s.hw) →
    Ends (exec (.legendCheck op) s) fun t =>
      match legendFails s.hw l b with
      | some code => loadStage t.hw = 7 ∧ t.hw.ldr.load.bind (·.fail) = some (code, 0, 0, 0)
      | none => loadStage t.hw = 2 ∧ (t.hw.ldr.load.bind (·.legend)).map (·.dir) = readDir (segCount b) (b.drop 4096)) ∧
  (∀ (s : State) (l : Load) (g : Legend) (e : DirEnt) (op b : List Byte), loaderRuns s.hw = true →
    s.hw.ldr.load = some l → l.fail = none → l.legend = some g → g.dir[l.seg]? = some e →
    (loadStage s.hw = 2 ∨ loadStage s.hw = 3) → sourceBytes s.hw l e.offset e.len op = some (b, .ok, s.hw) →
    (e.frames = true → (s.hw.die e.range.1).eng.claim = none → Ends (exec (.segmentComplete op) s) fun t =>
      match openSegment s.hw g l.seg e b with
      | .error code => loadStage t.hw = 7 ∧ t.hw.ldr.load.bind (·.fail) = some (code, 0, l.seg, e.faddr)
      | .ok _ => l.seg + 1 < g.dir.length → t.hw.keys.image = s.hw.keys.image.map (fun k => keyNext k e.tag) ∧
          (t.hw.ldr.load.map (·.seg) = some (l.seg + 1) ∨
            loadStage t.hw = 7 ∧ ∃ st k, t.hw.ldr.load.bind (·.fail) = some (0x0F, st, l.seg, k))) ∧
    (e.frames = false → prioHolds s.hw none (workBase s.hw + l.progLen) e.len = false → Ends (exec (.segmentComplete op) s) fun t =>
      match openSegment s.hw g l.seg e b with
      | .error code => loadStage t.hw = 7 ∧ t.hw.ldr.load.bind (·.fail) = some (code, 0, l.seg, e.faddr) ∧ t.hw.mem = s.hw.mem
      | .ok p => l.seg + 1 < g.dir.length →
          t.hw.ldr.load.map (·.seg) = some (l.seg + 1) ∧ t.hw.ldr.load.map (·.progLen) = some (l.progLen + e.len) ∧
          t.hw.keys.image = s.hw.keys.image.map (fun k => keyNext k e.tag) ∧
          t.hw.mem = s.hw.mem.writeN (workBase s.hw + l.progLen) e.len (ofBytes p) (allOn e.len))) ∧
  (∀ (s : State) (l : Load), loaderRuns s.hw = true → s.hw.ldr.load = some l → l.fail = none →
    (loadStage s.hw = 4 → s.hw.pc 0 = l.ret → (s.hw.core 0).dev = none → s.hw.g 0 1 ≠ 0 →
      Ends (exec .imageProgramReturn s) fun t => loadStage t.hw = 7 ∧ t.hw.ldr.load.bind (·.fail) = some (0x10, 0xFF, l.seg, 0)) ∧
    (∀ g, l.legend = some g → loadStage s.hw = 4 → s.hw.pc 0 = l.ret → (s.hw.core 0).dev = none → s.hw.g 0 1 = 0 →
      locksOk s.hw g = false → g.verify = false → Ends (exec .imageProgramReturn s) fun t => loadStage t.hw = 5) ∧
    (∀ g, l.legend = some g → loadStage s.hw = 5 → locksOk s.hw g = false → Ends (exec .loadVerifyTimeout s) fun t =>
      loadStage t.hw = 7 ∧ t.hw.ldr.load.bind (·.fail) = some (0x11, 0, l.seg, 0)) ∧
    ((loadStage s.hw = 1 ∨ loadStage s.hw = 2 ∨ loadStage s.hw = 3) → Ends (exec .loadSourceStall s) fun t =>
      loadStage t.hw = 7 ∧ t.hw.ldr.load.bind (·.fail) = some (0x13, 0, l.seg, 0))) ∧
  (∀ (s : State) (l : Load) (code detail seg faddr : Nat), loaderRuns s.hw = true → s.hw.ldr.load = some l →
    l.fail = some (code, detail, seg, faddr) → (∀ a, l.src ≠ .boot a true) → l.kind ≠ 2 → code ≠ 5 → code ≠ 6 → code ≠ 0x15 →
    (goldenOn s.hw = false → l.reply = none → code < 256 → Ends (exec .loadClearComplete s) fun t =>
      t.hw.ldr.load = none ∧ loadStage t.hw = 0 ∧ t.hw.pins.cfgErr = true ∧ t.hw.rd K.CFG_LOADERR_CODE = code) ∧
    (goldenOn s.hw = true → Ends (exec .loadClearComplete s) fun t => loadStage t.hw = 1 ∧
      t.hw.ldr.load = some { src := .boot (goldenAddr s.hw) true, reply := l.reply, primary := some code } ∧
      t.hw.rd K.CFG_LOAD_GOLDEN = 1))

/-- A write of RELEASE in stage RELEASE releases the dies it names; the load ports and the boot flash deliver their bytes; the
commit register commits, refuses or defers its group, and deferred settings follow (R286, R289, R291, R293, R301). -/
def Obligations.ReleaseAndPorts : Prop :=
  (∀ (s : State) (m : Master) (dies : BitVec 4) (l : Load) (g : Legend),
    csrGate s.hw m true K.CFG_RELEASE_DIES.addr = .ok → s.hw.ldr.load = some l → l.legend = some g →
    (loadStage s.hw = 6 → Ends (exec (.releaseWrite m dies) s) fun t => ∀ n, n < 4 → dies.toNat.testBit n = true →
      s.hw.bit (K.RST_DIE_INRESET n) = false → released t.hw n = true) ∧
    (loadStage s.hw ≠ 6 → Ends (exec (.releaseWrite m dies) s) fun t =>
      ∀ n, n < 4 → released t.hw n = released s.hw n ∧ t.hw.die n = s.hw.die n)) ∧
  (∀ (s : State) (w : BitVec 32), hubRuns s.hw = true → plpReady s.hw = true → s.hw.ldr.load = none →
    (s.hw.ldr.plp.active = true → Ends (exec (.plpWord w) s) fun t =>
      t.hw.ldr.plp.bytes = s.hw.ldr.plp.bytes ++ toBytes 4 w.toNat) ∧
    (s.hw.ldr.plp.active = false → s.hw.ldr.plp.bytes = [] → w.toNat = 0x4C484943 → Ends (exec (.plpWord w) s) fun t =>
      t.hw.ldr.plp.active = true ∧ t.hw.ldr.plp.bytes = toBytes 4 w.toNat) ∧
    (s.hw.ldr.plp.active = false → w.toNat ≠ 0x4C484943 → Ends (exec (.plpWord w) s) fun t => t = s)) ∧
  (∀ (s : State) (b : List Byte), hubRuns s.hw = true → s.hw.ldr.load = none →
    (s.hw.ldr.slp.active = true → s.hw.ldr.slp.posted = false → b.length ≤ ringFree s.hw.ldr.slp → b.length ≤ 4096 →
      Ends (exec (.slpWrite b) s) fun t => t.hw.ldr.slp.bytes = s.hw.ldr.slp.bytes ++ b) ∧
    (4096 < b.length ∨ s.hw.ldr.slp.active = false ∧ fromMagic (b.length / 4) b = [] → Ends (exec (.slpWrite b) s) fun t => t = s)) ∧
  (∀ (s : State), Ends (exec .slpStatus s) fun t =>
    t.hw.ldr.slpStatus = b2n (slpSpace s.hw) + 2 * b2n (loadStage s.hw != 0) + 4 * b2n s.hw.pins.cfgErr + 8 * b2n s.hw.pins.done ∧
    t.hw.csr = s.hw.csr ∧ t.hw.pins = s.hw.pins) ∧
  (∀ (s : State) (cmd : Byte), Ends (exec (.slpOtherCommand cmd) s) fun t => t = s) ∧
  (∀ (s : State) (l : Load) (a : Nat) (golden : Bool) (b : List Byte), s.hw.ldr.load = some l → l.src = .boot a golden →
    1 ≤ loadStage s.hw → loadStage s.hw ≤ 3 →
    Ends (exec (.bootFlashBurst b) s) fun t => t.hw.ldr.boot = if b.length = 4096 then s.hw.ldr.boot ++ b else s.hw.ldr.boot) ∧
  (∀ (s : State) (m : Master) (group : BitVec 16), csrGate s.hw m true K.CFG_COMMIT_GO.addr = .ok →
    (groupOf s.hw group.toNat = none → Ends (exec (.cfgCommitGo m group) s) fun t =>
      t.hw.rd K.CFG_COMMIT_STATUS = csBadgroup ∧ t.hw.rd K.CFG_COMMIT_GROUP = group.toNat) ∧
    (∀ g, groupOf s.hw group.toNat = some g →
      (g.die.elim false (fun n => s.hw.bit (K.RST_DIE_INRESET n)) = true → Ends (exec (.cfgCommitGo m group) s) fun t =>
        t.hw.rd K.CFG_COMMIT_STATUS = csOffline ∧ t.hw.ldr.deferred = s.hw.ldr.deferred) ∧
      (g.die.elim false (fun n => s.hw.bit (K.RST_DIE_INRESET n)) = false → groupBusy s.hw g = true →
        Ends (exec (.cfgCommitGo m group) s) fun t => t.hw.rd K.CFG_COMMIT_STATUS = csDeferred ∧ group.toNat ∈ t.hw.ldr.deferred) ∧
      (g.die.elim false (fun n => s.hw.bit (K.RST_DIE_INRESET n)) = false → groupBusy s.hw g = false →
        Ends (exec (.cfgCommitGo m group) s) fun t => ∃ n, t.hw.rd K.CFG_COMMIT_CLAMPS = min n 255 ∧
          t.hw.rd K.CFG_COMMIT_STATUS = if n = 0 then csOk else csClamped)) ∧
    (groupOf s.hw group.toNat = some .pwr → groupBusy s.hw .pwr = false → Ends (exec (.cfgCommitGo m group) s) fun t =>
      t.hw.rd K.PWR_CTL_THROTTLE = s.hw.sh K.PWR_CTL_THROTTLE % 256 ∧
      t.hw.rd K.PWR_CTL_WARN = min (s.hw.sh K.PWR_CTL_WARN) (s.hw.sh K.PWR_CTL_THROTTLE) % 256)) ∧
  (∀ (s : State) (group : BitVec 16),
    (group.toNat ∉ s.hw.ldr.deferred ∨ (∃ g, groupOf s.hw group.toNat = some g ∧ groupBusy s.hw g = true) →
      Ends (exec (.commitDeferredApply group) s) fun t => t = s) ∧
    (∀ g, groupOf s.hw group.toNat = some g → group.toNat ∈ s.hw.ldr.deferred → groupBusy s.hw g = false →
      Ends (exec (.commitDeferredApply group) s) fun t => t.hw = takeSettings { s.hw with
        ldr := { s.hw.ldr with deferred := s.hw.ldr.deferred.filter (· != group.toNat) } } g)) ∧
  (∀ (s : State) (group : BitVec 16), groupOf s.hw group.toNat = some .pwr → group.toNat ∈ s.hw.ldr.deferred →
    groupBusy s.hw .pwr = false → Ends (exec (.commitDeferredApply group) s) fun t =>
      t.hw.rd K.PWR_CTL_THROTTLE = s.hw.sh K.PWR_CTL_THROTTLE % 256 ∧ group.toNat ∉ t.hw.ldr.deferred)

/-- The qualifier counts windows and qualifies the crystal after eight that pass; the survey PLL starts GRIDTIME; fuses are
sensed, options loaded, memories filled and the foreman started in the order of the cold sequence (R90, R91, R421, R441 to
R446, R480). -/
def Obligations.StartSequence : Prop :=
  (∀ (s : State) (n : Nat), s.hw.clk.counting = true → s.hw.clk.stable = false →
    (windowPasses s.hw (min n 0x7FF) = false → Ends (exec (.qualWindow n) s) fun t =>
      t.hw.rd K.CLK_XQUAL_RUN = 0 ∧ t.hw.rd K.CLK_XQUAL_LASTCNT = min n 0x7FF) ∧
    (windowPasses s.hw (min n 0x7FF) = true → s.hw.rd K.CLK_XQUAL_RUN < 7 → Ends (exec (.qualWindow n) s) fun t =>
      t.hw.rd K.CLK_XQUAL_RUN = s.hw.rd K.CLK_XQUAL_RUN + 1 ∧ t.hw.clk.stable = false) ∧
    (windowPasses s.hw (min n 0x7FF) = true → s.hw.rd K.CLK_XQUAL_RUN = 7 → s.hw.rst.phase = .crystal →
      Ends (exec (.qualWindow n) s) fun t =>
        t.hw.clk.stable = true ∧ t.hw.rst.phase = .pll ∧ t.hw.rd K.CLK_STAT_SRC = 1 ∧ t.hw.rd K.CLK_XQUAL_RUN = 8)) ∧
  (∀ (s : State), inPhase s.hw .crystal = true → Ends (exec .crystalQualTimeout s) fun t =>
    t.hw.rd K.CLK_STAT_XABSENT = 1 ∧ t.hw.rd K.CLK_STAT_SRC = 0 ∧ t.hw.rst.phase = .pll) ∧
  (∀ (s : State), s.hw.bit K.CLK_STAT_HOLDOVER = true → Ends (exec .holdoverTimeout s) fun t =>
    t.hw.rd K.CLK_STAT_HOLDOVER = 0 ∧ t.hw.rd K.CLK_STAT_XABSENT = 1 ∧ t.hw.rd K.CLK_STAT_SRC = 0) ∧
  (∀ (s : State), inPhase s.hw .pll = true → Ends (exec .surveyPllLock s) fun t =>
    t.hw.rd K.CLK_STAT_SLOCK = 1 ∧ t.hw.now = 0 ∧ t.hw.rst.phase = .fill) ∧
  (∀ (s : State), inPhase s.hw .fuses = true → Ends (exec .fuseSenseComplete s) fun t => t.hw.rst.sensed = true ∧
    t.hw.rst.fuses = s.nv.fuses ∧ t.hw.rd K.ID_SERIAL_SERIAL = SMap.get s.nv.fuses 0 0 % 2 ^ K.ID_SERIAL_SERIAL.w ∧
    (s.hw.rd K.RST_OPTSTAT_FAILS < 8 → t.hw.rst.phase = .options ∧
      t.hw.rd K.RST_OPTSTAT_FAILS = s.hw.rd K.RST_OPTSTAT_FAILS + 1) ∧
    (s.hw.rd K.RST_OPTSTAT_FAILS = 8 → t.hw.rst.phase = .crystal ∧ t.hw.rd K.RST_OPTSTAT_DEFAULTS = 1 ∧ t.hw.rd K.RST_CAUSE_OPT = 1)) ∧
  (∀ (s : State), inPhase s.hw .options = true → Ends (exec .optionLoadComplete s) fun t => t.hw.rst.phase = .crystal ∧
    t.hw.clk.counting = true ∧ t.hw.rd K.RST_OPTSTAT_COPY = chosenCopy s.nv ∧ t.hw.rd K.RST_OPTSTAT_FAILS = 0 ∧
    t.hw.rd K.RST_OPTSTAT_BADA = b2n (!copyValid s.nv.optA) ∧ t.hw.rd K.RST_OPTSTAT_BADB = b2n (!copyValid s.nv.optB)) ∧
  (∀ (s : State), inPhase s.hw .fill = true → s.hw.rst.warm = false → Ends (exec .eccFillComplete s) fun t =>
    (∀ a, t.hw.mem.readByte a = 0) ∧ t.hw.rd K.ERR_FILL_DONE = 1 ∧ t.hw.rst.phase = .start) ∧
  (∀ (s : State), mayStart s.hw = true → s.hw.bit K.ADIT_BOOTHALT_EN = false → s.hw.rst.toLog = [] →
    Ends (exec .foremanStart s) fun t => t.hw.rst.phase = .running ∧ (t.hw.core 0).fetching = true ∧
      (t.hw.core 0).pc = 0xFFFFFFFFFFF00000)

/-- The causes of reset ask for a reset of their reach and record their bits; a cold, a warm and a die reset act as their
sequences begin, and a die's frames are zeroed (R432 to R440, R459). -/
def Obligations.Resets : Prop :=
  (∀ (s : State) (rail : CoreRail), Ends (exec (.powerOnReset rail) s) fun t => t.hw.rst.phase = .rails ∧
    t.hw.rd K.RST_CAUSE_POR = 1 ∧ t.hw.rd K.RST_CAUSE_PIN = 0 ∧ t.hw.rd K.RST_CAUSE_WARM = 0 ∧ t.hw.cores = []) ∧
  (∀ (s : State), (s.hw.rst.phase = .rails → Ends (exec .coreRailsGood s) fun t =>
      t.hw.rst.phase = .fuses ∧ t.hw.csr = s.hw.csr) ∧
    (s.hw.rst.phase = .running → s.hw.pwr.a3 = .rising → Ends (exec .coreRailsGood s) fun t =>
      t.hw.pwr.a3 = .locking ∧ t.hw.pwr.stopped = [])) ∧
  (∀ (s : State), s.hw.rst.phase = .running →
    Ends (exec .resetPinAssert s) (fun t => t.hw.rst.pinLow = true ∧ t.hw.rst.request = some true ∧ t.hw.rd K.RST_CAUSE_PIN = 1) ∧
    Ends (exec .perstAssert s) (fun t => t.hw.rst.perstLow = true ∧ linkUp t.hw = false ∧ t.hw.rd K.RST_CAUSE_PERST = 1 ∧
      t.hw.rst.request = some (optByte s.hw 4 / 2 % 2 == 1 || s.hw.rst.request == some true)) ∧
    (∀ what, Ends (exec (.critReset what) s) fun t => t.hw.rd K.RST_CAUSE_CRIT = 1 ∧
      t.hw.rst.request = some (s.hw.rst.request == some true))) ∧
  (∀ (s : State), Ends (exec .resetPinRelease s) (fun t => t.hw.rst.pinLow = false ∧ t.hw.csr = s.hw.csr) ∧
    Ends (exec .perstRelease s) (fun t => t.hw.rst.perstLow = false ∧ t.hw.csr = s.hw.csr)) ∧
  (∀ (s : State), resetFree s.hw = true →
    (s.hw.rst.request = some true → Ends (exec .coldReset s) fun t => t.hw.rst.phase = .fuses ∧ t.hw.rst.request = none ∧
      t.hw.rd K.RST_CAUSE_LASTREACH = 0 ∧ t.hw.cores = [] ∧ t.hw.sched = {} ∧ t.hw.keys = {}) ∧
    (s.hw.rst.request = some false → Ends (exec .warmReset s) fun t => t.hw.rst.phase = .fill ∧ t.hw.rst.warm = true ∧
      t.hw.rst.request = none ∧ t.hw.rd K.RST_CAUSE_LASTREACH = 1 ∧ t.hw.rst.fuses = s.hw.rst.fuses)) ∧
  (∀ (s : State) (d : Die), bits s.hw.rst.dieReq (3 * d.val + 2) (3 * d.val) ≠ 0 → hubRuns s.hw = true → resetFree s.hw = true →
    Ends (exec (.dieReset d) s) fun t => t.hw.rd (K.RST_DIE_INRESET d.val) = 1 ∧ released t.hw d.val = false ∧
      t.hw.pins.done = false ∧ bits t.hw.rst.dieReq (3 * d.val + 2) (3 * d.val) = 0) ∧
  (∀ (s : State) (d : Die), resetFree s.hw = false → Ends (exec .coldReset s) (fun t => t = s) ∧
    Ends (exec .warmReset s) (fun t => t = s) ∧ Ends (exec (.dieReset d) s) fun t => t = s) ∧
  (∀ (s : State) (d : Die), s.hw.bit (K.RST_DIE_INRESET d.val) = true → s.hw.rst.zeroed.testBit d.val = false →
    Ends (exec (.dieFramesZeroed d) s) fun t => (∀ k, frameOf t.hw d.val k = 0) ∧ t.hw.rst.zeroed.testBit d.val = true)

/-- The ladder follows its target one state at a time; A3 halts every network and PLL, is reached when VCCINT falls or is
skipped, and is left through its causes, the PLLs and the gates; blocks wake; the pause bit takes its value (R454 to R459). -/
def Obligations.PowerLadder : Prop :=
  (∀ (s : State), hubRuns s.hw = true → Ends (exec .powerTargetUpdate s) fun t =>
    t.hw.rd K.PWR_STAT_TARGET = targetState s.hw ∧ pwrState t.hw = pwrState s.hw) ∧
  (∀ (s : State), hubRuns s.hw = true → s.hw.pwr.a3 = .out →
    (pwrState s.hw = 0 → 0 < s.hw.rd K.PWR_STAT_TARGET → Ends (exec .powerStateStep s) fun t => pwrState t.hw = 1) ∧
    (pwrState s.hw = 1 → 1 < s.hw.rd K.PWR_STAT_TARGET → Ends (exec .powerStateStep s) fun t => pwrState t.hw = 2) ∧
    (pwrState s.hw = 2 → s.hw.rd K.PWR_STAT_TARGET < 2 → Ends (exec .powerStateStep s) fun t => pwrState t.hw = 1) ∧
    (pwrState s.hw = 1 → s.hw.rd K.PWR_STAT_TARGET = 0 → Ends (exec .powerStateStep s) fun t => pwrState t.hw = 0) ∧
    ((List.range 4).any (strataBusy s.hw) = true → Ends (exec .a3Entry s) fun t => t = s) ∧
    (pwrState s.hw = 2 → s.hw.rd K.PWR_STAT_TARGET = 3 → (List.range 4).any (strataBusy s.hw) = false → Ends (exec .a3Entry s) fun t =>
      t.hw.pwr.a3 = .falling ∧ t.hw.pwr.entering = true ∧ (∀ n i, n < 4 → i < 16 → t.hw.pll n i = .stopped) ∧
      ∀ n m, n < 4 → m < 64 → netHalted t.hw n m = true)) ∧
  (∀ (s : State), s.hw.pwr.a3 = .falling →
    Ends (exec .vccintAtRetention s) (fun t => t.hw.pwr.a3 = .inside ∧ pwrState t.hw = 3) ∧
    Ends (exec .retskipTimeout s) (fun t => t.hw.pwr.a3 = .inside ∧ pwrState t.hw = 3 ∧ t.hw.rd K.PWR_STAT_RETSKIP = 1)) ∧
  (∀ (s : State), (s.hw.pwr.a3 = .inside → exitCause s.hw = true → Ends (exec .a3Exit s) fun t => t.hw.pwr.a3 = .rising) ∧
    (s.hw.pwr.a3 = .locking → a3Ready s.hw = true → Ends (exec .a3Exit s) fun t =>
      t.hw.pwr.a3 = .out ∧ pwrState t.hw = 2 ∧ t.hw.pwr.closed = [] ∧ inA3 t.hw = false)) ∧
  (∀ (s : State), hubRuns s.hw = true → pwrState s.hw ≠ 0 →
    ((∃ c, 1 ≤ c ∧ c < 64 ∧ (s.hw.core c).item ≠ none) → Ends (exec (.blockWake .crew true) s) fun t =>
      (t.hw.rd K.PWR_STAT_AWAKE).testBit 0 = true) ∧
    ((∀ c, 1 ≤ c → c < 64 → (s.hw.core c).item = none) → Ends (exec (.blockWake .crew false) s) fun t =>
      (t.hw.rd K.PWR_STAT_AWAKE).testBit 0 = false) ∧
    (∀ v, 2 ≤ pwrState s.hw → s.hw.dram.queue.isEmpty = !v → Ends (exec (.blockWake .dram v) s) fun t =>
      (t.hw.rd K.PWR_STAT_AWAKE).testBit 1 = v) ∧
    (2 ≤ pwrState s.hw → Ends (exec (.blockWake .lanes false) s) fun t => t.hw.bortik.asleep = true) ∧
    (∀ l, l < 64 → linkEn s.hw l = true → lkState s.hw l = lkOff → 2 ≤ pwrState s.hw →
      Ends (exec (.blockWake .lanes true) s) fun t => t.hw.bortik.asleep = false)) ∧
  (∀ (s : State) (m : Master) (v : Bool), csrGate s.hw m true K.PWR_PAUSE_PAUSE.addr = .ok →
    Ends (exec (.pauseWrite m v) s) fun t => t.hw.rd K.PWR_PAUSE_PAUSE = b2n v ∧ t.hw.mem = s.hw.mem)

/-- A sample of valid readings gives its die the hottest temperature and its level; two readings at the trip point in a row
ask for a reset; the supplies of banks and lanes stand in their registers (R450, R460 to R464, R506, R510). -/
def Obligations.SensorsAndSupplies : Prop :=
  (∀ (s : State) (d : Fin 9) (l : List Int),
    (l.length ≠ sensorCount d.val → Ends (exec (.tempSample d l) s) fun t => t = s) ∧
    (l.length = sensorCount d.val → Ends (exec (.tempSample d l) s) fun t =>
      match hottest (l.zipIdx.foldl (fun h x => readSensor h d.val x.2 x.1) s.hw) d.val l with
      | some (m, _) => t.hw.rd (K.PWR_TEMP_TEMP d.val) = quarterBits m ∧
          t.hw.rd (K.PWR_TEMP_LEVEL d.val) = nextLevel s.hw (s.hw.rd (K.PWR_TEMP_LEVEL d.val)) m
      | none => t.hw.rd (K.PWR_TEMP_TEMP d.val) = 0x7FFF ∧ t.hw.rd (K.PWR_TEMP_LEVEL d.val) = 2)) ∧
  (∀ (h : Hw) (d i : Nat) (x : Int), h.pwr.failed.contains (256 * d + i) = false → 440 ≤ x → x ≤ 600 →
    (h.pwr.hot.contains (256 * d + i) = true → (readSensor h d i x).rst.thermHold = true ∧
      (readSensor h d i x).rd K.RST_CAUSE_THERM = 1 ∧ (readSensor h d i x).rd K.PWR_TRIP_VALID = 1) ∧
    (h.pwr.hot.contains (256 * d + i) = false → (readSensor h d i x).rst = h.rst ∧
      (readSensor h d i x).pwr.hot.contains (256 * d + i) = true)) ∧
  (∀ (s : State) (b : Bank) (good : Bool), Ends (exec (.vccioChange b good) s) fun t =>
    t.hw.rd (K.IOBANK_STAT_VGOOD (b.val / 12) (b.val % 12)) = b2n good ∧ t.hw.pwr.vccio.testBit b.val = good ∧
    t.hw.mem = s.hw.mem) ∧
  (∀ (s : State) (b : Bank) (mv : Fin 4096), Ends (exec (.vccioMeasure b mv) s) fun t =>
    t.hw.rd (K.IOBANK_STAT_VMEAS (b.val / 12) (b.val % 12)) = mv.val ∧
    t.hw.rd (K.IOBANK_STAT_VMISMATCH (b.val / 12) (b.val % 12)) =
      b2n (s.hw.pwr.banked.testBit b.val && vccioBad (s.hw.rd (K.IOBANK_CFG_VCCIO (b.val / 12) (b.val % 12))) mv.val)) ∧
  (∀ (s : State) (good : Bool), Ends (exec (.laneSupplyChange good) s) fun t => t.hw.pwr.lanesGood = good)

/-- The TAP selects its instructions and reaches the registers; a session has one owner, who alone may write; the debug bus
master issues one transaction at a time and its response or a cancel ends it (R467 to R475). -/
def Obligations.AditSessions : Prop :=
  (∀ (s : State), Ends (exec .tapReset s) (fun t => t.hw.dbg.ir = 2 ∧ (owner s.hw = 1 → owner t.hw = 0)) ∧
    Ends (exec .extest s) (fun t => t.hw.dbg.ir = 0 ∧ t.hw.csr = s.hw.csr) ∧
    Ends (exec .idcode s) (fun t => t.hw.dbg.ir = 2 ∧ t.hw.csr = s.hw.csr) ∧
    (∀ n, Ends (exec (.samplePreload n) s) fun t => t.hw.dbg.ir = 1 ∧ t.hw.dbg.boundary = n % 2 ^ 2304 ∧ t.hw.csr = s.hw.csr) ∧
    (∀ ir : Byte, ir.toNat ∉ [0x00, 0x01, 0x02, 0x10, 0x11, 0x12] → Ends (exec (.bypass ir) s) fun t =>
      t.hw.dbg.ir = ir.toNat ∧ t.hw.csr = s.hw.csr) ∧
    (∀ reg, Ends (exec (.accessRead reg) s) fun t =>
      t.hw.dbg.ir = 0x10 ∧ t.hw.dbg.kept = aditVal s.hw (reg.val * 8) ∧ t.hw.csr = s.hw.csr) ∧
    (∀ v, Ends (exec (.tapDbgwin v) s) fun t => t.hw.dbg.ir = 0x12 ∧ t.hw.rd K.PCIE_CTL_DBGWIN = b2n v)) ∧
  (∀ (s : State) (reg : Fin 1024) (v : Word), 2 ≤ reg.val → owner s.hw ≠ 1 → Ends (exec (.accessWrite reg v) s) fun t =>
    t.hw.dbg.ir = 0x10 ∧ t.hw.rd K.ADIT_STAT_REFUSED = 1 ∧ t.hw.cores = s.hw.cores ∧ t.hw.mem = s.hw.mem) ∧
  (∀ (s : State) (reg : Fin 1024) (v : Word), Ends (exec (.accessWrite reg v) s) fun t => t.hw.dbg.ir = 0x10 ∧
    (reg.val = 0 → v.toNat.testBit 0 = true → owner s.hw = 0 → owner t.hw = 1) ∧
    (reg.val = 0 → v.toNat.testBit 0 = false → owner s.hw = 1 → owner t.hw = 0) ∧
    (reg.val = 2 → owner s.hw = 1 → t.hw.rd K.ADIT_BUSADDR_ADDR = v.toNat)) ∧
  (∀ (s : State) (dies : BitVec 4) (p : Fin 8), dies ≠ 0 → csrGate s.hw .adit true (K.STRATA_HTRIG_GO 0).addr = .ok →
    Ends (exec (.tapTrigger dies p true) s) (fun t => t.hw.dbg.ir = 0x11 ∧
      t.hw.strata.inFlight = s.hw.strata.inFlight ++ [⟨s.hw.now, 2, 0, p.val, dies.toNat, none, 0x6000⟩]) ∧
    Ends (exec (.tapTrigger dies p false) s) (fun t => t.hw.dbg.ir = 0x11 ∧ t.hw.strata = s.hw.strata)) ∧
  (∀ (s : State) (f : Face),
    (owner s.hw = 0 → Ends (exec (.aditAttach f) s) fun t => faceOwns t.hw f = true ∧ t.hw.rd K.ADIT_SESSION_ATTACH = 1) ∧
    (owner s.hw ≠ 0 → faceOwns s.hw f = false →
      Ends (exec (.aditAttach f) s) (fun t => owner t.hw = owner s.hw ∧ t.hw.rd K.ADIT_STAT_REFUSED = 1) ∧
      Ends (exec (.aditDetach f) s) (fun t => owner t.hw = owner s.hw ∧ t.hw.rd K.ADIT_STAT_REFUSED = 1)) ∧
    (faceOwns s.hw f = true → Ends (exec (.aditDetach f) s) fun t => owner t.hw = 0 ∧ t.hw.rd K.ADIT_SESSION_LOSTCAUSE = 3)) ∧
  (∀ (s : State) (f : Face), faceOwns s.hw f = true → (∀ x ∈ fieldsAt 0x1C00020, s.hw.rd x.key < 2 ^ x.key.w) →
    (s.hw.bit K.ADIT_STAT_BUSY = false → s.hw.bit K.ADIT_BUSCMD_LOCAL = false →
      s.hw.rd K.ADIT_BUSADDR_ADDR % busSize s.hw = 0 →
      Ends (exec (.aditPeek f) s) (fun t => t.hw.rd K.ADIT_STAT_BUSY = 1 ∧ t.hw.dbg.bus = some s.hw.gal.nextId ∧
        ∃ q, t.hw.gal.reqs = s.hw.gal.reqs ++ [q] ∧ q.id = s.hw.gal.nextId ∧ q.m = .adit ∧ q.kind = .read ∧
          q.addr = s.hw.rd K.ADIT_BUSADDR_ADDR ∧ q.size = busSize s.hw) ∧
      Ends (exec (.aditPoke f) s) (fun t => t.hw.rd K.ADIT_STAT_BUSY = 1 ∧ t.hw.dbg.bus = some s.hw.gal.nextId ∧
        ∃ q, t.hw.gal.reqs = s.hw.gal.reqs ++ [q] ∧ q.id = s.hw.gal.nextId ∧ q.m = .adit ∧ q.kind = .write ∧
          q.addr = s.hw.rd K.ADIT_BUSADDR_ADDR ∧ q.size = busSize s.hw ∧
          q.data = s.hw.rd K.ADIT_BUSDATA_DATA % 256 ^ busSize s.hw)) ∧
    (s.hw.bit K.ADIT_STAT_BUSY = true → s.hw.dbg.apertures = [] → Ends (exec (.aditBusCancel f) s) fun t =>
      t.hw.rd K.ADIT_STAT_BUSY = 0 ∧ t.hw.rd K.ADIT_STAT_BUSSTATUS = 3 ∧ t.hw.dbg.bus = none)) ∧
  (∀ (s : State) (id : Nat) (r : GResp) (h : Hw), s.hw.dbg.bus = some id → takeArrived s.hw id = some (r, h) →
    s.hw.dbg.fromWindow = false → s.hw.dbg.apertures = [] → Ends (exec .aditBusResponse s) fun t => t.hw.rd K.ADIT_STAT_BUSY = 0 ∧
      t.hw.rd K.ADIT_STAT_BUSSTATUS = scode r.status ∧ t.hw.dbg.bus = none ∧
      (r.kind = .read → r.status = .ok → t.hw.rd K.ADIT_BUSDATA_DATA = r.data % 2 ^ 64))

/-- Halt requests are taken outside locked sequences and break a sequence at the limit; RUN and STEP resume a core; a
breakpoint halts it; the registers of a halted core are written through CSEL; the virtual terminal passes words both ways
(R201, R476 to R481). -/
def Obligations.AditCores : Prop :=
  (∀ (s : State) (f : Face) (m : Word), faceOwns s.hw f = true →
    Ends (exec (.aditHalt f m) s) (fun t => ∀ c : Core, (t.hw.rd K.ADIT_HALT_REQ).testBit c.val =
      ((s.hw.rd K.ADIT_HALT_REQ).testBit c.val || (m.toNat.testBit c.val && !isHalted s.hw c.val))) ∧
    (∀ c : Core, m.toNat.testBit c.val = true → isHalted s.hw c.val = true → (s.hw.core c.val).dev = none →
      (s.hw.core c.val).pendErr = none → Ends (exec (.aditRun f m) s) fun t => isHalted t.hw c.val = false) ∧
    (∀ c : Core, isHalted s.hw c.val = true → mayRun s.hw c.val = true → (s.hw.core c.val).dev = none →
      (s.hw.core c.val).pendErr = none → Ends (exec (.aditStep f c) s) fun t =>
        isHalted t.hw c.val = false ∧ (t.hw.core c.val).stepping = true ∧ (t.hw.core c.val).pc = (s.hw.core c.val).pc)) ∧
  (∀ (s : State) (c : Core), isHalted s.hw c.val = false →
    ((s.hw.rd K.ADIT_HALT_REQ).testBit c.val = true → inSequence s.hw c.val = false →
      Ends (exec (.coreHaltTake c) s) fun t => isHalted t.hw c.val = true ∧
        (t.hw.rd K.ADIT_HALT_REQ).testBit c.val = false ∧ t.hw.pc c = s.hw.pc c) ∧
    ((s.hw.rd K.ADIT_HALT_REQ).testBit c.val = true → inSequence s.hw c.val = true →
      Ends (exec (.haltDeferralTimeout c) s) fun t => isHalted t.hw c.val = true ∧
        t.hw.rd (K.CORE_LOCKSTAT_LOCKBRK c.val) = 1 ∧ (t.hw.rd K.ADIT_LOCKBRK_CORES).testBit c.val = true) ∧
    (mayRun s.hw c.val = true → (s.hw.core c.val).dev = none → atBreakpoint s.hw c.val = true → inSequence s.hw c.val = false →
      Ends (exec (.breakpointHit c) s) fun t => isHalted t.hw c.val = true ∧ t.hw.pc c = s.hw.pc c)) ∧
  (∀ (s : State) (f : Face) (r : Fin 33) (v : Word), faceOwns s.hw f = true →
    (isHalted s.hw (cselCore s.hw).val = false → Ends (exec (.aditRegWrite f r v) s) fun t =>
      t.hw.rd K.ADIT_STAT_NOTHALTED = 1 ∧ t.hw.cores = s.hw.cores) ∧
    (isHalted s.hw (cselCore s.hw).val = true → r.val = 0 → Ends (exec (.aditRegWrite f r v) s) fun t => t = s) ∧
    (isHalted s.hw (cselCore s.hw).val = true → r.val = 32 → v.toNat % 4 ≠ 0 → Ends (exec (.aditRegWrite f r v) s) fun t =>
      t.hw.rd K.ADIT_STAT_NOTHALTED = 1 ∧ t.hw.cores = s.hw.cores) ∧
    (isHalted s.hw (cselCore s.hw).val = true → 1 ≤ r.val → r.val < 32 → Ends (exec (.aditRegWrite f r v) s) fun t =>
      t.hw.g (cselCore s.hw) (Fin.ofNat 32 r.val) = v ∧ t.hw.csr = s.hw.csr) ∧
    (isHalted s.hw (cselCore s.hw).val = true → r.val = 32 → v.toNat % 4 = 0 → Ends (exec (.aditRegWrite f r v) s) fun t =>
      t.hw.pc (cselCore s.hw) = v ∧ t.hw.csr = s.hw.csr)) ∧
  (∀ (s : State) (c : Core) (f : Face) (v : BitVec 32),
    (s.hw.bit (K.ADIT_CORE_DTX_FULL c.val) = false → Ends (exec (.dtxStore c v) s) fun t =>
      t.hw.rd (K.ADIT_CORE_DTX_DATA c.val) = v.toNat ∧ t.hw.rd (K.ADIT_CORE_DTX_FULL c.val) = 1) ∧
    (s.hw.bit (K.ADIT_CORE_DTX_FULL c.val) = true → Ends (exec (.dtxStore c v) s) fun t =>
      t.hw.rd (K.ADIT_CORE_DTX_DATA c.val) = s.hw.rd (K.ADIT_CORE_DTX_DATA c.val) ∧ t.hw.rd (K.ADIT_CORE_DTX_OVR c.val) = 1) ∧
    (faceOwns s.hw f = true → Ends (exec (.dtxRelease f c) s) fun t => t.hw.rd (K.ADIT_CORE_DTX_FULL c.val) = 0) ∧
    (faceOwns s.hw f = true → s.hw.bit (K.ADIT_CORE_DRX_FULL c.val) = false → Ends (exec (.drxWrite f c v) s) fun t =>
      t.hw.rd (K.ADIT_CORE_DRX_DATA c.val) = v.toNat ∧ t.hw.rd (K.ADIT_CORE_DRX_FULL c.val) = 1) ∧
    (faceOwns s.hw f = true → s.hw.bit (K.ADIT_CORE_DRX_FULL c.val) = true → Ends (exec (.drxWrite f c v) s) fun t =>
      t.hw.rd K.ADIT_STAT_REFUSED = 1 ∧ t.hw.rd (K.ADIT_CORE_DRX_DATA c.val) = s.hw.rd (K.ADIT_CORE_DRX_DATA c.val)) ∧
    Ends (exec (.drxRead c (.core c)) s) (fun t => t.hw.rd (K.ADIT_CORE_DRX_FULL c.val) = 0) ∧
    (∀ m : Master, m ≠ .core c → Ends (exec (.drxRead c m) s) fun t => t.hw.csr = s.hw.csr))

/-- Adit asks for resets; the foreman feeds the Canary, and its expiry asks for a warm reset (R482, R483). -/
def Obligations.AditResetsAndCanary : Prop :=
  (∀ (s : State) (f : Face), faceOwns s.hw f = true → resetting s.hw = false →
    Ends (exec (.aditResetWarm f) s) (fun t => t.hw.rd K.RST_CAUSE_ADIT = 1 ∧
      t.hw.rst.request = some (s.hw.rst.request == some true)) ∧
    Ends (exec (.aditResetCold f) s) (fun t => t.hw.rd K.RST_CAUSE_ADIT = 1 ∧ t.hw.rst.request = some true) ∧
    (∀ d : Die, dieResetting s.hw d.val = false → Ends (exec (.aditResetDie f d) s) fun t =>
      t.hw.rst.dieReq / 8 ^ d.val % 8 = 2 ∧ dieResetting t.hw d.val = true)) ∧
  (∀ (s : State) (m : Master) (key : Byte), csrGate s.hw m true K.RST_CANARY_FEED_KEY.addr = .ok →
    (m = .core 0 → key = 0x5A → Ends (exec (.canaryFeed m key) s) fun t => t.hw.rd K.RST_CANARY_STAT_REMAIN =
      s.hw.rd K.RST_CANARY_CTL_PERIOD * 1000 % 2 ^ 32 ∧ t.hw.mem = s.hw.mem) ∧
    ((m ≠ .core 0 ∨ key ≠ 0x5A) → Ends (exec (.canaryFeed m key) s) fun t =>
      t.hw.rd K.RST_CANARY_STAT_REMAIN = s.hw.rd K.RST_CANARY_STAT_REMAIN)) ∧
  (∀ (s : State), hubRuns s.hw = true → s.hw.rd K.RST_CANARY_STAT_REMAIN = 0 → s.hw.rst.request = none →
    Ends (exec .canaryExpiry s) fun t => t.hw.rd K.RST_CAUSE_CANARY = 1 ∧ t.hw.rst.request = some false)

/-- The link of the guest site rises and falls with its conditions; the firewall answers or forwards a transaction by
fence, header, windows and bucket; deliveries are credited; the mailbox passes messages; temperature trips hold the guest in reset
(R486 to R497). -/
def Obligations.GuestSite : Prop :=
  (∀ (s : State) (r : Fin 4) (full : Bool),
    (guestLinkOk s.hw = true → s.hw.bit K.GUEST_STAT_UP = false → r.val ≤ s.hw.rd K.GUEST_CTL_MAXRATE →
      Ends (exec (.guestLinkUp r full) s) fun t => t.hw.rd K.GUEST_STAT_UP = 1 ∧ t.hw.rd K.GUEST_STAT_RATE = r.val ∧
        t.hw.rd K.GUEST_STAT_WIDTH = if full then 16 else 8) ∧
    (s.hw.bit K.GUEST_STAT_UP = true → Ends (exec .guestLinkDown s) fun t =>
      t.hw.rd K.GUEST_STAT_UP = 0 ∧ t.hw.rd K.GUEST_CTL_FENCE = 1)) ∧
  (∀ (s : State) (hd : GuestHdr) (d : Nat), hasGuest s.hw = true → s.hw.bit K.GUEST_STAT_UP = true →
    guestCreditsUsed s.hw true < 64 → guestCreditsUsed s.hw false < 64 → s.hw.guest.tags.contains hd.tag.val = false →
    (s.hw.bit K.GUEST_CTL_FENCE = true → Ends (exec (.guestRead hd) s) fun t =>
      t.hw.guest.lastResp = some (hd.tag.val, .denied, 0) ∧ t.hw.gal = s.hw.gal) ∧
    (s.hw.bit K.GUEST_CTL_FENCE = false → hd.legal = false → Ends (exec (.guestRead hd) s) fun t =>
      t.hw.guest.lastResp = some (hd.tag.val, .tgterr, 0) ∧ t.hw.gal = s.hw.gal) ∧
    (s.hw.bit K.GUEST_CTL_FENCE = false → hd.legal = true → hd.size % 64 = 0 → beatsOk hd.addr (hd.size / 64) = true → s.hw.guest.waiting = [] →
      (16 + hd.size) * 800 ≤ s.hw.guest.tokens → inMailbox hd.addr = false → ∀ k,
      (List.range 16).find? (windowHolds s.hw hd.addr) = some k →
      (s.hw.bit (K.GUEST_GW_BASE_R k) = true → Ends (exec (.guestRead hd) s) fun t =>
        t.hw.guest.tokens = s.hw.guest.tokens - 12800 ∧
        t.hw.gal.reqs = s.hw.gal.reqs ++ [⟨s.hw.gal.nextId, .guest, .read, hd.addr, hd.size, 0, allOn hd.size, hd.tag.val⟩]) ∧
      (s.hw.bit (K.GUEST_GW_BASE_X k) = true → Ends (exec (.guestFetch hd) s) fun t =>
        t.hw.guest.tokens = s.hw.guest.tokens - 12800 ∧
        t.hw.gal.reqs = s.hw.gal.reqs ++ [⟨s.hw.gal.nextId, .guest, .read, hd.addr, hd.size, 0, allOn hd.size, hd.tag.val⟩]) ∧
      (s.hw.bit (K.GUEST_GW_BASE_W k) = true →
        Ends (exec (.guestWrite hd d) s) (fun t => t.hw.guest.tokens = s.hw.guest.tokens - (16 + hd.size) * 800 ∧
          t.hw.gal.reqs = s.hw.gal.reqs ++ [⟨s.hw.gal.nextId, .guest, .write, hd.addr, hd.size, d % 2 ^ (8 * hd.size),
            allOn hd.size, hd.tag.val⟩]) ∧
        Ends (exec (.guestPwrite hd d) s) (fun t => t.hw.guest.tokens = s.hw.guest.tokens - (16 + hd.size) * 800 ∧
          t.hw.gal.reqs = s.hw.gal.reqs ++ [⟨s.hw.gal.nextId, .guest, .pwrite, hd.addr, hd.size, d % 2 ^ (8 * hd.size),
            allOn hd.size, hd.tag.val⟩])) ∧
      (s.hw.bit (K.GUEST_GW_BASE_R k) = false → Ends (exec (.guestRead hd) s) fun t =>
        t.hw.guest.lastResp = some (hd.tag.val, .denied, 0) ∧ t.hw.gal = s.hw.gal))) ∧
  (∀ (s : State) (x : GuestTx) (rest : List GuestTx) (k : Nat), s.hw.guest.waiting = x :: rest → guestCost x ≤ s.hw.guest.tokens →
    inMailbox x.addr = false → (List.range 16).find? (windowHolds s.hw x.addr) = some k → windowGrants s.hw x k = true →
    Ends (exec .guestBucketRelease s) fun t => t.hw.guest.waiting = rest ∧
      t.hw.guest.tokens = s.hw.guest.tokens - guestCost x ∧ t.hw.gal.reqs.length = s.hw.gal.reqs.length + 1) ∧
  (∀ (s : State) (q : Queue) (e : QEntry), hasGuest s.hw = true → qEn s.hw q.val = true → qDeliver s.hw q.val = true →
    qKind s.hw q.val = 4 → s.hw.bit K.GUEST_CTL_FENCE = false → s.hw.bit K.GUEST_STAT_UP = true →
    ((s.hw.queue q.val).entries.find? fun e => !(s.hw.guest.sent.contains (q.val, e.slot))) = some e →
    Ends (exec (.guestDelivery q) s) fun t => t.hw.guest.sent = s.hw.guest.sent ++ [(q.val, e.slot)] ∧
      t.hw.guest.lastWrite = some (s.hw.rd (K.SCHED_Q_DEST_DEST q.val) / 64 * 64, descNat (slotDesc s.hw q.val e.slot))) ∧
  (∀ (s : State) (q slot : Nat) (rest : List (Nat × Nat)), s.hw.guest.sent = (q, slot) :: rest →
    (∃ e ∈ (s.hw.queue q).entries, e.slot = slot) →
    Ends (exec .guestCreditReturn s) fun t => t.hw.guest.sent = rest ∧ ∀ e ∈ (t.hw.queue q).entries, e.slot ≠ slot) ∧
  (∀ (s : State) (m : Master), hasGuest s.hw = true → m ≠ .guest →
    (csrGate s.hw m true K.GUEST_CLR_UNFENCE.addr = .ok → Ends (exec (.guestUnfence m) s) fun t => t.hw.rd K.GUEST_CTL_FENCE = 0) ∧
    (csrGate s.hw m true K.GUEST_MBOX_CTL_TOGO.addr = .ok → s.hw.bit K.GUEST_MBOX_CTL_TOFULL = false →
      Ends (exec (.toguestGo m) s) fun t => t.hw.rd K.GUEST_MBOX_CTL_TOFULL = 1) ∧
    (csrGate s.hw m true K.GUEST_CTL_GRST.addr = .ok → ∀ grst trip, Ends (exec (.guestGrstWrite m grst trip) s) fun t =>
      t.hw.rd K.GUEST_CTL_GRST = b2n grst ∧ t.hw.rd K.GUEST_CTL_TRIPRST = b2n trip ∧
      (trip = false → t.hw.rd K.GUEST_STAT_TRIPHOLD = 0))) ∧
  (∀ (s : State), hasGuest s.hw = true → s.hw.bit K.GUEST_STAT_UP = true → s.hw.bit K.GUEST_CTL_FENCE = false →
    guestCreditsUsed s.hw true < 64 → s.hw.guest.waiting = [] → 64000 ≤ s.hw.guest.tokens → s.hw.bit K.GUEST_MBOX_CTL_FROMFULL = false →
    Ends (exec .fromguestGo s) fun t => t.hw.rd K.GUEST_MBOX_CTL_FROMFULL = 1) ∧
  (∀ (s : State) (v : BitVec 16), s.hw.bit K.GUEST_STAT_VGOOD = true →
    Ends (exec (.guestTempReport v) s) (fun t => t.hw.rd K.GUEST_TEMP_TEMP = v.toNat) ∧
    (s.hw.bit K.GUEST_CTL_TRIPRST = true → s.hw.bit K.GUEST_STAT_TRIPHOLD = false →
      Ends (exec .guestTempSilent s) fun t => t.hw.rd K.GUEST_STAT_TRIPHOLD = 1 ∧ t.hw.guest.running = false)) ∧
  (∀ (s : State) (good : Bool), hasGuest s.hw = true → Ends (exec (.vguestChange good) s) fun t =>
    t.hw.rd K.GUEST_STAT_VGOOD = b2n good ∧ (good = false → t.hw.guest.running = false ∧ t.hw.rd K.GUEST_STAT_UP = 0))

/-- The PCI Express link comes up and goes down; configuration requests set a function's enables; host writes and reads become
requests on the Gallery, and completions of host-bound requests are matched or counted; functions are reset; MSI-X and host
rings work by their registers; the debug window answers closed and open (R327 to R345, R471). -/
def Obligations.PcieController : Prop :=
  (∀ (s : State) (gen : Fin 8) (width : Fin 32) (flit : Bool), linkUp s.hw = false → s.hw.rst.perstLow = false →
    s.hw.rst.pinLow = false → s.hw.rst.sensed = true → gen.val ≠ 0 → gen.val ≤ s.hw.rd K.PCIE_CTL_MAXGEN →
    width.val ∈ [1, 4, 8, 16] → width.val ≤ widthOf (s.hw.rd K.PCIE_CTL_MAXWIDTH) → (gen.val = 6 → flit = true) →
    Ends (exec (.pcieLinkUp gen width flit) s) fun t => linkUp t.hw = true ∧ t.hw.rd K.PCIE_STAT_GEN = gen.val ∧
      t.hw.rd K.PCIE_STAT_WIDTH = width.val ∧ t.hw.pcie.ready = true ∧ t.hw.pcie.waiting = []) ∧
  (∀ (s : State), linkUp s.hw = true → s.hw.rst.phase = .running → s.hw.bit K.PCIE_CTL_HOTREACH = false →
    Ends (exec .pcieLinkDown s) (fun t => linkUp t.hw = false ∧ t.hw.rd K.RST_CAUSE_HOT = 1 ∧ t.hw.rst.request.isSome = true) ∧
    Ends (exec .pcieHotReset s) (fun t => linkUp t.hw = false ∧ t.hw.rd K.RST_CAUSE_HOT = 1 ∧ t.hw.rst.request.isSome = true)) ∧
  (∀ (s : State) (f : Func) (v : Bool) (n : Fin 64), linkUp s.hw = true → s.hw.pcie.ready = true → funcOn s.hw f.val = true →
    Ends (exec (.pcieConfigRequest f (.busMaster v)) s) (fun t => (func t.hw f.val).busMaster = v ∧ t.hw.csr = s.hw.csr) ∧
    Ends (exec (.pcieConfigRequest f (.memSpace v)) s) (fun t => (func t.hw f.val).memSpace = v ∧ t.hw.csr = s.hw.csr) ∧
    Ends (exec (.pcieConfigRequest f (.msixMask v)) s) (fun t => (func t.hw f.val).msixMask = v) ∧
    (∀ reg, Ends (exec (.pcieConfigRequest f (.read reg)) s) fun t => t.hw.csr = s.hw.csr ∧ ∃ x,
      t.hw.pcie.lastCpl = [(0, .sc, false, x)] ∧
      (reg = 0 → x = (if f.val = 0 then 0x0048 else 0x0148) * 65536 + vendorId s.hw) ∧ (reg = 8 → x / 256 = 0x120000)) ∧
    Ends (exec (.pcieConfigRequest f (.vfEnable n)) s) fun t =>
      t.hw.rd K.PCIE_STAT_NUMVF = if f.val = 0 then n.val else s.hw.rd K.PCIE_STAT_NUMVF) ∧
  (∀ (s : State) (f : Func) (bar : Fin 6) (off size data a : Nat) (tag : Fin 16384), hostReaches s.hw f = true →
    (512 < size → ∀ p, Ends (exec (.pcieMemWrite f bar off size data p) s) fun t => t = s) ∧
    (4096 < size → Ends (exec (.pcieMemRead f bar off size tag) s) fun t => t = s) ∧
    (size ≤ 512 → Ends (exec (.pcieMemWrite f bar off size data false) s) fun t =>
      match hostTarget s.hw f.val bar.val off true with
      | .hub _ => ∃ l, t.hw.gal.reqs = s.hw.gal.reqs ++ l ∧ t.hw.mem = s.hw.mem ∧
          ∀ q ∈ l, q.m = .host f ∧ q.kind = .pwrite ∧ 0 < q.size ∧ q.addr % 256 + q.size ≤ 256
      | .window _ => True
      | .msixTable o => (msixEntry t.hw f.val (o / 16)) =
          setBits (msixEntry s.hw f.val (o / 16)) (o % 16 * 8) (8 * size) data % 2 ^ 128 ∧ t.hw.gal = s.hw.gal
      | _ => t.hw.gal = s.hw.gal ∧ t.hw.pcie = s.hw.pcie) ∧
    (size ≤ 4096 → Ends (exec (.pcieMemRead f bar off size tag) s) fun t =>
      match hostTarget s.hw f.val bar.val off false with
      | .hub _ => ∃ l, t.hw.gal.reqs = s.hw.gal.reqs ++ l ∧ t.hw.mem = s.hw.mem ∧
          ∀ q ∈ l, q.m = .host f ∧ q.kind = .read ∧ q.tag = tag.val ∧ 0 < q.size ∧ q.addr % 256 + q.size ≤ 256
      | .window _ => True
      | .fail st _ => t.hw.gal = s.hw.gal ∧ t.hw.pcie.lastCpl = [(tag.val, (completionOf st).1, (completionOf st).2, 0)]
      | _ => t.hw.gal = s.hw.gal ∧ ∃ x, t.hw.pcie.lastCpl = [(tag.val, .sc, false, x)]) ∧
    (0 < size → a % 256 + size ≤ 256 → hostTarget s.hw f.val bar.val off true = .hub a → Ends (exec (.pcieMemWrite f bar off size data false) s) fun t =>
      t.hw.gal.reqs = s.hw.gal.reqs ++ [⟨s.hw.gal.nextId, .host f, .pwrite, a, size, data % 256 ^ size, allOn size, 0⟩]) ∧
    (0 < size → a % 256 + size ≤ 256 → hostTarget s.hw f.val bar.val off false = .hub a → Ends (exec (.pcieMemRead f bar off size tag) s) fun t =>
      t.hw.gal.reqs.length = s.hw.gal.reqs.length + 1 ∧
      ∀ q, t.hw.gal.reqs.getLast? = some q → q.m = .host f ∧ q.kind = .read ∧ q.addr = a ∧ q.size = size ∧ q.tag = tag.val) ∧
    (size ≤ 512 → Ends (exec (.pcieMemWrite f bar off size data true) s) fun t => t.hw.gal = s.hw.gal ∧
      t.hw.rd K.PCIE_ERRCNT_POISONED = min (2 ^ 16 - 1) (s.hw.rd K.PCIE_ERRCNT_POISONED + 1))) ∧
  (∀ (s : State) (id : Nat) (st : Status) (data : Nat),
    (takeHostReq s.hw id = none → Ends (exec (.pcieCompletionReceived id st data) s) fun t => t.hw.gal = s.hw.gal ∧
      t.hw.rd K.PCIE_ERRCNT_UNEXP = min (2 ^ 16 - 1) (s.hw.rd K.PCIE_ERRCNT_UNEXP + 1)) ∧
    (∀ r h, takeHostReq s.hw id = some (r, h) → r.q = none →
      (st = .ok → Ends (exec (.pcieCompletionReceived id st data) s) fun t => t = s) ∧
      (st ≠ .ok → Ends (exec (.pcieCompletionReceived id st data) s) fun t => ∀ x ∈ t.hw.pcie.reqs, x.id ≠ id)) ∧
    (∀ r h q, takeHostReq s.hw id = some (r, h) → r.q = some q → q.m ≠ .guest → q.kind = .read →
      Ends (exec (.pcieCompletionReceived id st data) s) (fun t =>
        t.hw.gal.resps = s.hw.gal.resps ++ [respOf q st data] ∧ ∀ x ∈ t.hw.pcie.reqs, x.id ≠ id) ∧
      Ends (exec (.pcieCompletionTimeout id) s) (fun t => t.hw.gal.resps = s.hw.gal.resps ++ [respOf q .tgterr 0] ∧
        t.hw.rd K.PCIE_ERRCNT_CTO = min (2 ^ 16 - 1) (s.hw.rd K.PCIE_ERRCNT_CTO + 1)))) ∧
  (∀ (s : State) (f : Func), linkUp s.hw = true →
    (f.val ≠ 0 → funcOn s.hw f.val = true → Ends (exec (.pcieFlr f) s) fun t =>
      func t.hw f.val = { conflict := (func s.hw f.val).conflict }) ∧
    (f.val = 0 → Ends (exec (.pcieFlr f) s) fun t => t.hw.rd K.PCIE_STAT_NUMVF = 0 ∧ t.hw.pcie.barLog = 36) ∧
    (∀ n : Fin 64, (func s.hw 0).memSpace = false → 30 ≤ n.val → n.val ≤ 39 → Ends (exec (.barResize n) s) fun t =>
      t.hw.pcie.barLog = n.val ∧ t.hw.csr = s.hw.csr) ∧
    (funcOn s.hw f.val = true → Ends (exec (.msixEnable f false) s) fun t => (func t.hw f.val).msixEn = false) ∧
    (funcOn s.hw f.val = true → Ends (exec (.msixEnable f true) s) fun t => (func t.hw f.val).msixEn = true ∧
      (2048 < s.hw.rd (K.PCIE_FUNC_MSIX_BASE f.val) + msixCount s.hw f.val → (func t.hw f.val).conflict = true)) ∧
    (funcOn s.hw f.val = true → (∀ g, g ≠ f.val → (func s.hw g).msixEn = false) →
      s.hw.rd (K.PCIE_FUNC_MSIX_BASE f.val) + msixCount s.hw f.val ≤ 2048 → Ends (exec (.msixEnable f true) s) fun t =>
        (func t.hw f.val).msixEn = true ∧ (func t.hw f.val).conflict = (func s.hw f.val).conflict)) ∧
  (∀ (s : State) (f : Func) (v : Fin 2048), hostReaches s.hw f = true → Ends (exec (.msixUnmask f v) s) fun t =>
    (msixEntry t.hw f.val v.val).testBit 96 = false) ∧
  (∀ (s : State) (m : Master) (f : Func) (data : Word), csrGate s.hw m true (msixAddr f.val) = .ok →
    ((func s.hw f.val).msixEn = true ∨ (f.val ≠ 0 ∧ s.hw.rd K.PCIE_STAT_NUMVF ≠ 0) →
      Ends (exec (.funcMsixWrite m f data) s) fun t => t.hw.rd (K.PCIE_FUNC_MSIX_BASE f.val) =
        s.hw.rd (K.PCIE_FUNC_MSIX_BASE f.val) ∧ func t.hw f.val = func s.hw f.val) ∧
    ((func s.hw f.val).msixEn = false → (f.val = 0 ∨ s.hw.rd K.PCIE_STAT_NUMVF = 0) → s.hw.rd (K.PCIE_FUNC_MSIX_COUNT f.val) < 2 ^ 12 →
      Ends (exec (.funcMsixWrite m f data) s) fun t => t.hw.rd (K.PCIE_FUNC_MSIX_BASE f.val) = data.toNat % 2 ^ 11 ∧
        t.hw.rd (K.PCIE_FUNC_MSIX_COUNT f.val) = if data.toNat / 2 ^ 16 % 2 ^ 12 ≤ 2048 then data.toNat / 2 ^ 16 % 2 ^ 12
          else (K.PCIE_FUNC_MSIX_COUNT f.val).rst)) ∧
  (∀ (s : State) (m : Master) (q : Queue) (head : BitVec 16), csrGate s.hw m true (hringAddr q.val) = .ok →
    s.hw.rd (K.PCIE_HRING_HEAD q.val) < 2 ^ 16 →
    (q.val < 256 → Ends (exec (.hringHeadWrite m q head) s) fun t => t = s) ∧
    (256 ≤ q.val → (s.hw.rd (K.PCIE_HRING_TAIL q.val) + 65536 - head.toNat) % 65536 ≤ qDepth s.hw q.val →
      Ends (exec (.hringHeadWrite m q head) s) fun t => t.hw.rd (K.PCIE_HRING_HEAD q.val) = head.toNat) ∧
    (256 ≤ q.val → qDepth s.hw q.val < (s.hw.rd (K.PCIE_HRING_TAIL q.val) + 65536 - head.toNat) % 65536 →
      Ends (exec (.hringHeadWrite m q head) s) fun t =>
        t.hw.rd (K.PCIE_HRING_HEAD q.val) = s.hw.rd (K.PCIE_HRING_HEAD q.val))) ∧
  (∀ (s : State) (q : Queue) (e : QEntry), qEn s.hw q.val = true → qDeliver s.hw q.val = true → qKind s.hw q.val = 1 →
    ringRoom s.hw q.val = true → (func s.hw (qIdx s.hw q.val)).busMaster = true → linkUp s.hw = true →
    oldest s.hw q.val = some e → Ends (exec (.hostRingDelivery q) s) fun t =>
      t.hw.rd (K.PCIE_HRING_TAIL q.val) = (s.hw.rd (K.PCIE_HRING_TAIL q.val) + 1) % 65536 ∧
      (8 ≤ q.val → ∀ x ∈ (t.hw.queue q.val).entries, x.slot ≠ e.slot) ∧
      t.hw.pcie.lastWrite = some (s.hw.rd (K.SCHED_Q_DEST_DEST q.val) / 64 * 64 +
        s.hw.rd (K.PCIE_HRING_TAIL q.val) % qDepth s.hw q.val * 64, 64, descNat (slotDesc s.hw q.val e.slot), allOn 64)) ∧
  (∀ (s : State) (m : Master) (v : Bool), csrGate s.hw m true K.PCIE_CTL_DBGWIN.addr = .ok →
    ((m = .core 0 ∨ (m = .adit ∧ owner s.hw ≠ 2)) → Ends (exec (.dbgwinWrite m v) s) fun t =>
      t.hw.rd K.PCIE_CTL_DBGWIN = b2n v ∧ t.hw.mem = s.hw.mem) ∧
    (m ≠ .core 0 → (m ≠ .adit ∨ owner s.hw = 2) → Ends (exec (.dbgwinWrite m v) s) fun t =>
      t.hw.rd K.PCIE_CTL_DBGWIN = s.hw.rd K.PCIE_CTL_DBGWIN)) ∧
  (∀ (s : State) (wr : Bool) (off size data : Nat),
    (hostReaches s.hw 0 = false ∨ 0x400000 ≤ off → Ends (exec (.debugWindowAccess wr off size data) s) fun t => t = s) ∧
    (hostReaches s.hw 0 = true → off < 0x400000 →
      (s.hw.bit K.PCIE_CTL_DBGWIN = false ∨ (0x2000 ≤ off ∧ off < 0x200000) →
        Ends (exec (.debugWindowAccess false off size data) s) (fun t =>
          t.hw.pcie.lastCpl = [(0, .sc, false, 0)] ∧ t.hw.csr = s.hw.csr) ∧
        Ends (exec (.debugWindowAccess true off size data) s) (fun t => t.hw.gal = s.hw.gal ∧ t.hw.pcie = s.hw.pcie)) ∧
      (s.hw.bit K.PCIE_CTL_DBGWIN = true → off < 0x2000 → csrShape off size = true →
        Ends (exec (.debugWindowAccess false off size data) s) (fun t => t.hw.gal = s.hw.gal ∧
          t.hw.pcie.lastCpl = [(0, .sc, false, readPart off size (aditVal s.hw (off / 8 * 8)))]) ∧
        (faceOwns s.hw .window = false → 0x10 ≤ off → Ends (exec (.debugWindowAccess true off size data) s) fun t =>
          t.hw.rd K.ADIT_STAT_REFUSED = 1 ∧ t.hw.cores = s.hw.cores)) ∧
      (s.hw.bit K.PCIE_CTL_DBGWIN = true → 0x200000 ≤ off → size ∈ [1, 2, 4, 8] → off % size = 0 →
        (faceOwns s.hw .window = false → Ends (exec (.debugWindowAccess wr off size data) s) fun t => t.hw.gal = s.hw.gal ∧
          (wr = false → t.hw.pcie.lastCpl = [(0, .ca, false, 0)])) ∧
        (faceOwns s.hw .window = true → s.hw.bit K.ADIT_STAT_BUSY = false →
          Ends (exec (.debugWindowAccess wr off size data) s) fun t => t.hw.rd K.ADIT_STAT_BUSY = 1 ∧
            ∃ q, t.hw.gal.reqs = s.hw.gal.reqs ++ [q] ∧ q.m = .adit ∧ q.kind = (if wr then .write else .read) ∧ q.size = size ∧
              q.addr = (s.hw.rd K.ADIT_WINBASE_BASE * 2 ^ 21 + (off - 0x200000)) % 2 ^ 64))))

/-- A Bortik link climbs from signal to UP or NOKEY, comes up with a key, and ends with its cause; lanes lose and regain lock;
frames are judged, doorbells acknowledged, entries sent against credit, beacons exchanged, keys switched and remote seam
channels aligned or lost (R352 to R377). -/
def Obligations.BortikLinks : Prop :=
  (∀ (s : State) (l : Link),
    (lkState s.hw l.val = 1 → lanesPowered s.hw l.val = true → Ends (exec (.linkSignalDetect l) s) fun t => lkState t.hw l.val = 2) ∧
    (lkState s.hw l.val = 2 → Ends (exec (.linkStep1Timeout l) s) fun t => t.hw.rd (K.BORTIK_LINK_STAT_DOWNCAUSE l.val) = 7 ∧
      lkState t.hw l.val = if linkEn s.hw l.val && lanesPowered s.hw l.val then 1 else 0) ∧
    (∀ a : Advert, lkState s.hw l.val = 2 → a.width.val = s.hw.rd (K.BORTIK_LINK_CFG_WIDTH l.val) → a.lanesOk = true →
      a.maxStep.val ≠ 0 → Ends (exec (.bortikAdvert l a) s) fun t => (linkSt t.hw l.val).partner = some a.serial ∧
        t.hw.rd (K.BORTIK_LINK_STAT_STEP l.val) = min 5 (min (ownMaxStep s.hw l.val) a.maxStep.val) ∧
        lkState t.hw l.val = if min 5 (min (ownMaxStep s.hw l.val) a.maxStep.val) = 1 then 4 else 3) ∧
    (∀ a : Advert, lkState s.hw l.val = 2 → a.width.val ≠ s.hw.rd (K.BORTIK_LINK_CFG_WIDTH l.val) →
      Ends (exec (.bortikAdvert l a) s) fun t => t.hw.rd (K.BORTIK_LINK_STAT_DOWNCAUSE l.val) = 8) ∧
    (∀ r : StepResult, lkState s.hw l.val = 3 →
      (stepPasses s.hw l.val (linkSt s.hw l.val).climb r = true → Ends (exec (.climbStepComplete l r) s) fun t =>
        if (linkSt s.hw l.val).climb < (linkSt s.hw l.val).agreed then
          lkState t.hw l.val = 3 ∧ (linkSt t.hw l.val).climb = (linkSt s.hw l.val).climb + 1
        else lkState t.hw l.val = 4) ∧
      (stepPasses s.hw l.val (linkSt s.hw l.val).climb r = false → Ends (exec (.climbStepComplete l r) s) fun t =>
        lkState t.hw l.val = 4 ∧ t.hw.rd (K.BORTIK_LINK_STAT_STEP l.val) = ((linkSt s.hw l.val).climb - 1) % 8)) ∧
    (lkState s.hw l.val = 4 → ((linkCur s.hw l.val).isSome = true → Ends (exec (.linkAlignComplete l) s) fun t =>
        lkState t.hw l.val = 6) ∧
      (linkCur s.hw l.val = none → linkPend s.hw l.val = none → Ends (exec (.linkAlignComplete l) s) fun t =>
        lkState t.hw l.val = 5)) ∧
    (lkState s.hw l.val = 5 → linkCur s.hw l.val = none → (linkPend s.hw l.val).isSome = true →
      Ends (exec (.linkKeyAvailable l) s) fun t => lkState t.hw l.val = 6 ∧ linkCur t.hw l.val = linkPend s.hw l.val ∧
        linkPend t.hw l.val = none)) ∧
  (∀ (s : State) (k : Lane) (m : Fin 64), linkOfLane s.hw k.val = none →
    Ends (exec (.laneLockLoss k) s) (fun t => t = s) ∧ Ends (exec (.laneMarginMeasure k m) s) (fun t => t = s)) ∧
  (∀ (s : State) (l : Link) (k : Lane) (m : Fin 64), linkOfLane s.hw k.val = some l.val →
    (5 ≤ lkState s.hw l.val → Ends (exec (.laneLockLoss k) s) fun t =>
      t.hw.rd (K.LANE_STAT_LOCK k.val) = 0 ∧ k.val ∈ (linkSt t.hw l.val).lost) ∧
    (lkState s.hw l.val = 6 → Ends (exec (.laneMarginMeasure k m) s) fun t => t.hw.rd (K.LANE_STAT_MARGIN k.val) = m.val ∧
      t.hw.rd (K.LANE_STAT_MINMARGIN k.val) = min m.val (s.hw.rd (K.LANE_STAT_MINMARGIN k.val)))) ∧
  (∀ (s : State) (l : Link), (linkSt s.hw l.val).lost ≠ [] →
    Ends (exec (.laneLockRegain l) s) (fun t => (linkSt t.hw l.val).lost = [] ∧ lkState t.hw l.val = lkState s.hw l.val) ∧
    (5 ≤ lkState s.hw l.val → Ends (exec (.laneLockTimeout l) s) fun t => lkState t.hw l.val ≤ 1 ∧
      t.hw.rd (K.BORTIK_LINK_STAT_DOWNCAUSE l.val) = 2 ∧ (linkSt t.hw l.val).keyOut = none ∧ (linkSt t.hw l.val).keyIn = none)) ∧
  (∀ (s : State) (l : Link) (fr : BFrame), lkState s.hw l.val = 6 →
    (fr.uncorr = true → Ends (exec (.bortikFrameReceive l fr) s) fun t => lkState t.hw l.val = 6 ∧
      t.hw.rd (K.BORTIK_LINK_CNT_UNCORR l.val) = min (2 ^ (K.BORTIK_LINK_CNT_UNCORR l.val).w - 1)
        (s.hw.rd (K.BORTIK_LINK_CNT_UNCORR l.val) + 1) ∧ (fr.rsc = false → hasData fr = false → t.hw.bortik = s.hw.bortik)) ∧
    (fr.uncorr = false → (fr.tagOk = false ∨ .badType ∈ fr.blocks) → (linkSt s.hw l.val).fails < 7 →
      Ends (exec (.bortikFrameReceive l fr) s) fun t => lkState t.hw l.val = 6 ∧
        (linkSt t.hw l.val).fails = (linkSt s.hw l.val).fails + 1 ∧ (linkSt t.hw l.val).lastIn = (linkSt s.hw l.val).lastIn) ∧
    (fr.uncorr = false → (fr.tagOk = false ∨ .badType ∈ fr.blocks) → 7 ≤ (linkSt s.hw l.val).fails →
      Ends (exec (.bortikFrameReceive l fr) s) fun t => lkState t.hw l.val ≤ 1 ∧
        t.hw.rd (K.BORTIK_LINK_STAT_DOWNCAUSE l.val) = 3) ∧
    (fr.uncorr = false → fr.tagOk = true → .badType ∉ fr.blocks → Ends (exec (.bortikFrameReceive l fr) s) fun t =>
      t.hw = fr.blocks.foldl (deliverBlock l) (onLink (countSymbols s.hw l.val fr) l.val fun x =>
        { x with fails := 0, countIn := x.countIn + (fr.blocks.map blocksOf).sum })) ∧
    (∀ seq, fr = ⟨false, true, false, [.ack seq], []⟩ → Ends (exec (.bortikFrameReceive l fr) s) fun t =>
      (linkSt t.hw l.val).unacked = (linkSt s.hw l.val).unacked.filter fun b => !seqUpTo b.seq seq.toNat) ∧
    (∀ seq, fr = ⟨false, true, false, [.nak seq], []⟩ → Ends (exec (.bortikFrameReceive l fr) s) fun t =>
      t.hw.rd (K.BORTIK_LINK_CNT_REPLAY l.val) = min (2 ^ (K.BORTIK_LINK_CNT_REPLAY l.val).w - 1) (s.hw.rd (K.BORTIK_LINK_CNT_REPLAY l.val) +
        ((linkSt s.hw l.val).unacked.filter fun b => seqUpTo seq.toNat b.seq).length)) ∧
    (∀ seq check, fr = ⟨false, true, false, [.reject seq check], []⟩ → Ends (exec (.bortikFrameReceive l fr) s) fun t =>
      ∀ b ∈ (linkSt t.hw l.val).unacked, b.seq ≠ seq.toNat) ∧
    (∀ e nb, fr = ⟨false, true, false, [.keySwitch e nb], []⟩ → Ends (exec (.bortikFrameReceive l fr) s) fun t =>
      (linkSt t.hw l.val).switchIn = some nb) ∧
    (∀ v k w kmin, fr = ⟨false, true, false, [.rscMark v k w kmin], []⟩ → Ends (exec (.bortikFrameReceive l fr) s) fun t =>
      (linkSt t.hw l.val).rscMark = some (v.toNat, k.toNat, w.toNat, kmin.toNat)) ∧
    (∀ sr p c i d e r, fr = ⟨false, true, false, [.beacon sr p c i d e r], []⟩ → Ends (exec (.bortikFrameReceive l fr) s) fun t =>
      t.hw.rd (K.BORTIK_GAZ_SERIAL_SERIAL l.val) = sr.toNat ∧ t.hw.rd (K.BORTIK_GAZ_INFO_VALID l.val) = 1 ∧
      (linkSt t.hw l.val).beaconLost = false) ∧
    (∀ q c a, fr = ⟨false, true, false, [.credit q c a], []⟩ → Ends (exec (.bortikFrameReceive l fr) s) fun t =>
      (SMap.get (linkSt t.hw l.val).known q.val none).map (fun x => (x.cred, x.admitted)) = some (c.toNat, a.toNat)) ∧
    (∀ (q : Queue) (n : BitVec 16) (d : Desc), fr = ⟨false, true, false, [.doorbell q n d], []⟩ →
      n.toNat = nextSeq (linkSt s.hw l.val).lastIn → qEn s.hw q.val = true → permitted s.hw (.master (.link l)) q.val = true →
      qCred s.hw q.val ≠ 0 → (heldBy s.hw q.val < s.hw.rd (K.SCHED_Q_CFG_TRES q.val) ∨ 0 < sharedFree s.hw) →
      s.hw.sched.held.length < 65536 → Ends (exec (.bortikFrameReceive l fr) s) fun t => (linkSt t.hw l.val).lastIn = n.toNat ∧
        (linkSt t.hw l.val).sentBlock = some (.ack n) ∧ admittedTo t.hw l.val q.val = nextSeq (admittedTo s.hw l.val q.val)) ∧
    (∀ (q : Queue) (n : BitVec 16) (d : Desc), fr = ⟨false, true, false, [.doorbell q n d], []⟩ →
      n.toNat = (linkSt s.hw l.val).lastIn → Ends (exec (.bortikFrameReceive l fr) s) fun t =>
        (linkSt t.hw l.val).lastIn = n.toNat ∧ (linkSt t.hw l.val).sentBlock = some (.ack n) ∧ t.hw.mem = s.hw.mem ∧
        t.hw.sched = s.hw.sched)) ∧
  (∀ (s : State) (l : Link) (fr : BFrame),
    (lkState s.hw l.val ≠ 5 → lkState s.hw l.val ≠ 6 → Ends (exec (.bortikFrameReceive l fr) s) fun t => t = s) ∧
    (lkState s.hw l.val = 5 → fr.fixed = [] → (∀ b ∈ fr.blocks, ∀ sr p c i d e r, b ≠ .beacon sr p c i d e r) →
      Ends (exec (.bortikFrameReceive l fr) s) fun t => t = s)) ∧
  (∀ (s : State) (l : Link), (5 ≤ lkState s.hw l.val → Ends (exec (.beaconSend l) s) fun t =>
      (linkSt t.hw l.val).sentBlock = some (ownBeacon s.hw l.val) ∧ t.hw.csr = s.hw.csr) ∧
    (5 ≤ lkState s.hw l.val → (linkSt s.hw l.val).beaconLost = false → Ends (exec (.beaconLostTimeout l) s) fun t =>
      (linkSt t.hw l.val).beaconLost = true ∧ lkState t.hw l.val = lkState s.hw l.val) ∧
    (lkState s.hw l.val = 6 → Ends (exec (.replayTimeout l) s) fun t =>
      t.hw.rd (K.BORTIK_LINK_CNT_REPLAY l.val) = min (2 ^ (K.BORTIK_LINK_CNT_REPLAY l.val).w - 1)
        (s.hw.rd (K.BORTIK_LINK_CNT_REPLAY l.val) + (linkSt s.hw l.val).unacked.length)) ∧
    (∀ dir, (lkState s.hw l.val ≠ 6 ∨ (if dir = 0 then (linkSt s.hw l.val).switchOut else (linkSt s.hw l.val).switchIn) = none) →
      Ends (exec (.keyEpochSwitch l dir) s) fun t => t = s) ∧
    (lkState s.hw l.val = 6 → (linkSt s.hw l.val).switchIn = some false → (linkSt s.hw l.val).rollDue = false →
      Ends (exec (.keyEpochSwitch l 1) s) fun t => (linkSt t.hw l.val).epochIn = ((linkSt s.hw l.val).epochIn + 1) % 2 ^ 32 ∧
        (linkSt t.hw l.val).switchIn = none ∧ (linkSt t.hw l.val).keyOut = (linkSt s.hw l.val).keyOut) ∧
    (∀ dir : Fin 2, lkState s.hw l.val = 6 → (if dir = 0 then (linkSt s.hw l.val).switchOut else (linkSt s.hw l.val).switchIn) = some true →
      (linkPend s.hw l.val).isSome = true → (linkSt s.hw l.val).rollDue = false →
      Ends (exec (.keyEpochSwitch l dir) s) fun t => linkCur t.hw l.val = linkPend s.hw l.val ∧ linkPend t.hw l.val = none ∧
        t.hw.rd (K.BORTIK_LINK_STAT_EPOCH l.val) = 0 ∧ (linkSt t.hw l.val).switchOut = none ∧ (linkSt t.hw l.val).switchIn = none) ∧
    (lkState s.hw l.val = 6 → (linkSt s.hw l.val).switchOut = some false → (linkSt s.hw l.val).rollDue = false →
      Ends (exec (.keyEpochSwitch l 0) s) fun t =>
        t.hw.rd (K.BORTIK_LINK_STAT_EPOCH l.val) = (s.hw.rd (K.BORTIK_LINK_STAT_EPOCH l.val) + 1) % 2 ^ 32 ∧
        (linkSt t.hw l.val).switchOut = none ∧ (linkSt t.hw l.val).keyIn = (linkSt s.hw l.val).keyIn) ∧
    (∀ (cyc : Fin 128) (i : Fin 32) (x : BitVec 240), lkState s.hw l.val = 6 → s.hw.bit (K.BORTIK_LINK_RSC_EN l.val) = true →
      Ends (exec (.bortikRscBlock l cyc i x) s) fun t =>
        SMap.get (linkSt t.hw l.val).rscBuf (32 * cyc.val + i.val) 0 = x.toNat ∧ t.hw.csr = s.hw.csr) ∧
    (∀ q : Queue, lkState s.hw l.val = 6 → qEn s.hw q.val = true → qKind s.hw q.val = 3 → qIdx s.hw q.val = l.val →
      SMap.get (linkSt s.hw l.val).told q.val 0 ≠ qCred s.hw q.val + 1 → (linkSt s.hw l.val).told.length < 256 →
      Ends (exec (.creditSend l q) s) fun t => (linkSt t.hw l.val).sentBlock =
        some (.credit q (BitVec.ofNat 13 (qCred s.hw q.val)) (BitVec.ofNat 16 (admittedTo s.hw l.val q.val)))) ∧
    (∀ (q : Queue) (e : QEntry) (dest : Nat) (a : Announced), qEn s.hw q.val = true → qDeliver s.hw q.val = true →
      qKind s.hw q.val = 3 → qIdx s.hw q.val = l.val → lkState s.hw l.val = 6 → (linkSt s.hw l.val).unacked.length < 64 →
      ((s.hw.queue q.val).entries.find? fun e => !((linkSt s.hw l.val).unacked.any fun b => b.q == q.val && b.slot == e.slot)) = some e →
      dest = s.hw.rd (K.SCHED_Q_DEST_DEST q.val) → dest < 16384 → SMap.get (linkSt s.hw l.val).known dest none = some a →
      partnerCredit a ≠ 0 → Ends (exec (.bortikDelivery q) s) fun t =>
        (linkSt t.hw l.val).unacked = (linkSt s.hw l.val).unacked ++ [⟨(linkSt s.hw l.val).nextOut, q.val, e.slot, dest⟩] ∧
        (linkSt t.hw l.val).sentBlock = some (.doorbell (Fin.ofNat 16384 dest) (BitVec.ofNat 16 (linkSt s.hw l.val).nextOut)
          (slotDesc s.hw q.val e.slot))) ∧
    (lkState s.hw l.val = 6 → s.hw.bit (K.BORTIK_LINK_RSC_EN l.val) = true →
      s.hw.bit (K.BORTIK_LINK_RSCSTAT_ALIGNED l.val) = false → released s.hw (l.val / 16) = true → rscOk s.hw l.val = true →
      (∀ delta, chanDelta (runDesign s.hw) l.val = delta.toNat → Ends (exec (.rscAlignComplete l true delta) s) fun t =>
        t.hw.rd (K.BORTIK_LINK_RSCSTAT_ALIGNED l.val) = 1 ∧ t.hw.rd (K.BORTIK_LINK_RSCSTAT_DELTA l.val) = delta.toNat) ∧
      (∀ delta, Ends (exec (.rscAlignComplete l false delta) s) (fun t => t.hw.rd (K.BORTIK_LINK_RSCSTAT_NOTSYNC l.val) = 1 ∧
        t.hw.rd (K.BORTIK_LINK_RSCSTAT_ALIGNED l.val) = 0))) ∧
    (s.hw.bit (K.BORTIK_LINK_RSC_EN l.val) = true → s.hw.bit (K.BORTIK_LINK_RSCSTAT_ALIGNED l.val) = true →
      Ends (exec (.rscSlip l) s) fun t => t.hw.rd (K.BORTIK_LINK_RSCSTAT_SLIP l.val) = 1 ∧
        t.hw.rd (K.BORTIK_LINK_RSCSTAT_ALIGNED l.val) = 0))

/-- A channel trains, retrains or fails; refreshes that a deadline holds back are counted, owed and paid; the audit, MR4 and
DQS leave their values; reads and writes of a line reach memory and are answered (R380, R384 to R396). -/
def Obligations.DramChannels : Prop :=
  (∀ (s : State) (n : Chan) (lane : Fin 16) (rank : Fin 4),
    (chState s.hw n.val = 1 → Ends (exec (.ddrTrainComplete n none) s) (fun t => chState t.hw n.val = 2) ∧
      Ends (exec (.ddrTrainComplete n (some (lane, rank))) s) (fun t =>
        chState t.hw n.val = 5 ∧ t.hw.rd (K.DDR_C_STAT_TRAINLANE n.val) = lane.val)) ∧
    (chState s.hw n.val = 4 → Ends (exec (.ddrRetrainComplete n none) s) (fun t => chState t.hw n.val = 2) ∧
      Ends (exec (.ddrRetrainComplete n (some (lane, rank))) s) (fun t => chState t.hw n.val = 5)) ∧
    (∀ m, csrGate s.hw m true (K.DDR_C_CMD_RETRAIN n.val).addr = .ok → chState s.hw n.val = 2 →
      Ends (exec (.ddrRetrain m n) s) fun t => chState t.hw n.val = 4 ∧ t.hw.mem = s.hw.mem)) ∧
  (∀ (s : State) (n : Chan) (rank : Fin 4), refreshing s.hw n.val rank.val = true → isDdr5 s.hw = false →
    (s.hw.bit (K.DDR_C_CTL_REFMODE n.val) = true → deadlineNear s.hw n.val = true → s.hw.rd (K.DDR_C_STAT_OWED n.val) < 8 →
      Ends (exec (.ddrRefreshDue n rank) s) fun t =>
        t.hw.rd (K.DDR_C_STAT_OWED n.val) = s.hw.rd (K.DDR_C_STAT_OWED n.val) + 1) ∧
    (rankBusy s.hw n.val rank.val = false → deadlineNear s.hw n.val = false → s.hw.rd (K.DDR_C_STAT_OWED n.val) ≤ 8 →
      Ends (exec (.ddrOwedRefreshPay n rank) s) fun t =>
        t.hw.rd (K.DDR_C_STAT_OWED n.val) = s.hw.rd (K.DDR_C_STAT_OWED n.val) - 1)) ∧
  (∀ (s : State) (n : Chan) (rank : Fin 4),
    (refreshing s.hw n.val rank.val = false → Ends (exec (.ddrRefreshDue n rank) s) (fun t => t = s) ∧
      Ends (exec (.ddrOwedRefreshPay n rank) s) (fun t => t = s)) ∧
    (refreshing s.hw n.val rank.val = true → (s.hw.bit (K.DDR_C_CTL_REFMODE n.val) = false ∨ deadlineNear s.hw n.val = false) →
      Ends (exec (.ddrRefreshDue n rank) s) fun t => t.hw.csr = s.hw.csr ∧ t.hw.mem = s.hw.mem ∧
        SMap.get t.hw.dram.sbDue (n.val * 4 + rank.val) 0 = 0)) ∧
  (∀ (s : State) (n : Chan) (rank b : Fin 4), Ends (exec (.ddrSameBankRefresh n rank b) s) fun t =>
    (SMap.get t.hw.dram.sbDue (n.val * 4 + rank.val) 0).testBit b.val = false ∧ t.hw.csr = s.hw.csr) ∧
  (∀ (s : State) (n : Chan) (want : Bool) (rank : Fin 4) (lane : Fin 16) (drift : Int), chState s.hw n.val = 2 → isDdr5 s.hw = true →
    (s.hw.bit (K.DDR_C_STAT_DOUBLED n.val) = want → Ends (exec (.ddrMr4Poll n want) s) fun t => t = s) ∧
    (s.hw.bit (K.DDR_C_STAT_DOUBLED n.val) ≠ want → Ends (exec (.ddrMr4Poll n want) s) fun t =>
      t.hw.rd (K.DDR_C_STAT_DOUBLED n.val) = b2n want) ∧
    Ends (exec (.ddrDqsTrack n rank lane drift) s) (fun t =>
      SMap.get t.hw.dram.dqs ((n.val * 4 + rank.val) * 16 + lane.val) 32768 =
        (((SMap.get s.hw.dram.dqs ((n.val * 4 + rank.val) * 16 + lane.val) 32768 : Nat) : Int) + drift).toNat)) ∧
  (∀ (s : State) (n : Chan) (want : Bool) (rank : Fin 4) (lane : Fin 16) (drift : Int) (rd wr : Fin 64), chState s.hw n.val ≠ 2 →
    Ends (exec (.ddrMr4Poll n want) s) (fun t => t = s) ∧ Ends (exec (.ddrDqsTrack n rank lane drift) s) (fun t => t = s) ∧
    Ends (exec (.ddrMarginAudit n rd wr) s) (fun t => t = s)) ∧
  (∀ (s : State) (n : Chan) (rd wr : Fin 64), (chState s.hw n.val = 2 → Ends (exec (.ddrMarginAudit n rd wr) s) fun t =>
      t.hw.rd (K.DDR_C_MARGIN_RD n.val) = rd.val ∧ t.hw.rd (K.DDR_C_MARGIN_WR n.val) = wr.val) ∧
    Ends (exec (.ddrRefreshWindow n) s) (fun t => ∀ e ∈ t.hw.dram.tables, e.1 / 256 ≠ n.val)) ∧
  (∀ (s : State) (i : Nat) (seen : List LineErrs), ready s.hw i = none →
    Ends (exec (.ddrRead i seen) s) (fun t => t = s) ∧ Ends (exec (.ddrWrite i seen) s) (fun t => t = s)) ∧
  (∀ (s : State) (i : Nat) (q : GReq) (seen : List LineErrs), ready s.hw i = some q → regionAt s.hw (q.addr - dramBase) = none →
    dramBase ≤ q.addr → q.m ≠ .guest →
    (q.kind = .read → 0 < q.size → q.addr % 64 + q.size ≤ 64 → Ends (exec (.ddrRead i seen) s) fun t =>
      t.hw.dram.queue = s.hw.dram.queue.eraseIdx i ∧
      match (judgeLine s.hw (ddrMap s.hw (q.addr - dramBase)).ch (seen.getD 0 [])).1 with
      | .clean => t.hw.mem = s.hw.mem ∧ t.hw.gal.resps = s.hw.gal.resps ++ [respOf q .ok
          (rawLine s.hw ((q.addr - dramBase) / 64 * 64) / 256 ^ ((q.addr - dramBase) % 64) % 256 ^ q.size)]
      | .corrected _ => s.hw.rd K.ERR_POSTMASK_MASK = 0 → t.hw.gal.resps = s.hw.gal.resps ++ [respOf q .ok
          (rawLine s.hw ((q.addr - dramBase) / 64 * 64) / 256 ^ ((q.addr - dramBase) % 64) % 256 ^ q.size)]
      | .uncorrectable => ∃ x, t.hw.gal.resps = s.hw.gal.resps ++ [respOf q .poison x]
      | .wrong _ v => t.hw.gal.resps = s.hw.gal.resps ++ [respOf q .ok (v / 256 ^ ((q.addr - dramBase) % 64) % 256 ^ q.size)]) ∧
    (q.kind = .write → q.size = 64 → q.addr % 64 = 0 → q.be = allOn 64 → Ends (exec (.ddrWrite i seen) s) fun t =>
      t.hw.gal.resps = s.hw.gal.resps ++ [respOf q .ok 0] ∧ t.hw.dram.queue = s.hw.dram.queue.eraseIdx i ∧
      t.hw.mem = s.hw.mem.writeN q.addr 64 (mergeBytes 64 0 q.data (allOn 64)) (allOn 64)))

/-- A region that is shut answers TGTERR; a cached one serves its plaintext; a fetched counter block enters the cache; an
install zeroes the counters; the Meridian engine advances page by page and ends with the new key; a page clear zeroes both
copies (R403 to R415). -/
def Obligations.CipherRegions : Prop :=
  (∀ (s : State) (i : Nat) (seen : List LineErrs), ready s.hw i = none →
    Ends (exec (.cipherRead i seen) s) (fun t => t = s) ∧ Ends (exec (.cipherWrite i seen) s) (fun t => t = s)) ∧
  (∀ (s : State) (i r : Nat) (q : GReq) (seen : List LineErrs), ready s.hw i = some q →
    regionAt s.hw (q.addr - dramBase) = some r → q.m ≠ .guest →
    (q.kind = .read → regionShut s.hw r = true → Ends (exec (.cipherRead i seen) s) fun t =>
      t.hw.gal.resps = s.hw.gal.resps ++ [respOf q .tgterr 0]) ∧
    (q.kind = .write → regionShut s.hw r = true → Ends (exec (.cipherWrite i seen) s) fun t =>
      t.hw.gal.resps = s.hw.gal.resps ++ [respOf q .tgterr 0]) ∧
    (regionShut s.hw r = false → cached s.hw r ((q.addr - dramBase) / 4096 - regBase s.hw r) = true → dramBase ≤ q.addr →
      isPoisoned s.hw r ((q.addr - dramBase) / 4096 - regBase s.hw r) = false →
      (q.kind = .read → 0 < q.size → q.addr % 64 + q.size ≤ 64 → Ends (exec (.cipherRead i seen) s) fun t =>
        match (judgeLine s.hw (ddrMap s.hw (q.addr - dramBase)).ch (seen.getD 0 [])).1 with
        | .clean => t.hw.mem = s.hw.mem ∧ t.hw.gal.resps = s.hw.gal.resps ++ [respOf q .ok
            (plainLine s.hw r ((q.addr - dramBase) / 64 * 64) / 256 ^ ((q.addr - dramBase) % 64) % 256 ^ q.size)]
        | .corrected _ => s.hw.rd K.ERR_POSTMASK_MASK = 0 → t.hw.gal.resps = s.hw.gal.resps ++ [respOf q .ok
            (plainLine s.hw r ((q.addr - dramBase) / 64 * 64) / 256 ^ ((q.addr - dramBase) % 64) % 256 ^ q.size)]
        | .uncorrectable => ∃ x, t.hw.gal.resps = s.hw.gal.resps ++ [respOf q .poison x]
        | .wrong _ v => t.hw.gal.resps = s.hw.gal.resps ++ [respOf q .ok (v / 256 ^ ((q.addr - dramBase) % 64) % 256 ^ q.size)]) ∧
      (q.kind = .write → q.size = 64 → q.addr % 64 = 0 → q.be = allOn 64 →
        s.hw.dram.ended.contains (pageNo r ((q.addr - dramBase) / 4096 - regBase s.hw r)) = false →
        (readCopy s.hw r ((q.addr - dramBase) / 4096 - regBase s.hw r) 0).minor ((q.addr - dramBase) / 64 % 64) < 2 ^ 14 - 1 →
        Ends (exec (.cipherWrite i seen) s) fun t => t.hw.gal.resps = s.hw.gal.resps ++ [respOf q .ok 0] ∧
          t.hw.dram.queue = s.hw.dram.queue.eraseIdx i))) ∧
  (∀ (s : State) (r : Fin 16) (page : Nat), (∃ q ∈ s.hw.dram.queue, regionAt s.hw (q.addr - dramBase) = some r.val ∧
      (q.addr - dramBase) / 4096 - regBase s.hw r.val = page) → cached s.hw r.val page = false →
    isPoisoned s.hw r.val page = false →
    (Ends (exec (.counterFetchComplete r page true true) s) fun t => cached t.hw r.val page = true ∧
      (readCopy s.hw r.val page 0 = readCopy s.hw r.val page 1 → t.hw.mem = s.hw.mem) ∧
      (readCopy s.hw r.val page 0 ≠ readCopy s.hw r.val page 1 → t.hw.rd K.CIPH_CNT_MISMATCH =
        min (2 ^ K.CIPH_CNT_MISMATCH.w - 1) (s.hw.rd K.CIPH_CNT_MISMATCH + 1))) ∧
    (∀ a b : Bool, a ≠ b → Ends (exec (.counterFetchComplete r page a b) s) fun t => cached t.hw r.val page = true ∧
      t.hw.rd K.CIPH_CNT_CTRFIX = min (2 ^ K.CIPH_CNT_CTRFIX.w - 1) (s.hw.rd K.CIPH_CNT_CTRFIX + 1)) ∧
    Ends (exec (.counterFetchComplete r page false false) s) (fun t => isPoisoned t.hw r.val page = true)) ∧
  (∀ (s : State) (r : Fin 16) (page : Nat) (a b : Bool), cached s.hw r.val page = true →
    Ends (exec (.counterFetchComplete r page a b) s) fun t => t = s) ∧
  (∀ (s : State) (r : Fin 16), (s.hw.rd K.CIPH_STAT_INSTALL).testBit r.val = true →
    Ends (exec (.cipherInstallComplete r) s) fun t => (t.hw.rd K.CIPH_STAT_INSTALL).testBit r.val = false ∧
      ∀ a, dramBase + regCtr s.hw r.val * 4096 ≤ a →
        a < dramBase + regCtr s.hw r.val * 4096 + regPages s.hw r.val * 256 → t.hw.mem.readByte a = 0) ∧
  (∀ (s : State) (r : Fin 16) (key : Nat), ciphPend s.hw r.val = some key → (s.hw.rd K.CIPH_STAT_REKEY).testBit r.val = true →
    Ends (exec (.meridianPage r) s) fun t =>
      t.hw.rd (K.CIPH_R_MER_MERIDIAN r.val) = (s.hw.rd (K.CIPH_R_MER_MERIDIAN r.val) + 1) % 2 ^ (K.CIPH_R_MER_MERIDIAN r.val).w ∧
      (regLimit s.hw r.val ≤ s.hw.rd (K.CIPH_R_MER_MERIDIAN r.val) + 1 → ciphCur t.hw r.val = some key ∧
        ciphPend t.hw r.val = none ∧ (t.hw.rd K.CIPH_STAT_REKEY).testBit r.val = false)) ∧
  (∀ (s : State) (m : Master) (page : BitVec 27) (r : Nat), csrGate s.hw m true K.CIPH_CMD_CLR.addr = .ok →
    regionAt s.hw (page.toNat * 4096) = some r → Ends (exec (.cipherPageClear m page) s) fun t =>
      readCopy t.hw r (page.toNat - regBase s.hw r) 0 = ⟨0, 0⟩ ∧ readCopy t.hw r (page.toNat - regBase s.hw r) 1 = ⟨0, 0⟩ ∧
      isPoisoned t.hw r (page.toNat - regBase s.hw r) = false)
end

