-- ==== Sys2Proof/Laws/Design.lean ====
section
/-!
SUPPORT. When time passes for the user design: not where every network of the device stands still.
-/
namespace Sys2Proof.Machine

/-- Nothing happens in the design where no network runs. -/
theorem runDesign_still {h : Hw} (e : anyRuns h = false) : runDesign h = h := by simp [runDesign, e]

/-- A halted network delivers no edges. -/
theorem netRuns_of_halted {h : Hw} {n m : Nat} (e : netHalted h n m = true) : netRuns h n m = false := by simp [netRuns, e]

/-- No network runs where every one is halted. -/
theorem anyRuns_of_halted {h : Hw} (e : ∀ n m, n < 4 → m < 64 → netHalted h n m = true) : anyRuns h = false := by
  simp only [anyRuns, List.any_eq_false, List.mem_range]
  intro i hi
  simp [netRuns_of_halted (e (i / 64) (i % 64) (by omega) (by omega))]

/-- Time passes without effect where every network is halted. -/
theorem runDesign_halted {h : Hw} (e : ∀ n m, n < 4 → m < 64 → netHalted h n m = true) : runDesign h = h :=
  runDesign_still (anyRuns_of_halted e)

/-- A gate that is closed stays as it is. -/
theorem closeGate_of_halted {h : Hw} {n m : Nat} (e : netHalted h n m = true) : closeGate h n m = h := by simp [closeGate, e]

/-- A command to close a gate at which edges arrive waits for the next falling edge. -/
theorem closeGate_waits {h : Hw} {n m : Nat} (e : netHalted h n m = false) (ed : netEdges h n m = true) :
    closeGate h n m = (runDesign h).onNet n m fun x => { x with closing := true } := by simp [closeGate, e, ed]

/-- With no edges coming the gate closes at once. -/
theorem closeGate_at_once {h : Hw} {n m : Nat} (e : netHalted h n m = false) (ed : netEdges h n m = false) :
    closeGate h n m = gateClosed h n m := by simp [closeGate, e, ed]

end Sys2Proof.Machine
end

