-- ==== Sys2Proof/Laws/Map.lean ====
section
/-!
SUPPORT. Reading a sparse table after a write, and the canonical form of tables.
-/
namespace Sys2Proof.Machine.SMap
variable {α : Type}

@[simp] theorem get_nil (k : Nat) (d : α) : get ([] : SMap α) k d = d := rfl

/-- Nothing is listed for an erased key. -/
@[simp] theorem get_erase_self (m : SMap α) (k : Nat) (d : α) : get (erase m k) k d = d := by
  induction m with
  | nil => rfl
  | cons e r ih =>
    obtain ⟨a, v⟩ := e
    by_cases h : a = k <;> simp [erase, get, h, ih]

/-- Other keys keep their value. -/
theorem get_erase_ne (m : SMap α) {k j : Nat} (h : j ≠ k) (d : α) : get (erase m k) j d = get m j d := by
  induction m with
  | nil => rfl
  | cons e r ih =>
    obtain ⟨a, v⟩ := e
    by_cases hk : a = k
    · subst hk; simp [erase, get, ih, h.symm]
    · simp only [erase, hk, if_false, get, ih]

/-- A fresh key inserted reads as its value. -/
theorem get_ins_self (m : SMap α) (k : Nat) (v d : α) (h : ∀ e ∈ m, e.1 ≠ k) : get (ins m k v) k d = v := by
  induction m with
  | nil => simp [ins, get]
  | cons e r ih =>
    obtain ⟨a, x⟩ := e
    have ha : a ≠ k := h (a, x) (by simp)
    by_cases hk : k < a <;> simp [ins, get, hk, ha]
    exact ih fun e he => h e (by simp [he])

theorem get_ins_ne (m : SMap α) {k j : Nat} (v d : α) (h : j ≠ k) : get (ins m k v) j d = get m j d := by
  induction m with
  | nil => simp [ins, get, h.symm]
  | cons e r ih =>
    obtain ⟨a, x⟩ := e
    by_cases hk : k < a
    · simp [ins, get, hk, h.symm]
    · simp only [ins, hk, if_false, get, ih]

theorem mem_erase_ne (m : SMap α) (k : Nat) : ∀ e ∈ erase m k, e.1 ≠ k := by
  induction m with
  | nil => simp [erase]
  | cons e r ih =>
    obtain ⟨a, v⟩ := e
    by_cases hk : a = k
    · simpa [erase, hk] using ih
    · intro e he
      simp only [erase, hk, if_false, List.mem_cons] at he
      rcases he with rfl | he
      · exact hk
      · exact ih e he

/-- Read after write, the same key. -/
@[simp] theorem get_set_self [DecidableEq α] (m : SMap α) (k : Nat) (v d : α) : get (set m k v d) k d = v := by
  unfold set
  split
  · next h => simp [h]
  · exact get_ins_self _ _ _ _ (mem_erase_ne m k)

/-- Read after write, another key. -/
theorem get_set_ne [DecidableEq α] (m : SMap α) {k j : Nat} (h : j ≠ k) (v d e : α) :
    get (set m k v d) j e = get m j e := by
  unfold set
  split
  · exact get_erase_ne m h e
  · rw [get_ins_ne _ _ _ h, get_erase_ne m h]

/-- A table written with `put` reads the same way. -/
@[simp] theorem get_put_self (m : SMap α) (k : Nat) (v d : α) : get (put m k v) k d = v :=
  get_ins_self _ _ _ _ (mem_erase_ne m k)
theorem get_put_ne (m : SMap α) {k j : Nat} (h : j ≠ k) (v e : α) : get (put m k v) j e = get m j e := by
  rw [put, get_ins_ne _ _ _ h, get_erase_ne m h]

/-! ### The canonical form -/

/-- The keys of a table lie at or above b and rise. -/
theorem rising_mono {m : SMap α} {b c : Nat} (h : rising c m = true) (hb : b ≤ c) : rising b m = true := by
  cases m with
  | nil => rfl
  | cons e r =>
    obtain ⟨a, v⟩ := e
    simp only [rising, Bool.and_eq_true, decide_eq_true_eq] at h ⊢
    exact ⟨by omega, h.2⟩

theorem rising_erase {m : SMap α} {b : Nat} (h : rising b m = true) (k : Nat) : rising b (erase m k) = true := by
  induction m generalizing b with
  | nil => rfl
  | cons e r ih =>
    obtain ⟨a, v⟩ := e
    simp only [rising, Bool.and_eq_true, decide_eq_true_eq] at h
    by_cases hk : a = k
    · simpa [erase, hk] using rising_mono (ih h.2) (by omega : b ≤ a + 1)
    · simpa [erase, hk, rising, h.1] using ih h.2

theorem rising_ins {m : SMap α} {b k : Nat} (h : rising b m = true) (hb : b ≤ k) (hk : ∀ e ∈ m, e.1 ≠ k) (v : α) :
    rising b (ins m k v) = true := by
  induction m generalizing b with
  | nil => simp [ins, rising, hb]
  | cons e r ih =>
    obtain ⟨a, x⟩ := e
    have ha : a ≠ k := hk (a, x) (by simp)
    simp only [rising, Bool.and_eq_true, decide_eq_true_eq] at h
    by_cases hlt : k < a
    · simp only [ins, hlt, if_true, rising, Bool.and_eq_true, decide_eq_true_eq]
      exact ⟨hb, by omega, h.2⟩
    · simp only [ins, hlt, if_false, rising, Bool.and_eq_true, decide_eq_true_eq]
      exact ⟨h.1, ih h.2 (by omega) fun e he => hk e (by simp [he])⟩

theorem mem_ins {m : SMap α} {k : Nat} {v : α} {e : Nat × α} (h : e ∈ ins m k v) : e = (k, v) ∨ e ∈ m := by
  induction m with
  | nil => simpa [ins] using h
  | cons x r ih =>
    by_cases hk : k < x.1
    · simpa [ins, hk] using h
    · simp only [ins, hk, if_false, List.mem_cons] at h
      rcases h with h | h
      · exact .inr (by simp [h])
      · rcases ih h with h | h
        · exact .inl h
        · exact .inr (by simp [h])

theorem mem_of_mem_erase {m : SMap α} {k : Nat} {e : Nat × α} (h : e ∈ erase m k) : e ∈ m := by
  induction m with
  | nil => simp [erase] at h
  | cons x r ih =>
    by_cases hk : x.1 = k
    · simp only [erase, hk, if_true] at h
      exact List.mem_cons_of_mem _ (ih h)
    · simp only [erase, hk, if_false, List.mem_cons] at h
      rcases h with h | h
      · simp [h]
      · exact List.mem_cons_of_mem _ (ih h)

/-- A write keeps the canonical form. -/
theorem wf_set [DecidableEq α] {dflt : Nat → α} {m : SMap α} (h : wf dflt m = true) (k : Nat) (v : α) :
    wf dflt (set m k v (dflt k)) = true := by
  simp only [wf, Bool.and_eq_true, List.all_eq_true, decide_eq_true_eq] at h ⊢
  unfold set
  split
  · exact ⟨rising_erase h.1 k, fun e he => h.2 e (mem_of_mem_erase he)⟩
  · next hv =>
    refine ⟨rising_ins (rising_erase h.1 k) (Nat.zero_le k) (mem_erase_ne m k) v, fun e he => ?_⟩
    rcases mem_ins he with rfl | he
    · exact hv
    · exact h.2 e (mem_of_mem_erase he)

end Sys2Proof.Machine.SMap
end

