-- ==== Sys2Proof/Laws/Memory.lean ====
section
/-!
SUPPORT. The memory operations: what a byte reads as after a write, and that each of them keeps the canonical form.
-/
namespace Sys2Proof.Machine

/-- Erasing an entry keeps the canonical form of a table. -/
theorem SMap.wf_erase {α : Type} [DecidableEq α] {dflt : Nat → α} {m : SMap α} (h : SMap.wf dflt m = true) (k : Nat) :
    SMap.wf dflt (SMap.erase m k) = true := by
  simp only [SMap.wf, Bool.and_eq_true, List.all_eq_true, decide_eq_true_eq] at h ⊢
  exact ⟨SMap.rising_erase h.1 k, fun e he => h.2 e (SMap.mem_of_mem_erase he)⟩

/-- Keeping some of the entries keeps the rising order. -/
theorem SMap.rising_filter {α : Type} {m : SMap α} {b : Nat} (h : SMap.rising b m = true) (p : Nat × α → Bool) :
    SMap.rising b (m.filter p) = true := by
  induction m generalizing b with
  | nil => rfl
  | cons e r ih =>
    obtain ⟨a, v⟩ := e
    simp only [SMap.rising, Bool.and_eq_true, decide_eq_true_eq] at h
    by_cases hp : p (a, v) = true
    · simp only [List.filter_cons, hp, if_true, SMap.rising, Bool.and_eq_true, decide_eq_true_eq]
      exact ⟨h.1, ih h.2⟩
    · simp only [List.filter_cons, hp]
      exact SMap.rising_mono (ih h.2) (Nat.le_succ_of_le h.1)

namespace Mem

@[simp] theorem readByte_writeByte_self (m : Mem) (a : Nat) (b : Byte) : (m.writeByte a b).readByte a = b := by
  simp [readByte, writeByte]
theorem readByte_writeByte_ne (m : Mem) {a p : Nat} (h : p ≠ a) (b : Byte) : (m.writeByte a b).readByte p = m.readByte p := by
  simp [readByte, writeByte, SMap.get_set_ne _ h]
@[simp] theorem readByte_writeRaw_self (m : Mem) (a : Nat) (b : Byte) (c : Nat) : (m.writeRaw a b c).readByte a = b := by
  simp [readByte, writeRaw]
theorem readByte_writeRaw_ne (m : Mem) {a p : Nat} (h : p ≠ a) (b : Byte) (c : Nat) :
    (m.writeRaw a b c).readByte p = m.readByte p := by
  simp [readByte, writeRaw, SMap.get_set_ne _ h]

theorem wf_writeByte {m : Mem} (h : m.wf = true) (a : Nat) (b : Byte) : (m.writeByte a b).wf = true := by
  simp only [wf, Bool.and_eq_true] at h ⊢
  exact ⟨SMap.wf_set h.1 a b, SMap.wf_erase h.2 a⟩
theorem wf_writeRaw {m : Mem} (h : m.wf = true) (a : Nat) (b : Byte) (c : Nat) : (m.writeRaw a b c).wf = true := by
  simp only [wf, Bool.and_eq_true] at h ⊢
  exact ⟨SMap.wf_set h.1 a b, SMap.wf_set h.2 a _⟩

/-- A fold of steps that each keep the canonical form keeps it. -/
theorem wf_foldl {ι : Type} {f : Mem → ι → Mem} (hf : ∀ m i, m.wf = true → (f m i).wf = true) (l : List ι) {m : Mem}
    (h : m.wf = true) : (l.foldl f m).wf = true := by
  induction l generalizing m with
  | nil => exact h
  | cons x r ih => exact ih (hf m x h)

theorem wf_writeN {m : Mem} (h : m.wf = true) (a n data be : Nat) : (m.writeN a n data be).wf = true := by
  refine wf_foldl (fun m i hm => ?_) _ h
  split
  · exact wf_writeByte hm _ _
  · exact hm

/-- Dropping cells keeps the canonical form: the clearing of a counter area. -/
theorem wf_dropCells {m : Mem} (h : m.wf = true) (p : Nat × Byte → Bool) :
    ({ m with cells := m.cells.filter p } : Mem).wf = true := by
  simp only [wf, SMap.wf, Bool.and_eq_true, List.all_eq_true, decide_eq_true_eq] at h ⊢
  exact ⟨⟨SMap.rising_filter h.1.1 p, fun e he => h.1.2 e (List.mem_of_mem_filter he)⟩, h.2⟩

/-- Empty memory, the memory of reset among them, is in canonical form. -/
theorem wf_empty : ({} : Mem).wf = true := rfl
theorem wf_reset : State.reset.hw.mem.wf = true := rfl

end Mem
end Sys2Proof.Machine
end

