-- ==== Sys2Proof/Laws/State.lean ====
section
/-!
SUPPORT. What each named update of the device leaves alone, one lemma per field and update, and what a read finds after a
write.
-/
namespace Sys2Proof.Machine.Hw

variable (h : Hw)

/-! #### wr -/
@[simp] theorem wr_shadow (k : Key) (v : Nat) : (h.wr k v).shadow = h.shadow := rfl
@[simp] theorem wr_mem (k : Key) (v : Nat) : (h.wr k v).mem = h.mem := rfl
@[simp] theorem wr_gal (k : Key) (v : Nat) : (h.wr k v).gal = h.gal := rfl
@[simp] theorem wr_sched (k : Key) (v : Nat) : (h.wr k v).sched = h.sched := rfl
@[simp] theorem wr_cores (k : Key) (v : Nat) : (h.wr k v).cores = h.cores := rfl
@[simp] theorem wr_clk (k : Key) (v : Nat) : (h.wr k v).clk = h.clk := rfl
@[simp] theorem wr_seam (k : Key) (v : Nat) : (h.wr k v).seam = h.seam := rfl
@[simp] theorem wr_dies (k : Key) (v : Nat) : (h.wr k v).dies = h.dies := rfl
@[simp] theorem wr_strata (k : Key) (v : Nat) : (h.wr k v).strata = h.strata := rfl
@[simp] theorem wr_assay (k : Key) (v : Nat) : (h.wr k v).assay = h.assay := rfl
@[simp] theorem wr_keys (k : Key) (v : Nat) : (h.wr k v).keys = h.keys := rfl
@[simp] theorem wr_ldr (k : Key) (v : Nat) : (h.wr k v).ldr = h.ldr := rfl
@[simp] theorem wr_pins (k : Key) (v : Nat) : (h.wr k v).pins = h.pins := rfl
@[simp] theorem wr_pcie (k : Key) (v : Nat) : (h.wr k v).pcie = h.pcie := rfl
@[simp] theorem wr_bortik (k : Key) (v : Nat) : (h.wr k v).bortik = h.bortik := rfl
@[simp] theorem wr_dram (k : Key) (v : Nat) : (h.wr k v).dram = h.dram := rfl
@[simp] theorem wr_rst (k : Key) (v : Nat) : (h.wr k v).rst = h.rst := rfl
@[simp] theorem wr_pwr (k : Key) (v : Nat) : (h.wr k v).pwr = h.pwr := rfl
@[simp] theorem wr_guest (k : Key) (v : Nat) : (h.wr k v).guest = h.guest := rfl
@[simp] theorem wr_debug (k : Key) (v : Nat) : (h.wr k v).dbg = h.dbg := rfl
@[simp] theorem wr_freeCtr (k : Key) (v : Nat) : (h.wr k v).freeCtr = h.freeCtr := rfl
@[simp] theorem wr_ecount (k : Key) (v : Nat) : (h.wr k v).ecount = h.ecount := rfl

/-! #### wrB -/
@[simp] theorem wrB_shadow (k : Key) (b : Bool) : (h.wrB k b).shadow = h.shadow := rfl
@[simp] theorem wrB_mem (k : Key) (b : Bool) : (h.wrB k b).mem = h.mem := rfl
@[simp] theorem wrB_gal (k : Key) (b : Bool) : (h.wrB k b).gal = h.gal := rfl
@[simp] theorem wrB_sched (k : Key) (b : Bool) : (h.wrB k b).sched = h.sched := rfl
@[simp] theorem wrB_cores (k : Key) (b : Bool) : (h.wrB k b).cores = h.cores := rfl
@[simp] theorem wrB_clk (k : Key) (b : Bool) : (h.wrB k b).clk = h.clk := rfl
@[simp] theorem wrB_seam (k : Key) (b : Bool) : (h.wrB k b).seam = h.seam := rfl
@[simp] theorem wrB_dies (k : Key) (b : Bool) : (h.wrB k b).dies = h.dies := rfl
@[simp] theorem wrB_strata (k : Key) (b : Bool) : (h.wrB k b).strata = h.strata := rfl
@[simp] theorem wrB_assay (k : Key) (b : Bool) : (h.wrB k b).assay = h.assay := rfl
@[simp] theorem wrB_keys (k : Key) (b : Bool) : (h.wrB k b).keys = h.keys := rfl
@[simp] theorem wrB_ldr (k : Key) (b : Bool) : (h.wrB k b).ldr = h.ldr := rfl
@[simp] theorem wrB_pins (k : Key) (b : Bool) : (h.wrB k b).pins = h.pins := rfl
@[simp] theorem wrB_pcie (k : Key) (b : Bool) : (h.wrB k b).pcie = h.pcie := rfl
@[simp] theorem wrB_bortik (k : Key) (b : Bool) : (h.wrB k b).bortik = h.bortik := rfl
@[simp] theorem wrB_dram (k : Key) (b : Bool) : (h.wrB k b).dram = h.dram := rfl
@[simp] theorem wrB_rst (k : Key) (b : Bool) : (h.wrB k b).rst = h.rst := rfl
@[simp] theorem wrB_pwr (k : Key) (b : Bool) : (h.wrB k b).pwr = h.pwr := rfl
@[simp] theorem wrB_guest (k : Key) (b : Bool) : (h.wrB k b).guest = h.guest := rfl
@[simp] theorem wrB_debug (k : Key) (b : Bool) : (h.wrB k b).dbg = h.dbg := rfl
@[simp] theorem wrB_freeCtr (k : Key) (b : Bool) : (h.wrB k b).freeCtr = h.freeCtr := rfl
@[simp] theorem wrB_ecount (k : Key) (b : Bool) : (h.wrB k b).ecount = h.ecount := rfl

/-! #### addSat -/
@[simp] theorem addSat_shadow (k : Key) (n : Nat) : (h.addSat k n).shadow = h.shadow := rfl
@[simp] theorem addSat_mem (k : Key) (n : Nat) : (h.addSat k n).mem = h.mem := rfl
@[simp] theorem addSat_gal (k : Key) (n : Nat) : (h.addSat k n).gal = h.gal := rfl
@[simp] theorem addSat_sched (k : Key) (n : Nat) : (h.addSat k n).sched = h.sched := rfl
@[simp] theorem addSat_cores (k : Key) (n : Nat) : (h.addSat k n).cores = h.cores := rfl
@[simp] theorem addSat_clk (k : Key) (n : Nat) : (h.addSat k n).clk = h.clk := rfl
@[simp] theorem addSat_seam (k : Key) (n : Nat) : (h.addSat k n).seam = h.seam := rfl
@[simp] theorem addSat_dies (k : Key) (n : Nat) : (h.addSat k n).dies = h.dies := rfl
@[simp] theorem addSat_strata (k : Key) (n : Nat) : (h.addSat k n).strata = h.strata := rfl
@[simp] theorem addSat_assay (k : Key) (n : Nat) : (h.addSat k n).assay = h.assay := rfl
@[simp] theorem addSat_keys (k : Key) (n : Nat) : (h.addSat k n).keys = h.keys := rfl
@[simp] theorem addSat_ldr (k : Key) (n : Nat) : (h.addSat k n).ldr = h.ldr := rfl
@[simp] theorem addSat_pins (k : Key) (n : Nat) : (h.addSat k n).pins = h.pins := rfl
@[simp] theorem addSat_pcie (k : Key) (n : Nat) : (h.addSat k n).pcie = h.pcie := rfl
@[simp] theorem addSat_bortik (k : Key) (n : Nat) : (h.addSat k n).bortik = h.bortik := rfl
@[simp] theorem addSat_dram (k : Key) (n : Nat) : (h.addSat k n).dram = h.dram := rfl
@[simp] theorem addSat_rst (k : Key) (n : Nat) : (h.addSat k n).rst = h.rst := rfl
@[simp] theorem addSat_pwr (k : Key) (n : Nat) : (h.addSat k n).pwr = h.pwr := rfl
@[simp] theorem addSat_guest (k : Key) (n : Nat) : (h.addSat k n).guest = h.guest := rfl
@[simp] theorem addSat_debug (k : Key) (n : Nat) : (h.addSat k n).dbg = h.dbg := rfl
@[simp] theorem addSat_freeCtr (k : Key) (n : Nat) : (h.addSat k n).freeCtr = h.freeCtr := rfl
@[simp] theorem addSat_ecount (k : Key) (n : Nat) : (h.addSat k n).ecount = h.ecount := rfl

/-! #### cnt -/
@[simp] theorem cnt_shadow (k : Key) : (h.cnt k).shadow = h.shadow := rfl
@[simp] theorem cnt_mem (k : Key) : (h.cnt k).mem = h.mem := rfl
@[simp] theorem cnt_gal (k : Key) : (h.cnt k).gal = h.gal := rfl
@[simp] theorem cnt_sched (k : Key) : (h.cnt k).sched = h.sched := rfl
@[simp] theorem cnt_cores (k : Key) : (h.cnt k).cores = h.cores := rfl
@[simp] theorem cnt_clk (k : Key) : (h.cnt k).clk = h.clk := rfl
@[simp] theorem cnt_seam (k : Key) : (h.cnt k).seam = h.seam := rfl
@[simp] theorem cnt_dies (k : Key) : (h.cnt k).dies = h.dies := rfl
@[simp] theorem cnt_strata (k : Key) : (h.cnt k).strata = h.strata := rfl
@[simp] theorem cnt_assay (k : Key) : (h.cnt k).assay = h.assay := rfl
@[simp] theorem cnt_keys (k : Key) : (h.cnt k).keys = h.keys := rfl
@[simp] theorem cnt_ldr (k : Key) : (h.cnt k).ldr = h.ldr := rfl
@[simp] theorem cnt_pins (k : Key) : (h.cnt k).pins = h.pins := rfl
@[simp] theorem cnt_pcie (k : Key) : (h.cnt k).pcie = h.pcie := rfl
@[simp] theorem cnt_bortik (k : Key) : (h.cnt k).bortik = h.bortik := rfl
@[simp] theorem cnt_dram (k : Key) : (h.cnt k).dram = h.dram := rfl
@[simp] theorem cnt_rst (k : Key) : (h.cnt k).rst = h.rst := rfl
@[simp] theorem cnt_pwr (k : Key) : (h.cnt k).pwr = h.pwr := rfl
@[simp] theorem cnt_guest (k : Key) : (h.cnt k).guest = h.guest := rfl
@[simp] theorem cnt_debug (k : Key) : (h.cnt k).dbg = h.dbg := rfl
@[simp] theorem cnt_freeCtr (k : Key) : (h.cnt k).freeCtr = h.freeCtr := rfl
@[simp] theorem cnt_ecount (k : Key) : (h.cnt k).ecount = h.ecount := rfl

/-! #### wrSh -/
@[simp] theorem wrSh_csr (k : Key) (v : Nat) : (h.wrSh k v).csr = h.csr := rfl
@[simp] theorem wrSh_mem (k : Key) (v : Nat) : (h.wrSh k v).mem = h.mem := rfl
@[simp] theorem wrSh_gal (k : Key) (v : Nat) : (h.wrSh k v).gal = h.gal := rfl
@[simp] theorem wrSh_sched (k : Key) (v : Nat) : (h.wrSh k v).sched = h.sched := rfl
@[simp] theorem wrSh_cores (k : Key) (v : Nat) : (h.wrSh k v).cores = h.cores := rfl
@[simp] theorem wrSh_clk (k : Key) (v : Nat) : (h.wrSh k v).clk = h.clk := rfl
@[simp] theorem wrSh_seam (k : Key) (v : Nat) : (h.wrSh k v).seam = h.seam := rfl
@[simp] theorem wrSh_dies (k : Key) (v : Nat) : (h.wrSh k v).dies = h.dies := rfl
@[simp] theorem wrSh_strata (k : Key) (v : Nat) : (h.wrSh k v).strata = h.strata := rfl
@[simp] theorem wrSh_assay (k : Key) (v : Nat) : (h.wrSh k v).assay = h.assay := rfl
@[simp] theorem wrSh_keys (k : Key) (v : Nat) : (h.wrSh k v).keys = h.keys := rfl
@[simp] theorem wrSh_ldr (k : Key) (v : Nat) : (h.wrSh k v).ldr = h.ldr := rfl
@[simp] theorem wrSh_pins (k : Key) (v : Nat) : (h.wrSh k v).pins = h.pins := rfl
@[simp] theorem wrSh_pcie (k : Key) (v : Nat) : (h.wrSh k v).pcie = h.pcie := rfl
@[simp] theorem wrSh_bortik (k : Key) (v : Nat) : (h.wrSh k v).bortik = h.bortik := rfl
@[simp] theorem wrSh_dram (k : Key) (v : Nat) : (h.wrSh k v).dram = h.dram := rfl
@[simp] theorem wrSh_rst (k : Key) (v : Nat) : (h.wrSh k v).rst = h.rst := rfl
@[simp] theorem wrSh_pwr (k : Key) (v : Nat) : (h.wrSh k v).pwr = h.pwr := rfl
@[simp] theorem wrSh_guest (k : Key) (v : Nat) : (h.wrSh k v).guest = h.guest := rfl
@[simp] theorem wrSh_debug (k : Key) (v : Nat) : (h.wrSh k v).dbg = h.dbg := rfl
@[simp] theorem wrSh_freeCtr (k : Key) (v : Nat) : (h.wrSh k v).freeCtr = h.freeCtr := rfl
@[simp] theorem wrSh_ecount (k : Key) (v : Nat) : (h.wrSh k v).ecount = h.ecount := rfl

/-! #### wrBoth -/
@[simp] theorem wrBoth_mem (k : Key) (v : Nat) : (h.wrBoth k v).mem = h.mem := rfl
@[simp] theorem wrBoth_gal (k : Key) (v : Nat) : (h.wrBoth k v).gal = h.gal := rfl
@[simp] theorem wrBoth_sched (k : Key) (v : Nat) : (h.wrBoth k v).sched = h.sched := rfl
@[simp] theorem wrBoth_cores (k : Key) (v : Nat) : (h.wrBoth k v).cores = h.cores := rfl
@[simp] theorem wrBoth_clk (k : Key) (v : Nat) : (h.wrBoth k v).clk = h.clk := rfl
@[simp] theorem wrBoth_seam (k : Key) (v : Nat) : (h.wrBoth k v).seam = h.seam := rfl
@[simp] theorem wrBoth_dies (k : Key) (v : Nat) : (h.wrBoth k v).dies = h.dies := rfl
@[simp] theorem wrBoth_strata (k : Key) (v : Nat) : (h.wrBoth k v).strata = h.strata := rfl
@[simp] theorem wrBoth_assay (k : Key) (v : Nat) : (h.wrBoth k v).assay = h.assay := rfl
@[simp] theorem wrBoth_keys (k : Key) (v : Nat) : (h.wrBoth k v).keys = h.keys := rfl
@[simp] theorem wrBoth_ldr (k : Key) (v : Nat) : (h.wrBoth k v).ldr = h.ldr := rfl
@[simp] theorem wrBoth_pins (k : Key) (v : Nat) : (h.wrBoth k v).pins = h.pins := rfl
@[simp] theorem wrBoth_pcie (k : Key) (v : Nat) : (h.wrBoth k v).pcie = h.pcie := rfl
@[simp] theorem wrBoth_bortik (k : Key) (v : Nat) : (h.wrBoth k v).bortik = h.bortik := rfl
@[simp] theorem wrBoth_dram (k : Key) (v : Nat) : (h.wrBoth k v).dram = h.dram := rfl
@[simp] theorem wrBoth_rst (k : Key) (v : Nat) : (h.wrBoth k v).rst = h.rst := rfl
@[simp] theorem wrBoth_pwr (k : Key) (v : Nat) : (h.wrBoth k v).pwr = h.pwr := rfl
@[simp] theorem wrBoth_guest (k : Key) (v : Nat) : (h.wrBoth k v).guest = h.guest := rfl
@[simp] theorem wrBoth_debug (k : Key) (v : Nat) : (h.wrBoth k v).dbg = h.dbg := rfl
@[simp] theorem wrBoth_freeCtr (k : Key) (v : Nat) : (h.wrBoth k v).freeCtr = h.freeCtr := rfl
@[simp] theorem wrBoth_ecount (k : Key) (v : Nat) : (h.wrBoth k v).ecount = h.ecount := rfl

/-! #### draw -/
@[simp] theorem draw_csr : (h.draw.2).csr = h.csr := rfl
@[simp] theorem draw_shadow : (h.draw.2).shadow = h.shadow := rfl
@[simp] theorem draw_mem : (h.draw.2).mem = h.mem := rfl
@[simp] theorem draw_gal : (h.draw.2).gal = h.gal := rfl
@[simp] theorem draw_sched : (h.draw.2).sched = h.sched := rfl
@[simp] theorem draw_cores : (h.draw.2).cores = h.cores := rfl
@[simp] theorem draw_clk : (h.draw.2).clk = h.clk := rfl
@[simp] theorem draw_seam : (h.draw.2).seam = h.seam := rfl
@[simp] theorem draw_dies : (h.draw.2).dies = h.dies := rfl
@[simp] theorem draw_strata : (h.draw.2).strata = h.strata := rfl
@[simp] theorem draw_assay : (h.draw.2).assay = h.assay := rfl
@[simp] theorem draw_keys : (h.draw.2).keys = h.keys := rfl
@[simp] theorem draw_ldr : (h.draw.2).ldr = h.ldr := rfl
@[simp] theorem draw_pins : (h.draw.2).pins = h.pins := rfl
@[simp] theorem draw_pcie : (h.draw.2).pcie = h.pcie := rfl
@[simp] theorem draw_bortik : (h.draw.2).bortik = h.bortik := rfl
@[simp] theorem draw_dram : (h.draw.2).dram = h.dram := rfl
@[simp] theorem draw_rst : (h.draw.2).rst = h.rst := rfl
@[simp] theorem draw_pwr : (h.draw.2).pwr = h.pwr := rfl
@[simp] theorem draw_guest : (h.draw.2).guest = h.guest := rfl
@[simp] theorem draw_debug : (h.draw.2).dbg = h.dbg := rfl
@[simp] theorem draw_ecount : (h.draw.2).ecount = h.ecount := rfl

/-! #### setCore -/
@[simp] theorem setCore_csr (c : Nat) (x : CoreSt) : (h.setCore c x).csr = h.csr := rfl
@[simp] theorem setCore_shadow (c : Nat) (x : CoreSt) : (h.setCore c x).shadow = h.shadow := rfl
@[simp] theorem setCore_mem (c : Nat) (x : CoreSt) : (h.setCore c x).mem = h.mem := rfl
@[simp] theorem setCore_gal (c : Nat) (x : CoreSt) : (h.setCore c x).gal = h.gal := rfl
@[simp] theorem setCore_sched (c : Nat) (x : CoreSt) : (h.setCore c x).sched = h.sched := rfl
@[simp] theorem setCore_clk (c : Nat) (x : CoreSt) : (h.setCore c x).clk = h.clk := rfl
@[simp] theorem setCore_seam (c : Nat) (x : CoreSt) : (h.setCore c x).seam = h.seam := rfl
@[simp] theorem setCore_dies (c : Nat) (x : CoreSt) : (h.setCore c x).dies = h.dies := rfl
@[simp] theorem setCore_strata (c : Nat) (x : CoreSt) : (h.setCore c x).strata = h.strata := rfl
@[simp] theorem setCore_assay (c : Nat) (x : CoreSt) : (h.setCore c x).assay = h.assay := rfl
@[simp] theorem setCore_keys (c : Nat) (x : CoreSt) : (h.setCore c x).keys = h.keys := rfl
@[simp] theorem setCore_ldr (c : Nat) (x : CoreSt) : (h.setCore c x).ldr = h.ldr := rfl
@[simp] theorem setCore_pins (c : Nat) (x : CoreSt) : (h.setCore c x).pins = h.pins := rfl
@[simp] theorem setCore_pcie (c : Nat) (x : CoreSt) : (h.setCore c x).pcie = h.pcie := rfl
@[simp] theorem setCore_bortik (c : Nat) (x : CoreSt) : (h.setCore c x).bortik = h.bortik := rfl
@[simp] theorem setCore_dram (c : Nat) (x : CoreSt) : (h.setCore c x).dram = h.dram := rfl
@[simp] theorem setCore_rst (c : Nat) (x : CoreSt) : (h.setCore c x).rst = h.rst := rfl
@[simp] theorem setCore_pwr (c : Nat) (x : CoreSt) : (h.setCore c x).pwr = h.pwr := rfl
@[simp] theorem setCore_guest (c : Nat) (x : CoreSt) : (h.setCore c x).guest = h.guest := rfl
@[simp] theorem setCore_debug (c : Nat) (x : CoreSt) : (h.setCore c x).dbg = h.dbg := rfl
@[simp] theorem setCore_freeCtr (c : Nat) (x : CoreSt) : (h.setCore c x).freeCtr = h.freeCtr := rfl
@[simp] theorem setCore_ecount (c : Nat) (x : CoreSt) : (h.setCore c x).ecount = h.ecount := rfl

/-! #### onCore -/
@[simp] theorem onCore_csr (c : Nat) (f : CoreSt → CoreSt) : (h.onCore c f).csr = h.csr := rfl
@[simp] theorem onCore_shadow (c : Nat) (f : CoreSt → CoreSt) : (h.onCore c f).shadow = h.shadow := rfl
@[simp] theorem onCore_mem (c : Nat) (f : CoreSt → CoreSt) : (h.onCore c f).mem = h.mem := rfl
@[simp] theorem onCore_gal (c : Nat) (f : CoreSt → CoreSt) : (h.onCore c f).gal = h.gal := rfl
@[simp] theorem onCore_sched (c : Nat) (f : CoreSt → CoreSt) : (h.onCore c f).sched = h.sched := rfl
@[simp] theorem onCore_clk (c : Nat) (f : CoreSt → CoreSt) : (h.onCore c f).clk = h.clk := rfl
@[simp] theorem onCore_seam (c : Nat) (f : CoreSt → CoreSt) : (h.onCore c f).seam = h.seam := rfl
@[simp] theorem onCore_dies (c : Nat) (f : CoreSt → CoreSt) : (h.onCore c f).dies = h.dies := rfl
@[simp] theorem onCore_strata (c : Nat) (f : CoreSt → CoreSt) : (h.onCore c f).strata = h.strata := rfl
@[simp] theorem onCore_assay (c : Nat) (f : CoreSt → CoreSt) : (h.onCore c f).assay = h.assay := rfl
@[simp] theorem onCore_keys (c : Nat) (f : CoreSt → CoreSt) : (h.onCore c f).keys = h.keys := rfl
@[simp] theorem onCore_ldr (c : Nat) (f : CoreSt → CoreSt) : (h.onCore c f).ldr = h.ldr := rfl
@[simp] theorem onCore_pins (c : Nat) (f : CoreSt → CoreSt) : (h.onCore c f).pins = h.pins := rfl
@[simp] theorem onCore_pcie (c : Nat) (f : CoreSt → CoreSt) : (h.onCore c f).pcie = h.pcie := rfl
@[simp] theorem onCore_bortik (c : Nat) (f : CoreSt → CoreSt) : (h.onCore c f).bortik = h.bortik := rfl
@[simp] theorem onCore_dram (c : Nat) (f : CoreSt → CoreSt) : (h.onCore c f).dram = h.dram := rfl
@[simp] theorem onCore_rst (c : Nat) (f : CoreSt → CoreSt) : (h.onCore c f).rst = h.rst := rfl
@[simp] theorem onCore_pwr (c : Nat) (f : CoreSt → CoreSt) : (h.onCore c f).pwr = h.pwr := rfl
@[simp] theorem onCore_guest (c : Nat) (f : CoreSt → CoreSt) : (h.onCore c f).guest = h.guest := rfl
@[simp] theorem onCore_debug (c : Nat) (f : CoreSt → CoreSt) : (h.onCore c f).dbg = h.dbg := rfl
@[simp] theorem onCore_freeCtr (c : Nat) (f : CoreSt → CoreSt) : (h.onCore c f).freeCtr = h.freeCtr := rfl
@[simp] theorem onCore_ecount (c : Nat) (f : CoreSt → CoreSt) : (h.onCore c f).ecount = h.ecount := rfl

/-! #### setQueue -/
@[simp] theorem setQueue_csr (q : Nat) (x : QState) : (h.setQueue q x).csr = h.csr := rfl
@[simp] theorem setQueue_shadow (q : Nat) (x : QState) : (h.setQueue q x).shadow = h.shadow := rfl
@[simp] theorem setQueue_mem (q : Nat) (x : QState) : (h.setQueue q x).mem = h.mem := rfl
@[simp] theorem setQueue_gal (q : Nat) (x : QState) : (h.setQueue q x).gal = h.gal := rfl
@[simp] theorem setQueue_cores (q : Nat) (x : QState) : (h.setQueue q x).cores = h.cores := rfl
@[simp] theorem setQueue_clk (q : Nat) (x : QState) : (h.setQueue q x).clk = h.clk := rfl
@[simp] theorem setQueue_seam (q : Nat) (x : QState) : (h.setQueue q x).seam = h.seam := rfl
@[simp] theorem setQueue_dies (q : Nat) (x : QState) : (h.setQueue q x).dies = h.dies := rfl
@[simp] theorem setQueue_strata (q : Nat) (x : QState) : (h.setQueue q x).strata = h.strata := rfl
@[simp] theorem setQueue_assay (q : Nat) (x : QState) : (h.setQueue q x).assay = h.assay := rfl
@[simp] theorem setQueue_keys (q : Nat) (x : QState) : (h.setQueue q x).keys = h.keys := rfl
@[simp] theorem setQueue_ldr (q : Nat) (x : QState) : (h.setQueue q x).ldr = h.ldr := rfl
@[simp] theorem setQueue_pins (q : Nat) (x : QState) : (h.setQueue q x).pins = h.pins := rfl
@[simp] theorem setQueue_pcie (q : Nat) (x : QState) : (h.setQueue q x).pcie = h.pcie := rfl
@[simp] theorem setQueue_bortik (q : Nat) (x : QState) : (h.setQueue q x).bortik = h.bortik := rfl
@[simp] theorem setQueue_dram (q : Nat) (x : QState) : (h.setQueue q x).dram = h.dram := rfl
@[simp] theorem setQueue_rst (q : Nat) (x : QState) : (h.setQueue q x).rst = h.rst := rfl
@[simp] theorem setQueue_pwr (q : Nat) (x : QState) : (h.setQueue q x).pwr = h.pwr := rfl
@[simp] theorem setQueue_guest (q : Nat) (x : QState) : (h.setQueue q x).guest = h.guest := rfl
@[simp] theorem setQueue_debug (q : Nat) (x : QState) : (h.setQueue q x).dbg = h.dbg := rfl
@[simp] theorem setQueue_freeCtr (q : Nat) (x : QState) : (h.setQueue q x).freeCtr = h.freeCtr := rfl
@[simp] theorem setQueue_ecount (q : Nat) (x : QState) : (h.setQueue q x).ecount = h.ecount := rfl

/-! #### onDie -/
@[simp] theorem onDie_csr (n : Nat) (f : DieSt → DieSt) : (h.onDie n f).csr = h.csr := rfl
@[simp] theorem onDie_shadow (n : Nat) (f : DieSt → DieSt) : (h.onDie n f).shadow = h.shadow := rfl
@[simp] theorem onDie_mem (n : Nat) (f : DieSt → DieSt) : (h.onDie n f).mem = h.mem := rfl
@[simp] theorem onDie_gal (n : Nat) (f : DieSt → DieSt) : (h.onDie n f).gal = h.gal := rfl
@[simp] theorem onDie_sched (n : Nat) (f : DieSt → DieSt) : (h.onDie n f).sched = h.sched := rfl
@[simp] theorem onDie_cores (n : Nat) (f : DieSt → DieSt) : (h.onDie n f).cores = h.cores := rfl
@[simp] theorem onDie_clk (n : Nat) (f : DieSt → DieSt) : (h.onDie n f).clk = h.clk := rfl
@[simp] theorem onDie_seam (n : Nat) (f : DieSt → DieSt) : (h.onDie n f).seam = h.seam := rfl
@[simp] theorem onDie_strata (n : Nat) (f : DieSt → DieSt) : (h.onDie n f).strata = h.strata := rfl
@[simp] theorem onDie_assay (n : Nat) (f : DieSt → DieSt) : (h.onDie n f).assay = h.assay := rfl
@[simp] theorem onDie_keys (n : Nat) (f : DieSt → DieSt) : (h.onDie n f).keys = h.keys := rfl
@[simp] theorem onDie_ldr (n : Nat) (f : DieSt → DieSt) : (h.onDie n f).ldr = h.ldr := rfl
@[simp] theorem onDie_pins (n : Nat) (f : DieSt → DieSt) : (h.onDie n f).pins = h.pins := rfl
@[simp] theorem onDie_pcie (n : Nat) (f : DieSt → DieSt) : (h.onDie n f).pcie = h.pcie := rfl
@[simp] theorem onDie_bortik (n : Nat) (f : DieSt → DieSt) : (h.onDie n f).bortik = h.bortik := rfl
@[simp] theorem onDie_dram (n : Nat) (f : DieSt → DieSt) : (h.onDie n f).dram = h.dram := rfl
@[simp] theorem onDie_rst (n : Nat) (f : DieSt → DieSt) : (h.onDie n f).rst = h.rst := rfl
@[simp] theorem onDie_pwr (n : Nat) (f : DieSt → DieSt) : (h.onDie n f).pwr = h.pwr := rfl
@[simp] theorem onDie_guest (n : Nat) (f : DieSt → DieSt) : (h.onDie n f).guest = h.guest := rfl
@[simp] theorem onDie_debug (n : Nat) (f : DieSt → DieSt) : (h.onDie n f).dbg = h.dbg := rfl
@[simp] theorem onDie_freeCtr (n : Nat) (f : DieSt → DieSt) : (h.onDie n f).freeCtr = h.freeCtr := rfl
@[simp] theorem onDie_ecount (n : Nat) (f : DieSt → DieSt) : (h.onDie n f).ecount = h.ecount := rfl

/-! #### setPll -/
@[simp] theorem setPll_csr (n i : Nat) (p : PllPhase) : (h.setPll n i p).csr = h.csr := rfl
@[simp] theorem setPll_shadow (n i : Nat) (p : PllPhase) : (h.setPll n i p).shadow = h.shadow := rfl
@[simp] theorem setPll_mem (n i : Nat) (p : PllPhase) : (h.setPll n i p).mem = h.mem := rfl
@[simp] theorem setPll_gal (n i : Nat) (p : PllPhase) : (h.setPll n i p).gal = h.gal := rfl
@[simp] theorem setPll_sched (n i : Nat) (p : PllPhase) : (h.setPll n i p).sched = h.sched := rfl
@[simp] theorem setPll_cores (n i : Nat) (p : PllPhase) : (h.setPll n i p).cores = h.cores := rfl
@[simp] theorem setPll_seam (n i : Nat) (p : PllPhase) : (h.setPll n i p).seam = h.seam := rfl
@[simp] theorem setPll_dies (n i : Nat) (p : PllPhase) : (h.setPll n i p).dies = h.dies := rfl
@[simp] theorem setPll_strata (n i : Nat) (p : PllPhase) : (h.setPll n i p).strata = h.strata := rfl
@[simp] theorem setPll_assay (n i : Nat) (p : PllPhase) : (h.setPll n i p).assay = h.assay := rfl
@[simp] theorem setPll_keys (n i : Nat) (p : PllPhase) : (h.setPll n i p).keys = h.keys := rfl
@[simp] theorem setPll_ldr (n i : Nat) (p : PllPhase) : (h.setPll n i p).ldr = h.ldr := rfl
@[simp] theorem setPll_pins (n i : Nat) (p : PllPhase) : (h.setPll n i p).pins = h.pins := rfl
@[simp] theorem setPll_pcie (n i : Nat) (p : PllPhase) : (h.setPll n i p).pcie = h.pcie := rfl
@[simp] theorem setPll_bortik (n i : Nat) (p : PllPhase) : (h.setPll n i p).bortik = h.bortik := rfl
@[simp] theorem setPll_dram (n i : Nat) (p : PllPhase) : (h.setPll n i p).dram = h.dram := rfl
@[simp] theorem setPll_rst (n i : Nat) (p : PllPhase) : (h.setPll n i p).rst = h.rst := rfl
@[simp] theorem setPll_pwr (n i : Nat) (p : PllPhase) : (h.setPll n i p).pwr = h.pwr := rfl
@[simp] theorem setPll_guest (n i : Nat) (p : PllPhase) : (h.setPll n i p).guest = h.guest := rfl
@[simp] theorem setPll_debug (n i : Nat) (p : PllPhase) : (h.setPll n i p).dbg = h.dbg := rfl
@[simp] theorem setPll_freeCtr (n i : Nat) (p : PllPhase) : (h.setPll n i p).freeCtr = h.freeCtr := rfl
@[simp] theorem setPll_ecount (n i : Nat) (p : PllPhase) : (h.setPll n i p).ecount = h.ecount := rfl

/-! #### onNet -/
@[simp] theorem onNet_csr (n m : Nat) (f : NetSt → NetSt) : (h.onNet n m f).csr = h.csr := rfl
@[simp] theorem onNet_shadow (n m : Nat) (f : NetSt → NetSt) : (h.onNet n m f).shadow = h.shadow := rfl
@[simp] theorem onNet_mem (n m : Nat) (f : NetSt → NetSt) : (h.onNet n m f).mem = h.mem := rfl
@[simp] theorem onNet_gal (n m : Nat) (f : NetSt → NetSt) : (h.onNet n m f).gal = h.gal := rfl
@[simp] theorem onNet_sched (n m : Nat) (f : NetSt → NetSt) : (h.onNet n m f).sched = h.sched := rfl
@[simp] theorem onNet_cores (n m : Nat) (f : NetSt → NetSt) : (h.onNet n m f).cores = h.cores := rfl
@[simp] theorem onNet_seam (n m : Nat) (f : NetSt → NetSt) : (h.onNet n m f).seam = h.seam := rfl
@[simp] theorem onNet_dies (n m : Nat) (f : NetSt → NetSt) : (h.onNet n m f).dies = h.dies := rfl
@[simp] theorem onNet_strata (n m : Nat) (f : NetSt → NetSt) : (h.onNet n m f).strata = h.strata := rfl
@[simp] theorem onNet_assay (n m : Nat) (f : NetSt → NetSt) : (h.onNet n m f).assay = h.assay := rfl
@[simp] theorem onNet_keys (n m : Nat) (f : NetSt → NetSt) : (h.onNet n m f).keys = h.keys := rfl
@[simp] theorem onNet_ldr (n m : Nat) (f : NetSt → NetSt) : (h.onNet n m f).ldr = h.ldr := rfl
@[simp] theorem onNet_pins (n m : Nat) (f : NetSt → NetSt) : (h.onNet n m f).pins = h.pins := rfl
@[simp] theorem onNet_pcie (n m : Nat) (f : NetSt → NetSt) : (h.onNet n m f).pcie = h.pcie := rfl
@[simp] theorem onNet_bortik (n m : Nat) (f : NetSt → NetSt) : (h.onNet n m f).bortik = h.bortik := rfl
@[simp] theorem onNet_dram (n m : Nat) (f : NetSt → NetSt) : (h.onNet n m f).dram = h.dram := rfl
@[simp] theorem onNet_rst (n m : Nat) (f : NetSt → NetSt) : (h.onNet n m f).rst = h.rst := rfl
@[simp] theorem onNet_pwr (n m : Nat) (f : NetSt → NetSt) : (h.onNet n m f).pwr = h.pwr := rfl
@[simp] theorem onNet_guest (n m : Nat) (f : NetSt → NetSt) : (h.onNet n m f).guest = h.guest := rfl
@[simp] theorem onNet_debug (n m : Nat) (f : NetSt → NetSt) : (h.onNet n m f).dbg = h.dbg := rfl
@[simp] theorem onNet_freeCtr (n m : Nat) (f : NetSt → NetSt) : (h.onNet n m f).freeCtr = h.freeCtr := rfl
@[simp] theorem onNet_ecount (n m : Nat) (f : NetSt → NetSt) : (h.onNet n m f).ecount = h.ecount := rfl

/-! #### onSeam -/
@[simp] theorem onSeam_csr (k : Nat) (f : SeamSt → SeamSt) : (h.onSeam k f).csr = h.csr := rfl
@[simp] theorem onSeam_shadow (k : Nat) (f : SeamSt → SeamSt) : (h.onSeam k f).shadow = h.shadow := rfl
@[simp] theorem onSeam_mem (k : Nat) (f : SeamSt → SeamSt) : (h.onSeam k f).mem = h.mem := rfl
@[simp] theorem onSeam_gal (k : Nat) (f : SeamSt → SeamSt) : (h.onSeam k f).gal = h.gal := rfl
@[simp] theorem onSeam_sched (k : Nat) (f : SeamSt → SeamSt) : (h.onSeam k f).sched = h.sched := rfl
@[simp] theorem onSeam_cores (k : Nat) (f : SeamSt → SeamSt) : (h.onSeam k f).cores = h.cores := rfl
@[simp] theorem onSeam_clk (k : Nat) (f : SeamSt → SeamSt) : (h.onSeam k f).clk = h.clk := rfl
@[simp] theorem onSeam_dies (k : Nat) (f : SeamSt → SeamSt) : (h.onSeam k f).dies = h.dies := rfl
@[simp] theorem onSeam_strata (k : Nat) (f : SeamSt → SeamSt) : (h.onSeam k f).strata = h.strata := rfl
@[simp] theorem onSeam_assay (k : Nat) (f : SeamSt → SeamSt) : (h.onSeam k f).assay = h.assay := rfl
@[simp] theorem onSeam_keys (k : Nat) (f : SeamSt → SeamSt) : (h.onSeam k f).keys = h.keys := rfl
@[simp] theorem onSeam_ldr (k : Nat) (f : SeamSt → SeamSt) : (h.onSeam k f).ldr = h.ldr := rfl
@[simp] theorem onSeam_pins (k : Nat) (f : SeamSt → SeamSt) : (h.onSeam k f).pins = h.pins := rfl
@[simp] theorem onSeam_pcie (k : Nat) (f : SeamSt → SeamSt) : (h.onSeam k f).pcie = h.pcie := rfl
@[simp] theorem onSeam_bortik (k : Nat) (f : SeamSt → SeamSt) : (h.onSeam k f).bortik = h.bortik := rfl
@[simp] theorem onSeam_dram (k : Nat) (f : SeamSt → SeamSt) : (h.onSeam k f).dram = h.dram := rfl
@[simp] theorem onSeam_rst (k : Nat) (f : SeamSt → SeamSt) : (h.onSeam k f).rst = h.rst := rfl
@[simp] theorem onSeam_pwr (k : Nat) (f : SeamSt → SeamSt) : (h.onSeam k f).pwr = h.pwr := rfl
@[simp] theorem onSeam_guest (k : Nat) (f : SeamSt → SeamSt) : (h.onSeam k f).guest = h.guest := rfl
@[simp] theorem onSeam_debug (k : Nat) (f : SeamSt → SeamSt) : (h.onSeam k f).dbg = h.dbg := rfl
@[simp] theorem onSeam_freeCtr (k : Nat) (f : SeamSt → SeamSt) : (h.onSeam k f).freeCtr = h.freeCtr := rfl
@[simp] theorem onSeam_ecount (k : Nat) (f : SeamSt → SeamSt) : (h.onSeam k f).ecount = h.ecount := rfl

/-! #### onLink -/
@[simp] theorem onLink_csr (l : Nat) (f : LinkSt → LinkSt) : (Machine.onLink h l f).csr = h.csr := rfl
@[simp] theorem onLink_shadow (l : Nat) (f : LinkSt → LinkSt) : (Machine.onLink h l f).shadow = h.shadow := rfl
@[simp] theorem onLink_mem (l : Nat) (f : LinkSt → LinkSt) : (Machine.onLink h l f).mem = h.mem := rfl
@[simp] theorem onLink_gal (l : Nat) (f : LinkSt → LinkSt) : (Machine.onLink h l f).gal = h.gal := rfl
@[simp] theorem onLink_sched (l : Nat) (f : LinkSt → LinkSt) : (Machine.onLink h l f).sched = h.sched := rfl
@[simp] theorem onLink_cores (l : Nat) (f : LinkSt → LinkSt) : (Machine.onLink h l f).cores = h.cores := rfl
@[simp] theorem onLink_clk (l : Nat) (f : LinkSt → LinkSt) : (Machine.onLink h l f).clk = h.clk := rfl
@[simp] theorem onLink_seam (l : Nat) (f : LinkSt → LinkSt) : (Machine.onLink h l f).seam = h.seam := rfl
@[simp] theorem onLink_dies (l : Nat) (f : LinkSt → LinkSt) : (Machine.onLink h l f).dies = h.dies := rfl
@[simp] theorem onLink_strata (l : Nat) (f : LinkSt → LinkSt) : (Machine.onLink h l f).strata = h.strata := rfl
@[simp] theorem onLink_assay (l : Nat) (f : LinkSt → LinkSt) : (Machine.onLink h l f).assay = h.assay := rfl
@[simp] theorem onLink_keys (l : Nat) (f : LinkSt → LinkSt) : (Machine.onLink h l f).keys = h.keys := rfl
@[simp] theorem onLink_ldr (l : Nat) (f : LinkSt → LinkSt) : (Machine.onLink h l f).ldr = h.ldr := rfl
@[simp] theorem onLink_pins (l : Nat) (f : LinkSt → LinkSt) : (Machine.onLink h l f).pins = h.pins := rfl
@[simp] theorem onLink_pcie (l : Nat) (f : LinkSt → LinkSt) : (Machine.onLink h l f).pcie = h.pcie := rfl
@[simp] theorem onLink_dram (l : Nat) (f : LinkSt → LinkSt) : (Machine.onLink h l f).dram = h.dram := rfl
@[simp] theorem onLink_rst (l : Nat) (f : LinkSt → LinkSt) : (Machine.onLink h l f).rst = h.rst := rfl
@[simp] theorem onLink_pwr (l : Nat) (f : LinkSt → LinkSt) : (Machine.onLink h l f).pwr = h.pwr := rfl
@[simp] theorem onLink_guest (l : Nat) (f : LinkSt → LinkSt) : (Machine.onLink h l f).guest = h.guest := rfl
@[simp] theorem onLink_debug (l : Nat) (f : LinkSt → LinkSt) : (Machine.onLink h l f).dbg = h.dbg := rfl
@[simp] theorem onLink_freeCtr (l : Nat) (f : LinkSt → LinkSt) : (Machine.onLink h l f).freeCtr = h.freeCtr := rfl
@[simp] theorem onLink_ecount (l : Nat) (f : LinkSt → LinkSt) : (Machine.onLink h l f).ecount = h.ecount := rfl

/-! #### setPc -/
@[simp] theorem setPc_csr (c : Core) (v : Word) : (h.setPc c v).csr = h.csr := rfl
@[simp] theorem setPc_shadow (c : Core) (v : Word) : (h.setPc c v).shadow = h.shadow := rfl
@[simp] theorem setPc_mem (c : Core) (v : Word) : (h.setPc c v).mem = h.mem := rfl
@[simp] theorem setPc_gal (c : Core) (v : Word) : (h.setPc c v).gal = h.gal := rfl
@[simp] theorem setPc_sched (c : Core) (v : Word) : (h.setPc c v).sched = h.sched := rfl
@[simp] theorem setPc_clk (c : Core) (v : Word) : (h.setPc c v).clk = h.clk := rfl
@[simp] theorem setPc_seam (c : Core) (v : Word) : (h.setPc c v).seam = h.seam := rfl
@[simp] theorem setPc_dies (c : Core) (v : Word) : (h.setPc c v).dies = h.dies := rfl
@[simp] theorem setPc_strata (c : Core) (v : Word) : (h.setPc c v).strata = h.strata := rfl
@[simp] theorem setPc_assay (c : Core) (v : Word) : (h.setPc c v).assay = h.assay := rfl
@[simp] theorem setPc_keys (c : Core) (v : Word) : (h.setPc c v).keys = h.keys := rfl
@[simp] theorem setPc_ldr (c : Core) (v : Word) : (h.setPc c v).ldr = h.ldr := rfl
@[simp] theorem setPc_pins (c : Core) (v : Word) : (h.setPc c v).pins = h.pins := rfl
@[simp] theorem setPc_pcie (c : Core) (v : Word) : (h.setPc c v).pcie = h.pcie := rfl
@[simp] theorem setPc_bortik (c : Core) (v : Word) : (h.setPc c v).bortik = h.bortik := rfl
@[simp] theorem setPc_dram (c : Core) (v : Word) : (h.setPc c v).dram = h.dram := rfl
@[simp] theorem setPc_rst (c : Core) (v : Word) : (h.setPc c v).rst = h.rst := rfl
@[simp] theorem setPc_pwr (c : Core) (v : Word) : (h.setPc c v).pwr = h.pwr := rfl
@[simp] theorem setPc_guest (c : Core) (v : Word) : (h.setPc c v).guest = h.guest := rfl
@[simp] theorem setPc_debug (c : Core) (v : Word) : (h.setPc c v).dbg = h.dbg := rfl
@[simp] theorem setPc_freeCtr (c : Core) (v : Word) : (h.setPc c v).freeCtr = h.freeCtr := rfl
@[simp] theorem setPc_ecount (c : Core) (v : Word) : (h.setPc c v).ecount = h.ecount := rfl

/-! ### Register fields -/

/-- A field reads as what was last written, cut to its width. -/
@[simp] theorem rd_wr_self (k : Key) (v : Nat) : (h.wr k v).rd k = v % 2 ^ k.w := by simp [rd, wr]
/-- Another field is unchanged. -/
theorem rd_wr_ne {k j : Key} (hk : j.id ≠ k.id) (v : Nat) : (h.wr k v).rd j = h.rd j := by
  simp [rd, wr, SMap.get_set_ne _ hk]
/-- A staged shadow reads as what was last written, cut to its width. -/
@[simp] theorem sh_wrSh_self (k : Key) (v : Nat) : (h.wrSh k v).sh k = v % 2 ^ k.w := by simp [sh, wrSh]
theorem sh_wrSh_ne {k j : Key} (hk : j.id ≠ k.id) (v : Nat) : (h.wrSh k v).sh j = h.sh j := by
  simp [sh, wrSh, SMap.get_set_ne _ hk]
/-- A register is a field of the table. -/
theorem rd_congr {g h : Hw} (e : g.csr = h.csr) (k : Key) : g.rd k = h.rd k := by simp [rd, e]
theorem bit_congr {g h : Hw} (e : g.csr = h.csr) (k : Key) : g.bit k = h.bit k := by simp [bit, rd, e]
theorem sh_congr {g h : Hw} (e : g.shadow = h.shadow) (k : Key) : g.sh k = h.sh k := by simp [sh, e]
/-- A one-bit field after a write of it. -/
@[simp] theorem bit_wrB_self (k : Key) (b : Bool) (hw : k.w = 1) : (h.wrB k b).bit k = b := by
  cases b <;> simp [bit, wrB, b2n, hw]

/-! ### Service cores -/

@[simp] theorem core_wr (k : Key) (v : Nat) (c : Nat) : (h.wr k v).core c = h.core c := rfl
@[simp] theorem core_wrB (k : Key) (b : Bool) (c : Nat) : (h.wrB k b).core c = h.core c := rfl
@[simp] theorem core_setCore_self (c : Nat) (x : CoreSt) : (h.setCore c x).core c = x := by simp [core, setCore]
theorem core_setCore_ne {c d : Nat} (hd : d ≠ c) (x : CoreSt) : (h.setCore c x).core d = h.core d := by
  simp [core, setCore, SMap.get_set_ne _ hd]
@[simp] theorem core_onCore_self (c : Nat) (f : CoreSt → CoreSt) : (h.onCore c f).core c = f (h.core c) := by
  simp [onCore]
theorem core_onCore_ne {c d : Nat} (hd : d ≠ c) (f : CoreSt → CoreSt) : (h.onCore c f).core d = h.core d :=
  core_setCore_ne h hd _
@[simp] theorem rd_onCore (c : Nat) (f : CoreSt → CoreSt) (k : Key) : (h.onCore c f).rd k = h.rd k := rfl
@[simp] theorem rd_setCore (c : Nat) (x : CoreSt) (k : Key) : (h.setCore c x).rd k = h.rd k := rfl
@[simp] theorem bit_onCore (c : Nat) (f : CoreSt → CoreSt) (k : Key) : (h.onCore c f).bit k = h.bit k := rfl

/-! ### Dies, networks and seams -/

@[simp] theorem die_wr (k : Key) (v n : Nat) : (h.wr k v).die n = h.die n := rfl
@[simp] theorem die_onDie_self (n : Nat) (f : DieSt → DieSt) : (h.onDie n f).die n = f (h.die n) := by
  simp [die, onDie]
theorem die_onDie_ne {n m : Nat} (hm : m ≠ n) (f : DieSt → DieSt) : (h.onDie n f).die m = h.die m := by
  simp [die, onDie, SMap.get_put_ne _ hm]
@[simp] theorem rd_onDie (n : Nat) (f : DieSt → DieSt) (k : Key) : (h.onDie n f).rd k = h.rd k := rfl
@[simp] theorem bit_onDie (n : Nat) (f : DieSt → DieSt) (k : Key) : (h.onDie n f).bit k = h.bit k := rfl
@[simp] theorem net_wr (k : Key) (v n m : Nat) : (h.wr k v).net n m = h.net n m := rfl
@[simp] theorem rd_onNet (n m : Nat) (f : NetSt → NetSt) (k : Key) : (h.onNet n m f).rd k = h.rd k := rfl

end Sys2Proof.Machine.Hw
end

