-- ==== Sys2Proof/Laws/Nerter.lean ====
section
/-!
SUPPORT. What issuing an instruction does: one lemma for the issue logic, one for device operations, and how the end of an
instruction leaves registers and pc.
-/
namespace Sys2Proof.Machine

/-- A ready core runs the instruction's effect on the state in which it has begun. -/
theorem runIns_ready {h h2 : Hw} {c : Core} {i : Ins} {act : Hw → Option Hw} (r : Ready h c i)
    (ha : act (begun h c) = some h2) :
    runIns h c i act = retire (if (openSeq h c).isSome then countSeq h2 c i else h2) c := by
  obtain ⟨hf, hq, hr, hfe, hl, hk⟩ := r
  simp only [runIns, hf, hq, hfe, hl, hk, hr, ha]
  simp

/-- An instruction that must wait changes nothing. -/
theorem runIns_waits {h : Hw} {c : Core} {i : Ins} {act : Hw → Option Hw} (r : Ready h c i)
    (ha : act (begun h c) = none) : runIns h c i act = h := by
  obtain ⟨hf, hq, hr, hfe, hl, hk⟩ := r
  simp only [runIns, hf, hq, hfe, hl, hk, hr, ha]
  simp

@[simp] theorem loadsDone_begun (h : Hw) (c : Core) : loadsDone (begun h c) c = loadsDone h c := by
  simp [loadsDone, busyRegs, begun]
@[simp] theorem storesDone_begun (h : Hw) (c : Core) : storesDone (begun h c) c = storesDone h c := by
  simp [storesDone, begun]

/-- A core ready for a device operation is outside any sequence whose rules apply. -/
theorem openSeq_of_barred {h : Hw} {c : Core} {i : Ins} (r : Ready h c i) (hb : i.lock = .barred) :
    openSeq h c = none := by
  have := r.lockRules
  unfold breaksSeq at this
  split at this
  · simp [hb] at this
  · assumption

/-- A core ready for a device operation runs its effect. -/
theorem devOp_ready {h h2 : Hw} {c : Core} {w : Nat} {u : List Reg} {p : Bool} {act : Hw → Option Hw}
    (r : DevReady h c w u p) (ha : act (begun h c) = some h2) : devOp h c w u p act = retire h2 c := by
  have hs : openSeq h c = none := openSeq_of_barred r.toReady rfl
  have := runIns_ready (act := fun h => if loadsDone h c && storesDone h c then act h else none) r.toReady
    (h2 := h2) (by simp [r.loads, r.stores, ha])
  simpa [devOp, devIns, hs] using this

namespace Hw
variable (h : Hw) (c : Core)

@[simp] theorem g_begun (r : Reg) : (begun h c).g c r = h.g c r := by simp [g, begun]
@[simp] theorem pc_begun : (begun h c).pc c = h.pc c := by simp [pc, begun]
@[simp] theorem rd_begun (k : Key) : (begun h c).rd k = h.rd k := rfl
/-- A register reads as what was written; g0 stays 0. -/
@[simp] theorem g_setG_self (r : Reg) (v : Word) : (h.setG c r v).g c r = if r = 0 then 0 else v := by
  by_cases hr : r = 0 <;> simp [g, setG, hr]
theorem g_setG_ne {r q : Reg} (hq : q ≠ r) (v : Word) : (h.setG c r v).g c q = h.g c q := by
  by_cases hr : r = 0
  · simp [g, setG, hr]
  · have : q.val ≠ r.val := fun e => hq (Fin.ext e)
    simp [g, setG, hr, SMap.get_set_ne _ this]
@[simp] theorem pc_setG (r : Reg) (v : Word) : (h.setG c r v).pc c = h.pc c := by
  by_cases hr : r = 0 <;> simp [pc, setG, hr]
@[simp] theorem rd_setG (r : Reg) (v : Word) (k : Key) : (h.setG c r v).rd k = h.rd k := by
  by_cases hr : r = 0 <;> simp [setG, hr]
@[simp] theorem g_setPc (r : Reg) (v : Word) : (h.setPc c v).g c r = h.g c r := by simp [g, setPc]
@[simp] theorem pc_setPc (v : Word) : (h.setPc c v).pc c = v := by simp [pc, setPc]
@[simp] theorem g_advance (r : Reg) : (advance h c).g c r = h.g c r := by simp [advance]
@[simp] theorem pc_advance : (advance h c).pc c = h.pc c + 4 := by simp [advance]
@[simp] theorem g_endStep (r : Reg) : (endStep h c.val).g c r = h.g c r := by
  unfold endStep; split <;> simp [g]
@[simp] theorem pc_endStep : (endStep h c.val).pc c = h.pc c := by
  unfold endStep; split <;> simp [pc]
@[simp] theorem g_retire (r : Reg) : (retire h c).g c r = h.g c r := by
  unfold retire; split <;> simp
@[simp] theorem pc_retire : (retire h c).pc c = h.pc c := by
  unfold retire; split <;> simp
@[simp] theorem g_countSeq (i : Ins) (r : Reg) : (countSeq h c i).g c r = h.g c r := by
  unfold countSeq; split <;> simp [g]
@[simp] theorem pc_countSeq (i : Ins) : (countSeq h c i).pc c = h.pc c := by
  unfold countSeq; split <;> simp [pc]
/-- The end of an instruction writes no register field but HALTED. -/
theorem rd_retire {k : Key} (hk : k.id ≠ K.ADIT_HALTED_CORES.id) : (retire h c).rd k = h.rd k := by
  unfold retire endStep
  split
  · rfl
  · split
    · exact rd_wr_ne _ hk _
    · rfl

end Hw

/-- Registers and pc after an instruction that computes rd. -/
theorem compute_ready {h : Hw} {c : Core} {w : Nat} {rd : Reg} {srcs : List Reg} {f : Hw → Word}
    (r : Ready h c { word := w, uses := rd :: srcs }) :
    (compute h c w rd srcs f).g c rd = (if rd = 0 then 0 else f (begun h c)) ∧
      (compute h c w rd srcs f).pc c = h.pc c + 4 ∧
      ∀ q, q ≠ rd → (compute h c w rd srcs f).g c q = h.g c q := by
  unfold compute
  rw [runIns_ready (act := fun h => some (result h c rd (f h))) r rfl]
  refine ⟨?_, ?_, fun q hq => ?_⟩
  · split <;> simp [result]
  · split <;> simp [result]
  · split <;> simp [result, Hw.g_setG_ne _ _ hq]

end Sys2Proof.Machine
end

