-- ==== Sys2Proof/Laws/Post.lean ====
section
/-!
SUPPORT. What logging an entry and posting an event can do: they write registers of the scheduler, the crew and the error
log, hub SRAM, queues and cores, and leave everything else alone.
-/
namespace Sys2Proof.Machine

/-- A register field outside HUB.SCHED, HUB.CREW and HUB.ERR. -/
def OffSched (k : Key) : Prop :=
  k.lo < 64 ∧ (k.addr < 0x400000 ∨ (0x600000 ≤ k.addr ∧ k.addr < 0x800000) ∨
    (0x801000 ≤ k.addr ∧ k.addr < 0x1000000) ∨ 0x1004000 ≤ k.addr)

/-- t differs from h only in what the scheduler, the crew and the error log hold, and in memory. -/
structure Kept (h t : Hw) : Prop where
  shadow : t.shadow = h.shadow
  gal : t.gal = h.gal
  clk : t.clk = h.clk
  seam : t.seam = h.seam
  dies : t.dies = h.dies
  strata : t.strata = h.strata
  assay : t.assay = h.assay
  keys : t.keys = h.keys
  ldr : t.ldr = h.ldr
  pins : t.pins = h.pins
  pcie : t.pcie = h.pcie
  bortik : t.bortik = h.bortik
  dram : t.dram = h.dram
  rst : t.rst = h.rst
  pwr : t.pwr = h.pwr
  guest : t.guest = h.guest
  dbg : t.dbg = h.dbg
  ecount : t.ecount = h.ecount
  rd : ∀ k, OffSched k → t.rd k = h.rd k

namespace Kept
theorem refl (h : Hw) : Kept h h := ⟨rfl, rfl, rfl, rfl, rfl, rfl, rfl, rfl, rfl, rfl, rfl, rfl, rfl, rfl, rfl, rfl, rfl, rfl, fun _ _ => rfl⟩
theorem trans {h t u : Hw} (a : Kept h t) (b : Kept t u) : Kept h u :=
  ⟨b.shadow.trans a.shadow, b.gal.trans a.gal, b.clk.trans a.clk, b.seam.trans a.seam, b.dies.trans a.dies, b.strata.trans a.strata, b.assay.trans a.assay, b.keys.trans a.keys, b.ldr.trans a.ldr, b.pins.trans a.pins, b.pcie.trans a.pcie, b.bortik.trans a.bortik, b.dram.trans a.dram, b.rst.trans a.rst, b.pwr.trans a.pwr, b.guest.trans a.guest, b.dbg.trans a.dbg, b.ecount.trans a.ecount,
   fun k hk => (b.rd k hk).trans (a.rd k hk)⟩

/-- A change of memory, scheduler, cores or the free counter. -/
theorem csr {h t : Hw} (e : t = { h with mem := t.mem, sched := t.sched, cores := t.cores, freeCtr := t.freeCtr }) : Kept h t := by
  rw [e]; exact ⟨rfl, rfl, rfl, rfl, rfl, rfl, rfl, rfl, rfl, rfl, rfl, rfl, rfl, rfl, rfl, rfl, rfl, rfl, fun _ _ => rfl⟩
/-- A write of a register of the scheduler, the crew or the error log. -/
theorem wr {h : Hw} {j : Key} (hj : j.lo < 64 ∧ ((0x400000 ≤ j.addr ∧ j.addr < 0x600000) ∨ (0x800000 ≤ j.addr ∧ j.addr < 0x801000) ∨
    (0x1000000 ≤ j.addr ∧ j.addr < 0x1004000))) (v : Nat) : Kept h (h.wr j v) := by
  refine ⟨rfl, rfl, rfl, rfl, rfl, rfl, rfl, rfl, rfl, rfl, rfl, rfl, rfl, rfl, rfl, rfl, rfl, rfl, fun k hk => ?_⟩
  refine Hw.rd_wr_ne h ?_ v
  unfold OffSched at hk; unfold Key.id; omega
theorem foldl {α : Type} {f : Hw → α → Hw} (hf : ∀ h x, Kept h (f h x)) (l : List α) (h : Hw) : Kept h (l.foldl f h) := by
  induction l generalizing h with
  | nil => exact refl h
  | cons x l ih => exact (hf h x).trans (ih _)
end Kept

theorem kept_setCore (h : Hw) (c : Nat) (x : CoreSt) : Kept h (h.setCore c x) := .csr rfl
theorem kept_setQueue (h : Hw) (q : Nat) (x : QState) : Kept h (h.setQueue q x) := .csr rfl
theorem kept_touchLines (h : Hw) (w : Option Nat) (a n : Nat) : Kept h (touchLines h w a n) := by
  unfold touchLines
  refine .foldl (fun h e => ?_) _ _
  split
  · exact .refl h
  · exact kept_setCore ..
theorem kept_tryWrite (h : Hw) (w : HeldWrite) : Kept h (tryWrite h w) := by
  unfold tryWrite
  split
  · exact .csr rfl
  · exact (Kept.csr (t := { h with mem := w.store h.mem }) rfl).trans (kept_touchLines ..)
theorem kept_flushHeld (h : Hw) : Kept h (flushHeld h) :=
  (Kept.csr (t := { h with sched := { h.sched with heldWrites := [] } }) rfl).trans (.foldl kept_tryWrite ..)
theorem kept_hubWrite (h : Hw) (w : Option Nat) (a n d be : Nat) : Kept h (hubWrite h w a n d be) := kept_tryWrite ..
theorem kept_place (h : Hw) (q level : Nat) (t : Option Nat) (d : Desc) : Kept h (place h q level t d) := by
  unfold place
  exact (kept_hubWrite ..).trans ((kept_setQueue ..).trans (.csr rfl))
theorem kept_takeTicket {h u : Hw} {q t : Nat} (e : takeTicket h q = some (t, u)) : Kept h u := by
  unfold takeTicket at e
  simp only [Hw.draw] at e
  split at e
  · cases e; exact .csr rfl
  · cases e
theorem kept_tryEnter (h : Hw) (q : Nat) (s : Src) (d : Desc) : Kept h (tryEnter h q s d).1 := by
  unfold tryEnter
  split
  · exact .refl h
  split
  · exact .refl h
  split
  · exact .refl h
  split
  · exact .refl h
  · rename_i e; exact (kept_takeTicket e).trans (kept_place ..)
theorem mem_pickCore {h : Hw} {q c : Nat} (e : pickCore h q = some c) : c < 64 := by
  have key : ∀ (l : List Nat) (b : Option Nat), (∀ x ∈ l, x < 64) → (∀ x, b = some x → x < 64) →
      ∀ x, l.foldl (fun best c => match best with
        | none => some c
        | some b => if (h.core c).idleSince < (h.core b).idleSince then some c else some b) b = some x → x < 64 := by
    intro l
    induction l with
    | nil => intro b _ hb x hx; exact hb x hx
    | cons y l ih =>
      intro b hl hb x hx
      refine ih _ (fun z hz => hl z (List.mem_cons_of_mem _ hz)) ?_ x hx
      intro z hz
      have hy := hl y (List.mem_cons_self ..)
      beta_reduce at hz
      split at hz
      · cases hz; exact hy
      · split at hz
        · cases hz; exact hy
        · cases hz; exact hb _ rfl
  refine key _ none ?_ (by simp) c e
  intro x hx
  simp [idleCores] at hx
  exact hx.1
theorem kept_dispatchTo (h : Hw) (q : Nat) (e : QEntry) {c : Nat} (hc : c < 64) : Kept h (dispatchTo h q e c) := by
  have item : ∀ (u : Hw) (k : Key) (v : Nat), k ∈ [K.CREW_CORE_ITEM_BUSY c, K.CREW_CORE_ITEM_LEVEL c, K.CREW_CORE_ITEM_QUEUE c,
      K.CREW_CORE_ITEM_GEN c, K.CREW_CORE_ITEM_TICKET c, K.CREW_CORE_BURN_COUNT c, K.CREW_CORE_BURN_LIMIT c] → Kept u (u.wr k v) := by
    intro u k v hk
    refine .wr ?_ v
    simp only [List.mem_cons, List.not_mem_nil, or_false] at hk
    rcases hk with rfl | rfl | rfl | rfl | rfl | rfl | rfl <;>
      simp [K.CREW_CORE_ITEM_BUSY, K.CREW_CORE_ITEM_LEVEL, K.CREW_CORE_ITEM_QUEUE, K.CREW_CORE_ITEM_GEN,
        K.CREW_CORE_ITEM_TICKET, K.CREW_CORE_BURN_COUNT, K.CREW_CORE_BURN_LIMIT] <;> omega
  unfold dispatchTo
  simp only
  refine Kept.trans ?_ (item _ _ _ (by simp))
  iterate 6 refine Kept.trans ?_ (item _ _ _ (by simp))
  refine Kept.trans ?_ (kept_setCore ..)
  split
  · exact kept_setQueue ..
  · split
    · exact kept_setQueue ..
    · exact (kept_setQueue ..).trans (kept_setQueue ..)
theorem kept_dispatchN (n : Nat) (h : Hw) : Kept h (dispatchN n h) := by
  induction n generalizing h with
  | zero => exact .refl h
  | succ n ih =>
    unfold dispatchN
    split
    · exact .refl h
    · rename_i q e c he
      have hc : c < 64 := by
        unfold pickEntry at he
        simp only [Option.bind_eq_some_iff, Option.map_eq_some_iff] at he
        obtain ⟨x, -, c', hc', hx⟩ := he
        cases hx
        exact mem_pickCore hc'
      exact (kept_dispatchTo h q e hc).trans (ih _)
theorem kept_dispatch (h : Hw) : Kept h (dispatch h) := kept_dispatchN ..
theorem kept_logRaw (h : Hw) (s m c a d : Nat) : Kept h (logRaw h s m c a d) := by
  unfold logRaw
  simp only
  have : h.rd K.ERR_LOGHEAD_NEXT % 256 < 256 := Nat.mod_lt _ (by decide)
  generalize h.rd K.ERR_LOGHEAD_NEXT % 256 = e at this
  refine Kept.trans ?_ (.wr (by simp [K.ERR_LOGHEAD_TOTAL]) _)
  refine Kept.trans ?_ (.wr (by simp [K.ERR_LOGHEAD_NEXT]) _)
  iterate 3 refine Kept.trans ?_ (.wr (by simp [K.ERR_LOG_W_WORD]; omega) _)
  exact .wr (by simp [K.ERR_LOG_W_WORD]; omega) _
theorem kept_postError (h : Hw) (w a d t : Nat) : Kept h (postError h w a d t) := by
  unfold postError
  have k := kept_tryEnter h 4 (.event 4) (mkDesc 0 w a d t 0 0 0)
  generalize tryEnter h 4 (.event 4) (mkDesc 0 w a d t 0 0 0) = x at k ⊢
  obtain ⟨u, r⟩ := x
  cases r
  · exact k.trans (kept_dispatch u)
  · exact k
  · exact k
  · exact k.trans (.wr (by simp [K.SCHED_Q_STAT_DROP]) _)
  · exact k.trans (.wr (by simp [K.SCHED_Q_STAT_NOTICKET]) _)
theorem kept_logEntry (h : Hw) (s m c a d : Nat) : Kept h (logEntry h s m c a d) := by
  unfold logEntry
  simp only
  split
  · exact (kept_logRaw ..).trans (kept_postError ..)
  · exact kept_logRaw ..
theorem kept_logErr (h : Hw) (s : Nat) (m : Option Master) (k : LogKind) (b a d : Nat) : Kept h (logErr h s m k b a d) :=
  kept_logEntry ..
theorem kept_logEvent (h : Hw) (s c a : Nat) : Kept h (logEvent h s c a) := kept_logEntry ..
theorem kept_logOp (h : Hw) (s : Nat) (m : Option Master) (st a : Nat) : Kept h (logOp h s m st a) := kept_logEntry ..
/-- A posting to one of the event queues. -/
theorem kept_postEvent (h : Hw) {q : Nat} (hq : q < 8) (a b c d : Nat) : Kept h (postEvent h q a b c d) := by
  unfold postEvent
  have k := kept_tryEnter h q (.event q) (mkDesc 0 a b c d 0 0 0)
  generalize tryEnter h q (.event q) (mkDesc 0 a b c d 0 0 0) = x at k ⊢
  obtain ⟨u, r⟩ := x
  have drop : ∀ r, Kept u (dropPosting u q (Src.event q).code r) := by
    intro r
    unfold dropPosting
    cases r
    · exact kept_logEntry ..
    · exact kept_logEntry ..
    · exact kept_logEntry ..
    · exact (Kept.wr (by simp [K.SCHED_Q_STAT_DROP]; omega) _).trans (kept_logEntry ..)
    · exact (Kept.wr (by simp [K.SCHED_Q_STAT_NOTICKET]; omega) _).trans (kept_logEntry ..)
  cases r
  · exact k.trans (kept_dispatch u)
  all_goals exact k.trans (drop _)
theorem kept_draw (h : Hw) : Kept h h.draw.2 := .csr rfl
theorem kept_postOpen (h : Hw) {q : Nat} (hq : q < 8) : Kept h (postOpen h q) := by
  unfold postOpen
  exact (kept_draw h).trans ((kept_draw _).trans ((kept_draw _).trans ((kept_draw _).trans (kept_postEvent _ hq ..))))

namespace Hw
variable (h : Hw)

/-! #### hubWrite -/
@[simp] theorem hubWrite_shadow (w : Option Nat) (a n d be : Nat) : (hubWrite h w a n d be).shadow = h.shadow := (kept_hubWrite ..).shadow
@[simp] theorem hubWrite_gal (w : Option Nat) (a n d be : Nat) : (hubWrite h w a n d be).gal = h.gal := (kept_hubWrite ..).gal
@[simp] theorem hubWrite_clk (w : Option Nat) (a n d be : Nat) : (hubWrite h w a n d be).clk = h.clk := (kept_hubWrite ..).clk
@[simp] theorem hubWrite_seam (w : Option Nat) (a n d be : Nat) : (hubWrite h w a n d be).seam = h.seam := (kept_hubWrite ..).seam
@[simp] theorem hubWrite_dies (w : Option Nat) (a n d be : Nat) : (hubWrite h w a n d be).dies = h.dies := (kept_hubWrite ..).dies
@[simp] theorem hubWrite_strata (w : Option Nat) (a n d be : Nat) : (hubWrite h w a n d be).strata = h.strata := (kept_hubWrite ..).strata
@[simp] theorem hubWrite_assay (w : Option Nat) (a n d be : Nat) : (hubWrite h w a n d be).assay = h.assay := (kept_hubWrite ..).assay
@[simp] theorem hubWrite_keys (w : Option Nat) (a n d be : Nat) : (hubWrite h w a n d be).keys = h.keys := (kept_hubWrite ..).keys
@[simp] theorem hubWrite_ldr (w : Option Nat) (a n d be : Nat) : (hubWrite h w a n d be).ldr = h.ldr := (kept_hubWrite ..).ldr
@[simp] theorem hubWrite_pins (w : Option Nat) (a n d be : Nat) : (hubWrite h w a n d be).pins = h.pins := (kept_hubWrite ..).pins
@[simp] theorem hubWrite_pcie (w : Option Nat) (a n d be : Nat) : (hubWrite h w a n d be).pcie = h.pcie := (kept_hubWrite ..).pcie
@[simp] theorem hubWrite_bortik (w : Option Nat) (a n d be : Nat) : (hubWrite h w a n d be).bortik = h.bortik := (kept_hubWrite ..).bortik
@[simp] theorem hubWrite_dram (w : Option Nat) (a n d be : Nat) : (hubWrite h w a n d be).dram = h.dram := (kept_hubWrite ..).dram
@[simp] theorem hubWrite_rst (w : Option Nat) (a n d be : Nat) : (hubWrite h w a n d be).rst = h.rst := (kept_hubWrite ..).rst
@[simp] theorem hubWrite_pwr (w : Option Nat) (a n d be : Nat) : (hubWrite h w a n d be).pwr = h.pwr := (kept_hubWrite ..).pwr
@[simp] theorem hubWrite_guest (w : Option Nat) (a n d be : Nat) : (hubWrite h w a n d be).guest = h.guest := (kept_hubWrite ..).guest
@[simp] theorem hubWrite_debug (w : Option Nat) (a n d be : Nat) : (hubWrite h w a n d be).dbg = h.dbg := (kept_hubWrite ..).dbg
@[simp] theorem hubWrite_ecount (w : Option Nat) (a n d be : Nat) : (hubWrite h w a n d be).ecount = h.ecount := (kept_hubWrite ..).ecount
theorem rd_hubWrite (w : Option Nat) (a n d be : Nat) {j : Key} (hj : OffSched j) : (hubWrite h w a n d be).rd j = h.rd j := (kept_hubWrite ..).rd j hj

/-! #### dispatch -/
@[simp] theorem dispatch_shadow : (dispatch h ).shadow = h.shadow := (kept_dispatch ..).shadow
@[simp] theorem dispatch_gal : (dispatch h ).gal = h.gal := (kept_dispatch ..).gal
@[simp] theorem dispatch_clk : (dispatch h ).clk = h.clk := (kept_dispatch ..).clk
@[simp] theorem dispatch_seam : (dispatch h ).seam = h.seam := (kept_dispatch ..).seam
@[simp] theorem dispatch_dies : (dispatch h ).dies = h.dies := (kept_dispatch ..).dies
@[simp] theorem dispatch_strata : (dispatch h ).strata = h.strata := (kept_dispatch ..).strata
@[simp] theorem dispatch_assay : (dispatch h ).assay = h.assay := (kept_dispatch ..).assay
@[simp] theorem dispatch_keys : (dispatch h ).keys = h.keys := (kept_dispatch ..).keys
@[simp] theorem dispatch_ldr : (dispatch h ).ldr = h.ldr := (kept_dispatch ..).ldr
@[simp] theorem dispatch_pins : (dispatch h ).pins = h.pins := (kept_dispatch ..).pins
@[simp] theorem dispatch_pcie : (dispatch h ).pcie = h.pcie := (kept_dispatch ..).pcie
@[simp] theorem dispatch_bortik : (dispatch h ).bortik = h.bortik := (kept_dispatch ..).bortik
@[simp] theorem dispatch_dram : (dispatch h ).dram = h.dram := (kept_dispatch ..).dram
@[simp] theorem dispatch_rst : (dispatch h ).rst = h.rst := (kept_dispatch ..).rst
@[simp] theorem dispatch_pwr : (dispatch h ).pwr = h.pwr := (kept_dispatch ..).pwr
@[simp] theorem dispatch_guest : (dispatch h ).guest = h.guest := (kept_dispatch ..).guest
@[simp] theorem dispatch_debug : (dispatch h ).dbg = h.dbg := (kept_dispatch ..).dbg
@[simp] theorem dispatch_ecount : (dispatch h ).ecount = h.ecount := (kept_dispatch ..).ecount
theorem rd_dispatch  {j : Key} (hj : OffSched j) : (dispatch h ).rd j = h.rd j := (kept_dispatch ..).rd j hj

/-! #### logEntry -/
@[simp] theorem logEntry_shadow (s m c a d : Nat) : (logEntry h s m c a d).shadow = h.shadow := (kept_logEntry ..).shadow
@[simp] theorem logEntry_gal (s m c a d : Nat) : (logEntry h s m c a d).gal = h.gal := (kept_logEntry ..).gal
@[simp] theorem logEntry_clk (s m c a d : Nat) : (logEntry h s m c a d).clk = h.clk := (kept_logEntry ..).clk
@[simp] theorem logEntry_seam (s m c a d : Nat) : (logEntry h s m c a d).seam = h.seam := (kept_logEntry ..).seam
@[simp] theorem logEntry_dies (s m c a d : Nat) : (logEntry h s m c a d).dies = h.dies := (kept_logEntry ..).dies
@[simp] theorem logEntry_strata (s m c a d : Nat) : (logEntry h s m c a d).strata = h.strata := (kept_logEntry ..).strata
@[simp] theorem logEntry_assay (s m c a d : Nat) : (logEntry h s m c a d).assay = h.assay := (kept_logEntry ..).assay
@[simp] theorem logEntry_keys (s m c a d : Nat) : (logEntry h s m c a d).keys = h.keys := (kept_logEntry ..).keys
@[simp] theorem logEntry_ldr (s m c a d : Nat) : (logEntry h s m c a d).ldr = h.ldr := (kept_logEntry ..).ldr
@[simp] theorem logEntry_pins (s m c a d : Nat) : (logEntry h s m c a d).pins = h.pins := (kept_logEntry ..).pins
@[simp] theorem logEntry_pcie (s m c a d : Nat) : (logEntry h s m c a d).pcie = h.pcie := (kept_logEntry ..).pcie
@[simp] theorem logEntry_bortik (s m c a d : Nat) : (logEntry h s m c a d).bortik = h.bortik := (kept_logEntry ..).bortik
@[simp] theorem logEntry_dram (s m c a d : Nat) : (logEntry h s m c a d).dram = h.dram := (kept_logEntry ..).dram
@[simp] theorem logEntry_rst (s m c a d : Nat) : (logEntry h s m c a d).rst = h.rst := (kept_logEntry ..).rst
@[simp] theorem logEntry_pwr (s m c a d : Nat) : (logEntry h s m c a d).pwr = h.pwr := (kept_logEntry ..).pwr
@[simp] theorem logEntry_guest (s m c a d : Nat) : (logEntry h s m c a d).guest = h.guest := (kept_logEntry ..).guest
@[simp] theorem logEntry_debug (s m c a d : Nat) : (logEntry h s m c a d).dbg = h.dbg := (kept_logEntry ..).dbg
@[simp] theorem logEntry_ecount (s m c a d : Nat) : (logEntry h s m c a d).ecount = h.ecount := (kept_logEntry ..).ecount
theorem rd_logEntry (s m c a d : Nat) {j : Key} (hj : OffSched j) : (logEntry h s m c a d).rd j = h.rd j := (kept_logEntry ..).rd j hj

/-! #### logErr -/
@[simp] theorem logErr_shadow (s : Nat) (m : Option Master) (k : LogKind) (b a d : Nat) : (logErr h s m k b a d).shadow = h.shadow := (kept_logErr ..).shadow
@[simp] theorem logErr_gal (s : Nat) (m : Option Master) (k : LogKind) (b a d : Nat) : (logErr h s m k b a d).gal = h.gal := (kept_logErr ..).gal
@[simp] theorem logErr_clk (s : Nat) (m : Option Master) (k : LogKind) (b a d : Nat) : (logErr h s m k b a d).clk = h.clk := (kept_logErr ..).clk
@[simp] theorem logErr_seam (s : Nat) (m : Option Master) (k : LogKind) (b a d : Nat) : (logErr h s m k b a d).seam = h.seam := (kept_logErr ..).seam
@[simp] theorem logErr_dies (s : Nat) (m : Option Master) (k : LogKind) (b a d : Nat) : (logErr h s m k b a d).dies = h.dies := (kept_logErr ..).dies
@[simp] theorem logErr_strata (s : Nat) (m : Option Master) (k : LogKind) (b a d : Nat) : (logErr h s m k b a d).strata = h.strata := (kept_logErr ..).strata
@[simp] theorem logErr_assay (s : Nat) (m : Option Master) (k : LogKind) (b a d : Nat) : (logErr h s m k b a d).assay = h.assay := (kept_logErr ..).assay
@[simp] theorem logErr_keys (s : Nat) (m : Option Master) (k : LogKind) (b a d : Nat) : (logErr h s m k b a d).keys = h.keys := (kept_logErr ..).keys
@[simp] theorem logErr_ldr (s : Nat) (m : Option Master) (k : LogKind) (b a d : Nat) : (logErr h s m k b a d).ldr = h.ldr := (kept_logErr ..).ldr
@[simp] theorem logErr_pins (s : Nat) (m : Option Master) (k : LogKind) (b a d : Nat) : (logErr h s m k b a d).pins = h.pins := (kept_logErr ..).pins
@[simp] theorem logErr_pcie (s : Nat) (m : Option Master) (k : LogKind) (b a d : Nat) : (logErr h s m k b a d).pcie = h.pcie := (kept_logErr ..).pcie
@[simp] theorem logErr_bortik (s : Nat) (m : Option Master) (k : LogKind) (b a d : Nat) : (logErr h s m k b a d).bortik = h.bortik := (kept_logErr ..).bortik
@[simp] theorem logErr_dram (s : Nat) (m : Option Master) (k : LogKind) (b a d : Nat) : (logErr h s m k b a d).dram = h.dram := (kept_logErr ..).dram
@[simp] theorem logErr_rst (s : Nat) (m : Option Master) (k : LogKind) (b a d : Nat) : (logErr h s m k b a d).rst = h.rst := (kept_logErr ..).rst
@[simp] theorem logErr_pwr (s : Nat) (m : Option Master) (k : LogKind) (b a d : Nat) : (logErr h s m k b a d).pwr = h.pwr := (kept_logErr ..).pwr
@[simp] theorem logErr_guest (s : Nat) (m : Option Master) (k : LogKind) (b a d : Nat) : (logErr h s m k b a d).guest = h.guest := (kept_logErr ..).guest
@[simp] theorem logErr_debug (s : Nat) (m : Option Master) (k : LogKind) (b a d : Nat) : (logErr h s m k b a d).dbg = h.dbg := (kept_logErr ..).dbg
@[simp] theorem logErr_ecount (s : Nat) (m : Option Master) (k : LogKind) (b a d : Nat) : (logErr h s m k b a d).ecount = h.ecount := (kept_logErr ..).ecount
theorem rd_logErr (s : Nat) (m : Option Master) (k : LogKind) (b a d : Nat) {j : Key} (hj : OffSched j) : (logErr h s m k b a d).rd j = h.rd j := (kept_logErr ..).rd j hj

/-! #### logEvent -/
@[simp] theorem logEvent_shadow (s c a : Nat) : (logEvent h s c a).shadow = h.shadow := (kept_logEvent ..).shadow
@[simp] theorem logEvent_gal (s c a : Nat) : (logEvent h s c a).gal = h.gal := (kept_logEvent ..).gal
@[simp] theorem logEvent_clk (s c a : Nat) : (logEvent h s c a).clk = h.clk := (kept_logEvent ..).clk
@[simp] theorem logEvent_seam (s c a : Nat) : (logEvent h s c a).seam = h.seam := (kept_logEvent ..).seam
@[simp] theorem logEvent_dies (s c a : Nat) : (logEvent h s c a).dies = h.dies := (kept_logEvent ..).dies
@[simp] theorem logEvent_strata (s c a : Nat) : (logEvent h s c a).strata = h.strata := (kept_logEvent ..).strata
@[simp] theorem logEvent_assay (s c a : Nat) : (logEvent h s c a).assay = h.assay := (kept_logEvent ..).assay
@[simp] theorem logEvent_keys (s c a : Nat) : (logEvent h s c a).keys = h.keys := (kept_logEvent ..).keys
@[simp] theorem logEvent_ldr (s c a : Nat) : (logEvent h s c a).ldr = h.ldr := (kept_logEvent ..).ldr
@[simp] theorem logEvent_pins (s c a : Nat) : (logEvent h s c a).pins = h.pins := (kept_logEvent ..).pins
@[simp] theorem logEvent_pcie (s c a : Nat) : (logEvent h s c a).pcie = h.pcie := (kept_logEvent ..).pcie
@[simp] theorem logEvent_bortik (s c a : Nat) : (logEvent h s c a).bortik = h.bortik := (kept_logEvent ..).bortik
@[simp] theorem logEvent_dram (s c a : Nat) : (logEvent h s c a).dram = h.dram := (kept_logEvent ..).dram
@[simp] theorem logEvent_rst (s c a : Nat) : (logEvent h s c a).rst = h.rst := (kept_logEvent ..).rst
@[simp] theorem logEvent_pwr (s c a : Nat) : (logEvent h s c a).pwr = h.pwr := (kept_logEvent ..).pwr
@[simp] theorem logEvent_guest (s c a : Nat) : (logEvent h s c a).guest = h.guest := (kept_logEvent ..).guest
@[simp] theorem logEvent_debug (s c a : Nat) : (logEvent h s c a).dbg = h.dbg := (kept_logEvent ..).dbg
@[simp] theorem logEvent_ecount (s c a : Nat) : (logEvent h s c a).ecount = h.ecount := (kept_logEvent ..).ecount
theorem rd_logEvent (s c a : Nat) {j : Key} (hj : OffSched j) : (logEvent h s c a).rd j = h.rd j := (kept_logEvent ..).rd j hj

/-! #### logOp -/
@[simp] theorem logOp_shadow (s : Nat) (m : Option Master) (st a : Nat) : (logOp h s m st a).shadow = h.shadow := (kept_logOp ..).shadow
@[simp] theorem logOp_gal (s : Nat) (m : Option Master) (st a : Nat) : (logOp h s m st a).gal = h.gal := (kept_logOp ..).gal
@[simp] theorem logOp_clk (s : Nat) (m : Option Master) (st a : Nat) : (logOp h s m st a).clk = h.clk := (kept_logOp ..).clk
@[simp] theorem logOp_seam (s : Nat) (m : Option Master) (st a : Nat) : (logOp h s m st a).seam = h.seam := (kept_logOp ..).seam
@[simp] theorem logOp_dies (s : Nat) (m : Option Master) (st a : Nat) : (logOp h s m st a).dies = h.dies := (kept_logOp ..).dies
@[simp] theorem logOp_strata (s : Nat) (m : Option Master) (st a : Nat) : (logOp h s m st a).strata = h.strata := (kept_logOp ..).strata
@[simp] theorem logOp_assay (s : Nat) (m : Option Master) (st a : Nat) : (logOp h s m st a).assay = h.assay := (kept_logOp ..).assay
@[simp] theorem logOp_keys (s : Nat) (m : Option Master) (st a : Nat) : (logOp h s m st a).keys = h.keys := (kept_logOp ..).keys
@[simp] theorem logOp_ldr (s : Nat) (m : Option Master) (st a : Nat) : (logOp h s m st a).ldr = h.ldr := (kept_logOp ..).ldr
@[simp] theorem logOp_pins (s : Nat) (m : Option Master) (st a : Nat) : (logOp h s m st a).pins = h.pins := (kept_logOp ..).pins
@[simp] theorem logOp_pcie (s : Nat) (m : Option Master) (st a : Nat) : (logOp h s m st a).pcie = h.pcie := (kept_logOp ..).pcie
@[simp] theorem logOp_bortik (s : Nat) (m : Option Master) (st a : Nat) : (logOp h s m st a).bortik = h.bortik := (kept_logOp ..).bortik
@[simp] theorem logOp_dram (s : Nat) (m : Option Master) (st a : Nat) : (logOp h s m st a).dram = h.dram := (kept_logOp ..).dram
@[simp] theorem logOp_rst (s : Nat) (m : Option Master) (st a : Nat) : (logOp h s m st a).rst = h.rst := (kept_logOp ..).rst
@[simp] theorem logOp_pwr (s : Nat) (m : Option Master) (st a : Nat) : (logOp h s m st a).pwr = h.pwr := (kept_logOp ..).pwr
@[simp] theorem logOp_guest (s : Nat) (m : Option Master) (st a : Nat) : (logOp h s m st a).guest = h.guest := (kept_logOp ..).guest
@[simp] theorem logOp_debug (s : Nat) (m : Option Master) (st a : Nat) : (logOp h s m st a).dbg = h.dbg := (kept_logOp ..).dbg
@[simp] theorem logOp_ecount (s : Nat) (m : Option Master) (st a : Nat) : (logOp h s m st a).ecount = h.ecount := (kept_logOp ..).ecount
theorem rd_logOp (s : Nat) (m : Option Master) (st a : Nat) {j : Key} (hj : OffSched j) : (logOp h s m st a).rd j = h.rd j := (kept_logOp ..).rd j hj

/-! #### postEvent -/
@[simp] theorem postEvent_shadow {q : Nat} (hq : q < 8) (a b c d : Nat) : (postEvent h q a b c d).shadow = h.shadow := (kept_postEvent h hq ..).shadow
@[simp] theorem postEvent_gal {q : Nat} (hq : q < 8) (a b c d : Nat) : (postEvent h q a b c d).gal = h.gal := (kept_postEvent h hq ..).gal
@[simp] theorem postEvent_clk {q : Nat} (hq : q < 8) (a b c d : Nat) : (postEvent h q a b c d).clk = h.clk := (kept_postEvent h hq ..).clk
@[simp] theorem postEvent_seam {q : Nat} (hq : q < 8) (a b c d : Nat) : (postEvent h q a b c d).seam = h.seam := (kept_postEvent h hq ..).seam
@[simp] theorem postEvent_dies {q : Nat} (hq : q < 8) (a b c d : Nat) : (postEvent h q a b c d).dies = h.dies := (kept_postEvent h hq ..).dies
@[simp] theorem postEvent_strata {q : Nat} (hq : q < 8) (a b c d : Nat) : (postEvent h q a b c d).strata = h.strata := (kept_postEvent h hq ..).strata
@[simp] theorem postEvent_assay {q : Nat} (hq : q < 8) (a b c d : Nat) : (postEvent h q a b c d).assay = h.assay := (kept_postEvent h hq ..).assay
@[simp] theorem postEvent_keys {q : Nat} (hq : q < 8) (a b c d : Nat) : (postEvent h q a b c d).keys = h.keys := (kept_postEvent h hq ..).keys
@[simp] theorem postEvent_ldr {q : Nat} (hq : q < 8) (a b c d : Nat) : (postEvent h q a b c d).ldr = h.ldr := (kept_postEvent h hq ..).ldr
@[simp] theorem postEvent_pins {q : Nat} (hq : q < 8) (a b c d : Nat) : (postEvent h q a b c d).pins = h.pins := (kept_postEvent h hq ..).pins
@[simp] theorem postEvent_pcie {q : Nat} (hq : q < 8) (a b c d : Nat) : (postEvent h q a b c d).pcie = h.pcie := (kept_postEvent h hq ..).pcie
@[simp] theorem postEvent_bortik {q : Nat} (hq : q < 8) (a b c d : Nat) : (postEvent h q a b c d).bortik = h.bortik := (kept_postEvent h hq ..).bortik
@[simp] theorem postEvent_dram {q : Nat} (hq : q < 8) (a b c d : Nat) : (postEvent h q a b c d).dram = h.dram := (kept_postEvent h hq ..).dram
@[simp] theorem postEvent_rst {q : Nat} (hq : q < 8) (a b c d : Nat) : (postEvent h q a b c d).rst = h.rst := (kept_postEvent h hq ..).rst
@[simp] theorem postEvent_pwr {q : Nat} (hq : q < 8) (a b c d : Nat) : (postEvent h q a b c d).pwr = h.pwr := (kept_postEvent h hq ..).pwr
@[simp] theorem postEvent_guest {q : Nat} (hq : q < 8) (a b c d : Nat) : (postEvent h q a b c d).guest = h.guest := (kept_postEvent h hq ..).guest
@[simp] theorem postEvent_debug {q : Nat} (hq : q < 8) (a b c d : Nat) : (postEvent h q a b c d).dbg = h.dbg := (kept_postEvent h hq ..).dbg
@[simp] theorem postEvent_ecount {q : Nat} (hq : q < 8) (a b c d : Nat) : (postEvent h q a b c d).ecount = h.ecount := (kept_postEvent h hq ..).ecount
theorem rd_postEvent {q : Nat} (hq : q < 8) (a b c d : Nat) {j : Key} (hj : OffSched j) : (postEvent h q a b c d).rd j = h.rd j :=
  (kept_postEvent h hq ..).rd j hj
end Hw

end Sys2Proof.Machine
end

