-- ==== Sys2Proof/Laws/Untouched.lean ====
section
/-!
SUPPORT. What the issue logic leaves alone: an instruction of core c whose effect stays in core c leaves every other part of
the device as it was.
-/
namespace Sys2Proof.Machine

/-- t differs from h only in core c, not in its item, loads and stores, and in the HALTED bits. -/
structure StaysIn (h t : Hw) (c : Core) : Prop where
  mem : t.mem = h.mem
  fields : ∀ k : Key, k.id ≠ K.ADIT_HALTED_CORES.id → t.rd k = h.rd k
  shadow : t.shadow = h.shadow
  others : ∀ d : Nat, d ≠ c.val → t.core d = h.core d
  item : (t.core c.val).item = (h.core c.val).item
  loads : (t.core c.val).loads = (h.core c.val).loads
  stores : (t.core c.val).stores = (h.core c.val).stores
  rest : t.gal = h.gal ∧ t.sched = h.sched ∧ t.clk = h.clk ∧ t.seam = h.seam ∧ t.dies = h.dies ∧ t.strata = h.strata ∧
    t.assay = h.assay ∧ t.keys = h.keys ∧ t.ldr = h.ldr ∧ t.pins = h.pins ∧ t.pcie = h.pcie ∧ t.bortik = h.bortik ∧
    t.dram = h.dram ∧ t.rst = h.rst ∧ t.pwr = h.pwr ∧ t.guest = h.guest ∧ t.dbg = h.dbg ∧ t.ecount = h.ecount

namespace StaysIn
variable {h t u : Hw} {c : Core}
theorem refl : StaysIn h h c := ⟨rfl, fun _ _ => rfl, rfl, fun _ _ => rfl, rfl, rfl, rfl, by simp⟩
theorem trans (a : StaysIn h t c) (b : StaysIn t u c) : StaysIn h u c where
  mem := b.mem.trans a.mem
  fields k hk := (b.fields k hk).trans (a.fields k hk)
  shadow := b.shadow.trans a.shadow
  others d hd := (b.others d hd).trans (a.others d hd)
  item := b.item.trans a.item
  loads := b.loads.trans a.loads
  stores := b.stores.trans a.stores
  rest := by
    obtain ⟨_, _, _, _, _, _, _, _, _, _, _, _, _, _, _, _, _, _⟩ := a.rest
    obtain ⟨_, _, _, _, _, _, _, _, _, _, _, _, _, _, _, _, _, _⟩ := b.rest
    simp_all
/-- A change of a core that leaves its item, loads and stores. -/
theorem onCore {f : CoreSt → CoreSt} (hi : ∀ x, (f x).item = x.item) (hl : ∀ x, (f x).loads = x.loads)
    (hs : ∀ x, (f x).stores = x.stores) : StaysIn h (h.onCore c.val f) c where
  mem := rfl
  fields _ _ := rfl
  shadow := rfl
  others d hd := Hw.core_onCore_ne h hd f
  item := by simp [hi]
  loads := by simp [hl]
  stores := by simp [hs]
  rest := by simp
theorem begun : StaysIn h (begun h c) c := onCore (fun _ => rfl) (fun _ => rfl) (fun _ => rfl)
theorem setG (r : Reg) (v : Word) : StaysIn h (h.setG c r v) c := by
  unfold Hw.setG; split
  · exact refl
  · exact onCore (fun _ => rfl) (fun _ => rfl) (fun _ => rfl)
theorem setPc (v : Word) : StaysIn h (h.setPc c v) c := onCore (fun _ => rfl) (fun _ => rfl) (fun _ => rfl)
theorem advance : StaysIn h (advance h c) c := setPc _
theorem result (rd : Reg) (v : Word) : StaysIn h (result h c rd v) c := (setG rd v).trans advance
theorem countSeq (i : Ins) : StaysIn h (countSeq h c i) c := by
  unfold Machine.countSeq; split
  · exact refl
  · exact onCore (fun _ => rfl) (fun _ => rfl) (fun _ => rfl)
theorem retire : StaysIn h (retire h c) c := by
  unfold Machine.retire; split
  · exact refl
  · unfold endStep; split
    · refine (onCore (f := fun x => { x with stepping := false }) (fun _ => rfl) (fun _ => rfl) (fun _ => rfl)).trans ?_
      exact ⟨rfl, fun k hk => Hw.rd_wr_ne _ hk _, rfl, fun _ _ => rfl, rfl, rfl, rfl, by simp⟩
    · exact refl
/-- An issued instruction whose effect stays in its core. -/
theorem runIns {i : Ins} {act : Hw → Option Hw} (r : Ready h c i) (ha : act (Machine.begun h c) = some u)
    (hs : StaysIn h u c) : StaysIn h (runIns h c i act) c := by
  rw [runIns_ready r ha]
  refine StaysIn.trans ?_ retire
  split
  · exact hs.trans (countSeq _)
  · exact hs
end StaysIn

/-- What stays in core c and changes only the registers dst leaves the rest untouched. -/
theorem untouched_of {s : State} {f : Hw → Hw} {c : Core} {dst : List Reg} (st : StaysIn s.hw (f s.hw) c)
    (hg : ∀ r, r ∉ dst → (f s.hw).g c r = s.hw.g c r) : Untouched s (s.onHw f) c dst :=
  ⟨rfl, rfl, st.mem, st.fields, st.shadow, hg, st.others, st.item, st.loads, st.stores, st.rest⟩

/-- Registers after an issued instruction. -/
theorem g_runIns {h u : Hw} {c : Core} {i : Ins} {act : Hw → Option Hw} (r : Ready h c i)
    (ha : act (begun h c) = some u) (q : Reg) : (runIns h c i act).g c q = u.g c q := by
  rw [runIns_ready r ha]; split <;> simp
theorem pc_runIns {h u : Hw} {c : Core} {i : Ins} {act : Hw → Option Hw} (r : Ready h c i)
    (ha : act (begun h c) = some u) : (runIns h c i act).pc c = u.pc c := by
  rw [runIns_ready r ha]; split <;> simp

/-- An instruction that computes rd. -/
theorem compute_untouched {s : State} {c : Core} {w : Nat} {rd : Reg} {srcs : List Reg} {f : Hw → Word}
    (r : Ready s.hw c { word := w, uses := rd :: srcs }) :
    Untouched s (s.onHw fun h => compute h c w rd srcs f) c [rd] :=
  untouched_of (f := fun h => compute h c w rd srcs f)
    (.runIns (act := fun h => some (result h c rd (f h))) r rfl (StaysIn.begun.trans (.result rd _)))
    fun q hq => (compute_ready r).2.2 q (by simpa using hq)

end Sys2Proof.Machine
end

