-- ==== Sys2Proof/Machine/LinkCode.lean ====
section
/-!
DEFINITION. What a Bortik lane and link put on the wire: the blocks and their layouts (R351, R357, R361, R374), the line codes
of the steps (R350 to R353), the test patterns (R354), and what a frame seals (R362).
-/
namespace Sys2Proof.Machine

/-! ### Blocks (R361). A block is a number of 256 bits. -/

/-- A block of a type with its body. -/
def blockOf (type body : Nat) : Nat := type % 16 * 2 ^ 252 + body % 2 ^ 252
/-- A CTRL block with its fields, which end at bit 0 of the 248 below OP. -/
def ctrlBlock (op fields : Nat) : Nat := blockOf 4 (op % 16 * 2 ^ 248 + fields % 2 ^ 248)
/-- Part p of a DATA doorbell. -/
def dataBlock (q seq p desc : Nat) : Nat :=
  blockOf 2 (q % 2 ^ 14 * 2 ^ 238 + seq % 2 ^ 16 * 2 ^ 222 + p % 4 * 2 ^ 220 + desc / 2 ^ (212 * p) % 2 ^ 212)
/-- An RSC block: slots 240 * index to 240 * index + 239 of a cycle. -/
def rscBlock (cycle index slots : Nat) : Nat :=
  blockOf 3 (cycle % 2 ^ 7 * 2 ^ 245 + index % 2 ^ 5 * 2 ^ 240 + slots % 2 ^ 240)
/-- A TAG block. -/
def tagBlock (tag : Nat) : Nat := blockOf 7 (tag % 2 ^ 128 * 2 ^ 124)
/-- The n bytes of a number from byte i on, byte i in the highest bits. -/
def bytesHigh (x i n : Nat) : Nat := (List.range n).foldl (fun v j => v * 256 + x / 256 ^ (i + j) % 256) 0

/-- The 256-bit blocks of a block of the link layer (R361, R374). -/
def blockWords (at' : Nat) : BBlock → List Nat
  | .ack seq => [ctrlBlock 1 (seq.toNat * 2 ^ 232)]
  | .nak seq => [ctrlBlock 2 (seq.toNat * 2 ^ 232)]
  | .credit q c a => [ctrlBlock 3 (q.val * 2 ^ 234 + c.toNat * 2 ^ 221 + a.toNat * 2 ^ 205)]
  | .reject seq check => [ctrlBlock 4 (seq.toNat * 2 ^ 232 + check.toNat * 2 ^ 224)]
  | .keySwitch e nb => [ctrlBlock 5 (e.toNat * 2 ^ 216 + b2n nb * 2 ^ 215 + at' % 2 ^ 64 * 2 ^ 151)]
  | .rscMark v k w kmin => [ctrlBlock 6 (v.toNat * 2 ^ 200 + k.toNat * 2 ^ 188 + w.toNat * 2 ^ 175 + kmin.toNat * 2 ^ 163)]
  | .badType => [blockOf 0 0]
  | .badOp => [ctrlBlock 0 0]
  | .doorbell q seq d => (List.range 3).map fun p => dataBlock q.val seq.toNat p (descNat d)
  | .beacon s p c i d e r =>
    [blockOf 5 (s.toNat * 2 ^ 188 + p.toNat * 2 ^ 180 + c.toNat * 2 ^ 164 + i.toNat * 2 ^ 132 + bytesHigh d.toNat 0 16),
     blockOf 6 (bytesHigh d.toNat 16 16 * 2 ^ 124 + e.toNat * 2 ^ 92 + b2n r * 2 ^ 91)]

/-- The ADVERT of a lane of a link (R357). -/
def advertBlock (a : Advert) (lane : Nat) : Nat :=
  blockOf 8 (a.serial.toNat * 2 ^ 188 + a.maxStep.val * 2 ^ 185 + a.width.val * 2 ^ 183 + b2n a.precode * 2 ^ 182 +
    b2n a.resume * 2 ^ 181 + a.lastSeq.toNat * 2 ^ 165 + a.nonce.toNat * 2 ^ 101 + lane % 16 * 2 ^ 72)
/-- The ADVERT this end sends on a lane of link l: RESUME with the partner the records name (R357, R368). -/
def ownAdvert (h : Hw) (l lane : Nat) (partner : Word) : Nat :=
  advertBlock
    { serial := BitVec.ofNat 64 (h.rd K.ID_SERIAL_SERIAL), maxStep := Fin.ofNat 8 (ownMaxStep h l)
      width := Fin.ofNat 4 (h.rd (K.BORTIK_LINK_CFG_WIDTH l)), precode := h.bit (K.LANE_CFG_PRECODE (l + lane))
      resume := wantsResume h l partner, lastSeq := BitVec.ofNat 16 (linkSt h l).lastIn
      nonce := BitVec.ofNat 64 (linkSt h l).nonce, lanesOk := true } lane

/-- The alignment block of a lane of a link at a step (R351). -/
def alignBlock (lane step : Nat) : Nat := 0xF3A65C910E7BD248 * 2 ^ 192 + lane % 256 * 2 ^ 184 + step % 256 * 2 ^ 176

/-- What a frame seals (R362): the plaintext of each block, the additional data, and the IV from LINKID, DIR and the count of
sealed blocks before it. -/
def framePlain (l : List Nat) : List Nat := l.map fun b => b % 2 ^ 252
def frameAad (l : List Nat) : List Byte := l.map fun b => BitVec.ofNat 8 (b / 2 ^ 252 % 16)
def frameIv (linkId dir count : Nat) : Nat := linkId % 2 ^ 31 * 2 ^ 65 + dir % 2 * 2 ^ 64 + count % 2 ^ 64

/-! ### Step 1 (R353) -/

/-- A character of the 8b/10b code: a data character, or K28.5. -/
inductive Char10 where
  | data (b : Byte)
  | k285
  deriving DecidableEq, Repr

/-- The bytes of a block, the highest first. -/
def blockBytes (b : Nat) : List Byte := (List.range 32).map fun i => BitVec.ofNat 8 (b / 256 ^ (31 - i))
/-- A block at step 1: 32 data characters; in an alignment block K28.5 stands in place of comma byte 0xF3. -/
def step1Chars (align : Bool) (b : Nat) : List Char10 :=
  if align then .k285 :: ((blockBytes b).drop 1).map .data else (blockBytes b).map .data

/-! ### Steps 2 to 5 (R350 to R352) -/

/-- The bits of a block, most significant first. -/
def blockBits (b : Nat) : List Bool := (List.range 256).map fun i => b.testBit (255 - i)
/-- A step of the additive scrambler x^58 + x^39 + 1. -/
def linkNext (x : BitVec 58) : BitVec 58 := (x <<< 1) ||| (if x.getLsbD 57 != x.getLsbD 38 then 1 else 0)
/-- Its bits from a state, and the state after them. -/
def linkBits (x : BitVec 58) : Nat → List Bool × BitVec 58
  | 0 => ([], x)
  | n + 1 => let r := linkBits (linkNext x) n; ((linkNext x).getLsbD 0 :: r.1, r.2)
/-- The blocks between two alignment blocks as a lane sends them: one scrambler run from all ones. The receiver's descrambler is
the same function. -/
def scrambleLink (bits : List Bool) : List Bool := List.zipWith (· != ·) bits (linkBits (BitVec.allOnes 58) bits.length).1

/-- Symbol index of a bit pair: 00, 01, 11, 10 are 0, 1, 2, 3 (R350). -/
def pamIndex (hi lo : Bool) : Nat := if hi then (if lo then 2 else 3) else (if lo then 1 else 0)
/-- Level of a symbol index. -/
def pamLevel (g : Nat) : Int := 2 * (g % 4 : Nat) - 3
/-- Precoding: each index sent is the index less the one sent before, modulo 4 (R350). -/
def precode (p : Nat) : List Nat → List Nat
  | [] => []
  | g :: l => let q := (g + 4 - p % 4) % 4; q :: precode q l
/-- What the receiver recovers. -/
def unprecode (p : Nat) : List Nat → List Nat
  | [] => []
  | q :: l => (q + p) % 4 :: unprecode q l

/-- Message of a codeword of 20 blocks: its header gives the index of its first block (R352). -/
def codeword (index : Nat) (blocks : List Nat) : Nat :=
  blocks.foldl (fun m b => m * 2 ^ 256 + b % 2 ^ 256) (index % 2 ^ 14 * 2 ^ 6)

/-! ### Patterns (R354) -/

/-- The next bit of PRBS-31, x^31 + x^28 + 1, after the 31 bits that stand, the newest lowest. -/
def prbs31Next (x : BitVec 31) : Bool := x.getLsbD 30 != x.getLsbD 27
/-- A generator's bits from a state. -/
def prbs31 (x : BitVec 31) : Nat → List Bool
  | 0 => []
  | n + 1 => let b := prbs31Next x; b :: prbs31 ((x <<< 1) ||| (if b then 1 else 0)) n
/-- Errors a checker counts, once it has seeded itself with the first 31 bits: its own sequence runs on. -/
def prbs31Errors (stream : List Bool) : Nat :=
  let seed := (stream.take 31).foldl (fun (x : BitVec 31) b => (x <<< 1) ||| (if b then 1 else 0)) 0
  let rest := stream.drop 31
  (List.zipWith (· != ·) rest (prbs31 seed rest.length)).count true

end Sys2Proof.Machine
end

