-- ==== Sys2Proof/Machine/Pins.lean ====
section
/-!
DEFINITION. What the user I/O pins show (R449, R450, R469, R507), and the names and places of the package's balls (R499, R500).
No command looks at either.
-/
namespace Sys2Proof.Machine

/-- What a pin does to its ball. -/
inductive PinLevel where
  | highZ | pullUp | pullDown | keeper
  | drive (v : Bool)
  deriving DecidableEq, Repr

/-- The fuse states of R449. -/
def fusePin : Nat → PinLevel
  | 1 => .pullUp | 2 => .pullDown | 3 => .drive false | 4 => .drive true | _ => .highZ

/-- PULL of a pin that nothing drives. -/
def pulled : Nat → PinLevel
  | 1 => .pullUp | 2 => .pullDown | 3 => .keeper | _ => .highZ

/-- The output driver of a pin stays off: STD is OFF, or the pin is LVDS in a bank at 1.5 V (R507). -/
def driverOff (h : Hw) (n j i : Nat) : Bool :=
  let std := h.rd (K.IOBANK_PIN_STD n j i)
  std == 0 || (std == 5 && h.rd (K.IOBANK_CFG_VCCIO n j) == 2)

/-- What pin i of bank b shows when the die's logic is evaluated `c` levels deep (R450). -/
def pinLevel (h : Hw) (c b i : Nat) : PinLevel :=
  let n := bankDie b
  let j := bankJ b
  match bankPins h b with
  | .highZ => .highZ
  | .fuse code => fusePin code
  | .boundary => .drive (h.dbg.boundary.testBit (Config.boundaryCell (48 * b + i)))
  | .fenced | .design =>
    if h.rd (K.IOBANK_PIN_STD n j i) = 0 then .highZ
    else match if driverOff h n j i then none else padDrive h c n j i with
      | some v => .drive v
      | none => pulled (h.rd (K.IOBANK_PIN_PULL n j i))

/-! ### Balls (R499, R500) -/

/-- L(1) to L(19). -/
def rowLetters : List Char := "ABCDEFGHJKLMNPTUVWY".toList

/-- L(k). -/
def rowLetter (k : Nat) : Char := rowLetters.getD (k - 1) ' '

/-- The code of row index r. -/
def rowCode (r : Nat) : List Char :=
  if r ≤ 19 then [rowLetter r] else [rowLetter ((r - 20) / 19 + 1), rowLetter ((r - 20) % 19 + 1)]

/-- The fabric die whose balls lie in the quadrant of a row and a column. -/
def quadrantDie (row col : Nat) : Nat :=
  match decide (row ≤ 46), decide (col ≤ 46) with
  | true, true => 0 | true, false => 1 | false, false => 2 | false, true => 3

/-- The balls of each group. -/
def ballGroups : List (String × Nat) :=
  [("User I/O", 2304), ("User I/O supply", 288), ("General serial lanes", 256), ("PCI Express", 64),
   ("PCI Express reference", 2), ("DDR signals", 704), ("DDR supply", 96), ("Hub control", 67), ("Guest site", 192),
   ("Remote sense", 4), ("Core and auxiliary supply", 1648), ("Lane supply", 128), ("Ground", 2693), ("Reserved", 18)]

end Sys2Proof.Machine
end

