-- ==== Sys2Proof/Machine/SeamLane.lean ====
section
/-!
DEFINITION. What a seam's lanes carry: the scrambled bit streams (R113, R133) and the superframes of the packed modes (R118).
-/
namespace Sys2Proof.Machine

/-! ### The scrambler (R113) -/

/-- A step of the PRBS-15 sequence x^15 + x^14 + 1: the next bit is the sum of the last two of the 15 that stand. -/
def prbsNext (x : BitVec 15) : BitVec 15 := (x <<< 1) ||| (if x.getLsbD 14 != x.getLsbD 13 then 1 else 0)
/-- The state n steps on. -/
def prbsAt (x : BitVec 15) : Nat → BitVec 15
  | 0 => x
  | n + 1 => prbsAt (prbsNext x) n
/-- The sequence from a state: n bits, oldest first. -/
def prbsBits (x : BitVec 15) : Nat → List Bool
  | 0 => []
  | n + 1 => (prbsNext x).getLsbD 0 :: prbsBits (prbsNext x) n
/-- Scramble bits, or take the scrambling off them. -/
def scramble (x : BitVec 15) (l : List Bool) : List Bool := List.zipWith (· != ·) l (prbsBits x l.length)

/-- What physical lane i of seam k carries for given bits, `pos` bit times after its training began; OFF groups and standby spares
carry scrambled zeros. -/
def laneStream (h : Hw) (k i pos : Nat) (l : List Bool) : List Bool :=
  scramble (prbsAt (Config.laneSeed (h.seamSt k).seedBase i) pos) l
/-- What the receiver of a lane makes of the stream. -/
def laneReceived (h : Hw) (k i pos : Nat) (l : List Bool) : List Bool := laneStream h k i pos l

/-! ### Superframes (R118). A cycle is the n bits that the lane's n slots carry in one user cycle. -/

/-- Framing bit k: the even parity of the 16 values of slot k. -/
def framingBit (cycles : List (List Bool)) (k : Nat) : Bool := (cycles.filter fun c => c.getD k false).length % 2 == 1
/-- A superframe of PACKED-n at a domain of 3.2 GHz / K: 16n payload bits, n framing bits, and idle up to 32K bit times. -/
def superframe (n kdiv : Nat) (cycles : List (List Bool)) : List Bool :=
  cycles.flatten ++ (List.range n).map (framingBit cycles) ++ List.replicate (32 * kdiv - 17 * n) false
/-- The payload of a superframe, cycle by cycle. -/
def payload (n : Nat) (f : List Bool) : List (List Bool) := (List.range 16).map fun c => (f.drop (c * n)).take n
/-- Parity errors of a superframe: framing bits that do not agree with its payload. -/
def parityErrors (n : Nat) (f : List Bool) : Nat :=
  ((List.range n).filter fun k => f.getD (16 * n + k) false != framingBit (payload n f) k).length
/-- Whether a group can run in PACKED-n at K: the superframe fits (R118). -/
def superframeFits (n kdiv : Nat) : Bool := decide (17 * n ≤ 32 * kdiv)

end Sys2Proof.Machine
end

