-- ==== Sys2Proof/WellFormed.lean ====
section
/-!
DEFINITION. Which terms are commands an outside agent can send: operands that are natural numbers lie in the range of the
wires that carry them. What the device does with a value the manual forbids (a misaligned register access, a reserved
code) is part of its meaning and no question of form.
-/
namespace Sys2Proof

/-- An address has 64 bits. -/
def hubAddr (a : Nat) : Bool := decide (a < 2 ^ 64)
/-- Sizes a command may give a register access; those R7 forbids are answered with TGTERR. -/
def regSize (n : Nat) : Bool := [1, 2, 4, 8, 16, 32, 64].contains n
/-- A value has at most n bytes. -/
def fits (v n : Nat) : Bool := decide (v < 256 ^ n)
/-- Beats of 64 bytes in a fabric port transaction (R29). -/
def portBeats (n : Nat) : Bool := decide (1 ≤ n ∧ n ≤ 4)
/-- Payload of one host transaction. -/
def busSizeOk (n : Nat) : Bool := decide (1 ≤ n ∧ n ≤ 4096)
/-- The header of a guest transaction (R488). -/
def guestHdr (g : GuestHdr) : Bool := decide (g.addr < 2 ^ 64) && decide (1 ≤ g.size ∧ g.size ≤ 256)

/-- The form of a command. -/
def Instr.wf : Instr → Bool
  | .csrWrite _ a n v => hubAddr a && regSize n && fits v n
  | .rcRead _ a n => hubAddr a && regSize n
  | .stWrite _ a n v => hubAddr a && regSize n && fits v n
  | .gridtimeLowRead _ n => regSize n
  | .flitForward .. => true
  | .galleryRequest .. => true
  | .galleryResponse .. => true
  | .fportOutboundRequest _ _ _ _ a n v be => decide (a < 2 ^ 64) && portBeats n && fits v (64 * n) && decide (be < 2 ^ (64 * n))
  | .fportPostedAccept .. => true
  | .fportOutboundResponse .. => true
  | .fportFlush .. => true
  | .fportFlushComplete .. => true
  | .fportInboundRequest .. => true
  | .fportInboundResponse _ _ _ v => fits v 512
  | .fportStallTimeout .. => true
  | .fportStalledClear .. => true
  | .sectorPortRequest _ _ _ _ v be => fits v 32 && decide (be < 2 ^ 32)
  | .sectorPortResponse .. => true
  | .outpostPortAccess _ _ _ v => fits v 8
  | .flashRead .. => true
  | .flashProgram .. => true
  | .flashErase .. => true
  | .flashOpComplete .. => true
  | .uartDataWrite .. => true
  | .uartDataPop .. => true
  | .uartRxFrame .. => true
  | .uartTxFrame .. => true
  | .spiDataWrite .. => true
  | .spiDataPop .. => true
  | .i2cCmdWrite _ _ v => fits v 8
  | .i2cCmdPop .. => true
  | .spineContentionDetect .. => true
  | .spineRepairComplete .. => true
  | .qualWindow .. => true
  | .crystalQualTimeout => true
  | .holdoverTimeout => true
  | .surveyPllLock => true
  | .fpllLock .. => true
  | .fpllLockTimeout .. => true
  | .fpllLockLoss .. => true
  | .clockSwitchStart .. => true
  | .clockSwitchPark .. => true
  | .clockSwitchDeadsrcTimeout .. => true
  | .clockSwitchComplete .. => true
  | .clockSwitchNosrcTimeout .. => true
  | .hubGateClose .. => true
  | .fabricEnableChange .. => true
  | .stakeLatch .. => true
  | .stakeLatchRelease .. => true
  | .fabricSeamTrainStart .. => true
  | .seamResetDone .. => true
  | .seamPrbsDone .. => true
  | .seamPrbsTimeout .. => true
  | .seamLrpt .. => true
  | .seamReportTimeout .. => true
  | .seamMack .. => true
  | .seamMapTimeout .. => true
  | .eyeMeasure .. => true
  | .spareSwapComplete .. => true
  | .laneAbruptFail .. => true
  | .degradePlanApply .. => true
  | .bindingAlign .. => true
  | .seamRejoin .. => true
  | .fabricTrigger .. => true
  | .trigInPin .. => true
  | .htrigWrite .. => true
  | .triggerArrival .. => true
  | .captureNetwork .. => true
  | .captureWaitTimeout .. => true
  | .strataDrainStart .. => true
  | .strataDrainComplete .. => true
  | .strataWindowAccess .. => true
  | .deepDrainComplete .. => true
  | .restoreComplete .. => true
  | .add .. => true
  | .sub .. => true
  | .andOp .. => true
  | .orOp .. => true
  | .xorOp .. => true
  | .sll .. => true
  | .srl .. => true
  | .sra .. => true
  | .slt .. => true
  | .sltu .. => true
  | .mul .. => true
  | .mulh .. => true
  | .mulhu .. => true
  | .div .. => true
  | .divu .. => true
  | .rem .. => true
  | .remu .. => true
  | .clz .. => true
  | .popc .. => true
  | .addi .. => true
  | .andi .. => true
  | .ori .. => true
  | .xori .. => true
  | .slti .. => true
  | .sltiu .. => true
  | .slli .. => true
  | .srli .. => true
  | .srai .. => true
  | .lui .. => true
  | .lb .. => true
  | .lh .. => true
  | .lw .. => true
  | .ld .. => true
  | .lbu .. => true
  | .lhu .. => true
  | .lwu .. => true
  | .sb .. => true
  | .sh .. => true
  | .sw .. => true
  | .sd .. => true
  | .loadResponse .. => true
  | .storeAck .. => true
  | .icacheFillResponse .. => true
  | .beq .. => true
  | .bne .. => true
  | .blt .. => true
  | .bge .. => true
  | .bltu .. => true
  | .bgeu .. => true
  | .jalr .. => true
  | .jal .. => true
  | .tret .. => true
  | .illegalInstruction .. => true
  | .lockOp .. => true
  | .endlock .. => true
  | .priorityReservationGrant => true
  | .priorityReservationTimeout => true
  | .fenceR .. => true
  | .fenceW .. => true
  | .fenceRw .. => true
  | .fenceRwi .. => true
  | .trap .. => true
  | .enq .. => true
  | .deq .. => true
  | .reply .. => true
  | .doneItem .. => true
  | .fsetClaim .. => true
  | .fsetRelease .. => true
  | .frameClaimTimeout .. => true
  | .fwr .. => true
  | .frd .. => true
  | .fverify .. => true
  | .frameOpComplete .. => true
  | .stage .. => true
  | .commit .. => true
  | .cfgCommitGo .. => true
  | .commitDeferredApply .. => true
  | .kload .. => true
  | .kroll .. => true
  | .kwipe .. => true
  | .adig .. => true
  | .acmp .. => true
  | .strain .. => true
  | .swidth .. => true
  | .splanQuery .. => true
  | .splanRetire .. => true
  | .cap .. => true
  | .drain .. => true
  | .restore .. => true
  | .clkhalt .. => true
  | .clkrun .. => true
  | .waitOp .. => true
  | .waitWake .. => true
  | .msgMsix .. => true
  | .msgLog .. => true
  | .rstreqWarm .. => true
  | .rstreqCold .. => true
  | .rstreqDie .. => true
  | .fuserd .. => true
  | .fuseprog .. => true
  | .optwr .. => true
  | .doorbell .. => true
  | .fportCreditUpdate .. => true
  | .queueEnable .. => true
  | .queueDisable .. => true
  | .queuePop .. => true
  | .affWrite .. => true
  | .shiftChange .. => true
  | .burnLimitAbort .. => true
  | .fportDelivery .. => true
  | .fportDeliveryAccept .. => true
  | .loadRequest => true
  | .legendCheck .. => true
  | .segmentComplete .. => true
  | .imageProgramReturn => true
  | .loadVerifyTimeout => true
  | .loadSourceStall => true
  | .loadClearComplete => true
  | .releaseWrite .. => true
  | .plpWord .. => true
  | .slpWrite .. => true
  | .slpStatus => true
  | .slpOtherCommand .. => true
  | .bootFlashBurst .. => true
  | .fenceClose .. => true
  | .fenceSettled .. => true
  | .fenceLift .. => true
  | .maskTableWrite .. => true
  | .scrubFrame .. => true
  | .scrubStuckTimeout .. => true
  | .dieDigestCompute .. => true
  | .hubDigestRecompute => true
  | .deviceDigestRecompute => true
  | .pcieLinkUp .. => true
  | .pcieLinkDown => true
  | .pcieHotReset => true
  | .pcieConfigRequest .. => true
  | .pcieMemWrite _ _ _ n v _ => busSizeOk n && fits v n
  | .pcieMemRead _ _ _ n _ => busSizeOk n
  | .pcieCompletionReceived .. => true
  | .pcieCompletionTimeout .. => true
  | .pcieFlr .. => true
  | .barResize .. => true
  | .msixEnable .. => true
  | .msixUnmask .. => true
  | .funcMsixWrite .. => true
  | .hostRingDelivery .. => true
  | .hringHeadWrite .. => true
  | .dbgwinWrite .. => true
  | .linkSignalDetect .. => true
  | .bortikAdvert .. => true
  | .linkStep1Timeout .. => true
  | .climbStepComplete .. => true
  | .linkAlignComplete .. => true
  | .linkKeyAvailable .. => true
  | .laneLockLoss .. => true
  | .laneLockRegain .. => true
  | .laneLockTimeout .. => true
  | .laneMarginMeasure .. => true
  | .bortikFrameReceive .. => true
  | .bortikRscBlock .. => true
  | .beaconSend .. => true
  | .beaconLostTimeout .. => true
  | .replayTimeout .. => true
  | .keyEpochSwitch .. => true
  | .creditSend .. => true
  | .bortikDelivery .. => true
  | .rscAlignComplete .. => true
  | .ddrTrainComplete .. => true
  | .ddrRefreshDue .. => true
  | .ddrSameBankRefresh .. => true
  | .ddrOwedRefreshPay .. => true
  | .ddrMr4Poll .. => true
  | .ddrDqsTrack .. => true
  | .ddrMarginAudit .. => true
  | .ddrRefreshWindow .. => true
  | .ddrRead .. => true
  | .ddrWrite .. => true
  | .ddrRetrain .. => true
  | .ddrRetrainComplete .. => true
  | .cipherRead .. => true
  | .cipherWrite .. => true
  | .counterFetchComplete _ p _ _ => decide (p < 2 ^ 27)
  | .cipherInstallComplete .. => true
  | .meridianPage .. => true
  | .cipherPageClear .. => true
  | .eccFillComplete => true
  | .powerOnReset .. => true
  | .resetPinAssert => true
  | .resetPinRelease => true
  | .perstAssert => true
  | .perstRelease => true
  | .coldReset => true
  | .warmReset => true
  | .dieReset .. => true
  | .critReset .. => true
  | .fuseSenseComplete => true
  | .optionLoadComplete => true
  | .foremanStart => true
  | .vccioChange .. => true
  | .vccioMeasure .. => true
  | .powerTargetUpdate => true
  | .powerStateStep => true
  | .a3Entry => true
  | .retskipTimeout => true
  | .a3Exit => true
  | .blockWake .. => true
  | .pauseWrite .. => true
  | .tempSample _ l => decide (l.length ≤ 64)
  | .tapReset => true
  | .extest => true
  | .samplePreload x => decide (x < 2 ^ 2304)
  | .idcode => true
  | .bypass .. => true
  | .accessRead .. => true
  | .accessWrite .. => true
  | .tapTrigger .. => true
  | .tapDbgwin .. => true
  | .debugWindowAccess _ o n v => decide (o < 0x400000) && regSize n && fits v n
  | .aditAttach .. => true
  | .aditDetach .. => true
  | .aditPeek .. => true
  | .aditPoke .. => true
  | .aditBusCancel .. => true
  | .aditBusResponse => true
  | .aditHalt .. => true
  | .coreHaltTake .. => true
  | .haltDeferralTimeout .. => true
  | .aditRun .. => true
  | .aditStep .. => true
  | .breakpointHit .. => true
  | .aditRegWrite .. => true
  | .dtxStore .. => true
  | .dtxRelease .. => true
  | .drxWrite .. => true
  | .drxRead .. => true
  | .aditResetWarm .. => true
  | .aditResetCold .. => true
  | .aditResetDie .. => true
  | .canaryFeed .. => true
  | .canaryExpiry => true
  | .guestLinkUp .. => true
  | .guestLinkDown => true
  | .guestRead g => guestHdr g
  | .guestFetch g => guestHdr g
  | .guestWrite g v => guestHdr g && fits v g.size
  | .guestPwrite g v => guestHdr g && fits v g.size
  | .guestBucketRelease => true
  | .guestDelivery .. => true
  | .guestCreditReturn => true
  | .guestUnfence .. => true
  | .toguestGo .. => true
  | .fromguestGo => true
  | .guestTempReport .. => true
  | .guestTempSilent => true
  | .guestGrstWrite .. => true
  | .vguestChange .. => true
  | .coreRailsGood => true
  | .vccintAtRetention => true
  | .laneSupplyChange .. => true
  | .dieFramesZeroed .. => true
  | .clkhaltWaitallTimeout .. => true
  | .optwrComplete .. => true
  | .fuseprogComplete .. => true
  | .spiByteTransfer .. => true
  | .i2cByteTransfer .. => true
  | .rscSlip .. => true

end Sys2Proof
end

