-- ==== Sys2Proof/Tests/Slice0.lean ====
section
/-!
SUPPORT. Tests: ill-formed commands are refused; and for every statement about the machine a concrete state and operands
that meet its hypotheses, with what the manual says comes of them. Each is one step of one command from a small state.
The expected values are those of the rules the statements cite, worked out by hand.
-/
namespace Sys2Proof.Machine.Slice0
open Sys2Proof Sys2Proof.Machine

set_option Elab.async false

/-! ### Small states -/

/-- The device with the hub started and nothing else done. -/
def hw0 : Hw := { ({} : Hw) with rst := { ({} : RstSt) with phase := .running, sensed := true } }
/-- A state over some hardware. -/
def st (h : Hw) : State := ⟨[], {}, h⟩
/-- The state after a command; commands never stop. -/
def after (c : Instr) (h : Hw) : Hw := match exec c (st h) with
  | .next t => t.hw
  | _ => {}
/-- The non-volatile memories after a command. -/
def nvAfter (c : Instr) (s : State) : NonVol := match exec c s with
  | .next t => t.nv
  | _ => {}
/-- Core c runs an item at a pc in its local SRAM, or the foreman fetches there, with registers g1, g2, … set. -/
def running (c : Core) (gs : List Word) (h : Hw := hw0) : Hw :=
  h.onCore c.val fun k => { k with
    fetching := c == 0
    pc := 0xFFFFFFFFFFFC0000
    item := if c == 0 then none else some ⟨256, none, 0, 0, 0, .absent, none, none⟩
    regs := (gs.zipIdx 1).filterMap fun e => if e.1 = 0 then none else some (e.2, e.1) }

/-- What `Ready` asks, as a test. -/
def readyB (h : Hw) (c : Core) (i : Ins) : Bool :=
  mayIssue h c && (h.core c.val).pendErr.isNone && !(i.uses.any fun r => r != 0 && (busyRegs h c).contains r) &&
  decide (fetch h c = (.ready, h)) && !(i.foremanOnly && !isForeman c) && !breaksSeq h c i

theorem ready_of {h : Hw} {c : Core} {i : Ins} (t : readyB h c i = true) : Ready h c i := by
  simp only [readyB, Bool.and_eq_true, Bool.not_eq_true', decide_eq_true_eq, Option.isNone_iff_eq_none] at t
  obtain ⟨⟨⟨⟨⟨a, b⟩, d⟩, e⟩, f⟩, g⟩ := t
  exact ⟨a, b, d, e, f, g⟩

/-- What `DevReady` asks, as a test. -/
def devB (h : Hw) (c : Core) (word : Nat) (uses : List Reg) (fo : Bool) : Bool :=
  readyB h c (devIns word uses fo) && loadsDone h c && storesDone h c

theorem dev_of {h : Hw} {c : Core} {w : Nat} {u : List Reg} {fo : Bool} (t : devB h c w u fo = true) : DevReady h c w u fo := by
  simp only [devB, Bool.and_eq_true] at t
  exact { toReady := ready_of t.1.1, loads := t.1.2, stores := t.2 }

/-- The operand at an address, as `OperandIs` has it. -/
def operandB (h : Hw) (c : Core) (a n align : Nat) (hub : Bool) (v : Nat) : Bool :=
  match operandPlace c a n align hub with
  | .ok p => (h.mem.seen p n).all (fun x => x.2 == .clean) && decide (h.mem.readN p n = v)
  | .error _ => false

theorem operand_of {h : Hw} {c : Core} {a n align : Nat} {hub : Bool} {v : Nat} (t : operandB h c a n align hub v = true) :
    OperandIs h c a n align hub v := by
  unfold operandB at t
  split at t
  · rename_i p hp
    simp only [Bool.and_eq_true, decide_eq_true_eq] at t
    exact ⟨p, hp, t.1, t.2⟩
  · simp at t

/-- Every check of a test holds. -/
def checks (l : List Bool) : Bool := l.all id

/-! ### Form -/

theorem test_wf_refuses_accesses : checks [!(Instr.csrWrite .adit (2 ^ 64) 8 0).wf, !(Instr.csrWrite .adit 0 3 0).wf,
    !(Instr.csrWrite .adit 0 1 256).wf, !(Instr.rcRead .adit (2 ^ 64) 8).wf, !(Instr.rcRead .adit 0 5).wf,
    !(Instr.stWrite .adit 0 128 0).wf, !(Instr.stWrite .adit 0 4 (2 ^ 32)).wf, !(Instr.gridtimeLowRead .adit 0).wf,
    (Instr.csrWrite .adit (2 ^ 64 - 8) 8 (2 ^ 64 - 1)).wf] = true := by
  decide +kernel

theorem test_wf_refuses_ports : checks [!(Instr.fportOutboundRequest 0 0 .read false (2 ^ 64) 1 0 0).wf,
    !(Instr.fportOutboundRequest 0 0 .read false 0 0 0 0).wf, !(Instr.fportOutboundRequest 0 0 .read false 0 5 0 0).wf,
    !(Instr.fportOutboundRequest 0 0 .write false 0 1 (2 ^ 512) 0).wf,
    !(Instr.fportOutboundRequest 0 0 .write false 0 1 0 (2 ^ 64)).wf, !(Instr.fportInboundResponse 0 0 0 (256 ^ 512)).wf,
    !(Instr.sectorPortRequest 0 0 true 0 (256 ^ 32) 0).wf, !(Instr.sectorPortRequest 0 0 true 0 0 (2 ^ 32)).wf,
    !(Instr.outpostPortAccess 0 true 0 (2 ^ 64)).wf, !(Instr.i2cCmdWrite 0 .design (2 ^ 64)).wf] = true := by
  decide +kernel

/-! ### The queue and reset -/

theorem test_step_takes_front : (match step { st hw0 with pending := [Instr.trigInPin 0, Instr.idcode] } with
    | .next t => t.pending == [Instr.idcode]
    | _ => false) = true := by
  decide +kernel

theorem test_tick : (let h := (hw0.wr K.CLK_STAT_SLOCK 1)
    let t := match step (st h) with
      | .next t => t.hw
      | _ => {}
    checks [h.now == 0, t.now == 1, match step (st {}) with
        | .next u => u == st {}
        | _ => false]) = true := by
  decide +kernel

theorem test_reset : checks [State.reset.hw.rd K.RST_CAUSE_POR == 1, State.reset.hw.mem.wf, State.reset.pending.isEmpty] = true := by
  decide +kernel

theorem test_nonvolatile_outlasts : Since { fuses := [(0, 4)] } ⟨[], { fuses := [(0, 5)] }, hw0⟩ := by
  refine ⟨fun word bit => ?_, Nat.le_refl _, Nat.le_refl _⟩
  have h : ∀ n : Nat, (4 : Nat).testBit n = true → (5 : Nat).testBit n = true := by
    intro n
    match n with
    | 0 => decide
    | 1 => decide
    | 2 => decide
    | k + 3 =>
      intro h
      simp [Nat.testBit_eq_false_of_lt (show (4 : Nat) < 2 ^ (k + 3) from Nat.lt_of_lt_of_le (by decide) (Nat.pow_le_pow_right (by decide) (Nat.le_add_left 3 k)))] at h
  by_cases e : word = 0
  · subst e; simpa [SMap.get] using h bit
  · simp [SMap.get, Ne.symm e]

/-! ### Memory -/

theorem test_memory : (let m : Mem := ({} : Mem).writeN 64 2 0x1234 3
    checks [m.wf, m.readByte 64 == 0x34, m.readByte 65 == 0x12, m.readByte 66 == 0, m.writeN 64 2 0 3 == {},
      (m.writeN 64 2 0 1).readN 64 2 == 0x1200]) = true := by
  decide +kernel

theorem test_code_byte : checks [judgeByte 0 0 == .clean, judgeByte 1 (codeBits 1 ^^^ codeBits 0) == .corrected 0,
    judgeByte 3 (codeBits 3 ^^^ codeBits 0) == .uncorrectable] = true := by
  decide +kernel

/-! ### The Nerter core -/

theorem test_alu : (let x : Word := 0x8000000000000001
    let y : Word := 0xFFFFFFFFFFFFFFC3
    let h := running 0 [x, y]
    checks (aluForms.map fun f => readyB h 0 (plainIns (wordA 1 f.2.1 3 1 2) [3, 1, 2]) &&
      (after (f.1 0 3 1 2) h).g 0 3 == f.2.2 x y)) = true := by
  decide +kernel

theorem test_alu_values : (let h := running 63 [0x8000000000000001, 0xFFFFFFFFFFFFFFC3]
    let v (i : Instr) := (after i h).g 63 3
    checks [v (.add 63 3 1 2) == 0x7FFFFFFFFFFFFFC4, v (.sll 63 3 1 2) == 8, v (.sra 63 3 1 2) == 0xF000000000000000,
      v (.srl 63 3 1 2) == 0x1000000000000000, v (.slt 63 3 1 2) == 1, v (.sltu 63 3 1 2) == 1,
      v (.mulhu 63 3 1 2) == 0x7FFFFFFFFFFFFFE2, v (.mulh 63 3 1 2) == 30, v (.clz 63 3 1) == 0, v (.popc 63 3 1) == 2,
      (after (.add 63 0 1 2) h).g 63 0 == 0, (after (.add 63 3 1 2) h).pc 63 == 0xFFFFFFFFFFFC0004]) = true := by
  decide +kernel

theorem test_unary : (let h := running 0 [0x00F0]
    checks (unaryForms.map (fun f => readyB h 0 (plainIns (wordA 1 f.2.1 3 1 0) [3, 1, 0]) &&
      (after (f.1 0 3 1) h).g 0 3 == f.2.2 0x00F0) ++ [(after (.clz 0 3 1) h).g 0 3 == 56, (after (.clz 0 3 0) h).g 0 3 == 64])) =
    true := by
  decide +kernel

theorem test_immediates : (let h := running 0 [5]
    checks (immForms.map (fun f => readyB h 0 (plainIns (wordI 2 f.2.1 2 1 0xFFF) [2, 1]) &&
        (after (f.1 0 2 1 0xFFF) h).g 0 2 == f.2.2 5 0xFFFFFFFFFFFFFFFF) ++
      shiftForms.map (fun f => readyB h 0 (plainIns (wordI 2 6 2 1 (BitVec.ofNat 12 (f.2.1 * 2 ^ 10 + 63))) [2, 1]) &&
        (after (f.1 0 2 1 63) h).g 0 2 == f.2.2 5 63) ++
      [(after (.addi 0 2 1 0xFFF) h).g 0 2 == 4, (after (.slli 0 2 1 63) h).g 0 2 == 0x8000000000000000,
        readyB h 0 (plainIns (wordU 7 2 0x80000) [2]), (after (.lui 0 2 0x80000) h).g 0 2 == 0xFFFFFFFF80000000])) = true := by
  decide +kernel

theorem test_divide : (let z := running 0 [7, 0]
    let o := running 0 [0x8000000000000000, 0xFFFFFFFFFFFFFFFF]
    checks [readyB z 0 (plainIns (wordA 1 0x18 3 1 2) [3, 1, 2]), (after (.div 0 3 1 2) z).g 0 3 == 0xFFFFFFFFFFFFFFFF,
      (after (.divu 0 3 1 2) z).g 0 3 == 0xFFFFFFFFFFFFFFFF, (after (.rem 0 3 1 2) z).g 0 3 == 7,
      (after (.remu 0 3 1 2) z).g 0 3 == 7, (after (.div 0 3 1 2) o).g 0 3 == 0x8000000000000000,
      (after (.rem 0 3 1 2) o).g 0 3 == 0]) = true := by
  decide +kernel

/-- Outside a locked sequence readiness does not depend on the instruction's word. -/
theorem ready_word {h : Hw} {c : Core} {i : Ins} (r : Ready h c i) (e : openSeq h c = none) (w : Nat) :
    Ready h c { i with word := w } where
  free := r.free
  quiet := r.quiet
  regs := r.regs
  fetched := r.fetched
  level := r.level
  lockRules := by simp [breaksSeq, e]

theorem test_divide_ready (f : Nat) : Ready (running 0 [7, 0]) 0 (plainIns (wordA 1 f 3 1 2) [3, 1, 2]) :=
  ready_word (i := plainIns 0 [3, 1, 2]) (ready_of (by decide +kernel)) (by decide +kernel) _

/-- Bytes 0x80 to 0x87 of the lowest and the highest doubleword of local SRAM. -/
def localBytes (c : Core) : Mem :=
  (({} : Mem).writeN (localAt c 0xFFFFFFFFFFFC0000) 8 0x8786858483828180 255).writeN (localAt c 0xFFFFFFFFFFFFFFF8) 8
    0x8786858483828180 255

theorem test_local_loads : (let h := { running 1 [0xFFFFFFFFFFFC0004, 0] with mem := localBytes 1 }
    let k := h.onCore 1 fun x => { x with pc := 0xFFFFFFFFFFFC0100 }
    checks (loadForms.map (fun f => let imm : BitVec 12 := if f.2.2.1 = 8 then 0xFFC else 0
        readyB k 1 (plainIns (wordI 3 f.2.1 2 1 imm) [2, 1]) && (openSeq k 1).isNone &&
        (k.mem.seen (localAt 1 (k.g 1 1 + imm.signExtend 64).toNat) f.2.2.1).all (fun x => x.2 == .clean) &&
        (after (f.1 1 2 1 imm) k).g 1 2 == widened f.2.2.1 f.2.2.2 (if f.2.2.1 = 8 then 0x8786858483828180
          else 0x87868584 % 256 ^ f.2.2.1)) ++
      [(after (.lb 1 2 1 0) k).g 1 2 == 0xFFFFFFFFFFFFFF84, (after (.lhu 1 2 1 0) k).g 1 2 == 0x8584,
        (after (.ld 1 2 0 0xFF8) k).g 1 2 == 0x8786858483828180])) = true := by
  decide +kernel

theorem test_local_stores : (let h := (running 1 [0xFFFFFFFFFFFC0204, 0x1122334455667788])
    checks (storeForms.map (fun f => let imm : BitVec 12 := if f.2.2 = 8 then 4 else 0
        readyB h 1 (plainIns (wordS 4 f.2.1 1 2 imm) [1, 2]) && (openSeq h 1).isNone &&
        !testHits h (.core 1) (localAt 1 (h.g 1 1 + imm.signExtend 64).toNat) &&
        (after (f.1 1 1 2 imm) h).mem.readN (localAt 1 (h.g 1 1 + imm.signExtend 64).toNat) 9 ==
          0x1122334455667788 % 256 ^ f.2.2) ++
      [(after (.sd 1 0 2 0xFF8) h).mem.readN (localAt 1 0xFFFFFFFFFFFFFFF8) 8 == 0x1122334455667788])) = true := by
  decide +kernel

theorem test_hub_accesses : (let top : Word := 0xFFFFFFFFFFEFFFF8
    let h := running 0 [top, 0x1122334455667788]
    checks (loadForms.map (fun f => readyB h 0 (plainIns (wordI 3 f.2.1 3 1 0) [3, 1]) && (openSeq h 0).isNone &&
        ((after (f.1 0 3 1 0) h).gal.reqs.map fun q => (q.kind, q.addr, q.size)) == [(.read, top.toNat, f.2.2.1)]) ++
      storeForms.map (fun f => readyB h 0 (plainIns (wordS 4 f.2.1 0 2 0) [0, 2]) &&
        ((after (f.1 0 0 2 0) h).gal.reqs.map fun q => (q.kind, q.addr, q.data)) ==
          [(.write, 0, 0x1122334455667788 % 256 ^ f.2.2)]))) = true := by
  decide +kernel

theorem test_hub_responses : (let h := (running 0 [])
    let g := { (h.onCore 0 fun k => { k with loads := [⟨5, 3, 64, 1, true, false⟩], stores := [⟨6, 64, false⟩] }) with
      gal := { ({} : Gallery) with arrived := [⟨5, .core 0, .read, .ok, 0x80, 64, 0⟩, ⟨6, .core 0, .write, .ok, 0, 64, 0⟩] } }
    let a := after (.loadResponse 0 0) g
    let b := after (.storeAck 0 0) g
    checks [a.g 0 3 == 0xFFFFFFFFFFFFFF80, (a.core 0).loads.isEmpty, (b.core 0).stores.isEmpty, b.g 0 3 == 0]) = true := by
  decide +kernel

theorem test_foreman_traps : (let h := (running 0 [3]).wr (K.CORE_TVEC_VEC 0) 0x40
    let t := after (.trap 0 1) h
    let i := after (.illegalInstruction 0 0) h
    let a := after (.ld 0 2 1 0) h
    let b := after (.sh 0 1 1 0) h
    checks [readyB h 0 (barredIns (wordA 0x17 0x10 0 1 0) [1]), readyB h 0 (edgeIns 0 []), !legalWord 0,
      readyB h 0 (plainIns (wordI 3 3 2 1 0) [2, 1]), readyB h 0 (plainIns (wordS 4 1 1 1 0) [1, 1]),
      t.rd (K.CORE_CAUSE_CODE 0) == 9, t.rd (K.CORE_TVAL_TVAL 0) == 3, t.rd (K.CORE_EPC_EPC 0) == 0xFFFFFFFFFFFC0004,
      t.pc 0 == 0x100, t.rd (K.CORE_CAUSE_TACTIVE 0) == 1, i.rd (K.CORE_CAUSE_CODE 0) == 1,
      i.rd (K.CORE_EPC_EPC 0) == 0xFFFFFFFFFFFC0000, a.rd (K.CORE_CAUSE_CODE 0) == 4, a.rd (K.CORE_TVAL_TVAL 0) == 3,
      b.rd (K.CORE_CAUSE_CODE 0) == 4]) = true := by
  decide +kernel

theorem test_crew_traps : (let h := ((running 63 [7]).wr K.ERR_POSTMASK_MASK 0).onCore 63 fun k => { k with stores := [⟨9, 0, false⟩] }
    let t := after (.trap 63 1) h
    let i := after (.illegalInstruction 63 0xFFFFFFFF) h
    checks [readyB h 63 (barredIns (wordA 0x17 0x10 0 1 0) [1]), readyB h 63 (edgeIns 0xFFFFFFFF []), !legalWord 0xFFFFFFFF,
      h.rd K.ERR_POSTMASK_MASK == 0, (t.core 63).ending == some ⟨9, 7, 0⟩, t.rd (K.CORE_CAUSE_CODE 63) == 9,
      i.rd (K.CORE_TVAL_TVAL 63) == 0xFFFFFFFF]) = true := by
  decide +kernel

theorem test_branches : (let h := running 0 [0xFFFFFFFFFFFFFFFF, 1]
    let goes (i : Instr) := (after i h).pc 0 == 0xFFFFFFFFFFFC0000 - 4
    let next (i : Instr) := (after i h).pc 0 == 0xFFFFFFFFFFFC0004
    checks (branchForms.map (fun f => readyB h 0 (plainIns (wordB 5 f.2.1 1 2 0xFFF) [1, 2])) ++
      [next (.beq 0 1 2 0xFFF), goes (.beq 0 1 1 0xFFF), goes (.bne 0 1 2 0xFFF), next (.bne 0 1 1 0xFFF), goes (.blt 0 1 2 0xFFF),
        next (.bge 0 1 2 0xFFF), next (.bltu 0 1 2 0xFFF), goes (.bgeu 0 1 2 0xFFF), next (.blt 0 1 1 0xFFF),
        goes (.bge 0 1 1 0xFFF), next (.bltu 0 1 1 0xFFF), goes (.bgeu 0 1 1 0xFFF)])) = true := by
  decide +kernel

theorem test_jumps : (let h := running 0 [0xFFFFFFFFFFFC0100]
    let a := after (.jal 0 2 0x00001) h
    let b := after (.jalr 0 1 1 0xFFF) h
    let k := (((h.wr (K.CORE_CAUSE_TACTIVE 0) 1).wr (K.CORE_EPC_EPC 0) 0xFFFFFFFFFFFC0200).onCore 0 fun x =>
      { x with lock := some { suspended := true } })
    let c := after (.tret 0) k
    checks [readyB h 0 (plainIns (wordJ 2 1) [2]), fetchable 0xFFFFFFFFFFFC0004, a.g 0 2 == 0xFFFFFFFFFFFC0004,
      a.pc 0 == 0xFFFFFFFFFFFC0004, readyB h 0 (barredIns (wordI 6 0 1 1 0xFFF) [1, 1]), b.g 0 1 == 0xFFFFFFFFFFFC0004,
      b.pc 0 == 0xFFFFFFFFFFFC00FC, readyB k 0 ⟨wordI 6 2 0 0 0, [], .barred, true⟩, c.pc 0 == 0xFFFFFFFFFFFC0200,
      c.rd (K.CORE_CAUSE_TACTIVE 0) == 0, (c.core 0).lock == some {}]) = true := by
  decide +kernel

/-- Core 1 in a locked sequence. -/
def inLock (l : LockSeq) : Hw := (running 1 [0x10000000, 5]).onCore 1 fun x => { x with lock := some l }

theorem test_locks : (let h := running 1 [0x10000000, 5]
    let a := after (.lockOp 1) h
    let good := inLock { stores := [⟨0x10000100, 2, 0x1234⟩], executed := 2 }
    let bad := (inLock { stores := [⟨0x10000100, 2, 0x1234⟩], broken := true }).wr (K.CORE_LOCKSTAT_FAILS 1) 15
    let b := after (.endlock 1 3) good
    let c := after (.endlock 1 3) bad
    checks [readyB h 1 (edgeIns (wordI 8 0 0 0 0) []), (a.core 1).lock == some {}, a.rd (K.CORE_LOCKSTAT_OPEN 1) == 1,
      readyB good 1 (edgeIns (wordI 8 1 3 0 0) [3]), !lineBusy good 1 0x10000100, !prioHolds good (some 1) 0x10000100 2,
      !good.bit K.ERR_TEST_EN, b.g 1 3 == 0, b.mem.readN 0x10000100 2 == 0x1234, (b.core 1).lock.isNone,
      readyB bad 1 (edgeIns (wordI 8 1 3 0 0) [3]), c.g 1 3 == 1, c.mem == {}, c.rd (K.CORE_LOCKSTAT_FAILS 1) == 16,
      (after (.endlock 1 3) (bad.wr (K.CORE_LOCKSTAT_FAILS 1) 16)).rd (K.CORE_LOCKSTAT_FAILS 1) == 16]) = true := by
  decide +kernel

theorem test_priority : (let h := (running 1 []).onCore 1 fun x => { x with lockWait := true }
    let g := { h with sched := { h.sched with prioQueue := [1, 5] } }
    let t := after .priorityReservationGrant g
    checks [!prioHeld g, !isHalted g 1, t.rd (K.CORE_LOCKSTAT_PRIO 1) == 1, t.sched.prioQueue == [5],
      (t.core 1).lock == some {}, t.pc 1 == 0xFFFFFFFFFFFC0004,
      (after .priorityReservationTimeout t).rd (K.CORE_LOCKSTAT_PRIO 1) == 0]) = true := by
  decide +kernel

theorem test_fences : (let h := (running 0 []).onCore 0 fun x => { x with icache := [64] }
    let busy := h.onCore 0 fun x => { x with loads := [⟨5, 3, 64, 8, false, false⟩], stores := [⟨6, 64, false⟩] }
    checks (fenceForms.map (fun f => readyB h 0 (barredIns (wordA 0x17 f.2.1 0 0 0) []) && loadsDone h 0 && storesDone h 0 &&
        ((after (f.1 0) h).pc 0 == 0xFFFFFFFFFFFC0004) && (((after (f.1 0) h).core 0).icache.isEmpty == f.2.2.2.2)) ++
      fenceForms.map (fun f => !loadsDone busy 0 && !storesDone busy 0 &&
        readyB busy 0 (barredIns (wordA 0x17 f.2.1 0 0 0) []) && decide (after (f.1 0) busy = busy)))) = true := by
  decide +kernel

theorem test_icache_fill : (let h := (running 0 []).onCore 0 fun x => { x with pc := 0x10000040 + 4 }
    let t := after (.icacheFillResponse 0 .ok) h
    checks [mayIssue h 0, decide (fetch h 0 = (.miss, h)), (t.core 0).icache == [0x10000040], decide (fetch t 0 = (.ready, t))]) =
    true := by
  decide +kernel

/-! ### Device operations -/

/-- Die n with a live hub seam, out of reset and released. -/
def dieOn (n : Nat) (h : Hw) : Hw :=
  ((h.wr (K.SEAM_STAT_STATE (n + 4)) 5).wr (K.RST_DIE_INRESET n) 0).onDie n fun x => { x with setReset := false }
/-- Die 1 on. -/
def die1 (h : Hw) : Hw := dieOn 1 h
/-- Die 0 on. -/
def die0 (h : Hw) : Hw := dieOn 0 h
/-- Die 3 on. -/
def die3 (h : Hw) : Hw := dieOn 3 h
/-- Queue q enabled with 64 slots. -/
def queueOn (q : Nat) (h : Hw) : Hw := h.wr (K.SCHED_Q_CFG_EN q) 1
/-- A descriptor that says only its first word. -/
def desc1 (x : Word) : Desc := ⟨x, 0, 0, 0, 0, 0, 0, 0⟩
/-- The foreman with rs1 at hub SRAM, where a 64-byte operand stands. -/
def withDesc (b : Word) (h : Hw := hw0) : Hw :=
  { running 0 [0x10000000, b] h with mem := ({} : Mem).writeN 0x10000000 8 5 255 }

theorem test_enq : (let w := wordA 0x10 1 3 1 2
    let h := withDesc 256
    let full := (queueOn 256 h).setQueue 256 { res := 64 }
    let crew := { running 1 [0x10000000, 255] (queueOn 255 hw0) with mem := h.mem }
    checks [devB h 0 w [3, 1, 2] false, operandB h 0 0x10000000 64 64 true 5, !qEn h 256, (after (.enq 0 3 1 2) h).g 0 3 == 3,
      devB crew 1 w [3, 1, 2] false, operandB crew 1 0x10000000 64 64 true 5, qEn crew 255, (after (.enq 1 3 1 2) crew).g 1 3 == 4,
      devB full 0 w [3, 1, 2] false, operandB full 0 0x10000000 64 64 true 5, qCred full 256 == 0,
      (after (.enq 0 3 1 2) full).g 0 3 == 1]) = true := by
  decide +kernel

theorem test_enq_admits : (let h := queueOn 16383 (withDesc 16383)
    checks [devB h 0 (wordA 0x10 1 0 1 2) [0, 1, 2] false, operandB h 0 0x10000000 64 64 true 5, qCred h 16383 == 64,
      decide (0 < sharedFree h), freeSlot h 16383 == 0, (after (.enq 0 0 1 2) h).pc 0 == 0xFFFFFFFFFFFC0004]) = true := by
  decide +kernel

/-- Queue 256 with one entry, in slot 0 at hub SRAM 0x10001000, whose ticket word is 7. -/
def oneEntry (h : Hw) : Hw :=
  let h := ((queueOn 256 h).wr (K.SCHED_Q_BASE_ADDR 256) 0x10001000).setQueue 256 { entries := [⟨0, 0, 1, 0, 0, some 7⟩] }
  { h with mem := h.mem.writeN 0x10001000 64 (descNat ⟨9, 0, 0, 0, 0, 0, 7, 0⟩) (2 ^ 64 - 1) }

theorem test_enq_no_ticket : (let on (h : Hw) (i : Nat) : Hw := (queueOn (300 + i) h).wr (K.SCHED_Q_CFG_TRES (300 + i)) 8191
    let h := (List.range 9).foldl on (queueOn 256 (withDesc 256))
    checks [devB h 0 (wordA 0x10 1 3 1 2) [3, 1, 2] false, operandB h 0 0x10000000 64 64 true 5, qEn h 256, qCred h 256 != 0,
      decide (h.rd (K.SCHED_Q_CFG_TRES 256) ≤ heldBy h 256), sharedFree h == 0, (after (.enq 0 3 1 2) h).g 0 3 == 5]) = true := by
  decide +kernel

theorem test_deq_refused : (let h := running 0 [0x10000000, 256]
    let a := (queueOn 256 h).wr (K.SCHED_Q_CFG_AUTO 256) 1
    let crew := running 1 [0x10000000, 255] (queueOn 255 hw0)
    checks [devB h 0 (wordA 0x10 2 3 1 2) [3, 1, 2] false, !qEn h 256, (after (.deq 0 3 1 2) h).g 0 3 == 3, qAuto a 256,
      (after (.deq 0 3 1 2) a).g 0 3 == 8, devB crew 1 (wordA 0x10 2 3 1 2) [3, 1, 2] false, qEn crew 255,
      decide (operandPlace 1 0x10000000 64 64 true = .ok 0x10000000), (after (.deq 1 3 1 2) crew).g 1 3 == 4]) = true := by
  decide +kernel

/-- Words that no row of the tables names (R178, R180, R186, R195). -/
theorem test_illegal_words : [wordA 1 0xA 0 0 0, wordA 1 0x3FF 0 0 0, wordA 1 0x20 0 0 1, wordI 2 7 0 0 0, wordI 2 6 0 0 0xC00,
    wordI 2 6 0 0 0x040, wordB 5 6 0 0 0, wordB 5 7 31 31 0, wordA 0x17 0 0 0 0, wordA 0x17 15 0 0 0, wordA 0x17 1 1 0 0].all
    (fun w => !legalWord w) = true := by
  decide +kernel

theorem test_deq : (let w := wordA 0x10 2 3 1 2
    let h := running 0 [0x10000000, 256]
    let e := oneEntry h
    let t := after (.deq 0 3 1 2) e
    checks [devB (queueOn 256 h) 0 w [3, 1, 2] false, decide (operandPlace 0 0x10000000 64 64 true = .ok 0x10000000),
      (after (.deq 0 3 1 2) (queueOn 256 h)).g 0 3 == 2, devB e 0 w [3, 1, 2] false, qEn e 256, !qAuto e 256,
      oldest e 256 == some ⟨0, 0, 1, 0, 0, some 7⟩, !e.bit K.ERR_TEST_EN, t.g 0 3 == 0x70000, t.mem.readN 0x10000000 8 == 9,
      (t.queue 256).entries.isEmpty]) = true := by
  decide +kernel

theorem test_reply_and_done : (let h := withDesc 0
    let c := { running 1 [0x10000000, 0] (queueOn 300 hw0) with mem := h.mem }
    let i := c.onCore 1 fun x => { x with item := some ⟨256, some 4, 0, 0, 0, .used 300, none, none⟩ }
    checks [devB h 0 (wordA 0x10 3 3 1 0) [3, 1] false, (h.core 0).item.isNone, (after (.reply 0 3 1) h).g 0 3 == 6,
      devB h 0 (wordA 0x10 4 3 1 0) [3, 1] false, (after (.doneItem 0 3 1) h).g 0 3 == 6,
      devB i 1 (wordA 0x10 3 3 1 0) [3, 1] false, operandB i 1 0x10000000 64 64 true 5, qEn i 300, qCred i 300 == 64,
      (after (.reply 1 3 1) i).g 1 3 == 0, (after (.reply 1 3 1) i).mem.readN (slotAddr i 300 0) 8 == 5,
      devB i 1 (wordA 0x10 4 3 1 0) [3, 1] false, genOf (after (.doneItem 1 3 1) i) 4 == 1]) = true := by
  decide +kernel

/-- The word of a frame address: die 1, sector 191, frame 1023. -/
def lastFrame : Word := 0x40000 + 191 * 1024 + 1023

theorem test_fset : (let w := wordA 0x11 1 3 1 2
    let h := die1 (running 1 [lastFrame, 0])
    let taken := h.onDie 1 fun x => { x with eng := { x.eng with claim := some 5 } }
    let t := after (.fsetClaim 1 3 1 2) h
    let rel := { t with cores := (running 1 [lastFrame, 1]).cores }
    let fore := (h.onDie 1 fun x => { x with eng := { x.eng with claim := some 0 } }).onCore 0 fun x => { x with claim := some 1 }
    checks [devB h 1 w [3, 1, 2] false, (claimOf h 1).isNone, !frameOffline h 1, bits lastFrame.toNat 17 10 == 191,
      t.g 1 3 == 0, (t.die 1).eng.claim == some 1, (t.die 1).eng.pointer == 191 * 1024 + 1023,
      (after (.fsetClaim 1 3 1 2) taken).g 1 3 == 1, devB rel 1 w [3, 1, 2] false,
      ((after (.fsetRelease 1 3 1 2) rel).die 1).eng.claim.isNone, ((after (.frameClaimTimeout 1) fore).die 1).eng.claim.isNone]) =
    true := by
  decide +kernel

/-- Core 1 claims die 1 and asks for one frame at the start of hub SRAM. -/
def streaming (n : Word) : Hw :=
  (die1 (running 1 [0x10000000, n])).onDie 1 fun x => { x with eng := { x.eng with claim := some 1, pointer := 5 } }

theorem test_frame_ops : (let h := streaming 1
    let free := die1 (running 1 [0x10000000, 1])
    let run (i : Instr) := (((after i h).core 1).dev == some ⟨.frame 1, 3, none⟩) && ((after i h).die 1).eng.op.isSome
    checks [devB h 1 0 [3, 1, 2] false, streamOk h 0x10000000 512, claimOf h 1 == some 1, !frameOffline h 1,
      (h.die 1).eng.op.isNone, run (.frd 1 3 1 2), run (.fverify 1 3 1 2),
      devB free 1 0 [3, 1, 2] false, (claimOf free 1).isNone, (after (.fwr 1 3 1 2) free).g 1 3 == 2,
      (after (.frd 1 3 1 2) free).g 1 3 == 2, (after (.fverify 1 3 1 2) free).g 1 3 == 2,
      streamOk (streaming 1024) 0x10000000 (512 * 1024)]) = true := by
  decide +kernel

theorem test_frame_write : (let h := { hw0 with mem := ({} : Mem).writeN 0x10000000 1 7 1 }
    checks [(h.die 3).setReset, (h.mem.seen 0x10000000 512).all (fun x => x.2 == .clean), h.mem.readN 0x10000000 512 == 7]) =
    true := by
  decide +kernel

theorem test_frame_op_complete : (let h := ((running 1 []).onCore 1 fun x => { x with dev := some ⟨.frame 1, 3, none⟩ }).onDie 1 fun x =>
      { x with eng := { x.eng with claim := some 1, op := some (1, 0x105) } }
    let t := after (.frameOpComplete 1) h
    checks [!isHalted h 1, (h.core 1).pendErr.isNone, t.g 1 3 == 0x105, (t.core 1).dev.isNone, (t.die 1).eng.op.isNone]) = true := by
  decide +kernel

theorem test_stage : (let a := K.ERR_POSTMASK_MASK.addr
    let h := running 0 [BitVec.ofNat 64 a, 6]
    let b := running 0 [0x10000000, 6]
    let w := wordA 0x12 1 3 1 2
    checks [devB h 0 w [3, 1, 2] false, !isDoorbell a, decide (csrGate h (.core 0) true a = .ok),
      decide (csrGate h (.core 0) false a = .ok), (after (.stage 0 3 1 2) h).g 0 3 == 6,
      devB b 0 w [3, 1, 2] false, (after (.stage 0 3 1 2) b).rd (K.CORE_CAUSE_CODE 0) == 5]) = true := by
  decide +kernel

theorem test_commit : (let w := wordA 0x12 2 3 1 0
    let pwr := running 0 [0x8140]
    let busy := { pwr with pwr := { pwr.pwr with entering := true } }
    let none := running 0 [0xFFFF]
    checks [devB none 0 w [3, 1] false, (groupOf none 0xFFFF).isNone, (after (.commit 0 3 1) none).g 0 3 == BitVec.ofNat 64 csBadgroup,
      devB busy 0 w [3, 1] false, groupOf busy 0x8140 == some .pwr, groupBusy busy .pwr,
      (after (.commit 0 3 1) busy).ldr.deferred == [0x8140], (after (.commit 0 3 1) busy).g 0 3 == BitVec.ofNat 64 csDeferred,
      !groupBusy pwr .pwr, (after (.commit 0 3 1) pwr).g 0 3 == 0]) = true := by
  decide +kernel

/-- The foreman with g1 in its local SRAM, where the operand 5 stands. -/
def withLocal (b : Word) (h : Hw := hw0) : Hw :=
  { running 0 [0xFFFFFFFFFFFC1000, b] h with mem := ({} : Mem).writeN (localAt 0 0xFFFFFFFFFFFC1000) 8 5 255 }

theorem test_kload : (let w := wordA 0x13 1 3 1 2
    let i := withLocal 0
    let r := withLocal 0x10F
    let l := withLocal 0x23F
    let bad := withLocal 0x110
    checks [devB i 0 w [3, 1, 2] true, operandB i 0 0xFFFFFFFFFFFC1000 32 32 false 5, keySlot 0 == some .image,
      (after (.kload 0 3 1 2) i).keys.image == some 5, keySlot 0x10F == some (.region 15),
      ciphPend (after (.kload 0 3 1 2) r) 15 == some 5, (after (.kload 0 3 1 2) r).rd (K.CIPH_R_MER_PEND 15) == 1,
      keySlot 0x23F == some (.link 63), linkPend (after (.kload 0 3 1 2) l) 63 == some 5, (keySlot 0x110).isNone,
      (after (.kload 0 3 1 2) bad).g 0 3 == 2]) = true := by
  decide +kernel

theorem test_kroll_kwipe : (let w := wordA 0x13 2 3 0 2
    let keys (k : KeyStore) (b : Word) := { withLocal b with keys := k }
    let r := keys { ciphPend := [(0, some 7)] } 0x100
    let both := keys { ciphCur := [(0, some 6)], ciphPend := [(0, some 7)] } 0x100
    let l := keys { linkPend := [(0, some 8)] } 0x200
    let i := keys { image := some 4 } 0
    checks [devB i 0 (wordA 0x13 2 3 1 2) [3, 1, 2] true, operandB i 0 0xFFFFFFFFFFFC1000 16 16 false 5,
      devB r 0 w [3, 0, 2] true, !regionBusy r 0, !r.bit (K.CIPH_R_MER_CUT 0), (ciphCur r 0).isNone, ciphPend r 0 == some 7,
      ciphCur (after (.kroll 0 3 0 2) r) 0 == some 7, ciphPend (after (.kroll 0 3 0 2) r) 0 == none,
      devB both 0 w [3, 0, 2] true, ((after (.kroll 0 3 0 2) both).rd K.CIPH_STAT_REKEY).testBit 0,
      devB l 0 w [3, 0, 2] true, lkState l 0 != lkUp, linkCur (after (.kroll 0 3 0 2) l) 0 == some 8,
      devB i 0 (wordA 0x13 3 3 0 2) [3, 2] true, (after (.kwipe 0 3 2) i).keys.image.isNone,
      ciphCur (after (.kwipe 0 3 2) both) 0 == none, linkPend (after (.kwipe 0 3 2) l) 0 == none]) = true := by
  decide +kernel

theorem test_assay : (let dig (b : Word) (a : Word) := { running 0 [a, b] with
      assay := { ({} : AssaySt) with intDev := some (2 ^ 255) }, mem := ({} : Mem).writeN 0x10000000 32 (2 ^ 255) (2 ^ 32 - 1) }
    let h := dig 0x10000020 0x12
    let c := dig 0x10000000 0x12
    checks [devB h 0 (wordA 0x14 1 3 1 2) [3, 1, 2] false, decide (operandPlace 0 0x10000020 32 32 true = .ok 0x10000020),
      !h.bit K.ERR_TEST_EN, (after (.adig 0 3 1 2) h).mem.readN 0x10000020 32 == 2 ^ 255,
      devB c 0 (wordA 0x14 2 3 1 2) [3, 1, 2] false, operandB c 0 0x10000000 32 32 true (2 ^ 255), (after (.acmp 0 3 1 2) c).g 0 3 == 0,
      (after (.acmp 0 3 1 2) { c with assay := { c.assay with intDev := some 1 } }).g 0 3 == 1,
      (after (.adig 0 3 1 2) { h with assay := {} }).g 0 3 == BitVec.ofNat 64 asBadscope]) = true := by
  decide +kernel

theorem test_scope_digest :
    let h := { running 0 [] with assay := { ({} : AssaySt) with intDev := some 5 } }
    let x := h.onDie 0 fun d => { d with scrub := { d.scrub with secReady := [3], secDig := [(3, 9)], secEpoch := [(3, 2)] } }
    scopeDigest h 0x12 = .ok (5, 0, 32) ∧ scopeDigest x 0x300 = .ok (9, 2, 16) := by
  decide +kernel

/-! ### Seams, strata, clocks -/

theorem test_strain : (let w := wordA 0x15 1 3 1 0
    let h (k : Word) := running 0 [k]
    let busy := (h 3).wr (K.SEAM_STAT_STATE 3) 4
    let t := after (.strain 0 3 1) (h 3)
    checks [devB (h 4) 0 w [3, 1] false, (after (.strain 0 3 1) (h 4)).g 0 3 == 2, devB busy 0 w [3, 1] false, seamBusy busy 3,
      (after (.strain 0 3 1) busy).g 0 3 == 1, devB (h 3) 0 w [3, 1] false, !seamBusy (h 3) 3, t.g 0 3 == 0,
      t.rd (K.SEAM_CTL_EN 3) == 1, t.rd (K.SEAM_STAT_STATE 3) == 1 || t.rd (K.SEAM_STAT_NOHUB 3) == 1]) = true := by
  decide +kernel

theorem test_swidth : (let h := (running 0 [7, 1]).wr (K.SEAM_STAT_STATE 7) 5
    let f := (running 0 [0, 0]).wr (K.SEAM_STAT_PLAN 0) 2
    checks [devB h 0 (wordA 0x15 2 3 1 2) [3, 1, 2] false, bits ((after (.swidth 0 3 1 2) h).g 0 3).toNat 55 52 == 5,
      bits ((after (.swidth 0 3 1 2) f).g 0 3).toNat 51 48 == 2]) = true := by
  decide +kernel

theorem test_splan : (let w := wordA 0x15 3 3 1 2
    let q := running 0 [0, 0x31]
    let r := (running 0 [3, 0x7F0102]).wr (K.SEAM_STAT_STATE 3) 5
    checks [devB q 0 w [3, 1, 2] false, !seamBusy q 0, (after (.splanQuery 0 3 1 2) q).g 0 3 == BitVec.ofNat 64 (queryPlan q 0 3),
      devB r 0 w [3, 1, 2] false, seamLive r 3, !isRetired r 3 1 127]) = true := by
  decide +kernel

theorem test_cap : (let h := ((die1 (running 0 [7, 2])).wr (K.STRATA_PROF_NETS 1 7) 1).wr (K.STRATA_CTL_DEPTH 1) 1
    let t := after (.cap 0 3 1 2) h
    checks [devB h 0 (wordA 0x16 1 3 1 2) [3, 1, 2] false, (triggerRefusal h 1).isNone, nextSlot h 1 == some 0,
      t.pc 0 == 0xFFFFFFFFFFFC0004, t.strata.nextCapid == 1]) = true := by
  decide +kernel

theorem test_deep : (let off := ((running 0 [0x10000000, 0x1F02]).wr (K.RST_DIE_INRESET 2) 1)
    let d := running 0 [0, 0x1F00]
    checks [devB off 0 (wordA 0x16 2 3 1 2) [3, 1, 2] false, (deepRefusal off 2 31 0x10000000).isSome,
      (after (.drain 0 3 1 2) off).g 0 3 == BitVec.ofNat 64 stOffline, devB d 0 (wordA 0x16 3 3 1 2) [3, 1, 2] false,
      (restoreRefusal d 0 31 0 false false).isSome, (after (.restore 0 3 1 2) d).g 0 3 != 0]) = true := by
  decide +kernel

theorem test_restore_starts : (let h := { ((die1 (running 0 [1, 0x20001])).wr (K.STRATA_CTL_DEPTH 1) 32).wr (K.CLK_NET_STAT_HALTED 1 0) 1 with
      mem := (({} : Mem).writeN (headerAddr 1 0) 8 (0x53545241 * 2 ^ 32 + 2 ^ 24 + 0x10 + 1) 255).writeN (headerAddr 1 0 + 32) 8 1 255 }
    checks [devB h 0 (wordA 0x16 3 3 1 2) [3, 1, 2] false, restoreRefusal h 1 0 1 false true == none,
      (after (.restore 0 3 1 2) h).rd (K.STRATA_STAT_BUSY 1) == 1, ((after (.restore 0 3 1 2) h).core 0).dev.isSome]) = true := by
  decide +kernel

/-- Core 0 with a network set at hub SRAM: network 63 of die 1, which runs from source 0x65, or stands where src is 0. -/
def netSet (b : Word) (src : Nat := 0x65) : Hw :=
  let h := (die1 { running 0 [0x10000000, b] with mem := ({} : Mem).writeN 0x10000000 32 (2 ^ 127) (2 ^ 32 - 1) }).wr
    (K.CLK_NET_STAT_HALTED 1 63) 0
  h.onNet 1 63 fun x => { x with cur := src }

theorem test_clkhalt : (let w := wordA 0x16 4 3 1 2
    let h := netSet 0 0
    let a := netSet 1
    let t := after (.clkhalt 0 3 1 2) h
    checks [devB h 0 w [3, 1, 2] false, operandB h 0 0x10000000 32 32 true (2 ^ 127), namedNets h (2 ^ 127) == [127],
      t.g 0 3 == 0, netHalted t 1 63, devB a 0 w [3, 1, 2] false, !netHalted a 1 63, netEdges a 1 63]) = true := by
  decide +kernel

theorem test_clkhalt_timeout_and_run : (let h := (netSet 0 0).onCore 0 fun x => { x with dev := some ⟨.waitAll [127], 3, none⟩ }
    let r := (netSet 0 0).wr (K.CLK_NET_STAT_HALTED 1 63) 1
    checks [(h.core 0).pendErr.isNone, !isHalted h 0, (after (.clkhaltWaitallTimeout 0) h).g 0 3 == BitVec.ofNat 64 (2 ^ 40 + 0x11),
      devB r 0 (wordA 0x16 5 3 1 0) [3, 1] false, runRefusal r 127 == none, (after (.clkrun 0 3 1) r).g 0 3 == 0,
      !netHalted (after (.clkrun 0 3 1) r) 1 63,
      runRefusal { r with pwr := { r.pwr with entering := true } } 127 == some 8]) = true := by
  decide +kernel

theorem test_wait : (let w := wordA 0x17 0x20 3 1 0
    let h := running 0 [100, 0x11FFFFF8]
    let d := (after (.waitOp 0 3 1 2) h)
    let hit := h.onCore 0 fun x => { x with dev := some ⟨.wait (some 0) true, 3, none⟩ }
    checks [devB h 0 w [3, 1, 0] false, ((after (.waitOp 0 3 1 0) h).core 0).dev == some ⟨.wait none false, 3, none⟩,
      devB h 0 (wordA 0x17 0x20 3 1 2) [3, 1, 2] false, (d.core 0).dev == some ⟨.wait (some 0x11FFFFC0) false, 3, none⟩,
      (after (.waitWake 0 true) d).g 0 3 == 1, (after (.waitWake 0 false) hit).g 0 3 == 0]) = true := by
  decide +kernel

theorem test_msg : (let w := wordA 0x17 0x21 3 0 2
    let h := (running 0 [5, 7]).wr (K.PCIE_FUNC_MSIX_COUNT 0) 0
    let on := (h.wr (K.PCIE_FUNC_MSIX_COUNT 0) 8)
    let fs (m : Nat) : Pcie := { on.pcie with funcs := [(0, { ({} : FuncSt) with msixEn := true, table := [(7, m)] })] }
    let op := { on.wr K.PCIE_STAT_UP 1 with pcie := fs 0 }
    checks [devB h 0 w [3, 0, 2] false, msixCount h 0 == 0, (after (.msgMsix 0 3 0 2) h).g 0 3 == 2, devB on 0 w [3, 0, 2] false,
      funcOn on 0, !vectorOpen on 0 7, (after (.msgMsix 0 3 0 2) on).g 0 3 == 1, (func (after (.msgMsix 0 3 0 2) on) 0).pend == [7],
      devB op 0 w [3, 0, 2] false, vectorOpen op 0 7, linkUp op, (after (.msgMsix 0 3 0 2) op).pcie.lastMsix == some (0, 7)]) = true := by
  decide +kernel

theorem test_msg_log : (let h := running 0 [5, 0x1000]
    let t := after (.msgLog 0 3 1 2) h
    checks [devB h 0 (wordA 0x17 0x21 3 1 2) [3, 1, 2] false, t.g 0 3 == 0, t.rd K.ERR_LOGHEAD_TOTAL == 1,
      t.rd (K.ERR_LOG_W_WORD 0 3) == 5]) = true := by
  decide +kernel

theorem test_rstreq : (let w := wordA 0x17 0x30 3 1 2
    let h (x : Word) := (running 0 [x, 3]).wr (K.RST_DIE_INRESET 3) 0
    let a := after (.rstreqWarm 0 3 1 2) (h 0)
    let b := after (.rstreqCold 0 3 1 2) (h 1)
    let d := after (.rstreqDie 0 3 1 2) (h 2)
    checks [devB (h 0) 0 w [3, 1, 2] true, !resetting (h 0), a.rst.request == some false, a.rd K.RST_CAUSE_WARM == 1,
      devB (h 1) 0 w [3, 1, 2] true, b.rst.request == some true, devB (h 2) 0 w [3, 1, 2] true, !dieResetting (h 2) 3,
      d.rst.dieReq == 512, dieResetting d 3]) = true := by
  decide +kernel

theorem test_fuses : (let h (a b : Word) := { running 0 [a, b] with rst := { hw0.rst with fuses := [(10, 7), (14, 9), (126, 1)] } }
    let w := wordA 0x17 0x32 3 1 2
    let p := after (.fuseprog 0 3 1 2) (h 127 6)
    let s : State := ⟨[], { fuses := [(127, 1)] }, p⟩
    checks [devB (h 14 0) 0 (wordA 0x17 0x31 3 1 0) [3, 1] true, (after (.fuserd 0 3 1) (h 14 0)).g 0 3 == 9,
      (after (.fuserd 0 3 1) (h 10 0)).g 0 3 == 0, (after (.fuserd 0 3 1) (h 128 0)).g 0 3 == 0,
      devB (h 128 0) 0 w [3, 1, 2] true, (after (.fuseprog 0 3 1 2) (h 128 0)).g 0 3 == 8, (after (.fuseprog 0 3 1 2) (h 0 1)).g 0 3 == 6,
      devB (h 127 6) 0 w [3, 1, 2] true, p.rst.fuseOp == some (127, 6), (p.core 0).dev == some ⟨.fuseprog, 3, none⟩,
      SMap.get (nvAfter (.fuseprogComplete true) s).fuses 127 0 == 7]) = true := by
  decide +kernel

theorem test_optwr : (let h := { running 0 [0xFFFFFFFFFFFC1000] with mem := ({} : Mem).writeN (localAt 0 0xFFFFFFFFFFFC1000) 2 0x4F50 3 }
    let s : State := ⟨[], {}, { hw0 with rst := { hw0.rst with optImage := some (true, 5) } }⟩
    checks [devB h 0 (wordA 0x17 0x33 3 1 0) [3, 1] true, operandB h 0 0xFFFFFFFFFFFC1000 256 64 false 0x4F50, h.rst.optImage.isNone,
      (optTarget {}).isSome, (nvAfter (.optwrComplete true) s).optB.image == 5, (nvAfter (.optwrComplete true) s).optA == {}]) = true := by
  decide +kernel

/-! ### Registers -/

theorem test_access_codes : (let k := K.ERR_POSTMASK_MASK
    let f (a : Access) : Field := ⟨k, a, .C, .any⟩
    let h := hw0.wr k 0xF0
    checks [fieldIn k 6 == 3, (writeField h .adit (f .ro) 6 6).rd k == 0xF0, (writeField h .adit (f .rw) 6 6).rd k == 0xF3,
      (writeField h .adit (f .w1c) 0x1E6 0x1FE).rd k == 0, (writeField h .adit (f .w1s) 6 6).rd k == 0xF3,
      (writeField h .adit (f .st) 6 6).rd k == 0xF0, (writeField h .adit (f .st) 6 6).sh k == merged k k.rst 6 6,
      (f .rw).chk.apply (merged k (h.rd k) 6 6) == none]) = true := by
  decide +kernel

theorem test_refused_access : (let k := K.ERR_POSTMASK_MASK
    let a := 0xFFFFFF8
    let t := after (.csrWrite (.link 0) k.addr 8 6) hw0
    checks [decide (csrGate hw0 .adit true a ≠ .ok), decide (csrGate hw0 (.link 0) true k.addr ≠ .ok), !csrShape k.addr 1,
      t.rd K.CLK_SURVEY_MULT == hw0.rd K.CLK_SURVEY_MULT, (after (.csrWrite .adit k.addr 1 6) hw0).shadow.isEmpty]) = true := by
  decide +kernel

theorem test_register_writes : (let m := K.CLK_PLL_MUL_M 3 15
    let d := K.CLK_PLL_MUL_D 3 15
    let h := die3 hw0
    let t := after (.stWrite .adit m.addr 8 (320 * 2 ^ m.lo + 64 * 2 ^ d.lo)) h
    let a := after (.csrWrite .adit 0x1000010 8 (2 * (2 ^ 22 - 1))) (hw0.wr K.ERR_POSTMASK_MASK 0)
    checks [decide (csrGate h .adit true m.addr = .ok), t.sh m == 320, t.sh d == 64, t.rd m == h.rd m,
      decide (csrGate hw0 .adit true 0x1000010 = .ok), a.rd K.ERR_POSTMASK_MASK == 2 ^ 22 - 1]) = true := by
  decide +kernel

theorem test_register_reads : (let k := K.SPINE_COUNT_COUNT 3
    let h := (die3 hw0).wr k 9
    let g := hw0.wr K.CLK_GRIDTIME_TIME 0x500000007
    let t := after (.rcRead (.core 0) k.addr 8) h
    checks [decide (csrGate h (.core 0) false k.addr = .ok), t.rd k == 0, t.gal.lastRead == some (.core 0, k.addr, 9 * 2 ^ k.lo),
      (after (.rcRead .adit k.addr 8) h).rd k == 9, decide (csrGate g .adit false K.CLK_GRIDTIME_TIME.addr = .ok),
      (after (.gridtimeLowRead .adit 4) g).gal.lastRead == some (.adit, K.CLK_GRIDTIME_TIME.addr, 7),
      (after (.gridtimeLowRead .adit 4) g).clk.gridUpper == 5]) = true := by
  decide +kernel

/-! ### Gallery -/

/-- A state with one request on the Gallery. -/
def asking (q : GReq) (h : Hw := hw0) : Hw := { h with gal := { h.gal with reqs := [q] } }

theorem test_gallery : (let w := asking ⟨4, .core 5, .write, 0x11FFFFFF, 1, 0xAB, 1, 0⟩
    let r := { asking ⟨4, .core 5, .read, 0x10000000, 8, 0, 0, 0⟩ with mem := ({} : Mem).writeN 0x10000000 2 0x1234 3 }
    let d := asking ⟨4, .core 5, .write, 0x100000000, 8, 0xAB, 255, 0⟩ ((die0 hw0).wr (K.STRATA_CTL_DEPTH 0) 1)
    let t := after (.galleryRequest 0) w
    let u := after (.galleryRequest 0) r
    checks [!mustWait w 0, mayReach w (.core 5) true 0x11FFFFFF, regionOf 0x11FFFFFF == .hub, populated w 0x11FFFFFF 1,
      !w.bit K.ERR_TEST_EN, t.mem.readByte 0x11FFFFFF == 0xAB, t.gal.resps.map (·.status) == [.ok], !mustWait r 0,
      mayReach r (.core 5) false 0x10000000, u.gal.resps.map (·.data) == [0x1234],
      (after (.galleryResponse 0) u).gal.arrived.length == 1, !mustWait d 0, !inA3 d, dieReachable d 0, populated d 0x100000000 8,
      touchesRing d 0 0x100000000 8, !slotHeld d 0 (slotAt 0) true, mayReach d (.core 5) true 0x100000000,
      regionOf 0x100000000 == .stack 0, (after (.strataWindowAccess 0) d).mem.readByte 0x100000000 == 0xAB]) = true := by
  decide +kernel

theorem test_mesh_enters : (let f : Flit := ⟨1, .pwrite, .fport 3 7, 0, false⟩
    let c : Flit := ⟨2, .read, .core 63, 0, true⟩
    checks [flitPair f == 2, flitPair c == 1, attaches 15 f, attaches 10 c, !attaches 15 c, hops 0 15 == 6]) = true := by
  decide +kernel

theorem test_mesh_inject (r : Fin 16) (cv : Fin 6) :
    (SMap.get hw0.gal.mesh.bufs (bufKey r.val 0 cv.val) ([] : List Flit)).length < Config.flitDepth + 1 :=
  Nat.succ_pos _

theorem test_mesh_eject : (let f : Flit := ⟨1, .ack, .fport 3 7, 15, true⟩
    let h := { hw0 with gal := { hw0.gal with mesh := { bufs := [(bufKey 15 4 5, [f])] } } }
    let t := after (.flitForward 15 4 5 none) h
    checks [served h.gal.mesh 15 0 == some (4 * 6 + 5), t.gal.mesh.bufs.isEmpty, t.gal.mesh.out == [(15, f)],
      routeOut 0 15 == 1, routeOut 3 15 == 4]) = true := by
  decide +kernel

/-! ### Fabric ports, sector ports and the outpost -/

/-- Port 7 of die 3 enabled, its die running, and hub SRAM allowed. -/
def port37 : Hw := (((die3 hw0).wr (K.FPORT_CTL_EN 3 7) 1).wr (K.FPORT_CTL_ALLOW 3 7) 1).wr (K.FPORT_STAT_OFFLINE 3 7) 0

theorem test_fport_outbound : (let h := port37
    let p := after (.fportOutboundRequest 3 7 .pwrite false 0x11FFFF00 4 0 0) h
    let q : GReq := ⟨9, .fport 3 7, .pwrite, 0x10000000, 64, 5, 1, 255⟩
    let w := h.onDie 3 fun x => { x with fports := [(7, { ({} : FPort) with outTags := [(255, 9)], waiting := [q], posted := [9] })] }
    let r := { h.onDie 3 fun x => { x with fports := [(7, { ({} : FPort) with outTags := [(255, 9)] })] } with
      gal := { h.gal with arrived := [⟨9, .fport 3 7, .read, .ok, 77, 0x10000000, 255⟩] } }
    let f := h.onDie 3 fun x => { x with fports := [(7, { ({} : FPort) with outTags := [(0, 9)], flushes := [(0, [])] })] }
    let t := after (.fportOutboundResponse 3 7 255) r
    let u := after (.fportPostedAccept 3 7 255) w
    let v := after (.fportFlushComplete 3 7 0) f
    checks [portDesign h 3 7, portReady h 3 7, decide (portCheck h 3 7 .read false 0x11FFFF00 = .ok),
      decide (portCheck h 3 7 .pwrite false 0x11FFFF00 = .ok), beatsOk 0x11FFFF00 4, !hostLineHeld h 3 7 .read true 0x11FFFF00 256, !hostFull h,
      decide (portAccess .pwrite false 0x11FFFF00 4 0 0 = (0x11FFFF00, 256, 0, 0)), p.gal.reqs.isEmpty, (fport p 3 7).waiting.length == 1, !isDoorbell 0x10000000, u.gal.reqs == [q],
      (fport u 3 7).waiting.isEmpty, portDesign r 3 7, (fport t 3 7).lastOut == some (255, .ok, 77), (fport t 3 7).outTags.isEmpty,
      (fport v 3 7).flushes.isEmpty, (fport v 3 7).lastOut == some (0, .ok, 0)]) = true := by
  decide +kernel

theorem test_fport_inbound : (let q : GReq := ⟨4, .core 5, .read, 0x5E000000000, 64, 0, 0, 3⟩
    let h := asking q port37
    let t := after (.fportInboundRequest 0) h
    let s := t.wr (K.FPORT_CTL_STALL 3 7) 1
    let u := after (.fportStallTimeout 3 7) s
    checks [regionOf q.addr == .port 3 7, !inA3 h, !mustWait h 0, portOwes s 3 7, mayReach h (.core 5) false q.addr, (portTurnsAway h 3 7).isNone,
      designRuns h 3 (portSector 7), (fport t 3 7).inTags == [(0, q)], (fport t 3 7).nextIn == 1,
      (after (.fportInboundResponse 3 7 0 6) t).gal.resps.map (·.data) == [6], portDesign t 3 7,
      !t.bit (K.FPORT_STAT_STALLED 3 7), u.rd (K.FPORT_STAT_STALLED 3 7) == 1, (fport u 3 7).inTags.isEmpty,
      decide (csrGate u .adit true (fportStat 3 7) = .ok), (after (.fportStalledClear .adit 3 7) u).rd (K.FPORT_STAT_STALLED 3 7) == 0,
      (fport (after (.fportStalledClear .adit 3 7) u) 3 7).nextIn == 0]) = true := by
  decide +kernel

theorem test_sector_port : (let h := { (die3 hw0).wr (K.STRATA_CTL_DEPTH 3) 1 with mem := ({} : Mem).writeN (beatAddr 3 191 16383) 1 9 1 }
    let last := beatAddr 3 191 16383
    let w := after (.sectorPortRequest 3 191 true 16383 7 1) h
    let r := after (.sectorPortRequest 3 191 false 16383 0 0) h
    let c := after (.sectorPortRequest 3 191 true 0 7 1) h
    checks [designRuns h 3 191, !portsHeld h 3, (h.die 3).secReqs.isEmpty, !prioHolds h none last 32, !claimedAt (ringDepth h 3) (last - stackBase 3), w.mem.readByte last == 7,
      (h.mem.seen last 32).all (fun x => x.2 == .clean), secQueue r 3 191 == [⟨9, false, false, true⟩],
      claimedAt (ringDepth h 3) (beatAddr 3 191 0 - stackBase 3), secQueue c 3 191 == [⟨0, false, true, false⟩],
      (secQueue (after (.sectorPortResponse 3 191) r) 3 191).isEmpty]) = true := by
  decide +kernel

/-- Die 3 running, with outpost state. -/
def outp (f : Outpost → Outpost) (h : Hw := die3 hw0) : Hw := h.onDie 3 fun x => { x with out := f x.out }

theorem test_uart : (let h := ((die3 hw0).wr (K.OUTPOST_UART_CFG_EN 3 1) 1).wr (K.OUTPOST_OWN_UART1 3) 1
    let full := outp (fun o => { o with uartRx1 := List.replicate 64 0 }) h
    let t := after (.uartDataWrite 3 1 (.hub .adit) 5) h
    let r := after (.uartRxFrame 3 1 6 true false) h
    checks [decide (csrGate h .adit true (dieBase 3 + 0xE00000 + 0x148) = .ok), hubOwns h 3 (.uart 1), uartTx t 3 1 == [5],
      (uartTx (after (.uartTxFrame 3 1) t) 3 1).isEmpty, !outStops h 3, uartRx r 3 1 == [6], r.rd (K.OUTPOST_UART_STAT_PERR 3 1) == 1,
      decide (csrGate r (.core 0) false (dieBase 3 + 0xE00000 + 0x148) = .ok), (uartRx (after (.uartDataPop 3 1 (.hub (.core 0))) r) 3 1).isEmpty,
      ((after (.uartDataPop 3 1 .design) r).die 3).portData == 6, (after (.uartRxFrame 3 1 6 false false) full).rd (K.OUTPOST_UART_STAT_OVR 3 1) == 1,
      designRuns r 3 11]) = true := by
  decide +kernel

theorem test_spi_i2c : (let e := ((die3 hw0).wr (K.OUTPOST_SPI_CFG_EN 3) 1).wr (K.OUTPOST_I2C_CFG_EN 3) 1
    let h := (e.wr (K.OUTPOST_OWN_SPI 3) 0).wr (K.OUTPOST_OWN_I2C 3) 0
    let t := after (.spiDataWrite 3 .design 5) h
    let x := after (.spiByteTransfer 3 9) t
    let i := after (.i2cCmdWrite 3 .design 0x7FF) h
    let j := after (.i2cByteTransfer 3 (.sent true)) i
    let k := after (.i2cByteTransfer 3 (.received 4)) i
    checks [designRuns h 3 11, !hubOwns h 3 .spi, !hubOwns h 3 .i2c, (t.die 3).out.spiTx == [5], !outStops t 3,
      (x.die 3).out.spiTx.isEmpty, (x.die 3).out.spiRx == [9], ((after (.spiDataPop 3 .design) x).die 3).out.spiRx.isEmpty,
      (i.die 3).out.i2cCmd == some 0x7FF, (j.die 3).out.i2cCmd.isNone, j.bit (K.OUTPOST_I2C_CMD_ACK 3), (k.die 3).out.i2cRx == [4],
      ((after (.i2cCmdPop 3 .design) k).die 3).out.i2cRx.isEmpty]) = true := by
  decide +kernel

theorem test_outpost_port : (let h := outp (fun o => { o with spiRx := [8] }) ((die3 hw0).wr (K.OUTPOST_OWN_UART0 3) 1)
    let r := after (.outpostPortAccess 3 false 0x208 0) h
    checks [designRuns h 3 11, hubOwns h 3 (.uart 0), ((after (.outpostPortAccess 3 true 0x108 5) h).die 3).portErr, (r.die 3).portData == 8,
      !(r.die 3).portErr, (r.die 3).out.spiRx.isEmpty]) = true := by
  decide +kernel

theorem test_flash : (let h := (die3 hw0).wr (K.OUTPOST_OWN_FLASH 3) 0
    let s (op : FlashOp) : State := ⟨[], {}, outp (fun o => { o with flash := some (op, 8191) }) h⟩
    let p := ⟨[], nvAfter (.flashOpComplete 3) (s .program), outp (fun o => { o with flash := some (.erase, 8128) }) h⟩
    checks [designRuns h 3 11, !hubOwns h 3 .flash, !h.bit (K.OUTPOST_FLSTAT_BUSY 3),
      ((after (.flashRead 3 .design 8191) h).die 3).out.flash == some (.read, 8191),
      ((after (.flashProgram 3 .design 0) h).die 3).out.flash == some (.program, 0), eraseCount h 3 127 == 0,
      eraseCount (after (.flashErase 3 .design 8191) h) 3 127 == 1, flashLine (nvAfter (.flashOpComplete 3) (s .read)) 3 8191 == 2 ^ 512 - 1,
      (after (.flashOpComplete 3) (s .read).hw).rd (K.OUTPOST_FLBUF_BYTES 3 7) == 2 ^ 64 - 1, flashLine p.nv 3 8191 == 0,
      flashLine (nvAfter (.flashOpComplete 3) p) 3 8191 == 2 ^ 512 - 1]) = true := by
  decide +kernel

/-! ### Fabric -/

theorem test_fence : (let h := die3 hw0
    let c := after (.fenceClose .adit 3 191) h
    let t := after (.fenceSettled 3 191) c
    let a := fenceAddr 3 191
    let m := after (.maskTableWrite .adit 3 191 15 5) t
    checks [decide (csrGate h .adit true a = .ok), !h.bit (K.FENCE_SEC_FENCE 3 191), decide (h.rd (K.FENCE_SEC_SETTING 3 191) < 3),
      c.rd (K.FENCE_SEC_FENCE 3 191) == 1, !c.bit (K.FENCE_SEC_SETTLED 3 191), t.rd (K.FENCE_SEC_SETTLED 3 191) == 1,
      (after (.fenceLift .adit 3 191) t).rd (K.FENCE_SEC_FENCE 3 191) == 0, fenceSettled t 3 191,
      decide (csrGate t .adit true (dieBase 3 + 0x700000 + 191 * 0x80 + 15 * 8) = .ok), m.rd (K.MASK_SEC_W_BITS 3 191 15) == 5]) = true := by
  decide +kernel

theorem test_spines : (let h := die3 hw0
    let t := after (.spineContentionDetect 3 11 47 0x8001) h
    let u := after (.spineRepairComplete 3 false) t
    checks [!h.bit (K.RST_DIE_INRESET 3), popCount 16 0x8001 == 2, (t.rd (K.SPINE_OFF_OFF 3 11)).testBit 47,
      t.rd (K.SPINE_CLOG_DRV 3) == 0x8001, (t.die 3).scrub.repairs == [(11, 47, 0x8001)], !inA3 t, t.bit (K.SCRUB_CTL_EN 3), spineDrivers t 3 11 47 == 0,
      !(u.rd (K.SPINE_OFF_OFF 3 11)).testBit 47, ((after (.spineRepairComplete 3 true) t).rd (K.SPINE_OFF_OFF 3 11)).testBit 47]) = true := by
  decide +kernel

theorem test_scrub : (let h := die3 hw0
    let f := h.wr (K.FENCE_SEC_FENCE 3 0) 1
    let m := h.wr (K.MASK_SEC_W_BITS 3 0 0) 1
    let a := after (.scrubFrame 3 .clean) f
    let b := after (.scrubFrame 3 .clean) h
    let c := after (.scrubFrame 3 .uncorr) (h.wr (K.SCRUB_CTL_FENCEUNC 3) 1)
    let d := after (.scrubFrame 3 .clean) m
    let e := after (.scrubStuckTimeout 3) b
    checks [h.rd (K.SCRUB_STAT_SECTOR 3) == 0, h.rd (K.SCRUB_STAT_FRAME 3) == 0, scrubPause h 3 == 0, a.rd (K.SCRUB_STAT_SECTOR 3) == 1,
      a.rd (K.SCRUB_STAT_INCOMPLETE 3) == 1, frameErrOf h 3 0 != 2, b.rd (K.SCRUB_STAT_FRAME 3) == 1, (b.die 3).scrub.acc == [0],
      c.rd (K.SCRUB_STAT_UNCORR 3) == 1, c.rd (K.FENCE_SEC_FENCE 3 0) == 1,
      (m.rd (K.MASK_SEC_W_BITS 3 0 0)).testBit 0, d.rd (K.SCRUB_STAT_FRAME 3) == 1, e.rd (K.SCRUB_STAT_STUCK 3) == 1,
      e.rd (K.SCRUB_STAT_FRAME 3) == 0]) = true := by
  decide +kernel

theorem test_digests : (let h := (die3 hw0).onDie 3 fun x => { x with scrub := { x.scrub with passDone := some true } }
    let d := { hw0 with assay := { hw0.assay with hubDue := true, devDue := true } }
    checks [(h.die 3).scrub.passDone == some true, h.ldr.load.isNone, (after (.dieDigestCompute 3) h).assay.devDue, d.assay.hubDue,
      !(after .hubDigestRecompute d).assay.hubDue, !(after .deviceDigestRecompute d).assay.devDue]) = true := by
  decide +kernel

theorem test_plls : (let h := ((die3 hw0).wr (K.CLK_PLL_REF_REFSEL 3 15) 1)
    let p (x : PllPhase) : Hw := { h with clk := { h.clk with plls := [(63, x)] } }
    let g := { (h.wr K.CLK_STAT_SLOCK 1) with clk := { h.clk with plls := [(63, .acquiring)] } }
    checks [dieUp h 3, (p .acquiring).pll 3 15 == .acquiring, (after (.fpllLockTimeout 3 15) (p .acquiring)).rd (K.CLK_PLL_STAT_LOLS 3 15) == 1,
      (after (.fpllLockLoss 3 15) (p .locked)).pll 3 15 == .freeRunning, pllHasRef g 3 15, g.ldr.load.isNone,
      (after (.fpllLock 3 15) g).pll 3 15 == .locked]) = true := by
  decide +kernel

theorem test_switch : (let h := ((die3 hw0).wr (K.CLK_NET_SRC_SRC1 3 63) 0x6C).wr (K.CLK_NET_SRC_SRC0 3 63) 0x6D
    let a := after (.clockSwitchStart 3 63 (.selWrite .adit true)) h
    let f := (h.wr (K.CLK_NET_SRC_SELSRC 3 63) 1).wr (K.CLK_NET_STAT_ACTIVE 3 63) 1
    let live := a.onNet 3 63 fun x => { x with cur := 0x6D }
    let p := after (.clockSwitchPark 3 63) live
    let d := after (.clockSwitchDeadsrcTimeout 3 63) a
    let c := after (.clockSwitchComplete 3 63) p
    checks [decide (csrGate h .adit true (K.CLK_NET_SRC_SEL 3 63).addr = .ok), (h.net 3 63).sw == .idle, !h.bit (K.CLK_NET_SRC_SELSRC 3 63),
      h.rd (K.CLK_NET_STAT_ACTIVE 3 63) == 0, (a.net 3 63).sw == .waitOld, dieUp f 3, f.bit (K.CLK_NET_SRC_SELSRC 3 63),
      !presentable f 3 (.fsel 63) false,
      ((after (.clockSwitchStart 3 63 (.fabricSelect false)) f).net 3 63).sw == .waitOld, sourceLive live 3 0x6D, (p.net 3 63).sw == .parked,
      d.rd (K.CLK_NET_STAT_DEADSRC 3 63) == 1, sourceLive p 3 (netSrc p 3 63 (p.net 3 63).target), c.rd (K.CLK_NET_STAT_ACTIVE 3 63) == 1,
      (c.net 3 63).cur == 0x6C, (after (.clockSwitchNosrcTimeout 3 63) p).rd (K.CLK_NET_STAT_NOSRC 3 63) == 1]) = true := by
  decide +kernel

theorem test_gates : (let h := (die3 hw0).onNet 3 63 fun x => { x with closing := true, stake := 9, fen := true }
    let k := (hw0.wr (K.CLK_NET_STAT_HALTED 3 63) 1)
    let l := after (.stakeLatch .adit 3) ((die3 hw0).wr K.CLK_GRIDTIME_TIME 5)
    checks [(h.net 3 63).closing, netHalted (after (.hubGateClose 3 63) h) 3 63, !((after (.fabricEnableChange 3 63 false) h).net 3 63).fen,
      decide (csrGate (die3 hw0) .adit true (K.CLK_STAKELATCH_HELD 3).addr = .ok), netHalted k 3 63, l.rd (K.CLK_STAKELATCH_TIME 3) == 5,
      (after (.stakeLatchRelease .adit 3) l).rd (K.CLK_STAKELATCH_HELD 3) == 0]) = true := by
  decide +kernel

/-! ### Seams -/

/-- A seam in a state. -/
def seamAt (k s : Nat) (h : Hw := hw0) : Hw := h.wr (K.SEAM_STAT_STATE k) s
/-- The lane report, eye and plan state of a seam. -/
def seamWith (k s : Nat) (x : SeamSt) : Hw := { seamAt k s with seam := { hw0.seam with seams := [(k, x)] } }

theorem test_train : (let h := (hw0.wr (K.SEAM_CTL_EN 3) 1)
    let live := seamAt 4 5 (seamAt 7 5 h)
    let ln : LaneRef := ⟨1, 63, 16⟩
    let test (heard : Nat) : LaneTest := ⟨ln, true, heard, true, 63⟩
    let fail := after (.seamPrbsTimeout 7 [test 0]) (seamAt 7 2)
    checks [seamState h 3 == 0, !endsLive h 3, (after (.fabricSeamTrainStart 3) h).rd (K.SEAM_STAT_NOHUB 3) == 1, endsLive live 3,
      seamState (after (.fabricSeamTrainStart 3) live) 3 == 1, seamState (after (.seamResetDone 7) (seamAt 7 1)) 7 == 2,
      lanePasses (seamAt 7 2) 7 (test 1087), !lanePasses (seamAt 7 2) 7 (test 0),
      seamState (after (.seamPrbsDone ⟨7, [test 1087]⟩) (seamAt 7 2)) 7 == 3, decide (after (.seamPrbsDone ⟨7, [test 0]⟩) (seamAt 7 2) = seamAt 7 2),
      stage (seamAt 7 2) 7 == 2, seamState fail 7 == 3, (fail.lane 7 (laneNo ln)).failed]) = true := by
  decide +kernel

theorem test_train_limits : checks [seamState (seamAt 3 8) 3 == 8,
    seamState (after (.seamReportTimeout 7) (seamAt 7 3)) 7 == 9,
    seamState (after (.seamMapTimeout 7) (seamWith 7 4 { attempts := 1 })) 7 == 4,
    seamState (after (.seamMapTimeout 7) (seamWith 7 4 { attempts := 2 })) 7 == 9] = true := by
  decide +kernel

theorem test_reports : (let all : List Byte := [0xFF, 0x81]
    let crc := BitVec.ofNat 16 (crc16 all)
    let h := seamAt 7 3
    let bad := after (.seamLrpt 7 1 all (crc + 1)) h
    let t := after (.seamLrpt 7 1 all crc) h
    checks [endReached h 7 true, bad.rd (K.SEAM_STAT_CRCERR 7) == 1, seamState bad 7 == 3, bad.seamSt 7 == {}, stage h 7 == 3,
      (t.seamSt 7).report1 == some 0x81FF, seamState t 7 == 3, crc16 [] == 0xFFFF]) = true := by
  decide +kernel

theorem test_mack : (let m := seamWith 7 4 { msg := some (.map [] 0xFFFF) }
    let t := after (.seamMack 7 true 0xFFFF 0xFFFF) m
    let b := after (.seamMack 7 true 0xFFFF 0) (m.wr (K.SEAM_STAT_CRCERR 7) 255)
    checks [endReached m 7 true, mackMatches m 7 0xFFFF 0xFFFF, !(m.seamSt 7).mackFar, (t.seamSt 7).mackOwner, seamState t 7 == 4,
      b.rd (K.SEAM_STAT_CRCERR 7) == 255, !(b.seamSt 7).mackOwner]) = true := by
  decide +kernel

theorem test_lanes : (let h := seamAt 7 5
    let ln : LaneRef := ⟨1, 63, 16⟩
    let e := after (.eyeMeasure 7 1 63 [(16, 0, 3)]) h
    let w := seamWith 7 5 { swaps := [(191, 15)] }
    let s := after (.spareSwapComplete 7 1 63) w
    checks [seamLive h 7, laneExists 7 ln, !(h.lane 7 (laneNo ln)).failed, (e.lane 7 (laneNo ln)).margin == 0,
      (e.lane 7 (laneNo ln)).minMargin == 0, s.rd (K.SEAM_GRP_STAT_SPARE 7 1 63) == 2, s.rd (K.SEAM_GRP_STAT_SPARELANE 7 1 63) == 15,
      (s.seamSt 7).swaps.isEmpty, swapping w 7 1 63 == some 15]) = true := by
  decide +kernel

theorem test_plans : (let plan (w0 : Nat) : List Nat := [w0, 0, 0, 0]
    let w := 0x504C * 2 ^ 48 + 3 * 2 ^ 42 + 3 * 2 ^ 40
    let p := plan (w + planCrc (plan w))
    let h := seamWith 3 6 { planDue := true }
    let g := seamWith 3 6 { planDue := true, plans := [p] }
    checks [choosePlan h 3 == none, !planNeeded h 3, choosePlan g 3 == some p, planIndex p == 3]) = true := by
  decide +kernel

theorem test_rejoin : (let h := seamWith 3 8 { phase := 5 }
    checks [seamState h 3 == 8, stage h 3 == 5, stage (after (.seamResetDone 3) (seamWith 3 8 { phase := 1 })) 3 == 2]) = true := by
  decide +kernel

/-! ### Strata -/

theorem test_fabric_trigger : (let h := ((die3 hw0).wr (K.STRATA_TRIG_EN 3 15) 1).wr (K.STRATA_TRIG_DIES 3 15) 8
    checks [dieUp h 3, released h 3, h.bit (K.STRATA_TRIG_EN 3 15), h.rd (K.STRATA_TRIG_DIES 3 15) % 16 == 8]) = true := by
  decide +kernel

theorem test_trigger_site : isFenced (die3 hw0) 3 (SitePin.trig 15).sector = false := by
  have h : ∀ s : Fin 192, isFenced (die3 hw0) 3 s.val = false := by decide +kernel
  exact h ⟨Config.siteSector (.trig 15) % 192, Nat.mod_lt _ (by decide)⟩

theorem test_triggers : (let h := ((hw0.wr (K.STRATA_TPIN_EN 3) 1).wr (K.STRATA_TPIN_DIES 3) 8).wr (K.STRATA_TPIN_PROFILE 3) 7
    let d := die3 hw0
    checks [h.bit (K.STRATA_TPIN_EN 3), ((after (.trigInPin 3) h).strata.inFlight) == [⟨0, 4, 3, 7, 8, none, 0⟩],
      decide (csrGate d (.core 63) true (K.STRATA_HTRIG_GO 3).addr = .ok), decide (csrGate d (.host 0) true (K.STRATA_HTRIG_GO 3).addr = .ok),
      (after (.htrigWrite (.core 63) 3 15 7) d).strata.inFlight == [⟨0, 1, 63, 7, 15, none, 63⟩],
      (after (.htrigWrite (.host 0) 3 1 0) d).strata.inFlight == [⟨0, 3, 0, 0, 1, none, 0x1000⟩]]) = true := by
  decide +kernel

/-- A trigger on its way to die 3. -/
def flying (h : Hw) : Hw := { h with strata := { h.strata with inFlight := [⟨5, 4, 3, 7, 8, none, 0⟩] } }

theorem test_arrival : (let h := flying (((die3 hw0).wr (K.STRATA_PROF_NETS 3 7) 1).wr (K.STRATA_CTL_DEPTH 3) 32)
    let n := h.wr (K.STRATA_CTL_DEPTH 3) 0
    let t := after (.triggerArrival 3 0) n
    checks [(triggerRefusal h 3).isNone, nextSlot h 3 == some 0, h.rd (K.STRATA_PROF_NETS 3 7) == 1,
      (after (.triggerArrival 3 0) h).rd (K.STRATA_STAT_BUSY 3) == 1, triggerRefusal n 3 == some stNodepth, stNodepth != 13,
      t.rd (K.STRATA_STAT_LAST 3) == stNodepth, t.rd (K.STRATA_MISSED_COUNT 3) == 1]) = true := by
  decide +kernel

/-- Die 3 in a step of the strata engine. -/
def strataAt (o : StrataOp) (h : Hw := die3 hw0) : Hw := h.onDie 3 fun x => { x with strata := o }

theorem test_capture : (let x : Capture := ⟨31, 1, 4, 7, 0, 5, 2 ^ 63, 0, 0, 0, 0, 2 ^ 63, [], []⟩
    let h := ((strataAt (.capture x)).wr (K.CLK_NET_STAT_HALTED 3 63) 0).onNet 3 63 fun y => { y with cur := 0x65 }
    let t := after (.captureWaitTimeout 3 63) h
    let d := strataAt (.capture { x with waiting := 0 })
    let e := after (.strataDrainComplete 3) (strataAt (.drain x))
    checks [x.waiting.testBit 63, !netHalted h 3 63, netEdges h 3 63,
      match (t.die 3).strata with | .capture y => y.waiting == 0 && y.missing == 2 ^ 63 && y.edge == [(63, 0xFFFF)] | _ => false,
      match ((after (.strataDrainStart 3) d).die 3).strata with | .drain y => y.slot == 31 | _ => false,
      (e.die 3).strata == .none, e.rd (K.STRATA_STAT_BUSY 3) == 0]) = true := by
  decide +kernel

theorem test_deep_ends : (let h := (strataAt (.deep 31 0x10000000 0)).onCore 63 fun x =>
      { x with dev := some ⟨.drain 3, 9, none⟩, item := some ⟨256, none, 0, 0, 0, .absent, none, none⟩ }
    let r := strataAt (.restore 0 (2 ^ 64 - 1) false 0 false)
    checks [!isHalted h 63, (h.core 63).pendErr.isNone, (h.die 3).strata == .deep 31 0x10000000 0,
      (r.die 3).strata == .restore 0 (2 ^ 64 - 1) false 0 false, r.cores.isEmpty]) = true := by
  decide +kernel

/-! ### Queues by command -/

theorem test_doorbell : (let h := queueOn 16383 hw0
    let m := hw0.wr K.ERR_POSTMASK_MASK 0
    let p := ((queueOn 300 hw0).wr (K.SCHED_Q_CFG_OWNKIND 300) 2).wr (K.SCHED_Q_CFG_OWNIDX 300) 31
    let full := p.setQueue 300 { res := 64 }
    let t := after (.doorbell (.fport 3 7) 300 (desc1 1)) full
    checks [qEn h 16383, permitted h (.master .adit) 16383, qCred h 16383 == 64, decide (0 < sharedFree h),
      (after (.doorbell .adit 16383 (desc1 1)) m).rd K.ERR_LOGHEAD_TOTAL == 1, permitted full (.master (.fport 3 7)) 300,
      qCred full 300 == 0, creditCopy t 3 7 300 == 0, t.sched.refused.length == 1, !hasRefused p 3 7 300,
      creditCopy (after (.fportCreditUpdate 3 7 300) p) 3 7 300 == 64]) = true := by
  decide +kernel

theorem test_queue_control : (let h := (hw0.wr (K.SCHED_Q_BASE_ADDR 255) 0x10000000)
    let on := oneEntry hw0
    checks [decide (csrGate h .adit true (qCfgAddr 255) = .ok), mayEnable h 255, h.rd (K.SCHED_Q_CFG_DEPTH 255) != 7,
      decide (∀ k ∈ [K.SCHED_Q_CFG_DEPTH 255, K.SCHED_Q_CFG_TRES 255, K.SCHED_Q_CFG_OWNKIND 255, K.SCHED_Q_CFG_OWNIDX 255,
        K.SCHED_Q_CFG_AUTO 255, K.SCHED_Q_CFG_DELIVER 255], h.rd k < 2 ^ k.w),
      kindPermitted h 255 (h.rd (K.SCHED_Q_CFG_OWNKIND 255)), qEn (after (.queueEnable .adit 255) h) 255,
      decide (csrGate on .adit true (qCfgAddr 256) = .ok), on.rd (K.SCHED_Q_CFG_PRIO 256) == 1, qEn on 256,
      !qEn (after (.queueDisable .adit 256) on) 256, ((after (.queueDisable .adit 256) on).queue 256).entries.isEmpty,
      decide (csrGate on .adit true (qPtrAddr 256) = .ok), !qAuto on 256, !qDeliver on 256,
      ((after (.queuePop .adit 256 1) on).queue 256).entries.isEmpty, ((after (.queuePop .adit 256 0) on).queue 256).entries.length == 1,
      decide (csrGate on .adit true (qAffAddr 256) = .ok),
      (after (.affWrite .adit 256 0xFFFFFFFFFFFFFFFF) on).rd (K.SCHED_Q_AFF_MASK 256) == 2 ^ 63 - 1]) = true := by
  decide +kernel

theorem test_patience : (let e : QEntry := ⟨0, 4, 7, 0, 0, none⟩
    let h (t : Nat) := ((oneEntry hw0).wr K.CLK_GRIDTIME_TIME t).setQueue 256 { entries := [e] }
    let b := ((running 1 []).wr K.ERR_POSTMASK_MASK 0).onCore 1 fun x => { x with stores := [⟨9, 0, false⟩] }
    checks [(h 80000).rd (K.SCHED_Q_CFG_PATIENCE 256) == 100, ((after (.shiftChange 256 4) (h 80001)).queue 256).entries == [{ e with level := 6, joined := 80001 }],
      ((after (.shiftChange 256 4) (h 80000)).queue 256).entries == [e], !isHalted b 1, (b.core 1).ending.isNone,
      ((after (.burnLimitAbort 1) b).core 1).ending.map (·.cause) == some 0x0A]) = true := by
  decide +kernel

theorem test_port_delivery : (let h := (((((oneEntry port37).wr (K.SCHED_Q_CFG_OWNKIND 256) 2).wr (K.SCHED_Q_CFG_OWNIDX 256) 31).wr
      (K.SCHED_Q_CFG_DELIVER 256) 1))
    let t := after (.fportDelivery 256) h
    checks [qDeliver h 256, qKind h 256 == 2, qIdx h 256 == 31, !h.bit (K.FPORT_STAT_OFFLINE 3 7), h.bit (K.FPORT_CTL_EN 3 7),
      !h.bit (K.FPORT_STAT_STALLED 3 7), !inDelivery h 256 0, t.sched.delivering == [(256, 0)],
      ((after (.fportDeliveryAccept 256) t).queue 256).entries.isEmpty]) = true := by
  decide +kernel

/-! ### Loading -/

/-- A load in a stage. -/
def loading (stage : Nat) (l : Load) (h : Hw := running 0 []) : Hw :=
  { h.wr K.CFG_LOAD_STAGE stage with ldr := { h.ldr with load := some l } }
/-- The same, through the PF with the link up. -/
def hostLoad (stage : Nat) (l : Load) : Hw :=
  let h := loading stage { l with src := .host 0 } ((running 0 []).wr K.PCIE_STAT_UP 1)
  { h with pcie := { h.pcie with funcs := [(0, { ({} : FuncSt) with busMaster := true })] } }
/-- A Legend with a directory. -/
def legend (d : List DirEnt) : Legend := ⟨false, false, 1, 1, 0, 0, [], 0, 0, [], [], d⟩

theorem test_load_request : (let h := { ((queueOn 0 (running 0 [])).wr (K.SCHED_Q_BASE_ADDR 0) 0x10001000).setQueue 0 { entries := [⟨63, 0, 0, 0, 0, none⟩] } with
      mem := ({} : Mem).writeN (0x10001000 + 63 * 64) 64 (descNat ⟨0, 0x10002000, 1, 0, 0, 0, 0, 5⟩) (2 ^ 64 - 1) }
    let t := after .loadRequest h
    checks [loaderRuns h, h.ldr.load.isNone, !qAuto h 0, oldest h 0 == some ⟨63, 0, 0, 0, 0, none⟩,
      (slotDesc h 0 63).w7.toNat != (Src.event 0).code, (slotDesc h 0 63).w2.toNat.testBit 0, loadStage t == 1,
      t.ldr.load.map (·.src) == some (.hub 0x10002000), qEn t 252, qEn t 255]) = true := by
  decide +kernel

theorem test_legend_length : (List.replicate 4096 (0 : Byte)).length = 4096 ∧
    4096 + 128 * segCount ((List.replicate 4096 (0 : Byte)).take 4096) = 4096 := by
  refine ⟨List.length_replicate, ?_⟩
  decide +kernel

theorem test_legend_state : (let h := hostLoad 1 { src := .plp }
    checks [loaderRuns h, loadStage h == 1, linkUp h, (func h 0).busMaster, legendFails h { src := .host 0 } (List.replicate 4096 0) == some 1]) =
    true := by
  decide +kernel

theorem test_segment : (let g := legend [⟨0, 0, false, 0, 0, 0, 0⟩, ⟨0, 0, false, 0, 0, 0, 0⟩]
    let h := hostLoad 2 { src := .plp, legend := some g }
    checks [loaderRuns h, h.ldr.load.map (·.fail) == some none, (g.dir[0]?).map (·.frames) == some false, loadStage h == 2, linkUp h,
      (func h 0).busMaster]) = true := by
  decide +kernel

theorem test_segment_opens : openSegment hw0 (legend []) 0 ⟨0, 0, false, 0, Config.sha384 [], 0, 0⟩ [] = .ok [] := by
  simp [openSegment, legend]

theorem test_image_program : (let l : Load := { src := .hub 0x10000000, legend := some (legend []), ret := 0xFFFFFFFFFFFC0000 }
    let bad := loading 4 l (running 0 [1])
    let pend := { loading 4 { l with legend := some { legend [] with runnets := [2 ^ 63] } } with clk := { hw0.clk with plls := [(0, .acquiring)] } }
    let pend := ((pend.wr (K.CLK_NET_SRC_SRC0 0 63) 1).onNet 0 63 fun x => { x with cur := 1 })
    let t := after .imageProgramReturn pend
    checks [bad.pc 0 == l.ret, loadStage (after .imageProgramReturn bad) == 7,
      ((after .imageProgramReturn bad).ldr.load.bind (·.fail)) == some (0x10, 0xFF, 0, 0), !locksOk pend { legend [] with runnets := [2 ^ 63] },
      (pend.core 0).dev.isNone, pend.g 0 1 == 0, loadStage t == 5, loadStage (after .loadVerifyTimeout t) == 7,
      ((after .loadVerifyTimeout t).ldr.load.bind (·.fail)) == some (0x11, 0, 0, 0),
      loadStage (after .loadSourceStall (loading 3 l)) == 7]) = true := by
  decide +kernel

theorem test_clear : (let l : Load := { src := .hub 0x10000000, fail := some (0x0D, 0, 0, 0) }
    let h := loading 7 l
    let g := (loading 7 l).wr (K.RST_OPT_BYTES 0) (2 ^ 32)
    let t := after .loadClearComplete h
    let u := after .loadClearComplete g
    checks [!goldenOn h, t.ldr.load.isNone, loadStage t == 0, t.pins.cfgErr, t.rd K.CFG_LOADERR_CODE == 0x0D, goldenOn g,
      u.rd K.CFG_LOAD_GOLDEN == 1, u.ldr.load.bind (·.primary) == some 0x0D]) = true := by
  decide +kernel

theorem test_release : (let l : Load := { src := .hub 0, legend := some (legend []) }
    let h := loading 6 l (hw0.wr (K.RST_DIE_INRESET 3) 0)
    let e := loading 5 l (hw0.wr (K.RST_DIE_INRESET 3) 0)
    checks [decide (csrGate h (.core 0) true K.CFG_RELEASE_DIES.addr = .ok), !h.bit (K.RST_DIE_INRESET 3),
      !released (after (.releaseWrite (.core 0) 8) e) 3]) = true := by
  decide +kernel

theorem test_load_ports : (let h := hw0
    let m := after (.plpWord 0x4C484943) h
    let s := { h with ldr := { h.ldr with slp := { ({} : LoadPort) with active := true } } }
    checks [plpReady h, h.ldr.load.isNone, m.ldr.plp.active, m.ldr.plp.bytes.length == 4, decide (after (.plpWord 5) h = h),
      (after (.plpWord 5) m).ldr.plp.bytes.length == 8, (after (.slpWrite [1, 2]) s).ldr.slp.bytes == [1, 2],
      (after .slpStatus h).ldr.slpStatus == 1, decide (after (.slpOtherCommand 9) h = h)]) = true := by
  decide +kernel

theorem test_boot_burst : (let h := loading 1 { src := .boot 0 false }
    checks [loadStage h == 1, h.ldr.load.map (·.src) == some (.boot 0 false)]) = true := by
  decide +kernel

theorem test_commit_command : (let h := hw0.wrSh K.PWR_CTL_WARN 300
    let busy := { h with pwr := { h.pwr with entering := true } }
    let d := { h with ldr := { h.ldr with deferred := [0x8140] } }
    checks [decide (csrGate h .adit true K.CFG_COMMIT_GO.addr = .ok), groupOf h 0x8140 == some .pwr, (groupOf h 0xFFFF).isNone,
      (after (.cfgCommitGo .adit 0xFFFF) h).rd K.CFG_COMMIT_STATUS == csBadgroup, (after (.cfgCommitGo .adit 0x8140) busy).ldr.deferred == [0x8140],
      (after (.cfgCommitGo .adit 0x8140) h).rd K.PWR_CTL_THROTTLE == h.sh K.PWR_CTL_THROTTLE,
      (after (.commitDeferredApply 0x8140) d).ldr.deferred.isEmpty]) = true := by
  decide +kernel

/-! ### Start, reset, power -/

/-- The device in a phase of its start. -/
def phase (p : BootPhase) : Hw := { ({} : Hw) with rst := { ({} : RstSt) with phase := p } }

theorem test_qualifier : (let h := { phase .crystal with clk := { ({} : Clk) with counting := true, first := 1024 } }
    let s := h.wr K.CLK_XQUAL_RUN 7
    let t := after (.qualWindow 1044) s
    checks [!windowPasses h 921, (after (.qualWindow 921) h).rd K.CLK_XQUAL_LASTCNT == 921, windowPasses h 922,
      (after (.qualWindow 922) h).rd K.CLK_XQUAL_RUN == 1, !windowPasses s 1045, windowPasses s 1044, t.clk.stable, t.rst.phase == .pll,
      t.rd K.CLK_STAT_SRC == 1, inPhase (phase .crystal) .crystal, (after .crystalQualTimeout (phase .crystal)).rd K.CLK_STAT_XABSENT == 1,
      (after .holdoverTimeout (hw0.wr K.CLK_STAT_HOLDOVER 1)).rd K.CLK_STAT_HOLDOVER == 0]) = true := by
  decide +kernel

theorem test_start : (let f := phase .fuses
    let n : State := ⟨[], { fuses := [(0, 77)] }, f⟩
    let a := match exec .fuseSenseComplete n with | .next t => t.hw | _ => {}
    let b := after .fuseSenseComplete (f.wr K.RST_OPTSTAT_FAILS 8)
    let u := after .foremanStart (phase .start)
    checks [inPhase (phase .pll) .pll,
      (after .surveyPllLock (phase .pll)).rst.phase == .fill, a.rd K.ID_SERIAL_SERIAL == 77, a.rst.phase == .options,
      a.rd K.RST_OPTSTAT_FAILS == 1, b.rst.phase == .crystal, b.rd K.RST_OPTSTAT_DEFAULTS == 1, inPhase (phase .options) .options,
      inPhase (phase .fill) .fill, (after .eccFillComplete (phase .fill)).rst.phase == .start, mayStart (phase .start),
      !(phase .start).bit K.ADIT_BOOTHALT_EN, u.rst.phase == .running, u.pc 0 == 0xFFFFFFFFFFF00000]) = true := by
  decide +kernel

theorem test_reset_causes : (let h := hw0
    let r (b : Bool) := { hw0 with rst := { hw0.rst with request := some b } }
    let c := after .coldReset (r true)
    let w := after .warmReset (r false)
    checks [(after (.powerOnReset .vccint) h).rst.phase == .rails, (after .coreRailsGood (phase .rails)).rst.phase == .fuses,
      (after .coreRailsGood { h with pwr := { h.pwr with a3 := .rising } }).pwr.a3 == .locking, (after .resetPinAssert h).rst.request == some true,
      (after .perstAssert h).rst.perstLow, (after .perstAssert h).rst.request == some false, !(after .resetPinRelease h).rst.pinLow,
      !(after .perstRelease h).rst.perstLow, resetFree h, c.rst.phase == .fuses, c.rst.request.isNone, w.rst.phase == .fill, w.rst.warm]) = true := by
  decide +kernel

theorem test_die_reset : (let h := { hw0 with rst := { hw0.rst with dieReq := 512 } }
    let d := hw0.wr (K.RST_DIE_INRESET 3) 1
    let i := { h with pwr := { h.pwr with a3 := .inside } }
    checks [bits h.rst.dieReq 11 9 == 1, hubRuns h, resetFree h, !resetFree i, (after (.dieReset 3) i).rst.dieReq == 512,
      d.bit (K.RST_DIE_INRESET 3),
      !d.rst.zeroed.testBit 3, (after (.dieFramesZeroed 3) d).rst.zeroed.testBit 3]) = true := by
  decide +kernel

theorem test_ladder : (let h (s t : Nat) := (hw0.wr K.PWR_STAT_STATE s).wr K.PWR_STAT_TARGET t
    let step (s t : Nat) := pwrState (after .powerStateStep (h s t))
    let fall := { h 2 3 with pwr := { hw0.pwr with a3 := .falling } }
    let ins := { h 3 3 with pwr := { hw0.pwr with a3 := .inside } }
    checks [step 0 3 == 1, step 1 2 == 2, step 2 1 == 1, step 1 0 == 0, (after .powerTargetUpdate hw0).rd K.PWR_STAT_TARGET == targetState hw0,
      (after .a3Entry (h 2 3)).pwr.a3 == .falling, (after .vccintAtRetention fall).pwr.a3 == .inside,
      (after .retskipTimeout fall).rd K.PWR_STAT_RETSKIP == 1, exitCause ins, (after .a3Exit ins).pwr.a3 == .rising]) = true := by
  decide +kernel

theorem test_a3_ready : (let lock := { hw0.wr K.PWR_STAT_STATE 3 with pwr := { hw0.pwr with a3 := .locking } }
    checks [a3Ready lock, (after .a3Exit lock).pwr.a3 == .out]) = true := by
  decide +kernel

theorem test_wake_and_pause : (let h := (running 63 []).wr K.PWR_STAT_STATE 2
    let n := hw0.wr K.PWR_STAT_STATE 1
    checks [hubRuns h, pwrState h == 2, (h.core 63).item != none, ((after (.blockWake .crew true) h).rd K.PWR_STAT_AWAKE).testBit 0,
      n.cores.isEmpty, !((after (.blockWake .crew false) (n.wr K.PWR_STAT_AWAKE 1)).rd K.PWR_STAT_AWAKE).testBit 0,
      decide (csrGate hw0 .adit true K.PWR_PAUSE_PAUSE.addr = .ok), (after (.pauseWrite .adit true) hw0).rd K.PWR_PAUSE_PAUSE == 1]) = true := by
  decide +kernel

theorem test_temperature : (let l : List Int := (List.replicate 15 0) ++ [439]
    let h := { hw0 with pwr := { hw0.pwr with hot := [256 * 8 + 15] } }
    checks [l.length == sensorCount 8, l.all fun x => decide (-160 ≤ x ∧ x < 440), hottest hw0 8 l == some (439, 15),
      (after (.tempSample 8 l) hw0).rd (K.PWR_TEMP_TEMP 8) == 439, nextLevel hw0 0 439 == (after (.tempSample 8 l) hw0).rd (K.PWR_TEMP_LEVEL 8),
      (readSensor h 8 15 440).rst.thermHold, (readSensor h 8 15 440).rd K.PWR_TRIP_VALID == 1, !(readSensor hw0 8 15 600).rst.thermHold,
      (readSensor hw0 8 15 600).pwr.hot == [256 * 8 + 15]]) = true := by
  decide +kernel

theorem test_supplies : (let t := after (.vccioChange 47 true) hw0
    checks [t.rd (K.IOBANK_STAT_VGOOD 3 11) == 1, t.pwr.vccio == 2 ^ 47, (after (.vccioMeasure 47 4095) t).rd (K.IOBANK_STAT_VMEAS 3 11) == 4095,
      !(after (.laneSupplyChange false) hw0).pwr.lanesGood]) = true := by
  decide +kernel

/-! ### Adit -/

/-- The TAP owns the session. -/
def tapOwns (h : Hw) : Hw := h.wr K.ADIT_SESSION_OWNER 1

theorem test_tap : (let h := hw0
    checks [owner (after .tapReset (tapOwns h)) == 0, (after .extest h).dbg.ir == 0, (after .idcode h).dbg.ir == 2,
      (after (.samplePreload (2 ^ 2304)) h).dbg.boundary == 0, (after (.bypass 0xFF) h).dbg.ir == 0xFF, (after (.accessRead 1) h).dbg.ir == 0x10,
      (after (.tapDbgwin true) h).rd K.PCIE_CTL_DBGWIN == 1, owner h != 1, (after (.accessWrite 2 0) h).rd K.ADIT_STAT_REFUSED == 1,
      decide (csrGate (die0 h) .adit true (K.STRATA_HTRIG_GO 0).addr = .ok),
      (after (.tapTrigger 15 7 true) (die0 h)).strata.inFlight == [⟨0, 2, 0, 7, 15, none, 0x6000⟩], (after (.tapTrigger 1 7 false) (die0 h)).dbg.ir == 0x11]) = true := by
  decide +kernel

theorem test_session : (let h := tapOwns hw0
    let p := after (.aditPeek .tap) h
    let r := { p with gal := { p.gal with arrived := [⟨0, .adit, .read, .ok, 9, 0, 0⟩] } }
    let t := after .aditBusResponse r
    checks [faceOwns (after (.aditAttach .window) hw0) .window, !faceOwns h .window, (after (.aditAttach .window) h).rd K.ADIT_STAT_REFUSED == 1,
      (after (.aditDetach .window) h).rd K.ADIT_STAT_REFUSED == 1, owner (after (.aditDetach .tap) h) == 0,
      (fieldsAt 0x1C00020).all fun x => decide (h.rd x.key < 2 ^ x.key.w), !h.bit K.ADIT_STAT_BUSY, !h.bit K.ADIT_BUSCMD_LOCAL,
      h.rd K.ADIT_BUSADDR_ADDR % busSize h == 0, p.rd K.ADIT_STAT_BUSY == 1, p.dbg.bus == some 0,
      (after (.aditPoke .tap) h).gal.reqs.map (·.kind) == [.write], p.bit K.ADIT_STAT_BUSY, (after (.aditBusCancel .tap) p).rd K.ADIT_STAT_BUSSTATUS == 3,
      (takeArrived r 0).isSome, !r.dbg.fromWindow, t.rd K.ADIT_BUSDATA_DATA == 9, t.rd K.ADIT_STAT_BUSY == 0]) = true := by
  decide +kernel

theorem test_halt : (let h := tapOwns (running 63 [])
    let q := after (.aditHalt .tap 0x8000000000000000) h
    let t := after (.coreHaltTake 63) q
    let l := q.onCore 63 fun x => { x with lock := some {} }
    let s := after (.aditStep .tap 63) t
    checks [(q.rd K.ADIT_HALT_REQ) == 2 ^ 63, !isHalted q 63, !inSequence q 63, isHalted t 63, t.rd K.ADIT_HALT_REQ == 0, inSequence l 63,
      (after (.haltDeferralTimeout 63) l).rd (K.CORE_LOCKSTAT_LOCKBRK 63) == 1, (t.core 63).dev.isNone, (t.core 63).pendErr.isNone,
      !isHalted (after (.aditRun .tap 0x8000000000000000) t) 63, mayRun t 63, !isHalted s 63, (s.core 63).stepping]) = true := by
  decide +kernel

theorem test_breakpoint_and_registers : (let b := ((running 63 []).wr K.ADIT_BPCORES_CORES (2 ^ 63)).wr (K.ADIT_BP_EN 3) 1
    let b := b.wr (K.ADIT_BP_ADDR 3) (0xFFFFFFFFFFFC0000 / 4)
    let h := (tapOwns (running 63 [])).wr K.ADIT_CSEL_CORE 63
    let t := after (.coreHaltTake 63) (after (.aditHalt .tap 0x8000000000000000) h)
    checks [mayRun b 63, atBreakpoint b 63, !inSequence b 63, isHalted (after (.breakpointHit 63) b) 63, cselCore h == 63, !isHalted h 63,
      (after (.aditRegWrite .tap 1 5) h).rd K.ADIT_STAT_NOTHALTED == 1, isHalted t 63, (after (.aditRegWrite .tap 31 5) t).g 63 31 == 5,
      (after (.aditRegWrite .tap 1 5) t).g 63 1 == 5, (after (.aditRegWrite .tap 32 4) t).pc 63 == 4]) = true := by
  decide +kernel

theorem test_terminal : (let h := tapOwns hw0
    let d := after (.dtxStore 63 7) h
    let x := after (.drxWrite .tap 63 8) h
    checks [!h.bit (K.ADIT_CORE_DTX_FULL 63), d.rd (K.ADIT_CORE_DTX_DATA 63) == 7, d.bit (K.ADIT_CORE_DTX_FULL 63),
      (after (.dtxStore 63 9) d).rd (K.ADIT_CORE_DTX_OVR 63) == 1, (after (.dtxStore 63 9) d).rd (K.ADIT_CORE_DTX_DATA 63) == 7,
      (after (.dtxRelease .tap 63) d).rd (K.ADIT_CORE_DTX_FULL 63) == 0, x.rd (K.ADIT_CORE_DRX_DATA 63) == 8, x.bit (K.ADIT_CORE_DRX_FULL 63),
      (after (.drxWrite .tap 63 9) x).rd K.ADIT_STAT_REFUSED == 1, (after (.drxRead 63 (.core 63)) x).rd (K.ADIT_CORE_DRX_FULL 63) == 0,
      (after (.drxRead 63 .adit) x).rd (K.ADIT_CORE_DRX_FULL 63) == 1]) = true := by
  decide +kernel

theorem test_adit_resets : (let h := tapOwns (hw0.wr (K.RST_DIE_INRESET 3) 0)
    let p := hw0.wr K.RST_CANARY_CTL_PERIOD 5
    let z := hw0.wr K.RST_CANARY_STAT_REMAIN 0
    checks [!resetting h, (after (.aditResetWarm .tap) h).rst.request == some false, (after (.aditResetCold .tap) h).rst.request == some true,
      !dieResetting h 3, (after (.aditResetDie .tap 3) h).rst.dieReq == 1024, decide (csrGate p (.core 0) true K.RST_CANARY_FEED_KEY.addr = .ok),
      (after (.canaryFeed (.core 0) 0x5A) p).rd K.RST_CANARY_STAT_REMAIN == 5000,
      (after (.canaryFeed (.core 0) 0x5B) p).rd K.RST_CANARY_STAT_REMAIN == p.rd K.RST_CANARY_STAT_REMAIN, z.rst.request.isNone,
      (after .canaryExpiry z).rst.request == some false]) = true := by
  decide +kernel

/-! ### Guest site -/

/-- A device with a guest whose link is up and unfenced, one window over hub SRAM, and tokens. -/
def guestUp : Hw :=
  let h := ((((hw0.wr K.ID_CAP_GUEST 1).wr K.GUEST_STAT_VGOOD 1).wr K.GUEST_STAT_UP 1).wr K.GUEST_CTL_FENCE 0).wr (K.GUEST_GW_BASE_EN 15) 1
  let h := ((h.wr (K.GUEST_GW_BASE_BASE 15) 0x10000).wr (K.GUEST_GW_LIMIT_LIMIT 15) 0x10001)
  { h with guest := { h.guest with tokens := 272 * 800 } }

theorem test_guest_link : (let g := ((hw0.wr K.ID_CAP_GUEST 1).wr K.GUEST_STAT_VGOOD 1).wr K.GUEST_CTL_GRST 0
    let h := (g.wr K.GUEST_CTL_EN 1).wr K.GUEST_CTL_MAXRATE 3
    let t := after (.guestLinkUp 3 false) h
    let d := after .guestLinkDown t
    checks [guestLinkOk h, !h.bit K.GUEST_STAT_UP, t.rd K.GUEST_STAT_UP == 1, t.rd K.GUEST_STAT_RATE == 3, t.rd K.GUEST_STAT_WIDTH == 8,
      d.rd K.GUEST_STAT_UP == 0, d.rd K.GUEST_CTL_FENCE == 1]) = true := by
  decide +kernel

theorem test_guest_transactions : (let x : GuestHdr := ⟨255, 0x10000F00, 256, true⟩
    let w (k : Key) := guestUp.wr k 1
    let r := after (.guestRead x) (w (K.GUEST_GW_BASE_R 15))
    checks [hasGuest guestUp, guestUp.bit K.GUEST_STAT_UP, decide (guestCreditsUsed guestUp true < 64 ∧ guestCreditsUsed guestUp false < 64),
      !(guestUp.guest.tags.contains 255), (after (.guestRead { x with legal := false }) guestUp).guest.lastResp == some (255, .tgterr, 0), beatsOk x.addr 4, !inMailbox x.addr, (List.range 16).find? (windowHolds guestUp x.addr) == some 15,
      r.guest.tokens == 272 * 800 - 12800, r.gal.reqs.map (·.addr) == [0x10000F00],
      (after (.guestFetch x) (w (K.GUEST_GW_BASE_X 15))).gal.reqs.length == 1, (after (.guestWrite x 5) (w (K.GUEST_GW_BASE_W 15))).guest.tokens == 0,
      (after (.guestPwrite x 5) (w (K.GUEST_GW_BASE_W 15))).gal.reqs.map (·.kind) == [.pwrite], !guestUp.bit (K.GUEST_GW_BASE_R 15),
      (after (.guestRead x) guestUp).guest.lastResp == some (255, .denied, 0),
      (after (.guestRead x) (guestUp.wr K.GUEST_CTL_FENCE 1)).guest.lastResp == some (255, .denied, 0)]) = true := by
  decide +kernel

theorem test_guest_queue : (let tx : GuestTx := ⟨.read, false, 1, 0x10000000, 64, 0⟩
    let b := { (guestUp.wr (K.GUEST_GW_BASE_R 15) 1) with guest := { guestUp.guest with tokens := 12800, waiting := [tx] } }
    let q := ((oneEntry guestUp).wr (K.SCHED_Q_CFG_OWNKIND 256) 4).wr (K.SCHED_Q_CFG_DELIVER 256) 1
    let t := after (.guestDelivery 256) q
    checks [guestCost tx == 12800, (List.range 16).find? (windowHolds b tx.addr) == some 15, windowGrants b tx 15,
      (after .guestBucketRelease b).guest.waiting.isEmpty, (after .guestBucketRelease b).guest.tokens == 0, qDeliver q 256, qKind q 256 == 4,
      t.guest.sent == [(256, 0)], t.guest.lastWrite == some (0, descNat ⟨9, 0, 0, 0, 0, 0, 7, 0⟩), ((after .guestCreditReturn t).queue 256).entries.isEmpty]) = true := by
  decide +kernel

theorem test_guest_controls : (let h := guestUp
    let f := { h with guest := { h.guest with tokens := 64000 } }
    let trip := ((h.wr K.GUEST_CTL_TRIPRST 1).wr K.GUEST_STAT_TRIPHOLD 0)
    checks [decide (csrGate h .adit true K.GUEST_CLR_UNFENCE.addr = .ok), (after (.guestUnfence .adit) (h.wr K.GUEST_CTL_FENCE 1)).rd K.GUEST_CTL_FENCE == 0,
      decide (csrGate h .adit true K.GUEST_MBOX_CTL_TOGO.addr = .ok), (after (.toguestGo .adit) h).rd K.GUEST_MBOX_CTL_TOFULL == 1,
      decide (csrGate h .adit true K.GUEST_CTL_GRST.addr = .ok), (after (.guestGrstWrite .adit true false) h).rd K.GUEST_CTL_GRST == 1,
      (after .fromguestGo f).rd K.GUEST_MBOX_CTL_FROMFULL == 1, (after (.guestTempReport 0xFFFF) h).rd K.GUEST_TEMP_TEMP == 0xFFFF,
      (after .guestTempSilent trip).rd K.GUEST_STAT_TRIPHOLD == 1, (after (.vguestChange false) h).rd K.GUEST_STAT_UP == 0]) = true := by
  decide +kernel

/-! ### PCI Express -/

/-- The link up, configuration answered, and the PF with memory space. -/
def linked : Hw :=
  let h := hw0.wr K.PCIE_STAT_UP 1
  { h with pcie := { h.pcie with ready := true, funcs := [(0, { ({} : FuncSt) with memSpace := true, busMaster := true })] } }

theorem test_link : (let t := after (.pcieLinkUp 6 16 true) hw0
    let d := after .pcieLinkDown linked
    checks [!linkUp hw0, decide (6 ≤ hw0.rd K.PCIE_CTL_MAXGEN), decide (16 ≤ widthOf (hw0.rd K.PCIE_CTL_MAXWIDTH)), linkUp t, t.rd K.PCIE_STAT_GEN == 6,
      t.rd K.PCIE_STAT_WIDTH == 16, !linked.bit K.PCIE_CTL_HOTREACH, !linkUp d, d.rd K.RST_CAUSE_HOT == 1, !linkUp (after .pcieHotReset linked)]) = true := by
  decide +kernel

theorem test_config : checks [funcOn linked 0, (func (after (.pcieConfigRequest 0 (.busMaster false)) linked) 0).busMaster == false,
    (func (after (.pcieConfigRequest 0 (.memSpace false)) linked) 0).memSpace == false,
    (func (after (.pcieConfigRequest 0 (.msixMask true)) linked) 0).msixMask, (after (.pcieConfigRequest 0 (.read 0)) linked).pcie.lastCpl == [(0, .sc, false, 0x00480000 + vendorId linked)],
    (after (.pcieConfigRequest 0 (.vfEnable 63)) linked).rd K.PCIE_STAT_NUMVF == 63] = true := by
  decide +kernel

theorem test_host_access : (let w := after (.pcieMemWrite 0 2 0 256 5 false) linked
    let r := after (.pcieMemRead 0 2 0x1FFFF00 256 16383) linked
    checks [hostReaches linked 0, match hostTarget linked 0 2 0 true with | .hub a => a == 0x10000000 | _ => false,
      match hostTarget linked 0 2 0x1FFFF00 false with | .hub a => a == 0x11FFFF00 | _ => false, w.gal.reqs.map (·.addr) == [0x10000000],
      r.gal.reqs.map (·.tag) == [16383], (after (.pcieMemWrite 0 2 0 1 5 true) linked).rd K.PCIE_ERRCNT_POISONED == 1]) = true := by
  decide +kernel

theorem test_completions : (let q : GReq := ⟨4, .core 5, .read, 0, 8, 0, 0, 0⟩
    let h := { linked with pcie := { linked.pcie with reqs := [⟨7, 0, some q⟩] } }
    checks [(takeHostReq linked 7).isNone, (after (.pcieCompletionReceived 7 .ok 0) linked).rd K.PCIE_ERRCNT_UNEXP == 1, (takeHostReq h 7).isSome,
      (after (.pcieCompletionReceived 7 .ok 9) h).gal.resps == [respOf q .ok 9], (after (.pcieCompletionTimeout 7) h).rd K.PCIE_ERRCNT_CTO == 1]) = true := by
  decide +kernel

theorem test_functions : (let h := linked.wr K.PCIE_STAT_NUMVF 63
    let n := { linked with pcie := { linked.pcie with funcs := [] } }
    checks [funcOn h 63, func (after (.pcieFlr 63) h) 63 == { conflict := false }, (after (.pcieFlr 0) h).rd K.PCIE_STAT_NUMVF == 0, !(func n 0).memSpace,
      (after (.barResize 30) n).pcie.barLog == 30, (after (.barResize 39) n).pcie.barLog == 39, !(func (after (.msixEnable 0 false) linked) 0).msixEn,
      decide (linked.rd (K.PCIE_FUNC_MSIX_BASE 0) + msixCount linked 0 ≤ 2048), (func (after (.msixEnable 0 true) linked) 0).msixEn,
      !(msixEntry (after (.msixUnmask 0 2047) linked) 0 2047).testBit 96]) = true := by
  decide +kernel

theorem test_rings : (let m := after (.funcMsixWrite .adit 0 (2048 * 65536 + 0x7FF)) linked
    let h := linked.wr (K.PCIE_HRING_TAIL 256) 5
    let q := ((oneEntry linked).wr (K.SCHED_Q_CFG_OWNKIND 256) 1).wr (K.SCHED_Q_CFG_DELIVER 256) 1
    let t := after (.hostRingDelivery 256) q
    checks [decide (csrGate linked .adit true (msixAddr 0) = .ok), !(func linked 0).msixEn, m.rd (K.PCIE_FUNC_MSIX_BASE 0) == 0x7FF,
      m.rd (K.PCIE_FUNC_MSIX_COUNT 0) == 2048, decide (csrGate h .adit true (hringAddr 256) = .ok),
      (after (.hringHeadWrite .adit 256 5) h).rd (K.PCIE_HRING_HEAD 256) == 5, (after (.hringHeadWrite .adit 256 6) h).rd (K.PCIE_HRING_HEAD 256) == 0,
      ringRoom q 256, qDeliver q 256, qKind q 256 == 1, qIdx q 256 == 0, oldest q 256 == some ⟨0, 0, 1, 0, 0, some 7⟩,
      t.rd (K.PCIE_HRING_TAIL 256) == 1, (t.queue 256).entries.isEmpty]) = true := by
  decide +kernel

theorem test_debug_window : checks [decide (csrGate hw0 (.core 0) true K.PCIE_CTL_DBGWIN.addr = .ok),
    (after (.dbgwinWrite (.core 0) true) hw0).rd K.PCIE_CTL_DBGWIN == 1, !linked.bit K.PCIE_CTL_DBGWIN,
    (after (.debugWindowAccess false 0x3FFFF8 8 0) linked).pcie.lastCpl == [(0, .sc, false, 0)]] = true := by
  decide +kernel

/-! ### Bortik -/

/-- Link 63 in a state. -/
def link63 (s : Nat) (x : LinkSt := {}) : Hw :=
  let h := ((die3 hw0).wr (K.BORTIK_LINK_STAT_STATE 63) s).wr (K.BORTIK_LINK_CFG_EN 63) 1
  { h with bortik := { h.bortik with links := [(63, x)] } }

theorem test_bring_up : (let a : Advert := ⟨5, 7, 0, false, false, 0, 9, true⟩
    let s := link63 2
    let t := after (.bortikAdvert 63 a) s
    let c := link63 3 { climb := 2, agreed := 3 }
    let k := { link63 4 with keys := { ({} : KeyStore) with linkCur := [(63, some 5)] } }
    let p := { link63 5 with keys := { ({} : KeyStore) with linkPend := [(63, some 5)] } }
    checks [lkState (link63 1) 63 == 1, lanesPowered (link63 1) 63, lkState (after (.linkSignalDetect 63) (link63 1)) 63 == 2,
      (after (.linkStep1Timeout 63) s).rd (K.BORTIK_LINK_STAT_DOWNCAUSE 63) == 7, s.rd (K.BORTIK_LINK_CFG_WIDTH 63) == 0,
      (linkSt t 63).partner == some 5, (after (.bortikAdvert 63 { a with width := 3 }) s).rd (K.BORTIK_LINK_STAT_DOWNCAUSE 63) == 8,
      stepPasses c 63 2 ⟨[(0, 63)], true⟩,
      !stepPasses c 63 2 ⟨[(0, 63)], false⟩, (linkSt (after (.climbStepComplete 63 ⟨[(0, 63)], true⟩) c) 63).climb == 3,
      lkState (after (.climbStepComplete 63 ⟨[(0, 63)], false⟩) c) 63 == 4,
      (after (.climbStepComplete 63 ⟨[(5, 63)], true⟩) c).rd (K.LANE_ERR_COUNT 63) == 5,
      lkState (after (.linkAlignComplete 63) (link63 4)) 63 == 5, (linkCur k 63).isSome, linkCur p 63 == none, linkPend p 63 == some 5]) = true := by
  decide +kernel

theorem test_link_lanes : (let h := link63 6
    let l := after (.laneLockLoss 63) h
    checks [linkOfLane h 63 == some 63, (linkSt l 63).lost == [63], (linkSt (after (.laneLockRegain 63) l) 63).lost.isEmpty,
      (after (.laneLockTimeout 63) l).rd (K.BORTIK_LINK_STAT_DOWNCAUSE 63) == 2, (after (.laneMarginMeasure 63 0) h).rd (K.LANE_STAT_MINMARGIN 63) == 0]) =
    true := by
  decide +kernel

theorem test_frames : (let f (u t : Bool) (b : List BBlock) : BFrame := ⟨u, t, false, b, []⟩
    let h := queueOn 300 (link63 6)
    let o := (h.wr (K.SCHED_Q_CFG_OWNKIND 300) 3).wr (K.SCHED_Q_CFG_OWNIDX 300) 63
    let seven := link63 6 { fails := 7 }
    checks [!hasData (f true true []), (after (.bortikFrameReceive 63 (f true true [])) h).rd (K.BORTIK_LINK_CNT_UNCORR 63) == 1,
      (linkSt (after (.bortikFrameReceive 63 (f false false [])) h) 63).fails == 1,
      (after (.bortikFrameReceive 63 (f false false [])) seven).rd (K.BORTIK_LINK_STAT_DOWNCAUSE 63) == 3,
      (SMap.get (linkSt (after (.bortikFrameReceive 63 (f false true [.credit 9 64 3])) h) 63).known 9 none).map (·.cred) == some 64,
      nextSeq (linkSt h 63).lastIn == 0, permitted o (.master (.link 63)) 300, qCred o 300 == 64, decide (0 < sharedFree o),
      (linkSt (after (.bortikFrameReceive 63 (f false true [.doorbell 300 65535 (desc1 0)])) o) 63).sentBlock == some (.ack 65535)]) = true := by
  decide +kernel

theorem test_link_events : (let h := link63 6 { switchOut := some false, lost := [] }
    let r := (link63 6).wr (K.BORTIK_LINK_RSC_EN 63) 1
    let a := r.wr (K.BORTIK_LINK_RSCSTAT_ALIGNED 63) 1
    let q := ((queueOn 300 (link63 6)).wr (K.SCHED_Q_CFG_OWNKIND 300) 3).wr (K.SCHED_Q_CFG_OWNIDX 300) 63
    checks [(linkSt (after (.beaconSend 63) h) 63).sentBlock == some (ownBeacon h 63), (linkSt (after (.beaconLostTimeout 63) h) 63).beaconLost,
      (after (.replayTimeout 63) h).rd (K.BORTIK_LINK_CNT_REPLAY 63) == 0, (after (.keyEpochSwitch 63 0) h).rd (K.BORTIK_LINK_STAT_EPOCH 63) == 1,
      SMap.get (linkSt (after (.bortikRscBlock 63 127 31 5) r) 63).rscBuf 4095 0 == 5, r.bit (K.BORTIK_LINK_RSC_EN 63),
      (linkSt (after (.creditSend 63 300) q) 63).sentBlock == some (.credit 300 64 0), SMap.get (linkSt q 63).told 300 0 != qCred q 300 + 1,
      (after (.rscSlip 63) a).rd (K.BORTIK_LINK_RSCSTAT_SLIP 63) == 1]) = true := by
  decide +kernel

theorem test_link_delivery : (let h := ((oneEntry (link63 6 { known := [(9, some ⟨1, 0, 0⟩)] })).wr (K.SCHED_Q_CFG_OWNKIND 256) 3).wr (K.SCHED_Q_CFG_OWNIDX 256) 63
    let h := (h.wr (K.SCHED_Q_CFG_DELIVER 256) 1).wr (K.SCHED_Q_DEST_DEST 256) 9
    let t := after (.bortikDelivery 256) h
    checks [qDeliver h 256, qKind h 256 == 3, qIdx h 256 == 63, SMap.get (linkSt h 63).known 9 none == some ⟨1, 0, 0⟩, partnerCredit ⟨1, 0, 0⟩ == 1,
      (linkSt t 63).unacked == [⟨0, 256, 0, 9⟩], (after (.replayTimeout 63) t).rd (K.BORTIK_LINK_CNT_REPLAY 63) == 1,
      (linkSt (after (.replayTimeout 63) t) 63).sentBlock == (linkSt t 63).sentBlock]) = true := by
  decide +kernel

/-! ### DRAM -/

/-- Channel 3 in a state; the device set up for DDR5 where asked. -/
def chan3 (s : Nat) (five : Bool := false) (h : Hw := hw0) : Hw :=
  (h.wr (K.DDR_C_STAT_STATE 3) s).wr (K.RST_OPT_BYTES 3) (if five then 0x03020202 else 0)

theorem test_channels : (let a := chan3 2
    let five := chan3 2 true
    checks [chState (after (.ddrTrainComplete 3 none) (chan3 1)) 3 == 2, (after (.ddrTrainComplete 3 (some (15, 3))) (chan3 1)).rd (K.DDR_C_STAT_TRAINLANE 3) == 15,
      chState (after (.ddrRetrainComplete 3 none) (chan3 4)) 3 == 2, chState (after (.ddrRetrainComplete 3 (some (0, 0))) (chan3 4)) 3 == 5,
      decide (csrGate a .adit true (K.DDR_C_CMD_RETRAIN 3).addr = .ok), chState (after (.ddrRetrain .adit 3) a) 3 == 4, isDdr5 five,
      !five.bit (K.DDR_C_STAT_DOUBLED 3), (after (.ddrMr4Poll 3 true) five).rd (K.DDR_C_STAT_DOUBLED 3) == 1,
      SMap.get (after (.ddrDqsTrack 3 3 15 (-1)) five).dram.dqs ((3 * 4 + 3) * 16 + 15) 32768 == 32767,
      (after (.ddrMarginAudit 3 63 0) a).rd (K.DDR_C_MARGIN_RD 3) == 63, !(SMap.get (after (.ddrSameBankRefresh 3 3 3) five).dram.sbDue 15 0).testBit 3,
      (after (.ddrRefreshWindow 3) { a with dram := { a.dram with tables := [(1023, [])] } }).dram.tables.isEmpty]) = true := by
  decide +kernel

theorem test_refresh : (let a := ((chan3 2).wr (K.DDR_C_CTL_REFMODE 3) 1)
    let near := a.onCore 1 fun x => { x with item := some ⟨256, none, 0, 0, 0, .absent, some 0, none⟩ }
    let owed := a.wr (K.DDR_C_STAT_OWED 3) 8
    checks [refreshing a 3 0, !isDdr5 a, !deadlineNear a 3, !rankBusy a 3 0, deadlineNear near 3, (after (.ddrRefreshDue 3 0) near).rd (K.DDR_C_STAT_OWED 3) == 1,
      (after (.ddrOwedRefreshPay 3 0) owed).rd (K.DDR_C_STAT_OWED 3) == 7]) = true := by
  decide +kernel

/-- A request at an active channel 0. -/
def atDram (q : GReq) (h : Hw := hw0) : Hw := { h.wr (K.DDR_C_STAT_STATE 0) 2 with dram := { h.dram with queue := [q] } }

theorem test_dram_access : (let r := { atDram ⟨4, .core 5, .read, dramBase + 56, 8, 0, 0, 0⟩ with mem := ({} : Mem).writeN (dramBase + 56) 8 7 255 }
    let w := atDram ⟨4, .core 5, .write, dramBase + 64, 64, 9, allOn 64, 0⟩
    checks [ready r 0 == r.dram.queue[0]?, (regionAt r 56).isNone, decide (dramBase ≤ dramBase + 56), ready w 0 == w.dram.queue[0]?,
      (regionAt w 64).isNone, allOn 64 == 2 ^ 64 - 1]) = true := by
  decide +kernel

/-- Region 15 over page 0, with counters at page 16. -/
def region15 (h : Hw) : Hw := ((h.wr (K.CIPH_R_BASE_EN 15) 1).wr (K.CIPH_R_LIMIT_LIMIT 15) 1).wr (K.CIPH_R_CTR_CTR 15) 16

theorem test_cipher : (let q (k : GKind) : GReq := ⟨4, .core 5, k, dramBase, 64, 9, allOn 64, 0⟩
    let r := region15 (atDram (q .read))
    let w := region15 (atDram (q .write))
    let k (h : Hw) := { h with keys := { ({} : KeyStore) with ciphCur := [(15, some 5)] }, dram := { h.dram with cache := [pageNo 15 0] } }
    let f := { r with dram := { r.dram with poisoned := [] } }
    checks [(ready r 0).isSome, regionAt r 0 == some 15, regionShut r 15, (after (.cipherRead 0 [[]]) r).gal.resps.map (·.status) == [.tgterr],
      (after (.cipherWrite 0 [[]]) w).gal.resps.map (·.status) == [.tgterr], !regionShut (k r) 15, cached (k r) 15 0, !isPoisoned (k r) 15 0,
      !(k w).dram.ended.contains (pageNo 15 0), decide ((readCopy (k w) 15 0 0).minor 0 < 2 ^ 14 - 1), !cached f 15 0,
      readCopy f 15 0 0 == readCopy f 15 0 1, cached (after (.counterFetchComplete 15 0 true true) f) 15 0,
      isPoisoned (after (.counterFetchComplete 15 0 false false) f) 15 0]) = true := by
  decide +kernel

theorem test_rekey : (let h := region15 hw0
    let i := h.wr K.CIPH_STAT_INSTALL (2 ^ 15)
    let m := { h.wr K.CIPH_STAT_REKEY (2 ^ 15) with keys := { ({} : KeyStore) with ciphPend := [(15, some 5)] } }
    let t := after (.cipherPageClear .adit 0) h
    checks [(i.rd K.CIPH_STAT_INSTALL).testBit 15, (after (.cipherInstallComplete 15) i).rd K.CIPH_STAT_INSTALL == 0, ciphPend m 15 == some 5,
      (m.rd K.CIPH_STAT_REKEY).testBit 15, regLimit m 15 == 1, decide (csrGate h .adit true K.CIPH_CMD_CLR.addr = .ok), regionAt h 0 == some 15,
      readCopy t 15 0 0 == ⟨0, 0⟩, !isPoisoned t 15 0]) = true := by
  decide +kernel

/-! ### Bindings and remote seam channels -/

theorem test_binding : (let h := ((die0 (die1 (seamAt 0 5))).wr (K.SEAM_BIND_CFG_EN 0 1 15) 1).onNet 0 0 fun x => { x with cur := 0x6A }
    let h := h.onNet 1 0 fun x => { x with cur := 0x6A }
    let t := after (.bindingAlign 0 1 15 (-1)) (h.onNet 0 0 fun x => { x with stake := 2 ^ 48 - 1 })
    checks [seamLive h 0, bindEn h (0, 1, 15), !h.bit (K.SEAM_BIND_STAT_ALIGNED 0 1 15), bindOk h 0 1 15, released h 0, released h (farDie 0),
      t.rd (K.SEAM_BIND_STAT_ALIGNED 0 1 15) == 1, SMap.get (t.seamSt 0).deltas 31 0 == 2 ^ 48]) = true := by
  decide +kernel

theorem test_rsc_align : (let h := ((link63 6 { rscMark := some (5, 16, 0, 0) }).wr (K.BORTIK_LINK_RSC_EN 63) 1).wr (K.PDOM_NETS_NETS 3 0) 1
    let h := h.onNet 3 0 fun x => { x with cur := 0x6A }
    checks [released h 3, rscOk h 63, !h.bit (K.BORTIK_LINK_RSCSTAT_ALIGNED 63),
      (after (.rscAlignComplete 63 true (-4)) h).rd (K.BORTIK_LINK_RSCSTAT_DELTA 63) == 2 ^ 48 - 4,
      (after (.rscAlignComplete 63 false 0) h).rd (K.BORTIK_LINK_RSCSTAT_NOTSYNC 63) == 1]) = true := by
  decide +kernel

/-! ### Instruction words -/

/-- Words written out field by field from R175: format A, I, S, B, J, U, and D for the device operations. -/
theorem test_words : checks [decodeWord 5 0b0000000000_00010_00001_00011_0000001#32 == .add 5 3 1 2,
    decodeWord 5 0b111111111111_000_00001_00011_0000010#32 == .addi 5 3 1 0xFFF,
    decodeWord 5 0b100000111111_110_00001_00011_0000010#32 == .srai 5 3 1 63,
    decodeWord 5 0b000000001000_011_00001_00011_0000011#32 == .ld 5 3 1 8,
    decodeWord 5 0b1000000_011_00010_00001_00001_0000100#32 == .sd 5 1 2 0x801,
    decodeWord 5 0b111111111111_000_00001_00010_0000101#32 == .beq 5 1 2 0xFFF,
    decodeWord 5 0b000000000001_001_00010_00011_0000110#32 == .jal 5 3 0x22,
    decodeWord 5 0b10000000000000000001_00011_0000111#32 == .lui 5 3 0x80001,
    decodeWord 5 0b000000000000_001_00000_00011_0001000#32 == .endlock 5 3,
    decodeWord 5 0b0000000001_00010_00001_00011_0010000#32 == .enq 5 3 1 2,
    decodeWord 5 0b0000000001_00000_00000_00001_0010111#32 == .illegalInstruction 5 0x400097,
    decodeWord 5 0#32 == .illegalInstruction 5 0] = true := by
  decide +kernel

/-! ### Wider hypotheses -/

theorem test_crew_privilege : (let h := ((running 63 [0xFFFFFFFFFFFC1000]).wr K.ERR_POSTMASK_MASK 0).onCore 63 fun k =>
      { k with stores := [⟨9, 0, false⟩] }
    checks [readyB h 63 (barredIns (wordI 6 2 0 0 0) []), readyB h 63 (barredIns (wordA 0x17 0x33 3 1 0) [3, 1]), h.rst.optImage.isNone,
      h.sched.heldWrites.isEmpty, (after (.tret 63) h).rd (K.CORE_CAUSE_CODE 63) == 2, (after (.optwr 63 3 1) h).rd (K.CORE_CAUSE_CODE 63) == 2]) =
    true := by
  decide +kernel

theorem test_store_buffer_order : (let g := { (running 0 []).onCore 0 fun k => { k with stores := [⟨6, 64, false⟩, ⟨7, 128, false⟩] } with
      gal := { ({} : Gallery) with arrived := [⟨6, .core 0, .write, .ok, 0, 64, 0⟩, ⟨7, .core 0, .write, .ok, 0, 128, 0⟩] } }
    let late := after (.storeAck 0 1) g
    checks [((late.core 0).stores.map (·.acked)) == [false, true], ((after (.storeAck 0 0) late).core 0).stores.isEmpty]) = true := by
  decide +kernel

/-- Core 1 holds the priority reservation over the first line of hub SRAM. -/
def reserving : Hw := (inLock { lines := [0x10000000], executed := 1 }).wr (K.CORE_LOCKSTAT_PRIO 1) 1

theorem test_priority_holds : (let w : HeldWrite := ⟨none, 0x10000008, 1, 7, 1, none⟩
    let h := { reserving with sched := { reserving.sched with heldWrites := [w] } }
    checks [prioHolds reserving none 0x10000000 8, !prioHolds reserving (some 1) 0x10000000 8, !prioHolds reserving none 0x10000040 8,
      (hubWrite reserving none 0x10000008 1 7 1).mem.readByte 0x10000008 == 0,
      (hubWrite reserving none 0x10000008 1 7 1).sched.heldWrites == [w],
      (after .priorityReservationTimeout h).mem.readByte 0x10000008 == 7,
      (after .priorityReservationTimeout h).sched.heldWrites.isEmpty]) = true := by
  decide +kernel

theorem test_fill_fails : (let h := (running 0 []).onCore 0 fun x => { x with pc := 0x10000040 + 4 }
    checks [mayIssue h 0, (h.core 0).pendErr.isNone, decide (fetch h 0 = (.miss, h)), h.rd (K.CORE_CAUSE_TACTIVE 0) == 0,
      (after (.icacheFillResponse 0 .poison) h).rd (K.CORE_CAUSE_CODE 0) == 7,
      (after (.icacheFillResponse 0 .decerr) h).rd (K.CORE_CAUSE_CODE 0) == 3,
      (after (.icacheFillResponse 0 .decerr) h).rd (K.CORE_TVAL_TVAL 0) == 0x10000044]) = true := by
  decide +kernel

theorem test_cap_mask : (let h := ((((die1 (running 0 [7, 3])).wr (K.STRATA_PROF_NETS 1 7) 1).wr (K.STRATA_CTL_DEPTH 1) 1).wr
      (K.STRATA_PROF_NETS 0 7) 1).wr (K.RST_DIE_INRESET 0) 1
    checks [devB h 0 (wordA 0x16 1 3 1 2) [3, 1, 2] false, triggerRefusal h 0 != none, (triggerRefusal h 1).isNone,
      nextSlot h 1 == some 0, bits ((after (.cap 0 3 1 2) h).g 0 3).toNat 11 8 == 2]) = true := by
  decide +kernel

theorem test_msg_named_register : (let h := running 0 [5, 7]
    let t := after (.msgMsix 0 3 1 2) h
    checks [devB h 0 (wordA 0x17 0x21 3 1 2) [3, 1, 2] false, h.rd (K.CORE_CAUSE_TACTIVE 0) == 0, t.rd (K.CORE_CAUSE_CODE 0) == 1,
      t.rd (K.CORE_TVAL_TVAL 0) == wordA 0x17 0x21 3 1 2]) = true := by
  decide +kernel

theorem test_wait_by_adit : (let h := (running 0 []).onCore 0 fun x => { x with dev := some ⟨.wait none false, 3, none⟩ }
    checks [!isHalted h 0, (h.core 0).pendErr.isNone, (after (.waitWake 0 true) h).g 0 3 == 1]) = true := by
  decide +kernel

theorem test_posted_to_host : (let h := port37.wr K.PCIE_STAT_UP 1
    let q : GReq := ⟨9, .fport 3 7, .pwrite, 0x1000, 64, 5, 1, 256 + 255⟩
    let w := h.onDie 3 fun x => { x with fports := [(7, { ({} : FPort) with outTags := [(255, 9)], waiting := [q], posted := [9] })] }
    let u := after (.fportPostedAccept 3 7 255) w
    let full := h.onDie 3 fun x => { x with secReqs := [(191, List.replicate 16 ⟨true, 0, 0, 0⟩)] }
    let held := h.onDie 3 fun x => { x with strata := .restore 0 0 false 0 false }
    checks [linkUp w, u.pcie.lastWrite == some (0x1000, 64, 5, 1), u.gal.reqs.isEmpty, (fport u 3 7).waiting.isEmpty,
      portsHeld held 3, (secWaiting (after (.sectorPortRequest 3 191 true 16383 7 1) held) 3 191).length == 1,
      decide (after (.sectorPortRequest 3 191 true 16383 7 1) full = full)]) = true := by
  decide +kernel

theorem test_own_doorbell : (let own (h : Hw) := ((queueOn 300 h).wr (K.SCHED_Q_CFG_OWNKIND 300) 2).wr (K.SCHED_Q_CFG_OWNIDX 300) 31
    let q : GReq := ⟨9, .fport 3 7, .pwrite, 0x800000 + 300 * 64, 64, 5, allOn 64, 1⟩
    let w := (own port37).onDie 3 fun x => { x with fports := [(7, { ({} : FPort) with outTags := [(1, 9)], waiting := [q], posted := [9] })] }
    let one := after (.fportCreditUpdate 3 7 300) w
    checks [owns w q.m 300 == (qKind w 300 == 2), isDoorbell q.addr == decide (doorbellQueue q.addr = 300),
      creditCopy one 3 7 300 == 64]) = true := by
  decide +kernel

theorem test_i2c_target : (let h := ((((die3 hw0).wr (K.OUTPOST_I2C_CFG_EN 3) 1).wr (K.OUTPOST_I2C_CFG_TARGET 3) 1).wr (K.OUTPOST_I2C_CFG_ADDR 3) 0x55)
    let a := after (.i2cByteTransfer 3 (.addressed 0x55)) h
    let b := after (.i2cByteTransfer 3 (.addressed 0x54)) h
    let r := after (.i2cByteTransfer 3 (.received 9)) a
    checks [!outStops h 3, (a.die 3).out.i2cTarget, !(b.die 3).out.i2cTarget, (r.die 3).out.i2cRx == [9],
      ((after (.i2cByteTransfer 3 (.received 9)) b).die 3).out.i2cRx.isEmpty,
      !((after (.i2cByteTransfer 3 .stopped) a).die 3).out.i2cTarget]) = true := by
  decide +kernel

theorem test_worn_page : (let h := { (die3 hw0).wr (K.OUTPOST_OWN_FLASH 3) 0 with ecount := [(3 * 128 + 127, 100000)] }
    let t := after (.flashErase 3 .design 8191) h
    checks [eraseCount h 3 127 == 100000, t.rd (K.OUTPOST_FLSTAT_STATUS 3) == 2, (t.die 3).out.flash.isNone]) = true := by
  decide +kernel

theorem test_rsc_and_delivery_refusals : (let off := link63 5
    checks [decide (after (.bortikFrameReceive 63 ⟨false, true, false, [], []⟩) (link63 1) = link63 1), lkState off 63 == 5,
      decide (after (.bortikFrameReceive 63 ⟨false, true, false, [.ack 3], []⟩) off = off),
      decide (after (.keyEpochSwitch 63 0) off = off), (linkSt (after (.keyEpochSwitch 63 1) (link63 6 { switchIn := some false })) 63).epochIn == 1,
      decide (after (.keyEpochSwitch 63 1) (link63 6) = link63 6),
      (after (.bortikFrameReceive 63 ⟨true, true, false, [], [7]⟩) (link63 6)).rd (K.BORTIK_LINK_CNT_UNCORR 63) == 1,
      (after (.bortikFrameReceive 63 ⟨true, true, false, [], [7]⟩) (link63 6)).rd (K.LANE_ERR_COUNT 63) == 7]) = true := by
  decide +kernel

theorem test_dram_errors : (let h := chan3 2
    let dev : LineErrs := [(0, 1)]
    let x8 := h.wr (K.DDR_C_GEOM_X8 3) 1
    let four : LineErrs := [(0, 1), (20, 1), (40, 1), (60, 1)]
    checks [(judgeLine h 3 []).1 == .clean, (judgeLine h 3 dev).1 == .corrected 1, (judgeLine x8 3 four).1 == .uncorrectable,
      !isDdr5 h, decide (after (.ddrRead 0 []) h = h), decide (after (.cipherRead 0 []) h = h)]) = true := by
  decide +kernel

theorem test_tap_access : (let h := hw0
    let a := after (.accessWrite 0 1) h
    checks [owner h == 0, owner a == 1, owner (after (.accessWrite 0 0) a) == 0, (after (.accessWrite 2 0x1234) a).rd K.ADIT_BUSADDR_ADDR == 0x1234]) =
    true := by
  decide +kernel

/-- The window's owner, with the window open. -/
def windowOpen : Hw := ((linked.wr K.PCIE_CTL_DBGWIN 1).wr K.ADIT_SESSION_OWNER 2)

theorem test_open_window : (let h := windowOpen
    let w := after (.debugWindowAccess true 0x200008 8 5) h
    let n := linked.wr K.PCIE_CTL_DBGWIN 1
    checks [hostReaches h 0, faceOwns h .window, !h.bit K.ADIT_STAT_BUSY, w.rd K.ADIT_STAT_BUSY == 1,
      (w.gal.reqs.map fun q => (q.kind, q.addr, q.size)) == [(.write, 8, 8)], !faceOwns n .window,
      (after (.debugWindowAccess false 0x200008 8 0) n).pcie.lastCpl == [(0, .ca, false, 0)],
      (after (.debugWindowAccess true 0x10 8 5) n).rd K.ADIT_STAT_REFUSED == 1,
      (after (.debugWindowAccess false 0 8 0) n).pcie.lastCpl == [(0, .sc, false, aditVal n 0)],
      decide (after (.debugWindowAccess false 0x400000 8 0) h = h)]) = true := by
  decide +kernel

theorem test_host_sizes : checks [decide (after (.pcieMemWrite 0 2 0 513 5 false) linked = linked),
    decide (after (.pcieMemRead 0 2 0 4097 1) linked = linked),
    match hostTarget linked 0 4 0 false with | .fail _ _ => true | _ => false,
    (after (.pcieMemRead 0 4 0 8 5) linked).pcie.lastCpl.length == 1] = true := by
  decide +kernel

theorem test_sleep : (let a2 := hw0.wr K.PWR_STAT_STATE 2
    let en := (a2.wr (K.BORTIK_LINK_CFG_EN 63) 1)
    checks [a2.dram.queue.isEmpty, !((after (.blockWake .dram false) (a2.wr K.PWR_STAT_AWAKE 2)).rd K.PWR_STAT_AWAKE).testBit 1,
      ((after (.blockWake .dram true) (atDram ⟨4, .core 5, .read, dramBase, 8, 0, 0, 0⟩ a2)).rd K.PWR_STAT_AWAKE).testBit 1,
      (after (.blockWake .lanes false) a2).bortik.asleep, linkEn en 63, lkState en 63 == lkOff,
      !(after (.blockWake .lanes true) { en with bortik := { en.bortik with asleep := true } }).bortik.asleep,
      decide (after (.tempSample 8 [0]) hw0 = hw0)]) = true := by
  decide +kernel

/-! ### What lanes, links and pins carry -/

/-- PRBS-15 repeats after 2^15 - 1 bits; its first bits from one set bit; a superframe carries its payload and even parity
(R113, R118). -/
theorem test_lane_stream : (let frame := superframe 1 16 ((List.range 16).map fun c => [c == 3])
    checks [prbsBits 0x4000 3 == [true, false, false], scramble 5 (scramble 5 [true, false, true]) == [true, false, true],
      payload 1 frame == (List.range 16).map fun c => [c == 3], framingBit (payload 1 frame) 0, parityErrors 1 frame == 0,
      frame.length == 512, superframeFits 30 16, !superframeFits 31 16]) = true := by
  decide +kernel

/-- An alignment block at step 1 begins with K28.5 in place of 0xF3, and a doorbell is three DATA blocks (R351, R353, R361). -/
theorem test_link_code : checks [(step1Chars true (alignBlock 2 1)).take 3 == [.k285, .data 0xA6, .data 0x5C],
    (step1Chars false (alignBlock 2 1)).take 1 == [.data 0xF3], (blockWords 0 (.doorbell 300 5 (desc1 1))).length == 3,
    (blockWords 0 (.ack 0xFFFF)) == [4 * 2 ^ 252 + 2 ^ 248 + 0xFFFF * 2 ^ 232], unprecode 2 (precode 2 [0, 1, 2, 3]) == [0, 1, 2, 3],
    pamLevel (pamIndex true false) == 3, pamLevel (pamIndex true true) == 1] = true := by
  decide +kernel

/-- Row 67 is CK and its balls at column 47 belong to die 2 (R499, R500). -/
theorem test_balls : checks [rowCode 67 == "CK".toList, rowCode 19 == "Y".toList, rowCode 20 == "AA".toList, quadrantDie 67 47 == 2,
    quadrantDie 46 46 == 0, quadrantDie 47 46 == 3, (ballGroups.map (·.2)).sum == 8464] = true := by
  decide +kernel

end Sys2Proof.Machine.Slice0
end

section
/-!
PROOF. The fields of an instruction word that is put together by its format (R175).
-/
namespace Sys2Proof.Machine

/-- Bits lo + n - 1 to lo of a word, as a number. -/
theorem wordField_toNat (w : BitVec 32) (lo n : Nat) : (wordField w lo n).toNat = w.toNat / 2 ^ lo % 2 ^ n := by
  simp [wordField, BitVec.extractLsb'_toNat, Nat.shiftRight_eq_div_pow]

theorem wordReg_val (w : BitVec 32) (lo : Nat) : (wordReg w lo).val = w.toNat / 2 ^ lo % 32 :=
  wordField_toNat w lo 5

section
variable {op f : Nat} (rd rs1 rs2 : Reg)

/-- A word of the A and D formats fits in 32 bits. -/
theorem toNat_wordA (ho : op < 128) (hf : f < 1024) :
    (BitVec.ofNat 32 (wordA op f rd rs1 rs2)).toNat = wordA op f rd rs1 rs2 := by
  rw [BitVec.toNat_ofNat]
  unfold wordA; omega

theorem opcode_wordA (ho : op < 128) (hf : f < 1024) :
    (wordField (BitVec.ofNat 32 (wordA op f rd rs1 rs2)) 0 7).toNat = op := by
  rw [wordField_toNat, toNat_wordA rd rs1 rs2 ho hf]
  unfold wordA; omega

theorem wordSel_wordA (ho : op < 128) (hf : f < 1024) :
    wordSel (BitVec.ofNat 32 (wordA op f rd rs1 rs2)) = f := by
  rw [wordSel, wordField_toNat, toNat_wordA rd rs1 rs2 ho hf]
  unfold wordA; omega

theorem wordRd_wordA (ho : op < 128) (hf : f < 1024) :
    wordRd (BitVec.ofNat 32 (wordA op f rd rs1 rs2)) = rd := by
  apply Fin.ext
  rw [wordRd, wordReg_val, toNat_wordA rd rs1 rs2 ho hf]
  unfold wordA; omega

theorem wordRs1_wordA (ho : op < 128) (hf : f < 1024) :
    wordRs1 (BitVec.ofNat 32 (wordA op f rd rs1 rs2)) = rs1 := by
  apply Fin.ext
  rw [wordRs1, wordReg_val, toNat_wordA rd rs1 rs2 ho hf]
  unfold wordA; omega

theorem wordRs2_wordA (ho : op < 128) (hf : f < 1024) :
    wordRs2 (BitVec.ofNat 32 (wordA op f rd rs1 rs2)) = rs2 := by
  apply Fin.ext
  rw [wordRs2, wordReg_val, toNat_wordA rd rs1 rs2 ho hf]
  unfold wordA; omega

variable (imm : BitVec 12)

/-- A word of the I format fits in 32 bits. -/
theorem toNat_wordI (ho : op < 128) (hf : f < 8) :
    (BitVec.ofNat 32 (wordI op f rd rs1 imm)).toNat = wordI op f rd rs1 imm := by
  rw [BitVec.toNat_ofNat]
  unfold wordI; omega

theorem opcode_wordI (ho : op < 128) (hf : f < 8) :
    (wordField (BitVec.ofNat 32 (wordI op f rd rs1 imm)) 0 7).toNat = op := by
  rw [wordField_toNat, toNat_wordI rd rs1 imm ho hf]
  unfold wordI; omega

theorem wordFunc3_wordI (ho : op < 128) (hf : f < 8) :
    wordFunc3 (BitVec.ofNat 32 (wordI op f rd rs1 imm)) = f := by
  rw [wordFunc3, wordField_toNat, toNat_wordI rd rs1 imm ho hf]
  unfold wordI; omega

/-- The part of the immediate that tells the shifts apart. -/
theorem shiftKind_wordI (ho : op < 128) (hf : f < 8) :
    (wordField (BitVec.ofNat 32 (wordI op f rd rs1 imm)) 26 6).toNat = imm.toNat / 64 := by
  rw [wordField_toNat, toNat_wordI rd rs1 imm ho hf]
  unfold wordI; omega

/-- The B format lays out its fields as the I format does, with rs2 in the place of rd. -/
theorem wordB_eq_wordI (op f : Nat) : wordB op f rs1 rs2 imm = wordI op f rs2 rs1 imm := rfl

end

end Sys2Proof.Machine
end

section
/-!
PROOF. What the ALU computes, in the words of R178 to R180.
-/
namespace Sys2Proof.Machine

theorem flag_slt (x y : Word) : flag (x.slt y) = if x.toInt < y.toInt then 1 else 0 := by
  simp [flag, BitVec.slt]

theorem flag_ult (x y : Word) : flag (x.ult y) = if x.toNat < y.toNat then 1 else 0 := by
  simp [flag, BitVec.ult]

theorem mul_eq_ofNat (x y : Word) : x * y = BitVec.ofNat 64 (x.toNat * y.toNat) :=
  BitVec.eq_of_toNat_eq (by simp)

/-- The quotient rounded toward zero is the signed division of bit vectors, -2^63 / -1 included. -/
theorem divVal_eq (x y : Word) : divVal x y = if y = 0 then BitVec.allOnes 64 else x.sdiv y := by
  have : BitVec.ofInt 64 (x.toInt.tdiv y.toInt) = x.sdiv y := by
    apply BitVec.eq_of_toInt_eq
    rw [BitVec.toInt_ofInt, BitVec.toInt_sdiv]
  rw [divVal, this]

theorem divuVal_eq (x y : Word) : divuVal x y = if y = 0 then BitVec.allOnes 64 else x / y := by
  have : BitVec.ofNat 64 (x.toNat / y.toNat) = x / y := by
    rw [← BitVec.toNat_udiv, BitVec.ofNat_toNat, BitVec.setWidth_eq]
  rw [divuVal, this]

/-- The remainder of a division by 0 is the dividend, as the signed remainder of bit vectors has it. -/
theorem remVal_eq (x y : Word) : remVal x y = x.srem y := by
  unfold remVal
  split
  case isTrue hy => rw [hy]; exact BitVec.srem_zero.symm
  case isFalse => rw [← BitVec.toInt_srem, BitVec.ofInt_toInt]

theorem remuVal_eq (x y : Word) : remuVal x y = x % y := by
  unfold remuVal
  split
  case isTrue hy => rw [hy]; exact BitVec.umod_zero.symm
  case isFalse => rw [← BitVec.toNat_umod, BitVec.ofNat_toNat, BitVec.setWidth_eq]

/-- The size of a positive number in bits is one more than the place of its highest set bit. -/
theorem size_eq_log2_succ {n : Nat} (hn : n ≠ 0) : n.size = n.log2 + 1 :=
  Nat.le_antisymm (Nat.size_le.2 Nat.lt_log2_self) (Nat.lt_size.2 (Nat.log2_self_le hn))

theorem clzVal_eq (x : Word) : clzVal x = BitVec.ofNat 64 (64 - x.toNat.size) := by
  unfold clzVal
  split
  case isTrue hx => subst hx; rfl
  case isFalse hx =>
    have hn : x.toNat ≠ 0 := fun h => hx (BitVec.eq_of_toNat_eq h)
    rw [size_eq_log2_succ hn, Nat.sub_succ', Nat.sub_right_comm]

theorem popcVal_eq (x : Word) : popcVal x = BitVec.ofNat 64 ((List.range 64).countP fun i => x.getLsbD i) := by
  rw [List.countP_eq_length_filter]; rfl

/-- The quotient of a division by 0 is all ones (R179). -/
theorem divVal_zero (x : Word) : divVal x 0 = 0xFFFFFFFFFFFFFFFF := rfl
theorem divuVal_zero (x : Word) : divuVal x 0 = 0xFFFFFFFFFFFFFFFF := rfl
/-- The remainder of a division by 0 is the dividend (R179). -/
theorem remVal_zero (x : Word) : remVal x 0 = x := rfl
theorem remuVal_zero (x : Word) : remuVal x 0 = x := rfl
/-- -2^63 / -1 is -2^63 again, with remainder 0 (R179). -/
theorem divVal_overflow : divVal 0x8000000000000000 0xFFFFFFFFFFFFFFFF = 0x8000000000000000 := by decide
theorem remVal_overflow : remVal 0x8000000000000000 0xFFFFFFFFFFFFFFFF = 0 := by decide

end Sys2Proof.Machine
end

section
/-!
PROOF. The ALU instructions, LUI, and the divides of R179: what they compute, and which words of their ops are illegal.
-/
namespace Sys2Proof.Machine

/-- The outcome o of an instruction of core c in state s: rd holds v, the pc stands at the next instruction, and nothing
else changed. -/
def Computes (o : Host.Outcome State Fault Refusal) (s : State) (c : Core) (rd : Reg) (v : Word) : Prop :=
  Ends o fun t => t.hw.g c rd = (if rd = 0 then 0 else v) ∧ t.hw.pc c = s.hw.pc c + 4 ∧ Untouched s t c [rd]

section
variable {s : State} {c : Core} {rd rs1 rs2 : Reg}

theorem computes_compute {w : Nat} {srcs : List Reg} {f : Hw → Word} (r : Ready s.hw c (plainIns w (rd :: srcs))) :
    Computes (doHw s fun h => compute h c w rd srcs f) s c rd (f (begun s.hw c)) := by
  obtain ⟨hrd, hpc, -⟩ := compute_ready (f := f) r
  exact ⟨_, rfl, hrd, hpc, compute_untouched r⟩

theorem computes_aluReg {func : Nat} (f : Word → Word → Word)
    (r : Ready s.hw c (plainIns (wordA 0x01 func rd rs1 rs2) [rd, rs1, rs2])) :
    Computes (doHw s fun h => aluReg h c func rd rs1 rs2 f) s c rd (f (s.hw.g c rs1) (s.hw.g c rs2)) := by
  simpa [aluReg] using computes_compute (f := fun h => f (h.g c rs1) (h.g c rs2)) r

theorem computes_aluImm {func : Nat} {imm : BitVec 12} (f : Word → Word → Word)
    (r : Ready s.hw c (plainIns (wordI 0x02 func rd rs1 imm) [rd, rs1])) :
    Computes (doHw s fun h => aluImm h c func rd rs1 imm f) s c rd (f (s.hw.g c rs1) (imm.signExtend 64)) := by
  simpa [aluImm] using computes_compute (f := fun h => f (h.g c rs1) (imm.signExtend 64)) r

theorem computes_shiftImm {kind : Nat} {sh : BitVec 6} (f : Word → Nat → Word)
    (r : Ready s.hw c (plainIns (wordI 0x02 6 rd rs1 (BitVec.ofNat 12 (kind * 2 ^ 10 + sh.toNat))) [rd, rs1])) :
    Computes (doHw s fun h => shiftImm h c kind rd rs1 sh f) s c rd (f (s.hw.g c rs1) sh.toNat) := by
  simpa [shiftImm] using computes_compute (f := fun h => f (h.g c rs1) sh.toNat) r

end

/-! ### The forms run as their rows say -/

theorem aluReg_congr {s : State} {c : Core} {func : Nat} {rd rs1 rs2 : Reg} {f g : Word → Word → Word}
    (e : ∀ x y, f x y = g x y) :
    doHw s (fun h => aluReg h c func rd rs1 rs2 f) = doHw s fun h => aluReg h c func rd rs1 rs2 g := by
  rw [funext₂ e]

theorem aluImm_congr {s : State} {c : Core} {func : Nat} {rd rs1 : Reg} {imm : BitVec 12} {f g : Word → Word → Word}
    (e : ∀ x y, f x y = g x y) :
    doHw s (fun h => aluImm h c func rd rs1 imm f) = doHw s fun h => aluImm h c func rd rs1 imm g := by
  rw [funext₂ e]

theorem exec_aluForm : ∀ f ∈ aluForms, ∀ (s : State) (c : Core) (rd rs1 rs2 : Reg),
    exec (f.1 c rd rs1 rs2) s = doHw s fun h => aluReg h c f.2.1 rd rs1 rs2 f.2.2 := by
  simp only [aluForms, List.forall_mem_cons]
  exact ⟨fun _ _ _ _ _ => rfl, fun _ _ _ _ _ => rfl, fun _ _ _ _ _ => rfl, fun _ _ _ _ _ => rfl, fun _ _ _ _ _ => rfl,
    fun _ _ _ _ _ => rfl, fun _ _ _ _ _ => rfl, fun _ _ _ _ _ => rfl,
    fun _ _ _ _ _ => aluReg_congr flag_slt, fun _ _ _ _ _ => aluReg_congr flag_ult,
    fun _ _ _ _ _ => aluReg_congr mul_eq_ofNat, fun _ _ _ _ _ => rfl, fun _ _ _ _ _ => rfl,
    fun _ _ _ _ _ => aluReg_congr divVal_eq, fun _ _ _ _ _ => aluReg_congr divuVal_eq,
    fun _ _ _ _ _ => aluReg_congr remVal_eq, fun _ _ _ _ _ => aluReg_congr remuVal_eq, by simp⟩

theorem exec_unaryForm : ∀ f ∈ unaryForms, ∀ (s : State) (c : Core) (rd rs1 : Reg),
    exec (f.1 c rd rs1) s = doHw s fun h => aluReg h c f.2.1 rd rs1 0 fun x _ => f.2.2 x := by
  simp only [unaryForms, List.forall_mem_cons]
  exact ⟨fun _ _ _ _ => aluReg_congr fun x _ => clzVal_eq x, fun _ _ _ _ => aluReg_congr fun x _ => popcVal_eq x, by simp⟩

theorem exec_immForm : ∀ f ∈ immForms, ∀ (s : State) (c : Core) (rd rs1 : Reg) (imm : BitVec 12),
    exec (f.1 c rd rs1 imm) s = doHw s fun h => aluImm h c f.2.1 rd rs1 imm f.2.2 := by
  simp only [immForms, List.forall_mem_cons]
  exact ⟨fun _ _ _ _ _ => rfl, fun _ _ _ _ _ => rfl, fun _ _ _ _ _ => rfl, fun _ _ _ _ _ => rfl,
    fun _ _ _ _ _ => aluImm_congr flag_slt, fun _ _ _ _ _ => aluImm_congr flag_ult, by simp⟩

theorem exec_shiftForm : ∀ f ∈ shiftForms, ∀ (s : State) (c : Core) (rd rs1 : Reg) (sh : BitVec 6),
    exec (f.1 c rd rs1 sh) s = doHw s fun h => shiftImm h c f.2.1 rd rs1 sh f.2.2 := by
  simp only [shiftForms, List.forall_mem_cons]
  exact ⟨fun _ _ _ _ _ => rfl, fun _ _ _ _ _ => rfl, fun _ _ _ _ _ => rfl, by simp⟩

/-! ### Illegal words -/

/-- A word of op 0x01 is illegal where its func code is that of no form, or that of a form with a single source beside
something else than 0 in rs2's place (R177, R178). -/
theorem decodeAlu_eq_none {c : Core} {w : BitVec 32} (hAlu : ∀ x ∈ aluForms, x.2.1 ≠ wordSel w)
    (hUnary : ∀ x ∈ unaryForms, x.2.1 = wordSel w → wordRs2 w ≠ 0) : decodeAlu c w = none := by
  simp only [aluForms, unaryForms, List.forall_mem_cons] at hAlu hUnary
  unfold decodeAlu
  simp only
  split
  case h_18 e => simp [legalIf, hUnary.1 e.symm]
  case h_19 e => simp [legalIf, hUnary.2.1 e.symm]
  case h_20 => rfl
  all_goals simp_all only [ne_eq, not_true_eq_false, false_and, and_false]

theorem legalWord_alu {f : Nat} {rd rs1 rs2 : Reg} (hf : f < 1024) :
    legalWord (wordA 0x01 f rd rs1 rs2) = (decodeAlu 0 (BitVec.ofNat 32 (wordA 0x01 f rd rs1 rs2))).isSome := by
  simp only [legalWord, decodeLegal, opcode_wordA rd rs1 rs2 (op := 0x01) (by omega) hf]

/-- A word of op 0x02 whose func3 R180 gives no instruction is illegal, and so is a shift of no kind. -/
theorem decodeImm_illegal {c : Core} {w : BitVec 32} (e : 7 ≤ wordFunc3 w ∨ wordFunc3 w = 6 ∧
    (wordField w 26 6).toNat ∉ [0x00, 0x10, 0x20]) : decodeImm c w = none := by
  unfold decodeImm
  simp only
  split
  case h_7 e6 =>
    obtain h7 | ⟨-, hk⟩ := e
    · omega
    · simp only [List.mem_cons, List.not_mem_nil, or_false, not_or] at hk
      split <;> simp_all only [not_true_eq_false, false_and, and_false]
  case h_8 => rfl
  all_goals omega

theorem legalWord_imm {f : Nat} {rd rs1 : Reg} {imm : BitVec 12} (hf : f < 8) :
    legalWord (wordI 0x02 f rd rs1 imm) = (decodeImm 0 (BitVec.ofNat 32 (wordI 0x02 f rd rs1 imm))).isSome := by
  simp only [legalWord, decodeLegal, opcode_wordI rd rs1 imm (op := 0x02) (by omega) hf]

/-- An immediate whose bits name no shift has none of the three shift codes in its upper half. -/
theorem no_shiftKind {i : Nat} (h : bits i 11 10 = 3 ∨ bits i 9 6 ≠ 0) : i / 64 ∉ [0x00, 0x10, 0x20] := by
  simp only [bits] at h
  simp only [List.mem_cons, List.not_mem_nil, or_false]
  omega

/-! ### The obligations -/

/-- Settles O9: each form runs as its row of the table, and another func code decodes to nothing. -/
theorem aluRegister : Obligations.AluRegister := by
  unfold Obligations.AluRegister
  refine ⟨fun f hf s c rd rs1 rs2 r => ?_, fun f hf s c rd rs1 r => ?_, fun f rd rs1 rs2 hAlu hUnary => ?_⟩
  · rw [exec_aluForm f hf]
    exact computes_aluReg f.2.2 r
  · rw [exec_unaryForm f hf]
    exact computes_aluReg (fun x _ => f.2.2 x) r
  · have sel := wordSel_wordA rd rs1 rs2 (op := 0x01) (by omega) f.isLt
    have src := wordRs2_wordA rd rs1 rs2 (op := 0x01) (by omega) f.isLt
    rw [legalWord_alu f.isLt, decodeAlu_eq_none (by rwa [sel]) (by rwa [sel, src])]
    rfl

/-- Settles O10: each form runs as its row of R180, and the shift codes beside the three kinds decode to nothing. -/
theorem aluImmediate : Obligations.AluImmediate := by
  unfold Obligations.AluImmediate
  refine ⟨fun f hf s c rd rs1 imm r => ?_, fun f hf s c rd rs1 sh r => ?_, fun s c rd imm r => ?_,
    fun f rd rs1 imm hf => ?_⟩
  · rw [exec_immForm f hf]
    exact computes_aluImm f.2.2 r
  · rw [exec_shiftForm f hf]
    exact computes_shiftImm f.2.2 r
  · exact computes_compute r
  · rw [legalWord_imm f.isLt, decodeImm_illegal]
    · rfl
    · rw [wordFunc3_wordI rd rs1 imm (by omega) f.isLt, shiftKind_wordI rd rs1 imm (by omega) f.isLt]
      rcases hf with rfl | ⟨rfl, h⟩
      · exact .inl (Nat.le_refl 7)
      · exact .inr ⟨rfl, no_shiftKind h⟩

/-- Settles O11: a divide runs like every ALU instruction, with the values R179 states. -/
theorem divideCorners : Obligations.DivideCorners := by
  unfold Obligations.DivideCorners
  intro s c rd rs1 rs2 r
  have div : Computes (exec (.div c rd rs1 rs2) s) s c rd (divVal (s.hw.g c rs1) (s.hw.g c rs2)) :=
    computes_aluReg divVal (r 0x018)
  have divu : Computes (exec (.divu c rd rs1 rs2) s) s c rd (divuVal (s.hw.g c rs1) (s.hw.g c rs2)) :=
    computes_aluReg divuVal (r 0x019)
  have rem : Computes (exec (.rem c rd rs1 rs2) s) s c rd (remVal (s.hw.g c rs1) (s.hw.g c rs2)) :=
    computes_aluReg remVal (r 0x01A)
  have remu : Computes (exec (.remu c rd rs1 rs2) s) s c rd (remuVal (s.hw.g c rs1) (s.hw.g c rs2)) :=
    computes_aluReg remuVal (r 0x01B)
  refine ⟨fun h0 => ?_, fun hx hy => ?_⟩
  · rw [h0, divVal_zero] at div
    rw [h0, divuVal_zero] at divu
    rw [h0, remVal_zero] at rem
    rw [h0, remuVal_zero] at remu
    simp only [List.forall_mem_cons]
    exact ⟨div, divu, rem, remu, by simp⟩
  · rw [hx, hy, divVal_overflow] at div
    rw [hx, hy, remVal_overflow] at rem
    simp only [List.forall_mem_cons]
    exact ⟨div, rem, by simp⟩

end Sys2Proof.Machine
end

section
/-!
PROOF. Branches, jumps and the return from the handler (R186, R187).
-/
namespace Sys2Proof.Machine

/-- A property of the next state that follows from one it is known to have. -/
theorem Ends.imp {o : Host.Outcome State Fault Refusal} {P Q : State → Prop} (h : Ends o P) (pq : ∀ t, P t → Q t) :
    Ends o Q :=
  Exists.imp (fun t ⟨e, p⟩ => ⟨e, pq t p⟩) h

/-- The end of an instruction changes its core only in that a step Adit asked for is over (R477). -/
theorem core_retire (h : Hw) (c : Core) :
    (retire h c).core c.val = h.core c.val ∨ (retire h c).core c.val = { h.core c.val with stepping := false } := by
  unfold retire endStep
  split
  · exact .inl rfl
  · split
    · exact .inr (by simp)
    · exact .inl rfl

@[simp] theorem lock_retire (h : Hw) (c : Core) : ((retire h c).core c.val).lock = (h.core c.val).lock := by
  rcases core_retire h c with e | e <;> rw [e]

@[simp] theorem icache_retire (h : Hw) (c : Core) : ((retire h c).core c.val).icache = (h.core c.val).icache := by
  rcases core_retire h c with e | e <;> rw [e]

@[simp] theorem mem_retire (h : Hw) (c : Core) : (retire h c).mem = h.mem := StaysIn.retire.mem

/-- A ready core outside any sequence runs the effect of the instruction and is done. -/
theorem runIns_barred {h h2 : Hw} {c : Core} {i : Ins} {act : Hw → Option Hw} (r : Ready h c i) (hb : i.lock = .barred)
    (ha : act (begun h c) = some h2) : runIns h c i act = retire h2 c := by
  rw [runIns_ready r ha, openSeq_of_barred r hb]
  rfl

section
variable {s : State} {c : Core} {i : Ins} {rd rs1 rs2 : Reg}

section
variable {u : Hw} {act : Hw → Option Hw} {dst : List Reg}

/-- An issued instruction whose effect stays in its core and writes only dst leaves the rest alone. -/
theorem untouched_runIns (r : Ready s.hw c i) (ha : act (begun s.hw c) = some u) (hs : StaysIn (begun s.hw c) u c)
    (hg : ∀ q, q ∉ dst → u.g c q = (begun s.hw c).g c q) : Untouched s (s.onHw fun h => runIns h c i act) c dst :=
  untouched_of (f := fun h => runIns h c i act) (.runIns r ha (StaysIn.begun.trans hs)) fun q hq => by
    rw [g_runIns r ha, hg q hq, Hw.g_begun]

theorem issue_ends (r : Ready s.hw c i) (ha : act (begun s.hw c) = some u) (hs : StaysIn (begun s.hw c) u c)
    (hg : ∀ q, q ∉ dst → u.g c q = (begun s.hw c).g c q) :
    Ends (doHw s fun h => runIns h c i act) fun t =>
      (∀ q, t.hw.g c q = u.g c q) ∧ t.hw.pc c = u.pc c ∧ Untouched s t c dst :=
  ⟨_, rfl, g_runIns r ha, pc_runIns r ha, untouched_runIns r ha hs hg⟩

end

/-! ### Branches -/

/-- A branch moves the pc in any case; its condition chooses how far. -/
theorem branch_eq (h : Hw) (cond : Nat) (off : BitVec 12) (taken : Word → Word → Bool) :
    branch h c cond rs1 rs2 off taken = runIns h c (plainIns (wordB 0x05 cond rs1 rs2 off) [rs1, rs2]) fun h =>
      some (h.setPc c (h.pc c + if taken (h.g c rs1) (h.g c rs2) then off.signExtend 64 * 4 else 4)) := by
  unfold branch
  congr 1
  funext h
  split <;> rfl

theorem branch_ends {cond : Nat} {off : BitVec 12} (taken : Word → Word → Bool)
    (r : Ready s.hw c (plainIns (wordB 0x05 cond rs1 rs2 off) [rs1, rs2])) :
    Ends (doHw s fun h => branch h c cond rs1 rs2 off taken) fun t =>
      t.hw.pc c = s.hw.pc c + (if taken (s.hw.g c rs1) (s.hw.g c rs2) then off.signExtend 64 * 4 else 4) ∧
      Untouched s t c [] := by
  simp only [branch_eq]
  refine Ends.imp (issue_ends r rfl (.setPc _) fun q _ => by simp) fun t ⟨_, hpc, hrest⟩ => ⟨?_, hrest⟩
  simpa using hpc

/-- Each branch tests its condition. -/
theorem exec_branchForm : ∀ f ∈ branchForms, ∃ taken : Word → Word → Bool,
    (∀ x y, taken x y = true ↔ f.2.2 x y) ∧ ∀ (s : State) (c : Core) (rs1 rs2 : Reg) (off : BitVec 12),
      exec (f.1 c rs1 rs2 off) s = doHw s fun h => branch h c f.2.1 rs1 rs2 off taken := by
  simp only [branchForms, List.forall_mem_cons]
  exact ⟨⟨fun x y => x == y, by simp, fun _ _ _ _ _ => rfl⟩, ⟨fun x y => x != y, by simp, fun _ _ _ _ _ => rfl⟩,
    ⟨fun x y => x.slt y, by simp [BitVec.slt], fun _ _ _ _ _ => rfl⟩,
    ⟨fun x y => !x.slt y, by simp [BitVec.slt], fun _ _ _ _ _ => rfl⟩,
    ⟨fun x y => x.ult y, by simp [BitVec.ult], fun _ _ _ _ _ => rfl⟩,
    ⟨fun x y => !x.ult y, by simp [BitVec.ult], fun _ _ _ _ _ => rfl⟩, by simp⟩

/-- Condition codes 6 and 7 name no branch. -/
theorem decodeBranch_eq_none {w : BitVec 32} (hf : 6 ≤ wordFunc3 w) : decodeBranch c w = none := by
  unfold decodeBranch
  simp only
  split
  case h_7 => rfl
  all_goals omega

theorem legalWord_branch {f : Nat} {off : BitVec 12} (hf : f < 8) :
    legalWord (wordB 0x05 f rs1 rs2 off) = (decodeBranch 0 (BitVec.ofNat 32 (wordB 0x05 f rs1 rs2 off))).isSome := by
  simp only [legalWord, decodeLegal, wordB_eq_wordI, opcode_wordI rs2 rs1 off (op := 0x05) (by omega) hf]

/-! ### Jumps -/

theorem jumpTo_fetchable {h : Hw} {t : Word} (hf : fetchable t.toNat = true) :
    jumpTo h c rd t = (h.setG c rd (h.pc c + 4)).setPc c t := by
  rw [jumpTo, if_pos hf]

/-- A jump to a fetchable target writes its link and goes there. -/
theorem jump_ends {target : Hw → Word} (r : Ready s.hw c i) (hf : fetchable (target (begun s.hw c)).toNat = true) :
    Ends (doHw s fun h => runIns h c i fun h => some (jumpTo h c rd (target h))) fun t =>
      t.hw.g c rd = (if rd = 0 then 0 else s.hw.pc c + 4) ∧ t.hw.pc c = target (begun s.hw c) ∧ Untouched s t c [rd] := by
  refine Ends.imp
    (issue_ends r (congrArg some (jumpTo_fetchable hf)) ((StaysIn.setG _ _).trans (.setPc _)) fun q hq => ?_)
    fun t ⟨hg, hpc, hrest⟩ => ⟨by simpa using hg rd, by simpa using hpc, hrest⟩
  rw [Hw.g_setPc, Hw.g_setG_ne _ _ (by simpa using hq)]

/-! ### TRET -/

/-- What TRET does (R187, R200): TACTIVE falls, the pc is EPC, and an interrupted sequence goes on. -/
def leaveHandler (h : Hw) (c : Core) : Hw :=
  ((h.wr (K.CORE_CAUSE_TACTIVE 0) 0).setPc c (BitVec.ofNat 64 (h.rd (K.CORE_EPC_EPC 0)))).onCore c.val
    fun x => { x with lock := x.lock.map fun l => { l with suspended := false } }

theorem exec_tret (s : State) (c : Core) : exec (.tret c) s =
    doHw s fun h => runIns h c ⟨wordI 0x06 2 0 0 0, [], .barred, true⟩ fun h => some (leaveHandler h c) := rfl

theorem pc_leaveHandler (h : Hw) (c : Core) :
    (leaveHandler h c).pc c = BitVec.ofNat 64 (h.rd (K.CORE_EPC_EPC 0)) := by
  simp [leaveHandler, Hw.pc, Hw.setPc]

theorem tactive_leaveHandler (h : Hw) (c : Core) : (leaveHandler h c).rd (K.CORE_CAUSE_TACTIVE 0) = 0 := by
  simp [leaveHandler, Hw.setPc]

theorem g_leaveHandler (h : Hw) (c : Core) (r : Reg) : (leaveHandler h c).g c r = h.g c r := by
  simp [leaveHandler, Hw.g, Hw.setPc]

theorem lock_leaveHandler (h : Hw) (c : Core) : ((leaveHandler h c).core c.val).lock =
    (h.core c.val).lock.map fun l => { l with suspended := false } := by
  simp [leaveHandler, Hw.setPc]

theorem mem_leaveHandler (h : Hw) (c : Core) : (leaveHandler h c).mem = h.mem := rfl

theorem tret_ends (r : Ready s.hw c ⟨wordI 0x06 2 0 0 0, [], .barred, true⟩) :
    Ends (exec (.tret c) s) fun t =>
      t.hw.pc c = BitVec.ofNat 64 (s.hw.rd (K.CORE_EPC_EPC 0)) ∧ t.hw.rd (K.CORE_CAUSE_TACTIVE 0) = 0 ∧
      (∀ q, t.hw.g c q = s.hw.g c q) ∧ (∀ l, (t.hw.core c.val).lock = some l → l.suspended = false) ∧
      t.hw.mem = s.hw.mem := by
  rw [exec_tret]
  refine ⟨_, rfl, ?_⟩
  simp only [State.onHw]
  rw [runIns_barred (act := fun h => some (leaveHandler h c)) r rfl rfl]
  refine ⟨?_, ?_, fun q => ?_, fun l hl => ?_, ?_⟩
  · rw [Hw.pc_retire, pc_leaveHandler, Hw.rd_begun]
  · rw [Hw.rd_retire _ _ (by decide), tactive_leaveHandler]
  · rw [Hw.g_retire, g_leaveHandler, Hw.g_begun]
  · rw [lock_retire, lock_leaveHandler, Option.map_eq_some_iff] at hl
    obtain ⟨l', -, rfl⟩ := hl
    rfl
  · rw [mem_retire, mem_leaveHandler]
    rfl

end

/-- Settles O16: a branch sets the pc by its condition, a jump goes to its target, and TRET leaves the handler. -/
theorem controlTransfer : Obligations.ControlTransfer := by
  unfold Obligations.ControlTransfer
  refine ⟨fun f hf s c rs1 rs2 off r => ?_, fun f rs1 rs2 off hf => ?_, fun s c rd off r hf => ?_,
    fun s c rd rs1 imm r hf => ?_, fun s c hc r => ?_⟩
  · obtain ⟨taken, htaken, hexec⟩ := exec_branchForm f hf
    obtain ⟨t, ht, hpc, hrest⟩ := branch_ends taken r
    rw [hexec]
    refine ⟨t, ht, fun hcond => ?_, fun hcond => ?_, hrest⟩
    · rw [hpc, if_pos ((htaken _ _).2 hcond)]
    · rw [hpc, if_neg fun e => hcond ((htaken _ _).1 e)]
  · rw [legalWord_branch f.isLt, decodeBranch_eq_none]
    · rfl
    · rwa [wordB_eq_wordI, wordFunc3_wordI rs2 rs1 off (by omega) f.isLt]
  · obtain ⟨t, ht, hrd, hpc, hrest⟩ := jump_ends (target := fun h => h.pc c + off.signExtend 64 * 4) (rd := rd) r
      (by rwa [Hw.pc_begun])
    exact ⟨t, ht, hrd, hpc.trans (by rw [Hw.pc_begun]), hrest⟩
  · obtain ⟨t, ht, hrd, hpc, hrest⟩ := jump_ends (target := fun h => h.g c rs1 + imm.signExtend 64 * 4) (rd := rd) r
      (by rwa [Hw.g_begun])
    exact ⟨t, ht, hrd, hpc.trans (by rw [Hw.g_begun]), hrest⟩
  · subst hc
    exact tret_ends r

end Sys2Proof.Machine
end

section
/-!
PROOF. FENCE (R195).
-/
namespace Sys2Proof.Machine

section
variable {s : State} {c : Core} {sel : Nat} {loads stores flush : Bool}

/-- A FENCE has to wait: loads or stores it names are outstanding. -/
def fenceBlocked (h : Hw) (c : Core) (loads stores : Bool) : Bool :=
  (loads && !loadsDone h c) || (stores && !storesDone h c)

theorem fenceBlocked_eq_false {h : Hw} (hl : loads = true → loadsDone h c = true)
    (hs : stores = true → storesDone h c = true) : fenceBlocked h c loads stores = false := by
  cases loads <;> cases stores <;> simp_all [fenceBlocked]

theorem fenceBlocked_eq_true {h : Hw} (hw : (loads = true ∧ loadsDone h c = false) ∨
    (stores = true ∧ storesDone h c = false)) : fenceBlocked h c loads stores = true := by
  simpa [fenceBlocked] using hw

/-- What a FENCE does to the instruction cache. -/
def fenceFlush (h : Hw) (c : Core) (flush : Bool) : Hw :=
  if flush then h.onCore c.val fun x => { x with icache := [] } else h

/-- The effect of a FENCE. -/
def fenceAct (c : Core) (loads stores flush : Bool) (h : Hw) : Option Hw :=
  if fenceBlocked h c loads stores then none else some (advance (fenceFlush h c flush) c)

theorem fence_eq (h : Hw) : fence h c sel loads stores flush =
    runIns h c (barredIns (wordA 0x17 sel 0 0 0) []) (fenceAct c loads stores flush) := rfl

theorem fenceAct_begun (h : Hw) : fenceAct c loads stores flush (begun h c) =
    if fenceBlocked h c loads stores then none else some (advance (fenceFlush (begun h c) c flush) c) := by
  simp [fenceAct, fenceBlocked]

theorem fenceFlush_staysIn (h : Hw) : StaysIn h (fenceFlush h c flush) c := by
  cases flush
  case false => exact .refl
  case true => exact .onCore (f := fun x => { x with icache := [] }) (fun _ => rfl) (fun _ => rfl) fun _ => rfl

@[simp] theorem g_fenceFlush (h : Hw) (q : Reg) : (fenceFlush h c flush).g c q = h.g c q := by
  cases flush <;> simp [fenceFlush, Hw.g]

@[simp] theorem pc_fenceFlush (h : Hw) : (fenceFlush h c flush).pc c = h.pc c := by
  cases flush <;> simp [fenceFlush, Hw.pc]

/-- A FENCE whose accesses are done moves the pc, and FENCE.RWI empties the instruction cache. -/
theorem fence_ends (r : Ready s.hw c (barredIns (wordA 0x17 sel 0 0 0) []))
    (hd : fenceBlocked s.hw c loads stores = false) :
    Ends (doHw s fun h => fence h c sel loads stores flush) fun t =>
      t.hw.pc c = s.hw.pc c + 4 ∧ Untouched s t c [] ∧ (flush = true → (t.hw.core c.val).icache = []) := by
  have ha : fenceAct c loads stores flush (begun s.hw c) = some (advance (fenceFlush (begun s.hw c) c flush) c) := by
    simp [fenceAct_begun, hd]
  refine ⟨_, rfl, (pc_runIns r ha).trans (by simp), ?_, fun hf => ?_⟩
  · exact untouched_runIns r ha ((fenceFlush_staysIn _).trans .advance) fun q _ => by simp
  · subst hf
    simp [State.onHw, fence_eq, runIns_barred r rfl ha, fenceFlush, advance, Hw.setPc]

/-- A FENCE that has to wait leaves the state as it is. -/
theorem fence_waits (r : Ready s.hw c (barredIns (wordA 0x17 sel 0 0 0) []))
    (hw : fenceBlocked s.hw c loads stores = true) : doHw s (fun h => fence h c sel loads stores flush) = .next s := by
  have ha : fenceAct c loads stores flush (begun s.hw c) = none := by simp [fenceAct_begun, hw]
  simp only [doHw, State.onHw, fence_eq, runIns_waits r ha]

end

theorem exec_fenceForm : ∀ f ∈ fenceForms, ∀ (s : State) (c : Core),
    exec (f.1 c) s = doHw s fun h => fence h c f.2.1 f.2.2.1 f.2.2.2.1 f.2.2.2.2 := by
  simp only [fenceForms, List.forall_mem_cons]
  exact ⟨fun _ _ => rfl, fun _ _ => rfl, fun _ _ => rfl, fun _ _ => rfl, by simp⟩

/-- A selector of op 0x17 below 16 is that of no FENCE, or stands beside a register that has to be g0: the word is illegal
(R177, R195). -/
theorem decodeSys_eq_none {c : Core} {w : BitVec 32} (hn : wordSel w < 16)
    (e : (∀ x ∈ fenceForms, x.2.1 ≠ wordSel w) ∨ wordRd w ≠ 0 ∨ wordRs1 w ≠ 0 ∨ wordRs2 w ≠ 0) :
    decodeSys c w = none := by
  simp only [fenceForms, List.forall_mem_cons] at e
  unfold decodeSys
  simp only
  split
  case h_1 h | h_2 h | h_3 h | h_4 h =>
    simp only [h, ne_eq, not_true_eq_false, false_and, and_false, false_or] at e
    simp only [legalIf, ite_eq_right_iff, reduceCtorEq, imp_false, Bool.and_eq_true, beq_iff_eq]
    tauto
  case h_12 => rfl
  all_goals omega

theorem legalWord_sys {n : Nat} {rd rs1 rs2 : Reg} (hn : n < 1024) :
    legalWord (wordA 0x17 n rd rs1 rs2) = (decodeSys 0 (BitVec.ofNat 32 (wordA 0x17 n rd rs1 rs2))).isSome := by
  simp only [legalWord, decodeLegal, opcode_wordA rd rs1 rs2 (op := 0x17) (by omega) hn]

end Sys2Proof.Machine
end

section
/-!
PROOF. The response to an instruction cache fill (R174).
-/
namespace Sys2Proof.Machine

section
variable {h h' : Hw} {c : Core}

/-- The pc lies in neither local range and can be fetched from. -/
structure FetchesHub (h : Hw) (c : Core) : Prop where
  fetchable : fetchable (h.pc c).toNat = true
  notLocal : ¬ localLo ≤ (h.pc c).toNat
  notRom : within (h.pc c).toNat romLo holeLo = false

/-- Only an instruction of a hub address can miss the instruction cache. -/
theorem fetchesHub_of_miss (e : fetch h c = (.miss, h')) : FetchesHub h c := by
  unfold fetch at e
  simp only at e
  split at e
  case isTrue => cases e
  case isFalse hf =>
    split at e
    case isTrue => split at e <;> cases e
    case isFalse hl =>
      split at e
      case isTrue => cases e
      case isFalse hr => exact ⟨by simpa using hf, hl, by simpa using hr⟩

/-- An instruction of a hub address whose line is in the instruction cache is there. -/
theorem fetch_of_cached (f : FetchesHub h c) (hi : (h.pc c).toNat / 64 * 64 ∈ (h.core c.val).icache) :
    fetch h c = (.ready, h) := by
  simp [fetch, f.fetchable, f.notLocal, f.notRom, hi]

/-- Filling a line puts it in front of the core's instruction cache, and spends at most a free value. -/
theorem fillLine_eq (h : Hw) (c : Core) (line : Nat) : ∃ (n : Nat) (l : List Nat),
    fillLine h c line = ({ h with freeCtr := n }).onCore c.val fun x => { x with icache := line :: l } := by
  unfold fillLine
  simp only
  split
  · exact ⟨h.freeCtr, _, rfl⟩
  · exact ⟨h.freeCtr + 1, _, rfl⟩

theorem fillReturns_ok (hm : mayIssue h c = true) (hq : (h.core c.val).pendErr = none) (e : fetch h c = (.miss, h)) :
    fillReturns h c .ok = fillLine h c ((h.pc c).toNat / 64 * 64) := by
  simp [fillReturns, hm, hq, e]

/-- A fill that fails is a trap at the pc: POISON or FETCH. -/
theorem fillReturns_fails {st : Status} (hm : mayIssue h c = true) (hq : (h.core c.val).pendErr = none)
    (e : fetch h c = (.miss, h)) (hst : st ≠ .ok) : ∃ fetching, fillReturns h c st =
      retire (trap h c (if st = .poison then cPoison else cFetch) (h.pc c) (h.pc c) false fetching) c := by
  cases st
  case ok => exact absurd rfl hst
  case poison => exact ⟨true, by simp [fillReturns, hm, hq, e]⟩
  all_goals exact ⟨false, by simp [fillReturns, hm, hq, e, trapHere]⟩

end
end Sys2Proof.Machine
end

section
/-!
PROOF. What a trap records in CAUSE and TVAL stands there when the trap has been taken (R191 to R193): nothing that the end
of a crew core's item does writes the page registers of a core but LOCKSTAT.
-/
namespace Sys2Proof.Machine

theorem kept_addRes (h : Hw) (q : Nat) (up : Bool) : Kept h (addRes h q up) := kept_setQueue ..

theorem kept_dropTicket (h : Hw) (t : Option Nat) : Kept h (dropTicket h t) := by
  cases t
  case none => exact .refl h
  case some => exact .csr rfl

theorem kept_cntLost (h : Hw) : Kept h (h.cnt K.SCHED_MISS_LOST) := .wr (by decide) _

theorem kept_sendFinal (h : Hw) (c : Nat) (i : Item) (e : Ending) : Kept h (sendFinal h c i e) := by
  unfold sendFinal
  split
  case h_1 => exact .refl h
  case h_2 | h_3 => exact kept_cntLost h
  case h_4 => exact (kept_addRes ..).trans (kept_place ..)
  case h_5 =>
    split
    · exact .refl h
    split
    · exact kept_cntLost h
    · exact kept_place ..

/-- A field of a core's register page below LOCKSTAT and above the identification: TVEC, EPC, CAUSE or TVAL. -/
def TrapField (k : Key) : Prop := 0x100000000 ≤ k.addr ∧ k.addr % 0x40 < 0x28 ∧ k.lo < 64

namespace TrapField
variable {k : Key}

theorem offSched (hk : TrapField k) : OffSched k := by
  obtain ⟨ha, -, hl⟩ := hk
  exact ⟨hl, by omega⟩

/-- No field of a register below the core pages, or of LOCKSTAT or a queue's STAT, is one of them. -/
theorem id_ne {j : Key} (hk : TrapField k) (hl : j.lo < 64) (hj : j.addr < 0x100000000 ∨ j.addr % 0x40 = 0x30) :
    k.id ≠ j.id := by
  obtain ⟨ha, ham, hkl⟩ := hk
  unfold Key.id
  omega

theorem rd_wr (hk : TrapField k) (h : Hw) {j : Key} (v : Nat) (hl : j.lo < 64)
    (hj : j.addr < 0x100000000 ∨ j.addr % 0x40 = 0x30) : (h.wr j v).rd k = h.rd k :=
  Hw.rd_wr_ne h (hk.id_ne hl hj) v

end TrapField

/-- Releasing claims writes no register. -/
theorem rd_releaseClaims (h : Hw) (c : Nat) (k : Key) : (releaseClaims h c).rd k = h.rd k := by
  unfold releaseClaims
  rw [Hw.rd_onCore]
  refine List.foldlRecOn (motive := fun t : Hw => t.rd k = h.rd k) _ _ rfl fun t ht n _ => ?_
  split
  · rwa [Hw.rd_onDie]
  · exact ht

section
variable {k : Key} (hk : TrapField k) (h : Hw)
include hk

theorem rd_programTraps (c : Core) (cause : Nat) : (programTraps h c cause).rd k = h.rd k := by
  unfold programTraps loadFails
  split
  · split
    · split
      · rfl
      · exact hk.rd_wr _ _ (by decide) (.inl (by decide))
    · rfl
  · rfl

theorem rd_endStep (c : Nat) : (endStep h c).rd k = h.rd k := by
  unfold endStep
  split
  · exact hk.rd_wr _ _ (by decide) (.inl (by decide))
  · rfl

theorem rd_releasePrio (c : Nat) : (releasePrio h c).rd k = h.rd k := by
  unfold releasePrio
  rw [(kept_flushHeld _).rd k hk.offSched]
  exact hk.rd_wr h (j := K.CORE_LOCKSTAT_PRIO c) 0 (by simp [K.CORE_LOCKSTAT_PRIO])
    (.inr (by simp [K.CORE_LOCKSTAT_PRIO]; omega))

/-- The counters of a missed deadline are no such field. -/
theorem rd_countMiss (late : Bool) (q : Nat) :
    (if late then (h.cnt (K.SCHED_Q_STAT_MISS q)).cnt K.SCHED_MISS_MISS else h).rd k = h.rd k := by
  split
  · refine (hk.rd_wr _ (j := K.SCHED_MISS_MISS) _ (by decide) (.inl (by decide))).trans ?_
    exact hk.rd_wr _ (j := K.SCHED_Q_STAT_MISS q) _ (by simp [K.SCHED_Q_STAT_MISS])
      (.inr (by simp [K.SCHED_Q_STAT_MISS]))
  · rfl

theorem rd_judgeDeadline (c : Nat) : (judgeDeadline h c).rd k = h.rd k := by
  unfold judgeDeadline
  split
  · split
    · exact rd_countMiss hk _ _ _
    · rfl
  · rfl

theorem rd_endItem {c : Nat} (hc : c < 64) (e : Ending) : (endItem h c e).rd k = h.rd k := by
  unfold endItem
  simp only
  split
  · exact rd_judgeDeadline hk h c
  · rw [(kept_dispatch _).rd k hk.offSched, Hw.rd_setCore,
      hk.rd_wr (j := K.CREW_CORE_ITEM_BUSY c) _ _ (by simp [K.CREW_CORE_ITEM_BUSY])
        (.inl (by simp [K.CREW_CORE_ITEM_BUSY]; omega)),
      (kept_dropTicket _ _).rd k hk.offSched, (kept_sendFinal ..).rd k hk.offSched, rd_judgeDeadline hk]

theorem rd_tryEnd (c : Core) : (tryEnd h c).rd k = h.rd k := by
  unfold tryEnd
  split
  · split
    · rw [rd_endItem hk _ c.isLt, rd_releasePrio hk, rd_releaseClaims, rd_endStep hk]
    · rfl
  · rfl

theorem rd_startEnd (c : Core) (e : Ending) : (startEnd h c e).rd k = h.rd k := by
  unfold startEnd
  rw [rd_tryEnd hk, hk.rd_wr (j := K.CORE_LOCKSTAT_OPEN c.val) _ _ (by simp [K.CORE_LOCKSTAT_OPEN])
    (.inr (by simp [K.CORE_LOCKSTAT_OPEN]; omega)), rd_releasePrio hk, Hw.rd_onCore, rd_releaseClaims]

theorem rd_logTrap (c : Core) (cause : Nat) (tval epc : Word) : (logTrap h c cause tval epc).rd k = h.rd k :=
  Hw.rd_logErr _ _ _ _ _ _ _ hk.offSched

end

theorem trapField_tactive : TrapField (K.CORE_CAUSE_TACTIVE 0) := by simp [TrapField, K.CORE_CAUSE_TACTIVE]
theorem trapField_code (c : Nat) : TrapField (K.CORE_CAUSE_CODE c) := by
  simp [TrapField, K.CORE_CAUSE_CODE]; omega
theorem trapField_tval (c : Nat) : TrapField (K.CORE_TVAL_TVAL c) := by
  simp [TrapField, K.CORE_TVAL_TVAL]; omega

/-- A trap leaves its record as it wrote it: on the foreman beside TACTIVE, on a crew core until the item has ended. -/
theorem rd_trap {h : Hw} {c : Core} {k : Key} (hk : TrapField k) (hne : k.id ≠ (K.CORE_CAUSE_TACTIVE 0).id)
    (ht : c = 0 → h.rd (K.CORE_CAUSE_TACTIVE 0) = 0) (cause : Nat) (tval epc : Word) (imprecise fetching : Bool) :
    (trap h c cause tval epc imprecise fetching).rd k =
      (recordTrap (programTraps h c cause) c cause tval epc imprecise fetching).rd k := by
  unfold trap
  simp only
  split
  case isTrue hf =>
    have hc : c = 0 := Fin.ext (by simpa [isForeman] using hf)
    have hb : (programTraps h c cause).bit (K.CORE_CAUSE_TACTIVE 0) = false := by
      simp [Hw.bit, rd_programTraps trapField_tactive, ht hc]
    rw [hb, if_neg Bool.false_ne_true, Hw.rd_onCore, Hw.rd_wr_ne _ hne]
  case isFalse => rw [rd_startEnd hk, rd_logTrap hk]

theorem code_recordTrap (h : Hw) (c : Core) (cause : Nat) (tval epc : Word) (imprecise fetching : Bool) :
    (recordTrap h c cause tval epc imprecise fetching).rd (K.CORE_CAUSE_CODE c.val) = cause % 64 := by
  simp only [recordTrap, Hw.wrB]
  rw [Hw.rd_wr_ne _ (by simp [Key.id, K.CORE_CAUSE_CODE, K.CORE_CAUSE_FETCH]),
    Hw.rd_wr_ne _ (by simp [Key.id, K.CORE_CAUSE_CODE, K.CORE_CAUSE_IMPRECISE]), Hw.rd_wr_self]
  rfl

theorem tval_recordTrap (h : Hw) (c : Core) (cause : Nat) (tval epc : Word) (imprecise fetching : Bool) :
    (recordTrap h c cause tval epc imprecise fetching).rd (K.CORE_TVAL_TVAL c.val) = tval.toNat := by
  simp only [recordTrap, Hw.wrB]
  rw [Hw.rd_wr_ne _ (by simp [Key.id, K.CORE_TVAL_TVAL, K.CORE_CAUSE_FETCH]; omega),
    Hw.rd_wr_ne _ (by simp [Key.id, K.CORE_TVAL_TVAL, K.CORE_CAUSE_IMPRECISE]; omega),
    Hw.rd_wr_ne _ (by simp [Key.id, K.CORE_TVAL_TVAL, K.CORE_CAUSE_CODE]), Hw.rd_wr_self]
  exact Nat.mod_eq_of_lt tval.isLt

/-- The foreman's trap sets TACTIVE, which is neither its CODE nor a TVAL. -/
theorem code_trap {h : Hw} {c : Core} (ht : c = 0 → h.rd (K.CORE_CAUSE_TACTIVE 0) = 0) (cause : Nat) (tval epc : Word)
    (imprecise fetching : Bool) :
    (trap h c cause tval epc imprecise fetching).rd (K.CORE_CAUSE_CODE c.val) = cause % 64 := by
  rw [rd_trap (trapField_code _) (by simp [Key.id, K.CORE_CAUSE_CODE, K.CORE_CAUSE_TACTIVE]; omega) ht,
    code_recordTrap]

theorem tval_trap {h : Hw} {c : Core} (ht : c = 0 → h.rd (K.CORE_CAUSE_TACTIVE 0) = 0) (cause : Nat) (tval epc : Word)
    (imprecise fetching : Bool) :
    (trap h c cause tval epc imprecise fetching).rd (K.CORE_TVAL_TVAL c.val) = tval.toNat := by
  rw [rd_trap (trapField_tval _) (by simp [Key.id, K.CORE_TVAL_TVAL, K.CORE_CAUSE_TACTIVE]; omega) ht,
    tval_recordTrap]

end Sys2Proof.Machine
end

section
/-!
PROOF. FENCE and the instruction cache: the obligation.
-/
namespace Sys2Proof.Machine

section
variable {s : State} {c : Core}

/-- The line the core waits for comes: it is in the cache, the instruction is there, and nothing else has changed. -/
theorem fill_ok_ends (hm : mayIssue s.hw c = true) (hq : (s.hw.core c.val).pendErr = none)
    (e : fetch s.hw c = (.miss, s.hw)) :
    Ends (exec (.icacheFillResponse c .ok) s) fun t =>
      (s.hw.pc c).toNat / 64 * 64 ∈ (t.hw.core c.val).icache ∧ fetch t.hw c = (.ready, t.hw) ∧ t.hw.pc c = s.hw.pc c ∧
      (∀ r, t.hw.g c r = s.hw.g c r) ∧ t.hw.mem = s.hw.mem := by
  obtain ⟨n, l, hfill⟩ := fillLine_eq s.hw c ((s.hw.pc c).toNat / 64 * 64)
  have ht : (s.onHw fun h => fillReturns h c .ok).hw = ({ s.hw with freeCtr := n }).onCore c.val fun x =>
      { x with icache := (s.hw.pc c).toNat / 64 * 64 :: l } := (fillReturns_ok hm hq e).trans hfill
  have hpc : (s.onHw fun h => fillReturns h c .ok).hw.pc c = s.hw.pc c := by
    rw [ht, Hw.pc, Hw.core_onCore_self]; rfl
  have hi : (s.hw.pc c).toNat / 64 * 64 ∈ ((s.onHw fun h => fillReturns h c .ok).hw.core c.val).icache := by
    rw [ht, Hw.core_onCore_self]; exact List.mem_cons_self
  have hub := fetchesHub_of_miss e
  refine ⟨_, rfl, hi, fetch_of_cached ?_ (by rwa [hpc]), hpc, fun r => ?_, ?_⟩
  · exact ⟨by rw [hpc]; exact hub.fetchable, by rw [hpc]; exact hub.notLocal, by rw [hpc]; exact hub.notRom⟩
  · rw [ht, Hw.g, Hw.core_onCore_self]; rfl
  · rw [ht]; rfl

/-- A fill that fails traps with the pc as TVAL. -/
theorem fill_fails_ends {st : Status} (hm : mayIssue s.hw c = true) (hq : (s.hw.core c.val).pendErr = none)
    (e : fetch s.hw c = (.miss, s.hw)) (hst : st ≠ .ok) (ht : c = 0 → s.hw.rd (K.CORE_CAUSE_TACTIVE 0) = 0) :
    Ends (exec (.icacheFillResponse c st) s) fun t =>
      t.hw.rd (K.CORE_CAUSE_CODE c.val) = (if st = .poison then 0x07 else 0x03) ∧
      t.hw.rd (K.CORE_TVAL_TVAL c.val) = (s.hw.pc c).toNat := by
  obtain ⟨fetching, hfail⟩ := fillReturns_fails hm hq e hst
  have notHalted {k : Key} (hk : TrapField k) : k.id ≠ K.ADIT_HALTED_CORES.id := hk.id_ne (by decide) (.inl (by decide))
  refine ⟨_, rfl, ?_, ?_⟩
  · simp only [State.onHw, hfail]
    rw [Hw.rd_retire _ _ (notHalted (trapField_code _)), code_trap ht]
    split <;> rfl
  · simp only [State.onHw, hfail]
    rw [Hw.rd_retire _ _ (notHalted (trapField_tval _)), tval_trap ht]

end

/-- Settles O18: a FENCE goes on once nothing blocks it, and a fill brings the line of the pc or traps there. -/
theorem fencesAndCache : Obligations.FencesAndCache := by
  unfold Obligations.FencesAndCache
  refine ⟨fun f hf s c r => ⟨fun hl hs => ?_, fun hw => ?_⟩, fun n rd rs1 rs2 h => ?_,
    fun _ _ => fill_ok_ends, fun _ _ _ => fill_fails_ends⟩
  · rw [exec_fenceForm f hf]
    exact fence_ends r (fenceBlocked_eq_false hl hs)
  · rw [exec_fenceForm f hf]
    exact fence_waits r (fenceBlocked_eq_true hw)
  · have hn : n.val < 1024 := by omega
    have sel := wordSel_wordA rd rs1 rs2 (op := 0x17) (by omega) hn
    rw [legalWord_sys hn, decodeSys_eq_none (by rw [sel]; exact n.isLt)]
    · rfl
    · rwa [sel, wordRd_wordA rd rs1 rs2 (by omega) hn, wordRs1_wordA rd rs1 rs2 (by omega) hn,
        wordRs2_wordA rd rs1 rs2 (by omega) hn]

end Sys2Proof.Machine
end

section
/-!
PROOF. How a device operation ends (R206, R207): what its operand is, what its result word does, and what the issue logic
leaves alone.
-/
namespace Sys2Proof.Machine

/-- A fold of steps that each leave a part of the device alone leaves it alone. -/
theorem foldl_keeps {α β : Type} (part : Hw → β) {f : Hw → α → Hw} {l : List α}
    (hf : ∀ h, ∀ x ∈ l, part (f h x) = part h) (h : Hw) : part (l.foldl f h) = part h :=
  List.foldlRecOn (motive := fun t => part t = part h) l f rfl fun t ht x hx => (hf t x hx).trans ht

/-! ### Operands -/

section
variable {m : Mem} {a n : Nat} (hc : (m.seen a n).all (fun x => x.2 == .clean) = true)
include hc

/-- Clean bytes are read as they are stored. -/
theorem fixedN_of_clean : m.fixedN a n = m.readN a n := by
  simp only [List.all_eq_true, Mem.seen, List.forall_mem_map, beq_iff_eq] at hc
  unfold Mem.fixedN Mem.readN Mem.seen
  rw [List.map_map]
  refine congrArg ofBytes (List.map_congr_left fun i hi => ?_)
  simp [Mem.value, hc i hi]

theorem badBytes_of_clean : badBytes (m.seen a n) = [] := by
  simp only [List.all_eq_true, beq_iff_eq] at hc
  simp only [badBytes, List.map_eq_nil_iff, List.filter_eq_nil_iff]
  intro x hx
  simp [hc x hx]

theorem deadBytes_of_clean : deadBytes (m.seen a n) = [] := by
  simp only [List.all_eq_true, beq_iff_eq] at hc
  simp only [deadBytes, List.map_eq_nil_iff, List.filter_eq_nil_iff]
  intro x hx
  simp [hc x hx]

end

/-- A read that finds clean bytes counts and logs nothing. -/
theorem memRead_of_clean {h : Hw} {a n : Nat} (hc : (h.mem.seen a n).all (fun x => x.2 == .clean) = true) (who : Nat) :
    memRead h who a n = (h.mem.readN a n, false, h) := by
  have hcount : countRead h who a n = h := by
    unfold countRead
    split
    · rfl
    · simp [badBytes_of_clean hc, deadBytes_of_clean hc]
  simp [memRead, fixedN_of_clean hc, deadBytes_of_clean hc, hcount]

/-- An operation whose operand may be read and is clean goes on with its value. -/
theorem withOperand_of_operandIs {h : Hw} {c : Core} {a n align v : Nat} {hub : Bool} (o : OperandIs h c a n align hub v)
    (f : Hw → Nat → Hw) : withOperand h c a n align hub f = f h v := by
  obtain ⟨p, hp, hclean, rfl⟩ := o
  simp [withOperand, readOperand, hp, memRead_of_clean hclean]

/-! ### Results -/

namespace StaysIn
variable {h t : Hw} {c : Core} (st : StaysIn h t c)
include st

theorem sched : t.sched = h.sched := by obtain ⟨-, e, -⟩ := st.rest; exact e
theorem seam : t.seam = h.seam := by obtain ⟨-, -, -, e, -⟩ := st.rest; exact e
theorem keys : t.keys = h.keys := by obtain ⟨-, -, -, -, -, -, -, e, -⟩ := st.rest; exact e

theorem queue (q : Nat) : t.queue q = h.queue q := by rw [Hw.queue, st.sched, Hw.queue]
theorem seamSt (k : Nat) : t.seamSt k = h.seamSt k := by rw [Hw.seamSt, st.seam, Hw.seamSt]

end StaysIn

@[simp] theorem gv_begun (h : Hw) (c : Core) (r : Reg) : gv (begun h c) c r = (h.g c r).toNat := by simp [gv]

section
variable {s : State} {c : Core} {w : Nat} {used : List Reg} {priv : Bool} {act : Hw → Option Hw} {u : Hw} {rd : Reg} {v : Nat}

/-- A device operation that ends with a status word: rd holds it, the pc has moved on, and the rest of the device is as the
operation's effect u has left it. -/
theorem devOp_status (r : DevReady s.hw c w used priv) (ha : act (begun s.hw c) = some (status u c rd v)) :
    Ends (doHw s fun h => devOp h c w used priv act) fun t =>
      t.hw.g c rd = (if rd = 0 then 0 else BitVec.ofNat 64 v) ∧ t.hw.pc c = u.pc c + 4 ∧ StaysIn u t.hw c := by
  refine ⟨_, rfl, ?_⟩
  simp only [State.onHw]
  rw [devOp_ready r ha]
  exact ⟨by simp [status, result], by simp [status, result], (StaysIn.result _ _).trans .retire⟩

/-- A device operation whose effect does not move the pc answers its status word. -/
theorem devOp_answers (r : DevReady s.hw c w used priv) (hp : u.pc c = s.hw.pc c)
    (ha : act (begun s.hw c) = some (status u c rd v)) :
    Ends (doHw s fun h => devOp h c w used priv act) fun t => Answers s t c rd v ∧ StaysIn u t.hw c :=
  Ends.imp (devOp_status r ha) fun _ ⟨hg, hpc, hrest⟩ => ⟨⟨hg, by rw [hpc, hp]⟩, hrest⟩

/-- A device operation without an effect answers its status word and changes nothing else. -/
theorem devOp_only_answers (r : DevReady s.hw c w used priv)
    (ha : act (begun s.hw c) = some (status (begun s.hw c) c rd v)) :
    Ends (doHw s fun h => devOp h c w used priv act) fun t => Answers s t c rd v ∧ StaysIn s.hw t.hw c :=
  Ends.imp (devOp_answers r (Hw.pc_begun _ _) ha) fun _ ⟨hans, hrest⟩ => ⟨hans, StaysIn.begun.trans hrest⟩

end

end Sys2Proof.Machine
end

section
/-!
PROOF. Writes of the hub's own blocks that no priority reservation holds back (R200, R202), and stores out of test mode.
-/
namespace Sys2Proof.Machine

section
variable (h : Hw) (who : Option Nat) (a n : Nat)

@[simp] theorem mem_touchLines : (touchLines h who a n).mem = h.mem :=
  foldl_keeps Hw.mem (fun _ _ _ => by split <;> rfl) h
@[simp] theorem sched_touchLines : (touchLines h who a n).sched = h.sched :=
  foldl_keeps Hw.sched (fun _ _ _ => by split <;> rfl) h
@[simp] theorem csr_touchLines : (touchLines h who a n).csr = h.csr :=
  foldl_keeps Hw.csr (fun _ _ _ => by split <;> rfl) h

/-- A core's own write tells every core but the writer. -/
theorem core_touchLines_self (c : Nat) : (touchLines h (some c) a n).core c = h.core c := by
  refine foldl_keeps (fun t => t.core c) (fun t e _ => ?_) h
  by_cases hc : some c = some e.1
  · simp [hc]
  · simpa [hc] using Hw.core_setCore_ne t (fun e' => hc (congrArg some e')) _

end

section
variable {h : Hw} {who : Option Nat} {a n : Nat}

/-- A write that nothing holds back reaches its memory. -/
theorem hubWrite_eq (hp : prioHolds h who a n = false) (data be : Nat) :
    hubWrite h who a n data be = touchLines { h with mem := h.mem.writeN a n data be } who a n := by
  simp [hubWrite, tryWrite, hp, performWrite, HeldWrite.store]

/-- Out of test mode a core's store is a write with computed check bits. -/
theorem storeBytes_eq {c : Core} (ht : h.bit K.ERR_TEST_EN = false) (hp : prioHolds h (some c.val) a n = false)
    (data be : Nat) : storeBytes h (.core c) a n data be =
      touchLines { h with mem := h.mem.writeN a n data be } (some c.val) a n := by
  simp [storeBytes, testHits, ht, hubWrite_eq hp]

/-- A value read from a table is its default or stands in the table. -/
theorem SMap.get_eq_or_mem {α : Type} (m : SMap α) (k : Nat) (d : α) : SMap.get m k d = d ∨ (k, SMap.get m k d) ∈ m := by
  induction m with
  | nil => exact .inl rfl
  | cons e r ih =>
    obtain ⟨j, v⟩ := e
    by_cases hk : j = k
    · simp [SMap.get, hk]
    · simpa [SMap.get, hk, Ne.symm hk] using ih

/-- What stands in a table after a write stood there before, or is what was written. -/
theorem SMap.mem_set {α : Type} [DecidableEq α] {m : SMap α} {k : Nat} {v d : α} {e : Nat × α}
    (he : e ∈ SMap.set m k v d) : e = (k, v) ∨ e ∈ m := by
  unfold SMap.set at he
  split at he
  · exact .inr (SMap.mem_of_mem_erase he)
  · exact (SMap.mem_ins he).imp_right SMap.mem_of_mem_erase

/-- Whether a priority reservation covers a range depends on PRIO and the sequences of the cores alone. -/
theorem prioHolds_congr {g h : Hw} (hc : g.cores = h.cores) (hp : ∀ c, g.rd (K.CORE_LOCKSTAT_PRIO c) = h.rd (K.CORE_LOCKSTAT_PRIO c)) :
    prioHolds g who a n = prioHolds h who a n := by
  simp [prioHolds, hc, Hw.bit, hp]

/-- A core that leaves its sequence, or keeps it as it is, covers nothing more. -/
theorem prioHolds_setCore {c : Nat} {x : CoreSt} (hx : x.lock = none ∨ x.lock = (h.core c).lock)
    (hp : prioHolds h who a n = false) : prioHolds (h.setCore c x) who a n = false := by
  simp only [prioHolds, List.any_eq_false] at hp ⊢
  intro e he
  obtain rfl | he := SMap.mem_set he
  · obtain hx | hx := hx
    · simp [hx]
    · obtain hd | hm := SMap.get_eq_or_mem h.cores c {}
      · have hn : (h.core c).lock = none := congrArg CoreSt.lock hd
        simp [hx, hn]
      · simp only [hx]
        exact hp _ hm
  · exact hp e he

theorem prioHolds_begun {c : Core} (hp : prioHolds h who a n = false) : prioHolds (begun h c) who a n = false :=
  prioHolds_setCore (.inr rfl) hp

end

end Sys2Proof.Machine
end

section
/-!
PROOF. What the dispatch rule (R257 to R259) can do: entries leave queues with automatic dispatch, and cores take up items.
-/
namespace Sys2Proof.Machine

/-! ### One dispatch -/

/-- The register fields that show the item of a core. -/
def itemKeys (c : Nat) : List Key :=
  [K.CREW_CORE_ITEM_BUSY c, K.CREW_CORE_ITEM_LEVEL c, K.CREW_CORE_ITEM_QUEUE c, K.CREW_CORE_ITEM_GEN c,
    K.CREW_CORE_ITEM_TICKET c, K.CREW_CORE_BURN_COUNT c, K.CREW_CORE_BURN_LIMIT c]

/-- Write fields in order. -/
def writeFields (h : Hw) (l : List (Key × Nat)) : Hw := l.foldl (fun h e => h.wr e.1 e.2) h

/-- A dispatch removes the entry from its queue, may reserve a reply credit, and loads a core that is in no sequence. -/
theorem dispatchTo_eq (h : Hw) (q : Nat) (e : QEntry) (c : Nat) : ∃ (u : Hw) (x : CoreSt) (vs : List Nat),
    (u = removeSlot h q e.slot ∨ ∃ r, u = addRes (removeSlot h q e.slot) r true) ∧ x.lock = none ∧
    dispatchTo h q e c = writeFields (u.setCore c x) ((itemKeys c).zip vs) := by
  unfold dispatchTo
  simp only
  split
  · exact ⟨_, _, [_, _, _, _, _, _, _], .inl rfl, rfl, rfl⟩
  · split
    · exact ⟨_, _, [_, _, _, _, _, _, _], .inl rfl, rfl, rfl⟩
    · exact ⟨_, _, [_, _, _, _, _, _, _], .inr ⟨_, rfl⟩, rfl, rfl⟩

/-- A register field outside HUB.CREW. -/
def OffCrew (k : Key) : Prop := k.lo < 64 ∧ (k.addr < 0x800000 ∨ 0x801000 ≤ k.addr)

theorem id_ne_itemKeys {k j : Key} {c : Nat} (hk : OffCrew k) (hc : c < 64) (hj : j ∈ itemKeys c) : k.id ≠ j.id := by
  have hcrew : j.lo < 64 ∧ 0x800000 ≤ j.addr ∧ j.addr < 0x801000 := by
    simp only [itemKeys, List.mem_cons, List.not_mem_nil, or_false] at hj
    rcases hj with rfl | rfl | rfl | rfl | rfl | rfl | rfl <;>
      simp [K.CREW_CORE_ITEM_BUSY, K.CREW_CORE_ITEM_LEVEL, K.CREW_CORE_ITEM_QUEUE, K.CREW_CORE_ITEM_GEN,
        K.CREW_CORE_ITEM_TICKET, K.CREW_CORE_BURN_COUNT, K.CREW_CORE_BURN_LIMIT] <;> omega
  obtain ⟨hlo, haddr⟩ := hk
  unfold Key.id
  omega

section
variable (h : Hw) (l : List (Key × Nat))

@[simp] theorem mem_writeFields : (writeFields h l).mem = h.mem := by
  unfold writeFields; exact foldl_keeps Hw.mem (fun t _ _ => Hw.wr_mem t _ _) h
@[simp] theorem sched_writeFields : (writeFields h l).sched = h.sched := by
  unfold writeFields; exact foldl_keeps Hw.sched (fun t _ _ => Hw.wr_sched t _ _) h
@[simp] theorem cores_writeFields : (writeFields h l).cores = h.cores := by
  unfold writeFields; exact foldl_keeps Hw.cores (fun t _ _ => Hw.wr_cores t _ _) h

theorem rd_writeFields {k : Key} (hk : ∀ w ∈ l, k.id ≠ w.1.id) : (writeFields h l).rd k = h.rd k :=
  foldl_keeps (fun t => t.rd k) (fun t w hw => Hw.rd_wr_ne t (hk w hw) w.2) h

end

section
variable (h : Hw) (q : Nat) (e : QEntry) (c : Nat)

@[simp] theorem mem_dispatchTo : (dispatchTo h q e c).mem = h.mem := by
  obtain ⟨u, x, vs, hu, -, heq⟩ := dispatchTo_eq h q e c
  rw [heq, mem_writeFields]
  obtain rfl | ⟨r, rfl⟩ := hu <;> rfl

/-- A dispatched entry takes its ticket with it. -/
@[simp] theorem held_dispatchTo : (dispatchTo h q e c).sched.held = h.sched.held := by
  obtain ⟨u, x, vs, hu, -, heq⟩ := dispatchTo_eq h q e c
  rw [heq, sched_writeFields]
  obtain rfl | ⟨r, rfl⟩ := hu <;> rfl

theorem rd_dispatchTo {k : Key} (hc : c < 64) (hk : OffCrew k) : (dispatchTo h q e c).rd k = h.rd k := by
  obtain ⟨u, x, vs, hu, -, heq⟩ := dispatchTo_eq h q e c
  rw [heq, rd_writeFields _ _ fun w hw => id_ne_itemKeys hk hc (List.of_mem_zip hw).1]
  obtain rfl | ⟨r, rfl⟩ := hu <;> rfl

theorem entries_addRes (r : Nat) (up : Bool) (p : Nat) : ((addRes h r up).queue p).entries = (h.queue p).entries := by
  by_cases hp : p = r
  · subst hp
    simp [addRes, Hw.queue, Hw.setQueue]
  · simp [addRes, Hw.queue, Hw.setQueue, SMap.get_set_ne _ hp]

theorem entries_removeSlot_self (slot : Nat) :
    ((removeSlot h q slot).queue q).entries = (h.queue q).entries.filter fun x => x.slot != slot := by
  simp [removeSlot, Hw.queue, Hw.setQueue]

theorem entries_removeSlot_ne {p : Nat} (hp : p ≠ q) (slot : Nat) :
    ((removeSlot h q slot).queue p).entries = (h.queue p).entries := by
  simp [removeSlot, Hw.queue, Hw.setQueue, SMap.get_set_ne _ hp]

theorem entries_dispatchTo {p : Nat} (hp : p ≠ q) : ((dispatchTo h q e c).queue p).entries = (h.queue p).entries := by
  obtain ⟨u, x, vs, hu, -, heq⟩ := dispatchTo_eq h q e c
  have hq : (dispatchTo h q e c).queue p = u.queue p := by rw [heq, Hw.queue, sched_writeFields]; rfl
  rw [hq]
  obtain rfl | ⟨r, rfl⟩ := hu
  · exact entries_removeSlot_ne h q hp e.slot
  · rw [entries_addRes, entries_removeSlot_ne h q hp e.slot]

theorem offCrew_prio (c : Nat) : OffCrew (K.CORE_LOCKSTAT_PRIO c) := by
  simp [OffCrew, K.CORE_LOCKSTAT_PRIO]; omega

theorem prioHolds_dispatchTo {who : Option Nat} {a n : Nat} (hc : c < 64) (hp : prioHolds h who a n = false) :
    prioHolds (dispatchTo h q e c) who a n = false := by
  obtain ⟨u, x, vs, hu, hx, heq⟩ := dispatchTo_eq h q e c
  rw [heq, prioHolds_congr (cores_writeFields _ _) fun d =>
    rd_writeFields _ _ fun w hw => id_ne_itemKeys (offCrew_prio d) hc (List.of_mem_zip hw).1]
  refine prioHolds_setCore (.inl hx) ?_
  obtain rfl | ⟨r, rfl⟩ := hu <;> exact hp

end

/-! ### The rule -/

/-- A choice among candidates that replaces its pick by a candidate ends with a candidate. -/
theorem mem_of_foldl_pick {α : Type} {l : List α} {better : Option α → α → Bool} {x : α}
    (e : l.foldl (fun best y => if better best y then some y else best) none = some x) : x ∈ l := by
  have key : ∀ y, l.foldl (fun best y => if better best y then some y else best) none = some y → y ∈ l := by
    refine List.foldlRecOn (motive := fun best => ∀ y, best = some y → y ∈ l) l _ (by simp) fun best hb z hz y hy => ?_
    split at hy
    · exact Option.some.inj hy ▸ hz
    · exact hb y hy
  exact key x e

/-- The entry dispatched next stands in a queue with automatic dispatch, and goes to one of the cores. -/
theorem pickEntry_some {h : Hw} {q c : Nat} {e : QEntry} (he : pickEntry h = some (q, e, c)) : qAuto h q = true ∧ c < 64 := by
  unfold pickEntry at he
  simp only [Option.bind_eq_some_iff, Option.map_eq_some_iff] at he
  obtain ⟨x, hx, d, hd, hxd⟩ := he
  cases hxd
  refine ⟨?_, mem_pickCore hd⟩
  have hmem := mem_of_foldl_pick hx
  simp only [List.mem_flatMap] at hmem
  obtain ⟨y, -, hy⟩ := hmem
  split at hy
  case isTrue hauto =>
    obtain ⟨z, -, rfl⟩ := List.mem_map.1 hy
    simp only [Bool.and_eq_true] at hauto
    exact hauto.2
  case isFalse => cases hy

/-- What every dispatch from a queue with automatic dispatch keeps, the dispatch rule keeps. -/
theorem dispatch_induction {P : Hw → Prop}
    (hs : ∀ h q e c, c < 64 → qAuto h q = true → P h → P (dispatchTo h q e c)) {h : Hw} (h0 : P h) : P (dispatch h) := by
  have key : ∀ n h, P h → P (dispatchN n h) := by
    intro n
    induction n with
    | zero => exact fun _ h0 => h0
    | succ n ih =>
      intro h h0
      unfold dispatchN
      split
      · exact h0
      · rename_i q e c he
        obtain ⟨hauto, hc⟩ := pickEntry_some he
        exact ih _ (hs h q e c hc hauto h0)
  exact key 63 h h0

section
variable (h : Hw)

@[simp] theorem mem_dispatch : (dispatch h).mem = h.mem :=
  dispatch_induction (P := fun t => t.mem = h.mem) (fun _ _ _ _ _ _ ht => by rw [mem_dispatchTo, ht]) rfl

@[simp] theorem held_dispatch : (dispatch h).sched.held = h.sched.held :=
  dispatch_induction (P := fun t => t.sched.held = h.sched.held) (fun _ _ _ _ _ _ ht => by rw [held_dispatchTo, ht]) rfl

theorem rd_dispatch_of_offCrew {k : Key} (hk : OffCrew k) : (dispatch h).rd k = h.rd k :=
  dispatch_induction (P := fun t => t.rd k = h.rd k) (fun _ _ _ _ hc _ ht => by rw [rd_dispatchTo _ _ _ _ hc hk, ht]) rfl

theorem offCrew_auto {q : Nat} (hq : q < 16384) : OffCrew (K.SCHED_Q_CFG_AUTO q) := by
  simp [OffCrew, K.SCHED_Q_CFG_AUTO]; omega

/-- Dispatch leaves the entries of a queue without automatic dispatch alone. -/
theorem entries_dispatch {q : Nat} (hq : q < 16384) (ha : qAuto h q = false) :
    ((dispatch h).queue q).entries = (h.queue q).entries := by
  suffices hP : qAuto (dispatch h) q = false ∧ ((dispatch h).queue q).entries = (h.queue q).entries from hP.2
  refine dispatch_induction (P := fun t => qAuto t q = false ∧ (t.queue q).entries = (h.queue q).entries) ?_ ⟨ha, rfl⟩
  rintro t p e c hc hp ⟨hta, hte⟩
  have hne : q ≠ p := fun hqp => by rw [hqp, hp] at hta; cases hta
  exact ⟨by rwa [qAuto, Hw.bit, rd_dispatchTo _ _ _ _ hc (offCrew_auto hq)], by rw [entries_dispatchTo _ _ _ _ hne, hte]⟩

theorem prioHolds_dispatch {h : Hw} {who : Option Nat} {a n : Nat} (hp : prioHolds h who a n = false) :
    prioHolds (dispatch h) who a n = false :=
  dispatch_induction (P := fun t => prioHolds t who a n = false) (fun t q e c hc _ => prioHolds_dispatchTo t q e c hc) hp

end

end Sys2Proof.Machine
end

section
/-!
PROOF. The queue operations (R210 to R212): the checks of R251 in their order, tickets (R255, R256), and the entry in its slot.
-/
namespace Sys2Proof.Machine

/-! ### Tickets -/

section
variable {α : Type} {m : SMap α}

/-- The keys of a rising table lie at or above its bound. -/
theorem SMap.le_of_rising {b : Nat} (hr : SMap.rising b m = true) : ∀ e ∈ m, b ≤ e.1 := by
  induction m generalizing b with
  | nil => simp
  | cons e r ih =>
    simp only [SMap.rising, Bool.and_eq_true, decide_eq_true_eq] at hr
    obtain ⟨hb, hr⟩ := hr
    intro x hx
    obtain rfl | hx := List.mem_cons.1 hx
    · exact hb
    · have := ih hr x hx; omega

theorem SMap.get_of_unlisted {k : Nat} {d : α} (hk : ∀ e ∈ m, e.1 ≠ k) : SMap.get m k d = d := by
  obtain hd | hm := SMap.get_eq_or_mem m k d
  · exact hd
  · exact absurd rfl (hk _ hm)

theorem le_nthFree (l : List Nat) (n : Nat) : n ≤ nthFree l n := by
  induction l generalizing n with
  | nil => exact Nat.le_refl n
  | cons t r ih =>
    unfold nthFree
    split
    · exact Nat.le_of_succ_le (ih (n + 1))
    · exact Nat.le_refl n

/-- The number taken is none of a rising list. -/
theorem nthFree_unlisted {b : Nat} (hr : SMap.rising b m = true) (n : Nat) : ∀ e ∈ m, e.1 ≠ nthFree (m.map (·.1)) n := by
  induction m generalizing b n with
  | nil => simp
  | cons x r ih =>
    simp only [SMap.rising, Bool.and_eq_true] at hr
    obtain ⟨-, hr⟩ := hr
    intro e he
    rw [List.map_cons, nthFree]
    split
    case isTrue hle =>
      obtain rfl | he := List.mem_cons.1 he
      · have := le_nthFree (r.map (·.1)) (n + 1); omega
      · exact ih hr (n + 1) e he
    case isFalse hlt =>
      obtain rfl | he := List.mem_cons.1 he
      · omega
      · have := SMap.le_of_rising hr e he; omega

end

section
variable {h : Hw} {q : Nat}

/-- Queue q has taken ticket t. -/
def ticketTaken (h : Hw) (q t : Nat) (shared : Bool) : Hw :=
  { h with freeCtr := h.freeCtr + 1, sched := { h.sched with held := SMap.set h.sched.held t (some ⟨q, shared⟩) none } }

/-- Without a ticket of its own or of the shared pool a queue takes none. -/
theorem takeTicket_none (hr : h.rd (K.SCHED_Q_CFG_TRES q) ≤ heldBy h q) (hs : sharedFree h = 0) : takeTicket h q = none := by
  simp [takeTicket, Nat.not_lt.2 hr, hs]

/-- A queue with a ticket to take takes one that no queue holds. -/
theorem takeTicket_some (hf : heldBy h q < h.rd (K.SCHED_Q_CFG_TRES q) ∨ 0 < sharedFree h) (hl : h.sched.held.length < 65536) :
    ∃ t shared, takeTicket h q = some (t, ticketTaken h q t shared) ∧
      (SMap.rising 0 h.sched.held = true → SMap.get h.sched.held t none = none) := by
  refine ⟨nthFree (h.sched.held.map (·.1)) (h.draw.1 % (65536 - h.sched.held.length)),
    !decide (heldBy h q < h.rd (K.SCHED_Q_CFG_TRES q)), ?_, fun hr => SMap.get_of_unlisted (nthFree_unlisted hr _)⟩
  have hg : (decide (heldBy h q < h.rd (K.SCHED_Q_CFG_TRES q)) || decide (0 < sharedFree h)) = true := by simpa using hf
  simp only [takeTicket, hg, hl, decide_true, Bool.and_self, if_true]
  rfl

end

/-! ### Placing an entry -/

section
variable {h : Hw} {q : Nat} (hp : prioHolds h none (slotAddr h q (freeSlot h q)) 64 = false) (level : Nat) (ticket : Option Nat)
  (d : Desc)
include hp

theorem mem_place : (place h q level ticket d).mem =
    h.mem.writeN (slotAddr h q (freeSlot h q)) 64 (descNat d) (allOn 64) := by
  simp [place, hubWrite_eq hp, Hw.setQueue]

theorem held_place : (place h q level ticket d).sched.held = h.sched.held := by
  simp [place, hubWrite_eq hp, Hw.setQueue]

theorem csr_place : (place h q level ticket d).csr = h.csr := by
  simp [place, hubWrite_eq hp, Hw.setQueue]

/-- The entry stands behind those of its queue, in the first free slot. -/
theorem entries_place : ∃ e : QEntry, ((place h q level ticket d).queue q).entries = (h.queue q).entries ++ [e] ∧
    e.ticket = ticket ∧ e.slot = freeSlot h q := by
  refine ⟨⟨freeSlot h q, h.sched.age, level, h.now, h.now, ticket⟩, ?_, rfl, rfl⟩
  simp [place, hubWrite_eq hp, Hw.setQueue, Hw.queue]

end

/-! ### Admission -/

section
variable {h : Hw} {q : Nat} {src : Src} {d : Desc}

theorem tryEnter_noqueue (he : qEn h q = false) : tryEnter h q src d = (h, .noqueue) := by
  simp [tryEnter, he]

theorem tryEnter_denied (he : qEn h q = true) (hs : permitted h src q = false) : tryEnter h q src d = (h, .denied) := by
  simp [tryEnter, he, hs]

theorem tryEnter_full (he : qEn h q = true) (hs : permitted h src q = true) (hc : qCred h q = 0) :
    tryEnter h q src d = (h, .full) := by
  simp [tryEnter, he, hs, hc]

theorem tryEnter_noticket (he : qEn h q = true) (hs : permitted h src q = true) (hc : qCred h q ≠ 0)
    (ht : takeTicket h q = none) : tryEnter h q src d = (h, .noticket) := by
  simp [tryEnter, he, hs, hc, ht]

theorem tryEnter_ok {t : Nat} {u : Hw} (he : qEn h q = true) (hs : permitted h src q = true) (hc : qCred h q ≠ 0)
    (ht : takeTicket h q = some (t, u)) :
    tryEnter h q src d = (place u q (entryLevel u q d) (some t) (queuedCopy u q src.code t d), .ok t) := by
  simp [tryEnter, he, hs, hc, ht]

end

section
variable {h : Hw} {c : Core} {q : Nat} {d : Desc}

theorem permitted_core (hs : c.val = 0 ∨ 256 ≤ q) : permitted h (.master (.core c)) q = true := by
  simpa [permitted] using hs

theorem permitted_crew (hc : c.val ≠ 0) (hq : q < 256) : permitted h (.master (.core c)) q = false := by
  simp [permitted, hc, Nat.not_le.2 hq]

theorem enqueue_noqueue (he : qEn h q = false) : enqueue h c q d = (qsNoqueue, h) := by
  rw [enqueue, tryEnter_noqueue he]

theorem enqueue_denied (he : qEn h q = true) (hc : c.val ≠ 0) (hq : q < 256) : enqueue h c q d = (qsDenied, h) := by
  rw [enqueue, tryEnter_denied he (permitted_crew hc hq)]

theorem enqueue_full (he : qEn h q = true) (hs : c.val = 0 ∨ 256 ≤ q) (hc : qCred h q = 0) :
    enqueue h c q d = (qsFull, h) := by
  rw [enqueue, tryEnter_full he (permitted_core hs) hc]

theorem enqueue_noticket (he : qEn h q = true) (hs : c.val = 0 ∨ 256 ≤ q) (hc : qCred h q ≠ 0)
    (ht : takeTicket h q = none) : enqueue h c q d = (qsNoticket, h) := by
  rw [enqueue, tryEnter_noticket he (permitted_core hs) hc ht]

/-- The result word of an operation that ends well with a ticket (R210, R211). -/
theorem ticketWord (t : Nat) : t * 2 ^ 16 + qsOk = t * 65536 := by simp [qsOk]

/-- An admitted entry: its ticket is the queue's, it stands behind the others unless it is dispatched, and its copy is in the
ring. -/
theorem enqueue_admits (he : qEn h q = true) (hs : c.val = 0 ∨ 256 ≤ q) (hc : qCred h q ≠ 0)
    (ht : heldBy h q < h.rd (K.SCHED_Q_CFG_TRES q) ∨ 0 < sharedFree h) (hl : h.sched.held.length < 65536)
    (hp : prioHolds h none (slotAddr h q (freeSlot h q)) 64 = false) (hq : q < 16384) :
    ∃ tk shared u, enqueue h c q d = (tk * 65536, u) ∧ SMap.get u.sched.held tk none = some ⟨q, shared⟩ ∧
      (SMap.rising 0 h.sched.held = true → SMap.get h.sched.held tk none = none) ∧
      (qAuto h q = false → ∃ e, (u.queue q).entries = (h.queue q).entries ++ [e] ∧ e.ticket = some tk ∧
        e.slot = freeSlot h q) ∧
      u.mem = h.mem.writeN (slotAddr h q (freeSlot h q)) 64 (descNat (queuedCopy h q c.val tk d)) (allOn 64) := by
  obtain ⟨tk, shared, htk, hfresh⟩ := takeTicket_some ht hl
  have hpt : prioHolds (ticketTaken h q tk shared) none
      (slotAddr (ticketTaken h q tk shared) q (freeSlot (ticketTaken h q tk shared) q)) 64 = false := hp
  refine ⟨tk, shared, dispatch (place (ticketTaken h q tk shared) q (entryLevel h q d) (some tk) (queuedCopy h q c.val tk d)),
    ?_, ?_, hfresh, fun ha => ?_, ?_⟩
  · simp only [enqueue, tryEnter_ok he (permitted_core hs) hc htk, ticketWord]
    rfl
  · rw [held_dispatch, held_place hpt]
    simp [ticketTaken]
  · rw [entries_dispatch _ hq]
    · exact entries_place hpt _ _ _
    · rw [qAuto, Hw.bit_congr (csr_place hpt _ _ _)]
      exact ha
  · rw [mem_dispatch, mem_place hpt]
    rfl

/-! ### ENQ -/

section
variable {s : State} {rd rs1 rs2 : Reg} {v : Nat}

/-- ENQ answers the result word of `enqueue`, and leaves the device as that does. -/
theorem enq_status (r : DevReady s.hw c (wordA 0x10 1 rd rs1 rs2) [rd, rs1, rs2] false)
    (o : OperandIs s.hw c (s.hw.g c rs1).toNat 64 64 true v) {st : Nat} {u : Hw}
    (e : enqueue (begun s.hw c) c ((s.hw.g c rs2).toNat % 16384) (natDesc v) = (st, u)) :
    Ends (exec (.enq c rd rs1 rs2) s) fun t =>
      t.hw.g c rd = (if rd = 0 then 0 else BitVec.ofNat 64 st) ∧ t.hw.pc c = u.pc c + 4 ∧ StaysIn u t.hw c := by
  refine devOp_status r ?_
  simp only [gv_begun]
  rw [withOperand_of_operandIs (h := begun s.hw c) o, e]

/-- A refused ENQ changes nothing but rd and the pc. -/
theorem enq_refused (r : DevReady s.hw c (wordA 0x10 1 rd rs1 rs2) [rd, rs1, rs2] false)
    (o : OperandIs s.hw c (s.hw.g c rs1).toNat 64 64 true v) (hq : q = (s.hw.g c rs2).toNat % 16384) {st : Nat}
    (e : enqueue (begun s.hw c) c q (natDesc v) = (st, begun s.hw c)) :
    Ends (exec (.enq c rd rs1 rs2) s) fun t => Answers s t c rd st ∧ t.hw.mem = s.hw.mem := by
  subst hq
  exact Ends.imp (enq_status r o e) fun _ ⟨hg, hpc, hrest⟩ => ⟨⟨hg, by rw [hpc, Hw.pc_begun]⟩, hrest.mem⟩

end

/-! ### DEQ -/

/-- An entry leaves its queue with its ticket, and its queue is as without it. -/
theorem entries_leave (e : QEntry) : ((leave h q e).queue q).entries = (h.queue q).entries.filter fun x => x.slot != e.slot := by
  rw [← entries_removeSlot_self]
  cases ht : e.ticket <;> simp [leave, dropTicket, ht, Hw.queue]

theorem held_leave {e : QEntry} {t : Nat} (ht : e.ticket = some t) (d : Option Held) :
    SMap.get (leave h q e).sched.held t d = d := by
  simp [leave, dropTicket, ht]

theorem csr_leave (e : QEntry) : (leave h q e).csr = h.csr := by
  cases ht : e.ticket <;> simp [leave, dropTicket, ht, removeSlot, Hw.setQueue]

theorem cores_leave (e : QEntry) : (leave h q e).cores = h.cores := by
  cases ht : e.ticket <;> simp [leave, dropTicket, ht, removeSlot, Hw.setQueue]

theorem mem_leave (e : QEntry) : (leave h q e).mem = h.mem := by
  cases ht : e.ticket <;> simp [leave, dropTicket, ht, removeSlot, Hw.setQueue]

/-- What dispatch can do after an entry has left leaves fields outside HUB.CREW, the memory and the released ticket alone. -/
theorem bit_dispatch_leave (e : QEntry) {k : Key} (hk : OffCrew k) : (dispatch (leave h q e)).bit k = h.bit k := by
  rw [Hw.bit, rd_dispatch_of_offCrew _ hk, Hw.rd_congr (csr_leave e), Hw.bit]

theorem mem_dispatch_leave (e : QEntry) : (dispatch (leave h q e)).mem = h.mem := by rw [mem_dispatch, mem_leave]

theorem held_dispatch_leave {e : QEntry} {t : Nat} (ht : e.ticket = some t) (d : Option Held) :
    SMap.get (dispatch (leave h q e)).sched.held t d = d := by
  rw [held_dispatch, held_leave ht]

theorem entries_dispatch_leave (e : QEntry) (hq : q < 16384) (ha : qAuto h q = false) :
    ((dispatch (leave h q e)).queue q).entries = (h.queue q).entries.filter fun x => x.slot != e.slot := by
  rw [entries_dispatch _ hq, entries_leave]
  rw [qAuto, Hw.bit_congr (csr_leave e)]
  exact ha

theorem prioHolds_dispatch_leave (e : QEntry) {who : Option Nat} {a n : Nat} (hp : prioHolds h who a n = false) :
    prioHolds (dispatch (leave h q e)) who a n = false := by
  refine prioHolds_dispatch ?_
  rwa [prioHolds_congr (cores_leave e) fun d => Hw.rd_congr (csr_leave e) _]

theorem dequeue_noqueue (he : qEn h q = false) : dequeue h c q = (qsNoqueue, none, h) := by simp [dequeue, he]

theorem dequeue_denied (he : qEn h q = true) (hc : c.val ≠ 0) (hq : q < 256) : dequeue h c q = (qsDenied, none, h) := by
  simp [dequeue, he, hc, hq]

section
variable (he : qEn h q = true) (hs : c.val = 0 ∨ 256 ≤ q)
include hs

/-- The foreman takes from every queue, a crew core from Q256 on. -/
theorem not_deq_denied : (c.val != 0 && decide (q < 256)) = false := by
  obtain hs | hs := hs
  · simp [hs]
  · simp [Nat.not_lt.2 hs]

include he

theorem dequeue_auto (ha : qAuto h q = true) : dequeue h c q = (qsAuto, none, h) := by
  simp only [dequeue, he, not_deq_denied hs, ha, Bool.not_true, if_true, if_false, Bool.false_eq_true]

theorem dequeue_empty (ha : qAuto h q = false) (ho : oldest h q = none) : dequeue h c q = (qsEmpty, none, h) := by
  simp only [dequeue, he, not_deq_denied hs, ha, ho, Bool.not_true, if_false, Bool.false_eq_true]

theorem dequeue_some {e : QEntry} (ha : qAuto h q = false) (ho : oldest h q = some e) :
    dequeue h c q = (bits (slotDesc h q e.slot).w6.toNat 15 0 * 65536, some (slotDesc h q e.slot), dispatch (leave h q e)) := by
  simp only [dequeue, he, not_deq_denied hs, ha, ho, Bool.not_true, if_false, Bool.false_eq_true, ticketWord]

end

section
variable {s : State} {rd rs1 rs2 : Reg} {p : Nat} (r : DevReady s.hw c (wordA 0x10 2 rd rs1 rs2) [rd, rs1, rs2] false)
  (hp : operandPlace c (s.hw.g c rs1).toNat 64 64 true = .ok p)
include r hp

/-- A refused DEQ changes nothing but rd and the pc. -/
theorem deq_refused (hq : q = (s.hw.g c rs2).toNat % 16384) {st : Nat}
    (e : dequeue (begun s.hw c) c q = (st, none, begun s.hw c)) :
    Ends (exec (.deq c rd rs1 rs2) s) fun t => Answers s t c rd st ∧ t.hw.mem = s.hw.mem := by
  subst hq
  refine Ends.imp (devOp_only_answers r ?_) fun _ ⟨hans, hrest⟩ => ⟨hans, hrest.mem⟩
  simp only [gv_begun]
  rw [hp, e]

/-- A DEQ that removes an entry stores it at its operand, and leaves the device as that does. -/
theorem deq_status {st : Nat} {d : Desc} {u : Hw}
    (e : dequeue (begun s.hw c) c ((s.hw.g c rs2).toNat % 16384) = (st, some d, u)) :
    Ends (exec (.deq c rd rs1 rs2) s) fun t =>
      t.hw.g c rd = (if rd = 0 then 0 else BitVec.ofNat 64 st) ∧
      StaysIn (storeBytes u (.core c) p 64 (descNat d) (allOn 64)) t.hw c := by
  refine Ends.imp (devOp_status r (rd := rd) (v := st) (u := storeBytes u (.core c) p 64 (descNat d) (allOn 64)) ?_)
    fun _ ⟨hg, _, hrest⟩ => ⟨hg, hrest⟩
  simp only [gv_begun]
  rw [hp, e]

end

/-! ### REPLY -/

section
variable {s : State} {rd rs1 : Reg} {v : Nat}

/-- REPLY answers the result word of `sendReply`, and leaves the device as that does. -/
theorem reply_status (r : DevReady s.hw c (wordA 0x10 3 rd rs1 0) [rd, rs1] false)
    (o : OperandIs s.hw c (s.hw.g c rs1).toNat 64 64 true v) {st : Nat} {u : Hw}
    (e : sendReply (begun s.hw c) c (natDesc v) = (st, u)) :
    Ends (exec (.reply c rd rs1) s) fun t =>
      t.hw.g c rd = (if rd = 0 then 0 else BitVec.ofNat 64 st) ∧ t.hw.pc c = u.pc c + 4 ∧ StaysIn u t.hw c := by
  refine devOp_status r ?_
  simp only [gv_begun]
  rw [withOperand_of_operandIs (h := begun s.hw c) o, e]

end

theorem sendReply_noitem (hi : (h.core c.val).item = none) : sendReply h c d = (qsNoitem, h) := by simp [sendReply, hi]

theorem sendReply_used {i : Item} {r : Nat} (hi : (h.core c.val).item = some i) (hr : i.reply = .used r)
    (he : qEn h r = true) (hc : qCred h r ≠ 0) :
    sendReply h c d = (qsOk, dispatch (placeRecord h r (stampRecord i d))) := by
  simp [sendReply, hi, hr, he, hc]

end

end Sys2Proof.Machine
end

section
/-!
PROOF. ENQ, DEQ and REPLY: the obligation.
-/
namespace Sys2Proof.Machine

section
variable {s : State} {c : Core} {rd rs1 rs2 : Reg}

theorem offCrew_test : OffCrew K.ERR_TEST_EN := by simp [OffCrew, K.ERR_TEST_EN]

/-- An ENQ that every check admits answers its ticket and leaves the copy in the ring (R210, R251). -/
theorem enq_admits_ends {v q : Nat} (r : DevReady s.hw c (wordA 0x10 1 rd rs1 rs2) [rd, rs1, rs2] false)
    (o : OperandIs s.hw c (s.hw.g c rs1).toNat 64 64 true v) (hq : q = (s.hw.g c rs2).toNat % 16384)
    (he : qEn s.hw q = true) (hs : c.val = 0 ∨ 256 ≤ q) (hc : qCred s.hw q ≠ 0)
    (ht : heldBy s.hw q < s.hw.rd (K.SCHED_Q_CFG_TRES q) ∨ 0 < sharedFree s.hw) (hl : s.hw.sched.held.length < 65536)
    (hp : prioHolds s.hw none (slotAddr s.hw q (freeSlot s.hw q)) 64 = false) :
    Ends (exec (.enq c rd rs1 rs2) s) fun t => ∃ tk shared,
      t.hw.g c rd = (if rd = 0 then 0 else BitVec.ofNat 64 (tk * 65536)) ∧
      SMap.get t.hw.sched.held tk none = some ⟨q, shared⟩ ∧
      (SMap.rising 0 s.hw.sched.held = true → SMap.get s.hw.sched.held tk none = none) ∧
      (qAuto s.hw q = false → ∃ e, (t.hw.queue q).entries = (s.hw.queue q).entries ++ [e] ∧ e.ticket = some tk ∧
        e.slot = freeSlot s.hw q) ∧
      t.hw.mem = s.hw.mem.writeN (slotAddr s.hw q (freeSlot s.hw q)) 64
        (descNat (queuedCopy s.hw q c.val tk (natDesc v))) (allOn 64) := by
  subst hq
  obtain ⟨tk, shared, u, heq, hheld, hfresh, hent, hmem⟩ := enqueue_admits (h := begun s.hw c) (c := c) (d := natDesc v)
    he hs hc ht hl (prioHolds_begun hp) (Nat.mod_lt _ (by decide))
  refine Ends.imp (enq_status r o heq) fun t ⟨hg, _, hrest⟩ => ⟨tk, shared, hg, ?_, hfresh, fun ha => ?_, ?_⟩
  · rw [hrest.sched, hheld]
  · rw [hrest.queue]
    exact hent ha
  · rw [hrest.mem]
    exact hmem

/-- A DEQ of a waiting entry stores it at its operand and frees its slot and its ticket (R211). -/
theorem deq_takes_ends {p q : Nat} {e : QEntry} (r : DevReady s.hw c (wordA 0x10 2 rd rs1 rs2) [rd, rs1, rs2] false)
    (ho : operandPlace c (s.hw.g c rs1).toNat 64 64 true = .ok p) (hq : q = (s.hw.g c rs2).toNat % 16384)
    (he : qEn s.hw q = true) (hs : c.val = 0 ∨ 256 ≤ q) (ha : qAuto s.hw q = false) (hold : oldest s.hw q = some e)
    (ht : s.hw.bit K.ERR_TEST_EN = false) (hp : prioHolds s.hw (some c.val) p 64 = false) :
    Ends (exec (.deq c rd rs1 rs2) s) fun t =>
      t.hw.g c rd = (if rd = 0 then 0 else BitVec.ofNat 64 (bits (slotDesc s.hw q e.slot).w6.toNat 15 0 * 65536)) ∧
      (t.hw.queue q).entries = (s.hw.queue q).entries.filter (fun x => x.slot != e.slot) ∧
      (∀ tk, e.ticket = some tk → SMap.get t.hw.sched.held tk none = none) ∧
      t.hw.mem = s.hw.mem.writeN p 64 (descNat (slotDesc s.hw q e.slot)) (allOn 64) := by
  subst hq
  refine Ends.imp (deq_status r ho (dequeue_some (h := begun s.hw c) he hs ha hold)) fun t ⟨hg, hrest⟩ => ?_
  rw [storeBytes_eq ((bit_dispatch_leave (h := begun s.hw c) e offCrew_test).trans ht)
    (prioHolds_dispatch_leave e (prioHolds_begun hp))] at hrest
  refine ⟨hg, ?_, fun tk htk => ?_, ?_⟩
  · rw [hrest.queue, Hw.queue, sched_touchLines]
    exact entries_dispatch_leave e (Nat.mod_lt _ (by decide)) ha
  · rw [hrest.sched, sched_touchLines]
    exact held_dispatch_leave htk none
  · rw [hrest.mem, mem_touchLines, mem_dispatch_leave]
    rfl

/-- Issuing leaves the item of the core as it is. -/
@[simp] theorem item_begun (h : Hw) (c : Core) : ((begun h c).core c.val).item = (h.core c.val).item := by simp [begun]

/-- A REPLY of a core without an item is refused (R212). -/
theorem reply_noitem_ends {v : Nat} (r : DevReady s.hw c (wordA 0x10 3 rd rs1 0) [rd, rs1] false)
    (o : OperandIs s.hw c (s.hw.g c rs1).toNat 64 64 true v) (hi : (s.hw.core c.val).item = none) :
    Ends (exec (.reply c rd rs1) s) fun t => Answers s t c rd qsNoitem ∧ t.hw.mem = s.hw.mem :=
  Ends.imp (reply_status r o (sendReply_noitem ((item_begun _ _).trans hi))) fun _ ⟨hg, hpc, hrest⟩ =>
    ⟨⟨hg, by rw [hpc, Hw.pc_begun]⟩, hrest.mem⟩

/-- A REPLY after the first one appends its record where there is room (R212). -/
theorem reply_appends_ends {v q : Nat} {i : Item} (r : DevReady s.hw c (wordA 0x10 3 rd rs1 0) [rd, rs1] false)
    (o : OperandIs s.hw c (s.hw.g c rs1).toNat 64 64 true v) (hi : (s.hw.core c.val).item = some i) (hr : i.reply = .used q)
    (he : qEn s.hw q = true) (hc : qCred s.hw q ≠ 0)
    (hp : prioHolds s.hw none (slotAddr s.hw q (freeSlot s.hw q)) 64 = false) :
    Ends (exec (.reply c rd rs1) s) fun t => t.hw.g c rd = 0 ∧
      t.hw.mem = s.hw.mem.writeN (slotAddr s.hw q (freeSlot s.hw q)) 64 (descNat (stampRecord i (natDesc v))) (allOn 64) := by
  refine Ends.imp (reply_status r o (sendReply_used ((item_begun _ _).trans hi) hr he hc)) fun t ⟨hg, _, hrest⟩ => ⟨?_, ?_⟩
  · rw [hg]
    split <;> rfl
  · rw [hrest.mem, mem_dispatch, placeRecord, mem_place (h := begun s.hw c) (prioHolds_begun hp)]
    rfl

end

/-- Settles O19: the checks of R251 refuse in their order, and an operation that passes them moves its entry. -/
theorem queueOps : Obligations.QueueOps := by
  unfold Obligations.QueueOps
  refine ⟨fun s c rd rs1 rs2 v q r o hq => ⟨fun he => ?_, fun he hc hlo => ?_, fun he hs hc => ?_,
      fun he hs hc hr hf => ?_, fun he hs hc ht hl hp => ?_⟩,
    fun s c rd rs1 rs2 p q e r ho hq => ⟨fun he => ?_, fun he hc hlo => ?_, fun he hs ha => ?_, fun he hs ha hold => ?_,
      fun he hs ha hold ht hp => ?_⟩,
    fun s c rd rs1 v r o => ⟨fun hi => ?_, fun i q hi hr he hc hp => ?_⟩⟩
  · exact enq_refused r o hq (enqueue_noqueue he)
  · exact enq_refused r o hq (enqueue_denied he hc hlo)
  · exact enq_refused r o hq (enqueue_full he hs hc)
  · exact enq_refused r o hq (enqueue_noticket he hs hc (takeTicket_none hr hf))
  · exact enq_admits_ends r o hq he hs hc ht hl hp
  · exact deq_refused r ho hq (dequeue_noqueue he)
  · exact deq_refused r ho hq (dequeue_denied he hc hlo)
  · exact deq_refused r ho hq (dequeue_auto he hs ha)
  · exact deq_refused r ho hq (dequeue_empty he hs ha hold)
  · exact deq_takes_ends r ho hq he hs ha hold ht hp
  · exact reply_noitem_ends r o hi
  · exact reply_appends_ends r o hi hr he hc hp

end Sys2Proof.Machine
end

section
/-!
PROOF. The digests of Assay (R228 to R230): the obligation.
-/
namespace Sys2Proof.Machine

/-- A digest is 16 bytes for a sector and 32 for any other scope, and an intended one has the epoch 0 (R228, R229). -/
theorem scopeDigest_ok {h : Hw} {scope d ep n : Nat} (e : scopeDigest h scope = .ok (d, ep, n)) :
    n = (if scope % 4 = 0 then 16 else 32) ∧ (scope.testBit 4 = true → ep = 0) := by
  have hb : bits scope 1 0 = scope % 4 := by simp [bits]
  unfold scopeDigest at e
  simp only [hb] at e
  split at e
  case h_1 h0 ht =>
    split at e
    · cases e
    split at e
    · cases e
    split at e <;> cases e
    simp [h0, ht]
  case h_2 h0 ht =>
    split at e
    · cases e
    split at e <;> cases e
    simp [h0, ht]
  case h_3 h0 ht =>
    split at e
    · cases e
    split at e <;> cases e
    simp [h0]
  case h_4 h0 ht =>
    split at e <;> cases e
    simp [h0, ht]
  case h_5 h0 ht =>
    split at e <;> cases e
    simp [h0]
  case h_6 h0 ht =>
    split at e <;> cases e
    simp [h0, ht]
  case h_7 => cases e

section
variable {s : State} {c : Core} {rd rs1 rs2 : Reg} {d ep n st : Nat}

/-- A core's store to memory leaves its own pc where it is. -/
theorem pc_touchLines_self (h : Hw) (a k : Nat) : (touchLines h (some c.val) a k).pc c = h.pc c := by
  rw [Hw.pc, core_touchLines_self, Hw.pc]

section
variable {p : Nat} (r : DevReady s.hw c (wordA 0x14 1 rd rs1 rs2) [rd, rs1, rs2] false)
  (hp : operandPlace c (s.hw.g c rs2).toNat 32 32 true = .ok p)
include r hp

/-- ADIG of a scope with a digest stores it and answers its epoch (R229). -/
theorem adig_stores (ht : s.hw.bit K.ERR_TEST_EN = false) (hprio : prioHolds s.hw (some c.val) p 32 = false)
    (hd : scopeDigest s.hw (s.hw.g c rs1).toNat = .ok (d, ep, n)) :
    Ends (exec (.adig c rd rs1 rs2) s) fun t => Answers s t c rd (ep % 2 ^ 32 * 2 ^ 32) ∧
      t.hw.mem = s.hw.mem.writeN p 32 (d % 256 ^ n) (allOn 32) := by
  have hdb : scopeDigest (begun s.hw c) (s.hw.g c rs1).toNat = .ok (d, ep, n) := hd
  have hstore := storeBytes_eq (h := begun s.hw c) (n := 32) ht (prioHolds_begun hprio) (d % 256 ^ n) (allOn 32)
  refine Ends.imp (devOp_answers r
    (u := storeBytes (begun s.hw c) (.core c) p 32 (d % 256 ^ n) (allOn 32)) ?_ ?_) fun t ⟨hans, hrest⟩ => ⟨hans, ?_⟩
  · rw [hstore, pc_touchLines_self]
    exact Hw.pc_begun s.hw c
  · simp only [gv_begun, hp, hdb, asMatch, Nat.add_zero]
  · rw [hrest.mem, hstore, mem_touchLines]
    rfl

/-- ADIG of a scope without a digest answers its refusal. -/
theorem adig_refused (hd : scopeDigest s.hw (s.hw.g c rs1).toNat = .error st) :
    Ends (exec (.adig c rd rs1 rs2) s) fun t => Answers s t c rd st ∧ t.hw.mem = s.hw.mem := by
  have hdb : scopeDigest (begun s.hw c) (s.hw.g c rs1).toNat = .error st := hd
  refine Ends.imp (devOp_only_answers r ?_) fun _ ⟨hans, hrest⟩ => ⟨hans, hrest.mem⟩
  simp only [gv_begun, hp, hdb]

end

section
variable {v : Nat} (r : DevReady s.hw c (wordA 0x14 2 rd rs1 rs2) [rd, rs1, rs2] false)
  (o : OperandIs s.hw c (s.hw.g c rs2).toNat 32 32 true v)
include r o

/-- ACMP of a scope with a digest answers its epoch and whether it is the operand (R230). -/
theorem acmp_compares (hd : scopeDigest s.hw (s.hw.g c rs1).toNat = .ok (d, ep, n)) :
    Ends (exec (.acmp c rd rs1 rs2) s) fun t => t.hw.mem = s.hw.mem ∧
      Answers s t c rd (ep % 2 ^ 32 * 2 ^ 32 + if d % 256 ^ n = v % 256 ^ n then 0 else 1) := by
  have hdb : scopeDigest (begun s.hw c) (s.hw.g c rs1).toNat = .ok (d, ep, n) := hd
  refine Ends.imp (devOp_only_answers r ?_) fun _ ⟨hans, hrest⟩ => ⟨hrest.mem, hans⟩
  simp only [gv_begun]
  rw [withOperand_of_operandIs (h := begun s.hw c) o, hdb]
  rfl

/-- ACMP of a scope without a digest answers its refusal. -/
theorem acmp_refused (hd : scopeDigest s.hw (s.hw.g c rs1).toNat = .error st) :
    Ends (exec (.acmp c rd rs1 rs2) s) fun t => t.hw.mem = s.hw.mem ∧ Answers s t c rd st := by
  have hdb : scopeDigest (begun s.hw c) (s.hw.g c rs1).toNat = .error st := hd
  refine Ends.imp (devOp_only_answers r ?_) fun _ ⟨hans, hrest⟩ => ⟨hrest.mem, hans⟩
  simp only [gv_begun]
  rw [withOperand_of_operandIs (h := begun s.hw c) o, hdb]

end
end

/-- Settles O24: ADIG and ACMP answer by whether their scope has a digest. -/
theorem assayOps : Obligations.AssayOps := by
  unfold Obligations.AssayOps
  refine ⟨fun s c rd rs1 rs2 p r hp ht hprio => ?_, fun s c rd rs1 rs2 v r o => ?_, fun _ _ _ _ _ => scopeDigest_ok⟩
  · cases hd : scopeDigest s.hw (s.hw.g c rs1).toNat with
    | ok x => exact adig_stores r hp ht hprio hd
    | error st => exact adig_refused r hp hd
  · cases hd : scopeDigest s.hw (s.hw.g c rs1).toNat with
    | ok x => exact acmp_compares r o hd
    | error st => exact acmp_refused r o hd

end Sys2Proof.Machine
end

section
/-!
PROOF. The key store (R224 to R227), and that the end of a link (R377) leaves it alone.
-/
namespace Sys2Proof.Machine

/-! ### What leaves the key store alone -/

section
variable (h : Hw)

@[simp] theorem keys_countRam (n : Nat) (r : Nat × Nat × Nat × List Nat) : (countRam h n r).keys = h.keys := by
  unfold countRam
  simp only
  split
  · split <;> simp
  · split
    · split <;> simp
    · split
      · split <;> simp
      · split <;> simp

@[simp] theorem keys_edgeStep (e : Edges) : (edgeStep h e).keys = h.keys := by
  unfold edgeStep
  exact foldl_keeps Hw.keys (fun t r _ => keys_countRam t r.1 r.2) _

/-- Time that passes for the design does not reach the key store. -/
@[simp] theorem keys_runDesign : (runDesign h).keys = h.keys := by
  unfold runDesign
  split
  · rfl
  · exact foldl_keeps Hw.keys (fun t r _ => keys_edgeStep t _) _

@[simp] theorem keys_gateClosed (n m : Nat) : (gateClosed h n m).keys = h.keys := by
  unfold gateClosed
  simp only
  split <;> simp

@[simp] theorem keys_closeGate (n m : Nat) : (closeGate h n m).keys = h.keys := by
  unfold closeGate
  split
  · rfl
  · split <;> simp

@[simp] theorem keys_refreshTooFast (d : Nat) : (refreshTooFast h d).keys = h.keys := by
  unfold refreshTooFast
  exact foldl_keeps Hw.keys (fun t _ _ => Hw.wrB_keys t _ _) h

@[simp] theorem keys_holdDomain (d : Nat) : (holdDomain h d).keys = h.keys := by
  unfold holdDomain
  simp only [keys_refreshTooFast]
  rw [foldl_keeps Hw.keys fun t _ _ => Hw.wr_keys t _ _]
  exact foldl_keeps Hw.keys (fun t _ _ => keys_closeGate t _ _) h

@[simp] theorem keys_linkEvent (code l lane arg : Nat) : (linkEvent h code l lane arg).keys = h.keys :=
  Hw.postEvent_keys h (by decide) _ _ _ _

@[simp] theorem keys_holdRsc (l cause : Nat) : (holdRsc h l cause).keys = h.keys := by
  unfold holdRsc
  split <;> simp [onLink]

@[simp] theorem keys_setLaneLock (l : Nat) (v : Bool) : (setLaneLock h l v).keys = h.keys :=
  foldl_keeps Hw.keys (fun t _ _ => Hw.wrB_keys t _ _) h

@[simp] theorem keys_setLaneStep (l step : Nat) : (setLaneStep h l step).keys = h.keys :=
  foldl_keeps Hw.keys (fun t _ _ => Hw.wr_keys t _ _) h

@[simp] theorem keys_rest (l : Nat) : (rest h l).keys = h.keys := by
  unfold rest
  simp only
  split <;> simp [setLk]

/-- The end of a link leaves the key store alone. -/
@[simp] theorem keys_endLink (l cause : Nat) : (endLink h l cause).keys = h.keys := by
  unfold endLink
  split
  · rfl
  · simp only [keys_rest]
    by_cases hlive : decide (lkNokey ≤ lkState h l) = true <;> simp [hlive, onLink, Hw.cnt]

end

/-! ### The slots -/

/-- Only 16 regions have slots (R224). -/
theorem region_lt_of_keySlot {v r : Nat} (e : keySlot v = some (.region r)) : r < 16 := by
  unfold keySlot at e
  split at e
  case h_2 =>
    split at e <;> cases e
    assumption
  all_goals cases e

section
variable {g h : Hw} (e : g.keys = h.keys)
include e

theorem ciphCur_congr (r : Nat) : ciphCur g r = ciphCur h r := by rw [ciphCur, e, ciphCur]
theorem ciphPend_congr (r : Nat) : ciphPend g r = ciphPend h r := by rw [ciphPend, e, ciphPend]
theorem linkCur_congr (l : Nat) : linkCur g l = linkCur h l := by rw [linkCur, e, linkCur]
theorem linkPend_congr (l : Nat) : linkPend g l = linkPend h l := by rw [linkPend, e, linkPend]

end

section
variable (h : Hw) (n : Nat) (cur pend : Option Nat)

@[simp] theorem ciphCur_setCiphKeys : ciphCur (setCiphKeys h n cur pend) n = cur := by simp [ciphCur, setCiphKeys]
@[simp] theorem ciphPend_setCiphKeys : ciphPend (setCiphKeys h n cur pend) n = pend := by simp [ciphPend, setCiphKeys]
@[simp] theorem linkCur_setLinkKeys : linkCur (setLinkKeys h n cur pend) n = cur := by simp [linkCur, setLinkKeys]
@[simp] theorem linkPend_setLinkKeys : linkPend (setLinkKeys h n cur pend) n = pend := by simp [linkPend, setLinkKeys]

theorem pend_setCiphKeys : (setCiphKeys h n cur pend).rd (K.CIPH_R_MER_PEND n) = b2n pend.isSome := by
  cases pend <;> simp [setCiphKeys, Hw.wrB, b2n, K.CIPH_R_MER_PEND]

end

/-! ### KLOAD -/

section
variable {s : State} {c : Core} {rd rs1 rs2 : Reg}

theorem pc_loadKey (h : Hw) (k : KeySlot) (v : Nat) : (loadKey h k v).pc c = h.pc c := by cases k <;> rfl

section
variable {v : Nat} (r : DevReady s.hw c (wordA 0x13 1 rd rs1 rs2) [rd, rs1, rs2] true)
  (o : OperandIs s.hw c (s.hw.g c rs1).toNat 32 32 false v)
include r o

theorem kload_loads {k : KeySlot} (hk : keySlot (s.hw.g c rs2).toNat = some k) :
    Ends (exec (.kload c rd rs1 rs2) s) fun t =>
      Answers s t c rd 0 ∧ StaysIn (loadKey (begun s.hw c) k v) t.hw c := by
  refine devOp_answers r ((pc_loadKey _ _ _).trans (Hw.pc_begun _ _)) ?_
  simp only [gv_begun, hk]
  rw [withOperand_of_operandIs (h := begun s.hw c) o]
  rfl

theorem kload_badslot (hk : keySlot (s.hw.g c rs2).toNat = none) :
    Ends (exec (.kload c rd rs1 rs2) s) fun t => Answers s t c rd 2 ∧ StaysIn s.hw t.hw c := by
  refine devOp_only_answers r ?_
  simp only [gv_begun, hk]
  rw [withOperand_of_operandIs (h := begun s.hw c) o]
  rfl

end

/-! ### KROLL -/

theorem testBit_setRekey (h : Hw) {r : Nat} (hr : r < 16) : ((setRekey h r true).rd K.CIPH_STAT_REKEY).testBit r = true := by
  have hne : K.CIPH_STAT_REKEY.id ≠ (K.CIPH_R_MER_REKEY r).id := by
    simp [Key.id, K.CIPH_STAT_REKEY, K.CIPH_R_MER_REKEY]; omega
  rw [setRekey, Hw.wrB, Hw.rd_wr_ne _ hne, Hw.rd_wr_self, Nat.testBit_mod_two_pow]
  simp [K.CIPH_STAT_REKEY, hr, setBitAt]

theorem bit_setRekey (h : Hw) (r : Nat) : (setRekey h r true).bit (K.CIPH_R_MER_REKEY r) = true :=
  Hw.bit_wrB_self _ _ _ rfl

section
variable {h : Hw} {r k : Nat} (hb : regionBusy h r = false)
include hb

/-- KROLL of a region without a current key promotes the pending one, and installs it where the counters are not kept (R410). -/
theorem rollRegion_promotes (hcut : h.bit (K.CIPH_R_MER_CUT r) = false) (hc : ciphCur h r = none) (hp : ciphPend h r = some k) :
    ∃ u, rollRegion h r = (0, u) ∧ u.keys = (setCiphKeys h r (some k) none).keys ∧ u.cores = h.cores := by
  simp only [rollRegion, hb, hcut, hc, hp, if_false, Bool.false_eq_true]
  split <;> exact ⟨_, rfl, rfl, rfl⟩

/-- KROLL of a region with both keys starts a re-key (R411), or goes on with one that was cut (R415). -/
theorem rollRegion_rekeys {j : Nat} (hc : ciphCur h r = some k) (hp : ciphPend h r = some j) :
    ∃ u, rollRegion h r = (0, setRekey u r true) ∧ u.cores = h.cores := by
  simp only [rollRegion, hb, hc, hp, if_false, Bool.false_eq_true]
  split <;> exact ⟨_, rfl, rfl⟩

end

/-- Without a session the pending key becomes current at once: the model's choice, by entry 45 of its log. -/
theorem rollLink_promotes {h : Hw} {l : Nat} (hs : lkState h l ≠ lkUp) (hp : (linkPend h l).isSome = true) :
    rollLink h l = (0, promoteKey h l) := by
  have hn : (linkPend h l).isNone = false := by rw [Option.isNone_eq_false_iff]; exact hp
  simp [rollLink, hn, hs]

section
variable (r : DevReady s.hw c (wordA 0x13 2 rd rs1 rs2) [rd, rs1, rs2] true)
include r

theorem kroll_image {k tag : Nat} (hslot : keySlot (s.hw.g c rs2).toNat = some .image) (hk : s.hw.keys.image = some k)
    (o : OperandIs s.hw c (s.hw.g c rs1).toNat 16 16 false tag) :
    Ends (exec (.kroll c rd rs1 rs2) s) fun t => Answers s t c rd 0 ∧ t.hw.keys.image = some (keyNext k tag) := by
  have hkb : (begun s.hw c).keys.image = some k := hk
  refine Ends.imp (devOp_answers r (u := setImageKey (begun s.hw c) (some (keyNext k tag))) (Hw.pc_begun _ _) ?_)
    fun t ⟨hans, hrest⟩ => ⟨hans, by rw [hrest.keys]; rfl⟩
  simp only [gv_begun, hslot]
  rw [withOperand_of_operandIs (h := begun s.hw c) o, hkb]
  rfl

/-- KROLL of a region answers what `rollRegion` does. -/
theorem kroll_region {n st : Nat} {u : Hw} (hslot : keySlot (s.hw.g c rs2).toNat = some (.region n)) (h0 : rs1 = 0)
    (e : rollRegion (begun s.hw c) n = (st, u)) (hu : u.cores = (begun s.hw c).cores) :
    Ends (exec (.kroll c rd rs1 rs2) s) fun t => Answers s t c rd st ∧ StaysIn u t.hw c := by
  refine devOp_answers r ?_ ?_
  · rw [Hw.pc, Hw.core, hu]
    exact Hw.pc_begun s.hw c
  · simp [hslot, h0, e]

theorem kroll_link {l : Nat} (hslot : keySlot (s.hw.g c rs2).toNat = some (.link l)) (h0 : rs1 = 0)
    (hs : lkState s.hw l ≠ lkUp) (hp : (linkPend s.hw l).isSome = true) :
    Ends (exec (.kroll c rd rs1 rs2) s) fun t =>
      Answers s t c rd 0 ∧ linkCur t.hw l = linkPend s.hw l ∧ linkPend t.hw l = none := by
  have e : rollLink (begun s.hw c) l = (0, promoteKey (begun s.hw c) l) := rollLink_promotes hs hp
  refine Ends.imp (devOp_answers r (u := promoteKey (begun s.hw c) l) (Hw.pc_begun _ _) ?_) fun t ⟨hans, hrest⟩ => ⟨hans, ?_, ?_⟩
  · simp [hslot, h0, e]
  · rw [linkCur_congr hrest.keys, promoteKey, linkCur_setLinkKeys]
    rfl
  · rw [linkPend_congr hrest.keys, promoteKey, linkPend_setLinkKeys]

end

/-! ### KWIPE -/

/-- KWIPE of a region changes, of the key store, the region's slot. -/
theorem wipeRegion_frame (h : Hw) (n : Nat) :
    (wipeRegion h n).keys = (setCiphKeys h n none none).keys ∧ (wipeRegion h n).cores = h.cores := by
  unfold wipeRegion
  simp only
  split <;> exact ⟨rfl, rfl⟩

theorem keys_wipeLink (h : Hw) (l : Nat) : (wipeLink h l).keys = (setLinkKeys h l none none).keys := by
  simp [wipeLink, onLink]

section
variable (r : DevReady s.hw c (wordA 0x13 3 rd 0 rs2) [rd, rs2] true)
include r

theorem kwipe_image (hslot : keySlot (s.hw.g c rs2).toNat = some .image) :
    Ends (exec (.kwipe c rd rs2) s) fun t => Answers s t c rd 0 ∧ t.hw.keys.image = none := by
  refine Ends.imp (devOp_answers r (u := setImageKey (begun s.hw c) none) (Hw.pc_begun _ _) ?_)
    fun t ⟨hans, hrest⟩ => ⟨hans, by rw [hrest.keys]; rfl⟩
  simp only [gv_begun, hslot]
  rfl

theorem kwipe_region {n : Nat} (hslot : keySlot (s.hw.g c rs2).toNat = some (.region n)) :
    Ends (exec (.kwipe c rd rs2) s) fun t => Answers s t c rd 0 ∧ ciphCur t.hw n = none ∧ ciphPend t.hw n = none := by
  obtain ⟨hkeys, hcores⟩ := wipeRegion_frame (begun s.hw c) n
  refine Ends.imp (devOp_answers r (u := wipeRegion (begun s.hw c) n) ?_ ?_) fun t ⟨hans, hrest⟩ => ⟨hans, ?_, ?_⟩
  · rw [Hw.pc, Hw.core, hcores]
    exact Hw.pc_begun s.hw c
  · simp only [gv_begun, hslot]
    rfl
  · rw [ciphCur_congr (hrest.keys.trans hkeys), ciphCur_setCiphKeys]
  · rw [ciphPend_congr (hrest.keys.trans hkeys), ciphPend_setCiphKeys]

theorem kwipe_link {l : Nat} (hslot : keySlot (s.hw.g c rs2).toNat = some (.link l)) :
    Ends (exec (.kwipe c rd rs2) s) fun t => t.hw.g c rd = 0 ∧ linkCur t.hw l = none ∧ linkPend t.hw l = none := by
  refine Ends.imp (devOp_status r (rd := rd) (u := wipeLink (begun s.hw c) l) (v := ksOk) ?_)
    fun t ⟨hg, _, hrest⟩ => ⟨?_, ?_, ?_⟩
  · simp only [gv_begun, hslot]
  · rw [hg]
    split <;> rfl
  · rw [linkCur_congr (hrest.keys.trans (keys_wipeLink _ _)), linkCur_setLinkKeys]
  · rw [linkPend_congr (hrest.keys.trans (keys_wipeLink _ _)), linkPend_setLinkKeys]

end
end

/-- No field of a region is HALTED of Adit. -/
theorem ciph_id_ne_halted {n : Nat} {k : Key} (ha : k.addr = 0x1100118 + n * 0x20) (hl : k.lo < 64) :
    k.id ≠ K.ADIT_HALTED_CORES.id := by
  simp only [Key.id, K.ADIT_HALTED_CORES]
  omega

/-- Settles O23: KLOAD, KROLL and KWIPE act by the kind of the slot. That KROLL of a link that is not UP promotes its key at
once is the model's choice, by entry 45 of its log. -/
theorem keyOps : Obligations.KeyOps := by
  unfold Obligations.KeyOps
  refine ⟨fun s c rd rs1 rs2 v r o => ?_, fun s c rd rs1 rs2 r => ⟨fun k tag hslot hk o => ?_,
      fun n k hslot h0 hb hcut hc hp => ?_, fun n k j hslot h0 hb hc hp => ?_, fun l hslot h0 hs hp => ?_⟩,
    fun s c rd rs2 r => ⟨fun hslot => ?_, fun n hslot => ?_, fun l hslot => ?_⟩⟩
  · cases hslot : keySlot (s.hw.g c rs2).toNat with
    | none => exact Ends.imp (kload_badslot r o hslot) fun t ⟨hans, hrest⟩ => ⟨hans, hrest.keys⟩
    | some k =>
      refine Ends.imp (kload_loads r o hslot) fun t ⟨hans, hrest⟩ => ?_
      cases k with
      | image => exact ⟨hans, hrest.keys⟩
      | region n =>
        refine ⟨hans, ?_, ?_, ?_⟩
        · rw [ciphPend_congr hrest.keys, loadKey, ciphPend_setCiphKeys]
        · rw [ciphCur_congr hrest.keys, loadKey, ciphCur_setCiphKeys]
          rfl
        · rw [hrest.fields _ (ciph_id_ne_halted (n := n) rfl (by simp [K.CIPH_R_MER_PEND])), loadKey, pend_setCiphKeys]
          rfl
      | link l =>
        refine ⟨hans, ?_, ?_⟩
        · rw [linkPend_congr hrest.keys, loadKey, linkPend_setLinkKeys]
        · rw [linkCur_congr hrest.keys, loadKey, linkCur_setLinkKeys]
          rfl
  · exact kroll_image r hslot hk o
  · obtain ⟨u, e, hkeys, hcores⟩ := rollRegion_promotes (h := begun s.hw c) hb hcut hc hp
    refine Ends.imp (kroll_region r hslot h0 e hcores) fun t ⟨hans, hrest⟩ => ⟨hans, ?_, ?_⟩
    · rw [ciphCur_congr (hrest.keys.trans hkeys), ciphCur_setCiphKeys]
    · rw [ciphPend_congr (hrest.keys.trans hkeys), ciphPend_setCiphKeys]
  · obtain ⟨u, e, hcores⟩ := rollRegion_rekeys (h := begun s.hw c) hb hc hp
    refine Ends.imp (kroll_region r hslot h0 e hcores) fun t ⟨hans, hrest⟩ => ⟨hans, ?_, ?_⟩
    · rw [hrest.fields _ (by decide)]
      exact testBit_setRekey u (region_lt_of_keySlot hslot)
    · rw [Hw.bit, hrest.fields _ (ciph_id_ne_halted (n := n) rfl (by simp [K.CIPH_R_MER_REKEY])), ← Hw.bit]
      exact bit_setRekey u n
  · exact kroll_link r hslot h0 hs hp
  · exact kwipe_image r hslot
  · exact kwipe_region r hslot
  · exact kwipe_link r hslot

end Sys2Proof.Machine
end

section
/-!
PROOF. The seam operations (R231 to R233): the obligation.
-/
namespace Sys2Proof.Machine

/-! ### Training afresh -/

/-- A field of a lower address is another field. -/
theorem id_ne_of_addr_lt {j k : Key} (ha : j.addr < k.addr) (hl : j.lo < 64) : j.id ≠ k.id := by
  unfold Key.id
  omega

/-- The registers of a fabric seam lie above the hub's. -/
theorem seamBase_fabric {k : Nat} (hk : k < 4) : seamBase k = 0x2800000 + k * 0x1000000 := by simp [seamBase, hk]

section
variable {h : Hw} {k : Nat}

/-- A write of another register of a seam leaves its EN alone. -/
theorem en_wr {j : Key} (hj : seamBase k < j.addr) (h : Hw) (v : Nat) : (h.wr j v).rd (K.SEAM_CTL_EN k) = h.rd (K.SEAM_CTL_EN k) :=
  Hw.rd_wr_ne h (id_ne_of_addr_lt (by simpa [K.SEAM_CTL_EN] using hj) (by simp [K.SEAM_CTL_EN])) v

theorem en_refreshRet : (refreshRet h k).rd (K.SEAM_CTL_EN k) = h.rd (K.SEAM_CTL_EN k) := by
  unfold refreshRet
  rw [en_wr (by simp [K.SEAM_STAT_RET1]), en_wr (by simp [K.SEAM_STAT_RET0])]

theorem en_foldl {α : Type} {f : Hw → α → Hw} {l : List α}
    (hf : ∀ h, ∀ x ∈ l, (f h x).rd (K.SEAM_CTL_EN k) = h.rd (K.SEAM_CTL_EN k)) (h : Hw) :
    (l.foldl f h).rd (K.SEAM_CTL_EN k) = h.rd (K.SEAM_CTL_EN k) :=
  foldl_keeps (fun t => t.rd (K.SEAM_CTL_EN k)) hf h

/-- Training from scratch leaves EN of its seam alone. -/
theorem en_trainStart (hk : k < 4) : (trainStart h k).rd (K.SEAM_CTL_EN k) = h.rd (K.SEAM_CTL_EN k) := by
  unfold trainStart
  simp only [hk, if_true]
  rw [en_wr (by simp [K.SEAM_STAT_STATE]), en_wr (by simp [K.SEAM_STAT_PLAN]), en_wr (by simp [K.SEAM_STAT_NOHUB]),
    en_refreshRet, en_foldl fun t x hx => ?bindings, en_foldl fun t d _ => en_foldl (fun t g _ => ?groups) t]
  · rfl
  case bindings =>
    have hxk : x.1 = k := by simpa using (List.mem_filter.1 hx).2
    rw [en_wr (by simp [K.SEAM_BIND_STAT_ALIGNED, seamBase_fabric hk, hxk]; omega)]
  case groups =>
    rw [en_wr (by simp [K.SEAM_GRP_STAT_AMODE]; omega), en_wr (by simp [K.SEAM_GRP_STAT_SPARELANE]; omega),
      en_wr (by simp [K.SEAM_GRP_STAT_SPARE]; omega), en_wr (by simp [K.SEAM_GRP_STAT_GSTATE]; omega)]

theorem state_trainStart : (trainStart h k).rd (K.SEAM_STAT_STATE k) = 1 := by simp [trainStart, K.SEAM_STAT_STATE]

/-- A fabric seam enabled in OFF trains, or shows that a hub seam is missing (R129). -/
theorem trainFabric_starts (hk : k < 4) (he : h.rd (K.SEAM_CTL_EN k) = 1) (hs : seamState h k = smOff) :
    (trainFabric h k).rd (K.SEAM_CTL_EN k) = 1 ∧
      ((trainFabric h k).rd (K.SEAM_STAT_STATE k) = 1 ∨ (trainFabric h k).rd (K.SEAM_STAT_NOHUB k) = 1) := by
  have hb : h.bit (K.SEAM_CTL_EN k) = true := by simp [Hw.bit, he]
  cases hl : endsLive h k with
  | true =>
    have ht : trainFabric h k = trainStart h k := by simp [trainFabric, hs, hb, hl]
    rw [ht]
    exact ⟨(en_trainStart hk).trans he, .inl state_trainStart⟩
  | false =>
    have ht : trainFabric h k = h.wr (K.SEAM_STAT_NOHUB k) 1 := by simp [trainFabric, hs, hb, hl]
    rw [ht]
    exact ⟨(en_wr (by simp [K.SEAM_STAT_NOHUB]) h 1).trans he, .inr (by simp [K.SEAM_STAT_NOHUB])⟩

/-- EN = 1 of a seam that was disabled trains it from scratch. -/
theorem seamEnable_starts (hk : k < 4) (he : h.rd (K.SEAM_CTL_EN k) = 1) :
    (seamEnable h k false).rd (K.SEAM_CTL_EN k) = 1 ∧
      ((seamEnable h k false).rd (K.SEAM_STAT_STATE k) = 1 ∨ (seamEnable h k false).rd (K.SEAM_STAT_NOHUB k) = 1) := by
  have ht : seamEnable h k false = trainFabric (h.wr (K.SEAM_STAT_STATE k) smOff) k := by simp [seamEnable, Hw.bit, he]
  rw [ht]
  exact trainFabric_starts hk ((en_wr (by simp [K.SEAM_STAT_STATE]) h smOff).trans he)
    (by simp [seamState, smOff])

theorem strain_starts (hk : k < 4) (h : Hw) : (strain h k).rd (K.SEAM_CTL_EN k) = 1 ∧
    ((strain h k).rd (K.SEAM_STAT_STATE k) = 1 ∨ (strain h k).rd (K.SEAM_STAT_NOHUB k) = 1) :=
  seamEnable_starts hk (Hw.rd_wr_self _ (K.SEAM_CTL_EN k) 1)

end

/-! ### Retiring a group -/

section
variable (h : Hw) (k : Nat)

@[simp] theorem seamSt_onSeam_self (f : SeamSt → SeamSt) : (h.onSeam k f).seamSt k = f (h.seamSt k) := by
  simp [Hw.onSeam, Hw.seamSt]

theorem rd_onSeam (f : SeamSt → SeamSt) (j : Key) : (h.onSeam k f).rd j = h.rd j := rfl

section
variable (p : Nat → Nat → Bool)

/-- What no write of a group's GSTATE changes, holding groups does not change, and a retired group is not written. -/
theorem holdGroups_keeps {β : Type} (part : Hw → β)
    (hw : ∀ t d g, isRetired t k d g = false → part (t.wr (K.SEAM_GRP_STAT_GSTATE k d g) gHold) = part t) :
    part (holdGroups h k p) = part h := by
  unfold holdGroups
  refine foldl_keeps part (fun t d _ => foldl_keeps part (fun t g _ => ?_) t) h
  split
  · rfl
  case isFalse hc =>
    simp only [Bool.or_eq_true, not_or, Bool.not_eq_true] at hc
    obtain ⟨⟨hr, -⟩, -⟩ := hc
    exact hw t d g hr

@[simp] theorem seam_holdGroups : (holdGroups h k p).seam = h.seam := holdGroups_keeps h k p Hw.seam fun _ _ _ _ => rfl

theorem state_holdGroups : (holdGroups h k p).rd (K.SEAM_STAT_STATE k) = h.rd (K.SEAM_STAT_STATE k) :=
  holdGroups_keeps h k p (fun t => t.rd (K.SEAM_STAT_STATE k)) fun t d g _ => Hw.rd_wr_ne t
    (id_ne_of_addr_lt (by simp [K.SEAM_STAT_STATE, K.SEAM_GRP_STAT_GSTATE]; omega) (by simp [K.SEAM_STAT_STATE])) _

/-- A retired group stays retired where others are held. -/
theorem retired_holdGroups {d g : Nat} (hr : h.rd (K.SEAM_GRP_STAT_GSTATE k d g) = gRetired) :
    (holdGroups h k p).rd (K.SEAM_GRP_STAT_GSTATE k d g) = gRetired := by
  refine (holdGroups_keeps h k p (fun t => t.rd (K.SEAM_GRP_STAT_GSTATE k d g) = gRetired) fun t d' g' hr' => ?_).mpr hr
  by_cases hid : (K.SEAM_GRP_STAT_GSTATE k d g).id = (K.SEAM_GRP_STAT_GSTATE k d' g').id
  · have hsame (t : Hw) : t.rd (K.SEAM_GRP_STAT_GSTATE k d g) = t.rd (K.SEAM_GRP_STAT_GSTATE k d' g') := by
      rw [Hw.rd, hid]; rfl
    have hheld : (t.wr (K.SEAM_GRP_STAT_GSTATE k d' g') gHold).rd (K.SEAM_GRP_STAT_GSTATE k d' g') = gHold :=
      Hw.rd_wr_self t (K.SEAM_GRP_STAT_GSTATE k d' g') gHold
    have hother : t.rd (K.SEAM_GRP_STAT_GSTATE k d' g') ≠ gRetired := fun e => by simp [isRetired, e, gRetired] at hr'
    rw [hsame, hsame, hheld]
    exact propext ⟨fun e => absurd e (by decide), fun e => absurd e hother⟩
  · simp only [Hw.rd_wr_ne t hid]

end

/-- A retired group of a fabric seam stands as retired, and the seam waits for a plan (R140, R144). -/
theorem retireGroup_fabric {d g : Nat} (hk : k < 4) (hr : isRetired h k d g = false) :
    (retireGroup h k d g).rd (K.SEAM_GRP_STAT_GSTATE k d g) = gRetired ∧
      (retireGroup h k d g).rd (K.SEAM_STAT_STATE k) = 6 ∧ ((retireGroup h k d g).seamSt k).planDue = true := by
  simp only [retireGroup, hr, hk, if_true, Bool.false_eq_true, if_false, awaitPlan]
  refine ⟨retired_holdGroups _ _ _ ?_, ?_, ?_⟩
  · have hne {j : Key} (hj : j.addr = seamBase k + 0x8) (hl : j.lo < 64) : (K.SEAM_GRP_STAT_GSTATE k d g).id ≠ j.id :=
      (id_ne_of_addr_lt (by simp [hj, K.SEAM_GRP_STAT_GSTATE]; omega) hl).symm
    rw [Hw.rd_wr_ne _ (hne rfl (by simp [K.SEAM_STAT_STATE]))]
    unfold refreshRet
    rw [rd_onSeam, Hw.rd_wr_ne _ (hne rfl (by simp [K.SEAM_STAT_RET1])), Hw.rd_wr_ne _ (hne rfl (by simp [K.SEAM_STAT_RET0])),
      rd_onSeam, Hw.rd_wr_self]
    rfl
  · rw [state_holdGroups, Hw.rd_wr_self]
    rfl
  · rw [Hw.seamSt, seam_holdGroups, Hw.wr_seam, ← Hw.seamSt, seamSt_onSeam_self]

end

/-! ### The operations -/

/-- No field of a seam is HALTED of Adit. -/
theorem seam_id_ne_halted {k : Nat} {j : Key} (ha : seamBase k ≤ j.addr) : j.id ≠ K.ADIT_HALTED_CORES.id := by
  refine (id_ne_of_addr_lt ?_ (by decide)).symm
  have : 0x2800000 ≤ seamBase k := by unfold seamBase; split <;> omega
  simp only [K.ADIT_HALTED_CORES]
  omega

section
variable {s : State} {c : Core} {rd rs1 rs2 : Reg} {k : Nat}

section
variable (r : DevReady s.hw c (wordA 0x15 1 rd rs1 0) [rd, rs1] false) (hk : k = (s.hw.g c rs1).toNat % 8)
include r hk

/-- STRAIN of a hub seam is refused (R231). -/
theorem strain_refused (h4 : 4 ≤ k) :
    Ends (exec (.strain c rd rs1) s) fun t => Answers s t c rd ssRefused ∧ t.hw.seam = s.hw.seam := by
  refine Ends.imp (devOp_only_answers r ?_) fun _ ⟨hans, hrest⟩ => ⟨hans, hrest.seam⟩
  simp only [gv_begun, ← hk, if_pos h4]

theorem strain_busy (h4 : k < 4) (hb : seamBusy s.hw k = true) :
    Ends (exec (.strain c rd rs1) s) fun t => Answers s t c rd ssBusy ∧ t.hw.seam = s.hw.seam := by
  have hbb : seamBusy (begun s.hw c) k = true := hb
  refine Ends.imp (devOp_only_answers r ?_) fun _ ⟨hans, hrest⟩ => ⟨hans, hrest.seam⟩
  simp only [gv_begun, ← hk, if_neg (Nat.not_le.2 h4), hbb, if_true]

theorem strain_trains (h4 : k < 4) (hb : seamBusy s.hw k = false) :
    Ends (exec (.strain c rd rs1) s) fun t => t.hw.g c rd = 0 ∧ t.hw.rd (K.SEAM_CTL_EN k) = 1 ∧
      (t.hw.rd (K.SEAM_STAT_STATE k) = 1 ∨ t.hw.rd (K.SEAM_STAT_NOHUB k) = 1) := by
  have hbb : seamBusy (begun s.hw c) k = false := hb
  refine Ends.imp (devOp_status r (rd := rd) (u := strain (begun s.hw c) k) (v := ssOk) ?_) fun t ⟨hg, _, hrest⟩ => ?_
  · simp only [gv_begun, ← hk, if_neg (Nat.not_le.2 h4), hbb, Bool.false_eq_true, if_false]
  · rw [hrest.fields _ (seam_id_ne_halted (k := k) (by simp [K.SEAM_CTL_EN])),
      hrest.fields _ (seam_id_ne_halted (k := k) (by simp [K.SEAM_STAT_STATE])),
      hrest.fields _ (seam_id_ne_halted (k := k) (by simp [K.SEAM_STAT_NOHUB]))]
    refine ⟨?_, strain_starts h4 _⟩
    rw [hg]
    split <;> rfl

end

section
variable (r : DevReady s.hw c (wordA 0x15 3 rd rs1 rs2) [rd, rs1, rs2] false) (hk : k = (s.hw.g c rs1).toNat % 8) (h4 : k < 4)
include r hk h4

theorem splan_queries (hv : (s.hw.g c rs2).toNat % 4 = 1) (hb : seamBusy s.hw k = false) :
    Ends (exec (.splanQuery c rd rs1 rs2) s) fun t =>
      Answers s t c rd (queryPlan s.hw k (bits (s.hw.g c rs2).toNat 5 4)) ∧ t.hw.seam = s.hw.seam := by
  have hbb : seamBusy (begun s.hw c) k = false := hb
  refine Ends.imp (devOp_only_answers r ?_) fun _ ⟨hans, hrest⟩ => ⟨hans, hrest.seam⟩
  simp only [gv_begun, ← hk, splan, if_neg (Nat.not_le.2 h4), hv, hbb, Bool.false_eq_true, if_false]
  rfl

theorem splan_retires (hv : (s.hw.g c rs2).toNat % 4 = 2) (hl : seamLive s.hw k = true)
    (hr : isRetired s.hw k (bits (s.hw.g c rs2).toNat 8 8) (bits (s.hw.g c rs2).toNat 22 16) = false) :
    Ends (exec (.splanRetire c rd rs1 rs2) s) fun t => t.hw.g c rd = 0 ∧
      t.hw.rd (K.SEAM_GRP_STAT_GSTATE k (bits (s.hw.g c rs2).toNat 8 8) (bits (s.hw.g c rs2).toNat 22 16)) = gRetired ∧
      t.hw.rd (K.SEAM_STAT_STATE k) = 6 ∧ (t.hw.seamSt k).planDue = true := by
  have hlb : seamLive (begun s.hw c) k = true := hl
  have hrb : isRetired (begun s.hw c) k (bits (s.hw.g c rs2).toNat 8 8) (bits (s.hw.g c rs2).toNat 22 16) = false := hr
  refine Ends.imp (devOp_status r (rd := rd) (v := ssOk)
    (u := retireGroup (begun s.hw c) k (bits (s.hw.g c rs2).toNat 8 8) (bits (s.hw.g c rs2).toNat 22 16)) ?_)
    fun t ⟨hg, _, hrest⟩ => ?_
  · simp only [gv_begun, ← hk, splan, if_neg (Nat.not_le.2 h4), hv, hlb, hrb, Bool.not_true, Bool.false_eq_true, if_false]
  · rw [hrest.fields _ (seam_id_ne_halted (k := k) (by simp [K.SEAM_GRP_STAT_GSTATE]; omega)),
      hrest.fields _ (seam_id_ne_halted (k := k) (by simp [K.SEAM_STAT_STATE])), hrest.seamSt]
    refine ⟨?_, retireGroup_fabric _ k h4 hrb⟩
    rw [hg]
    split <;> rfl

end

/-- The state, the plan and the groups of a direction of a seam, in their places of the result word of SWIDTH (R232). -/
def widthWord (h : Hw) (k d : Nat) : Nat :=
  seamState h k * 2 ^ 52 + (if k < 4 then h.rd (K.SEAM_STAT_PLAN k) else 0) * 2 ^ 48 + (retiredGroups h k d).length * 2 ^ 40 +
    ((List.range (seamGroups k)).filter fun g => h.rd (K.SEAM_GRP_STAT_GSTATE k d g) == gLive).length * 2 ^ 32

theorem exec_swidth : exec (.swidth c rd rs1 rs2) s =
    doHw s fun h => devOp h c (wordA 0x15 2 rd rs1 rs2) [rd, rs1, rs2] false fun h =>
      some (status h c rd (widthWord h (gv h c rs1 % 8) (gv h c rs2 % 2) + ssOk)) := rfl

theorem widthWord_begun (h : Hw) (d : Nat) : widthWord (begun h c) k d = widthWord h k d := by
  have hret : isRetired (begun h c) k d = isRetired h k d := rfl
  simp only [widthWord, seamState, retiredGroups, hret, Hw.rd_begun]

/-- The status code OK adds nothing to a result word. -/
theorem add_ssOk (n : Nat) : n + ssOk = n := by simp [ssOk]

/-- SWIDTH changes nothing but rd and the pc. -/
theorem swidth_reports {d : Nat} (r : DevReady s.hw c (wordA 0x15 2 rd rs1 rs2) [rd, rs1, rs2] false)
    (hk : k = (s.hw.g c rs1).toNat % 8) (hd : d = (s.hw.g c rs2).toNat % 2) :
    Ends (exec (.swidth c rd rs1 rs2) s) fun t =>
      Answers s t c rd (widthWord s.hw k d) ∧ t.hw.seam = s.hw.seam ∧ t.hw.mem = s.hw.mem := by
  rw [exec_swidth]
  refine Ends.imp (devOp_only_answers r ?_) fun _ ⟨hans, hrest⟩ => ⟨hans, hrest.seam, hrest.mem⟩
  simp only [gv_begun, ← hk, ← hd, widthWord_begun, add_ssOk]

end

/-- Settles O25: STRAIN, SWIDTH and SPLAN act by the seam and the state it stands in. -/
theorem seamOps : Obligations.SeamOps := by
  unfold Obligations.SeamOps
  refine ⟨fun s c rd rs1 k r hk => ⟨?_, ?_, ?_⟩, fun s c rd rs1 rs2 k d r hk hd => ?_,
    fun s c rd rs1 rs2 k r hk h4 => ⟨?_, ?_⟩⟩
  · exact strain_refused r hk
  · exact strain_busy r hk
  · exact strain_trains r hk
  · exact swidth_reports r hk hd
  · exact splan_queries r hk h4
  · exact splan_retires r hk h4

end Sys2Proof.Machine
end

section
/-!
PROOF. What every step keeps: the queue of commands behind it, and the non-volatile memories, which only grow.
-/
namespace Sys2Proof.Machine

/-! ### Commands that act on the device alone -/

/-- The outcome is a next state that differs from s in the device alone. -/
def OnDevice (o : Host.Outcome State Fault Refusal) (s : State) : Prop := ∃ h, o = .next { s with hw := h }

theorem onDevice_doHw (s : State) (f : Hw → Hw) : OnDevice (doHw s f) s := ⟨f s.hw, rfl⟩

/-- The commands that may change a non-volatile memory. -/
def writesNonVol : Instr → Bool
  | .powerOnReset _ | .coldReset | .warmReset | .dieReset _ | .flashOpComplete _ | .fuseprogComplete _ | .optwr .. |
    .optwrComplete _ => true
  | _ => false

theorem exec_onDevice {i : Instr} (s : State) (hi : writesNonVol i = false) : OnDevice (exec i s) s := by
  cases i
  case powerOnReset | coldReset | warmReset | dieReset | flashOpComplete | fuseprogComplete | optwr | optwrComplete => cases hi
  all_goals exact onDevice_doHw s _

/-! ### Non-volatile memories that only grow -/

namespace NonVol
variable {u v w : NonVol}

theorem Outlasts.refl (v : NonVol) : v.Outlasts v := ⟨fun _ _ h => h, Nat.le_refl _, Nat.le_refl _⟩

theorem Outlasts.trans (a : w.Outlasts v) (b : v.Outlasts u) : w.Outlasts u := by
  obtain ⟨fuseA, optA, optB⟩ := a
  obtain ⟨fuseB, optA', optB'⟩ := b
  exact ⟨fun word bit h => fuseA word bit (fuseB word bit h), optA'.trans optA, optB'.trans optB⟩

/-- The user flash is no part of what must last. -/
theorem outlasts_flash (v : NonVol) (f : List (Nat × Nat)) : ({ v with flash := f } : NonVol).Outlasts v := Outlasts.refl v

end NonVol

/-- Blowing fuses clears none. -/
theorem outlasts_blow (v : NonVol) (w b : Nat) : (blow v w b).Outlasts v := by
  refine ⟨fun word bit h => ?_, Nat.le_refl _, Nat.le_refl _⟩
  by_cases e : word = w
  · subst e; simp [blow, Nat.testBit_or, h]
  · simpa [blow, SMap.get_set_ne _ e] using h

/-- A change of an option copy that does not lower its write counter. -/
theorem outlasts_onCopy (v : NonVol) (b : Bool) {f : OptCopy → OptCopy} (hf : ∀ x, x.writes ≤ (f x).writes) :
    (onCopy v b f).Outlasts v := by
  cases b
  · exact ⟨fun _ _ h => h, hf _, Nat.le_refl _⟩
  · exact ⟨fun _ _ h => h, Nat.le_refl _, hf _⟩

theorem outlasts_beginCopy (v : NonVol) (b : Bool) : (beginCopy v b).Outlasts v := outlasts_onCopy v b fun _ => Nat.le_succ _

theorem outlasts_flashEnds (v : NonVol) (h : Hw) (n : Nat) : (flashEnds v h n).1.Outlasts v := by
  unfold flashEnds
  split
  · exact .refl v
  · split
    · exact .refl v
    · exact v.outlasts_flash _
    · exact v.outlasts_flash _

theorem outlasts_flashCut (v : NonVol) (h : Hw) (n : Nat) : (flashCut v h n).1.Outlasts v := by
  unfold flashCut
  split
  · exact .refl v
  · simp only [Hw.draw]
    split
    · exact .refl v
    · exact v.outlasts_flash _
    · exact v.outlasts_flash _

theorem outlasts_cutFlashes (v : NonVol) (h : Hw) : (cutFlashes v h).1.Outlasts v := by
  unfold cutFlashes
  generalize List.range 4 = l
  induction l generalizing v h with
  | nil => exact .refl v
  | cons n l ih => exact (ih _ _).trans (outlasts_flashCut v h n)

theorem outlasts_coldReset (v : NonVol) (h : Hw) : (coldReset v h).1.Outlasts v := outlasts_cutFlashes v _
theorem outlasts_warmReset (v : NonVol) (h : Hw) : (warmReset v h).1.Outlasts v := by
  have key := outlasts_cutFlashes v (endSession h lostReset)
  unfold warmReset
  generalize cutFlashes v (endSession h lostReset) = x at key ⊢
  obtain ⟨w, g⟩ := x
  simpa only using key
theorem outlasts_powerOn (v : NonVol) (h : Hw) (rail : CoreRail) : (powerOn v h rail).1.Outlasts v := outlasts_coldReset v h

theorem outlasts_resetActs (v : NonVol) (h : Hw) (cold : Bool) : (resetActs v h cold).1.Outlasts v := by
  unfold resetActs
  split
  · exact .refl v
  · split
    · exact outlasts_coldReset v h
    · exact outlasts_warmReset v h

theorem outlasts_dieReset (v : NonVol) (h : Hw) (n : Nat) : (dieReset v h n).1.Outlasts v := by
  unfold dieReset
  simp only
  split
  · exact .refl v
  · exact outlasts_flashCut v _ n

/-! ### What every command and every step does -/

/-- Every command answers a next state with the same queue, whose non-volatile memories have only grown. -/
theorem exec_next (i : Instr) (s : State) :
    ∃ v h, exec i s = .next { s with nv := v, hw := h } ∧ v.Outlasts s.nv := by
  cases hi : writesNonVol i
  case false =>
    obtain ⟨h, e⟩ := exec_onDevice s hi
    exact ⟨s.nv, h, e, .refl _⟩
  case true =>
    cases i <;> try cases hi
    case powerOnReset rail => exact ⟨_, _, rfl, outlasts_powerOn s.nv s.hw rail⟩
    case coldReset => exact ⟨_, _, rfl, outlasts_resetActs s.nv s.hw true⟩
    case warmReset => exact ⟨_, _, rfl, outlasts_resetActs s.nv s.hw false⟩
    case dieReset d => exact ⟨_, _, rfl, outlasts_dieReset s.nv s.hw d.val⟩
    case flashOpComplete d => exact ⟨_, _, rfl, outlasts_flashEnds s.nv s.hw d.val⟩
    case fuseprogComplete ok =>
      simp only [exec, execFuseprogComplete]
      split
      · exact ⟨_, _, rfl, .refl _⟩
      · exact ⟨_, _, rfl, outlasts_blow s.nv _ _⟩
    case optwr c rd rs1 =>
      simp only [exec, execOptwr]
      split
      · exact ⟨_, _, rfl, .refl _⟩
      · split
        · exact ⟨_, _, rfl, outlasts_beginCopy s.nv _⟩
        · exact ⟨_, _, rfl, .refl _⟩
    case optwrComplete ok =>
      simp only [exec, execOptwrComplete]
      split
      · exact ⟨_, _, rfl, .refl _⟩
      · exact ⟨_, _, rfl, outlasts_onCopy s.nv _ fun _ => Nat.le_refl _⟩

/-- Settles O3: a command's effect leaves the queue alone. -/
theorem effectLeavesQueue : Obligations.EffectLeavesQueue := by
  unfold Obligations.EffectLeavesQueue
  intro i s t e
  obtain ⟨v, h, e', -⟩ := exec_next i s
  rw [e'] at e
  cases e
  rfl

/-- Settles O4: every command answers a next state. That it does so where its precondition fails is the model's choice
(log entry 3). -/
theorem noCommandStops : Obligations.NoCommandStops := by
  unfold Obligations.NoCommandStops
  intro i s
  obtain ⟨v, h, e, -⟩ := exec_next i s
  exact ⟨_, e⟩

/-- Settles O5: a tick leaves the non-volatile memories alone, and each command's effect only lets them grow. -/
theorem nonvolatileOutlasts : Obligations.NonvolatileOutlasts := by
  unfold Obligations.NonvolatileOutlasts
  intro v s t hs e
  unfold step at e
  split at e
  case h_1 => cases e; exact hs
  case h_2 i rest _ =>
    obtain ⟨w, h, e', hw⟩ := exec_next i { s with pending := rest }
    rw [e'] at e
    cases e
    exact hw.trans hs

/-- Settles O1: a step takes the command in front of the queue. -/
theorem stepTakesFront : Obligations.StepTakesFront := by
  unfold Obligations.StepTakesFront
  intro s i rest e
  rw [step, e]

/-! ### Ticks and reset -/

/-- A tick before the survey PLL has locked changes nothing. -/
theorem tickHw_unlocked {h : Hw} (hs : h.bit K.CLK_STAT_SLOCK = false) : tickHw h = h := by simp [tickHw, hs]

/-- Before the foreman runs, a tick counts GRIDTIME and nothing else. -/
theorem tickHw_locked {h : Hw} (hs : h.bit K.CLK_STAT_SLOCK = true) (hr : hubRuns h = false) :
    tickHw h = h.wr K.CLK_GRIDTIME_TIME ((h.now + 1) % 2 ^ 64) := by
  have run (n : Nat) : hubRuns (h.wr K.CLK_GRIDTIME_TIME n) = false := hr
  simp [tickHw, hs, run]

/-- Settles O2: with no command waiting a step is a tick, which before the foreman runs counts GRIDTIME alone. -/
theorem emptyQueueTicks : Obligations.EmptyQueueTicks := by
  unfold Obligations.EmptyQueueTicks
  intro s e
  refine ⟨tick s, by rw [step, e], e, rfl, fun hs => ?_, fun hs hr => ?_⟩
  · rw [tick, State.onHw, tickHw_unlocked hs]
  · rw [tick, State.onHw, tickHw_locked hs hr]
    refine ⟨?_, rfl⟩
    rw [Hw.now, Hw.rd_wr_self, show 2 ^ K.CLK_GRIDTIME_TIME.w = 2 ^ 64 from rfl, Nat.mod_mod]

/-- Settles O6: the tables of the reset state list one field, the POR cause, and nothing else. -/
theorem resetState : Obligations.ResetState := by
  unfold Obligations.ResetState
  refine ⟨rfl, .refl _, rfl, fun _ => rfl, rfl, fun k hk => ?_, fun c r => ?_⟩
  · simp [Hw.rd, State.reset, SMap.get, Ne.symm hk]
  · by_cases hr : r = 0 <;> simp [Hw.g, Hw.core, State.reset, hr]

/-! ### Memory -/

namespace Mem

/-- One byte of a store of several. -/
def writeEnabled (m : Mem) (a data be i : Nat) : Mem :=
  if be.testBit i then m.writeByte (a + i) (BitVec.ofNat 8 (data / 256 ^ i)) else m

theorem readByte_writeEnabled_ne (m : Mem) {a i p : Nat} (data be : Nat) (hp : p ≠ a + i) :
    (m.writeEnabled a data be i).readByte p = m.readByte p := by
  unfold writeEnabled
  split
  · exact readByte_writeByte_ne m hp _
  · rfl

theorem writeN_zero (m : Mem) (a data be : Nat) : m.writeN a 0 data be = m := rfl

/-- A store of n + 1 bytes stores its last byte last. -/
theorem writeN_succ (m : Mem) (a n data be : Nat) : m.writeN a (n + 1) data be = (m.writeN a n data be).writeEnabled a data be n := by
  simp [writeN, writeEnabled, List.range_succ]

/-- A store changes no byte outside its bytes. -/
theorem readByte_writeN_out (m : Mem) {a n p : Nat} (data be : Nat) (hp : p < a ∨ a + n ≤ p) :
    (m.writeN a n data be).readByte p = m.readByte p := by
  induction n with
  | zero => rfl
  | succ n ih => rw [writeN_succ, readByte_writeEnabled_ne _ _ _ (by omega), ih (by omega)]

/-- A byte stored reads as stored. -/
theorem readByte_writeN_in (m : Mem) {a n i data be : Nat} (hi : i < n) (hb : be.testBit i = true) :
    (m.writeN a n data be).readByte (a + i) = BitVec.ofNat 8 (data / 256 ^ i) := by
  induction n with
  | zero => cases hi
  | succ n ih =>
    rw [writeN_succ]
    by_cases e : i = n
    · subst e; simp [writeEnabled, hb]
    · rw [readByte_writeEnabled_ne _ _ _ (by omega), ih (by omega)]

end Mem

/-- Settles O7: bytes read as stored, the others as before, and every store keeps the canonical form. -/
theorem memoryReadAfterWrite : Obligations.MemoryReadAfterWrite := by
  unfold Obligations.MemoryReadAfterWrite
  intro m a b hm
  exact ⟨m.readByte_writeByte_self a b, fun p hp => m.readByte_writeByte_ne hp b, Mem.wf_writeByte hm a b,
    fun n data be => ⟨Mem.wf_writeN hm a n data be, fun i hi hb => m.readByte_writeN_in hi hb,
      fun p hp => m.readByte_writeN_out data be hp⟩⟩

end Sys2Proof.Machine
end

section
/-!
PROOF. Loads and stores (R182 to R184): local SRAM, the way to the Gallery, and the responses.
-/
namespace Sys2Proof.Machine

/-! ### Values -/

/-- What a load writes is its bytes sign-extended or zero-extended. -/
theorem extend_eq_widened {size : Nat} (hs : size = 1 ∨ size = 2 ∨ size = 4 ∨ size = 8) (sg : Bool) (v : Nat) :
    extend size sg v = widened size sg v := by
  have hp : 256 ^ size = 2 ^ (8 * size) := by rw [Nat.pow_mul]
  have hle : 2 ^ (8 * size) ≤ 2 ^ 64 := Nat.pow_le_pow_right (by decide) (by omega)
  have hlt : v % 2 ^ (8 * size) < 2 ^ (8 * size) := Nat.mod_lt _ (Nat.two_pow_pos _)
  unfold extend widened
  cases sg
  case false =>
    apply BitVec.eq_of_toNat_eq
    simp [hp]
  case true =>
    apply BitVec.eq_of_toInt_eq
    simp only [Bool.true_and, decide_eq_true_eq, if_true]
    rw [BitVec.toInt_signExtend_of_le (by omega), BitVec.toInt_eq_toNat_cond (BitVec.ofNat _ _), BitVec.toNat_ofNat]
    have hc : ((256 ^ size : Nat) : Int) = ((2 ^ (8 * size) : Nat) : Int) := by rw [hp]
    push_cast at hc
    rw [hp, hc]
    generalize v % 2 ^ (8 * size) = x at *
    have hcast : ((2 ^ (8 * size) : Nat) : Int) = (2 : Int) ^ (8 * size) := by push_cast; rfl
    rw [← hcast]
    generalize 2 ^ (8 * size) = m at *
    split
    case isTrue hneg =>
      rw [if_neg (by omega), BitVec.toInt_ofInt, Int.bmod_eq_of_le (by omega) (by omega)]
    case isFalse hpos =>
      rw [if_pos (by omega), ← BitVec.ofInt_natCast, BitVec.toInt_ofInt, Int.bmod_eq_of_le (by omega) (by omega)]

theorem size_of_loadForm : ∀ f ∈ loadForms, f.2.2.1 = 1 ∨ f.2.2.1 = 2 ∨ f.2.2.1 = 4 ∨ f.2.2.1 = 8 := by
  simp [loadForms]

/-! ### Issue -/

/-- A ready core outside a sequence runs the effect of the instruction and is done. -/
theorem runIns_outside {h u : Hw} {c : Core} {i : Ins} {act : Hw → Option Hw} (r : Ready h c i) (hs : openSeq h c = none)
    (ha : act (begun h c) = some u) : runIns h c i act = retire u c := by
  rw [runIns_ready r ha, hs]
  rfl

@[simp] theorem openSeq_begun (h : Hw) (c : Core) : openSeq (begun h c) c = openSeq h c := by simp [openSeq, begun]

/-- The effect of a load. -/
def loadAct (c : Core) (word : Nat) (rd rs1 : Reg) (imm : BitVec 12) (size : Nat) (signed : Bool) (h : Hw) : Option Hw :=
  let a := effAddr h c rs1 imm
  if a % size ≠ 0 then some (trapHere h c cMisalign a)
  else match openSeq h c with
    | some l => lockedLoad h c l word rd a size signed
    | none => if romLo ≤ a then some (localLoad h c rd a size signed) else hubLoad h c rd a size signed

/-- The effect of a store. -/
def storeAct (c : Core) (word : Nat) (rs1 rs2 : Reg) (imm : BitVec 12) (size : Nat) (h : Hw) : Option Hw :=
  let a := effAddr h c rs1 imm
  let v := (h.g c rs2).toNat
  if a % size ≠ 0 then some (trapHere h c cMisalign a)
  else match openSeq h c with
    | some l => some (lockedStore h c l word a size v)
    | none => if romLo ≤ a then some (localStore h c a size v) else hubStore h c a size v

theorem exec_loadForm : ∀ f ∈ loadForms, ∀ (s : State) (c : Core) (rd rs1 : Reg) (imm : BitVec 12),
    exec (f.1 c rd rs1 imm) s = doHw s fun h => runIns h c (plainIns (wordI 0x03 f.2.1 rd rs1 imm) [rd, rs1])
      (loadAct c (wordI 0x03 f.2.1 rd rs1 imm) rd rs1 imm f.2.2.1 f.2.2.2) := by
  simp only [loadForms, List.forall_mem_cons]
  exact ⟨fun _ _ _ _ _ => rfl, fun _ _ _ _ _ => rfl, fun _ _ _ _ _ => rfl, fun _ _ _ _ _ => rfl,
    fun _ _ _ _ _ => rfl, fun _ _ _ _ _ => rfl, fun _ _ _ _ _ => rfl, by simp⟩

theorem exec_storeForm : ∀ f ∈ storeForms, ∀ (s : State) (c : Core) (rs1 rs2 : Reg) (imm : BitVec 12),
    exec (f.1 c rs1 rs2 imm) s = doHw s fun h => runIns h c (plainIns (wordS 0x04 f.2.1 rs1 rs2 imm) [rs1, rs2])
      (storeAct c (wordS 0x04 f.2.1 rs1 rs2 imm) rs1 rs2 imm f.2.2) := by
  simp only [storeForms, List.forall_mem_cons]
  exact ⟨fun _ _ _ _ _ => rfl, fun _ _ _ _ _ => rfl, fun _ _ _ _ _ => rfl, fun _ _ _ _ _ => rfl, by simp⟩

section
variable {h : Hw} {c : Core} {word a size : Nat} {rd rs1 rs2 : Reg} {imm : BitVec 12} {signed : Bool}

theorem effAddr_begun (ha : a = (h.g c rs1 + imm.signExtend 64).toNat) : effAddr (begun h c) c rs1 imm = a := by
  simp [effAddr, ha]

section
variable (ha : a = (h.g c rs1 + imm.signExtend 64).toNat)
include ha

theorem loadAct_misaligned (hm : a % size ≠ 0) :
    loadAct c word rd rs1 imm size signed (begun h c) = some (trapHere (begun h c) c cMisalign a) := by
  simp [loadAct, effAddr_begun ha, hm]

theorem storeAct_misaligned (hm : a % size ≠ 0) :
    storeAct c word rs1 rs2 imm size (begun h c) = some (trapHere (begun h c) c cMisalign a) := by
  simp [storeAct, effAddr_begun ha, hm]

variable (hs : openSeq h c = none) (hm : a % size = 0)
include hs hm

theorem loadAct_local (hr : romLo ≤ a) :
    loadAct c word rd rs1 imm size signed (begun h c) = some (localLoad (begun h c) c rd a size signed) := by
  simp [loadAct, effAddr_begun ha, hm, hs, hr]

theorem loadAct_hub (hr : a < romLo) :
    loadAct c word rd rs1 imm size signed (begun h c) = hubLoad (begun h c) c rd a size signed := by
  simp [loadAct, effAddr_begun ha, hm, hs, Nat.not_le.2 hr]

theorem storeAct_local (hr : romLo ≤ a) :
    storeAct c word rs1 rs2 imm size (begun h c) = some (localStore (begun h c) c a size (h.g c rs2).toNat) := by
  simp [storeAct, effAddr_begun ha, hm, hs, hr]

theorem storeAct_hub (hr : a < romLo) :
    storeAct c word rs1 rs2 imm size (begun h c) = hubStore (begun h c) c a size (h.g c rs2).toNat := by
  simp [storeAct, effAddr_begun ha, hm, hs, Nat.not_le.2 hr]

end

theorem romLo_le_of_local (hl : 0xFFFFFFFFFFFC0000 ≤ a) : romLo ≤ a := by unfold romLo; omega

/-- A load from clean local SRAM writes rd. -/
theorem localLoad_clean (hl : 0xFFFFFFFFFFFC0000 ≤ a) (hc : (h.mem.seen (localAt c a) size).all (fun x => x.2 == .clean) = true) :
    localLoad h c rd a size signed = result h c rd (extend size signed (h.mem.readN (localAt c a) size)) := by
  simp [localLoad, localLo, hl, memRead_of_clean hc]

end

/-- Settles O12: a clean load is an instruction that computes rd from memory. -/
theorem localLoads : Obligations.LocalLoads := by
  unfold Obligations.LocalLoads
  intro f hf s c rd rs1 imm r hs hm hl hc
  rw [exec_loadForm f hf]
  have act := loadAct_local (word := wordI 0x03 f.2.1 rd rs1 imm) (rd := rd) (signed := f.2.2.2) rfl hs hm (romLo_le_of_local hl)
  rw [localLoad_clean hl (by simpa [begun] using hc)] at act
  refine Ends.imp (issue_ends (dst := [rd]) r act (.result _ _) fun q hq => ?_) fun t ⟨hg, hpc, hrest⟩ => ⟨?_, ?_, hrest⟩
  · simp [result, Hw.g_setG_ne _ _ (List.ne_of_not_mem_cons hq)]
  · simp [hg, result, begun, extend_eq_widened (size_of_loadForm f hf)]
  · simp [hpc, result]

/-! ### Stores to local SRAM -/

theorem testBit_allOn {n i : Nat} (hi : i < n) : (allOn n).testBit i = true := by
  simp [allOn, Nat.testBit_two_pow_sub_one, hi]

section
variable {h : Hw} {c : Core} {a size : Nat}

/-- A store to local SRAM that nothing holds back. -/
theorem localStore_writes (hl : 0xFFFFFFFFFFFC0000 ≤ a) (ht : testHits h (.core c) (localAt c a) = false)
    (hp : prioHolds h (some c.val) (localAt c a) size = false) (data : Nat) : localStore h c a size data =
      advance (touchLines { h with mem := h.mem.writeN (localAt c a) size data (allOn size) } (some c.val) (localAt c a) size) c := by
  simp [localStore, localLo, hl, storeBytes, ht, hubWrite_eq hp]

/-- A core's own write leaves its registers alone. -/
theorem g_touchLines_self (h : Hw) (c : Core) (a n : Nat) (r : Reg) : (touchLines h (some c.val) a n).g c r = h.g c r := by
  simp [Hw.g, core_touchLines_self]

theorem rd_touchLines (h : Hw) (who : Option Nat) (a n : Nat) (k : Key) : (touchLines h who a n).rd k = h.rd k :=
  Hw.rd_congr (csr_touchLines h who a n) k

end

/-- Settles O13: a store nothing holds back writes its bytes. -/
theorem localStores : Obligations.LocalStores := by
  unfold Obligations.LocalStores
  intro f hf s c rs1 rs2 imm a r hs ha hm hl ht hp
  rw [exec_storeForm f hf]
  have act := storeAct_local (word := wordS 0x04 f.2.1 rs1 rs2 imm) (rs2 := rs2) ha hs hm (romLo_le_of_local hl)
  rw [localStore_writes (h := begun s.hw c) hl ht (prioHolds_begun hp)] at act
  have mem : (runIns s.hw c (plainIns (wordS 0x04 f.2.1 rs1 rs2 imm) [rs1, rs2])
      (storeAct c (wordS 0x04 f.2.1 rs1 rs2 imm) rs1 rs2 imm f.2.2)).mem =
        s.hw.mem.writeN (localAt c a) f.2.2 (s.hw.g c rs2).toNat (allOn f.2.2) := by
    rw [runIns_outside r hs act, mem_retire, StaysIn.advance.mem, mem_touchLines]
    rfl
  refine ⟨_, rfl, fun i hi => ?_, fun p hp => ?_, ?_, fun q => ?_, fun k hk => ?_⟩
  · simp only [State.onHw, mem]
    exact Mem.readByte_writeN_in _ hi (testBit_allOn hi)
  · simp only [State.onHw, mem]
    exact Mem.readByte_writeN_out _ _ _ hp
  · simp only [State.onHw, pc_runIns r act, Hw.pc_advance, pc_touchLines_self]
    exact congrArg (· + 4) (Hw.pc_begun _ _)
  · simp only [State.onHw, g_runIns r act, Hw.g_advance, g_touchLines_self]
    exact Hw.g_begun _ _ q
  · simp only [State.onHw, runIns_outside r hs act, Hw.rd_retire _ _ hk, StaysIn.advance.fields k hk, rd_touchLines]
    rfl

/-! ### Accesses on the Gallery -/

section
variable {h : Hw} {c : Core} {a size : Nat}

/-- A load that finds a free slot puts its request on the Gallery and takes the slot. -/
theorem hubLoad_issues (hl : (h.core c.val).loads.length < 8) (rd : Reg) (signed : Bool) : hubLoad h c rd a size signed =
    some (advance ((issue h (.core c) .read a size 0 0 0).2.onCore c.val fun x =>
      { x with loads := x.loads ++ [⟨h.gal.nextId, rd, a, size, signed, false⟩] }) c) := by
  simp [hubLoad, Nat.not_le.2 hl, issue]

/-- A store that finds the buffer not full puts its request on the Gallery and enters the buffer. -/
theorem hubStore_issues (hl : (h.core c.val).stores.length < 16) (data : Nat) : hubStore h c a size data =
    some (advance ((issue h (.core c) .write a size (data % 256 ^ size) (allOn size) 0).2.onCore c.val fun x =>
      { x with stores := x.stores ++ [⟨h.gal.nextId, a, false⟩] }) c) := by
  simp [hubStore, Nat.not_le.2 hl, issue]

end

/-- An access that has gone out: what the core and the Gallery hold once the instruction is over. -/
theorem access_goes_out {s : State} {c : Core} {i : Ins} {act : Hw → Option Hw} {f : CoreSt → CoreSt} {u : Hw}
    (r : Ready s.hw c i) (hs : openSeq s.hw c = none)
    (ha : act (begun s.hw c) = some (advance (u.onCore c.val f) c))
    (hregs : ∀ x, (f x).regs = x.regs) (hpc : ∀ x, (f x).pc = x.pc)
    (hcore : u.core c.val = (begun s.hw c).core c.val) (hmem : u.mem = s.hw.mem) (hcsr : u.csr = s.hw.csr) :
    Ends (doHw s fun h => runIns h c i act) fun t => t.hw.gal = u.gal ∧
      (t.hw.core c.val).loads = (f ((begun s.hw c).core c.val)).loads ∧
      (t.hw.core c.val).stores = (f ((begun s.hw c).core c.val)).stores ∧
      t.hw.pc c = s.hw.pc c + 4 ∧ (∀ q, t.hw.g c q = s.hw.g c q) ∧ t.hw.mem = s.hw.mem ∧
      ∀ k : Key, k.id ≠ K.ADIT_HALTED_CORES.id → t.hw.rd k = s.hw.rd k := by
  have st : StaysIn (u.onCore c.val f) (runIns s.hw c i act) c := by
    rw [runIns_outside r hs ha]
    exact StaysIn.advance.trans .retire
  have hat : (u.onCore c.val f).core c.val = f ((begun s.hw c).core c.val) := by rw [Hw.core_onCore_self, hcore]
  refine ⟨_, rfl, st.rest.1, ?_, ?_, ?_, fun q => ?_, st.mem.trans hmem, fun k hk => (st.fields k hk).trans ?_⟩
  · rw [State.onHw, st.loads, hat]
  · rw [State.onHw, st.stores, hat]
  · rw [State.onHw, pc_runIns r ha, Hw.pc_advance, Hw.pc, hat, hpc, ← Hw.pc, Hw.pc_begun]
  · rw [State.onHw, g_runIns r ha, Hw.g_advance, Hw.g, hat, hregs, ← Hw.g, Hw.g_begun]
  · rw [Hw.rd_onCore, Hw.rd_congr hcsr]

theorem load_goes_out {f : (Core → Reg → Reg → BitVec 12 → Instr) × Nat × Nat × Bool} (hf : f ∈ loadForms) {s : State} {c : Core} {rd rs1 : Reg} {imm : BitVec 12} {a : Nat}
    (r : Ready s.hw c (plainIns (wordI 0x03 f.2.1 rd rs1 imm) [rd, rs1])) (hs : openSeq s.hw c = none)
    (ha : a = (s.hw.g c rs1 + imm.signExtend 64).toNat) (hm : a % f.2.2.1 = 0) (hl : a < 0xFFFFFFFFFFF00000)
    (hfree : (s.hw.core c.val).loads.length < 8) :
    Ends (exec (f.1 c rd rs1 imm) s) fun t =>
      t.hw.gal.reqs = s.hw.gal.reqs ++ [⟨s.hw.gal.nextId, .core c, .read, a, f.2.2.1, 0, 0, 0⟩] ∧
      (t.hw.core c.val).loads = (s.hw.core c.val).loads ++ [⟨s.hw.gal.nextId, rd, a, f.2.2.1, f.2.2.2, false⟩] ∧
      t.hw.pc c = s.hw.pc c + 4 ∧ (∀ r, t.hw.g c r = s.hw.g c r) ∧ t.hw.mem = s.hw.mem ∧
      ∀ k : Key, k.id ≠ K.ADIT_HALTED_CORES.id → t.hw.rd k = s.hw.rd k := by
  rw [exec_loadForm f hf]
  have act := loadAct_hub (word := wordI 0x03 f.2.1 rd rs1 imm) (rd := rd) (signed := f.2.2.2) ha hs hm hl
  rw [hubLoad_issues (by simpa [begun] using hfree)] at act
  refine Ends.imp (access_goes_out r hs act (fun _ => rfl) (fun _ => rfl) rfl rfl rfl) fun t ⟨hgal, hloads, _, hrest⟩ => ⟨?_, ?_, hrest⟩
  · rw [hgal]; rfl
  · rw [hloads]; simp [begun]

theorem store_goes_out {f : (Core → Reg → Reg → BitVec 12 → Instr) × Nat × Nat} (hf : f ∈ storeForms) {s : State} {c : Core} {rs1 rs2 : Reg} {imm : BitVec 12} {a : Nat}
    (r : Ready s.hw c (plainIns (wordS 0x04 f.2.1 rs1 rs2 imm) [rs1, rs2])) (hs : openSeq s.hw c = none)
    (ha : a = (s.hw.g c rs1 + imm.signExtend 64).toNat) (hm : a % f.2.2 = 0) (hl : a < 0xFFFFFFFFFFF00000)
    (hfree : (s.hw.core c.val).stores.length < 16) :
    Ends (exec (f.1 c rs1 rs2 imm) s) fun t =>
      t.hw.gal.reqs = s.hw.gal.reqs ++ [⟨s.hw.gal.nextId, .core c, .write, a, f.2.2, (s.hw.g c rs2).toNat % 256 ^ f.2.2,
        2 ^ f.2.2 - 1, 0⟩] ∧
      (t.hw.core c.val).stores = (s.hw.core c.val).stores ++ [⟨s.hw.gal.nextId, a, false⟩] ∧
      t.hw.pc c = s.hw.pc c + 4 ∧ (∀ r, t.hw.g c r = s.hw.g c r) ∧ t.hw.mem = s.hw.mem ∧
      ∀ k : Key, k.id ≠ K.ADIT_HALTED_CORES.id → t.hw.rd k = s.hw.rd k := by
  rw [exec_storeForm f hf]
  have act := storeAct_hub (word := wordS 0x04 f.2.1 rs1 rs2 imm) (rs2 := rs2) ha hs hm hl
  rw [hubStore_issues (by simpa [begun] using hfree)] at act
  refine Ends.imp (access_goes_out r hs act (fun _ => rfl) (fun _ => rfl) rfl rfl rfl) fun t ⟨hgal, _, hstores, hrest⟩ => ⟨?_, ?_, hrest⟩
  · rw [hgal]; rfl
  · rw [hstores]; simp [begun]

/-! ### Responses -/

/-- A response that has arrived is taken, and nothing but the Gallery changes. -/
theorem takeArrived_some {h : Hw} {id : Nat} {r : GResp} (hr : (h.gal.arrived.find? fun x => x.id == id) = some r) :
    ∃ u, takeArrived h id = some (r, u) ∧ u.mem = h.mem ∧ u.cores = h.cores ∧ u.csr = h.csr := by
  refine ⟨{ h with gal := { h.gal with arrived := h.gal.arrived.filter fun x => x.id != id } }, ?_, rfl, rfl, rfl⟩
  rw [takeArrived, hr]

theorem core_congr {g h : Hw} (e : g.cores = h.cores) (n : Nat) : g.core n = h.core n := by rw [Hw.core, e, Hw.core]

section
variable {s : State} {c : Core} {i : Nat} {r : GResp}

theorem load_response_ends {l : LoadSlot} (hl : (s.hw.core c.val).loads[i]? = some l)
    (hr : (s.hw.gal.arrived.find? fun x => x.id == l.id) = some r) (hok : r.status = .ok) (hd : l.dead = false) :
    Ends (exec (.loadResponse c i) s) fun t =>
      t.hw.g c l.rd = (if l.rd = 0 then 0 else extend l.size l.signed r.data) ∧
      (t.hw.core c.val).loads = (s.hw.core c.val).loads.eraseIdx i ∧ (∀ q, q ≠ l.rd → t.hw.g c q = s.hw.g c q) ∧
      t.hw.pc c = s.hw.pc c ∧ t.hw.mem = s.hw.mem := by
  obtain ⟨u, hu, hmem, hcores, -⟩ := takeArrived_some hr
  have hcore := core_congr hcores c.val
  have returns : loadReturns s.hw c i = (u.onCore c.val fun x => { x with loads := x.loads.eraseIdx i }).setG c l.rd
      (extend l.size l.signed r.data) := by simp [loadReturns, hl, hu, hok, hd]
  refine ⟨_, rfl, ?_⟩
  simp only [State.onHw, returns]
  refine ⟨Hw.g_setG_self .., ?_, fun q hq => ?_, ?_, ?_⟩
  · rw [(StaysIn.setG _ _).loads, Hw.core_onCore_self, hcore]
  · rw [Hw.g_setG_ne _ _ hq, Hw.g, Hw.core_onCore_self, hcore, Hw.g]
  · rw [Hw.pc_setG, Hw.pc, Hw.core_onCore_self, hcore, Hw.pc]
  · exact (StaysIn.setG _ _).mem.trans hmem

/-- Acknowledging the oldest store frees it and those acknowledged behind it. -/
theorem ackStore_oldest (l : List StoreSlot) : (ackStore l 0).dropWhile (·.acked) = l.tail.dropWhile (·.acked) := by
  cases l <;> simp [ackStore]

/-- Behind a store that is not acknowledged none leaves the buffer. -/
theorem ackStore_later {l : List StoreSlot} (hi : i ≠ 0) (hh : ∀ x, l[0]? = some x → x.acked = false) :
    (ackStore l i).dropWhile (·.acked) = ackStore l i := by
  cases l with
  | nil => simp [ackStore]
  | cons x xs =>
    obtain ⟨j, rfl⟩ := Nat.exists_eq_succ_of_ne_zero hi
    have hx : x.acked = false := hh x rfl
    simp [ackStore, hx]

theorem store_ack_ends {st : StoreSlot} (hst : (s.hw.core c.val).stores[i]? = some st)
    (hr : (s.hw.gal.arrived.find? fun x => x.id == st.id) = some r) (hok : r.status = .ok)
    (he : (s.hw.core c.val).ending = none) :
    Ends (exec (.storeAck c i) s) fun t =>
      (t.hw.core c.val).stores = (ackStore (s.hw.core c.val).stores i).dropWhile (·.acked) ∧
      (∀ q, t.hw.g c q = s.hw.g c q) ∧ t.hw.mem = s.hw.mem := by
  obtain ⟨u, hu, hmem, hcores, -⟩ := takeArrived_some hr
  have hcore := core_congr hcores c.val
  have returns : storeReturns s.hw c i =
      u.onCore c.val fun x => { x with stores := (ackStore x.stores i).dropWhile (·.acked) } := by
    simp [storeReturns, hst, hu, hok, tryEnd, hcore, he]
  refine ⟨_, rfl, ?_⟩
  simp only [State.onHw, returns]
  refine ⟨?_, fun q => ?_, hmem⟩
  · rw [Hw.core_onCore_self, hcore]
  · rw [Hw.g, Hw.core_onCore_self, hcore, Hw.g]

end

/-- Settles O14: the request stands on the Gallery with what the instruction names, and a response ends it. -/
theorem hubAccesses : Obligations.HubAccesses := by
  unfold Obligations.HubAccesses
  refine ⟨⟨fun f hf s c rd rs1 imm a r hs ha hm hl hfree => ?_, fun f hf s c rs1 rs2 imm a r hs ha hm hl hfree => ?_⟩,
    fun s c i l r hl hr hok hd => ?_, fun s c i st r hst hr hok he => ?_, fun size hs sg v => ?_⟩
  · exact load_goes_out hf r hs ha hm hl hfree
  · exact store_goes_out hf r hs ha hm hl hfree
  · exact load_response_ends hl hr hok hd
  · refine Ends.imp (store_ack_ends hst hr hok he) fun t ⟨hstores, hg, hmem⟩ => ⟨fun h0 => ?_, fun h0 hh => ?_, hg, hmem⟩
    · rw [hstores, h0, ackStore_oldest]
    · rw [hstores, ackStore_later h0 hh]; rfl
  · exact extend_eq_widened hs sg v

end Sys2Proof.Machine
end

section
/-!
PROOF. Traps of the foreman and of the crew (R183, R191 to R194).
-/
namespace Sys2Proof.Machine

/-! ### Logging without a posting -/

section
variable {h : Hw} {source : Nat}

theorem rd_logRaw {k : Key} (hk : OffSched k) (h : Hw) (source master code addr data : Nat) :
    (logRaw h source master code addr data).rd k = h.rd k := (kept_logRaw ..).rd k hk

/-- The log is written but nothing is posted where no code and no mask bit asks for it (R428). -/
theorem logEntry_unposted (hm : source ≠ srcMem) (hd : source ≠ srcDdr) (hp : h.rd K.ERR_POSTMASK_MASK = 0)
    (master code addr data : Nat) : logEntry h source master code addr data = logRaw h source master code addr data := by
  have hmask : (logRaw h source master code addr data).rd K.ERR_POSTMASK_MASK = 0 := by
    unfold logRaw
    simp (disch := (dsimp only [Key.id, K.ERR_LOGHEAD_NEXT, K.ERR_LOGHEAD_TOTAL, K.ERR_LOG_W_WORD, K.ERR_POSTMASK_MASK]; omega))
      only [Hw.rd_wr_ne, hp]
  simp [logEntry, hmask, hm, hd]

@[simp] theorem mem_logRaw (h : Hw) (source master code addr data : Nat) : (logRaw h source master code addr data).mem = h.mem := by
  simp -implicitDefEqProofs [logRaw]
@[simp] theorem cores_logRaw (h : Hw) (source master code addr data : Nat) :
    (logRaw h source master code addr data).cores = h.cores := by
  simp -implicitDefEqProofs [logRaw]
@[simp] theorem sched_logRaw (h : Hw) (source master code addr data : Nat) :
    (logRaw h source master code addr data).sched = h.sched := by
  simp -implicitDefEqProofs [logRaw]

end

/-! ### The foreman -/

/-- What a trap of the foreman does beside its record: it enters the handler, and an open sequence is broken and rests. -/
def enterHandler (h : Hw) : Hw :=
  (h.wr (K.CORE_CAUSE_TACTIVE 0) 1).onCore 0 fun x => { x with
    pc := BitVec.ofNat 64 ((h.wr (K.CORE_CAUSE_TACTIVE 0) 1).rd (K.CORE_TVEC_VEC 0) * 4)
    lock := x.lock.map fun l => { l with broken := true, suspended := true }
    pendErr := none }

@[simp] theorem cores_programTraps (h : Hw) (c : Core) (cause : Nat) : (programTraps h c cause).cores = h.cores := by
  unfold programTraps loadFails
  repeat' split
  all_goals rfl
@[simp] theorem mem_programTraps (h : Hw) (c : Core) (cause : Nat) : (programTraps h c cause).mem = h.mem := by
  unfold programTraps loadFails
  repeat' split
  all_goals rfl

@[simp] theorem g_enterHandler (h : Hw) (r : Reg) : (enterHandler h).g 0 r = h.g 0 r := by simp [enterHandler, Hw.g]
@[simp] theorem mem_enterHandler (h : Hw) : (enterHandler h).mem = h.mem := rfl

@[simp] theorem cores_recordTrap (h : Hw) (c : Core) (cause : Nat) (tval epc : Word) (im fe : Bool) :
    (recordTrap h c cause tval epc im fe).cores = h.cores := by simp -implicitDefEqProofs [recordTrap]
@[simp] theorem mem_recordTrap (h : Hw) (c : Core) (cause : Nat) (tval epc : Word) (im fe : Bool) :
    (recordTrap h c cause tval epc im fe).mem = h.mem := by simp -implicitDefEqProofs [recordTrap]

/-- The registers of a core stand in the table of cores. -/
theorem g_congr {g h : Hw} (e : g.cores = h.cores) (c : Core) (r : Reg) : g.g c r = h.g c r := by
  simp only [Hw.g, core_congr e]
theorem pc_congr {g h : Hw} (e : g.cores = h.cores) (c : Core) : g.pc c = h.pc c := by rw [Hw.pc, core_congr e, Hw.pc]

theorem trap_foreman {h : Hw} (ht : h.rd (K.CORE_CAUSE_TACTIVE 0) = 0) (cause : Nat) (tval epc : Word) (im fe : Bool) :
    trap h 0 cause tval epc im fe = enterHandler (recordTrap (programTraps h 0 cause) 0 cause tval epc im fe) := by
  have hb : (programTraps h 0 cause).bit (K.CORE_CAUSE_TACTIVE 0) = false := by
    simp [Hw.bit, rd_programTraps trapField_tactive, ht]
  simp [trap, isForeman, hb, enterHandler]

theorem trapField_epc (c : Nat) : TrapField (K.CORE_EPC_EPC c) := by
  simp [TrapField, K.CORE_EPC_EPC]; omega
theorem trapField_tvec (c : Nat) : TrapField (K.CORE_TVEC_VEC c) := by
  simp [TrapField, K.CORE_TVEC_VEC]; omega

theorem epc_recordTrap (h : Hw) (c : Core) (cause : Nat) (tval epc : Word) (im fe : Bool) :
    (recordTrap h c cause tval epc im fe).rd (K.CORE_EPC_EPC c.val) = epc.toNat / 4 * 4 := by
  have := epc.isLt
  simp (disch := (dsimp only [Key.id, K.CORE_EPC_EPC, K.CORE_CAUSE_FETCH, K.CORE_CAUSE_IMPRECISE, K.CORE_CAUSE_CODE,
    K.CORE_TVAL_TVAL]; omega)) only [recordTrap, Hw.wrB, Hw.rd_wr_ne, Hw.rd_wr_self]
  exact Nat.mod_eq_of_lt (by simp only [K.CORE_EPC_EPC]; omega)

theorem tvec_recordTrap (h : Hw) (cause : Nat) (tval epc : Word) (im fe : Bool) :
    (recordTrap h 0 cause tval epc im fe).rd (K.CORE_TVEC_VEC 0) = h.rd (K.CORE_TVEC_VEC 0) := by
  simp (disch := (dsimp only [Key.id, K.CORE_EPC_EPC, K.CORE_CAUSE_FETCH, K.CORE_CAUSE_IMPRECISE, K.CORE_CAUSE_CODE,
    K.CORE_TVAL_TVAL, K.CORE_TVEC_VEC]; omega)) only [recordTrap, Hw.wrB, Hw.rd_wr_ne]

/-- A trap of the foreman outside its handler. -/
theorem trap_foreman_enters {h : Hw} (ht : h.rd (K.CORE_CAUSE_TACTIVE 0) = 0) {cause : Nat} (hc : cause < 64) (tval epc : Word)
    (im fe : Bool) :
    (trap h 0 cause tval epc im fe).rd (K.CORE_EPC_EPC 0) = epc.toNat / 4 * 4 ∧
    (trap h 0 cause tval epc im fe).rd (K.CORE_TVAL_TVAL 0) = tval.toNat ∧
    (trap h 0 cause tval epc im fe).rd (K.CORE_CAUSE_CODE 0) = cause ∧
    (trap h 0 cause tval epc im fe).rd (K.CORE_CAUSE_TACTIVE 0) = 1 ∧
    (trap h 0 cause tval epc im fe).pc 0 = BitVec.ofNat 64 (h.rd (K.CORE_TVEC_VEC 0) * 4) ∧
    (∀ r, (trap h 0 cause tval epc im fe).g 0 r = h.g 0 r) ∧ (trap h 0 cause tval epc im fe).mem = h.mem := by
  refine ⟨?_, tval_trap (c := 0) (fun _ => ht) .., ?_, ?_, ?_, fun r => ?_, ?_⟩
  · rw [rd_trap (trapField_epc 0) (by decide) (fun _ => ht)]
    exact epc_recordTrap _ 0 ..
  · exact (code_trap (c := 0) (fun _ => ht) ..).trans (Nat.mod_eq_of_lt hc)
  · rw [trap_foreman ht, enterHandler, Hw.rd_onCore, Hw.rd_wr_self]
    rfl
  · rw [trap_foreman ht, enterHandler, Hw.pc]
    simp only [Fin.val_zero, Hw.core_onCore_self]
    rw [Hw.rd_wr_ne _ (by decide), tvec_recordTrap, rd_programTraps (trapField_tvec 0)]
  · rw [trap_foreman ht, g_enterHandler]
    exact g_congr (by simp) 0 r
  · rw [trap_foreman ht, mem_enterHandler, mem_recordTrap, mem_programTraps]

/-- What the issue logic does after an instruction's effect stays in the core. -/
theorem staysIn_runIns {h u : Hw} {c : Core} {i : Ins} {act : Hw → Option Hw} (r : Ready h c i)
    (ha : act (begun h c) = some u) : StaysIn u (runIns h c i act) c := by
  rw [runIns_ready r ha]
  refine StaysIn.trans ?_ .retire
  split
  · exact .countSeq i
  · exact .refl

theorem id_ne_halted_of_trapField {k : Key} (hk : TrapField k) : k.id ≠ K.ADIT_HALTED_CORES.id :=
  hk.id_ne (by decide) (.inl (by decide))

/-- An instruction of the foreman whose effect is a trap. -/
theorem foreman_traps {s : State} {i : Ins} {act : Hw → Option Hw} {cause : Nat} {tval epc : Word} {im fe : Bool}
    (r : Ready s.hw 0 i) (ht : s.hw.rd (K.CORE_CAUSE_TACTIVE 0) = 0) (hc : cause < 64)
    (ha : act (begun s.hw 0) = some (trap (begun s.hw 0) 0 cause tval epc im fe)) :
    Ends (doHw s fun h => runIns h 0 i act) fun t => ForemanTrapped s t cause tval epc := by
  have st := staysIn_runIns r ha
  have field {k : Key} (hk : TrapField k) := st.fields k (id_ne_halted_of_trapField hk)
  obtain ⟨hepc, htval, hcode, htact, hpc, hg, hmem⟩ := trap_foreman_enters (h := begun s.hw 0) ht hc tval epc im fe
  refine ⟨_, rfl, ?_, ?_, ?_, ?_, ?_, fun q => ?_, st.mem.trans hmem, rfl⟩
  · exact (field (trapField_epc 0)).trans hepc
  · exact (field (trapField_tval 0)).trans htval
  · exact (field (trapField_code 0)).trans hcode
  · exact (field trapField_tactive).trans htact
  · exact (pc_runIns r ha).trans hpc
  · exact ((g_runIns r ha q).trans (hg q)).trans (Hw.g_begun _ _ q)

/-! ### The crew -/

/-- With no write held back the end of a priority reservation does nothing more. -/
theorem flushHeld_none {h : Hw} (hs : h.sched.heldWrites = []) : flushHeld h = h := by
  have : ({ h.sched with heldWrites := [] } : Sched) = h.sched := by rw [← hs]
  rw [flushHeld, hs, this]
  rfl

/-- The item of core c is ending with this cause and value, and memory, the reset controller and the core's registers are as
they were. -/
structure CrewEnding (h u : Hw) (c : Core) (e : Ending) : Prop where
  ending : (u.core c.val).ending = some e
  regs : ∀ r, u.g c r = h.g c r
  mem : u.mem = h.mem
  rst : u.rst = h.rst

section
variable {h : Hw} {c : Core}

/-- What the release of frame engine claims leaves alone. -/
theorem releaseClaims_frame (h : Hw) (c : Nat) : (releaseClaims h c).mem = h.mem ∧ (releaseClaims h c).sched = h.sched ∧
    (releaseClaims h c).rst = h.rst ∧ (releaseClaims h c).core c = { h.core c with claim := none } := by
  have keeps {β : Type} (part : Hw → β) (hp : ∀ (t : Hw) n f, part (t.onDie n f) = part t) :
      part ((List.range 4).foldl (fun h n =>
        if (h.die n).eng.claim = some c then h.onDie n fun x => { x with eng := { x.eng with claim := none } } else h) h) = part h :=
    foldl_keeps part (fun t n _ => by split <;> simp [hp]) h
  unfold releaseClaims
  refine ⟨keeps Hw.mem fun _ _ _ => rfl, keeps Hw.sched fun _ _ _ => rfl, keeps Hw.rst fun _ _ _ => rfl, ?_⟩
  rw [Hw.core_onCore_self, keeps (fun t => t.core c) fun _ _ _ => rfl]

/-- An item that ends while a store of its core is not acknowledged waits for it. -/
theorem startEnd_waits (hs : h.sched.heldWrites = []) (hst : (h.core c.val).stores ≠ []) (e : Ending) :
    CrewEnding h (startEnd h c e) c e := by
  obtain ⟨hmem, hsched, hrst, hcore⟩ := releaseClaims_frame h c.val
  have waits {u : Hw} (hu : (u.core c.val).stores ≠ []) : tryEnd u c = u := by
    unfold tryEnd
    split
    · rw [if_neg (by simpa using hu)]
    · rfl
  have rel {u : Hw} (hu : u.sched.heldWrites = []) : releasePrio u c.val =
      { u.wr (K.CORE_LOCKSTAT_PRIO c.val) 0 with sched := { u.sched with prioQueue := u.sched.prioQueue.filter (· != c.val) } } :=
    flushHeld_none hu
  unfold startEnd
  simp only
  rw [rel (by rw [Hw.onCore, Hw.setCore]; simpa [hsched] using hs)]
  generalize hu : (releaseClaims h c.val).onCore c.val _ = u
  have hcu : u.core c.val = { h.core c.val with
      claim := none, ending := some e, loads := (h.core c.val).loads.map fun l => { l with dead := true }, lock := none,
      lockWait := false, dev := none, pendErr := none } := by rw [← hu, Hw.core_onCore_self, hcore]
  have hwait : (u.core c.val).stores ≠ [] := by rw [hcu]; exact hst
  rw [waits (by rw [Hw.core_wr]; exact hwait)]
  generalize hw : Hw.wr _ (K.CORE_LOCKSTAT_OPEN c.val) 0 = w
  have hcw : w.core c.val = u.core c.val := by rw [← hw, Hw.core_wr]; exact core_congr rfl _
  refine ⟨?_, fun r => ?_, ?_, ?_⟩
  · rw [hcw, hcu]
  · rw [Hw.g, hcw, hcu, Hw.g]
  · rw [← hw, Hw.wr_mem]; exact (congrArg Hw.mem hu).symm.trans hmem
  · rw [← hw, Hw.wr_rst]; exact (congrArg Hw.rst hu).symm.trans hrst

/-- A trap of a crew core with a store outstanding: the item is ending. -/
theorem trap_crew_ending (hc : c ≠ 0) (hst : (h.core c.val).stores ≠ []) (hp : h.rd K.ERR_POSTMASK_MASK = 0)
    (hs : h.sched.heldWrites = []) (cause : Nat) (tval epc : Word) (im fe : Bool) :
    CrewEnding h (trap h c cause tval epc im fe) c ⟨cause, tval, 0⟩ := by
  have hf : isForeman c = false := by simpa [isForeman] using fun e => hc (Fin.ext e)
  have hpost : (recordTrap h c cause tval epc im fe).rd K.ERR_POSTMASK_MASK = 0 := by
    simp (disch := (dsimp only [Key.id, K.CORE_EPC_EPC, K.CORE_CAUSE_FETCH, K.CORE_CAUSE_IMPRECISE, K.CORE_CAUSE_CODE,
      K.CORE_TVAL_TVAL, K.ERR_POSTMASK_MASK]; omega)) only [recordTrap, Hw.wrB, Hw.rd_wr_ne, hp]
  have eq : trap h c cause tval epc im fe = startEnd (logTrap (recordTrap h c cause tval epc im fe) c cause tval epc) c
      ⟨cause, tval, 0⟩ := by
    simp [trap, hf, programTraps]
  rw [eq, logTrap, logErr, logEntry_unposted (by decide) (by decide) hpost]
  generalize hu : logRaw _ _ _ _ _ _ = u
  have hcores : u.cores = h.cores := by rw [← hu, cores_logRaw, cores_recordTrap]
  have hsched : u.sched = h.sched := by
    rw [← hu, sched_logRaw]
    simp -implicitDefEqProofs [recordTrap]
  have hrst : u.rst = h.rst := by
    rw [← hu]
    simp -implicitDefEqProofs [recordTrap, logRaw]
  obtain ⟨e1, e2, e3, e4⟩ := startEnd_waits (h := u) (c := c) (by rw [hsched, hs]) (by rwa [core_congr hcores]) ⟨cause, tval, 0⟩
  refine ⟨e1, fun r => (e2 r).trans (g_congr hcores c r), e3.trans ?_, e4.trans hrst⟩
  rw [← hu, mem_logRaw, mem_recordTrap]

/-- An instruction of the foreman's level traps on a crew core (R190). -/
theorem runIns_priv {i : Ins} {act : Hw → Option Hw} (r : Ready h c { i with foremanOnly := false }) (hi : i.foremanOnly = true)
    (hc : c ≠ 0) : runIns h c i act = retire (trapHere (begun h c) c cPriv i.word) c := by
  have hf : isForeman c = false := by simpa [isForeman] using fun e => hc (Fin.ext e)
  obtain ⟨hfree, hquiet, hregs, hfetched, -, -⟩ := r
  simp only at hregs
  simp only [runIns, hfree, hquiet, hregs, hfetched, hi, hf]
  simp

end

@[simp] theorem ending_retire (h : Hw) (c : Core) : ((retire h c).core c.val).ending = (h.core c.val).ending := by
  rcases core_retire h c with e | e <;> rw [e]

section
variable {s : State} {c : Core} {cause : Nat} {tval epc : Word} {im fe : Bool}
variable (hc : c ≠ 0) (hst : (s.hw.core c.val).stores ≠ []) (hp : s.hw.rd K.ERR_POSTMASK_MASK = 0) (hs : s.hw.sched.heldWrites = [])
include hc hst hp hs

/-- A crew core's trap has been taken: the record stands, and the item is ending. -/
theorem crew_trapped (hcause : cause < 64) (tval epc : Word) (im fe : Bool) :
    (retire (trap (begun s.hw c) c cause tval epc im fe) c).rd (K.CORE_CAUSE_CODE c.val) = cause ∧
    (retire (trap (begun s.hw c) c cause tval epc im fe) c).rd (K.CORE_TVAL_TVAL c.val) = tval.toNat ∧
    CrewEnding s.hw (retire (trap (begun s.hw c) c cause tval epc im fe) c) c ⟨cause, tval, 0⟩ := by
  have e := trap_crew_ending (h := begun s.hw c) hc (by simpa [begun] using hst) hp hs cause tval epc im fe
  have st : StaysIn _ (retire (trap (begun s.hw c) c cause tval epc im fe) c) c := .retire
  have field {k : Key} (hk : TrapField k) := st.fields k (id_ne_halted_of_trapField hk)
  refine ⟨?_, ?_, ?_, fun r => ?_, st.mem.trans e.mem, ?_⟩
  · rw [field (trapField_code _), code_trap (fun h0 => absurd h0 hc), Nat.mod_eq_of_lt hcause]
  · rw [field (trapField_tval _), tval_trap (fun h0 => absurd h0 hc)]
  · rw [ending_retire, e.ending]
  · rw [Hw.g_retire, e.regs, Hw.g_begun]
  · obtain ⟨-, -, -, -, -, -, -, -, -, -, -, -, -, hrst, -⟩ := st.rest
    exact hrst.trans e.rst

end

/-! ### The instructions -/

/-- LOCK, ENDLOCK and words that are no instruction do not count in a sequence. -/
theorem runIns_edge {h u : Hw} {c : Core} {i : Ins} {act : Hw → Option Hw} (r : Ready h c i) (hi : i.lock = .edge)
    (ha : act (begun h c) = some u) : runIns h c i act = retire u c := by
  rw [runIns_ready r ha]
  simp [countSeq, hi]

theorem trapHere_eq (h : Hw) (c : Core) (cause : Nat) (x : Word) :
    trapHere (begun h c) c cause x.toNat = trap (begun h c) c cause x (h.pc c) false false := by
  rw [trapHere, BitVec.ofNat_toNat, BitVec.setWidth_eq, Hw.pc_begun]

theorem exec_illegal {s : State} {c : Core} {w : BitVec 32} (hw : legalWord w.toNat = false) :
    exec (.illegalInstruction c w) s = doHw s fun h => runIns h c (edgeIns w.toNat []) fun h => some (trapHere h c cIllegal w.toNat) := by
  simp only [exec, execIllegalInstruction, hw]
  rfl

theorem trapHere_word (h : Hw) (c : Core) (cause : Nat) (w : BitVec 32) :
    trapHere (begun h c) c cause w.toNat = trap (begun h c) c cause (w.setWidth 64) (h.pc c) false false := by
  rw [trapHere, Hw.pc_begun, BitVec.ofNat_toNat]

section
variable {s : State} {c : Core} {rs1 : Reg}

theorem exec_trap (s : State) (c : Core) (rs1 : Reg) : exec (.trap c rs1) s =
    doHw s fun h => runIns h c (barredIns (wordA 0x17 0x10 0 rs1 0) [rs1]) fun h =>
      some (trap h c cSoft (h.g c rs1) (h.pc c + 4) false false) := rfl

theorem trapSoft_eq (h : Hw) (c : Core) (rs1 : Reg) :
    trap (begun h c) c cSoft ((begun h c).g c rs1) ((begun h c).pc c + 4) false false =
      trap (begun h c) c 0x09 (h.g c rs1) (h.pc c + 4) false false := by rw [Hw.g_begun, Hw.pc_begun, cSoft]

theorem foreman_trap_ends (r : Ready s.hw 0 (barredIns (wordA 0x17 0x10 0 rs1 0) [rs1])) (ht : s.hw.rd (K.CORE_CAUSE_TACTIVE 0) = 0) :
    Ends (exec (.trap 0 rs1) s) fun t => ForemanTrapped s t 0x09 (s.hw.g 0 rs1) (s.hw.pc 0 + 4) := by
  rw [exec_trap]
  exact foreman_traps r ht (by decide) (congrArg some (trapSoft_eq ..))

theorem foreman_illegal_ends {w : BitVec 32} (hw : legalWord w.toNat = false) (r : Ready s.hw 0 (edgeIns w.toNat []))
    (ht : s.hw.rd (K.CORE_CAUSE_TACTIVE 0) = 0) :
    Ends (exec (.illegalInstruction 0 w) s) fun t => ForemanTrapped s t 0x01 (w.setWidth 64) (s.hw.pc 0) := by
  rw [exec_illegal hw]
  exact foreman_traps r ht (by decide) (congrArg some (trapHere_word ..))

section
variable (hc : c ≠ 0) (hst : (s.hw.core c.val).stores ≠ []) (hp : s.hw.rd K.ERR_POSTMASK_MASK = 0) (hs : s.hw.sched.heldWrites = [])
include hc hst hp hs

theorem crew_trap_ends (r : Ready s.hw c (barredIns (wordA 0x17 0x10 0 rs1 0) [rs1])) :
    Ends (exec (.trap c rs1) s) fun t => t.hw.rd (K.CORE_CAUSE_CODE c.val) = 0x09 ∧
      t.hw.rd (K.CORE_TVAL_TVAL c.val) = (s.hw.g c rs1).toNat ∧ CrewEnding s.hw t.hw c ⟨0x09, s.hw.g c rs1, 0⟩ := by
  rw [exec_trap]
  have run := runIns_barred (act := fun h => some (trap h c cSoft (h.g c rs1) (h.pc c + 4) false false)) r rfl
    (congrArg some (trapSoft_eq ..))
  refine ⟨_, rfl, ?_⟩
  simp only [State.onHw, run]
  exact crew_trapped hc hst hp hs (by decide) ..

theorem crew_illegal_ends {w : BitVec 32} (hw : legalWord w.toNat = false) (r : Ready s.hw c (edgeIns w.toNat [])) :
    Ends (exec (.illegalInstruction c w) s) fun t => t.hw.rd (K.CORE_CAUSE_CODE c.val) = 0x01 ∧
      t.hw.rd (K.CORE_TVAL_TVAL c.val) = w.toNat ∧ CrewEnding s.hw t.hw c ⟨0x01, w.setWidth 64, 0⟩ := by
  rw [exec_illegal hw]
  have run := runIns_edge (act := fun h => some (trapHere h c cIllegal w.toNat)) r rfl (congrArg some (trapHere_word ..))
  refine ⟨_, rfl, ?_⟩
  simp only [State.onHw, run]
  obtain ⟨hcode, htval, hend⟩ := crew_trapped (cause := cIllegal) hc hst hp hs (by decide) (w.setWidth 64) (s.hw.pc c) false false
  exact ⟨hcode, htval.trans (by simp; omega), hend⟩

/-- An instruction of the foreman's level on a crew core. -/
theorem crew_priv {i : Ins} {act : Hw → Option Hw} (r : Ready s.hw c { i with foremanOnly := false }) (hi : i.foremanOnly = true) :
    (runIns s.hw c i act).rd (K.CORE_CAUSE_CODE c.val) = 0x02 ∧
      CrewEnding s.hw (runIns s.hw c i act) c ⟨0x02, BitVec.ofNat 64 i.word, 0⟩ := by
  rw [runIns_priv r hi hc, trapHere]
  obtain ⟨hcode, -, hend⟩ := crew_trapped (cause := cPriv) hc hst hp hs (by decide) (BitVec.ofNat 64 i.word)
    ((begun s.hw c).pc c) false false
  exact ⟨hcode, hend⟩

theorem crew_tret_ends (r : Ready s.hw c (barredIns (wordI 0x06 2 0 0 0) [])) :
    Ends (exec (.tret c) s) fun t => t.hw.rd (K.CORE_CAUSE_CODE c.val) = 0x02 ∧
      CrewEnding s.hw t.hw c ⟨0x02, BitVec.ofNat 64 (wordI 0x06 2 0 0 0), 0⟩ := by
  rw [exec_tret]
  exact ⟨_, rfl, crew_priv (i := ⟨wordI 0x06 2 0 0 0, [], .barred, true⟩) hc hst hp hs r rfl⟩

theorem crew_optwr_ends {rd : Reg} (r : Ready s.hw c (barredIns (wordA 0x17 0x33 rd rs1 0) [rd, rs1])) (ho : s.hw.rst.optImage = none) :
    Ends (exec (.optwr c rd rs1) s) fun t => t.hw.rd (K.CORE_CAUSE_CODE c.val) = 0x02 ∧
      CrewEnding s.hw t.hw c ⟨0x02, BitVec.ofNat 64 (wordA 0x17 0x33 rd rs1 0), 0⟩ ∧ t.nv = s.nv := by
  obtain ⟨hcode, hend⟩ : (optwrStart s.nv s.hw c rd rs1).rd (K.CORE_CAUSE_CODE c.val) = 0x02 ∧
      CrewEnding s.hw (optwrStart s.nv s.hw c rd rs1) c ⟨0x02, BitVec.ofNat 64 (wordA 0x17 0x33 rd rs1 0), 0⟩ :=
    crew_priv (i := ⟨wordA 0x17 0x33 rd rs1 0, [rd, rs1], .barred, true⟩) hc hst hp hs r rfl
  refine ⟨{ s with hw := optwrStart s.nv s.hw c rd rs1 }, ?_, hcode, hend, rfl⟩
  simp only [exec, execOptwr, ho, hend.rst]
  rfl

end

end

/-- Settles O15: a trap is the effect of the instruction it ends, on the foreman a record and the handler's address, on a crew
core a record and an item that is ending. -/
theorem trapsTaken : Obligations.TrapsTaken := by
  unfold Obligations.TrapsTaken
  refine ⟨⟨fun s rs1 r ht => foreman_trap_ends r ht, fun s w hw r ht => foreman_illegal_ends hw r ht,
    fun s c rs1 hc r hst hp hs => ?_, fun s c w hc hw r hst hp hs => ?_, fun s c rd rs1 hc hst hp hs => ⟨fun r => ?_, fun r ho => ?_⟩⟩,
    fun f hf s rd rs1 imm r ht hm => ?_, fun f hf s rs1 rs2 imm r ht hm => ?_⟩
  · exact (crew_trap_ends hc hst hp hs r).imp fun t ⟨hcode, htval, e⟩ => ⟨hcode, htval, e.ending, e.regs, e.mem⟩
  · exact (crew_illegal_ends hc hst hp hs hw r).imp fun t ⟨hcode, htval, e⟩ => ⟨hcode, htval, e.ending, e.regs, e.mem⟩
  · exact (crew_tret_ends hc hst hp hs r).imp fun t ⟨hcode, e⟩ => ⟨hcode, e.ending, e.regs, e.mem⟩
  · exact (crew_optwr_ends hc hst hp hs r ho).imp fun t ⟨hcode, e, hnv⟩ => ⟨hcode, e.ending, e.regs, e.mem, hnv⟩
  · rw [exec_loadForm f hf]
    exact foreman_traps r ht (by decide) ((loadAct_misaligned rfl hm).trans (congrArg some (trapHere_eq ..)))
  · rw [exec_storeForm f hf]
    exact foreman_traps r ht (by decide) ((storeAct_misaligned rfl hm).trans (congrArg some (trapHere_eq ..)))

end Sys2Proof.Machine
end

section
/-!
PROOF. Locked sequences and the priority reservation (R198 to R202).
-/
namespace Sys2Proof.Machine

/-! ### Writes that nothing holds back, one after another -/

/-- A core has an unbroken reservation on a line of a range. -/
def CoreSt.reserves (x : CoreSt) (a n : Nat) : Bool := x.lock.any fun l => !l.broken && l.lines.any (meetsLine a n)

theorem prioHolds_eq (h : Hw) (who : Option Nat) (a n : Nat) : prioHolds h who a n =
    h.cores.any fun e => who != some e.1 && h.bit (K.CORE_LOCKSTAT_PRIO e.1) && e.2.reserves a n := by
  unfold prioHolds
  congr 1
  funext e
  cases hl : e.2.lock <;> simp [CoreSt.reserves, hl]

/-- A write breaks the reservation on a line it meets, and no other. -/
theorem lock_touch (x : CoreSt) (a n : Nat) : (x.touch a n).lock =
    x.lock.map fun l => if l.lines.any (meetsLine a n) then { l with broken := true } else l := by
  unfold CoreSt.touch
  cases hl : x.lock with
  | none =>
    simp only [Option.map_none]
    repeat' split
    all_goals exact hl
  | some l =>
    simp only [Option.map_some]
    by_cases hm : l.lines.any (meetsLine a n) = true
    · simp only [hm, if_true]
      repeat' split
      all_goals rfl
    · simp only [hm]
      repeat' split
      all_goals simp_all

theorem reserves_touch {x : CoreSt} {a n b k : Nat} (h : (x.touch a n).reserves b k = true) : x.reserves b k = true := by
  unfold CoreSt.reserves at h ⊢
  rw [lock_touch, Option.any_map] at h
  cases hl : x.lock with
  | none => simp [hl] at h
  | some l =>
    simp only [hl, Option.any_some] at h ⊢
    split at h
    · simp at h
    · exact h

/-- A core's entry after a write was its entry before, or what the write left of it. -/
theorem mem_cores_touchLines {h : Hw} {who : Option Nat} {a n : Nat} {e : Nat × CoreSt} (he : e ∈ (touchLines h who a n).cores) :
    e ∈ h.cores ∨ ∃ x, (e.1, x) ∈ h.cores ∧ e.2 = x.touch a n := by
  unfold touchLines at he
  have key := List.foldlRecOn (motive := fun t : Hw => ∀ e ∈ t.cores, e ∈ h.cores ∨ ∃ x, (e.1, x) ∈ h.cores ∧ e.2 = x.touch a n)
    h.cores (fun h e => if who = some e.1 then h else h.setCore e.1 (e.2.touch a n)) (b := h) (fun e he => .inl he)
  refine key (fun t ht x hx e he => ?_) e he
  split at he
  · exact ht e he
  · rcases SMap.mem_set he with rfl | he
    · exact .inr ⟨x.2, hx, rfl⟩
    · exact ht e he

theorem prioHolds_touchLines {h : Hw} {who w : Option Nat} {a n b k : Nat} (hp : prioHolds h w b k = false) :
    prioHolds (touchLines h who a n) w b k = false := by
  have hprio (c : Nat) : (touchLines h who a n).bit (K.CORE_LOCKSTAT_PRIO c) = h.bit (K.CORE_LOCKSTAT_PRIO c) :=
    Hw.bit_congr (csr_touchLines h who a n) _
  simp only [prioHolds_eq, List.any_eq_false, hprio] at hp ⊢
  intro e he hcov
  rcases mem_cores_touchLines he with he | ⟨x, hx, hex⟩
  · exact hp e he hcov
  · simp only [hex, Bool.and_eq_true] at hcov
    obtain ⟨hw, hl⟩ := hcov
    exact hp (e.1, x) hx (by simp [hw, reserves_touch hl])

/-- The buffered stores of a sequence that nothing holds back all reach memory. -/
theorem storeBytes_all {c : Core} (l : List LockStore) {h : Hw} (ht : h.bit K.ERR_TEST_EN = false)
    (hl : ∀ st ∈ l, prioHolds h (some c.val) st.addr st.size = false) :
    ∃ u : Hw, l.foldl (fun h st => storeBytes h (.core c) st.addr st.size st.data (allOn st.size)) h = u ∧
      u.mem = l.foldl (fun m st => m.writeN st.addr st.size st.data (allOn st.size)) h.mem ∧ u.csr = h.csr ∧
      u.sched = h.sched ∧ u.core c.val = h.core c.val := by
  induction l generalizing h with
  | nil => exact ⟨h, rfl, rfl, rfl, rfl, rfl⟩
  | cons x l ih =>
    simp only [List.foldl_cons]
    rw [storeBytes_eq ht (hl x (List.mem_cons_self ..))]
    generalize hv : touchLines _ (some c.val) x.addr x.size = v
    have hcsr : v.csr = h.csr := by rw [← hv, csr_touchLines]
    have hcov (a n : Nat) (hp : prioHolds h (some c.val) a n = false) : prioHolds v (some c.val) a n = false := by
      rw [← hv]
      exact prioHolds_touchLines ((prioHolds_congr (h := h) rfl fun _ => rfl).trans hp)
    obtain ⟨u, hu, hmem, hucsr, husched, hucore⟩ := ih ((Hw.bit_congr hcsr _).trans ht)
      fun st hst => hcov _ _ (hl st (List.mem_cons_of_mem _ hst))
    refine ⟨u, hu, ?_, hucsr.trans hcsr, husched.trans ?_, hucore.trans ?_⟩
    · rw [hmem, ← hv, mem_touchLines]
    · rw [← hv, sched_touchLines]
    · rw [← hv, core_touchLines_self]
      rfl

/-! ### LOCK and ENDLOCK -/

/-- The fields of LOCKSTAT lie in no other register. -/
theorem lockstat_ne_halted (c : Nat) : (K.CORE_LOCKSTAT_OPEN c).id ≠ K.ADIT_HALTED_CORES.id ∧
    (K.CORE_LOCKSTAT_FAILS c).id ≠ K.ADIT_HALTED_CORES.id ∧ (K.CORE_LOCKSTAT_PRIO c).id ≠ K.ADIT_HALTED_CORES.id := by
  simp only [Key.id, K.CORE_LOCKSTAT_OPEN, K.CORE_LOCKSTAT_FAILS, K.CORE_LOCKSTAT_PRIO, K.ADIT_HALTED_CORES]
  omega

/-- The release of the priority reservation with no write held back: PRIO is cleared and the core is out of the line. -/
theorem releasePrio_none {h : Hw} (hs : h.sched.heldWrites = []) (c : Nat) : releasePrio h c =
    { h.wr (K.CORE_LOCKSTAT_PRIO c) 0 with sched := { h.sched with prioQueue := h.sched.prioQueue.filter (· != c) } } :=
  flushHeld_none hs

section
variable {s : State} {c : Core} {rd : Reg} {l : LockSeq}

theorem lock_begun (h : Hw) (c : Core) : ((begun h c).core c.val).lock = (h.core c.val).lock := by simp [begun]

theorem openLock_frame (h : Hw) (c : Core) : ((openLock h c).core c.val).lock = some {} ∧
    (openLock h c).rd (K.CORE_LOCKSTAT_OPEN c.val) = 1 ∧ (openLock h c).pc c = h.pc c + 4 ∧
    (∀ r, (openLock h c).g c r = h.g c r) ∧ (openLock h c).mem = h.mem ∧
    ((openLock h c).core c.val).lockWait = (h.core c.val).lockWait ∧ ((openLock h c).core c.val).pendErr = (h.core c.val).pendErr ∧
    (openLock h c).sched = h.sched := by
  refine ⟨?_, ?_, ?_, fun r => ?_, rfl, ?_, ?_, rfl⟩
  · simp [openLock, advance, Hw.setPc, setLock]
  · rw [openLock, StaysIn.advance.fields _ (lockstat_ne_halted c.val).1, Hw.rd_wr_self]
    rfl
  · rw [openLock, Hw.pc_advance]
    simp [Hw.pc, setLock]
  · rw [openLock, Hw.g_advance]
    simp [Hw.g, setLock]
  · simp [openLock, advance, Hw.setPc, setLock]
  · simp [openLock, advance, Hw.setPc, setLock]

theorem exec_lockOp (s : State) (c : Core) : exec (.lockOp c) s =
    doHw s fun h => runIns h c (edgeIns (wordI 0x08 0 0 0 0) []) fun h => some (lockBegin h c (wordI 0x08 0 0 0 0)) := rfl

theorem exec_endlock (s : State) (c : Core) (rd : Reg) : exec (.endlock c rd) s =
    doHw s fun h => runIns h c (edgeIns (wordI 0x08 1 rd 0 0) [rd]) fun h => lockEnd h c (wordI 0x08 1 rd 0 0) rd := rfl

theorem lock_opens (r : Ready s.hw c (edgeIns (wordI 0x08 0 0 0 0) [])) (hl : (s.hw.core c.val).lock = none)
    (hf : s.hw.rd (K.CORE_LOCKSTAT_FAILS c.val) < 16) :
    Ends (exec (.lockOp c) s) fun t => (t.hw.core c.val).lock = some {} ∧ t.hw.rd (K.CORE_LOCKSTAT_OPEN c.val) = 1 ∧
      t.hw.pc c = s.hw.pc c + 4 ∧ (∀ r, t.hw.g c r = s.hw.g c r) ∧ t.hw.mem = s.hw.mem := by
  rw [exec_lockOp]
  have act : lockBegin (begun s.hw c) c (wordI 0x08 0 0 0 0) = openLock (begun s.hw c) c := by
    simp [lockBegin, lock_begun, hl, hf]
  have run := runIns_edge (act := fun h => some (lockBegin h c (wordI 0x08 0 0 0 0))) r rfl (congrArg some act)
  obtain ⟨hlock, hopen, hpc, hg, hmem, -⟩ := openLock_frame (begun s.hw c) c
  refine ⟨_, rfl, ?_⟩
  simp only [State.onHw, run]
  refine ⟨?_, ?_, ?_, fun q => ?_, ?_⟩
  · rw [lock_retire, hlock]
  · rw [Hw.rd_retire _ _ (lockstat_ne_halted c.val).1, hopen]
  · rw [Hw.pc_retire, hpc, Hw.pc_begun]
  · rw [Hw.g_retire, hg, Hw.g_begun]
  · rw [mem_retire, hmem]
    rfl

/-- What the end of a sequence leaves, from the state u in which its stores stand: the reservation is released, FAILS is n, and
rd is v. -/
def lockEnded (u : Hw) (c : Core) (n : Nat) (rd : Reg) (v : Word) : Hw :=
  result ((releasePrio u c.val).wr (K.CORE_LOCKSTAT_FAILS c.val) n) c rd v

/-- The sequence of a core is closed. -/
def lockClosed (h : Hw) (c : Core) : Hw := (setLock h c none).wr (K.CORE_LOCKSTAT_OPEN c.val) 0

theorem lockEnded_frame {u : Hw} (hs : u.sched.heldWrites = []) {n : Nat} (hn : n < 32) (rd : Reg) (v : Word) :
    (lockEnded u c n rd v).g c rd = (if rd = 0 then 0 else v) ∧
    ((lockEnded u c n rd v).core c.val).lock = (u.core c.val).lock ∧
    (lockEnded u c n rd v).rd (K.CORE_LOCKSTAT_FAILS c.val) = n ∧
    (lockEnded u c n rd v).rd (K.CORE_LOCKSTAT_OPEN c.val) = u.rd (K.CORE_LOCKSTAT_OPEN c.val) ∧
    (lockEnded u c n rd v).pc c = u.pc c + 4 ∧ (lockEnded u c n rd v).mem = u.mem := by
  have st : StaysIn ((releasePrio u c.val).wr (K.CORE_LOCKSTAT_FAILS c.val) n) (lockEnded u c n rd v) c := .result rd v
  refine ⟨by simp [lockEnded, result], ?_, ?_, ?_, ?_, ?_⟩
  · have : ((lockEnded u c n rd v).core c.val).lock = ((releasePrio u c.val).core c.val).lock := by
      by_cases h0 : rd = 0 <;> simp [lockEnded, result, advance, Hw.setPc, Hw.setG, h0]
    rw [this, releasePrio_none hs]
    rfl
  · rw [st.fields _ (lockstat_ne_halted c.val).2.1, Hw.rd_wr_self]
    exact Nat.mod_eq_of_lt hn
  · have hfails : (K.CORE_LOCKSTAT_OPEN c.val).id ≠ (K.CORE_LOCKSTAT_FAILS c.val).id := by
      simp [Key.id, K.CORE_LOCKSTAT_FAILS, K.CORE_LOCKSTAT_OPEN]
    have hprio : (K.CORE_LOCKSTAT_OPEN c.val).id ≠ (K.CORE_LOCKSTAT_PRIO c.val).id := by
      simp [Key.id, K.CORE_LOCKSTAT_PRIO, K.CORE_LOCKSTAT_OPEN]
    rw [st.fields _ (lockstat_ne_halted c.val).1, Hw.rd_wr_ne _ hfails, releasePrio_none hs]
    exact (Hw.rd_congr rfl _).trans (Hw.rd_wr_ne u hprio 0)
  · simp only [lockEnded, result, Hw.pc_advance, Hw.pc_setG, releasePrio_none hs]
    rfl
  · rw [st.mem, Hw.wr_mem, releasePrio_none hs]
    rfl

/-- An ENDLOCK that ends its sequence from the state u. -/
theorem endlock_ends {u : Hw} {n : Nat} {v : Word} (r : Ready s.hw c (edgeIns (wordI 0x08 1 rd 0 0) [rd]))
    (hs : u.sched.heldWrites = []) (hn : n < 32) (hlock : (u.core c.val).lock = none)
    (hopen : u.rd (K.CORE_LOCKSTAT_OPEN c.val) = 0) (hpc : u.pc c = s.hw.pc c)
    (act : lockEnd (begun s.hw c) c (wordI 0x08 1 rd 0 0) rd = some (lockEnded u c n rd v)) :
    Ends (exec (.endlock c rd) s) fun t =>
      t.hw.g c rd = (if rd = 0 then 0 else v) ∧ (t.hw.core c.val).lock = none ∧
      t.hw.rd (K.CORE_LOCKSTAT_FAILS c.val) = n ∧ t.hw.rd (K.CORE_LOCKSTAT_OPEN c.val) = 0 ∧ t.hw.pc c = s.hw.pc c + 4 ∧
      t.hw.mem = u.mem := by
  rw [exec_endlock]
  have run := runIns_edge (act := fun h => lockEnd h c (wordI 0x08 1 rd 0 0) rd) r rfl act
  obtain ⟨hg, hl, hfails, hop, hp, hmem⟩ := lockEnded_frame (c := c) hs hn rd v
  refine ⟨_, rfl, ?_⟩
  simp only [State.onHw, run]
  refine ⟨?_, ?_, ?_, ?_, ?_, ?_⟩
  · rw [Hw.g_retire, hg]
  · rw [lock_retire, hl, hlock]
  · rw [Hw.rd_retire _ _ (lockstat_ne_halted c.val).2.1, hfails]
  · rw [Hw.rd_retire _ _ (lockstat_ne_halted c.val).1, hop, hopen]
  · rw [Hw.pc_retire, hp, hpc]
  · rw [mem_retire, hmem]

theorem lockClosed_frame (h : Hw) (c : Core) : ((lockClosed h c).core c.val).lock = none ∧
    (lockClosed h c).rd (K.CORE_LOCKSTAT_OPEN c.val) = 0 ∧ (lockClosed h c).pc c = h.pc c ∧ (lockClosed h c).mem = h.mem ∧
    (lockClosed h c).sched = h.sched := by
  refine ⟨by simp [lockClosed, setLock], ?_, by simp [lockClosed, setLock, Hw.pc], rfl, rfl⟩
  rw [lockClosed, Hw.rd_wr_self]
  rfl

theorem endlock_broken (r : Ready s.hw c (edgeIns (wordI 0x08 1 rd 0 0) [rd])) (hl : openSeq s.hw c = some l)
    (hb : l.broken = true) (hs : s.hw.sched.heldWrites = []) :
    Ends (exec (.endlock c rd) s) fun t =>
      t.hw.g c rd = (if rd = 0 then 0 else 1) ∧ (t.hw.core c.val).lock = none ∧
      t.hw.rd (K.CORE_LOCKSTAT_FAILS c.val) = min 16 (s.hw.rd (K.CORE_LOCKSTAT_FAILS c.val) + 1) ∧
      t.hw.pc c = s.hw.pc c + 4 ∧ t.hw.mem = s.hw.mem := by
  obtain ⟨hlock, hopen, hpc, hmem, hsched⟩ := lockClosed_frame (begun s.hw c) c
  have act : lockEnd (begun s.hw c) c (wordI 0x08 1 rd 0 0) rd =
      some (lockEnded (lockClosed (begun s.hw c) c) c (min 16 (s.hw.rd (K.CORE_LOCKSTAT_FAILS c.val) + 1)) rd 1) := by
    simp [lockEnd, hl, hb, lockEnded, lockClosed]
  exact Ends.imp (endlock_ends r (by rw [hsched]; exact hs) (by omega) hlock hopen (by rw [hpc, Hw.pc_begun]) act)
    fun t ⟨hg, hlk, hfails, _, hpct, hmt⟩ => ⟨hg, hlk, hfails, hpct, hmt.trans (hmem.trans rfl)⟩

theorem endlock_commits (r : Ready s.hw c (edgeIns (wordI 0x08 1 rd 0 0) [rd])) (hl : openSeq s.hw c = some l)
    (hb : l.broken = false) (ht : s.hw.bit K.ERR_TEST_EN = false) (hs : s.hw.sched.heldWrites = [])
    (hfree : ∀ st ∈ l.stores, lineBusy s.hw c st.addr = false ∧ prioHolds s.hw (some c.val) st.addr st.size = false) :
    Ends (exec (.endlock c rd) s) fun t =>
      t.hw.g c rd = 0 ∧ (t.hw.core c.val).lock = none ∧ t.hw.rd (K.CORE_LOCKSTAT_FAILS c.val) = 0 ∧
      t.hw.rd (K.CORE_LOCKSTAT_OPEN c.val) = 0 ∧ t.hw.pc c = s.hw.pc c + 4 ∧
      t.hw.mem = l.stores.foldl (fun m st => m.writeN st.addr st.size st.data (allOn st.size)) s.hw.mem := by
  obtain ⟨hlock, hopen, hpc, hmem, hsched⟩ := lockClosed_frame (begun s.hw c) c
  have begunFree : ∀ st ∈ l.stores, lineBusy (begun s.hw c) c st.addr = false ∧
      prioHolds (begun s.hw c) (some c.val) st.addr st.size = false :=
    fun st hst => ⟨(hfree st hst).1, prioHolds_begun (hfree st hst).2⟩
  have closedFree : ∀ st ∈ l.stores, prioHolds (lockClosed (begun s.hw c) c) (some c.val) st.addr st.size = false := by
    intro st hst
    have hset : prioHolds (setLock (begun s.hw c) c none) (some c.val) st.addr st.size = false :=
      prioHolds_setCore (.inl rfl) (begunFree st hst).2
    refine (prioHolds_congr (g := lockClosed (begun s.hw c) c) (h := setLock (begun s.hw c) c none) rfl fun k => ?_).trans hset
    have hne : (K.CORE_LOCKSTAT_PRIO k).id ≠ (K.CORE_LOCKSTAT_OPEN c.val).id := by
      simp only [Key.id, K.CORE_LOCKSTAT_PRIO, K.CORE_LOCKSTAT_OPEN]
      omega
    exact Hw.rd_wr_ne (setLock (begun s.hw c) c none) hne 0
  have closedTest : (lockClosed (begun s.hw c) c).bit K.ERR_TEST_EN = false := by
    rw [Hw.bit, lockClosed, Hw.rd_wr_ne _ (by simp [Key.id, K.ERR_TEST_EN, K.CORE_LOCKSTAT_OPEN]; omega)]
    exact ht
  obtain ⟨u, hu, humem, hucsr, husched, hucore⟩ := storeBytes_all l.stores closedTest closedFree
  have act : lockEnd (begun s.hw c) c (wordI 0x08 1 rd 0 0) rd = some (lockEnded u c 0 rd 0) := by
    have hno : (l.stores.any fun st => lineBusy (begun s.hw c) c st.addr || prioHolds (begun s.hw c) (some c.val) st.addr st.size) =
        false := by
      simp only [List.any_eq_false]
      intro st hst
      simp [begunFree st hst]
    rw [← hu]
    simp [lockEnd, hl, hb, hno, lockEnded, lockClosed]
  refine Ends.imp (endlock_ends r (by rw [husched, hsched]; exact hs) (by decide) (by rw [hucore, hlock])
    ((Hw.rd_congr hucsr _).trans hopen) (by rw [Hw.pc, hucore, ← Hw.pc, hpc, Hw.pc_begun]) act)
    fun t ⟨hg, hlk, hfails, hop, hpct, hmt⟩ => ⟨by simpa using hg, hlk, hfails, hop, hpct, hmt.trans (humem.trans ?_)⟩
  rw [hmem]
  rfl

end

/-! ### The priority reservation -/

/-- A core is found in the list of all cores by its number. -/
theorem find_core {x : Option Nat} {c : Core} (hx : x = some c.val) : (allCores.find? fun d => x == some d.val) = some c := by
  rw [List.find?_eq_some_iff_append]
  obtain ⟨as, bs, e⟩ := List.append_of_mem (show c ∈ allCores from List.mem_finRange c)
  have hnd : allCores.Nodup := List.nodup_finRange 64
  refine ⟨by simp [hx], as, bs, e, fun d hd => ?_⟩
  rw [e] at hnd
  have : d ≠ c := fun h => (List.nodup_append.1 hnd).2.2 d hd c (List.mem_cons_self ..) h
  simp only [hx, Bool.not_eq_true', beq_eq_false_iff_ne, ne_eq, Option.some.injEq]
  exact fun h => this (Fin.ext h.symm)

theorem boundary_quiet {h : Hw} {c : Core} (hq : (h.core c.val).pendErr = none) : boundary h c = h := by simp [boundary, hq]

theorem grant_ends {s : State} {c : Core} {rest : List Nat} (hp : prioHeld s.hw = false) (hq : s.hw.sched.prioQueue = c.val :: rest)
    (hh : isHalted s.hw c.val = false) (hw : (s.hw.core c.val).lockWait = true) (he : (s.hw.core c.val).pendErr = none) :
    Ends (exec .priorityReservationGrant s) fun t =>
      t.hw.rd (K.CORE_LOCKSTAT_PRIO c.val) = 1 ∧ t.hw.sched.prioQueue = rest ∧ (t.hw.core c.val).lock = some {} ∧
      (t.hw.core c.val).lockWait = false ∧ t.hw.pc c = s.hw.pc c + 4 := by
  have find := find_core (x := s.hw.sched.prioQueue.head?) (c := c) (by rw [hq]; rfl)
  let v : Hw := { s.hw with sched := { s.hw.sched with prioQueue := s.hw.sched.prioQueue.tail } }
  let u : Hw := (v.onCore c.val fun x => { x with lockWait := false }).wr (K.CORE_LOCKSTAT_PRIO c.val) 1
  have hvc : v.core c.val = s.hw.core c.val := core_congr rfl _
  have huc : u.core c.val = { s.hw.core c.val with lockWait := false } := by
    rw [Hw.core_wr, Hw.core_onCore_self, hvc]
  obtain ⟨hlock, -, hpc, -, -, hwait, hpend, hsched⟩ := openLock_frame u c
  have eq : grantPrio s.hw = openLock u c := by
    have halt : isHalted (v.onCore c.val fun x => { x with lockWait := false }) c.val = false := hh
    simp only [grantPrio, hp, find]
    rw [if_neg Bool.false_ne_true, show (({ s.hw with sched := { s.hw.sched with prioQueue := s.hw.sched.prioQueue.tail } } : Hw).core
      c.val).lockWait = true from hw, halt]
    exact boundary_quiet (by rw [hpend, huc]; exact he)
  refine ⟨_, rfl, ?_⟩
  simp only [State.onHw, eq]
  refine ⟨?_, ?_, hlock, ?_, ?_⟩
  · have hne : (K.CORE_LOCKSTAT_PRIO c.val).id ≠ (K.CORE_LOCKSTAT_OPEN c.val).id := by
      simp [Key.id, K.CORE_LOCKSTAT_PRIO, K.CORE_LOCKSTAT_OPEN]
    rw [openLock, StaysIn.advance.fields _ (lockstat_ne_halted c.val).2.2, Hw.rd_wr_ne _ hne, setLock,
      Hw.rd_onCore, Hw.rd_wr_self]
    rfl
  · rw [hsched]
    exact congrArg List.tail hq
  · rw [hwait, huc]
  · rw [hpc, Hw.pc, huc, Hw.pc]

/-- Every core has lost the priority reservation. -/
def prioCleared (h : Hw) : Hw := allCores.foldl (fun h c => h.wr (K.CORE_LOCKSTAT_PRIO c.val) 0) h

theorem prio_prioCleared (h : Hw) (c : Core) : (prioCleared h).rd (K.CORE_LOCKSTAT_PRIO c.val) = 0 := by
  have key : ∀ (l : List Core) (h : Hw), (c ∈ l ∨ h.rd (K.CORE_LOCKSTAT_PRIO c.val) = 0) →
      (l.foldl (fun h c => h.wr (K.CORE_LOCKSTAT_PRIO c.val) 0) h).rd (K.CORE_LOCKSTAT_PRIO c.val) = 0 := by
    intro l
    induction l with
    | nil => intro h hc; simpa using hc
    | cons d l ih =>
      intro h hc
      refine ih _ ?_
      by_cases e : c = d
      · subst e
        exact .inr (Hw.rd_wr_self ..)
      · have hne : (K.CORE_LOCKSTAT_PRIO c.val).id ≠ (K.CORE_LOCKSTAT_PRIO d.val).id := by
          have : c.val ≠ d.val := fun h => e (Fin.ext h)
          simp only [Key.id, K.CORE_LOCKSTAT_PRIO]
          omega
        rw [Hw.rd_wr_ne _ hne]
        simpa [e] using hc
  exact key _ h (.inl (List.mem_finRange c))

theorem prioCleared_keeps {β : Type} (part : Hw → β) (hp : ∀ (t : Hw) k v, part (t.wr k v) = part t) (h : Hw) :
    part (prioCleared h) = part h := foldl_keeps part (fun _ _ _ => hp ..) h

theorem exec_prioTimeout (s : State) : exec .priorityReservationTimeout s = doHw s fun h => flushHeld (prioCleared h) := rfl

theorem prioTimeout_ends (s : State) : Ends (exec .priorityReservationTimeout s) fun t =>
    (∀ c : Core, t.hw.rd (K.CORE_LOCKSTAT_PRIO c.val) = 0) ∧
    (s.hw.sched.heldWrites = [] → t.hw.mem = s.hw.mem ∧ t.hw.cores = s.hw.cores) ∧
    (∀ w, s.hw.sched.heldWrites = [w] → prioHolds t.hw w.who w.addr w.size = false →
      t.hw.mem = w.store s.hw.mem ∧ t.hw.sched.heldWrites = []) := by
  have hsched : (prioCleared s.hw).sched = s.hw.sched := prioCleared_keeps Hw.sched (fun _ _ _ => rfl) _
  have hmem : (prioCleared s.hw).mem = s.hw.mem := prioCleared_keeps Hw.mem (fun _ _ _ => rfl) _
  have hcores : (prioCleared s.hw).cores = s.hw.cores := prioCleared_keeps Hw.cores (fun _ _ _ => rfl) _
  rw [exec_prioTimeout]
  refine ⟨s.onHw fun h => flushHeld (prioCleared h), rfl, ?_⟩
  have hprio := prio_prioCleared s.hw
  simp only [State.onHw]
  generalize prioCleared s.hw = u at *
  refine ⟨fun c => ?_, fun hs => ?_, fun w hs hp => ?_⟩
  · rw [(kept_flushHeld _).rd _ (by simp [OffSched, K.CORE_LOCKSTAT_PRIO]; omega), hprio]
  · have none : u.sched.heldWrites = [] := by rw [hsched, hs]
    simp only [flushHeld_none none]
    exact ⟨hmem, hcores⟩
  · simp only [flushHeld, hsched, hs, List.foldl_cons, List.foldl_nil, tryWrite] at hp ⊢
    split at hp
    case isTrue held => exact absurd (hp.symm.trans held) Bool.false_ne_true
    case isFalse free =>
      rw [if_neg free, performWrite, mem_touchLines, sched_touchLines]
      exact ⟨congrArg w.store hmem, rfl⟩

/-- Settles O17: LOCK and ENDLOCK act on the sequence of their core, and what the priority reservation covers waits for it. -/
theorem lockedSequences : Obligations.LockedSequences := by
  unfold Obligations.LockedSequences
  refine ⟨fun s c r hl hf => lock_opens r hl hf, fun s c rd l r hl hb hs => endlock_broken r hl hb hs,
    fun s c rd l r hl hb ht hs hfree => endlock_commits r hl hb ht hs hfree,
    fun s c rest hp hq hh hw he => grant_ends hp hq hh hw he, prioTimeout_ends, fun h who a n d be hp => ?_⟩
  simp [hubWrite, tryWrite, hp]

end Sys2Proof.Machine
end

section
/-!
PROOF. The end of an item (R213, R255): its core's state through the release of what it holds, and its ticket.
-/
namespace Sys2Proof.Machine

/-! ### A fact about one core that writes of others leave alone -/

theorem SMap.ne_of_mem_erase {α : Type} {m : SMap α} {k : Nat} {e : Nat × α} (he : e ∈ SMap.erase m k) : e.1 ≠ k := by
  induction m with
  | nil => cases he
  | cons x m ih =>
    unfold SMap.erase at he
    split at he
    · exact ih he
    · rcases List.mem_cons.1 he with rfl | he
      · assumption
      · exact ih he

/-- A table written at k lists nothing else there. -/
theorem SMap.eq_of_mem_set {α : Type} [DecidableEq α] {m : SMap α} {k : Nat} {v d w : α}
    (he : (k, w) ∈ SMap.set m k v d) : w = v := by
  unfold SMap.set at he
  split at he
  · exact absurd rfl (SMap.ne_of_mem_erase he)
  · rcases SMap.mem_ins he with e | he
    · exact (Prod.mk.inj e).2
    · exact absurd rfl (SMap.ne_of_mem_erase he)

/-- Core c is as p says, in whatever entry of the table it is listed. -/
structure CoreIs (p : CoreSt → Prop) (c : Nat) (h : Hw) : Prop where
  state : p (h.core c)
  listed : ∀ x, (c, x) ∈ h.cores → p x

namespace CoreIs
variable {p : CoreSt → Prop} {c : Nat} {h : Hw}

theorem congr {g : Hw} (hi : CoreIs p c h) (e : g.cores = h.cores) : CoreIs p c g :=
  ⟨by rw [core_congr e]; exact hi.state, fun x hx => hi.listed x (e ▸ hx)⟩

theorem set {x : CoreSt} (hx : p x) : CoreIs p c (h.setCore c x) :=
  ⟨by rw [Hw.core_setCore_self]; exact hx, fun _ hy => SMap.eq_of_mem_set hy ▸ hx⟩

theorem on (hi : CoreIs p c h) {f : CoreSt → CoreSt} (hf : ∀ x, p x → p (f x)) : CoreIs p c (h.onCore c f) :=
  set (hf _ hi.state)

theorem set_ne (hi : CoreIs p c h) {d : Nat} (hd : c ≠ d) (x : CoreSt) : CoreIs p c (h.setCore d x) := by
  refine ⟨by rw [Hw.core_setCore_ne _ hd]; exact hi.state, fun y hy => ?_⟩
  rcases SMap.mem_set hy with e | hy
  · exact absurd (Prod.mk.inj e).1 hd
  · exact hi.listed y hy

/-- What a core's touch by another's write keeps, the write keeps. -/
theorem touchLines (hi : CoreIs p c h) (ht : ∀ x a n, p x → p (x.touch a n)) (who : Option Nat) (a n : Nat) :
    CoreIs p c (touchLines h who a n) := by
  unfold Machine.touchLines
  refine List.foldlRecOn (motive := CoreIs p c) h.cores _ hi fun u hu e he => ?_
  split
  · exact hu
  · by_cases hc : c = e.1
    · subst hc
      exact set (ht _ a n (hi.listed e.2 he))
    · exact hu.set_ne hc _

theorem tryWrite (hi : CoreIs p c h) (ht : ∀ x a n, p x → p (x.touch a n)) (w : HeldWrite) : CoreIs p c (tryWrite h w) := by
  unfold Machine.tryWrite
  split
  · exact hi.congr rfl
  · exact (CoreIs.congr (g := { h with mem := w.store h.mem }) hi rfl).touchLines ht ..

theorem flushHeld (hi : CoreIs p c h) (ht : ∀ x a n, p x → p (x.touch a n)) : CoreIs p c (flushHeld h) :=
  List.foldlRecOn (motive := CoreIs p c) h.sched.heldWrites _ (hi.congr rfl) fun _ hu w _ => hu.tryWrite ht w

theorem releasePrio (hi : CoreIs p c h) (ht : ∀ x a n, p x → p (x.touch a n)) (d : Nat) : CoreIs p c (releasePrio h d) := by
  have line : CoreIs p c { h.wr (K.CORE_LOCKSTAT_PRIO d) 0 with
      sched := { h.sched with prioQueue := h.sched.prioQueue.filter (· != d) } } := hi.congr rfl
  exact line.flushHeld ht

end CoreIs

/-- A write of another master leaves the item of a core alone, and what ends it. -/
theorem item_touch (x : CoreSt) (a n : Nat) :
    (x.touch a n).item = x.item ∧ (x.touch a n).ending = x.ending ∧ (x.touch a n).stores = x.stores := by
  unfold CoreSt.touch
  dsimp only
  repeat' split
  all_goals exact ⟨rfl, rfl, rfl⟩

/-! ### Tickets, generations and frame engines on the way -/

section
variable (h : Hw)

@[simp] theorem gens_tryWrite (w : HeldWrite) : (tryWrite h w).sched.gens = h.sched.gens := by
  unfold tryWrite
  split
  · rfl
  · rw [performWrite, sched_touchLines]

@[simp] theorem gens_flushHeld : (flushHeld h).sched.gens = h.sched.gens :=
  foldl_keeps (fun t => t.sched.gens) (fun t w _ => gens_tryWrite t w) _

@[simp] theorem gens_place (q level : Nat) (t : Option Nat) (d : Desc) : (place h q level t d).sched.gens = h.sched.gens :=
  gens_tryWrite ..

@[simp] theorem gens_sendFinal (c : Nat) (i : Item) (e : Ending) : (sendFinal h c i e).sched.gens = h.sched.gens := by
  unfold sendFinal
  split
  case h_1 => rfl
  case h_2 => rfl
  case h_3 => rfl
  case h_4 => exact gens_place ..
  case h_5 =>
    split
    · rfl
    · split
      · rfl
      · exact gens_place ..

@[simp] theorem gens_dispatch : (dispatch h).sched.gens = h.sched.gens := by
  refine dispatch_induction (P := fun t => t.sched.gens = h.sched.gens) (fun t q e c _ _ ht => ?_) rfl
  obtain ⟨u, x, vs, hu, -, heq⟩ := dispatchTo_eq t q e c
  rw [heq, sched_writeFields]
  obtain rfl | ⟨r, rfl⟩ := hu <;> exact ht

theorem judgeDeadline_frame (c : Nat) :
    (judgeDeadline h c).sched = h.sched ∧ (judgeDeadline h c).dies = h.dies ∧
    ((judgeDeadline h c).core c).item.map (·.ticket) = (h.core c).item.map (·.ticket) := by
  unfold judgeDeadline
  split
  case h_2 => exact ⟨rfl, rfl, rfl⟩
  case h_1 i hi =>
    split
    case h_2 => exact ⟨rfl, rfl, rfl⟩
    case h_1 dl _ =>
      have late {b : Bool} {u : Hw} (hu : u.sched = h.sched ∧ u.dies = h.dies ∧
          (u.core c).item.map (·.ticket) = (h.core c).item.map (·.ticket)) :
          (if b then (u.cnt (K.SCHED_Q_STAT_MISS i.q)).cnt K.SCHED_MISS_MISS else u).sched = h.sched ∧
          (if b then (u.cnt (K.SCHED_Q_STAT_MISS i.q)).cnt K.SCHED_MISS_MISS else u).dies = h.dies ∧
          ((if b then (u.cnt (K.SCHED_Q_STAT_MISS i.q)).cnt K.SCHED_MISS_MISS else u).core c).item.map (·.ticket) =
            (h.core c).item.map (·.ticket) := by
        cases b
        · exact hu
        · simp only [if_true, core_congr (h := u) (g := (u.cnt (K.SCHED_Q_STAT_MISS i.q)).cnt K.SCHED_MISS_MISS) rfl]
          exact hu
      exact late ⟨rfl, rfl, by simp [hi]⟩

end

/-- No frame engine is claimed by core c. -/
def Unclaimed (h : Hw) (c : Nat) : Prop := ∀ n, n < 4 → (h.die n).eng.claim ≠ some c

theorem Unclaimed.congr {g h : Hw} {c : Nat} (hu : Unclaimed h c) (e : g.dies = h.dies) : Unclaimed g c := by
  intro n hn
  rw [show g.die n = h.die n by rw [Hw.die, e, Hw.die]]
  exact hu n hn

theorem unclaimed_releaseClaims (h : Hw) (c : Nat) : Unclaimed (releaseClaims h c) c := by
  let f : Hw → Nat → Hw := fun h n =>
    if (h.die n).eng.claim = some c then h.onDie n fun x => { x with eng := { x.eng with claim := none } } else h
  have stays (t : Hw) (m n : Nat) (ht : (t.die n).eng.claim ≠ some c) : ((f t m).die n).eng.claim ≠ some c := by
    show ((if _ then _ else _ : Hw).die n).eng.claim ≠ some c
    split
    · by_cases e : n = m
      · subst e; simp
      · rwa [Hw.die_onDie_ne _ e]
    · exact ht
  have frees (t : Hw) (n : Nat) : ((f t n).die n).eng.claim ≠ some c := by
    show ((if _ then _ else _ : Hw).die n).eng.claim ≠ some c
    split
    · simp
    · assumption
  have key : ∀ (l : List Nat) (t : Hw) (n : Nat), (n ∈ l ∨ (t.die n).eng.claim ≠ some c) →
      ((l.foldl f t).die n).eng.claim ≠ some c := by
    intro l
    induction l with
    | nil => intro t n hn; simpa using hn
    | cons m l ih =>
      intro t n hn
      refine ih _ n ?_
      rcases hn with hn | hn
      · rcases List.mem_cons.1 hn with rfl | hn
        · exact .inr (frees t n)
        · exact .inl hn
      · exact .inr (stays t m n hn)
  intro n hn
  exact key (List.range 4) h n (.inl (List.mem_range.2 hn))

/-! ### The end itself -/

theorem dies_releasePrio (h : Hw) (c : Nat) : (releasePrio h c).dies = h.dies := (kept_flushHeld _).dies

theorem gens_releasePrio (h : Hw) (c : Nat) : (releasePrio h c).sched.gens = h.sched.gens := gens_flushHeld _

theorem endStep_frame (h : Hw) (c : Nat) : (endStep h c).sched = h.sched ∧ (endStep h c).dies = h.dies := by
  unfold endStep
  split <;> exact ⟨rfl, rfl⟩

/-- The item that runs holds this ticket. -/
def HoldsTicket (tk : Nat) (x : CoreSt) : Prop := x.item.map (·.ticket) = some (some tk)

theorem holdsTicket_touch {tk : Nat} (x : CoreSt) (a n : Nat) (hx : HoldsTicket tk x) : HoldsTicket tk (x.touch a n) := by
  rw [HoldsTicket, (item_touch x a n).1]
  exact hx

/-- The item's ticket is released and its generation advances. -/
theorem endItem_ticket {h : Hw} {c tk : Nat} (hi : HoldsTicket tk (h.core c)) (e : Ending) :
    genOf (endItem h c e) tk = (genOf h tk + 1) % 65536 ∧ SMap.get (endItem h c e).sched.held tk none = none ∧
    (endItem h c e).dies = h.dies := by
  obtain ⟨hsched, hdies, hitem⟩ := judgeDeadline_frame h c
  rw [HoldsTicket, ← hitem] at hi
  unfold endItem
  generalize judgeDeadline h c = u at *
  obtain ⟨i, hui, htk⟩ := Option.map_eq_some_iff.1 hi
  simp only [hui]
  have hg : genOf (sendFinal u c i e) tk = genOf h tk := by rw [genOf, gens_sendFinal, hsched, genOf]
  refine ⟨?_, ?_, ?_⟩
  · rw [genOf, gens_dispatch, Hw.setCore]
    simp [dropTicket, htk, hg]
  · rw [held_dispatch, Hw.setCore]
    simp [dropTicket, htk]
  · rw [(kept_dispatch _).dies]
    exact (kept_dropTicket _ _).dies.trans ((kept_sendFinal ..).dies.trans hdies)

/-- What DONE makes of a core's state. -/
def CoreSt.endingWith (e : Ending) (x : CoreSt) : CoreSt :=
  { x with ending := some e, loads := x.loads.map fun l => { l with dead := true }, lock := none, lockWait := false,
           dev := none, pendErr := none }

/-- The item ends at once where no store of its core waits. -/
theorem startEnd_ends {h : Hw} {c : Core} {tk : Nat} (hi : HoldsTicket tk (h.core c.val)) (hs : (h.core c.val).stores = [])
    (e : Ending) : genOf (startEnd h c e) tk = (genOf h tk + 1) % 65536 ∧
      SMap.get (startEnd h c e).sched.held tk none = none ∧ Unclaimed (startEnd h c e) c.val := by
  obtain ⟨-, hsched, -, hcore⟩ := releaseClaims_frame h c.val
  let p : CoreSt → Prop := fun x => HoldsTicket tk x ∧ x.ending = some e ∧ x.stores = []
  have hp (x : CoreSt) (a n : Nat) (hx : p x) : p (x.touch a n) := by
    obtain ⟨-, he, hst⟩ := item_touch x a n
    exact ⟨holdsTicket_touch x a n hx.1, he.trans hx.2.1, hst.trans hx.2.2⟩
  have ready : CoreIs p c.val ((releaseClaims h c.val).onCore c.val (CoreSt.endingWith e)) := by
    refine .set ⟨?_, rfl, ?_⟩ <;> rw [hcore]
    · exact hi
    · exact hs
  have hgens : ((releaseClaims h c.val).onCore c.val (CoreSt.endingWith e)).sched.gens = h.sched.gens := by
    rw [Hw.onCore, Hw.setCore, hsched]
  have eq : startEnd h c e = tryEnd ((releasePrio ((releaseClaims h c.val).onCore c.val (CoreSt.endingWith e)) c.val).wr
    (K.CORE_LOCKSTAT_OPEN c.val) 0) c := rfl
  rw [eq]
  generalize (releaseClaims h c.val).onCore c.val (CoreSt.endingWith e) = u at *
  have waiting : CoreIs p c.val ((releasePrio u c.val).wr (K.CORE_LOCKSTAT_OPEN c.val) 0) := (ready.releasePrio hp c.val).congr rfl
  have wgens : ((releasePrio u c.val).wr (K.CORE_LOCKSTAT_OPEN c.val) 0).sched.gens = h.sched.gens := by
    rw [Hw.wr_sched, gens_releasePrio, hgens]
  generalize (releasePrio u c.val).wr (K.CORE_LOCKSTAT_OPEN c.val) 0 = w at *
  obtain ⟨-, hending, hstores⟩ := waiting.state
  simp only [tryEnd, hending, hstores, List.isEmpty_nil, if_true]
  obtain ⟨hes, -⟩ := endStep_frame w c.val
  obtain ⟨-, hrs, -, hrc⟩ := releaseClaims_frame (endStep w c.val) c.val
  have stepped : HoldsTicket tk ((endStep w c.val).core c.val) := by
    unfold endStep
    split
    · rw [Hw.core_wr, Hw.core_onCore_self]
      exact waiting.state.1
    · exact waiting.state.1
  have freed : CoreIs (HoldsTicket tk) c.val (releaseClaims (endStep w c.val) c.val) := by
    unfold releaseClaims
    refine .set ?_
    rw [releaseClaims, Hw.core_onCore_self] at hrc
    have := congrArg CoreSt.item hrc
    rw [HoldsTicket] at stepped ⊢
    exact (congrArg (Option.map Item.ticket) this).trans stepped
  obtain ⟨hgen, hheld, hdies⟩ := endItem_ticket (freed.releasePrio holdsTicket_touch c.val).state e
  refine ⟨?_, hheld, (unclaimed_releaseClaims (endStep w c.val) c.val).congr (hdies.trans (dies_releasePrio ..))⟩
  rw [hgen, genOf, gens_releasePrio, hrs, hes, wgens, ← genOf]

/-- What DONE does where it may issue. -/
def doneAct (c : Core) (rd rs1 : Reg) (h : Hw) : Option Hw :=
  some (if (h.core c.val).item.isNone then status h c rd qsNoitem else startEnd h c ⟨0, 0, gv h c rs1 % 2 ^ 32⟩)

theorem exec_doneItem (s : State) (c : Core) (rd rs1 : Reg) : exec (.doneItem c rd rs1) s =
    doHw s fun h => devOp h c (wordA 0x10 4 rd rs1 0) [rd, rs1] false (doneAct c rd rs1) := rfl

/-- Settles O20: DONE without an item answers NOITEM; with one, its ticket is released and its claims end. -/
theorem doneEndsItem : Obligations.DoneEndsItem := by
  unfold Obligations.DoneEndsItem
  intro s c rd rs1 r
  rw [exec_doneItem]
  refine ⟨fun hi => ?_, fun i tk hi htk => ?_⟩
  · have act : doneAct c rd rs1 (begun s.hw c) = some (status (begun s.hw c) c rd qsNoitem) := by
      simp [doneAct, hi]
    exact Ends.imp (devOp_only_answers r act) fun t ⟨ha, hs⟩ => ⟨ha, hs.mem⟩
  · have act : doneAct c rd rs1 (begun s.hw c) =
        some (startEnd (begun s.hw c) c ⟨0, 0, (s.hw.g c rs1).toNat % 2 ^ 32⟩) := by
      simp [doneAct, hi]
    have stores : (s.hw.core c.val).stores = [] := by simpa [storesDone] using r.stores
    obtain ⟨hgen, hheld, hclaim⟩ := startEnd_ends (h := begun s.hw c) (c := c) (tk := tk)
      (by rw [HoldsTicket, item_begun, hi, Option.map_some, htk]) (by simpa [begun] using stores)
      ⟨0, 0, (s.hw.g c rs1).toNat % 2 ^ 32⟩
    have st : StaysIn (startEnd (begun s.hw c) c ⟨0, 0, (s.hw.g c rs1).toNat % 2 ^ 32⟩) (retire _ c) c := .retire
    refine ⟨_, rfl, ?_⟩
    simp only [State.onHw, devOp_ready (act := doneAct c rd rs1) r act]
    refine ⟨?_, ?_, fun n hn => hclaim.congr ?_ n hn⟩
    · rw [genOf, st.sched]
      exact hgen
    · rw [st.sched, hheld]
    · obtain ⟨-, -, -, -, e, -⟩ := st.rest
      exact e

end Sys2Proof.Machine
end

section
/-!
PROOF. The frame engines (R214 to R219), and the end of an operation that a core waits for.
-/
namespace Sys2Proof.Machine

/-! ### Waiting for a unit, and its end -/

theorem find_core_val (c : Core) : (allCores.find? fun d => d.val == c.val) = some c := by
  have := find_core (c := c) rfl
  rw [← this]
  congr 1
  funext d
  by_cases hd : d.val = c.val
  · simp [hd]
  · simp [hd, Ne.symm hd]

/-- The end of a step that Adit asked for halts the core and changes nothing else. -/
theorem StaysIn.endStep (h : Hw) {c : Core} : StaysIn h (endStep h c.val) c := by
  unfold Machine.endStep
  split
  · refine (StaysIn.onCore (f := fun x => { x with stepping := false }) (fun _ => rfl) (fun _ => rfl) (fun _ => rfl)).trans ?_
    exact ⟨rfl, fun k hk => Hw.rd_wr_ne _ hk _, rfl, fun _ _ => rfl, rfl, rfl, rfl, by simp⟩
  · exact .refl

/-- The result stands in rd, the core is free, and nothing else of it changes. -/
theorem staysIn_finishDev {h : Hw} {c : Core} (hq : (h.core c.val).pendErr = none) (hh : isHalted h c.val = false) {op : DevOp}
    {rd : Reg} {d : Option Word} (hd : (h.core c.val).dev = some ⟨op, rd, d⟩) (v : Word) : StaysIn h (finishDev h c v) c ∧
    (finishDev h c v).g c rd = (if rd = 0 then 0 else v) ∧ ((finishDev h c v).core c.val).dev = none ∧
    ∀ r, r ≠ rd → (finishDev h c v).g c r = h.g c r := by
  simp only [finishDev, hd, hh, Bool.false_eq_true, if_false]
  let x : CoreSt := { (h.setG c rd v).core c.val with dev := none }
  have ended : (endStep ((h.setG c rd v).onCore c.val fun x => { x with dev := none }) c.val).core c.val = x ∨
      (endStep ((h.setG c rd v).onCore c.val fun x => { x with dev := none }) c.val).core c.val = { x with stepping := false } := by
    unfold endStep
    split
    · exact .inr (by simp [x])
    · exact .inl (by simp [x])
  have quiet : ((endStep ((h.setG c rd v).onCore c.val fun x => { x with dev := none }) c.val).core c.val).pendErr = none := by
    have hx : x.pendErr = none := by by_cases h0 : rd = 0 <;> simp [x, Hw.setG, h0, hq]
    rcases ended with e | e <;> rw [e] <;> exact hx
  rw [boundary_quiet quiet]
  have g (r : Reg) : (endStep ((h.setG c rd v).onCore c.val fun x => { x with dev := none }) c.val).g c r = (h.setG c rd v).g c r := by
    rcases ended with e | e <;> simp only [Hw.g, e] <;> rfl
  refine ⟨?_, ?_, ?_, fun r hr => ?_⟩
  · have result : StaysIn h (h.setG c rd v) c := .setG rd v
    have free : StaysIn (h.setG c rd v) ((h.setG c rd v).onCore c.val fun x => { x with dev := none }) c :=
      .onCore (fun _ => rfl) (fun _ => rfl) (fun _ => rfl)
    exact (result.trans free).trans (.endStep _)
  · rw [g]; simp
  · rcases ended with e | e <;> rw [e]
  · rw [g, Hw.g_setG_ne _ _ hr]

/-- The end of the operation a core waits for gives it the result and changes nothing else of it. -/
theorem finishDev_resumes {s : State} {t : State} {u : Hw} {c : Core} {op : DevOp} {rd : Reg} {d : Option Word} {v : Nat}
    (hq : (u.core c.val).pendErr = none) (hh : isHalted u c.val = false) (hd : (u.core c.val).dev = some ⟨op, rd, d⟩)
    (hg : ∀ r, u.g c r = s.hw.g c r) (ht : t.hw = finishDev u c (BitVec.ofNat 64 v)) : Resumes s t c rd v := by
  obtain ⟨-, hrd, hdev, hother⟩ := staysIn_finishDev hq hh hd (BitVec.ofNat 64 v)
  rw [Resumes, ht]
  exact ⟨hrd, hdev, fun r hr => (hother r hr).trans (hg r)⟩

/-! ### FSET -/

theorem StaysIn.dies {h t : Hw} {c : Core} (st : StaysIn h t c) : t.dies = h.dies := by
  obtain ⟨-, -, -, -, e, -⟩ := st.rest
  exact e

theorem die_congr {g h : Hw} (e : g.dies = h.dies) (n : Nat) : g.die n = h.die n := by rw [Hw.die, e, Hw.die]

theorem StaysIn.die {h t : Hw} {c : Core} (st : StaysIn h t c) (n : Nat) : t.die n = h.die n := die_congr st.dies n

/-- What FSET does where it may issue. -/
def fsetAct (c : Core) (rd rs1 rs2 : Reg) (h : Hw) : Option Hw := some (fset h c rd (gv h c rs1) (gv h c rs2))

theorem exec_fsetClaim (s : State) (c : Core) (rd rs1 rs2 : Reg) : exec (.fsetClaim c rd rs1 rs2) s =
    doHw s fun h => devOp h c (wordA 0x11 1 rd rs1 rs2) [rd, rs1, rs2] false (fsetAct c rd rs1 rs2) := rfl

theorem exec_fsetRelease (s : State) (c : Core) (rd rs1 rs2 : Reg) : exec (.fsetRelease c rd rs1 rs2) s =
    doHw s fun h => devOp h c (wordA 0x11 1 rd rs1 rs2) [rd, rs1, rs2] false (fsetAct c rd rs1 rs2) := rfl

section
variable {s : State} {c : Core} {rd rs1 rs2 : Reg} {n : Nat}

section
variable (hn : n = bits (s.hw.g c rs1).toNat 19 18) (h2 : (s.hw.g c rs2).toNat.testBit 0 = false)
  (hc : claimOf s.hw c = none) (ho : frameOffline s.hw n = false) (hs : bits (s.hw.g c rs1).toNat 17 10 < 192)
include hn h2 hc ho hs

/-- FSET of a free engine takes it. -/
theorem fsetAct_free (he : (s.hw.die n).eng.claim = none) : ∃ u : Hw, fsetAct c rd rs1 rs2 (begun s.hw c) = some (status u c rd fsOk) ∧
    u.pc c = s.hw.pc c ∧ (u.die n).eng.claim = some c.val ∧ (u.die n).eng.pointer = bits (s.hw.g c rs1).toNat 17 0 ∧
    (∀ m, m ≠ n → u.die m = s.hw.die m) ∧ u.mem = s.hw.mem := by
  have ho' : frameOffline (begun s.hw c) n = false := ho
  have hc' : claimOf (begun s.hw c) c = none := hc
  have he' : ((begun s.hw c).die n).eng.claim = none := he
  let u : Hw := (begun s.hw c).onDie n fun y =>
    { y with eng := { y.eng with claim := some c.val, pointer := bits (s.hw.g c rs1).toNat 17 0 } }
  let mark : Option Die := if isForeman c && (u.core c.val).item.isNone then some (Fin.ofNat 4 n) else none
  refine ⟨u.onCore c.val fun x => { x with claim := mark }, ?_, ?_, ?_, ?_, fun m hm => ?_, rfl⟩
  · simp [fsetAct, fset, h2, hc', ← hn, ho', Nat.not_le.2 hs, he', u, mark]
  · rw [← Hw.pc_begun s.hw c, Hw.pc, Hw.core_onCore_self]
    rfl
  · show (u.die n).eng.claim = _
    simp [u]
  · show (u.die n).eng.pointer = _
    simp [u]
  · show u.die m = _
    rw [Hw.die_onDie_ne _ hm]
    rfl

/-- FSET of an engine another core claims is BUSY. -/
theorem fsetAct_busy {x : Nat} (he : (s.hw.die n).eng.claim = some x) (hx : x ≠ c.val) :
    fsetAct c rd rs1 rs2 (begun s.hw c) = some (status (begun s.hw c) c rd fsBusy) := by
  have ho' : frameOffline (begun s.hw c) n = false := ho
  have hc' : claimOf (begun s.hw c) c = none := hc
  have he' : ((begun s.hw c).die n).eng.claim = some x := he
  simp [fsetAct, fset, h2, hc', ← hn, ho', Nat.not_le.2 hs, he', hx]

end

theorem fset_releases (r : DevReady s.hw c (wordA 0x11 1 rd rs1 rs2) [rd, rs1, rs2] false)
    (h2 : (s.hw.g c rs2).toNat.testBit 0 = true) : Ends (exec (.fsetRelease c rd rs1 rs2) s) fun t =>
      Answers s t c rd 0 ∧ (∀ n, n < 4 → (t.hw.die n).eng.claim ≠ some c.val) ∧ t.hw.mem = s.hw.mem := by
  obtain ⟨hmem, -, -, hcore⟩ := releaseClaims_frame (begun s.hw c) c.val
  have act : fsetAct c rd rs1 rs2 (begun s.hw c) = some (status (releaseClaims (begun s.hw c) c.val) c rd fsOk) := by
    simp [fsetAct, fset, h2]
  have hpc : (releaseClaims (begun s.hw c) c.val).pc c = s.hw.pc c := by
    rw [← Hw.pc_begun s.hw c, Hw.pc, hcore, Hw.pc]
  exact Ends.imp (devOp_answers r hpc act) fun t ⟨ha, st⟩ =>
    ⟨ha, (unclaimed_releaseClaims _ _).congr st.dies, st.mem.trans hmem⟩

/-! ### FWR, FRD and FVERIFY -/

theorem exec_fwr : exec (.fwr c rd rs1 rs2) s = doHw s fun h => devOp h c (wordA 0x11 2 rd rs1 rs2) [rd, rs1, rs2] false fun h =>
    frameOp h c rd (gv h c rs1) (gv h c rs2 % 2048) (writeStep c) := rfl
theorem exec_frd : exec (.frd c rd rs1 rs2) s = doHw s fun h => devOp h c (wordA 0x11 3 rd rs1 rs2) [rd, rs1, rs2] false fun h =>
    frameOp h c rd (gv h c rs1) (gv h c rs2 % 2048) (readStep c) := rfl
theorem exec_fverify : exec (.fverify c rd rs1 rs2) s =
    doHw s fun h => devOp h c (wordA 0x11 4 rd rs1 rs2) [rd, rs1, rs2] false fun h =>
    frameOp h c rd (gv h c rs1) (gv h c rs2 % 2048) (verifyStep c) := rfl

section
variable {step : FrameStep} {a count : Nat} (ha : a % 64 = 0) (hs : streamOk s.hw a (512 * count) = true)
include ha hs

theorem frameOp_noclaim (hc : claimOf s.hw c = none) :
    frameOp (begun s.hw c) c rd a count step = some (status (begun s.hw c) c rd fsNoclaim) := by
  have hs' : streamOk (begun s.hw c) a (512 * count) = true := hs
  have hc' : claimOf (begun s.hw c) c = none := hc
  simp [frameOp, ha, hs', hc']

/-- An operation of a claimed engine runs, and its result waits for the report of its end. -/
theorem frameOp_starts (hc : claimOf s.hw c = some n) (ho : frameOffline s.hw n = false) (h1 : 1 ≤ count) (h2 : count ≤ 1024)
    (hp : (s.hw.die n).eng.pointer < 192 * 1024) (hop : (s.hw.die n).eng.op = none) :
    ∃ (u : Hw) (v : Nat), (u.die n).eng.op = some (c.val, v) ∧
      frameOp (begun s.hw c) c rd a count step = some (waitFor u c (.frame (Fin.ofNat 4 n)) rd) := by
  have hs' : streamOk (begun s.hw c) a (512 * count) = true := hs
  have hc' : claimOf (begun s.hw c) c = some n := hc
  have ho' : frameOffline (begun s.hw c) n = false := ho
  have hop' : ((begun s.hw c).die n).eng.op = none := hop
  have range : ¬ (count = 0 ∨ 1024 < count ∨ 192 * 1024 ≤ ((begun s.hw c).die n).eng.pointer) := by
    have : ((begun s.hw c).die n).eng.pointer < 192 * 1024 := hp
    omega
  simp only [frameOp, ha, hs', hc', ho', hop', range, ne_eq, not_true, if_false, Bool.not_true, Bool.false_eq_true,
    Option.isSome_none]
  generalize runFrames step n count (runDesign (begun s.hw c)) a 0 0 = run
  obtain ⟨st, done, corr, g⟩ := run
  exact ⟨_, corr * 2 ^ 48 + done * 2 ^ 32 + st, by rw [Hw.die_onDie_self], rfl⟩

end

theorem noclaim_answers {w : Nat} {uses : List Reg} {step : FrameStep} (r : DevReady s.hw c w uses false)
    (ha : (s.hw.g c rs1).toNat % 64 = 0)
    (hs : streamOk s.hw (s.hw.g c rs1).toNat (512 * ((s.hw.g c rs2).toNat % 2048)) = true) (hc : claimOf s.hw c = none) :
    Ends (doHw s fun h => devOp h c w uses false fun h => frameOp h c rd (gv h c rs1) (gv h c rs2 % 2048) step) fun t =>
      Answers s t c rd 2 ∧ t.hw.dies = s.hw.dies ∧ t.hw.mem = s.hw.mem := by
  have act : (fun h => frameOp h c rd (gv h c rs1) (gv h c rs2 % 2048) step) (begun s.hw c) =
      some (status (begun s.hw c) c rd fsNoclaim) := by
    simp only [gv_begun, frameOp_noclaim ha hs hc]
  exact Ends.imp (devOp_only_answers r act) fun t ⟨hans, st⟩ => ⟨hans, st.dies, st.mem⟩

theorem dev_retire (h : Hw) (c : Core) : ((retire h c).core c.val).dev = (h.core c.val).dev := by
  rcases core_retire h c with e | e <;> rw [e]

theorem dev_waitFor (h : Hw) (c : Core) (op : DevOp) (rd : Reg) : ((waitFor h c op rd).core c.val).dev = some ⟨op, rd, none⟩ := by
  simp [waitFor, advance, Hw.setPc]

theorem dies_waitFor (h : Hw) (c : Core) (op : DevOp) (rd : Reg) : (waitFor h c op rd).dies = h.dies := rfl

/-- An operation of the frame engine starts and waits. -/
theorem frame_waits {w : Nat} {uses : List Reg} {act : Hw → Option Hw} {e : Nat} (r : DevReady s.hw c w uses false)
    (ha : ∃ (u : Hw) (v : Nat), (u.die e).eng.op = some (c.val, v) ∧ act (begun s.hw c) = some (waitFor u c (.frame (Fin.ofNat 4 e)) rd)) :
    Ends (doHw s fun h => devOp h c w uses false act) fun t =>
      (t.hw.core c.val).dev = some ⟨.frame (Fin.ofNat 4 e), rd, none⟩ ∧ ∃ v, (t.hw.die e).eng.op = some (c.val, v) := by
  obtain ⟨u, v, hv, hact⟩ := ha
  refine ⟨_, rfl, ?_⟩
  simp only [State.onHw, devOp_ready r hact]
  have st : StaysIn (waitFor u c (.frame (Fin.ofNat 4 e)) rd) (retire (waitFor u c (.frame (Fin.ofNat 4 e)) rd) c) c := .retire
  refine ⟨?_, v, ?_⟩
  · rw [dev_retire, dev_waitFor]
  · rw [st.die, die_congr (dies_waitFor ..), hv]

end

/-! ### One frame of FWR -/

section
variable {h : Hw} {n k : Nat}

theorem dies_reviveSpines_frames (m : Nat) : ((reviveSpines h n m).die n).frames = (h.die n).frames ∧ (reviveSpines h n m).mem = h.mem := by
  unfold reviveSpines
  simp only
  have keep {β : Type} (part : Hw → β) (hp : ∀ (t : Hw) k v, part (t.wr k v) = part t) (l : List (Nat × Nat × Nat)) :
      part (l.foldl (fun h x => h.wr (K.SPINE_OFF_OFF n (m % 12)) (setBitAt (h.rd (K.SPINE_OFF_OFF n (m % 12))) x.2.1 false)) h) = part h :=
    foldl_keeps part (fun _ _ _ => hp ..) h
  refine ⟨?_, keep Hw.mem (fun _ _ _ => rfl) _⟩
  rw [Hw.die_onDie_self, die_congr (keep Hw.dies (fun _ _ _ => rfl) _)]

theorem putFrame_frame (h : Hw) (n k data : Nat) : frameOf (putFrame h n k data) n k = data % 2 ^ 4096 ∧
    (∀ j, j ≠ k → frameOf (putFrame h n k data) n j = frameOf h n j) ∧ (putFrame h n k data).mem = h.mem := by
  have frames : ((putFrame h n k data).die n).frames = SMap.set (h.die n).frames k (data % 2 ^ 4096) 0 ∧
      (putFrame h n k data).mem = h.mem := by
    unfold putFrame
    simp only
    split
    · obtain ⟨hf, hm⟩ := dies_reviveSpines_frames (n := n) (h := (h.onDie n fun x =>
        { x with frames := SMap.set x.frames k (data % 2 ^ 4096) 0, frameErr := SMap.erase x.frameErr k }).onDie n fun x =>
        { x with mirror := SMap.set x.mirror (k / 1024) (enablesIn (k / 1024) data) 0 }) (k / 1024)
      refine ⟨hf.trans ?_, hm.trans rfl⟩
      rw [Hw.die_onDie_self, Hw.die_onDie_self]
    · exact ⟨by rw [Hw.die_onDie_self], rfl⟩
  obtain ⟨hf, hm⟩ := frames
  refine ⟨?_, fun j hj => ?_, hm⟩
  · rw [frameOf, hf, SMap.get_set_self]
  · rw [frameOf, hf, SMap.get_set_ne _ hj, frameOf]

theorem ofBytes_lt (l : List Byte) : ofBytes l < 256 ^ l.length := by
  induction l with
  | nil => simp [ofBytes]
  | cons b l ih =>
    have := b.isLt
    simp only [ofBytes, List.length_cons, pow_succ]
    omega

theorem readN_lt (m : Mem) (a n : Nat) : m.readN a n < 256 ^ n := by
  have := ofBytes_lt ((List.range n).map fun i => m.readByte (a + i))
  rwa [List.length_map, List.length_range] at this

/-- The data of a frame fills it exactly. -/
theorem readN_frame_lt (m : Mem) (a : Nat) : m.readN a 512 < 2 ^ 4096 := by
  have bits : (2 : Nat) ^ 4096 = 256 ^ 512 := by rw [show (256 : Nat) = 2 ^ 8 from rfl, ← pow_mul]
  rw [bits]
  exact readN_lt m a 512

/-- FWR of a frame of clean hub SRAM, which is fenced or of a die under set-reset. -/
theorem writeStep_clean {c : Core} {a : Nat} (hf : (fenceSettled h n (k / 1024) || (h.die n).setReset) = true)
    (hlo : hubBase ≤ a) (hhi : a + 512 ≤ hubBase + hubSize) (hcl : (h.mem.seen a 512).all (fun x => x.2 == .clean) = true) :
    writeStep c h n k a = if frameRefused h n k (h.mem.readN a 512) then (some fsContend, false, logContend h n k c.val)
      else (none, false, putFrame h n k (h.mem.readN a 512)) := by
  have hub : inDram a = false := by
    simp only [hubBase, hubSize] at hlo hhi
    refine decide_eq_false fun hd => ?_
    simp only [dramBase] at hd
    omega
  have read : streamIn h c a = (.ok (h.mem.readN a 512), h) := by
    simp [streamIn, busRead, hub, memRead_of_clean hcl]
  simp [writeStep, hf, read]

end

/-- The end of a streaming operation gives the waiting core its result. -/
theorem frameOp_completes {s : State} {d : Die} {c : Core} {v : Nat} {rd : Reg} (hop : (s.hw.die d.val).eng.op = some (c.val, v))
    (hd : (s.hw.core c.val).dev = some ⟨.frame d, rd, none⟩) (hh : isHalted s.hw c.val = false)
    (hq : (s.hw.core c.val).pendErr = none) :
    Ends (exec (.frameOpComplete d) s) fun t => Resumes s t c rd v ∧ (t.hw.die d.val).eng.op = none := by
  let u := s.hw.onDie d.val fun x => { x with eng := { x.eng with op := none } }
  have hdu : (u.core c.val).dev = some ⟨.frame d, rd, none⟩ := hd
  have hqu : (u.core c.val).pendErr = none := hq
  refine ⟨_, rfl, ?_⟩
  simp only [State.onHw, hop, find_core_val, hdu, u, if_true]
  refine ⟨finishDev_resumes hqu hh hdu (fun _ => rfl) rfl, ?_⟩
  rw [(staysIn_finishDev hqu hh hdu _).1.die, Hw.die_onDie_self]

/-- Settles O21: FSET, the streaming operations and their end act on the engine of the die and on the core that waits. -/
theorem frameOps : Obligations.FrameOps := by
  unfold Obligations.FrameOps
  refine ⟨⟨fun s c rd rs1 rs2 n r hn h2 hc ho hs => ⟨fun he => ?_, fun x he hx => ?_⟩, fun s c rd rs1 rs2 r h2 => fset_releases r h2,
    fun s d hd => ?_⟩, fun s c rd rs1 rs2 n r ha hs hc ho h1 hm hp hop => ?_, fun s c rd rs1 rs2 r ha hs hc => ?_,
    fun h c n k a hf hlo hhi hcl _ => ?_, fun s d c v rd hop hd hh hq => ?_⟩
  · obtain ⟨u, act, hpc, hclaim, hptr, hoth, hmem⟩ := fsetAct_free (rd := rd) hn h2 hc ho hs he
    rw [exec_fsetClaim]
    exact Ends.imp (devOp_answers r hpc act) fun t ⟨hans, st⟩ => ⟨hans, by rw [st.die, hclaim], by rw [st.die, hptr],
      fun m hne => by rw [st.die, hoth m hne], st.mem.trans hmem⟩
  · rw [exec_fsetClaim]
    exact Ends.imp (devOp_only_answers r (fsetAct_busy hn h2 hc ho hs he hx)) fun t ⟨hans, st⟩ => ⟨hans, st.dies, st.mem⟩
  · refine ⟨_, rfl, ?_⟩
    simp only [State.onHw, hd, if_true]
    exact (unclaimed_releaseClaims s.hw 0).congr (kept_logOp ..).dies
  · rw [exec_fwr, exec_frd, exec_fverify]
    have starts (step : FrameStep) := frameOp_starts (rd := rd) (step := step) ha hs hc ho h1 hm hp hop
    refine ⟨frame_waits (r _) ?_, frame_waits (r _) ?_, frame_waits (r _) ?_⟩ <;> simp only [gv_begun, starts]
  · rw [exec_fwr, exec_frd, exec_fverify]
    exact ⟨noclaim_answers (r _) ha hs hc, noclaim_answers (r _) ha hs hc, noclaim_answers (r _) ha hs hc⟩
  · rw [writeStep_clean hf hlo hhi hcl]
    obtain ⟨hput, hother, hmem⟩ := putFrame_frame h n k (h.mem.readN a 512)
    cases href : frameRefused h n k (h.mem.readN a 512)
    · refine ⟨fun e => by simp at e, fun _ => by simp, ?_, ?_, fun _ => ?_⟩
      · simp only [Bool.false_eq_true, if_false]
        rw [hput]
        exact Nat.mod_eq_of_lt (readN_frame_lt ..)
      · simpa using hother
      · simpa using hmem
    · have hlog : frameOf (logContend h n k c.val) n = frameOf h n := by
        funext j
        rw [frameOf, die_congr (g := logContend h n k c.val) (kept_logEntry ..).dies, frameOf]
      refine ⟨fun _ => by simp, fun e => by simp at e, ?_, fun j _ => ?_, fun e => ?_⟩
      · simp only [if_true, hlog]
      · simp only [if_true, hlog]
      · have hpost : h.rd K.ERR_POSTMASK_MASK = 0 := by simpa using e
        simp only [if_true, logContend]
        rw [logEntry_unposted (by simp [srcDie, srcMem]; omega) (by simp [srcDie, srcDdr]; omega) hpost, mem_logRaw]
  · exact frameOp_completes hop hd hh hq

end Sys2Proof.Machine
end

section
/-!
PROOF. What the edges of the design leave alone: every unit's state but the cells of the dies, the levels and stake counters of
the networks, the slots of seams and links, and what the error log and the scheduler hold.
-/
namespace Sys2Proof.Machine

/-- A die without the state its design works on. -/
def DieSt.control (x : DieSt) : DieSt :=
  { x with frames := [], ff := [], shadow := [], captured := [], rams := [], ariths := [], taps := [] }

/-- A network without its level and its counters. -/
def NetSt.control (x : NetSt) : NetSt := { x with high := false, stake := 0, latched := 0 }

/-- From h to t nothing but the design has run, and what it found was logged. -/
structure DesignRan (h t : Hw) : Prop where
  shadow : t.shadow = h.shadow
  gal : t.gal = h.gal
  strata : t.strata = h.strata
  assay : t.assay = h.assay
  keys : t.keys = h.keys
  ldr : t.ldr = h.ldr
  pins : t.pins = h.pins
  pcie : t.pcie = h.pcie
  dram : t.dram = h.dram
  rst : t.rst = h.rst
  pwr : t.pwr = h.pwr
  guest : t.guest = h.guest
  dbg : t.dbg = h.dbg
  plls : t.clk.plls = h.clk.plls
  die : ∀ n, (t.die n).control = (h.die n).control
  net : ∀ n m, (t.net n m).control = (h.net n m).control
  rd : ∀ k, OffSched k → t.rd k = h.rd k

namespace DesignRan
variable {h t u : Hw}

theorem refl (h : Hw) : DesignRan h h :=
  ⟨rfl, rfl, rfl, rfl, rfl, rfl, rfl, rfl, rfl, rfl, rfl, rfl, rfl, rfl, fun _ => rfl, fun _ _ => rfl, fun _ _ => rfl⟩

theorem trans (a : DesignRan h t) (b : DesignRan t u) : DesignRan h u where
  shadow := b.shadow.trans a.shadow
  gal := b.gal.trans a.gal
  strata := b.strata.trans a.strata
  assay := b.assay.trans a.assay
  keys := b.keys.trans a.keys
  ldr := b.ldr.trans a.ldr
  pins := b.pins.trans a.pins
  pcie := b.pcie.trans a.pcie
  dram := b.dram.trans a.dram
  rst := b.rst.trans a.rst
  pwr := b.pwr.trans a.pwr
  guest := b.guest.trans a.guest
  dbg := b.dbg.trans a.dbg
  plls := b.plls.trans a.plls
  die n := (b.die n).trans (a.die n)
  net n m := (b.net n m).trans (a.net n m)
  rd k hk := (b.rd k hk).trans (a.rd k hk)

theorem of_kept (a : Kept h t) : DesignRan h t where
  shadow := a.shadow
  gal := a.gal
  strata := a.strata
  assay := a.assay
  keys := a.keys
  ldr := a.ldr
  pins := a.pins
  pcie := a.pcie
  dram := a.dram
  rst := a.rst
  pwr := a.pwr
  guest := a.guest
  dbg := a.dbg
  plls := congrArg Clk.plls a.clk
  die n := by rw [die_congr a.dies]
  net n m := by rw [Hw.net, a.clk, Hw.net]
  rd := a.rd

theorem foldl_mem {α : Type} {f : Hw → α → Hw} {l : List α} (hf : ∀ h, ∀ x ∈ l, DesignRan h (f h x)) (h : Hw) :
    DesignRan h (l.foldl f h) :=
  List.foldlRecOn (motive := DesignRan h) l f (refl h) fun t ht x hx => ht.trans (hf t x hx)

theorem foldl {α : Type} {f : Hw → α → Hw} (hf : ∀ h x, DesignRan h (f h x)) (l : List α) (h : Hw) : DesignRan h (l.foldl f h) :=
  foldl_mem (fun t x _ => hf t x) h

/-- A change of cells of a die. -/
theorem onDie (h : Hw) (n : Nat) {f : DieSt → DieSt} (hf : ∀ x, (f x).control = x.control) : DesignRan h (h.onDie n f) where
  shadow := rfl
  gal := rfl
  strata := rfl
  assay := rfl
  keys := rfl
  ldr := rfl
  pins := rfl
  pcie := rfl
  dram := rfl
  rst := rfl
  pwr := rfl
  guest := rfl
  dbg := rfl
  plls := rfl
  die m := by
    by_cases hm : m = n
    · subst hm; rw [Hw.die_onDie_self, hf]
    · rw [Hw.die_onDie_ne _ hm]
  net _ _ := rfl
  rd _ _ := rfl

end DesignRan

theorem kept_countRam (h : Hw) {n : Nat} (hn : n < 4) (r : Nat × Nat × Nat × List Nat) : Kept h (countRam h n r) := by
  obtain ⟨s, i, row, lanes⟩ := r
  have corr (h : Hw) : Kept h (h.cnt (K.ERR_CNT_CORR (8 + n))) := .wr (by simp [K.ERR_CNT_CORR]; omega) _
  have uncorr (h : Hw) : Kept h (h.cnt (K.ERR_CNT_UNCORR (8 + n))) := .wr (by simp [K.ERR_CNT_UNCORR]; omega) _
  have counted (b d : Nat) : Kept h (if b = d then h else h.cnt (K.ERR_CNT_CORR (8 + n))) := by
    split
    · exact .refl h
    · exact corr h
  unfold countRam
  simp only
  generalize hu : (if List.length _ = List.length _ then h else _) = u
  have hk : Kept h u := hu ▸ counted ..
  split
  · exact hk.trans ((uncorr _).trans (kept_logEntry ..))
  · split
    · exact hk
    · split
      · exact hk
      · exact hk.trans ((Kept.csr rfl).trans (kept_logEntry ..))

theorem control_dieAfter (h : Hw) (c : Nat) (e : Edges) (n : Nat) : (dieAfter h c e n).control = (h.die n).control := by
  unfold dieAfter
  simp only
  split <;> rfl

/-- The table of dies after the edges. -/
theorem control_putDies (f : Nat → DieSt) (l : List Nat) (t : SMap DieSt) (g : Nat → DieSt)
    (hf : ∀ n, (f n).control = (g n).control) (ht : ∀ n, (SMap.get t n {}).control = (g n).control) (m : Nat) :
    (SMap.get (l.foldl (fun t n => SMap.put t n (f n)) t) m {}).control = (g m).control := by
  induction l generalizing t with
  | nil => exact ht m
  | cons n l ih =>
    refine ih _ fun k => ?_
    by_cases hk : k = n
    · subst hk; rw [SMap.get_put_self, hf]
    · rw [SMap.get_put_ne _ hk, ht]

theorem control_netsAfter (h : Hw) (e : Edges) (k : Nat) :
    (SMap.get (netsAfter h e) k {}).control = (SMap.get h.clk.nets k {}).control := by
  unfold netsAfter
  refine List.foldlRecOn (motive := fun t : SMap NetSt => (SMap.get t k {}).control = (SMap.get h.clk.nets k {}).control) _ _ rfl
    fun t ht i _ => ?_
  by_cases hk : k = i
  · subst hk
    rw [SMap.upd, SMap.get_set_self, ← ht]
    split <;> rfl
  · rw [SMap.upd, SMap.get_set_ne _ hk, ht]

theorem designRan_edgeStep (h : Hw) (e : Edges) : DesignRan h (edgeStep h e) := by
  unfold edgeStep
  simp only
  refine DesignRan.trans ?_ (.foldl_mem (fun t (r : Nat × Nat × Nat × Nat × List Nat) hr => .of_kept (kept_countRam t ?_ r.2)) _)
  rotate_left
  · obtain ⟨n, hn, hr⟩ := List.mem_flatMap.1 hr
    split at hr
    · cases hr
    · obtain ⟨_, -, hr⟩ := List.mem_flatMap.1 hr
      obtain ⟨_, -, hr⟩ := List.mem_flatMap.1 hr
      obtain ⟨_, -, rfl⟩ := List.mem_map.1 hr
      exact List.mem_range.1 hn
  exact ⟨rfl, rfl, rfl, rfl, rfl, rfl, rfl, rfl, rfl, rfl, rfl, rfl, rfl, rfl,
    fun m => control_putDies _ _ _ (fun n => h.die n) (fun n => control_dieAfter ..) (fun _ => rfl) m,
    fun n m => control_netsAfter .., fun _ _ => rfl⟩

theorem designRan_runDesign (h : Hw) : DesignRan h (runDesign h) := by
  unfold runDesign
  split
  · exact .refl h
  · refine DesignRan.trans ?_ (.foldl (fun t r => designRan_edgeStep t _) ..)
    exact .of_kept (.csr rfl)

theorem designRan_oneEdge (h : Hw) (n m : Nat) : DesignRan h (oneEdge h n m) := by
  unfold oneEdge
  simp only
  refine DesignRan.trans ?_ (designRan_edgeStep ..)
  split
  · exact designRan_edgeStep ..
  · exact .refl h

/-- The flip-flops `mine` of a sector are marked and, where the tap gate is open, load their shadows. -/
def captureSector (h : Hw) (n m s mine : Nat) : Hw :=
  let h := h.onDie n fun x => { x with captured := SMap.upd x.captured s 0 (· ||| mine) }
  if tapClosed h n s m then h
  else
    let (q, h) := ffOf h n s
    h.onDie n fun x => { x with shadow := SMap.upd x.shadow s 0 fun v => mergeBits v mine q }

theorem designRan_captureSector (h : Hw) (n m s mine : Nat) : DesignRan h (captureSector h n m s mine) := by
  unfold captureSector
  simp only
  refine (DesignRan.onDie h n (f := fun x => { x with captured := SMap.upd x.captured s 0 (· ||| mine) }) fun _ => rfl).trans ?_
  split
  · exact .refl _
  · exact (DesignRan.of_kept (kept_draw _)).trans (.onDie _ _ fun _ => rfl)

theorem designRan_captureFlops (h : Hw) (n m : Nat) (late : Option Bool) : DesignRan h (captureFlops h n m late) := by
  unfold captureFlops
  refine .foldl (fun t s => ?_) _ _
  extract_lets mine0 mine u
  have := designRan_captureSector t n m s mine
  unfold captureSector at this
  exact this

end Sys2Proof.Machine
end

section
/-!
PROOF. CAP, DRAIN and RESTORE (R150 to R155, R167, R234, R235).
-/
namespace Sys2Proof.Machine

/-! ### What the checks of a trigger read -/

/-- The registers that the checks of a trigger at die d read. -/
def triggerKeys (d p : Nat) : List Key :=
  [K.RST_DIE_INRESET d, K.PWR_STAT_STATE, K.STRATA_CTL_DEPTH d, K.STRATA_KEEP_KEEP d, K.STRATA_STAT_NEXT d, K.STRATA_PROF_NETS d p,
    K.CLK_GRIDTIME_TIME]

/-- From h to t nothing has changed that a trigger of profile p at die d is judged by. -/
structure SameFor (d p : Nat) (h t : Hw) : Prop where
  die : (t.die d).control = (h.die d).control
  pwr : t.pwr = h.pwr
  ldr : t.ldr = h.ldr
  rd : ∀ k ∈ triggerKeys d p, t.rd k = h.rd k

theorem offSched_triggerKeys {d p : Nat} (hd : d < 4) (hp : p < 8) {k : Key} (hk : k ∈ triggerKeys d p) : OffSched k := by
  simp only [triggerKeys, List.mem_cons, List.not_mem_nil, or_false] at hk
  rcases hk with rfl | rfl | rfl | rfl | rfl | rfl | rfl <;>
    simp [OffSched, K.RST_DIE_INRESET, K.PWR_STAT_STATE, K.STRATA_CTL_DEPTH, K.STRATA_KEEP_KEEP, K.STRATA_STAT_NEXT,
      K.STRATA_PROF_NETS, K.CLK_GRIDTIME_TIME]
  all_goals omega

namespace SameFor
variable {d p : Nat} {h t u : Hw}

theorem refl (h : Hw) : SameFor d p h h := ⟨rfl, rfl, rfl, fun _ _ => rfl⟩

theorem trans (a : SameFor d p h t) (b : SameFor d p t u) : SameFor d p h u :=
  ⟨b.die.trans a.die, b.pwr.trans a.pwr, b.ldr.trans a.ldr, fun k hk => (b.rd k hk).trans (a.rd k hk)⟩

theorem of_designRan (hd : d < 4) (hp : p < 8) (a : DesignRan h t) : SameFor d p h t :=
  ⟨a.die d, a.pwr, a.ldr, fun k hk => a.rd k (offSched_triggerKeys hd hp hk)⟩

/-- A register of another die's strata block, or one that no check reads, is written. -/
theorem wr {j : Key} (hj : ∀ k ∈ triggerKeys d p, k.id ≠ j.id) (h : Hw) (v : Nat) : SameFor d p h (h.wr j v) :=
  ⟨rfl, rfl, rfl, fun _ hk => Hw.rd_wr_ne h (hj _ hk) v⟩

theorem strata (a : SameFor d p h t) : (t.die d).strata = (h.die d).strata := by
  have := congrArg DieSt.strata a.die
  exact this

theorem now (a : SameFor d p h t) : t.now = h.now := a.rd _ (by simp [triggerKeys])

theorem nets (a : SameFor d p h t) : t.rd (K.STRATA_PROF_NETS d p) = h.rd (K.STRATA_PROF_NETS d p) := a.rd _ (by simp [triggerKeys])

theorem nextSlot (a : SameFor d p h t) : nextSlot t d = nextSlot h d := by
  simp only [Machine.nextSlot, ringDepth, a.rd _ (show K.STRATA_CTL_DEPTH d ∈ triggerKeys d p by simp [triggerKeys]),
    a.rd _ (show K.STRATA_KEEP_KEEP d ∈ triggerKeys d p by simp [triggerKeys]),
    a.rd _ (show K.STRATA_STAT_NEXT d ∈ triggerKeys d p by simp [triggerKeys])]

theorem triggerRefusal (a : SameFor d p h t) : triggerRefusal t d = triggerRefusal h d := by
  have last : (t.die d).lastTtime = (h.die d).lastTtime := by
    have := congrArg DieSt.lastTtime a.die
    exact this
  simp only [Machine.triggerRefusal, Hw.bit, inA3, strataBusy, strataDeferred, ringDepth, a.nextSlot, a.strata, last, a.pwr, a.ldr, a.now,
    a.rd _ (show K.STRATA_CTL_DEPTH d ∈ triggerKeys d p by simp [triggerKeys]),
    a.rd _ (show K.RST_DIE_INRESET d ∈ triggerKeys d p by simp [triggerKeys]),
    a.rd _ (show K.PWR_STAT_STATE ∈ triggerKeys d p by simp [triggerKeys])]
  rfl

end SameFor

/-- The registers that a trigger at die n writes. -/
def strataKeys (n : Nat) : List Key :=
  [K.STRATA_STAT_NEXT n, K.STRATA_STAT_LASTSLOT n, K.STRATA_STAT_LASTCAPID n, K.STRATA_STAT_OP n, K.STRATA_STAT_BUSY n,
    K.STRATA_STAT_LAST n, K.STRATA_MISSED_COUNT n]

theorem triggerKeys_ne {d p n : Nat} (hd : d < 4) (hn : n < 4) (hp : p < 8) (hne : d ≠ n) {k j : Key} (hk : k ∈ triggerKeys d p)
    (hj : j ∈ strataKeys n) : k.id ≠ j.id := by
  have hlo : j.lo < 64 ∧ 0x2A00000 + n * 0x1000000 ≤ j.addr ∧ j.addr < 0x2A00100 + n * 0x1000000 := by
    simp only [strataKeys, List.mem_cons, List.not_mem_nil, or_false] at hj
    rcases hj with rfl | rfl | rfl | rfl | rfl | rfl | rfl <;>
      simp [K.STRATA_STAT_NEXT, K.STRATA_STAT_LASTSLOT, K.STRATA_STAT_LASTCAPID, K.STRATA_STAT_OP, K.STRATA_STAT_BUSY,
        K.STRATA_STAT_LAST, K.STRATA_MISSED_COUNT]
  
  obtain ⟨hlo, h1, h2⟩ := hlo
  have hk : k.lo < 64 ∧ (k.addr < 0x2000000 ∨ (0x2A00000 + d * 0x1000000 ≤ k.addr ∧ k.addr < 0x2A00200 + d * 0x1000000)) := by
    simp only [triggerKeys, List.mem_cons, List.not_mem_nil, or_false] at hk
    rcases hk with rfl | rfl | rfl | rfl | rfl | rfl | rfl <;>
      simp [K.RST_DIE_INRESET, K.PWR_STAT_STATE, K.STRATA_CTL_DEPTH, K.STRATA_KEEP_KEEP, K.STRATA_STAT_NEXT,
        K.STRATA_PROF_NETS, K.CLK_GRIDTIME_TIME] <;> omega
  unfold Key.id
  omega

/-! ### A trigger at one die -/

/-- A capture that has just begun at a die: its slot, and the trigger's profile and moment. -/
def BeganCapture (h : Hw) (d slot profile ttime : Nat) : Prop :=
  ∃ x, (h.die d).strata = .capture x ∧ x.slot = slot ∧ x.profile = profile ∧ x.ttime = ttime

theorem recordNets_frame (f : Nat → Nat) (l : List Nat) (c : Capture) :
    (l.foldl (fun c m => recordNet c m (f m) 0) c).slot = c.slot ∧ (l.foldl (fun c m => recordNet c m (f m) 0) c).profile = c.profile ∧
    (l.foldl (fun c m => recordNet c m (f m) 0) c).ttime = c.ttime := by
  induction l generalizing c with
  | nil => exact ⟨rfl, rfl, rfl⟩
  | cons m l ih => exact ih _

/-- The registers and counters of die n after a slot is taken. -/
def slotTaken (u : Hw) (n next slot capid ttime : Nat) : Hw :=
  let h := ((u.wr (K.STRATA_STAT_NEXT n) next).wr (K.STRATA_STAT_LASTSLOT n) slot).wr (K.STRATA_STAT_LASTCAPID n) capid
  let h := h.onDie n fun x => { x with lastTtime := some ttime }
  { h with strata := { h.strata with pulses := SMap.upd h.strata.pulses n 0 (· + 1) } }

section
variable (h : Hw) (n : Nat) (t : Trigger)

/-- A trigger a die accepts lets the design run, takes the slot and begins the capture. -/
theorem acceptTrigger_eq (slot capid : Nat) : ∃ (u : Hw) (c : Capture) (next : Nat), DesignRan h u ∧ c.slot = slot ∧
    c.profile = t.profile ∧ c.ttime = t.ttime ∧ acceptTrigger h n slot t capid =
      setStrataOp (writeHeader (slotTaken u n next slot capid t.ttime) n c kindPartial 0) n (.capture c) := by
  have ran : DesignRan h ((runDesign h).onDie n fun x => { x with captured := [] }) :=
    (designRan_runDesign h).trans (.onDie _ _ fun _ => rfl)
  unfold acceptTrigger
  extract_lets u nets halted c0 c v w x y z
  have hc : c.slot = slot ∧ c.profile = t.profile ∧ c.ttime = t.ttime :=
    recordNets_frame (fun m => (u.net n m).stake) (bitList 64 halted) c0
  have hv : DesignRan h v := ran.trans (.foldl (fun t m => designRan_captureFlops t n m none) _ _)
  clear_value c v
  obtain ⟨hslot, hprofile, httime⟩ := hc
  exact ⟨v, c, _, hv, hslot, hprofile, httime, rfl⟩

theorem die_setStrataOp (op : StrataOp) : ((setStrataOp h n op).die n).strata = op := by
  unfold setStrataOp
  simp only
  show ((h.onDie n fun x => { x with strata := op }).die n).strata = op
  rw [Hw.die_onDie_self]

theorem accept_begins (slot capid : Nat) : BeganCapture (acceptTrigger h n slot t capid) n slot t.profile t.ttime ∧
    (acceptTrigger h n slot t capid).strata.nextCapid = h.strata.nextCapid := by
  obtain ⟨u, c, next, ran, hslot, hprofile, httime, eq⟩ := acceptTrigger_eq h n t slot capid
  rw [eq]
  refine ⟨⟨c, ?_, hslot, hprofile, httime⟩, ?_⟩
  · rw [die_setStrataOp]
  · show u.strata.nextCapid = _
    rw [ran.strata]

theorem sameFor_onDie {d p : Nat} (hne : d ≠ n) (f : DieSt → DieSt) : SameFor d p h (h.onDie n f) :=
  ⟨by rw [Hw.die_onDie_ne _ hne], rfl, rfl, fun _ _ => rfl⟩

theorem sameFor_mem {d p : Nat} (h : Hw) (m : Mem) : SameFor d p h { h with mem := m } := ⟨rfl, rfl, rfl, fun _ _ => rfl⟩

theorem sameFor_writeHeader {d p : Nat} (h : Hw) (n : Nat) (c : Capture) (kind drainEnd : Nat) :
    SameFor d p h (writeHeader h n c kind drainEnd) := by
  unfold writeHeader
  exact sameFor_mem h _

section
variable {h n t} {d p : Nat} (hd : d < 4) (hn : n < 4) (hp : p < 8) (hne : d ≠ n)
include hd hn hp hne

theorem sameFor_wr {j : Key} (hj : j ∈ strataKeys n) (h : Hw) (v : Nat) : SameFor d p h (h.wr j v) :=
  .wr (fun _ hk => triggerKeys_ne hd hn hp hne hk hj) h v

theorem sameFor_setStrataOp (h : Hw) (op : StrataOp) : SameFor d p h (setStrataOp h n op) :=
  (sameFor_onDie h n hne _).trans ((sameFor_wr hd hn hp hne (by simp [strataKeys]) _ _).trans
    (sameFor_wr hd hn hp hne (by simp [strataKeys]) _ _))

theorem sameFor_accept (slot capid : Nat) : SameFor d p h (acceptTrigger h n slot t capid) := by
  obtain ⟨u, c, next, ran, -, -, -, eq⟩ := acceptTrigger_eq h n t slot capid
  have wr {j : Key} (hj : j ∈ strataKeys n) (g : Hw) (v : Nat) : SameFor d p g (g.wr j v) := sameFor_wr hd hn hp hne hj g v
  have next1 := wr (j := K.STRATA_STAT_NEXT n) (by simp [strataKeys]) u next
  have next2 := wr (j := K.STRATA_STAT_LASTSLOT n) (by simp [strataKeys]) (u.wr (K.STRATA_STAT_NEXT n) next) slot
  have next3 := wr (j := K.STRATA_STAT_LASTCAPID n) (by simp [strataKeys])
    ((u.wr (K.STRATA_STAT_NEXT n) next).wr (K.STRATA_STAT_LASTSLOT n) slot) capid
  have next4 := sameFor_onDie (p := p) (((u.wr (K.STRATA_STAT_NEXT n) next).wr (K.STRATA_STAT_LASTSLOT n) slot).wr
    (K.STRATA_STAT_LASTCAPID n) capid) n hne fun x => { x with lastTtime := some t.ttime }
  have taken : SameFor d p u (slotTaken u n next slot capid t.ttime) :=
    ((next1.trans (next2.trans next3)).trans next4).trans ⟨rfl, rfl, rfl, fun _ _ => rfl⟩
  rw [eq]
  exact (SameFor.of_designRan hd hp ran).trans (taken.trans
    ((sameFor_writeHeader ..).trans (sameFor_setStrataOp hd hn hp hne _ _)))

theorem sameFor_refuse (st : Nat) : SameFor d p h (refuseTrigger h n t st) := by
  unfold refuseTrigger
  refine SameFor.trans ?_ (.of_designRan hd hp (.of_kept (kept_logEntry ..)))
  split
  · exact .refl h
  · exact (sameFor_wr hd hn hp hne (j := K.STRATA_MISSED_COUNT n) (by simp [strataKeys]) _ _).trans
      (sameFor_wr hd hn hp hne (by simp [strataKeys]) _ _)

end

theorem strata_refuse (st m : Nat) : ((refuseTrigger h n t st).die m).strata = (h.die m).strata := by
  unfold refuseTrigger
  rw [die_congr (kept_logEntry ..).dies]
  split <;> rfl

end

/-! ### CAP -/

/-- Every status of R152 is a small code. -/
theorem triggerRefusal_lt {h : Hw} {n st : Nat} (e : triggerRefusal h n = some st) : st < 16 := by
  unfold triggerRefusal at e
  have code : st = stOffline ∨ st = stPower ∨ st = stNodepth ∨ st = stBusy ∨ st = stFull := by
    repeat' split at e
    all_goals simp_all
  rcases code with rfl | rfl | rfl | rfl | rfl <;> decide

/-- What a trigger does at a die: nothing where its profile has no network; else it is refused, which begins nothing, or it begins
a capture in the next slot. -/
theorem arrive_cases (h : Hw) (n : Nat) (t : Trigger) :
    (h.rd (K.STRATA_PROF_NETS n t.profile) = 0 ∧ arriveTrigger h n t = (h, t, none, none)) ∨
    (∃ st, st < 16 ∧ (triggerRefusal h n ≠ none ∨ nextSlot h n = none) ∧
      arriveTrigger h n t = (refuseTrigger h n t st, t, some st, none)) ∨
    (∃ slot u, triggerRefusal h n = none ∧ nextSlot h n = some slot ∧ (∀ d p, SameFor d p h u) ∧
      u.strata.nextCapid = (if t.capid.isNone then (h.strata.nextCapid + 1) % 2 ^ 32 else h.strata.nextCapid) ∧
      arriveTrigger h n t = (acceptTrigger u n slot t (t.capid.getD h.strata.nextCapid),
        { t with capid := some (t.capid.getD h.strata.nextCapid) }, some stOk, some slot)) := by
  unfold arriveTrigger
  split
  case isTrue hn => exact .inl ⟨hn.1, rfl⟩
  case isFalse =>
    refine .inr ?_
    cases hr : triggerRefusal h n with
    | some st => exact .inl ⟨st, triggerRefusal_lt hr, .inl (by simp), rfl⟩
    | none =>
      cases hs : nextSlot h n with
      | none => exact .inl ⟨stFull, by decide, .inr rfl, rfl⟩
      | some slot =>
        refine .inr ⟨slot, if t.capid.isNone then
          { h with strata := { h.strata with nextCapid := (h.strata.nextCapid + 1) % 2 ^ 32 } } else h, rfl, rfl, fun d p => ?_, ?_, rfl⟩
        · split
          · exact ⟨rfl, rfl, rfl, fun _ _ => rfl⟩
          · exact .refl h
        · split <;> rfl

/-- The state of a CAP on its way through the dies of its mask. -/
abbrev CapAcc := Hw × Trigger × Nat × Nat × Nat

/-- The trigger of a CAP at one die. -/
def capStep (acc : CapAcc) (n : Nat) : CapAcc :=
  let (h, t, slots, took, st) := acc
  match arriveTrigger h n t with
  | (h, t, some x, slot) =>
    (h, t, slots + slot.getD 0 * 2 ^ (5 * n), took + (if slot.isSome then 2 ^ n else 0), if st = 0 then x else st)
  | (h, t, none, _) => (h, t, slots, took, st)

theorem capDies_eq (h : Hw) (t : Trigger) : capDies h t =
    (List.range 4).foldl (fun acc n => if t.dies.testBit n then capStep acc n else acc) (h, t, 0, 0, 0) := by
  unfold capDies
  rw [List.foldl_filter]
  rfl

/-- CAP where it may issue. -/
def capAct (c : Core) (rd rs1 rs2 : Reg) (h : Hw) : Option Hw :=
  let t : Trigger := ⟨h.now, tsCrew, c.val, gv h c rs1 % 8, gv h c rs2 % 16, none, coreCode c⟩
  let (h, t, slots, took, st) := capDies h t
  some (status h c rd (t.capid.getD 0 * 2 ^ 32 + slots * 2 ^ 12 + took * 2 ^ 8 + st))

theorem exec_cap (s : State) (c : Core) (rd rs1 rs2 : Reg) : exec (.cap c rd rs1 rs2) s =
    doHw s fun h => devOp h c (wordA 0x16 1 rd rs1 rs2) [rd, rs1, rs2] false (capAct c rd rs1 rs2) := rfl

/-- What the trigger of profile p has done at die d, from the state h: nothing where the mask leaves the die out, nothing where the
die refuses, and a capture where it accepts; `took` says which. -/
def Judged (h u : Hw) (mask p took d : Nat) : Prop :=
  (mask.testBit d = false → (u.die d).strata = (h.die d).strata) ∧
  (mask.testBit d = true → h.rd (K.STRATA_PROF_NETS d p) ≠ 0 →
    (triggerRefusal h d ≠ none → (u.die d).strata = (h.die d).strata ∧ took.testBit d = false) ∧
    (∀ slot, triggerRefusal h d = none → nextSlot h d = some slot → BeganCapture u d slot p h.now ∧ took.testBit d = true))

/-- The trigger of a CAP has passed the dies below k. -/
structure CapPassed (h : Hw) (mask p k : Nat) (acc : CapAcc) : Prop where
  profile : acc.2.1.profile = p
  ttime : acc.2.1.ttime = h.now
  took : acc.2.2.2.1 < 2 ^ k
  status : acc.2.2.2.2 < 16
  ahead : ∀ d, k ≤ d → d < 4 → SameFor d p h acc.1
  judged : ∀ d, d < k → Judged h acc.1 mask p acc.2.2.2.1 d

theorem testBit_add_pow {x k d : Nat} (hd : d < k) : (x + 2 ^ k).testBit d = x.testBit d := by
  rw [Nat.add_comm, Nat.testBit_two_pow_add_gt hd]

theorem testBit_add_pow_self {x k : Nat} (hx : x < 2 ^ k) : (x + 2 ^ k).testBit k = true := by
  rw [Nat.add_comm, Nat.testBit_two_pow_add_eq, Nat.testBit_lt_two_pow hx]
  rfl

section
variable {h u v : Hw} {mask p k : Nat}

/-- What was judged at a die stays, where nothing of that die changes and its bit of `took` stays. -/
theorem Judged.mono {took took' d : Nat} (j : Judged h u mask p took d) (hs : (v.die d).strata = (u.die d).strata)
    (ht : took'.testBit d = took.testBit d) : Judged h v mask p took' d := by
  unfold Judged BeganCapture at *
  rw [hs, ht]
  exact j

/-- The trigger of a CAP passes one die more. -/
theorem CapPassed.step {acc : CapAcc} (a : CapPassed h mask p k acc) (hk : k < 4) (hp : p < 8) :
    CapPassed h mask p (k + 1) (if mask.testBit k then capStep acc k else acc) := by
  obtain ⟨u, t, slots, took, st⟩ := acc
  obtain ⟨hprofile, httime, htook, hst, hahead, hjudged⟩ := a
  simp only at hprofile httime htook hst hahead hjudged
  have here := hahead k (Nat.le_refl k) hk
  have wider : took < 2 ^ (k + 1) := by rw [pow_succ]; omega
  -- a die without effect, or one that refuses, keeps what stands in each die's strata engine
  have quiet {w : Hw} {st' : Nat} (hst' : st' < 16) (ha : ∀ d, k + 1 ≤ d → d < 4 → SameFor d p u w)
      (hs : ∀ d, (w.die d).strata = (u.die d).strata)
      (hj : mask.testBit k = true → h.rd (K.STRATA_PROF_NETS k p) ≠ 0 → triggerRefusal h k ≠ none ∨ nextSlot h k = none) :
      CapPassed h mask p (k + 1) (w, t, slots, took, st') := by
    refine ⟨hprofile, httime, wider, hst', fun d h1 h4 => (hahead d (by omega) h4).trans (ha d h1 h4), fun d hd => ?_⟩
    rcases Nat.lt_succ_iff_lt_or_eq.1 hd with hd | rfl
    · exact (hjudged d hd).mono (hs d) rfl
    · have same : (w.die d).strata = (h.die d).strata := (hs d).trans here.strata
      refine ⟨fun _ => same, fun hm hn => ⟨fun _ => ⟨same, Nat.testBit_lt_two_pow htook⟩, fun slot hr hsl => ?_⟩⟩
      rcases hj hm hn with e | e
      · exact absurd hr e
      · exact absurd (e.symm.trans hsl) (by simp)
  by_cases hm : mask.testBit k = true
  case neg =>
    rw [if_neg hm]
    exact quiet hst (fun d _ _ => .refl u) (fun _ => rfl) fun hm' => absurd hm' hm
  rw [if_pos hm]
  unfold capStep
  rcases arrive_cases u k t with ⟨hn, e⟩ | ⟨x, _, hr, e⟩ | ⟨slot, w, hr, hs, hsame, -, e⟩ <;> simp only [e]
  · refine quiet hst (fun d _ _ => .refl u) (fun _ => rfl) fun _ hn' => ?_
    rw [hprofile, here.nets] at hn
    exact absurd hn hn'
  · simp only [Option.isSome_none, Bool.false_eq_true, if_false, Option.getD_none, Nat.zero_mul, Nat.add_zero]
    refine quiet (by split <;> assumption) (fun d h1 h4 => sameFor_refuse (t := t) h4 hk hp (by omega) x) (fun d => strata_refuse ..) fun _ _ => ?_
    rwa [here.triggerRefusal, here.nextSlot] at hr
  · simp only [Option.isSome_some, if_true, Option.getD_some]
    have other (d : Nat) (hd : d < 4) (hne : d ≠ k) (capid : Nat) : SameFor d p u (acceptTrigger w k slot t capid) :=
      (hsame d p).trans (sameFor_accept (t := t) hd hk hp hne slot capid)
    have grown : took + 2 ^ k < 2 ^ (k + 1) := by rw [pow_succ]; omega
    have first : (if st = 0 then stOk else st) < 16 := by
      split
      · decide
      · exact hst
    refine ⟨hprofile, httime, grown, first, fun d h1 h4 => (hahead d (by omega) h4).trans (other d h4 (by omega) _), fun d hd => ?_⟩
    rcases Nat.lt_succ_iff_lt_or_eq.1 hd with hd | rfl
    · exact (hjudged d hd).mono (other d (by omega) (by omega) _).strata (testBit_add_pow hd)
    · refine ⟨fun e => absurd (hm.symm.trans e) (by simp), fun _ _ => ⟨fun e => ?_, fun slot' hr' hs' => ?_⟩⟩
      · exact absurd (here.triggerRefusal.symm.trans hr) e
      · have : slot' = slot := by
          rw [here.nextSlot] at hs
          exact Option.some.inj (hs'.symm.trans hs)
        subst this
        refine ⟨?_, testBit_add_pow_self htook⟩
        have := (accept_begins w d t slot' (t.capid.getD u.strata.nextCapid)).1
        rwa [hprofile, httime] at this

/-- The trigger of a CAP has passed every die. -/
theorem capDies_passed {t : Trigger} (ht : t.ttime = h.now) (hp : t.profile < 8) :
    CapPassed h t.dies t.profile 4 (capDies h t) := by
  rw [capDies_eq]
  have key : ∀ k, k ≤ 4 → CapPassed h t.dies t.profile k
      ((List.range k).foldl (fun acc n => if t.dies.testBit n then capStep acc n else acc) (h, t, 0, 0, 0)) := by
    intro k
    induction k with
    | zero => exact fun _ => ⟨rfl, ht, Nat.one_pos, Nat.succ_pos 15, fun _ _ _ => .refl h, fun d hd => absurd hd (Nat.not_lt_zero d)⟩
    | succ k ih =>
      intro hk
      rw [List.range_succ, List.foldl_append]
      exact (ih (by omega)).step (by omega) hp
  exact key 4 (by decide)

end

/-- The bits of CAP's result that name the dies which accepted. -/
theorem testBit_capWord {capid slots took st d : Nat} (hs : st < 16) (hd : d < 4) :
    (BitVec.ofNat 64 (capid * 2 ^ 32 + slots * 2 ^ 12 + took * 2 ^ 8 + st)).toNat.testBit (8 + d) = took.testBit d := by
  rw [BitVec.toNat_ofNat, Nat.testBit_mod_two_pow]
  have h64 : 8 + d < 64 := by omega
  simp only [h64, decide_true, Bool.true_and]
  rw [Nat.testBit_eq_decide_div_mod_eq, Nat.testBit_eq_decide_div_mod_eq]
  have : d = 0 ∨ d = 1 ∨ d = 2 ∨ d = 3 := by omega
  rcases this with rfl | rfl | rfl | rfl <;> (congr 1; simp; omega)

section
variable {s : State} {c : Core} {rd rs1 rs2 : Reg}

/-- The trigger of a CAP instruction. -/
def capTrigger (h : Hw) (c : Core) (rs1 rs2 : Reg) : Trigger :=
  ⟨h.now, tsCrew, c.val, (h.g c rs1).toNat % 8, (h.g c rs2).toNat % 16, none, coreCode c⟩

/-- CAP answers its word and leaves what its trigger did. -/
theorem cap_ends (r : DevReady s.hw c (wordA 0x16 1 rd rs1 rs2) [rd, rs1, rs2] false) :
    ∃ acc : CapAcc, acc = capDies (begun s.hw c) (capTrigger s.hw c rs1 rs2) ∧ Ends (exec (.cap c rd rs1 rs2) s) fun t =>
      t.hw.g c rd = (if rd = 0 then 0 else BitVec.ofNat 64 (acc.2.1.capid.getD 0 * 2 ^ 32 + acc.2.2.1 * 2 ^ 12 + acc.2.2.2.1 * 2 ^ 8 +
        acc.2.2.2.2)) ∧ StaysIn acc.1 t.hw c := by
  refine ⟨_, rfl, ?_⟩
  have act : capAct c rd rs1 rs2 (begun s.hw c) =
      (let acc := capDies (begun s.hw c) (capTrigger s.hw c rs1 rs2)
       some (status acc.1 c rd (acc.2.1.capid.getD 0 * 2 ^ 32 + acc.2.2.1 * 2 ^ 12 + acc.2.2.2.1 * 2 ^ 8 + acc.2.2.2.2))) := by
    simp only [capAct, gv_begun, capTrigger]
    rfl
  rw [exec_cap]
  exact Ends.imp (devOp_status r act) fun t ⟨hg, _, st⟩ => ⟨hg, st⟩

theorem begun_same (h : Hw) (c : Core) (d p : Nat) : SameFor d p (begun h c) h := ⟨rfl, rfl, rfl, fun _ _ => rfl⟩

/-- CAP of any dies: each of the mask accepts or refuses by itself, and the result's mask names those that accepted. -/
theorem cap_judges (r : DevReady s.hw c (wordA 0x16 1 rd rs1 rs2) [rd, rs1, rs2] false) :
    Ends (exec (.cap c rd rs1 rs2) s) fun t => ∀ d : Die,
      ((s.hw.g c rs2).toNat.testBit d.val = false → (t.hw.die d.val).strata = (s.hw.die d.val).strata) ∧
      ((s.hw.g c rs2).toNat.testBit d.val = true → s.hw.rd (K.STRATA_PROF_NETS d.val ((s.hw.g c rs1).toNat % 8)) ≠ 0 →
        (triggerRefusal s.hw d.val ≠ none → (t.hw.die d.val).strata = (s.hw.die d.val).strata ∧
          (rd ≠ 0 → (t.hw.g c rd).toNat.testBit (8 + d.val) = false)) ∧
        (∀ slot, triggerRefusal s.hw d.val = none → nextSlot s.hw d.val = some slot →
          (∃ x, (t.hw.die d.val).strata = .capture x ∧ x.slot = slot ∧ x.profile = (s.hw.g c rs1).toNat % 8 ∧ x.ttime = s.hw.now) ∧
          (rd ≠ 0 → (t.hw.g c rd).toNat.testBit (8 + d.val) = true))) := by
  obtain ⟨acc, hacc, ends⟩ := cap_ends (rd := rd) r
  have passed : CapPassed (begun s.hw c) _ _ 4 acc := hacc ▸ capDies_passed (h := begun s.hw c) (t := capTrigger s.hw c rs1 rs2) rfl
    (Nat.mod_lt _ (by decide))
  refine Ends.imp ends fun t ⟨hg, st⟩ d => ?_
  obtain ⟨hout, hin⟩ := passed.judged d.val d.isLt
  have mask : (capTrigger s.hw c rs1 rs2).dies.testBit d.val = (s.hw.g c rs2).toNat.testBit d.val := by
    have : d.val < 4 := d.isLt
    show ((s.hw.g c rs2).toNat % 2 ^ 4).testBit d.val = _
    rw [Nat.testBit_mod_two_pow]
    simp [this]
  have bit (h0 : rd ≠ 0) : (t.hw.g c rd).toNat.testBit (8 + d.val) = acc.2.2.2.1.testBit d.val := by
    rw [hg, if_neg h0]
    exact testBit_capWord passed.status d.isLt
  rw [mask] at hout hin
  refine ⟨fun hm => by rw [st.die]; exact hout hm, fun hm hn => ?_⟩
  obtain ⟨hrefused, haccepted⟩ := hin hm hn
  refine ⟨fun hr => ?_, fun slot hr hs => ?_⟩
  · obtain ⟨hs, ht⟩ := hrefused hr
    exact ⟨by rw [st.die]; exact hs, fun h0 => (bit h0).trans ht⟩
  · obtain ⟨hc, ht⟩ := haccepted slot hr hs
    refine ⟨?_, fun h0 => (bit h0).trans ht⟩
    rw [st.die]
    exact hc

/-- CAP of one die that accepts. -/
theorem cap_one {d : Die} {slot : Nat} (r : DevReady s.hw c (wordA 0x16 1 rd rs1 rs2) [rd, rs1, rs2] false)
    (hm : (s.hw.g c rs2).toNat % 16 = 2 ^ d.val) (hn : s.hw.rd (K.STRATA_PROF_NETS d.val ((s.hw.g c rs1).toNat % 8)) ≠ 0)
    (hr : triggerRefusal s.hw d.val = none) (hs : nextSlot s.hw d.val = some slot) :
    Ends (exec (.cap c rd rs1 rs2) s) fun t =>
      t.hw.g c rd = (if rd = 0 then 0
        else BitVec.ofNat 64 (s.hw.strata.nextCapid * 2 ^ 32 + slot * 2 ^ (5 * d.val) * 2 ^ 12 + 2 ^ d.val * 2 ^ 8)) ∧
      (∃ x, (t.hw.die d.val).strata = .capture x ∧ x.slot = slot ∧ x.profile = (s.hw.g c rs1).toNat % 8 ∧ x.ttime = s.hw.now) ∧
      t.hw.strata.nextCapid = (s.hw.strata.nextCapid + 1) % 2 ^ 32 := by
  have only : (List.range 4).filter (fun n => (2 ^ d.val).testBit n) = [d.val] := by
    fin_cases d <;> decide
  obtain ⟨acc, hacc, ends⟩ := cap_ends (rd := rd) r
  have one : acc = capStep (begun s.hw c, capTrigger s.hw c rs1 rs2, 0, 0, 0) d.val := by
    rw [hacc, capDies, show (capTrigger s.hw c rs1 rs2).dies = 2 ^ d.val from hm, only]
    rfl
  rcases arrive_cases (begun s.hw c) d.val (capTrigger s.hw c rs1 rs2) with ⟨h0, -⟩ | ⟨x, -, e | e, -⟩ | ⟨slot', u, -, hs', -, hid, e⟩
  · exact absurd h0 hn
  · exact absurd hr e
  · exact absurd (hs.symm.trans e) (by simp)
  · have : slot' = slot := Option.some.inj (hs'.symm.trans hs)
    subst this
    obtain ⟨began, capid⟩ := accept_begins u d.val (capTrigger s.hw c rs1 rs2) slot'
      ((capTrigger s.hw c rs1 rs2).capid.getD (begun s.hw c).strata.nextCapid)
    simp only [capStep, e] at one
    refine Ends.imp ends fun t ⟨hg, st⟩ => ?_
    subst one
    refine ⟨?_, ?_, ?_⟩
    · rw [hg]
      simp only [Option.getD_some, Option.isSome_some, if_true, Nat.zero_add, stOk, Nat.add_zero]
      rfl
    · rw [st.die]
      exact began
    · obtain ⟨-, -, -, -, -, hstrata, -⟩ := st.rest
      rw [hstrata]
      exact capid.trans hid

/-! ### DRAIN and RESTORE -/

/-- A device operation that starts something its core waits for. -/
theorem devOp_waits {w : Nat} {uses : List Reg} {priv : Bool} {act : Hw → Option Hw} {u : Hw} {dev : DevOp}
    (r : DevReady s.hw c w uses priv) (ha : act (begun s.hw c) = some (waitFor u c dev rd)) (hc : u.core c.val = (begun s.hw c).core c.val) :
    Ends (doHw s fun h => devOp h c w uses priv act) fun t => Waits s t c rd dev ∧ StaysIn u t.hw c := by
  refine ⟨_, rfl, ?_⟩
  simp only [State.onHw, devOp_ready r ha]
  have core : (u.onCore c.val fun x => { x with dev := some ⟨dev, rd, none⟩ }).core c.val =
      { (begun s.hw c).core c.val with dev := some ⟨dev, rd, none⟩ } := by rw [Hw.core_onCore_self, hc]
  refine ⟨⟨?_, ?_, fun q => ?_⟩, ?_⟩
  · rw [dev_retire, dev_waitFor]
  · rw [Hw.pc_retire, waitFor, Hw.pc_advance, Hw.pc, core, ← Hw.pc_begun s.hw c, Hw.pc]
  · rw [Hw.g_retire, waitFor, Hw.g_advance, Hw.g, core, ← Hw.g_begun, Hw.g]
  · have dev : StaysIn u (u.onCore c.val fun x => { x with dev := some ⟨dev, rd, none⟩ }) c :=
      .onCore (fun _ => rfl) (fun _ => rfl) (fun _ => rfl)
    exact (dev.trans .advance).trans .retire

theorem busy_setStrataOp (h : Hw) (n : Nat) {op : StrataOp} (hop : op ≠ .none) :
    (setStrataOp h n op).rd (K.STRATA_STAT_BUSY n) = 1 ∧ (setStrataOp h n op).mem = h.mem := by
  unfold setStrataOp
  refine ⟨?_, rfl⟩
  rw [Hw.wrB, Hw.rd_wr_self]
  cases op
  case none => exact absurd rfl hop
  all_goals rfl

theorem strataBusy_ne_halted (n : Nat) : (K.STRATA_STAT_BUSY n).id ≠ K.ADIT_HALTED_CORES.id := by
  simp only [Key.id, K.STRATA_STAT_BUSY, K.ADIT_HALTED_CORES]
  omega

/-- An operation that begins in the strata engine of a die, and whose core waits. -/
theorem strata_waits {w : Nat} {uses : List Reg} {act : Hw → Option Hw} {n : Nat} {op : StrataOp} {dev : DevOp}
    (r : DevReady s.hw c w uses false) (hop : op ≠ .none)
    (ha : act (begun s.hw c) = some (waitFor (setStrataOp (begun s.hw c) n op) c dev rd)) :
    Ends (doHw s fun h => devOp h c w uses false act) fun t => Waits s t c rd dev ∧ (t.hw.die n).strata = op ∧
      t.hw.rd (K.STRATA_STAT_BUSY n) = 1 ∧ t.hw.mem = s.hw.mem := by
  obtain ⟨hbusy, hmem⟩ := busy_setStrataOp (begun s.hw c) n hop
  refine Ends.imp (devOp_waits r ha (core_congr rfl _)) fun t ⟨hw, st⟩ => ⟨hw, ?_, ?_, ?_⟩
  · rw [st.die, die_setStrataOp]
  · rw [st.fields _ (strataBusy_ne_halted n), hbusy]
  · rw [st.mem, hmem]
    rfl

end

/-- DRAIN where it may issue. -/
def drainAct (c : Core) (rd rs1 rs2 : Reg) (h : Hw) : Option Hw :=
  let n := gv h c rs2 % 4
  let slot := bits (gv h c rs2) 12 8
  match deepRefusal h n slot (gv h c rs1) with
  | some st => some (status h c rd st)
  | none => some (waitFor (setStrataOp h n (.deep slot (gv h c rs1) 0)) c (.drain (Fin.ofNat 4 n)) rd)

/-- RESTORE where it may issue. -/
def restoreAct (c : Core) (rd rs1 rs2 : Reg) (h : Hw) : Option Hw :=
  let v := gv h c rs2
  let n := v % 4
  let slot := bits v 12 8
  let deep := v.testBit 16
  match restoreRefusal h n slot (gv h c rs1) deep (v.testBit 17 && isForeman c) with
  | some st => some (status h c rd st)
  | none => some (waitFor (setStrataOp h n (.restore slot (gv h c rs1) deep 0 false)) c (.restore (Fin.ofNat 4 n)) rd)

theorem exec_drain (s : State) (c : Core) (rd rs1 rs2 : Reg) : exec (.drain c rd rs1 rs2) s =
    doHw s fun h => devOp h c (wordA 0x16 2 rd rs1 rs2) [rd, rs1, rs2] false (drainAct c rd rs1 rs2) := rfl

theorem exec_restore (s : State) (c : Core) (rd rs1 rs2 : Reg) : exec (.restore c rd rs1 rs2) s =
    doHw s fun h => devOp h c (wordA 0x16 3 rd rs1 rs2) [rd, rs1, rs2] false (restoreAct c rd rs1 rs2) := rfl

/-- Settles O26: CAP is judged die by die, and DRAIN and RESTORE start or answer their refusal (R234, R235). -/
theorem strataOps : Obligations.StrataOps := by
  unfold Obligations.StrataOps
  refine ⟨fun s c rd rs1 rs2 d slot r hm hn hr hs => cap_one r hm hn hr hs, fun s c rd rs1 rs2 r => cap_judges r,
    fun s c rd rs1 rs2 n slot r hn hs => ?_, fun s c rd rs1 rs2 n slot r hn hs => ?_⟩
  · rw [exec_drain]
    have frame : deepRefusal (begun s.hw c) n slot (s.hw.g c rs1).toNat = deepRefusal s.hw n slot (s.hw.g c rs1).toNat := rfl
    cases e : deepRefusal s.hw n slot (s.hw.g c rs1).toNat with
    | some st =>
      have act : drainAct c rd rs1 rs2 (begun s.hw c) = some (status (begun s.hw c) c rd st) := by
        simp only [drainAct, gv_begun, ← hn, ← hs, frame, e]
      exact Ends.imp (devOp_only_answers r act) fun t ⟨ha, stay⟩ => ⟨ha, stay.dies⟩
    | none =>
      refine strata_waits r (by simp) ?_
      simp only [drainAct, gv_begun, ← hn, ← hs, frame, e]
  · rw [exec_restore]
    have frame (deep force : Bool) : restoreRefusal (begun s.hw c) n slot (s.hw.g c rs1).toNat deep force =
      restoreRefusal s.hw n slot (s.hw.g c rs1).toNat deep force := rfl
    cases e : restoreRefusal s.hw n slot (s.hw.g c rs1).toNat ((s.hw.g c rs2).toNat.testBit 16)
          ((s.hw.g c rs2).toNat.testBit 17 && isForeman c) with
    | some st =>
      have act : restoreAct c rd rs1 rs2 (begun s.hw c) = some (status (begun s.hw c) c rd st) := by
        simp only [restoreAct, gv_begun, ← hn, ← hs, frame, e]
      exact Ends.imp (devOp_only_answers r act) fun t ⟨ha, stay⟩ => ⟨ha, stay.dies⟩
    | none =>
      refine strata_waits r (by simp) ?_
      simp only [restoreAct, gv_begun, ← hn, ← hs, frame, e]

end Sys2Proof.Machine
end

section
/-!
PROOF. A core at work while others trap, end their items and are dispatched: what of it stays, and what those events leave alone.
-/
namespace Sys2Proof.Machine

/-! ### One core through the events of the others -/

/-- A fact about core c that no write of another master and no dispatch changes: the core runs an item, or a core just loaded
meets it. -/
structure Steady (p : CoreSt → Prop) (c : Nat) : Prop where
  touch : ∀ x a n, p x → p (x.touch a n)
  busy : c = 0 ∨ (∀ x, p x → x.item.isSome = true) ∨ ∀ x, x.stepping = false → p x

theorem idle_of_pickCore {h : Hw} {q c : Nat} (e : pickCore h q = some c) : coreIdle h c = true := by
  have key : ∀ (l : List Nat) (b : Option Nat), (∀ x ∈ l, coreIdle h x = true) → (∀ x, b = some x → coreIdle h x = true) →
      ∀ x, l.foldl (fun best c => match best with
        | none => some c
        | some b => if (h.core c).idleSince < (h.core b).idleSince then some c else some b) b = some x → coreIdle h x = true := by
    intro l
    induction l with
    | nil => intro b _ hb x hx; exact hb x hx
    | cons y l ih =>
      intro b hl hb x hx
      refine ih _ (fun z hz => hl z (List.mem_cons_of_mem _ hz)) ?_ x hx
      intro z hz
      have hy := hl y (List.mem_cons_self ..)
      beta_reduce at hz
      split at hz
      · exact Option.some.inj hz ▸ hy
      · split at hz
        · exact Option.some.inj hz ▸ hy
        · exact hb z (by simpa using hz)
  refine key _ none (fun x hx => ?_) (by simp) c e
  exact (List.mem_filter.1 (List.mem_filter.1 hx).1).2

theorem idle_of_pickEntry {h : Hw} {q c : Nat} {e : QEntry} (he : pickEntry h = some (q, e, c)) : coreIdle h c = true := by
  unfold pickEntry at he
  simp only [Option.bind_eq_some_iff, Option.map_eq_some_iff] at he
  obtain ⟨x, -, d, hd, hxd⟩ := he
  cases hxd
  exact idle_of_pickCore hd

namespace CoreIs
variable {p : CoreSt → Prop} {c : Nat} {h : Hw}

theorem wr (hi : CoreIs p c h) (k : Key) (v : Nat) : CoreIs p c (h.wr k v) := hi.congr (Hw.wr_cores h k v)
theorem cnt (hi : CoreIs p c h) (k : Key) : CoreIs p c (h.cnt k) := hi.congr (Hw.cnt_cores h k)
theorem addRes (hi : CoreIs p c h) (q : Nat) (up : Bool) : CoreIs p c (addRes h q up) := hi.congr rfl

/-- A core just loaded runs on: nothing steps it. -/
theorem loaded (hf : ∀ x, x.stepping = false → p x) (h : Hw) (q : Nat) (e : QEntry) : CoreIs p c (dispatchTo h q e c) := by
  have put (u : Hw) {x : CoreSt} (hx : x.stepping = false) {t : Hw} (ht : t.cores = (u.setCore c x).cores) : CoreIs p c t :=
    (CoreIs.set (hf x hx)).congr ht
  unfold dispatchTo
  dsimp only
  split
  · exact put _ rfl rfl
  · split
    · exact put _ rfl rfl
    · exact put _ rfl rfl

section
variable (hi : CoreIs p c h) (hp : Steady p c)
include hi hp

theorem dispatch : CoreIs p c (dispatch h) := by
  have key : ∀ n h, CoreIs p c h → CoreIs p c (dispatchN n h) := by
    intro n
    induction n with
    | zero => exact fun _ hi => hi
    | succ n ih =>
      intro h hi
      unfold dispatchN
      split
      · exact hi
      · rename_i q e d he
        refine ih _ ?_
        have idle := idle_of_pickEntry he
        simp only [coreIdle, Bool.and_eq_true, decide_eq_true_eq] at idle
        obtain ⟨⟨hd, hidle⟩, -⟩ := idle
        by_cases hne : c = d
        · subst hne
          rcases hp.busy with rfl | hb | hf
          · omega
          · have := hb _ hi.state
            cases hit : (h.core c).item <;> simp [hit] at this hidle
          · exact CoreIs.loaded hf h q e
        obtain ⟨u, x, vs, hu, -, heq⟩ := dispatchTo_eq h q e d
        rw [heq]
        refine CoreIs.congr (CoreIs.set_ne (hi.congr ?_) hne x) (cores_writeFields _ _)
        obtain rfl | ⟨r, rfl⟩ := hu <;> rfl
  exact key 63 h hi

theorem place (q level : Nat) (t : Option Nat) (d : Desc) : CoreIs p c (place h q level t d) :=
  CoreIs.congr (hi.tryWrite hp.touch _) rfl

theorem tryEnter (q : Nat) (s : Src) (d : Desc) : CoreIs p c (tryEnter h q s d).1 := by
  unfold Machine.tryEnter
  split
  · exact hi
  · split
    · exact hi
    · split
      · exact hi
      · split
        · exact hi
        · rename_i t u e
          refine CoreIs.place (CoreIs.congr hi ?_) hp ..
          unfold takeTicket at e
          simp only [Hw.draw] at e
          split at e
          · obtain ⟨-, rfl⟩ := Prod.mk.inj (Option.some.inj e)
            rfl
          · cases e

theorem postError (w a d t : Nat) : CoreIs p c (postError h w a d t) := by
  unfold Machine.postError
  have k := hi.tryEnter hp 4 (.event 4) (mkDesc 0 w a d t 0 0 0)
  generalize Machine.tryEnter h 4 (.event 4) (mkDesc 0 w a d t 0 0 0) = r at k
  obtain ⟨u, r⟩ := r
  cases r
  case ok t => exact k.dispatch hp
  case full => exact k.cnt _
  case noticket => exact k.cnt _
  all_goals exact k

theorem logEntry (s m e a d : Nat) : CoreIs p c (logEntry h s m e a d) := by
  unfold Machine.logEntry
  simp only
  have raw : CoreIs p c (logRaw h s m e a d) := hi.congr (cores_logRaw ..)
  split
  · exact raw.postError hp ..
  · exact raw

theorem sendFinal (d : Nat) (i : Item) (e : Ending) : CoreIs p c (sendFinal h d i e) := by
  unfold Machine.sendFinal
  split
  case h_1 => exact hi
  case h_2 => exact hi.cnt _
  case h_3 => exact hi.cnt _
  case h_4 => exact (hi.addRes _ _).place hp ..
  case h_5 =>
    split
    · exact hi
    · split
      · exact hi.cnt _
      · exact hi.place hp ..

end

section
variable (hi : CoreIs p c h) {d : Nat} (hd : c ≠ d)
include hi hd

theorem on_ne (f : CoreSt → CoreSt) : CoreIs p c (h.onCore d f) := hi.set_ne hd _

theorem releaseClaims : CoreIs p c (releaseClaims h d) := by
  unfold Machine.releaseClaims
  refine CoreIs.on_ne (hi.congr ?_) hd _
  exact foldl_keeps Hw.cores (fun t n _ => by split <;> rfl) h

theorem endStep : CoreIs p c (endStep h d) := by
  unfold Machine.endStep
  split
  · exact (hi.on_ne hd _).wr _ _
  · exact hi

theorem judgeDeadline : CoreIs p c (judgeDeadline h d) := by
  unfold Machine.judgeDeadline
  split
  · split
    · have late (b : Bool) (q : Nat) {u : Hw} (hu : CoreIs p c u) :
          CoreIs p c (if b then (u.cnt (K.SCHED_Q_STAT_MISS q)).cnt K.SCHED_MISS_MISS else u) := by
        cases b
        · exact hu
        · exact (hu.cnt _).cnt _
      exact late _ _ (hi.on_ne hd _)
    · exact hi
  · exact hi

variable (hp : Steady p c)
include hp

theorem endItem (e : Ending) : CoreIs p c (endItem h d e) := by
  unfold Machine.endItem
  have judged := hi.judgeDeadline hd
  generalize Machine.judgeDeadline h d = u at judged
  simp only
  split
  · exact judged
  · rename_i i _
    have sent : CoreIs p c (dropTicket (Machine.sendFinal u d i e) i.ticket) := by
      refine (judged.sendFinal hp d i e).congr ?_
      unfold dropTicket
      split <;> rfl
    exact ((sent.wr _ _).set_ne hd _).dispatch hp

end

theorem tryEnd (hi : CoreIs p c h) {d : Core} (hd : c ≠ d.val) (hp : Steady p c) : CoreIs p c (tryEnd h d) := by
  unfold Machine.tryEnd
  split
  · split
    · exact (((hi.endStep hd).releaseClaims hd).releasePrio hp.touch _).endItem hd hp _
    · exact hi
  · exact hi

theorem startEnd (hi : CoreIs p c h) {d : Core} (hd : c ≠ d.val) (hp : Steady p c) (e : Ending) : CoreIs p c (startEnd h d e) := by
  unfold Machine.startEnd
  exact ((((hi.releaseClaims hd).on_ne hd _).releasePrio hp.touch _).wr _ _).tryEnd hd hp

theorem logTrap (hi : CoreIs p c h) (hp : Steady p c) (d : Core) (cause : Nat) (tval epc : Word) :
    CoreIs p c (logTrap h d cause tval epc) := hi.logEntry hp ..

theorem recordTrap (hi : CoreIs p c h) (d : Core) (cause : Nat) (tval epc : Word) (im fe : Bool) :
    CoreIs p c (recordTrap h d cause tval epc im fe) := hi.congr (cores_recordTrap ..)

theorem trap (hi : CoreIs p c h) {d : Core} (hd : c ≠ d.val) (hp : Steady p c) (cause : Nat) (tval epc : Word) (im fe : Bool) :
    CoreIs p c (trap h d cause tval epc im fe) := by
  unfold Machine.trap
  have programmed : CoreIs p c (programTraps h d cause) := hi.congr (cores_programTraps ..)
  generalize programTraps h d cause = u at programmed
  simp only
  split
  · rename_i hf
    have h0 : c ≠ 0 := fun e => hd (e.trans (of_decide_eq_true hf).symm)
    split
    · exact ((programmed.wr _ _).logTrap hp ..).on_ne h0 _
    · exact ((programmed.recordTrap ..).wr _ _).on_ne h0 _
  · exact ((programmed.recordTrap ..).logTrap hp ..).startEnd hd hp _

theorem boundary (hi : CoreIs p c h) {d : Core} (hd : c ≠ d.val) (hp : Steady p c) : CoreIs p c (boundary h d) := by
  unfold Machine.boundary
  split
  · split
    · exact hi
    · exact hi.trap hd hp ..
  · exact hi

/-- The end of the operation another core waited for leaves this one alone. -/
theorem finishDev (hi : CoreIs p c h) {d : Core} (hd : c ≠ d.val) (hp : Steady p c) (v : Word) : CoreIs p c (finishDev h d v) := by
  unfold Machine.finishDev
  split
  · split
    · exact hi.on_ne hd _
    · refine CoreIs.boundary (CoreIs.endStep (CoreIs.on_ne ?_ hd _) hd) hd hp
      unfold Hw.setG
      split
      · exact hi
      · exact hi.on_ne hd _
  · exact hi

end CoreIs

/-! ### What the end of operations and items leaves alone -/

/-- A register field that a core's trap or the end of its work writes: of the cores' pages or the crew, the loader's stage or a
counter of missed deadlines. -/
def WorkField (k : Key) : Prop := k.lo < 64 ∧ (0x100000000 ≤ k.addr ∨ (0x800000 ≤ k.addr ∧ k.addr < 0x801000) ∨ k.addr = 0xC00000 ∨
  k.addr = 0x400008 ∨ (k.lo = 48 ∧ 0x500000 ≤ k.addr))

/-- R holds between a state and the one a trap or the end of the work of core c makes of it, since it holds over each of their
parts. -/
structure CoreRel (R : Hw → Hw → Prop) (c : Nat) : Prop where
  refl : ∀ h, R h h
  trans : ∀ {h t u}, R h t → R t u → R h u
  kept : ∀ {h t}, Kept h t → R h t
  claim : ∀ h n, R h (h.onDie n fun x => { x with eng := { x.eng with claim := none } })
  load : ∀ h l, R h { h with ldr := { h.ldr with load := l } }
  wr : ∀ h {k}, WorkField k → ∀ v, R h (h.wr k v)
  halt : ∀ h, R h (h.wr K.ADIT_HALTED_CORES (setBitAt (h.rd K.ADIT_HALTED_CORES) c true))

namespace CoreRel

section
variable {R : Hw → Hw → Prop} {c : Nat} (rel : CoreRel R c)
include rel

theorem onCore (h : Hw) (d : Nat) (f : CoreSt → CoreSt) : R h (h.onCore d f) := rel.kept (kept_setCore ..)

theorem releaseClaims (h : Hw) : R h (releaseClaims h c) := by
  unfold Machine.releaseClaims
  refine rel.trans ?_ (rel.onCore _ _ _)
  refine List.foldlRecOn (motive := R h) _ _ (rel.refl h) fun t ht n _ => rel.trans ht ?_
  split
  · exact rel.claim t n
  · exact rel.refl t

theorem releasePrio (h : Hw) : R h (releasePrio h c) := by
  have prio : R h (h.wr (K.CORE_LOCKSTAT_PRIO c) 0) := rel.wr h (by simp [WorkField, K.CORE_LOCKSTAT_PRIO]; omega) 0
  unfold Machine.releasePrio
  exact rel.trans prio (rel.trans (rel.kept (.csr rfl)) (rel.kept (kept_flushHeld _)))

theorem endStep (h : Hw) : R h (endStep h c) := by
  unfold Machine.endStep
  split
  · exact rel.trans (rel.onCore h c _) (rel.halt _)
  · exact rel.refl h

theorem judgeDeadline (h : Hw) : R h (judgeDeadline h c) := by
  have late (b : Bool) (q : Nat) (u : Hw) : R u (if b then (u.cnt (K.SCHED_Q_STAT_MISS q)).cnt K.SCHED_MISS_MISS else u) := by
    cases b
    · exact rel.refl u
    · exact rel.trans (rel.wr u (by simp [WorkField, K.SCHED_Q_STAT_MISS]; omega) _) (rel.wr _ (by simp [WorkField, K.SCHED_MISS_MISS]) _)
  unfold Machine.judgeDeadline
  split
  · split
    · exact rel.trans (rel.onCore h c _) (late _ _ _)
    · exact rel.refl h
  · exact rel.refl h

theorem endItem (h : Hw) (hc : c < 64) (e : Ending) : R h (endItem h c e) := by
  unfold Machine.endItem
  refine rel.trans (rel.judgeDeadline h) ?_
  generalize Machine.judgeDeadline h c = u
  simp only
  split
  · exact rel.refl u
  · rename_i i _
    have sent : R u (dropTicket (sendFinal u c i e) i.ticket) := rel.kept ((kept_sendFinal ..).trans (kept_dropTicket ..))
    have idle := rel.trans sent (rel.wr _ (k := K.CREW_CORE_ITEM_BUSY c) (by simp [WorkField, K.CREW_CORE_ITEM_BUSY]; omega) 0)
    exact rel.trans (rel.trans idle (rel.kept (kept_setCore ..))) (rel.kept (kept_dispatch _))

theorem setG (h : Hw) (d : Core) (r : Reg) (v : Word) : R h (h.setG d r v) := by
  unfold Hw.setG
  split
  · exact rel.refl h
  · exact rel.onCore ..

end

section
variable {R : Hw → Hw → Prop} {c : Core} (rel : CoreRel R c.val)
include rel

theorem tryEnd (h : Hw) : R h (tryEnd h c) := by
  unfold Machine.tryEnd
  split
  · split
    · exact rel.trans (rel.trans (rel.trans (rel.endStep h) (rel.releaseClaims _)) (rel.releasePrio _)) (rel.endItem _ c.isLt _)
    · exact rel.refl h
  · exact rel.refl h

theorem startEnd (h : Hw) (e : Ending) : R h (startEnd h c e) := by
  unfold Machine.startEnd
  have closed (u : Hw) : R u (u.wr (K.CORE_LOCKSTAT_OPEN c.val) 0) := rel.wr u (by simp [WorkField, K.CORE_LOCKSTAT_OPEN]; omega) 0
  exact rel.trans (rel.trans (rel.trans (rel.trans (rel.releaseClaims h) (rel.onCore _ _ _)) (rel.releasePrio _)) (closed _)) (rel.tryEnd _)

theorem programTraps (h : Hw) (cause : Nat) : R h (programTraps h c cause) := by
  unfold Machine.programTraps loadFails
  split
  · split
    · split
      · exact rel.refl h
      · exact rel.trans (rel.load ..) (rel.wr _ (by simp [WorkField, K.CFG_LOAD_STAGE]) _)
    · exact rel.refl h
  · exact rel.refl h

theorem recordTrap (h : Hw) (cause : Nat) (tval epc : Word) (im fe : Bool) : R h (recordTrap h c cause tval epc im fe) := by
  have field {k : Key} (hk : k.lo < 64 ∧ 0x100000000 ≤ k.addr) (u : Hw) (v : Nat) : R u (u.wr k v) := rel.wr u ⟨hk.1, .inl hk.2⟩ v
  unfold Machine.recordTrap
  exact rel.trans (rel.trans (rel.trans (rel.trans (field (by simp [K.CORE_EPC_EPC]; omega) _ _) (field (by simp [K.CORE_TVAL_TVAL]; omega) _ _))
    (field (by simp [K.CORE_CAUSE_CODE]; omega) _ _)) (field (by simp [K.CORE_CAUSE_IMPRECISE]; omega) _ _)) (field (by simp [K.CORE_CAUSE_FETCH]; omega) _ _)

theorem trap (h : Hw) (cause : Nat) (tval epc : Word) (im fe : Bool) : R h (trap h c cause tval epc im fe) := by
  unfold Machine.trap
  refine rel.trans (rel.programTraps h cause) ?_
  generalize Machine.programTraps h c cause = u
  simp only
  split
  · split
    · exact rel.trans (rel.trans (rel.wr _ (by simp [WorkField, K.CORE_CAUSE_DOUBLE]) _) (rel.kept (kept_logErr ..))) (rel.onCore _ _ _)
    · exact rel.trans (rel.trans (rel.recordTrap ..) (rel.wr _ (by simp [WorkField, K.CORE_CAUSE_TACTIVE]) _)) (rel.onCore _ _ _)
  · exact rel.trans (rel.trans (rel.recordTrap ..) (rel.kept (kept_logErr ..))) (rel.startEnd ..)

theorem boundary (h : Hw) : R h (boundary h c) := by
  unfold Machine.boundary
  split
  · split
    · exact rel.refl h
    · exact rel.trap ..
  · exact rel.refl h

theorem finishDev (h : Hw) (v : Word) : R h (finishDev h c v) := by
  unfold Machine.finishDev
  split
  · split
    · exact rel.onCore ..
    · exact rel.trans (rel.trans (rel.trans (rel.setG h c _ v) (rel.onCore _ _ _)) (rel.endStep _)) (rel.boundary _)
  · exact rel.refl h

end

end CoreRel

/-- A register field of the dies and their blocks, none of the hub's and none of the cores'. A queue number that no queue has could
name another register's bits from 48 on as its counter of missed deadlines. -/
def DieField (k : Key) : Prop := k.lo < 64 ∧ k.lo ≠ 48 ∧ 0x2000000 ≤ k.addr ∧ k.addr < 0x100000000

/-- From h to t cores have trapped or ended what they did: the clocks, the seams and the dies' registers are as they were. -/
structure CoreWork (h t : Hw) : Prop where
  clk : t.clk = h.clk
  seam : t.seam = h.seam
  strata : t.strata = h.strata
  pins : t.pins = h.pins
  rd : ∀ k, DieField k → t.rd k = h.rd k

namespace CoreWork
variable {h t u : Hw}

theorem refl (h : Hw) : CoreWork h h := ⟨rfl, rfl, rfl, rfl, fun _ _ => rfl⟩

theorem trans (a : CoreWork h t) (b : CoreWork t u) : CoreWork h u :=
  ⟨b.clk.trans a.clk, b.seam.trans a.seam, b.strata.trans a.strata, b.pins.trans a.pins, fun k hk => (b.rd k hk).trans (a.rd k hk)⟩

theorem of_kept (a : Kept h t) : CoreWork h t :=
  ⟨a.clk, a.seam, a.strata, a.pins, fun k hk => a.rd k ⟨hk.1, .inr (.inr (.inr (by have := hk.2.2.1; omega)))⟩⟩

theorem rel (c : Nat) : CoreRel CoreWork c where
  refl := refl
  trans := trans
  kept := of_kept
  claim _ _ := ⟨rfl, rfl, rfl, rfl, fun _ _ => rfl⟩
  load _ _ := ⟨rfl, rfl, rfl, rfl, fun _ _ => rfl⟩
  wr h j hj v := by
    refine ⟨rfl, rfl, rfl, rfl, fun k hk => Hw.rd_wr_ne h ?_ v⟩
    unfold DieField at hk
    unfold WorkField at hj
    unfold Key.id
    omega
  halt h := by
    refine ⟨rfl, rfl, rfl, rfl, fun k hk => Hw.rd_wr_ne h ?_ _⟩
    unfold DieField at hk
    simp only [Key.id, K.ADIT_HALTED_CORES]
    omega

theorem finishDev (h : Hw) (c : Core) (v : Word) : CoreWork h (finishDev h c v) := (rel c.val).finishDev h v

theorem wakeWaitAll (h : Hw) : CoreWork h (wakeWaitAll h) := by
  unfold Machine.wakeWaitAll
  refine List.foldlRecOn (motive := CoreWork h) _ _ (refl h) fun t ht c _ => ht.trans ?_
  split
  · split
    · exact finishDev ..
    · exact refl t
  · exact refl t

end CoreWork

end Sys2Proof.Machine
end

section
/-!
PROOF. CLKHALT and CLKRUN (R236): the gates of the networks named, one after another, and the waits for them.
-/
namespace Sys2Proof.Machine

namespace CoreIs
variable {p : CoreSt → Prop} {c : Nat} {h : Hw}

theorem mem (hi : CoreIs p c h) (m : Mem) : CoreIs p c { h with mem := m } := hi.congr rfl

theorem countRam (hi : CoreIs p c h) (hp : Steady p c) (n : Nat) (r : Nat × Nat × Nat × List Nat) : CoreIs p c (countRam h n r) := by
  obtain ⟨s, i, row, lanes⟩ := r
  unfold Machine.countRam
  simp only
  generalize hu : (if List.length _ = List.length _ then h else _) = u
  have hk : CoreIs p c u := by
    rw [← hu]
    split
    · exact hi
    · exact hi.cnt _
  split
  · exact (hk.cnt _).logEntry hp ..
  · split
    · exact hk
    · split
      · exact hk
      · exact (hk.mem _).logEntry hp ..

theorem edgeStep (hi : CoreIs p c h) (hp : Steady p c) (e : Edges) : CoreIs p c (edgeStep h e) := by
  unfold Machine.edgeStep
  simp only
  exact List.foldlRecOn (motive := CoreIs p c) _ _ (hi.congr rfl) fun _ ht r _ => ht.countRam hp r.1 r.2

theorem runDesign (hi : CoreIs p c h) (hp : Steady p c) : CoreIs p c (runDesign h) := by
  unfold Machine.runDesign
  split
  · exact hi
  · exact List.foldlRecOn (motive := CoreIs p c) _ _ (hi.congr rfl) fun _ ht r _ => ht.edgeStep hp _

theorem onNet (hi : CoreIs p c h) (n m : Nat) (f : NetSt → NetSt) : CoreIs p c (h.onNet n m f) := hi.congr rfl

theorem gateClosed (hi : CoreIs p c h) (hp : Steady p c) (n m : Nat) : CoreIs p c (gateClosed h n m) := by
  unfold Machine.gateClosed
  have ran := hi.runDesign hp
  generalize Machine.runDesign h = u at ran
  simp only
  refine CoreIs.wr (CoreIs.onNet ?_ n m _) _ _
  split
  · exact ran.edgeStep hp _
  · exact ran

theorem closeGate (hi : CoreIs p c h) (hp : Steady p c) (n m : Nat) : CoreIs p c (closeGate h n m) := by
  unfold Machine.closeGate
  split
  · exact hi
  · split
    · exact (hi.runDesign hp).onNet n m _
    · exact hi.gateClosed hp n m

theorem openGate (hi : CoreIs p c h) (hp : Steady p c) (n m : Nat) : CoreIs p c (openGate h n m) :=
  ((hi.runDesign hp).onNet n m _).wr _ _

end CoreIs

/-! ### One gate -/

/-- The field that shows network x halted. -/
def haltKey (x : Nat) : Key := K.CLK_NET_STAT_HALTED (x / 64) (x % 64)

theorem haltKey_ne {x y : Nat} (h : x ≠ y) : (haltKey x).id ≠ (haltKey y).id := by
  have hx := Nat.div_add_mod x 64
  have hy := Nat.div_add_mod y 64
  simp only [haltKey, Key.id, K.CLK_NET_STAT_HALTED]
  omega

theorem offSched_haltKey (x : Nat) : OffSched (haltKey x) := by
  simp only [haltKey, OffSched, K.CLK_NET_STAT_HALTED]
  omega

theorem net_onNet_self (h : Hw) (n m : Nat) (f : NetSt → NetSt) : (h.onNet n m f).net n m = f (h.net n m) := by
  simp [Hw.net, Hw.onNet, Hw.setNet]

theorem net_onNet_ne (h : Hw) {n m i j : Nat} (hne : i * 64 + j ≠ n * 64 + m) (f : NetSt → NetSt) :
    (h.onNet n m f).net i j = h.net i j := by
  simp [Hw.net, Hw.onNet, Hw.setNet, SMap.get_set_ne _ hne]

theorem place_ne {x y : Nat} (h : y ≠ x) : y / 64 * 64 + y % 64 ≠ x / 64 * 64 + x % 64 := by omega

/-- From h to t the design has run and the gate of network x has moved, nothing else. -/
structure GateMoved (x : Nat) (h t : Hw) : Prop where
  rd : ∀ k, OffSched k → k.id ≠ (haltKey x).id → t.rd k = h.rd k
  net : ∀ y, y ≠ x → (t.net (y / 64) (y % 64)).control = (h.net (y / 64) (y % 64)).control
  plls : t.clk.plls = h.clk.plls

namespace GateMoved
variable {x : Nat} {h t u : Hw}

theorem trans (a : GateMoved x h t) (b : GateMoved x t u) : GateMoved x h u :=
  ⟨fun k h1 h2 => (b.rd k h1 h2).trans (a.rd k h1 h2), fun y hy => (b.net y hy).trans (a.net y hy), b.plls.trans a.plls⟩

theorem of_designRan (a : DesignRan h t) : GateMoved x h t := ⟨fun k hk _ => a.rd k hk, fun _ _ => a.net .., a.plls⟩

theorem refl (h : Hw) : GateMoved x h h := .of_designRan (.refl h)

theorem onNet (h : Hw) (f : NetSt → NetSt) : GateMoved x h (h.onNet (x / 64) (x % 64) f) :=
  ⟨fun _ _ _ => rfl, fun y hy => by rw [net_onNet_ne _ (place_ne hy)], rfl⟩

theorem wr (h : Hw) (v : Nat) : GateMoved x h (h.wr (haltKey x) v) := ⟨fun _ _ hk => Hw.rd_wr_ne h hk v, fun _ _ => rfl, rfl⟩

/-- Another network stands halted or running as before. -/
theorem halted (a : GateMoved x h t) {y : Nat} (hy : y ≠ x) : t.rd (haltKey y) = h.rd (haltKey y) :=
  a.rd _ (offSched_haltKey y) (haltKey_ne hy)

end GateMoved

/-- A network is halted, or its gate was told to close. -/
def Closing (h : Hw) (x : Nat) : Prop := netHalted h (x / 64) (x % 64) = true ∨ (h.net (x / 64) (x % 64)).closing = true

/-- What a network's control state holds. -/
theorem fields_of_control {a b : NetSt} (e : a.control = b.control) : (a.sw = b.sw ∧ a.cur = b.cur ∧ a.fen = b.fen) ∧ a.closing = b.closing := by
  have sw := congrArg NetSt.sw e
  have cur := congrArg NetSt.cur e
  have fen := congrArg NetSt.fen e
  have closing := congrArg NetSt.closing e
  exact ⟨⟨sw, cur, fen⟩, closing⟩

theorem GateMoved.closing {x y : Nat} {h t : Hw} (a : GateMoved x h t) (hy : y ≠ x) (hc : Closing h y) : Closing t y := by
  refine hc.imp (fun e => ?_) fun e => ?_
  · rw [netHalted, Hw.bit, show t.rd (K.CLK_NET_STAT_HALTED (y / 64) (y % 64)) = _ from a.halted hy]
    exact e
  · rwa [(fields_of_control (a.net y hy)).2]

/-- What edges need: the switch, the source and the enable. -/
theorem netEdges_congr {h t : Hw} {n m : Nat} (hn : n < 4) (hm : m < 64)
    (hs : (t.net n m).sw = (h.net n m).sw ∧ (t.net n m).cur = (h.net n m).cur ∧ (t.net n m).fen = (h.net n m).fen)
    (hp : t.clk.plls = h.clk.plls) (hr : ∀ k, OffSched k → k.lo ≠ 4 → t.rd k = h.rd k) : netEdges t n m = netEdges h n m := by
  obtain ⟨hsw, hcur, hfen⟩ := hs
  have out (i k : Nat) : t.rd (K.CLK_PLL_OUT_EN n i k) = h.rd (K.CLK_PLL_OUT_EN n i k) :=
    hr _ (by simp only [OffSched, K.CLK_PLL_OUT_EN]; omega) (by simp [K.CLK_PLL_OUT_EN])
  have lock : t.rd K.CLK_STAT_SLOCK = h.rd K.CLK_STAT_SLOCK := hr _ (by simp [OffSched, K.CLK_STAT_SLOCK]) (by decide)
  have use : t.rd (K.CLK_NET_SRC_UENUSE n m) = h.rd (K.CLK_NET_SRC_UENUSE n m) :=
    hr _ (by simp only [OffSched, K.CLK_NET_SRC_UENUSE]; omega) (by simp [K.CLK_NET_SRC_UENUSE])
  simp only [netEdges, sourceLive, Hw.bit, Hw.pll, hsw, hcur, hfen, hp, out, lock, use]

section
variable (h : Hw) (x : Nat)

theorem gateMoved_gateClosed : GateMoved x h (gateClosed h (x / 64) (x % 64)) := by
  unfold gateClosed
  simp only
  refine GateMoved.trans (.of_designRan (designRan_runDesign h)) ?_
  generalize runDesign h = u
  refine GateMoved.trans (.of_designRan (t := if _ then _ else u) ?_) ((GateMoved.onNet _ _).trans (.wr _ _))
  split
  · exact designRan_edgeStep ..
  · exact .refl u

theorem halted_gateClosed : (gateClosed h (x / 64) (x % 64)).rd (haltKey x) = 1 := by
  unfold gateClosed
  exact Hw.rd_wr_self ..

theorem gateMoved_closeGate : GateMoved x h (closeGate h (x / 64) (x % 64)) := by
  unfold closeGate
  split
  · exact .refl h
  · split
    · exact (GateMoved.of_designRan (designRan_runDesign h)).trans (.onNet _ _)
    · exact gateMoved_gateClosed h x

theorem closing_closeGate : Closing (closeGate h (x / 64) (x % 64)) x := by
  unfold closeGate
  split
  case isTrue halted => exact .inl halted
  case isFalse =>
    split
    · exact .inr (by rw [net_onNet_self])
    · refine .inl ?_
      rw [netHalted, Hw.bit, show (gateClosed h (x / 64) (x % 64)).rd (K.CLK_NET_STAT_HALTED (x / 64) (x % 64)) = 1 from
        halted_gateClosed h x]
      rfl

/-- A gate commanded to close stays open, and its network's edges go on, until a falling edge. -/
theorem runs_closeGate (hx : x < 256) (hh : h.rd (haltKey x) = 0) (he : netEdges h (x / 64) (x % 64) = true) :
    (closeGate h (x / 64) (x % 64)).rd (haltKey x) = 0 ∧ netEdges (closeGate h (x / 64) (x % 64)) (x / 64) (x % 64) = true := by
  have halted : netHalted h (x / 64) (x % 64) = false := by
    rw [netHalted, Hw.bit, show h.rd (K.CLK_NET_STAT_HALTED (x / 64) (x % 64)) = 0 from hh]; rfl
  have ran := designRan_runDesign h
  simp only [closeGate, halted, he, Bool.false_eq_true, if_false, if_true]
  refine ⟨(ran.rd _ (offSched_haltKey x)).trans hh, ?_⟩
  have same := (fields_of_control (ran.net (x / 64) (x % 64))).1
  refine Eq.trans (netEdges_congr (by omega) (by omega) ?_ ran.plls fun k hk _ => ran.rd k hk) he
  rw [net_onNet_self]
  exact same

theorem gateMoved_openGate : GateMoved x h (openGate h (x / 64) (x % 64)) :=
  (GateMoved.of_designRan (designRan_runDesign h)).trans ((GateMoved.onNet _ _).trans (.wr _ _))

theorem running_openGate : (openGate h (x / 64) (x % 64)).rd (haltKey x) = 0 := Hw.rd_wr_self ..

end

/-! ### CLKHALT -/

/-- CLKHALT at one network. -/
def haltOne (h : Hw) (x : Nat) : Hw := disownNet (closeGate h (x / 64) (x % 64)) x

theorem disownNet_frame (h : Hw) (x : Nat) : (disownNet h x).csr = h.csr ∧ (disownNet h x).clk = h.clk ∧ (disownNet h x).cores = h.cores := by
  unfold disownNet
  split
  · split <;> exact ⟨rfl, rfl, rfl⟩
  · exact ⟨rfl, rfl, rfl⟩

theorem gateMoved_haltOne (h : Hw) (x : Nat) : GateMoved x h (haltOne h x) := by
  obtain ⟨hcsr, hclk, -⟩ := disownNet_frame (closeGate h (x / 64) (x % 64)) x
  refine (gateMoved_closeGate h x).trans ⟨fun k _ _ => Hw.rd_congr hcsr k, fun y _ => ?_, congrArg Clk.plls hclk⟩
  rw [haltOne, Hw.net, hclk, ← Hw.net]

theorem closing_haltOne (h : Hw) (x : Nat) : Closing (haltOne h x) x := by
  obtain ⟨hcsr, hclk, -⟩ := disownNet_frame (closeGate h (x / 64) (x % 64)) x
  have := closing_closeGate h x
  unfold Closing netHalted Hw.bit at this ⊢
  rwa [haltOne, Hw.rd_congr hcsr, Hw.net, hclk, ← Hw.net]

/-- Every network of a list that CLKHALT has gone through is halted or closing. -/
theorem closing_halts (l : List Nat) (h : Hw) {x : Nat} (hx : x ∈ l ∨ Closing h x) : Closing (l.foldl haltOne h) x := by
  induction l generalizing h with
  | nil => simpa using hx
  | cons y l ih =>
    refine ih _ ?_
    by_cases e : x = y
    · exact .inr (e ▸ closing_haltOne h x)
    · rcases hx with hx | hx
      · exact .inl ((List.mem_cons.1 hx).resolve_left e)
      · exact .inr ((gateMoved_haltOne h y).closing e hx)

/-- A network that runs with edges still runs after CLKHALT has gone through a list. -/
theorem runs_halts (l : List Nat) (h : Hw) {x : Nat} (hx : x < 256) (hh : h.rd (haltKey x) = 0)
    (he : netEdges h (x / 64) (x % 64) = true) : (l.foldl haltOne h).rd (haltKey x) = 0 := by
  induction l generalizing h with
  | nil => exact hh
  | cons y l ih =>
    have next : (haltOne h y).rd (haltKey x) = 0 ∧ netEdges (haltOne h y) (x / 64) (x % 64) = true := by
      by_cases e : x = y
      · subst e
        obtain ⟨hcsr, hclk, -⟩ := disownNet_frame (closeGate h (x / 64) (x % 64)) x
        obtain ⟨h1, h2⟩ := runs_closeGate h x hx hh he
        refine ⟨(Hw.rd_congr hcsr _).trans h1, Eq.trans (netEdges_congr (by omega) (by omega) ?_ (congrArg Clk.plls hclk)
          fun k _ _ => Hw.rd_congr hcsr k) h2⟩
        rw [haltOne, Hw.net, hclk, ← Hw.net]
        exact ⟨rfl, rfl, rfl⟩
      · have moved := gateMoved_haltOne h y
        refine ⟨(moved.halted e).trans hh, Eq.trans (netEdges_congr (by omega) (by omega)
          (fields_of_control (moved.net x e)).1 moved.plls fun k hk h4 => moved.rd k hk fun e => ?_) he⟩
        simp only [Key.id, haltKey, K.CLK_NET_STAT_HALTED] at e
        have := hk.1
        omega
    exact ih _ next.1 next.2

theorem CoreIs.halts {p : CoreSt → Prop} {c : Nat} {h : Hw} (hi : CoreIs p c h) (hp : Steady p c) (l : List Nat) :
    CoreIs p c (l.foldl haltOne h) :=
  List.foldlRecOn (motive := CoreIs p c) l haltOne hi fun _ ht x _ =>
    (ht.closeGate hp (x / 64) (x % 64)).congr (disownNet_frame _ x).2.2

/-- The core as it stood, but for its locked sequence. -/
def Stands (x y : CoreSt) : Prop := { y with lock := none } = { x with lock := none }

theorem Stands.refl (x : CoreSt) : Stands x x := rfl

theorem touch_unwatched {x : CoreSt} {a n : Nat} (hd : ∀ l b rd d, x.dev ≠ some ⟨.wait l b, rd, d⟩) : Stands x (x.touch a n) := by
  unfold Stands CoreSt.touch
  have free (y : CoreSt) (hy : y.dev = x.dev) (hs : Stands x y) : Stands x (match y.dev with
      | some ⟨.wait (some l) _, rd, done⟩ => if meetsLine a n l then { y with dev := some ⟨.wait (some l) true, rd, done⟩ } else y
      | _ => y) := by
    split
    · rename_i e
      exact absurd (hy.symm.trans e) (hd _ _ _ _)
    · exact hs
  cases hl : x.lock with
  | none => exact free x rfl rfl
  | some l =>
    by_cases hm : l.lines.any (meetsLine a n) = true
    · simp only [hm, if_true]
      exact free { x with lock := some { l with broken := true } } rfl rfl
    · simp only [hm]
      exact free x rfl rfl

/-- What a core without a watched line keeps while others write. -/
theorem steady_stands {x : CoreSt} {c : Nat} (hd : ∀ l b rd d, x.dev ≠ some ⟨.wait l b, rd, d⟩) (hb : c = 0 ∨ x.item.isSome = true) :
    Steady (Stands x) c := by
  refine ⟨fun y a n hy => ?_, hb.imp_right fun hi => .inl fun y hy => ?_⟩
  · have hdev : y.dev = x.dev := by
      have := congrArg CoreSt.dev hy
      exact this
    exact (touch_unwatched fun l b rd d e => hd l b rd d (hdev.symm.trans e)).trans hy
  · have hitem : y.item = x.item := by
      have := congrArg CoreSt.item hy
      exact this
    rw [hitem]
    exact hi

theorem Stands.fields {x y : CoreSt} (h : Stands x y) : y.regs = x.regs ∧ y.pc = x.pc ∧ y.dev = x.dev := by
  have regs := congrArg CoreSt.regs h
  have pc := congrArg CoreSt.pc h
  have dev := congrArg CoreSt.dev h
  exact ⟨regs, pc, dev⟩

/-- A core just changed stands as it is, wherever it is listed. -/
theorem CoreIs.stands_onCore (h : Hw) (c : Nat) (f : CoreSt → CoreSt) : CoreIs (Stands ((h.onCore c f).core c)) c (h.onCore c f) :=
  .set (by rw [Hw.core_onCore_self]; exact Stands.refl _)

theorem CoreIs.stands_begun (h : Hw) (c : Core) : CoreIs (Stands ((begun h c).core c.val)) c.val (begun h c) := stands_onCore ..

theorem CoreIs.stands_advance (h : Hw) (c : Core) : CoreIs (Stands ((advance h c).core c.val)) c.val (advance h c) := stands_onCore ..

theorem CoreIs.stands_waitFor (h : Hw) (c : Core) (op : DevOp) (rd : Reg) :
    CoreIs (Stands ((waitFor h c op rd).core c.val)) c.val (waitFor h c op rd) := stands_advance ..

theorem g_of_stands {g h : Hw} {c : Core} (e : Stands (h.core c.val) (g.core c.val)) (r : Reg) : g.g c r = h.g c r := by
  rw [Hw.g, e.fields.1, Hw.g]

theorem pc_of_stands {g h : Hw} {c : Core} (e : Stands (h.core c.val) (g.core c.val)) : g.pc c = h.pc c := by
  rw [Hw.pc, e.fields.2.1, Hw.pc]

/-- A core that issues is free, and is not one that the scheduler may load. -/
theorem issuing {h : Hw} {c : Core} {i : Ins} (r : Ready h c i) :
    (h.core c.val).dev = none ∧ (c.val = 0 ∨ (h.core c.val).item.isSome = true) := by
  have free := r.free
  simp only [mayIssue, Bool.and_eq_true, Option.isNone_iff_eq_none] at free
  obtain ⟨⟨⟨⟨⟨hrun, -⟩, hdev⟩, -⟩, -⟩, -⟩ := free
  refine ⟨hdev, ?_⟩
  unfold mayRun at hrun
  split at hrun
  · exact .inl ‹_›
  · exact .inr (Bool.and_eq_true .. ▸ hrun).1

theorem dieField_haltKey {x : Nat} (hx : x < 256) : DieField (haltKey x) := by
  simp only [DieField, haltKey, K.CLK_NET_STAT_HALTED]
  omega

/-- The waits for networks end without touching a core that waits for none, or for one that still runs. -/
theorem CoreIs.wakeWaitAll {x : CoreSt} {c : Core} {h : Hw} (hi : CoreIs (Stands x) c.val h) (hp : Steady (Stands x) c.val)
    (hw : ∀ nets rd, x.dev = some ⟨.waitAll nets, rd, none⟩ → ∃ y ∈ nets, y < 256 ∧ h.rd (haltKey y) = 0) :
    CoreIs (Stands x) c.val (wakeWaitAll h) := by
  unfold Machine.wakeWaitAll
  refine (List.foldlRecOn (motive := fun t => CoreIs (Stands x) c.val t ∧ CoreWork h t) allCores _ ⟨hi, .refl h⟩
    fun t ⟨ht, work⟩ d _ => ?_).1
  split
  case h_2 => exact ⟨ht, work⟩
  case h_1 nets rd hd =>
    split
    case isFalse => exact ⟨ht, work⟩
    case isTrue all =>
      refine ⟨?_, work.trans (.finishDev ..)⟩
      by_cases hc : c.val = d.val
      · rw [← hc, ht.state.fields.2.2] at hd
        obtain ⟨y, hy, hlt, hrun⟩ := hw nets rd hd
        have halted := List.all_eq_true.1 all y hy
        rw [netHalted, Hw.bit, show t.rd (K.CLK_NET_STAT_HALTED (y / 64) (y % 64)) = 0 from
          (work.rd _ (dieField_haltKey hlt)).trans hrun] at halted
        exact absurd halted (by decide)
      · exact ht.finishDev hc hp 0

theorem mem_bitList {n x i : Nat} : i ∈ bitList n x ↔ i < n ∧ x.testBit i = true := by
  simp [bitList]

theorem lt_of_named {h : Hw} {v x : Nat} (hx : x ∈ namedNets h v) : x < 256 := (mem_bitList.1 (List.mem_filter.1 hx).1).1

section
variable {s : State} {c : Core} {rd rs1 rs2 : Reg} {v : Nat}

/-- CLKHALT where it may issue. -/
def clkhaltAct (c : Core) (rd rs1 rs2 : Reg) (h : Hw) : Option Hw :=
  let all := (gv h c rs2).testBit 0
  some (withOperand h c (gv h c rs1) 32 32 true fun h set =>
    let nets := namedNets h set
    let h := nets.foldl haltOne h
    if !all || nets.all fun x => netHalted h (x / 64) (x % 64) then wakeWaitAll (status h c rd 0)
    else wakeWaitAll (waitFor h c (.waitAll nets) rd))

theorem exec_clkhalt : exec (.clkhalt c rd rs1 rs2) s =
    doHw s fun h => devOp h c (wordA 0x16 4 rd rs1 rs2) [rd, rs1, rs2] false (clkhaltAct c rd rs1 rs2) := rfl

theorem operandIs_begun {h : Hw} {a n align : Nat} {hub : Bool} (o : OperandIs h c a n align hub v) :
    OperandIs (begun h c) c a n align hub v := o

/-- What stands when CLKHALT has told its gates to close. -/
theorem halted_frame (r : DevReady s.hw c (wordA 0x16 4 rd rs1 rs2) [rd, rs1, rs2] false) (l : List Nat) :
    CoreIs (Stands ((begun s.hw c).core c.val)) c.val (l.foldl haltOne (begun s.hw c)) ∧ ((begun s.hw c).core c.val).dev = none ∧
      (c.val = 0 ∨ ((begun s.hw c).core c.val).item.isSome = true) := by
  obtain ⟨hdev, hitem⟩ := issuing r.toReady
  have free : ((begun s.hw c).core c.val).dev = none := by rw [begun, Hw.core_onCore_self]; exact hdev
  have busy : c.val = 0 ∨ ((begun s.hw c).core c.val).item.isSome = true := by rw [item_begun]; exact hitem
  exact ⟨CoreIs.halts (.stands_begun s.hw c) (steady_stands (by simp [free]) busy) l, free, busy⟩

theorem closing_of_coreWork {h t : Hw} {x : Nat} (w : CoreWork h t) (hx : x < 256) (hc : Closing h x) : Closing t x := by
  unfold Closing netHalted Hw.bit at hc ⊢
  rwa [Hw.net, w.clk, ← Hw.net, show t.rd (K.CLK_NET_STAT_HALTED (x / 64) (x % 64)) = _ from w.rd _ (dieField_haltKey hx)]

theorem StaysIn.coreWork {h t : Hw} (st : StaysIn h t c) : CoreWork h t := by
  obtain ⟨-, -, clk, seam, -, strata, -, -, -, pins, -⟩ := st.rest
  refine ⟨clk, seam, strata, pins, fun k hk => st.fields k fun e => ?_⟩
  simp only [Key.id, K.ADIT_HALTED_CORES] at e
  have := hk.2.2.1
  have := hk.1
  omega

/-- CLKHALT that does not wait: its gates close, and it answers 0. -/
theorem clkhalt_commands (r : DevReady s.hw c (wordA 0x16 4 rd rs1 rs2) [rd, rs1, rs2] false)
    (o : OperandIs s.hw c (s.hw.g c rs1).toNat 32 32 true v) (hall : (s.hw.g c rs2).toNat.testBit 0 = false) :
    Ends (exec (.clkhalt c rd rs1 rs2) s) fun t => Answers s t c rd 0 ∧
      ∀ x ∈ namedNets s.hw v, netHalted t.hw (x / 64) (x % 64) = true ∨ (t.hw.net (x / 64) (x % 64)).closing = true := by
  obtain ⟨stands, hdev, hbusy⟩ := halted_frame r (namedNets s.hw v)
  have act : clkhaltAct c rd rs1 rs2 (begun s.hw c) =
      some (wakeWaitAll (status ((namedNets s.hw v).foldl haltOne (begun s.hw c)) c rd 0)) := by
    simp only [clkhaltAct, gv_begun, hall, withOperand_of_operandIs (operandIs_begun o), Bool.not_false, Bool.true_or, if_true]
    rfl
  have closing (x : Nat) (hx : x ∈ namedNets s.hw v) := closing_halts (namedNets s.hw v) (begun s.hw c) (.inl hx)
  generalize (namedNets s.hw v).foldl haltOne (begun s.hw c) = u at *
  have answered : StaysIn u (status u c rd 0) c := .result rd _
  have dev : ((status u c rd 0).core c.val).dev = none := by
    have : ((status u c rd 0).core c.val).dev = (u.core c.val).dev := by
      by_cases h0 : rd = 0 <;> simp [status, result, advance, Hw.setPc, Hw.setG, h0]
    rw [this, stands.state.fields.2.2, hdev]
  have busy : c.val = 0 ∨ ((status u c rd 0).core c.val).item.isSome = true := by
    refine hbusy.imp_right fun hi => ?_
    have := congrArg CoreSt.item stands.state
    rw [answered.item, show (u.core c.val).item = _ from this]
    exact hi
  have woken : CoreIs (Stands ((status u c rd 0).core c.val)) c.val (wakeWaitAll (status u c rd 0)) :=
    CoreIs.wakeWaitAll (.stands_advance _ c) (steady_stands (by simp [dev]) busy) (by simp [dev])
  rw [exec_clkhalt]
  refine ⟨_, rfl, ?_⟩
  simp only [State.onHw, devOp_ready r act]
  refine ⟨⟨?_, ?_⟩, fun x hx => ?_⟩
  · rw [Hw.g_retire, g_of_stands woken.state]
    simp [status, result]
  · rw [Hw.pc_retire, pc_of_stands woken.state]
    simp only [status, result, Hw.pc_advance, Hw.pc_setG, pc_of_stands stands.state, Hw.pc_begun]
  · have work : CoreWork u (retire (wakeWaitAll (status u c rd 0)) c) :=
      (answered.coreWork.trans (.wakeWaitAll _)).trans StaysIn.retire.coreWork
    exact closing_of_coreWork work (lt_of_named hx) (closing x hx)

/-- CLKHALT with WAITALL waits where a network it names still runs. -/
theorem clkhalt_waits (r : DevReady s.hw c (wordA 0x16 4 rd rs1 rs2) [rd, rs1, rs2] false)
    (o : OperandIs s.hw c (s.hw.g c rs1).toNat 32 32 true v) (hall : (s.hw.g c rs2).toNat.testBit 0 = true)
    (hrun : ∃ x ∈ namedNets s.hw v, netHalted s.hw (x / 64) (x % 64) = false ∧ netEdges s.hw (x / 64) (x % 64) = true) :
    Ends (exec (.clkhalt c rd rs1 rs2) s) fun t => Waits s t c rd (.waitAll (namedNets s.hw v)) := by
  obtain ⟨x, hx, hh, he⟩ := hrun
  obtain ⟨stands, -, hbusy⟩ := halted_frame r (namedNets s.hw v)
  have runs : ((namedNets s.hw v).foldl haltOne (begun s.hw c)).rd (haltKey x) = 0 :=
    runs_halts _ (begun s.hw c) (lt_of_named hx) (by simpa [netHalted, Hw.bit, haltKey, begun] using hh) he
  have notAll : ((namedNets s.hw v).all fun x =>
      netHalted ((namedNets s.hw v).foldl haltOne (begun s.hw c)) (x / 64) (x % 64)) = false := by
    rw [List.all_eq_false]
    refine ⟨x, hx, ?_⟩
    rw [netHalted, Hw.bit, show Hw.rd _ (K.CLK_NET_STAT_HALTED (x / 64) (x % 64)) = 0 from runs]
    decide
  have act : clkhaltAct c rd rs1 rs2 (begun s.hw c) =
      some (wakeWaitAll (waitFor ((namedNets s.hw v).foldl haltOne (begun s.hw c)) c (.waitAll (namedNets s.hw v)) rd)) := by
    have named : namedNets (begun s.hw c) v = namedNets s.hw v := rfl
    simp only [clkhaltAct, gv_begun, hall, withOperand_of_operandIs (operandIs_begun o), named, notAll, Bool.not_true, Bool.or_false,
      Bool.false_eq_true, if_false]
  generalize (namedNets s.hw v).foldl haltOne (begun s.hw c) = u at *
  have dev := dev_waitFor u c (.waitAll (namedNets s.hw v)) rd
  have core : (waitFor u c (.waitAll (namedNets s.hw v)) rd).core c.val = { u.core c.val with
      dev := some ⟨.waitAll (namedNets s.hw v), rd, none⟩, pc := u.pc c + 4 } := by
    simp [waitFor, advance, Hw.setPc, Hw.pc]
  have busy : c.val = 0 ∨ ((waitFor u c (.waitAll (namedNets s.hw v)) rd).core c.val).item.isSome = true := by
    refine hbusy.imp_right fun hi => ?_
    have := congrArg CoreSt.item stands.state
    rw [core, show (u.core c.val).item = _ from this]
    exact hi
  have woken := CoreIs.wakeWaitAll (h := waitFor u c (.waitAll (namedNets s.hw v)) rd) (.stands_waitFor u c _ rd)
    (steady_stands (by simp [dev]) busy) fun nets q e => ⟨x, by
      rw [dev] at e
      cases e
      exact hx, lt_of_named hx, runs⟩
  rw [exec_clkhalt]
  refine ⟨_, rfl, ?_⟩
  simp only [State.onHw, devOp_ready r act]
  refine ⟨?_, ?_, fun q => ?_⟩
  · rw [dev_retire, woken.state.fields.2.2, dev_waitFor]
  · rw [Hw.pc_retire, pc_of_stands woken.state, Hw.pc, core]
    simp only [pc_of_stands stands.state, Hw.pc_begun]
  · rw [Hw.g_retire, g_of_stands woken.state, Hw.g, core, ← Hw.g, g_of_stands stands.state, Hw.g_begun]

/-! ### CLKRUN -/

/-- CLKRUN at one network. -/
def runOne (h : Hw) (x : Nat) : Hw := openGate h (x / 64) (x % 64)

theorem halted_runs_of_not_mem (l : List Nat) (h : Hw) {x : Nat} (hx : x ∉ l) : (l.foldl runOne h).rd (haltKey x) = h.rd (haltKey x) := by
  induction l generalizing h with
  | nil => rfl
  | cons y l ih =>
    obtain ⟨hy, hl⟩ : x ≠ y ∧ x ∉ l := by simpa using hx
    exact (ih _ hl).trans ((gateMoved_openGate h y).halted hy)

/-- A network that CLKRUN opens is not halted afterwards. -/
theorem halted_runs_of_mem (l : List Nat) (h : Hw) {x : Nat} (hx : x ∈ l) : (l.foldl runOne h).rd (haltKey x) = 0 := by
  induction l generalizing h with
  | nil => cases hx
  | cons y l ih =>
    by_cases hl : x ∈ l
    · exact ih _ hl
    · have : x = y := (List.mem_cons.1 hx).resolve_right hl
      subst this
      exact (halted_runs_of_not_mem l _ hl).trans (running_openGate h x)

theorem CoreIs.runs {p : CoreSt → Prop} {c : Nat} {h : Hw} (hi : CoreIs p c h) (hp : Steady p c) (l : List Nat) :
    CoreIs p c (l.foldl runOne h) :=
  List.foldlRecOn (motive := CoreIs p c) l runOne hi fun _ ht x _ => ht.openGate hp (x / 64) (x % 64)

/-- What CLKRUN gives for the networks it names. -/
def clkrunCode (h : Hw) (nets : List Nat) : Nat :=
  let why := nets.filterMap (runRefusal h)
  if why.contains 0x08 then 0x08 else if why.contains 0x01 then 0x01 else if why.contains 0x10 then 0x10 else 0

/-- CLKRUN where it may issue. -/
def clkrunAct (c : Core) (rd rs1 : Reg) (h : Hw) : Option Hw :=
  some (withOperand h c (gv h c rs1) 32 32 true fun h set =>
    let nets := namedNets h set
    result ((nets.filter fun x => (runRefusal h x).isNone).foldl runOne h) c rd
      (statusCount (clkrunCode h nets) (nets.filter fun x => (runRefusal h x).isSome).length))

theorem exec_clkrun : exec (.clkrun c rd rs1) s =
    doHw s fun h => devOp h c (wordA 0x16 5 rd rs1 0) [rd, rs1] false (clkrunAct c rd rs1) := rfl

end

/-! ### Memory while Q4 takes no errors -/

/-- Q4 is disabled, and memory reads as before. -/
structure MemAsWas (h t : Hw) : Prop where
  off : qEn t 4 = false
  cells : t.mem.cells = h.mem.cells

namespace MemAsWas
variable {h t : Hw}

theorem wr (m : MemAsWas h t) {k : Key} (hk : (K.SCHED_Q_CFG_EN 4).id ≠ k.id) (v : Nat) : MemAsWas h (t.wr k v) :=
  ⟨by rw [qEn, Hw.bit, Hw.rd_wr_ne t hk]; exact m.off, m.cells⟩

theorem logRaw (m : MemAsWas h t) (s a c d e : Nat) : MemAsWas h (logRaw t s a c d e) := by
  have word (i j : Nat) : (K.SCHED_Q_CFG_EN 4).id ≠ (K.ERR_LOG_W_WORD i j).id := by
    simp only [Key.id, K.SCHED_Q_CFG_EN, K.ERR_LOG_W_WORD]
    omega
  exact (((((m.wr (word _ _) _).wr (word _ _) _).wr (word _ _) _).wr (word _ _) _).wr (by decide) _).wr (by decide) _

theorem logEntry (m : MemAsWas h t) (s a c d e : Nat) : MemAsWas h (logEntry t s a c d e) := by
  unfold Machine.logEntry
  have raw := m.logRaw s a c d e
  generalize Machine.logRaw t s a c d e = u at raw
  simp only
  split
  · have refused (x : Desc) : tryEnter u 4 (.event 4) x = (u, .noqueue) := tryEnter_noqueue raw.off
    simpa only [postError, refused] using raw
  · exact raw

theorem countRam (m : MemAsWas h t) (n : Nat) (r : Nat × Nat × Nat × List Nat) : MemAsWas h (countRam t n r) := by
  obtain ⟨s, i, row, lanes⟩ := r
  have corr {u : Hw} (m : MemAsWas h u) : MemAsWas h (u.cnt (K.ERR_CNT_CORR (8 + n))) :=
    m.wr (by simp only [Key.id, K.SCHED_Q_CFG_EN, K.ERR_CNT_CORR]; omega) _
  have uncorr {u : Hw} (m : MemAsWas h u) : MemAsWas h (u.cnt (K.ERR_CNT_UNCORR (8 + n))) :=
    m.wr (by simp only [Key.id, K.SCHED_Q_CFG_EN, K.ERR_CNT_UNCORR]; omega) _
  unfold Machine.countRam
  simp only
  generalize hu : (if List.length _ = List.length _ then t else _) = u
  have hk : MemAsWas h u := by
    rw [← hu]
    split
    · exact m
    · exact corr m
  split
  · exact (uncorr hk).logEntry ..
  · split
    · exact hk
    · split
      · exact hk
      · have noted (l : SMap (Nat × Nat)) : MemAsWas h { u with mem := { u.mem with lastCe := l } } := ⟨hk.off, hk.cells⟩
        exact (noted _).logEntry ..

theorem edgeStep (m : MemAsWas h t) (e : Edges) : MemAsWas h (edgeStep t e) := by
  unfold Machine.edgeStep
  simp only
  exact List.foldlRecOn (motive := MemAsWas h) _ _ ⟨m.off, m.cells⟩ fun _ hu r _ => hu.countRam r.1 r.2

theorem runDesign (m : MemAsWas h t) : MemAsWas h (runDesign t) := by
  unfold Machine.runDesign
  split
  · exact m
  · exact List.foldlRecOn (motive := MemAsWas h) _ _ ⟨m.off, m.cells⟩ fun _ hu r _ => hu.edgeStep _

theorem openGate (m : MemAsWas h t) (i j : Nat) : MemAsWas h (openGate t i j) := by
  unfold Machine.openGate
  have ran := m.runDesign
  generalize Machine.runDesign t = u at ran
  have opened (f : NetSt → NetSt) : MemAsWas h (u.onNet i j f) := ⟨ran.off, ran.cells⟩
  refine (opened _).wr ?_ 0
  simp only [Key.id, K.SCHED_Q_CFG_EN, K.CLK_NET_STAT_HALTED]
  omega

theorem runs (m : MemAsWas h t) (l : List Nat) : MemAsWas h (l.foldl runOne t) :=
  List.foldlRecOn (motive := MemAsWas h) l runOne m fun _ hu x _ => hu.openGate (x / 64) (x % 64)

theorem readByte (m : MemAsWas h t) (a : Nat) : t.mem.readByte a = h.mem.readByte a := by rw [Mem.readByte, m.cells, Mem.readByte]

end MemAsWas

section
variable {s : State} {c : Core} {rd rs1 : Reg} {v : Nat}

/-- CLKRUN opens what nothing refuses. -/
theorem clkrun_opens (r : DevReady s.hw c (wordA 0x16 5 rd rs1 0) [rd, rs1] false)
    (o : OperandIs s.hw c (s.hw.g c rs1).toNat 32 32 true v) : Ends (exec (.clkrun c rd rs1) s) fun t =>
      (∀ x ∈ namedNets s.hw v, runRefusal s.hw x = none → netHalted t.hw (x / 64) (x % 64) = false) ∧
      (∀ x ∈ namedNets s.hw v, (runRefusal s.hw x).isSome = true →
        netHalted t.hw (x / 64) (x % 64) = netHalted s.hw (x / 64) (x % 64)) ∧
      ((∀ x ∈ namedNets s.hw v, runRefusal s.hw x = none) → Answers s t c rd 0) ∧
      (qEn s.hw 4 = false → ∀ a, t.hw.mem.readByte a = s.hw.mem.readByte a) := by
  have named : namedNets (begun s.hw c) v = namedNets s.hw v := rfl
  have refusal (x : Nat) : runRefusal (begun s.hw c) x = runRefusal s.hw x := rfl
  let opens := (namedNets s.hw v).filter fun x => (runRefusal s.hw x).isNone
  let word := statusCount (clkrunCode s.hw (namedNets s.hw v)) ((namedNets s.hw v).filter fun x => (runRefusal s.hw x).isSome).length
  have act : clkrunAct c rd rs1 (begun s.hw c) = some (result (opens.foldl runOne (begun s.hw c)) c rd word) := by
    simp only [clkrunAct, gv_begun, withOperand_of_operandIs (operandIs_begun o), named, refusal]
    rfl
  have opened (x : Nat) (hx : x ∈ opens) := halted_runs_of_mem opens (begun s.hw c) hx
  have same (x : Nat) (hx : x ∉ opens) := halted_runs_of_not_mem opens (begun s.hw c) hx
  have mem (hq : qEn s.hw 4 = false) : MemAsWas s.hw (opens.foldl runOne (begun s.hw c)) := MemAsWas.runs (h := s.hw) (t := begun s.hw c) ⟨hq, rfl⟩ opens
  obtain ⟨hdev, hitem⟩ := issuing r.toReady
  have stands : CoreIs (Stands ((begun s.hw c).core c.val)) c.val (opens.foldl runOne (begun s.hw c)) :=
    CoreIs.runs (.stands_begun s.hw c) (steady_stands (by simp [begun, hdev]) (by rwa [item_begun])) opens
  rw [exec_clkrun]
  refine ⟨_, rfl, ?_⟩
  simp only [State.onHw, devOp_ready r act]
  have st : StaysIn (opens.foldl runOne (begun s.hw c)) (retire (result (opens.foldl runOne (begun s.hw c)) c rd word) c) c :=
    (StaysIn.result rd word).trans .retire
  have rd_halt {x : Nat} (hx : x ∈ namedNets s.hw v) := st.coreWork.rd _ (dieField_haltKey (lt_of_named hx))
  refine ⟨fun x hx hr => ?_, fun x hx hr => ?_, fun hall => ⟨?_, ?_⟩, fun hq a => ?_⟩
  · have : x ∈ opens := List.mem_filter.2 ⟨hx, by simp [hr]⟩
    rw [netHalted, Hw.bit, show Hw.rd _ (K.CLK_NET_STAT_HALTED (x / 64) (x % 64)) = 0 from (rd_halt hx).trans (opened x this)]
    rfl
  · have : x ∉ opens := fun h => by simp [Option.isNone_iff_eq_none.1 (List.mem_filter.1 h).2] at hr
    rw [netHalted, Hw.bit, show Hw.rd _ (K.CLK_NET_STAT_HALTED (x / 64) (x % 64)) = s.hw.rd (haltKey x) from
      (rd_halt hx).trans (same x this)]
    rfl
  · have none : (namedNets s.hw v).filterMap (runRefusal s.hw) = [] := List.filterMap_eq_nil_iff.2 hall
    have zero : (namedNets s.hw v).filter (fun x => (runRefusal s.hw x).isSome) = [] :=
      List.filter_eq_nil_iff.2 fun x hx => by simp [hall x hx]
    have hw : word = 0 := by simp [word, clkrunCode, none, zero, statusCount]
    rw [Hw.g_retire, hw]
    simp [result]
  · simp only [Hw.pc_retire, result, Hw.pc_advance, Hw.pc_setG, pc_of_stands stands.state, Hw.pc_begun]
  · rw [st.mem]
    exact (mem hq).readByte a

end

/-- Settles O27: CLKHALT closes gates or waits for them, its timeout counts those still running, and CLKRUN opens gates (R236). -/
theorem clockOps : Obligations.ClockOps := by
  unfold Obligations.ClockOps
  refine ⟨fun s c rd rs1 rs2 v r o _ => ⟨clkhalt_commands r o, clkhalt_waits r o⟩, fun s c rd nets hd hh hq _ => ?_,
    fun s c rd rs1 v r o => clkrun_opens r o⟩
  refine ⟨_, rfl, ?_⟩
  simp only [State.onHw, hd]
  exact finishDev_resumes hq hh hd (fun _ => rfl) rfl

end Sys2Proof.Machine
end

section
/-!
PROOF. WAIT and MSG (R237, R238).
-/
namespace Sys2Proof.Machine

/-! ### Registers of the error log while an error is posted -/

theorem csr_tryWrite (h : Hw) (w : HeldWrite) : (tryWrite h w).csr = h.csr := by
  unfold tryWrite
  split
  · rfl
  · rw [performWrite, csr_touchLines]

theorem csr_tryEnter (h : Hw) (q : Nat) (s : Src) (d : Desc) : (tryEnter h q s d).1.csr = h.csr := by
  unfold tryEnter
  split
  · rfl
  · split
    · rfl
    · split
      · rfl
      · split
        · rfl
        · rename_i t u e
          have taken : u.csr = h.csr := by
            unfold takeTicket at e
            simp only [Hw.draw] at e
            split at e
            · obtain ⟨-, rfl⟩ := Prod.mk.inj (Option.some.inj e)
              rfl
            · cases e
          exact (csr_tryWrite ..).trans taken

/-- A register of the error log's block keeps its value while an error is posted to Q4. -/
theorem rd_postError {k : Key} (hk : k.lo < 64 ∧ 0x1000000 ≤ k.addr) (h : Hw) (w a d t : Nat) : (postError h w a d t).rd k = h.rd k := by
  have count {j : Key} (hj : j.lo < 64 ∧ j.addr < 0x1000000) (u : Hw) : (u.cnt j).rd k = u.rd k :=
    Hw.rd_wr_ne u (by unfold Key.id; omega) _
  unfold postError
  have csr := csr_tryEnter h 4 (.event 4) (mkDesc 0 w a d t 0 0 0)
  generalize tryEnter h 4 (.event 4) (mkDesc 0 w a d t 0 0 0) = r at csr
  obtain ⟨u, r⟩ := r
  have same : u.rd k = h.rd k := Hw.rd_congr csr k
  cases r
  case ok => exact (rd_dispatch_of_offCrew u ⟨hk.1, .inr (by omega)⟩).trans same
  case full => exact (count (by decide) u).trans same
  case noticket => exact (count (by decide) u).trans same
  all_goals exact same

theorem rd_logEntry {k : Key} (hk : k.lo < 64 ∧ 0x1000000 ≤ k.addr) (h : Hw) (s m c a d : Nat) :
    (logEntry h s m c a d).rd k = (logRaw h s m c a d).rd k := by
  unfold logEntry
  simp only
  split
  · exact rd_postError hk ..
  · rfl

theorem total_logRaw (h : Hw) (s m c a d : Nat) :
    (logRaw h s m c a d).rd K.ERR_LOGHEAD_TOTAL = (h.rd K.ERR_LOGHEAD_TOTAL + 1) % 2 ^ 32 := Hw.rd_wr_self ..

theorem data_logRaw (h : Hw) (s m c a d : Nat) :
    (logRaw h s m c a d).rd (K.ERR_LOG_W_WORD (h.rd K.ERR_LOGHEAD_NEXT % 256) 3) = d % 2 ^ 64 := by
  unfold logRaw
  rw [Hw.rd_wr_ne _ (by simp [Key.id, K.ERR_LOG_W_WORD, K.ERR_LOGHEAD_TOTAL]; omega),
    Hw.rd_wr_ne _ (by simp [Key.id, K.ERR_LOG_W_WORD, K.ERR_LOGHEAD_NEXT]; omega), Hw.rd_wr_self]
  rfl

/-! ### WAIT -/

section
variable {s : State} {c : Core} {rd rs1 rs2 : Reg}

/-- WAIT where it may issue. -/
def waitAct (c : Core) (rd rs2 : Reg) (h : Hw) : Option Hw :=
  let a := gv h c rs2
  some (if rs2 = 0 then waitFor h c (.wait none false) rd
    else if a % 8 ≠ 0 then trapHere h c cMisalign a
    else if hubBase ≤ a ∧ a < hubBase + hubSize then waitFor h c (.wait (some (a / 64 * 64)) false) rd
    else trapHere h c cBuserr a)

theorem exec_waitOp : exec (.waitOp c rd rs1 rs2) s =
    doHw s fun h => devOp h c (wordA 0x17 0x20 rd rs1 rs2) [rd, rs1, rs2] false (waitAct c rd rs2) := rfl

theorem wait_begins {line : Option Nat} (r : DevReady s.hw c (wordA 0x17 0x20 rd rs1 rs2) [rd, rs1, rs2] false)
    (ha : waitAct c rd rs2 (begun s.hw c) = some (waitFor (begun s.hw c) c (.wait line false) rd)) :
    Ends (exec (.waitOp c rd rs1 rs2) s) fun t => Waits s t c rd (.wait line false) ∧ t.hw.mem = s.hw.mem := by
  rw [exec_waitOp]
  exact Ends.imp (devOp_waits r ha rfl) fun t ⟨hw, st⟩ => ⟨hw, st.mem⟩

/-! ### MSG -/

theorem exec_msgMsix : exec (.msgMsix c rd rs1 rs2) s =
    doHw s fun h => devOp h c (wordA 0x17 0x21 rd rs1 rs2) [rd, rs1, rs2] false fun h => some (msg h c rd rs1 rs2) := rfl

theorem exec_msgLog : exec (.msgLog c rd rs1 rs2) s =
    doHw s fun h => devOp h c (wordA 0x17 0x21 rd rs1 rs2) [rd, rs1, rs2] false fun h => some (msg h c rd rs1 rs2) := rfl

theorem StaysIn.pcie {h t : Hw} (st : StaysIn h t c) : t.pcie = h.pcie := by
  obtain ⟨-, -, -, -, -, -, -, -, -, -, e, -⟩ := st.rest
  exact e

theorem func_congr {g h : Hw} (e : g.pcie = h.pcie) (f : Nat) : func g f = func h f := by rw [func, e, func]

theorem func_onFunc_self (h : Hw) (f : Nat) (u : FuncSt → FuncSt) : func (onFunc h f u) f = u (func h f) := by simp [func, onFunc]

/-- A message of kind 0 without rs1 answers the outcome of raising its vector. -/
theorem msgMsix_ends {f v st : Nat} {u : Hw} (r : DevReady s.hw c (wordA 0x17 0x21 rd 0 rs2) [rd, 0, rs2] false)
    (hk : bits (s.hw.g c rs2).toNat 15 12 = 0) (hf : f = bits (s.hw.g c rs2).toNat 21 16) (hv : v = bits (s.hw.g c rs2).toNat 10 0)
    (hr : raiseMsix (begun s.hw c) f v = (st, u)) (hc : u.cores = (begun s.hw c).cores) :
    Ends (exec (.msgMsix c rd 0 rs2) s) fun t => Answers s t c rd st ∧ StaysIn u t.hw c := by
  have act : (fun h => some (msg h c rd 0 rs2)) (begun s.hw c) = some (status u c rd st) := by
    simp only [msg, gv_begun, hk, ← hf, ← hv, hr, ne_eq, not_true, if_false]
  rw [exec_msgMsix]
  exact devOp_answers r ((pc_congr hc c).trans (Hw.pc_begun ..)) act

/-- A message of kind 0 with rs1 traps. -/
theorem msgMsix_illegal (r : DevReady s.hw c (wordA 0x17 0x21 rd rs1 rs2) [rd, rs1, rs2] false) (h1 : rs1 ≠ 0)
    (hk : bits (s.hw.g c rs2).toNat 15 12 = 0) (ht : c = 0 → s.hw.rd (K.CORE_CAUSE_TACTIVE 0) = 0) :
    Ends (exec (.msgMsix c rd rs1 rs2) s) fun t => t.hw.rd (K.CORE_CAUSE_CODE c.val) = 0x01 ∧
      t.hw.rd (K.CORE_TVAL_TVAL c.val) = wordA 0x17 0x21 rd rs1 rs2 := by
  have act : (fun h => some (msg h c rd rs1 rs2)) (begun s.hw c) =
      some (trapHere (begun s.hw c) c cIllegal (wordA 0x17 0x21 rd rs1 rs2)) := by
    simp only [msg, gv_begun, hk, ne_eq, h1, not_false_eq_true, if_true]
  have small : wordA 0x17 0x21 rd rs1 rs2 < 2 ^ 64 := by
    have := rd.isLt
    have := rs1.isLt
    have := rs2.isLt
    unfold wordA
    omega
  rw [exec_msgMsix]
  refine ⟨_, rfl, ?_⟩
  simp only [State.onHw, devOp_ready (act := fun h => some (msg h c rd rs1 rs2)) r act, trapHere]
  refine ⟨?_, ?_⟩
  · rw [Hw.rd_retire _ _ (id_ne_halted_of_trapField (trapField_code _)), code_trap (h := begun s.hw c) ht]
    rfl
  · rw [Hw.rd_retire _ _ (id_ne_halted_of_trapField (trapField_tval _)), tval_trap (h := begun s.hw c) ht, BitVec.toNat_ofNat, Nat.mod_eq_of_lt small]

/-- A message of kind 1 writes the error log. -/
theorem msgLog_ends (r : DevReady s.hw c (wordA 0x17 0x21 rd rs1 rs2) [rd, rs1, rs2] false) (hk : bits (s.hw.g c rs2).toNat 15 12 = 1) :
    Ends (exec (.msgLog c rd rs1 rs2) s) fun t => t.hw.g c rd = 0 ∧
      t.hw.rd K.ERR_LOGHEAD_TOTAL = (s.hw.rd K.ERR_LOGHEAD_TOTAL + 1) % 2 ^ 32 ∧
      t.hw.rd (K.ERR_LOG_W_WORD (s.hw.rd K.ERR_LOGHEAD_NEXT % 256) 3) = (s.hw.g c rs1).toNat := by
  have act : (fun h => some (msg h c rd rs1 rs2)) (begun s.hw c) =
      some (status (logEntry (begun s.hw c) srcSoftware (coreCode c) 0x0900 0 (s.hw.g c rs1).toNat) c rd 0) := by
    simp only [msg, gv_begun, hk]
  rw [exec_msgLog]
  refine Ends.imp (devOp_status r act) fun t ⟨hg, _, st⟩ => ⟨by simpa using hg, ?_, ?_⟩
  · rw [st.fields _ (by decide), rd_logEntry (by decide), total_logRaw]
    rfl
  · have hlt : (s.hw.g c rs1).toNat < 2 ^ 64 := (s.hw.g c rs1).isLt
    have data := data_logRaw (begun s.hw c) srcSoftware (coreCode c) 0x0900 0 (s.hw.g c rs1).toNat
    rw [Nat.mod_eq_of_lt hlt] at data
    rw [st.fields _ (by simp [Key.id, K.ERR_LOG_W_WORD, K.ADIT_HALTED_CORES]; omega),
      rd_logEntry (by simp [K.ERR_LOG_W_WORD]; omega)]
    exact data

end

/-- Settles O28: WAIT waits and wakes, and MSG sends, traps or logs (R237, R238). -/
theorem waitAndMsg : Obligations.WaitAndMsg := by
  unfold Obligations.WaitAndMsg
  refine ⟨fun s c rd rs1 rs2 r => ⟨fun h0 => ?_, fun a h0 ha h8 hlo hhi => ?_⟩, fun s c rd line hit timeout hd hh hq => ⟨fun e => ?_, fun e et => ?_⟩,
    fun s c rd rs2 f v r hk hf hv => ⟨fun hno => ?_, fun hon hlt hmask => ?_, fun hon hlt hopen hup => ?_⟩,
    fun s c rd rs1 rs2 r h1 hk ht => msgMsix_illegal r h1 hk ht, fun s c rd rs1 rs2 r hk => msgLog_ends r hk⟩
  · exact wait_begins r (by simp [waitAct, h0])
  · exact wait_begins r (by simp [waitAct, h0, ← ha, h8, hlo, hhi])
  · subst e
    refine ⟨_, rfl, ?_⟩
    simp only [State.onHw, hd, if_true]
    exact finishDev_resumes hq hh hd (fun _ => rfl) rfl
  · subst e et
    refine ⟨_, rfl, ?_⟩
    simp only [State.onHw, hd, if_true, Bool.false_eq_true, if_false]
    exact finishDev_resumes hq hh hd (fun _ => rfl) rfl
  · have raised : raiseMsix (begun s.hw c) f v = (2, begun s.hw c) := by
      unfold raiseMsix
      rw [if_pos]
      rcases hno with e | e
      · have : funcOn (begun s.hw c) f = false := e
        simp [this]
      · have : msixCount (begun s.hw c) f ≤ v := e
        simp [this]
    exact Ends.imp (msgMsix_ends r hk hf hv raised rfl) fun t ⟨ha, st⟩ => ⟨ha, st.pcie⟩
  all_goals
    have on : funcOn (begun s.hw c) f = true := hon
    have few : ¬ msixCount (begun s.hw c) f ≤ v := Nat.not_le.2 hlt
  · have masked : vectorOpen (begun s.hw c) f v = false := hmask
    have raised : raiseMsix (begun s.hw c) f v = (1, onFunc (begun s.hw c) f fun x =>
        { x with pend := if x.pend.contains v then x.pend else x.pend ++ [v] }) := by
      simp [raiseMsix, on, few, masked]
    refine Ends.imp (msgMsix_ends r hk hf hv raised rfl) fun t ⟨ha, st⟩ => ⟨ha, ?_⟩
    rw [func_congr st.pcie, func_onFunc_self]
    simp only
    split
    · exact List.contains_iff_mem.1 ‹_›
    · simp
  · have opened : vectorOpen (begun s.hw c) f v = true := hopen
    have up : linkUp (begun s.hw c) = true := hup
    have raised : raiseMsix (begun s.hw c) f v =
        (0, { begun s.hw c with pcie := { (begun s.hw c).pcie with lastMsix := some (f, v) } }) := by
      simp [raiseMsix, on, few, opened, sendHost, up]
    exact Ends.imp (msgMsix_ends r hk hf hv raised rfl) fun t ⟨ha, st⟩ => ⟨ha, by rw [st.pcie]⟩

end Sys2Proof.Machine
end

section
/-!
PROOF. SystemOps does not hold as it is stated: FUSEPROG of a word that does not exist waits while a fuse operation of before is still
going on (R240), and does not answer then.
-/
namespace Sys2Proof.Machine

/-- The foreman stands at an instruction in its boot ROM, g1 holds 128, and a fuse operation has not ended. -/
def fusingState : State :=
  ⟨[], {}, { ({} : Hw) with
    cores := [(0, { ({} : CoreSt) with regs := [(1, 128)], pc := 0xFFFFFFFFFFF00000, fetching := true })]
    rst := { ({} : RstSt) with phase := .running, sensed := true, fuseOp := some (0, 0) } }⟩

theorem fusingState_ready : DevReady fusingState.hw 0 (wordA 0x17 0x32 0 1 0) [0, 1, 0] true where
  free := by decide
  quiet := by decide
  regs := by decide
  fetched := by rfl
  level := by decide
  lockRules := by decide
  loads := by decide
  stores := by decide

/-- Nothing is issued while the operation of before is going on. -/
theorem fuseprog_stalls : (match exec (.fuseprog 0 0 1 0) fusingState with
    | .next t => t.hw.pc 0 == fusingState.hw.pc 0
    | _ => false) = true := by decide

/-- Refutes O29: with a fuse operation still going on, FUSEPROG of word 128 is not issued and answers nothing. -/
theorem not_systemOps : ¬ Obligations.SystemOps := by
  unfold Obligations.SystemOps
  rintro ⟨-, -, program, -⟩
  obtain ⟨beyond, -⟩ := program fusingState 0 0 1 0 128 fusingState_ready (by decide)
  obtain ⟨t, ht, ⟨-, hpc⟩, -⟩ := beyond (by decide)
  have stalls := fuseprog_stalls
  rw [ht] at stalls
  have : fusingState.hw.pc 0 + 4 = fusingState.hw.pc 0 := hpc.symm.trans (by simpa using stalls)
  exact absurd this (by decide)

end Sys2Proof.Machine
end

section
/-!
PROOF. RegisterCommands does not hold as it is stated: its clause on the staged PLL fields speaks of every state, and in one whose
shadow of the multiplier stands at a value wider than its 9 bits the write does not leave the value written.
-/
namespace Sys2Proof.Machine

/-- Die 0 can be reached, and the shadow of its PLL 0's multiplier is wider than the field. -/
def wideShadow : State :=
  ⟨[], {}, { ({} : Hw) with
    csr := SMap.set [] (K.SEAM_STAT_STATE (hubSeam 0)).id 5 0
    shadow := SMap.set [] (K.CLK_PLL_MUL_M 0 0).id 512 24 }⟩

theorem wideShadow_gate : csrGate wideShadow.hw (.core 0) true (K.CLK_PLL_MUL_M 0 0).addr = .ok := by decide

/-- The multiplier 4 written over 512 keeps the old tenth bit, and the clamp leaves the upper limit. -/
theorem stWrite_wideShadow : (match exec (.stWrite (.core 0) (K.CLK_PLL_MUL_M 0 0).addr 8
      (4 * 2 ^ (K.CLK_PLL_MUL_M 0 0).lo + 1 * 2 ^ (K.CLK_PLL_MUL_D 0 0).lo)) wideShadow with
    | .next t => t.hw.sh (K.CLK_PLL_MUL_M 0 0) == 320
    | _ => false) = true := by decide

/-- Refutes O31: where the shadow of a PLL's multiplier is wider than its field, a write of 4 leaves 320 and enters the clamp log. -/
theorem not_registerCommands : ¬ Obligations.RegisterCommands := by
  unfold Obligations.RegisterCommands
  rintro ⟨-, -, -, staged, -⟩
  obtain ⟨t, ht, hm, -⟩ := staged wideShadow (.core 0) 0 0 4 1 wideShadow_gate (by decide) (by decide) (by decide) (by decide)
  have clamped := stWrite_wideShadow
  rw [show ((0 : Die).val) = 0 from rfl, show ((0 : Fin 16).val) = 0 from rfl] at ht hm
  rw [ht] at clamped
  have : (4 : Nat) = 320 := hm.symm.trans (by simpa using clamped)
  exact absurd this (by decide)

end Sys2Proof.Machine
end

section
/-!
PROOF. GalleryTraffic: requests at their memories, and responses on their way back.
-/
namespace Sys2Proof.Machine

/-- The core a master is, where it is one. -/
def coreOf : Master → Option Nat
  | .core c => some c.val
  | _ => none

section
variable {h : Hw} {i : Nat} {q : GReq}

/-- A write whose turn has come is not held back by a priority reservation. -/
theorem prioHolds_of_turn (hi : h.gal.reqs[i]? = some q) (hw : mustWait h i = false) (hk : q.kind = .write) :
    prioHolds h (coreOf q.m) q.addr q.size = false := by
  unfold mustWait at hw
  rw [hi] at hw
  simp only [Bool.or_eq_false_iff, hk] at hw
  obtain ⟨-, held⟩ := hw
  cases hm : q.m <;> rw [hm] at held <;> exact held

/-- A write to a code-byte memory stores its bytes and is answered. -/
theorem atMemory_write (hk : q.kind = .write) (ht : h.bit K.ERR_TEST_EN = false)
    (hp : prioHolds h (coreOf q.m) q.addr q.size = false) :
    (atMemory h q).mem = h.mem.writeN q.addr q.size q.data q.be ∧ (atMemory h q).gal.reqs = h.gal.reqs ∧
    (atMemory h q).gal.resps = h.gal.resps ++ [⟨q.id, q.m, .write, .ok, 0, q.addr, q.tag⟩] := by
  have hs : storeBytes h q.m q.addr q.size q.data q.be =
      touchLines { h with mem := h.mem.writeN q.addr q.size q.data q.be }
        (coreOf q.m) q.addr q.size := by
    have hwho : storeBytes h q.m q.addr q.size q.data q.be = hubWrite h (coreOf q.m) q.addr q.size q.data q.be := by
      cases hm : q.m <;> simp [storeBytes, testHits, ht, coreOf]
    rw [hwho, hubWrite_eq hp]
  have hg := (kept_touchLines { h with mem := h.mem.writeN q.addr q.size q.data q.be }
    (coreOf q.m) q.addr q.size).gal
  unfold atMemory answer
  rw [hs]
  simp only [hk, reduceCtorEq, if_false, ne_eq, not_true_eq_false, and_false, respOf, mem_touchLines, hg]
  exact ⟨trivial, trivial, trivial⟩

/-- A read of clean bytes answers them and leaves the memory. -/
theorem atMemory_read (hk : q.kind = .read) (hc : (h.mem.seen q.addr q.size).all (fun x => x.2 == .clean) = true) :
    (atMemory h q).mem = h.mem ∧ (atMemory h q).gal.reqs = h.gal.reqs ∧
    (atMemory h q).gal.resps = h.gal.resps ++ [⟨q.id, q.m, .read, .ok, h.mem.readN q.addr q.size, q.addr, q.tag⟩] := by
  unfold atMemory answer
  rw [memRead_of_clean hc]
  simp [hk, respOf]

/-- A request for hub SRAM that may be performed reaches its memory. -/
theorem deliver_hub (hi : h.gal.reqs[i]? = some q) (hw : mustWait h i = false)
    (hr : mayReach h q.m (q.kind != .read) q.addr = true) (hreg : regionOf q.addr = .hub)
    (hp : populated h q.addr q.size = true) : deliver h i = atMemory (dropReq h i) q := by
  unfold deliver
  simp [hi, hw, hr, hreg, hp]

/-- A core's write to a claimed area that may be performed reaches the stacked SRAM. -/
theorem ringAccess_core {n : Nat} {c : Core} (hi : h.gal.reqs[i]? = some q) (hm : q.m = .core c) (hk : q.kind = .write)
    (hreg : regionOf q.addr = .stack n) (hw : mustWait h i = false) (ha : inA3 h = false) (hd : dieReachable h n = true)
    (hp : populated h q.addr q.size = true) (ht : touchesRing h n q.addr q.size = true)
    (hs : slotHeld h n (slotAt (q.addr - stackBase n)) true = false) (hr : mayReach h q.m true q.addr = true) :
    ringAccess h i = atMemory (dropReq h i) q := by
  unfold ringAccess
  have hb : (q.kind != GKind.read) = true := by rw [hk]; rfl
  have hring : mayWriteRing h n q.m = true := by rw [hm]; rfl
  simp [hi, hreg, hw, ha, hd, hp, ht, hb, hs, hr, hring]

end

/-- Settles O32: each request is followed to its memory, and a response to its core. -/
theorem galleryTraffic : Obligations.GalleryTraffic := by
  unfold Obligations.GalleryTraffic
  refine ⟨fun s i q hi hw hr hreg hp => ⟨fun hk ht => ⟨_, rfl, ?_⟩, fun hk hc => ⟨_, rfl, ?_⟩⟩, fun s i r c hi hm => ⟨_, rfl, ?_⟩,
    fun s i n q c hi hm hk hreg hw ha hd hp ht hs hte hr => ⟨_, rfl, ?_⟩⟩
  · simp only [State.onHw, deliver_hub hi hw hr hreg hp]
    exact atMemory_write (h := dropReq s.hw i) hk ht (prioHolds_of_turn (h := s.hw) hi hw hk)
  · simp only [State.onHw, deliver_hub hi hw hr hreg hp]
    exact atMemory_read (h := dropReq s.hw i) hk hc
  · simp [State.onHw, responseArrives, hi, hm]
  · simp only [State.onHw, ringAccess_core hi hm hk hreg hw ha hd hp ht hs hr]
    obtain ⟨hmem, -, hresp⟩ := atMemory_write (h := dropReq s.hw i) hk hte (prioHolds_of_turn (h := s.hw) hi hw hk)
    exact ⟨hmem, hresp⟩

end Sys2Proof.Machine
end

section
/-!
PROOF. MeshMoves: a flit enters a buffer, leaves it through the output that serves it, and its route (R16 to R19).
-/
namespace Sys2Proof.Machine

/-! ### Routes -/

theorem routeOut_eq_zero_iff : ∀ r dest : Fin 16, routeOut r.val dest.val = 0 ↔ r = dest := by decide
theorem hops_le_six : ∀ r dest : Fin 16, hops r.val dest.val ≤ 6 := by decide
theorem hops_le_four_of_central : ∀ r dest : Fin 16, central r.val = true → hops r.val dest.val ≤ 4 := by decide
theorem hops_neighbour : ∀ r dest : Fin 16, r ≠ dest →
    hops (neighbour r.val (routeOut r.val dest.val)) dest.val + 1 = hops r.val dest.val := by decide
theorem neighbour_ne : ∀ r dest : Fin 16, r ≠ dest → neighbour r.val (routeOut r.val dest.val) ≠ r.val := by decide
theorem arriveAt_lt (out : Nat) : arriveAt out < 5 := by
  unfold arriveAt
  split <;> decide

/-- Buffers of different routers have different keys. -/
theorem bufKey_ne {r r' inp inp' cv : Nat} (hr : r' ≠ r) (hi : inp < 5) (hi' : inp' < 5) : bufKey r' inp' cv ≠ bufKey r inp cv := by
  unfold bufKey
  omega

/-! ### A flit moves -/

section
variable {x : Mesh} {r inp cv : Nat} {f : Flit} {rest : List Flit}

/-- At its destination a flit leaves the mesh. -/
theorem moveFlit_here (h0 : routeOut r f.dest.val = 0) :
    SMap.get (moveFlit x r inp cv f rest).bufs (bufKey r inp cv) [] = rest ∧
    (moveFlit x r inp cv f rest).out = (r, f) :: x.out := by
  unfold moveFlit
  simp only [h0, if_true]
  split <;> exact ⟨SMap.get_set_self .., rfl⟩

/-- Elsewhere it goes to the end of the neighbour's buffer and uses a credit of it. -/
theorem moveFlit_on (h0 : routeOut r f.dest.val ≠ 0) {next : Nat}
    (hn : next = bufKey (neighbour r (routeOut r f.dest.val)) (arriveAt (routeOut r f.dest.val)) cv) (hne : next ≠ bufKey r inp cv) :
    SMap.get (moveFlit x r inp cv f rest).bufs (bufKey r inp cv) [] = rest ∧
    SMap.get (moveFlit x r inp cv f rest).bufs next [] = SMap.get x.bufs next [] ++ [f] ∧
    SMap.get (moveFlit x r inp cv f rest).used next 0 = SMap.get x.used next 0 + 1 ∧
    (moveFlit x r inp cv f rest).out = x.out := by
  unfold moveFlit
  simp only [h0, if_false, ← hn]
  split <;> simp [SMap.get_set_self, SMap.get_set_ne, hne, hne.symm]

end

/-- A flit that may enter a buffer stands at its end. -/
theorem flitForward_inject {h : Hw} {r cv : Nat} {f : Flit} (hcv : cv = flitPair f) (ha : attaches r f = true)
    (hl : (SMap.get h.gal.mesh.bufs (bufKey r 0 cv) []).length < Config.flitDepth + 1) :
    SMap.get (flitForward h r 0 cv (some f)).gal.mesh.bufs (bufKey r 0 cv) [] = SMap.get h.gal.mesh.bufs (bufKey r 0 cv) [] ++ [f] ∧
    (flitForward h r 0 cv (some f)).csr = h.csr ∧ (flitForward h r 0 cv (some f)).mem = h.mem := by
  unfold flitForward
  dsimp only
  rw [if_pos ⟨rfl, hcv, ha, hl⟩]
  exact ⟨SMap.get_set_self .., rfl, rfl⟩

/-- At another input or on another pair nothing enters. -/
theorem flitForward_refused {h : Hw} {r inp cv : Nat} {f : Flit} (hno : inp ≠ 0 ∨ cv ≠ flitPair f) :
    flitForward h r inp cv (some f) = h :=
  if_neg fun ⟨h0, hcv, _⟩ => hno.elim (fun hi => hi h0) (fun hc => hc hcv)

/-- A head flit that its output serves moves. -/
theorem flitForward_served {h : Hw} {r inp cv : Nat} {f : Flit} {rest : List Flit}
    (hb : SMap.get h.gal.mesh.bufs (bufKey r inp cv) [] = f :: rest)
    (hserv : served h.gal.mesh r (routeOut r f.dest.val) = some (inp * 6 + cv)) :
    flitForward h r inp cv none = onMesh h fun x => moveFlit x r inp cv f rest := by
  simp only [flitForward, hb, hserv, if_true]

/-- Settles O33: injection at the local input, the move through an output, and the routes of the sixteen routers. -/
theorem meshMoves : Obligations.MeshMoves := by
  unfold Obligations.MeshMoves
  refine ⟨fun s r inp cv f => ⟨fun h0 hcv ha hl => ⟨_, rfl, ?_⟩, fun hno => ?_⟩, fun s r inp cv f rest out hb ho hserv => ⟨_, rfl, ?_⟩,
    fun r dest => ⟨routeOut_eq_zero_iff r dest, hops_le_six r dest, hops_le_four_of_central r dest, hops_neighbour r dest⟩⟩
  · subst h0
    exact flitForward_inject hcv ha hl
  · have same := flitForward_refused (h := s.hw) (r := r.val) (hno.imp_left fun hi h0 => hi (Fin.ext h0))
    exact congrArg (fun h => Host.Outcome.next { s with hw := h }) same
  · subst ho
    simp only [State.onHw, flitForward_served hb hserv, onMesh]
    by_cases hd : r = f.dest
    · obtain ⟨hbuf, hout⟩ := moveFlit_here (x := s.hw.gal.mesh) (inp := inp.val) (cv := cv.val) (rest := rest)
        ((routeOut_eq_zero_iff r f.dest).2 hd)
      exact ⟨hbuf, fun _ => hout, fun hn => absurd hd.symm hn, trivial, trivial⟩
    · obtain ⟨hbuf, hnext, hused, hout⟩ := moveFlit_on (x := s.hw.gal.mesh) (inp := inp.val) (cv := cv.val) (rest := rest)
        (fun h0 => hd ((routeOut_eq_zero_iff r f.dest).1 h0)) rfl
        (bufKey_ne (neighbour_ne r f.dest hd) inp.isLt (arriveAt_lt _))
      exact ⟨hbuf, fun hn => absurd hn.symm hd, fun _ => ⟨hnext, hused, hout⟩, trivial, trivial⟩

end Sys2Proof.Machine
end

section
/-!
PROOF. FabricPortOutbound: the tags of a port, what it sends to the Gallery and to the host, and what comes back (R28 to R32, R252).
-/
namespace Sys2Proof.Machine

/-! ### The record of a port -/

section
variable {h t : Hw} {n p : Nat} {x : FPort}

theorem fport_congr (hd : t.dies = h.dies) (n p : Nat) : fport t n p = fport h n p := by
  rw [fport, die_congr hd, fport]

@[simp] theorem fport_setFport_self : fport (setFport h n p x) n p = x := by
  have hd : (setFport h n p x).die n = (h.onDie n fun d => { d with fports := SMap.set d.fports p x {} }).die n := rfl
  rw [fport, hd, Hw.die_onDie_self]
  exact SMap.get_set_self ..

@[simp] theorem setFport_gal : (setFport h n p x).gal = h.gal := rfl
@[simp] theorem setFport_pcie : (setFport h n p x).pcie = h.pcie := rfl
@[simp] theorem setFport_sched : (setFport h n p x).sched = h.sched := rfl

/-- The record of a port has two fields of its STAT register; every other register stays. -/
theorem rd_setFport {k : Key} (hi : k.id ≠ (K.FPORT_STAT_INB n p).id) (ho : k.id ≠ (K.FPORT_STAT_OUTB n p).id) :
    (setFport h n p x).rd k = h.rd k := by
  unfold setFport
  rw [Hw.rd_wr_ne _ ho, Hw.rd_wr_ne _ hi, Hw.rd_onDie]

@[simp] theorem rd_func_setFport : (setFport h n p x).rd (K.FPORT_CTL_FUNC n p) = h.rd (K.FPORT_CTL_FUNC n p) :=
  rd_setFport (by simp only [Key.id, K.FPORT_CTL_FUNC, K.FPORT_STAT_INB]; omega)
    (by simp only [Key.id, K.FPORT_CTL_FUNC, K.FPORT_STAT_OUTB]; omega)

end

/-! ### Tags -/

/-- The number taken stands in no rising list. -/
theorem nthFree_not_mem {l : List Nat} (hl : l.Pairwise (· < ·)) (n : Nat) : nthFree l n ∉ l := by
  induction l generalizing n with
  | nil => simp
  | cons t r ih =>
    obtain ⟨ht, hr⟩ := List.pairwise_cons.1 hl
    unfold nthFree
    split
    next hle =>
      have hge := le_nthFree r (n + 1)
      simp only [List.mem_cons, not_or]
      exact ⟨by omega, ih hr (n + 1)⟩
    next hlt =>
      simp only [List.mem_cons, not_or]
      exact ⟨by omega, fun hm => by have := ht n hm; omega⟩

theorem nthFree_le (l : List Nat) (n : Nat) : nthFree l n ≤ n + l.length := by
  induction l generalizing n with
  | nil => simp [nthFree]
  | cons t r ih =>
    unfold nthFree
    have := ih (n + 1)
    split <;> simp only [List.length_cons] <;> omega

/-- The tags a port holds, rising. -/
def usedTags (x : FPort) : List Nat := (List.range 256).filter fun t => x.outTags.any fun e => e.1 == t

theorem mem_usedTags {x : FPort} {t : Nat} : t ∈ usedTags x ↔ t < 256 ∧ ∃ e ∈ x.outTags, e.1 = t := by
  simp [usedTags]

theorem usedTags_length (x : FPort) : (usedTags x).length ≤ x.outTags.length := by
  have hn : (usedTags x).Nodup := List.nodup_range.filter _
  have hs : usedTags x ⊆ x.outTags.map (·.1) := fun t ht => by
    obtain ⟨-, e, he, rfl⟩ := mem_usedTags.1 ht
    exact List.mem_map_of_mem he
  simpa using (List.subperm_of_subset hn hs).length_le

/-- A port with a tag to spare takes a free one. -/
theorem takeTag_eq {h : Hw} {n p : Nat} (hl : (fport h n p).outTags.length < 256) (id : Nat) :
    ∃ tag, tag < 256 ∧ (∀ e ∈ (fport h n p).outTags, e.1 ≠ tag) ∧
      takeTag h n p id = (tag, setFport h.draw.2 n p { fport h n p with outTags := (fport h n p).outTags ++ [(tag, id)] }) := by
  have hu := (usedTags_length (fport h n p)).trans_lt hl
  have hlt : nthFree (usedTags (fport h n p)) (h.draw.1 % (256 - (usedTags (fport h n p)).length)) < 256 := by
    have := nthFree_le (usedTags (fport h n p)) (h.draw.1 % (256 - (usedTags (fport h n p)).length))
    have := Nat.mod_lt h.draw.1 (y := 256 - (usedTags (fport h n p)).length) (by omega)
    omega
  refine ⟨_, hlt, fun e he heq => ?_, rfl⟩
  exact nthFree_not_mem (List.pairwise_lt_range.filter _) _ (mem_usedTags.2 ⟨hlt, e, he, heq⟩)

section
variable {h : Hw} {n p tag : Nat}

@[simp] theorem fport_freeTag_self : fport (freeTag h n p tag) n p =
    { fport h n p with outTags := (fport h n p).outTags.filter fun e => e.1 != tag } := fport_setFport_self
@[simp] theorem freeTag_gal : (freeTag h n p tag).gal = h.gal := rfl
@[simp] theorem freeTag_pcie : (freeTag h n p tag).pcie = h.pcie := rfl
@[simp] theorem freeTag_sched : (freeTag h n p tag).sched = h.sched := rfl

/-- No entry of a list without a tag has it. -/
theorem tag_ne_of_mem_filter {α : Type} {l : List (Nat × α)} : ∀ e ∈ l.filter (fun e => e.1 != tag), e.1 ≠ tag := by
  simp

end

/-! ### What goes to the host -/

/-- What the end of a posted write leaves of a port. -/
structure PortKept (x y : FPort) : Prop where
  waiting : y.waiting = x.waiting
  outTags : y.outTags = x.outTags
  inTags : y.inTags = x.inTags
  nextIn : y.nextIn = x.nextIn
  lastOut : y.lastOut = x.lastOut

theorem PortKept.refl (x : FPort) : PortKept x x := ⟨rfl, rfl, rfl, rfl, rfl⟩

section
variable {h : Hw} {q : GReq}

/-- With the link up a write to host memory goes out. -/
theorem sendHost_write (hl : linkUp h = true) (f a size data be : Nat) :
    (sendHost h (.write f a size data be)).pcie.lastWrite = some (a, size, data, be) := by
  simp [sendHost, hl]

@[simp] theorem sendHost_gal (x : HostMsg) : (sendHost h x).gal = h.gal := by
  unfold sendHost
  split
  · rfl
  · cases x <;> rfl
@[simp] theorem sendHost_dies (x : HostMsg) : (sendHost h x).dies = h.dies := by
  unfold sendHost
  split
  · rfl
  · cases x <;> rfl

/-- An OK answer of a request that is not posted changes the responses alone. -/
theorem answer_ok (hk : q.kind ≠ .pwrite) (data : Nat) :
    answer h q .ok data = { h with gal := { h.gal with resps := h.gal.resps ++ [respOf q .ok data] } } := by
  unfold answer
  cases hq : q.kind <;> simp_all

/-- A posted write performed leaves what a port has waiting and its tags. -/
theorem portKept_donePosted (n p : Nat) : PortKept (fport h n p) (fport (donePosted h q) n p) := by
  unfold donePosted
  split
  next d r hm hk =>
    unfold fport
    by_cases hn : n = d.val
    · subst hn
      rw [Hw.die_onDie_self]
      by_cases hp : p = r.val
      · subst hp
        simp only [SMap.get_set_self]
        exact ⟨rfl, rfl, rfl, rfl, rfl⟩
      · simp only [SMap.get_set_ne _ hp]
        exact .refl _
    · rw [Hw.die_onDie_ne h hn]
      exact .refl _
  · exact .refl _

@[simp] theorem donePosted_gal : (donePosted h q).gal = h.gal := by
  unfold donePosted
  split <;> rfl
@[simp] theorem donePosted_pcie : (donePosted h q).pcie = h.pcie := by
  unfold donePosted
  split <;> rfl

end

/-! ### What the commands do -/

section
variable {h : Hw}

/-- What stands once an outbound transaction has its number and its tag. -/
structure TagTaken (h g : Hw) (n p tag : Nat) : Prop where
  lt : tag < 256
  free : ∀ e ∈ (fport h n p).outTags, e.1 ≠ tag
  port : fport g n p = { fport h n p with outTags := (fport h n p).outTags ++ [(tag, h.gal.nextId)] }
  gal : g.gal = { h.gal with nextId := h.gal.nextId + 1 }
  pcie : g.pcie = h.pcie
  func : g.rd (K.FPORT_CTL_FUNC n p) = h.rd (K.FPORT_CTL_FUNC n p)
  link : linkUp g = linkUp h

theorem tagTaken {n p : Nat} (hl : (fport h n p).outTags.length < 256) :
    ∃ tag g, takeTag (takeId h).2 n p (takeId h).1 = (tag, g) ∧ TagTaken h g n p tag := by
  obtain ⟨tag, lt, free, he⟩ := takeTag_eq (h := (takeId h).2) (n := n) (p := p) hl (takeId h).1
  have hup : ∀ x, linkUp (setFport (takeId h).2.draw.2 n p x) = linkUp h := fun x => by
    unfold linkUp Hw.bit
    rw [rd_setFport (by simp only [Key.id, K.PCIE_STAT_UP, K.FPORT_STAT_INB]; omega)
      (by simp only [Key.id, K.PCIE_STAT_UP, K.FPORT_STAT_OUTB]; omega)]
    rfl
  exact ⟨tag, _, he, lt, free, fport_setFport_self, rfl, rfl, rd_func_setFport, hup _⟩

theorem tag_to_spare {n p : Nat} (hr : portReady h n p = true) : (fport h n p).outTags.length < 256 := by
  unfold portReady at hr
  simp only [Bool.and_eq_true, decide_eq_true_eq] at hr
  exact hr.1.1

variable {d : Die} {p : Port} {op : PortOp} {hostSpace : Bool} {addr beats data be a size dt en : Nat}

/-- The request an outbound transaction makes. -/
def portReq (h : Hw) (d : Die) (p : Port) (op : PortOp) (a size dt en tag : Nat) : GReq :=
  ⟨h.gal.nextId, .fport d p, portKind op, a, size, dt, en, tag⟩

/-- What becomes of a request that has its tag: a posted write waits, the others go to the Gallery or to the host. -/
def portIssue (g : Hw) (d : Die) (p : Port) (op : PortOp) (hostSpace : Bool) (q : GReq) : Hw :=
  if op = .pwrite then
    setFport g d.val p.val { fport g d.val p.val with
      waiting := (fport g d.val p.val).waiting ++ [{ q with tag := q.tag + (if hostSpace then 256 else 0) }]
      posted := (fport g d.val p.val).posted ++ [q.id] }
  else if hostSpace then
    if op = .read then (hostBound g (g.rd (K.FPORT_CTL_FUNC d.val p.val)) (some q)).2
    else answer (sendHost g (.write (g.rd (K.FPORT_CTL_FUNC d.val p.val)) q.addr q.size q.data q.be)) q .ok 0
  else { g with gal := { g.gal with reqs := g.gal.reqs ++ [q] } }

/-- A request that the port lets through takes its tag and is issued. -/
theorem portRequest_eq (hd : portDesign h d.val p.val = true) (hr : portReady h d.val p.val = true) (hb : beatsOk addr beats = true)
    (ha : portAccess op hostSpace addr beats data be = (a, size, dt, en)) (hc : portCheck h d p op hostSpace a = .ok)
    (hl : hostLineHeld h d.val p.val op hostSpace addr (64 * beats) = false) (hf : hostSpace = true → op = .read → hostFull h = false) :
    ∃ tag g, TagTaken h g d.val p.val tag ∧
      portRequest h d p op hostSpace addr beats data be = portIssue g d p op hostSpace (portReq h d p op a size dt en tag) := by
  obtain ⟨tag, g, he, taken⟩ := tagTaken (tag_to_spare hr)
  refine ⟨tag, g, taken, ?_⟩
  have hfull : (hostSpace && op == .read && hostFull h) = false := by
    cases hs : hostSpace
    · rfl
    · cases ho : op with
      | read => exact hf hs ho
      | write => rfl
      | pwrite => rfl
  unfold portRequest
  simp only [hd, hr, hl, hfull, Bool.not_true, Bool.or_self, Bool.false_eq_true, if_false, hb, ha, hc, if_true]
  have hid : (takeId h).1 = h.gal.nextId := rfl
  rw [hid] at he
  simp only [hid, he]
  rfl

section
variable {g t : Hw} {tag : Nat} {q : GReq} (taken : TagTaken h g d.val p.val tag)
include taken

/-- What leaves the dies as they are leaves the tag taken. -/
theorem outTags_of_taken (ht : t.dies = g.dies) :
    (fport t d.val p.val).outTags = (fport h d.val p.val).outTags ++ [(tag, h.gal.nextId)] := by
  rw [fport_congr ht, taken.port]

/-- A posted write stands among those of the port, and nothing goes to the Gallery yet. -/
theorem portIssue_pwrite (hq : q = portReq h d p .pwrite a size dt en tag) :
    let t := portIssue g d p .pwrite hostSpace q
    (fport t d.val p.val).outTags = (fport h d.val p.val).outTags ++ [(tag, q.id)] ∧
    (fport t d.val p.val).waiting = (fport h d.val p.val).waiting ++ [{ q with tag := tag + (if hostSpace then 256 else 0) }] ∧
    (fport t d.val p.val).posted = (fport h d.val p.val).posted ++ [q.id] ∧ t.gal.reqs = h.gal.reqs := by
  subst hq
  dsimp only [portIssue, if_true]
  simp only [if_true, fport_setFport_self, taken.port, setFport_gal, taken.gal]
  exact ⟨rfl, rfl, trivial, trivial⟩

/-- A request to the hub map goes to the Gallery. -/
theorem portIssue_hub (hop : op ≠ .pwrite) (hq : q = portReq h d p op a size dt en tag) :
    let t := portIssue g d p op false q
    (fport t d.val p.val).outTags = (fport h d.val p.val).outTags ++ [(tag, q.id)] ∧ t.gal.reqs = h.gal.reqs ++ [q] := by
  subst hq
  unfold portIssue
  rw [if_neg hop, if_neg Bool.false_ne_true, taken.gal]
  exact ⟨outTags_of_taken taken rfl, rfl⟩

/-- A read of host space joins the host-bound requests. -/
theorem portIssue_hostRead (hq : q = portReq h d p .read a size dt en tag) :
    let t := portIssue g d p .read true q
    (fport t d.val p.val).outTags = (fport h d.val p.val).outTags ++ [(tag, q.id)] ∧
    t.pcie.reqs = h.pcie.reqs ++ [⟨q.id + 1, h.rd (K.FPORT_CTL_FUNC d.val p.val), some q⟩] := by
  subst hq
  have hi : portIssue g d p .read true (portReq h d p .read a size dt en tag) =
      (hostBound g (g.rd (K.FPORT_CTL_FUNC d.val p.val)) (some (portReq h d p .read a size dt en tag))).2 := rfl
  rw [hi, taken.func]
  refine ⟨outTags_of_taken taken rfl, ?_⟩
  simp only [hostBound, takeId, taken.pcie, taken.gal]
  rfl

/-- A write to host space goes out and is answered. -/
theorem portIssue_hostWrite (hq : q = portReq h d p .write a size dt en tag) :
    let t := portIssue g d p .write true q
    (fport t d.val p.val).outTags = (fport h d.val p.val).outTags ++ [(tag, q.id)] ∧
    t.gal.resps = h.gal.resps ++ [⟨q.id, .fport d p, .write, .ok, 0, a, tag⟩] ∧
    (linkUp h = true → t.pcie.lastWrite = some (a, size, dt, en)) := by
  subst hq
  have hi : portIssue g d p .write true (portReq h d p .write a size dt en tag) =
      answer (sendHost g (.write (g.rd (K.FPORT_CTL_FUNC d.val p.val)) a size dt en)) (portReq h d p .write a size dt en tag) .ok 0 := rfl
  rw [hi, answer_ok (by simp [portReq, portKind])]
  refine ⟨outTags_of_taken taken (sendHost_dies _), ?_, fun hl => ?_⟩
  · simp only [sendHost_gal, taken.gal]
    rfl
  · exact sendHost_write (taken.link.trans hl) ..

end

/-- A FLUSH waits for what the port has posted. -/
theorem portFlush_eq (hd : portDesign h d.val p.val = true) (hr : portReady h d.val p.val = true) :
    ∃ tag, (fport (portFlush h d.val p.val) d.val p.val).flushes =
        (fport h d.val p.val).flushes ++ [(tag, (fport h d.val p.val).posted)] ∧
      ∃ id, (fport (portFlush h d.val p.val) d.val p.val).outTags = (fport h d.val p.val).outTags ++ [(tag, id)] := by
  obtain ⟨tag, g, he, taken⟩ := tagTaken (tag_to_spare hr)
  have hid : (takeId h).1 = h.gal.nextId := rfl
  rw [hid] at he
  unfold portFlush
  simp only [hd, hr, Bool.not_true, Bool.or_self, Bool.false_eq_true, if_false, hid, he, fport_setFport_self, taken.port]
  exact ⟨tag, rfl, _, rfl⟩

/-- The port after the hub has taken its oldest posted write. -/
def acceptedBy (h : Hw) (n p tag : Nat) (rest : List GReq) : Hw :=
  freeTag (setFport h n p { fport h n p with waiting := rest }) n p tag

theorem fport_acceptedBy (n r tag : Nat) (rest : List GReq) : fport (acceptedBy h n r tag rest) n r =
    { fport h n r with waiting := rest, outTags := (fport h n r).outTags.filter fun e => e.1 != tag } := by
  simp only [acceptedBy, fport_freeTag_self, fport_setFport_self]

section
variable {n m tag : Nat} {r : GReq} {rest : List GReq}

/-- A write to the hub map that is accepted stands on the Gallery; a doorbell of a queue of the port uses a credit of its copy. -/
theorem acceptPosted_hub (hw : (fport h n m).waiting = r :: rest) (ht : r.tag % 256 = tag) (hlt : r.tag < 256)
    (hc : (isDoorbell r.addr && owns h r.m (doorbellQueue r.addr)) = true → creditCopy h n m (doorbellQueue r.addr) ≠ 0) :
    let b := isDoorbell r.addr && owns h r.m (doorbellQueue r.addr)
    let g := acceptedBy h n m tag rest
    let c := if b then setCopy g n m (doorbellQueue r.addr) (creditCopy h n m (doorbellQueue r.addr) - 1) else g
    acceptPosted h n m tag = { c with gal := { c.gal with reqs := c.gal.reqs ++ [r] } } := by
  rw [Nat.mod_eq_of_lt hlt] at ht
  subst ht
  unfold acceptPosted
  simp only [hw, Nat.mod_eq_of_lt hlt, bne_self_eq_false, Bool.false_eq_true, if_false, hlt, Nat.not_le.2 hlt, decide_true,
    decide_false, Bool.and_true, Bool.false_and]
  rw [if_neg (by simpa using hc)]
  rfl

/-- A doorbell without credit waits. -/
theorem acceptPosted_noCredit (hw : (fport h n m).waiting = r :: rest) (hlt : r.tag < 256)
    (hb : (isDoorbell r.addr && owns h r.m (doorbellQueue r.addr)) = true)
    (hc : creditCopy h n m (doorbellQueue r.addr) = 0) : acceptPosted h n m tag = h := by
  unfold acceptPosted
  simp only [hw, hlt, decide_true, Bool.and_true, hb, hc, beq_self_eq_true, Bool.and_self, if_true, ite_self]

/-- A write to host space that is the oldest of its port goes out. -/
theorem acceptPosted_host (hw : (fport h n m).waiting = r :: rest) (ht : r.tag % 256 = tag) (hge : 256 ≤ r.tag)
    (ho : ∀ id ∈ (fport h n m).posted, r.id ≤ id) :
    ∃ f, acceptPosted h n m tag = donePosted (sendHost (acceptedBy h n m tag rest) (.write f r.addr r.size r.data r.be)) r := by
  subst ht
  have old : (fport h n m).posted.any (fun x => decide (x < r.id)) = false := by
    simpa using ho
  unfold acceptPosted
  simp only [hw, bne_self_eq_false, Bool.false_eq_true, if_false, hge, Nat.not_lt.2 hge, decide_true,
    decide_false, Bool.and_false, Bool.false_and, old, if_true]
  exact ⟨_, rfl⟩

theorem linkUp_acceptedBy : linkUp (acceptedBy h n m tag rest) = linkUp h := by
  unfold linkUp Hw.bit acceptedBy freeTag
  dsimp only
  rw [rd_setFport (by simp only [Key.id, K.PCIE_STAT_UP, K.FPORT_STAT_INB]; omega)
      (by simp only [Key.id, K.PCIE_STAT_UP, K.FPORT_STAT_OUTB]; omega),
    rd_setFport (by simp only [Key.id, K.PCIE_STAT_UP, K.FPORT_STAT_INB]; omega)
      (by simp only [Key.id, K.PCIE_STAT_UP, K.FPORT_STAT_OUTB]; omega)]

/-- A response that has arrived reaches the design and frees its tag. -/
theorem portDeliver_eq {e : Nat × Nat} {x : GResp} (hd : portDesign h n m = true)
    (hf : ((fport h n m).outTags.find? fun e => e.1 == tag) = some e)
    (hr : (h.gal.arrived.find? fun x => x.id == e.2) = some x) :
    fport (portDeliver h n m tag) n m = { fport h n m with
      outTags := (fport h n m).outTags.filter fun e => e.1 != tag, lastOut := some (tag, x.status, x.data) } := by
  unfold portDeliver takeArrived
  simp only [hd, hf, hr, Bool.not_true, Bool.false_eq_true, if_false, fport_freeTag_self, fport_setFport_self]
  rfl

/-- A FLUSH that waits for nothing completes and frees its tag. -/
theorem flushDone_eq {l : Nat} (hf : ((fport h n m).flushes.find? fun e => e.1 == tag) = some (l, [])) :
    fport (flushDone h n m tag) n m = { fport h n m with
      flushes := (fport h n m).flushes.filter fun e => e.1 != tag
      outTags := (fport h n m).outTags.filter fun e => e.1 != tag
      lastOut := some (tag, .ok, 0) } := by
  unfold flushDone
  simp only [hf, fport_freeTag_self, fport_setFport_self]

end

end

/-- Settles O34: each outbound transaction takes a tag; then what its kind asks for, and what frees the tag again. -/
theorem fabricPortOutbound : Obligations.FabricPortOutbound := by
  unfold Obligations.FabricPortOutbound
  refine ⟨fun s d p hd hr => ⟨fun op hs addr beats data be a size dt en hb ha hc hl hf => ⟨_, rfl, ?_⟩, ⟨_, rfl, portFlush_eq hd hr⟩⟩,
    fun s d p r rest tag hw ht => ⟨fun hlt hb => ⟨_, rfl, ?_⟩, fun hlt hb hc => ⟨_, rfl, ?_⟩, fun hlt hb hc => ?_,
      fun hge ho hl => ⟨_, rfl, ?_⟩⟩, fun s d p tag e r hd hf hr => ⟨_, rfl, ?_⟩, fun s d p tag hf => ⟨_, rfl, ?_⟩⟩
  · obtain ⟨tag, g, taken, he⟩ := portRequest_eq hd hr hb ha hc hl hf
    refine ⟨tag, portReq s.hw d p op a size dt en tag, taken.lt, taken.free, rfl, ?_⟩
    simp only [State.onHw, he]
    cases op with
    | pwrite =>
      obtain ⟨htags, hwait, hposted, hreqs⟩ := portIssue_pwrite taken (hostSpace := hs) rfl
      exact ⟨htags, fun _ => ⟨hwait, hposted, hreqs⟩, fun hn => absurd rfl hn, nofun, nofun⟩
    | read =>
      cases hs with
      | false =>
        obtain ⟨htags, hreqs⟩ := portIssue_hub taken (op := .read) nofun rfl
        exact ⟨htags, nofun, fun _ _ => hreqs, nofun, nofun⟩
      | true =>
        obtain ⟨htags, hreqs⟩ := portIssue_hostRead taken rfl
        exact ⟨htags, nofun, nofun, nofun, fun _ _ => hreqs⟩
    | write =>
      cases hs with
      | false =>
        obtain ⟨htags, hreqs⟩ := portIssue_hub taken (op := .write) nofun rfl
        exact ⟨htags, nofun, fun _ _ => hreqs, nofun, nofun⟩
      | true =>
        obtain ⟨htags, hresp, hlast⟩ := portIssue_hostWrite taken rfl
        exact ⟨htags, nofun, nofun, fun _ _ => ⟨hresp, hlast⟩, nofun⟩
  · simp only [State.onHw, acceptPosted_hub hw ht hlt fun hb' => absurd hb' (by simp [hb]), hb, Bool.false_eq_true, if_false]
    have hp := fport_acceptedBy (h := s.hw) d.val p.val tag.val rest
    refine ⟨congrArg FPort.waiting hp, rfl, ?_⟩
    exact (congrArg FPort.outTags hp) ▸ tag_ne_of_mem_filter
  · simp only [State.onHw, acceptPosted_hub hw ht hlt fun _ => hc, hb, if_true]
    exact ⟨congrArg FPort.waiting (fport_acceptedBy (h := s.hw) d.val p.val tag.val rest), rfl, SMap.get_set_self ..⟩
  · exact congrArg (fun h => Host.Outcome.next { s with hw := h }) (acceptPosted_noCredit hw hlt hb hc)
  · obtain ⟨f, he⟩ := acceptPosted_host hw ht hge ho
    simp only [State.onHw, he, donePosted_gal, donePosted_pcie, sendHost_gal]
    refine ⟨?_, rfl, sendHost_write (linkUp_acceptedBy.trans hl) ..⟩
    rw [(portKept_donePosted ..).waiting, fport_congr (sendHost_dies _), fport_acceptedBy]
  · simp only [State.onHw, portDeliver_eq hd hf hr]
    exact ⟨trivial, tag_ne_of_mem_filter⟩
  · simp only [State.onHw, flushDone_eq hf]
    exact ⟨trivial, tag_ne_of_mem_filter, tag_ne_of_mem_filter⟩

end Sys2Proof.Machine
end

section
/-!
PROOF. FabricPortInbound: requests to a port, its answers, the stall limit and the way out of STALLED (R30 to R33).
-/
namespace Sys2Proof.Machine

/-! ### What an answer leaves alone -/

/-- What the answers to requests leave alone: the requests on the Gallery, the tags of the ports, and the registers that neither the
scheduler, the error log nor the guest site holds. -/
structure Answered (h t : Hw) : Prop where
  port : ∀ n p, PortKept (fport h n p) (fport t n p)
  reqs : t.gal.reqs = h.gal.reqs
  rd : ∀ k, OffSched k → (k.addr < 0x1E00000 ∨ 0x2000000 ≤ k.addr) → t.rd k = h.rd k

theorem PortKept.trans {x y z : FPort} (a : PortKept x y) (b : PortKept y z) : PortKept x z :=
  ⟨b.waiting.trans a.waiting, b.outTags.trans a.outTags, b.inTags.trans a.inTags, b.nextIn.trans a.nextIn, b.lastOut.trans a.lastOut⟩

namespace Answered
variable {h t u : Hw}

theorem refl (h : Hw) : Answered h h := ⟨fun _ _ => .refl _, rfl, fun _ _ _ => rfl⟩
theorem trans (a : Answered h t) (b : Answered t u) : Answered h u :=
  ⟨fun n p => (a.port n p).trans (b.port n p), b.reqs.trans a.reqs, fun k hk hg => (b.rd k hk hg).trans (a.rd k hk hg)⟩

theorem of_dies (hd : t.dies = h.dies) (hr : t.gal.reqs = h.gal.reqs)
    (hc : ∀ k, OffSched k → (k.addr < 0x1E00000 ∨ 0x2000000 ≤ k.addr) → t.rd k = h.rd k) : Answered h t :=
  ⟨fun n p => (fport_congr hd n p) ▸ .refl _, hr, hc⟩
theorem of_kept (hk : Kept h t) : Answered h t := of_dies hk.dies (congrArg Gallery.reqs hk.gal) fun k hs _ => hk.rd k hs

theorem wr_guest {k : Key} (hk : 0x1E00000 ≤ k.addr ∧ k.addr < 0x2000000 ∧ k.lo < 64) (v : Nat) : Answered h (h.wr k v) :=
  of_dies rfl rfl fun j hj hg => Hw.rd_wr_ne h (by
    obtain ⟨hlo, -⟩ := hj
    simp only [Key.id]
    omega) v

theorem donePosted (h : Hw) (q : GReq) : Answered h (donePosted h q) :=
  ⟨fun n p => portKept_donePosted n p, congrArg Gallery.reqs donePosted_gal, fun k _ _ => by
    unfold Machine.donePosted
    split <;> rfl⟩

theorem guestViolates (h : Hw) : Answered h (guestViolates h) := by
  unfold Machine.guestViolates
  extract_lets g n src w
  have more : Answered h g := wr_guest (k := K.GUEST_VIOL_COUNT) (by decide) _
  have counted : Answered h w := more.trans (of_dies rfl rfl fun _ _ _ => rfl)
  clear_value w
  split
  · exact (counted.trans (wr_guest (k := K.GUEST_CTL_FENCE) (by decide) 1)).trans
      (of_kept (kept_postEvent _ (q := 7) (by decide) ..))
  · exact counted

theorem guestFails (h : Hw) (st : Status) (a : Nat) : Answered h (guestFails h st a) :=
  (of_kept (kept_logErr h ..)).trans (guestViolates _)

theorem answer (h : Hw) (q : GReq) (st : Status) (data : Nat) : Answered h (answer h q st data) := by
  unfold Machine.answer
  have first : Answered h (if q.m = .guest ∧ st ≠ .ok then Machine.guestFails h st q.addr else h) := by
    split
    · exact guestFails ..
    · exact refl _
  revert first
  generalize (if q.m = .guest ∧ st ≠ .ok then Machine.guestFails h st q.addr else h) = u
  intro first
  refine first.trans ?_
  cases q.kind with
  | pwrite =>
    dsimp only
    split
    · exact donePosted ..
    · exact (donePosted u q).trans (of_kept (kept_logErr ..))
  | read | write => exact of_dies rfl rfl fun _ _ _ => rfl

theorem answers (l : List (Nat × GReq)) (st : Status) (h : Hw) : Answered h (l.foldl (fun h e => Machine.answer h e.2 st 0) h) := by
  induction l generalizing h with
  | nil => exact refl h
  | cons e l ih => exact (answer ..).trans (ih _)

end Answered

/-- An answer to a request that is neither posted nor the guest's changes the responses alone. -/
theorem answer_eq {h : Hw} {q : GReq} (hk : q.kind ≠ .pwrite) (hm : q.m ≠ .guest) (st : Status) (data : Nat) :
    answer h q st data = { h with gal := { h.gal with resps := h.gal.resps ++ [respOf q st data] } } := by
  unfold answer
  rw [if_neg fun hg => hm hg.1]
  cases hq : q.kind with
  | pwrite => exact absurd hq hk
  | read | write => rfl

/-! ### The port -/

theorem forall_mem_of_eq {α : Type} {l l' : List α} {P : α → Prop} (e : l = l') (hl : ∀ x ∈ l', P x) : ∀ x ∈ l, P x := e ▸ hl

/-- What leaves the dies as they are after a port's record was replaced leaves the record. -/
theorem fport_of_dies {h t : Hw} {n p : Nat} {x : FPort} (ht : t.dies = (setFport h n p x).dies) : fport t n p = x :=
  (fport_congr ht n p).trans fport_setFport_self

section
variable {h : Hw} {i : Nat} {q : GReq} {d : Die} {p : Port}

/-- A port that accepts a request gives it the next tag; a posted write is gone at once. -/
theorem portInbound_accepts (hi : h.gal.reqs[i]? = some q) (hreg : regionOf q.addr = .port d.val p.val) (hw : mustWait h i = false)
    (hr : mayReach h q.m (q.kind != .read) q.addr = true) (ha : portTurnsAway h d.val p.val = none)
    (hd : designRuns h d.val (portSector p.val) = true) (hl : (fport h d.val p.val).inTags.length < 256) :
    portInbound h i = if q.kind = .pwrite then
        donePosted (setFport (dropReq h i) d.val p.val
          { fport h d.val p.val with nextIn := (nextInTag (fport h d.val p.val) + 1) % 256 }) q
      else setFport (dropReq h i) d.val p.val { fport h d.val p.val with
        inTags := (fport h d.val p.val).inTags ++ [(nextInTag (fport h d.val p.val), q)]
        nextIn := (nextInTag (fport h d.val p.val) + 1) % 256 } := by
  have hc : portCredits h d.val p.val ≠ 0 := by unfold portCredits; omega
  unfold portInbound
  simp only [hi, hreg, hw, hr, ha, hd, hc, Bool.false_eq_true, if_false, Bool.not_true]

/-- A port that turns requests away answers one with the status. -/
theorem portInbound_away {st : Status} (hi : h.gal.reqs[i]? = some q) (hreg : regionOf q.addr = .port d.val p.val)
    (hw : mustWait h i = false) (hr : mayReach h q.m (q.kind != .read) q.addr = true)
    (ha : portTurnsAway h d.val p.val = some st) (hk : q.kind ≠ .pwrite) :
    portInbound h i = answer (dropReq h i) q st 0 := by
  unfold portInbound
  simp only [hi, hreg, hw, hr, ha, hk, Bool.false_eq_true, if_false, Bool.not_true, false_and]

/-- The design's response frees the tag and answers the request. -/
theorem portResponse_eq {tag data : Nat} {e : Nat × GReq} (hd : portDesign h d.val p.val = true)
    (hs : h.bit (K.FPORT_STAT_STALLED d.val p.val) = false)
    (hf : ((fport h d.val p.val).inTags.find? fun e => e.1 == tag) = some e) :
    portResponse h d p tag data = answer (setFport h d.val p.val
        { fport h d.val p.val with inTags := (fport h d.val p.val).inTags.filter fun e => e.1 != tag }) e.2 .ok
      (if e.2.kind = .read then data % 2 ^ (8 * e.2.size) else 0) := by
  unfold portResponse
  simp only [hd, hs, hf, Bool.not_true, Bool.or_self, Bool.false_eq_true, if_false]

/-- At the stall limit every request of the port has its answer and the port is STALLED. -/
theorem portStalls_eq (h0 : h.rd (K.FPORT_CTL_STALL d.val p.val) ≠ 0) (hs : h.bit (K.FPORT_STAT_STALLED d.val p.val) = false)
    (ho : h.bit (K.FPORT_STAT_OFFLINE d.val p.val) = false) (hw : portOwes h d.val p.val = true) :
    Answered ((recallDeliveries (setFport h d.val p.val { fport h d.val p.val with inTags := [] }) d.val p.val).wr
      (K.FPORT_STAT_STALLED d.val p.val) 1) (portStalls h d.val p.val) := by
  unfold portStalls
  simp only [h0, hs, ho, hw, decide_false, Bool.not_true, Bool.or_self, Bool.false_eq_true, if_false]
  exact (Answered.answers ..).trans (.of_kept (kept_logEvent ..))

/-- Writing 1 to STALLED clears it, and the inbound tags begin at 0 again. -/
theorem writeFportStat_stalled (hs : h.bit (K.FPORT_STAT_STALLED d.val p.val) = true) :
    writeFportStat h d.val p.val (2 ^ 32) (2 ^ 32) =
      setFport (h.wr (K.FPORT_STAT_STALLED d.val p.val) 0) d.val p.val { fport h d.val p.val with nextIn := 0 } := by
  unfold writeFportStat
  rw [if_pos ⟨by simp [fieldIn, K.FPORT_STAT_STALLED], hs⟩]

theorem offSched_stalled (n p : Nat) : OffSched (K.FPORT_STAT_STALLED n p) := by
  simp only [OffSched, K.FPORT_STAT_STALLED]
  omega

theorem rd_stalled_setFport {x : FPort} (n p : Nat) :
    (setFport h n p x).rd (K.FPORT_STAT_STALLED n p) = h.rd (K.FPORT_STAT_STALLED n p) :=
  rd_setFport (by simp only [Key.id, K.FPORT_STAT_STALLED, K.FPORT_STAT_INB]; omega)
    (by simp only [Key.id, K.FPORT_STAT_STALLED, K.FPORT_STAT_OUTB]; omega)

end

theorem fport_recalled {h : Hw} {n p : Nat} {x : FPort} :
    fport ((recallDeliveries (setFport h n p x) n p).wr (K.FPORT_STAT_STALLED n p) 1) n p = x := fport_of_dies rfl

theorem fport_withGal {h : Hw} {n p : Nat} {x : FPort} (g : Gallery) : fport { setFport h n p x with gal := g } n p = x :=
  fport_of_dies rfl

theorem portStalls_stalled {h : Hw} {d : Die} {p : Port} (h0 : h.rd (K.FPORT_CTL_STALL d.val p.val) ≠ 0)
    (hs : h.bit (K.FPORT_STAT_STALLED d.val p.val) = false) (ho : h.bit (K.FPORT_STAT_OFFLINE d.val p.val) = false)
    (hw : portOwes h d.val p.val = true) :
    (portStalls h d.val p.val).rd (K.FPORT_STAT_STALLED d.val p.val) = 1 ∧ (fport (portStalls h d.val p.val) d.val p.val).inTags = [] := by
  have stalled := portStalls_eq h0 hs ho hw
  have hrd := stalled.rd _ (offSched_stalled d.val p.val) (.inr (by simp only [K.FPORT_STAT_STALLED]; omega))
  have hport := (stalled.port d.val p.val).inTags
  rw [Hw.rd_wr_self] at hrd
  rw [fport_recalled] at hport
  exact ⟨hrd, hport⟩

theorem writeFportStat_restarts {h : Hw} {d : Die} {p : Port} (hs : h.bit (K.FPORT_STAT_STALLED d.val p.val) = true) :
    (writeFportStat h d.val p.val (2 ^ 32) (2 ^ 32)).rd (K.FPORT_STAT_STALLED d.val p.val) = 0 ∧
    (fport (writeFportStat h d.val p.val (2 ^ 32) (2 ^ 32)) d.val p.val).nextIn = 0 := by
  rw [writeFportStat_stalled hs, rd_stalled_setFport, Hw.rd_wr_self, fport_setFport_self]
  exact ⟨rfl, rfl⟩

/-- A write that the gates of R24 and R25 let through is performed. -/
theorem gated_ok {h : Hw} {m : Master} {a : Nat} (hg : csrGate h m true a = .ok) (f : Hw → Hw) : gated h m a f = f h := by
  unfold gated
  rw [hg]

/-- Settles O35: a request's way into its port or back, its response, and STALLED from its start to its end. -/
theorem fabricPortInbound : Obligations.FabricPortInbound := by
  unfold Obligations.FabricPortInbound
  refine ⟨fun s i q d p hi hreg ha hw hr => ⟨fun haw hd hl => ⟨_, rfl, ?_⟩, fun st haw hk hm => ⟨_, rfl, ?_⟩⟩,
    fun s d p tag data e hd hs hf hk => ⟨_, rfl, ?_⟩, fun s d p h0 hs ho hw => ⟨_, rfl, ?_⟩, fun s m d p hg hs => ⟨_, rfl, ?_⟩⟩
  · simp only [State.onHw, ha, Bool.false_eq_true, if_false, portInbound_accepts hi hreg hw hr haw hd hl]
    split
    next hk =>
      have kept := Answered.donePosted (setFport (dropReq s.hw i) d.val p.val
        { fport s.hw d.val p.val with nextIn := (nextInTag (fport s.hw d.val p.val) + 1) % 256 }) q
      have port := kept.port d.val p.val
      rw [fport_setFport_self] at port
      exact ⟨fun hn => absurd hk hn, fun _ => port.inTags, kept.reqs, port.nextIn⟩
    next hk =>
      simp only [fport_setFport_self]
      exact ⟨fun _ => trivial, fun hp => absurd hp hk, rfl, trivial⟩
  · simp only [State.onHw, ha, Bool.false_eq_true, if_false, portInbound_away hi hreg hw hr haw hk, answer_eq hk hm]
    exact ⟨rfl, rfl, rfl⟩
  · simp only [State.onHw, portResponse_eq hd hs hf]
    rw [answer_ok hk]
    refine ⟨forall_mem_of_eq (congrArg FPort.inTags (fport_withGal _)) tag_ne_of_mem_filter, ?_⟩
    cases hq : e.2.kind with
    | pwrite => exact absurd hq hk
    | read | write => simp [respOf, hq]
  · exact portStalls_stalled h0 hs ho hw
  · simp only [State.onHw]
    rw [gated_ok hg]
    exact writeFportStat_restarts hs

end Sys2Proof.Machine
end

section
/-!
PROOF. SectorPortsAndOutpost: one beat at a sector port whose turn it is (R58 to R61), and the serial blocks of an outpost from both
sides (R63, R65).
-/
namespace Sys2Proof.Machine

/-! ### Sector ports -/

section
variable {h : Hw} {n s : Nat} {r : SecReq}

@[simp] theorem secWaiting_setSecReqs (l : List SecReq) : secWaiting (setSecReqs h n s l) n s = l := by
  unfold secWaiting setSecReqs
  rw [Hw.die_onDie_self]
  exact SMap.get_set_self ..

@[simp] theorem secQueue_setSecReqs (l : List SecReq) : secQueue (setSecReqs h n s l) n s = secQueue h n s := by
  unfold secQueue setSecReqs
  rw [Hw.die_onDie_self]

@[simp] theorem secQueue_pushSec (x : SecResp) : secQueue (pushSec h n s x) n s = secQueue h n s ++ [x] := by
  unfold secQueue pushSec
  rw [Hw.die_onDie_self]
  exact SMap.get_set_self ..

theorem portsHeld_congr {g : Hw} (hs : (g.die n).strata = (h.die n).strata) : portsHeld g n = portsHeld h n := by
  unfold portsHeld
  rw [hs]

theorem portsHeld_onDie {f : DieSt → DieSt} (hf : (f (h.die n)).strata = (h.die n).strata) :
    portsHeld (h.onDie n f) n = portsHeld h n :=
  portsHeld_congr (by rw [Hw.die_onDie_self, hf])

theorem secRounds_idle (hr : (h.die n).secReqs = []) (f : Nat) : secRounds n f h = h := by
  induction f with
  | zero => rfl
  | succ f ih =>
    unfold secRounds
    rw [hr]
    exact ih

/-- With no request waiting the ports have nothing to do. -/
theorem servePorts_idle (hr : (h.die n).secReqs = []) : servePorts h n = h := by
  unfold servePorts
  rw [secRounds_idle hr, ite_self]

/-- Whatever the turn, the only sector with a request has it. -/
theorem turnOrder_singleton (t a : Nat) : turnOrder t [a] = [a] := by
  unfold turnOrder
  by_cases ht : t ≤ a
  · simp [ht]
  · simp [ht, Nat.lt_of_not_le ht]

theorem dies_countRead (h : Hw) (who a k : Nat) : (countRead h who a k).dies = h.dies := by
  unfold countRead
  split
  · rfl
  next m hm =>
    have counted : ∀ c : Nat, (if c = 0 then h else h.cnt (K.ERR_CNT_CORR m)).dies = h.dies := fun c => by
      split <;> rfl
    dsimp only
    revert counted
    generalize (badBytes (h.mem.seen a k)).length - (deadBytes (h.mem.seen a k)).length = c
    intro counted
    have counted := counted c
    revert counted
    generalize (if c = 0 then h else h.cnt (K.ERR_CNT_CORR m)) = u
    intro counted
    split
    · exact (kept_logEntry ..).dies.trans counted
    · split
      · exact counted
      · split
        · exact counted
        · exact (kept_logEntry ..).dies.trans counted

/-- The die of a beat performed: its requests, and the ports not held. -/
theorem secReqs_secPerform : ((secPerform h n s r).die n).secReqs = (h.die n).secReqs := by
  have pushed : ∀ (g : Hw) x, ((pushSec g n s x).die n).secReqs = (g.die n).secReqs := fun g x => by
    unfold pushSec
    rw [Hw.die_onDie_self]
  unfold secPerform
  dsimp only
  split
  · exact pushed ..
  · split
    · exact congrArg DieSt.secReqs (die_congr (kept_hubWrite ..).dies n)
    · exact (pushed ..).trans (congrArg DieSt.secReqs (die_congr (dies_countRead ..) n))

/-- The only request of a sector is performed in its turn. -/
theorem secTake_one (hl : (secQueue h n s).length < 16) :
    secTake (setSecReqs h n s [r]) n s =
      (secPerform (setSecReqs (setSecReqs h n s [r]) n s []) n s r).onDie n fun x => { x with secTurn := (s + 1) % 192 } := by
  unfold secTake
  rw [secWaiting_setSecReqs]
  dsimp only
  rw [if_neg (by simpa using hl)]

theorem secReqs_setSecReqs (l : List SecReq) : ((setSecReqs h n s l).die n).secReqs = SMap.set (h.die n).secReqs s l [] := by
  rw [setSecReqs, Hw.die_onDie_self]

/-- The state in which the only request of a die's ports is performed. -/
def served1 (h : Hw) (n s : Nat) (r : SecReq) : Hw := setSecReqs (setSecReqs h n s [r]) n s []

theorem secReqs_served1 (hr : (h.die n).secReqs = []) : ((served1 h n s r).die n).secReqs = [] := by
  rw [served1, secReqs_setSecReqs, secReqs_setSecReqs, hr]
  simp [SMap.set, SMap.ins, SMap.erase]

theorem secReqs_turn (g : Hw) (n v : Nat) : ((g.onDie n fun x => { x with secTurn := v }).die n).secReqs = (g.die n).secReqs := by
  rw [Hw.die_onDie_self]
theorem secQueue_turn (g : Hw) (n v s : Nat) : secQueue (g.onDie n fun x => { x with secTurn := v }) n s = secQueue g n s := by
  unfold secQueue
  rw [Hw.die_onDie_self]

/-- The only request of a die's ports is performed at once. -/
theorem servePorts_one (hh : portsHeld h n = false) (hr : (h.die n).secReqs = []) (hl : (secQueue h n s).length < 16) :
    servePorts (setSecReqs h n s [r]) n =
      (secPerform (served1 h n s r) n s r).onDie n fun x => { x with secTurn := (s + 1) % 192 } := by
  have hone : ((setSecReqs h n s [r]).die n).secReqs = [(s, [r])] := by
    rw [secReqs_setSecReqs, hr]
    rfl
  have hheld : portsHeld (setSecReqs h n s [r]) n = false := by
    rw [← hh]
    exact portsHeld_onDie rfl
  unfold servePorts
  rw [hheld, if_neg Bool.false_ne_true, secRounds, hone, List.map_cons, List.map_nil, turnOrder_singleton, List.foldl_cons,
    List.foldl_nil, secTake_one hl, ← served1]
  exact secRounds_idle ((secReqs_turn ..).trans (secReqs_secPerform.trans (secReqs_served1 hr))) _

theorem secQueue_served1 : secQueue (served1 h n s r) n s = secQueue h n s := by
  rw [served1, secQueue_setSecReqs, secQueue_setSecReqs]
theorem ringDepth_served1 : ringDepth (served1 h n s r) n = ringDepth h n := rfl
theorem mem_served1 : (served1 h n s r).mem = h.mem := rfl
theorem prioHolds_served1 (w : Option Nat) (a k : Nat) : prioHolds (served1 h n s r) w a k = prioHolds h w a k := rfl
theorem mem_pushSec (x : SecResp) : (pushSec h n s x).mem = h.mem := rfl
theorem mem_turn (g : Hw) (n v : Nat) : (g.onDie n fun x => { x with secTurn := v }).mem = g.mem := rfl

/-- A beat in a claimed area answers RINGERR. -/
theorem secPerform_claimed (hc : claimedAt (ringDepth h n) (beatAddr n s r.beat - stackBase n) = true) :
    secPerform h n s r = pushSec h n s ⟨0, false, true, !r.wr⟩ := by
  unfold secPerform
  dsimp only
  rw [if_pos hc]

/-- A beat written reaches the memory. -/
theorem secPerform_write (hc : claimedAt (ringDepth h n) (beatAddr n s r.beat - stackBase n) = false) (hw : r.wr = true) :
    secPerform h n s r = hubWrite h none (beatAddr n s r.beat) 32 r.data r.be := by
  unfold secPerform
  dsimp only
  rw [if_neg (by simp [hc]), if_pos hw]

/-- A beat read from clean bytes is queued. -/
theorem secPerform_read (hc : claimedAt (ringDepth h n) (beatAddr n s r.beat - stackBase n) = false) (hw : r.wr = false)
    (hm : (h.mem.seen (beatAddr n s r.beat) 32).all (fun x => x.2 == .clean) = true) :
    secPerform h n s r = pushSec h n s ⟨h.mem.readN (beatAddr n s r.beat) 32, false, false, true⟩ := by
  unfold secPerform
  dsimp only
  rw [if_neg (by simp [hc]), if_neg (by simp [hw]), memRead_of_clean hm]

/-- A request of a sector whose design runs, with a place to wait, enters its queue and is served. -/
theorem secRequest_eq {wr : Bool} {beat data be : Nat} (hd : designRuns h n s = true) (hl : (secWaiting h n s).length < 16) :
    secRequest h n s wr beat data be = servePorts (setSecReqs h n s (secWaiting h n s ++ [⟨wr, beat, data, be⟩])) n := by
  unfold secRequest
  rw [if_neg (by simp [hd, hl])]

theorem secWaiting_nil (hr : (h.die n).secReqs = []) : secWaiting h n s = [] := by
  unfold secWaiting
  rw [hr]
  rfl

/-- The request that finds the ports free and its sector's responses not full is performed. -/
theorem secRequest_free {wr : Bool} {beat data be : Nat} (hd : designRuns h n s = true) (hh : portsHeld h n = false)
    (hr : (h.die n).secReqs = []) (hl : (secQueue h n s).length < 16) :
    secRequest h n s wr beat data be = (secPerform (served1 h n s ⟨wr, beat, data, be⟩) n s ⟨wr, beat, data, be⟩).onDie n
      fun x => { x with secTurn := (s + 1) % 192 } := by
  rw [secRequest_eq hd (by simp [secWaiting_nil hr]), secWaiting_nil hr]
  exact servePorts_one hh hr hl

/-- While a drain or restore has the ports the request waits. -/
theorem secRequest_held {wr : Bool} {beat data be : Nat} (hd : designRuns h n s = true) (hh : portsHeld h n = true)
    (hl : (secWaiting h n s).length < 16) :
    secRequest h n s wr beat data be = setSecReqs h n s (secWaiting h n s ++ [⟨wr, beat, data, be⟩]) := by
  have held : portsHeld (setSecReqs h n s (secWaiting h n s ++ [⟨wr, beat, data, be⟩])) n = true := by
    rw [← hh]
    exact portsHeld_onDie rfl
  rw [secRequest_eq hd hl, servePorts, if_pos held]

theorem secRequest_full {wr : Bool} {beat data be : Nat} (hl : 16 ≤ (secWaiting h n s).length) :
    secRequest h n s wr beat data be = h := by
  unfold secRequest
  rw [if_pos (by simp [hl])]

/-- What the design takes from its sector port. -/
def responded (h : Hw) (n s : Nat) (r : SecResp) (rest : List SecResp) : Hw :=
  h.onDie n fun x => { x with secResps := SMap.set x.secResps s rest [], secLast := SMap.set x.secLast s (some r) none }

theorem secRespond_eq {r : SecResp} {rest : List SecResp} (hq : secQueue h n s = r :: rest) (hr : (h.die n).secReqs = []) :
    secRespond h n s = responded h n s r rest := by
  unfold secRespond
  rw [hq]
  refine servePorts_idle ?_
  rw [Hw.die_onDie_self]
  exact hr

theorem secQueue_responded (r : SecResp) (rest : List SecResp) : secQueue (responded h n s r rest) n s = rest := by
  unfold secQueue responded
  rw [Hw.die_onDie_self]
  exact SMap.get_set_self ..

theorem secLast_responded (r : SecResp) (rest : List SecResp) :
    SMap.get ((responded h n s r rest).die n).secLast s none = some r := by
  have hd : ((responded h n s r rest).die n).secLast = SMap.set (h.die n).secLast s (some r) none := by
    rw [responded, Hw.die_onDie_self]
  rw [hd]
  exact SMap.get_set_self ..

end

/-! ### The outpost from both sides -/

section
variable {h : Hw} {n off data : Nat} {b : OutBlock} {src : Side}

theorem out_onOut (f : Outpost → Outpost) : ((h.onOut n f).die n).out = f (h.die n).out := by
  unfold Hw.onOut
  rw [Hw.die_onDie_self]

/-- The state in which a side's write acts: the design's port first drops its error flag. -/
def sideBase (h : Hw) (n : Nat) : Side → Hw
  | .hub _ => h
  | .design => h.onDie n fun x => { x with portErr := false }

theorem out_sideBase : ((sideBase h n src).die n).out = (h.die n).out := by
  cases src with
  | hub m => rfl
  | design => rw [sideBase, Hw.die_onDie_self]
theorem csr_sideBase : (sideBase h n src).csr = h.csr := by cases src <;> rfl
theorem mem_sideBase : (sideBase h n src).mem = h.mem := by cases src <;> rfl
theorem ecount_sideBase : (sideBase h n src).ecount = h.ecount := by cases src <;> rfl

/-- A write of a side that may write a block reaches it. -/
theorem sideWrite_eq (hw : SideWrites h n b off src) : sideWrite h n src off data = outWrite (sideBase h n src) n src off 8 data := by
  unfold sideWrite
  cases src with
  | hub m => exact gated_ok hw.1 _
  | design => exact if_pos hw.1

theorem hubOwns_congr {g : Hw} (hc : g.csr = h.csr) (n : Nat) (b : OutBlock) : hubOwns g n b = hubOwns h n b := by
  unfold hubOwns
  split <;> exact Hw.bit_congr (by rw [hc]) _

theorem sideOwns_of_writes (hw : SideWrites h n b off src) : sideOwns (sideBase h n src) n b src = true := by
  cases src with
  | hub m => exact (hubOwns_congr csr_sideBase n b).trans hw.2
  | design => rw [sideOwns, hubOwns_congr csr_sideBase n b, hw.2, Bool.not_false]

/-! ### Writes and reads at the registers of the blocks -/

/-- A write of its owner to a block's register acts by the register. -/
theorem outWrite_owned (hb : outBlockOf (off / 8 * 8) = some b) (h0 : off / 8 * 8 ≠ 0) (ho : sideOwns h n b src = true) :
    outWrite h n src off 8 data =
      if off / 8 * 8 = 0x10 then if off % 8 = 4 then h else flashCommand h n (bits data 18 6) (bits data 2 0)
      else if off / 8 * 8 = 0x108 ∨ off / 8 * 8 = 0x148 then
        if off % 8 = 4 then h else uartPush h n (if off / 8 * 8 = 0x108 then 0 else 1) (BitVec.ofNat 8 data)
      else if off / 8 * 8 = 0x208 then if off % 8 = 4 then h else spiPush h n (BitVec.ofNat 8 data)
      else if off / 8 * 8 = 0x308 then if off % 8 = 4 then h else i2cCommand h n data
      else writeReg h (sideMaster src) (dieBase n + 0xE00000 + off) 8 data := by
  unfold outWrite
  dsimp only
  rw [if_neg fun e => h0 e.1, hb]
  dsimp only
  rw [if_neg (by simp [ho])]

theorem outWrite_flash (ho : sideOwns h n .flash src = true) :
    outWrite h n src 0x10 8 data = flashCommand h n (bits data 18 6) (bits data 2 0) := by
  rw [outWrite_owned (b := .flash) (by decide) (by decide) ho, if_pos (by decide), if_neg (by decide)]
theorem outWrite_uart0 (ho : sideOwns h n (.uart 0) src = true) :
    outWrite h n src 0x108 8 data = uartPush h n 0 (BitVec.ofNat 8 data) := by
  rw [outWrite_owned (b := .uart 0) (by decide) (by decide) ho, if_neg (by decide), if_pos (by decide), if_neg (by decide),
    if_pos (by decide)]
theorem outWrite_uart1 (ho : sideOwns h n (.uart 1) src = true) :
    outWrite h n src 0x148 8 data = uartPush h n 1 (BitVec.ofNat 8 data) := by
  rw [outWrite_owned (b := .uart 1) (by decide) (by decide) ho, if_neg (by decide), if_pos (by decide), if_neg (by decide),
    if_neg (by decide)]
theorem uart_offset (u : Fin 2) : u = 0 ∧ 0x108 + 0x40 * u.val = 0x108 ∨ u = 1 ∧ 0x108 + 0x40 * u.val = 0x148 := by
  revert u
  decide
theorem outWrite_uart (u : Fin 2) (ho : sideOwns h n (.uart u) src = true) :
    outWrite h n src (0x108 + 0x40 * u.val) 8 data = uartPush h n u.val (BitVec.ofNat 8 data) := by
  obtain ⟨hu, hoff⟩ | ⟨hu, hoff⟩ := uart_offset u
  · rw [hoff]
    subst hu
    exact outWrite_uart0 ho
  · rw [hoff]
    subst hu
    exact outWrite_uart1 ho
theorem outWrite_spi (ho : sideOwns h n .spi src = true) : outWrite h n src 0x208 8 data = spiPush h n (BitVec.ofNat 8 data) := by
  rw [outWrite_owned (b := .spi) (by decide) (by decide) ho, if_neg (by decide), if_neg (by decide), if_pos (by decide),
    if_neg (by decide)]
theorem outWrite_i2c (ho : sideOwns h n .i2c src = true) : outWrite h n src 0x308 8 data = i2cCommand h n data := by
  rw [outWrite_owned (b := .i2c) (by decide) (by decide) ho, if_neg (by decide), if_neg (by decide), if_neg (by decide),
    if_pos (by decide), if_neg (by decide)]

theorem outRead_uart (u : Fin 2) : outRead h n src (0x108 + 0x40 * u.val) = uartPop h n u.val (sidePops src) := by
  match u with
  | 0 => rfl
  | 1 => rfl
theorem outRead_spi : outRead h n src 0x208 = spiPop h n (sidePops src) := rfl
theorem outRead_i2c : outRead h n src 0x308 = i2cPop h n (sidePops src) := rfl

theorem out_portDone (g : Hw) (n v : Nat) :
    ((g.onDie n fun x => { x with portData := v, portErr := false }).die n).out = (g.die n).out := by
  rw [Hw.die_onDie_self]
theorem portData_portDone (g : Hw) (n v : Nat) :
    ((g.onDie n fun x => { x with portData := v, portErr := false }).die n).portData = v := by
  rw [Hw.die_onDie_self]

/-- A read of the hub that passes its gates is the register's. The address goes by a name: the kernel would unfold it. -/
theorem sideRead_hub {m : Master} {a : Nat} (ha : dieBase n + 0xE00000 + off = a) (hg : csrGate h m false a = .ok) :
    sideRead h n (.hub m) off = (outRead h n (.hub m) off).2 := by
  rw [sideRead.eq_def, ha]
  dsimp only
  rw [hg]

theorem sideRead_design (hd : designRuns h n 11 = true) :
    sideRead h n .design off = (outRead h n .design off).2.onDie n fun x =>
      { x with portData := (outRead h n .design off).1, portErr := false } := if_pos hd

/-- A side's read leaves the outpost as the register's read does. -/
theorem out_sideRead (hr : SideReads h n off src) : ((sideRead h n src off).die n).out = ((outRead h n src off).2.die n).out := by
  cases src with
  | hub m => exact congrArg (fun g : Hw => (g.die n).out) (sideRead_hub rfl hr)
  | design => exact (congrArg (fun g : Hw => (g.die n).out) (sideRead_design hr)).trans (out_portDone ..)

/-- The design's port takes the value read. -/
theorem portData_sideRead (hr : designRuns h n 11 = true) :
    ((sideRead h n .design off).die n).portData = (outRead h n .design off).1 :=
  (congrArg (fun g : Hw => (g.die n).portData) (sideRead_design hr)).trans (portData_portDone ..)

/-! ### The UARTs -/

section
variable {u : Nat} {l : List Byte} {v : Byte}

theorem uartTx_congr {g : Hw} (ho : (g.die n).out = (h.die n).out) : uartTx g n u = uartTx h n u := by
  unfold uartTx
  rw [ho]
theorem uartRx_congr {g : Hw} (ho : (g.die n).out = (h.die n).out) : uartRx g n u = uartRx h n u := by
  unfold uartRx
  rw [ho]

theorem die_uartLevels (h : Hw) (n : Nat) : (uartLevels h n).die n = h.die n := rfl
theorem mem_uartLevels (h : Hw) (n : Nat) : (uartLevels h n).mem = h.mem := rfl

theorem uartTx_setUartTx : uartTx (setUartTx h n u l) n u = l := by
  unfold uartTx setUartTx
  rw [die_uartLevels, out_onOut]
  by_cases hu : u = 0 <;> simp [hu]
theorem uartRx_setUartRx : uartRx (setUartRx h n u l) n u = l := by
  unfold uartRx setUartRx
  rw [die_uartLevels, out_onOut]
  by_cases hu : u = 0 <;> simp [hu]

/-- The levels of the FIFOs stand in fields of their own. -/
theorem rd_uartLevels {k : Key} (hk : ∀ u, k.id ≠ (K.OUTPOST_UART_STAT_TXLVL n u).id ∧ k.id ≠ (K.OUTPOST_UART_STAT_RXLVL n u).id) :
    (uartLevels h n).rd k = h.rd k := by
  unfold uartLevels
  dsimp only
  rw [Hw.rd_wr_ne _ (hk 1).2, Hw.rd_wr_ne _ (hk 1).1, Hw.rd_wr_ne _ (hk 0).2, Hw.rd_wr_ne _ (hk 0).1]

theorem uartPush_room (hl : (uartTx h n u).length < 64) : uartPush h n u v = setUartTx h n u (uartTx h n u ++ [v]) := if_pos hl
theorem uartPush_full (hl : 64 ≤ (uartTx h n u).length) : uartPush h n u v = h.wr (K.OUTPOST_UART_STAT_OVR n u) 1 :=
  if_neg (Nat.not_lt.2 hl)

/-- A read takes the oldest byte, but for a reader that does not pop. -/
theorem uartRx_uartPop (pops : Bool) :
    uartRx (uartPop h n u pops).2 n u = if pops then (uartRx h n u).tail else uartRx h n u := by
  unfold uartPop
  split
  next hr => 
    rw [hr]
    exact (uartRx_congr rfl).trans (hr.trans (by simp))
  next b rest hr =>
    cases pops with
    | false => rfl
    | true => exact uartRx_setUartRx.trans (by rw [hr]; rfl)

theorem uartPop_value {rest : List Byte} (pops : Bool) (hr : uartRx h n u = v :: rest) : (uartPop h n u pops).1 = v.toNat := by
  unfold uartPop
  rw [hr]

/-- The state once the flags of a frame received are set. -/
def framed (h : Hw) (n u : Nat) (perr ferr : Bool) : Hw :=
  let h := if perr then h.wr (K.OUTPOST_UART_STAT_PERR n u) 1 else h
  if ferr then h.wr (K.OUTPOST_UART_STAT_FERR n u) 1 else h

theorem die_framed (perr ferr : Bool) : (framed h n u perr ferr).die n = h.die n := by
  cases perr <;> cases ferr <;> rfl

theorem perr_framed (ferr : Bool) : (framed h n u true ferr).rd (K.OUTPOST_UART_STAT_PERR n u) = 1 := by
  have hne : (K.OUTPOST_UART_STAT_PERR n u).id ≠ (K.OUTPOST_UART_STAT_FERR n u).id := by
    simp only [Key.id, K.OUTPOST_UART_STAT_PERR, K.OUTPOST_UART_STAT_FERR]
    omega
  cases ferr with
  | false => exact Hw.rd_wr_self ..
  | true => exact (Hw.rd_wr_ne _ hne 1).trans (Hw.rd_wr_self ..)
theorem ferr_framed (perr : Bool) : (framed h n u perr true).rd (K.OUTPOST_UART_STAT_FERR n u) = 1 := Hw.rd_wr_self ..

/-- A frame at a UART that runs sets its flags; its byte enters the FIFO if there is room. -/
theorem uartReceive_eq {perr ferr : Bool} (he : h.bit (K.OUTPOST_UART_CFG_EN n u) = true) (hs : outStops h n = false) :
    uartReceive h n u v perr ferr =
      if (uartRx h n u).length < 64 then setUartRx (framed h n u perr ferr) n u (uartRx h n u ++ [v])
      else (framed h n u perr ferr).wr (K.OUTPOST_UART_STAT_OVR n u) 1 := by
  have hrx : uartRx (framed h n u perr ferr) n u = uartRx h n u := uartRx_congr (by rw [die_framed])
  rw [← hrx]
  unfold uartReceive
  rw [if_neg (by simp [he, hs])]
  rfl

/-- The flags of a frame are no levels of a FIFO. -/
theorem rd_setUartRx_perr : (setUartRx h n u l).rd (K.OUTPOST_UART_STAT_PERR n u) = h.rd (K.OUTPOST_UART_STAT_PERR n u) :=
  (rd_uartLevels fun w => by
    simp only [Key.id, K.OUTPOST_UART_STAT_PERR, K.OUTPOST_UART_STAT_TXLVL, K.OUTPOST_UART_STAT_RXLVL]
    omega).trans rfl
theorem rd_setUartRx_ferr : (setUartRx h n u l).rd (K.OUTPOST_UART_STAT_FERR n u) = h.rd (K.OUTPOST_UART_STAT_FERR n u) :=
  (rd_uartLevels fun w => by
    simp only [Key.id, K.OUTPOST_UART_STAT_FERR, K.OUTPOST_UART_STAT_TXLVL, K.OUTPOST_UART_STAT_RXLVL]
    omega).trans rfl

theorem uartSent_eq (he : h.bit (K.OUTPOST_UART_CFG_EN n u) = true) (hs : outStops h n = false) :
    uartSent h n u = setUartTx h n u (uartTx h n u).tail :=
  if_pos (by simp [he, hs])

end

/-! ### SPI and I2C -/

section
variable {v : Byte}

theorem spiTx_spiPush : ((spiPush h n v).die n).out.spiTx =
    if (h.die n).out.spiTx.length < 64 then (h.die n).out.spiTx ++ [v] else (h.die n).out.spiTx := by
  unfold spiPush
  rw [out_onOut]
  split <;> rfl

theorem spiRx_spiPop (pops : Bool) : ((spiPop h n pops).2.die n).out.spiRx =
    if pops then (h.die n).out.spiRx.tail else (h.die n).out.spiRx := by
  unfold spiPop
  split
  next hr =>
    rw [hr]
    exact hr.trans (by simp)
  next b rest hr =>
    cases pops with
    | false => rfl
    | true => simp only [if_true, out_onOut, hr, List.tail_cons]

theorem i2cRx_i2cPop (pops : Bool) : ((i2cPop h n pops).2.die n).out.i2cRx =
    if pops then (h.die n).out.i2cRx.tail else (h.die n).out.i2cRx := by
  unfold i2cPop
  split
  next hr =>
    rw [hr]
    exact hr.trans (by simp)
  next b rest hr =>
    cases pops with
    | false => rfl
    | true => simp only [if_true, out_onOut, hr, List.tail_cons]

/-- A read takes the oldest byte. -/
theorem spiPop_some {rest : List Byte} (hq : (h.die n).out.spiRx = v :: rest) :
    spiPop h n true = (v.toNat, h.onOut n fun o => { o with spiRx := rest }) := by
  unfold spiPop
  rw [hq]
  rfl

/-- A transfer of a block that runs sends the oldest byte and takes the one received if there is room. -/
theorem out_spiTransfer (he : h.bit (K.OUTPOST_SPI_CFG_EN n) = true) (hs : outStops h n = false)
    (hm : h.bit (K.OUTPOST_SPI_CFG_SLAVE n) = true ∨ (h.die n).out.spiTx ≠ []) :
    ((spiTransfer h n v).die n).out = { (h.die n).out with
      spiTx := (h.die n).out.spiTx.tail
      spiRx := if (h.die n).out.spiRx.length < 64 then (h.die n).out.spiRx ++ [v] else (h.die n).out.spiRx } := by
  have hgo : (!h.bit (K.OUTPOST_SPI_CFG_SLAVE n) && (h.die n).out.spiTx.isEmpty) = false := by
    obtain h1 | h2 := hm
    · simp [h1]
    · simp [h2]
  unfold spiTransfer
  dsimp only
  rw [if_neg (by simp [he, hs]), hgo, if_neg Bool.false_ne_true, out_onOut]

/-- The events of the I2C bus, at a block that runs. -/
theorem i2cEvent_eq (he : h.bit (K.OUTPOST_I2C_CFG_EN n) = true) (hs : outStops h n = false) (ev : I2cEvent) :
    i2cEvent h n ev = match ev with
      | .sent ack => if (h.die n).out.i2cCmd.isNone then h
          else (h.onOut n fun o => { o with i2cCmd := none }).wrB (K.OUTPOST_I2C_CMD_ACK n) ack
      | .addressed a => h.onOut n fun o => { o with
          i2cTarget := h.bit (K.OUTPOST_I2C_CFG_TARGET n) && h.rd (K.OUTPOST_I2C_CFG_ADDR n) == a.toNat }
      | .stopped => h.onOut n fun o => { o with i2cCmd := none, i2cTarget := false }
      | .received v =>
        if (h.die n).out.i2cCmd.isNone && !(h.die n).out.i2cTarget then h
        else if (h.die n).out.i2cRx.length < 64 then h.onOut n fun o => { o with i2cRx := o.i2cRx ++ [v], i2cCmd := none }
        else if (h.die n).out.i2cTarget && h.bit (K.OUTPOST_I2C_CFG_STRETCH n) then h
        else h.onOut n fun o => { o with i2cCmd := none } := by
  unfold i2cEvent
  refine (if_neg (by simp [he, hs])).trans ?_
  cases ev <;> rfl

theorem i2cEvent_received (he : h.bit (K.OUTPOST_I2C_CFG_EN n) = true) (hs : outStops h n = false)
    (hw : (h.die n).out.i2cCmd.isSome = true ∨ (h.die n).out.i2cTarget = true) (hl : (h.die n).out.i2cRx.length < 64) :
    i2cEvent h n (.received v) = h.onOut n fun o => { o with i2cRx := o.i2cRx ++ [v], i2cCmd := none } := by
  have hgo : ((h.die n).out.i2cCmd.isNone && !(h.die n).out.i2cTarget) = false := by
    obtain h1 | h2 := hw
    · rw [← Option.not_isSome, h1]
      rfl
    · simp [h2]
  rw [i2cEvent_eq he hs]
  dsimp only
  rw [hgo, if_neg Bool.false_ne_true, if_pos hl]

theorem i2cCmd_done (h : Hw) (n : Nat) (k : Key) (b : Bool) :
    (((h.onOut n fun o => { o with i2cCmd := none }).wrB k b).die n).out.i2cCmd = none := by
  have hd : ((h.onOut n fun o => { o with i2cCmd := none }).wrB k b).die n = (h.onOut n fun o => { o with i2cCmd := none }).die n := rfl
  rw [hd, out_onOut]

theorem i2cEvent_sent (he : h.bit (K.OUTPOST_I2C_CFG_EN n) = true) (hs : outStops h n = false)
    (hw : (h.die n).out.i2cCmd.isSome = true) (ack : Bool) :
    i2cEvent h n (.sent ack) = (h.onOut n fun o => { o with i2cCmd := none }).wrB (K.OUTPOST_I2C_CMD_ACK n) ack := by
  rw [i2cEvent_eq he hs]
  dsimp only
  rw [if_neg (by rw [← Option.not_isSome, hw]; exact Bool.false_ne_true)]

end

end

/-! ### The statement -/

section
variable {s : State} {d : Die}

/-- One beat at a sector port whose requests and responses leave room. -/
theorem sectorPort_free {sec : Sector} {wr : Bool} {beat data be a : Nat} (hd : designRuns s.hw d.val sec.val = true)
    (ha : a = beatAddr d.val sec.val beat) (hh : portsHeld s.hw d.val = false) (hr : (s.hw.die d.val).secReqs = [])
    (hl : (secQueue s.hw d.val sec.val).length < 16) :
    let t := secRequest s.hw d.val sec.val wr beat data be
    (claimedAt (ringDepth s.hw d.val) (a - stackBase d.val) = true →
      t.mem = s.hw.mem ∧ secQueue t d.val sec.val = secQueue s.hw d.val sec.val ++ [⟨0, false, true, !wr⟩]) ∧
    (claimedAt (ringDepth s.hw d.val) (a - stackBase d.val) = false → wr = true → prioHolds s.hw none a 32 = false →
      t.mem = s.hw.mem.writeN a 32 data be) ∧
    (claimedAt (ringDepth s.hw d.val) (a - stackBase d.val) = false → wr = false →
      (s.hw.mem.seen a 32).all (fun x => x.2 == .clean) = true →
      t.mem = s.hw.mem ∧
        secQueue t d.val sec.val = secQueue s.hw d.val sec.val ++ [⟨s.hw.mem.readN a 32, false, false, true⟩]) := by
  subst ha
  intro t
  have ht : t = _ := secRequest_free (wr := wr) (beat := beat) (data := data) (be := be) hd hh hr hl
  clear_value t
  subst ht
  rw [mem_turn, secQueue_turn]
  refine ⟨fun hc => ?_, fun hc hw hp => ?_, fun hc hw hm => ?_⟩
  · rw [secPerform_claimed (h := served1 ..) (by rwa [ringDepth_served1]), mem_pushSec, mem_served1, secQueue_pushSec,
      secQueue_served1]
    exact ⟨rfl, rfl⟩
  · rw [secPerform_write (h := served1 ..) (by rwa [ringDepth_served1]) hw, hubWrite_eq (by rwa [prioHolds_served1]),
      mem_touchLines, mem_served1]
  · rw [secPerform_read (h := served1 ..) (by rwa [ringDepth_served1]) hw (by rwa [mem_served1]), mem_pushSec, secQueue_pushSec,
      secQueue_served1, mem_served1]
    exact ⟨rfl, rfl⟩

theorem ofNat_toNat_byte (v : Byte) : BitVec.ofNat 8 v.toNat = v := by simp

/-- A side that may write a UART pushes a byte. -/
theorem sideWrite_uart {u : Fin 2} {src : Side} {v : Byte} {h : Hw} {n : Nat} (hw : SideWrites h n (.uart u) (0x108 + 0x40 * u.val) src) :
    sideWrite h n src (0x108 + 0x40 * u.val) v.toNat = uartPush (sideBase h n src) n u.val v := by
  rw [sideWrite_eq hw, outWrite_uart u (sideOwns_of_writes hw), ofNat_toNat_byte]

/-- A byte a side writes to a UART. -/
theorem uartWrite_room {u : Fin 2} {src : Side} {v : Byte} {h : Hw} {n : Nat}
    (hw : SideWrites h n (.uart u) (0x108 + 0x40 * u.val) src) (hl : (uartTx h n u.val).length < 64) :
    uartTx (sideWrite h n src (0x108 + 0x40 * u.val) v.toNat) n u.val = uartTx h n u.val ++ [v] ∧
    (sideWrite h n src (0x108 + 0x40 * u.val) v.toNat).mem = h.mem := by
  have htx : uartTx (sideBase h n src) n u.val = uartTx h n u.val := uartTx_congr out_sideBase
  rw [sideWrite_uart hw, uartPush_room (by rwa [htx]), uartTx_setUartTx, htx]
  exact ⟨rfl, mem_sideBase⟩
theorem uartWrite_full {u : Fin 2} {src : Side} {v : Byte} {h : Hw} {n : Nat}
    (hw : SideWrites h n (.uart u) (0x108 + 0x40 * u.val) src) (hl : 64 ≤ (uartTx h n u.val).length) :
    uartTx (sideWrite h n src (0x108 + 0x40 * u.val) v.toNat) n u.val = uartTx h n u.val ∧
    (sideWrite h n src (0x108 + 0x40 * u.val) v.toNat).rd (K.OUTPOST_UART_STAT_OVR n u.val) = 1 := by
  have htx : uartTx (sideBase h n src) n u.val = uartTx h n u.val := uartTx_congr out_sideBase
  rw [sideWrite_uart hw, uartPush_full (by rwa [htx]), Hw.rd_wr_self]
  exact ⟨htx, rfl⟩

/-- A frame that finds room, and one that does not. -/
theorem uartReceive_room {h : Hw} {n u : Nat} {v : Byte} {perr ferr : Bool} (he : h.bit (K.OUTPOST_UART_CFG_EN n u) = true)
    (hs : outStops h n = false) (hl : (uartRx h n u).length < 64) :
    uartRx (uartReceive h n u v perr ferr) n u = uartRx h n u ++ [v] ∧
    (perr = true → (uartReceive h n u v perr ferr).rd (K.OUTPOST_UART_STAT_PERR n u) = 1) ∧
    (ferr = true → (uartReceive h n u v perr ferr).rd (K.OUTPOST_UART_STAT_FERR n u) = 1) := by
  rw [uartReceive_eq he hs, if_pos hl, uartRx_setUartRx, rd_setUartRx_perr, rd_setUartRx_ferr]
  refine ⟨rfl, fun hp => ?_, fun hf => ?_⟩
  · subst hp
    exact perr_framed ferr
  · subst hf
    exact ferr_framed perr
theorem uartReceive_full {h : Hw} {n u : Nat} {v : Byte} {perr ferr : Bool} (he : h.bit (K.OUTPOST_UART_CFG_EN n u) = true)
    (hs : outStops h n = false) (hl : 64 ≤ (uartRx h n u).length) :
    uartRx (uartReceive h n u v perr ferr) n u = uartRx h n u ∧
    (uartReceive h n u v perr ferr).rd (K.OUTPOST_UART_STAT_OVR n u) = 1 := by
  rw [uartReceive_eq he hs, if_neg (Nat.not_lt.2 hl), Hw.rd_wr_self]
  exact ⟨uartRx_congr (congrArg DieSt.out (die_framed perr ferr)), rfl⟩

/-- What the design's port does while the design runs. -/
theorem portAccess_write {h : Hw} {n off data : Nat} (hd : designRuns h n 11 = true) :
    (if !designRuns h n 11 then h else outWrite (sideBase h n .design) n .design off 8 data) =
      outWrite (sideBase h n .design) n .design off 8 data := if_neg (by simp [hd])

/-- A write of the design to a UART the hub owns raises the port's error flag alone. -/
theorem outWrite_notOwned {h : Hw} {n data : Nat} (ho : hubOwns h n (.uart 0) = true) :
    outWrite (sideBase h n .design) n .design 0x108 8 data =
      (sideBase h n .design).onDie n fun x => { x with portErr := true } := by
  have hb : sideOwns (sideBase h n .design) n (.uart 0) .design = false := by
    rw [sideOwns, hubOwns_congr csr_sideBase n (.uart 0), ho, Bool.not_true]
  have hblock : outBlockOf (0x108 / 8 * 8) = some (.uart 0) := by decide
  unfold outWrite
  dsimp only
  rw [if_neg (by decide), hblock]
  dsimp only
  rw [hb]
  rfl

theorem mem_uartPop (h : Hw) (n u : Nat) (pops : Bool) : (uartPop h n u pops).2.mem = h.mem := by
  unfold uartPop
  split
  · rfl
  · cases pops <;> rfl
theorem mem_spiPop (h : Hw) (n : Nat) (pops : Bool) : (spiPop h n pops).2.mem = h.mem := by
  unfold spiPop
  split
  · rfl
  · cases pops <;> rfl
theorem mem_i2cPop (h : Hw) (n : Nat) (pops : Bool) : (i2cPop h n pops).2.mem = h.mem := by
  unfold i2cPop
  split
  · rfl
  · cases pops <;> rfl

/-- No read of an outpost register changes memory. -/
theorem mem_outRead (h : Hw) (n : Nat) (src : Side) (off : Nat) : (outRead h n src off).2.mem = h.mem := by
  unfold outRead
  generalize off / 8 * 8 = base
  dsimp only
  split
  · exact mem_uartPop ..
  · exact mem_uartPop ..
  · exact mem_spiPop ..
  · exact mem_i2cPop ..
  · rfl
  · rfl

theorem flagged (h : Hw) (n : Nat) : ((h.onDie n fun x => { x with portErr := true }).die n).portErr = true ∧
    ((h.onDie n fun x => { x with portErr := true }).die n).out = (h.die n).out := by
  rw [Hw.die_onDie_self]
  exact ⟨rfl, rfl⟩
theorem portErr_onOut_sideBase (h : Hw) (n : Nat) (f : Outpost → Outpost) :
    (((sideBase h n .design).onOut n f).die n).portErr = false := by
  rw [Hw.onOut, Hw.die_onDie_self, sideBase, Hw.die_onDie_self]

/-- What the design's port takes of a read. -/
theorem portRead_done (r : Nat × Hw) (n : Nat) : ((r.2.onDie n fun x => { x with portData := r.1 }).die n).portData = r.1 ∧
    ((r.2.onDie n fun x => { x with portData := r.1 }).die n).portErr = (r.2.die n).portErr ∧
    ((r.2.onDie n fun x => { x with portData := r.1 }).die n).out = (r.2.die n).out ∧
    (r.2.onDie n fun x => { x with portData := r.1 }).csr = r.2.csr ∧ (r.2.onDie n fun x => { x with portData := r.1 }).mem = r.2.mem := by
  rw [Hw.die_onDie_self]
  exact ⟨rfl, rfl, rfl, rfl, rfl⟩

/-- An access of the design's port while the design runs. -/
theorem exec_portWrite (hd : designRuns s.hw d.val 11 = true) (off : Fin 4096) (data : Nat) :
    exec (.outpostPortAccess d true off data) s =
      .next { s with hw := outWrite (sideBase s.hw d.val .design) d.val .design (off.val / 8 * 8) 8 data } := by
  have h1 : exec (.outpostPortAccess d true off data) s = .next (s.onHw fun h =>
      if !(designRuns h d.val 11) then h
      else outWrite (sideBase h d.val .design) d.val .design (off.val / 8 * 8) 8 data) := rfl
  rw [h1, State.onHw, if_neg (by simp [hd])]
theorem exec_portRead (hd : designRuns s.hw d.val 11 = true) (off : Fin 4096) (data : Nat) {r : Nat × Hw}
    (hr : outRead (sideBase s.hw d.val .design) d.val .design off.val = r) :
    exec (.outpostPortAccess d false off data) s = .next { s with hw := r.2.onDie d.val fun x => { x with portData := r.1 } } := by
  have h1 : exec (.outpostPortAccess d false off data) s = .next (s.onHw fun h =>
      if !(designRuns h d.val 11) then h
      else (outRead (sideBase h d.val .design) d.val .design off.val).2.onDie d.val fun x =>
        { x with portData := (outRead (sideBase h d.val .design) d.val .design off.val).1 }) := rfl
  rw [h1, State.onHw, if_neg (by simp [hd]), hr]

end

/-- Settles O36: the sector ports, then each serial block from both sides and from its line. -/
theorem sectorPortsAndOutpost : Obligations.SectorPortsAndOutpost := by
  unfold Obligations.SectorPortsAndOutpost
  refine ⟨⟨fun s d sec wr beat data be a hd ha => ⟨fun hh hr hl => ?_, fun hh hl => ⟨_, rfl, ?_⟩, fun hl => ?_⟩,
    fun s d sec r rest hq hr => ⟨_, rfl, ?_⟩⟩, fun s d u src v hw => ⟨fun hl => ⟨_, rfl, uartWrite_room hw hl⟩,
    fun hl => ⟨_, rfl, uartWrite_full hw hl⟩⟩, fun s d u src hr => ⟨_, rfl, ?_⟩,
    fun s d u v perr ferr he hs => ⟨fun hl => ⟨_, rfl, uartReceive_room he hs hl⟩, fun hl => ⟨_, rfl, uartReceive_full he hs hl⟩,
      _, rfl, ?_⟩, fun s d src v hw => ⟨_, rfl, ?_⟩, fun s d src hr => ⟨_, rfl, ?_⟩, fun s d rx he hs hm => ⟨_, rfl, ?_⟩,
    fun s d src cmd hw => ⟨_, rfl, ?_⟩, fun s d src hr => ⟨_, rfl, ?_⟩, fun s d he hs => ⟨fun v hw hl => ⟨_, rfl, ?_⟩,
      fun ack hw => ⟨_, rfl, ?_⟩, fun a => ⟨_, rfl, ?_⟩, _, rfl, ?_⟩, fun s d off data h hd hh => ?_,
    fun s d data hd ho => ⟨_, exec_portWrite hd ⟨0x108, by decide⟩ data, ?_⟩, fun s d b rest data hd hq => ?_⟩
  · obtain ⟨claimed, written, read⟩ := sectorPort_free (wr := wr) (beat := beat.val) (data := data) (be := be) hd ha hh hr hl
    exact ⟨fun hc => ⟨_, rfl, claimed hc⟩, fun hc hw hp => ⟨_, rfl, written hc hw hp⟩, fun hc hw hm => ⟨_, rfl, read hc hw hm⟩⟩
  · simp only [State.onHw]
    rw [secRequest_held hd hh hl, secWaiting_setSecReqs]
    exact ⟨rfl, rfl⟩
  · exact congrArg (fun h => Host.Outcome.next { s with hw := h }) (secRequest_full hl)
  · simp only [State.onHw]
    rw [secRespond_eq hq hr, secQueue_responded, secLast_responded]
    exact ⟨rfl, rfl, rfl⟩
  · simp only [State.onHw]
    refine ⟨?_, fun b rest hs hq => ?_⟩
    · rw [uartRx_congr (out_sideRead hr), outRead_uart, uartRx_uartPop]
    · subst hs
      rw [portData_sideRead hr, outRead_uart, uartPop_value _ hq]
  · simp only [State.onHw]
    rw [uartSent_eq he hs, uartTx_setUartTx]
  · simp only [State.onHw]
    rw [sideWrite_eq hw, outWrite_spi (sideOwns_of_writes hw), ofNat_toNat_byte, spiTx_spiPush, out_sideBase]
  · simp only [State.onHw]
    rw [out_sideRead hr, outRead_spi, spiRx_spiPop]
  · simp only [State.onHw]
    rw [out_spiTransfer he hs hm]
    exact ⟨rfl, fun hl => if_pos hl⟩
  · simp only [State.onHw]
    rw [sideWrite_eq hw, outWrite_i2c (sideOwns_of_writes hw), i2cCommand, out_onOut]
  · simp only [State.onHw]
    rw [out_sideRead hr, outRead_i2c, i2cRx_i2cPop]
  · simp only [State.onHw]
    rw [i2cEvent_received he hs hw hl, out_onOut]
    exact ⟨rfl, rfl⟩
  · simp only [State.onHw]
    rw [i2cEvent_sent he hs hw, Hw.bit_wrB_self _ _ _ rfl]
    exact ⟨i2cCmd_done .., rfl⟩
  · simp only [State.onHw]
    rw [i2cEvent_eq he hs, out_onOut]
  · simp only [State.onHw]
    rw [i2cEvent_eq he hs, out_onOut]
    exact ⟨rfl, rfl⟩
  · subst hh
    refine ⟨⟨_, exec_portWrite hd off data, rfl⟩, ⟨_, exec_portRead hd off data rfl, ?_⟩⟩
    obtain ⟨hdata, -, -, hcsr, hmem⟩ := portRead_done (outRead (sideBase s.hw d.val .design) d.val .design off.val) d.val
    exact ⟨hdata, hcsr, hmem.trans ((mem_outRead ..).trans mem_sideBase)⟩
  · have hoff : (⟨0x108, by decide⟩ : Fin 4096).val / 8 * 8 = 0x108 := by decide
    rw [hoff, outWrite_notOwned ho]
    obtain ⟨herr, hout⟩ := flagged (sideBase s.hw d.val .design) d.val
    exact ⟨herr, uartTx_congr (hout.trans out_sideBase)⟩
  · have hread : outRead (sideBase s.hw d.val .design) d.val .design 0x208 =
        (b.toNat, (sideBase s.hw d.val .design).onOut d.val fun o => { o with spiRx := rest }) := 
      spiPop_some ((congrArg Outpost.spiRx out_sideBase).trans hq)
    obtain ⟨hdata, herr, hout, -⟩ := portRead_done
      (b.toNat, (sideBase s.hw d.val .design).onOut d.val fun o => { o with spiRx := rest }) d.val
    refine ⟨_, exec_portRead hd ⟨0x208, by decide⟩ data hread, hdata, herr.trans (portErr_onOut_sideBase ..), ?_⟩
    rw [hout, out_onOut]

end Sys2Proof.Machine
end

section
/-!
PROOF. UserFlash: the commands of the flash block and the end of its operations (R64).
-/
namespace Sys2Proof.Machine

/-- Of a table kept by its keys the entries of a kept key read as before, the others as the default. -/
theorem SMap.get_keep {α : Type} (m : SMap α) (p : Nat → Bool) (k : Nat) (d : α) :
    SMap.get (SMap.keep m fun k _ => p k) k d = if p k then SMap.get m k d else d := by
  induction m with
  | nil => simp [SMap.keep, SMap.get]
  | cons e m ih =>
    obtain ⟨a, v⟩ := e
    by_cases hak : a = k
    · subst hak
      cases hp : p a <;> simp_all [SMap.keep, SMap.get]
    · cases hp : p a <;> simp_all [SMap.keep, SMap.get]

section
variable {h : Hw} {n line : Nat}

/-- The fields of an FLCMD write. -/
theorem flcmd_line {op : Nat} (hl : line < 8192) (ho : op < 8) : bits (line * 64 + op) 18 6 = line := by
  unfold bits
  omega
theorem flcmd_op {op : Nat} (ho : op < 8) : bits (line * 64 + op) 2 0 = op := by
  unfold bits
  omega

/-- The state in which an operation that was taken is going on. -/
def flashing (h : Hw) (n line : Nat) (o : FlashOp) : Hw :=
  (h.onOut n fun x => { x with flash := some (o, line) }).wr (K.OUTPOST_FLSTAT_BUSY n) 1

theorem flash_flashing (o : FlashOp) : ((flashing h n line o).die n).out.flash = some (o, line) := by
  have hd : (flashing h n line o).die n = (h.onOut n fun x => { x with flash := some (o, line) }).die n := rfl
  rw [hd, out_onOut]
theorem busy_flashing (o : FlashOp) : (flashing h n line o).rd (K.OUTPOST_FLSTAT_BUSY n) = 1 := Hw.rd_wr_self ..
/-- The erase of a page that is not worn starts, and counts. -/
def eraseCounted (h : Hw) (n page : Nat) : Hw :=
  { h with ecount := SMap.set h.ecount (n * 128 + page) (eraseCount h n page + 1) 0 }

theorem eraseCount_eraseCounted {g : Hw} (o : FlashOp) (k : Key) (x l p : Nat) :
    eraseCount (flashing (eraseCounted (g.wr k x) n p) n l o) n p = eraseCount g n p + 1 :=
  SMap.get_set_self g.ecount (n * 128 + p) (eraseCount g n p + 1) 0


variable (hb : h.bit (K.OUTPOST_FLSTAT_BUSY n) = false)
include hb

/-- READ and PROGRAM start on an idle block. -/
theorem flashCommand_read : flashCommand h n line 1 = flashing (h.wr (K.OUTPOST_FLCMD_LINE n) line) n line .read :=
  if_neg (by simp [hb])
theorem flashCommand_program : flashCommand h n line 2 = flashing (h.wr (K.OUTPOST_FLCMD_LINE n) line) n line .program :=
  if_neg (by simp [hb])

theorem flashCommand_erase (hw : eraseCount h n (line / 64) < 100000) :
    flashCommand h n line 3 = flashing (eraseCounted (h.wr (K.OUTPOST_FLCMD_LINE n) line) n (line / 64)) n line .erase := by
  have first : flashCommand h n line 3 = _ := if_neg (by simp [hb])
  rw [first]
  exact if_neg (Nat.not_le.2 hw)

/-- A worn page is not erased. -/
theorem flashCommand_worn (hw : 100000 ≤ eraseCount h n (line / 64)) :
    flashCommand h n line 3 = (h.wr (K.OUTPOST_FLCMD_LINE n) line).wr (K.OUTPOST_FLSTAT_STATUS n) flWorn := by
  have first : flashCommand h n line 3 = _ := if_neg (by simp [hb])
  rw [first]
  exact if_pos hw

end

/-- A command of the block's owner. -/
theorem sideWrite_flash {h : Hw} {n line op : Nat} {src : Side} (hw : SideWrites h n .flash 0x10 src) (hl : line < 8192) (ho : op < 8) :
    sideWrite h n src 0x10 (line * 64 + op) = flashCommand (sideBase h n src) n line op := by
  rw [sideWrite_eq hw, outWrite_flash (sideOwns_of_writes hw), flcmd_line hl ho, flcmd_op ho]

/-! ### The end of an operation -/

section
variable {h : Hw} {v : NonVol} {n line : Nat} {op : FlashOp}

/-- The block once its operation has ended. -/
def flashIdle (h : Hw) (n : Nat) : Hw :=
  ((h.onOut n fun x => { x with flash := none }).wr (K.OUTPOST_FLSTAT_BUSY n) 0).wr (K.OUTPOST_FLSTAT_STATUS n) flOk

theorem flash_flashIdle : ((flashIdle h n).die n).out.flash = none := by
  have hd : (flashIdle h n).die n = (h.onOut n fun x => { x with flash := none }).die n := rfl
  rw [hd, out_onOut]
theorem status_flashIdle : (flashIdle h n).rd (K.OUTPOST_FLSTAT_STATUS n) = 0 := Hw.rd_wr_self ..
theorem busy_flashIdle : (flashIdle h n).rd (K.OUTPOST_FLSTAT_BUSY n) = 0 := by
  have hne : (K.OUTPOST_FLSTAT_BUSY n).id ≠ (K.OUTPOST_FLSTAT_STATUS n).id := by
    simp only [Key.id, K.OUTPOST_FLSTAT_BUSY, K.OUTPOST_FLSTAT_STATUS]
    omega
  exact (Hw.rd_wr_ne _ hne _).trans (Hw.rd_wr_self ..)

/-- FLBUF takes the words of a line. -/
def flBufLoad (h : Hw) (n x : Nat) (l : List Nat) : Hw :=
  l.foldl (fun h w => h.wr (K.OUTPOST_FLBUF_BYTES n w) (x / 2 ^ (64 * w))) h

theorem die_flBufLoad (x : Nat) (l : List Nat) : (flBufLoad h n x l).die n = h.die n :=
  foldl_keeps (fun h => h.die n) (fun h _ _ => Hw.die_wr h ..) h

theorem rd_flBufLoad {k : Key} (hk : ∀ w, k.id ≠ (K.OUTPOST_FLBUF_BYTES n w).id) (x : Nat) (l : List Nat) :
    (flBufLoad h n x l).rd k = h.rd k :=
  foldl_keeps (fun h => h.rd k) (fun h w _ => Hw.rd_wr_ne h (hk w) _) h

theorem bytes_ne {w w' : Nat} (hw : w ≠ w') : (K.OUTPOST_FLBUF_BYTES n w).id ≠ (K.OUTPOST_FLBUF_BYTES n w').id := by
  simp only [Key.id, K.OUTPOST_FLBUF_BYTES]
  omega

theorem bytes_flBufLoad {w : Nat} (x : Nat) {l : List Nat} (hw : w ∈ l) (h : Hw) :
    (flBufLoad h n x l).rd (K.OUTPOST_FLBUF_BYTES n w) = x / 2 ^ (64 * w) % 2 ^ 64 := by
  induction l generalizing h with
  | nil => exact absurd hw List.not_mem_nil
  | cons w' l ih =>
    by_cases hm : w ∈ l
    · exact ih hm _
    · have he : w = w' := (List.mem_cons.1 hw).resolve_right hm
      subst he
      exact (foldl_keeps (fun h => h.rd (K.OUTPOST_FLBUF_BYTES n w))
        (fun h w' hw' => Hw.rd_wr_ne h (bytes_ne fun e : w = w' => hm (e ▸ hw')) _) _).trans (Hw.rd_wr_self ..)

theorem flashEnds_read (hf : (h.die n).out.flash = some (.read, line)) :
    flashEnds v h n = (v, flBufLoad (flashIdle h n) n (flashLine v n line) (List.range 8)) := by
  unfold flashEnds
  rw [hf]
  rfl
theorem flashEnds_program (hf : (h.die n).out.flash = some (.program, line)) :
    flashEnds v h n =
      ({ v with flash := SMap.set v.flash (n * 8192 + line) (flashLine v n line &&& flBuf h n) flashOnes }, flashIdle h n) := by
  unfold flashEnds
  rw [hf]
  rfl
theorem flashEnds_erase (hf : (h.die n).out.flash = some (.erase, line)) :
    flashEnds v h n = ({ v with flash := SMap.keep v.flash fun k _ => k / 64 != n * 128 + line / 64 }, flashIdle h n) := by
  unfold flashEnds
  rw [hf]
  rfl

/-- Every end of an operation leaves the block idle with OK. -/
theorem flashEnds_idle (hf : (h.die n).out.flash = some (op, line)) :
    (flashEnds v h n).2.rd (K.OUTPOST_FLSTAT_BUSY n) = 0 ∧ (flashEnds v h n).2.rd (K.OUTPOST_FLSTAT_STATUS n) = 0 ∧
    ((flashEnds v h n).2.die n).out.flash = none := by
  cases op with
  | read =>
    rw [flashEnds_read hf]
    dsimp only
    rw [rd_flBufLoad fun w => by simp only [Key.id, K.OUTPOST_FLSTAT_BUSY, K.OUTPOST_FLBUF_BYTES]; omega,
      rd_flBufLoad fun w => by simp only [Key.id, K.OUTPOST_FLSTAT_STATUS, K.OUTPOST_FLBUF_BYTES]; omega, die_flBufLoad]
    exact ⟨busy_flashIdle, status_flashIdle, flash_flashIdle⟩
  | program =>
    rw [flashEnds_program hf]
    exact ⟨busy_flashIdle, status_flashIdle, flash_flashIdle⟩
  | erase =>
    rw [flashEnds_erase hf]
    exact ⟨busy_flashIdle, status_flashIdle, flash_flashIdle⟩

/-- A programmed line keeps the zeros it had; the other lines stay. -/
theorem flashLine_program (j x : Nat) :
    flashLine { v with flash := SMap.set v.flash (n * 8192 + line) x flashOnes } n j = if j = line then x else flashLine v n j := by
  unfold flashLine
  split
  next hj =>
    rw [hj]
    exact SMap.get_set_self ..
  next hj => exact SMap.get_set_ne _ (by omega) ..

/-- An erased page reads all ones; the other pages stay. -/
theorem flashLine_erase (j : Nat) :
    flashLine { v with flash := SMap.keep v.flash fun k _ => k / 64 != n * 128 + line / 64 } n j =
      if j / 64 = line / 64 then flashOnes else flashLine v n j := by
  unfold flashLine
  refine (SMap.get_keep v.flash (fun k => k / 64 != n * 128 + line / 64) _ _).trans ?_
  by_cases hp : j / 64 = line / 64
  · rw [if_pos hp, if_neg (by simp only [bne_iff_ne, ne_eq, not_not]; omega)]
  · rw [if_neg hp, if_pos (by simp only [bne_iff_ne, ne_eq]; omega)]

end

/-- Settles O37: the commands of the owner on an idle block, and what each operation leaves at its end. -/
theorem userFlash : Obligations.UserFlash := by
  unfold Obligations.UserFlash
  refine ⟨fun s d src line hw hb => ?_, fun s d op line hf hl => ⟨_, rfl, ?_⟩⟩
  · have hb' : (sideBase s.hw d.val src).bit (K.OUTPOST_FLSTAT_BUSY d.val) = false := (Hw.bit_congr csr_sideBase _).trans hb
    have hcount : ∀ p, eraseCount (sideBase s.hw d.val src) d.val p = eraseCount s.hw d.val p := fun p => by
      rw [eraseCount, ecount_sideBase, eraseCount]
    refine ⟨⟨_, rfl, ?_⟩, ⟨_, rfl, ?_⟩, fun hc => ⟨_, rfl, ?_⟩, fun hc => ⟨_, rfl, ?_⟩⟩ <;> simp only [State.onHw]
    · rw [sideWrite_flash hw line.isLt (by decide), flashCommand_read hb']
      exact ⟨flash_flashing _, busy_flashing _, trivial⟩
    · rw [sideWrite_flash hw line.isLt (by decide), flashCommand_program hb']
      exact ⟨flash_flashing _, busy_flashing _, trivial⟩
    · rw [sideWrite_flash hw line.isLt (by decide), flashCommand_erase hb' (by rwa [hcount]), ← hcount]
      exact ⟨flash_flashing _, busy_flashing _, eraseCount_eraseCounted .., trivial⟩
    · rw [sideWrite_flash hw line.isLt (by decide), flashCommand_worn hb' (by rwa [hcount])]
      exact ⟨Hw.rd_wr_self .., out_sideBase, trivial⟩
  · obtain ⟨hbusy, hstat, hfl⟩ := flashEnds_idle (v := s.nv) hf
    refine ⟨hbusy, hstat, hfl, fun ho => ?_, fun ho => ?_, fun ho j _ => ?_⟩ <;> subst ho
    · rw [flashEnds_read hf]
      exact ⟨rfl, fun w hw => bytes_flBufLoad _ (List.mem_range.2 hw) _⟩
    · rw [flashEnds_program hf]
      exact ⟨(flashLine_program ..).trans (if_pos rfl), fun j _ hne => (flashLine_program ..).trans (if_neg hne)⟩
    · rw [flashEnds_erase hf]
      exact flashLine_erase j

end Sys2Proof.Machine
end

section
/-!
PROOF. FencesAndSpines: what the fabric's select and enable inputs move when a fence moves, then the fences, the mask table and the
spines (R85, R86, R304 to R307, R317, R323).
-/
namespace Sys2Proof.Machine

/-! ### The design at rest -/

/-- Every network of the device is halted. -/
def AllHalted (h : Hw) : Prop := ∀ n m, n < 4 → m < 64 → netHalted h n m = true

theorem runDesign_of_halted {h : Hw} (hh : AllHalted h) : runDesign h = h := by
  have none : anyRuns h = false := by
    unfold anyRuns
    rw [List.any_eq_false]
    intro i hi
    have := List.mem_range.1 hi
    simp [netRuns, hh (i / 64) (i % 64) (by omega) (by omega)]
  unfold runDesign
  rw [none]
  rfl

theorem AllHalted.congr {h t : Hw} (hh : AllHalted h)
    (hr : ∀ n m, n < 4 → m < 64 → t.rd (K.CLK_NET_STAT_HALTED n m) = h.rd (K.CLK_NET_STAT_HALTED n m)) : AllHalted t :=
  fun n m hn hm => by
    have := hh n m hn hm
    unfold netHalted Hw.bit at this ⊢
    rwa [hr n m hn hm]

theorem offSched_halted {n m : Nat} : OffSched (K.CLK_NET_STAT_HALTED n m) := by
  simp only [OffSched, K.CLK_NET_STAT_HALTED]
  omega

/-! ### The inputs from the fabric -/

/-- From h to t the select and enable inputs of die n that are in use took what the design presents. -/
structure SitesMoved (n : Nat) (h t : Hw) : Prop where
  gal : t.gal = h.gal
  strata : t.strata = h.strata
  assay : t.assay = h.assay
  keys : t.keys = h.keys
  ldr : t.ldr = h.ldr
  rst : t.rst = h.rst
  pwr : t.pwr = h.pwr
  plls : t.clk.plls = h.clk.plls
  die : ∀ m, (t.die m).control = (h.die m).control
  rd : ∀ k, OffSched k → (∀ m, m < 64 → k.id ≠ (K.CLK_NET_STAT_SWITCHING n m).id) → t.rd k = h.rd k
  rest : AllHalted h → t.dies = h.dies

namespace SitesMoved
variable {n : Nat} {h t u : Hw}

theorem halted (a : SitesMoved n h t) (hh : AllHalted h) : AllHalted t :=
  hh.congr fun _ _ _ _ => a.rd _ offSched_halted fun m _ => by
    simp only [Key.id, K.CLK_NET_STAT_HALTED, K.CLK_NET_STAT_SWITCHING]
    omega

theorem refl (h : Hw) : SitesMoved n h h := ⟨rfl, rfl, rfl, rfl, rfl, rfl, rfl, rfl, fun _ => rfl, fun _ _ _ => rfl, fun _ => rfl⟩
theorem trans (a : SitesMoved n h t) (b : SitesMoved n t u) : SitesMoved n h u where
  gal := b.gal.trans a.gal
  strata := b.strata.trans a.strata
  assay := b.assay.trans a.assay
  keys := b.keys.trans a.keys
  ldr := b.ldr.trans a.ldr
  rst := b.rst.trans a.rst
  pwr := b.pwr.trans a.pwr
  plls := b.plls.trans a.plls
  die m := (b.die m).trans (a.die m)
  rd k hk hs := (b.rd k hk hs).trans (a.rd k hk hs)
  rest hh := (b.rest (a.halted hh)).trans (a.rest hh)

theorem runDesign (h : Hw) : SitesMoved n h (runDesign h) where
  gal := (designRan_runDesign h).gal
  strata := (designRan_runDesign h).strata
  assay := (designRan_runDesign h).assay
  keys := (designRan_runDesign h).keys
  ldr := (designRan_runDesign h).ldr
  rst := (designRan_runDesign h).rst
  pwr := (designRan_runDesign h).pwr
  plls := (designRan_runDesign h).plls
  die := (designRan_runDesign h).die
  rd k hk _ := (designRan_runDesign h).rd k hk
  rest hh := by rw [runDesign_of_halted hh]

theorem onNet (h : Hw) (m : Nat) (f : NetSt → NetSt) : SitesMoved n h (h.onNet n m f) :=
  ⟨rfl, rfl, rfl, rfl, rfl, rfl, rfl, rfl, fun _ => rfl, fun _ _ _ => rfl, fun _ => rfl⟩
theorem draw (h : Hw) : SitesMoved n h h.draw.2 :=
  ⟨rfl, rfl, rfl, rfl, rfl, rfl, rfl, rfl, fun _ => rfl, fun _ _ _ => rfl, fun _ => rfl⟩
theorem switching (h : Hw) {m : Nat} (hm : m < 64) (v : Nat) : SitesMoved n h (h.wr (K.CLK_NET_STAT_SWITCHING n m) v) :=
  ⟨rfl, rfl, rfl, rfl, rfl, rfl, rfl, rfl, fun _ => rfl, fun _ _ hs => Hw.rd_wr_ne h (hs m hm) v, fun _ => rfl⟩

theorem trySwitch (h : Hw) {m : Nat} (hm : m < 64) : SitesMoved n h (trySwitch h n m) := by
  unfold Machine.trySwitch
  dsimp only
  split
  · exact .trans (onNet h m fun x => { x with sw := .waitOld, target := wantedInput h n m }) (switching _ hm 1)
  · exact refl h

theorem setFen (h : Hw) (m : Nat) (v : Bool) : SitesMoved n h (setFen h n m v) :=
  .trans (runDesign h) (onNet ..)
theorem setFsel (h : Hw) {m : Nat} (hm : m < 64) (v : Bool) : SitesMoved n h (setFsel h n m v) :=
  .trans (.trans (runDesign h) (onNet ..)) (trySwitch _ hm)

theorem foldl {α : Type} {f : Hw → α → Hw} {l : List α} (hf : ∀ h, ∀ x ∈ l, SitesMoved n h (f h x)) (h : Hw) :
    SitesMoved n h (l.foldl f h) :=
  List.foldlRecOn (motive := SitesMoved n h) l f (refl h) fun t ht x hx => ht.trans (hf t x hx)

end SitesMoved

/-- What `refreshSites` can move. -/
theorem sitesMoved_refreshSites {n : Nat} (h : Hw) : SitesMoved n h (refreshSites h n) := by
  refine SitesMoved.foldl (fun t m hm => ?_) h
  have hm := List.mem_range.1 hm
  have sel : ∀ (v : Bool), SitesMoved n t (if v = (t.net n m).fsel then t.draw.2 else setFsel t.draw.2 n m v) := fun v => by
    split
    · exact .draw t
    · exact .trans (.draw t) (.setFsel _ hm v)
  have en : ∀ (u : Hw) (v : Bool), SitesMoved n u (if v = (u.net n m).fen then u.draw.2 else setFen u.draw.2 n m v) := fun u v => by
    split
    · exact .draw u
    · exact .trans (.draw u) (.setFen _ m v)
  have first : SitesMoved n t (if t.bit (K.CLK_NET_SRC_SELSRC n m) then
      (if presented t t.freeCtr n (.fsel m) = (t.net n m).fsel then t.draw.2
        else setFsel t.draw.2 n m (presented t t.freeCtr n (.fsel m))) else t) := by
    split
    · exact sel _
    · exact .refl t
  revert first
  dsimp only
  generalize (if t.bit (K.CLK_NET_SRC_SELSRC n m) then
      (if presented t t.freeCtr n (.fsel m) = (t.net n m).fsel then t.draw.2
        else setFsel t.draw.2 n m (presented t t.freeCtr n (.fsel m))) else t) = u
  intro first
  refine first.trans ?_
  split
  · exact en _ _
  · exact .refl _

/-! ### A fence closes -/

section
variable {h : Hw} {n s : Nat}

/-- A part that the design does not work on is the same in dies that agree on it. -/
theorem of_control {β : Type} (part : DieSt → β) (hp : ∀ x, part x.control = part x) {x y : DieSt} (e : x.control = y.control) :
    part x = part y := by
  rw [← hp x, e, hp]

/-- What leaves the scrubber of every die, the marks of its frames and the registers off the scheduler alone. -/
structure ScrubKept (h t : Hw) : Prop where
  scrub : ∀ m, (t.die m).scrub = (h.die m).scrub
  frameErr : ∀ m, (t.die m).frameErr = (h.die m).frameErr
  rd : ∀ k, OffSched k → t.rd k = h.rd k

theorem ScrubKept.refl (h : Hw) : ScrubKept h h := ⟨fun _ => rfl, fun _ => rfl, fun _ _ => rfl⟩
theorem ScrubKept.trans {h t u : Hw} (a : ScrubKept h t) (b : ScrubKept t u) : ScrubKept h u :=
  ⟨fun m => (b.scrub m).trans (a.scrub m), fun m => (b.frameErr m).trans (a.frameErr m), fun k hk => (b.rd k hk).trans (a.rd k hk)⟩
theorem ScrubKept.of_dies {h t : Hw} (hd : t.dies = h.dies) (hr : ∀ k, OffSched k → t.rd k = h.rd k) : ScrubKept h t :=
  ⟨fun m => congrArg DieSt.scrub (die_congr hd m), fun m => congrArg DieSt.frameErr (die_congr hd m), hr⟩
theorem ScrubKept.onDie (h : Hw) (n : Nat) {f : DieSt → DieSt} (hs : ∀ x, (f x).scrub = x.scrub) (hf : ∀ x, (f x).frameErr = x.frameErr) :
    ScrubKept h (h.onDie n f) := by
  refine ⟨fun m => ?_, fun m => ?_, fun _ _ => rfl⟩ <;> by_cases hm : m = n
  · rw [hm, Hw.die_onDie_self, hs]
  · rw [Hw.die_onDie_ne h hm]
  · rw [hm, Hw.die_onDie_self, hf]
  · rw [Hw.die_onDie_ne h hm]
theorem ScrubKept.runDesign (h : Hw) : ScrubKept h (runDesign h) :=
  ⟨fun m => of_control DieSt.scrub (fun _ => rfl) ((designRan_runDesign h).die m),
    fun m => of_control DieSt.frameErr (fun _ => rfl) ((designRan_runDesign h).die m), (designRan_runDesign h).rd⟩

/-- A write a sector port held is performed. -/
theorem ScrubKept.secPerform (h : Hw) (n s : Nat) {r : SecReq} (hw : r.wr = true) : ScrubKept h (secPerform h n s r) := by
  unfold Machine.secPerform
  dsimp only
  rw [if_pos hw]
  split
  · exact .onDie h n (fun _ => rfl) fun _ => rfl
  · exact .of_dies (kept_hubWrite ..).dies (kept_hubWrite ..).rd

/-- A sector's port without its requests, its writes performed. -/
def heldWritten (h : Hw) (n s : Nat) : Hw :=
  ((secWaiting h n s).filter (·.wr)).foldl (fun h r => secPerform h n s r) (setSecReqs h.draw.2 n s [])

theorem scrubKept_heldWritten : ScrubKept h (heldWritten h n s) := by
  have first : ScrubKept h (setSecReqs h.draw.2 n s []) := by
    unfold setSecReqs
    refine .trans (.of_dies (t := h.draw.2) rfl fun _ _ => rfl) (.onDie _ n ?_ ?_)
    · exact fun _ => rfl
    · exact fun _ => rfl
  unfold heldWritten
  refine List.foldlRecOn (motive := ScrubKept h) _ _ first fun t ht r hr => ht.trans (.secPerform t n s ?_)
  exact (List.mem_filter.1 hr).2

/-- What a die holds once a fence of it has closed. -/
def fencedDie (s : Nat) (wires : List Wire) (taps : Nat) (x : DieSt) : DieSt :=
  { x with
    secResps := SMap.set x.secResps s ((SMap.get x.secResps s []).filter fun r => !r.read) []
    held := SMap.put x.held s wires
    taps := SMap.set x.taps s taps 0
    strata := match x.strata with
      | .capture c => .capture { c with fenced := setBitAt c.fenced s true }
      | o => o }

theorem secResps_fencedDie (s : Nat) (wires : List Wire) (taps : Nat) (x : DieSt) : (fencedDie s wires taps x).secResps =
    SMap.set x.secResps s ((SMap.get x.secResps s []).filter fun r => !r.read) [] := rfl

/-- A fence that was open closes: the writes held are performed, then the fence stands. -/
theorem closeFence_eq (hb : h.bit (K.FENCE_SEC_FENCE n s) = false) : ∃ wires taps, closeFence h n s =
    refreshSites ((((heldWritten (runDesign h) n s).wr (K.FENCE_SEC_FENCE n s) 1).wr (K.FENCE_SEC_SETTLED n s) 0).onDie n
      (fencedDie s wires taps)) n := by
  unfold closeFence
  rw [if_neg (by simp [hb])]
  exact ⟨_, _, rfl⟩

/-- A register that neither a fence nor the inputs from the fabric have. -/
structure OffFence (n s : Nat) (k : Key) : Prop where
  sched : OffSched k
  sw : ∀ m, m < 64 → k.id ≠ (K.CLK_NET_STAT_SWITCHING n m).id
  fence : k.id ≠ (K.FENCE_SEC_FENCE n s).id
  settled : k.id ≠ (K.FENCE_SEC_SETTLED n s).id

theorem offSched_fence (hs : s < 192) : OffSched (K.FENCE_SEC_FENCE n s) := by
  simp only [OffSched, K.FENCE_SEC_FENCE]
  omega
theorem fence_ne_switching (m : Nat) : (K.FENCE_SEC_FENCE n s).id ≠ (K.CLK_NET_STAT_SWITCHING n m).id := by
  simp only [Key.id, K.FENCE_SEC_FENCE, K.CLK_NET_STAT_SWITCHING]
  omega
theorem offSched_settled (hs : s < 192) : OffSched (K.FENCE_SEC_SETTLED n s) := by
  simp only [OffSched, K.FENCE_SEC_SETTLED]
  omega
theorem settled_ne_switching (m : Nat) : (K.FENCE_SEC_SETTLED n s).id ≠ (K.CLK_NET_STAT_SWITCHING n m).id := by
  simp only [Key.id, K.FENCE_SEC_SETTLED, K.CLK_NET_STAT_SWITCHING]
  omega
theorem fence_ne_settled : (K.FENCE_SEC_FENCE n s).id ≠ (K.FENCE_SEC_SETTLED n s).id := by
  simp only [Key.id, K.FENCE_SEC_FENCE, K.FENCE_SEC_SETTLED]
  omega

/-- A fence that has closed. -/
theorem closeFence_closes (hs : s < 192) (hb : h.bit (K.FENCE_SEC_FENCE n s) = false) :
    (closeFence h n s).rd (K.FENCE_SEC_FENCE n s) = 1 ∧ (closeFence h n s).rd (K.FENCE_SEC_SETTLED n s) = 0 ∧
    ∀ r ∈ secQueue (closeFence h n s) n s, r.read = false := by
  obtain ⟨wires, taps, he⟩ := closeFence_eq hb
  rw [he]
  generalize heldWritten (runDesign h) n s = g
  have moved := sitesMoved_refreshSites (n := n)
    (((g.wr (K.FENCE_SEC_FENCE n s) 1).wr (K.FENCE_SEC_SETTLED n s) 0).onDie n (fencedDie s wires taps))
  refine ⟨?_, ?_, ?_⟩
  · rw [moved.rd _ (offSched_fence hs) fun m _ => fence_ne_switching m, Hw.rd_onDie, Hw.rd_wr_ne _ fence_ne_settled, Hw.rd_wr_self]
    rfl
  · rw [moved.rd _ (offSched_settled hs) fun m _ => settled_ne_switching m, Hw.rd_onDie, Hw.rd_wr_self]
    rfl
  · have hd := of_control DieSt.secResps (fun _ => rfl) (moved.die n)
    rw [Hw.die_onDie_self] at hd
    have hq := congrArg (fun l => SMap.get l s []) hd
    rw [secResps_fencedDie] at hq
    have hq : secQueue _ n s = _ := hq.trans (SMap.get_set_self ..)
    rw [hq]
    intro r hr
    simpa using (List.mem_filter.1 hr).2

/-- A fence that closes leaves the scrubber, the frames' marks and the other registers alone. -/
theorem closeFence_keeps (m : Nat) : ((closeFence h n s).die m).scrub = (h.die m).scrub ∧
    ((closeFence h n s).die m).frameErr = (h.die m).frameErr ∧
    ∀ k, OffFence n s k → (closeFence h n s).rd k = h.rd k := by
  cases hb : h.bit (K.FENCE_SEC_FENCE n s) with
  | true =>
    have he : closeFence h n s = h := if_pos hb
    rw [he]
    exact ⟨rfl, rfl, fun _ _ => rfl⟩
  | false =>
    obtain ⟨wires, taps, he⟩ := closeFence_eq hb
    have written := (ScrubKept.runDesign h).trans (scrubKept_heldWritten (n := n) (s := s))
    have fenced : ScrubKept (((heldWritten (runDesign h) n s).wr (K.FENCE_SEC_FENCE n s) 1).wr (K.FENCE_SEC_SETTLED n s) 0)
        ((((heldWritten (runDesign h) n s).wr (K.FENCE_SEC_FENCE n s) 1).wr (K.FENCE_SEC_SETTLED n s) 0).onDie n
          (fencedDie s wires taps)) := .onDie _ n (fun _ => rfl) fun _ => rfl
    rw [he]
    revert written fenced
    generalize heldWritten (runDesign h) n s = g
    intro written fenced
    have moved := sitesMoved_refreshSites (n := n)
      (((g.wr (K.FENCE_SEC_FENCE n s) 1).wr (K.FENCE_SEC_SETTLED n s) 0).onDie n (fencedDie s wires taps))
    have hscrub := of_control DieSt.scrub (fun _ => rfl) (moved.die m)
    have herr := of_control DieSt.frameErr (fun _ => rfl) (moved.die m)
    refine ⟨(hscrub.trans (fenced.scrub m)).trans (written.scrub m), (herr.trans (fenced.frameErr m)).trans (written.frameErr m),
      fun k hk => ?_⟩
    rw [moved.rd k hk.sched hk.sw, Hw.rd_onDie, Hw.rd_wr_ne _ hk.settled, Hw.rd_wr_ne _ hk.fence, written.rd k hk.sched]

end

/-! ### A fence settles and lifts -/

/-- What leaves the frames of every die and the halted networks alone. -/
structure FramesKept (h t : Hw) : Prop where
  frames : ∀ m, (t.die m).frames = (h.die m).frames
  halted : ∀ n m, m < 64 → t.rd (K.CLK_NET_STAT_HALTED n m) = h.rd (K.CLK_NET_STAT_HALTED n m)

namespace FramesKept
variable {h t u : Hw}

theorem refl (h : Hw) : FramesKept h h := ⟨fun _ => rfl, fun _ _ _ => rfl⟩
theorem trans (a : FramesKept h t) (b : FramesKept t u) : FramesKept h u :=
  ⟨fun m => (b.frames m).trans (a.frames m), fun n m hm => (b.halted n m hm).trans (a.halted n m hm)⟩
theorem of_kept (a : Kept h t) : FramesKept h t :=
  ⟨fun m => congrArg DieSt.frames (die_congr a.dies m), fun _ _ _ => a.rd _ offSched_halted⟩
theorem onDie (h : Hw) (n : Nat) {f : DieSt → DieSt} (hf : ∀ x, (f x).frames = x.frames) : FramesKept h (h.onDie n f) := by
  refine ⟨fun m => ?_, fun _ _ _ => rfl⟩
  by_cases hm : m = n
  · rw [hm, Hw.die_onDie_self, hf]
  · rw [Hw.die_onDie_ne h hm]
theorem wr (h : Hw) {k : Key} (hk : ∀ n m, m < 64 → (K.CLK_NET_STAT_HALTED n m).id ≠ k.id) (v : Nat) :
    FramesKept h (h.wr k v) :=
  ⟨fun _ => rfl, fun n m hm => Hw.rd_wr_ne h (hk n m hm) v⟩
theorem allHalted (a : FramesKept h t) (hh : AllHalted h) : AllHalted t := hh.congr fun n m _ hm => a.halted n m hm
theorem runDesign (hh : AllHalted h) : FramesKept h (runDesign h) := by
  rw [runDesign_of_halted hh]
  exact refl h

end FramesKept

section
variable {h : Hw} {n s : Nat}

/-- The INIT values of a sector are in its frames. -/
theorem initMask_congr {t : Hw} (hf : (t.die n).frames = (h.die n).frames) : initMask t n s = initMask h n s := by
  have frame : frameOf t n = frameOf h n := funext fun k => by rw [frameOf, hf, frameOf]
  unfold initMask ffCfg cfgNum
  rw [frame]

theorem halted_ne_settled (hs : s < 192) (n' m : Nat) (hm : m < 64) :
    (K.CLK_NET_STAT_HALTED n' m).id ≠ (K.FENCE_SEC_SETTLED n s).id := by
  simp only [Key.id, K.CLK_NET_STAT_HALTED, K.FENCE_SEC_SETTLED]
  omega

theorem framesKept_settleFence (hs : s < 192) (hh : AllHalted h) : FramesKept h (settleFence h n s) := by
  unfold settleFence
  split
  · dsimp only
    rw [runDesign_of_halted hh]
    refine .trans (.wr h (k := K.FENCE_SEC_SETTLED n s) (halted_ne_settled hs) 1)
      (.trans (.onDie _ n (f := fun x => { x with taps := SMap.erase x.taps s }) fun _ => rfl) ?_)
    exact ⟨fun _ => rfl, fun _ _ _ => rfl⟩
  · exact .refl h

theorem halted_ne_incomplete (n n' m : Nat) (hm : m < 64) :
    (K.CLK_NET_STAT_HALTED n' m).id ≠ (K.SCRUB_STAT_INCOMPLETE n).id := by
  simp only [Key.id, K.CLK_NET_STAT_HALTED, K.SCRUB_STAT_INCOMPLETE]
  omega

theorem framesKept_nextSector (h : Hw) (n s : Nat) : FramesKept h (nextSector h n s) := by
  have first : FramesKept h ((h.wr (K.SCRUB_STAT_FRAME n) 0).onDie n fun x => { x with scrub := { x.scrub with acc := [] } }) :=
    .trans (.wr h (fun n' m hm => by simp only [Key.id, K.CLK_NET_STAT_HALTED, K.SCRUB_STAT_FRAME]; omega) 0) (.onDie _ n fun _ => rfl)
  unfold nextSector
  dsimp only
  revert first
  generalize (h.wr (K.SCRUB_STAT_FRAME n) 0).onDie n (fun x => { x with scrub := { x.scrub with acc := [] } }) = g
  intro first
  refine first.trans ?_
  split
  · exact .wr g (fun n' m hm => by simp only [Key.id, K.CLK_NET_STAT_HALTED, K.SCRUB_STAT_SECTOR]; omega) _
  · refine .trans (.onDie g n ?_) (.trans (.wr _ (k := K.SCRUB_STAT_SECTOR n) (fun n' m hm => ?_) 0)
      (.wr _ (k := K.SCRUB_STAT_INCOMPLETE n) (halted_ne_incomplete n) 0))
    · exact fun _ => rfl
    · simp only [Key.id, K.CLK_NET_STAT_HALTED, K.SCRUB_STAT_SECTOR]
      omega

theorem framesKept_skipRest (h : Hw) (n s : Nat) : FramesKept h (skipRest h n s) := by
  unfold skipRest
  split
  · exact .trans (.wr h (k := K.SCRUB_STAT_INCOMPLETE n) (halted_ne_incomplete n) 1) (framesKept_nextSector ..)
  · exact .refl h

/-- What a die holds once a fence of it has been lifted. -/
def liftedDie (s init high : Nat) (x : DieSt) : DieSt :=
  { x with
    ff := SMap.put x.ff s init
    held := SMap.erase x.held s
    taps := SMap.set x.taps s high 0
    scrub := { x.scrub with secReady := x.scrub.secReady.filter (· != s) } }

/-- The registers of a die whose fence has been lifted. -/
def liftedRegs (g : Hw) (n s : Nat) : Hw :=
  dieUnready (((g.wr (K.FENCE_SEC_FENCE n s) 0).wr (K.FENCE_SEC_SETTLED n s) 0).wr (K.FENCE_SEC_LIFTING n s) 0) n

/-- The state in which a sector restarts. -/
def skipped (h : Hw) (n s : Nat) : Hw := skipRest (runDesign (settleFence h n s)) n s

theorem liftFence_eq (hb : h.bit (K.FENCE_SEC_FENCE n s) = true) : ∃ high, liftFence h n s =
    refreshSites (liftedRegs ((skipped h n s).onDie n (liftedDie s (initMask (skipped h n s) n s) high)) n s) n := by
  unfold liftFence
  rw [if_neg (by simp [hb])]
  exact ⟨_, rfl⟩

theorem framesKept_skipped (hs : s < 192) (hh : AllHalted h) : FramesKept h (skipped h n s) :=
  have settled := framesKept_settleFence (n := n) hs hh
  (settled.trans (.runDesign (settled.allHalted hh))).trans (framesKept_skipRest ..)

theorem framesKept_liftedRegs (g : Hw) (hs : s < 192) : FramesKept g (liftedRegs g n s) := by
  unfold liftedRegs dieUnready
  dsimp only
  refine .trans (.wr g (k := K.FENCE_SEC_FENCE n s) (fun n' m hm => ?_) 0) (.trans (.wr _ (halted_ne_settled hs) 0)
    (.trans (.wr _ (k := K.FENCE_SEC_LIFTING n s) (fun n' m hm => ?_) 0) (.trans (.onDie _ n ?_)
      (.trans (.wr _ (k := K.ASSAY_STAT_READY n) (fun n' m hm => ?_) 0) (.wr _ (k := K.CFG_ASSAYSTAT_DEVREADY) (fun n' m hm => ?_) 0)))))
  · simp only [Key.id, K.CLK_NET_STAT_HALTED, K.FENCE_SEC_FENCE]
    omega
  · simp only [Key.id, K.CLK_NET_STAT_HALTED, K.FENCE_SEC_LIFTING]
    omega
  · exact fun _ => rfl
  · simp only [Key.id, K.CLK_NET_STAT_HALTED, K.ASSAY_STAT_READY]
    omega
  · simp only [Key.id, K.CLK_NET_STAT_HALTED, K.CFG_ASSAYSTAT_DEVREADY]
    omega

theorem ff_liftedRegs (g : Hw) : ((liftedRegs g n s).die n).ff = (g.die n).ff := by
  unfold liftedRegs dieUnready
  dsimp only
  rw [Hw.die_wr, Hw.die_wr, Hw.die_onDie_self, Hw.die_wr, Hw.die_wr, Hw.die_wr]

/-- The registers after a lift. -/
theorem rd_liftedRegs (g : Hw) (hs : s < 192) : (liftedRegs g n s).rd (K.FENCE_SEC_FENCE n s) = 0 ∧
    (liftedRegs g n s).rd (K.FENCE_SEC_SETTLED n s) = 0 ∧ (liftedRegs g n s).rd (K.ASSAY_STAT_READY n) = 0 ∧
    (liftedRegs g n s).rd K.CFG_ASSAYSTAT_DEVREADY = 0 := by
  have fs := fence_ne_settled (n := n) (s := s)
  have fl : (K.FENCE_SEC_FENCE n s).id ≠ (K.FENCE_SEC_LIFTING n s).id := by
    simp only [Key.id, K.FENCE_SEC_FENCE, K.FENCE_SEC_LIFTING]
    omega
  have fr : (K.FENCE_SEC_FENCE n s).id ≠ (K.ASSAY_STAT_READY n).id := by
    simp only [Key.id, K.FENCE_SEC_FENCE, K.ASSAY_STAT_READY]
    omega
  have fd : (K.FENCE_SEC_FENCE n s).id ≠ K.CFG_ASSAYSTAT_DEVREADY.id := by
    simp only [Key.id, K.FENCE_SEC_FENCE, K.CFG_ASSAYSTAT_DEVREADY]
    omega
  have sl : (K.FENCE_SEC_SETTLED n s).id ≠ (K.FENCE_SEC_LIFTING n s).id := by
    simp only [Key.id, K.FENCE_SEC_SETTLED, K.FENCE_SEC_LIFTING]
    omega
  have sr : (K.FENCE_SEC_SETTLED n s).id ≠ (K.ASSAY_STAT_READY n).id := by
    simp only [Key.id, K.FENCE_SEC_SETTLED, K.ASSAY_STAT_READY]
    omega
  have sd : (K.FENCE_SEC_SETTLED n s).id ≠ K.CFG_ASSAYSTAT_DEVREADY.id := by
    simp only [Key.id, K.FENCE_SEC_SETTLED, K.CFG_ASSAYSTAT_DEVREADY]
    omega
  have rd : (K.ASSAY_STAT_READY n).id ≠ K.CFG_ASSAYSTAT_DEVREADY.id := by
    simp only [Key.id, K.ASSAY_STAT_READY, K.CFG_ASSAYSTAT_DEVREADY]
    omega
  unfold liftedRegs dieUnready
  dsimp only
  refine ⟨?_, ?_, ?_, ?_⟩
  · rw [Hw.rd_wr_ne _ fd, Hw.rd_wr_ne _ fr, Hw.rd_onDie, Hw.rd_wr_ne _ fl, Hw.rd_wr_ne _ fs, Hw.rd_wr_self, Nat.zero_mod]
  · rw [Hw.rd_wr_ne _ sd, Hw.rd_wr_ne _ sr, Hw.rd_onDie, Hw.rd_wr_ne _ sl, Hw.rd_wr_self, Nat.zero_mod]
  · rw [Hw.rd_wr_ne _ rd, Hw.rd_wr_self, Nat.zero_mod]
  · rw [Hw.rd_wr_self, Nat.zero_mod]

theorem offSched_ready : OffSched (K.ASSAY_STAT_READY n) := by
  simp only [OffSched, K.ASSAY_STAT_READY]
  omega
theorem offSched_devReady : OffSched K.CFG_ASSAYSTAT_DEVREADY := by
  simp only [OffSched, K.CFG_ASSAYSTAT_DEVREADY]
  omega

/-- A fence that has been lifted. -/
theorem liftFence_lifts (hs : s < 192) (hb : h.bit (K.FENCE_SEC_FENCE n s) = true) :
    (liftFence h n s).rd (K.FENCE_SEC_FENCE n s) = 0 ∧ (liftFence h n s).rd (K.FENCE_SEC_SETTLED n s) = 0 ∧
    (AllHalted h → SMap.get ((liftFence h n s).die n).ff s 0 = initMask h n s) ∧
    (liftFence h n s).rd (K.ASSAY_STAT_READY n) = 0 ∧ (liftFence h n s).rd K.CFG_ASSAYSTAT_DEVREADY = 0 := by
  obtain ⟨high, he⟩ := liftFence_eq hb
  have rest : AllHalted h → FramesKept h (skipped h n s) := framesKept_skipped hs
  rw [he]
  revert rest
  generalize skipped h n s = g
  intro rest
  obtain ⟨hf, hset, hready, hdev⟩ := rd_liftedRegs (n := n) (s := s) (g.onDie n (liftedDie s (initMask g n s) high)) hs
  have moved := sitesMoved_refreshSites (n := n) (liftedRegs (g.onDie n (liftedDie s (initMask g n s) high)) n s)
  refine ⟨(moved.rd _ (offSched_fence hs) fun m _ => fence_ne_switching m).trans hf,
    (moved.rd _ (offSched_settled hs) fun m _ => settled_ne_switching m).trans hset, fun hh => ?_,
    (moved.rd _ offSched_ready fun m hm => ?_).trans hready, (moved.rd _ offSched_devReady fun m hm => ?_).trans hdev⟩
  · have halted : AllHalted (liftedRegs (g.onDie n (liftedDie s (initMask g n s) high)) n s) :=
      (framesKept_liftedRegs _ hs).allHalted ((FramesKept.onDie g n (f := liftedDie s (initMask g n s) high) fun _ => rfl).allHalted
        ((rest hh).allHalted hh))
    rw [die_congr (moved.rest halted), ff_liftedRegs, Hw.die_onDie_self]
    exact (SMap.get_put_self ..).trans (initMask_congr ((rest hh).frames n))
  · simp only [Key.id, K.ASSAY_STAT_READY, K.CLK_NET_STAT_SWITCHING]
    omega
  · simp only [Key.id, K.CFG_ASSAYSTAT_DEVREADY, K.CLK_NET_STAT_SWITCHING]
    omega

/-- A fence that settles. -/
theorem settleFence_settles (hf : h.bit (K.FENCE_SEC_FENCE n s) = true) (hb : h.bit (K.FENCE_SEC_SETTLED n s) = false) :
    (settleFence h n s).rd (K.FENCE_SEC_SETTLED n s) = 1 := by
  have regs : ∀ (g : Hw) (f : DieSt → DieSt) (x : Gallery),
      ({ (g.wr (K.FENCE_SEC_SETTLED n s) 1).onDie n f with gal := x } : Hw).rd (K.FENCE_SEC_SETTLED n s) = 1 :=
    fun g _ _ => (Hw.rd_wr_self g (K.FENCE_SEC_SETTLED n s) 1).trans rfl
  unfold settleFence
  rw [if_pos (by simp [hf, hb])]
  exact regs ..

theorem fence_ne_setting : (K.FENCE_SEC_FENCE n s).id ≠ (K.FENCE_SEC_SETTING n s).id := by
  simp only [Key.id, K.FENCE_SEC_FENCE, K.FENCE_SEC_SETTING]
  omega

/-- A write of FENCE = 1 closes an open fence. -/
theorem writeFence_close {m : Master} {data : Nat} (hs : s < 192) (hd : data.testBit 0 = true)
    (hb : h.bit (K.FENCE_SEC_FENCE n s) = false) :
    ∃ g, writeFence h m n s data = closeFence g n s ∧ g.bit (K.FENCE_SEC_FENCE n s) = false := by
  have set : ∀ v, (h.wr (K.FENCE_SEC_SETTING n s) v).bit (K.FENCE_SEC_FENCE n s) = false := fun v => by
    rw [← hb, Hw.bit, Hw.rd_wr_ne _ fence_ne_setting, Hw.bit]
  unfold writeFence
  dsimp only
  rw [hb, hd, if_neg Bool.false_ne_true]
  refine ⟨_, if_pos rfl, ?_⟩
  split
  · rw [Hw.bit, (kept_logErr ..).rd _ (offSched_fence hs)]
    exact set 0
  · exact set _

/-- A write of FENCE = 0 lifts a closed one. -/
theorem writeFence_lift {m : Master} {data : Nat} (hd : data.testBit 0 = false) (hb : h.bit (K.FENCE_SEC_FENCE n s) = true) :
    ∃ g, writeFence h m n s data = liftFence g n s ∧ Kept h g := by
  unfold writeFence
  dsimp only
  rw [hb, hd, if_pos rfl]
  refine ⟨_, if_neg Bool.false_ne_true, ?_⟩
  split
  · exact kept_logErr ..
  · exact .refl h

/-- The mask table is written where the sector is fenced or the die not released. -/
theorem writeMask_written {m : Master} {w v : Nat} (ho : (fenceSettled h n s || !released h n) = true) :
    writeMask h m n s w v = h.wr (K.MASK_SEC_W_BITS n s w) v := if_pos ho

end

/-! ### The spines -/

section
variable {h : Hw} {n col spine drv : Nat}

/-- The registers of a die once contention has been sensed. -/
def contentionRegs (h : Hw) (n col spine drv : Nat) : Hw :=
  let h := h.wr (K.SPINE_CSTAT_COL n) (h.rd (K.SPINE_CSTAT_COL n) ||| 2 ^ col)
  let h := h.wr (K.SPINE_OFF_OFF n col) (h.rd (K.SPINE_OFF_OFF n col) ||| 2 ^ spine)
  let h := ((((h.wr (K.SPINE_CLOG_DRV n) drv).wr (K.SPINE_CLOG_SPINE n) spine).wr (K.SPINE_CLOG_COL n) col).wr
    (K.SPINE_CLOG_OUTCOME n) 0).wr (K.SPINE_CLOG_VALID n) 1
  h.cnt (K.SPINE_COUNT_COUNT n)

theorem spineContention_eq : ∃ g, Kept (contentionRegs (runDesign h) n col spine drv) g ∧ spineContention h n col spine drv =
    g.onDie n fun x => { x with scrub := { x.scrub with repairs := x.scrub.repairs ++ [(col, spine, drv)] } } :=
  ⟨_, kept_logEvent _ (srcDie n) 0 (dieBase n + 0xD00008), rfl⟩

/-- What the contention log holds. -/
theorem contentionRegs_clog : (contentionRegs h n col spine drv).rd (K.SPINE_CLOG_DRV n) = drv % 2 ^ 16 ∧
    (contentionRegs h n col spine drv).rd (K.SPINE_CLOG_SPINE n) = spine % 2 ^ 6 ∧
    (contentionRegs h n col spine drv).rd (K.SPINE_CLOG_COL n) = col % 2 ^ 4 ∧
    (contentionRegs h n col spine drv).rd (K.SPINE_CLOG_VALID n) = 1 := by
  unfold contentionRegs Hw.cnt Hw.addSat
  dsimp only
  refine ⟨?_, ?_, ?_, ?_⟩ <;>
  simp -implicitDefEqProofs (disch := (simp only [Key.id, K.SPINE_CLOG_DRV, K.SPINE_CLOG_SPINE, K.SPINE_CLOG_COL, K.SPINE_CLOG_OUTCOME,
    K.SPINE_CLOG_VALID, K.SPINE_COUNT_COUNT]; omega)) only [Hw.rd_wr_ne, Hw.rd_wr_self]
  all_goals rfl

/-- The spine is off, and its column is marked. -/
theorem contentionRegs_off (hs : spine < 48) (hc : col < 12) :
    ((contentionRegs h n col spine drv).rd (K.SPINE_OFF_OFF n col)).testBit spine = true ∧
    ((contentionRegs h n col spine drv).rd (K.SPINE_CSTAT_COL n)).testBit col = true := by
  have mark : ∀ (x i w : Nat), i < w → ((x ||| 2 ^ i) % 2 ^ w).testBit i = true := fun x i w hi => by
    rw [Nat.testBit_mod_two_pow, Nat.testBit_or, Nat.testBit_two_pow_self, decide_eq_true hi, Bool.or_true, Bool.and_true]
  unfold contentionRegs Hw.cnt Hw.addSat
  dsimp only
  refine ⟨?_, ?_⟩
  · simp -implicitDefEqProofs (disch := (simp only [Key.id, K.SPINE_CLOG_DRV, K.SPINE_CLOG_SPINE, K.SPINE_CLOG_COL,
      K.SPINE_CLOG_OUTCOME, K.SPINE_CLOG_VALID, K.SPINE_COUNT_COUNT, K.SPINE_OFF_OFF]; omega)) only [Hw.rd_wr_ne, Hw.rd_wr_self]
    exact mark _ _ _ hs
  · simp -implicitDefEqProofs (disch := (simp only [Key.id, K.SPINE_CLOG_DRV, K.SPINE_CLOG_SPINE, K.SPINE_CLOG_COL,
      K.SPINE_CLOG_OUTCOME, K.SPINE_CLOG_VALID, K.SPINE_COUNT_COUNT, K.SPINE_OFF_OFF, K.SPINE_CSTAT_COL]; omega)) only
      [Hw.rd_wr_ne, Hw.rd_wr_self]
    exact mark _ _ _ hc

theorem offSched_spine : OffSched (K.SPINE_OFF_OFF n col) ∧ OffSched (K.SPINE_CSTAT_COL n) ∧ OffSched (K.SPINE_CLOG_DRV n) ∧
    OffSched (K.SPINE_CLOG_SPINE n) ∧ OffSched (K.SPINE_CLOG_COL n) ∧ OffSched (K.SPINE_CLOG_VALID n) := by
  simp only [OffSched, K.SPINE_OFF_OFF, K.SPINE_CSTAT_COL, K.SPINE_CLOG_DRV, K.SPINE_CLOG_SPINE, K.SPINE_CLOG_COL, K.SPINE_CLOG_VALID]
  omega

/-- Contention turns the spine off, stands in the log and waits for its repair. -/
theorem spineContention_logged (hs : spine < 48) (hc : col < 12) (hd : drv < 2 ^ 16) :
    let t := spineContention h n col spine drv
    (t.rd (K.SPINE_OFF_OFF n col)).testBit spine = true ∧ (t.rd (K.SPINE_CSTAT_COL n)).testBit col = true ∧
    t.rd (K.SPINE_CLOG_DRV n) = drv ∧ t.rd (K.SPINE_CLOG_SPINE n) = spine ∧ t.rd (K.SPINE_CLOG_COL n) = col ∧
    t.rd (K.SPINE_CLOG_VALID n) = 1 ∧ (t.die n).scrub.repairs = (h.die n).scrub.repairs ++ [(col, spine, drv)] := by
  intro t
  obtain ⟨g, kept, he⟩ := spineContention_eq (h := h) (n := n) (col := col) (spine := spine) (drv := drv)
  have ht : t = _ := he
  clear_value t
  subst ht
  obtain ⟨o1, o2, o3, o4, o5, o6⟩ := offSched_spine (n := n) (col := col)
  obtain ⟨off, cstat⟩ := contentionRegs_off (h := runDesign h) (n := n) (drv := drv) hs hc
  obtain ⟨c1, c2, c3, c4⟩ := contentionRegs_clog (h := runDesign h) (n := n) (col := col) (spine := spine) (drv := drv)
  have ran : (g.die n).scrub = (h.die n).scrub :=
    (congrArg DieSt.scrub (die_congr kept.dies n)).trans (of_control DieSt.scrub (fun _ => rfl) ((designRan_runDesign h).die n))
  rw [Hw.rd_onDie, Hw.rd_onDie, Hw.rd_onDie, Hw.rd_onDie, Hw.rd_onDie, Hw.rd_onDie, kept.rd _ o1, kept.rd _ o2, kept.rd _ o3,
    kept.rd _ o4, kept.rd _ o5, kept.rd _ o6, Hw.die_onDie_self, c1, c2, c3, c4, ran, Nat.mod_eq_of_lt hd,
    Nat.mod_eq_of_lt (show spine < 2 ^ 6 by omega), Nat.mod_eq_of_lt (show col < 2 ^ 4 by omega)]
  exact ⟨off, cstat, rfl, rfl, rfl, rfl, rfl⟩

/-! ### The repair -/

/-- A bit that was cleared. -/
theorem testBit_setBitAt_false (x i w : Nat) : (setBitAt x i false % 2 ^ w).testBit i = false := by
  unfold setBitAt
  rw [if_neg Bool.false_ne_true, Nat.testBit_mod_two_pow]
  split
  next hb =>
    rw [Nat.testBit_eq_decide_div_mod_eq, decide_eq_true_eq] at hb
    have hdiv := Nat.sub_mul_div x (2 ^ i) 1
    rw [Nat.mul_one] at hdiv
    rw [Nat.testBit_eq_decide_div_mod_eq, hdiv]
    have even : (x / 2 ^ i - 1) % 2 ≠ 1 := by omega
    simp [even]
  next hb =>
    rw [Nat.sub_zero, Bool.eq_false_iff.2 hb, Bool.and_false]

/-- A table kept where no entry of a key has a value does not read it there. -/
theorem SMap.get_keep_ne {m : SMap Nat} {p : Nat → Nat → Bool} {k v : Nat} (hv : v ≠ 0) (hp : p k v = false) :
    SMap.get (SMap.keep m p) k 0 ≠ v := by
  intro hg
  obtain h0 | hm := SMap.get_eq_or_mem (SMap.keep m p) k 0
  · exact hv (hg.symm.trans h0)
  · rw [hg] at hm
    exact absurd (List.mem_filter.1 hm).2 (by simp [hp])

/-- A die once a spine's repair has ended. -/
def repairedDie (col j drv : Nat) (rest : List (Nat × Nat × Nat)) (good : Bool) (x : DieSt) : DieSt :=
  { x with
    frameErr := SMap.keep x.frameErr fun k v => !((spineFrames col).contains k && v == 1)
    scrub := { x.scrub with repairs := rest, down := if good then x.scrub.down else (col, j, drv) :: x.scrub.down } }

/-- Whether a repair finds the spine good. -/
def repairGood (h : Hw) (n col j : Nat) (uncorr : Bool) : Bool :=
  !(uncorr || (spineFrames col).any fun k => frameErrOf h n k == 2) && decide (spineDrivers h n col j ≤ 1)

theorem repairGood_of_clean {h : Hw} {n col j : Nat} {uncorr : Bool} (hu : uncorr = false)
    (hn : ∀ k ∈ spineFrames col, frameErrOf h n k ≠ 2) (hd : spineDrivers h n col j ≤ 1) :
    repairGood h n col j uncorr = true := by
  have clean : (spineFrames col).any (fun k => frameErrOf h n k == 2) = false :=
    List.any_eq_false.2 fun k hk => by simpa using hn k hk
  rw [repairGood, hu, clean, decide_eq_true hd]
  rfl

theorem repairGood_of_uncorr {h : Hw} {n col j : Nat} {uncorr : Bool} (hu : uncorr = true) :
    repairGood h n col j uncorr = false := by
  rw [repairGood, hu]
  rfl

/-- OFF after the repair. -/
def repairedOff (g : Hw) (n col j : Nat) (good : Bool) : Hw :=
  if good then g.wr (K.SPINE_OFF_OFF n col) (setBitAt (g.rd (K.SPINE_OFF_OFF n col)) j false) else g

variable {rest : List (Nat × Nat × Nat)} {uncorr : Bool}

theorem spineRepaired_eq (hr : (h.die n).scrub.repairs = (col, spine, drv) :: rest) (ha : inA3 h = false)
    (he : h.bit (K.SCRUB_CTL_EN n) = true) : ∃ v, ∃ mine : Bool, spineRepaired h n uncorr =
      let g := repairedOff ((runDesign h).onDie n (repairedDie col spine drv rest (repairGood h n col spine uncorr))) n col spine
        (repairGood h n col spine uncorr)
      if mine then g.wr (K.SPINE_CLOG_OUTCOME n) v else g := by
  unfold spineRepaired
  rw [hr]
  dsimp only
  rw [if_neg (by simp [ha, he])]
  exact ⟨_, _, rfl⟩

/-- What the end of a repair leaves: the die's marks, and OFF. -/
theorem spineRepaired_leaves (hr : (h.die n).scrub.repairs = (col, spine, drv) :: rest) (ha : inA3 h = false)
    (he : h.bit (K.SCRUB_CTL_EN n) = true) :
    (spineRepaired h n uncorr).die n = repairedDie col spine drv rest (repairGood h n col spine uncorr) ((runDesign h).die n) ∧
    (spineRepaired h n uncorr).rd (K.SPINE_OFF_OFF n col) = if repairGood h n col spine uncorr then
      setBitAt (h.rd (K.SPINE_OFF_OFF n col)) spine false % 2 ^ 48 else h.rd (K.SPINE_OFF_OFF n col) := by
  obtain ⟨v, mine, eq⟩ := spineRepaired_eq (uncorr := uncorr) hr ha he
  have ran := (designRan_runDesign h).rd _ (offSched_spine (n := n) (col := col)).1
  have hne : (K.SPINE_OFF_OFF n col).id ≠ (K.SPINE_CLOG_OUTCOME n).id := by
    simp only [Key.id, K.SPINE_OFF_OFF, K.SPINE_CLOG_OUTCOME]
    omega
  rw [eq]
  generalize repairGood h n col spine uncorr = good
  have off : ((repairedOff ((runDesign h).onDie n (repairedDie col spine drv rest good)) n col spine good).rd (K.SPINE_OFF_OFF n col)) =
      if good then setBitAt (h.rd (K.SPINE_OFF_OFF n col)) spine false % 2 ^ 48 else h.rd (K.SPINE_OFF_OFF n col) := by
    unfold repairedOff
    cases good with
    | false => exact ran
    | true =>
      rw [if_pos rfl, if_pos rfl, Hw.rd_wr_self, Hw.rd_onDie, ran]
      rfl
  have die : ((repairedOff ((runDesign h).onDie n (repairedDie col spine drv rest good)) n col spine good).die n) =
      repairedDie col spine drv rest good ((runDesign h).die n) := by
    unfold repairedOff
    cases good <;> exact Hw.die_onDie_self ..
  revert off die
  generalize repairedOff ((runDesign h).onDie n (repairedDie col spine drv rest good)) n col spine good = g
  intro off die
  cases mine with
  | false => exact ⟨die, off⟩
  | true => exact ⟨die, (Hw.rd_wr_ne g hne v).trans off⟩

end

/-- Settles O38: fences, the mask table, contention and repair. -/
theorem fencesAndSpines : Obligations.FencesAndSpines := by
  unfold Obligations.FencesAndSpines
  refine ⟨⟨fun s m d sec hg => ⟨fun hb => ⟨_, rfl, ?_⟩, fun hb => ⟨_, rfl, ?_⟩⟩, fun s d sec hf hb => ⟨_, rfl, settleFence_settles hf hb⟩,
    fun s m d sec w v hg ho => ⟨_, rfl, ?_⟩⟩, fun s d col spine drv hb hp => ⟨_, rfl, ?_⟩,
    fun s d col spine drv rest uncorr hr ha he => ⟨_, rfl, ?_⟩⟩
  · simp only [State.onHw]
    rw [gated_ok hg]
    obtain ⟨g, eq, hb'⟩ := writeFence_close (m := m) (data := 1 + 2 * s.hw.rd (K.FENCE_SEC_SETTING d.val sec.val)) sec.isLt
      (by simp) hb
    rw [eq]
    exact closeFence_closes sec.isLt hb'
  · simp only [State.onHw]
    rw [gated_ok hg]
    obtain ⟨g, eq, kept⟩ := writeFence_lift (m := m) (data := 2 * s.hw.rd (K.FENCE_SEC_SETTING d.val sec.val)) (by simp) hb
    rw [eq]
    have hb' : g.bit (K.FENCE_SEC_FENCE d.val sec.val) = true := by
      rw [← hb, Hw.bit, kept.rd _ (offSched_fence sec.isLt), Hw.bit]
    obtain ⟨hf, hset, hff, hready, hdev⟩ := liftFence_lifts sec.isLt hb'
    have frames := FramesKept.of_kept kept
    exact ⟨hf, hset, fun hh => (hff (frames.allHalted hh)).trans (initMask_congr (frames.frames _)), hready, hdev⟩
  · simp only [State.onHw]
    rw [gated_ok hg, writeMask_written ho, Hw.rd_wr_self]
    exact ⟨Nat.mod_eq_of_lt v.isLt, fun k hk => Hw.rd_wr_ne _ hk _⟩
  · simp only [State.onHw]
    rw [if_neg (by simp [hb]; omega)]
    exact spineContention_logged spine.isLt col.isLt drv.isLt
  · simp only [State.onHw]
    obtain ⟨hdie, hoff⟩ := spineRepaired_leaves (uncorr := uncorr) hr ha he
    rw [hoff, hdie]
    refine ⟨rfl, fun k hk => ?_, fun hu hn hd => ?_, fun hu => ?_⟩
    · rw [frameErrOf, hdie]
      exact SMap.get_keep_ne (p := fun k v => !((spineFrames col.val).contains k && v == 1)) (by decide) (by simp [hk])
    · rw [if_pos (repairGood_of_clean hu hn hd)]
      exact testBit_setBitAt_false ..
    · rw [repairGood_of_uncorr hu]
      exact ⟨List.mem_cons_self .., if_neg Bool.false_ne_true⟩

end Sys2Proof.Machine
end

section
/-!
PROOF. The scrubber's slots and the digests (R311 to R323).
-/
namespace Sys2Proof.Machine
open Sys2Proof

section
variable {h t : Hw} {n sec f : Nat}

theorem frameErrOf_congr {k : Nat} (e : (t.die n).frameErr = (h.die n).frameErr) : frameErrOf t n k = frameErrOf h n k := by
  rw [frameErrOf, frameErrOf, e]

/-! ### A frame slot -/

/-- A die whose scrubber has handed a frame over. -/
def handedDie (data : Nat) (x : DieSt) : DieSt := { x with scrub := { x.scrub with acc := data :: x.scrub.acc } }

theorem handOver_eq (g : Hw) (hf : f < 1023) (data : Nat) :
    handOver g n sec f data = (g.onDie n (handedDie data)).wr (K.SCRUB_STAT_FRAME n) (f + 1) := if_pos hf

theorem handOver_leaves (g : Hw) (hf : f < 1023) (data : Nat) :
    ((handOver g n sec f data).die n).scrub.acc = data :: (g.die n).scrub.acc ∧
    (handOver g n sec f data).rd (K.SCRUB_STAT_FRAME n) = f + 1 ∧
    (∀ k, frameErrOf (handOver g n sec f data) n k = frameErrOf g n k) ∧
    ∀ k, k.id ≠ (K.SCRUB_STAT_FRAME n).id → (handOver g n sec f data).rd k = g.rd k := by
  rw [handOver_eq g hf]
  have hd := (Hw.die_wr (h := g.onDie n (handedDie data)) (K.SCRUB_STAT_FRAME n) (f + 1) n).trans (Hw.die_onDie_self g n (handedDie data))
  refine ⟨congrArg (fun x => x.scrub.acc) hd, ?_, fun k => ?_, fun k hk => Hw.rd_wr_ne _ hk _⟩
  · rw [Hw.rd_wr_self]
    have : f + 1 < 2 ^ 10 := by omega
    exact Nat.mod_eq_of_lt this
  · exact congrArg (fun x => SMap.get x.frameErr k 0) hd

/-- A frame is handed over as it stands. -/
theorem handOver_copy {g : Hw} {k : Nat} (hf : f < 1023) (hs : (g.die n).scrub = (h.die n).scrub) (hk : (g.die n).frames = (h.die n).frames) :
    ((handOver g n sec f (frameOf g n k)).die n).scrub.acc = frameOf h n k :: (h.die n).scrub.acc ∧
    (handOver g n sec f (frameOf g n k)).rd (K.SCRUB_STAT_FRAME n) = f + 1 := by
  obtain ⟨acc, frame, -⟩ := handOver_leaves (n := n) (sec := sec) g hf (frameOf g n k)
  exact ⟨by rw [acc, hs, frameOf, hk, frameOf], frame⟩

/-- The next sector, where the pass is not at its end. -/
theorem nextSector_next (g : Hw) (hs : sec < 191) :
    (nextSector g n sec).rd (K.SCRUB_STAT_SECTOR n) = sec + 1 ∧ (nextSector g n sec).rd (K.SCRUB_STAT_FRAME n) = 0 ∧
    (nextSector g n sec).rd (K.SCRUB_STAT_INCOMPLETE n) = g.rd (K.SCRUB_STAT_INCOMPLETE n) := by
  unfold nextSector
  rw [if_pos hs]
  simp -implicitDefEqProofs (disch := (simp only [Key.id, K.SCRUB_STAT_SECTOR, K.SCRUB_STAT_FRAME, K.SCRUB_STAT_INCOMPLETE]; omega))
    only [Hw.rd_wr_ne, Hw.rd_wr_self, Hw.rd_onDie]
  have : sec + 1 < 2 ^ 8 := by omega
  exact ⟨Nat.mod_eq_of_lt this, Nat.zero_mod _, trivial⟩

/-- A die with a frame marked uncorrectable. -/
def uncorrMarked (h : Hw) (n k : Nat) : Hw :=
  if frameErrOf h n k = 2 then h
  else (runDesign h).draw.2.onDie n fun x =>
    { x with frames := SMap.set x.frames k ((runDesign h).draw.1 % 2 ^ 4096) 0, frameErr := SMap.set x.frameErr k 2 0 }

/-- The registers of an uncorrectable frame. -/
def uncorrRegs (g : Hw) (n k : Nat) : Hw :=
  let h := (g.wr (K.SCRUB_STAT_UNCORR n) 1).cnt (K.SCRUB_COUNT_UNCORR n)
  ((h.wr (K.SCRUB_UNCLOG_VALID n) 1).wr (K.SCRUB_UNCLOG_FADDR n) (n * 2 ^ 18 + k)).wr
    (K.SCRUB_UNCLOG_EPOCH n) (h.rd (K.ASSAY_STAT_EPOCH n))

theorem scrubUncorr_eq : ∃ g, Kept (uncorrRegs (uncorrMarked h n (1024 * sec + f)) n (1024 * sec + f)) g ∧
    scrubUncorr h n sec f = refreshSites (if g.bit (K.SCRUB_CTL_FENCEUNC n) then closeFence g n sec else g) n :=
  ⟨_, kept_logEvent _ (srcDie n) 0 (dieBase n + 0x600008), rfl⟩

theorem uncorrMarked_marks (h : Hw) (n k : Nat) : frameErrOf (uncorrMarked h n k) n k = 2 ∧
    ∀ key, OffSched key → (uncorrMarked h n k).rd key = h.rd key := by
  unfold uncorrMarked
  split
  next he => exact ⟨he, fun _ _ => rfl⟩
  next =>
    refine ⟨?_, fun key hk => (designRan_runDesign h).rd key hk⟩
    rw [frameErrOf, Hw.die_onDie_self]
    exact SMap.get_set_self ((runDesign h).draw.2.die n).frameErr k 2 0

theorem uncorrRegs_reads (g : Hw) (n k : Nat) : (uncorrRegs g n k).rd (K.SCRUB_STAT_UNCORR n) = 1 ∧
    (uncorrRegs g n k).rd (K.SCRUB_UNCLOG_FADDR n) = (n * 2 ^ 18 + k) % 2 ^ 20 ∧
    (uncorrRegs g n k).rd (K.SCRUB_CTL_FENCEUNC n) = g.rd (K.SCRUB_CTL_FENCEUNC n) ∧
    (∀ s, s < 192 → (uncorrRegs g n k).rd (K.FENCE_SEC_FENCE n s) = g.rd (K.FENCE_SEC_FENCE n s)) := by
  unfold uncorrRegs Hw.cnt Hw.addSat
  dsimp only
  refine ⟨?_, ?_, ?_, fun s hs => ?_⟩ <;>
    simp -implicitDefEqProofs (disch := (simp only [Key.id, K.SCRUB_STAT_UNCORR, K.SCRUB_COUNT_UNCORR, K.SCRUB_UNCLOG_VALID,
      K.SCRUB_UNCLOG_FADDR, K.SCRUB_UNCLOG_EPOCH, K.SCRUB_CTL_FENCEUNC, K.FENCE_SEC_FENCE]; omega))
      only [Hw.rd_wr_ne, Hw.rd_wr_self] <;> rfl

theorem offFence_uncorr : OffFence n sec (K.SCRUB_STAT_UNCORR n) ∧ OffFence n sec (K.SCRUB_UNCLOG_FADDR n) := by
  refine ⟨⟨?_, fun m _ => ?_, ?_, ?_⟩, ⟨?_, fun m _ => ?_, ?_, ?_⟩⟩ <;>
    simp only [OffSched, Key.id, K.SCRUB_STAT_UNCORR, K.SCRUB_UNCLOG_FADDR, K.CLK_NET_STAT_SWITCHING, K.FENCE_SEC_FENCE,
      K.FENCE_SEC_SETTLED] <;> omega

theorem offSched_fenceUnc : OffSched (K.SCRUB_CTL_FENCEUNC n) := by
  simp only [OffSched, K.SCRUB_CTL_FENCEUNC]
  omega

/-- A slot that finds an uncorrectable frame marks it, records its address and fences its sector where asked to. -/
theorem scrubUncorr_leaves (hs : sec < 192) (hb : h.bit (K.FENCE_SEC_FENCE n sec) = false) :
    frameErrOf (scrubUncorr h n sec f) n (1024 * sec + f) = 2 ∧ (scrubUncorr h n sec f).rd (K.SCRUB_STAT_UNCORR n) = 1 ∧
    (scrubUncorr h n sec f).rd (K.SCRUB_UNCLOG_FADDR n) = (n * 2 ^ 18 + (1024 * sec + f)) % 2 ^ 20 ∧
    (h.bit (K.SCRUB_CTL_FENCEUNC n) = true → (scrubUncorr h n sec f).rd (K.FENCE_SEC_FENCE n sec) = 1) := by
  obtain ⟨g, kept, eq⟩ := scrubUncorr_eq (h := h) (n := n) (sec := sec) (f := f)
  obtain ⟨mark, keeps⟩ := uncorrMarked_marks h n (1024 * sec + f)
  obtain ⟨unc, addr, ctl, fence⟩ := uncorrRegs_reads (uncorrMarked h n (1024 * sec + f)) n (1024 * sec + f)
  obtain ⟨offUnc, offAddr⟩ := offFence_uncorr (n := n) (sec := sec)
  have marked : frameErrOf g n (1024 * sec + f) = 2 :=
    (frameErrOf_congr (congrArg DieSt.frameErr (die_congr kept.dies n))).trans mark
  have asked : g.bit (K.SCRUB_CTL_FENCEUNC n) = h.bit (K.SCRUB_CTL_FENCEUNC n) := by
    rw [Hw.bit, kept.rd _ offSched_fenceUnc, ctl, keeps _ offSched_fenceUnc, Hw.bit]
  have opened : g.bit (K.FENCE_SEC_FENCE n sec) = false := by
    rw [← hb, Hw.bit, kept.rd _ (offSched_fence hs), fence sec hs, keeps _ (offSched_fence hs), Hw.bit]
  obtain ⟨-, err, rest⟩ := closeFence_keeps (h := g) (n := n) (s := sec) n
  rw [eq]
  have moved := sitesMoved_refreshSites (n := n) (if g.bit (K.SCRUB_CTL_FENCEUNC n) then closeFence g n sec else g)
  have frames := frameErrOf_congr (k := 1024 * sec + f) (of_control DieSt.frameErr (fun _ => rfl) (moved.die n))
  refine ⟨frames.trans ?_, ?_, ?_, fun hu => ?_⟩
  · split
    · exact (frameErrOf_congr err).trans marked
    · exact marked
  · rw [moved.rd _ offUnc.sched offUnc.sw, ← unc, ← kept.rd _ offUnc.sched]
    split
    · exact rest _ offUnc
    · rfl
  · rw [moved.rd _ offAddr.sched offAddr.sw, ← addr, ← kept.rd _ offAddr.sched]
    split
    · exact rest _ offAddr
    · rfl
  · rw [moved.rd _ (offSched_fence hs) fun m _ => fence_ne_switching m, if_pos (asked.trans hu)]
    exact (closeFence_closes hs opened).1

/-- A frame with one bit in error, once corrected. -/
def corrected (g : Hw) (n k : Nat) : Hw := (g.onDie n fun x => { x with frameErr := SMap.erase x.frameErr k }).cnt (K.SCRUB_COUNT_CORR n)

theorem die_corrected (g : Hw) (n k : Nat) : (corrected g n k).die n = { g.die n with frameErr := SMap.erase (g.die n).frameErr k } :=
  Hw.die_onDie_self g n fun x => { x with frameErr := SMap.erase x.frameErr k }

section
variable {seen : FrameSeen} (hsec : sec = h.rd (K.SCRUB_STAT_SECTOR n)) (hf : f = h.rd (K.SCRUB_STAT_FRAME n))
  (hr : h.bit (K.RST_DIE_INRESET n) = false) (hp : scrubPause h n = 0)
include hsec hf hr hp

/-- A slot outside resets and pauses. -/
theorem scrubSlot_eq : scrubSlot h n seen =
    if h.bit (K.FENCE_SEC_FENCE n sec) then nextSector (h.wr (K.SCRUB_STAT_INCOMPLETE n) 1) n sec
    else if (h.rd (K.MASK_SEC_W_BITS n sec (f / 64))).testBit (f % 64) then handOver h n sec f 0
    else if frameErrOf h n (1024 * sec + f) = 2 ∨ seen = .uncorr then
      handOver (scrubUncorr h n sec f) n sec f (frameOf (scrubUncorr h n sec f) n (1024 * sec + f))
    else if frameErrOf h n (1024 * sec + f) = 1 ∨ seen = .single then
      let g := if frameRefused h n (1024 * sec + f) (frameOf h n (1024 * sec + f)) then logContend h n (1024 * sec + f) 0
        else corrected h n (1024 * sec + f)
      handOver g n sec f (frameOf g n (1024 * sec + f))
    else handOver h n sec f (frameOf h n (1024 * sec + f)) := by
  subst hsec hf
  unfold scrubSlot
  dsimp only
  rw [if_neg (by simp [hr, hp])]
  rfl

end

theorem rd_corrected (g : Hw) (n k : Nat) : (corrected g n k).rd (K.SCRUB_COUNT_CORR n) =
    min (2 ^ (K.SCRUB_COUNT_CORR n).w - 1) (g.rd (K.SCRUB_COUNT_CORR n) + 1) := by
  rw [corrected, Hw.cnt, Hw.addSat, Hw.rd_wr_self, Hw.rd_onDie, satAdd, Nat.min_comm]
  refine Nat.mod_eq_of_lt (Nat.lt_of_le_of_lt (Nat.min_le_left ..) (Nat.sub_lt (Nat.two_pow_pos _) Nat.one_pos))

/-- The scrubber's place has a field of its own. -/
theorem frame_ne {s : Nat} : (K.SCRUB_STAT_UNCORR n).id ≠ (K.SCRUB_STAT_FRAME n).id ∧
    (K.SCRUB_UNCLOG_FADDR n).id ≠ (K.SCRUB_STAT_FRAME n).id ∧ (K.FENCE_SEC_FENCE n s).id ≠ (K.SCRUB_STAT_FRAME n).id := by
  refine ⟨?_, ?_, ?_⟩ <;>
    simp only [Key.id, K.SCRUB_STAT_UNCORR, K.SCRUB_STAT_FRAME, K.SCRUB_UNCLOG_FADDR, K.FENCE_SEC_FENCE] <;> omega

theorem scrubRestart_leaves (g : Hw) : (scrubRestart g n).rd (K.SCRUB_STAT_SECTOR n) = 0 ∧
    (scrubRestart g n).rd (K.SCRUB_STAT_FRAME n) = 0 ∧ (scrubRestart g n).rd (K.SCRUB_STAT_INCOMPLETE n) = 0 ∧
    ((scrubRestart g n).die n).scrub.acc = [] ∧ (scrubRestart g n).rd (K.SCRUB_STAT_STUCK n) = g.rd (K.SCRUB_STAT_STUCK n) := by
  have hd : (scrubRestart g n).die n = { g.die n with scrub := { (g.die n).scrub with acc := [], stale := false } } :=
    Hw.die_onDie_self g n fun x => { x with scrub := { x.scrub with acc := [], stale := false } }
  rw [hd]
  unfold scrubRestart
  simp -implicitDefEqProofs (disch := (
    simp only [Key.id, K.SCRUB_STAT_SECTOR, K.SCRUB_STAT_FRAME, K.SCRUB_STAT_INCOMPLETE, K.SCRUB_STAT_STUCK]; omega))
    only [Hw.rd_wr_ne, Hw.rd_wr_self, Hw.rd_onDie, Nat.zero_mod, and_self]

theorem offSched_stuck : OffSched (K.SCRUB_STAT_STUCK n) := by
  simp only [OffSched, K.SCRUB_STAT_STUCK]
  omega

/-! ### Digests -/

theorem putDigest_reads {k : Nat → Key} (hk : ∀ i j, i ≠ j → (k i).id ≠ (k j).id) (d : Nat) {w : Nat} (hw : w < 4) (g : Hw) :
    (putDigest g k d).rd (k w) = d / 2 ^ (64 * w) % 2 ^ (k w).w := by
  have hm : w ∈ List.range 4 := List.mem_range.2 hw
  unfold putDigest
  revert hm
  generalize List.range 4 = l
  intro hm
  induction l generalizing g with
  | nil => exact absurd hm List.not_mem_nil
  | cons w' l ih =>
    by_cases hl : w ∈ l
    · exact ih _ hl
    · have he : w = w' := (List.mem_cons.1 hm).resolve_right hl
      subst he
      exact (foldl_keeps (fun h => h.rd (k w))
        (fun h w' hw' => Hw.rd_wr_ne h (hk w w' fun e => hl (e ▸ hw')) _) _).trans (Hw.rd_wr_self ..)

theorem putDigest_keeps {k : Nat → Key} {j : Key} (hj : ∀ i, i < 4 → j.id ≠ (k i).id) (d : Nat) (g : Hw) :
    (putDigest g k d).rd j = g.rd j :=
  foldl_keeps (fun h => h.rd j) (fun h w hw => Hw.rd_wr_ne h (hj w (List.mem_range.1 hw)) _) _

theorem putDigest_part {β : Type} (part : Hw → β) (hp : ∀ h k v, part (h.wr k v) = part h) (k : Nat → Key) (d : Nat) (g : Hw) :
    part (putDigest g k d) = part g := foldl_keeps part (fun h w _ => hp h (k w) _) g

/-- The hardware with other digest work due. -/
def withAssay (g : Hw) (a : AssaySt) : Hw := { g with assay := a }
theorem rd_withAssay (g : Hw) (a : AssaySt) (k : Key) : (withAssay g a).rd k = g.rd k := rfl
theorem die_withAssay (g : Hw) (a : AssaySt) (n : Nat) : (withAssay g a).die n = g.die n := rfl
theorem ldr_withAssay (g : Hw) (a : AssaySt) : (withAssay g a).ldr = g.ldr := rfl
theorem assay_withAssay (g : Hw) (a : AssaySt) : (withAssay g a).assay = a := rfl

/-- A die whose digest has been taken. -/
def assayedDie (x : DieSt) : DieSt := { x with scrub := { x.scrub with passDone := none } }

/-- The registers a die's digest leaves. -/
def dieDigestRegs (h : Hw) (n : Nat) : Hw :=
  let h' := putDigest h (K.ASSAY_DIG_DIG n) (dieDigest h n)
  (h'.wr (K.ASSAY_STAT_EPOCH n) (h'.rd (K.ASSAY_STAT_EPOCH n) + 1)).wrB (K.ASSAY_STAT_MATCH n)
    ((h.die n).intended == some (dieDigest h n))

/-- The die's READY after a fresh pass. -/
def readied (g : Hw) (n : Nat) (fresh : Bool) : Hw := if fresh then g.wr (K.ASSAY_STAT_READY n) 1 else g

theorem computeDieDigest_eq {fresh : Bool} (hd : (h.die n).scrub.passDone = some fresh) : ∃ a : AssaySt, a.devDue = true ∧
    computeDieDigest h n = withAssay (readied ((dieDigestRegs h n).onDie n assayedDie) n fresh) a := by
  have die : (putDigest h (K.ASSAY_DIG_DIG n) (dieDigest h n)).die n = h.die n :=
    putDigest_part (fun h => h.die n) (fun _ _ _ => rfl) ..
  unfold computeDieDigest dieDigestRegs
  rw [hd]
  dsimp only
  rw [Hw.die_wr, die]
  exact ⟨_, rfl, rfl⟩

theorem epoch_ne_dig (i : Nat) (_ : i < 4) : (K.ASSAY_STAT_EPOCH n).id ≠ (K.ASSAY_DIG_DIG n i).id := by
  simp only [Key.id, K.ASSAY_STAT_EPOCH, K.ASSAY_DIG_DIG]
  omega

theorem dieDigestRegs_reads : (∀ w, w < 4 → (dieDigestRegs h n).rd (K.ASSAY_DIG_DIG n w) = dieDigest h n / 2 ^ (64 * w) % 2 ^ 64) ∧
    (dieDigestRegs h n).rd (K.ASSAY_STAT_EPOCH n) = (h.rd (K.ASSAY_STAT_EPOCH n) + 1) % 2 ^ 32 ∧
    (dieDigestRegs h n).bit (K.ASSAY_STAT_MATCH n) = ((h.die n).intended == some (dieDigest h n)) := by
  have dig_ne : ∀ i j, i ≠ j → (K.ASSAY_DIG_DIG n i).id ≠ (K.ASSAY_DIG_DIG n j).id := fun i j hij => by
    simp only [Key.id, K.ASSAY_DIG_DIG]
    omega
  refine ⟨fun w hw => ?_, ?_, Hw.bit_wrB_self _ _ _ rfl⟩
  · unfold dieDigestRegs
    dsimp only
    rw [Hw.wrB, Hw.rd_wr_ne, Hw.rd_wr_ne _ (epoch_ne_dig w hw).symm, putDigest_reads dig_ne _ hw]
    · rfl
    · simp only [Key.id, K.ASSAY_STAT_MATCH, K.ASSAY_DIG_DIG]
      omega
  · unfold dieDigestRegs
    dsimp only
    rw [Hw.wrB, Hw.rd_wr_ne, Hw.rd_wr_self, putDigest_keeps epoch_ne_dig]
    · rfl
    · simp only [Key.id, K.ASSAY_STAT_MATCH, K.ASSAY_STAT_EPOCH]
      omega

theorem rd_readied (g : Hw) {fresh : Bool} {k : Key} (hk : k.id ≠ (K.ASSAY_STAT_READY n).id) : (readied g n fresh).rd k = g.rd k := by
  unfold readied
  split
  · exact Hw.rd_wr_ne g hk 1
  · rfl

theorem die_readied (g : Hw) {fresh : Bool} : (readied g n fresh).die n = g.die n := by
  unfold readied
  split <;> rfl

theorem ldr_readied (g : Hw) {fresh : Bool} : (readied g n fresh).ldr = g.ldr := by
  unfold readied
  split <;> rfl

theorem readied_fresh (g : Hw) : (readied g n true).rd (K.ASSAY_STAT_READY n) = 1 := Hw.rd_wr_self ..

theorem computeDieDigest_leaves {fresh : Bool} (hd : (h.die n).scrub.passDone = some fresh) :
    (∀ w, w < 4 → (computeDieDigest h n).rd (K.ASSAY_DIG_DIG n w) = dieDigest h n / 2 ^ (64 * w) % 2 ^ 64) ∧
    (computeDieDigest h n).rd (K.ASSAY_STAT_EPOCH n) = (h.rd (K.ASSAY_STAT_EPOCH n) + 1) % 2 ^ 32 ∧
    (computeDieDigest h n).bit (K.ASSAY_STAT_MATCH n) = ((h.die n).intended == some (dieDigest h n)) ∧
    (fresh = true → (computeDieDigest h n).rd (K.ASSAY_STAT_READY n) = 1) ∧
    ((computeDieDigest h n).die n).scrub.passDone = none ∧ (computeDieDigest h n).assay.devDue = true := by
  obtain ⟨a, due, eq⟩ := computeDieDigest_eq hd
  obtain ⟨dig, epoch, same⟩ := dieDigestRegs_reads (h := h) (n := n)
  have reads : ∀ k : Key, k.id ≠ (K.ASSAY_STAT_READY n).id → (computeDieDigest h n).rd k = (dieDigestRegs h n).rd k := fun k hk => by
    rw [eq, rd_withAssay, rd_readied _ hk, Hw.rd_onDie]
  refine ⟨fun w hw => ?_, ?_, ?_, fun hf => ?_, ?_, ?_⟩
  · rw [reads, dig w hw]
    simp only [Key.id, K.ASSAY_DIG_DIG, K.ASSAY_STAT_READY]
    omega
  · rw [reads, epoch]
    simp only [Key.id, K.ASSAY_STAT_EPOCH, K.ASSAY_STAT_READY]
    omega
  · rw [← same, Hw.bit, reads, Hw.bit]
    simp only [Key.id, K.ASSAY_STAT_MATCH, K.ASSAY_STAT_READY]
    omega
  · rw [eq, hf, rd_withAssay, readied_fresh]
  · rw [eq, die_withAssay, die_readied, Hw.die_onDie_self, assayedDie]
  · rw [eq, assay_withAssay, due]

theorem ldr_onDie (g : Hw) (n : Nat) (f : DieSt → DieSt) : (g.onDie n f).ldr = g.ldr := rfl
theorem ldr_wr_wrB (g : Hw) (k k' : Key) (v : Nat) (b : Bool) : ((g.wr k v).wrB k' b).ldr = g.ldr := rfl

theorem tryVerify_idle (hl : h.ldr.load = none) : tryVerify h = h := by
  rw [tryVerify, hl]

theorem ldr_computeDieDigest {fresh : Bool} (hd : (h.die n).scrub.passDone = some fresh) : (computeDieDigest h n).ldr = h.ldr := by
  obtain ⟨a, -, eq⟩ := computeDieDigest_eq hd
  have put : (putDigest h (K.ASSAY_DIG_DIG n) (dieDigest h n)).ldr = h.ldr := putDigest_part (fun h => h.ldr) (fun _ _ _ => rfl) _ _ h
  rw [eq, ldr_withAssay, ldr_readied, ldr_onDie, dieDigestRegs, ldr_wr_wrB, put]

/-- The registers the hub's digest leaves. -/
def hubDigestRegs (h : Hw) : Hw :=
  let h' := putDigest h K.CFG_ASSAYHUB_DIG (hubDigest h)
  (h'.wr K.CFG_ASSAYHUBEP_EPOCH (h'.rd K.CFG_ASSAYHUBEP_EPOCH + 1)).wrB K.CFG_ASSAYSTAT_HUBMATCH (h'.assay.intHub == some (hubDigest h))

theorem computeHubDigest_eq : ∃ a : AssaySt, a.hubDue = false ∧ a.devDue = true ∧
    computeHubDigest h = withAssay (hubDigestRegs h) a := ⟨_, rfl, rfl, rfl⟩

theorem hubDigestRegs_reads :
    (∀ w, w < 4 → (hubDigestRegs h).rd (K.CFG_ASSAYHUB_DIG w) = hubDigest h / 2 ^ (64 * w) % 2 ^ 64) ∧
    (hubDigestRegs h).rd K.CFG_ASSAYHUBEP_EPOCH = (h.rd K.CFG_ASSAYHUBEP_EPOCH + 1) % 2 ^ 32 := by
  have dig_ne : ∀ i j, i ≠ j → (K.CFG_ASSAYHUB_DIG i).id ≠ (K.CFG_ASSAYHUB_DIG j).id := fun i j hij => by
    simp only [Key.id, K.CFG_ASSAYHUB_DIG]
    omega
  have epoch_ne : ∀ i, i < 4 → K.CFG_ASSAYHUBEP_EPOCH.id ≠ (K.CFG_ASSAYHUB_DIG i).id := fun i hi => by
    simp only [Key.id, K.CFG_ASSAYHUBEP_EPOCH, K.CFG_ASSAYHUB_DIG]
    omega
  unfold hubDigestRegs
  dsimp only
  refine ⟨fun w hw => ?_, ?_⟩
  · rw [Hw.wrB, Hw.rd_wr_ne, Hw.rd_wr_ne _ (epoch_ne w hw).symm, putDigest_reads dig_ne _ hw]
    · rfl
    · simp only [Key.id, K.CFG_ASSAYSTAT_HUBMATCH, K.CFG_ASSAYHUB_DIG]
      omega
  · rw [Hw.wrB, Hw.rd_wr_ne, Hw.rd_wr_self, putDigest_keeps epoch_ne]
    · rfl
    · simp only [Key.id, K.CFG_ASSAYHUBEP_EPOCH, K.CFG_ASSAYSTAT_HUBMATCH]
      omega

/-- The registers the device's digest d leaves, where the intended one is `same` as it. -/
def devDigestRegs (h : Hw) (d : Nat) (same : Hw → Bool) : Hw :=
  let h := putDigest h K.CFG_ASSAYDEV_DIG d
  let h := h.wr K.CFG_ASSAYSTAT_DEVEPOCH (h.rd K.CFG_ASSAYSTAT_DEVEPOCH + 1)
  let h := h.wrB K.CFG_ASSAYSTAT_DEVMATCH (same h)
  h.wrB K.CFG_ASSAYSTAT_DEVREADY ((List.range 4).all fun n => h.bit (K.ASSAY_STAT_READY n))

theorem computeDevDigest_eq : ∃ d same, ∃ a : AssaySt, a.devDue = false ∧
    computeDevDigest h = withAssay (devDigestRegs h d same) a := ⟨_, fun h => h.assay.intDev == some _, _, rfl, rfl⟩

theorem devDigestRegs_reads (d : Nat) (same : Hw → Bool) :
    (devDigestRegs h d same).rd K.CFG_ASSAYSTAT_DEVEPOCH = (h.rd K.CFG_ASSAYSTAT_DEVEPOCH + 1) % 2 ^ 32 ∧
    (devDigestRegs h d same).bit K.CFG_ASSAYSTAT_DEVREADY = (List.range 4).all fun n => h.bit (K.ASSAY_STAT_READY n) := by
  have epoch_ne : ∀ i, i < 4 → K.CFG_ASSAYSTAT_DEVEPOCH.id ≠ (K.CFG_ASSAYDEV_DIG i).id := fun i hi => by
    simp only [Key.id, K.CFG_ASSAYSTAT_DEVEPOCH, K.CFG_ASSAYDEV_DIG]
    omega
  have ready_ne : ∀ n i, i < 4 → (K.ASSAY_STAT_READY n).id ≠ (K.CFG_ASSAYDEV_DIG i).id := fun n i hi => by
    simp only [Key.id, K.ASSAY_STAT_READY, K.CFG_ASSAYDEV_DIG]
    omega
  have ready : ∀ n (g : Hw) (v : Nat) (b : Bool), ((g.wr K.CFG_ASSAYSTAT_DEVEPOCH v).wrB K.CFG_ASSAYSTAT_DEVMATCH b).bit
      (K.ASSAY_STAT_READY n) = g.bit (K.ASSAY_STAT_READY n) := fun n g v b => by
    rw [Hw.bit, Hw.wrB, Hw.rd_wr_ne, Hw.rd_wr_ne, Hw.bit] <;>
      simp only [Key.id, K.ASSAY_STAT_READY, K.CFG_ASSAYSTAT_DEVEPOCH, K.CFG_ASSAYSTAT_DEVMATCH] <;> omega
  unfold devDigestRegs
  dsimp only
  refine ⟨?_, ?_⟩
  · rw [Hw.wrB, Hw.rd_wr_ne _ (by decide), Hw.wrB, Hw.rd_wr_ne _ (by decide), Hw.rd_wr_self, putDigest_keeps epoch_ne]
    rfl
  · rw [Hw.bit_wrB_self _ _ _ rfl]
    refine congrArg (List.range 4).all (funext fun n => ?_)
    rw [ready, Hw.bit, putDigest_keeps (ready_ne n), Hw.bit]

end

/-- Settles O39: the slots and the restart of the scrubber, and the digests of dies, hub and device. -/
theorem scrubberAndDigests : Obligations.ScrubberAndDigests := by
  unfold Obligations.ScrubberAndDigests
  refine ⟨⟨fun s d seen sec f hsec hf hr hp hs hf' => ?_, fun s d hr hp => ⟨_, rfl, ?_⟩⟩,
    fun s d fresh hd hl => ⟨_, rfl, ?_⟩, fun s hd => ⟨_, rfl, ?_⟩, fun s hd => ⟨_, rfl, ?_⟩⟩
  · have slot := scrubSlot_eq (seen := seen) hsec hf hr hp
    refine ⟨fun hb => ⟨_, rfl, ?_⟩, fun hb => ⟨fun hm => ⟨_, rfl, ?_⟩, fun hm he hu => ⟨_, rfl, ?_⟩, fun hm he hu ho => ⟨_, rfl, ?_⟩,
      fun hm hu => ⟨_, rfl, ?_⟩⟩⟩
    · simp only [State.onHw]
      rw [slot, if_pos hb]
      obtain ⟨sector, frame, incomplete⟩ := nextSector_next (n := d.val) (s.hw.wr (K.SCRUB_STAT_INCOMPLETE d.val) 1) hs
      exact ⟨sector, frame, incomplete.trans (Hw.rd_wr_self ..)⟩
    · simp only [State.onHw]
      rw [slot, if_neg (by simp [hb]), if_pos hm]
      obtain ⟨acc, frame, -⟩ := handOver_leaves (n := d.val) (sec := sec) s.hw hf' 0
      exact ⟨acc, frame⟩
    · simp only [State.onHw]
      rw [slot, if_neg (by simp [hb]), if_neg (by simp [hm]), if_neg (by simp [he, hu])]
      split
      · dsimp only
        split
        · have kept := die_congr (kept_logEntry s.hw (srcDie d.val) 0 (LogKind.operation.code * 256 + 5)
            (d.val * 2 ^ 18 + (1024 * sec + f)) 0).dies d.val
          exact handOver_copy hf' (by rw [logContend, kept]) (by rw [logContend, kept])
        · have kept := die_corrected s.hw d.val (1024 * sec + f)
          exact handOver_copy hf' (by rw [kept]) (by rw [kept])
      · obtain ⟨acc, frame, -⟩ := handOver_leaves (n := d.val) (sec := sec) s.hw hf' (frameOf s.hw d.val (1024 * sec + f))
        exact ⟨acc, frame⟩
    · simp only [State.onHw]
      rw [slot, if_neg (by simp [hb]), if_neg (by simp [hm]), if_neg (by simp [he, hu]), if_pos (.inr hu), ho]
      dsimp only
      rw [if_neg Bool.false_ne_true]
      obtain ⟨-, -, err, rest⟩ := handOver_leaves (n := d.val) (sec := sec) (corrected s.hw d.val (1024 * sec + f)) hf'
        (frameOf (corrected s.hw d.val (1024 * sec + f)) d.val (1024 * sec + f))
      refine ⟨(err _).trans ?_, (rest _ ?_).trans ?_⟩
      · rw [frameErrOf, die_corrected]
        exact SMap.get_erase_self ..
      · simp only [Key.id, K.SCRUB_COUNT_CORR, K.SCRUB_STAT_FRAME]
        omega
      · exact rd_corrected ..
    · simp only [State.onHw]
      rw [slot, if_neg (by simp [hb]), if_neg (by simp [hm]), if_pos (.inr hu)]
      obtain ⟨mark, unc, addr, fence⟩ := scrubUncorr_leaves (f := f) (by omega) hb
      obtain ⟨-, -, err, rest⟩ := handOver_leaves (n := d.val) (sec := sec) (scrubUncorr s.hw d.val sec f) hf'
        (frameOf (scrubUncorr s.hw d.val sec f) d.val (1024 * sec + f))
      obtain ⟨ne_unc, ne_addr, ne_fence⟩ := frame_ne (n := d.val) (s := sec)
      have small : d.val * 2 ^ 18 + (1024 * sec + f) < 2 ^ 20 := by omega
      exact ⟨(err _).trans mark, (rest _ ne_unc).trans unc, ((rest _ ne_addr).trans addr).trans (Nat.mod_eq_of_lt small),
        fun hc => (rest _ ne_fence).trans (fence hc)⟩
  · simp only [State.onHw]
    rw [if_neg (by simp [hr, hp])]
    obtain ⟨sector, frame, incomplete, acc, stuck⟩ := scrubRestart_leaves (n := d.val)
      (logEvent (s.hw.wr (K.SCRUB_STAT_STUCK d.val) 1) (srcDie d.val) 0 (dieBase d.val + 0x600008))
    refine ⟨stuck.trans ?_, sector, frame, incomplete, acc⟩
    rw [(kept_logEvent ..).rd _ offSched_stuck, Hw.rd_wr_self]
    rfl
  · simp only [State.onHw]
    rw [tryVerify_idle ((congrArg Loader.load (ldr_computeDieDigest hd)).trans hl)]
    exact computeDieDigest_leaves hd
  · simp only [State.onHw]
    rw [if_pos hd]
    obtain ⟨a, hub, dev, eq⟩ := computeHubDigest_eq (h := s.hw)
    rw [eq]
    exact ⟨hubDigestRegs_reads.1, hubDigestRegs_reads.2, hub, dev⟩
  · simp only [State.onHw]
    rw [if_pos hd]
    obtain ⟨digest, same, a, dev, eq⟩ := computeDevDigest_eq (h := s.hw)
    rw [eq]
    exact ⟨(devDigestRegs_reads digest same).1, dev, (devDigestRegs_reads digest same).2⟩

end Sys2Proof.Machine
end

section
/-!
PROOF. The bindings and channels judged again after a change of clocks (R101, R125), and the fabric PLLs (R100, R101).
-/
namespace Sys2Proof.Machine
open Sys2Proof

/-- A register that judging the clocks, the bindings and the channels leaves alone. -/
structure OffRejudged (k : Key) : Prop where
  sched : OffSched k
  glock : ∀ n i, i < 16 → k.id ≠ (K.CLK_PLL_STAT_GLOCK n i).id
  halted : ∀ n m, m < 64 → k.id ≠ (K.CLK_NET_STAT_HALTED n m).id
  bind : ∀ n d b, n < 4 → d < 2 → b < 16 → k.id ≠ (K.SEAM_BIND_STAT_K n d b).id ∧ k.id ≠ (K.SEAM_BIND_STAT_KRANGE n d b).id ∧
    k.id ≠ (K.SEAM_BIND_STAT_KMISMATCH n d b).id ∧ k.id ≠ (K.SEAM_BIND_STAT_NOLOCK n d b).id ∧ k.id ≠ (K.SEAM_BIND_STAT_ALIGNED n d b).id
  gstate : ∀ n d g, n < 4 → d < 2 → k.id ≠ (K.SEAM_GRP_STAT_GSTATE n d g).id
  pdom : ∀ n d, k.id ≠ (K.PDOM_STAT_TOOFAST n d).id ∧ k.id ≠ (K.PDOM_STAT_HELD n d).id
  chan : ∀ l, l < 64 → k.id ≠ (K.BORTIK_LINK_RSCSTAT_ALIGNED l).id

/-- A network without its level, its counters and its gate. -/
def NetSt.passing (x : NetSt) : NetSt := { x with high := false, stake := 0, latched := 0, closing := false }

/-- From h to t the design has run, gates were moved, and bindings and channels judged. -/
structure Rejudged (h t : Hw) : Prop where
  shadow : t.shadow = h.shadow
  gal : t.gal = h.gal
  strata : t.strata = h.strata
  assay : t.assay = h.assay
  keys : t.keys = h.keys
  ldr : t.ldr = h.ldr
  pcie : t.pcie = h.pcie
  dram : t.dram = h.dram
  rst : t.rst = h.rst
  pwr : t.pwr = h.pwr
  guest : t.guest = h.guest
  dbg : t.dbg = h.dbg
  plls : t.clk.plls = h.clk.plls
  die : ∀ n, (t.die n).control = (h.die n).control
  net : ∀ n m, (t.net n m).passing = (h.net n m).passing
  rd : ∀ k, OffRejudged k → t.rd k = h.rd k

theorem mem_allBindings {n d b : Nat} (hx : (n, d, b) ∈ allBindings) : n < 4 ∧ d < 2 ∧ b < 16 := by
  simpa [allBindings] using hx

namespace Rejudged
variable {h t u : Hw}

theorem refl (h : Hw) : Rejudged h h :=
  ⟨rfl, rfl, rfl, rfl, rfl, rfl, rfl, rfl, rfl, rfl, rfl, rfl, rfl, fun _ => rfl, fun _ _ => rfl, fun _ _ => rfl⟩

theorem trans (a : Rejudged h t) (b : Rejudged t u) : Rejudged h u where
  shadow := b.shadow.trans a.shadow
  gal := b.gal.trans a.gal
  strata := b.strata.trans a.strata
  assay := b.assay.trans a.assay
  keys := b.keys.trans a.keys
  ldr := b.ldr.trans a.ldr
  pcie := b.pcie.trans a.pcie
  dram := b.dram.trans a.dram
  rst := b.rst.trans a.rst
  pwr := b.pwr.trans a.pwr
  guest := b.guest.trans a.guest
  dbg := b.dbg.trans a.dbg
  plls := b.plls.trans a.plls
  die n := (b.die n).trans (a.die n)
  net n m := (b.net n m).trans (a.net n m)
  rd k hk := (b.rd k hk).trans (a.rd k hk)

theorem of_designRan (a : DesignRan h t) : Rejudged h t where
  shadow := a.shadow
  gal := a.gal
  strata := a.strata
  assay := a.assay
  keys := a.keys
  ldr := a.ldr
  pcie := a.pcie
  dram := a.dram
  rst := a.rst
  pwr := a.pwr
  guest := a.guest
  dbg := a.dbg
  plls := a.plls
  die := a.die
  net n m := by
    have e := congrArg NetSt.passing (a.net n m)
    exact e
  rd k hk := a.rd k hk.sched

theorem of_kept (a : Kept h t) : Rejudged h t := of_designRan (.of_kept a)

theorem wr (h : Hw) {k : Key} (hk : ∀ j, OffRejudged j → j.id ≠ k.id) (v : Nat) : Rejudged h (h.wr k v) :=
  { refl h with rd := fun j hj => Hw.rd_wr_ne h (hk j hj) v }

theorem foldl {α : Type} {f : Hw → α → Hw} {l : List α} (hf : ∀ h, ∀ x ∈ l, Rejudged h (f h x)) (h : Hw) : Rejudged h (l.foldl f h) :=
  List.foldlRecOn (motive := Rejudged h) l f (refl h) fun t ht x hx => ht.trans (hf t x hx)

theorem onNet (h : Hw) (n m : Nat) {f : NetSt → NetSt} (hf : ∀ x, (f x).passing = x.passing) : Rejudged h (h.onNet n m f) where
  shadow := rfl
  gal := rfl
  strata := rfl
  assay := rfl
  keys := rfl
  ldr := rfl
  pcie := rfl
  dram := rfl
  rst := rfl
  pwr := rfl
  guest := rfl
  dbg := rfl
  plls := rfl
  die _ := rfl
  net i j := by
    by_cases he : i * 64 + j = n * 64 + m
    · have same : ∀ g : Hw, g.net i j = g.net n m := fun g => by rw [Hw.net, he, Hw.net]
      rw [same, same, net_onNet_self, hf]
    · rw [net_onNet_ne h he]
  rd _ _ := rfl

theorem onSeam (h : Hw) (n : Nat) (f : SeamSt → SeamSt) : Rejudged h (h.onSeam n f) :=
  ⟨rfl, rfl, rfl, rfl, rfl, rfl, rfl, rfl, rfl, rfl, rfl, rfl, rfl, fun _ => rfl, fun _ _ => rfl, fun _ _ => rfl⟩

theorem setPdomClosed (h : Hw) (d : Nat) (l : List Nat) : Rejudged h (h.setPdomClosed d l) :=
  ⟨rfl, rfl, rfl, rfl, rfl, rfl, rfl, rfl, rfl, rfl, rfl, rfl, rfl, fun _ => rfl, fun _ _ => rfl, fun _ _ => rfl⟩

theorem onLink (h : Hw) (l : Nat) (f : LinkSt → LinkSt) : Rejudged h (onLink h l f) :=
  ⟨rfl, rfl, rfl, rfl, rfl, rfl, rfl, rfl, rfl, rfl, rfl, rfl, rfl, fun _ => rfl, fun _ _ => rfl, fun _ _ => rfl⟩

theorem refreshGlock (h : Hw) (n : Nat) : Rejudged h (refreshGlock h n) :=
  foldl (fun g i hi => wr g (fun _ hj => hj.glock n i (List.mem_range.1 hi)) _) h

theorem refreshTooFast (h : Hw) (d : Nat) : Rejudged h (refreshTooFast h d) :=
  foldl (fun g n _ => wr g (fun _ hj => (hj.pdom n d).1) _) h

theorem bindStat (h : Hw) {n d b : Nat} (hn : n < 4) (hd : d < 2) (hb : b < 16) : Rejudged h (bindStat h n d b) := by
  unfold Machine.bindStat
  dsimp only
  refine (wr h (fun _ hj => (hj.bind n d b hn hd hb).1) _).trans ((wr _ (fun _ hj => (hj.bind n d b hn hd hb).2.1) _).trans
    ((wr _ (fun _ hj => (hj.bind n d b hn hd hb).2.2.1) _).trans (wr _ (fun _ hj => (hj.bind n d b hn hd hb).2.2.2.1) _)))

theorem setBindGroups (h : Hw) {n d b : Nat} (hn : n < 4) (hd : d < 2) (st : Nat) : Rejudged h (setBindGroups h n d b st) :=
  foldl (fun g i _ => wr g (fun _ hj => hj.gstate n d i hn hd) _) h

theorem unalign (h : Hw) {n d b : Nat} (hn : n < 4) (hd : d < 2) (hb : b < 16) : Rejudged h (unalign h n d b) :=
  ((of_designRan (designRan_runDesign h)).trans (onSeam ..)).trans
    ((wr _ (fun _ hj => (hj.bind n d b hn hd hb).2.2.2.2) _).trans (setBindGroups _ hn hd _))

theorem gateClosed (h : Hw) (n : Nat) {m : Nat} (hm : m < 64) : Rejudged h (gateClosed h n m) := by
  unfold Machine.gateClosed
  dsimp only
  refine (of_designRan (designRan_runDesign h)).trans ((of_designRan (t := if _ then _ else _) ?_).trans
    ((onNet _ n m ?_).trans (wr _ (fun _ hj => hj.halted n m hm) _)))
  · split
    · exact designRan_edgeStep ..
    · exact .refl _
  · exact fun _ => rfl

theorem closeGate (h : Hw) (n : Nat) {m : Nat} (hm : m < 64) : Rejudged h (closeGate h n m) := by
  unfold Machine.closeGate
  split
  · exact refl h
  · split
    · exact (of_designRan (designRan_runDesign h)).trans (onNet _ n m fun _ => rfl)
    · exact gateClosed h n hm

theorem openGate (h : Hw) (n : Nat) {m : Nat} (hm : m < 64) : Rejudged h (openGate h n m) := by
  refine (of_designRan (designRan_runDesign h)).trans ((onNet _ n m ?_).trans (wr _ (fun _ hj => hj.halted n m hm) _))
  exact fun _ => rfl

theorem holdDomain (h : Hw) (d : Nat) : Rejudged h (holdDomain h d) :=
  (foldl (fun g x _ => closeGate g (x / 64) (Nat.mod_lt x (by decide))) h).trans ((setPdomClosed ..).trans
    ((foldl (fun g n _ => wr g (fun _ hj => (hj.pdom n d).2) _) _).trans (refreshTooFast ..)))

theorem holdRsc (h : Hw) {l : Nat} (hl : l < 64) (cause : Nat) : Rejudged h (holdRsc h l cause) := by
  unfold Machine.holdRsc
  split
  · exact refl h
  · exact ((wr h (fun _ hj => hj.chan l hl) 0).trans (onLink ..)).trans ((holdDomain ..).trans (of_kept (kept_postEvent _ (by decide) ..)))

theorem checkRsc (h : Hw) : Rejudged h (checkRsc h) :=
  foldl (fun g l hl => by
    split
    · exact holdRsc g (List.mem_range.1 hl) 6
    · exact refl g) h

theorem checkBindings (h : Hw) : Rejudged h (checkBindings h) := by
  refine (foldl (fun g x hx => ?_) h).trans (checkRsc _)
  obtain ⟨n, d, b⟩ := x
  obtain ⟨hn, hd, hb⟩ := mem_allBindings (List.mem_filter.1 hx).1
  refine (bindStat g hn hd hb).trans ?_
  dsimp only
  split
  · exact (unalign _ hn hd hb).trans (holdDomain ..)
  · exact refl _

theorem clocksChanged (h : Hw) (n : Nat) : Rejudged h (clocksChanged h n) :=
  ((refreshGlock h n).trans (checkBindings _)).trans (foldl (fun g d _ => refreshTooFast g d) _)

end Rejudged

/-! ### Fabric PLLs -/

section
variable {h : Hw} {n i : Nat}

theorem seamBase_align (k : Nat) : seamBase k % 16 = 0 := by
  unfold seamBase
  split <;> omega

/-- LOCK and LOLS. -/
theorem offRejudged_pllStat {lo w rst : Nat} (hlo : lo < 3) (hn : n < 4) (hi : i < 16) :
    OffRejudged ⟨0x2C00030 + n * 0x1000000 + i * 0x40, lo, w, rst⟩ where
  sched := by
    simp only [OffSched]
    omega
  glock n' i' hi' := by
    simp only [Key.id, K.CLK_PLL_STAT_GLOCK]
    omega
  halted n' m hm := by
    simp only [Key.id, K.CLK_NET_STAT_HALTED]
    omega
  bind n' d b hn' hd hb := by
    simp only [Key.id, K.SEAM_BIND_STAT_K, K.SEAM_BIND_STAT_KRANGE, K.SEAM_BIND_STAT_KMISMATCH, K.SEAM_BIND_STAT_NOLOCK,
      K.SEAM_BIND_STAT_ALIGNED]
    omega
  gstate n' d g hn' hd := by
    have := seamBase_align n'
    simp only [Key.id, K.SEAM_GRP_STAT_GSTATE]
    omega
  pdom n' d := by
    simp only [Key.id, K.PDOM_STAT_TOOFAST, K.PDOM_STAT_HELD]
    omega
  chan l hl := by
    simp only [Key.id, K.BORTIK_LINK_RSCSTAT_ALIGNED]
    omega

theorem offRejudged_lock (hn : n < 4) (hi : i < 16) :
    OffRejudged (K.CLK_PLL_STAT_LOCK n i) ∧ OffRejudged (K.CLK_PLL_STAT_LOLS n i) :=
  ⟨offRejudged_pllStat (by decide) hn hi, offRejudged_pllStat (by decide) hn hi⟩

theorem pll_setPll (g : Hw) (n i : Nat) (p : PllPhase) : (g.setPll n i p).pll n i = p := SMap.get_set_self ..
theorem pll_congr {g t : Hw} (e : t.clk.plls = g.clk.plls) (n i : Nat) : t.pll n i = g.pll n i := by rw [Hw.pll, e, Hw.pll]

theorem pllLocks_locks (hn : n < 4) (hi : i < 16) (hu : dieUp h n = true) (hr : pllHasRef h n i = true) (hl : h.ldr.load = none)
    (hp : h.pll n i = .acquiring ∨ h.pll n i = .freeRunning) :
    (pllLocks h n i).pll n i = .locked ∧ (pllLocks h n i).rd (K.CLK_PLL_STAT_LOCK n i) = 1 := by
  have ph : (h.pll n i == .acquiring || h.pll n i == .freeRunning) = true := by
    obtain e | e := hp <;> rw [e] <;> rfl
  rw [pllLocks, if_pos (by rw [hu, ph, hr]; rfl)]
  have judged := Rejudged.clocksChanged (((runDesign h).setPll n i .locked).wr (K.CLK_PLL_STAT_LOCK n i) 1) n
  rw [tryVerify_idle]
  · exact ⟨(pll_congr judged.plls n i).trans (pll_setPll ..), (judged.rd _ (offRejudged_lock hn hi).1).trans (Hw.rd_wr_self ..)⟩
  · rw [judged.ldr]
    exact (congrArg Loader.load (designRan_runDesign h).ldr).trans hl

end

/-- Settles O40: lock, missed limit and loss of lock. -/
theorem fabricPlls : Obligations.FabricPlls := by
  unfold Obligations.FabricPlls
  refine ⟨fun s d i hu hr hl hp => ⟨_, rfl, pllLocks_locks d.isLt i.isLt hu hr hl hp⟩,
    fun s d i hu => ⟨fun hp => ⟨_, rfl, ?_⟩, fun hp => ⟨_, rfl, ?_⟩⟩⟩
  · simp only [State.onHw]
    rw [if_pos (by rw [hu, hp]; rfl)]
    have kept := kept_logEvent (s.hw.wr (K.CLK_PLL_STAT_LOLS d.val i.val) 1) (srcDie d.val) 0 (pllStatAddr d.val i.val)
    exact ⟨(pll_congr (congrArg Clk.plls kept.clk) ..).trans hp,
      (kept.rd _ (offRejudged_lock d.isLt i.isLt).2.sched).trans (Hw.rd_wr_self ..)⟩
  · simp only [State.onHw]
    rw [if_pos (by rw [hu, hp]; rfl)]
    obtain ⟨offLock, offLols⟩ := offRejudged_lock d.isLt i.isLt
    have lols_ne : (K.CLK_PLL_STAT_LOLS d.val i.val).id ≠ (K.CLK_PLL_STAT_LOCK d.val i.val).id := by
      simp only [Key.id, K.CLK_PLL_STAT_LOLS, K.CLK_PLL_STAT_LOCK]
      omega
    have judged := ((Rejudged.refreshGlock ((((runDesign s.hw).setPll d.val i.val .freeRunning).wr (K.CLK_PLL_STAT_LOLS d.val i.val) 1).wr
      (K.CLK_PLL_STAT_LOCK d.val i.val) 0) d.val).trans (.of_kept (kept_logEvent _ (srcDie d.val) 0 (pllStatAddr d.val i.val)))).trans
        (.clocksChanged _ d.val)
    exact ⟨(pll_congr judged.plls ..).trans (pll_setPll ..),
      (judged.rd _ offLols).trans ((Hw.rd_wr_ne _ lols_ne 0).trans (Hw.rd_wr_self ..)), (judged.rd _ offLock).trans (Hw.rd_wr_self ..)⟩

end Sys2Proof.Machine
end

section
/-!
PROOF. ClockSwitches does not hold as it is stated: its clause on a completed switch speaks of every state, and in one whose
binding names a packed domain wider than its field, holding that domain writes a register of the network itself.
-/
namespace Sys2Proof.Machine
open Sys2Proof

/-- Network 0 of die 0 is parked before a live source, and an aligned binding without locked clocks names a packed domain far above
the 64 there are. -/
def strayDomain : State :=
  ⟨[], {}, { ({} : Hw) with
    csr := SMap.set (SMap.set (SMap.set (SMap.set [] (K.SEAM_BIND_CFG_EN 0 0 0).id 1 0) (K.SEAM_BIND_CFG_PDOM 0 0 0).id 0x39000 0)
      (K.SEAM_BIND_STAT_ALIGNED 0 0 0).id 1 0) (K.CLK_NET_SRC_SRC0 0 0).id 0x70 0
    clk := { ({} : Hw).clk with nets := SMap.set [] 0 { ({} : NetSt) with sw := .parked } {} } }⟩

/-- HELD of the domain the binding names is NOSRC of the network. -/
theorem strayDomain_held : (K.PDOM_STAT_HELD 0 0x39000).id = (K.CLK_NET_STAT_NOSRC 0 0).id := by decide

/-- The switch completes, the binding is judged anew, and HELD is set where NOSRC stands. -/
theorem clockSwitchComplete_strayDomain : (match exec (.clockSwitchComplete 0 0) strayDomain with
    | .next t => t.hw.rd (K.CLK_NET_STAT_NOSRC 0 0) == 1
    | _ => false) = true := by decide +kernel

/-- Refutes O41: where an aligned binding names packed domain 0x39000, a completed switch leaves NOSRC set. -/
theorem not_clockSwitches : ¬ Obligations.ClockSwitches := by
  unfold Obligations.ClockSwitches
  rintro ⟨-, -, -, complete⟩
  obtain ⟨t, ht, -, -, nosrc, -⟩ := (complete strayDomain 0 0 (by decide)).1 (by decide) (by decide)
  have held := clockSwitchComplete_strayDomain
  rw [show ((0 : Die).val) = 0 from rfl, show ((0 : Net).val) = 0 from rfl] at nosrc
  rw [ht] at held
  have : (0 : Nat) = 1 := nosrc.symm.trans (by simpa using held)
  exact absurd this (by decide)

end Sys2Proof.Machine
end

section
/-!
PROOF. Hub gates, the fabric enable and the stake counters (R106 to R109).
-/
namespace Sys2Proof.Machine
open Sys2Proof

section
variable {h : Hw} {n m : Nat}

/-! ### Counters of a halted network -/

theorem testBit_foldl_or {l : List Nat} {x i : Nat} (hi : (l.foldl (fun x i => x ||| 2 ^ i) x).testBit i = true) :
    x.testBit i = true ∨ i ∈ l := by
  induction l generalizing x with
  | nil => exact .inl hi
  | cons j l ih =>
    obtain hx | hl := ih hi
    · rw [Nat.testBit_or, Bool.or_eq_true, Nat.testBit_two_pow] at hx
      exact hx.imp_right fun hj => List.mem_cons.2 (.inl (by simpa using hj : j = i).symm)
    · exact .inr (List.mem_cons_of_mem _ hl)

theorem mem_of_testBit_maskOf {l : List Nat} {i : Nat} (hi : (maskOf l).testBit i = true) : i ∈ l :=
  (testBit_foldl_or hi).resolve_left (by simp)

/-- The edges that can come together are among those asked for. -/
theorem testBit_stepFilter {f r i : Nat} (hi : (stepFilter h f r).testBit i = true) : r.testBit i = true := by
  induction f generalizing r with
  | zero => exact hi
  | succ f ih => exact (mem_bitList.1 (List.mem_filter.1 (mem_of_testBit_maskOf (ih hi))).1).2

/-- A halted network has no rising edge. -/
theorem rise_edgesOf_halted (hm : m < 64) (hh : netHalted h n m = true) (r : Nat × Nat) : (edgesOf h r).rise.testBit (n * 64 + m) = false := by
  rw [Bool.eq_false_iff]
  intro hr
  unfold edgesOf at hr
  dsimp only at hr
  have asked := testBit_stepFilter hr
  have runs := (List.mem_filter.1 (mem_of_testBit_maskOf asked)).2
  rw [show (n * 64 + m) / 64 = n by omega, show (n * 64 + m) % 64 = m by omega, netRuns, hh] at runs
  exact absurd runs (by simp)

/-- A network without a rising edge counts none. -/
theorem stake_netsAfter {e : Edges} {k : Nat} (he : e.rise.testBit k = false) :
    (SMap.get (netsAfter h e) k {}).stake = (SMap.get h.clk.nets k {}).stake := by
  unfold netsAfter
  refine List.foldlRecOn (motive := fun t : SMap NetSt => (SMap.get t k {}).stake = (SMap.get h.clk.nets k {}).stake) _ _ rfl
    fun t ht i _ => ?_
  by_cases hk : k = i
  · subst hk
    rw [SMap.upd, SMap.get_set_self, ← ht, if_neg (by simp [he])]
  · rw [SMap.upd, SMap.get_set_ne _ hk, ht]

/-- What the edges leave of the networks. -/
theorem nets_edgeStep (h : Hw) (e : Edges) : (edgeStep h e).clk.nets = netsAfter h e := by
  unfold edgeStep
  dsimp only
  refine foldl_keeps (fun g : Hw => g.clk.nets) (fun g r hr => congrArg Clk.nets (kept_countRam g ?_ r.2).clk) _
  obtain ⟨k, hk, hr⟩ := List.mem_flatMap.1 hr
  split at hr
  · cases hr
  · obtain ⟨_, -, hr⟩ := List.mem_flatMap.1 hr
    obtain ⟨_, -, hr⟩ := List.mem_flatMap.1 hr
    obtain ⟨_, -, rfl⟩ := List.mem_map.1 hr
    exact List.mem_range.1 hk

theorem steps_count_halted (hm : m < 64) (l : List (Nat × Nat)) : ∀ h : Hw, netHalted h n m = true →
    ((l.foldl (fun h r => edgeStep h (edgesOf h r)) h).net n m).stake = (h.net n m).stake := by
  induction l with
  | nil => exact fun _ _ => rfl
  | cons r l ih =>
    intro h hh
    refine (ih _ ?_).trans ?_
    · rw [netHalted, Hw.bit, (designRan_edgeStep h _).rd _ offSched_halted]
      exact hh
    · rw [Hw.net, nets_edgeStep, stake_netsAfter (rise_edgesOf_halted hm hh r), Hw.net]

theorem runDesign_counts_halted (hm : m < 64) (hh : netHalted h n m = true) :
    ((runDesign h).net n m).stake = (h.net n m).stake := by
  unfold runDesign
  split
  · rfl
  · exact steps_count_halted hm _ { h with freeCtr := h.freeCtr + 1 } hh

/-! ### Gates and latches -/

theorem net_wr (g : Hw) (k : Key) (v n m : Nat) : (g.wr k v).net n m = g.net n m := rfl

theorem closing_gateClosed (h : Hw) (n m : Nat) : ((gateClosed h n m).net n m).closing = false := by
  unfold gateClosed
  dsimp only
  rw [net_wr, net_onNet_self]

theorem hubGateClose_halts (hn : n < 4) (hm : m < 64) : netHalted (wakeWaitAll (gateClosed h n m)) n m = true ∧
    ((wakeWaitAll (gateClosed h n m)).net n m).closing = false := by
  have work := CoreWork.wakeWaitAll (gateClosed h n m)
  refine ⟨?_, ?_⟩
  · have field : DieField (K.CLK_NET_STAT_HALTED n m) := by
      simp only [DieField, K.CLK_NET_STAT_HALTED]
      omega
    rw [netHalted, Hw.bit, work.rd _ field, gateClosed, Hw.rd_wr_self]
    rfl
  · rw [Hw.net, work.clk, ← Hw.net, closing_gateClosed]

theorem setFen_leaves (v : Bool) : ((setFen h n m v).net n m).fen = v ∧ ((setFen h n m v).net n m).sw = (h.net n m).sw ∧
    ((setFen h n m v).net n m).cur = (h.net n m).cur := by
  obtain ⟨⟨sw, cur, -⟩, -⟩ := fields_of_control ((designRan_runDesign h).net n m)
  rw [setFen, net_onNet_self]
  exact ⟨rfl, sw, cur⟩

/-- A network's counter is copied. -/
def latchOne (n : Nat) (h : Hw) (m : Nat) : Hw := h.onNet n m fun x => { x with latched := x.stake }

theorem latchStakes_eq : latchStakes h n =
    (((List.range 64).foldl (latchOne n) (runDesign h)).wr (K.CLK_STAKELATCH_TIME n)
      ((List.range 64).foldl (latchOne n) (runDesign h)).now).wr (K.CLK_STAKELATCH_HELD n) 1 := rfl

theorem latched_latches {l : List Nat} (hm : m ∈ l) : ∀ h : Hw, ((l.foldl (latchOne n) h).net n m).latched =
    ((l.foldl (latchOne n) h).net n m).stake := by
  induction l with
  | nil => exact absurd hm List.not_mem_nil
  | cons k l ih =>
    intro h
    by_cases hl : m ∈ l
    · exact ih hl _
    · have hk : m = k := (List.mem_cons.1 hm).resolve_right hl
      subst hk
      have kept : (l.foldl (latchOne n) (latchOne n h m)).net n m = (latchOne n h m).net n m :=
        foldl_keeps (fun g : Hw => g.net n m) (fun g j hj => net_onNet_ne g (by have : m ≠ j := fun e => hl (e ▸ hj); omega) _) _
      rw [List.foldl_cons, kept, latchOne, net_onNet_self]

theorem now_latched (l : List Nat) (h : Hw) : (l.foldl (latchOne n) h).now = h.now :=
  foldl_keeps (f := latchOne n) (fun g : Hw => g.now) (fun _ _ _ => rfl) _

theorem latchStakes_leaves : (latchStakes h n).rd (K.CLK_STAKELATCH_HELD n) = 1 ∧
    (latchStakes h n).rd (K.CLK_STAKELATCH_TIME n) = h.now % 2 ^ (K.CLK_STAKELATCH_TIME n).w ∧
    ∀ m, m < 64 → ((latchStakes h n).net n m).latched = ((latchStakes h n).net n m).stake := by
  have time : ((List.range 64).foldl (latchOne n) (runDesign h)).now = h.now :=
    (now_latched ..).trans ((designRan_runDesign h).rd _ (by simp [OffSched, K.CLK_GRIDTIME_TIME]))
  have held_ne : (K.CLK_STAKELATCH_TIME n).id ≠ (K.CLK_STAKELATCH_HELD n).id := by
    simp only [Key.id, K.CLK_STAKELATCH_TIME, K.CLK_STAKELATCH_HELD]
    omega
  rw [latchStakes_eq, time]
  refine ⟨Hw.rd_wr_self .., ?_, fun m hm => latched_latches (List.mem_range.2 hm) _⟩
  rw [Hw.rd_wr_ne _ held_ne, Hw.rd_wr_self]

end

/-- Settles O42: the closed gate, the fabric enable, the stake latch and the counters of halted networks. -/
theorem gatesAndStakes : Obligations.GatesAndStakes := by
  unfold Obligations.GatesAndStakes
  refine ⟨fun s d m hc _ => ⟨_, rfl, ?_⟩, fun s d m v hu => ⟨_, rfl, ?_⟩,
    fun s who d hg => ⟨⟨_, rfl, ?_⟩, ⟨_, rfl, ?_⟩⟩, fun h n m hh => runDesign_counts_halted m.isLt hh⟩
  · simp only [State.onHw]
    rw [if_pos hc]
    exact hubGateClose_halts d.isLt m.isLt
  · simp only [State.onHw]
    rw [if_pos hu]
    exact setFen_leaves _
  · simp only [State.onHw]
    rw [gated_ok hg]
    exact latchStakes_leaves
  · simp only [State.onHw]
    rw [gated_ok hg]
    exact ⟨Hw.rd_wr_self .., rfl⟩

end Sys2Proof.Machine
end

section
/-!
PROOF. StrataEvents does not hold as it is stated: its clause on the end of a deep drain speaks of every state, and in one whose
table of cores holds a core twice the drain's own write to memory leaves the core the second entry.
-/
namespace Sys2Proof.Machine
open Sys2Proof

/-- Core 5 waits for a deep drain of die 0, whose mask holds one frame, to hub SRAM, and stands in the table of cores twice. -/
def twinCore : State :=
  ⟨[], {}, { ({} : Hw) with
    csr := SMap.set [] (K.MASK_SEC_W_BITS 0 0 0).id 1 0
    cores := [(5, { ({} : CoreSt) with dev := some ⟨.drain 0, 0, none⟩ }), (5, { ({} : CoreSt) with regs := [(1, 7)] })]
    dies := SMap.put [] 0 { ({} : DieSt) with strata := .deep 0 hubBase 0 } }⟩

/-- The write of the frame touches both entries, the second one last. -/
theorem deepDrainComplete_twinCore : (match exec (.deepDrainComplete 0) twinCore with
    | .next t => t.hw.g 5 1 == 7
    | _ => false) = true := by decide +kernel

/-- Refutes O45: where core 5 stands in the table twice, the end of the drain it waits for changes its register 1. -/
theorem not_strataEvents : ¬ Obligations.StrataEvents := by
  unfold Obligations.StrataEvents
  rintro ⟨-, -, -, -, -, -, deep, -⟩
  obtain ⟨t, ht, ⟨-, -, regs⟩, -⟩ := deep twinCore 0 5 0 0 hubBase 0 (by decide) (by decide) (by decide) (by decide) (by decide)
  have twin := deepDrainComplete_twinCore
  rw [ht] at twin
  have same : t.hw.g 5 1 = 0 := regs 1 (by decide)
  simp only [same] at twin
  exact absurd twin (by decide)

end Sys2Proof.Machine
end

section
/-!
PROOF. Resets that Adit asks for, and the Canary (R482, R483).
-/
namespace Sys2Proof.Machine
open Sys2Proof

section
variable {h : Hw} {f : Face}

/-! ### Whole words written to HUB.ADIT -/

theorem placed_word (a : Nat) {d : Nat} (hd : d < 2 ^ 64) : placed a 8 d &&& writeMask64 a 8 = d := by
  rw [placed, writeMask64, if_pos rfl, if_pos rfl, Nat.and_two_pow_sub_one_eq_mod, Nat.mod_mod, Nat.mod_eq_of_lt hd]

theorem aditAddr_off {off : Nat} (ho : off % 8 = 0) : aditAddr off / 8 * 8 - 0x1C00000 = off := by
  rw [aditAddr]; omega

theorem regIndex_of_lt {off : Nat} (ho : off < 0x100) : regIndex off = none := by
  have low : within off 0x100 0x200 = false := by simp only [within]; exact decide_eq_false (by omega)
  rw [regIndex, low, if_neg Bool.false_ne_true, if_neg (by omega)]

/-- A whole word written at RESET by the owner. -/
theorem aditWrite_reset (ho : faceOwns h f = true) {d : Nat} (hd : d < 2 ^ 64) : aditWrite h f (aditAddr 0x30) 8 d =
    if d.testBit 0 then aditReset h (bits d 2 1) (bits d 4 3) else h := by
  rw [aditWrite]
  dsimp only
  rw [placed_word _ hd, aditAddr_off rfl, regIndex_of_lt (by decide)]
  simp [ho]

/-! ### Requests -/

theorem requestReset_asks (hr : resetting h = false) (cold : Bool) {cause : Key} (hw : cause.w = 1) :
    (requestReset h cold cause).rd cause = 1 ∧
      (requestReset h cold cause).rst.request = some (cold || h.rst.request == some true) := by
  have runs : resetting (h.wr cause 1) = false := hr
  simp only [requestReset, runs, Bool.false_and, Bool.false_eq_true, if_false]
  exact ⟨(Hw.rd_wr_self h cause 1).trans (by rw [hw]; decide), rfl⟩

/-- The field of w bits at lo, after it was replaced. -/
theorem setBits_field (x lo w v : Nat) : setBits x lo w v / 2 ^ lo % 2 ^ w = v % 2 ^ w := by
  have hp : 0 < 2 ^ lo := Nat.two_pow_pos lo
  have hq := Nat.div_add_mod (x / 2 ^ lo) (2 ^ w)
  have hx := Nat.div_add_mod x (2 ^ lo)
  have split : setBits x lo w v = 2 ^ lo * (2 ^ w * (x / 2 ^ lo / 2 ^ w) + v % 2 ^ w) + x % 2 ^ lo := by
    have e : x = 2 ^ lo * (2 ^ w * (x / 2 ^ lo / 2 ^ w)) + x / 2 ^ lo % 2 ^ w * 2 ^ lo + x % 2 ^ lo := by
      conv_lhs => rw [← hx, ← hq]
      ring
    have r : setBits x lo w v = x - x / 2 ^ lo % 2 ^ w * 2 ^ lo + v % 2 ^ w * 2 ^ lo := rfl
    have expand : 2 ^ lo * (2 ^ w * (x / 2 ^ lo / 2 ^ w) + v % 2 ^ w) =
      2 ^ lo * (2 ^ w * (x / 2 ^ lo / 2 ^ w)) + v % 2 ^ w * 2 ^ lo := by ring
    rw [r, expand]
    omega
  rw [split, Nat.mul_add_div hp, Nat.div_eq_of_lt (Nat.mod_lt _ hp), Nat.add_zero, Nat.mul_add_mod, Nat.mod_mod]

theorem requestDie_asks (hr : resetting h = false) (n : Nat) {src : Nat} (h0 : src ≠ 0) (h8 : src < 8) :
    (requestDie h n src).rst.dieReq / 8 ^ n % 8 = src ∧ dieResetting (requestDie h n src) n = true := by
  have e : (requestDie h n src).rst.dieReq / 8 ^ n % 8 = src := by
    have pow : 8 ^ n = 2 ^ (3 * n) := by rw [Nat.pow_mul]
    simp only [requestDie, hr, Bool.false_eq_true, if_false]
    rw [pow]
    exact (setBits_field h.rst.dieReq (3 * n) 3 src).trans (Nat.mod_eq_of_lt h8)
  refine ⟨e, ?_⟩
  rw [dieResetting, e]
  simp [h0]

end

/-- Settles O55: RESET.GO asks by its REACH, the foreman's key reloads REMAIN, and a Canary at 0 asks for a warm reset. -/
theorem aditResetsAndCanary : Obligations.AditResetsAndCanary := by
  unfold Obligations.AditResetsAndCanary
  refine ⟨fun s f ho hr => ⟨?_, ?_, fun d hd => ?_⟩, fun s m key hg => ⟨fun hm hk => ?_, fun hn => ?_⟩, fun s hh h0 hq => ?_⟩
  · refine ⟨_, rfl, ?_⟩
    simp only [State.onHw]
    rw [aditWrite_reset ho (by decide)]
    exact requestReset_asks hr false rfl
  · refine ⟨_, rfl, ?_⟩
    simp only [State.onHw]
    rw [aditWrite_reset ho (by decide)]
    exact requestReset_asks hr true rfl
  · have go : (8 * d.val + 5).testBit 0 = true := by simp only [Nat.testBit_zero, decide_eq_true_eq]; omega
    have reach : bits (8 * d.val + 5) 2 1 = 2 := by simp only [bits]; omega
    have die : bits (8 * d.val + 5) 4 3 = d.val := by simp only [bits]; omega
    refine ⟨_, rfl, ?_⟩
    simp only [State.onHw]
    rw [aditWrite_reset ho (by omega), if_pos go, reach, die, aditReset, if_neg (by simp [hd])]
    exact requestDie_asks hr d.val (by decide) (by decide)
  · refine ⟨_, rfl, ?_⟩
    simp only [State.onHw]
    rw [gated_ok hg, canaryFeed, hm, hk, if_pos (by decide)]
    exact ⟨Hw.rd_wr_self .., rfl⟩
  · refine ⟨_, rfl, ?_⟩
    simp only [State.onHw]
    rw [gated_ok hg, canaryFeed, if_neg]
    · exact (kept_logErr ..).rd _ (by simp only [OffSched, K.RST_CANARY_STAT_REMAIN]; omega)
    · intro hc
      simp only [Bool.and_eq_true, beq_iff_eq] at hc
      exact hn.elim (fun hm => hm hc.1) fun hk => hk (BitVec.eq_of_toNat_eq hc.2)
  · refine ⟨_, rfl, ?_⟩
    simp only [State.onHw]
    rw [if_pos (by simp [hh, h0, hq])]
    have log := kept_logEvent s.hw srcReset 5 K.RST_CANARY_STAT_REMAIN.addr
    have runs : resetting (logEvent s.hw srcReset 5 K.RST_CANARY_STAT_REMAIN.addr) = false := by
      rw [resetting, log.rst]
      simpa [hubRuns] using hh
    have asks := requestReset_asks runs false (cause := K.RST_CAUSE_CANARY) rfl
    rw [log.rst, hq] at asks
    exact asks

end Sys2Proof.Machine
end

section
/-!
PROOF. What the events of links, channels, seams and the guest site leave of the reset and the power controller and of the
identity, reset, clock and power registers.
-/
namespace Sys2Proof.Machine
open Sys2Proof

/-- A register of HUB.ID, HUB.RST, HUB.CLK or HUB.PWR. -/
def ControlReg (k : Key) : Prop := k.lo < 64 ∧ k.addr < 0x400000

namespace ControlReg
variable {k j : Key}

theorem sched (hk : ControlReg k) : OffSched k := ⟨hk.1, .inl hk.2⟩

theorem ne (hk : ControlReg k) (hj : 0x400000 ≤ j.addr) : k.id ≠ j.id := by
  obtain ⟨hl, ha⟩ := hk
  simp only [Key.id]
  omega

theorem judged (hk : ControlReg k) : OffRejudged k := by
  have seam (n : Nat) (hn : n < 4) : 0x2800000 ≤ seamBase n := by rw [seamBase, if_pos hn]; omega
  refine ⟨hk.sched, fun n i _ => hk.ne ?_, fun n m _ => hk.ne ?_, fun n d b _ _ _ => ⟨hk.ne ?_, hk.ne ?_, hk.ne ?_, hk.ne ?_, hk.ne ?_⟩,
    fun n d g hn _ => hk.ne ?_, fun n d => ⟨hk.ne ?_, hk.ne ?_⟩, fun l _ => hk.ne ?_⟩
  case refine_8 =>
    have := seam n hn
    simp only [K.SEAM_GRP_STAT_GSTATE]
    omega
  all_goals
    simp only [K.CLK_PLL_STAT_GLOCK, K.CLK_NET_STAT_HALTED, K.SEAM_BIND_STAT_K, K.SEAM_BIND_STAT_KRANGE, K.SEAM_BIND_STAT_KMISMATCH,
      K.SEAM_BIND_STAT_NOLOCK, K.SEAM_BIND_STAT_ALIGNED, K.PDOM_STAT_TOOFAST, K.PDOM_STAT_HELD, K.BORTIK_LINK_RSCSTAT_ALIGNED]
    omega

end ControlReg

/-- The reset and the power controller and the control registers hold what they held. -/
structure ControlKept (h t : Hw) : Prop where
  rst : t.rst = h.rst
  pwr : t.pwr = h.pwr
  rd : ∀ k, ControlReg k → t.rd k = h.rd k

namespace ControlKept
variable {h t u : Hw}

theorem refl (h : Hw) : ControlKept h h := ⟨rfl, rfl, fun _ _ => rfl⟩
theorem trans (a : ControlKept h t) (b : ControlKept t u) : ControlKept h u :=
  ⟨b.rst.trans a.rst, b.pwr.trans a.pwr, fun k hk => (b.rd k hk).trans (a.rd k hk)⟩
theorem of_kept (a : Kept h t) : ControlKept h t := ⟨a.rst, a.pwr, fun k hk => a.rd k hk.sched⟩
theorem of_rejudged (a : Rejudged h t) : ControlKept h t := ⟨a.rst, a.pwr, fun k hk => a.rd k hk.judged⟩
/-- A change beside the registers and the reset controller. -/
theorem of_eq (hr : t.rst = h.rst) (hp : t.pwr = h.pwr) (hc : t.csr = h.csr) : ControlKept h t := ⟨hr, hp, fun k _ => by rw [Hw.rd, hc, Hw.rd]⟩

theorem wr (h : Hw) {j : Key} (hj : 0x400000 ≤ j.addr) (v : Nat) : ControlKept h (h.wr j v) :=
  ⟨rfl, rfl, fun _ hk => Hw.rd_wr_ne h (hk.ne hj) v⟩
theorem wrB (h : Hw) {j : Key} (hj : 0x400000 ≤ j.addr) (b : Bool) : ControlKept h (h.wrB j b) := wr h hj _
theorem cnt (h : Hw) {j : Key} (hj : 0x400000 ≤ j.addr) : ControlKept h (h.cnt j) := wr h hj _

theorem foldl {α : Type} {f : Hw → α → Hw} {l : List α} (hf : ∀ h, ∀ x ∈ l, ControlKept h (f h x)) (h : Hw) :
    ControlKept h (l.foldl f h) :=
  List.foldlRecOn (motive := ControlKept h) l f (refl h) fun t ht x hx => ht.trans (hf t x hx)

/-! ### Answers -/

theorem guestViolates (h : Hw) : ControlKept h (guestViolates h) := by
  unfold Machine.guestViolates
  extract_lets g n src w
  have counted : ControlKept h w := (cnt h (j := K.GUEST_VIOL_COUNT) (by decide)).trans (of_eq rfl rfl rfl)
  clear_value w
  split
  · exact (counted.trans (wr w (j := K.GUEST_CTL_FENCE) (by decide) 1)).trans (of_kept (kept_postEvent _ (by decide) ..))
  · exact counted

theorem donePosted (h : Hw) (q : GReq) : ControlKept h (donePosted h q) := by
  unfold Machine.donePosted
  split
  · exact of_eq rfl rfl rfl
  · exact refl h

theorem answer (h : Hw) (q : GReq) (st : Status) (data : Nat) : ControlKept h (answer h q st data) := by
  unfold Machine.answer
  have first : ControlKept h (if q.m = .guest ∧ st ≠ .ok then guestFails h st q.addr else h) := by
    split
    · exact (of_kept (kept_logErr h ..)).trans (guestViolates _)
    · exact refl h
  revert first
  generalize (if q.m = .guest ∧ st ≠ .ok then guestFails h st q.addr else h) = u
  intro first
  refine first.trans ?_
  cases q.kind with
  | pwrite =>
    dsimp only
    split
    · exact donePosted ..
    · exact (donePosted u q).trans (of_kept (kept_logErr ..))
  | read | write => exact of_eq rfl rfl rfl

/-! ### The channels -/

theorem onDram (h : Hw) (d : Dram) : ControlKept h { h with dram := d } := of_eq rfl rfl rfl

theorem parkChannel (h : Hw) (n : Nat) : ControlKept h (parkChannel h n) := by
  have state : 0x400000 ≤ (K.DDR_C_STAT_STATE n).addr := by simp only [K.DDR_C_STAT_STATE]; omega
  have owed : 0x400000 ≤ (K.DDR_C_STAT_OWED n).addr := by simp only [K.DDR_C_STAT_OWED]; omega
  unfold Machine.parkChannel
  dsimp only
  refine (wr h owed 0).trans ?_
  split
  · exact wr _ state _
  · split
    · exact (wr _ state _).trans (onDram ..)
    · exact refl _

theorem failDram (h : Hw) : ControlKept h (failDram h) :=
  (onDram h _).trans (foldl (fun g q _ => answer g q .decerr 0) _)

theorem startChannel (h : Hw) (n : Nat) : ControlKept h (startChannel h n) := by
  have state : 0x400000 ≤ (K.DDR_C_STAT_STATE n).addr := by simp only [K.DDR_C_STAT_STATE]; omega
  unfold Machine.startChannel
  split
  · exact wr h state _
  · exact wr h state _

theorem unparkChannel (h : Hw) (n : Nat) : ControlKept h (unparkChannel h n) := by
  have state : 0x400000 ≤ (K.DDR_C_STAT_STATE n).addr := by simp only [K.DDR_C_STAT_STATE]; omega
  unfold Machine.unparkChannel
  split
  · exact refl h
  · split
    · exact wr h state _
    · exact startChannel h n

/-! ### The links -/

theorem onLink (h : Hw) (l : Nat) (f : LinkSt → LinkSt) : ControlKept h (onLink h l f) := of_eq rfl rfl rfl

theorem linkEvent (h : Hw) (code l lane arg : Nat) : ControlKept h (linkEvent h code l lane arg) :=
  of_kept (kept_postEvent h (by decide) ..)

theorem setLaneStep (h : Hw) (l step : Nat) : ControlKept h (setLaneStep h l step) :=
  foldl (fun g k _ => wr g (by simp only [K.LANE_STAT_STEP]; omega) step) h

theorem setLaneLock (h : Hw) (l : Nat) (v : Bool) : ControlKept h (setLaneLock h l v) :=
  foldl (fun g k _ => wrB g (by simp only [K.LANE_STAT_LOCK]; omega) v) h

theorem setLk (h : Hw) (l st : Nat) : ControlKept h (setLk h l st) := wr h (by simp only [K.BORTIK_LINK_STAT_STATE]; omega) st

theorem startLink (h : Hw) (l : Nat) : ControlKept h (startLink h l) := by
  unfold Machine.startLink
  split
  · exact (setLk ..).trans (setLaneStep ..)
  · exact refl h

theorem startLinks (h : Hw) : ControlKept h (startLinks h) := foldl (fun g l _ => startLink g l) h

theorem rest (h : Hw) (l : Nat) : ControlKept h (rest h l) := by
  unfold Machine.rest
  dsimp only
  refine (setLaneLock h l false).trans ?_
  split
  · exact (setLk ..).trans (setLaneStep ..)
  · exact (setLk ..).trans (setLaneStep ..)

theorem endLink (h : Hw) {l : Nat} (hl : l < 64) (cause : Nat) : ControlKept h (endLink h l cause) := by
  unfold Machine.endLink
  split
  · exact refl h
  · extract_lets live a b c d e
    have held : ControlKept h a := by
      simp only [a]
      split
      · exact of_rejudged (.holdRsc h hl 5)
      · exact refl h
    have shown : ControlKept h d := (held.trans (wr a (by simp only [K.BORTIK_LINK_STAT_DOWNCAUSE]; omega) cause)).trans
      ((onLink ..).trans (wr c (by simp only [K.BORTIK_GAZ_INFO_VALID]; omega) 0))
    have posted : ControlKept d e := by
      simp only [e]
      split
      · exact (cnt d (by simp only [K.BORTIK_LINK_CNT_DOWNS]; omega)).trans (linkEvent ..)
      · exact refl d
    exact (shown.trans posted).trans (rest e l)

theorem endLinks (h : Hw) (cause : Nat) : ControlKept h ((List.range 64).foldl (fun h l => Machine.endLink h l cause) h) :=
  foldl (fun g _ hl => endLink g (List.mem_range.1 hl) cause) h

/-! ### The guest site -/

theorem onGuest (h : Hw) (f : Guest → Guest) : ControlKept h (onGuest h f) := of_eq rfl rfl rfl

theorem guestEvent (h : Hw) (code arg : Nat) : ControlKept h (guestEvent h code arg) := of_kept (kept_postEvent h (by decide) ..)

theorem guestLinkFalls (h : Hw) : ControlKept h (guestLinkFalls h) := by
  unfold Machine.guestLinkFalls
  split
  · exact refl h
  · refine (((wr h (j := K.GUEST_STAT_UP) (by decide) 0).trans (wr _ (j := K.GUEST_STAT_RATE) (by decide) 0)).trans
      (wr _ (j := K.GUEST_STAT_WIDTH) (by decide) 0)).trans ?_
    exact ((wr _ (j := K.GUEST_CTL_FENCE) (by decide) 1).trans (onGuest ..)).trans (guestEvent ..)

theorem refreshGuest (h : Hw) : ControlKept h (refreshGuest h) := by
  unfold Machine.refreshGuest
  extract_lets up a b
  have fenced : ControlKept h a := by
    simp only [a]
    split
    · exact wr h (j := K.GUEST_CTL_FENCE) (by decide) 1
    · exact refl h
  have run : ControlKept h b := fenced.trans (of_eq rfl rfl rfl)
  split
  · exact run
  · exact run.trans (guestLinkFalls b)

/-! ### The seams -/

theorem wrSeam (h : Hw) {j : Key} {k : Nat} (hj : seamBase k ≤ j.addr) (v : Nat) : ControlKept h (h.wr j v) := by
  refine wr h (Nat.le_trans ?_ hj) v
  unfold seamBase
  split <;> omega

theorem refreshRet (h : Hw) (k : Nat) : ControlKept h (refreshRet h k) :=
  (wrSeam h (k := k) (by simp only [K.SEAM_STAT_RET0]; omega) _).trans (wrSeam _ (k := k) (by simp only [K.SEAM_STAT_RET1]; omega) _)

theorem trainStart (h : Hw) (k : Nat) : ControlKept h (trainStart h k) := by
  unfold Machine.trainStart
  extract_lets a b c d e
  have lanes : ControlKept h a := of_eq rfl rfl rfl
  have groups : ControlKept a b := foldl (fun g i _ => foldl (fun g j _ =>
    ((((wrSeam g (k := k) (by simp only [K.SEAM_GRP_STAT_GSTATE]; omega) _).trans
      (wrSeam _ (k := k) (by simp only [K.SEAM_GRP_STAT_SPARE]; omega) _)).trans
      (wrSeam _ (k := k) (by simp only [K.SEAM_GRP_STAT_SPARELANE]; omega) _)).trans
      (wrSeam _ (k := k) (by simp only [K.SEAM_GRP_STAT_AMODE]; omega) _))) g) a
  have bindings : ControlKept b c := by
    simp only [c]
    split
    · exact foldl (fun g x _ => wr g (by simp only [K.SEAM_BIND_STAT_ALIGNED]; omega) 0) b
    · exact refl b
  have hub : ControlKept c d := (refreshRet c k).trans (wrSeam _ (k := k) (by simp only [K.SEAM_STAT_NOHUB]; omega) 0)
  have plan : ControlKept d e := by
    simp only [e]
    split
    · exact wrSeam d (k := k) (by simp only [K.SEAM_STAT_PLAN]; omega) 0
    · exact refl d
  exact ((lanes.trans groups).trans (bindings.trans hub)).trans (plan.trans (wrSeam e (k := k) (by simp only [K.SEAM_STAT_STATE]; omega) 1))

theorem trainHubSeams (h : Hw) : ControlKept h (trainHubSeams h) := foldl (fun g n _ => trainStart g (hubSeam n)) h

end ControlKept

end Sys2Proof.Machine
end

section
/-!
PROOF. The cold sequence: the crystal, the survey PLL, fuses and options, the fill and the start of the foreman (R88 to R92,
R421, R441 to R448, R480).
-/
namespace Sys2Proof.Machine
open Sys2Proof

/-! ### Postings and core c -/

theorem CoreIs.postEvent {p : CoreSt → Prop} {c : Nat} {h : Hw} (hi : CoreIs p c h) (hp : Steady p c) (q a b d e : Nat) :
    CoreIs p c (postEvent h q a b d e) := by
  unfold Machine.postEvent
  have k := hi.tryEnter hp q (.event q) (mkDesc 0 a b d e 0 0 0)
  generalize Machine.tryEnter h q (.event q) (mkDesc 0 a b d e 0 0 0) = r at k
  obtain ⟨u, r⟩ := r
  have drop (x : Adm) : CoreIs p c (dropPosting u q (Src.event q).code x) := by
    unfold dropPosting
    refine CoreIs.logEntry ?_ hp ..
    cases x with
    | full | noticket => exact k.cnt _
    | ok _ | noqueue | denied => exact k
  cases r with
  | ok _ => exact k.dispatch hp
  | full => exact drop .full
  | noticket => exact drop .noticket
  | noqueue => exact drop .noqueue
  | denied => exact drop .denied

/-! ### The qualifier -/

section
variable {h : Hw} {c : Nat}

/-- The counters of the qualifier after a window. -/
def windowCounted (h : Hw) (c : Nat) : Hw := (h.cnt K.CLK_XQUAL_WINDOWS).wr K.CLK_XQUAL_LASTCNT c

/-- The run grows by one window; a first one is its reference. -/
def runGrown (h : Hw) (c run : Nat) : Hw :=
  (if run = 0 then { h with clk := { h.clk with first := c } } else h).wr K.CLK_XQUAL_RUN (min 8 (run + 1))

theorem windowCounted_reads (h : Hw) (hc : c ≤ 0x7FF) : (windowCounted h c).rd K.CLK_XQUAL_LASTCNT = c ∧
    (windowCounted h c).rd K.CLK_XQUAL_RUN = h.rd K.CLK_XQUAL_RUN := by
  refine ⟨(Hw.rd_wr_self ..).trans (Nat.mod_eq_of_lt (Nat.lt_succ_of_le hc)), ?_⟩
  rw [windowCounted, Hw.rd_wr_ne _ (by decide)]
  exact Hw.rd_wr_ne _ (by decide) _

theorem windowPasses_counted (hc : c ≤ 0x7FF) : windowPasses (windowCounted h c) c = windowPasses h c := by
  rw [windowPasses, (windowCounted_reads h hc).2]
  rfl

/-- Before the crystal is stable nothing monitors it. -/
theorem qualWindow_eq (hc : h.clk.counting = true) (hs : h.clk.stable = false) {n : Nat} :
    qualWindow h n = if windowPasses h (min n 0x7FF) then
        if h.rd K.CLK_XQUAL_RUN = 7 then runComplete (runGrown (windowCounted h (min n 0x7FF)) (min n 0x7FF) 7)
        else runGrown (windowCounted h (min n 0x7FF)) (min n 0x7FF) (h.rd K.CLK_XQUAL_RUN)
      else (windowCounted h (min n 0x7FF)).wr K.CLK_XQUAL_RUN 0 := by
  have small : min n 0x7FF ≤ 0x7FF := Nat.min_le_right ..
  have still : monitorWindow (windowCounted h (min n 0x7FF)) (min n 0x7FF) = windowCounted h (min n 0x7FF) := by
    have unstable : (windowCounted h (min n 0x7FF)).clk.stable = false := hs
    rw [monitorWindow, unstable]
    rfl
  have run := (windowCounted_reads h small).2
  rw [qualWindow, hc]
  simp only [Bool.not_true, Bool.false_eq_true, if_false]
  rw [← windowCounted, still, windowPasses_counted small, run]
  cases windowPasses h (min n 0x7FF) with
  | false => rfl
  | true =>
    by_cases h7 : h.rd K.CLK_XQUAL_RUN = 7
    · simp only [h7, Bool.not_true, Bool.false_eq_true, if_false, if_true]
      rfl
    · simp only [h7, Bool.not_true, Bool.false_eq_true, if_false, if_true]
      rfl

theorem run_runGrown {run : Nat} (hr : run ≤ 7) (h : Hw) : (runGrown h c run).rd K.CLK_XQUAL_RUN = run + 1 := by
  refine (Hw.rd_wr_self ..).trans ?_
  have small : min 8 (run + 1) = run + 1 := by omega
  rw [small]
  exact Nat.mod_eq_of_lt (Nat.lt_of_le_of_lt (Nat.succ_le_succ hr) (by decide))

theorem runGrown_keeps (run : Nat) (h : Hw) : (runGrown h c run).clk.stable = h.clk.stable ∧ (runGrown h c run).rst = h.rst := by
  unfold runGrown
  split
  · exact ⟨rfl, rfl⟩
  · exact ⟨rfl, rfl⟩

/-- In the crystal phase the eighth window makes the crystal stable and the source. -/
theorem runComplete_leaves (hp : h.rst.phase = .crystal) : (runComplete h).clk.stable = true ∧ (runComplete h).rst.phase = .pll ∧
    (runComplete h).rd K.CLK_STAT_SRC = 1 ∧ (runComplete h).rd K.CLK_XQUAL_RUN = h.rd K.CLK_XQUAL_RUN := by
  have crystal : ((h.wr K.CLK_XQUAL_REFCNT h.clk.first).rst.phase == .crystal) = true := by simp [hp]
  unfold runComplete
  dsimp only
  rw [if_pos crystal]
  refine ⟨rfl, rfl, Hw.rd_wr_self (h.wr K.CLK_XQUAL_REFCNT h.clk.first) K.CLK_STAT_SRC 1, ?_⟩
  exact (Hw.rd_wr_ne (h.wr K.CLK_XQUAL_REFCNT h.clk.first) (k := K.CLK_STAT_SRC) (j := K.CLK_XQUAL_RUN) (by decide) 1).trans
    (Hw.rd_wr_ne h (by decide) _)

end

/-! ### The reduced state and the survey PLL -/

theorem crystalAbsent_leaves (h : Hw) : (crystalAbsent h).rd K.CLK_STAT_XABSENT = 1 ∧ (crystalAbsent h).rd K.CLK_STAT_SRC = 0 ∧
    ∀ k : Key, k.id ≠ K.CLK_STAT_XABSENT.id → k.id ≠ K.CLK_STAT_SRC.id → (crystalAbsent h).rd k = h.rd k := by
  have stopped : Hw := { h with clk := { h.clk with counting := false } }
  have wrote (g : Hw) : ((g.wr K.CLK_STAT_XABSENT 1).wr K.CLK_STAT_SRC 0).rd K.CLK_STAT_XABSENT = 1 ∧
      ((g.wr K.CLK_STAT_XABSENT 1).wr K.CLK_STAT_SRC 0).rd K.CLK_STAT_SRC = 0 ∧
      ∀ k : Key, k.id ≠ K.CLK_STAT_XABSENT.id → k.id ≠ K.CLK_STAT_SRC.id →
        ((g.wr K.CLK_STAT_XABSENT 1).wr K.CLK_STAT_SRC 0).rd k = g.rd k :=
    ⟨(Hw.rd_wr_ne _ (by decide) 0).trans (Hw.rd_wr_self ..), Hw.rd_wr_self .., fun k hx hs =>
      (Hw.rd_wr_ne _ hs 0).trans (Hw.rd_wr_ne g hx 1)⟩
  exact wrote _

theorem holdoverEnds_leaves {h : Hw} (hh : h.bit K.CLK_STAT_HOLDOVER = true) : (holdoverEnds h).rd K.CLK_STAT_HOLDOVER = 0 ∧
    (holdoverEnds h).rd K.CLK_STAT_XABSENT = 1 ∧ (holdoverEnds h).rd K.CLK_STAT_SRC = 0 := by
  have stat {k : Key} (hl : k.lo < 64) (ha : k.addr = 0x200000) : ControlReg k := ⟨hl, by omega⟩
  rw [holdoverEnds, hh]
  simp only [Bool.not_true, Bool.false_eq_true, if_false]
  have ended : (h.wr K.CLK_STAT_HOLDOVER 0).rd K.CLK_STAT_HOLDOVER = 0 := Hw.rd_wr_self ..
  generalize h.wr K.CLK_STAT_HOLDOVER 0 = a at ended ⊢
  have parked := (ControlKept.foldl (fun g n _ => .parkChannel g n) a : ControlKept a ((List.range 4).foldl parkChannel a)).trans
    (.failDram _)
  generalize failDram ((List.range 4).foldl parkChannel a) = b at parked ⊢
  obtain ⟨absent, src, others⟩ := crystalAbsent_leaves b
  generalize crystalAbsent b = c at absent src others ⊢
  have links := (ControlKept.endLinks c dcCrystal).trans (.refreshGuest _)
  refine ⟨?_, ?_, ?_⟩
  · exact (links.rd _ (stat (by decide) rfl)).trans ((others _ (by decide) (by decide)).trans ((parked.rd _ (stat (by decide) rfl)).trans ended))
  · exact (links.rd _ (stat (by decide) rfl)).trans absent
  · exact (links.rd _ (stat (by decide) rfl)).trans src

theorem controlKept_trainAll (a : Hw) : ControlKept a ((List.range 4).foldl startChannel (trainHubSeams a)) :=
  (ControlKept.trainHubSeams a).trans (.foldl (fun g n _ => .startChannel g n) _)

theorem surveyLocks_eq {h : Hw} (hp : inPhase h .pll = true) : surveyLocks h =
    onRst ((List.range 4).foldl startChannel (trainHubSeams ((h.wr K.CLK_STAT_SLOCK 1).wr K.CLK_GRIDTIME_TIME 0)))
      fun r => { r with phase := .fill } := if_neg (by simp [hp])

theorem onRst_leaves (b : Hw) (f : RstSt → RstSt) (k : Key) : (onRst b f).rst = f b.rst ∧ (onRst b f).rd k = b.rd k := ⟨rfl, rfl⟩

theorem surveyLocks_leaves {h : Hw} (hp : inPhase h .pll = true) : (surveyLocks h).rd K.CLK_STAT_SLOCK = 1 ∧
    (surveyLocks h).now = 0 ∧ (surveyLocks h).rst.phase = .fill := by
  rw [surveyLocks_eq hp, Hw.now, (onRst_leaves _ _ K.CLK_STAT_SLOCK).1, (onRst_leaves _ _ K.CLK_STAT_SLOCK).2, (onRst_leaves _ _ K.CLK_GRIDTIME_TIME).2,
    (controlKept_trainAll _).rd _ ⟨by decide, by decide⟩, (controlKept_trainAll _).rd _ ⟨by decide, by decide⟩,
    Hw.rd_wr_ne _ (by decide), Hw.rd_wr_self, Hw.rd_wr_self]
  exact ⟨rfl, rfl, rfl⟩

/-! ### Fuses and options -/

/-- Nothing but registers from the option shadow upward was written. -/
structure BelowOptions (h t : Hw) : Prop where
  rst : t.rst = h.rst
  rd : ∀ k : Key, k.lo < 64 → k.addr < 0x100100 → t.rd k = h.rd k

namespace BelowOptions
variable {h t u : Hw}

theorem refl (h : Hw) : BelowOptions h h := ⟨rfl, fun _ _ _ => rfl⟩
theorem trans (a : BelowOptions h t) (b : BelowOptions t u) : BelowOptions h u :=
  ⟨b.rst.trans a.rst, fun k hl ha => (b.rd k hl ha).trans (a.rd k hl ha)⟩
theorem wr (h : Hw) {j : Key} (hj : 0x100100 ≤ j.addr) (v : Nat) : BelowOptions h (h.wr j v) :=
  ⟨rfl, fun k hl ha => Hw.rd_wr_ne h (by simp only [Key.id]; omega) v⟩
theorem wrBoth (h : Hw) {j : Key} (hj : 0x100100 ≤ j.addr) (v : Nat) : BelowOptions h (h.wrBoth j v) :=
  ⟨rfl, (wr h hj v).rd⟩
theorem foldl {α : Type} {f : Hw → α → Hw} {l : List α} (hf : ∀ h, ∀ x ∈ l, BelowOptions h (f h x)) (h : Hw) :
    BelowOptions h (l.foldl f h) :=
  List.foldlRecOn (motive := BelowOptions h) l f (refl h) fun t ht x hx => ht.trans (hf t x hx)

theorem optionWarm (h : Hw) : BelowOptions h (optionWarm h) :=
  (((wrBoth h (j := K.PCIE_CTL_MAXGEN) (by decide) _).trans (wr _ (j := K.RST_CANARY_CTL_PERIOD) (by decide) _)).trans
    (wr _ (j := K.RST_CANARY_STAT_REMAIN) (by decide) _)).trans (wr _ (j := K.RST_CANARY_CTL_FREEZE) (by decide) _)

theorem optionChannel (h : Hw) (n : Nat) : BelowOptions h (optionChannel h n) := by
  have a {k : Key} (hk : 0x1200000 ≤ k.addr) : 0x100100 ≤ k.addr := by omega
  unfold Machine.optionChannel
  refine ((wrBoth h (a ?_) _).trans (wrBoth _ (a ?_) _)).trans (((wrBoth _ (a ?_) _).trans (wrBoth _ (a ?_) _)).trans
    ((((wrBoth _ (a ?_) _).trans (wrBoth _ (a ?_) _)).trans (wrBoth _ (a ?_) _)).trans
    ((((wrBoth _ (a ?_) _).trans (wrBoth _ (a ?_) _)).trans (wrBoth _ (a ?_) _)).trans
    (((wrBoth _ (a ?_) _).trans (wrBoth _ (a ?_) _)).trans ((wrBoth _ (a ?_) _).trans (wrBoth _ (a ?_) _))))))
  all_goals
    simp only [K.DDR_C_CTL_EN, K.DDR_C_GEOM_X8, K.DDR_C_GEOM_ROWBITS, K.DDR_C_GEOM_COLBITS, K.DDR_C_GEOM_RANKBITS, K.DDR_C_GEOM_BABITS,
      K.DDR_C_GEOM_BGBITS, K.DDR_C_TIM0_TRCD, K.DDR_C_TIM0_TRP, K.DDR_C_TIM0_TRAS, K.DDR_C_TIM0_TRC, K.DDR_C_TIM1_TRFC,
      K.DDR_C_TIM1_TRFCSB, K.DDR_C_TIM1_TREFI]
    omega

end BelowOptions

/-- What the option shadow leaves: the copy in use, no failed load, and the rest of the controller as it was. -/
structure OptionsIn (h t : Hw) (n : Nat) (log : List (Nat × Nat × Nat)) : Prop where
  rst : t.rst = { h.rst with phase := .crystal, toLog := log }
  counting : t.clk.counting = true
  copy : t.rd K.RST_OPTSTAT_COPY = n % 4
  defaults : t.rd K.RST_OPTSTAT_DEFAULTS = b2n (n == 0)
  fails : t.rd K.RST_OPTSTAT_FAILS = 0
  badA : t.rd K.RST_OPTSTAT_BADA = h.rd K.RST_OPTSTAT_BADA
  badB : t.rd K.RST_OPTSTAT_BADB = h.rd K.RST_OPTSTAT_BADB
  early : ∀ k : Key, k.lo < 64 → k.addr < 0x100010 → t.rd k = h.rd k

/-- The option status of a load. -/
def optionStatus (v : NonVol) (h : Hw) (copy image : Nat) : Hw :=
  let h := (h.wr K.RST_OPTSTAT_COPY copy).wrB K.RST_OPTSTAT_DEFAULTS (copy == 0)
  let h := (h.wr K.RST_OPTSTAT_SEQ (if copy = 0 then 0 else image / 256 ^ 0xF8)).wr K.RST_OPTSTAT_FAILS 0
  let h := (h.wrB K.RST_OPTSTAT_ROA (decide (10000 ≤ v.optA.writes))).wrB K.RST_OPTSTAT_ROB (decide (10000 ≤ v.optB.writes))
  (h.wr K.RST_OPTWEAR_WRCNTA v.optA.writes).wr K.RST_OPTWEAR_WRCNTB v.optB.writes

theorem rd_optionStatus_other {v : NonVol} {copy image : Nat} {k : Key} (hl : k.lo < 64)
    (hk : k.addr < 0x100010 ∨ k = K.RST_OPTSTAT_BADA ∨ k = K.RST_OPTSTAT_BADB) (h : Hw) :
    (optionStatus v h copy image).rd k = h.rd k := by
  unfold optionStatus Hw.wrB
  dsimp only
  refine (Hw.rd_wr_ne _ ?_ _).trans ((Hw.rd_wr_ne _ ?_ _).trans ((Hw.rd_wr_ne _ ?_ _).trans ((Hw.rd_wr_ne _ ?_ _).trans
    ((Hw.rd_wr_ne _ ?_ _).trans ((Hw.rd_wr_ne _ ?_ _).trans ((Hw.rd_wr_ne _ ?_ _).trans (Hw.rd_wr_ne h ?_ _)))))))
  all_goals
    obtain ha | rfl | rfl := hk
    · simp only [Key.id, K.RST_OPTSTAT_COPY, K.RST_OPTSTAT_DEFAULTS, K.RST_OPTSTAT_SEQ, K.RST_OPTSTAT_FAILS, K.RST_OPTSTAT_ROA,
        K.RST_OPTSTAT_ROB, K.RST_OPTWEAR_WRCNTA, K.RST_OPTWEAR_WRCNTB]
      omega
    · decide
    · decide

theorem rd_optionStatus (v : NonVol) (h : Hw) (copy image : Nat) :
    (optionStatus v h copy image).rd K.RST_OPTSTAT_COPY = copy % 4 ∧
    (optionStatus v h copy image).rd K.RST_OPTSTAT_DEFAULTS = b2n (copy == 0) ∧
    (optionStatus v h copy image).rd K.RST_OPTSTAT_FAILS = 0 := by
  unfold optionStatus Hw.wrB
  dsimp only
  refine ⟨?_, ?_, ?_⟩
  · rw [Hw.rd_wr_ne _ (by decide), Hw.rd_wr_ne _ (by decide), Hw.rd_wr_ne _ (by decide), Hw.rd_wr_ne _ (by decide),
      Hw.rd_wr_ne _ (by decide), Hw.rd_wr_ne _ (by decide), Hw.rd_wr_ne _ (by decide)]
    exact Hw.rd_wr_self ..
  · rw [Hw.rd_wr_ne _ (by decide), Hw.rd_wr_ne _ (by decide), Hw.rd_wr_ne _ (by decide), Hw.rd_wr_ne _ (by decide),
      Hw.rd_wr_ne _ (by decide), Hw.rd_wr_ne _ (by decide)]
    refine (Hw.rd_wr_self ..).trans ?_
    cases copy == 0 <;> rfl
  · rw [Hw.rd_wr_ne _ (by decide), Hw.rd_wr_ne _ (by decide), Hw.rd_wr_ne _ (by decide), Hw.rd_wr_ne _ (by decide)]
    exact Hw.rd_wr_self ..

theorem optionsApply_in (v : NonVol) (h : Hw) (copy image : Nat) (log : List (Nat × Nat × Nat)) :
    OptionsIn h (optionsApply v h copy image log) copy log := by
  have bytes : BelowOptions h ((List.range 32).foldl (fun h w => h.wr (K.RST_OPT_BYTES w) (image / 2 ^ (64 * w))) h) :=
    .foldl (fun g w _ => .wr g (by simp only [K.RST_OPT_BYTES]; omega) _) h
  unfold optionsApply
  generalize (List.range 32).foldl (fun h w => h.wr (K.RST_OPT_BYTES w) (image / 2 ^ (64 * w))) h = a at bytes ⊢
  dsimp only
  rw [← optionStatus]
  have stRst : (optionStatus v a copy image).rst = a.rst := rfl
  obtain ⟨copyIs, defaults, fails⟩ := rd_optionStatus v a copy image
  have others {k : Key} (hl : k.lo < 64) (hk : k.addr < 0x100010 ∨ k = K.RST_OPTSTAT_BADA ∨ k = K.RST_OPTSTAT_BADB) :=
    rd_optionStatus_other (v := v) (copy := copy) (image := image) hl hk a
  generalize optionStatus v a copy image = b at stRst copyIs defaults fails others ⊢
  have rest := ((BelowOptions.wr b (j := K.DDR_MAP_CHANS) (by decide) (imageByte image 0x16)).trans (.optionWarm _)).trans
    (.foldl (fun g n _ => .optionChannel g n) _ :
      BelowOptions _ ((List.range 4).foldl optionChannel (optionWarm (b.wr K.DDR_MAP_CHANS (imageByte image 0x16)))))
  generalize (List.range 4).foldl optionChannel (optionWarm (b.wr K.DDR_MAP_CHANS (imageByte image 0x16))) = c at rest ⊢
  refine ⟨?_, rfl, (rest.rd _ (by decide) (by decide)).trans copyIs, (rest.rd _ (by decide) (by decide)).trans defaults,
    (rest.rd _ (by decide) (by decide)).trans fails, ?_, ?_, fun k hl ha => ?_⟩
  · have e := rest.rst.trans (stRst.trans bytes.rst)
    simp only [onRst, e]
  · exact (rest.rd _ (by decide) (by decide)).trans ((others (by decide) (.inr (.inl rfl))).trans (bytes.rd _ (by decide) (by decide)))
  · exact (rest.rd _ (by decide) (by decide)).trans ((others (by decide) (.inr (.inr rfl))).trans (bytes.rd _ (by decide) (by decide)))
  · exact (rest.rd k hl (Nat.lt_trans ha (by decide))).trans ((others hl (.inl ha)).trans (bytes.rd k hl (Nat.lt_trans ha (by decide))))

theorem fusesApply_leaves (v : NonVol) (h : Hw) : (fusesApply v h).rst = { h.rst with sensed := true, fuses := v.fuses } ∧
    (fusesApply v h).rd K.ID_SERIAL_SERIAL = SMap.get v.fuses 0 0 % 2 ^ K.ID_SERIAL_SERIAL.w ∧
    (fusesApply v h).rd K.RST_OPTSTAT_FAILS = h.rd K.RST_OPTSTAT_FAILS := by
  have step (g : Hw) : ((g.wr K.ID_SERIAL_SERIAL (fuseWord g 0)).wr K.ID_CAP_GUEST (fuseWord (g.wr K.ID_SERIAL_SERIAL (fuseWord g 0)) 1)).wr
      K.ID_CAP_SPEED (fuseWord (g.wr K.ID_SERIAL_SERIAL (fuseWord g 0)) 1 / 2) =
      ((g.wr K.ID_SERIAL_SERIAL (fuseWord g 0)).wr K.ID_CAP_GUEST (fuseWord g 1)).wr K.ID_CAP_SPEED (fuseWord g 1 / 2) := rfl
  unfold fusesApply
  dsimp only
  have rst : (onRst h fun r => { r with sensed := true, fuses := v.fuses }).rst = { h.rst with sensed := true, fuses := v.fuses } := rfl
  have fails : (onRst h fun r => { r with sensed := true, fuses := v.fuses }).rd K.RST_OPTSTAT_FAILS = h.rd K.RST_OPTSTAT_FAILS := rfl
  have word : fuseWord (onRst h fun r => { r with sensed := true, fuses := v.fuses }) 0 = SMap.get v.fuses 0 0 := rfl
  generalize (onRst h fun r => { r with sensed := true, fuses := v.fuses }) = a at rst fails word ⊢
  rw [step]
  generalize fuseWord a 0 = x at word ⊢
  generalize fuseWord a 1 = y
  have serial : (((a.wr K.ID_SERIAL_SERIAL x).wr K.ID_CAP_GUEST y).wr K.ID_CAP_SPEED (y / 2)).rd K.ID_SERIAL_SERIAL =
      x % 2 ^ K.ID_SERIAL_SERIAL.w :=
    (Hw.rd_wr_ne _ (by decide) _).trans ((Hw.rd_wr_ne _ (by decide) _).trans (Hw.rd_wr_self ..))
  have failed : (((a.wr K.ID_SERIAL_SERIAL x).wr K.ID_CAP_GUEST y).wr K.ID_CAP_SPEED (y / 2)).rd K.RST_OPTSTAT_FAILS =
      a.rd K.RST_OPTSTAT_FAILS :=
    (Hw.rd_wr_ne _ (by decide) _).trans ((Hw.rd_wr_ne _ (by decide) _).trans (Hw.rd_wr_ne _ (by decide) _))
  have kept : (((a.wr K.ID_SERIAL_SERIAL x).wr K.ID_CAP_GUEST y).wr K.ID_CAP_SPEED (y / 2)).rst = a.rst := rfl
  generalize ((a.wr K.ID_SERIAL_SERIAL x).wr K.ID_CAP_GUEST y).wr K.ID_CAP_SPEED (y / 2) = b at serial failed kept ⊢
  have map : BelowOptions b ((List.range 3).foldl (fun h w => h.wr (K.RST_PINMAP_CODES w) (pinCodes v / 2 ^ (64 * w))) b) :=
    .foldl (fun g w _ => .wr g (by simp only [K.RST_PINMAP_CODES]; omega) _) b
  exact ⟨map.rst.trans (kept.trans rst), (map.rd _ (by decide) (by decide)).trans (serial.trans (by rw [word])),
    (map.rd _ (by decide) (by decide)).trans (failed.trans fails)⟩

/-! ### The start of the foreman -/

/-- The foreman fetches, from the boot ROM. -/
def AtBoot (x : CoreSt) : Prop := x.fetching = true ∧ x.pc = bootAddr

/-- A write of another master reaches a core's locked sequence and its wait alone. -/
theorem touch_eq (x : CoreSt) (a n : Nat) : x.touch a n = { x with lock := (x.touch a n).lock, dev := (x.touch a n).dev } := by
  unfold CoreSt.touch
  extract_lets y
  have locked : y = { x with lock := y.lock } := by
    simp only [y]
    split
    · split <;> rfl
    · rfl
  clear_value y
  rw [locked]
  split
  · split <;> rfl
  · rfl

theorem steady_atBoot : Steady AtBoot 0 := ⟨fun x a n hx => by rw [touch_eq]; exact hx, .inl rfl⟩

/-- The device runs and its foreman stands at the boot ROM. -/
structure Booted (h : Hw) : Prop where
  phase : h.rst.phase = .running
  core : CoreIs AtBoot 0 h

namespace Booted
variable {h t : Hw}

theorem of_eq (b : Booted h) (hr : t.rst = h.rst) (hc : t.cores = h.cores) : Booted t := ⟨hr ▸ b.phase, b.core.congr hc⟩
theorem wr (b : Booted h) (k : Key) (v : Nat) : Booted (h.wr k v) := b.of_eq rfl rfl
theorem foldl {α : Type} {f : Hw → α → Hw} {l : List α} (hf : ∀ h x, Booted h → Booted (f h x)) (b : Booted h) : Booted (l.foldl f h) :=
  List.foldlRecOn (motive := Booted) l f b fun t ht x _ => hf t x ht

theorem putLoadErr (b : Booted h) (code primary detail seg faddr : Nat) : Booted (putLoadErr h code primary detail seg faddr) :=
  ((((b.wr _ _).wr _ _).wr _ _).wr _ _).wr _ _

theorem onGuest (b : Booted h) (f : Guest → Guest) : Booted (onGuest h f) := b.of_eq rfl rfl

theorem guestEvent (b : Booted h) (code arg : Nat) : Booted (guestEvent h code arg) :=
  ⟨by rw [(ControlKept.guestEvent h code arg).rst]; exact b.phase, b.core.postEvent steady_atBoot ..⟩

theorem refreshGuest (b : Booted h) : Booted (refreshGuest h) := by
  unfold Machine.refreshGuest
  extract_lets up u v
  have run : Booted v := by
    refine onGuest ?_ _
    simp only [u]
    split
    · exact b.wr _ _
    · exact b
  split
  · exact run
  · unfold guestLinkFalls
    split
    · exact run
    · exact ((((run.wr _ _).wr _ _).wr _ _).wr _ _).onGuest _ |>.guestEvent _ _

theorem startLinks (b : Booted h) : Booted (startLinks h) := by
  refine b.foldl fun g l hg => ?_
  unfold startLink
  split
  · exact (hg.wr _ _).foldl fun g k hg => hg.wr _ _
  · exact hg

theorem startBoot (b : Booted h) (a : Nat) (g : Bool) : Booted (startLoad h { src := .boot a g }) := by
  have writers : Booted (openWriters h) := b.foldl fun u n hu => by
    split
    · exact hu
    · exact ((hu.of_eq (t := u.setQueue (252 + n) {}) rfl rfl).wr _ _ |>.wr _ _).wr _ _
  refine (((Booted.wr ?_ _ _).wr _ _).wr _ _).wr _ _
  exact writers.of_eq rfl rfl

end Booted

theorem unparkChannels_rst (h : Hw) : ((List.range 4).foldl unparkChannel h).rst = h.rst :=
  (ControlKept.foldl (fun g n _ => .unparkChannel g n) h : ControlKept h ((List.range 4).foldl unparkChannel h)).rst

theorem rd_unparkChannels (h : Hw) : ((List.range 4).foldl unparkChannel h).rd K.ADIT_BOOTHALT_EN = h.rd K.ADIT_BOOTHALT_EN :=
  foldl_keeps (fun t => t.rd K.ADIT_BOOTHALT_EN) (fun g n _ => by
    have off (v : Nat) : (g.wr (K.DDR_C_STAT_STATE n) v).rd K.ADIT_BOOTHALT_EN = g.rd K.ADIT_BOOTHALT_EN :=
      Hw.rd_wr_ne g (by simp only [Key.id, K.ADIT_BOOTHALT_EN, K.DDR_C_STAT_STATE]; omega) v
    simp only [unparkChannel, startChannel, apply_ite (fun t : Hw => t.rd K.ADIT_BOOTHALT_EN), off, ite_self]) h

/-- Without a halt at boot and entries to log the foreman starts at the boot ROM. -/
theorem foremanStarts_booted {h : Hw} (hb : h.bit K.ADIT_BOOTHALT_EN = false) (hl : h.rst.toLog = []) : Booted (foremanStarts h) := by
  unfold foremanStarts
  extract_lets log aborted warm run channels core canary halted logged failed linked
  have phase : channels.rst.phase = .running := by
    simp only [channels]
    split
    · rw [unparkChannels_rst]
      rfl
    · rfl
  have placed : Booted core := ⟨phase, .set ⟨rfl, rfl⟩⟩
  have started : Booted canary := placed.wr _ _
  have asked : canary.bit K.ADIT_BOOTHALT_EN = h.bit K.ADIT_BOOTHALT_EN := by
    have unparked : channels.rd K.ADIT_BOOTHALT_EN = h.rd K.ADIT_BOOTHALT_EN := by
      simp only [channels]
      split
      · exact rd_unparkChannels run
      · rfl
    have reload : canary.rd K.ADIT_BOOTHALT_EN = channels.rd K.ADIT_BOOTHALT_EN := Hw.rd_wr_ne core (by decide) _
    rw [Hw.bit, Hw.bit, reload, unparked]
  have go : halted = canary := if_neg (by rw [asked, hb]; decide)
  have still : logged = canary := by
    have empty : log = [] := hl
    simp only [logged, empty, go]
    rfl
  have booted : Booted failed := by
    simp only [failed, still]
    split
    · exact started.putLoadErr ..
    · exact started
  have ready : Booted linked := booted.refreshGuest.startLinks
  split
  · exact ready.startBoot ..
  · exact ready

theorem qualWindow_leaves {h : Hw} (hc : h.clk.counting = true) (hs : h.clk.stable = false) (n : Nat) :
    (windowPasses h (min n 0x7FF) = false →
      (qualWindow h n).rd K.CLK_XQUAL_RUN = 0 ∧ (qualWindow h n).rd K.CLK_XQUAL_LASTCNT = min n 0x7FF) ∧
    (windowPasses h (min n 0x7FF) = true → h.rd K.CLK_XQUAL_RUN < 7 →
      (qualWindow h n).rd K.CLK_XQUAL_RUN = h.rd K.CLK_XQUAL_RUN + 1 ∧ (qualWindow h n).clk.stable = false) ∧
    (windowPasses h (min n 0x7FF) = true → h.rd K.CLK_XQUAL_RUN = 7 → h.rst.phase = .crystal →
      (qualWindow h n).clk.stable = true ∧ (qualWindow h n).rst.phase = .pll ∧ (qualWindow h n).rd K.CLK_STAT_SRC = 1 ∧
        (qualWindow h n).rd K.CLK_XQUAL_RUN = 8) := by
  have counted := windowCounted_reads h (c := min n 0x7FF) (Nat.min_le_right ..)
  refine ⟨fun hf => ?_, fun ht h7 => ?_, fun ht h7 hp => ?_⟩
  · rw [qualWindow_eq hc hs, hf, if_neg Bool.false_ne_true]
    exact ⟨Hw.rd_wr_self .., (Hw.rd_wr_ne _ (by decide) 0).trans counted.1⟩
  · rw [qualWindow_eq hc hs, ht, if_pos rfl, if_neg (by omega)]
    exact ⟨run_runGrown (by omega) _, (runGrown_keeps _ _).1.trans hs⟩
  · rw [qualWindow_eq hc hs, ht, if_pos rfl, if_pos h7]
    obtain ⟨stable, phase, src, run⟩ := runComplete_leaves (h := runGrown (windowCounted h (min n 0x7FF)) (min n 0x7FF) 7)
      (by rw [(runGrown_keeps _ _).2]; exact hp)
    exact ⟨stable, phase, src, run.trans (run_runGrown (by decide) _)⟩

/-- The option load starts after the fuses, or is skipped after eight that were cut short. -/
theorem optionStart_leaves (v : NonVol) {h a : Hw} (rst : a.rst = { h.rst with sensed := true, fuses := v.fuses })
    (fails : a.rd K.RST_OPTSTAT_FAILS = h.rd K.RST_OPTSTAT_FAILS) :
    (optionStart v a).rst.sensed = true ∧ (optionStart v a).rst.fuses = v.fuses ∧
    (optionStart v a).rd K.ID_SERIAL_SERIAL = a.rd K.ID_SERIAL_SERIAL ∧
    (h.rd K.RST_OPTSTAT_FAILS < 8 → (optionStart v a).rst.phase = .options ∧
      (optionStart v a).rd K.RST_OPTSTAT_FAILS = h.rd K.RST_OPTSTAT_FAILS + 1) ∧
    (h.rd K.RST_OPTSTAT_FAILS = 8 → (optionStart v a).rst.phase = .crystal ∧ (optionStart v a).rd K.RST_OPTSTAT_DEFAULTS = 1 ∧
      (optionStart v a).rd K.RST_CAUSE_OPT = 1) := by
  by_cases h8 : h.rd K.RST_OPTSTAT_FAILS = 8
  · have skip : optionStart v a = optionsApply v (a.wr K.RST_CAUSE_OPT 1) 0 safeImage [] := if_pos (fails.trans h8)
    have opt := optionsApply_in v (a.wr K.RST_CAUSE_OPT 1) 0 safeImage []
    have kept : (a.wr K.RST_CAUSE_OPT 1).rst = a.rst := rfl
    rw [skip]
    generalize optionsApply v (a.wr K.RST_CAUSE_OPT 1) 0 safeImage [] = t at opt ⊢
    refine ⟨by rw [opt.rst, kept, rst], by rw [opt.rst, kept, rst],
      (opt.early _ (by decide) (by decide)).trans (Hw.rd_wr_ne _ (by decide) 1), fun hf => absurd hf (by omega),
      fun _ => ⟨by rw [opt.rst], opt.defaults, (opt.early _ (by decide) (by decide)).trans (Hw.rd_wr_self ..)⟩⟩
  · have load : optionStart v a = onRst (a.cnt K.RST_OPTSTAT_FAILS) fun r => { r with phase := .options } :=
      if_neg (by rw [fails]; exact h8)
    have kept : (a.cnt K.RST_OPTSTAT_FAILS).rst = a.rst := rfl
    rw [load, (onRst_leaves _ _ K.ID_SERIAL_SERIAL).1, (onRst_leaves _ _ K.ID_SERIAL_SERIAL).2,
      (onRst_leaves _ _ K.RST_OPTSTAT_FAILS).2, kept, rst]
    refine ⟨rfl, rfl, Hw.rd_wr_ne _ (by decide) _, fun hf => ⟨rfl, ?_⟩, fun hf => absurd hf h8⟩
    refine (Hw.rd_wr_self ..).trans ?_
    rw [fails]
    simp only [satAdd, K.RST_OPTSTAT_FAILS] at hf ⊢
    omega

theorem chosenCopy_lt (v : NonVol) : chosenCopy v < 4 := by
  unfold chosenCopy
  repeat' split
  all_goals decide

/-- The option load applies the copy it chose. -/
theorem optionLoaded_in (v : NonVol) (h : Hw) : ∃ log, OptionsIn ((h.wrB K.RST_OPTSTAT_BADA (!copyValid v.optA)).wrB
    K.RST_OPTSTAT_BADB (!copyValid v.optB)) (optionLoaded v h) (chosenCopy v) log := by
  unfold optionLoaded
  split
  next hc =>
    rw [hc]
    exact ⟨_, optionsApply_in ..⟩
  next => exact ⟨_, optionsApply_in ..⟩

theorem rd_wrB_self {h : Hw} {k : Key} (hw : k.w = 1) (b : Bool) : (h.wrB k b).rd k = b2n b := by
  refine (Hw.rd_wr_self ..).trans ?_
  rw [hw]
  cases b <;> rfl

/-- Settles O49: each stage of the cold sequence leaves what the next one finds. -/
theorem startSequence : Obligations.StartSequence := by
  unfold Obligations.StartSequence
  refine ⟨fun s n hc hs => ?_, fun s hp => ?_, fun s hh => ?_, fun s hp => ?_, fun s hp => ?_, fun s hp => ?_, fun s hp hw => ?_,
    fun s hm hb hl => ?_⟩
  · obtain ⟨fails, grows, complete⟩ := qualWindow_leaves hc hs n
    exact ⟨fun hf => ⟨_, rfl, fails hf⟩, fun ht h7 => ⟨_, rfl, grows ht h7⟩, fun ht h7 hp => ⟨_, rfl, complete ht h7 hp⟩⟩
  · refine ⟨_, rfl, ?_⟩
    simp only [State.onHw]
    rw [if_pos hp]
    obtain ⟨absent, src, -⟩ := crystalAbsent_leaves s.hw
    exact ⟨absent, src, rfl⟩
  · exact ⟨_, rfl, holdoverEnds_leaves hh⟩
  · exact ⟨_, rfl, surveyLocks_leaves hp⟩
  · refine ⟨_, rfl, ?_⟩
    simp only [State.onHw]
    rw [if_pos hp]
    obtain ⟨rst, serial, fails⟩ := fusesApply_leaves s.nv s.hw
    have start := optionStart_leaves s.nv rst fails
    rwa [serial] at start
  · refine ⟨_, rfl, ?_⟩
    simp only [State.onHw]
    rw [if_pos hp]
    obtain ⟨log, opt⟩ := optionLoaded_in s.nv s.hw
    exact ⟨by rw [opt.rst], opt.counting, opt.copy.trans (Nat.mod_eq_of_lt (chosenCopy_lt _)), opt.fails,
      opt.badA.trans ((Hw.rd_wr_ne _ (by decide) _).trans (rd_wrB_self rfl _)), opt.badB.trans (rd_wrB_self rfl _)⟩
  · refine ⟨_, rfl, ?_⟩
    simp only [State.onHw]
    rw [if_pos (by simp [hp, hw])]
    refine ⟨fun _ => rfl, ?_, rfl⟩
    exact Hw.rd_wr_self _ K.ERR_FILL_DONE 1
  · refine ⟨_, rfl, ?_⟩
    simp only [State.onHw]
    rw [if_pos hm]
    obtain ⟨phase, core, -⟩ := foremanStarts_booted hb hl
    exact ⟨phase, core.1, core.2⟩

end Sys2Proof.Machine
end

section
/-!
PROOF. Function resets and the supplies of the lanes, temperature samples, and the supplies of the banks (R330, R344, R450,
R460 to R464, R506, R510).
-/
namespace Sys2Proof.Machine
open Sys2Proof

/-! ### Disabled queues and function resets -/

namespace ControlKept
variable {h t u : Hw}

theorem of_sched (h : Hw) (x : Sched) : ControlKept h { h with sched := x } := of_eq rfl rfl rfl
theorem onDie (h : Hw) (n : Nat) (f : DieSt → DieSt) : ControlKept h (h.onDie n f) := of_eq rfl rfl rfl
theorem onFunc (h : Hw) (f : Nat) (g : FuncSt → FuncSt) : ControlKept h (onFunc h f g) := of_eq rfl rfl rfl
theorem of_pcie (h : Hw) (x : Pcie) : ControlKept h { h with pcie := x } := of_eq rfl rfl rfl
theorem addSat (h : Hw) {j : Key} (hj : 0x400000 ≤ j.addr) (n : Nat) : ControlKept h (h.addSat j n) := wr h hj _

theorem dropTicket (h : Hw) (t : Option Nat) : ControlKept h (dropTicket h t) := by
  cases t with
  | none => exact refl h
  | some t => exact of_sched h _

theorem discardAll (h : Hw) (q : Nat) : ControlKept h (discardAll h q) :=
  (((foldl (fun g e _ => dropTicket g e.ticket) h).trans (of_eq rfl rfl rfl)).trans (of_sched _ _)).trans
    (addSat _ (by simp only [K.SCHED_Q_STAT_DISCARD]; omega) _)

theorem dropHeldBells (h : Hw) (q : Nat) : ControlKept h (dropHeldBells h q) := by
  have done (l : List GReq) (g : Hw) : ControlKept g (l.foldl Machine.donePosted g) := foldl (fun g r _ => donePosted g r) g
  unfold Machine.dropHeldBells
  extract_lets bell gone src a
  have first : ControlKept h a := (of_sched h _).trans (done gone _)
  refine first.trans (foldl (fun g n _ => foldl (fun g p _ => ?_) g) a)
  dsimp only
  split
  · exact refl g
  · exact ((onDie g n _).trans (wr _ (by simp only [K.FPORT_STAT_OUTB]; omega) _)).trans (done _ _)

theorem disableQueue (h : Hw) (q : Nat) : ControlKept h (disableQueue h q) := by
  unfold Machine.disableQueue
  split
  · exact refl h
  · extract_lets a src b c
    have cores : ControlKept b c := foldl (fun g x _ => by
      split
      · split
        · exact of_eq rfl rfl rfl
        · exact refl g
      · exact refl g) b
    exact (((discardAll h q).trans (of_kept (kept_setQueue ..))).trans cores).trans
      (((dropHeldBells c q).trans (wr _ (by simp only [K.SCHED_Q_CFG_EN]; omega) 0)).trans (of_kept (kept_dispatch _)))

theorem resetFunc (h : Hw) (f : Nat) : ControlKept h (resetFunc h f) := by
  unfold Machine.resetFunc
  extract_lets a src b qs owned c d gone old e g ofF isWrite n
  have bar : ControlKept a b := by
    simp only [b]
    split
    · exact of_pcie a _
    · exact refl a
  have queues : ControlKept b c := foldl (fun g q _ => disableQueue g q) b
  have rings : ControlKept c d := foldl (fun g q _ =>
    (((wr g (by simp only [K.PCIE_HRING_HEAD]; omega) 0).trans (wr _ (by simp only [K.PCIE_HRING_TAIL]; omega) 0)).trans
      (wr _ (by simp only [K.PCIE_HRING_IEN]; omega) 0)).trans (wr _ (by simp only [K.PCIE_HRING_VEC]; omega) 0)) c
  have answers : ControlKept e g := foldl (fun g r _ => by
    split
    · exact answer ..
    · exact refl g) e
  exact (((onFunc h f _).trans (bar.trans queues)).trans (rings.trans (of_pcie d _))).trans
    (answers.trans ((of_pcie g _).trans (addSat _ (by decide) n)))

theorem flr (h : Hw) (f : Nat) : ControlKept h (flr h f) := by
  unfold Machine.flr
  split
  · split
    · exact resetFunc h f
    · exact refl h
  · exact (foldl (fun g n _ => resetFunc g n) h).trans (wr _ (j := K.PCIE_STAT_NUMVF) (by decide) 0)

theorem linkFalls (h : Hw) : ControlKept h (linkFalls h) :=
  (((wr h (j := K.PCIE_STAT_UP) (by decide) 0).trans (wr _ (j := K.PCIE_STAT_GEN) (by decide) 0)).trans
    (wr _ (j := K.PCIE_STAT_WIDTH) (by decide) 0)).trans (wr _ (j := K.PCIE_STAT_FLIT) (by decide) 0)

end ControlKept

theorem pwr_requestReset (h : Hw) (cold : Bool) (cause : Key) : (requestReset h cold cause).pwr = h.pwr := by
  unfold requestReset
  dsimp only
  split <;> rfl

theorem pwr_hotReset (h : Hw) : (hotReset h).pwr = h.pwr := by
  have tail (g : Hw) : (if g.bit K.PCIE_CTL_HOTREACH then flr { g with pcie := { g.pcie with ready := false } } 0
      else requestReset g false K.RST_CAUSE_HOT).pwr = g.pwr := by
    split
    · exact ((ControlKept.of_pcie g _).trans (.flr _ 0)).pwr
    · exact pwr_requestReset ..
  exact (tail (linkFalls h)).trans (ControlKept.linkFalls h).pwr

theorem pwr_laneSupply (h : Hw) (good : Bool) : (laneSupply h good).pwr.lanesGood = good := by
  unfold laneSupply
  extract_lets a b
  have set : a.pwr.lanesGood = good := rfl
  clear_value a
  split
  · rw [(ControlKept.startLinks a).pwr, set]
  · have links : b.pwr = a.pwr := (ControlKept.endLinks a dcLol).pwr
    split
    · rw [pwr_hotReset, links, set]
    · rw [links, set]

/-! ### Readings -/

/-- A register that a reading of a sensor leaves alone: the thresholds, and the levels of the dies. -/
def LevelReg (k : Key) : Prop := k.lo < 64 ∧ (k.addr = 0x300000 ∨ (0x300100 ≤ k.addr ∧ k.addr < 0x400000 ∧ k.lo = 40))

theorem LevelReg.control {k : Key} (hk : LevelReg k) : ControlReg k := ⟨hk.1, by obtain ⟨-, h⟩ := hk; omega⟩

theorem rd_readSensor {h : Hw} {d i : Nat} {x : Int} {k : Key} (hk : LevelReg k) : (readSensor h d i x).rd k = h.rd k := by
  have off {j : Key} (hj : j.lo < 64) (ha : j.addr = 0x100000 ∨ j.addr = 0x300080 ∨ (0x300100 ≤ j.addr ∧ j.lo = 16)) : k.id ≠ j.id := by
    obtain ⟨hl, hk⟩ := hk
    simp only [Key.id]
    omega
  have trip : (thermalTrip h d i x).rd k = h.rd k := by
    unfold thermalTrip
    extract_lets a b src c
    have wrote : b.rd k = h.rd k := by
      rw [Hw.rd_wr_ne _ (off (j := K.PWR_TRIP_TEMP) (by decide) (by decide)), Hw.rd_wr_ne _ (off (j := K.PWR_TRIP_SENSOR) (by decide) (by decide)),
        Hw.rd_wr_ne _ (off (j := K.PWR_TRIP_DIE) (by decide) (by decide)), Hw.rd_wr_ne _ (off (j := K.PWR_TRIP_VALID) (by decide) (by decide))]
    have held : c.rd k = b.rd k := rfl
    clear_value c
    unfold requestReset
    dsimp only
    split
    · exact (Hw.rd_wr_ne c (off (j := K.RST_CAUSE_THERM) (by decide) (by decide)) 1).trans (held.trans wrote)
    · exact (Hw.rd_wr_ne c (off (j := K.RST_CAUSE_THERM) (by decide) (by decide)) 1).trans (held.trans wrote)
  unfold readSensor
  dsimp only
  split
  · rfl
  · split
    · exact ((kept_postEvent _ (by decide) ..).rd k hk.control.sched).trans (((kept_logEvent ..).rd k hk.control.sched).trans
        (Hw.rd_wr_ne (onPwr h _) (off (by show (16 : Nat) < 64; decide) (.inr (.inr ⟨by simp only [K.PWR_TEMP_FAILED]; omega, rfl⟩))) _))
    · split
      · split
        · exact trip
        · rfl
      · rfl

/-- A second reading in a row at the trip point asks for a reset. -/
theorem thermalTrip_leaves (h : Hw) (d i : Nat) (x : Int) : (thermalTrip h d i x).rst.thermHold = true ∧
    (thermalTrip h d i x).rd K.RST_CAUSE_THERM = 1 ∧ (thermalTrip h d i x).rd K.PWR_TRIP_VALID = 1 := by
  unfold thermalTrip
  extract_lets a b src c
  have valid : c.rd K.PWR_TRIP_VALID = 1 := by
    have e : c.rd K.PWR_TRIP_VALID = b.rd K.PWR_TRIP_VALID := rfl
    rw [e, Hw.rd_wr_ne _ (by decide), Hw.rd_wr_ne _ (by decide), Hw.rd_wr_ne _ (by decide)]
    exact Hw.rd_wr_self ..
  have hold : c.rst.thermHold = true := rfl
  clear_value c
  have asked : (c.wr K.RST_CAUSE_THERM 1).rd K.RST_CAUSE_THERM = 1 := Hw.rd_wr_self ..
  have kept : (c.wr K.RST_CAUSE_THERM 1).rd K.PWR_TRIP_VALID = 1 := (Hw.rd_wr_ne _ (by decide) 1).trans valid
  unfold requestReset
  dsimp only
  split
  · exact ⟨hold, asked, kept⟩
  · exact ⟨hold, asked, kept⟩

/-! ### Levels -/

/-- The temperature and level registers hold what they held. -/
def TempsKept (h t : Hw) : Prop := ∀ k : Key, k.lo < 64 → 0x300100 ≤ k.addr → k.addr < 0x400000 → t.rd k = h.rd k

namespace TempsKept
variable {h t u : Hw}

theorem refl (h : Hw) : TempsKept h h := fun _ _ _ _ => rfl
theorem trans (a : TempsKept h t) (b : TempsKept t u) : TempsKept h u := fun k hl ha hb => (b k hl ha hb).trans (a k hl ha hb)
theorem of_kept (a : Kept h t) : TempsKept h t := fun k hl _ hb => a.rd k (ControlReg.sched ⟨hl, hb⟩)
theorem of_rejudged (a : Rejudged h t) : TempsKept h t := fun k hl _ hb => a.rd k (ControlReg.judged ⟨hl, hb⟩)
theorem onPwr (h : Hw) (f : Pwr → Pwr) : TempsKept h (onPwr h f) := fun _ _ _ _ => rfl
theorem thalt (h : Hw) (v : Nat) : TempsKept h (h.wr K.PWR_STAT_THALT v) := fun k hl ha _ => Hw.rd_wr_ne h (by
  simp only [Key.id, K.PWR_STAT_THALT]
  omega) v

theorem thermalHalt (h : Hw) (n : Nat) : TempsKept h (thermalHalt h n) := by
  unfold Machine.thermalHalt
  split
  · exact refl h
  · exact ((of_rejudged (.foldl (fun g x _ => .closeGate g _ (Nat.mod_lt x (by decide))) h)).trans (onPwr _ _)).trans (thalt _ _)

theorem thermalRelease (h : Hw) (n : Nat) : TempsKept h (thermalRelease h n) := by
  unfold Machine.thermalRelease
  extract_lets l a b
  have lowered : TempsKept h b := (onPwr h _).trans (thalt a _)
  refine lowered.trans ?_
  split
  · exact onPwr _ _
  · refine of_rejudged (.foldl (fun g x _ => ?_) _)
    have opened : Rejudged g (openGate g (x / 64) (x % 64)) := .openGate g _ (Nat.mod_lt x (by decide))
    dsimp only
    split
    · split
      · exact .refl g
      · exact opened
    · rw [if_neg Bool.false_ne_true]
      exact opened

end TempsKept

/-- A die takes its level and keeps its temperature. -/
theorem setLevel_leaves (h : Hw) {d : Nat} (hd : d < 9) (lvl : Nat) : (setLevel h d lvl).rd (K.PWR_TEMP_TEMP d) = h.rd (K.PWR_TEMP_TEMP d) ∧
    (setLevel h d lvl).rd (K.PWR_TEMP_LEVEL d) = lvl % 4 := by
  have temp : (h.wr (K.PWR_TEMP_LEVEL d) lvl).rd (K.PWR_TEMP_TEMP d) = h.rd (K.PWR_TEMP_TEMP d) :=
    Hw.rd_wr_ne h (by simp only [Key.id, K.PWR_TEMP_TEMP, K.PWR_TEMP_LEVEL]; omega) lvl
  have level : (h.wr (K.PWR_TEMP_LEVEL d) lvl).rd (K.PWR_TEMP_LEVEL d) = lvl % 4 := Hw.rd_wr_self ..
  have rest : TempsKept (h.wr (K.PWR_TEMP_LEVEL d) lvl) (setLevel h d lvl) := by
    unfold setLevel
    extract_lets old a b
    have posted : TempsKept a b := by
      simp only [b]
      split
      · exact .refl a
      · exact .of_kept (kept_postEvent a (by decide) ..)
    refine posted.trans ?_
    split
    · exact .refl b
    · split
      · exact .thermalHalt b d
      · split
        · exact .thermalRelease b d
        · exact .refl b
  have at_ : 0x300100 ≤ (K.PWR_TEMP_TEMP d).addr ∧ (K.PWR_TEMP_TEMP d).addr < 0x400000 := by simp only [K.PWR_TEMP_TEMP]; omega
  exact ⟨(rest _ (by show (0 : Nat) < 64; decide) at_.1 at_.2).trans temp,
    (rest (K.PWR_TEMP_LEVEL d) (by show (40 : Nat) < 64; decide) at_.1 at_.2).trans level⟩

theorem nextLevel_lt (h : Hw) (old : Nat) (t : Int) : nextLevel h old t < 4 := by
  unfold nextLevel
  dsimp only
  repeat' split
  all_goals decide

theorem nextLevel_congr {h g : Hw} (e : ∀ k, LevelReg k → g.rd k = h.rd k) (old : Nat) (t : Int) : nextLevel g old t = nextLevel h old t := by
  have warn := e K.PWR_CTL_WARN ⟨by decide, .inl rfl⟩
  have throttle := e K.PWR_CTL_THROTTLE ⟨by decide, .inl rfl⟩
  simp only [nextLevel, warn, throttle]

theorem quarterBits_lt (t : Int) : quarterBits t < 2 ^ 16 := by
  unfold quarterBits
  omega

theorem rd_readSensors {d : Nat} {k : Key} (hk : LevelReg k) (l : List (Int × Nat)) (h : Hw) :
    (l.foldl (fun h x => readSensor h d x.2 x.1) h).rd k = h.rd k :=
  foldl_keeps (fun t => t.rd k) (fun _ _ _ => rd_readSensor hk) h

/-- A die's temperature as a sample writes it. -/
def sampled (h : Hw) (d i : Nat) (t : Int) : Hw :=
  ((onPwr h fun p => { p with temps := SMap.set p.temps d (2 ^ 15 + t).toNat 0 }).wr (K.PWR_TEMP_TEMP d) (quarterBits t)).wr
    (K.PWR_TEMP_MAXIDX d) i

theorem sampled_leaves (h : Hw) {d : Nat} (hd : d < 9) (i : Nat) (t : Int) : (sampled h d i t).rd (K.PWR_TEMP_TEMP d) = quarterBits t ∧
    ∀ k, LevelReg k → (sampled h d i t).rd k = h.rd k := by
  refine ⟨(Hw.rd_wr_ne _ (by simp only [Key.id, K.PWR_TEMP_TEMP, K.PWR_TEMP_MAXIDX]; omega) i).trans
    ((Hw.rd_wr_self ..).trans (Nat.mod_eq_of_lt (quarterBits_lt t))), fun k hk => ?_⟩
  obtain ⟨hl, hk⟩ := hk
  exact (Hw.rd_wr_ne _ (by simp only [Key.id, K.PWR_TEMP_MAXIDX]; omega) i).trans
    (Hw.rd_wr_ne (onPwr h _) (by simp only [Key.id, K.PWR_TEMP_TEMP]; omega) _)

theorem tempSample_some {h g : Hw} {d i : Nat} {l : List Int} {m : Int} (hl : l.length = sensorCount d)
    (hg : l.zipIdx.foldl (fun h x => readSensor h d x.2 x.1) h = g) (hm : hottest g d l = some (m, i)) :
    ∃ x, tempSample h d l = { setLevel (sampled g d i m) d (nextLevel (sampled g d i m) ((sampled g d i m).rd (K.PWR_TEMP_LEVEL d)) m) with
      rst := x } := by
  unfold tempSample
  rw [if_neg (by simp [hl]), hg]
  simp only [hm]
  rw [← sampled]
  split
  · exact ⟨_, rfl⟩
  · exact ⟨_, rfl⟩

theorem tempSample_none {h g : Hw} {d : Nat} {l : List Int} (hl : l.length = sensorCount d)
    (hg : l.zipIdx.foldl (fun h x => readSensor h d x.2 x.1) h = g) (hm : hottest g d l = none) :
    tempSample h d l = setLevel ((onPwr g fun p => { p with temps := SMap.erase p.temps d }).wr (K.PWR_TEMP_TEMP d) 0x7FFF) d 2 := by
  unfold tempSample
  rw [if_neg (by simp [hl]), hg]
  simp only [hm]

/-- A sample of a die's sensors leaves its temperature and level. -/
theorem tempSample_leaves (h : Hw) {d : Nat} (hd : d < 9) {l : List Int} (hl : l.length = sensorCount d) :
    match hottest (l.zipIdx.foldl (fun h x => readSensor h d x.2 x.1) h) d l with
    | some (m, _) => (tempSample h d l).rd (K.PWR_TEMP_TEMP d) = quarterBits m ∧
        (tempSample h d l).rd (K.PWR_TEMP_LEVEL d) = nextLevel h (h.rd (K.PWR_TEMP_LEVEL d)) m
    | none => (tempSample h d l).rd (K.PWR_TEMP_TEMP d) = 0x7FFF ∧ (tempSample h d l).rd (K.PWR_TEMP_LEVEL d) = 2 := by
  have kept (k : Key) (hk : LevelReg k) := rd_readSensors (d := d) hk l.zipIdx h
  generalize hg : l.zipIdx.foldl (fun h x => readSensor h d x.2 x.1) h = g at kept ⊢
  have levelReg : LevelReg (K.PWR_TEMP_LEVEL d) :=
    ⟨by show (40 : Nat) < 64; decide, .inr ⟨by simp only [K.PWR_TEMP_LEVEL]; omega, by simp only [K.PWR_TEMP_LEVEL]; omega, rfl⟩⟩
  match hm : hottest g d l with
  | none =>
    dsimp only
    rw [tempSample_none hl hg hm]
    obtain ⟨temp, level⟩ := setLevel_leaves ((onPwr g fun p => { p with temps := SMap.erase p.temps d }).wr (K.PWR_TEMP_TEMP d) 0x7FFF) hd 2
    exact ⟨temp.trans (Hw.rd_wr_self ..), level⟩
  | some (m, i) =>
    dsimp only
    obtain ⟨x, e⟩ := tempSample_some hl hg hm
    obtain ⟨temp, others⟩ := sampled_leaves g hd i m
    have same (k : Key) (hk : LevelReg k) : (sampled g d i m).rd k = h.rd k := (others k hk).trans (kept k hk)
    generalize sampled g d i m = a at e temp same
    rw [same _ levelReg, nextLevel_congr same] at e
    obtain ⟨still, level⟩ := setLevel_leaves a hd (nextLevel h (h.rd (K.PWR_TEMP_LEVEL d)) m)
    generalize setLevel a d (nextLevel h (h.rd (K.PWR_TEMP_LEVEL d)) m) = b at e still level
    have rd (k : Key) : (tempSample h d l).rd k = b.rd k := by rw [e]; rfl
    exact ⟨(rd _).trans (still.trans temp), (rd _).trans (level.trans (Nat.mod_eq_of_lt (nextLevel_lt ..)))⟩

/-- A valid reading at the trip point trips behind another one, and is remembered. -/
theorem readSensor_leaves {h : Hw} {d i : Nat} {x : Int} (hf : h.pwr.failed.contains (256 * d + i) = false) (hlo : 440 ≤ x) (hhi : x ≤ 600) :
    readSensor h d i x = if h.pwr.hot.contains (256 * d + i) then thermalTrip h d i x
      else onPwr h fun p => { p with hot := p.hot ++ [256 * d + i] } := by
  unfold readSensor
  dsimp only
  rw [hf, if_neg Bool.false_ne_true, if_neg (by omega), if_pos hlo]

/-! ### Banks -/

theorem testBit_setBitAt_self (x i : Nat) (b : Bool) : (setBitAt x i b).testBit i = b := by
  cases b with
  | true => simp [setBitAt]
  | false =>
    have cut := testBit_setBitAt_false x i (i + 1)
    rw [Nat.testBit_mod_two_pow] at cut
    simpa using cut

theorem measureVccio_leaves (h : Hw) {b mv : Nat} (hm : mv < 4096) :
    (measureVccio h b mv).rd (K.IOBANK_STAT_VMEAS (b / 12) (b % 12)) = mv ∧
    (measureVccio h b mv).rd (K.IOBANK_STAT_VMISMATCH (b / 12) (b % 12)) =
      b2n (h.pwr.banked.testBit b && vccioBad (h.rd (K.IOBANK_CFG_VCCIO (b / 12) (b % 12))) mv) := by
  unfold measureVccio
  extract_lets n j a bad old c
  have code : a.rd (K.IOBANK_CFG_VCCIO n j) = h.rd (K.IOBANK_CFG_VCCIO n j) :=
    Hw.rd_wr_ne h (by simp only [Key.id, K.IOBANK_CFG_VCCIO, K.IOBANK_STAT_VMEAS]; omega) mv
  have isBad : bad = (h.pwr.banked.testBit b && vccioBad (h.rd (K.IOBANK_CFG_VCCIO n j)) mv) :=
    congrArg (fun v => h.pwr.banked.testBit b && vccioBad v mv) code
  have meas : c.rd (K.IOBANK_STAT_VMEAS n j) = mv :=
    (Hw.rd_wr_ne a (by simp only [Key.id, K.IOBANK_STAT_VMISMATCH, K.IOBANK_STAT_VMEAS]; omega) _).trans
      ((Hw.rd_wr_self ..).trans (Nat.mod_eq_of_lt hm))
  have mismatch : c.rd (K.IOBANK_STAT_VMISMATCH n j) = b2n bad := rd_wrB_self rfl bad
  rw [isBad] at mismatch
  clear_value c
  split
  · exact ⟨((kept_logEvent ..).rd _ (by simp only [OffSched, K.IOBANK_STAT_VMEAS]; omega)).trans meas,
      ((kept_logEvent ..).rd _ (by simp only [OffSched, K.IOBANK_STAT_VMISMATCH]; omega)).trans mismatch⟩
  · exact ⟨meas, mismatch⟩

/-- Settles O52: the sample stands in its die's registers behind the readings; the supplies stand in theirs. -/
theorem sensorsAndSupplies : Obligations.SensorsAndSupplies := by
  unfold Obligations.SensorsAndSupplies
  refine ⟨fun s d l => ⟨fun hl => ⟨_, rfl, ?_⟩, fun hl => ⟨_, rfl, tempSample_leaves s.hw d.isLt hl⟩⟩,
    fun h d i x hf hlo hhi => ⟨fun hh => ?_, fun hc => ?_⟩,
    fun s b good => ⟨_, rfl, rd_wrB_self rfl good, testBit_setBitAt_self .., rfl⟩,
    fun s b mv => ⟨_, rfl, measureVccio_leaves s.hw mv.isLt⟩, fun s good => ⟨_, rfl, pwr_laneSupply s.hw good⟩⟩
  · simp only [State.onHw]
    rw [tempSample, if_pos hl]
  · rw [readSensor_leaves hf hlo hhi, if_pos hh]
    exact thermalTrip_leaves h d i x
  · rw [readSensor_leaves hf hlo hhi, hc, if_neg Bool.false_ne_true]
    exact ⟨rfl, by simp [onPwr]⟩

end Sys2Proof.Machine
end

section
/-!
PROOF. The power ladder and A3 (R454 to R459).
-/
namespace Sys2Proof.Machine
open Sys2Proof

/-! ### A change of state -/

theorem refreshFrozen_leaves (h : Hw) : (refreshFrozen h).pwr = h.pwr ∧ (refreshFrozen h).bortik = h.bortik ∧
    ∀ k : Key, k.lo < 64 → k.addr ≠ 0x100410 → (refreshFrozen h).rd k = h.rd k := by
  have off {k : Key} (hl : k.lo < 64) (ha : k.addr ≠ 0x100410) : k.id ≠ K.RST_CANARY_STAT_REMAIN.id ∧ k.id ≠ K.RST_CANARY_STAT_FROZEN.id := by
    simp only [Key.id, K.RST_CANARY_STAT_REMAIN, K.RST_CANARY_STAT_FROZEN]
    omega
  unfold refreshFrozen
  extract_lets now a
  have raised : a.pwr = h.pwr ∧ a.bortik = h.bortik ∧ ∀ k : Key, k.lo < 64 → k.addr ≠ 0x100410 → a.rd k = h.rd k := by
    simp only [a]
    split
    · exact ⟨rfl, rfl, fun k hl ha => Hw.rd_wr_ne h (off hl ha).1 _⟩
    · exact ⟨rfl, rfl, fun _ _ _ => rfl⟩
  obtain ⟨pwr, bortik, rd⟩ := raised
  exact ⟨pwr, bortik, fun k hl ha => (Hw.rd_wr_ne a (off hl ha).2 _).trans (rd k hl ha)⟩

theorem setPwrState_leaves (h : Hw) {st : Nat} (hs : st < 4) : pwrState (setPwrState h st) = st ∧ (setPwrState h st).pwr = h.pwr ∧
    (setPwrState h st).rd K.PWR_STAT_RETSKIP = h.rd K.PWR_STAT_RETSKIP := by
  obtain ⟨pwr, -, rd⟩ := refreshFrozen_leaves (powerEvent (h.wr K.PWR_STAT_STATE st) 1 0 st)
  have posted : Kept (h.wr K.PWR_STAT_STATE st) (powerEvent (h.wr K.PWR_STAT_STATE st) 1 0 st) := kept_postEvent _ (by decide) ..
  exact ⟨(rd K.PWR_STAT_STATE (by decide) (by decide)).trans ((posted.rd K.PWR_STAT_STATE (by simp [OffSched, K.PWR_STAT_STATE])).trans
      ((Hw.rd_wr_self ..).trans (Nat.mod_eq_of_lt hs))), pwr.trans posted.pwr,
    (rd K.PWR_STAT_RETSKIP (by decide) (by decide)).trans ((posted.rd K.PWR_STAT_RETSKIP (by simp [OffSched, K.PWR_STAT_RETSKIP])).trans
      (Hw.rd_wr_ne h (by decide) st))⟩

theorem powerEvent_leaves (h : Hw) (code die arg : Nat) : pwrState (powerEvent h code die arg) = pwrState h ∧
    (powerEvent h code die arg).pwr = h.pwr ∧ (powerEvent h code die arg).rd K.PWR_STAT_RETSKIP = h.rd K.PWR_STAT_RETSKIP := by
  have posted : Kept h (powerEvent h code die arg) := kept_postEvent h (by decide) ..
  exact ⟨posted.rd K.PWR_STAT_STATE (by simp [OffSched, K.PWR_STAT_STATE]), posted.pwr,
    posted.rd K.PWR_STAT_RETSKIP (by simp [OffSched, K.PWR_STAT_RETSKIP])⟩

theorem targetState_lt (h : Hw) : targetState h < 4 := by
  unfold targetState
  repeat' split
  all_goals decide

/-- One step of the ladder toward its target. -/
theorem powerStep_leaves {h : Hw} (hr : hubRuns h = true) (ho : h.pwr.a3 = .out) :
    (pwrState h = 0 → 0 < h.rd K.PWR_STAT_TARGET → pwrState (powerStep h) = 1) ∧
    (pwrState h = 1 → 1 < h.rd K.PWR_STAT_TARGET → pwrState (powerStep h) = 2) ∧
    (pwrState h = 2 → h.rd K.PWR_STAT_TARGET < 2 → pwrState (powerStep h) = 1) ∧
    (pwrState h = 1 → h.rd K.PWR_STAT_TARGET = 0 → pwrState (powerStep h) = 0) := by
  have free : ¬ ((h.pwr.a3 != .out || !hubRuns h) = true) := by simp [hr, ho]
  unfold powerStep
  dsimp only
  rw [if_neg free]
  refine ⟨fun hs ht => ?_, fun hs ht => ?_, fun hs ht => ?_, fun hs ht => ?_⟩
  · rw [if_pos ⟨hs, ht⟩]
    exact (setPwrState_leaves _ (by decide)).1
  · rw [if_neg (by omega), if_pos ⟨hs, ht⟩]
    exact (setPwrState_leaves _ (by decide)).1
  · rw [if_neg (by omega), if_neg (by omega), if_pos ⟨hs, ht⟩]
    exact (setPwrState_leaves _ (by decide)).1
  · rw [if_neg (by omega), if_neg (by omega), if_neg (by omega), if_pos ⟨hs, by omega⟩]
    exact (setPwrState_leaves _ (by decide)).1

/-! ### Entry of A3 -/

theorem id_ne_halted_of_lo {k : Key} (hl : k.lo < 4) (n m : Nat) : (K.CLK_NET_STAT_HALTED n m).id ≠ k.id := by
  simp only [Key.id, K.CLK_NET_STAT_HALTED]
  omega

/-- The gates of the networks listed are closed. -/
def gatesClosed (h : Hw) (l : List Nat) : Hw := l.foldl (fun h x => gateClosed h (x / 64) (x % 64)) h

/-- A network that is halted or whose gate is closed is halted once all the gates listed are. -/
theorem halted_gatesClosed {x : Nat} (l : List Nat) : ∀ h : Hw, (h.bit (haltKey x) = true ∨ x ∈ l) → (gatesClosed h l).bit (haltKey x) = true := by
  induction l with
  | nil => exact fun h hx => hx.resolve_right (by simp)
  | cons y l ih =>
    intro h hx
    refine ih _ ?_
    by_cases hy : x = y
    · subst hy
      exact .inl (by rw [Hw.bit, halted_gateClosed]; rfl)
    · rw [Hw.bit, (gateMoved_gateClosed h y).halted hy]
      exact hx.imp_right fun hm => (List.mem_cons.1 hm).resolve_left hy

/-- With the gates of the running networks closed every network is halted. -/
theorem allHalted_gatesClosed (h : Hw) : AllHalted (gatesClosed h (allNets.filter fun x => !netHalted h (x / 64) (x % 64))) := by
  intro n m hn hm
  have place : (64 * n + m) / 64 = n ∧ (64 * n + m) % 64 = m := by omega
  have key : haltKey (64 * n + m) = K.CLK_NET_STAT_HALTED n m := by rw [haltKey, place.1, place.2]
  have shut := halted_gatesClosed (x := 64 * n + m) (allNets.filter fun x => !netHalted h (x / 64) (x % 64)) h (by
    by_cases hs : h.bit (haltKey (64 * n + m)) = true
    · exact .inl hs
    · refine .inr (List.mem_filter.2 ⟨List.mem_range.2 (by omega), ?_⟩)
      rw [place.1, place.2, netHalted, ← key]
      simpa using hs)
  rwa [key] at shut

/-- The halted networks stay halted, and the PLLs and the power controller as they are. -/
structure HaltsKept (h t : Hw) : Prop where
  halted : AllHalted h → AllHalted t
  plls : t.clk.plls = h.clk.plls
  pwr : t.pwr = h.pwr

namespace HaltsKept
variable {h t u : Hw}

theorem refl (h : Hw) : HaltsKept h h := ⟨id, rfl, rfl⟩
theorem trans (a : HaltsKept h t) (b : HaltsKept t u) : HaltsKept h u :=
  ⟨fun hh => b.halted (a.halted hh), b.plls.trans a.plls, b.pwr.trans a.pwr⟩
theorem wr (h : Hw) {k : Key} (hl : k.lo < 4) (v : Nat) : HaltsKept h (h.wr k v) :=
  ⟨fun hh => hh.congr fun n m _ _ => Hw.rd_wr_ne h (id_ne_halted_of_lo hl n m) v, rfl, rfl⟩
theorem foldl {α : Type} {f : Hw → α → Hw} {l : List α} (hf : ∀ h, ∀ x ∈ l, HaltsKept h (f h x)) (h : Hw) : HaltsKept h (l.foldl f h) :=
  List.foldlRecOn (motive := HaltsKept h) l f (refl h) fun t ht x hx => ht.trans (hf t x hx)

theorem unalign (h : Hw) (n d b : Nat) : HaltsKept h (unalign h n d b) := by
  have ran := designRan_runDesign h
  have first : HaltsKept h (runDesign h) := ⟨fun hh => hh.congr fun _ _ _ _ => ran.rd _ offSched_halted, ran.plls, ran.pwr⟩
  have seam (g : Hw) (f : SeamSt → SeamSt) : HaltsKept g (g.onSeam n f) := ⟨id, rfl, rfl⟩
  exact ((first.trans (seam _ _)).trans (wr _ (k := K.SEAM_BIND_STAT_ALIGNED n d b) (by show (0 : Nat) < 4; decide) 0)).trans
    (foldl (fun g i _ => wr g (k := K.SEAM_GRP_STAT_GSTATE n d i) (by show (0 : Nat) < 4; decide) gHold) _)

theorem suspendBindings (h : Hw) : HaltsKept h (suspendBindings h) := by
  refine (foldl (fun g x _ => ?_) h : HaltsKept h (allBindings.foldl _ h)).trans
    (foldl (fun g l _ => wr g (k := K.BORTIK_LINK_RSCSTAT_ALIGNED l) (by show (0 : Nat) < 4; decide) 0) _)
  split
  · exact unalign g x.1 x.2.1 x.2.2
  · exact refl g

theorem refreshGlocks (h : Hw) : HaltsKept h ((List.range 4).foldl refreshGlock h) :=
  foldl (fun g n _ => foldl (fun g i _ => wr g (k := K.CLK_PLL_STAT_GLOCK n i) (by show (3 : Nat) < 4; decide) _) g) h

end HaltsKept

/-- The PLLs listed stop. -/
def pllsStopped (h : Hw) (l : List Nat) : Hw :=
  l.foldl (fun h x => (h.setPll (x / 16) (x % 16) .stopped).wr (K.CLK_PLL_STAT_LOCK (x / 16) (x % 16)) 0) h

theorem pll_setPll_ne (h : Hw) {n i a b : Nat} (hne : n * 16 + i ≠ a * 16 + b) (p : PllPhase) : (h.setPll a b p).pll n i = h.pll n i :=
  SMap.get_set_ne _ hne ..

theorem pllsStopped_leaves {n i : Nat} (l : List Nat) : ∀ h : Hw,
    (h.pll n i = .stopped ∨ n * 16 + i ∈ l → (pllsStopped h l).pll n i = .stopped) ∧ (AllHalted h → AllHalted (pllsStopped h l)) ∧
      (pllsStopped h l).pwr = h.pwr := by
  induction l with
  | nil => exact fun h => ⟨fun hx => hx.resolve_right (by simp), id, rfl⟩
  | cons y l ih =>
    intro h
    have lock (g : Hw) := HaltsKept.wr g (k := K.CLK_PLL_STAT_LOCK (y / 16) (y % 16)) (by show (0 : Nat) < 4; decide) 0
    obtain ⟨stopped, halted, pwr⟩ := ih ((h.setPll (y / 16) (y % 16) .stopped).wr (K.CLK_PLL_STAT_LOCK (y / 16) (y % 16)) 0)
    refine ⟨fun hx => stopped ?_, fun hh => halted ((lock _).halted hh), pwr⟩
    rw [pll_congr (lock _).plls]
    by_cases hy : n * 16 + i = y
    · have e : n * 16 + i = y / 16 * 16 + y % 16 := by omega
      refine .inl ?_
      rw [Hw.pll, e]
      exact pll_setPll ..
    · rw [pll_setPll_ne _ (by omega)]
      exact hx.imp_right fun hm => (List.mem_cons.1 hm).resolve_left hy

/-- The PLLs that run. -/
def runningPlls (h : Hw) : List Nat := (List.range 64).filter fun x => h.pll (x / 16) (x % 16) != .stopped

theorem a3Enter_eq {h : Hw} (hr : hubRuns h = true) (ho : h.pwr.a3 = .out) (hs : pwrState h = 2) (ht : h.rd K.PWR_STAT_TARGET = 3)
    (hb : (List.range 4).any (strataBusy h) = false) : ∃ g nets plls, g.pwr.entering = true ∧
      nets = allNets.filter (fun x => !netHalted g (x / 64) (x % 64)) ∧ plls = runningPlls (gatesClosed g nets) ∧
      a3Enter h = onPwr (((List.range 4).foldl refreshGlock (pllsStopped (suspendBindings (gatesClosed g nets)) plls)).wr
        K.PWR_STAT_RETSKIP 0) fun p => { p with a3 := .falling, closed := nets, stopped := plls } := by
  have free : ¬ ((h.pwr.a3 != .out || !hubRuns h || pwrState h != 2 || h.rd K.PWR_STAT_TARGET != 3 ||
      (List.range 4).any (strataBusy h)) = true) := by simp only [ho, hr, hs, ht, hb]; decide
  refine ⟨onPwr (endSession (runDesign h) lostA3) fun p => { p with entering := true }, _, _, rfl, rfl, rfl, ?_⟩
  exact if_neg free

theorem a3Enter_leaves {h : Hw} (hr : hubRuns h = true) (ho : h.pwr.a3 = .out) (hs : pwrState h = 2) (ht : h.rd K.PWR_STAT_TARGET = 3)
    (hb : (List.range 4).any (strataBusy h) = false) : (a3Enter h).pwr.a3 = .falling ∧ (a3Enter h).pwr.entering = true ∧
      (∀ n i, n < 4 → i < 16 → (a3Enter h).pll n i = .stopped) ∧ AllHalted (a3Enter h) := by
  obtain ⟨g, nets, plls, entering, hn, hp, e⟩ := a3Enter_eq hr ho hs ht hb
  rw [e]
  have shut : AllHalted (gatesClosed g nets) := hn ▸ allHalted_gatesClosed g
  have gates : (gatesClosed g nets).pwr = g.pwr := foldl_keeps (fun t => t.pwr) (fun t x _ =>
    (Rejudged.gateClosed t (x / 64) (Nat.mod_lt x (by decide))).pwr) g
  generalize gatesClosed g nets = a at shut gates hp
  have suspended := HaltsKept.suspendBindings a
  generalize suspendBindings a = b at suspended
  have stops (n i : Nat) := pllsStopped_leaves (n := n) (i := i) plls b
  generalize pllsStopped b plls = c at stops
  have locks := HaltsKept.refreshGlocks c
  generalize (List.range 4).foldl refreshGlock c = d at locks
  refine ⟨rfl, ?_, fun n i hn hi => ?_, ?_⟩
  · have pwr : d.pwr = g.pwr := (locks.pwr.trans ((stops 0 0).2.2.trans (suspended.pwr.trans gates)))
    have kept : d.pwr.entering = true := by rw [pwr, entering]
    exact kept
  · have stopped : d.pll n i = .stopped := by
      rw [pll_congr locks.plls]
      refine (stops n i).1 ?_
      rw [pll_congr suspended.plls]
      by_cases hs : a.pll n i = .stopped
      · exact .inl hs
      · refine .inr ?_
        rw [hp]
        refine List.mem_filter.2 ⟨List.mem_range.2 (by omega), ?_⟩
        have place : (n * 16 + i) / 16 = n ∧ (n * 16 + i) % 16 = i := by omega
        rw [place.1, place.2]
        simpa using hs
    exact stopped
  · have halted : AllHalted d := locks.halted ((stops 0 0).2.1 (suspended.halted shut))
    refine halted.congr fun n m _ _ => ?_
    exact Hw.rd_wr_ne d (k := K.PWR_STAT_RETSKIP) (j := K.CLK_NET_STAT_HALTED n m) (by
      simp only [Key.id, K.CLK_NET_STAT_HALTED, K.PWR_STAT_RETSKIP]; omega) 0

/-! ### A3 reached and left -/

theorem a3Reached_leaves {h : Hw} (hf : h.pwr.a3 = .falling) : (a3Reached h).pwr.a3 = .inside ∧ pwrState (a3Reached h) = 3 ∧
    (a3Reached h).rd K.PWR_STAT_RETSKIP = h.rd K.PWR_STAT_RETSKIP := by
  rw [a3Reached, if_pos hf]
  obtain ⟨state, pwr, skip⟩ := setPwrState_leaves (onPwr h fun p => { p with a3 := .inside }) (st := 3) (by decide)
  exact ⟨by rw [pwr]; rfl, state, skip⟩

theorem a3Skip_leaves {h : Hw} (hf : h.pwr.a3 = .falling) : (a3Skip h).pwr.a3 = .inside ∧ pwrState (a3Skip h) = 3 ∧
    (a3Skip h).rd K.PWR_STAT_RETSKIP = 1 := by
  rw [a3Skip, if_pos hf]
  have skipped : (h.wr K.PWR_STAT_RETSKIP 1).rd K.PWR_STAT_RETSKIP = 1 := Hw.rd_wr_self ..
  obtain ⟨inside, state, skip⟩ := a3Reached_leaves (h := h.wr K.PWR_STAT_RETSKIP 1) hf
  obtain ⟨same, pwr, rd⟩ := powerEvent_leaves (a3Reached (h.wr K.PWR_STAT_RETSKIP 1)) 4 0 0
  exact ⟨by rw [pwr, inside], same.trans state, rd.trans (skip.trans skipped)⟩

theorem a3Leave_leaves (h : Hw) : (a3Leave h).pwr.a3 = .out ∧ pwrState (a3Leave h) = 2 ∧ (a3Leave h).pwr.closed = [] ∧
    inA3 (a3Leave h) = false := by
  unfold a3Leave
  dsimp only
  generalize ((h.pwr.closed.filter fun x => !(thermalNets h).contains x).foldl (fun h x => openGate h (x / 64) (x % 64)) h) = g
  obtain ⟨state, pwr, -⟩ := setPwrState_leaves (onPwr g fun p => { p with a3 := .out, entering := false, closed := [] }) (st := 2) (by decide)
  have out : (setPwrState (onPwr g fun p => { p with a3 := .out, entering := false, closed := [] }) 2).pwr.entering = false := by
    rw [pwr]; rfl
  refine ⟨by rw [pwr]; rfl, state, by rw [pwr]; rfl, ?_⟩
  have two : (setPwrState (onPwr g fun p => { p with a3 := .out, entering := false, closed := [] }) 2).rd K.PWR_STAT_STATE = 2 := state
  rw [inA3, out, two]
  rfl

/-! ### Blocks -/

theorem bortik_setLaneStep (h : Hw) (l st : Nat) : (setLaneStep h l st).bortik = h.bortik :=
  foldl_keeps (f := fun h k => h.wr (K.LANE_STAT_STEP k) st) (fun t : Hw => t.bortik) (fun _ _ _ => rfl) h

theorem bortik_setLaneLock (h : Hw) (l : Nat) (v : Bool) : (setLaneLock h l v).bortik = h.bortik :=
  foldl_keeps (f := fun h k => h.wrB (K.LANE_STAT_LOCK k) v) (fun t : Hw => t.bortik) (fun _ _ _ => rfl) h

theorem bortik_setLk (h : Hw) (l st : Nat) : (setLk h l st).bortik = h.bortik := rfl

theorem bortik_startLink (h : Hw) (l : Nat) : (startLink h l).bortik = h.bortik := by
  unfold startLink
  split
  · rw [bortik_setLaneStep, bortik_setLk]
  · rfl

theorem bortik_startLinks (h : Hw) : (startLinks h).bortik = h.bortik :=
  foldl_keeps (fun t : Hw => t.bortik) (fun t l _ => bortik_startLink t l) h

theorem bortik_rest (h : Hw) (l : Nat) : (rest h l).bortik = h.bortik := by
  unfold rest
  dsimp only
  split
  · rw [bortik_setLaneStep, bortik_setLk, bortik_setLaneLock]
  · rw [bortik_setLaneStep, bortik_setLk, bortik_setLaneLock]

theorem asleep_sleepLanes (h : Hw) : (sleepLanes h).bortik.asleep = true := by
  unfold sleepLanes
  dsimp only
  rw [foldl_keeps (fun t : Hw => t.bortik) fun t l _ => ?_]
  split
  · exact bortik_rest t l
  · rfl

theorem asleep_wakeLanes (h : Hw) : (wakeLanes h).bortik.asleep = false := by
  rw [wakeLanes, bortik_startLinks]

/-- AWAKE after a block woke or powered down. -/
theorem awake_wr (h : Hw) {i : Nat} (hi : i < 2) (x : Nat) (v : Bool) :
    ((h.wr K.PWR_STAT_AWAKE (setBitAt x i v)).rd K.PWR_STAT_AWAKE).testBit i = v := by
  rw [Hw.rd_wr_self, Nat.testBit_mod_two_pow, testBit_setBitAt_self]
  have : decide (i < K.PWR_STAT_AWAKE.w) = true := decide_eq_true hi
  rw [this, Bool.true_and]

theorem blockWake_crew {h : Hw} (hs : pwrState h ≠ 0) {v : Bool}
    (hi : ((List.range 63).all fun i => (h.core (i + 1)).item.isNone) = !v) :
    ((blockWake h .crew v).rd K.PWR_STAT_AWAKE).testBit 0 = v := by
  have wakes : ¬ ((decide (pwrState h = 0) || (!v) == v) = true) := by cases v <;> simp [hs]
  unfold blockWake
  dsimp only
  rw [hi, if_neg wakes]
  obtain ⟨-, -, rd⟩ := refreshFrozen_leaves (h.wr K.PWR_STAT_AWAKE (setBitAt (h.rd K.PWR_STAT_AWAKE) 0 v))
  rw [rd _ (by decide) (by decide)]
  exact awake_wr h (by decide) _ v

theorem blockWake_dram {h : Hw} (hs : 2 ≤ pwrState h) {v : Bool} (hq : h.dram.queue.isEmpty = !v) :
    ((blockWake h .dram v).rd K.PWR_STAT_AWAKE).testBit 1 = v := by
  have wakes : ¬ ((decide (pwrState h < 2) || (!v) == v) = true) := by
    have up : decide (pwrState h < 2) = false := decide_eq_false (by omega)
    rw [up]
    cases v <;> decide
  unfold blockWake
  dsimp only
  rw [hq, if_neg wakes]
  exact awake_wr _ (by decide) _ v

/-- Settles O51: the ladder moves by one state, A3 closes every gate and stops every PLL, and the blocks follow their work. -/
theorem powerLadder : Obligations.PowerLadder := by
  unfold Obligations.PowerLadder
  refine ⟨fun s hr => ⟨_, rfl, ?_⟩, fun s hr ho => ?_, fun s hf => ⟨⟨_, rfl, ?_⟩, ⟨_, rfl, a3Skip_leaves hf⟩⟩,
    fun s => ⟨fun ha hc => ⟨_, rfl, ?_⟩, fun ha hd => ⟨_, rfl, ?_⟩⟩, fun s hr hs => ?_, fun s m v hg => ⟨_, rfl, ?_⟩⟩
  · simp only [State.onHw]
    rw [if_pos hr]
    exact ⟨(Hw.rd_wr_self ..).trans (Nat.mod_eq_of_lt (targetState_lt _)), Hw.rd_wr_ne _ (by decide) _⟩
  · obtain ⟨up1, up2, down1, down0⟩ := powerStep_leaves hr ho
    refine ⟨fun a b => ⟨_, rfl, up1 a b⟩, fun a b => ⟨_, rfl, up2 a b⟩, fun a b => ⟨_, rfl, down1 a b⟩, fun a b => ⟨_, rfl, down0 a b⟩,
      fun hb => ⟨_, rfl, ?_⟩, fun hs ht hb => ⟨_, rfl, a3Enter_leaves hr ho hs ht hb⟩⟩
    simp only [State.onHw]
    rw [a3Enter, if_pos (by rw [hb, Bool.or_true])]
  · obtain ⟨inside, state, -⟩ := a3Reached_leaves hf
    exact ⟨inside, state⟩
  · simp only [State.onHw]
    rw [a3Exit, ha]
    dsimp only
    rw [if_pos hc]
    rfl
  · simp only [State.onHw]
    rw [a3Exit, ha]
    dsimp only
    rw [if_pos hd]
    exact a3Leave_leaves s.hw
  · refine ⟨fun hx => ⟨_, rfl, ?_⟩, fun hx => ⟨_, rfl, ?_⟩, fun v h2 hq => ⟨_, rfl, ?_⟩, fun h2 => ⟨_, rfl, ?_⟩, fun l hl he hs0 h2 => ⟨_, rfl, ?_⟩⟩
    all_goals
      simp only [State.onHw]
      rw [if_pos hr]
    · obtain ⟨c, h1, h64, hi⟩ := hx
      refine blockWake_crew hs (v := true) (List.all_eq_false.2 ⟨c - 1, List.mem_range.2 (by omega), ?_⟩)
      rw [Nat.sub_add_cancel h1, Option.isNone_iff_eq_none]
      exact hi
    · refine blockWake_crew hs (v := false) (List.all_eq_true.2 fun i hi => ?_)
      rw [hx (i + 1) (by omega) (by have := List.mem_range.1 hi; omega)]
      rfl
    · exact blockWake_dram h2 hq
    · have awake : ¬ pwrState s.hw < 2 := by omega
      rw [blockWake]
      rw [if_neg awake, if_neg Bool.false_ne_true]
      exact asleep_sleepLanes s.hw
    · have awake : ¬ pwrState s.hw < 2 := by omega
      have work : ((List.range 64).any fun l => linkEn s.hw l && lkState s.hw l == lkOff) = true :=
        List.any_eq_true.2 ⟨l, List.mem_range.2 hl, by rw [he, hs0]; rfl⟩
      rw [blockWake]
      rw [if_neg awake, if_pos rfl, if_pos work]
      exact asleep_wakeLanes s.hw
  · simp only [State.onHw]
    rw [gated_ok hg]
    exact ⟨rd_wrB_self rfl v, rfl⟩

end Sys2Proof.Machine
end

section
/-!
PROOF. The DRAM channels (R378 to R400): what work on a line leaves, the events of a channel, and the accesses it serves.
-/
namespace Sys2Proof.Machine
open Sys2Proof

/-! ### What work on a line leaves -/

/-- A register of a region of the inline cipher. -/
def CipherReg (k : Key) : Prop := k.lo < 64 ∧ 0x1100100 ≤ k.addr ∧ k.addr < 0x1200000

theorem CipherReg.offSched {k : Key} (hk : CipherReg k) : OffSched k := by
  obtain ⟨lo, base, -⟩ := hk
  exact ⟨lo, .inr (.inr (.inr (by omega)))⟩

/-- t serves the cipher's pages as h does: answers, waiting requests, keys, lost and ended pages and the cipher's registers. -/
structure LineKept (h t : Hw) : Prop where
  gal : t.gal = h.gal
  queue : t.dram.queue = h.dram.queue
  poisoned : t.dram.poisoned = h.dram.poisoned
  ended : t.dram.ended = h.dram.ended
  keys : t.keys = h.keys
  rd : ∀ k, CipherReg k → t.rd k = h.rd k

namespace LineKept
variable {h t u : Hw}

theorem refl (h : Hw) : LineKept h h := ⟨rfl, rfl, rfl, rfl, rfl, fun _ _ => rfl⟩
theorem trans (a : LineKept h t) (b : LineKept t u) : LineKept h u :=
  ⟨b.gal.trans a.gal, b.queue.trans a.queue, b.poisoned.trans a.poisoned, b.ended.trans a.ended, b.keys.trans a.keys,
    fun k hk => (b.rd k hk).trans (a.rd k hk)⟩
theorem of_kept (k : Kept h t) : LineKept h t :=
  ⟨k.gal, congrArg _ k.dram, congrArg _ k.dram, congrArg _ k.dram, k.keys, fun j hj => k.rd j hj.offSched⟩
theorem draw (h : Hw) : LineKept h h.draw.2 := of_kept (kept_draw h)
/-- A counter of a channel. -/
theorem cnt (h : Hw) {k : Key} (hk : 0x1200000 ≤ k.addr) : LineKept h (h.cnt k) :=
  ⟨rfl, rfl, rfl, rfl, rfl, fun j hj => Hw.rd_wr_ne h (k := k) (j := j) (by
    obtain ⟨lo, base, top⟩ := hj
    unfold Key.id
    omega) _⟩
theorem ite {c : Prop} [Decidable c] (a : LineKept h t) (b : LineKept h u) : LineKept h (if c then t else u) := by
  split
  · exact a
  · exact b
theorem tables (h : Hw) (m : SMap (List (Nat × Nat))) : LineKept h { h with dram := { h.dram with tables := m } } := ⟨rfl, rfl, rfl, rfl, rfl, fun _ _ => rfl⟩
theorem bad (h : Hw) (l : List Nat) : LineKept h { h with dram := { h.dram with bad := l } } := ⟨rfl, rfl, rfl, rfl, rfl, fun _ _ => rfl⟩
theorem lastCe (h : Hw) (m : SMap Nat) : LineKept h { h with dram := { h.dram with lastCe := m } } := ⟨rfl, rfl, rfl, rfl, rfl, fun _ _ => rfl⟩
theorem cache (h : Hw) (l : List Nat) : LineKept h { h with dram := { h.dram with cache := l } } := ⟨rfl, rfl, rfl, rfl, rfl, fun _ _ => rfl⟩
theorem logged (h : Hw) (s m c a d : Nat) : LineKept h (logEntry h s m c a d) := of_kept (kept_logEntry ..)

theorem activate (h : Hw) (l : DramLoc) : LineKept h (activate h l) := by
  unfold Machine.activate
  dsimp only
  split
  · exact draw h
  · split
    · exact ((draw h).trans (tables ..)).trans (cnt _ (by show 0x1200000 ≤ 0x1200108 + l.ch * 0x40000; omega))
    · exact (draw h).trans (tables ..)

theorem touchCache (h : Hw) (r p : Nat) : LineKept h (touchCache h r p) := cache ..

theorem putLine (h : Hw) (o v : Nat) : LineKept h (putLine h o v) := ⟨rfl, rfl, rfl, rfl, rfl, fun _ _ => rfl⟩

theorem lineSeen (h : Hw) (who o : Nat) (seen : LineSeen) : LineKept h (lineSeen h who o seen) := by
  unfold Machine.lineSeen
  extract_lets l a src b
  have base : LineKept h b := (activate h l).trans (bad ..)
  have fixed (n : Nat) : LineKept h (if SMap.get (b.cnt (K.DDR_C_ECC_CORR l.ch)).dram.lastCe l.ch 0 = o / 64 + 1 then
      b.cnt (K.DDR_C_ECC_CORR l.ch) else logEntry { b.cnt (K.DDR_C_ECC_CORR l.ch) with dram := { (b.cnt (K.DDR_C_ECC_CORR l.ch)).dram with
        lastCe := SMap.set (b.cnt (K.DDR_C_ECC_CORR l.ch)).dram.lastCe l.ch (o / 64 + 1) 0 } } srcDdr who 1 (dramBase + o)
          (dramErrData l n)) := by
    have counted := base.trans (cnt b (k := K.DDR_C_ECC_CORR l.ch) (by show 0x1200000 ≤ 0x1200110 + l.ch * 0x40000; omega))
    split
    · exact counted
    · exact (counted.trans (lastCe ..)).trans (logged ..)
  match seen with
  | .clean => exact base
  | .corrected n => exact fixed n
  | .wrong n _ => exact fixed n
  | .uncorrectable =>
    exact ((base.trans (bad ..)).trans (cnt _ (by show 0x1200000 ≤ 0x1200110 + l.ch * 0x40000; omega))).trans (logged ..)

theorem judgeLine (h : Hw) (ch : Nat) (l : LineErrs) : LineKept h (judgeLine h ch l).2 := by
  unfold Machine.judgeLine
  dsimp only
  simp only [apply_ite Prod.snd]
  exact ite (refl h) (ite (refl h) (ite (refl h) (draw h)))

end LineKept

theorem rawLine_congr {h t : Hw} (hm : t.mem = h.mem) (o : Nat) : rawLine t o = rawLine h o := by rw [rawLine, hm, rawLine]

/-! ### Regions -/

theorem cipherReg_of {k : Key} {r : Nat} (hr : r < 16) (hl : k.lo < 64) (hb : 0x1100100 + r * 0x20 ≤ k.addr) (ht : k.addr < 0x1100100 + r * 0x20 + 0x20) :
    CipherReg k := ⟨hl, by omega, by omega⟩

theorem lt_of_regionAt {h : Hw} {o r : Nat} (hr : regionAt h o = some r) : r < 16 := List.mem_range.1 (List.mem_of_find?_eq_some hr)

section
variable {h t : Hw} (k : LineKept h t)
include k

theorem LineKept.rd_cipher {j : Key} {r : Nat} (hr : r < 16) (hl : j.lo < 64) (hb : 0x1100100 + r * 0x20 ≤ j.addr)
    (ht : j.addr < 0x1100100 + r * 0x20 + 0x20) : t.rd j = h.rd j := k.rd j (cipherReg_of hr hl hb ht)

theorem LineKept.regBase {r : Nat} (hr : r < 16) : regBase t r = regBase h r :=
  k.rd_cipher hr (by show (12 : Nat) < 64; decide) (by simp only [K.CIPH_R_BASE_BASE]; omega) (by simp only [K.CIPH_R_BASE_BASE]; omega)
theorem LineKept.regLimit {r : Nat} (hr : r < 16) : regLimit t r = regLimit h r :=
  k.rd_cipher hr (by show (12 : Nat) < 64; decide) (by simp only [K.CIPH_R_LIMIT_LIMIT]; omega) (by simp only [K.CIPH_R_LIMIT_LIMIT]; omega)
theorem LineKept.regCtr {r : Nat} (hr : r < 16) : regCtr t r = regCtr h r :=
  k.rd_cipher hr (by show (12 : Nat) < 64; decide) (by simp only [K.CIPH_R_CTR_CTR]; omega) (by simp only [K.CIPH_R_CTR_CTR]; omega)
theorem LineKept.regEn {r : Nat} (hr : r < 16) : regEn t r = regEn h r :=
  congrArg (· != 0) (k.rd_cipher hr (j := K.CIPH_R_BASE_EN r) (by show (0 : Nat) < 64; decide) (by simp only [K.CIPH_R_BASE_EN]; omega)
    (by simp only [K.CIPH_R_BASE_EN]; omega))
theorem LineKept.rekey {r : Nat} (hr : r < 16) : t.bit (K.CIPH_R_MER_REKEY r) = h.bit (K.CIPH_R_MER_REKEY r) :=
  congrArg (· != 0) (k.rd_cipher hr (j := K.CIPH_R_MER_REKEY r) (by show (63 : Nat) < 64; decide) (by simp only [K.CIPH_R_MER_REKEY]; omega)
    (by simp only [K.CIPH_R_MER_REKEY]; omega))
theorem LineKept.meridian {r : Nat} (hr : r < 16) : t.rd (K.CIPH_R_MER_MERIDIAN r) = h.rd (K.CIPH_R_MER_MERIDIAN r) :=
  k.rd_cipher hr (by show (12 : Nat) < 64; decide) (by simp only [K.CIPH_R_MER_MERIDIAN]; omega) (by simp only [K.CIPH_R_MER_MERIDIAN]; omega)

theorem LineKept.regionAt (o : Nat) : regionAt t o = regionAt h o := by
  refine List.find?_congr fun r hr => ?_
  have hr := List.mem_range.1 hr
  rw [k.regEn hr, k.regBase hr, k.regLimit hr]

theorem LineKept.isPoisoned (r p : Nat) : isPoisoned t r p = isPoisoned h r p := by
  rw [Machine.isPoisoned, k.poisoned, Machine.isPoisoned]

theorem LineKept.pageKey {r : Nat} (hr : r < 16) (p : Nat) : pageKey t r p = pageKey h r p := by
  simp only [Machine.pageKey, k.rekey hr, k.regBase hr, k.meridian hr, ciphPend, ciphCur, k.keys]

variable (hm : t.mem = h.mem)
include hm

theorem LineKept.readCopy {r : Nat} (hr : r < 16) (p copy : Nat) : readCopy t r p copy = readCopy h r p copy := by
  have line (half : Nat) : ctrLine t r p copy half = ctrLine h r p copy half := by
    rw [ctrLine, ctrLine, regPages, regPages, k.regCtr hr, k.regLimit hr, k.regBase hr]
  rw [Machine.readCopy, Machine.readCopy, line, line, rawLine_congr hm, rawLine_congr hm]

theorem LineKept.plainLine {r : Nat} (hr : r < 16) (o : Nat) : plainLine t r o = plainLine h r o := by
  unfold Machine.plainLine
  dsimp only
  rw [rawLine_congr hm, k.regBase hr, k.pageKey hr, k.readCopy hm hr]

end

/-! ### Memory after a read of a line -/

theorem mem_onTables (h : Hw) (m : SMap (List (Nat × Nat))) : ({ h with dram := { h.dram with tables := m } } : Hw).mem = h.mem := rfl

theorem mem_cnt (h : Hw) (k : Key) : (h.cnt k).mem = h.mem := rfl

theorem mem_activate (h : Hw) (l : DramLoc) : (activate h l).mem = h.mem := by
  unfold activate
  dsimp only
  split
  · exact Hw.draw_mem h
  · split
    · rw [mem_cnt, mem_onTables, Hw.draw_mem]
    · rw [mem_onTables, Hw.draw_mem]

theorem mem_onDram (h : Hw) (d : Dram) : ({ h with dram := d } : Hw).mem = h.mem := rfl

theorem mem_touchCache (h : Hw) (r p : Nat) : (touchCache h r p).mem = h.mem := mem_onDram ..

/-- The entry of a corrected line is not posted where POSTMASK asks for none. -/
theorem mem_logCorrected {h : Hw} (hp : h.rd K.ERR_POSTMASK_MASK = 0) (who a d : Nat) : (logEntry h srcDdr who 1 a d).mem = h.mem := by
  have mask : (logRaw h srcDdr who 1 a d).rd K.ERR_POSTMASK_MASK = 0 := by
    unfold logRaw
    simp (disch := (dsimp only [Key.id, K.ERR_LOGHEAD_NEXT, K.ERR_LOGHEAD_TOTAL, K.ERR_LOG_W_WORD, K.ERR_POSTMASK_MASK]; omega))
      only [Hw.rd_wr_ne, hp]
  unfold logEntry
  dsimp only
  rw [mask, if_neg (by decide)]
  exact mem_logRaw ..

theorem rd_postmask_activate (h : Hw) (l : DramLoc) : (activate h l).rd K.ERR_POSTMASK_MASK = h.rd K.ERR_POSTMASK_MASK := by
  unfold activate
  dsimp only
  split
  · rfl
  · split
    · exact Hw.rd_wr_ne _ (k := K.DDR_C_CNT_RHACT l.ch) (j := K.ERR_POSTMASK_MASK) (by
        simp only [Key.id, K.DDR_C_CNT_RHACT, K.ERR_POSTMASK_MASK]; omega) _
    · rfl

theorem mem_lineSeen_clean (h : Hw) (who o : Nat) : (lineSeen h who o .clean).mem = h.mem := mem_activate ..

theorem mem_lineSeen_corrected {h : Hw} (hp : h.rd K.ERR_POSTMASK_MASK = 0) (who o n : Nat) : (lineSeen h who o (.corrected n)).mem = h.mem := by
  have act := mem_activate h (ddrMap h o)
  have post := rd_postmask_activate h (ddrMap h o)
  unfold lineSeen
  dsimp only
  generalize activate h (ddrMap h o) = a at act post
  split
  · exact act
  · refine (mem_logCorrected ?_ ..).trans act
    refine Eq.trans ?_ (post.trans hp)
    exact Hw.rd_wr_ne _ (k := K.DDR_C_ECC_CORR (ddrMap h o).ch) (j := K.ERR_POSTMASK_MASK) (by
      simp only [Key.id, K.DDR_C_ECC_CORR, K.ERR_POSTMASK_MASK]; omega) _

/-! ### One line -/

/-- A span inside one line is one part. -/
theorem lineParts_one {a n : Nat} (hn : 0 < n) (hs : a % 64 + n ≤ 64) : lineParts a n = [(a, n)] := by
  have one : (a + n + 63) / 64 - a / 64 = 1 := by omega
  have low : max a ((a / 64 + 0) * 64) = a := by omega
  have high : min (a + n) ((a / 64 + 0 + 1) * 64) = a + n := by omega
  rw [lineParts, one]
  simp only [List.range_one, List.map_cons, List.map_nil, low, high]
  rw [Nat.add_sub_cancel_left]

theorem readLines_one {h : Hw} {q : GReq} (hn : 0 < q.size) (hs : q.addr % 64 + q.size ≤ 64) (seen : List LineErrs) :
    readLines h q seen =
      let found := judgeLine h (ddrMap h (q.addr - dramBase)).ch (seen.getD 0 [])
      let line := loadLine found.2 (mcode q.m) ((q.addr - dramBase) / 64 * 64) found.1
      (line.1 / 256 ^ ((q.addr - dramBase) % 64) % 256 ^ q.size, if line.2.1 then .poison else .ok, line.2.2) := by
  rw [readLines, lineParts_one hn hs]
  simp only [List.zipIdx_cons, List.zipIdx_nil, List.foldl_cons, List.foldl_nil, Nat.pow_zero, Nat.mul_one, Nat.zero_add]

section
variable (judge : Hw → Nat → LineErrs → LineSeen × Hw) (save : Hw → Nat → Nat → Nat → Nat → LineSeen → Status × Hw) (base : Nat)

/-- One part of a write of lines, over what judges a line, what saves it, and the base of the lines. -/
def writePart (q : GReq) (seen : List LineErrs) (acc : Nat × Status × Hw) (e : (Nat × Nat) × Nat) : Nat × Status × Hw :=
  let (k, st, h) := acc
  let o := e.1.1 - base
  let be := q.be / 2 ^ k % 2 ^ e.1.2 * 2 ^ (o % 64)
  let (found, h) := judge h (ddrMap h o).ch (seen.getD e.2 [])
  let (s, h) := save h (mcode q.m) (o / 64 * 64) (q.data / 256 ^ k * 256 ^ (o % 64)) be found
  (k + e.1.2, if s = .ok then st else s, h)

variable {judge save base}

theorem writePart_ok {h g t : Hw} {q : GReq} {seen : List LineErrs} {found : LineSeen} {k a n i : Nat} {st : Status}
    (hj : judge h (ddrMap h (a - base)).ch (seen.getD i []) = (found, g))
    (hw : save g (mcode q.m) ((a - base) / 64 * 64) (q.data / 256 ^ k * 256 ^ ((a - base) % 64))
      (q.be / 2 ^ k % 2 ^ n * 2 ^ ((a - base) % 64)) found = (.ok, t)) :
    writePart judge save base q seen (k, st, h) ((a, n), i) = (k + n, st, t) := by
  simp only [writePart, hj, hw, if_true]

end

theorem writeLines_eq (h : Hw) (q : GReq) (seen : List LineErrs) : writeLines h q seen =
    (((lineParts q.addr q.size).zipIdx).foldl (writePart judgeLine saveLine dramBase q seen) (0, .ok, h)).2 := by
  unfold writeLines
  generalize judgeLine = judge, saveLine = save, dramBase = base
  unfold writePart
  generalize List.foldl _ _ _ = z
  obtain ⟨k, st, t⟩ := z
  rfl
theorem writeLines_one {h g t : Hw} {q : GReq} {seen : List LineErrs} {found : LineSeen} (hn : 0 < q.size)
    (hs : q.addr % 64 + q.size ≤ 64) (hj : judgeLine h (ddrMap h (q.addr - dramBase)).ch (seen.getD 0 []) = (found, g))
    (hw : saveLine g (mcode q.m) ((q.addr - dramBase) / 64 * 64) (q.data / 256 ^ 0 * 256 ^ ((q.addr - dramBase) % 64))
      (q.be / 2 ^ 0 % 2 ^ q.size * 2 ^ ((q.addr - dramBase) % 64)) found = (.ok, t)) : writeLines h q seen = (.ok, t) := by
  have one : [(q.addr, q.size)].zipIdx = [((q.addr, q.size), 0)] := rfl
  rw [writeLines_eq, lineParts_one hn hs, one, List.foldl_cons, List.foldl_nil, writePart_ok hj hw]

theorem offset_mod {a : Nat} (hb : dramBase ≤ a) : (a - dramBase) % 64 = a % 64 := by
  simp only [dramBase] at hb ⊢
  omega

theorem isDdr5_drop (h : Hw) (i : Nat) : isDdr5 (dropDram h i) = isDdr5 h := rfl

theorem judgeLine_drop (h : Hw) (i ch : Nat) (l : LineErrs) : (judgeLine (dropDram h i) ch l).1 = (judgeLine h ch l).1 := by
  have x8 : (dropDram h i).bit (K.DDR_C_GEOM_X8 ch) = h.bit (K.DDR_C_GEOM_X8 ch) := rfl
  have syms : badSymbols (dropDram h i) l = badSymbols h l := rfl
  have device (s : Nat) : symbolDevice (dropDram h i) s = symbolDevice h s := rfl
  have drawn : (dropDram h i).draw.1 = h.draw.1 := rfl
  unfold judgeLine
  dsimp only
  rw [x8, syms, isDdr5_drop, drawn]
  simp only [device, apply_ite Prod.fst]

theorem ddrMap_drop (h : Hw) (i o : Nat) : ddrMap (dropDram h i) o = ddrMap h o := rfl

/-! ### Reads and whole writes of a line -/

/-- What a load answers: the line as it stands after what the line code reports, or the miscorrected data. -/
def loaded (line : Nat) : LineSeen → Nat
  | .wrong _ v => v
  | _ => line

theorem loadLine_plain {h : Hw} {o : Nat} (hr : regionAt h o = none) (who : Nat) (seen : LineSeen) :
    loadLine h who o seen = (loaded (rawLine (lineSeen h who o seen) o) seen, seen == .uncorrectable, lineSeen h who o seen) := by
  unfold loadLine
  dsimp only
  rw [(LineKept.lineSeen h who o seen).regionAt, hr]
  cases seen <;> rfl

theorem saveLine_plain {h : Hw} {o be : Nat} (hr : regionAt h o = none) (hb : be = 2 ^ 64 - 1) (who v : Nat) (seen : LineSeen) :
    saveLine h who o v be seen = (.ok, putLine (activate h (ddrMap h o)) o (mergeBytes 64 0 v be)) := by
  have whole : (be % 2 ^ 64 == 2 ^ 64 - 1) = true := by rw [hb]; decide
  have some : ¬ be % 2 ^ 64 = 0 := by rw [hb]; decide
  unfold saveLine
  dsimp only
  rw [if_pos whole, if_neg some]
  dsimp only
  rw [(LineKept.activate h (ddrMap h o)).regionAt, hr]
  dsimp only
  rw [if_neg Bool.false_ne_true]

end Sys2Proof.Machine
end

section
/-!
PROOF. What a request at the DRAM channels is answered (R395, R396), and the events of a channel (R378 to R394).
-/
namespace Sys2Proof.Machine
open Sys2Proof

/-! ### A read of one line -/

/-- What a read of a line that holds `line` leaves, by what the line code finds. -/
def ReadEnds (h t : Hw) (q : GReq) (line : Nat) : LineSeen → Prop
  | .clean => t.mem = h.mem ∧ t.gal.resps = h.gal.resps ++ [respOf q .ok (line / 256 ^ ((q.addr - dramBase) % 64) % 256 ^ q.size)]
  | .corrected _ => h.rd K.ERR_POSTMASK_MASK = 0 →
    t.gal.resps = h.gal.resps ++ [respOf q .ok (line / 256 ^ ((q.addr - dramBase) % 64) % 256 ^ q.size)]
  | .uncorrectable => ∃ x, t.gal.resps = h.gal.resps ++ [respOf q .poison x]
  | .wrong _ v => t.gal.resps = h.gal.resps ++ [respOf q .ok (v / 256 ^ ((q.addr - dramBase) % 64) % 256 ^ q.size)]

theorem csr_judgeLine (h : Hw) (ch : Nat) (l : LineErrs) : (judgeLine h ch l).2.csr = h.csr := by
  unfold judgeLine
  dsimp only
  simp only [apply_ite Prod.snd, apply_ite Hw.csr, Hw.draw_csr, ite_self]

theorem mem_judgeLine (h : Hw) (ch : Nat) (l : LineErrs) : (judgeLine h ch l).2.mem = h.mem := by
  unfold judgeLine
  dsimp only
  simp only [apply_ite Prod.snd, apply_ite Hw.mem, Hw.draw_mem, ite_self]

section
variable {h : Hw} {i : Nat} {q : GReq} {V : Hw → Nat}

/-- Loads of q's line read what V says of the state. -/
def LoadsAs (h : Hw) (q : GReq) (V : Hw → Nat) : Prop := ∀ g who found, LineKept h g →
  ∃ t, LineKept g t ∧ t.mem = (lineSeen g who ((q.addr - dramBase) / 64 * 64) found).mem ∧
    loadLine g who ((q.addr - dramBase) / 64 * 64) found =
      (loaded (V (lineSeen g who ((q.addr - dramBase) / 64 * 64) found)) found, found == .uncorrectable, t)

theorem serveRead_leaves (hl : LoadsAs (dropDram h i) q V) (hV : ∀ g, LineKept (dropDram h i) g → g.mem = h.mem → V g = V h)
    (hk : q.kind = .read) (hm : q.m ≠ .guest) (hn : 0 < q.size) (hs : q.addr % 64 + q.size ≤ 64) (seen : List LineErrs) :
    (serveRead h i q seen).dram.queue = h.dram.queue.eraseIdx i ∧
      ReadEnds h (serveRead h i q seen) q (V h) (judgeLine h (ddrMap h (q.addr - dramBase)).ch (seen.getD 0 [])).1 := by
  have judged := judgeLine_drop h i (ddrMap h (q.addr - dramBase)).ch (seen.getD 0 [])
  have kept := LineKept.judgeLine (dropDram h i) (ddrMap h (q.addr - dramBase)).ch (seen.getD 0 [])
  have csr := csr_judgeLine (dropDram h i) (ddrMap h (q.addr - dramBase)).ch (seen.getD 0 [])
  have mem := mem_judgeLine (dropDram h i) (ddrMap h (q.addr - dramBase)).ch (seen.getD 0 [])
  rw [serveRead, readLines_one hn hs, ddrMap_drop]
  dsimp only
  rw [← judged]
  generalize judgeLine (dropDram h i) (ddrMap h (q.addr - dramBase)).ch (seen.getD 0 []) = j at kept csr mem ⊢
  obtain ⟨found, g⟩ := j
  obtain ⟨t, after, tmem, load⟩ := hl g (mcode q.m) found kept
  rw [load, answer_eq (by rw [hk]; decide) hm]
  have resps : t.gal.resps = h.gal.resps := congrArg Gallery.resps (after.gal.trans kept.gal)
  have queue : t.dram.queue = h.dram.queue.eraseIdx i := after.queue.trans kept.queue
  have post : g.rd K.ERR_POSTMASK_MASK = h.rd K.ERR_POSTMASK_MASK := congrArg (SMap.get · _ _) csr
  have seenKept := kept.trans (LineKept.lineSeen g (mcode q.m) ((q.addr - dramBase) / 64 * 64) found)
  refine ⟨queue, ?_⟩
  cases found with
  | clean =>
    have same := mem_lineSeen_clean g (mcode q.m) ((q.addr - dramBase) / 64 * 64)
    refine ⟨tmem.trans (same.trans mem), ?_⟩
    rw [← hV _ seenKept (same.trans mem), ← resps]
    rfl
  | corrected n =>
    intro hp
    have same := mem_lineSeen_corrected (post.trans hp) (mcode q.m) ((q.addr - dramBase) / 64 * 64) n
    rw [← hV _ seenKept (same.trans mem), ← resps]
    rfl
  | uncorrectable => exact ⟨_, congrArg (· ++ _) resps⟩
  | wrong n v => exact congrArg (· ++ _) resps

end

theorem loadsAs_plain {h : Hw} {q : GReq} (hr : regionAt h ((q.addr - dramBase) / 64 * 64) = none) :
    LoadsAs h q fun g => rawLine g ((q.addr - dramBase) / 64 * 64) := by
  intro g who found kept
  exact ⟨_, LineKept.lineSeen g who _ found, rfl, loadLine_plain ((kept.regionAt _).trans hr) who found⟩

/-- Whether an offset lies in a region is a matter of its page. -/
theorem regionAt_line (h : Hw) (o : Nat) : regionAt h (o / 64 * 64) = regionAt h o := by
  have page : o / 64 * 64 / 4096 = o / 4096 := by omega
  rw [regionAt, page, regionAt]

theorem mergeBytes_aligned {q : GReq} (hb : dramBase ≤ q.addr) (ha : q.addr % 64 = 0) : (q.addr - dramBase) / 64 * 64 = q.addr - dramBase := by
  have := offset_mod hb
  omega

theorem mem_putLine (h : Hw) (o v : Nat) : (putLine h o v).mem = h.mem.writeN (dramBase + o) 64 v (allOn 64) := rfl

theorem mem_dropDram (h : Hw) (i : Nat) : (dropDram h i).mem = h.mem := rfl

theorem allOn64 : allOn 64 = 2 ^ 64 - 1 := rfl

theorem answered_leaves (h : Hw) (r : GResp) :
    ({ h with gal := { h.gal with resps := h.gal.resps ++ [r] } } : Hw).gal.resps = h.gal.resps ++ [r] ∧
    ({ h with gal := { h.gal with resps := h.gal.resps ++ [r] } } : Hw).dram.queue = h.dram.queue ∧
    ({ h with gal := { h.gal with resps := h.gal.resps ++ [r] } } : Hw).mem = h.mem := ⟨rfl, rfl, rfl⟩

/-- A write of a whole line outside every region. -/
theorem serveWrite_plain {h : Hw} {i : Nat} {q : GReq} (hr : regionAt h (q.addr - dramBase) = none) (hb : dramBase ≤ q.addr)
    (hm : q.m ≠ .guest) (hk : q.kind = .write) (hz : q.size = 64) (ha : q.addr % 64 = 0) (hbe : q.be = allOn 64) (seen : List LineErrs) :
    (serveWrite h i q seen).gal.resps = h.gal.resps ++ [respOf q .ok 0] ∧ (serveWrite h i q seen).dram.queue = h.dram.queue.eraseIdx i ∧
      (serveWrite h i q seen).mem = h.mem.writeN q.addr 64 (mergeBytes 64 0 q.data (allOn 64)) (allOn 64) := by
  have kept := LineKept.judgeLine (dropDram h i) (ddrMap h (q.addr - dramBase)).ch (seen.getD 0 [])
  have mem := mem_judgeLine (dropDram h i) (ddrMap h (q.addr - dramBase)).ch (seen.getD 0 [])
  cases hj : judgeLine (dropDram h i) (ddrMap h (q.addr - dramBase)).ch (seen.getD 0 []) with
  | mk found g =>
  rw [hj] at kept mem
  have line := mergeBytes_aligned hb ha
  have off : (q.addr - dramBase) % 64 = 0 := (offset_mod hb).trans ha
  have whole : q.be / 2 ^ 0 % 2 ^ q.size * 2 ^ ((q.addr - dramBase) % 64) = 2 ^ 64 - 1 := by
    rw [off, hz, hbe]
    decide
  have data : q.data / 256 ^ 0 * 256 ^ ((q.addr - dramBase) % 64) = q.data := by
    rw [off, Nat.pow_zero, Nat.div_one, Nat.mul_one]
  have outside : regionAt g ((q.addr - dramBase) / 64 * 64) = none := (kept.regionAt _).trans ((regionAt_line h _).trans hr)
  have saved := saveLine_plain outside whole (mcode q.m) (q.data / 256 ^ 0 * 256 ^ ((q.addr - dramBase) % 64)) found
  rw [serveWrite, writeLines_one (by omega) (by omega) (by rw [ddrMap_drop]; exact hj) saved]
  dsimp only
  rw [answer_eq (by rw [hk]; decide) hm, data, whole, line]
  have act := LineKept.activate g (ddrMap g (q.addr - dramBase))
  have amem := mem_activate g (ddrMap g (q.addr - dramBase))
  generalize activate g (ddrMap g (q.addr - dramBase)) = a at act amem
  have base : dramBase + (q.addr - dramBase) = q.addr := Nat.add_sub_cancel' hb
  obtain ⟨resps, queue, stored⟩ := answered_leaves (putLine a (q.addr - dramBase) (mergeBytes 64 0 q.data (2 ^ 64 - 1))) (respOf q .ok 0)
  have keptPut := LineKept.putLine a (q.addr - dramBase) (mergeBytes 64 0 q.data (2 ^ 64 - 1))
  refine ⟨?_, ?_, ?_⟩
  · rw [resps, keptPut.gal, act.gal, kept.gal]
    rfl
  · rw [queue, keptPut.queue, act.queue, kept.queue]
    rfl
  · rw [stored, mem_putLine, base, amem, mem, mem_dropDram, allOn64]

/-! ### Events of a channel -/

theorem rd_ddrEvent {k : Key} (hl : k.lo < 64) (ha : 0x1200000 ≤ k.addr) (h : Hw) (code n lane arg : Nat) :
    (ddrEvent h code n lane arg).rd k = h.rd k :=
  (kept_postEvent h (by decide) ..).rd k ⟨hl, .inr (.inr (.inr (by omega)))⟩

theorem chState_ddrEvent (h : Hw) (code n lane arg m : Nat) : chState (ddrEvent h code n lane arg) m = chState h m :=
  rd_ddrEvent (by show (0 : Nat) < 64; decide) (by simp only [K.DDR_C_STAT_STATE]; omega) h code n lane arg

theorem chState_wr (h : Hw) (n : Nat) {v : Nat} (hv : v < 8) : chState (h.wr (K.DDR_C_STAT_STATE n) v) n = v :=
  (Hw.rd_wr_self h (K.DDR_C_STAT_STATE n) v).trans (Nat.mod_eq_of_lt hv)

theorem trainFails_leaves (h : Hw) (n : Nat) {lane : Nat} (hl : lane < 16) (rank : Nat) :
    chState (trainFails h n lane rank) n = 5 ∧ (trainFails h n lane rank).rd (K.DDR_C_STAT_TRAINLANE n) = lane := by
  refine ⟨?_, ?_⟩
  · rw [trainFails, chState_ddrEvent, chState, Hw.rd_wr_ne _ (k := K.DDR_C_STAT_TRAINLANE n) (j := K.DDR_C_STAT_STATE n) (by
      simp only [Key.id, K.DDR_C_STAT_TRAINLANE, K.DDR_C_STAT_STATE]; omega)]
    exact chState_wr h n (by decide)
  · rw [trainFails, rd_ddrEvent (by show (16 : Nat) < 64; decide) (by simp only [K.DDR_C_STAT_TRAINLANE]; omega)]
    exact (Hw.rd_wr_self ..).trans (Nat.mod_eq_of_lt hl)

theorem trainEnds_leaves {h : Hw} {n : Nat} (hs : chState h n = 1) (lane : Fin 16) (rank : Fin 4) :
    chState (trainEnds h n none) n = 2 ∧ chState (trainEnds h n (some (lane, rank))) n = 5 ∧
      (trainEnds h n (some (lane, rank))).rd (K.DDR_C_STAT_TRAINLANE n) = lane.val := by
  have training : ¬ chState h n ≠ chTraining := not_not.2 hs
  rw [trainEnds, if_neg training, trainEnds, if_neg training]
  exact ⟨chState_wr _ n (by decide), trainFails_leaves h n lane.isLt rank.val⟩

theorem retrainEnds_leaves {h : Hw} {n : Nat} (hs : chState h n = 4) (lane : Fin 16) (rank : Fin 4) :
    chState (retrainEnds h n none) n = 2 ∧ chState (retrainEnds h n (some (lane, rank))) n = 5 := by
  have retraining : ¬ chState h n ≠ chRetrain := not_not.2 hs
  rw [retrainEnds, if_neg retraining, retrainEnds, if_neg retraining]
  exact ⟨(chState_ddrEvent ..).trans (chState_wr h n (by decide)), (trainFails_leaves h n lane.isLt rank.val).1⟩

/-- The same-bank round of a rank is over. -/
def roundOver (h : Hw) (key : Nat) : Hw := { h with dram := { h.dram with sbDue := SMap.erase h.dram.sbDue key } }

theorem refreshDue_idle {h : Hw} {n rank : Nat} (hr : refreshing h n rank = false) : refreshDue h n rank = h := by
  rw [refreshDue, if_pos (by rw [hr]; rfl)]

theorem refreshDue_open {h : Hw} {n rank : Nat} (hr : refreshing h n rank = true)
    (ho : h.bit (K.DDR_C_CTL_REFMODE n) = false ∨ deadlineNear h n = false) : refreshDue h n rank = roundOver h (n * 4 + rank) := by
  have mode : (roundOver h (n * 4 + rank)).bit (K.DDR_C_CTL_REFMODE n) = h.bit (K.DDR_C_CTL_REFMODE n) := rfl
  have near : deadlineNear (roundOver h (n * 4 + rank)) n = deadlineNear h n := rfl
  refine (if_neg (by rw [hr]; decide)).trans (if_pos ?_)
  refine (congrArg (fun x => (!x || !deadlineNear (roundOver h (n * 4 + rank)) n) = true) mode).mpr ?_
  rw [near]
  rcases ho with ho | ho
  · rw [ho]; rfl
  · rw [ho, Bool.not_false, Bool.or_true]

theorem refreshDue_owed {h : Hw} {n rank : Nat} (hr : refreshing h n rank = true) (h4 : isDdr5 h = false)
    (hm : h.bit (K.DDR_C_CTL_REFMODE n) = true) (hd : deadlineNear h n = true) (ho : h.rd (K.DDR_C_STAT_OWED n) < 8) :
    (refreshDue h n rank).rd (K.DDR_C_STAT_OWED n) = h.rd (K.DDR_C_STAT_OWED n) + 1 := by
  have counted : refreshDue h n rank = ((roundOver h (n * 4 + rank)).wr (K.DDR_C_STAT_OWED n) (h.rd (K.DDR_C_STAT_OWED n) + 1)).cnt
      (K.DDR_C_CNT_FALLBACK n) := by
    have mode : (roundOver h (n * 4 + rank)).bit (K.DDR_C_CTL_REFMODE n) = true := hm
    have near : deadlineNear (roundOver h (n * 4 + rank)) n = true := hd
    have type : ¬ isDdr5 (roundOver h (n * 4 + rank)) = true := Bool.eq_false_iff.1 h4
    have owed : ¬ (roundOver h (n * 4 + rank)).rd (K.DDR_C_STAT_OWED n) = 8 := Nat.ne_of_lt ho
    refine (if_neg (by rw [hr]; decide)).trans ((if_neg ?_).trans ((if_neg type).trans (if_neg owed)))
    exact (congrArg₂ (fun x y => ¬ ((!x || !y) = true)) mode near).mpr (by decide)
  rw [counted]
  refine (Hw.rd_wr_ne _ (k := K.DDR_C_CNT_FALLBACK n) (j := K.DDR_C_STAT_OWED n) (by
    simp only [Key.id, K.DDR_C_CNT_FALLBACK, K.DDR_C_STAT_OWED]; omega) _).trans ((Hw.rd_wr_self ..).trans (Nat.mod_eq_of_lt ?_))
  show h.rd (K.DDR_C_STAT_OWED n) + 1 < 16
  omega

theorem payOwed_leaves {h : Hw} {n rank : Nat} (hr : refreshing h n rank = true) (h4 : isDdr5 h = false) (hb : rankBusy h n rank = false)
    (hd : deadlineNear h n = false) (ho : h.rd (K.DDR_C_STAT_OWED n) ≤ 8) :
    (payOwed h n rank).rd (K.DDR_C_STAT_OWED n) = h.rd (K.DDR_C_STAT_OWED n) - 1 := by
  rw [payOwed, if_neg (by rw [hr, h4, hb, hd]; decide), Hw.rd_wr_self]
  refine Nat.mod_eq_of_lt ?_
  show h.rd (K.DDR_C_STAT_OWED n) - 1 < 16
  omega

theorem payOwed_idle {h : Hw} {n rank : Nat} (hr : refreshing h n rank = false) : payOwed h n rank = h := by
  rw [payOwed, if_pos (by rw [hr]; rfl)]

theorem setDoubled_same {h : Hw} {n : Nat} {want : Bool} (hw : h.bit (K.DDR_C_STAT_DOUBLED n) = want) : setDoubled h n want = h := by
  rw [setDoubled, if_pos hw]

theorem setDoubled_leaves {h : Hw} {n : Nat} {want : Bool} (hw : h.bit (K.DDR_C_STAT_DOUBLED n) ≠ want) :
    (setDoubled h n want).rd (K.DDR_C_STAT_DOUBLED n) = b2n want := by
  rw [setDoubled, if_neg hw, rd_ddrEvent (by show (11 : Nat) < 64; decide) (by simp only [K.DDR_C_STAT_DOUBLED]; omega)]
  exact rd_wrB_self rfl want

theorem audit_leaves {h : Hw} {n rd wr : Nat} (hs : chState h n = 2) (hr : rd < 64) (hw : wr < 64) :
    (audit h n rd wr).rd (K.DDR_C_MARGIN_RD n) = rd ∧ (audit h n rd wr).rd (K.DDR_C_MARGIN_WR n) = wr := by
  unfold audit
  have active : ¬ chState h n ≠ chActive := not_not.2 hs
  rw [if_neg active]
  extract_lets k rank lane src g t low key
  have written : t.rd (K.DDR_C_MARGIN_RD n) = rd ∧ t.rd (K.DDR_C_MARGIN_WR n) = wr := by
    refine ⟨(Hw.rd_wr_self ..).trans (Nat.mod_eq_of_lt hr), ?_⟩
    exact (Hw.rd_wr_ne _ (k := K.DDR_C_MARGIN_RD n) (j := K.DDR_C_MARGIN_WR n) (by
      simp only [Key.id, K.DDR_C_MARGIN_RD, K.DDR_C_MARGIN_WR]; omega) _).trans ((Hw.rd_wr_self ..).trans (Nat.mod_eq_of_lt hw))
  have posted (d : Dram) (arg : Nat) : (ddrEvent { t with dram := d } 2 n lane arg).rd (K.DDR_C_MARGIN_RD n) = rd ∧
      (ddrEvent { t with dram := d } 2 n lane arg).rd (K.DDR_C_MARGIN_WR n) = wr :=
    ⟨(rd_ddrEvent (by show (0 : Nat) < 64; decide) (by simp only [K.DDR_C_MARGIN_RD]; omega) ..).trans written.1,
      (rd_ddrEvent (by show (8 : Nat) < 64; decide) (by simp only [K.DDR_C_MARGIN_WR]; omega) ..).trans written.2⟩
  split
  · split
    · exact written
    · exact posted ..
  · split
    · exact written
    · exact written

theorem retrain_leaves {h : Hw} (m : Master) {n : Nat} (hs : chState h n = 2) (data : Nat) :
    chState (retrain h m n data) n = 4 ∧ (retrain h m n data).mem = h.mem := by
  have active : chState h n = chActive := hs
  rw [retrain, if_pos active]
  exact ⟨chState_wr h n (by decide), rfl⟩

/-- Settles O59: the events of a channel, refresh and its owed count, and a line read and written where no region lies. -/
theorem dramChannels : Obligations.DramChannels := by
  unfold Obligations.DramChannels
  refine ⟨fun s n lane rank => ⟨fun hs => ?_, fun hs => ?_, fun m hg hs => ⟨_, rfl, ?_⟩⟩,
    fun s n rank hr h4 => ⟨fun hm hd ho => ⟨_, rfl, refreshDue_owed hr h4 hm hd ho⟩, fun hb hd ho => ⟨_, rfl, payOwed_leaves hr h4 hb hd ho⟩⟩,
    fun s n rank => ⟨fun hr => ⟨⟨_, rfl, ?_⟩, ⟨_, rfl, ?_⟩⟩, fun hr ho => ⟨_, rfl, ?_⟩⟩,
    fun s n rank b => ⟨_, rfl, ?_⟩, fun s n want rank lane drift hs hd => ?_,
    fun s n want rank lane drift rd wr hs => ?_,
    fun s n rd wr => ⟨fun hs => ⟨_, rfl, audit_leaves hs rd.isLt wr.isLt⟩, ⟨_, rfl, fun e he => ?_⟩⟩,
    fun s i seen hr => ⟨⟨_, rfl, ?_⟩, ⟨_, rfl, ?_⟩⟩, fun s i q seen hr hn hb hm => ⟨fun hk hz hl => ⟨_, rfl, ?_⟩, fun hk hz ha hbe => ⟨_, rfl, ?_⟩⟩⟩
  · obtain ⟨done, failed, at_⟩ := trainEnds_leaves hs lane rank
    exact ⟨⟨_, rfl, done⟩, ⟨_, rfl, failed, at_⟩⟩
  · obtain ⟨done, failed⟩ := retrainEnds_leaves hs lane rank
    exact ⟨⟨_, rfl, done⟩, ⟨_, rfl, failed⟩⟩
  · simp only [State.onHw]
    rw [gated_ok hg]
    exact retrain_leaves m hs 1
  · simp only [State.onHw, refreshDue_idle hr]
  · simp only [State.onHw, payOwed_idle hr]
  · simp only [State.onHw, refreshDue_open hr ho]
    exact ⟨rfl, rfl, SMap.get_erase_self ..⟩
  · refine ⟨?_, rfl⟩
    have got : SMap.get (SMap.upd s.hw.dram.sbDue (n.val * 4 + rank.val) 0 fun x => setBitAt x b.val false) (n.val * 4 + rank.val) 0 =
        setBitAt (SMap.get s.hw.dram.sbDue (n.val * 4 + rank.val) 0) b.val false := SMap.get_set_self ..
    exact (congrArg (Nat.testBit · b.val) got).trans (testBit_setBitAt_self _ _ false)
  · have active : (isDdr5 s.hw && chState s.hw n.val == chActive) = true := by rw [hd, hs]; rfl
    refine ⟨fun hw => ⟨_, rfl, ?_⟩, fun hw => ⟨_, rfl, ?_⟩, ⟨_, rfl, ?_⟩⟩
    · simp only [State.onHw]
      rw [if_pos active, setDoubled_same hw]
    · simp only [State.onHw]
      rw [if_pos active]
      exact setDoubled_leaves hw
    · simp only [State.onHw]
      rw [if_pos active]
      exact SMap.get_set_self ..
  · have idle : ¬ (isDdr5 s.hw && chState s.hw n.val == chActive) = true := by
      rw [Bool.and_eq_true, beq_iff_eq]
      exact fun ha => hs ha.2
    refine ⟨⟨_, rfl, ?_⟩, ⟨_, rfl, ?_⟩, ⟨_, rfl, ?_⟩⟩
    · simp only [State.onHw]
      rw [if_neg idle]
    · simp only [State.onHw]
      rw [if_neg idle]
    · simp only [State.onHw]
      have silent : chState s.hw n.val ≠ chActive := hs
      rw [audit, if_pos silent]
  · have kept := (List.mem_filter.1 he).2
    simpa using kept
  · simp only [State.onHw, hr]
  · simp only [State.onHw, hr]
  · have line : regionAt s.hw ((q.addr - dramBase) / 64 * 64) = none := (regionAt_line s.hw _).trans hn
    obtain ⟨queue, ends⟩ := serveRead_leaves (V := fun g => rawLine g ((q.addr - dramBase) / 64 * 64)) (loadsAs_plain (h := dropDram s.hw i) line)
      (fun g _ mem => rawLine_congr mem _) hk hm hz hl seen
    simp only [State.onHw, hr]
    rw [if_pos ⟨hk, by rw [hn]; rfl⟩]
    refine ⟨queue, ?_⟩
    revert ends
    cases (judgeLine s.hw (ddrMap s.hw (q.addr - dramBase)).ch (seen.getD 0 [])).1 <;> exact id
  · simp only [State.onHw, hr]
    rw [if_pos ⟨by rw [hk]; decide, by rw [hn]; rfl⟩]
    exact serveWrite_plain hn hb hm hk hz ha hbe seen

end Sys2Proof.Machine
end

section
/-!
PROOF. The regions of the inline cipher (R401 to R415).
-/
namespace Sys2Proof.Machine
open Sys2Proof

/-! ### The cache and the counter blocks -/

/-- The head of a list without another of it is kept where all but the first eight of a set leave. -/
theorem mem_dropped {x : Nat} {f : Nat → Bool} (own : f x = true) (l : List Nat) :
    x ∈ (x :: l.filter (· != x)).filter fun y => !(((x :: l.filter (· != x)).filter f).drop 8).contains y := by
  refine List.mem_filter.2 ⟨List.mem_cons_self, ?_⟩
  rw [Bool.not_eq_true', List.contains_eq_mem, decide_eq_false_iff_not, List.filter_cons_of_pos own, List.drop_succ_cons]
  intro hm
  have other := (List.mem_filter.1 (List.mem_filter.1 (List.mem_of_mem_drop hm)).1).2
  simp at other

theorem mem_onCache (h : Hw) {x : Nat} {l : List Nat} (hx : x ∈ l) : x ∈ ({ h with dram := { h.dram with cache := l } } : Hw).dram.cache := hx

theorem mem_touchCache_cache (h : Hw) (r p : Nat) : pageNo r p ∈ (touchCache h r p).dram.cache := by
  have own : (pageNo r p % 512 == p % 512) = true := by
    rw [pageNo, beq_iff_eq]
    omega
  unfold touchCache
  generalize pageNo r p = x at own ⊢
  lift_lets
  extract_lets c set kept
  refine mem_onCache h ?_
  unfold kept
  split
  · exact List.mem_cons_self
  · exact mem_dropped (f := fun y => y % 512 == p % 512) own _

/-- The block touched last is in the cache. -/
theorem cached_touchCache (h : Hw) (r p : Nat) : cached (touchCache h r p) r p = true := List.contains_iff_mem.2 (mem_touchCache_cache h r p)

/-- t holds the keys and the region registers of h. -/
structure RegionKept (h t : Hw) : Prop where
  keys : t.keys = h.keys
  rd : ∀ k, CipherReg k → t.rd k = h.rd k

namespace RegionKept
variable {h t u : Hw}

theorem refl (h : Hw) : RegionKept h h := ⟨rfl, fun _ _ => rfl⟩
theorem trans (a : RegionKept h t) (b : RegionKept t u) : RegionKept h u := ⟨b.keys.trans a.keys, fun k hk => (b.rd k hk).trans (a.rd k hk)⟩
theorem of_line (k : LineKept h t) : RegionKept h t := ⟨k.keys, k.rd⟩
theorem of_kept (k : Kept h t) : RegionKept h t := of_line (.of_kept k)
theorem onDram (h : Hw) (d : Dram) : RegionKept h { h with dram := d } := ⟨rfl, fun _ _ => rfl⟩
theorem cnt (h : Hw) {k : Key} (hk : k.lo < 64) (ha : k.addr < 0x1100100) : RegionKept h (h.cnt k) :=
  ⟨rfl, fun j hj => Hw.rd_wr_ne h (k := k) (j := j) (by
    obtain ⟨lo, base, -⟩ := hj
    unfold Key.id
    omega) _⟩
theorem touchCache (h : Hw) (r p : Nat) : RegionKept h (touchCache h r p) := of_line (.touchCache ..)
theorem writeCopy (h : Hw) (r p copy : Nat) (b : CtrBlock) : RegionKept h (writeCopy h r p copy b) :=
  of_line ((LineKept.putLine h _ _).trans (.putLine ..))
theorem writeCtr (h : Hw) (r p : Nat) (b : CtrBlock) : RegionKept h (writeCtr h r p b) := (writeCopy ..).trans (writeCopy ..)
theorem forgetPages (h : Hw) (r : Nat) (f : Nat → Bool) : RegionKept h (forgetPages h r f) := onDram ..

theorem resolveCtr (h : Hw) (r p : Nat) (a b : Bool) : RegionKept h (resolveCtr h r p a b) := by
  unfold Machine.resolveCtr
  dsimp only
  split
  · exact touchCache ..
  · split
    · split
      · exact touchCache ..
      · exact ((writeCtr ..).trans (cnt _ (k := K.CIPH_CNT_MISMATCH) (by decide) (by decide))).trans (touchCache ..)
    · exact ((writeCopy ..).trans (cnt _ (k := K.CIPH_CNT_CTRFIX) (by decide) (by decide))).trans (touchCache ..)
    · exact ((writeCopy ..).trans (cnt _ (k := K.CIPH_CNT_CTRFIX) (by decide) (by decide))).trans (touchCache ..)
    · exact ((((onDram ..).trans (cnt _ (k := K.CIPH_CNT_CTRPOISON) (by decide) (by decide))).trans (of_kept (kept_logErr ..))).trans
        (of_kept (kept_postEvent _ (by decide) ..))).trans (touchCache ..)

theorem fetchCounters (h : Hw) (o : Nat) : RegionKept h (fetchCounters h o) := by
  unfold Machine.fetchCounters
  split
  · exact refl h
  · dsimp only
    split
    · exact refl h
    · exact resolveCtr ..

theorem pageLines (h : Hw) (r p : Nat) : RegionKept h (pageLines h r p).2 := of_kept (kept_draw h)

theorem writePage (h : Hw) (r p key major : Nat) (lines : List Nat) : RegionKept h (writePage h r p key major lines) := by
  refine RegionKept.trans ?_ ((writeCtr _ r p _).trans (touchCache ..))
  exact List.foldlRecOn (motive := RegionKept h) _ _ (refl h) fun t ht x _ => ht.trans (of_line (.putLine ..))

theorem regLimit (k : RegionKept h t) {r : Nat} (hr : r < 16) : regLimit t r = regLimit h r :=
  k.rd _ (cipherReg_of hr (by show (12 : Nat) < 64; decide) (by simp only [K.CIPH_R_LIMIT_LIMIT]; omega) (by simp only [K.CIPH_R_LIMIT_LIMIT]; omega))

end RegionKept

theorem cached_onDram (h : Hw) (r p : Nat) : cached h r p = h.dram.cache.contains (pageNo r p) := rfl

theorem satAdd_one (w x : Nat) : satAdd w x 1 = min (2 ^ w - 1) (x + 1) := Nat.min_comm ..

theorem rd_cnt_self (h : Hw) {k : Key} : (h.cnt k).rd k = min (2 ^ k.w - 1) (h.rd k + 1) := by
  refine (Hw.rd_wr_self ..).trans ((Nat.mod_eq_of_lt ?_).trans (satAdd_one ..))
  rw [satAdd_one]
  have := Nat.two_pow_pos k.w
  omega

theorem rd_onDram (h : Hw) (d : Dram) (k : Key) : ({ h with dram := d } : Hw).rd k = h.rd k := rfl

theorem rd_touchCache (h : Hw) (r p : Nat) (k : Key) : (touchCache h r p).rd k = h.rd k := rd_onDram ..

theorem rd_writeCopy (h : Hw) (r p copy : Nat) (b : CtrBlock) (k : Key) : (writeCopy h r p copy b).rd k = h.rd k := rfl

theorem rd_writeCtr (h : Hw) (r p : Nat) (b : CtrBlock) (k : Key) : (writeCtr h r p b).rd k = h.rd k :=
  (rd_writeCopy ..).trans (rd_writeCopy ..)

/-- Both copies of a block arrived in order. -/
theorem resolveCtr_both {h : Hw} {r p : Nat} (hp : isPoisoned h r p = false) : cached (resolveCtr h r p true true) r p = true ∧
    (readCopy h r p 0 = readCopy h r p 1 → (resolveCtr h r p true true).mem = h.mem) ∧
    (readCopy h r p 0 ≠ readCopy h r p 1 → (resolveCtr h r p true true).rd K.CIPH_CNT_MISMATCH =
      min (2 ^ K.CIPH_CNT_MISMATCH.w - 1) (h.rd K.CIPH_CNT_MISMATCH + 1)) := by
  unfold resolveCtr
  dsimp only
  rw [if_neg (Bool.eq_false_iff.1 hp)]
  split
  · rename_i same
    exact ⟨cached_touchCache .., fun _ => mem_touchCache .., fun hne => absurd same hne⟩
  · rename_i other
    refine ⟨cached_touchCache .., fun he => absurd he other, fun _ => ?_⟩
    rw [rd_touchCache, rd_cnt_self, rd_writeCtr]

/-- One copy of a block could not be corrected. -/
theorem resolveCtr_one {h : Hw} {r p : Nat} (hp : isPoisoned h r p = false) {a b : Bool} (hab : a ≠ b) :
    cached (resolveCtr h r p a b) r p = true ∧ (resolveCtr h r p a b).rd K.CIPH_CNT_CTRFIX =
      min (2 ^ K.CIPH_CNT_CTRFIX.w - 1) (h.rd K.CIPH_CNT_CTRFIX + 1) := by
  have fixed (copy : Nat) (c : CtrBlock) : (touchCache ((writeCopy h r p copy c).cnt K.CIPH_CNT_CTRFIX) r p).rd K.CIPH_CNT_CTRFIX =
      min (2 ^ K.CIPH_CNT_CTRFIX.w - 1) (h.rd K.CIPH_CNT_CTRFIX + 1) := by rw [rd_touchCache, rd_cnt_self, rd_writeCopy]
  unfold resolveCtr
  dsimp only
  rw [if_neg (Bool.eq_false_iff.1 hp)]
  match a, b, hab with
  | true, false, _ => exact ⟨cached_touchCache .., fixed ..⟩
  | false, true, _ => exact ⟨cached_touchCache .., fixed ..⟩

/-- The counters of a page are lost, and counted. -/
def pageLost (h : Hw) (x : Nat) : Hw := { h with dram := { h.dram with poisoned := x :: h.dram.poisoned } }.cnt K.CIPH_CNT_CTRPOISON

theorem resolveCtr_false_eq {h : Hw} {r p : Nat} (hp : isPoisoned h r p = false) : ∃ addr data addr', resolveCtr h r p false false =
    touchCache (ciphEvent (logErr (pageLost h (pageNo r p)) srcCipher none .event 0x11 addr data) 0x11 r addr') r p :=
  ⟨_, _, _, if_neg (Bool.eq_false_iff.1 hp)⟩

/-- Neither copy of a block could be corrected. -/
theorem resolveCtr_none {h : Hw} {r p : Nat} (hp : isPoisoned h r p = false) : isPoisoned (resolveCtr h r p false false) r p = true := by
  obtain ⟨addr, data, addr', e⟩ := resolveCtr_false_eq hp
  have listed : (pageLost h (pageNo r p)).dram.poisoned = pageNo r p :: h.dram.poisoned := rfl
  rw [e]
  generalize pageLost h (pageNo r p) = g at listed
  have logged : Kept g (logErr g srcCipher none .event 0x11 addr data) := kept_logErr ..
  have posted : Kept (logErr g srcCipher none .event 0x11 addr data) (ciphEvent (logErr g srcCipher none .event 0x11 addr data) 0x11 r addr') :=
    kept_postEvent _ (by decide) ..
  rw [isPoisoned, (LineKept.touchCache _ r p).poisoned, posted.dram, logged.dram, listed]
  exact List.contains_iff_mem.2 List.mem_cons_self

/-! ### The end of an install -/

/-- Counters that are zeroed read 0. -/
theorem readByte_zeroCounters {h : Hw} {r a : Nat} (ha : dramBase + regCtr h r * 4096 ≤ a)
    (hb : a < dramBase + regCtr h r * 4096 + regPages h r * 256) : (zeroCounters h r).mem.readByte a = 0 := by
  refine SMap.get_of_unlisted fun e he => ?_
  have out := (List.mem_filter.1 he).2
  rintro rfl
  rw [decide_eq_true ⟨ha, hb⟩] at out
  exact absurd out (by decide)

/-! ### The Meridian -/

/-- A page is written under the pending key. -/
def pageRekeyed (h : Hw) (r key : Nat) : Hw :=
  let p := h.rd (K.CIPH_R_MER_MERIDIAN r) - regBase h r
  let l := pageLines (fetchCounters h (h.rd (K.CIPH_R_MER_MERIDIAN r) * 4096)) r p
  forgetPages (writePage l.2 r p key 0 l.1) r (· == p)

theorem regionKept_pageRekeyed (h : Hw) (r key : Nat) : RegionKept h (pageRekeyed h r key) := by
  unfold pageRekeyed
  exact (((RegionKept.fetchCounters h _).trans (.pageLines ..)).trans (.writePage ..)).trans (.forgetPages ..)

/-- A running re-key ends under its new key. -/
def rekeyEnded (h : Hw) (r key : Nat) : Hw := setRekey (setCiphKeys h r (some key) none) r false

/-- MAJORNEAR may be posted again for a region. -/
def nearForgotten (h : Hw) (r : Nat) : Hw := { h with dram := { h.dram with near := h.dram.near.filter (· != r) } }

theorem meridian_eq {h : Hw} {r key : Nat} (hk : ciphPend h r = some key) (hr : (h.rd K.CIPH_STAT_REKEY).testBit r = true) :
    ∃ g, g = (pageRekeyed h r key).wr (K.CIPH_R_MER_MERIDIAN r) (h.rd (K.CIPH_R_MER_MERIDIAN r) + 1) ∧
      meridian h r = if h.rd (K.CIPH_R_MER_MERIDIAN r) + 1 < regLimit g r then g
        else ciphEvent (nearForgotten (rekeyEnded g r key) r) 0x10 r 0 := by
  refine ⟨_, rfl, ?_⟩
  unfold meridian
  rw [hk]
  dsimp only
  rw [if_neg (by rw [hr]; decide)]
  rfl

theorem keys_rekeyEnded (h : Hw) (r key : Nat) : (rekeyEnded h r key).keys.ciphCur = SMap.set h.keys.ciphCur r (some key) none ∧
    (rekeyEnded h r key).keys.ciphPend = SMap.set h.keys.ciphPend r none none := ⟨rfl, rfl⟩

theorem rekeyEnded_leaves (h : Hw) {r : Nat} (hr : r < 16) (key : Nat) :
    (rekeyEnded h r key).rd (K.CIPH_R_MER_MERIDIAN r) = h.rd (K.CIPH_R_MER_MERIDIAN r) ∧ ciphCur (rekeyEnded h r key) r = some key ∧
      ciphPend (rekeyEnded h r key) r = none ∧ ((rekeyEnded h r key).rd K.CIPH_STAT_REKEY).testBit r = false := by
  obtain ⟨cur, pend⟩ := keys_rekeyEnded h r key
  refine ⟨?_, by rw [ciphCur, cur, SMap.get_set_self], by rw [ciphPend, pend, SMap.get_set_self], ?_⟩
  · refine (Hw.rd_wr_ne _ (k := K.CIPH_R_MER_REKEY r) (j := K.CIPH_R_MER_MERIDIAN r) (by
      simp only [Key.id, K.CIPH_R_MER_REKEY, K.CIPH_R_MER_MERIDIAN]; omega) _).trans
      ((Hw.rd_wr_ne _ (k := K.CIPH_STAT_REKEY) (j := K.CIPH_R_MER_MERIDIAN r) (by
        simp only [Key.id, K.CIPH_STAT_REKEY, K.CIPH_R_MER_MERIDIAN]; omega) _).trans
      ((Hw.rd_wr_ne _ (k := K.CIPH_R_MER_PEND r) (j := K.CIPH_R_MER_MERIDIAN r) (by
        simp only [Key.id, K.CIPH_R_MER_PEND, K.CIPH_R_MER_MERIDIAN]; omega) _).trans
      (Hw.rd_wr_ne _ (k := K.CIPH_R_MER_KEYED r) (j := K.CIPH_R_MER_MERIDIAN r) (by
        simp only [Key.id, K.CIPH_R_MER_KEYED, K.CIPH_R_MER_MERIDIAN]; omega) _)))
  · rw [rekeyEnded, setRekey]
    have flag (g : Hw) (v : Bool) : (g.wrB (K.CIPH_R_MER_REKEY r) v).rd K.CIPH_STAT_REKEY = g.rd K.CIPH_STAT_REKEY :=
      Hw.rd_wr_ne g (k := K.CIPH_R_MER_REKEY r) (j := K.CIPH_STAT_REKEY) (by
        simp only [Key.id, K.CIPH_R_MER_REKEY, K.CIPH_STAT_REKEY]; omega) _
    rw [flag, Hw.rd_wr_self]
    exact testBit_setBitAt_false ..

theorem meridian_leaves {h : Hw} {r key : Nat} (hr : r < 16) (hk : ciphPend h r = some key)
    (hb : (h.rd K.CIPH_STAT_REKEY).testBit r = true) :
    (meridian h r).rd (K.CIPH_R_MER_MERIDIAN r) = (h.rd (K.CIPH_R_MER_MERIDIAN r) + 1) % 2 ^ (K.CIPH_R_MER_MERIDIAN r).w ∧
      (regLimit h r ≤ h.rd (K.CIPH_R_MER_MERIDIAN r) + 1 → ciphCur (meridian h r) r = some key ∧ ciphPend (meridian h r) r = none ∧
        ((meridian h r).rd K.CIPH_STAT_REKEY).testBit r = false) := by
  obtain ⟨g, hg, e⟩ := meridian_eq hk hb
  have at_ : g.rd (K.CIPH_R_MER_MERIDIAN r) = (h.rd (K.CIPH_R_MER_MERIDIAN r) + 1) % 2 ^ (K.CIPH_R_MER_MERIDIAN r).w := hg ▸ Hw.rd_wr_self ..
  have limit : regLimit g r = regLimit h r := by
    rw [← (regionKept_pageRekeyed h r key).regLimit hr, hg]
    exact Hw.rd_wr_ne _ (k := K.CIPH_R_MER_MERIDIAN r) (j := K.CIPH_R_LIMIT_LIMIT r) (by
      simp only [Key.id, K.CIPH_R_MER_MERIDIAN, K.CIPH_R_LIMIT_LIMIT]; omega) _
  obtain ⟨merid, cur, pend, flag⟩ := rekeyEnded_leaves g hr key
  rw [e, limit]
  split
  · rename_i hlt
    exact ⟨at_, fun hge => absurd hlt (Nat.not_lt.2 hge)⟩
  · generalize rekeyEnded g r key = f at merid cur pend flag
    have posted : Kept (nearForgotten f r) (ciphEvent (nearForgotten f r) 0x10 r 0) := kept_postEvent _ (by decide) ..
    have reg : CipherReg (K.CIPH_R_MER_MERIDIAN r) := cipherReg_of hr (by show (12 : Nat) < 64; decide) (by simp only [K.CIPH_R_MER_MERIDIAN]; omega)
      (by simp only [K.CIPH_R_MER_MERIDIAN]; omega)
    refine ⟨(posted.rd _ reg.offSched).trans (merid.trans at_), fun _ => ⟨?_, ?_, ?_⟩⟩
    · exact (congrArg (fun k : KeyStore => SMap.get k.ciphCur r none) posted.keys).trans cur
    · exact (congrArg (fun k : KeyStore => SMap.get k.ciphPend r none) posted.keys).trans pend
    · exact (congrArg (Nat.testBit · r) (posted.rd K.CIPH_STAT_REKEY (by simp [OffSched, K.CIPH_STAT_REKEY]))).trans flag

/-! ### Page clear -/

theorem ofBytes_zero (l : List Byte) (hl : ∀ b ∈ l, b = 0) : ofBytes l = 0 := by
  induction l with
  | nil => rfl
  | cons b l ih =>
    have head := hl b List.mem_cons_self
    have tail := ih fun x hx => hl x (List.mem_cons_of_mem _ hx)
    rw [ofBytes, tail, head]
    rfl

theorem readN_zero {m : Mem} {a n : Nat} (hz : ∀ i, i < n → m.readByte (a + i) = 0) : m.readN a n = 0 := by
  refine ofBytes_zero _ fun b hb => ?_
  obtain ⟨i, hi, rfl⟩ := List.mem_map.1 hb
  exact hz i (List.mem_range.1 hi)

/-- A zeroed line reads 0. -/
theorem rawLine_putLine_zero (h : Hw) (o : Nat) : rawLine (putLine h o 0) o = 0 := by
  refine readN_zero fun i hi => ?_
  rw [mem_putLine, Mem.readByte_writeN_in _ hi (by rw [allOn, Nat.testBit_two_pow_sub_one]; exact decide_eq_true hi), Nat.zero_div]
  rfl

/-- A line reads as before a write of another. -/
theorem rawLine_putLine_off (h : Hw) {o p : Nat} (hp : p + 64 ≤ o ∨ o + 64 ≤ p) (v : Nat) : rawLine (putLine h o v) p = rawLine h p := by
  rw [rawLine, mem_putLine, rawLine, Mem.readN, Mem.readN]
  refine congrArg ofBytes (List.map_congr_left fun i hi => ?_)
  have := List.mem_range.1 hi
  exact Mem.readByte_writeN_out _ _ _ (by omega)

theorem ctrLine_putLine (h : Hw) (o v r p copy half : Nat) : ctrLine (putLine h o v) r p copy half = ctrLine h r p copy half := rfl

/-- Both copies of a page's block read 0 once both are written so. -/
theorem readCopy_writeCtr_zero {h : Hw} {r p : Nat} (hp : p < regPages h r) :
    readCopy (writeCtr h r p ⟨0, 0⟩) r p 0 = ⟨0, 0⟩ ∧ readCopy (writeCtr h r p ⟨0, 0⟩) r p 1 = ⟨0, 0⟩ := by
  simp only [writeCtr, writeCopy, readCopy, ctrLine_putLine]
  simp only [ctrLine]
  refine ⟨congrArg₂ CtrBlock.mk ?_ ?_, congrArg₂ CtrBlock.mk ?_ ?_⟩
  · rw [rawLine_putLine_off _ (by omega), rawLine_putLine_off _ (by omega), rawLine_putLine_off _ (by omega), rawLine_putLine_zero]
  · rw [rawLine_putLine_off _ (by omega), rawLine_putLine_off _ (by omega), rawLine_putLine_zero]
  · rw [rawLine_putLine_off _ (by omega), rawLine_putLine_zero]
  · rw [rawLine_putLine_zero]

theorem readCopy_forgetPages (h : Hw) (r p copy r' : Nat) (f : Nat → Bool) : readCopy (forgetPages h r' f) r p copy = readCopy h r p copy := rfl

theorem isPoisoned_forgetPages (h : Hw) {r p : Nat} (hp : p < 2 ^ 27) : isPoisoned (forgetPages h r (· == p)) r p = false := by
  have place : pageNo r p / 2 ^ 27 = r ∧ pageNo r p % 2 ^ 27 = p := by
    rw [pageNo]
    omega
  rw [isPoisoned, List.contains_eq_mem, decide_eq_false_iff_not]
  intro hm
  have kept := (List.mem_filter.1 hm).2
  rw [place.1, place.2] at kept
  simp at kept

theorem clearPage_leaves {h : Hw} {page r : Nat} (hr : regionAt h (page * 4096) = some r) (hp : page < 2 ^ 27) (m : Master) :
    readCopy (clearPage h m page) r (page - regBase h r) 0 = ⟨0, 0⟩ ∧ readCopy (clearPage h m page) r (page - regBase h r) 1 = ⟨0, 0⟩ ∧
      isPoisoned (clearPage h m page) r (page - regBase h r) = false := by
  have found := List.find?_some hr
  rw [Bool.and_eq_true, decide_eq_true_eq, Nat.mul_div_cancel _ (by decide : 0 < 4096)] at found
  obtain ⟨-, low, high⟩ := found
  have inside : page - regBase h r < regPages h r := by
    rw [regPages]
    omega
  obtain ⟨a, b⟩ := readCopy_writeCtr_zero inside
  have e : clearPage h m page = forgetPages (writeCtr h r (page - regBase h r) ⟨0, 0⟩) r (· == page - regBase h r) := by
    rw [clearPage, hr]
  rw [e, readCopy_forgetPages, readCopy_forgetPages]
  exact ⟨a, b, isPoisoned_forgetPages _ (by omega)⟩

end Sys2Proof.Machine
end

section
/-!
PROOF. Requests into the regions of the inline cipher (R403, R406, R407), and what the cipher's events leave.
-/
namespace Sys2Proof.Machine
open Sys2Proof

theorem inRegion_shut {h : Hw} {i r : Nat} {q : GReq} (hq : ready h i = some q) (hr : regionAt h (q.addr - dramBase) = some r)
    (hs : regionShut h r = true) (hk : q.kind ≠ .pwrite) (f : GReq → Hw) :
    inRegion h i f = answer (logAccess (dropDram h i) srcCipher q.m .tgterr q.addr) q .tgterr 0 := by
  rw [inRegion, hq]
  dsimp only
  rw [hr]
  dsimp only
  rw [if_pos hs, if_neg hk]

theorem inRegion_served {h : Hw} {i r : Nat} {q : GReq} (hq : ready h i = some q) (hr : regionAt h (q.addr - dramBase) = some r)
    (hs : regionShut h r = false) (hc : cached h r ((q.addr - dramBase) / 4096 - regBase h r) = true) (f : GReq → Hw) :
    inRegion h i f = f q := by
  rw [inRegion, hq]
  dsimp only
  rw [hr]
  dsimp only
  rw [if_neg (Bool.eq_false_iff.1 hs), if_pos hc]

theorem inRegion_none {h : Hw} {i : Nat} (hq : ready h i = none) (f : GReq → Hw) : inRegion h i f = h := by
  rw [inRegion, hq]

/-- The answer of a shut region. -/
theorem resps_shut {h : Hw} {i : Nat} {q : GReq} (hk : q.kind ≠ .pwrite) (hm : q.m ≠ .guest) :
    (answer (logAccess (dropDram h i) srcCipher q.m .tgterr q.addr) q .tgterr 0).gal.resps = h.gal.resps ++ [respOf q .tgterr 0] := by
  have logged : Kept (dropDram h i) (logAccess (dropDram h i) srcCipher q.m .tgterr q.addr) := kept_logErr ..
  rw [answer_eq hk hm, (answered_leaves _ _).1, logged.gal]
  rfl

/-! ### A served page -/

theorem page_line (o : Nat) : o / 64 * 64 / 4096 = o / 4096 := by omega

theorem loadLine_region {h : Hw} {o r : Nat} (hr : regionAt h o = some r) (hp : isPoisoned h r (o / 4096 - regBase h r) = false)
    (who : Nat) (seen : LineSeen) : ∃ t, LineKept h t ∧ t.mem = (lineSeen h who o seen).mem ∧
      loadLine h who o seen = (loaded (plainLine (lineSeen h who o seen) r o) seen, seen == .uncorrectable, t) := by
  have kept := LineKept.lineSeen h who o seen
  refine ⟨touchCache (lineSeen h who o seen) r (o / 4096 - regBase h r), kept.trans (.touchCache ..), mem_touchCache .., ?_⟩
  unfold loadLine
  dsimp only
  rw [kept.regionAt, hr]
  dsimp only
  rw [kept.regBase (lt_of_regionAt hr), kept.isPoisoned, if_neg (Bool.eq_false_iff.1 hp)]
  cases seen <;> rfl

theorem loadsAs_plainLine {h : Hw} {q : GReq} {r : Nat} (hr : regionAt h (q.addr - dramBase) = some r)
    (hp : isPoisoned h r ((q.addr - dramBase) / 4096 - regBase h r) = false) :
    LoadsAs h q fun g => plainLine g r ((q.addr - dramBase) / 64 * 64) := by
  intro g who found kept
  have region : regionAt g ((q.addr - dramBase) / 64 * 64) = some r := (kept.regionAt _).trans ((regionAt_line h _).trans hr)
  have whole : isPoisoned g r ((q.addr - dramBase) / 64 * 64 / 4096 - regBase g r) = false := by
    rw [kept.isPoisoned, kept.regBase (lt_of_regionAt hr), page_line, hp]
  exact loadLine_region region whole who found

theorem storeLine_leaves {h : Hw} {r o : Nat} (hp : isPoisoned h r (o / 4096 - regBase h r) = false)
    (he : h.dram.ended.contains (pageNo r (o / 4096 - regBase h r)) = false)
    (hm : (readCopy h r (o / 4096 - regBase h r) 0).minor (o / 64 % 64) < 2 ^ 14 - 1) (v : Nat) :
    ∃ t, storeLine h r o v = (.ok, t) ∧ LineKept h t := by
  have open_ : ¬ (isPoisoned h r (o / 4096 - regBase h r) || h.dram.ended.contains (pageNo r (o / 4096 - regBase h r))) = true := by
    rw [hp, he]; decide
  exact ⟨_, (if_neg open_).trans (if_pos hm),
    (((LineKept.putLine ..).trans (.putLine ..)).trans (.touchCache ..)).trans (.putLine ..)⟩

theorem saveLine_region {h : Hw} {r o be : Nat} (hr : regionAt h o = some r) (hb : be = 2 ^ 64 - 1)
    (hp : isPoisoned h r (o / 4096 - regBase h r) = false) (he : h.dram.ended.contains (pageNo r (o / 4096 - regBase h r)) = false)
    (hm : (readCopy h r (o / 4096 - regBase h r) 0).minor (o / 64 % 64) < 2 ^ 14 - 1) (who v : Nat) (seen : LineSeen) :
    ∃ t, saveLine h who o v be seen = (.ok, t) ∧ LineKept h t := by
  have whole : (be % 2 ^ 64 == 2 ^ 64 - 1) = true := by rw [hb]; decide
  have some : ¬ be % 2 ^ 64 = 0 := by rw [hb]; decide
  have act := LineKept.activate h (ddrMap h o)
  have mem := mem_activate h (ddrMap h o)
  have base := act.regBase (lt_of_regionAt hr)
  obtain ⟨t, stored, kept⟩ := storeLine_leaves (h := activate h (ddrMap h o)) (r := r) (o := o) (by rw [act.isPoisoned, base, hp])
    (by rw [act.ended, base, he]) (by rw [act.readCopy mem (lt_of_regionAt hr), base]; exact hm) (mergeBytes 64 0 v be)
  refine ⟨t, ?_, act.trans kept⟩
  unfold saveLine
  dsimp only
  rw [if_pos whole, if_neg some]
  dsimp only
  rw [act.regionAt, hr]
  dsimp only
  rw [act.isPoisoned, base, if_neg (Bool.eq_false_iff.1 hp), if_neg Bool.false_ne_true, stored]

/-- A write of a whole line of a served page. -/
theorem serveWrite_region {h : Hw} {i r : Nat} {q : GReq} (hr : regionAt h (q.addr - dramBase) = some r) (hb : dramBase ≤ q.addr)
    (hm : q.m ≠ .guest) (hk : q.kind = .write) (hz : q.size = 64) (ha : q.addr % 64 = 0) (hbe : q.be = allOn 64)
    (hp : isPoisoned h r ((q.addr - dramBase) / 4096 - regBase h r) = false)
    (he : h.dram.ended.contains (pageNo r ((q.addr - dramBase) / 4096 - regBase h r)) = false)
    (hmin : (readCopy h r ((q.addr - dramBase) / 4096 - regBase h r) 0).minor ((q.addr - dramBase) / 64 % 64) < 2 ^ 14 - 1)
    (seen : List LineErrs) :
    (serveWrite h i q seen).gal.resps = h.gal.resps ++ [respOf q .ok 0] ∧ (serveWrite h i q seen).dram.queue = h.dram.queue.eraseIdx i := by
  have kept := LineKept.judgeLine (dropDram h i) (ddrMap h (q.addr - dramBase)).ch (seen.getD 0 [])
  have mem := (mem_judgeLine (dropDram h i) (ddrMap h (q.addr - dramBase)).ch (seen.getD 0 [])).trans (mem_dropDram h i)
  cases hj : judgeLine (dropDram h i) (ddrMap h (q.addr - dramBase)).ch (seen.getD 0 []) with
  | mk found g =>
  rw [hj] at kept mem
  have line := mergeBytes_aligned hb ha
  have whole : q.be / 2 ^ 0 % 2 ^ q.size * 2 ^ ((q.addr - dramBase) % 64) = 2 ^ 64 - 1 := by
    rw [offset_mod hb, ha, hz, hbe]
    decide
  have region : regionAt g ((q.addr - dramBase) / 64 * 64) = some r := (kept.regionAt _).trans ((regionAt_line h _).trans hr)
  have base : regBase g r = regBase h r := kept.regBase (lt_of_regionAt hr)
  have copy (p : Nat) : readCopy g r p 0 = readCopy h r p 0 := (kept.readCopy (h := dropDram h i) mem (lt_of_regionAt hr) p 0)
  obtain ⟨t, saved, after⟩ := saveLine_region region whole (by rw [line, base, kept.isPoisoned]; exact hp) (by rw [line, base, kept.ended]; exact he)
    (by rw [line, base, copy]; exact hmin) (mcode q.m) (q.data / 256 ^ 0 * 256 ^ ((q.addr - dramBase) % 64)) found
  rw [serveWrite, writeLines_one (by omega) (by omega) (by rw [ddrMap_drop]; exact hj) saved]
  dsimp only
  rw [answer_eq (by rw [hk]; decide) hm]
  obtain ⟨resps, queue, -⟩ := answered_leaves t (respOf q .ok 0)
  rw [resps, queue, after.gal, after.queue, kept.gal, kept.queue]
  exact ⟨rfl, rfl⟩

theorem rd_zeroCounters (h : Hw) (r : Nat) (k : Key) : (zeroCounters h r).rd k = h.rd k := rfl

theorem setInstall_leaves (h : Hw) (r : Nat) : ((setInstall h r false).rd K.CIPH_STAT_INSTALL).testBit r = false ∧
    (setInstall h r false).mem = h.mem := by
  refine ⟨?_, rfl⟩
  rw [setInstall, Hw.rd_wr_self]
  exact testBit_setBitAt_false ..

/-- Settles O60: shut and served regions, the counter fetch, the install, the Meridian and the page clear. -/
theorem cipherRegions : Obligations.CipherRegions := by
  unfold Obligations.CipherRegions
  refine ⟨fun s i seen hq => ⟨⟨_, rfl, ?_⟩, ⟨_, rfl, ?_⟩⟩, fun s i r q seen hq hr hm => ⟨fun hk hs => ⟨_, rfl, ?_⟩, fun hk hs => ⟨_, rfl, ?_⟩,
      fun hs hc hb hp => ⟨fun hk hn hl => ⟨_, rfl, ?_⟩, fun hk hz ha hbe he hmin => ⟨_, rfl, ?_⟩⟩⟩,
    fun s r page hx hc hp => ?_, fun s r page a b hc => ⟨_, rfl, ?_⟩, fun s r hi => ⟨_, rfl, ?_⟩,
    fun s r key hk hb => ⟨_, rfl, meridian_leaves r.isLt hk hb⟩, fun s m page r hg hr => ⟨_, rfl, ?_⟩⟩
  · simp only [State.onHw, inRegion_none hq]
  · simp only [State.onHw, inRegion_none hq]
  · simp only [State.onHw]
    rw [inRegion_shut hq hr hs (by rw [hk]; decide)]
    exact resps_shut (by rw [hk]; decide) hm
  · simp only [State.onHw]
    rw [inRegion_shut hq hr hs (by rw [hk]; decide)]
    exact resps_shut (by rw [hk]; decide) hm
  · obtain ⟨-, ends⟩ := serveRead_leaves (V := fun g => plainLine g r ((q.addr - dramBase) / 64 * 64))
      (loadsAs_plainLine (h := dropDram s.hw i) hr hp) (fun g kept mem => kept.plainLine (h := dropDram s.hw i) mem (lt_of_regionAt hr) _)
      hk hm hn hl seen
    simp only [State.onHw]
    rw [inRegion_served hq hr hs hc, if_pos hk]
    revert ends
    cases (judgeLine s.hw (ddrMap s.hw (q.addr - dramBase)).ch (seen.getD 0 [])).1 <;> exact id
  · simp only [State.onHw]
    rw [inRegion_served hq hr hs hc, if_neg (by rw [hk]; decide)]
    exact serveWrite_region hr hb hm hk hz ha hbe hp he hmin seen
  · obtain ⟨q, hq, hr, hpage⟩ := hx
    have wanted : ((s.hw.dram.queue.any fun q => regionAt s.hw (q.addr - dramBase) == some r.val &&
        (q.addr - dramBase) / 4096 - regBase s.hw r.val == page) && !cached s.hw r.val page) = true := by
      rw [hc, Bool.not_false, Bool.and_true]
      exact List.any_eq_true.2 ⟨q, hq, by rw [hr, hpage, beq_self_eq_true, beq_self_eq_true]; rfl⟩
    refine ⟨⟨_, rfl, ?_⟩, fun a b hab => ⟨_, rfl, ?_⟩, ⟨_, rfl, ?_⟩⟩
    all_goals
      simp only [State.onHw]
      rw [if_pos wanted]
    · exact resolveCtr_both hp
    · exact resolveCtr_one hp hab
    · exact resolveCtr_none hp
  · simp only [State.onHw]
    rw [if_neg]
    rw [hc, Bool.not_true, Bool.and_false]
    exact Bool.false_ne_true
  · simp only [State.onHw]
    rw [if_pos hi]
    obtain ⟨flag, mem⟩ := setInstall_leaves (zeroCounters s.hw r.val) r.val
    exact ⟨flag, fun a hl hh => by rw [mem]; exact readByte_zeroCounters hl hh⟩
  · simp only [State.onHw]
    rw [gated_ok hg]
    exact clearPage_leaves hr page.isLt m

end Sys2Proof.Machine
end

section
/-!
PROOF. What a write to HUB.ADIT leaves of the TAP (R467 to R470), and the words written to its registers.
-/
namespace Sys2Proof.Machine
open Sys2Proof

/-- What holds of every value holds of this one. `induction e using of_every` keeps the kernel from evaluating e. -/
theorem of_every {α : Sort*} {motive : α → Prop} (every : ∀ x, motive x) (a : α) : motive a := every a

/-! ### The end of a session -/

/-- R holds between a state and the one the end of a session makes of it, since it holds over each of its parts. -/
structure SessionRel (R : Hw → Hw → Prop) : Prop where
  refl : ∀ h, R h h
  trans : ∀ {h t u}, R h t → R t u → R h u
  kept : ∀ {h t}, Kept h t → R h t
  claim : ∀ h n, R h (h.onDie n fun x => { x with eng := { x.eng with claim := none } })
  load : ∀ h l, R h { h with ldr := { h.ldr with load := l } }
  wr : ∀ h k v, R h (h.wr k v)
  dbg : ∀ h d, d.ir = h.dbg.ir → R h { h with dbg := d }
  pcie : ∀ h p, R h { h with pcie := p }

namespace SessionRel
variable {R : Hw → Hw → Prop} (rel : SessionRel R) {h t u : Hw}
include rel

theorem coreRel (c : Nat) : CoreRel R c where
  refl := rel.refl
  trans := rel.trans
  kept := rel.kept
  claim := rel.claim
  load := rel.load
  wr h _ _ v := rel.wr h _ v
  halt h := rel.wr h _ _

omit rel in
theorem ite {c : Prop} [Decidable c] (a : R h t) (b : R h u) : R h (if c then t else u) := by
  split
  · exact a
  · exact b

theorem foldl {α : Type} {f : Hw → α → Hw} (hf : ∀ h x, R h (f h x)) (l : List α) (h : Hw) : R h (l.foldl f h) :=
  List.foldlRecOn (motive := R h) l f (rel.refl h) fun t ht x _ => rel.trans ht (hf t x)

theorem refreshFrozen (h : Hw) : R h (refreshFrozen h) := by
  unfold Machine.refreshFrozen
  exact rel.trans (SessionRel.ite (rel.wr ..) (rel.refl h)) (rel.wr ..)

theorem resumeCore (h : Hw) (c : Core) (step : Bool) : R h (resumeCore h c step) := by
  unfold Machine.resumeCore
  dsimp only
  refine SessionRel.ite (rel.refl h) ?_
  have tail (g : Hw) (hg : R h g) : R h (Machine.refreshFrozen (dispatch (boundary g c))) :=
    rel.trans (rel.trans (rel.trans hg ((rel.coreRel c.val).boundary g)) (rel.kept (kept_dispatch _))) (rel.refreshFrozen _)
  have core := (rel.coreRel c.val).onCore
  refine tail _ ?_
  split
  · exact rel.trans (rel.trans (rel.trans (rel.wr ..) (core ..)) ((rel.coreRel c.val).setG _ _ _ _)) (core ..)
  · exact rel.trans (rel.wr ..) (core ..)

theorem complete (h : Hw) (tag : Nat) (st : Status) (data : Nat) : R h (complete h tag st data) := rel.pcie ..

theorem windowAnswer (h : Hw) (st : Status) (data : Nat) : R h (windowAnswer h st data) := by
  unfold Machine.windowAnswer
  split
  · exact rel.trans (rel.pcie ..) (rel.complete ..)
  · exact rel.refl h

theorem busCancel (h : Hw) : R h (busCancel h) := by
  unfold Machine.busCancel
  refine SessionRel.ite ?_ (rel.refl h)
  extract_lets win src g u
  have freed : R h g := rel.dbg h _ rfl
  have start : R h u := rel.trans freed (rel.trans (rel.wr ..) (rel.wr ..))
  exact rel.trans start (SessionRel.ite (rel.windowAnswer ..) (rel.refl u))

theorem logAccess (h : Hw) (s : Nat) (m : Master) (st : Status) (a : Nat) : R h (logAccess h s m st a) := rel.kept (kept_logErr ..)

theorem aperturesEnd (h : Hw) : R h (aperturesEnd h) := by
  unfold Machine.aperturesEnd
  have start : R h { h with dbg := { h.dbg with apertures := [] } } := rel.dbg h _ rfl
  refine rel.trans start (rel.foldl (fun g x => ?_) _ _)
  exact SessionRel.ite (rel.logAccess ..) (rel.complete ..)

theorem endSession (h : Hw) (cause : Nat) : R h (endSession h cause) := by
  unfold Machine.endSession
  refine SessionRel.ite (rel.refl h) ?_
  have one (g : Hw) (c : Core) : R g (let h := g.onCore c.val fun x => { x with stepping := false }
      if (h.core c.val).bootHalted then h else Machine.resumeCore h c false) := by
    extract_lets v
    have walks : R g v := (rel.coreRel c.val).onCore ..
    exact rel.trans walks (SessionRel.ite (rel.refl v) (rel.resumeCore ..))
  have cores (g : Hw) := rel.foldl one allCores g
  have points (g : Hw) := rel.foldl (fun (h : Hw) k => rel.wr h (K.ADIT_BP_EN k) 0) (List.range 4) g
  have ended (g : Hw) : R g (Machine.aperturesEnd (Machine.busCancel g)) := rel.trans (rel.busCancel g) (rel.aperturesEnd _)
  have closed (g : Hw) : R g (Machine.refreshFrozen (((g.wr K.ADIT_SESSION_OWNER 0).wr K.ADIT_SESSION_ATTACH 0).wr K.ADIT_SESSION_LOSTCAUSE cause)) :=
    rel.trans (rel.trans (rel.trans (rel.wr ..) (rel.wr ..)) (rel.wr ..)) (rel.refreshFrozen _)
  exact rel.trans (rel.trans (rel.trans (rel.trans (rel.wr h K.ADIT_HALT_REQ 0) (points _)) (cores _)) (ended _)) (closed _)

end SessionRel

/-! ### The instruction of the TAP -/

/-- The TAP's instruction is the same. -/
def IrKept (h t : Hw) : Prop := t.dbg.ir = h.dbg.ir

namespace IrKept
variable {h t u : Hw}

theorem refl (h : Hw) : IrKept h h := rfl
theorem trans (a : IrKept h t) (b : IrKept t u) : IrKept h u := Eq.trans b a
theorem of_kept (k : Kept h t) : IrKept h t := congrArg Debug.ir k.dbg
theorem wr (h : Hw) (k : Key) (v : Nat) : IrKept h (h.wr k v) := rfl
theorem onCore (h : Hw) (c : Nat) (f : CoreSt → CoreSt) : IrKept h (h.onCore c f) := rfl
theorem onMem (h : Hw) (m : Mem) : IrKept h { h with mem := m } := rfl

theorem sessionRel : SessionRel IrKept where
  refl := refl
  trans := trans
  kept := of_kept
  claim _ _ := rfl
  load _ _ := rfl
  wr _ _ _ := rfl
  dbg _ _ e := e
  pcie _ _ := rfl

theorem foldl {α : Type} {f : Hw → α → Hw} (hf : ∀ h x, IrKept h (f h x)) (l : List α) (h : Hw) : IrKept h (l.foldl f h) :=
  sessionRel.foldl hf l h
theorem ite {c : Prop} [Decidable c] (a : IrKept h t) (b : IrKept h u) : IrKept h (if c then t else u) := SessionRel.ite a b

theorem coreRel (c : Nat) : CoreRel IrKept c := sessionRel.coreRel c

theorem resumeCore (h : Hw) (c : Core) (step : Bool) : IrKept h (resumeCore h c step) := sessionRel.resumeCore h c step

theorem complete (h : Hw) (tag : Nat) (st : Status) (data : Nat) : IrKept h (complete h tag st data) := rfl

theorem windowAnswer (h : Hw) (st : Status) (data : Nat) : IrKept h (windowAnswer h st data) := sessionRel.windowAnswer h st data

theorem busEnds (h : Hw) (st : Status) (data : Nat) (read : Bool) : IrKept h (busEnds h st data read) := by
  unfold Machine.busEnds
  extract_lets win src g u v
  have start : IrKept h u := rfl
  exact start.trans (ite (windowAnswer ..) (IrKept.trans (t := v) (ite (wr ..) (refl u)) (ite (wr ..) (refl v))))

theorem busCancel (h : Hw) : IrKept h (busCancel h) := sessionRel.busCancel h

theorem logAccess (h : Hw) (s : Nat) (m : Master) (st : Status) (a : Nat) : IrKept h (logAccess h s m st a) := of_kept (kept_logErr ..)

theorem endSession (h : Hw) (cause : Nat) : IrKept h (endSession h cause) := sessionRel.endSession h cause

theorem attach (h : Hw) (f : Face) : IrKept h (attach h f) := ite ((wr ..).trans (wr ..)) (ite (refl h) (wr ..))

theorem detach (h : Hw) (f : Face) : IrKept h (detach h f) := ite (endSession ..) (ite (refl h) (wr ..))

theorem writeField (h : Hw) (m : Master) (f : Field) (data mask : Nat) : IrKept h (writeField h m f data mask) := by
  unfold Machine.writeField
  refine ite (refl h) ?_
  split
  · exact refl h
  · exact refl h
  · exact refl h
  · exact wr ..
  · exact wr ..
  · dsimp only
    split
    · exact wr ..
    · exact (wr ..).trans (of_kept (kept_logErr ..))
  · dsimp only
    split
    · rfl
    · unfold logClamp
      rfl

theorem writeReg (h : Hw) (m : Master) (a size data : Nat) : IrKept h (writeReg h m a size data) := by
  unfold Machine.writeReg
  dsimp only
  split
  · exact of_kept (kept_logErr ..)
  · exact foldl (fun g f => writeField ..) _ h

theorem setG (h : Hw) (c : Core) (r : Reg) (v : Word) : IrKept h (h.setG c r v) := (coreRel 0).setG h c r v

theorem writeShown (h : Hw) (r v : Nat) : IrKept h (writeShown h r v) :=
  ite (wr ..) (ite (ite (onCore ..) (wr ..)) (setG ..))

theorem busIssue (h : Hw) (w : Bool) (a size data : Nat) (window : Bool) : IrKept h (busIssue h w a size data window) := by
  unfold Machine.busIssue
  extract_lets src g
  have start : IrKept h g := rfl
  refine ite ?_ rfl
  exact (start.trans (ite (logAccess ..) (refl g))).trans (busEnds ..)

theorem apertureNext (h : Hw) : IrKept h (apertureNext h) := by
  unfold Machine.apertureNext
  refine ite (refl h) ?_
  split
  · exact refl h
  · rename_i rest _
    have start : IrKept h { h with dbg := { h.dbg with apertures := rest } } := rfl
    unfold apertureIssue
    refine start.trans (IrKept.trans ?_ (busIssue ..))
    exact ite (refl _) rfl

theorem storeBytes (h : Hw) (m : Master) (a n data be : Nat) : IrKept h (storeBytes h m a n data be) := by
  unfold Machine.storeBytes
  dsimp only
  refine ite ?_ (of_kept (kept_hubWrite ..))
  exact (of_kept (kept_tryWrite ..)).trans (ite (wr ..) (refl _))

theorem countRead (h : Hw) (who a n : Nat) : IrKept h (countRead h who a n) := by
  unfold Machine.countRead
  split
  · exact refl h
  · rename_i m _
    have counted (k : Key) : IrKept h (if (badBytes (h.mem.seen a n)).length - (deadBytes (h.mem.seen a n)).length = 0 then h else h.cnt k) :=
      ite (refl h) (wr ..)
    dsimp only
    split
    · exact ((counted _).trans (wr ..)).trans (of_kept (kept_logEntry ..))
    · split
      · exact counted _
      · refine ite (counted _) ?_
        have c := counted (K.ERR_CNT_CORR m)
        generalize (if (badBytes (h.mem.seen a n)).length - (deadBytes (h.mem.seen a n)).length = 0 then h else h.cnt (K.ERR_CNT_CORR m)) = g at c ⊢
        exact (c.trans (onMem ..)).trans (of_kept (kept_logEntry ..))

theorem pageWrite (h : Hw) (c off v : Nat) : IrKept h (pageWrite h c off v) :=
  ite (ite (wr ..) (refl h)) (ite (ite (wr ..) (refl h)) (ite (ite (wr ..) (refl h)) (refl h)))

theorem localBus (h : Hw) (c a size : Nat) (w : Bool) (data : Nat) : IrKept h (localBus h c a size w data).2.2 := by
  unfold Machine.localBus
  dsimp only
  simp only [apply_ite Prod.snd]
  generalize localBase + c * 0x40000 + (a - 0xFFFFFFFFFFFC0000) = p
  generalize a - 0xFFFFFFFFFFFBF000 = off
  generalize a - 0xFFFFFFFFFFF00000 = rom
  exact ite (ite (storeBytes ..) (countRead ..)) (ite (ite (refl h) (ite (pageWrite ..) (refl h))) (ite (ite (refl h) (refl h)) (refl h)))

theorem busGo (h : Hw) : IrKept h (busGo h) := by
  unfold Machine.busGo
  refine ite (wr ..) ?_
  extract_lets w a size data
  have bus := localBus h (h.rd K.ADIT_BUSCMD_CORE) a size w data
  generalize Machine.localBus h (h.rd K.ADIT_BUSCMD_CORE) a size w data = l at bus ⊢
  obtain ⟨st, v, g⟩ := l
  exact ite (ite (busEnds ..) (IrKept.trans bus (busEnds ..))) (busIssue ..)

theorem requestReset (h : Hw) (cold : Bool) (cause : Key) : IrKept h (requestReset h cold cause) := by
  unfold Machine.requestReset
  dsimp only
  exact ite (wr ..) rfl

theorem requestDie (h : Hw) (n src : Nat) : IrKept h (requestDie h n src) := ite (refl h) rfl

theorem aditReset (h : Hw) (reach n : Nat) : IrKept h (aditReset h reach n) := by
  unfold Machine.aditReset
  split
  · exact requestReset ..
  · exact requestReset ..
  · exact ite (of_kept (kept_logErr ..)) (requestDie ..)
  · exact of_kept (kept_logErr ..)

theorem writeDrx (h : Hw) (c v : Nat) : IrKept h (writeDrx h c v) := ite (wr ..) ((wr ..).trans (wr ..))

theorem stepCore (h : Hw) (c : Core) : IrKept h (stepCore h c) := ite (wr ..) (ite (resumeCore ..) (refl h))

/-- A write to HUB.ADIT selects no instruction. -/
theorem aditWrite (h : Hw) (f : Face) (a size data : Nat) : IrKept h (aditWrite h f a size data) := by
  unfold Machine.aditWrite
  induction a / 8 * 8 - 0x1C00000 using of_every with
  | every off =>
  induction regIndex using of_every with
  | every index =>
  dsimp only
  refine ite (ite (refl h) (ite (attach ..) (detach ..))) (ite (writeReg ..) (ite (wr ..) ?_))
  split
  · exact writeShown ..
  · have cmd (g : Hw) (b c : Bool) : IrKept g (Machine.apertureNext (if c = true then Machine.busGo (if b = true then Machine.busCancel g else g)
        else if b = true then Machine.busCancel g else g)) :=
      (ite (c := b = true) (busCancel g) (refl g)).trans ((ite (busGo ..) (refl _)).trans (apertureNext _))
    exact ite ((writeReg ..).trans (cmd ..)) (ite (ite (aditReset ..) (refl h)) (ite (wr ..)
      (ite (foldl (fun g c => ite (resumeCore ..) (refl g)) _ h) (ite (ite (stepCore ..) (refl h)) (ite (ite (writeDrx ..) (refl h)) (writeReg ..))))))

end IrKept

end Sys2Proof.Machine
end

section
/-!
PROOF. The registers of HUB.ADIT that sessions and the debug bus master use (R472 to R475).
-/
namespace Sys2Proof.Machine
open Sys2Proof

/-! ### Fields written as a whole -/

theorem wr_congr (h : Hw) (k : Key) {v w : Nat} (e : v % 2 ^ k.w = w % 2 ^ k.w) : h.wr k v = h.wr k w := by rw [Hw.wr, e, Hw.wr]

theorem mergeBits_whole (q v w : Nat) : mergeBits q (2 ^ w - 1) v % 2 ^ w = v % 2 ^ w := by
  rw [mergeBits, Nat.and_two_pow_sub_one_eq_mod, Nat.xor_mod_two_pow, Nat.mod_mod, Nat.xor_mod_two_pow, ← Nat.xor_assoc, Nat.xor_self, Nat.zero_xor]

/-- A field of which a write names every bit takes the data's. -/
theorem writeField_whole (h : Hw) (m : Master) {f : Field} (hf : f.acc = .rw) (hc : f.chk = .any) {mask : Nat}
    (hm : fieldIn f.key mask = 2 ^ f.key.w - 1) (hw : f.key.w ≠ 0) (data : Nat) :
    writeField h m f data mask = h.wr f.key (fieldIn f.key data) := by
  have some : ¬ fieldIn f.key mask = 0 := by
    have := Nat.one_lt_two_pow hw
    omega
  rw [writeField, if_neg some, hf, hc]
  refine wr_congr h f.key ?_
  rw [merged, hm, mergeBits_whole]

theorem writeField_wo (h : Hw) (m : Master) {f : Field} (hf : f.acc = .wo) (data mask : Nat) : writeField h m f data mask = h := by
  rw [writeField, hf]
  split
  · rfl
  · rfl

theorem fieldsAt_busAddr : fieldsAt 0x1C00010 = [⟨K.ADIT_BUSADDR_ADDR, .rw, .W, .any⟩] := rfl
theorem fieldsAt_busCmd : fieldsAt (aditAddr 0x20) = [⟨K.ADIT_BUSCMD_CORE, .rw, .W, .any⟩, ⟨K.ADIT_BUSCMD_LOCAL, .rw, .W, .any⟩,
    ⟨K.ADIT_BUSCMD_AUTOINC, .rw, .W, .any⟩, ⟨K.ADIT_BUSCMD_SIZE, .rw, .W, .any⟩, ⟨K.ADIT_BUSCMD_CANCEL, .wo, .W, .any⟩,
    ⟨K.ADIT_BUSCMD_WRITE, .rw, .W, .any⟩, ⟨K.ADIT_BUSCMD_GO, .wo, .W, .any⟩] := rfl

theorem writeReg_eq {h : Hw} {m : Master} {a : Nat} {f : Field} {fs : List Field} (hf : fieldsAt (a / 8 * 8) = f :: fs) (size data : Nat) :
    writeReg h m a size data = (f :: fs).foldl (fun h f => writeField h m f (placed a size data) (writeMask64 a size)) h := by
  rw [writeReg, hf]

theorem placed_data (a : Nat) {d : Nat} (hd : d < 2 ^ 64) : placed a 8 d = d := by rw [placed, if_pos rfl, Nat.mod_eq_of_lt hd]

/-- A whole word written at BUSADDR. -/
theorem writeReg_busAddr (h : Hw) {d : Nat} (hd : d < 2 ^ 64) : writeReg h .adit (aditAddr 0x10) 8 d = h.wr K.ADIT_BUSADDR_ADDR d := by
  refine (writeReg_eq (f := ⟨K.ADIT_BUSADDR_ADDR, .rw, .W, .any⟩) (fs := []) fieldsAt_busAddr 8 d).trans ?_
  rw [List.foldl_cons, List.foldl_nil, placed_data _ hd, writeField_whole h .adit rfl rfl (by decide) (by decide)]
  refine wr_congr h _ ?_
  rw [fieldIn]
  exact (Nat.mod_mod _ _).trans (congrArg (· % 2 ^ 64) (Nat.div_one d))

/-- A whole word written at BUSCMD: GO and CANCEL hold nothing. -/
theorem writeReg_busCmd (h : Hw) {d : Nat} (hd : d < 2 ^ 64) : writeReg h .adit (aditAddr 0x20) 8 d =
    ((((h.wr K.ADIT_BUSCMD_CORE (fieldIn K.ADIT_BUSCMD_CORE d)).wr K.ADIT_BUSCMD_LOCAL (fieldIn K.ADIT_BUSCMD_LOCAL d)).wr
      K.ADIT_BUSCMD_AUTOINC (fieldIn K.ADIT_BUSCMD_AUTOINC d)).wr K.ADIT_BUSCMD_SIZE (fieldIn K.ADIT_BUSCMD_SIZE d)).wr
        K.ADIT_BUSCMD_WRITE (fieldIn K.ADIT_BUSCMD_WRITE d) := by
  refine (writeReg_eq (f := ⟨K.ADIT_BUSCMD_CORE, .rw, .W, .any⟩) fieldsAt_busCmd 8 d).trans ?_
  have whole (g : Hw) {k : Key} (hm : fieldIn k (writeMask64 (aditAddr 0x20) 8) = 2 ^ k.w - 1) (hk : k.w ≠ 0) :
      writeField g .adit ⟨k, .rw, .W, .any⟩ d (writeMask64 (aditAddr 0x20) 8) = g.wr k (fieldIn k d) :=
    writeField_whole g .adit rfl rfl hm hk d
  have none_ (g : Hw) (k : Key) : writeField g .adit ⟨k, .wo, .W, .any⟩ d (writeMask64 (aditAddr 0x20) 8) = g := writeField_wo g .adit rfl ..
  simp only [List.foldl_cons, List.foldl_nil]
  rw [placed_data _ hd, none_, whole _ (k := K.ADIT_BUSCMD_WRITE) (by decide) (by decide), none_,
    whole _ (k := K.ADIT_BUSCMD_SIZE) (by decide) (by decide), whole _ (k := K.ADIT_BUSCMD_AUTOINC) (by decide) (by decide),
    whole _ (k := K.ADIT_BUSCMD_LOCAL) (by decide) (by decide), whole _ (k := K.ADIT_BUSCMD_CORE) (by decide) (by decide)]

/-! ### Writes to the block -/

theorem aditWrite_session (h : Hw) (f : Face) {d : Nat} (hd : d < 2 ^ 64) : aditWrite h f (aditAddr 0) 8 d =
    if d.testBit 0 then attach h f else detach h f := by
  rw [aditWrite]
  dsimp only
  rw [placed_word _ hd, aditAddr_off rfl, if_pos rfl, if_neg (by decide)]

theorem aditWrite_unowned {h : Hw} {f : Face} (ho : faceOwns h f = false) {off : Nat} (h8 : off % 8 = 0) (hoff : 16 ≤ off) (d : Nat) :
    aditWrite h f (aditAddr off) 8 d = setRefused h := by
  unfold aditWrite
  rw [aditAddr_off h8]
  dsimp only
  rw [if_neg (by omega), if_neg (by omega), if_pos (by rw [ho]; rfl)]

theorem aditWrite_busAddr {h : Hw} {f : Face} (ho : faceOwns h f = true) {d : Nat} (hd : d < 2 ^ 64) :
    aditWrite h f (aditAddr 0x10) 8 d = h.wr K.ADIT_BUSADDR_ADDR d := by
  rw [aditWrite]
  dsimp only
  rw [placed_word _ hd, aditAddr_off rfl, regIndex_of_lt (by decide)]
  simp only [ho]
  exact writeReg_busAddr h hd

theorem aditWrite_busCmd {h : Hw} {f : Face} (ho : faceOwns h f = true) {d : Nat} (hd : d < 2 ^ 64) :
    aditWrite h f (aditAddr 0x20) 8 d =
      let g := writeReg h .adit (aditAddr 0x20) 8 d
      let c := if d.testBit 2 then busCancel g else g
      apertureNext (if d.testBit 0 then busGo c else c) := by
  rw [aditWrite]
  dsimp only
  rw [placed_word _ hd, aditAddr_off rfl, regIndex_of_lt (by decide)]
  simp only [ho]
  rfl

/-! ### A command word -/

/-- BUSCMD as it stands, but for WRITE. -/
structure CmdWritten (h g : Hw) (wr : Bool) : Prop where
  gal : g.gal = h.gal
  dbg : g.dbg = h.dbg
  off : ∀ k : Key, k.lo < 64 → k.addr ≠ 0x1C00020 → g.rd k = h.rd k
  size : busSize g = busSize h
  notLocal : g.bit K.ADIT_BUSCMD_LOCAL = h.bit K.ADIT_BUSCMD_LOCAL
  write : g.bit K.ADIT_BUSCMD_WRITE = wr

theorem regVal_busCmd (h : Hw) : regVal h (aditAddr 0x20) = h.rd K.ADIT_BUSCMD_CORE * 2 ^ 10 + h.rd K.ADIT_BUSCMD_LOCAL * 2 ^ 9 +
    h.rd K.ADIT_BUSCMD_AUTOINC * 2 ^ 8 + h.rd K.ADIT_BUSCMD_SIZE * 2 ^ 6 + h.rd K.ADIT_BUSCMD_WRITE * 2 ^ 1 := by
  rw [regVal, fieldsAt_busCmd]
  simp only [List.foldl_cons, List.foldl_nil, reduceCtorEq, if_false, if_true, Nat.zero_add]
  rfl

theorem busWord_bits (h : Hw) (wr go cancel : Bool) : (busWord h wr go cancel).testBit 0 = go ∧ (busWord h wr go cancel).testBit 2 = cancel := by
  have b (x : Bool) : b2n x ≤ 1 := by cases x <;> decide
  have := b wr
  have := b go
  have := b cancel
  refine ⟨?_, ?_⟩
  · rw [Nat.testBit_zero, busWord]
    have e : (regVal h (aditAddr 0x20) / 8 * 8 + 4 * b2n cancel + 2 * b2n wr + b2n go) % 2 = b2n go := by omega
    rw [e]
    cases go <;> rfl
  · rw [Nat.testBit_eq_decide_div_mod_eq, busWord]
    have e : (regVal h (aditAddr 0x20) / 8 * 8 + 4 * b2n cancel + 2 * b2n wr + b2n go) / 2 ^ 2 % 2 = b2n cancel := by omega
    rw [e]
    cases cancel <;> rfl

section
variable {h : Hw} (hw : ∀ x ∈ fieldsAt (aditAddr 0x20), h.rd x.key < 2 ^ x.key.w)
include hw

theorem busCmd_lt : h.rd K.ADIT_BUSCMD_CORE < 64 ∧ h.rd K.ADIT_BUSCMD_LOCAL < 2 ∧ h.rd K.ADIT_BUSCMD_AUTOINC < 2 ∧
    h.rd K.ADIT_BUSCMD_SIZE < 4 ∧ h.rd K.ADIT_BUSCMD_WRITE < 2 := by
  rw [fieldsAt_busCmd] at hw
  simp only [List.mem_cons, List.not_mem_nil, or_false, forall_eq_or_imp, forall_eq] at hw
  obtain ⟨core, loc, inc, size, -, write, -⟩ := hw
  exact ⟨core, loc, inc, size, write⟩

variable (wr go cancel : Bool)

theorem busWord_lt : busWord h wr go cancel < 2 ^ 64 := by
  obtain ⟨core, loc, inc, size, write⟩ := busCmd_lt hw
  rw [busWord, regVal_busCmd]
  have b (x : Bool) : b2n x ≤ 1 := by cases x <;> decide
  have := b wr
  have := b go
  have := b cancel
  omega

theorem busWord_fields : fieldIn K.ADIT_BUSCMD_CORE (busWord h wr go cancel) = h.rd K.ADIT_BUSCMD_CORE ∧
    fieldIn K.ADIT_BUSCMD_LOCAL (busWord h wr go cancel) = h.rd K.ADIT_BUSCMD_LOCAL ∧
    fieldIn K.ADIT_BUSCMD_AUTOINC (busWord h wr go cancel) = h.rd K.ADIT_BUSCMD_AUTOINC ∧
    fieldIn K.ADIT_BUSCMD_SIZE (busWord h wr go cancel) = h.rd K.ADIT_BUSCMD_SIZE ∧
    fieldIn K.ADIT_BUSCMD_WRITE (busWord h wr go cancel) = b2n wr := by
  obtain ⟨core, loc, inc, size, write⟩ := busCmd_lt hw
  rw [busWord, regVal_busCmd]
  have b (x : Bool) : b2n x ≤ 1 := by cases x <;> decide
  have := b wr
  have := b go
  have := b cancel
  simp only [fieldIn, K.ADIT_BUSCMD_CORE, K.ADIT_BUSCMD_LOCAL, K.ADIT_BUSCMD_AUTOINC, K.ADIT_BUSCMD_SIZE, K.ADIT_BUSCMD_WRITE] at *
  refine ⟨?_, ?_, ?_, ?_, ?_⟩ <;> omega

theorem cmdWritten : CmdWritten h (writeReg h .adit (aditAddr 0x20) 8 (busWord h wr go cancel)) wr := by
  obtain ⟨core, loc, inc, size, write⟩ := busWord_fields hw wr go cancel
  obtain ⟨coreLt, locLt, incLt, sizeLt, -⟩ := busCmd_lt hw
  rw [writeReg_busCmd h (busWord_lt hw wr go cancel), core, loc, inc, size, write]
  have ne {k j : Key} (hl : k.lo < 64) (ha : k.addr ≠ 0x1C00020) (hj : j.addr = 0x1C00020 ∧ j.lo < 64) : k.id ≠ j.id := by
    unfold Key.id
    omega
  refine ⟨rfl, rfl, fun k hl ha => ?_, ?_, ?_, ?_⟩
  · rw [Hw.rd_wr_ne _ (ne hl ha ⟨rfl, by decide⟩), Hw.rd_wr_ne _ (ne hl ha ⟨rfl, by decide⟩), Hw.rd_wr_ne _ (ne hl ha ⟨rfl, by decide⟩),
      Hw.rd_wr_ne _ (ne hl ha ⟨rfl, by decide⟩), Hw.rd_wr_ne _ (ne hl ha ⟨rfl, by decide⟩)]
  · rw [busSize, Hw.rd_wr_ne _ (by decide), Hw.rd_wr_self]
    exact congrArg (2 ^ ·) (Nat.mod_eq_of_lt sizeLt)
  · rw [Hw.bit, Hw.rd_wr_ne _ (by decide), Hw.rd_wr_ne _ (by decide), Hw.rd_wr_ne _ (by decide), Hw.rd_wr_self]
    exact congrArg (· != 0) (Nat.mod_eq_of_lt locLt)
  · rw [Hw.bit, Hw.rd_wr_self]
    cases wr <;> rfl

end

end Sys2Proof.Machine
end

section
/-!
PROOF. Sessions of Adit, the TAP's instructions and the debug bus master (R467 to R475).
-/
namespace Sys2Proof.Machine
open Sys2Proof

/-! ### Sessions -/

section
variable {h : Hw} {f : Face}

theorem endSession_leaves (ho : owner h ≠ 0) {cause : Nat} (hc : cause < 4) :
    owner (endSession h cause) = 0 ∧ (endSession h cause).rd K.ADIT_SESSION_LOSTCAUSE = cause := by
  rw [endSession, if_neg ho]
  dsimp only
  generalize aperturesEnd (busCancel _) = g
  obtain ⟨-, -, rd⟩ := refreshFrozen_leaves (((g.wr K.ADIT_SESSION_OWNER 0).wr K.ADIT_SESSION_ATTACH 0).wr K.ADIT_SESSION_LOSTCAUSE cause)
  rw [owner, rd _ (by decide) (by decide), rd _ (by decide) (by decide), Hw.rd_wr_ne _ (by decide), Hw.rd_wr_ne _ (by decide), Hw.rd_wr_self,
    Hw.rd_wr_self]
  exact ⟨rfl, Nat.mod_eq_of_lt hc⟩

theorem attach_leaves (ho : owner h = 0) (f : Face) : faceOwns (attach h f) f = true ∧ owner (attach h f) = faceCode f ∧
    (attach h f).rd K.ADIT_SESSION_ATTACH = 1 := by
  have code : owner (attach h f) = faceCode f := by
    rw [attach, if_pos ho, owner, Hw.rd_wr_ne _ (by decide), Hw.rd_wr_self]
    cases f <;> rfl
  refine ⟨by rw [faceOwns, code, beq_self_eq_true], code, ?_⟩
  rw [attach, if_pos ho, Hw.rd_wr_self]
  rfl

theorem setRefused_leaves (h : Hw) : (setRefused h).rd K.ADIT_STAT_REFUSED = 1 ∧ owner (setRefused h) = owner h :=
  ⟨Hw.rd_wr_self .., Hw.rd_wr_ne h (by decide) 1⟩

theorem owner_of_faceOwns (ho : faceOwns h f = true) : owner h ≠ 0 := by
  rw [faceOwns, beq_iff_eq] at ho
  rw [ho]
  cases f <;> decide

theorem attach_refused (ho : owner h ≠ 0) (hf : faceOwns h f = false) : attach h f = setRefused h := by
  rw [attach, if_neg ho, if_neg (Bool.eq_false_iff.1 hf)]

theorem detach_refused (ho : owner h ≠ 0) (hf : faceOwns h f = false) : detach h f = setRefused h := by
  rw [detach, if_neg (Bool.eq_false_iff.1 hf), if_neg ho]

theorem detach_owned (hf : faceOwns h f = true) : detach h f = endSession h lostDetach := by rw [detach, if_pos hf]

theorem faceOwns_tap : faceOwns h .tap = true ↔ owner h = 1 := by rw [faceOwns, beq_iff_eq]; rfl

theorem owner_selectIr (h : Hw) (ir : Nat) : owner (selectIr h ir) = owner h := rfl

theorem faceOwns_selectIr (h : Hw) (ir : Nat) (f : Face) : faceOwns (selectIr h ir) f = faceOwns h f := rfl

theorem tapReset_leaves (h : Hw) : (tapReset h).dbg.ir = 2 ∧ (owner h = 1 → owner (tapReset h) = 0) := by
  refine ⟨rfl, fun ho => ?_⟩
  rw [tapReset, if_pos (faceOwns_tap.2 ho)]
  exact (owner_selectIr ..).trans (endSession_leaves (by omega) (by decide)).1

end

/-! ### The bus master -/

section
variable {h : Hw}

/-- A bus transaction put on the Gallery. -/
theorem busIssue_leaves {a size : Nat} (ha : a % size = 0) (wr : Bool) (data : Nat) (window : Bool) :
    (busIssue h wr a size data window).rd K.ADIT_STAT_BUSY = 1 ∧ (busIssue h wr a size data window).dbg.bus = some h.gal.nextId ∧
      (busIssue h wr a size data window).gal.reqs = h.gal.reqs ++
        [⟨h.gal.nextId, .adit, if wr then .write else .read, a, size, data % 256 ^ size, allOn size, 0⟩] := by
  have e : busIssue h wr a size data window = { (issue ({ h with dbg := { h.dbg with fromWindow := window } }.wr K.ADIT_STAT_BUSY 1) .adit
      (if wr then .write else .read) a size (data % 256 ^ size) (allOn size) 0).2 with dbg := { h.dbg with fromWindow := window, bus := some h.gal.nextId } } :=
    if_neg (not_not.2 ha)
  rw [e]
  exact ⟨Hw.rd_wr_self { h with dbg := { h.dbg with fromWindow := window } } K.ADIT_STAT_BUSY 1, rfl, rfl⟩

theorem apertureNext_busy (hb : h.rd K.ADIT_STAT_BUSY = 1) : apertureNext h = h := by
  rw [apertureNext, if_pos (by rw [Hw.bit, hb]; rfl)]

theorem apertureNext_none (ha : h.dbg.apertures = []) : apertureNext h = h := by
  rw [apertureNext, ha]
  split
  · rfl
  · rfl

theorem windowAnswer_leaves (h : Hw) (st : Status) (data : Nat) : (windowAnswer h st data).csr = h.csr ∧ (windowAnswer h st data).dbg = h.dbg := by
  unfold windowAnswer
  split
  · exact ⟨rfl, rfl⟩
  · exact ⟨rfl, rfl⟩

theorem busCancel_leaves (hb : h.bit K.ADIT_STAT_BUSY = true) : (busCancel h).rd K.ADIT_STAT_BUSY = 0 ∧
    (busCancel h).rd K.ADIT_STAT_BUSSTATUS = 3 ∧ (busCancel h).dbg.bus = none ∧ (busCancel h).dbg.apertures = h.dbg.apertures := by
  rw [busCancel, if_pos hb]
  extract_lets win src g t
  have ended : t.rd K.ADIT_STAT_BUSY = 0 ∧ t.rd K.ADIT_STAT_BUSSTATUS = 3 ∧ t.dbg.bus = none ∧ t.dbg.apertures = h.dbg.apertures :=
    ⟨(Hw.rd_wr_ne _ (by decide) _).trans (Hw.rd_wr_self ..), Hw.rd_wr_self .., rfl, rfl⟩
  split
  · obtain ⟨csr, dbg⟩ := windowAnswer_leaves t .tgterr 0
    rw [Hw.rd, Hw.rd, csr, dbg]
    exact ended
  · exact ended

theorem scode_lt (st : Status) : scode st < 8 := by cases st <;> decide

theorem busEnds_leaves (hw : h.dbg.fromWindow = false) (st : Status) (data : Nat) (read : Bool) :
    (busEnds h st data read).rd K.ADIT_STAT_BUSY = 0 ∧ (busEnds h st data read).rd K.ADIT_STAT_BUSSTATUS = scode st ∧
      (busEnds h st data read).dbg.bus = none ∧ (busEnds h st data read).dbg.apertures = h.dbg.apertures ∧
      (read = true → st = .ok → (busEnds h st data read).rd K.ADIT_BUSDATA_DATA = data % 2 ^ 64) := by
  unfold busEnds
  extract_lets win src g t u
  have plain : ¬ win = true := by simp only [win, hw]; decide
  rw [if_neg plain]
  have ended : t.rd K.ADIT_STAT_BUSY = 0 ∧ t.rd K.ADIT_STAT_BUSSTATUS = scode st ∧ t.dbg.bus = none ∧ t.dbg.apertures = h.dbg.apertures :=
    ⟨(Hw.rd_wr_ne _ (by decide) _).trans (Hw.rd_wr_self ..), (Hw.rd_wr_self ..).trans (Nat.mod_eq_of_lt (scode_lt st)), rfl, rfl⟩
  have stored : u.rd K.ADIT_STAT_BUSY = 0 ∧ u.rd K.ADIT_STAT_BUSSTATUS = scode st ∧ u.dbg.bus = none ∧ u.dbg.apertures = h.dbg.apertures ∧
      (read = true → st = .ok → u.rd K.ADIT_BUSDATA_DATA = data % 2 ^ 64) := by
    obtain ⟨busy, status, bus, waiting⟩ := ended
    unfold u
    split
    · exact ⟨(Hw.rd_wr_ne t (by decide) data).trans busy, (Hw.rd_wr_ne t (by decide) data).trans status, bus, waiting, fun _ _ => Hw.rd_wr_self ..⟩
    · rename_i none_
      exact ⟨busy, status, bus, waiting, fun hr hs => absurd (by rw [hr, hs]; rfl) none_⟩
  obtain ⟨busy, status, bus, waiting, got⟩ := stored
  split
  · exact ⟨(Hw.rd_wr_ne u (by decide) _).trans busy, (Hw.rd_wr_ne u (by decide) _).trans status, bus, waiting,
      fun hr hs => (Hw.rd_wr_ne u (by decide) _).trans (got hr hs)⟩
  · exact ⟨busy, status, bus, waiting, got⟩

theorem busArrives_leaves {id : Nat} {r : GResp} {g : Hw} (hb : h.dbg.bus = some id) (ht : takeArrived h id = some (r, g))
    (hw : h.dbg.fromWindow = false) (ha : h.dbg.apertures = []) : (busArrives h).rd K.ADIT_STAT_BUSY = 0 ∧
      (busArrives h).rd K.ADIT_STAT_BUSSTATUS = scode r.status ∧ (busArrives h).dbg.bus = none ∧
      (r.kind = .read → r.status = .ok → (busArrives h).rd K.ADIT_BUSDATA_DATA = r.data % 2 ^ 64) := by
  have dbg : g.dbg = h.dbg := by
    unfold takeArrived at ht
    split at ht
    · cases ht
      rfl
    · cases ht
  obtain ⟨busy, status, bus, waiting, got⟩ := busEnds_leaves (h := g) (by rw [dbg, hw]) r.status r.data (r.kind == .read)
  have e : busArrives h = busEnds g r.status r.data (r.kind == .read) := by
    rw [busArrives, hb]
    dsimp only
    rw [ht]
    dsimp only
    exact apertureNext_none (by rw [waiting, dbg, ha])
  rw [e]
  exact ⟨busy, status, bus, fun hk hs => got (by rw [hk]; rfl) hs⟩

variable {f : Face} (ho : faceOwns h f = true) (hw : ∀ x ∈ fieldsAt (aditAddr 0x20), h.rd x.key < 2 ^ x.key.w)
include ho hw

theorem busGo_leaves (hb : h.bit K.ADIT_STAT_BUSY = false) (hl : h.bit K.ADIT_BUSCMD_LOCAL = false)
    (ha : h.rd K.ADIT_BUSADDR_ADDR % busSize h = 0) (wr : Bool) {t : Hw} (ht : t = aditWrite h f (aditAddr 0x20) 8 (busWord h wr true false)) :
    t.rd K.ADIT_STAT_BUSY = 1 ∧ t.dbg.bus = some h.gal.nextId ∧ t.gal.reqs = h.gal.reqs ++ [⟨h.gal.nextId, .adit, if wr then .write else .read,
      h.rd K.ADIT_BUSADDR_ADDR, busSize h, h.rd K.ADIT_BUSDATA_DATA % 256 ^ busSize h, allOn (busSize h), 0⟩] := by
  have cmd := cmdWritten hw wr true false
  obtain ⟨go, cancel⟩ := busWord_bits h wr true false
  rw [aditWrite_busCmd ho (busWord_lt hw wr true false)] at ht
  dsimp only at ht
  rw [go, cancel, if_neg Bool.false_ne_true, if_pos rfl] at ht
  generalize writeReg h .adit (aditAddr 0x20) 8 (busWord h wr true false) = g at cmd ht
  have free : ¬ g.bit K.ADIT_STAT_BUSY = true := by
    rw [Hw.bit, cmd.off K.ADIT_STAT_BUSY (by decide) (by decide)]
    exact Bool.eq_false_iff.1 hb
  have hub : ¬ g.bit K.ADIT_BUSCMD_LOCAL = true := by
    rw [cmd.notLocal]
    exact Bool.eq_false_iff.1 hl
  have addr := cmd.off K.ADIT_BUSADDR_ADDR (by decide) (by decide)
  have data := cmd.off K.ADIT_BUSDATA_DATA (by decide) (by decide)
  have issued : busGo g = busIssue g wr (h.rd K.ADIT_BUSADDR_ADDR) (busSize h) (h.rd K.ADIT_BUSDATA_DATA) false := by
    rw [busGo, if_neg free]
    dsimp only
    rw [if_neg hub, cmd.write, addr, cmd.size, data]
  obtain ⟨busy, bus, reqs⟩ := busIssue_leaves (h := g) ha wr (h.rd K.ADIT_BUSDATA_DATA) false
  rw [issued, apertureNext_busy busy] at ht
  rw [ht]
  rw [cmd.gal] at bus reqs
  exact ⟨busy, bus, reqs⟩

theorem busCancel_writes (hb : h.bit K.ADIT_STAT_BUSY = true) (ha : h.dbg.apertures = []) {t : Hw}
    (ht : t = aditWrite h f (aditAddr 0x20) 8 (busWord h (h.bit K.ADIT_BUSCMD_WRITE) false true)) :
    t.rd K.ADIT_STAT_BUSY = 0 ∧ t.rd K.ADIT_STAT_BUSSTATUS = 3 ∧ t.dbg.bus = none := by
  have cmd := cmdWritten hw (h.bit K.ADIT_BUSCMD_WRITE) false true
  obtain ⟨go, cancel⟩ := busWord_bits h (h.bit K.ADIT_BUSCMD_WRITE) false true
  rw [aditWrite_busCmd ho (busWord_lt hw _ false true)] at ht
  dsimp only at ht
  rw [go, cancel, if_pos rfl, if_neg Bool.false_ne_true] at ht
  generalize writeReg h .adit (aditAddr 0x20) 8 (busWord h (h.bit K.ADIT_BUSCMD_WRITE) false true) = g at cmd ht
  have busy : g.bit K.ADIT_STAT_BUSY = true := by
    rw [Hw.bit, cmd.off K.ADIT_STAT_BUSY (by decide) (by decide)]
    exact hb
  obtain ⟨free, status, bus, waiting⟩ := busCancel_leaves busy
  rw [apertureNext_none (by rw [waiting, cmd.dbg, ha])] at ht
  rw [ht]
  exact ⟨free, status, bus⟩

end

/-! ### Triggers of the TAP -/

theorem csrGate_selectIr (h : Hw) (ir : Nat) (m : Master) (w : Bool) (a : Nat) : csrGate (selectIr h ir) m w a = csrGate h m w a := rfl

theorem tapTrigger_leaves {h : Hw} {dies profile : Nat} (hd : dies % 16 ≠ 0) :
    (htrig h .adit dies profile).strata.inFlight = h.strata.inFlight ++ [⟨h.now, 2, 0, profile % 8, dies % 16, none, 0x6000⟩] ∧
      (htrig h .adit dies profile).dbg = h.dbg := by
  rw [htrig, registerTrigger, if_neg hd]
  exact ⟨rfl, rfl⟩

/-- Settles O53: the TAP's instructions, the one owner of a session, and the transactions of the debug bus master. -/
theorem aditSessions : Obligations.AditSessions := by
  unfold Obligations.AditSessions
  refine ⟨fun s => ⟨⟨_, rfl, tapReset_leaves s.hw⟩, ⟨_, rfl, rfl, rfl⟩, ⟨_, rfl, rfl, rfl⟩, fun n => ⟨_, rfl, rfl, rfl, rfl⟩, fun ir hi => ⟨_, rfl, ?_⟩,
      fun reg => ⟨_, rfl, rfl, rfl, rfl⟩, fun v => ⟨_, rfl, rfl, rd_wrB_self rfl v⟩⟩,
    fun s reg v h2 ho => ⟨_, rfl, ?_⟩, fun s reg v => ⟨_, rfl, ?_⟩, fun s dies p hd hg => ⟨⟨_, rfl, ?_⟩, ⟨_, rfl, rfl, rfl⟩⟩,
    fun s f => ⟨fun ho => ⟨_, rfl, ?_⟩, fun ho hf => ⟨⟨_, rfl, ?_⟩, ⟨_, rfl, ?_⟩⟩, fun hf => ⟨_, rfl, ?_⟩⟩,
    fun s f ho hw => ⟨fun hb hl ha => ⟨⟨_, rfl, ?_⟩, ⟨_, rfl, ?_⟩⟩, fun hb ha => ⟨_, rfl, busCancel_writes ho hw hb ha rfl⟩⟩,
    fun s id r h hb ht hw ha => ⟨_, rfl, busArrives_leaves hb ht hw ha⟩⟩
  · have other : tapKnown.contains ir.toNat = false := by
      rw [List.contains_eq_mem, decide_eq_false_iff_not]
      exact hi
    simp only [State.onHw, other]
    exact ⟨rfl, rfl⟩
  · have refused : aditWrite (selectIr s.hw 0x10) .tap (aditAddr (reg.val * 8)) 8 v.toNat = setRefused (selectIr s.hw 0x10) :=
      aditWrite_unowned (by rw [faceOwns_selectIr, Bool.eq_false_iff]; exact fun hf => ho (faceOwns_tap.1 hf)) (by omega) (by omega) _
    have kept (g : Hw) : (setRefused g).dbg = g.dbg ∧ (setRefused g).cores = g.cores ∧ (setRefused g).mem = g.mem := ⟨rfl, rfl, rfl⟩
    obtain ⟨dbg, cores, mem⟩ := kept (selectIr s.hw 0x10)
    simp only [State.onHw, refused]
    rw [dbg, cores, mem]
    exact ⟨rfl, (setRefused_leaves _).1, rfl, rfl⟩
  · have selected : (aditWrite (selectIr s.hw 0x10) .tap (aditAddr (reg.val * 8)) 8 v.toNat).dbg.ir = (selectIr s.hw 0x10).dbg.ir :=
      IrKept.aditWrite ..
    simp only [State.onHw]
    refine ⟨selected, fun h0 hb ho => ?_, fun h0 hb ho => ?_, fun h2 ho => ?_⟩
    · simp only [h0]
      rw [aditWrite_session _ _ v.isLt, if_pos hb]
      exact (attach_leaves (h := selectIr s.hw 0x10) ho .tap).2.1
    · simp only [h0]
      rw [aditWrite_session _ _ v.isLt, if_neg (Bool.eq_false_iff.1 hb), detach_owned (h := selectIr s.hw 0x10) (faceOwns_tap.2 ho)]
      exact (endSession_leaves (h := selectIr s.hw 0x10) (by rw [owner_selectIr]; omega) (by decide)).1
    · simp only [h2]
      rw [aditWrite_busAddr (h := selectIr s.hw 0x10) (faceOwns_tap.2 ho) v.isLt, Hw.rd_wr_self]
      exact Nat.mod_eq_of_lt v.isLt
  · have some : dies.toNat % 16 ≠ 0 := by
      rw [Nat.mod_eq_of_lt dies.isLt]
      exact fun h0 => hd (BitVec.eq_of_toNat_eq h0)
    obtain ⟨flight, dbg⟩ := tapTrigger_leaves (h := selectIr s.hw 0x11) (profile := p.val) some
    simp only [State.onHw]
    rw [if_pos trivial, gated_ok ((csrGate_selectIr ..).trans hg), flight, dbg, Nat.mod_eq_of_lt p.isLt, Nat.mod_eq_of_lt dies.isLt]
    exact ⟨rfl, rfl⟩
  · simp only [State.onHw]
    rw [aditWrite_session _ _ (by decide), if_pos (by decide)]
    obtain ⟨owns, -, attached⟩ := attach_leaves ho f
    exact ⟨owns, attached⟩
  · simp only [State.onHw]
    rw [aditWrite_session _ _ (by decide), if_pos (by decide), attach_refused ho hf]
    exact ⟨(setRefused_leaves _).2, (setRefused_leaves _).1⟩
  · simp only [State.onHw]
    rw [aditWrite_session _ _ (by decide), if_neg (by decide), detach_refused ho hf]
    exact ⟨(setRefused_leaves _).2, (setRefused_leaves _).1⟩
  · simp only [State.onHw]
    rw [aditWrite_session _ _ (by decide), if_neg (by decide), detach_owned hf]
    exact endSession_leaves (owner_of_faceOwns hf) (by decide)
  · obtain ⟨busy, bus, reqs⟩ := busGo_leaves ho hw hb hl ha false rfl
    exact ⟨busy, bus, _, reqs, rfl, rfl, rfl, rfl, rfl⟩
  · obtain ⟨busy, bus, reqs⟩ := busGo_leaves ho hw hb hl ha true rfl
    exact ⟨busy, bus, _, reqs, rfl, rfl, rfl, rfl, rfl, rfl⟩

end Sys2Proof.Machine
end

section
/-!
PROOF. Adit halts and resumes cores (R476 to R480): the bits of HALT and HALTED, and what a resumed core may be made to do.
-/
namespace Sys2Proof.Machine
open Sys2Proof

/-! ### Bits of a word -/

theorem sub_and_eq_ldiff (x y : Nat) : x - (x &&& y) = Nat.ldiff x y := by
  induction x using Nat.binaryRec' generalizing y with
  | zero => simp [Nat.ldiff]
  | bit a m _ ih =>
    induction y using Nat.bitCasesOn with
    | bit b n =>
      have low := Nat.and_le_left (n := m) (m := n)
      have rest := ih n
      rw [Nat.land_bit, Nat.ldiff_bit, Nat.bit_val, Nat.bit_val, Nat.bit_val]
      cases a <;> cases b <;>
        simp only [Bool.toNat_true, Bool.toNat_false, Bool.and_true, Bool.and_false, Bool.not_true, Bool.not_false, Bool.and_self] <;> omega

theorem setBitAt_clear (x i : Nat) : setBitAt x i false = Nat.ldiff x (2 ^ i) := by
  rw [setBitAt, if_neg Bool.false_ne_true, ← sub_and_eq_ldiff, Nat.and_two_pow]
  cases x.testBit i <;> simp

theorem testBit_setBitAt_ne (x : Nat) {i j : Nat} (hj : j ≠ i) (b : Bool) : (setBitAt x i b).testBit j = x.testBit j := by
  cases b with
  | true => rw [setBitAt, if_pos rfl, Nat.testBit_or, Nat.testBit_two_pow_of_ne hj.symm, Bool.or_false]
  | false => rw [setBitAt_clear, Nat.testBit_ldiff, Nat.testBit_two_pow_of_ne hj.symm, Bool.not_false, Bool.and_true]

/-- A field as wide as a word holds bit c of what is written to it. -/
theorem testBit_wr_self (h : Hw) {k : Key} (hk : k.w = 64) (v : Nat) (c : Core) : ((h.wr k v).rd k).testBit c.val = v.testBit c.val := by
  rw [Hw.rd_wr_self, hk, Nat.testBit_mod_two_pow, decide_eq_true c.isLt, Bool.true_and]

/-! ### The bit of a halted core -/

theorem offSched_haltedCores : OffSched K.ADIT_HALTED_CORES := by simp [OffSched, K.ADIT_HALTED_CORES]

theorem isHalted_congr {h t : Hw} (e : t.rd K.ADIT_HALTED_CORES = h.rd K.ADIT_HALTED_CORES) (c : Nat) : isHalted t c = isHalted h c := by
  rw [isHalted, e, isHalted]

theorem isHalted_wr_ne (h : Hw) {k : Key} (hk : K.ADIT_HALTED_CORES.id ≠ k.id) (v c : Nat) : isHalted (h.wr k v) c = isHalted h c :=
  isHalted_congr (Hw.rd_wr_ne h hk v) c

theorem isHalted_refreshFrozen (h : Hw) (c : Nat) : isHalted (refreshFrozen h) c = isHalted h c :=
  isHalted_congr ((refreshFrozen_leaves h).2.2 _ (by decide) (by decide)) c

theorem isHalted_set_self (h : Hw) (c : Core) (b : Bool) :
    isHalted (h.wr K.ADIT_HALTED_CORES (setBitAt (h.rd K.ADIT_HALTED_CORES) c.val b)) c.val = b := by
  rw [isHalted, testBit_wr_self _ rfl, testBit_setBitAt_self]

theorem isHalted_set_ne (h : Hw) {c : Core} {d : Nat} (hd : c.val ≠ d) (b : Bool) :
    isHalted (h.wr K.ADIT_HALTED_CORES (setBitAt (h.rd K.ADIT_HALTED_CORES) d b)) c.val = isHalted h c.val := by
  rw [isHalted, testBit_wr_self _ rfl, testBit_setBitAt_ne _ hd, isHalted]

theorem cores_refreshFrozen (h : Hw) : (refreshFrozen h).cores = h.cores := by
  unfold refreshFrozen
  extract_lets now a
  have raised : a.cores = h.cores := by
    simp only [a]
    split
    · rfl
    · rfl
  exact raised

/-! ### The other cores' work -/

/-- Core c is halted in t where it is in h. -/
def HaltSame (c : Core) (h t : Hw) : Prop := isHalted t c.val = isHalted h c.val

namespace HaltSame
variable {c : Core} {h t u : Hw}

theorem refl (h : Hw) : HaltSame c h h := rfl
theorem trans (a : HaltSame c h t) (b : HaltSame c t u) : HaltSame c h u := Eq.trans b a
theorem of_kept (k : Kept h t) : HaltSame c h t := isHalted_congr (k.rd _ offSched_haltedCores) _

theorem coreRel {d : Nat} (hd : c.val ≠ d) : CoreRel (HaltSame c) d where
  refl := refl
  trans := trans
  kept := of_kept
  claim _ _ := rfl
  load _ _ := rfl
  wr h k hk v := isHalted_wr_ne h (by
    obtain ⟨hl, ha⟩ := hk
    simp only [Key.id, K.ADIT_HALTED_CORES]
    omega) v _
  halt h := isHalted_set_ne h hd true

theorem resumeCore {d : Core} (hd : c ≠ d) (h : Hw) (step : Bool) : HaltSame c h (resumeCore h d step) := by
  have hne : c.val ≠ d.val := fun e => hd (Fin.ext e)
  unfold Machine.resumeCore
  dsimp only
  split
  · exact refl h
  have tail (g : Hw) (hg : HaltSame c h g) : HaltSame c h (Machine.refreshFrozen (dispatch (boundary g d))) :=
    ((hg.trans ((coreRel hne).boundary g)).trans (of_kept (kept_dispatch _))).trans (isHalted_refreshFrozen ..)
  have cleared : HaltSame c h (h.wr K.ADIT_HALTED_CORES (setBitAt (h.rd K.ADIT_HALTED_CORES) d.val false)) := isHalted_set_ne h hne false
  split
  · exact tail _ (cleared.trans (((coreRel hne).onCore ..).trans (((coreRel hne).setG ..).trans ((coreRel hne).onCore ..))))
  · exact tail _ (cleared.trans ((coreRel hne).onCore ..))

end HaltSame

/-! ### The core that resumes -/

/-- No step holds core c and nothing halts it. -/
structure Free (c : Core) (h : Hw) : Prop where
  unstepped : CoreIs (fun x => x.stepping = false) c.val h
  running : isHalted h c.val = false

namespace Free
variable {c : Core} {h t : Hw}

theorem steady (c : Nat) : Steady (fun x => x.stepping = false) c :=
  ⟨fun x a n hx => by rw [touch_eq]; exact hx, .inr (.inr fun _ hx => hx)⟩

theorem start (hr : isHalted h c.val = false) (f : CoreSt → CoreSt) (hx : ∀ x, (f x).stepping = false) : Free c (h.onCore c.val f) :=
  ⟨CoreIs.set (hx _), hr⟩

theorem of_kept (hf : Free c h) (k : Kept h t) (hi : CoreIs (fun x => x.stepping = false) c.val t) : Free c t :=
  ⟨hi, Eq.trans (HaltSame.of_kept k) hf.running⟩

theorem of_same (hf : Free c h) (hc : t.cores = h.cores) (hr : t.rd K.ADIT_HALTED_CORES = h.rd K.ADIT_HALTED_CORES) : Free c t :=
  ⟨hf.unstepped.congr hc, (isHalted_congr hr _).trans hf.running⟩

theorem wr (hf : Free c h) {k : Key} (hk : K.ADIT_HALTED_CORES.id ≠ k.id) (v : Nat) : Free c (h.wr k v) := hf.of_same rfl (Hw.rd_wr_ne h hk v)

theorem onCore (hf : Free c h) (f : CoreSt → CoreSt) (hx : ∀ x, x.stepping = false → (f x).stepping = false) : Free c (h.onCore c.val f) :=
  ⟨hf.unstepped.on hx, hf.running⟩

theorem onForeman (hf : Free c h) (zero : c.val = 0) (f : CoreSt → CoreSt) (hx : ∀ x, x.stepping = false → (f x).stepping = false) :
    Free c (h.onCore 0 f) := by
  rw [← zero]
  exact hf.onCore f hx

theorem setG (hf : Free c h) (r : Reg) (v : Word) : Free c (h.setG c r v) := by
  unfold Hw.setG
  split
  · exact hf
  · exact hf.onCore _ fun _ hx => hx

theorem dispatch (hf : Free c h) : Free c (dispatch h) := hf.of_kept (kept_dispatch h) (hf.unstepped.dispatch (steady c.val))

theorem releaseClaims (hf : Free c h) : Free c (releaseClaims h c.val) := by
  unfold Machine.releaseClaims
  refine Free.onCore (List.foldlRecOn (motive := Free c) _ _ hf fun t ht n _ => ?_) _ fun _ hx => hx
  split
  · exact ht.of_same rfl rfl
  · exact ht

theorem releasePrio (hf : Free c h) : Free c (releasePrio h c.val) := by
  have quiet : Free c { h.wr (K.CORE_LOCKSTAT_PRIO c.val) 0 with sched := { h.sched with prioQueue := h.sched.prioQueue.filter (· != c.val) } } :=
    hf.of_same rfl (Hw.rd_wr_ne h (lockstat_ne_halted c.val).2.2.symm 0)
  exact quiet.of_kept (kept_flushHeld _) (hf.unstepped.releasePrio (steady c.val).touch c.val)

theorem dropTicket (hf : Free c h) (t : Option Nat) : Free c (dropTicket h t) := by
  unfold Machine.dropTicket
  split
  · exact hf
  · exact hf.of_same rfl rfl

theorem endItem (hf : Free c h) (e : Ending) : Free c (endItem h c.val e) := by
  unfold Machine.endItem
  have judged : Free c (judgeDeadline h c.val) := by
    unfold judgeDeadline
    split
    · split
      · extract_lets late g
        have marked : Free c g := hf.onCore _ fun _ hx => hx
        split
        · exact (marked.wr (by simp only [Key.id, K.ADIT_HALTED_CORES, K.SCHED_Q_STAT_MISS]; omega) _).wr (by decide) _
        · exact marked
      · exact hf
    · exact hf
  generalize judgeDeadline h c.val = u at judged
  dsimp only
  split
  · exact judged
  · rename_i i _
    have sent : Free c (Machine.dropTicket (sendFinal u c.val i e) i.ticket) :=
      (judged.of_kept (kept_sendFinal ..) (judged.unstepped.sendFinal (steady c.val) ..)).dropTicket _
    generalize Machine.dropTicket (sendFinal u c.val i e) i.ticket = v at sent
    have idle := sent.wr (k := K.CREW_CORE_ITEM_BUSY c.val) (by simp only [Key.id, K.ADIT_HALTED_CORES, K.CREW_CORE_ITEM_BUSY]; omega) 0
    exact Free.dispatch ⟨CoreIs.set rfl, idle.running⟩

theorem tryEnd (hf : Free c h) : Free c (tryEnd h c) := by
  unfold Machine.tryEnd
  have whole : endStep h c.val = h := by rw [endStep, hf.unstepped.state, if_neg Bool.false_ne_true]
  split
  · split
    · rw [whole]
      exact hf.releaseClaims.releasePrio.endItem _
    · exact hf
  · exact hf

theorem startEnd (hf : Free c h) (e : Ending) : Free c (startEnd h c e) := by
  unfold Machine.startEnd
  extract_lets u v
  have ending : Free c v := hf.releaseClaims.onCore _ fun _ hx => hx
  exact (ending.releasePrio.wr (lockstat_ne_halted c.val).1.symm 0).tryEnd

theorem programTraps (hf : Free c h) (cause : Nat) : Free c (programTraps h c cause) := by
  unfold Machine.programTraps loadFails
  split
  · split
    · split
      · exact hf
      · exact hf.of_same rfl (Hw.rd_wr_ne h (by decide) _)
    · exact hf
  · exact hf

theorem recordTrap (hf : Free c h) (cause : Nat) (tval epc : Word) (im fe : Bool) : Free c (recordTrap h c cause tval epc im fe) := by
  unfold Machine.recordTrap
  exact ((((hf.wr (by simp only [Key.id, K.ADIT_HALTED_CORES, K.CORE_EPC_EPC]; omega) _).wr
    (by simp only [Key.id, K.ADIT_HALTED_CORES, K.CORE_TVAL_TVAL]; omega) _).wr
    (by simp only [Key.id, K.ADIT_HALTED_CORES, K.CORE_CAUSE_CODE]; omega) _).wr
    (by simp only [Key.id, K.ADIT_HALTED_CORES, K.CORE_CAUSE_IMPRECISE]; omega) _).wr
    (by simp only [Key.id, K.ADIT_HALTED_CORES, K.CORE_CAUSE_FETCH]; omega) _

theorem logTrap (hf : Free c h) (cause : Nat) (tval epc : Word) : Free c (logTrap h c cause tval epc) :=
  hf.of_kept (kept_logErr ..) (hf.unstepped.logTrap (steady c.val) ..)

theorem trap (hf : Free c h) (cause : Nat) (tval epc : Word) (im fe : Bool) : Free c (trap h c cause tval epc im fe) := by
  unfold Machine.trap
  have programmed := hf.programTraps cause
  generalize Machine.programTraps h c cause = u at programmed
  dsimp only
  split
  next hc =>
    have zero : c.val = 0 := by simpa [isForeman] using hc
    split
    · have logged : Free c (Machine.logTrap (u.wr (K.CORE_CAUSE_DOUBLE 0) 1) c cause tval epc) :=
        (programmed.wr (k := K.CORE_CAUSE_DOUBLE 0) (by decide) 1).logTrap cause tval epc
      exact logged.onForeman zero _ fun _ hx => hx
    · have entered : Free c ((Machine.recordTrap u c cause tval epc im fe).wr (K.CORE_CAUSE_TACTIVE 0) 1) :=
        (programmed.recordTrap cause tval epc im fe).wr (by decide) 1
      exact entered.onForeman zero _ fun _ hx => hx
  next => exact ((programmed.recordTrap cause tval epc im fe).logTrap cause tval epc).startEnd _

theorem boundary (hf : Free c h) : Free c (boundary h c) := by
  unfold Machine.boundary
  split
  · split
    · exact hf
    · exact hf.trap ..
  · exact hf

end Free

/-- A core that resumed is not halted. -/
theorem isHalted_resumeCore (h : Hw) (c : Core) : isHalted (resumeCore h c false) c.val = false := by
  unfold resumeCore
  dsimp only
  split
  next hh => simpa using hh
  have tail (g : Hw) (hg : Free c g) : isHalted (refreshFrozen (dispatch (boundary g c))) c.val = false :=
    (isHalted_refreshFrozen ..).trans hg.boundary.dispatch.running
  split
  · exact tail _ (((Free.start (isHalted_set_self h c false) _ fun _ => rfl).setG _ _).onCore _ fun _ hx => hx)
  · exact tail _ (Free.start (isHalted_set_self h c false) _ fun _ => rfl)

/-- A core that ADIT.RUN names runs, whatever the other cores' traps bring. -/
theorem isHalted_runAll {c : Core} {d : Nat} (hd : d.testBit c.val = true) (h : Hw) : ∀ l : List Core, c ∈ l ∨ isHalted h c.val = false →
    isHalted (l.foldl (fun h c => if d.testBit c.val then resumeCore h c false else h) h) c.val = false := by
  intro l
  induction l generalizing h with
  | nil => exact fun hl => hl.resolve_left (by simp)
  | cons e l ih =>
    intro hl
    rw [List.foldl_cons]
    refine ih _ ?_
    by_cases he : c = e
    · subst he
      rw [if_pos hd]
      exact .inr (isHalted_resumeCore h c)
    · refine hl.imp (fun m => (List.mem_cons.1 m).resolve_left he) fun hr => ?_
      split
      · exact Eq.trans (HaltSame.resumeCore he h false) hr
      · exact hr

end Sys2Proof.Machine
end

section
/-!
PROOF. Adit's hold of the cores (R201, R476 to R481): halts and resumptions, the registers of a halted core, the virtual terminal.
-/
namespace Sys2Proof.Machine
open Sys2Proof

variable {h : Hw} {f : Face}

/-! ### Writes of the owner -/

section
variable (ho : faceOwns h f = true) {d : Nat} (hd : d < 2 ^ 64)
include ho hd

theorem aditWrite_halt : aditWrite h f (aditAddr 0x40) 8 d =
    h.wr K.ADIT_HALT_REQ (h.rd K.ADIT_HALT_REQ ||| (d - (d &&& h.rd K.ADIT_HALTED_CORES))) := by
  rw [aditWrite]
  dsimp only
  rw [placed_word _ hd, aditAddr_off rfl, regIndex_of_lt (by decide)]
  simp only [ho]
  rfl

theorem aditWrite_run : aditWrite h f (aditAddr 0x48) 8 d =
    allCores.foldl (fun h c => if d.testBit c.val then resumeCore h c false else h) h := by
  rw [aditWrite]
  dsimp only
  rw [placed_word _ hd, aditAddr_off rfl, regIndex_of_lt (by decide)]
  simp only [ho]
  rfl

theorem aditWrite_step : aditWrite h f (aditAddr 0x60) 8 d = if d.testBit 6 then stepCore h (Fin.ofNat 64 (d % 64)) else h := by
  rw [aditWrite]
  dsimp only
  rw [placed_word _ hd, aditAddr_off rfl, regIndex_of_lt (by decide)]
  simp only [ho]
  rfl

end

theorem regIndex_shown {r : Nat} (hr : r < 33) : regIndex (0x100 + r * 8) = some r := by
  unfold regIndex
  by_cases h32 : r = 32
  · subst h32
    rfl
  · have low : within (0x100 + r * 8) 0x100 0x200 = true := decide_eq_true (by omega)
    rw [if_pos low]
    congr 1
    omega

theorem aditWrite_shown (ho : faceOwns h f = true) {r : Nat} (hr : r < 33) {d : Nat} (hd : d < 2 ^ 64) :
    ∃ v, v % 2 ^ 64 = d ∧ aditWrite h f (aditAddr (0x100 + r * 8)) 8 d = writeShown h r v := by
  refine ⟨_, (mergeBits_whole (shownReg h r) d 64).trans (Nat.mod_eq_of_lt hd), ?_⟩
  unfold aditWrite
  rw [aditAddr_off (by omega)]
  dsimp only
  rw [placed_word _ hd, regIndex_shown hr]
  dsimp only
  rw [if_neg (by omega), if_neg (by omega), ho]
  rfl

/-! ### Halting -/

theorem rd_haltCore (h : Hw) (c : Nat) {k : Key} (hl : k.lo < 64) (ha : k.addr ≠ 0x100410) (hq : k.id ≠ K.ADIT_HALT_REQ.id)
    (hh : k.id ≠ K.ADIT_HALTED_CORES.id) : (haltCore h c).rd k = h.rd k :=
  ((refreshFrozen_leaves _).2.2 k hl ha).trans ((Hw.rd_wr_ne _ hh _).trans (Hw.rd_wr_ne h hq _))

theorem haltCore_leaves (h : Hw) (c : Core) : isHalted (haltCore h c.val) c.val = true ∧
    ((haltCore h c.val).rd K.ADIT_HALT_REQ).testBit c.val = false ∧ (haltCore h c.val).pc c = h.pc c := by
  unfold haltCore
  extract_lets u v
  have halted : isHalted v c.val = true := isHalted_set_self u c true
  have taken : (v.rd K.ADIT_HALT_REQ).testBit c.val = false := by
    rw [Hw.rd_wr_ne u (by decide), testBit_wr_self h rfl, testBit_setBitAt_self]
  have fresh := (refreshFrozen_leaves (v.onCore c.val fun x => { x with stepping := false })).2.2
  refine ⟨(isHalted_refreshFrozen ..).trans halted, ?_, ?_⟩
  · rw [fresh K.ADIT_HALT_REQ (by decide) (by decide)]
    exact taken
  · rw [Hw.pc, core_congr (cores_refreshFrozen _), Hw.onCore, Hw.core_setCore_self, Hw.pc]
    rfl

theorem breakLock_leaves (h : Hw) (c : Core) : (breakLock h c.val).rd (K.CORE_LOCKSTAT_LOCKBRK c.val) = 1 ∧
    ((breakLock h c.val).rd K.ADIT_LOCKBRK_CORES).testBit c.val = true := by
  unfold breakLock
  extract_lets g
  have ne : (K.CORE_LOCKSTAT_LOCKBRK c.val).id ≠ K.ADIT_LOCKBRK_CORES.id := by
    simp only [Key.id, K.CORE_LOCKSTAT_LOCKBRK, K.ADIT_LOCKBRK_CORES]
    omega
  rw [(kept_flushHeld _).rd _ (by simp [OffSched, K.CORE_LOCKSTAT_LOCKBRK]; omega), (kept_flushHeld _).rd _ (by simp [OffSched, K.ADIT_LOCKBRK_CORES]),
    Hw.rd_wr_ne _ ne, Hw.rd_wr_self, testBit_wr_self _ rfl, testBit_setBitAt_self]
  exact ⟨rfl, rfl⟩

theorem breakHalt_leaves (h : Hw) (c : Core) : isHalted (haltCore (breakLock h c.val) c.val) c.val = true ∧
    (haltCore (breakLock h c.val) c.val).rd (K.CORE_LOCKSTAT_LOCKBRK c.val) = 1 ∧
    ((haltCore (breakLock h c.val) c.val).rd K.ADIT_LOCKBRK_CORES).testBit c.val = true := by
  refine ⟨(haltCore_leaves _ c).1, ?_, ?_⟩
  · have page : (K.CORE_LOCKSTAT_LOCKBRK c.val).addr = 0x100000030 + c.val * 0x1000 ∧ (K.CORE_LOCKSTAT_LOCKBRK c.val).lo < 64 :=
      ⟨rfl, by show (8 : Nat) < 64; decide⟩
    rw [rd_haltCore _ _ page.2 (by omega) (by simp only [Key.id, K.CORE_LOCKSTAT_LOCKBRK, K.ADIT_HALT_REQ]; omega)
      (by simp only [Key.id, K.CORE_LOCKSTAT_LOCKBRK, K.ADIT_HALTED_CORES]; omega)]
    exact (breakLock_leaves h c).1
  · rw [rd_haltCore _ _ (by decide) (by decide) (by decide) (by decide)]
    exact (breakLock_leaves h c).2

/-- A core that GO of STEP names resumes to step, at the pc it had. -/
theorem stepCore_leaves {c : Core} (hh : isHalted h c.val = true) (hm : mayRun h c.val = true) (hd : (h.core c.val).dev = none)
    (he : (h.core c.val).pendErr = none) : isHalted (stepCore h c) c.val = false ∧ ((stepCore h c).core c.val).stepping = true ∧
      ((stepCore h c).core c.val).pc = (h.core c.val).pc := by
  have busy : c.val = 0 ∨ (h.core c.val).item.isSome = true := by
    unfold mayRun at hm
    split at hm
    next h0 => exact .inl h0
    next => exact .inr (Bool.and_eq_true_iff.1 hm).1
  have steady : Steady (fun x => x.stepping = true ∧ x.pc = (h.core c.val).pc ∧ (c.val = 0 ∨ x.item.isSome = true)) c.val :=
    ⟨fun x a n hx => by rw [touch_eq]; exact hx, (Nat.eq_zero_or_pos c.val).imp_right fun hp => .inl fun x hx =>
      hx.2.2.resolve_left (by omega)⟩
  rw [stepCore, hh, hm, resumeCore, hh]
  simp only [Bool.not_true, Bool.false_eq_true, if_false, if_true]
  generalize hu : Hw.onCore (h.wr K.ADIT_HALTED_CORES _) c.val _ = u
  have running : isHalted u c.val = false := by
    rw [← hu]
    exact isHalted_set_self h c false
  have steps : CoreIs (fun x => x.stepping = true ∧ x.pc = (h.core c.val).pc ∧ (c.val = 0 ∨ x.item.isSome = true)) c.val u := by
    rw [← hu]
    exact CoreIs.set ⟨rfl, rfl, busy⟩
  have idle : (u.core c.val).dev = none ∧ (u.core c.val).pendErr = none := by
    rw [← hu, Hw.onCore, Hw.core_setCore_self]
    exact ⟨hd, he⟩
  rw [idle.1]
  dsimp only
  rw [boundary_quiet idle.2, isHalted_refreshFrozen, core_congr (cores_refreshFrozen _)]
  obtain ⟨step, pc, -⟩ := (steps.dispatch steady).state
  exact ⟨Eq.trans (HaltSame.of_kept (kept_dispatch u)) running, step, pc⟩

/-- HALT asks for the cores of the mask that are not halted already. -/
theorem haltReq_testBit (ho : faceOwns h f = true) (m : Word) (c : Core) :
    ((aditWrite h f (aditAddr 0x40) 8 m.toNat).rd K.ADIT_HALT_REQ).testBit c.val =
      ((h.rd K.ADIT_HALT_REQ).testBit c.val || (m.toNat.testBit c.val && !isHalted h c.val)) := by
  rw [aditWrite_halt ho m.isLt, testBit_wr_self h rfl, Nat.testBit_or, sub_and_eq_ldiff, Nat.testBit_ldiff, isHalted]

/-! ### The registers of a halted core -/

section
variable {v : Nat} {r : Nat}

theorem writeShown_running (hh : isHalted h (cselCore h).val = false) : writeShown h r v = setNothalted h := by
  rw [writeShown, hh]
  rfl

theorem writeShown_pc (hh : isHalted h (cselCore h).val = true) : writeShown h 32 v =
    if v % 4 = 0 then h.setPc (cselCore h) (BitVec.ofNat 64 v) else setNothalted h := by
  rw [writeShown, hh]
  rfl

theorem writeShown_reg (hh : isHalted h (cselCore h).val = true) (hr : r < 32) : writeShown h r v =
    h.setG (cselCore h) (Fin.ofNat 32 r) (BitVec.ofNat 64 v) := by
  rw [writeShown, hh]
  simp only [Bool.not_true, Bool.false_eq_true, if_false]
  exact if_neg (by omega)

end

theorem setNothalted_leaves (h : Hw) : (setNothalted h).rd K.ADIT_STAT_NOTHALTED = 1 ∧ (setNothalted h).cores = h.cores :=
  ⟨Hw.rd_wr_self .., rfl⟩

/-! ### The virtual terminal -/

theorem csrAt_dtx : ∀ c : Core, csrAt (0x1C01000 + c.val * 0x10) = some (.ADIT_CORE_DTX, [c.val]) := by decide +kernel

theorem fieldsAt_dtx (c : Core) : fieldsAt (0x1C01000 + c.val * 0x10) = [⟨K.ADIT_CORE_DTX_FULL c.val, .w1c, .W, .any⟩,
    ⟨K.ADIT_CORE_DTX_OVR c.val, .w1c, .W, .any⟩, ⟨K.ADIT_CORE_DTX_DATA c.val, .ro, .W, .any⟩] := by
  rw [fieldsAt, csrAt_dtx c]
  rfl

theorem regIndex_above {off : Nat} (ho : 0x200 < off) : regIndex off = none := by
  have high : within off 0x100 0x200 = false := decide_eq_false (by omega)
  rw [regIndex, high, if_neg Bool.false_ne_true, if_neg (by omega)]

theorem aditWrite_dtx (ho : faceOwns h f = true) (c : Core) (d : Nat) : aditWrite h f (0x1C01000 + c.val * 0x10) 8 d =
    writeReg h .adit (0x1C01000 + c.val * 0x10) 8 d := by
  have lt := c.isLt
  unfold aditWrite
  have off : (0x1C01000 + c.val * 0x10) / 8 * 8 - 0x1C00000 = 0x1000 + c.val * 0x10 := by omega
  have even : ((0x1000 + c.val * 0x10) % 16 == 8) = false := beq_false_of_ne (by omega)
  rw [off]
  dsimp only
  rw [regIndex_above (by omega), even, ho]
  dsimp only
  rw [if_neg (by omega), if_neg (by omega), if_neg (by decide), if_neg (by omega), if_neg (by omega), if_neg (by omega), if_neg (by omega),
    if_neg (by omega), Bool.and_false, if_neg Bool.false_ne_true]

theorem aditWrite_drx (ho : faceOwns h f = true) (c : Core) {d : Nat} (hd : d < 2 ^ 64) :
    aditWrite h f (0x1C01008 + c.val * 0x10) 8 d = writeDrx h c.val d := by
  have lt := c.isLt
  unfold aditWrite
  have off : (0x1C01008 + c.val * 0x10) / 8 * 8 - 0x1C00000 = 0x1008 + c.val * 0x10 := by omega
  have odd : (within (0x1008 + c.val * 0x10) 0x1000 0x1400 && (0x1008 + c.val * 0x10) % 16 == 8) = true := by
    rw [Bool.and_eq_true, beq_iff_eq]
    exact ⟨decide_eq_true (by omega), by omega⟩
  have core : (0x1008 + c.val * 0x10 - 0x1000) / 16 = c.val := by omega
  rw [off]
  dsimp only
  rw [placed_word _ hd, regIndex_above (by omega), odd, ho]
  dsimp only
  rw [if_neg (by omega), if_neg (by omega), if_neg (by decide), if_neg (by omega), if_neg (by omega), if_neg (by omega), if_neg (by omega),
    if_neg (by omega), if_pos rfl, core]
  exact if_pos (by rw [writeMask64, if_pos rfl]; decide)

/-- FULL of a DTX is cleared by the 1 the debugger writes. -/
theorem dtxRelease_full (ho : faceOwns h f = true) (c : Core) :
    (aditWrite h f (0x1C01000 + c.val * 0x10) 8 (2 ^ 63)).rd (K.ADIT_CORE_DTX_FULL c.val) = 0 := by
  have aligned : (0x1C01000 + c.val * 0x10) / 8 * 8 = 0x1C01000 + c.val * 0x10 := by omega
  have clears : (h.rd (K.ADIT_CORE_DTX_FULL c.val) - (h.rd (K.ADIT_CORE_DTX_FULL c.val) &&& 1)) % 2 = 0 := by
    rw [Nat.and_one_is_mod]
    omega
  rw [aditWrite_dtx ho, writeReg_eq (by rw [aligned]; exact fieldsAt_dtx c), List.foldl_cons, List.foldl_cons, List.foldl_cons, List.foldl_nil]
  have full (g : Hw) (m : Master) : writeField g m ⟨K.ADIT_CORE_DTX_FULL c.val, .w1c, .W, .any⟩ (placed (0x1C01000 + c.val * 0x10) 8 (2 ^ 63))
      (writeMask64 (0x1C01000 + c.val * 0x10) 8) =
        g.wr (K.ADIT_CORE_DTX_FULL c.val) (g.rd (K.ADIT_CORE_DTX_FULL c.val) - (g.rd (K.ADIT_CORE_DTX_FULL c.val) &&& 1)) := by
    rw [placed_data _ (by decide), show writeMask64 (0x1C01000 + c.val * 0x10) 8 = 2 ^ 64 - 1 from if_pos rfl, writeField]
    have named : fieldIn (K.ADIT_CORE_DTX_FULL c.val) (2 ^ 64 - 1) = 1 := by show (2 ^ 64 - 1) / 2 ^ 63 % 2 ^ 1 = 1; decide
    have one : fieldIn (K.ADIT_CORE_DTX_FULL c.val) (2 ^ 63 &&& (2 ^ 64 - 1)) = 1 := by
      show (2 ^ 63 &&& (2 ^ 64 - 1)) / 2 ^ 63 % 2 ^ 1 = 1; decide
    dsimp only
    rw [named, one]
    rfl
  have ovr (g : Hw) (m : Master) (d mask : Nat) : (writeField g m ⟨K.ADIT_CORE_DTX_OVR c.val, .w1c, .W, .any⟩ d mask).rd (K.ADIT_CORE_DTX_FULL c.val) =
      g.rd (K.ADIT_CORE_DTX_FULL c.val) := by
    unfold writeField
    split
    · rfl
    · exact Hw.rd_wr_ne g (by simp only [Key.id, K.ADIT_CORE_DTX_FULL, K.ADIT_CORE_DTX_OVR]; omega) _
  have data (g : Hw) (m : Master) (d mask : Nat) : writeField g m ⟨K.ADIT_CORE_DTX_DATA c.val, .ro, .W, .any⟩ d mask = g := by
    unfold writeField
    split
    · rfl
    · rfl
  rw [data, ovr, full, Hw.rd_wr_self]
  exact clears

theorem dtx_ids (c : Nat) : (K.ADIT_CORE_DTX_DATA c).id ≠ (K.ADIT_CORE_DTX_FULL c).id ∧ (K.ADIT_CORE_DTX_DATA c).id ≠ (K.ADIT_CORE_DTX_OVR c).id ∧
    (K.ADIT_CORE_DRX_DATA c).id ≠ (K.ADIT_CORE_DRX_FULL c).id ∧ (K.ADIT_CORE_DRX_DATA c).id ≠ K.ADIT_STAT_REFUSED.id := by
  simp only [Key.id, K.ADIT_CORE_DTX_DATA, K.ADIT_CORE_DTX_FULL, K.ADIT_CORE_DTX_OVR, K.ADIT_CORE_DRX_DATA, K.ADIT_CORE_DRX_FULL, K.ADIT_STAT_REFUSED]
  omega

theorem storeDtx_leaves (h : Hw) (c : Nat) (v : BitVec 32) :
    (h.bit (K.ADIT_CORE_DTX_FULL c) = false → (storeDtx h c v.toNat).rd (K.ADIT_CORE_DTX_DATA c) = v.toNat ∧
      (storeDtx h c v.toNat).rd (K.ADIT_CORE_DTX_FULL c) = 1) ∧
    (h.bit (K.ADIT_CORE_DTX_FULL c) = true → (storeDtx h c v.toNat).rd (K.ADIT_CORE_DTX_DATA c) = h.rd (K.ADIT_CORE_DTX_DATA c) ∧
      (storeDtx h c v.toNat).rd (K.ADIT_CORE_DTX_OVR c) = 1) := by
  obtain ⟨full, ovr, -, -⟩ := dtx_ids c
  unfold storeDtx
  refine ⟨fun hb => ?_, fun hb => ?_⟩
  · rw [hb, if_neg Bool.false_ne_true, Hw.rd_wr_ne _ full, Hw.rd_wr_self, Hw.rd_wr_self]
    exact ⟨Nat.mod_eq_of_lt v.isLt, rfl⟩
  · rw [hb, if_pos rfl, Hw.rd_wr_ne _ ovr, Hw.rd_wr_self]
    exact ⟨rfl, rfl⟩

theorem writeDrx_leaves (h : Hw) (c : Nat) (v : BitVec 32) :
    (h.bit (K.ADIT_CORE_DRX_FULL c) = false → (writeDrx h c v.toNat).rd (K.ADIT_CORE_DRX_DATA c) = v.toNat ∧
      (writeDrx h c v.toNat).rd (K.ADIT_CORE_DRX_FULL c) = 1) ∧
    (h.bit (K.ADIT_CORE_DRX_FULL c) = true → (writeDrx h c v.toNat).rd K.ADIT_STAT_REFUSED = 1 ∧
      (writeDrx h c v.toNat).rd (K.ADIT_CORE_DRX_DATA c) = h.rd (K.ADIT_CORE_DRX_DATA c)) := by
  obtain ⟨-, -, full, refused⟩ := dtx_ids c
  unfold writeDrx
  refine ⟨fun hb => ?_, fun hb => ?_⟩
  · rw [hb, if_neg Bool.false_ne_true, Hw.rd_wr_ne _ full, Hw.rd_wr_self, Hw.rd_wr_self]
    exact ⟨Nat.mod_eq_of_lt v.isLt, rfl⟩
  · rw [hb, if_pos rfl]
    exact ⟨(setRefused_leaves h).1, Hw.rd_wr_ne h refused 1⟩

theorem readAdit_own (h : Hw) (c : Core) :
    (readAdit h (.core c) (K.ADIT_CORE_DRX_FULL c.val).addr).2 = h.wr (K.ADIT_CORE_DRX_FULL c.val) 0 := by
  unfold readAdit
  exact if_pos rfl

theorem readAdit_other (h : Hw) {c : Core} {m : Master} (hm : m ≠ .core c) : (readAdit h m (K.ADIT_CORE_DRX_FULL c.val).addr).2 = h := by
  unfold readAdit
  split
  next d =>
    have other : (K.ADIT_CORE_DRX_FULL c.val).addr ≠ (K.ADIT_CORE_DRX_FULL d.val).addr := by
      simp only [K.ADIT_CORE_DRX_FULL]
      intro e
      exact hm (congrArg Master.core (Fin.ext (by omega)))
    exact if_neg other
  next => rfl

/-! ### The commands -/

theorem resumed_of_run (ho : faceOwns h f = true) (m : Word) {c : Core} (hm : m.toNat.testBit c.val = true) :
    isHalted (aditWrite h f (aditAddr 0x48) 8 m.toNat) c.val = false := by
  rw [aditWrite_run ho m.isLt]
  exact isHalted_runAll hm h allCores (.inl (List.mem_finRange c))

theorem stepped (ho : faceOwns h f = true) (c : Core) : aditWrite h f (aditAddr 0x60) 8 (64 + c.val) = stepCore h c := by
  have lt := c.isLt
  have go : (64 + c.val).testBit 6 = true := by
    rw [Nat.testBit_eq_decide_div_mod_eq, decide_eq_true_eq]
    omega
  have named : (Fin.ofNat 64 ((64 + c.val) % 64) : Core) = c := Fin.ext (by show (64 + c.val) % 64 % 64 = c.val; omega)
  rw [aditWrite_step ho (by omega), if_pos go, named]

theorem csr_setG (h : Hw) (c : Core) (r : Reg) (v : Word) : (h.setG c r v).csr = h.csr := by
  unfold Hw.setG
  split
  · rfl
  · rfl

theorem pc_setPc (h : Hw) (c : Core) (v : Word) : (h.setPc c v).pc c = v := by
  rw [Hw.pc, Hw.setPc, Hw.onCore, Hw.core_setCore_self]

/-- Settles O54: cores halted and resumed by Adit, the registers of a halted one, and the virtual terminal. -/
theorem aditCores : Obligations.AditCores := by
  unfold Obligations.AditCores
  refine ⟨fun s f m ho => ⟨⟨_, rfl, haltReq_testBit ho m⟩, fun c hm _ _ _ => ⟨_, rfl, resumed_of_run ho m hm⟩,
      fun c hh hm hd he => ⟨_, rfl, ?_⟩⟩,
    fun s c hh => ⟨fun hr hq => ⟨_, rfl, ?_⟩, fun hr hq => ⟨_, rfl, ?_⟩, fun hm hd hb hq => ⟨_, rfl, ?_⟩⟩,
    fun s f r v ho => ?_, fun s c f v => ⟨fun hb => ⟨_, rfl, (storeDtx_leaves s.hw c.val v).1 hb⟩,
      fun hb => ⟨_, rfl, (storeDtx_leaves s.hw c.val v).2 hb⟩, fun ho => ⟨_, rfl, ?_⟩, fun ho hb => ⟨_, rfl, ?_⟩,
      fun ho hb => ⟨_, rfl, ?_⟩, ⟨_, rfl, ?_⟩, fun m hm => ⟨_, rfl, ?_⟩⟩⟩
  · simp only [State.onHw]
    rw [stepped ho c]
    exact stepCore_leaves hh hm hd he
  · simp only [State.onHw]
    rw [hr, hh, hq]
    exact haltCore_leaves s.hw c
  · simp only [State.onHw]
    rw [hr, hh, hq]
    exact breakHalt_leaves s.hw c
  · simp only [State.onHw]
    rw [hm, hh, hd, hb, hq]
    exact ⟨(haltCore_leaves s.hw c).1, (haltCore_leaves s.hw c).2.2⟩
  · obtain ⟨w, hw, shown⟩ := aditWrite_shown ho r.isLt v.isLt
    have written : BitVec.ofNat 64 w = v := BitVec.eq_of_toNat_eq ((BitVec.toNat_ofNat w 64).trans hw)
    have low : w % 4 = v.toNat % 4 := by omega
    have next : exec (.aditRegWrite f r v) s = .next { s with hw := writeShown s.hw r.val w } := 
      congrArg (fun g : Hw => (Host.Outcome.next { s with hw := g } : Host.Outcome State Fault Refusal)) shown
    refine ⟨fun hh => ⟨_, next, ?_⟩, fun hh h0 => ⟨_, next, ?_⟩, fun hh h32 hm => ⟨_, next, ?_⟩, fun hh h1 hl => ⟨_, next, ?_⟩,
      fun hh h32 hm => ⟨_, next, ?_⟩⟩
    · rw [writeShown_running hh]
      exact setNothalted_leaves s.hw
    · rw [writeShown_reg hh (by omega), h0]
      rfl
    · rw [h32, writeShown_pc hh, low, if_neg hm]
      exact setNothalted_leaves s.hw
    · have some : (Fin.ofNat 32 r.val : Reg) ≠ 0 := fun e => by
        have := congrArg Fin.val e
        simp only [Fin.ofNat, Fin.val_zero] at this
        omega
      dsimp only
      rw [writeShown_reg hh hl, Hw.g_setG_self, if_neg some, written]
      exact ⟨rfl, csr_setG ..⟩
    · rw [h32, writeShown_pc hh, low, if_pos hm, written]
      exact ⟨pc_setPc .., rfl⟩
  · simp only [State.onHw]
    exact dtxRelease_full ho c
  · simp only [State.onHw]
    rw [show (K.ADIT_CORE_DRX_FULL c.val).addr = 0x1C01008 + c.val * 0x10 from rfl, aditWrite_drx ho c (Nat.lt_trans v.isLt (by decide))]
    exact (writeDrx_leaves s.hw c.val v).1 hb
  · simp only [State.onHw]
    rw [show (K.ADIT_CORE_DRX_FULL c.val).addr = 0x1C01008 + c.val * 0x10 from rfl, aditWrite_drx ho c (Nat.lt_trans v.isLt (by decide))]
    exact (writeDrx_leaves s.hw c.val v).2 hb
  · simp only [State.onHw]
    rw [if_pos (by rfl), readAdit_own]
    exact Hw.rd_wr_self ..
  · simp only [State.onHw]
    rw [readAdit_other s.hw hm, ite_self]

end Sys2Proof.Machine
end

section
/-!
PROOF. The guest site (R486 to R497): its link and reset, the firewall and the bucket, deliveries, the mailbox and the trips.
-/
namespace Sys2Proof.Machine
open Sys2Proof

variable {h : Hw}

/-! ### The fields of the guest site -/

theorem kept_guestEvent (h : Hw) (code arg : Nat) : Kept h (guestEvent h code arg) := kept_postEvent h (by decide) ..

/-- A field of the guest site other than those the link's fall writes. -/
abbrev LinkFree (k : Key) : Prop := k.lo < 64 ∧ 0x1E00000 ≤ k.addr ∧ k.id ≠ K.GUEST_STAT_UP.id ∧ k.id ≠ K.GUEST_STAT_RATE.id ∧
  k.id ≠ K.GUEST_STAT_WIDTH.id ∧ k.id ≠ K.GUEST_CTL_FENCE.id

theorem rd_guestEvent {k : Key} (hl : k.lo < 64) (ha : 0x1E00000 ≤ k.addr) (h : Hw) (code arg : Nat) :
    (guestEvent h code arg).rd k = h.rd k := (kept_guestEvent h code arg).rd k ⟨hl, by omega⟩

theorem bit_eq_of_rd {g : Hw} {k : Key} (e : g.rd k = h.rd k) : g.bit k = h.bit k := by rw [Hw.bit, e, Hw.bit]

theorem bit_false {k : Key} (hb : h.bit k = false) : h.rd k = 0 := by simpa [Hw.bit] using hb

theorem guestRunning_event (h : Hw) (code arg : Nat) : (guestEvent h code arg).guest = h.guest := (kept_guestEvent h code arg).guest

theorem guestLinkFalls_leaves (h : Hw) : (guestLinkFalls h).guest.running = h.guest.running ∧ (guestLinkFalls h).rd K.GUEST_STAT_UP = 0 ∧
    (h.bit K.GUEST_STAT_UP = true → (guestLinkFalls h).rd K.GUEST_CTL_FENCE = 1) ∧
    ∀ k, LinkFree k → (guestLinkFalls h).rd k = h.rd k := by
  unfold guestLinkFalls
  cases hb : h.bit K.GUEST_STAT_UP with
  | false =>
    rw [Bool.not_false, if_pos rfl]
    exact ⟨rfl, bit_false hb, fun e => Bool.noConfusion e, fun _ _ => rfl⟩
  | true =>
    rw [Bool.not_true, if_neg Bool.false_ne_true]
    extract_lets a b
    have down : a.rd K.GUEST_STAT_UP = 0 := by
      rw [Hw.rd_wr_ne _ (by decide), Hw.rd_wr_ne _ (by decide), Hw.rd_wr_self, Nat.zero_mod]
    have cut (k : Key) : b.rd k = (a.wr K.GUEST_CTL_FENCE 1).rd k := rfl
    refine ⟨?_, ?_, fun _ => ?_, fun k hk => ?_⟩
    · rw [guestRunning_event]
      rfl
    · rw [rd_guestEvent (by decide) (by decide), cut, Hw.rd_wr_ne _ (by decide)]
      exact down
    · rw [rd_guestEvent (by decide) (by decide), cut, Hw.rd_wr_self]
      rfl
    · obtain ⟨hl, ha, up, rate, width, fence⟩ := hk
      rw [rd_guestEvent hl ha, cut, Hw.rd_wr_ne _ fence, Hw.rd_wr_ne _ width, Hw.rd_wr_ne _ rate, Hw.rd_wr_ne _ up]

/-- GRST_N depends on the reset sequence and on the fields CAP, CTL and STAT show. -/
theorem grstHigh_congr {g : Hw} (rst : g.rst = h.rst) (cap : g.rd K.ID_CAP_GUEST = h.rd K.ID_CAP_GUEST)
    (free : ∀ k, LinkFree k → g.rd k = h.rd k) : grstHigh g = grstHigh h := by
  have bit (k : Key) (hk : LinkFree k) : g.bit k = h.bit k := bit_eq_of_rd (free k hk)
  rw [grstHigh, guestHeld, hasGuest, rst, bit_eq_of_rd cap, bit K.GUEST_STAT_VGOOD (by decide), bit K.GUEST_CTL_WARMRST (by decide),
    bit K.GUEST_CTL_GRST (by decide), bit K.GUEST_STAT_TRIPHOLD (by decide), grstHigh, guestHeld, hasGuest]

/-- A guest reset sets FENCE, runs or holds the guest, and takes the link down with it. -/
theorem refreshGuest_leaves (h : Hw) : (refreshGuest h).guest.running = grstHigh h ∧ (grstHigh h = false → (refreshGuest h).rd K.GUEST_STAT_UP = 0) ∧
    ∀ k, LinkFree k → (refreshGuest h).rd k = h.rd k := by
  unfold refreshGuest
  extract_lets up a b
  have fenced (k : Key) (hk : k.id ≠ K.GUEST_CTL_FENCE.id) : a.rd k = h.rd k ∧ a.rst = h.rst := by
    simp only [a]
    split
    · exact ⟨Hw.rd_wr_ne h hk 1, rfl⟩
    · exact ⟨rfl, rfl⟩
  have running : b.guest.running = grstHigh h := rfl
  have free (k : Key) (hk : LinkFree k) : b.rd k = h.rd k := (fenced k hk.2.2.2.2.2).1
  have same : grstHigh b = grstHigh h :=
    grstHigh_congr (fenced K.ID_CAP_GUEST (by decide)).2 (fenced K.ID_CAP_GUEST (by decide)).1 free
  obtain ⟨run, down, -, kept⟩ := guestLinkFalls_leaves b
  split
  next ok =>
    refine ⟨running, fun hg => ?_, free⟩
    rw [guestLinkOk, same, hg] at ok
    exact Bool.noConfusion ok
  next => exact ⟨run.trans running, fun _ => down, fun k hk => (kept k hk).trans (free k hk)⟩

theorem guestLinkRises_leaves {rate : Nat} (ok : guestLinkOk h = true) (down : h.bit K.GUEST_STAT_UP = false)
    (hr : rate ≤ h.rd K.GUEST_CTL_MAXRATE) (h4 : rate < 4) (full : Bool) : (guestLinkRises h rate full).rd K.GUEST_STAT_UP = 1 ∧
      (guestLinkRises h rate full).rd K.GUEST_STAT_RATE = rate ∧ (guestLinkRises h rate full).rd K.GUEST_STAT_WIDTH = if full then 16 else 8 := by
  unfold guestLinkRises
  rw [if_pos (by rw [ok, down, decide_eq_true hr]; rfl)]
  extract_lets width g
  have gUp : g.rd K.GUEST_STAT_UP = 1 := by
    rw [Hw.rd_wr_ne _ (by decide), Hw.rd_wr_ne _ (by decide), Hw.rd_wr_self]
    rfl
  have gRate : g.rd K.GUEST_STAT_RATE = rate := by
    rw [Hw.rd_wr_ne _ (by decide), Hw.rd_wr_self]
    exact Nat.mod_eq_of_lt (Nat.lt_trans h4 (by decide))
  have gWidth : g.rd K.GUEST_STAT_WIDTH = width := by
    rw [Hw.rd_wr_self]
    cases full with
    | true => rfl
    | false => rfl
  rw [rd_guestEvent (by decide) (by decide), rd_guestEvent (by decide) (by decide), rd_guestEvent (by decide) (by decide), gUp, gRate, gWidth]
  exact ⟨rfl, rfl, rfl⟩

/-! ### The firewall -/

theorem gal_guestFails (h : Hw) (st : Status) (addr : Nat) : (guestFails h st addr).gal = h.gal := by
  have logged : (logAccess h srcGuest .guest st addr).gal = h.gal := (kept_logErr ..).gal
  unfold guestFails guestViolates
  extract_lets c n src g
  have counted : g.gal = h.gal := logged
  split
  · exact (kept_postEvent (g.wr K.GUEST_CTL_FENCE 1) (by decide) ..).gal.trans counted
  · exact counted

/-- A transaction that is answered fails with its status, and nothing of it reaches the Gallery. -/
theorem guestRefuse_leaves {t : GuestTx} (ht : t.kind ≠ .pwrite) (h : Hw) (st : Status) :
    (guestRefuse h t st).guest.lastResp = some (t.tag, st, 0) ∧ (guestRefuse h t st).gal = h.gal := by
  rw [guestRefuse, guestRespond, if_neg ht]
  exact ⟨rfl, gal_guestFails h st t.addr⟩

/-- The state in which a transaction the guest may send is judged. -/
theorem guestHolds_eq (h : Hw) (t : GuestTx) : ∃ ts, guestHolds h t = { h with guest := { h.guest with tags := ts } } := by
  unfold guestHolds
  split
  · exact ⟨h.guest.tags, rfl⟩
  · exact ⟨_, rfl⟩

section
variable {t : GuestTx} {legal : Bool} (hg : hasGuest h = true) (hu : h.bit K.GUEST_STAT_UP = true) (hs : guestMaySend h t = true)
include hg hu hs

theorem guestTake_eq : guestTake h t legal = guestCheck (guestHolds h t) t legal := by
  rw [guestTake, hg, hu, hs]
  rfl

theorem guestTake_fenced (hf : h.bit K.GUEST_CTL_FENCE = true) (hk : t.kind ≠ .pwrite) :
    (guestTake h t legal).guest.lastResp = some (t.tag, .denied, 0) ∧ (guestTake h t legal).gal = h.gal := by
  obtain ⟨ts, holds⟩ := guestHolds_eq h t
  have fence : (guestHolds h t).bit K.GUEST_CTL_FENCE = true := by rw [holds]; exact hf
  obtain ⟨resp, gal⟩ := guestRefuse_leaves hk (guestHolds h t) .denied
  rw [guestTake_eq hg hu hs, guestCheck, if_pos fence, resp, gal, holds]
  exact ⟨rfl, rfl⟩

theorem guestTake_illegal (hf : h.bit K.GUEST_CTL_FENCE = false) (hk : t.kind ≠ .pwrite) :
    (guestTake h t false).guest.lastResp = some (t.tag, .tgterr, 0) ∧ (guestTake h t false).gal = h.gal := by
  obtain ⟨ts, holds⟩ := guestHolds_eq h t
  have fence : ¬ (guestHolds h t).bit K.GUEST_CTL_FENCE = true := by rw [holds]; exact Bool.eq_false_iff.1 hf
  obtain ⟨resp, gal⟩ := guestRefuse_leaves hk (guestHolds h t) .tgterr
  rw [guestTake_eq hg hu hs, guestCheck, if_neg fence, Bool.not_false, Bool.true_or, Bool.true_or, if_pos rfl, resp, gal, holds]
  exact ⟨rfl, rfl⟩

/-- The transaction goes on at once where no other waits and the bucket holds its cost. -/
theorem guestTake_spends (hf : h.bit K.GUEST_CTL_FENCE = false) (h64 : t.size % 64 = 0) (hb : beatsOk t.addr (t.size / 64) = true)
    (hw : h.guest.waiting = []) (hc : guestCost t ≤ h.guest.tokens) : guestTake h t true = guestSpend (guestHolds h t) t := by
  obtain ⟨ts, holds⟩ := guestHolds_eq h t
  have fence : ¬ (guestHolds h t).bit K.GUEST_CTL_FENCE = true := by rw [holds]; exact Bool.eq_false_iff.1 hf
  have waits : (guestHolds h t).guest.waiting = [] := by rw [holds]; exact hw
  have tokens : ¬ (guestHolds h t).guest.tokens < guestCost t := by rw [holds]; exact Nat.not_lt.2 hc
  have shape : (!true || t.size % 64 != 0 || !beatsOk t.addr (t.size / 64)) = false := by rw [h64, hb]; rfl
  rw [guestTake_eq hg hu hs, guestCheck, if_neg fence, shape, if_neg Bool.false_ne_true, waits, decide_eq_false tokens]
  rfl

end

theorem guestMaySend_posted {t : GuestTx} (hk : t.kind = .pwrite) (hp : guestCreditsUsed h true < 64) : guestMaySend h t = true := by
  rw [guestMaySend, hk]
  exact Bool.and_eq_true_iff.2 ⟨decide_eq_true hp, rfl⟩

theorem guestMaySend_tagged {t : GuestTx} (hp : guestCreditsUsed h true < 64) (hn : guestCreditsUsed h false < 64)
    (ht : h.guest.tags.contains t.tag = false) : guestMaySend h t = true := by
  have credit : guestCreditsUsed h (t.kind == .pwrite) < 64 := by
    cases t.kind == .pwrite with
    | true => exact hp
    | false => exact hn
  rw [guestMaySend, decide_eq_true credit, ht, Bool.not_false, Bool.or_true]
  rfl

section
variable {t : GuestTx} {k : Nat} (hm : inMailbox t.addr = false) (hw : (List.range 16).find? (windowHolds h t.addr) = some k)
include hm hw

/-- A transaction a window grants goes to the Gallery at its cost. -/
theorem guestSpend_grants (hk : windowGrants h t k = true) : (guestSpend h t).guest.tokens = h.guest.tokens - guestCost t ∧
    (guestSpend h t).guest.waiting = h.guest.waiting ∧ (guestSpend h t).gal.reqs = h.gal.reqs ++
      [⟨h.gal.nextId, .guest, t.kind, t.addr, t.size, t.data, allOn t.size, t.tag⟩] := by
  rw [guestSpend, guestForward, hm, if_neg Bool.false_ne_true]
  generalize hg : onGuest _ _ = g
  have window : (List.range 16).find? (windowHolds g t.addr) = some k := by rw [← hg]; exact hw
  have grants : windowGrants g t k = true := by rw [← hg]; exact hk
  rw [window]
  dsimp only
  rw [if_pos grants, ← hg]
  exact ⟨rfl, rfl, rfl⟩

theorem guestSpend_denies (hk : windowGrants h t k = false) (hp : t.kind ≠ .pwrite) :
    (guestSpend h t).guest.lastResp = some (t.tag, .denied, 0) ∧ (guestSpend h t).gal = h.gal := by
  rw [guestSpend, guestForward, hm, if_neg Bool.false_ne_true]
  generalize hg : onGuest _ _ = g
  have window : (List.range 16).find? (windowHolds g t.addr) = some k := by rw [← hg]; exact hw
  have denies : windowGrants g t k = false := by rw [← hg]; exact hk
  rw [window]
  dsimp only
  rw [denies, if_neg Bool.false_ne_true]
  obtain ⟨resp, gal⟩ := guestRefuse_leaves hp g .denied
  exact ⟨resp, gal.trans (by rw [← hg]; rfl)⟩

end

/-! ### Deliveries -/

theorem queue_dispatchTo_slots (h : Hw) (p q : Nat) (e : QEntry) (c : Nat) : ∀ x ∈ ((dispatchTo h q e c).queue p).entries, x ∈ (h.queue p).entries := by
  by_cases hp : p = q
  · subst hp
    obtain ⟨u, y, vs, hu, -, heq⟩ := dispatchTo_eq h p e c
    have same : (dispatchTo h p e c).queue p = u.queue p := by rw [heq, Hw.queue, sched_writeFields]; rfl
    rw [same]
    intro x hx
    obtain rfl | ⟨r, rfl⟩ := hu
    · rw [entries_removeSlot_self] at hx
      exact (List.mem_filter.1 hx).1
    · rw [entries_addRes, entries_removeSlot_self] at hx
      exact (List.mem_filter.1 hx).1
  · rw [entries_dispatchTo h q e c hp]
    exact fun _ hx => hx

/-- A dispatch adds no entry to a queue. -/
theorem queue_dispatch_slots (h : Hw) (p : Nat) : ∀ x ∈ ((dispatch h).queue p).entries, x ∈ (h.queue p).entries := by
  have key : ∀ n h, ∀ x ∈ ((dispatchN n h).queue p).entries, x ∈ (h.queue p).entries := by
    intro n
    induction n with
    | zero => exact fun _ _ hx => hx
    | succ n ih =>
      intro h
      unfold dispatchN
      split
      · exact fun _ hx => hx
      · exact fun x hx => queue_dispatchTo_slots h p _ _ _ x (ih _ x hx)
  exact key 63 h

theorem guest_leave (h : Hw) (q : Nat) (e : QEntry) : (leave h q e).guest = h.guest := by
  unfold leave dropTicket
  split
  · rfl
  · rfl

/-- The entry of the oldest delivery leaves its queue with the credit that returns. -/
theorem guestCredit_leaves {q slot : Nat} {rest : List (Nat × Nat)} (hs : h.guest.sent = (q, slot) :: rest)
    (he : ∃ e ∈ (h.queue q).entries, e.slot = slot) : (guestCredit h).guest.sent = rest ∧ ∀ e ∈ ((guestCredit h).queue q).entries, e.slot ≠ slot := by
  rw [guestCredit, hs]
  dsimp only
  generalize hg : onGuest h _ = g
  have same : g.queue q = h.queue q := by rw [← hg]; rfl
  have sent : g.guest.sent = rest := by rw [← hg]; rfl
  obtain ⟨e, he, hslot⟩ := he
  cases hf : (g.queue q).entries.find? fun e => e.slot == slot with
  | none =>
    rw [List.find?_eq_none, same] at hf
    exact absurd (beq_iff_eq.2 hslot) (hf e he)
  | some x =>
    have hx : x.slot = slot := by simpa using List.find?_some hf
    dsimp only
    rw [(kept_dispatch _).guest, guest_leave]
    refine ⟨sent, fun y hy => ?_⟩
    have left := queue_dispatch_slots (leave g q x) q y hy
    rw [entries_leave, List.mem_filter, hx] at left
    simpa using left.2

end Sys2Proof.Machine
end

section
/-!
PROOF. The guest site, continued: messages of the mailbox, the guest's reset and its temperature (R494 to R496).
-/
namespace Sys2Proof.Machine
open Sys2Proof

variable {h : Hw}

/-! ### The mailbox -/

theorem fieldsAt_mbox : fieldsAt 0x1FA0080 = [⟨K.GUEST_MBOX_CTL_FROMFULL, .w1c, .W, .any⟩, ⟨K.GUEST_MBOX_CTL_TOFULL, .w1c, .W, .any⟩,
    ⟨K.GUEST_MBOX_CTL_FROMGO, .wo, .W, .any⟩, ⟨K.GUEST_MBOX_CTL_TOGO, .wo, .W, .any⟩] := rfl

/-- A write of a 0 to a bit that a 1 clears leaves it. -/
theorem rd_writeField_w1c (g : Hw) (m : Master) {f : Field} {k : Key} (hf : f.acc = .w1c) {d mask : Nat} (h0 : fieldIn f.key (d &&& mask) = 0)
    (hk : g.rd k < 2 ^ k.w) (hid : k.id ≠ f.key.id ∨ k = f.key) : (writeField g m f d mask).rd k = g.rd k := by
  unfold writeField
  rw [hf]
  split
  · rfl
  · rw [h0, Nat.and_zero, Nat.sub_zero]
    obtain hne | rfl := hid
    · exact Hw.rd_wr_ne g hne _
    · rw [Hw.rd_wr_self, Nat.mod_eq_of_lt hk]

/-- A GO of the foreman sends the message where the last one was taken. -/
theorem toguest_leaves {m : Master} (hg : hasGuest h = true) (hm : m ≠ .guest) (hb : h.bit K.GUEST_MBOX_CTL_TOFULL = false) :
    (writeGuest h m 0x1FA0080 8 1).rd K.GUEST_MBOX_CTL_TOFULL = 1 := by
  have empty (g : Hw) (h0 : g.rd K.GUEST_MBOX_CTL_TOFULL = 0) : (toGo g m).rd K.GUEST_MBOX_CTL_TOFULL = 1 := by
    rw [toGo, Hw.bit, h0, if_neg (by decide), Hw.rd_wr_self]
    rfl
  have write : (writeReg h m 0x1FA0080 8 1).rd K.GUEST_MBOX_CTL_TOFULL = 0 := by
    have zero := bit_false hb
    rw [writeReg_eq fieldsAt_mbox, List.foldl_cons, List.foldl_cons, List.foldl_cons, List.foldl_cons, List.foldl_nil,
      writeField_wo _ m rfl, writeField_wo _ m rfl]
    have from_ : (writeField h m ⟨K.GUEST_MBOX_CTL_FROMFULL, .w1c, .W, .any⟩ (placed 0x1FA0080 8 1) (writeMask64 0x1FA0080 8)).rd
        K.GUEST_MBOX_CTL_TOFULL = 0 :=
      (rd_writeField_w1c h m rfl (by decide) (by rw [zero]; decide) (.inl (by decide))).trans zero
    exact (rd_writeField_w1c _ m rfl (by decide) (by rw [from_]; decide) (.inr rfl)).trans from_
  have go : writeGuest h m 0x1FA0080 8 1 = toGo (writeReg h m 0x1FA0080 8 1) m := by
    rw [writeGuest]
    dsimp only
    rw [hg, if_neg (by decide), if_neg hm, if_neg (by decide), if_neg (by decide), if_pos (by decide), if_pos (by decide)]
  rw [go]
  exact empty _ write

theorem unfence_leaves {m : Master} (hg : hasGuest h = true) (hm : m ≠ .guest) :
    (writeGuest h m 0x1E00008 8 1).rd K.GUEST_CTL_FENCE = 0 := by
  rw [writeGuest]
  dsimp only
  rw [hg, if_neg (by decide), if_neg hm, if_neg (by decide), if_pos (by decide), if_pos (by decide)]
  exact Hw.rd_wr_self ..

theorem fromGo_leaves (hb : h.bit K.GUEST_MBOX_CTL_FROMFULL = false) : (fromGo h).rd K.GUEST_MBOX_CTL_FROMFULL = 1 := by
  rw [fromGo, hb, if_neg Bool.false_ne_true, rd_guestEvent (by decide) (by decide), Hw.rd_wr_self]
  rfl

/-- A beat at MBOX.CTL whose first word asks for a GO and whose others are 0. -/
theorem mailWrite_go (h : Hw) : mailWrite h 0x120080 64 2 = fromGo h := by
  have first : mailStore h 0x120080 2 = fromGo h := rfl
  have quiet (g : Hw) (off : Nat) (ho : 0x120080 < off ∧ off < 0x120100) : mailStore g off 0 = g := by
    have doorbells : ¬ within off 0x100000 0x120000 = true := by simp only [within, decide_eq_true_eq]; omega
    have words : ¬ within off 0x120040 0x120080 = true := by simp only [within, decide_eq_true_eq]; omega
    rw [mailStore, if_neg doorbells, if_neg words, if_neg (by omega), if_neg (by omega)]
    rfl
  rw [mailWrite, if_neg (by decide), show List.range (64 / 8) = [0, 1, 2, 3, 4, 5, 6, 7] from rfl]
  simp only [List.foldl_cons, List.foldl_nil]
  have zero {i : Nat} (hi : 1 ≤ i ∧ i < 8) (g : Hw) : mailStore g (0x120080 + 8 * i) (2 / 2 ^ (64 * i) % 2 ^ 64) = g := by
    have small : 2 < 2 ^ (64 * i) := Nat.lt_of_lt_of_le (by decide : 2 < 2 ^ 64) (Nat.pow_le_pow_right (by decide) (by omega))
    rw [Nat.div_eq_of_lt small]
    exact quiet g _ (by omega)
  rw [show mailStore h (0x120080 + 8 * 0) (2 / 2 ^ (64 * 0) % 2 ^ 64) = fromGo h from first, zero (by decide), zero (by decide),
    zero (by decide), zero (by decide), zero (by decide), zero (by decide), zero (by decide)]

/-! ### The guest's reset and temperature -/

theorem guestTrip_leaves (ht : h.bit K.GUEST_CTL_TRIPRST = true) (hh : h.bit K.GUEST_STAT_TRIPHOLD = false) :
    (guestTrip h).rd K.GUEST_STAT_TRIPHOLD = 1 := by
  have set : (h.wr K.GUEST_STAT_TRIPHOLD 1).rd K.GUEST_STAT_TRIPHOLD = 1 := Hw.rd_wr_self ..
  rw [guestTrip, ht, hh, if_pos (by rfl)]
  exact set

theorem grstHigh_held (hh : h.rd K.GUEST_STAT_TRIPHOLD = 1) : grstHigh h = false := by
  rw [grstHigh, show h.bit K.GUEST_STAT_TRIPHOLD = true by rw [Hw.bit, hh]; rfl, Bool.not_true, Bool.and_false]

theorem guestSilent_leaves (hv : h.bit K.GUEST_STAT_VGOOD = true) (ht : h.bit K.GUEST_CTL_TRIPRST = true)
    (hh : h.bit K.GUEST_STAT_TRIPHOLD = false) : (guestSilent h).rd K.GUEST_STAT_TRIPHOLD = 1 ∧ (guestSilent h).guest.running = false := by
  have bit {k : Key} (hl : k.lo < 64) (ha : 0x1E00000 ≤ k.addr) : (guestEvent h 0x07 0).bit k = h.bit k :=
    bit_eq_of_rd (rd_guestEvent hl ha h 0x07 0)
  have held : (guestTrip (guestEvent h 0x07 0)).rd K.GUEST_STAT_TRIPHOLD = 1 :=
    guestTrip_leaves ((bit (by decide) (by decide)).trans ht) ((bit (by decide) (by decide)).trans hh)
  obtain ⟨running, -, free⟩ := refreshGuest_leaves (guestTrip (guestEvent h 0x07 0))
  rw [guestSilent, if_pos hv]
  exact ⟨(free K.GUEST_STAT_TRIPHOLD (by decide)).trans held, running.trans (grstHigh_held held)⟩

theorem temp_guestTrip (h : Hw) : (guestTrip h).rd K.GUEST_TEMP_TEMP = h.rd K.GUEST_TEMP_TEMP := by
  unfold guestTrip
  split
  · exact Hw.rd_wr_ne h (k := K.GUEST_STAT_TRIPHOLD) (j := K.GUEST_TEMP_TEMP) (by decide) 1
  · rfl

/-- TEMP shows the report, whatever it warns of or trips. -/
theorem guestReport_leaves (hv : h.bit K.GUEST_STAT_VGOOD = true) {t : Nat} (ht : t < 2 ^ 16) : (guestReport h t).rd K.GUEST_TEMP_TEMP = t := by
  rw [guestReport, hv, Bool.not_true, if_neg Bool.false_ne_true]
  extract_lets a warm b c ends d e
  have first : a.rd K.GUEST_TEMP_TEMP = t := (Hw.rd_wr_self ..).trans (Nat.mod_eq_of_lt ht)
  have event (g : Hw) (code : Nat) : (guestEvent g code t).rd K.GUEST_TEMP_TEMP = g.rd K.GUEST_TEMP_TEMP :=
    rd_guestEvent (by decide) (by decide) g code t
  have warned : b.rd K.GUEST_TEMP_TEMP = t := by
    simp only [b]
    split
    · exact (event a 5).trans first
    · exact first
  have ended : d.rd K.GUEST_TEMP_TEMP = t := by
    simp only [d]
    split
    · exact (Hw.rd_wr_ne c (by decide) 0).trans warned
    · exact warned
  have tripped : e.rd K.GUEST_TEMP_TEMP = t := by
    simp only [e]
    split
    · exact ((temp_guestTrip _).trans (event d 6)).trans ended
    · exact ended
  exact ((refreshGuest_leaves e).2.2 K.GUEST_TEMP_TEMP (by decide)).trans tripped

theorem guestGrst_leaves (h : Hw) (grst trip : Bool) : (guestGrst h grst trip).rd K.GUEST_CTL_GRST = b2n grst ∧
    (guestGrst h grst trip).rd K.GUEST_CTL_TRIPRST = b2n trip ∧ (trip = false → (guestGrst h grst trip).rd K.GUEST_STAT_TRIPHOLD = 0) := by
  unfold guestGrst
  extract_lets a b
  have written : a.rd K.GUEST_CTL_GRST = b2n grst ∧ a.rd K.GUEST_CTL_TRIPRST = b2n trip :=
    ⟨(Hw.rd_wr_ne (h.wrB K.GUEST_CTL_GRST grst) (by decide) _).trans (rd_wrB_self rfl grst), rd_wrB_self rfl trip⟩
  have same (k : Key) : b.rd k = a.rd k := by
    simp only [b]
    split
    · rfl
    · rfl
  obtain ⟨-, -, free⟩ := refreshGuest_leaves (if trip then b else b.wr K.GUEST_STAT_TRIPHOLD 0)
  rw [free K.GUEST_CTL_GRST (by decide), free K.GUEST_CTL_TRIPRST (by decide), free K.GUEST_STAT_TRIPHOLD (by decide)]
  cases trip with
  | true => exact ⟨(same _).trans written.1, (same _).trans written.2, fun e => Bool.noConfusion e⟩
  | false =>
    rw [if_neg Bool.false_ne_true, Hw.rd_wr_ne b (by decide), Hw.rd_wr_ne b (by decide), Hw.rd_wr_self, Nat.zero_mod]
    exact ⟨(same _).trans written.1, (same _).trans written.2, fun _ => rfl⟩

theorem vguest_leaves (h : Hw) (good : Bool) : (refreshGuest (h.wrB K.GUEST_STAT_VGOOD good)).rd K.GUEST_STAT_VGOOD = b2n good ∧
    (good = false → (refreshGuest (h.wrB K.GUEST_STAT_VGOOD good)).guest.running = false ∧
      (refreshGuest (h.wrB K.GUEST_STAT_VGOOD good)).rd K.GUEST_STAT_UP = 0) := by
  have written : (h.wrB K.GUEST_STAT_VGOOD good).rd K.GUEST_STAT_VGOOD = b2n good := rd_wrB_self rfl good
  obtain ⟨running, down, free⟩ := refreshGuest_leaves (h.wrB K.GUEST_STAT_VGOOD good)
  refine ⟨(free K.GUEST_STAT_VGOOD (by decide)).trans written, fun hg => ?_⟩
  have low : grstHigh (h.wrB K.GUEST_STAT_VGOOD good) = false := by
    have off : (h.wrB K.GUEST_STAT_VGOOD good).bit K.GUEST_STAT_VGOOD = false := by rw [Hw.bit, written, hg]; rfl
    rw [grstHigh, off, Bool.and_false]
    rfl
  exact ⟨running.trans low, down low⟩

/-! ### The commands -/

theorem csr_onGuest (h : Hw) (f : Guest → Guest) : (onGuest h f).csr = h.csr := rfl

section
variable {t : GuestTx} {k : Nat} (hg : hasGuest h = true) (hu : h.bit K.GUEST_STAT_UP = true) (hf : h.bit K.GUEST_CTL_FENCE = false)
  (hw : h.guest.waiting = [])
include hg hu hf hw

/-- A transaction that its window grants takes its cost and goes out; one that is denied is answered. -/
theorem guestTake_window (hs : guestMaySend h t = true) (h64 : t.size % 64 = 0)
    (hb : beatsOk t.addr (t.size / 64) = true) (hc : (16 + t.size) * 800 ≤ h.guest.tokens) (hm : inMailbox t.addr = false)
    (hk : (List.range 16).find? (windowHolds h t.addr) = some k) :
    (windowGrants h t k = true → (guestTake h t true).guest.tokens = h.guest.tokens - guestCost t ∧
      (guestTake h t true).gal.reqs = h.gal.reqs ++ [⟨h.gal.nextId, .guest, t.kind, t.addr, t.size, t.data, allOn t.size, t.tag⟩]) ∧
    (windowGrants h t k = false → t.kind ≠ .pwrite → (guestTake h t true).guest.lastResp = some (t.tag, .denied, 0) ∧
      (guestTake h t true).gal = h.gal) := by
  have cost : guestCost t ≤ h.guest.tokens := by
    unfold guestCost
    split
    · exact Nat.le_trans (Nat.mul_le_mul_right 800 (Nat.le_add_right 16 t.size)) hc
    · exact hc
  obtain ⟨ts, holds⟩ := guestHolds_eq h t
  rw [guestTake_spends hg hu hs hf h64 hb hw cost]
  generalize guestHolds h t = g at holds
  have window : (List.range 16).find? (windowHolds g t.addr) = some k := by rw [holds]; exact hk
  have grant : windowGrants g t k = windowGrants h t k := by rw [holds]; rfl
  have tokens : g.guest.tokens = h.guest.tokens := by rw [holds]
  have gal : g.gal = h.gal := by rw [holds]
  refine ⟨fun grants => ?_, fun denies kind => ?_⟩
  · obtain ⟨spent, -, reqs⟩ := guestSpend_grants hm window (grant.trans grants)
    rw [spent, reqs, tokens, gal]
    exact ⟨rfl, rfl⟩
  · obtain ⟨resp, same⟩ := guestSpend_denies hm window (grant.trans denies) kind
    exact ⟨resp, same.trans gal⟩

/-- A GO of the guest passes the firewall and posts its message. -/
theorem fromguest_leaves (hp : guestCreditsUsed h true < 64) (hc : 64000 ≤ h.guest.tokens) (hb : h.bit K.GUEST_MBOX_CTL_FROMFULL = false) :
    (guestTake h ⟨.pwrite, false, 0, mailBase + 0x120080, 64, 2⟩ true).rd K.GUEST_MBOX_CTL_FROMFULL = 1 := by
  have posted (g : Hw) (hg : g.bit K.GUEST_MBOX_CTL_FROMFULL = false) :
      (guestForward g ⟨.pwrite, false, 0, mailBase + 0x120080, 64, 2⟩).rd K.GUEST_MBOX_CTL_FROMFULL = 1 := by
    rw [guestForward, if_pos (by decide), if_neg (by decide), guestRespond, if_pos rfl]
    exact (congrArg (fun g => Hw.rd g K.GUEST_MBOX_CTL_FROMFULL) (mailWrite_go g)).trans (fromGo_leaves hg)
  rw [guestTake_spends (t := ⟨.pwrite, false, 0, mailBase + 0x120080, 64, 2⟩) hg hu (guestMaySend_posted rfl hp) hf rfl (by decide) hw
    (Nat.le_trans (by decide : guestCost ⟨.pwrite, false, 0, mailBase + 0x120080, 64, 2⟩ ≤ 64000) hc)]
  obtain ⟨ts, holds⟩ := guestHolds_eq h ⟨.pwrite, false, 0, mailBase + 0x120080, 64, 2⟩
  exact posted _ ((Hw.bit_congr ((csr_onGuest _ _).trans (by rw [holds])) _).trans hb)

end

theorem guestDeliver_leaves {q : Nat} {e : QEntry} (hg : hasGuest h = true) (he : qEn h q = true) (hd : qDeliver h q = true) (hk : qKind h q = 4)
    (hf : h.bit K.GUEST_CTL_FENCE = false) (hu : h.bit K.GUEST_STAT_UP = true)
    (hfind : ((h.queue q).entries.find? fun e => !(h.guest.sent.contains (q, e.slot))) = some e) :
    (guestDeliver h q).guest.sent = h.guest.sent ++ [(q, e.slot)] ∧
      (guestDeliver h q).guest.lastWrite = some (h.rd (K.SCHED_Q_DEST_DEST q) / 64 * 64, descNat (slotDesc h q e.slot)) := by
  unfold guestDeliver
  rw [hg, he, hd, hk, hf, hu, hfind]
  exact ⟨rfl, rfl⟩

theorem guestRelease_leaves {t : GuestTx} {rest : List GuestTx} {k : Nat} (hw : h.guest.waiting = t :: rest)
    (hc : guestCost t ≤ h.guest.tokens) (hm : inMailbox t.addr = false) (hk : (List.range 16).find? (windowHolds h t.addr) = some k)
    (hgr : windowGrants h t k = true) : (guestRelease h).guest.waiting = rest ∧ (guestRelease h).guest.tokens = h.guest.tokens - guestCost t ∧
      (guestRelease h).gal.reqs.length = h.gal.reqs.length + 1 := by
  unfold guestRelease
  rw [hw]
  dsimp only
  rw [if_neg (Nat.not_lt.2 hc)]
  generalize hg : onGuest h _ = g
  have window : (List.range 16).find? (windowHolds g t.addr) = some k := by rw [← hg]; exact hk
  have grants : windowGrants g t k = true := by rw [← hg]; exact hgr
  obtain ⟨tokens, waiting, reqs⟩ := guestSpend_grants hm window grants
  rw [tokens, waiting, reqs, List.length_append, ← hg]
  exact ⟨rfl, rfl, rfl⟩

/-- Settles O56: the guest's link and reset, its firewall and bucket, deliveries, the mailbox and the trips. -/
theorem guestSite : Obligations.GuestSite := by
  unfold Obligations.GuestSite
  have read : GKind.read ≠ .pwrite := by decide
  have cost (fetch : Bool) (tag a size : Nat) : guestCost ⟨.read, fetch, tag, a, size, 0⟩ = 12800 := by rw [guestCost, if_pos rfl]
  refine ⟨fun s r full => ⟨fun ok down hr => ⟨_, rfl, guestLinkRises_leaves ok down hr r.isLt full⟩,
      fun up => ⟨_, rfl, (guestLinkFalls_leaves s.hw).2.1, (guestLinkFalls_leaves s.hw).2.2.1 up⟩⟩,
    fun s hd d hg hu hp hn ht => ⟨fun hf => ⟨_, rfl, ?_⟩, fun hf hl => ⟨_, rfl, ?_⟩, fun hf hl h64 hb hw hc hm k hk => ?_⟩,
    fun s t rest k hw hc hm hk hgr => ⟨_, rfl, guestRelease_leaves hw hc hm hk hgr⟩,
    fun s q e hg he hd hk hf hu hfind => ⟨_, rfl, guestDeliver_leaves hg he hd hk hf hu hfind⟩,
    fun s q slot rest hs he => ⟨_, rfl, guestCredit_leaves hs he⟩,
    fun s m hg hm => ⟨fun gate => ⟨_, rfl, ?_⟩, fun gate hb => ⟨_, rfl, ?_⟩, fun gate grst trip => ⟨_, rfl, ?_⟩⟩,
    fun s hg hu hf hp hw hc hb => ⟨_, rfl, fromguest_leaves hg hu hf hw hp hc hb⟩,
    fun s v hv => ⟨⟨_, rfl, guestReport_leaves hv v.isLt⟩, fun ht hh => ⟨_, rfl, guestSilent_leaves hv ht hh⟩⟩,
    fun s good hg => ⟨_, rfl, ?_⟩⟩
  · exact guestTake_fenced hg hu (guestMaySend_tagged hp hn ht) hf read
  · simp only [State.onHw, hl]
    exact guestTake_illegal hg hu (guestMaySend_tagged hp hn ht) hf read
  · have window {t : GuestTx} (hta : t.tag = hd.tag.val) (haddr : t.addr = hd.addr) (hsize : t.size = hd.size) :=
      guestTake_window (t := t) (k := k) hg hu hf hw (guestMaySend_tagged hp hn (hta ▸ ht)) (hsize ▸ h64) (by rw [haddr, hsize]; exact hb)
        (hsize ▸ hc) (haddr ▸ hm) (haddr ▸ hk)
    refine ⟨fun hr => ⟨_, rfl, ?_⟩, fun hx => ⟨_, rfl, ?_⟩, fun hwr => ⟨⟨_, rfl, ?_⟩, ⟨_, rfl, ?_⟩⟩, fun hr => ⟨_, rfl, ?_⟩⟩
    · have sent := (window (t := ⟨.read, false, hd.tag.val, hd.addr, hd.size, 0⟩) rfl rfl rfl).1 hr
      rw [cost] at sent
      simp only [State.onHw, hl]
      exact sent
    · have sent := (window (t := ⟨.read, true, hd.tag.val, hd.addr, hd.size, 0⟩) rfl rfl rfl).1 hx
      rw [cost] at sent
      simp only [State.onHw, hl]
      exact sent
    · simp only [State.onHw, hl]
      exact (window rfl rfl rfl).1 hwr
    · simp only [State.onHw, hl]
      exact (window rfl rfl rfl).1 hwr
    · simp only [State.onHw, hl]
      exact (window rfl rfl rfl).2 hr read
  · simp only [State.onHw]
    rw [gated_ok gate]
    exact unfence_leaves hg hm
  · simp only [State.onHw]
    rw [gated_ok gate]
    exact toguest_leaves hg hm hb
  · simp only [State.onHw]
    rw [gated_ok gate, if_pos hg]
    exact guestGrst_leaves s.hw grst trip
  · simp only [State.onHw]
    rw [if_pos hg]
    exact vguest_leaves s.hw good

end Sys2Proof.Machine
end

section
/-!
PROOF. What the parts of a reset leave of the reset controller and of the control registers (R432 to R440).
-/
namespace Sys2Proof.Machine
open Sys2Proof

/-! ### Sessions -/

/-- The reset controller is the same. -/
def RstKept (h t : Hw) : Prop := t.rst = h.rst

theorem RstKept.sessionRel : SessionRel RstKept where
  refl _ := rfl
  trans a b := Eq.trans b a
  kept k := k.rst
  claim _ _ := rfl
  load _ _ := rfl
  wr _ _ _ := rfl
  dbg _ _ _ := rfl
  pcie _ _ := rfl

theorem rst_endSession (h : Hw) (cause : Nat) : (endSession h cause).rst = h.rst := RstKept.sessionRel.endSession h cause

theorem rst_flashCut (v : NonVol) (h : Hw) (n : Nat) : (flashCut v h n).2.rst = h.rst := by
  unfold flashCut
  split
  · rfl
  · dsimp only
    split
    · rfl
    · rfl
    · rfl

theorem rst_cutFlashes (v : NonVol) (h : Hw) : (cutFlashes v h).2.rst = h.rst := by
  unfold cutFlashes
  exact List.foldlRecOn (motive := fun x : NonVol × Hw => x.2.rst = h.rst) (List.range 4) _ rfl
    fun x hx n _ => (rst_flashCut x.1 x.2 n).trans hx

/-! ### The parts of a die reset -/

namespace ControlKept
variable {h t u : Hw}

theorem coreRel (c : Nat) : CoreRel ControlKept c where
  refl := refl
  trans := trans
  kept := of_kept
  claim _ _ := of_eq rfl rfl rfl
  load _ _ := of_eq rfl rfl rfl
  wr h _ hk v := wr h (by obtain ⟨-, ha⟩ := hk; omega) v
  halt h := wr h (by decide) _

theorem of_ldr (h : Hw) (x : Loader) : ControlKept h { h with ldr := x } := of_eq rfl rfl rfl
theorem of_gal (h : Hw) (x : Gallery) : ControlKept h { h with gal := x } := of_eq rfl rfl rfl
theorem onSeam (h : Hw) (k : Nat) (f : SeamSt → SeamSt) : ControlKept h (h.onSeam k f) := of_eq rfl rfl rfl
theorem ofDesign (h : Hw) : ControlKept h (runDesign h) :=
  ⟨(designRan_runDesign h).rst, (designRan_runDesign h).pwr, fun k hk => (designRan_runDesign h).rd k hk.sched⟩

theorem abortStrata (h : Hw) (n : Nat) : ControlKept h (abortStrata h n) := by
  unfold Machine.abortStrata
  split
  · exact (onDie ..).trans (wr _ (by simp only [K.STRATA_STAT_LAST]; omega) _)
  · exact refl h

theorem refreshOffline (h : Hw) (n : Nat) : ControlKept h (refreshOffline h n) :=
  foldl (fun g p _ => wrB g (by simp only [K.FPORT_STAT_OFFLINE]; omega) _) h

theorem snapSeam (h : Hw) (k : Nat) : ControlKept h (snapSeam h k) := by
  unfold Machine.snapSeam
  split
  · exact refl h
  · extract_lets c
    have drawn : ControlKept h h.draw.2 := of_eq rfl rfl rfl
    refine drawn.trans (foldl (fun g d _ => ?_) _)
    refine foldl (fun g i _ => ?_) g
    split
    · exact onSeam ..
    · exact refl g

theorem holdGroups (h : Hw) (k : Nat) (p : Nat → Nat → Bool) : ControlKept h (holdGroups h k p) := by
  unfold Machine.holdGroups
  refine foldl (fun g d _ => foldl (fun g i _ => ?_) g) h
  split
  · exact refl g
  · exact wrSeam g (k := k) (by simp only [K.SEAM_GRP_STAT_GSTATE]; omega) _

theorem quarantine (h : Hw) (k : Nat) : ControlKept h (quarantine h k) := by
  unfold Machine.quarantine
  split
  · exact refl h
  · extract_lets a b
    have shown : ControlKept h b := ((ofDesign h).trans (snapSeam ..)).trans
      ((onSeam ..).trans (wrSeam _ (k := k) (by simp only [K.SEAM_STAT_STATE]; omega) 7))
    split
    · exact shown.trans ((holdGroups ..).trans (foldl (fun g x _ => wr g (by simp only [K.SEAM_BIND_STAT_ALIGNED]; omega) 0) _))
    · exact shown.trans (refreshOffline ..)

theorem quarantineDie (h : Hw) (n : Nat) : ControlKept h (quarantineDie h n) :=
  ((quarantine ..).trans (quarantine ..)).trans (quarantine ..)

theorem strataAnswers (h : Hw) (n st : Nat) : ControlKept h (strataAnswers h n st) := by
  unfold Machine.strataAnswers
  refine foldl (fun g c _ => ?_) h
  split
  · split
    · exact (coreRel c.val).finishDev ..
    · exact refl g
  · split
    · exact (coreRel c.val).finishDev ..
    · exact refl g
  · exact refl g

theorem dieAnswers (h : Hw) (n : Nat) : ControlKept h (dieAnswers h n) := by
  unfold Machine.dieAnswers
  extract_lets acks src a b c
  have answered : ControlKept h a := of_eq rfl rfl rfl
  have ended : ControlKept a b := by
    simp only [b]
    split
    · split
      · exact (coreRel _).finishDev ..
      · exact refl a
    · exact refl a
  have freed : ControlKept b c := by
    simp only [c]
    split
    · exact (coreRel 0).onCore ..
    · exact refl b
  exact ((answered.trans ended).trans freed).trans ((abortStrata c n).trans (strataAnswers ..))

theorem dieQueues (h : Hw) (n : Nat) : ControlKept h (dieQueues h n) := by
  unfold Machine.dieQueues
  extract_lets src a
  have cut : ControlKept h a := of_eq rfl rfl rfl
  refine cut.trans (trans (foldl (fun g q _ => ?_) a) (of_kept (kept_dispatch _)))
  split
  · exact discardAll ..
  · exact refl g

theorem resetPorts (h : Hw) (n : Nat) : ControlKept h (resetPorts h n) := by
  unfold Machine.resetPorts
  extract_lets a ofDie b src c src' d
  have answered : ControlKept h a := foldl (fun g p _ => foldl (fun g e _ => answer g e.2 .offline 0) g) h
  have cleared : ControlKept a b := onDie ..
  have forgot : ControlKept b c := of_sched ..
  have dropped : ControlKept c d := of_gal ..
  exact ((answered.trans cleared).trans forgot).trans (dropped.trans (of_pcie ..))

theorem dieUnready (h : Hw) (n : Nat) : ControlKept h (dieUnready h n) :=
  ((onDie ..).trans (wr _ (j := K.ASSAY_STAT_READY n) (by simp only [K.ASSAY_STAT_READY]; omega) 0)).trans
    (wr _ (j := K.CFG_ASSAYSTAT_DEVREADY) (by decide) 0)

theorem loadFails (h : Hw) (code detail seg faddr : Nat) : ControlKept h (loadFails h code detail seg faddr) := by
  unfold Machine.loadFails
  split
  · split
    · exact refl h
    · exact (of_ldr h _).trans (wr _ (j := K.CFG_LOAD_STAGE) (by decide) _)
  · exact refl h

theorem dieLoad (h : Hw) (n : Nat) : ControlKept h (dieLoad h n) := by
  unfold Machine.dieLoad
  split
  · split
    · split
      · exact loadFails ..
      · exact refl h
    · exact refl h
  · exact refl h

end ControlKept

end Sys2Proof.Machine
end

section
/-!
PROOF. Resets: their causes, the first steps of a cold, a warm and a die reset, and the frames zeroed (R432 to R440, R459).
-/
namespace Sys2Proof.Machine
open Sys2Proof

variable {h : Hw}

/-! ### Requests -/

/-- While the hub runs a request stands at once, cold where one of its reach stood or is asked for. -/
theorem requestReset_leaves (hp : h.rst.phase = .running) (cold : Bool) (cause : Key) :
    (requestReset h cold cause).rst = { h.rst with request := some (cold || h.rst.request == some true) } ∧
      ∀ k, (requestReset h cold cause).rd k = (h.wr cause 1).rd k := by
  have runs : resetting (h.wr cause 1) = false := by
    have same : (h.wr cause 1).rst = h.rst := rfl
    rw [resetting, same, hp]
    rfl
  unfold requestReset
  dsimp only
  rw [runs, Bool.false_and, if_neg Bool.false_ne_true]
  exact ⟨rfl, fun _ => rfl⟩

theorem resetPinFalls_leaves (hp : h.rst.phase = .running) : (resetPinFalls h).rst.pinLow = true ∧
    (resetPinFalls h).rst.request = some true ∧ (resetPinFalls h).rd K.RST_CAUSE_PIN = 1 := by
  have notRails : ((onRst h fun r => { r with pinLow := true }).rst.phase == .rails) = false := by
    show (h.rst.phase == .rails) = false
    rw [hp]
    rfl
  obtain ⟨rst, rd⟩ := requestReset_leaves (h := onRst h fun r => { r with pinLow := true }) hp true K.RST_CAUSE_PIN
  rw [resetPinFalls, notRails, if_neg Bool.false_ne_true, rst, rd, Hw.rd_wr_self]
  exact ⟨rfl, rfl, rfl⟩

theorem linkFalls_up (h : Hw) : (linkFalls h).rd K.PCIE_STAT_UP = 0 := by
  rw [linkFalls, Hw.rd_wr_ne _ (by decide), Hw.rd_wr_ne _ (by decide), Hw.rd_wr_ne _ (by decide), Hw.rd_wr_self, Nat.zero_mod]

theorem perstFalls_leaves (hp : h.rst.phase = .running) : (perstFalls h).rst.perstLow = true ∧ linkUp (perstFalls h) = false ∧
    (perstFalls h).rd K.RST_CAUSE_PERST = 1 ∧
    (perstFalls h).rst.request = some (optByte h 4 / 2 % 2 == 1 || h.rst.request == some true) := by
  rw [perstFalls, hp, if_neg (by decide)]
  extract_lets u src
  have down : u.rd K.PCIE_STAT_UP = 0 := linkFalls_up _
  have opt : optByte u 4 = optByte h 4 := by
    have same := (ControlKept.linkFalls (onRst h fun r => { r with perstLow := true })).rd (K.RST_OPT_BYTES (4 / 8)) ⟨by decide, by decide⟩
    rw [optByte, same, optByte]
    rfl
  have phase : u.rst.phase = .running := hp
  obtain ⟨rst, rd⟩ := requestReset_leaves (h := { u with pcie := { u.pcie with ready := false } }) phase (optByte u 4 / 2 % 2 == 1) K.RST_CAUSE_PERST
  rw [linkUp, Hw.bit, rst, rd, rd, Hw.rd_wr_self, Hw.rd_wr_ne _ (by decide), opt]
  refine ⟨rfl, ?_, rfl, rfl⟩
  show (u.rd K.PCIE_STAT_UP != 0) = false
  rw [down]
  rfl

theorem critFails_leaves (hp : h.rst.phase = .running) (what : CritUnit) : (critFails h what).rd K.RST_CAUSE_CRIT = 1 ∧
    (critFails h what).rst.request = some (h.rst.request == some true) := by
  unfold critFails
  extract_lets a u
  have same : u.rst = h.rst := by
    simp only [u]
    split
    · exact (kept_logEntry ..).rst
    · rfl
  obtain ⟨rst, rd⟩ := requestReset_leaves (h := u) (same ▸ hp) false K.RST_CAUSE_CRIT
  have logged := kept_logEvent (requestReset u false K.RST_CAUSE_CRIT) srcReset 0 K.RST_CAUSE_CRIT.addr
  rw [logged.rst, logged.rd _ (by simp [OffSched, K.RST_CAUSE_CRIT]), rst, rd, Hw.rd_wr_self, same]
  exact ⟨rfl, rfl⟩

/-! ### Cold and warm -/

/-- What the inputs from outside write of the registers leaves the rest of the device. -/
theorem restoreInputs_leaves (old h : Hw) : (restoreInputs old h).rst = h.rst ∧ (restoreInputs old h).cores = h.cores ∧
    (restoreInputs old h).sched = h.sched ∧ (restoreInputs old h).keys = h.keys := by
  unfold restoreInputs
  extract_lets u
  have rst : u.rst = h.rst := foldl_keeps (f := fun g b => g.wrB (K.IOBANK_STAT_VGOOD (bankDie b) (bankJ b)) (g.pwr.vccio.testBit b))
    (fun g : Hw => g.rst) (fun _ _ _ => rfl) h
  have cores : u.cores = h.cores := foldl_keeps (f := fun g b => g.wrB (K.IOBANK_STAT_VGOOD (bankDie b) (bankJ b)) (g.pwr.vccio.testBit b))
    (fun g : Hw => g.cores) (fun _ _ _ => rfl) h
  have sched : u.sched = h.sched := foldl_keeps (f := fun g b => g.wrB (K.IOBANK_STAT_VGOOD (bankDie b) (bankJ b)) (g.pwr.vccio.testBit b))
    (fun g : Hw => g.sched) (fun _ _ _ => rfl) h
  have keys : u.keys = h.keys := foldl_keeps (f := fun g b => g.wrB (K.IOBANK_STAT_VGOOD (bankDie b) (bankJ b)) (g.pwr.vccio.testBit b))
    (fun g : Hw => g.keys) (fun _ _ _ => rfl) h
  exact ⟨(Hw.wr_rst ..).trans rst, (Hw.wr_cores ..).trans cores, (Hw.wr_sched ..).trans sched, (Hw.wr_keys ..).trans keys⟩

/-- The state a cold reset begins from. -/
theorem coldReset_leaves (v : NonVol) (h : Hw) : (coldReset v h).2.rst.phase = .fuses ∧ (coldReset v h).2.rst.request = none ∧
    (coldReset v h).2.rd K.RST_CAUSE_LASTREACH = 0 ∧ (coldReset v h).2.cores = [] ∧ (coldReset v h).2.sched = {} ∧ (coldReset v h).2.keys = {} := by
  have last (g : Hw) : (g.wr K.RST_CAUSE_LASTREACH 0).rd K.RST_CAUSE_LASTREACH = 0 := (Hw.rd_wr_self ..).trans (Nat.zero_mod _)
  have base (g : Hw) : (coldBase g).rst.phase = .fuses ∧ (coldBase g).rst.request = none ∧ (coldBase g).cores = [] ∧ (coldBase g).sched = {} ∧
      (coldBase g).keys = {} := by
    unfold coldBase
    extract_lets u
    obtain ⟨rst, cores, sched, keys⟩ := restoreInputs_leaves g u
    rw [rst, cores, sched, keys]
    exact ⟨rfl, rfl, rfl, rfl, rfl⟩
  rw [coldReset]
  generalize cutFlashes v (endSession h lostReset) = x
  obtain ⟨w, g⟩ := x
  obtain ⟨phase, request, cores, sched, keys⟩ := base g
  dsimp only
  generalize coldBase g = b at phase request cores sched keys
  rw [Hw.wr_rst, last, Hw.wr_cores, Hw.wr_sched, Hw.wr_keys]
  exact ⟨phase, request, rfl, cores, sched, keys⟩

theorem powerOn_leaves (v : NonVol) (h : Hw) (rail : CoreRail) : (powerOn v h rail).2.rst.phase = .rails ∧
    (powerOn v h rail).2.rd K.RST_CAUSE_POR = 1 ∧ (powerOn v h rail).2.rd K.RST_CAUSE_PIN = 0 ∧
    (powerOn v h rail).2.rd K.RST_CAUSE_WARM = 0 ∧ (powerOn v h rail).2.cores = [] := by
  obtain ⟨-, -, -, cores, -, -⟩ := coldReset_leaves v h
  rw [powerOn]
  generalize coldReset v h = x at cores
  obtain ⟨w, g⟩ := x
  dsimp only at cores ⊢
  simp only [List.foldl_cons, List.foldl_nil]
  generalize hu : (if rail = CoreRail.vccaux then _ else _ : Hw) = u
  have cleared : u.rd K.RST_CAUSE_PIN = 0 ∧ u.rd K.RST_CAUSE_WARM = 0 ∧ u.cores = [] := by
    have zero (a : Hw) {k : Key} : (a.wr k 0).rd k = 0 := (Hw.rd_wr_self ..).trans (Nat.zero_mod _)
    rw [← hu]
    split
    · rw [Hw.rd_wr_ne _ (by decide), zero, Hw.rd_wr_ne _ (by decide), Hw.rd_wr_ne _ (by decide), Hw.rd_wr_ne _ (by decide), Hw.rd_wr_ne _ (by decide), zero]
      exact ⟨rfl, rfl, cores⟩
    · rw [zero, Hw.rd_wr_ne _ (by decide), Hw.rd_wr_ne _ (by decide), Hw.rd_wr_ne _ (by decide), zero]
      exact ⟨rfl, rfl, cores⟩
  have final (a : Hw) (f : RstSt → RstSt) (k : Key) : (onRst a f).rd k = a.rd k := rfl
  obtain ⟨pin, warm, none_⟩ := cleared
  rw [final, final, final, Hw.rd_wr_self, Hw.rd_wr_ne _ (by decide), Hw.rd_wr_ne _ (by decide), pin, warm]
  exact ⟨rfl, rfl, rfl, rfl, none_⟩

theorem rst_optionWarm (h : Hw) : (optionWarm h).rst = h.rst := rfl

/-- The state a warm reset begins from. -/
theorem warmReset_leaves (v : NonVol) (h : Hw) : (warmReset v h).2.rst.phase = .fill ∧ (warmReset v h).2.rst.warm = true ∧
    (warmReset v h).2.rst.request = none ∧ (warmReset v h).2.rd K.RST_CAUSE_LASTREACH = 1 ∧ (warmReset v h).2.rst.fuses = h.rst.fuses := by
  have base (g : Hw) : (warmBase g).rst.phase = .fill ∧ (warmBase g).rst.warm = true ∧ (warmBase g).rst.request = none ∧
      (warmBase g).rst.fuses = g.rst.fuses := by
    unfold warmBase
    extract_lets cut held src u w
    have restored : w.rst = u.rst := (rst_optionWarm _).trans (restoreInputs_leaves g u).1
    have same : (cut.foldl (fun h r => h.wr (K.CIPH_R_MER_CUT r) 1) w).rst = w.rst := foldl_keeps (f := fun h r => h.wr (K.CIPH_R_MER_CUT r) 1)
      (fun g : Hw => g.rst) (fun _ _ _ => rfl) w
    rw [same, restored]
    exact ⟨rfl, rfl, rfl, rfl⟩
  rw [warmReset]
  have kept : (cutFlashes v (endSession h lostReset)).2.rst = h.rst := (rst_cutFlashes ..).trans (rst_endSession ..)
  generalize cutFlashes v (endSession h lostReset) = x at kept
  obtain ⟨w, g⟩ := x
  dsimp only at kept ⊢
  have parked : ((List.range 4).foldl abortStrata ((List.range 4).foldl parkChannel g)).rst = h.rst :=
    ((ControlKept.foldl (fun a n _ => .parkChannel a n) g).trans (ControlKept.foldl (fun a n _ => .abortStrata a n) _)).rst.trans kept
  generalize (List.range 4).foldl abortStrata ((List.range 4).foldl parkChannel g) = u at parked
  obtain ⟨phase, warm, request, fuses⟩ := base u
  generalize warmBase u = b at phase warm request fuses
  have trained := ControlKept.trainHubSeams (b.wr K.RST_CAUSE_LASTREACH 1)
  rw [trained.rst, trained.rd _ ⟨by decide, by decide⟩, Hw.rd_wr_self]
  exact ⟨phase, warm, request, rfl, fuses.trans (congrArg RstSt.fuses parked)⟩

/-! ### A die's reset -/

/-- The registers of a die take their reset values, which no control register is among, and the die's state is reset. -/
theorem dieRegisters_leaves (h : Hw) (n : Nat) : (dieRegisters h n).rst = h.rst ∧ (∀ k, ControlReg k → (dieRegisters h n).rd k = h.rd k) ∧
    (dieRegisters h n).die n = dieBaseSt (h.die n) := by
  unfold dieRegisters
  extract_lets a b src c d
  have fields (g : Hw) : ControlKept g ((List.range 12).foldl (fun h j => h.wrB (K.IOBANK_STAT_VGOOD n j) (h.pwr.vccio.testBit (12 * n + j))) g) :=
    .foldl (fun g j _ => .wrB g (by simp only [K.IOBANK_STAT_VGOOD]; omega) _) g
  have dies (g : Hw) : ((List.range 12).foldl (fun h j => h.wrB (K.IOBANK_STAT_VGOOD n j) (h.pwr.vccio.testBit (12 * n + j))) g).dies = g.dies :=
    foldl_keeps (f := fun h j => h.wrB (K.IOBANK_STAT_VGOOD n j) (h.pwr.vccio.testBit (12 * n + j))) (fun g : Hw => g.dies) (fun _ _ _ => rfl) g
  have kept (k : Key) (hk : ControlReg k) : a.rd k = h.rd k := by
    obtain ⟨hl, ha⟩ := hk
    have other : dieField n k.id = false := by
      have low : dieBase n ≤ k.id / 64 → False := by
        simp only [dieBase, Key.id]
        omega
      rw [dieField, decide_eq_false fun hb => low hb.1, Bool.false_and]
    refine (SMap.get_keep h.csr (fun k => !dieField n k) k.id k.rst).trans ?_
    rw [other]
    rfl
  refine ⟨(fields d).rst, fun k hk => ((fields d).rd k hk).trans (kept k hk), ?_⟩
  rw [Hw.die, dies d]
  exact Hw.die_onDie_self a n dieBaseSt

theorem refreshOffline_leaves (h : Hw) (n : Nat) : (refreshOffline h n).pins = h.pins ∧ ∀ m, (refreshOffline h n).die m = h.die m := by
  unfold refreshOffline
  extract_lets off
  have dies := foldl_keeps (f := fun h p => h.wrB (K.FPORT_STAT_OFFLINE n p) off) (fun g : Hw => g.dies) (fun _ _ _ => rfl) h (l := List.range 8)
  exact ⟨foldl_keeps (f := fun h p => h.wrB (K.FPORT_STAT_OFFLINE n p) off) (fun g : Hw => g.pins) (fun _ _ _ => rfl) h,
    fun m => die_congr dies m⟩

/-- DONE falls and the ports of the die go offline. -/
theorem doneFalls_leaves (h : Hw) (n : Nat) : ControlKept h (refreshOffline { h with pins := { h.pins with done := false } } n) ∧
    (refreshOffline { h with pins := { h.pins with done := false } } n).pins.done = false ∧
    ∀ m, (refreshOffline { h with pins := { h.pins with done := false } } n).die m = h.die m := by
  have low : ControlKept h { h with pins := { h.pins with done := false } } := .of_eq rfl rfl rfl
  have same (m : Nat) : ({ h with pins := { h.pins with done := false } } : Hw).die m = h.die m := rfl
  obtain ⟨pins, dies⟩ := refreshOffline_leaves { h with pins := { h.pins with done := false } } n
  exact ⟨low.trans (.refreshOffline ..), congrArg Pins.done pins, fun m => (dies m).trans (same m)⟩

theorem die_wr (h : Hw) (k : Key) (v n : Nat) : (h.wr k v).die n = h.die n := rfl

theorem dieReset_leaves (v : NonVol) {d : Die} (hs : bits h.rst.dieReq (3 * d.val + 2) (3 * d.val) ≠ 0) (hr : hubRuns h = true)
    (hf : resetFree h = true) : (dieReset v h d.val).2.rd (K.RST_DIE_INRESET d.val) = 1 ∧ released (dieReset v h d.val).2 d.val = false ∧
      (dieReset v h d.val).2.pins.done = false ∧ bits (dieReset v h d.val).2.rst.dieReq (3 * d.val + 2) (3 * d.val) = 0 := by
  have d4 := d.isLt
  have inReset : ControlReg (K.RST_DIE_INRESET d.val) := ⟨by simp only [K.RST_DIE_INRESET]; omega, by simp only [K.RST_DIE_INRESET]; decide⟩
  unfold dieReset
  rw [if_neg (by rw [hr, hf]; simp [hs])]
  generalize flashCut v (endSession (runDesign h) lostReset) d.val = x
  obtain ⟨w, g⟩ := x
  dsimp -zeta only
  extract_lets a b c last e f i j k src
  dsimp only
  have shown : b.rd (K.RST_DIE_INRESET d.val) = 1 := by
    rw [Hw.rd_wr_ne _ (by simp only [Key.id, K.RST_DIE_INRESET, K.RST_DIE_COUNT]; omega),
      Hw.rd_wr_ne _ (by simp only [Key.id, K.RST_DIE_INRESET, K.RST_DIE_SRC]; omega), Hw.rd_wr_self]
    rfl
  have asked : bits b.rst.dieReq (3 * d.val + 2) (3 * d.val) = 0 := by
    rw [bits, show 3 * d.val + 2 + 1 - 3 * d.val = 3 by omega]
    exact setBits_field g.rst.dieReq (3 * d.val) 3 0
  have queues : ControlKept b e := ((ControlKept.quarantineDie ..).trans (.dieAnswers ..)).trans ((ControlKept.dieQueues ..).trans (.resetPorts ..))
  have links : ControlKept e f := .foldl (fun u l hl => .endLink u (by have := List.mem_range.1 hl; omega) _) e
  have load : ControlKept f i := (ControlKept.dieUnready ..).trans (.dieLoad ..)
  have before : ControlKept b i := queues.trans (links.trans load)
  obtain ⟨rst, rd, die⟩ := dieRegisters_leaves i d.val
  have written : ControlKept (dieRegisters i d.val) k := (ControlKept.wr _ (by simp only [K.STRATA_STAT_LAST]; omega) last).trans (.wr j (j := K.CFG_LOAD_RELEASED) (by decide) _)
  have marked : k.die d.val = (dieRegisters i d.val).die d.val := (die_wr ..).trans (die_wr ..)
  obtain ⟨offline, pins, dies⟩ := doneFalls_leaves k d.val
  refine ⟨?_, ?_, pins, ?_⟩
  · exact (offline.rd _ inReset).trans ((written.rd _ inReset).trans ((rd _ inReset).trans ((before.rd _ inReset).trans shown)))
  · rw [released, dies, marked, die]
    rfl
  · rw [offline.rst, written.rst, rst, before.rst]
    exact asked

theorem die_onRst (h : Hw) (f : RstSt → RstSt) (n : Nat) : (onRst h f).die n = h.die n := rfl

theorem rst_onRst (h : Hw) (f : RstSt → RstSt) : (onRst h f).rst = f h.rst := rfl

theorem dies_trainStart (h : Hw) (k : Nat) : (trainStart h k).dies = h.dies := by
  unfold trainStart
  extract_lets a b c d e
  have group (g : Hw) (d i : Nat) : (((((g.wr (K.SEAM_GRP_STAT_GSTATE k d i) (if cmode g k d i = 0 then gOff else gHold)).wr
      (K.SEAM_GRP_STAT_SPARE k d i) 0).wr (K.SEAM_GRP_STAT_SPARELANE k d i) 0).wr (K.SEAM_GRP_STAT_AMODE k d i) 0)).dies = g.dies := by
    simp only [Hw.wr_dies]
  have groups : b.dies = h.dies :=
    List.foldlRecOn (motive := fun g : Hw => g.dies = h.dies) (List.range 2) _ rfl fun g hg d _ =>
      List.foldlRecOn (motive := fun g : Hw => g.dies = h.dies) (List.range (seamGroups k)) _ hg fun u hu i _ => (group u d i).trans hu
  have bindings : c.dies = h.dies := by
    simp only [c]
    split
    · exact List.foldlRecOn (motive := fun g : Hw => g.dies = h.dies) _ _ groups fun u hu x _ => (Hw.wr_dies ..).trans hu
    · exact groups
  have plan : e.dies = h.dies := by
    simp only [e]
    split
    · exact bindings
    · exact bindings
  exact plan

/-- The frames of a die whose reset waits for them read 0, and the hub seam trains again. -/
theorem dieZeroed_leaves {d : Die} (hr : h.bit (K.RST_DIE_INRESET d.val) = true) (hz : h.rst.zeroed.testBit d.val = false) :
    (∀ k, frameOf (dieZeroed h d.val) d.val k = 0) ∧ (dieZeroed h d.val).rst.zeroed.testBit d.val = true := by
  unfold dieZeroed
  rw [hr, hz, if_neg (by decide)]
  extract_lets a b
  have empty (k : Nat) : frameOf b d.val k = 0 := by
    have cleared : (b.die d.val).frames = [] := by
      rw [die_onRst, Hw.die_onDie_self]
    rw [frameOf, cleared]
    rfl
  have set : b.rst.zeroed.testBit d.val = true := by
    rw [rst_onRst]
    exact testBit_setBitAt_self a.rst.zeroed d.val true
  split
  · exact ⟨empty, set⟩
  · refine ⟨fun k => ?_, ?_⟩
    · rw [frameOf, Hw.die, dies_trainStart]
      exact empty k
    · rw [(ControlKept.trainStart b (hubSeam d.val)).rst]
      exact set

theorem a3Restart_leaves (h : Hw) : (a3Restart h).pwr.a3 = .locking ∧ (a3Restart h).pwr.stopped = [] := ⟨rfl, rfl⟩

theorem exec_coldReset (s : State) : exec .coldReset s = .next { s with nv := (resetActs s.nv s.hw true).1, hw := (resetActs s.nv s.hw true).2 } := rfl

theorem exec_warmReset (s : State) : exec .warmReset s = .next { s with nv := (resetActs s.nv s.hw false).1, hw := (resetActs s.nv s.hw false).2 } := rfl

theorem exec_dieReset (s : State) (d : Die) :
    exec (.dieReset d) s = .next { s with nv := (dieReset s.nv s.hw d.val).1, hw := (dieReset s.nv s.hw d.val).2 } := rfl

/-- Settles O50: the causes of reset and their requests, and the first steps of a cold, a warm and a die reset. -/
theorem resets : Obligations.Resets := by
  unfold Obligations.Resets
  refine ⟨fun s rail => ⟨_, rfl, powerOn_leaves s.nv s.hw rail⟩, fun s => ⟨fun hp => ⟨_, rfl, ?_⟩, fun hp ha => ⟨_, rfl, ?_⟩⟩,
    fun s hp => ⟨⟨_, rfl, resetPinFalls_leaves hp⟩, ⟨_, rfl, perstFalls_leaves hp⟩, fun what => ⟨_, rfl, critFails_leaves hp what⟩⟩,
    fun s => ⟨⟨_, rfl, rfl, rfl⟩, ⟨_, rfl, rfl, rfl⟩⟩, fun s hf => ⟨fun hr => ⟨_, exec_coldReset s, ?_⟩, fun hr => ⟨_, exec_warmReset s, ?_⟩⟩,
    fun s d hs hr hf => ⟨_, exec_dieReset s d, dieReset_leaves s.nv hs hr hf⟩,
    fun s d hf => ⟨⟨_, exec_coldReset s, ?_⟩, ⟨_, exec_warmReset s, ?_⟩, ⟨_, exec_dieReset s d, ?_⟩⟩,
    fun s d hr hz => ⟨_, rfl, dieZeroed_leaves hr hz⟩⟩
  · simp only [State.onHw]
    rw [if_pos (by rw [hp]; rfl)]
    exact ⟨rfl, rfl⟩
  · simp only [State.onHw]
    rw [if_neg (by rw [hp]; decide), if_pos ha]
    exact a3Restart_leaves s.hw
  · dsimp only
    rw [resetActs, hr, hf, if_neg (by decide), if_pos rfl]
    exact coldReset_leaves s.nv s.hw
  · dsimp only
    rw [resetActs, hr, hf, if_neg (by decide), if_neg Bool.false_ne_true]
    exact warmReset_leaves s.nv s.hw
  · rw [resetActs, hf, if_pos (by simp)]
  · rw [resetActs, hf, if_pos (by simp)]
  · rw [dieReset, if_pos (by rw [hf]; simp)]

end Sys2Proof.Machine
end

section
/-!
PROOF. The release of dies (R286): set-reset lifts once and stands through what follows.
-/
namespace Sys2Proof.Machine
open Sys2Proof

/-- The dies stand released or held in set-reset as before. -/
structure HeldSame (h t : Hw) : Prop where
  same : ∀ n, (t.die n).setReset = (h.die n).setReset

namespace HeldSame
variable {h t u : Hw}

theorem refl (h : Hw) : HeldSame h h := ⟨fun _ => rfl⟩
theorem trans (a : HeldSame h t) (b : HeldSame t u) : HeldSame h u := ⟨fun n => (b.same n).trans (a.same n)⟩
theorem of_dies (e : t.dies = h.dies) : HeldSame h t := ⟨fun n => by rw [die_congr e]⟩
theorem of_control (c : ∀ n, (t.die n).control = (h.die n).control) : HeldSame h t :=
  ⟨fun n => show (t.die n).control.setReset = (h.die n).control.setReset from congrArg DieSt.setReset (c n)⟩
theorem of_sched (h : Hw) (x : Sched) : HeldSame h { h with sched := x } := of_dies rfl
theorem of_kept (k : Kept h t) : HeldSame h t := of_dies k.dies
theorem wr (h : Hw) (k : Key) (v : Nat) : HeldSame h (h.wr k v) := of_dies (Hw.wr_dies ..)

theorem onDie (h : Hw) (n : Nat) (f : DieSt → DieSt) (hf : ∀ x, (f x).setReset = x.setReset) : HeldSame h (h.onDie n f) := by
  refine ⟨fun m => ?_⟩
  by_cases hm : m = n
  · subst hm
    rw [Hw.die_onDie_self, hf]
  · rw [Hw.die_onDie_ne _ hm]

theorem foldl {α : Type} {f : Hw → α → Hw} (hf : ∀ h x, HeldSame h (f h x)) (l : List α) (h : Hw) : HeldSame h (l.foldl f h) :=
  List.foldlRecOn (motive := HeldSame h) l f (refl h) fun t ht x _ => ht.trans (hf t x)

theorem donePosted (h : Hw) (q : GReq) : HeldSame h (donePosted h q) := by
  unfold Machine.donePosted
  split
  · exact onDie h _ _ fun _ => rfl
  · exact refl h

theorem discardAll (h : Hw) (q : Nat) : HeldSame h (discardAll h q) := by
  unfold Machine.discardAll
  extract_lets es a qs b src d
  have dropped : HeldSame h a := foldl (fun g e => of_kept (kept_dropTicket ..)) es h
  have emptied : HeldSame a b := of_dies rfl
  have gone : HeldSame b d := of_dies rfl
  exact ((dropped.trans emptied).trans gone).trans (wr ..)

theorem dropHeldBells (h : Hw) (q : Nat) : HeldSame h (dropHeldBells h q) := by
  unfold Machine.dropHeldBells
  extract_lets bell gone src a
  have first : HeldSame h a := (of_sched h _).trans (foldl donePosted gone _)
  refine first.trans (foldl (fun g n => foldl (fun g p => ?_) _ g) _ a)
  dsimp only
  split
  · exact refl g
  · exact ((onDie g n (fun d => { d with fports := SMap.set d.fports p _ {} }) fun _ => rfl).trans (wr ..)).trans (foldl donePosted _ _)

theorem disableQueue (h : Hw) (q : Nat) : HeldSame h (disableQueue h q) := by
  unfold Machine.disableQueue
  split
  · exact refl h
  · extract_lets a src b c
    have emptied : HeldSame a b := of_kept (kept_setQueue ..)
    have cores : HeldSame b c := foldl (fun g x => by
      split
      · split
        · exact of_dies rfl
        · exact refl g
      · exact refl g) _ b
    exact (((discardAll h q).trans emptied).trans cores).trans (((dropHeldBells c q).trans (wr ..)).trans (of_kept (kept_dispatch _)))

theorem dropSource (h : Hw) (l : Load) : HeldSame h (dropSource h l) := by
  unfold Machine.dropSource
  extract_lets a src
  have freed : HeldSame h a := by
    simp only [a]
    split
    · split
      · exact of_dies rfl
      · exact refl h
    · exact refl h
  exact freed.trans (of_dies rfl)

theorem loadReply (h : Hw) (l : Load) : HeldSame h (loadReply h l) := by
  unfold Machine.loadReply
  split
  · exact refl h
  · split
    · exact refl h
    · exact of_kept ((kept_draw h).trans ((kept_place ..).trans (kept_dispatch _)))

theorem endLoad (h : Hw) (l : Load) (code detail seg faddr : Nat) : HeldSame h (endLoad h l code detail seg faddr) := by
  unfold Machine.endLoad
  extract_lets a src
  have closed : HeldSame h a := ((foldl (fun g n => disableQueue g (252 + n)) _ h).trans (dropSource ..)).trans
    (((((wr ..).trans (wr ..)).trans (wr ..)).trans (wr ..)).trans (wr ..))
  have idle : HeldSame a { a with ldr := { a.ldr with load := none } } := of_dies rfl
  exact (closed.trans idle).trans ((wr ..).trans (loadReply ..))

theorem setIntended (h : Hw) (g : Legend) : HeldSame h (setIntended h g) := by
  unfold Machine.setIntended
  extract_lets full a s1 b s2 c s3
  have dies : HeldSame h a := foldl (fun g n => by
    split
    · exact onDie g n _ fun _ => rfl
    · exact refl g) _ h
  have device : HeldSame a b := by
    simp only [b]
    split
    · exact of_dies rfl
    · exact refl a
  have hub : HeldSame b c := by
    simp only [c]
    split
    · exact of_dies rfl
    · exact refl b
  exact ((dies.trans device).trans hub).trans (of_dies rfl)

theorem loadDone (h : Hw) (l : Load) (g : Legend) : HeldSame h (loadDone h l g) := by
  unfold Machine.loadDone
  extract_lets a
  have shown : HeldSame h a := by
    simp only [a]
    split
    · exact refl h
    · exact wr ..
  exact (shown.trans (of_kept (kept_draw a))).trans ((setIntended ..).trans (endLoad ..))

end HeldSame

/-! ### The release of one die -/

/-- From h to t dies were released: none that ran is held again, and the same ones are in reset. -/
structure Releasing (h t : Hw) : Prop where
  stands : ∀ n, released h n = true → released t n = true
  inReset : ∀ n, n < 4 → t.rd (K.RST_DIE_INRESET n) = h.rd (K.RST_DIE_INRESET n)

theorem controlReg_inReset {n : Nat} (hn : n < 4) : ControlReg (K.RST_DIE_INRESET n) :=
  ⟨by simp only [K.RST_DIE_INRESET]; omega, by simp only [K.RST_DIE_INRESET]; decide⟩

namespace Releasing
variable {h t u : Hw}

theorem refl (h : Hw) : Releasing h h := ⟨fun _ hr => hr, fun _ _ => rfl⟩
theorem trans (a : Releasing h t) (b : Releasing t u) : Releasing h u :=
  ⟨fun n hr => b.stands n (a.stands n hr), fun n hn => (b.inReset n hn).trans (a.inReset n hn)⟩
theorem of_held (a : HeldSame h t) (b : ∀ n, n < 4 → t.rd (K.RST_DIE_INRESET n) = h.rd (K.RST_DIE_INRESET n)) : Releasing h t :=
  ⟨fun n hr => by rw [released, a.same n]; exact hr, b⟩

theorem runDesign (h : Hw) : Releasing h (runDesign h) :=
  of_held (.of_control (designRan_runDesign h).die) fun _ hn => (designRan_runDesign h).rd _ (controlReg_inReset hn).sched

theorem wr (h : Hw) {k : Key} (hk : 0x400000 ≤ k.addr) (v : Nat) : Releasing h (h.wr k v) :=
  of_held (.wr ..) fun _ hn => Hw.rd_wr_ne h ((controlReg_inReset hn).ne hk) v

theorem openGate (h : Hw) (n m : Nat) : Releasing h (openGate h n m) := by
  have net (g : Hw) (f : NetSt → NetSt) : Releasing g (g.onNet n m f) := of_held (.of_dies rfl) fun _ _ => rfl
  exact ((runDesign h).trans (net _ _)).trans (wr _ (by simp only [K.CLK_NET_STAT_HALTED]; omega) 0)

theorem refreshSites (h : Hw) (n : Nat) : Releasing h (refreshSites h n) := by
  have moved := sitesMoved_refreshSites (n := n) h
  refine of_held (.of_control moved.die) fun m hm => moved.rd _ (controlReg_inReset hm).sched fun j _ => (controlReg_inReset hm).ne ?_
  simp only [K.CLK_NET_STAT_SWITCHING]
  omega

theorem reloadCopies (h : Hw) (n : Nat) : Releasing h (reloadCopies h n) := by
  unfold Machine.reloadCopies
  refine List.foldlRecOn (motive := Releasing h) _ _ (refl h) fun t ht q _ => ht.trans ?_
  split
  · exact of_held (.of_dies rfl) fun _ _ => rfl
  · exact refl t

theorem onPins (h : Hw) (p : Pins) : Releasing h { h with pins := p } := of_held (.of_dies rfl) fun _ _ => rfl

end Releasing

theorem releaseDie_leaves (h : Hw) (n runnets : Nat) : Releasing h (releaseDie h n runnets) ∧
    (h.bit (K.RST_DIE_INRESET n) = false → released (releaseDie h n runnets) n = true) := by
  unfold releaseDie
  split
  next hr =>
    refine ⟨.refl h, fun hi => ?_⟩
    rw [hi, Bool.or_false] at hr
    exact hr
  next =>
    extract_lets a b c d e
    have ran : Releasing h a := .runDesign h
    have lifted : Releasing a b := by
      refine ⟨fun m hm => ?_, fun _ _ => rfl⟩
      by_cases hmn : m = n
      · subst hmn
        rw [released, Hw.die_onDie_self]
        rfl
      · rw [released, Hw.die_onDie_ne _ hmn]
        exact hm
    have out : released b n = true := by
      rw [released, Hw.die_onDie_self]
      rfl
    have gates : Releasing b c := List.foldlRecOn (motive := Releasing b) _ _ (.refl b) fun t ht m _ => ht.trans (.openGate t n m)
    have sites : Releasing c d := (Releasing.reloadCopies c n).trans (.refreshSites ..)
    have shown : Releasing d e := .wr d (k := K.CFG_LOAD_RELEASED) (by decide) _
    have tail : Releasing b e := (gates.trans sites).trans shown
    split
    · exact ⟨((ran.trans lifted).trans tail).trans (.onPins ..), fun _ => (tail.trans (.onPins ..)).stands n out⟩
    · exact ⟨(ran.trans lifted).trans tail, fun _ => tail.stands n out⟩

/-- Each die the word names that is not in reset is released. -/
theorem releaseDies_leaves (f : Nat → Nat) : ∀ (l : List Nat) (h : Hw), Releasing h (l.foldl (fun h n => releaseDie h n (f n)) h) ∧
    ∀ n ∈ l, n < 4 → h.bit (K.RST_DIE_INRESET n) = false → released (l.foldl (fun h n => releaseDie h n (f n)) h) n = true := by
  intro l
  induction l with
  | nil => exact fun h => ⟨.refl h, fun n hn => absurd hn (by simp)⟩
  | cons m l ih =>
    intro h
    obtain ⟨one, self⟩ := releaseDie_leaves h m (f m)
    obtain ⟨rest, named⟩ := ih (releaseDie h m (f m))
    rw [List.foldl_cons]
    refine ⟨one.trans rest, fun n hn h4 hi => ?_⟩
    obtain rfl | hn := List.mem_cons.1 hn
    · exact rest.stands n (self hi)
    · exact named n hn h4 ((bit_eq_of_rd (one.inReset n h4)).trans hi)

end Sys2Proof.Machine
end

section
/-!
PROOF. The load ports and the boot flash (R289 to R293), and COMMIT: its status, the groups it defers, and the settings of the
power controller (R220 to R223, R301).
-/
namespace Sys2Proof.Machine
open Sys2Proof

variable {h : Hw}

/-! ### The load ports -/

theorem ldr_dropPosting (h : Hw) (q src : Nat) (r : Adm) : (dropPosting h q src r).ldr = h.ldr := by
  unfold dropPosting
  dsimp only
  rw [(kept_logEntry ..).ldr]
  split
  · rfl
  · rfl
  · rfl

theorem port_onPort (h : Hw) (par : Bool) (f : LoadPort → LoadPort) : port (onPort h par f) par = f (port h par) := by
  cases par with
  | true => rfl
  | false => rfl

theorem load_onPort (h : Hw) (par : Bool) (f : LoadPort → LoadPort) : (onPort h par f).ldr.load = h.ldr.load := by
  cases par with
  | true => rfl
  | false => rfl

theorem port_congr {g : Hw} (e : g.ldr = h.ldr) (par : Bool) : port g par = port h par := by rw [port, e, port]

/-- Posting the entry of a port keeps what it holds. -/
theorem postPort_leaves (h : Hw) (par : Bool) : (port (postPort h par) par).bytes = (port h par).bytes ∧
    (port (postPort h par) par).active = (port h par).active ∧ (postPort h par).ldr.load = h.ldr.load := by
  unfold postPort
  dsimp only
  split
  · exact ⟨rfl, rfl, rfl⟩
  · have posted : ∀ u : Hw, u.ldr = (onPort h.draw.2 par fun p => { p with posted := true }).ldr →
        (port u par).bytes = (port h par).bytes ∧ (port u par).active = (port h par).active ∧ u.ldr.load = h.ldr.load := by
      intro u hu
      rw [port_congr hu, port_onPort, hu, load_onPort]
      exact ⟨rfl, rfl, rfl⟩
    have entered := kept_tryEnter (onPort h.draw.2 par fun p => { p with posted := true }) 0 (.event 0) (mkDesc 0 h.draw.1 0 0 0 0 0 0)
    have queued (u : Hw) (l : List Bool) : port { u with ldr := { u.ldr with portQueue := l } } par = port u par := by
      cases par with
      | true => rfl
      | false => rfl
    generalize tryEnter (onPort h.draw.2 par fun p => { p with posted := true }) 0 (.event 0) (mkDesc 0 h.draw.1 0 0 0 0 0 0) = r at entered
    obtain ⟨u, a⟩ := r
    obtain ⟨bytes, active, load⟩ := posted u entered.ldr
    dsimp only
    split
    · rw [port_congr (kept_dispatch _).ldr, queued, (kept_dispatch _).ldr]
      exact ⟨bytes, active, load⟩
    · rw [port_congr (ldr_dropPosting ..), ldr_dropPosting]
      exact ⟨bytes, active, load⟩

/-- Bytes enter a port while no load runs. -/
theorem stageBytes_idle (hl : h.ldr.load = none) (par : Bool) (b : List Byte) :
    (port (stageBytes h par b) par).bytes = (port h par).bytes ++ b ∧ (port (stageBytes h par b) par).active = (port h par).active := by
  obtain ⟨bytes, active, load⟩ := postPort_leaves (onPort h par fun p => { p with bytes := p.bytes ++ b }) par
  unfold stageBytes
  dsimp only
  rw [load, load_onPort, hl]
  dsimp only
  rw [bytes, active, port_onPort]
  exact ⟨rfl, rfl⟩

theorem plpTake_leaves (hr : hubRuns h = true) (hp : plpReady h = true) (hl : h.ldr.load = none) (w : Nat) :
    (h.ldr.plp.active = true → (plpTake h w).ldr.plp.bytes = h.ldr.plp.bytes ++ toBytes 4 w) ∧
    (h.ldr.plp.active = false → h.ldr.plp.bytes = [] → w = 0x4C484943 →
      (plpTake h w).ldr.plp.active = true ∧ (plpTake h w).ldr.plp.bytes = toBytes 4 w) ∧
    (h.ldr.plp.active = false → w ≠ 0x4C484943 → plpTake h w = h) := by
  unfold plpTake
  rw [hr, hp, if_neg (by decide)]
  refine ⟨fun ha => ?_, fun ha hb hw => ?_, fun ha hw => ?_⟩
  · rw [if_pos ha]
    exact (stageBytes_idle hl true _).1
  · rw [ha, if_neg Bool.false_ne_true, if_pos (show w = imageMagic from hw)]
    obtain ⟨bytes, active⟩ := stageBytes_idle (h := onPort h true fun p => { p with active := true }) ((load_onPort ..).trans hl) true (toBytes 4 w)
    exact ⟨active, bytes.trans (by rw [port_onPort]; exact congrArg (· ++ toBytes 4 w) hb)⟩
  · rw [ha, if_neg Bool.false_ne_true, if_neg (show w ≠ imageMagic from hw)]

theorem slpTake_fits (hr : hubRuns h = true) (hl : h.ldr.load = none) {b : List Byte} (ha : h.ldr.slp.active = true)
    (hp : h.ldr.slp.posted = false) (hf : b.length ≤ ringFree h.ldr.slp) (hb : b.length ≤ 4096) :
    (slpTake h b).ldr.slp.bytes = h.ldr.slp.bytes ++ b := by
  unfold slpTake
  rw [hr, decide_eq_false (Nat.not_lt.2 hb), ha, if_pos rfl]
  cases he : b.isEmpty with
  | true =>
    rw [if_pos (by rfl), List.isEmpty_iff.1 he, List.append_nil]
  | false =>
    rw [if_neg (by decide)]
    dsimp only
    rw [he, if_neg Bool.false_ne_true, hp, Bool.false_and, if_neg Bool.false_ne_true, if_pos hf, List.take_of_length_le hf]
    exact (stageBytes_idle (h := onPort h false fun p => { p with active := true }) ((load_onPort ..).trans hl) false b).1

theorem slpTake_drops {b : List Byte} (hd : 4096 < b.length ∨ h.ldr.slp.active = false ∧ fromMagic (b.length / 4) b = []) : slpTake h b = h := by
  unfold slpTake
  split
  · rfl
  next small =>
    have room : ¬ 4096 < b.length := by
      intro hb
      rw [decide_eq_true hb, Bool.or_true] at small
      exact small rfl
    obtain ⟨idle, none_⟩ := hd.resolve_left room
    rw [idle, if_neg Bool.false_ne_true, none_]
    rfl

theorem bootBurst_leaves {l : Load} {a : Nat} {golden : Bool} {b : List Byte} (hl : h.ldr.load = some l) (hs : l.src = .boot a golden)
    (h1 : 1 ≤ loadStage h) (h3 : loadStage h ≤ 3) :
    (bootBurst h b).ldr.boot = if b.length = 4096 then h.ldr.boot ++ b else h.ldr.boot := by
  have reading : (loadStage h == stLegend || loadStage h == stProgseg || loadStage h == stFrames) = true := by
    simp only [stLegend, stProgseg, stFrames, Bool.or_eq_true, beq_iff_eq]
    omega
  unfold bootBurst
  rw [hl]
  dsimp only
  rw [hs]
  dsimp only
  rw [reading, Bool.true_and]
  by_cases hb : b.length = 4096
  · rw [if_pos hb, if_pos (beq_iff_eq.2 hb)]
  · rw [if_neg hb, if_neg (by simp [hb])]

/-! ### COMMIT -/

/-- The register HUB.CFG.COMMIT with a group code written to it. -/
def groupWritten (h : Hw) (code : Nat) : Hw := h.wr K.CFG_COMMIT_GROUP code

theorem writeCommit_go (h : Hw) {code : Nat} (hc : code < 2 ^ 16) : writeCommit h (2 ^ 63 + code) (2 ^ 64 - 1) =
    (((commitCode (groupWritten h code) code).2.2.wr K.CFG_COMMIT_STATUS (commitCode (groupWritten h code) code).1).wr K.CFG_COMMIT_CLAMPS
      (commitCode (groupWritten h code) code).2.1) := by
  have go : ¬ fieldIn K.CFG_COMMIT_GO ((2 ^ 63 + code) &&& (2 ^ 64 - 1)) = 0 := by
    rw [Nat.and_two_pow_sub_one_eq_mod, Nat.mod_eq_of_lt (by omega)]
    show ¬ (2 ^ 63 + code) / 2 ^ 63 % 2 ^ 1 = 0
    omega
  have field : fieldIn K.CFG_COMMIT_GROUP (2 ^ 63 + code) = code := by
    show (2 ^ 63 + code) / 2 ^ 0 % 2 ^ 16 = code
    omega
  have written : h.wr K.CFG_COMMIT_GROUP (newVal h K.CFG_COMMIT_GROUP (2 ^ 63 + code) (2 ^ 64 - 1)) = groupWritten h code := by
    refine wr_congr h _ ?_
    have mask : fieldIn K.CFG_COMMIT_GROUP (2 ^ 64 - 1) = 2 ^ 16 - 1 := by decide
    rw [newVal, merged, mask, field]
    exact mergeBits_whole _ _ 16
  have shown : (groupWritten h code).rd K.CFG_COMMIT_GROUP = code := (Hw.rd_wr_self ..).trans (Nat.mod_eq_of_lt hc)
  unfold writeCommit
  rw [written]
  dsimp only
  rw [if_neg go, shown]

theorem rd_groupWritten (h : Hw) (code : Nat) {k : Key} (hk : k.id ≠ K.CFG_COMMIT_GROUP.id) : (groupWritten h code).rd k = h.rd k := Hw.rd_wr_ne h hk code

theorem groupOf_groupWritten (h : Hw) (code c : Nat) : groupOf (groupWritten h code) c = groupOf h c := by
  have guest : hasGuest (groupWritten h code) = hasGuest h := bit_eq_of_rd (rd_groupWritten h code (by decide))
  unfold groupOf
  rw [guest]

theorem groupBusy_groupWritten (h : Hw) (code : Nat) (g : Group) : groupBusy (groupWritten h code) g = groupBusy h g := by
  cases g with
  | ddr n =>
    have state : (groupWritten h code).rd (K.DDR_C_STAT_STATE n) = h.rd (K.DDR_C_STAT_STATE n) :=
      rd_groupWritten h code (by simp only [Key.id, K.DDR_C_STAT_STATE, K.CFG_COMMIT_GROUP]; omega)
    rw [groupBusy, chState, state, groupBusy, chState]
  | ciph =>
    rw [groupBusy, cipherBusy, rd_groupWritten h code (by decide), rd_groupWritten h code (by decide), groupBusy, cipherBusy]
  | _ => rfl

/-- A group of a die names one of the four. -/
theorem die_groupOf {code : Nat} {g : Group} (hg : groupOf h code = some g) : ∀ n, g.die = some n → n < 4 := by
  have four : bits code 13 12 < 4 := Nat.mod_lt _ (by decide)
  intro n hn
  unfold groupOf at hg
  dsimp only at hg
  repeat' split at hg
  all_goals
    cases hg
    try cases hn
    try exact four

theorem inReset_groupWritten {code : Nat} {g : Group} (hg : groupOf h code = some g) : (g.die.elim false fun n => (groupWritten h code).bit (K.RST_DIE_INRESET n)) =
    g.die.elim false fun n => h.bit (K.RST_DIE_INRESET n) := by
  cases hd : g.die with
  | none => rfl
  | some n =>
    have four := die_groupOf hg n hd
    exact bit_eq_of_rd (rd_groupWritten h code (by simp only [Key.id, K.RST_DIE_INRESET, K.CFG_COMMIT_GROUP]; omega))

/-- The status and the clamps a COMMIT reports. -/
theorem reported (u : Hw) {st n : Nat} (hs : st < 256) (hn : n < 256) :
    ((u.wr K.CFG_COMMIT_STATUS st).wr K.CFG_COMMIT_CLAMPS n).rd K.CFG_COMMIT_STATUS = st ∧
    ((u.wr K.CFG_COMMIT_STATUS st).wr K.CFG_COMMIT_CLAMPS n).rd K.CFG_COMMIT_CLAMPS = n := by
  rw [Hw.rd_wr_ne _ (by decide), Hw.rd_wr_self, Hw.rd_wr_self]
  exact ⟨Nat.mod_eq_of_lt hs, Nat.mod_eq_of_lt hn⟩

section
variable {code : Nat} (hc : code < 2 ^ 16)
include hc

theorem writeCommit_badgroup (hg : groupOf h code = none) : (writeCommit h (2 ^ 63 + code) (2 ^ 64 - 1)).rd K.CFG_COMMIT_STATUS = csBadgroup ∧
    (writeCommit h (2 ^ 63 + code) (2 ^ 64 - 1)).rd K.CFG_COMMIT_GROUP = code := by
  rw [writeCommit_go h hc, commitCode, groupOf_groupWritten, hg]
  dsimp only
  refine ⟨(reported _ (by decide) (by decide)).1, ?_⟩
  rw [Hw.rd_wr_ne _ (by decide), Hw.rd_wr_ne _ (by decide), groupWritten, Hw.rd_wr_self]
  exact Nat.mod_eq_of_lt hc

variable {g : Group} (hg : groupOf h code = some g)
include hg

theorem writeCommit_offline (hr : (g.die.elim false fun n => h.bit (K.RST_DIE_INRESET n)) = true) :
    (writeCommit h (2 ^ 63 + code) (2 ^ 64 - 1)).rd K.CFG_COMMIT_STATUS = csOffline ∧
    (writeCommit h (2 ^ 63 + code) (2 ^ 64 - 1)).ldr.deferred = h.ldr.deferred := by
  rw [writeCommit_go h hc, commitCode, groupOf_groupWritten, hg]
  dsimp only
  rw [inReset_groupWritten hg, hr, if_pos rfl]
  exact ⟨(reported _ (st := csOffline) (n := 0) (by decide) (by decide)).1, rfl⟩

variable (hr : (g.die.elim false fun n => h.bit (K.RST_DIE_INRESET n)) = false)
include hr

theorem writeCommit_deferred (hb : groupBusy h g = true) : (writeCommit h (2 ^ 63 + code) (2 ^ 64 - 1)).rd K.CFG_COMMIT_STATUS = csDeferred ∧
    code ∈ (writeCommit h (2 ^ 63 + code) (2 ^ 64 - 1)).ldr.deferred := by
  rw [writeCommit_go h hc, commitCode, groupOf_groupWritten, hg]
  dsimp only
  rw [inReset_groupWritten hg, hr, if_neg Bool.false_ne_true, groupBusy_groupWritten, hb, if_pos rfl]
  refine ⟨(reported _ (st := csDeferred) (n := 0) (by decide) (by decide)).1, ?_⟩
  show code ∈ if h.ldr.deferred.contains code then h.ldr.deferred else h.ldr.deferred ++ [code]
  split
  next hd => exact List.contains_iff_mem.1 hd
  next => simp

theorem writeCommit_taken (hb : groupBusy h g = false) : ∃ n, writeCommit h (2 ^ 63 + code) (2 ^ 64 - 1) =
    ((takeSettings (groupWritten h code) g).wr K.CFG_COMMIT_STATUS (if n = 0 then csOk else csClamped)).wr K.CFG_COMMIT_CLAMPS (min n 255) := by
  refine ⟨((takeSettings (groupWritten h code) g).rd K.CFG_CLAMPHEAD_TOTAL + 2 ^ 32 - (groupWritten h code).rd K.CFG_CLAMPHEAD_TOTAL) % 2 ^ 32, ?_⟩
  rw [writeCommit_go h hc, commitCode, groupOf_groupWritten, hg]
  dsimp only
  rw [inReset_groupWritten hg, hr, if_neg Bool.false_ne_true, groupBusy_groupWritten, hb, if_neg Bool.false_ne_true]

theorem writeCommit_clamps (hb : groupBusy h g = false) : ∃ n, (writeCommit h (2 ^ 63 + code) (2 ^ 64 - 1)).rd K.CFG_COMMIT_CLAMPS = min n 255 ∧
    (writeCommit h (2 ^ 63 + code) (2 ^ 64 - 1)).rd K.CFG_COMMIT_STATUS = if n = 0 then csOk else csClamped := by
  obtain ⟨n, taken⟩ := writeCommit_taken hc hg hr hb
  have status : (if n = 0 then csOk else csClamped) < 256 := by
    split
    · decide
    · decide
  obtain ⟨st, clamps⟩ := reported (takeSettings (groupWritten h code) g) status (Nat.lt_of_le_of_lt (Nat.min_le_right n 255) (by decide))
  rw [taken]
  exact ⟨n, clamps, st⟩

end

/-! ### The settings of the power controller -/

theorem fieldsAt_pwrCtl : fieldsAt 0x300000 = [⟨K.PWR_CTL_THROTTLE, .st, .W, .range 60 100⟩, ⟨K.PWR_CTL_WARN, .st, .W, .range 60 95⟩,
    ⟨K.PWR_CTL_UNDERLAY, .st, .W, .any⟩, ⟨K.PWR_CTL_MANAGED, .st, .W, .any⟩, ⟨K.PWR_CTL_MAXSTATE, .st, .W, .any⟩] := rfl

theorem applyReg_pwrCtl (h : Hw) : applyReg h 0x300000 = ((((h.wr K.PWR_CTL_THROTTLE (h.sh K.PWR_CTL_THROTTLE)).wr K.PWR_CTL_WARN
    (h.sh K.PWR_CTL_WARN)).wr K.PWR_CTL_UNDERLAY (h.sh K.PWR_CTL_UNDERLAY)).wr K.PWR_CTL_MANAGED (h.sh K.PWR_CTL_MANAGED)).wr
      K.PWR_CTL_MAXSTATE (h.sh K.PWR_CTL_MAXSTATE) := by
  rw [applyReg, fieldsAt_pwrCtl]
  rfl

theorem logClamp_keeps (h : Hw) (k : Key) (r : Reason) (w a : Nat) : (logClamp h k r w a).shadow = h.shadow ∧ (logClamp h k r w a).ldr = h.ldr := ⟨rfl, rfl⟩

/-- WARN is staged at THROTTLE at most. -/
theorem clampWarn_leaves (h : Hw) : (clampMax h K.PWR_CTL_WARN (h.sh K.PWR_CTL_THROTTLE)).sh K.PWR_CTL_THROTTLE = h.sh K.PWR_CTL_THROTTLE ∧
    (clampMax h K.PWR_CTL_WARN (h.sh K.PWR_CTL_THROTTLE)).sh K.PWR_CTL_WARN % 256 = min (h.sh K.PWR_CTL_WARN) (h.sh K.PWR_CTL_THROTTLE) % 256 ∧
    (clampMax h K.PWR_CTL_WARN (h.sh K.PWR_CTL_THROTTLE)).ldr = h.ldr := by
  unfold clampMax clampIf
  by_cases hlt : h.sh K.PWR_CTL_THROTTLE < h.sh K.PWR_CTL_WARN
  · have sh (k : Key) (v : Nat) : (logClamp (h.wrSh K.PWR_CTL_WARN v) K.PWR_CTL_WARN .coupled (h.sh K.PWR_CTL_WARN) v).sh k =
        (h.wrSh K.PWR_CTL_WARN v).sh k := by rw [Hw.sh, (logClamp_keeps ..).1, Hw.sh]
    rw [decide_eq_true hlt, if_pos rfl, clampSh, if_neg (by omega), sh, sh, Hw.sh_wrSh_ne _ (by decide), Hw.sh_wrSh_self, Nat.min_eq_right (by omega)]
    exact ⟨rfl, Nat.mod_mod _ 256, rfl⟩
  · rw [decide_eq_false hlt, if_neg Bool.false_ne_true, Nat.min_eq_left (by omega)]
    exact ⟨rfl, rfl, rfl⟩

theorem commitPwr_leaves (h : Hw) : (commitPwr h).rd K.PWR_CTL_THROTTLE = h.sh K.PWR_CTL_THROTTLE % 256 ∧
    (commitPwr h).rd K.PWR_CTL_WARN = min (h.sh K.PWR_CTL_WARN) (h.sh K.PWR_CTL_THROTTLE) % 256 ∧ (commitPwr h).ldr = h.ldr := by
  obtain ⟨throttle, warn, ldr⟩ := clampWarn_leaves h
  have applied : commitPwr h = applyReg (clampMax h K.PWR_CTL_WARN (h.sh K.PWR_CTL_THROTTLE)) 0x300000 := rfl
  rw [applied, applyReg_pwrCtl]
  generalize clampMax h K.PWR_CTL_WARN (h.sh K.PWR_CTL_THROTTLE) = u at throttle warn ldr
  rw [Hw.rd_wr_ne _ (by decide), Hw.rd_wr_ne _ (by decide), Hw.rd_wr_ne _ (by decide), Hw.rd_wr_ne _ (by decide), Hw.rd_wr_self,
    Hw.rd_wr_ne _ (by decide), Hw.rd_wr_ne _ (by decide), Hw.rd_wr_ne _ (by decide), Hw.rd_wr_self, throttle]
  exact ⟨rfl, warn, ldr⟩

/-! ### Deferred settings -/

section
variable {code : Nat} {g : Group}

theorem applyDeferred_waits (hw : code ∉ h.ldr.deferred ∨ ∃ g, groupOf h code = some g ∧ groupBusy h g = true) : applyDeferred h code = h := by
  unfold applyDeferred
  split
  next g hg =>
    refine if_pos ?_
    obtain hd | ⟨i, hi, hb⟩ := hw
    · have absent : h.ldr.deferred.contains code = false := by
        rw [List.contains_eq_mem, decide_eq_false hd]
      rw [absent]
      rfl
    · rw [hg] at hi
      cases hi
      rw [hb, Bool.or_true]
  next => rfl

theorem applyDeferred_takes (hg : groupOf h code = some g) (hd : code ∈ h.ldr.deferred) (hb : groupBusy h g = false) :
    applyDeferred h code = takeSettings { h with ldr := { h.ldr with deferred := h.ldr.deferred.filter (· != code) } } g := by
  unfold applyDeferred
  rw [hg]
  dsimp only
  rw [hb, List.contains_iff_mem.2 hd]
  rfl

end

theorem takeSettings_pwr (h : Hw) : takeSettings h .pwr = commitPwr h := by
  unfold takeSettings
  exact if_neg Bool.false_ne_true

theorem pwrDeferred_leaves {code : Nat} (hg : groupOf h code = some .pwr) (hd : code ∈ h.ldr.deferred) (hb : groupBusy h .pwr = false) :
    (applyDeferred h code).rd K.PWR_CTL_THROTTLE = h.sh K.PWR_CTL_THROTTLE % 256 ∧ code ∉ (applyDeferred h code).ldr.deferred := by
  have taken : applyDeferred h code = commitPwr { h with ldr := { h.ldr with deferred := h.ldr.deferred.filter (· != code) } } :=
    (applyDeferred_takes hg hd hb).trans (takeSettings_pwr _)
  obtain ⟨throttle, -, ldr⟩ := commitPwr_leaves { h with ldr := { h.ldr with deferred := h.ldr.deferred.filter (· != code) } }
  rw [taken, throttle, ldr]
  exact ⟨rfl, by simp⟩

theorem pwrCommitted_leaves {code : Nat} (hc : code < 2 ^ 16) (hg : groupOf h code = some .pwr) (hb : groupBusy h .pwr = false) :
    (writeCommit h (2 ^ 63 + code) (2 ^ 64 - 1)).rd K.PWR_CTL_THROTTLE = h.sh K.PWR_CTL_THROTTLE % 256 ∧
    (writeCommit h (2 ^ 63 + code) (2 ^ 64 - 1)).rd K.PWR_CTL_WARN = min (h.sh K.PWR_CTL_WARN) (h.sh K.PWR_CTL_THROTTLE) % 256 := by
  obtain ⟨n, taken⟩ := writeCommit_taken hc hg rfl hb
  obtain ⟨throttle, warn, -⟩ := commitPwr_leaves (groupWritten h code)
  rw [taken, takeSettings_pwr, Hw.rd_wr_ne _ (by decide), Hw.rd_wr_ne _ (by decide), Hw.rd_wr_ne _ (by decide), Hw.rd_wr_ne _ (by decide), throttle, warn]
  exact ⟨rfl, rfl⟩

/-! ### RELEASE -/

theorem writeRelease_leaves {m : Master} {dies : Nat} {l : Load} {g : Legend} (hl : h.ldr.load = some l) (hg : l.legend = some g) :
    (loadStage h = 6 → ∀ n, n < 4 → dies.testBit n = true → h.bit (K.RST_DIE_INRESET n) = false → released (writeRelease h m dies) n = true) ∧
    (loadStage h ≠ 6 → ∀ n, n < 4 → released (writeRelease h m dies) n = released h n ∧ (writeRelease h m dies).die n = h.die n) := by
  unfold writeRelease
  rw [hl]
  dsimp only
  rw [hg]
  dsimp only
  refine ⟨fun hs n h4 hn hi => ?_, fun hs n _ => ?_⟩
  · rw [if_neg (by rw [hs]; decide)]
    have out := (releaseDies_leaves (fun n => g.runnets.getD n 0) (bitList 4 dies) h).2 n (List.mem_filter.2 ⟨List.mem_range.2 h4, hn⟩) h4 hi
    split
    · rw [released, (HeldSame.loadDone _ l g).same n]
      exact out
    · exact out
  · rw [if_pos (show loadStage h ≠ stRelease from hs)]
    have die : (logIgnored h m K.CFG_RELEASE_DIES.addr dies).die n = h.die n := die_congr (kept_logErr ..).dies n
    rw [released, die]
    exact ⟨rfl, rfl⟩

/-- Settles O48: RELEASE, the load ports and the boot flash, and COMMIT with its deferred settings. -/
theorem releaseAndPorts : Obligations.ReleaseAndPorts := by
  unfold Obligations.ReleaseAndPorts
  refine ⟨fun s m dies l g gate hl hg => ⟨fun hs => ⟨_, rfl, ?_⟩, fun hs => ⟨_, rfl, ?_⟩⟩,
    fun s w hr hp hl => ⟨fun ha => ⟨_, rfl, (plpTake_leaves hr hp hl _).1 ha⟩, fun ha hb hw => ⟨_, rfl, (plpTake_leaves hr hp hl _).2.1 ha hb hw⟩,
      fun ha hw => ⟨_, rfl, ?_⟩⟩,
    fun s b hr hl => ⟨fun ha hp hf hb => ⟨_, rfl, slpTake_fits hr hl ha hp hf hb⟩, fun hd => ⟨_, rfl, ?_⟩⟩,
    fun s => ⟨_, rfl, rfl, rfl, rfl⟩, fun s cmd => ⟨_, rfl, rfl⟩, fun s l a golden b hl hs h1 h3 => ⟨_, rfl, bootBurst_leaves hl hs h1 h3⟩,
    fun s m group gate => ⟨fun hg => ⟨_, rfl, ?_⟩, fun g hg => ⟨fun hr => ⟨_, rfl, ?_⟩, fun hr hb => ⟨_, rfl, ?_⟩, fun hr hb => ⟨_, rfl, ?_⟩⟩,
      fun hg hb => ⟨_, rfl, ?_⟩⟩,
    fun s group => ⟨fun hw => ⟨_, rfl, ?_⟩, fun g hg hd hb => ⟨_, rfl, applyDeferred_takes hg hd hb⟩⟩,
    fun s group hg hd hb => ⟨_, rfl, pwrDeferred_leaves hg hd hb⟩⟩
  · simp only [State.onHw]
    rw [gated_ok gate]
    exact (writeRelease_leaves hl hg).1 hs
  · simp only [State.onHw]
    rw [gated_ok gate]
    exact (writeRelease_leaves hl hg).2 hs
  · rw [State.onHw, (plpTake_leaves hr hp hl _).2.2 ha hw]
  · rw [State.onHw, slpTake_drops hd]
  · simp only [State.onHw]
    rw [gated_ok gate]
    exact writeCommit_badgroup group.isLt hg
  · simp only [State.onHw]
    rw [gated_ok gate]
    exact writeCommit_offline group.isLt hg hr
  · simp only [State.onHw]
    rw [gated_ok gate]
    exact writeCommit_deferred group.isLt hg hr hb
  · simp only [State.onHw]
    rw [gated_ok gate]
    exact writeCommit_clamps group.isLt hg hr hb
  · simp only [State.onHw]
    rw [gated_ok gate]
    exact pwrCommitted_leaves group.isLt hg hb
  · rw [State.onHw, applyDeferred_waits hw]

end Sys2Proof.Machine
end

section
/-!
PROOF. What the blocks at the queues leave of the PCI Express controller, its messages, its functions and its link (R327 to R345).
-/
namespace Sys2Proof.Machine
open Sys2Proof

/-! ### Queues that are disabled, and answers -/

/-- A relation that the work of a queue that is disabled, or of a request that is answered, keeps. -/
structure QueueRel (R : Hw → Hw → Prop) : Prop where
  refl : ∀ h, R h h
  trans : ∀ {h t u}, R h t → R t u → R h u
  kept : ∀ {h t}, Kept h t → R h t
  onDie : ∀ h n f, R h (h.onDie n f)
  wr : ∀ h k v, R h (h.wr k v)
  gal : ∀ h x, R h { h with gal := x }
  guest : ∀ h x, R h { h with guest := x }

namespace QueueRel
variable {R : Hw → Hw → Prop} (rel : QueueRel R)
include rel

theorem foldl {α : Type} {f : Hw → α → Hw} (hf : ∀ h x, R h (f h x)) (l : List α) (h : Hw) : R h (l.foldl f h) :=
  List.foldlRecOn (motive := R h) l f (rel.refl h) fun t ht x _ => rel.trans ht (hf t x)

theorem donePosted (h : Hw) (q : GReq) : R h (donePosted h q) := by
  unfold Machine.donePosted
  split
  · exact rel.onDie ..
  · exact rel.refl h

theorem discardAll (h : Hw) (q : Nat) : R h (discardAll h q) := by
  unfold Machine.discardAll
  extract_lets es a qs b src d
  have dropped : R h a := rel.foldl (fun g e => rel.kept (kept_dropTicket ..)) es h
  have emptied : R a b := rel.kept (kept_setQueue ..)
  have gone : R b d := rel.kept (.csr rfl)
  exact rel.trans (rel.trans dropped emptied) (rel.trans gone (rel.wr ..))

theorem dropHeldBells (h : Hw) (q : Nat) : R h (dropHeldBells h q) := by
  unfold Machine.dropHeldBells
  extract_lets bell gone src a
  have first : R h a := rel.trans (rel.kept (.csr rfl)) (rel.foldl rel.donePosted gone _)
  refine rel.trans first (rel.foldl (fun g n => rel.foldl (fun g p => ?_) _ g) _ a)
  dsimp only
  split
  · exact rel.refl g
  · exact rel.trans (rel.onDie ..) (rel.trans (rel.wr ..) (rel.foldl rel.donePosted _ _))

theorem disableQueue (h : Hw) (q : Nat) : R h (disableQueue h q) := by
  unfold Machine.disableQueue
  split
  · exact rel.refl h
  · extract_lets a src b c
    have emptied : R a b := rel.kept (kept_setQueue ..)
    have cores : R b c := rel.foldl (fun g x => by
      split
      · split
        · exact rel.kept (.csr rfl)
        · exact rel.refl g
      · exact rel.refl g) _ b
    exact rel.trans (rel.trans (rel.trans (rel.discardAll h q) emptied) cores)
      (rel.trans (rel.trans (rel.dropHeldBells c q) (rel.wr ..)) (rel.kept (kept_dispatch _)))

theorem guestViolates (h : Hw) : R h (guestViolates h) := by
  unfold Machine.guestViolates
  extract_lets g n src w
  have counted : R h w := rel.trans (rel.wr ..) (rel.guest ..)
  clear_value w
  split
  · exact rel.trans counted (rel.trans (rel.wr ..) (rel.kept (kept_postEvent _ (q := 7) (by decide) ..)))
  · exact counted

theorem answer (h : Hw) (q : GReq) (st : Status) (data : Nat) : R h (answer h q st data) := by
  unfold Machine.answer
  have first : R h (if q.m = .guest ∧ st ≠ .ok then guestFails h st q.addr else h) := by
    split
    · exact rel.trans (rel.kept (kept_logErr h ..)) (rel.guestViolates _)
    · exact rel.refl _
  revert first
  generalize (if q.m = .guest ∧ st ≠ .ok then guestFails h st q.addr else h) = u
  intro first
  refine rel.trans first ?_
  cases q.kind with
  | pwrite =>
    dsimp only
    split
    · exact rel.donePosted ..
    · exact rel.trans (rel.donePosted u q) (rel.kept (kept_logErr ..))
  | read | write => exact rel.gal ..

end QueueRel

/-- The PCI Express controller is the same. -/
def PcieSame (h t : Hw) : Prop := t.pcie = h.pcie

theorem pcieSame : QueueRel PcieSame where
  refl _ := rfl
  trans a b := Eq.trans b a
  kept k := k.pcie
  onDie _ _ _ := rfl
  wr _ _ _ := rfl
  gal _ _ := rfl
  guest _ _ := rfl

/-! ### Messages -/

section
variable {h t u : Hw} {f : Nat}

theorem func_onFunc_ne (h : Hw) {f k : Nat} (hk : k ≠ f) (g : FuncSt → FuncSt) : func (onFunc h f g) k = func h k := SMap.get_set_ne _ hk ..

/-- Only messages to the host may have gone out, or begun to wait. -/
structure Sent (h t : Hw) : Prop where
  rest : t = { h with pcie := { h.pcie with waiting := t.pcie.waiting, lastMsix := t.pcie.lastMsix, lastWrite := t.pcie.lastWrite } }

/-- Only vectors may have been raised: they are pending, sent or waiting. -/
structure Raised (h t : Hw) : Prop where
  rest : t = { h with pcie := { h.pcie with waiting := t.pcie.waiting, lastMsix := t.pcie.lastMsix, funcs := t.pcie.funcs } }
  func : ∀ g, func t g = { func h g with pend := (func t g).pend }

namespace Raised

theorem refl (h : Hw) : Raised h h := ⟨rfl, fun _ => rfl⟩
theorem trans (a : Raised h t) (b : Raised t u) : Raised h u := by
  refine ⟨?_, fun g => ?_⟩
  · rw [b.rest, a.rest]
  · rw [b.func g, a.func g]

theorem sendMsix (h : Hw) (f v : Nat) : Raised h (sendHost h (.msix f v)) := by
  unfold sendHost
  split
  · exact ⟨rfl, fun _ => rfl⟩
  · exact ⟨rfl, fun _ => rfl⟩

theorem pend (h : Hw) (f : Nat) (p : List Nat → List Nat) : Raised h (onFunc h f fun x => { x with pend := p x.pend }) := by
  refine ⟨rfl, fun g => ?_⟩
  by_cases hg : g = f
  · rw [hg, func_onFunc_self]
  · rw [func_onFunc_ne h hg]

theorem sendPending (h : Hw) (f : Nat) : Raised h (sendPending h f) := by
  unfold Machine.sendPending
  exact List.foldlRecOn (motive := Raised h) _ _ (refl h) fun t ht v _ => ht.trans ((pend t f _).trans (sendMsix ..))

theorem raiseMsix (h : Hw) (f v : Nat) : Raised h (raiseMsix h f v).2 := by
  unfold Machine.raiseMsix
  split
  · exact refl h
  · split
    · exact sendMsix ..
    · exact pend h f fun p => if p.contains v then p else p ++ [v]

theorem csr (r : Raised h t) : t.csr = h.csr := by rw [r.rest]
theorem rd (r : Raised h t) (k : Key) : t.rd k = h.rd k := Hw.rd_congr r.csr k
theorem gal (r : Raised h t) : t.gal = h.gal := by rw [r.rest]
theorem lastWrite (r : Raised h t) : t.pcie.lastWrite = h.pcie.lastWrite := by rw [r.rest]
theorem queue (r : Raised h t) (q : Nat) : t.queue q = h.queue q := by
  have : t.sched = h.sched := by rw [r.rest]
  rw [Hw.queue, this, Hw.queue]
theorem entry (r : Raised h t) (f v : Nat) : msixEntry t f v = msixEntry h f v := by rw [msixEntry, r.func f, msixEntry]

end Raised

theorem sendHost_up (hu : linkUp h = true) (x : HostMsg) : Sent h (sendHost h x) ∧ (sendHost h x).pcie.waiting = h.pcie.waiting := by
  unfold sendHost
  rw [hu, Bool.not_true, if_neg Bool.false_ne_true]
  cases x with
  | msix f v => exact ⟨⟨rfl⟩, rfl⟩
  | write f a n d be => exact ⟨⟨rfl⟩, rfl⟩

theorem sendHosts_up (hu : linkUp h = true) (hw : h.pcie.waiting = []) (l : List HostMsg) :
    Sent h (l.foldl sendHost h) ∧ (l.foldl sendHost h).pcie.waiting = [] := by
  refine List.foldlRecOn (motive := fun t => Sent h t ∧ t.pcie.waiting = []) l sendHost ⟨⟨rfl⟩, hw⟩ fun t ⟨st, wt⟩ x _ => ?_
  have up : linkUp t = true := by rw [st.rest]; exact hu
  obtain ⟨one, waits⟩ := sendHost_up up x
  exact ⟨⟨by rw [one.rest, st.rest]⟩, waits.trans wt⟩

/-- In L0 what waited has been sent. -/
theorem sendWaiting_up (hu : linkUp h = true) : (sendWaiting h).csr = h.csr ∧ (sendWaiting h).pcie.ready = h.pcie.ready ∧
    (sendWaiting h).pcie.waiting = [] := by
  obtain ⟨st, waits⟩ := sendHosts_up (h := { h with pcie := { h.pcie with waiting := [] } }) hu rfl h.pcie.waiting
  refine ⟨?_, ?_, waits⟩
  · rw [sendWaiting, st.rest]
  · rw [sendWaiting, st.rest]

/-! ### The link -/

theorem linkRises_leaves (hu : linkUp h = false) (hp : h.rst.perstLow = false) (hl : h.rst.pinLow = false) (hs : h.rst.sensed = true)
    {gen width : Nat} {flit : Bool} (h8 : gen < 8) (h0 : gen ≠ 0) (hg : gen ≤ h.rd K.PCIE_CTL_MAXGEN) (hw : width ∈ [1, 4, 8, 16])
    (hm : width ≤ widthOf (h.rd K.PCIE_CTL_MAXWIDTH)) (hf : gen = 6 → flit = true) :
    linkUp (linkRises h gen width flit) = true ∧ (linkRises h gen width flit).rd K.PCIE_STAT_GEN = gen ∧
      (linkRises h gen width flit).rd K.PCIE_STAT_WIDTH = width ∧ (linkRises h gen width flit).pcie.ready = true ∧
      (linkRises h gen width flit).pcie.waiting = [] := by
  have flits : (gen == 6 && !flit) = false := by
    by_cases h6 : gen = 6
    · rw [hf h6, Bool.not_true, Bool.and_false]
    · rw [beq_eq_false_iff_ne.2 h6, Bool.false_and]
  have within : (linkUp h || h.rst.perstLow || h.rst.pinLow || gen = 0 || decide (h.rd K.PCIE_CTL_MAXGEN < gen) ||
      !([1, 4, 8, 16].contains width) || decide (widthOf (h.rd K.PCIE_CTL_MAXWIDTH) < width) || (gen == 6 && !flit) || !h.rst.sensed) = false := by
    rw [hu, hp, hl, hs, flits, decide_eq_false h0, decide_eq_false (Nat.not_lt.2 hg), decide_eq_false (Nat.not_lt.2 hm), List.contains_iff_mem.2 hw]
    rfl
  have narrow : width < 2 ^ 5 := by
    simp only [List.mem_cons, List.not_mem_nil, or_false] at hw
    omega
  rw [linkRises, within, if_neg Bool.false_ne_true]
  dsimp only
  generalize hu' : (((h.wr K.PCIE_STAT_UP 1).wr K.PCIE_STAT_GEN gen).wr K.PCIE_STAT_WIDTH width).wrB K.PCIE_STAT_FLIT flit = u
  have up : u.rd K.PCIE_STAT_UP = 1 := by
    rw [← hu', Hw.wrB, Hw.rd_wr_ne _ (by decide), Hw.rd_wr_ne _ (by decide), Hw.rd_wr_ne _ (by decide), Hw.rd_wr_self]
    rfl
  have speed : u.rd K.PCIE_STAT_GEN = gen := by
    rw [← hu', Hw.wrB, Hw.rd_wr_ne _ (by decide), Hw.rd_wr_ne _ (by decide), Hw.rd_wr_self]
    exact Nat.mod_eq_of_lt h8
  have lanes : u.rd K.PCIE_STAT_WIDTH = width := by
    rw [← hu', Hw.wrB, Hw.rd_wr_ne _ (by decide), Hw.rd_wr_self]
    exact Nat.mod_eq_of_lt narrow
  have live : linkUp { u with pcie := { u.pcie with ready := true } } = true := by
    have same : linkUp { u with pcie := { u.pcie with ready := true } } = u.bit K.PCIE_STAT_UP := rfl
    rw [same, Hw.bit, up]
    rfl
  obtain ⟨csr, ready, waiting⟩ := sendWaiting_up live
  have rd (k : Key) : (sendWaiting { u with pcie := { u.pcie with ready := true } }).rd k = u.rd k := Hw.rd_congr csr k
  refine ⟨?_, (rd _).trans speed, (rd _).trans lanes, ready, waiting⟩
  rw [linkUp, Hw.bit, rd, up]
  rfl

theorem hotReset_leaves (hp : h.rst.phase = .running) (hr : h.bit K.PCIE_CTL_HOTREACH = false) :
    linkUp (hotReset h) = false ∧ (hotReset h).rd K.RST_CAUSE_HOT = 1 ∧ (hotReset h).rst.request.isSome = true := by
  have down := linkFalls_up h
  have reach : (linkFalls h).bit K.PCIE_CTL_HOTREACH = false := by
    rw [Hw.bit, linkFalls, Hw.rd_wr_ne _ (by decide), Hw.rd_wr_ne _ (by decide), Hw.rd_wr_ne _ (by decide), Hw.rd_wr_ne _ (by decide)]
    exact hr
  have phase : (linkFalls h).rst.phase = .running := hp
  rw [hotReset, reach, if_neg Bool.false_ne_true]
  generalize linkFalls h = u at down phase
  obtain ⟨rst, rd⟩ := requestReset_leaves phase false K.RST_CAUSE_HOT
  refine ⟨?_, ?_, ?_⟩
  · rw [linkUp, Hw.bit, rd, Hw.rd_wr_ne u (by decide), down]
    rfl
  · rw [rd, Hw.rd_wr_self]
    rfl
  · rw [rst]
    rfl

end

end Sys2Proof.Machine
end

section
/-!
PROOF. Configuration requests, accesses of the host and completions of host-bound requests (R329 to R335, R342).
-/
namespace Sys2Proof.Machine
open Sys2Proof

section
variable {h : Hw} {f : Func}

/-! ### Configuration requests -/

theorem configReaches (hu : linkUp h = true) (hr : h.pcie.ready = true) (hf : funcOn h f.val = true) :
    (!linkUp h || !h.pcie.ready || !funcOn h f.val) = false := by
  rw [hu, hr, hf]
  rfl

section
variable (hc : (!linkUp h || !h.pcie.ready || !funcOn h f.val) = false)
include hc

theorem configRequest_read (reg : Nat) :
    configRequest h f (.read reg) = complete (configRead h f.val reg).2 0 .ok (configRead h f.val reg).1 := by
  rw [configRequest, hc]
  rfl

theorem configRequest_busMaster (v : Bool) : configRequest h f (.busMaster v) = onFunc h f.val fun x => { x with busMaster := v } := by
  rw [configRequest, hc]
  rfl

theorem configRequest_memSpace (v : Bool) : configRequest h f (.memSpace v) = onFunc h f.val fun x => { x with memSpace := v } := by
  rw [configRequest, hc]
  rfl

theorem configRequest_vfEnable (n : Fin 64) : configRequest h f (.vfEnable n) = if f.val = 0 then setVfs h n.val else h := by
  rw [configRequest, hc]
  rfl

theorem configRequest_msixMask (v : Bool) :
    configRequest h f (.msixMask v) = sendPending (onFunc h f.val fun x => { x with msixMask := v }) f.val := by
  rw [configRequest, hc]
  rfl

end

theorem configRead_leaves (h : Hw) (f reg : Nat) : (configRead h f reg).2.csr = h.csr ∧
    (reg = 0 → (configRead h f reg).1 = (if f = 0 then 0x0048 else 0x0148) * 65536 + vendorId h) ∧
    (reg = 8 → (configRead h f reg).1 / 256 = 0x120000) := by
  refine ⟨rfl, ?_, ?_⟩
  · rintro rfl
    rfl
  · rintro rfl
    have low : h.draw.1 % 256 < 256 := Nat.mod_lt _ (by decide)
    show (0x120000 * 256 + h.draw.1 % 256) / 256 = 0x120000
    omega

theorem setVfs_leaves (h : Hw) {n : Nat} (hn : n < 2 ^ 8) : (setVfs h n).rd K.PCIE_STAT_NUMVF = n := by
  rw [setVfs]
  exact (Hw.rd_wr_self ..).trans (Nat.mod_eq_of_lt hn)

theorem maskVectors_leaves (h : Hw) (f : Nat) (v : Bool) :
    (func (sendPending (onFunc h f fun x => { x with msixMask := v }) f) f).msixMask = v := by
  rw [(Raised.sendPending _ f).func f, func_onFunc_self]

/-! ### Requests put on the Gallery -/

theorem pieces_bounded (k a n : Nat) : ∀ x ∈ pieces k a n, 0 < x.2 ∧ x.1 % 256 + x.2 ≤ 256 := by
  induction k generalizing a n with
  | zero => exact fun x hx => absurd hx List.not_mem_nil
  | succ k ih =>
    intro x hx
    rw [pieces] at hx
    split at hx
    · exact absurd hx List.not_mem_nil
    · obtain rfl | hx := List.mem_cons.1 hx
      · dsimp only
        omega
      · exact ih _ _ x hx

theorem pieces_whole {k a n : Nat} (hn : 0 < n) (ha : a % 256 + n ≤ 256) : pieces (k + 2) a n = [(a, n)] := by
  have first : min n (256 - a % 256) = n := by omega
  rw [pieces, if_neg (by omega)]
  dsimp only
  rw [first, Nat.sub_self, pieces, if_pos rfl]

/-- The requests of the pieces of an access, in order, and the number the next request has. -/
theorem issuePieces_leaves (f : Func) (kind : GKind) (a data tag : Nat) (l : List (Nat × Nat)) (h : Hw) : ∃ qs : List GReq,
    (l.foldl (fun h x => (issue h (.host f) kind x.1 x.2 (data / 256 ^ (x.1 - a) % 256 ^ x.2) (allOn x.2) tag).2) h) =
      { h with gal := { h.gal with reqs := h.gal.reqs ++ qs, nextId := h.gal.nextId + l.length } } ∧
    ∀ q ∈ qs, q.m = .host f ∧ q.kind = kind ∧ q.tag = tag ∧ ∃ x ∈ l, q.addr = x.1 ∧ q.size = x.2 := by
  induction l generalizing h with
  | nil => exact ⟨[], by rw [List.foldl_nil, List.append_nil]; rfl, fun q hq => absurd hq List.not_mem_nil⟩
  | cons x l ih =>
    obtain ⟨qs, e, all⟩ := ih (issue h (.host f) kind x.1 x.2 (data / 256 ^ (x.1 - a) % 256 ^ x.2) (allOn x.2) tag).2
    refine ⟨⟨h.gal.nextId, .host f, kind, x.1, x.2, data / 256 ^ (x.1 - a) % 256 ^ x.2, allOn x.2, tag⟩ :: qs, ?_, ?_⟩
    · rw [List.foldl_cons, e]
      simp only [issue, List.append_assoc, List.singleton_append, List.length_cons, Nat.add_assoc, Nat.add_comm 1]
    · intro q hq
      obtain rfl | hq := List.mem_cons.1 hq
      · exact ⟨rfl, rfl, rfl, x, List.mem_cons_self, rfl, rfl⟩
      · obtain ⟨hm, hk, ht, y, hy, hx⟩ := all q hq
        exact ⟨hm, hk, ht, y, List.mem_cons_of_mem _ hy, hx⟩

theorem hostIssue_leaves (h : Hw) (f : Func) (kind : GKind) (a size data tag : Nat) : ∃ qs : List GReq,
    (hostIssue h f kind a size data tag).gal.reqs = h.gal.reqs ++ qs ∧ (hostIssue h f kind a size data tag).mem = h.mem ∧
    ∀ q ∈ qs, q.m = .host f ∧ q.kind = kind ∧ q.tag = tag ∧ 0 < q.size ∧ q.addr % 256 + q.size ≤ 256 := by
  obtain ⟨qs, e, all⟩ := issuePieces_leaves f kind a data tag (pieces (size / 256 + 2) a size) h
  have bounded : ∀ q ∈ qs, q.m = .host f ∧ q.kind = kind ∧ q.tag = tag ∧ 0 < q.size ∧ q.addr % 256 + q.size ≤ 256 := by
    intro q hq
    obtain ⟨hm, hk, ht, x, hx, ha, hs⟩ := all q hq
    exact ⟨hm, hk, ht, ha ▸ hs ▸ pieces_bounded _ _ _ x hx⟩
  refine ⟨qs, ?_, ?_, bounded⟩
  · rw [hostIssue, e]
    split <;> rfl
  · rw [hostIssue, e]
    split <;> rfl

/-- An access that no boundary of 256 bytes splits is one request. -/
theorem hostIssue_whole (h : Hw) (f : Func) (kind : GKind) {a size : Nat} (hs : 0 < size) (ha : a % 256 + size ≤ 256) (data tag : Nat) :
    (hostIssue h f kind a size data tag).gal.reqs =
      h.gal.reqs ++ [⟨h.gal.nextId, .host f, kind, a, size, data % 256 ^ size, allOn size, tag⟩] := by
  rw [hostIssue, pieces_whole hs ha]
  dsimp only [List.foldl_cons, List.foldl_nil]
  rw [Nat.sub_self, Nat.pow_zero, Nat.div_one]
  split <;> rfl

/-! ### Completions -/

theorem lastCpl_complete (h : Hw) (tag : Nat) (st : Status) (data : Nat) : (complete h tag st data).pcie.lastCpl =
    [(tag, (completionOf st).1, (completionOf st).2, if (completionOf st).1 = .sc then data else 0)] := rfl

theorem lastCpl_ok (h : Hw) (tag data : Nat) : (complete h tag .ok data).pcie.lastCpl = [(tag, .sc, false, data)] := rfl

theorem gal_complete (h : Hw) (tag : Nat) (st : Status) (data : Nat) : (complete h tag st data).gal = h.gal := rfl

theorem takeHostReq_some {id : Nat} {r : HostReq} {g : Hw} (ht : takeHostReq h id = some (r, g)) :
    g = { h with pcie := { h.pcie with reqs := h.pcie.reqs.filter fun x => x.id != id } } := by
  unfold takeHostReq at ht
  split at ht
  · cases ht
    rfl
  · cases ht

theorem taken_reqs {id : Nat} {r : HostReq} {g : Hw} (ht : takeHostReq h id = some (r, g)) : ∀ x ∈ g.pcie.reqs, x.id ≠ id := by
  rw [takeHostReq_some ht]
  intro x hx
  exact bne_iff_ne.1 (List.mem_filter.1 hx).2

theorem pcie_loadFails (h : Hw) (code detail seg faddr : Nat) : (loadFails h code detail seg faddr).pcie = h.pcie := by
  unfold loadFails
  split
  · split <;> rfl
  · rfl

theorem completionArrives_none {id : Nat} (ht : takeHostReq h id = none) (st : Status) (data : Nat) :
    completionArrives h id st data = h.cnt K.PCIE_ERRCNT_UNEXP := by
  rw [completionArrives, ht]

theorem completionArrives_loader {id : Nat} {r : HostReq} {g : Hw} (ht : takeHostReq h id = some (r, g)) (hq : r.q = none)
    (st : Status) (data : Nat) :
    completionArrives h id st data = if st = .ok then h else loadFails g 0x14 (scode st) (h.rd K.CFG_LOAD_SEG) 0 := by
  rw [completionArrives, ht]
  dsimp only
  rw [hq]

theorem completionArrives_answers {id : Nat} {r : HostReq} {g : Hw} {q : GReq} (ht : takeHostReq h id = some (r, g)) (hq : r.q = some q)
    (st : Status) (data : Nat) : completionArrives h id st data = answer g q st data := by
  rw [completionArrives, ht]
  dsimp only
  rw [hq]

theorem completionLate_answers {id : Nat} {r : HostReq} {g : Hw} {q : GReq} (ht : takeHostReq h id = some (r, g)) (hq : r.q = some q) :
    completionLate h id = answer (g.cnt K.PCIE_ERRCNT_CTO) q .tgterr 0 := by
  rw [completionLate, ht]
  dsimp only
  rw [hq]

end

end Sys2Proof.Machine
end

section
/-!
PROOF. Function resets, MSI-X and the registers of functions and host rings (R330, R334, R337 to R339).
-/
namespace Sys2Proof.Machine
open Sys2Proof

section
variable {h : Hw} {f : Nat}

/-! ### Function resets -/

/-- The functions of the controller and the size of its BAR are the same. -/
structure FuncsSame (h t : Hw) : Prop where
  funcs : t.pcie.funcs = h.pcie.funcs
  bar : t.pcie.barLog = h.pcie.barLog

namespace FuncsSame
variable {t u : Hw}

theorem refl (h : Hw) : FuncsSame h h := ⟨rfl, rfl⟩
theorem trans (a : FuncsSame h t) (b : FuncsSame t u) : FuncsSame h u := ⟨b.funcs.trans a.funcs, b.bar.trans a.bar⟩
theorem of_pcie (e : t.pcie = h.pcie) : FuncsSame h t := ⟨by rw [e], by rw [e]⟩
theorem wr (h : Hw) (k : Key) (v : Nat) : FuncsSame h (h.wr k v) := ⟨rfl, rfl⟩
theorem foldl {α : Type} {f : Hw → α → Hw} (hf : ∀ h x, FuncsSame h (f h x)) (l : List α) (h : Hw) : FuncsSame h (l.foldl f h) :=
  List.foldlRecOn (motive := FuncsSame h) l f (refl h) fun t ht x _ => ht.trans (hf t x)
theorem func (s : FuncsSame h t) (f : Nat) : func t f = Machine.func h f := by rw [Machine.func, s.funcs, Machine.func]

end FuncsSame

/-- A reset of a function clears its state but for a range conflict; the PF's gives its BAR the least size. -/
theorem resetFunc_leaves (h : Hw) (f : Nat) : ∃ u : Hw, func u f = { conflict := (func h f).conflict } ∧
    u.pcie.barLog = (if f = 0 then 36 else h.pcie.barLog) ∧ FuncsSame u (resetFunc h f) := by
  unfold resetFunc
  extract_lets a src b qs owned c d gone old e g ofF isWrite n
  have cleared : func b f = { conflict := (func h f).conflict } := by
    have first : func a f = { conflict := (func h f).conflict } := func_onFunc_self h f fun x => { conflict := x.conflict }
    simp only [b]
    split
    · exact first
    · exact first
  have bar : b.pcie.barLog = if f = 0 then 36 else h.pcie.barLog := by
    simp only [b]
    split <;> rfl
  refine ⟨b, cleared, bar, ?_⟩
  have queues : FuncsSame b c := .foldl (fun g q => .of_pcie (pcieSame.disableQueue g q)) qs b
  have rings : FuncsSame c d := .foldl (fun g q => ((((FuncsSame.wr g _ 0).trans (.wr _ _ 0)).trans (.wr _ _ 0)).trans (.wr _ _ 0))) owned c
  have taken : FuncsSame d e := ⟨rfl, rfl⟩
  have answered : FuncsSame e g := .foldl (fun g r => by
    split
    · exact .of_pcie (pcieSame.answer ..)
    · exact .refl g) gone e
  have dropped : FuncsSame g { g with pcie := { g.pcie with waiting := g.pcie.waiting.filter fun x => !ofF x } } := ⟨rfl, rfl⟩
  exact (queues.trans rings).trans ((taken.trans answered).trans (dropped.trans (.wr ..)))

theorem flr_function (h0 : f ≠ 0) (hf : funcOn h f = true) : func (flr h f) f = { conflict := (func h f).conflict } := by
  obtain ⟨u, cleared, -, same⟩ := resetFunc_leaves h f
  rw [flr, if_pos (bne_iff_ne.2 h0), hf, if_pos rfl, same.func, cleared]

theorem barLog_resetFuncs (l : List Nat) (hb : h.pcie.barLog = 36) : (l.foldl resetFunc h).pcie.barLog = 36 := by
  refine List.foldlRecOn (motive := fun t : Hw => t.pcie.barLog = 36) l resetFunc hb fun t ht f _ => ?_
  obtain ⟨u, -, bar, same⟩ := resetFunc_leaves t f
  rw [same.bar, bar, ht, ite_self]

theorem flr_device (h : Hw) : (flr h 0).rd K.PCIE_STAT_NUMVF = 0 ∧ (flr h 0).pcie.barLog = 36 := by
  obtain ⟨l, all⟩ : ∃ l, List.range 64 = 0 :: l := ⟨_, List.range_succ_eq_map⟩
  obtain ⟨u, -, bar, same⟩ := resetFunc_leaves h 0
  have first : (resetFunc h 0).pcie.barLog = 36 := by rw [same.bar, bar, if_pos rfl]
  have folded : (List.range 64).foldl resetFunc h = l.foldl resetFunc (resetFunc h 0) := by rw [all, List.foldl_cons]
  have e : flr h 0 = ((List.range 64).foldl resetFunc h).wr K.PCIE_STAT_NUMVF 0 := if_neg Bool.false_ne_true
  rw [e, folded]
  exact ⟨Hw.rd_wr_self .., barLog_resetFuncs l first⟩

/-! ### MSI-X -/

theorem enableMsix_off (hf : funcOn h f = true) : (func (enableMsix h f false) f).msixEn = false := by
  rw [enableMsix, hf, Bool.not_true, if_neg Bool.false_ne_true, Bool.not_false, if_pos rfl, func_onFunc_self]

/-- Whether the range of a function's vectors clashes. -/
def rangeClash (h : Hw) (f : Nat) : Bool :=
  decide (2048 < h.rd (K.PCIE_FUNC_MSIX_BASE f) + msixCount h f) ||
    (List.range 64).any fun g => g != f && (func h g).msixEn && rangesMeet h f g

theorem enableMsix_on (hf : funcOn h f = true) : (func (enableMsix h f true) f).msixEn = true ∧
    (func (enableMsix h f true) f).conflict = ((func h f).conflict || rangeClash h f) := by
  rw [enableMsix, hf, Bool.not_true, if_neg Bool.false_ne_true, if_neg Bool.false_ne_true]
  extract_lets clash a b
  have set : func a f = { func h f with msixEn := true, conflict := (func h f).conflict || clash } :=
    func_onFunc_self h f fun x => { x with msixEn := true, conflict := x.conflict || clash }
  have logged : func b f = func a f := by
    simp only [b]
    split
    · exact func_congr (kept_logErr ..).pcie f
    · rfl
  rw [(Raised.sendPending b f).func f, logged, set]
  exact ⟨rfl, rfl⟩

theorem rangeClash_past (hp : 2048 < h.rd (K.PCIE_FUNC_MSIX_BASE f) + msixCount h f) : rangeClash h f = true := by
  rw [rangeClash, decide_eq_true hp, Bool.true_or]

theorem rangeClash_alone (ho : ∀ g, g ≠ f → (func h g).msixEn = false)
    (hp : h.rd (K.PCIE_FUNC_MSIX_BASE f) + msixCount h f ≤ 2048) : rangeClash h f = false := by
  rw [rangeClash, decide_eq_false (Nat.not_lt.2 hp), Bool.false_or, List.any_eq_false]
  intro g _
  by_cases hg : g = f
  · rw [hg, bne_self_eq_false]
    exact Bool.false_ne_true
  · rw [ho g hg, Bool.and_false]
    exact Bool.false_ne_true

theorem writeTable_leaves (h : Hw) (f off size data : Nat) : (writeTable h f off size data).gal = h.gal ∧
    msixEntry (writeTable h f off size data) f (off / 16) =
      setBits (msixEntry h f (off / 16)) (off % 16 * 8) (8 * size) data % 2 ^ 128 := by
  unfold writeTable
  extract_lets v old lo new
  have set : msixEntry (onFunc h f fun x => { x with table := SMap.set x.table v new (2 ^ 96) }) f v = new := by
    rw [msixEntry, func_onFunc_self]
    exact SMap.get_set_self ..
  exact ⟨(Raised.sendPending _ f).gal, ((Raised.sendPending _ f).entry f v).trans set⟩

theorem testBit_setBits_zero (x lo w : Nat) : (setBits x lo (w + 1) 0).testBit lo = false := by
  have bit : (setBits x lo (w + 1) 0).testBit lo = (setBits x lo (w + 1) 0 / 2 ^ lo % 2 ^ (w + 1)).testBit 0 := by
    rw [Nat.testBit_mod_two_pow, Nat.testBit_div_two_pow, Nat.zero_add, decide_eq_true (Nat.succ_pos w), Bool.true_and]
  rw [bit, setBits_field, Nat.zero_mod, Nat.zero_testBit]

theorem unmask_leaves (h : Hw) (f v : Nat) : (msixEntry (unmask h f v) f v).testBit 96 = false := by
  have entry := (writeTable_leaves h f (16 * v + 12) 1 0).2
  have row : (16 * v + 12) / 16 = v := by omega
  have lo : (16 * v + 12) % 16 * 8 = 96 := by omega
  rw [row, lo] at entry
  rw [unmask, entry, Nat.testBit_mod_two_pow, testBit_setBits_zero _ 96 7, Bool.and_false]

end

end Sys2Proof.Machine
end

section
/-!
PROOF. Entries of a queue that others leave alone, host rings, the registers of functions and rings, and the debug window
(R336, R337, R340, R471).
-/
namespace Sys2Proof.Machine
open Sys2Proof

/-! ### Entries of a queue -/

/-- Queue p holds no entry that it did not hold before. -/
structure NoNewEntry (p : Nat) (h t : Hw) : Prop where
  old : ∀ x ∈ (t.queue p).entries, x ∈ (h.queue p).entries

namespace NoNewEntry
variable {p : Nat} {h t u : Hw}

theorem refl (p : Nat) (h : Hw) : NoNewEntry p h h := ⟨fun _ hx => hx⟩
theorem trans (a : NoNewEntry p h t) (b : NoNewEntry p t u) : NoNewEntry p h u := ⟨fun x hx => a.old x (b.old x hx)⟩
theorem of_queues (e : t.sched.queues = h.sched.queues) : NoNewEntry p h t := ⟨fun _ hx => by rwa [Hw.queue, e] at hx⟩

theorem dispatch (h : Hw) (p : Nat) : NoNewEntry p h (dispatch h) := ⟨queue_dispatch_slots h p⟩

theorem tryWrite (p : Nat) (h : Hw) (w : HeldWrite) : NoNewEntry p h (tryWrite h w) := by
  unfold Machine.tryWrite
  split
  · exact of_queues rfl
  · unfold performWrite touchLines
    refine List.foldlRecOn (motive := NoNewEntry p h) _ _ (of_queues rfl) fun t ht x _ => ht.trans ?_
    split
    · exact refl p t
    · exact of_queues rfl

theorem place {q : Nat} (hp : p ≠ q) (h : Hw) (level : Nat) (tk : Option Nat) (d : Desc) : NoNewEntry p h (place h q level tk d) := by
  unfold Machine.place
  extract_lets s e u x v
  have written : NoNewEntry p h u := tryWrite p h _
  have other : NoNewEntry p u v := ⟨fun y hy => by rwa [Hw.queue, show v.sched.queues = SMap.set u.sched.queues q _ {} from rfl,
    SMap.get_set_ne _ hp] at hy⟩
  exact (written.trans other).trans (of_queues rfl)

theorem takeTicket {q tk : Nat} (e : takeTicket h q = some (tk, t)) : NoNewEntry p h t := by
  unfold Machine.takeTicket at e
  simp only [Hw.draw] at e
  split at e
  · cases e
    exact of_queues rfl
  · cases e

theorem tryEnter {q : Nat} (hp : p ≠ q) (h : Hw) (s : Src) (d : Desc) : NoNewEntry p h (tryEnter h q s d).1 := by
  unfold Machine.tryEnter
  split
  · exact refl p h
  · split
    · exact refl p h
    · split
      · exact refl p h
      · split
        · exact refl p h
        next ht => exact (takeTicket ht).trans (place hp ..)

theorem postError (hp : p ≠ 4) (h : Hw) (w a d m : Nat) : NoNewEntry p h (postError h w a d m) := by
  unfold Machine.postError
  have entered := tryEnter hp h (.event 4) (mkDesc 0 w a d m 0 0 0)
  generalize Machine.tryEnter h 4 (.event 4) (mkDesc 0 w a d m 0 0 0) = r at entered
  obtain ⟨u, adm⟩ := r
  cases adm with
  | ok tk => exact entered.trans (dispatch u p)
  | full => exact entered.trans (of_queues rfl)
  | noticket => exact entered.trans (of_queues rfl)
  | noqueue => exact entered
  | denied => exact entered

theorem logEntry (hp : p ≠ 4) (h : Hw) (s m c a d : Nat) : NoNewEntry p h (logEntry h s m c a d) := by
  have raw : NoNewEntry p h (logRaw h s m c a d) := of_queues (congrArg Sched.queues (sched_logRaw ..))
  unfold Machine.logEntry
  dsimp only
  split
  · exact raw.trans (postError hp ..)
  · exact raw

theorem logOp (hp : p ≠ 4) (h : Hw) (s : Nat) (m : Option Master) (st a : Nat) : NoNewEntry p h (logOp h s m st a) := logEntry hp ..

end NoNewEntry

section
variable {h : Hw}

/-! ### Host rings -/

theorem pcie_leave (h : Hw) (q : Nat) (e : QEntry) : (leave h q e).pcie = h.pcie := by
  unfold leave dropTicket
  split <;> rfl

theorem endBatch_leaves (h : Hw) (q p : Nat) : (endBatch h q).pcie.lastWrite = h.pcie.lastWrite ∧
    (∀ k, OffSched k → (endBatch h q).rd k = h.rd k) ∧ (p ≠ 4 → NoNewEntry p h (endBatch h q)) := by
  unfold endBatch
  extract_lets src u
  have start : NoNewEntry p h u := .of_queues rfl
  split
  · have raised := Raised.raiseMsix u (qIdx u q) (u.rd (K.PCIE_HRING_VEC q))
    dsimp only
    generalize raiseMsix u (qIdx u q) (u.rd (K.PCIE_HRING_VEC q)) = r at raised
    have queues : NoNewEntry p u r.2 := .of_queues (by rw [raised.rest])
    split
    · have log := kept_logOp r.2 srcPcie none 2 (hringAddr q)
      exact ⟨by rw [log.pcie]; exact raised.lastWrite, fun k hk => (log.rd k hk).trans (raised.rd k),
        fun hp => (start.trans queues).trans (.logOp hp ..)⟩
    · exact ⟨raised.lastWrite, fun k _ => raised.rd k, fun _ => start.trans queues⟩
  · exact ⟨rfl, fun _ _ => rfl, fun _ => start⟩

theorem offSched_ringTail (q : Nat) : OffSched (K.PCIE_HRING_TAIL q) := by
  simp only [OffSched, K.PCIE_HRING_TAIL]
  omega

theorem sendWrite_up (hu : linkUp h = true) (f a n d be : Nat) :
    sendHost h (.write f a n d be) = { h with pcie := { h.pcie with lastWrite := some (a, n, d, be) } } := by
  unfold sendHost
  rw [hu, Bool.not_true, if_neg Bool.false_ne_true]

section
variable {q : Nat} {e : QEntry}

/-- The oldest entry of a host-owned queue goes to the ring at TAIL, and its slot is free. -/
theorem ringDelivery_leaves (hen : qEn h q = true) (hd : qDeliver h q = true) (hk : qKind h q = 1) (hr : ringRoom h q = true)
    (hb : (func h (qIdx h q)).busMaster = true) (hu : linkUp h = true) (ho : oldest h q = some e) :
    (ringDelivery h q).rd (K.PCIE_HRING_TAIL q) = (h.rd (K.PCIE_HRING_TAIL q) + 1) % 65536 ∧
    (8 ≤ q → ∀ x ∈ ((ringDelivery h q).queue q).entries, x.slot ≠ e.slot) ∧
    (ringDelivery h q).pcie.lastWrite = some (h.rd (K.SCHED_Q_DEST_DEST q) / 64 * 64 + h.rd (K.PCIE_HRING_TAIL q) % qDepth h q * 64, 64,
      descNat (slotDesc h q e.slot), allOn 64) := by
  have ready : (!qEn h q || !qDeliver h q || qKind h q != 1 || !ringRoom h q || !(func h (qIdx h q)).busMaster || !linkUp h) = false := by
    rw [hen, hd, hk, hr, hb, hu]
    rfl
  unfold ringDelivery
  rw [ready, if_neg Bool.false_ne_true, ho]
  dsimp only
  rw [sendWrite_up hu]
  generalize hs : ({ h with pcie := { h.pcie with lastWrite := some (h.rd (K.SCHED_Q_DEST_DEST q) / 64 * 64 +
    h.rd (K.PCIE_HRING_TAIL q) % qDepth h q * 64, 64, descNat (slotDesc h q e.slot), allOn 64) } } : Hw) = u
  have sent : u.pcie.lastWrite = some (h.rd (K.SCHED_Q_DEST_DEST q) / 64 * 64 + h.rd (K.PCIE_HRING_TAIL q) % qDepth h q * 64, 64,
    descNat (slotDesc h q e.slot), allOn 64) := by rw [← hs]
  generalize hl : leave (u.wr (K.PCIE_HRING_TAIL q) (h.rd (K.PCIE_HRING_TAIL q) + 1)) q e = v
  have tail : v.rd (K.PCIE_HRING_TAIL q) = (h.rd (K.PCIE_HRING_TAIL q) + 1) % 65536 := by
    rw [← hl, Hw.rd_congr (csr_leave e), Hw.rd_wr_self]
    rfl
  have wrote : v.pcie.lastWrite = u.pcie.lastWrite := by rw [← hl, pcie_leave, Hw.wr_pcie]
  have gone : ∀ x ∈ (v.queue q).entries, x.slot ≠ e.slot := by
    intro x hx
    rw [← hl, entries_leave] at hx
    exact bne_iff_ne.1 (List.mem_filter.1 hx).2
  generalize hn : ({ v with pcie := { v.pcie with batch := SMap.set v.pcie.batch q (SMap.get v.pcie.batch q 0 + 1) 0 } } : Hw) = w
  have counted : w.pcie.lastWrite = v.pcie.lastWrite := by rw [← hn]
  have tails : w.rd (K.PCIE_HRING_TAIL q) = v.rd (K.PCIE_HRING_TAIL q) := by rw [← hn]; rfl
  have thin : NoNewEntry q v w := .of_queues (by rw [← hn])
  generalize ((oldest w q).isNone || !ringRoom w q || decide (16 ≤ SMap.get v.pcie.batch q 0 + 1)) = last
  obtain ⟨bw, brd, bq⟩ := endBatch_leaves w q q
  have ended : (if last = true then endBatch w q else w).pcie.lastWrite = w.pcie.lastWrite ∧
      (if last = true then endBatch w q else w).rd (K.PCIE_HRING_TAIL q) = w.rd (K.PCIE_HRING_TAIL q) ∧
      (q ≠ 4 → NoNewEntry q w (if last = true then endBatch w q else w)) := by
    split
    · exact ⟨bw, brd _ (offSched_ringTail q), bq⟩
    · exact ⟨rfl, rfl, fun _ => .refl q w⟩
  generalize (if last = true then endBatch w q else w) = g at ended
  obtain ⟨gw, gt, gq⟩ := ended
  have kept := kept_dispatch g
  refine ⟨?_, fun h8 x hx => ?_, ?_⟩
  · rw [kept.rd _ (offSched_ringTail q), gt, tails, tail]
  · exact gone x ((thin.trans (gq (by omega))).old x (queue_dispatch_slots g q x hx))
  · rw [kept.pcie, gw, counted, wrote, sent]

end

end

end Sys2Proof.Machine
end

section
/-!
PROOF. The registers of functions and host rings, the debug window, and the PCI Express controller as a whole (R327 to R345, R471).
-/
namespace Sys2Proof.Machine
open Sys2Proof

section
variable {h : Hw}

/-! ### Fields as a write leaves them -/

theorem newVal_whole {k : Key} {data mask : Nat} (hm : fieldIn k mask = 2 ^ k.w - 1) (ho : h.rd k < 2 ^ k.w) :
    newVal h k data mask = fieldIn k data := by
  have new : fieldIn k data < 2 ^ k.w := Nat.mod_lt _ (Nat.two_pow_pos _)
  have low : mergeBits (h.rd k) (2 ^ k.w - 1) (fieldIn k data) < 2 ^ k.w := by
    rw [mergeBits]
    exact Nat.xor_lt_two_pow ho (Nat.and_lt_two_pow _ (Nat.sub_lt (Nat.two_pow_pos _) Nat.one_pos))
  rw [newVal, merged, hm, ← Nat.mod_eq_of_lt low, mergeBits_whole, Nat.mod_eq_of_lt new]

theorem wr_newVal_whole {k : Key} {data mask : Nat} (hm : fieldIn k mask = 2 ^ k.w - 1) (g : Hw) :
    (g.wr k (newVal h k data mask)).rd k = fieldIn k data := by
  rw [Hw.rd_wr_self, newVal, merged, hm, mergeBits_whole]
  exact Nat.mod_mod _ _

/-! ### The registers of a function -/

theorem msixFields_ne (f : Nat) : (K.PCIE_FUNC_MSIX_BASE f).id ≠ (K.PCIE_FUNC_MSIX_COUNT f).id := by
  simp only [Key.id, K.PCIE_FUNC_MSIX_BASE, K.PCIE_FUNC_MSIX_COUNT]
  omega

theorem offSched_msix (f : Nat) : OffSched (K.PCIE_FUNC_MSIX_BASE f) ∧ OffSched (K.PCIE_FUNC_MSIX_COUNT f) := by
  simp only [OffSched, K.PCIE_FUNC_MSIX_BASE, K.PCIE_FUNC_MSIX_COUNT]
  omega

theorem writeFuncMsix_ignored {f : Nat} (hf : (func h f).msixEn = true ∨ (f ≠ 0 ∧ h.rd K.PCIE_STAT_NUMVF ≠ 0)) (m : Master) (data mask : Nat) :
    (writeFuncMsix h m f data mask).rd (K.PCIE_FUNC_MSIX_BASE f) = h.rd (K.PCIE_FUNC_MSIX_BASE f) ∧
    func (writeFuncMsix h m f data mask) f = func h f := by
  have closed : ((func h f).msixEn || (f != 0 && h.rd K.PCIE_STAT_NUMVF != 0)) = true := by
    obtain hf | ⟨h0, hn⟩ := hf
    · rw [hf, Bool.true_or]
    · rw [bne_iff_ne.2 h0, bne_iff_ne.2 hn, Bool.and_self, Bool.or_true]
  have log := kept_logErr h
  rw [writeFuncMsix, closed, if_pos rfl]
  exact ⟨(kept_logErr ..).rd _ (offSched_msix f).1, func_congr (kept_logErr ..).pcie f⟩

theorem writeFuncMsix_leaves {f : Nat} (he : (func h f).msixEn = false) (hf : f = 0 ∨ h.rd K.PCIE_STAT_NUMVF = 0)
    (hc : h.rd (K.PCIE_FUNC_MSIX_COUNT f) < 2 ^ 12) (m : Master) (data : Nat) :
    (writeFuncMsix h m f data (2 ^ 64 - 1)).rd (K.PCIE_FUNC_MSIX_BASE f) = data % 2 ^ 11 ∧
    (writeFuncMsix h m f data (2 ^ 64 - 1)).rd (K.PCIE_FUNC_MSIX_COUNT f) =
      if data / 2 ^ 16 % 2 ^ 12 ≤ 2048 then data / 2 ^ 16 % 2 ^ 12 else (K.PCIE_FUNC_MSIX_COUNT f).rst := by
  have opened : ((func h f).msixEn || (f != 0 && h.rd K.PCIE_STAT_NUMVF != 0)) = false := by
    obtain rfl | hn := hf
    · rw [he]
      rfl
    · rw [he, hn, bne_self_eq_false, Bool.and_false, Bool.or_false]
  have ne := msixFields_ne f
  obtain ⟨offBase, offCount⟩ := offSched_msix f
  rw [writeFuncMsix, opened, if_neg Bool.false_ne_true]
  generalize ha : onFunc h f _ = a
  have count : a.rd (K.PCIE_FUNC_MSIX_COUNT f) = h.rd (K.PCIE_FUNC_MSIX_COUNT f) := by rw [← ha]; rfl
  dsimp only
  generalize hb : a.wr (K.PCIE_FUNC_MSIX_BASE f) (newVal a (K.PCIE_FUNC_MSIX_BASE f) data (2 ^ 64 - 1)) = b
  have base : b.rd (K.PCIE_FUNC_MSIX_BASE f) = data % 2 ^ 11 := by
    rw [← hb, wr_newVal_whole (k := K.PCIE_FUNC_MSIX_BASE f) (by simp only [fieldIn, K.PCIE_FUNC_MSIX_BASE]; norm_num)]
    simp only [fieldIn, K.PCIE_FUNC_MSIX_BASE, Nat.pow_zero, Nat.div_one]
  have held : b.rd (K.PCIE_FUNC_MSIX_COUNT f) < 2 ^ 12 := by
    rw [← hb, Hw.rd_wr_ne _ ne.symm, count]
    exact hc
  have named : newVal b (K.PCIE_FUNC_MSIX_COUNT f) data (2 ^ 64 - 1) = data / 2 ^ 16 % 2 ^ 12 :=
    newVal_whole (by simp only [fieldIn, K.PCIE_FUNC_MSIX_COUNT]; norm_num) held
  rw [named]
  have width : (K.PCIE_FUNC_MSIX_COUNT f).w = 12 := rfl
  split
  next big =>
    rw [if_neg (Nat.not_le.2 big), (kept_logErr ..).rd _ offBase, (kept_logErr ..).rd _ offCount, Hw.rd_wr_ne _ ne, Hw.rd_wr_self]
    refine ⟨base, Nat.mod_eq_of_lt ?_⟩
    simp only [K.PCIE_FUNC_MSIX_COUNT]
    split <;> decide
  next small =>
    rw [if_pos (Nat.not_lt.1 small), Hw.rd_wr_ne _ ne, Hw.rd_wr_self, width, Nat.mod_mod]
    exact ⟨base, rfl⟩

/-! ### The registers of a host ring -/

theorem writeHring_low {q : Nat} (hq : q < 256) (m : Master) (data mask : Nat) : writeHring h m q data mask = h := if_pos hq

/-- What a write of HEAD alone leaves of the other fields of a ring, before HEAD is judged. -/
theorem writeHring_head {q : Nat} (hq : 256 ≤ q) (m : Master) {head : Nat} (hh : head < 2 ^ 16) (ho : h.rd (K.PCIE_HRING_HEAD q) < 2 ^ 16) :
    (writeHring h m q (head * 2 ^ 48) (0xFFFF * 2 ^ 48)).rd (K.PCIE_HRING_HEAD q) =
      if qDepth h q < (h.rd (K.PCIE_HRING_TAIL q) + 65536 - head) % 65536 then h.rd (K.PCIE_HRING_HEAD q) else head := by
  have ien : (K.PCIE_HRING_IEN q).id ≠ (K.PCIE_HRING_HEAD q).id ∧ (K.PCIE_HRING_IEN q).id ≠ (K.PCIE_HRING_TAIL q).id ∧
      (K.PCIE_HRING_VEC q).id ≠ (K.PCIE_HRING_HEAD q).id ∧ (K.PCIE_HRING_VEC q).id ≠ (K.PCIE_HRING_TAIL q).id := by
    simp only [Key.id, K.PCIE_HRING_IEN, K.PCIE_HRING_HEAD, K.PCIE_HRING_TAIL, K.PCIE_HRING_VEC]
    omega
  obtain ⟨ieh, iet, veh, vet⟩ := ien
  rw [writeHring, if_neg (Nat.not_lt.2 hq)]
  extract_lets a b new
  have heads : b.rd (K.PCIE_HRING_HEAD q) = h.rd (K.PCIE_HRING_HEAD q) := by
    simp only [b, a]
    rw [Hw.rd_wr_ne _ veh.symm, Hw.rd_wr_ne _ ieh.symm]
  have tails : b.rd (K.PCIE_HRING_TAIL q) = h.rd (K.PCIE_HRING_TAIL q) := by
    simp only [b, a]
    rw [Hw.rd_wr_ne _ vet.symm, Hw.rd_wr_ne _ iet.symm]
  have depth : qDepth b q = qDepth h q := by
    have ne : (K.SCHED_Q_CFG_DEPTH q).id ≠ (K.PCIE_HRING_IEN q).id ∧ (K.SCHED_Q_CFG_DEPTH q).id ≠ (K.PCIE_HRING_VEC q).id := by
      simp only [Key.id, K.SCHED_Q_CFG_DEPTH, K.PCIE_HRING_IEN, K.PCIE_HRING_VEC]
      omega
    simp only [qDepth, b, a]
    rw [Hw.rd_wr_ne _ ne.2, Hw.rd_wr_ne _ ne.1]
  have named : new = head := by
    have mask : fieldIn (K.PCIE_HRING_HEAD q) (0xFFFF * 2 ^ 48) = 2 ^ 16 - 1 := by
      simp only [fieldIn, K.PCIE_HRING_HEAD]
      norm_num
    refine (newVal_whole mask (by rw [heads]; exact ho)).trans ?_
    simp only [fieldIn, K.PCIE_HRING_HEAD]
    rw [Nat.mul_div_cancel _ (Nat.two_pow_pos 48), Nat.mod_eq_of_lt hh]
  rw [tails, depth, named]
  have off : OffSched (K.PCIE_HRING_HEAD q) := by
    simp only [OffSched, K.PCIE_HRING_HEAD]
    omega
  split
  · exact ((kept_logErr ..).rd _ off).trans heads
  · exact (Hw.rd_wr_self ..).trans (Nat.mod_eq_of_lt hh)

/-! ### The debug window -/

theorem writeDbgwin_takes {m : Master} (hm : m = .core 0 ∨ (m = .adit ∧ owner h ≠ 2)) (v : Bool) :
    (writeDbgwin h m v).rd K.PCIE_CTL_DBGWIN = b2n v ∧ (writeDbgwin h m v).mem = h.mem := by
  have may : (m == .core 0 || (m == .adit && owner h != 2)) = true := by
    obtain rfl | ⟨rfl, ho⟩ := hm
    · rfl
    · rw [bne_iff_ne.2 ho]
      rfl
  have set : (h.wrB K.PCIE_CTL_DBGWIN v).rd K.PCIE_CTL_DBGWIN = b2n v := by
    rw [Hw.wrB, Hw.rd_wr_self]
    cases v <;> rfl
  rw [writeDbgwin, may, if_pos rfl]
  exact ⟨set, rfl⟩

theorem writeDbgwin_ignored {m : Master} (h0 : m ≠ .core 0) (ha : m ≠ .adit ∨ owner h = 2) (v : Bool) :
    (writeDbgwin h m v).rd K.PCIE_CTL_DBGWIN = h.rd K.PCIE_CTL_DBGWIN := by
  have may : (m == .core 0 || (m == .adit && owner h != 2)) = false := by
    rw [beq_eq_false_iff_ne.2 h0, Bool.false_or]
    obtain ha | ha := ha
    · rw [beq_eq_false_iff_ne.2 ha, Bool.false_and]
    · rw [ha, bne_self_eq_false, Bool.and_false]
  rw [writeDbgwin, may, if_neg Bool.false_ne_true]
  exact (kept_logErr ..).rd _ (by simp only [OffSched, K.PCIE_CTL_DBGWIN]; decide)

section
variable {off size data tag : Nat}

/-- A window that is closed, or an offset between its parts: reads are 0, writes are logged. -/
theorem windowAccess_drops (hc : h.bit K.PCIE_CTL_DBGWIN = false ∨ (0x2000 ≤ off ∧ off < 0x200000)) (wr : Bool) :
    windowAccess h wr off size data tag =
      if wr then logErr h srcAdit (some (.host 0)) .ignored 0 (0x3C00000 + off) data else complete h tag .ok 0 := by
  rw [windowAccess]
  extract_lets fails drops
  obtain hc | ⟨lo, hi⟩ := hc
  · rw [hc, Bool.not_false, if_pos rfl]
  · rw [if_neg (Nat.not_lt.2 lo), if_pos hi, ite_self]

theorem aditAddr_word (off : Nat) : aditAddr off / 8 * 8 - 0x1C00000 = off / 8 * 8 := by
  rw [aditAddr]
  omega

theorem aditWrite_refused (ho : faceOwns h .window = false) (h16 : 0x10 ≤ off) : aditWrite h .window (aditAddr off) size data = setRefused h := by
  unfold aditWrite
  rw [aditAddr_word]
  dsimp only
  rw [if_neg (by omega), if_neg (by omega), if_pos (by rw [ho]; rfl)]

theorem apertureIssue_eq (h : Hw) (off size data tag : Nat) (wr : Bool) : ∃ g : Hw, g.gal = h.gal ∧
    g.rd K.ADIT_WINBASE_BASE = h.rd K.ADIT_WINBASE_BASE ∧ apertureIssue h wr off size data tag =
      busIssue g wr ((g.rd K.ADIT_WINBASE_BASE * 2 ^ 21 + (off - 0x200000)) % 2 ^ 64) size data true := by
  unfold apertureIssue
  cases wr with
  | true => exact ⟨h, rfl, rfl, rfl⟩
  | false => exact ⟨{ h with pcie := { h.pcie with winRead := some tag } }, rfl, rfl, rfl⟩

theorem apertureIssue_leaves (hs : size ∈ [1, 2, 4, 8]) (ha : off % size = 0) (wr : Bool) : (apertureIssue h wr off size data tag).rd K.ADIT_STAT_BUSY = 1 ∧
    ∃ q, (apertureIssue h wr off size data tag).gal.reqs = h.gal.reqs ++ [q] ∧ q.m = .adit ∧ q.kind = (if wr then .write else .read) ∧
      q.size = size ∧ q.addr = (h.rd K.ADIT_WINBASE_BASE * 2 ^ 21 + (off - 0x200000)) % 2 ^ 64 := by
  have sizes : size = 1 ∨ size = 2 ∨ size = 4 ∨ size = 8 := by simpa only [List.mem_cons, List.not_mem_nil, or_false] using hs
  have aligned : (h.rd K.ADIT_WINBASE_BASE * 2 ^ 21 + (off - 0x200000)) % 2 ^ 64 % size = 0 := by
    generalize h.rd K.ADIT_WINBASE_BASE = b
    obtain rfl | rfl | rfl | rfl := sizes <;> omega
  obtain ⟨g, gal, base, e⟩ := apertureIssue_eq h off size data tag wr
  rw [e, base]
  generalize (h.rd K.ADIT_WINBASE_BASE * 2 ^ 21 + (off - 0x200000)) % 2 ^ 64 = a at aligned
  obtain ⟨busy, -, reqs⟩ := busIssue_leaves (h := g) aligned wr data true
  rw [gal] at reqs
  exact ⟨busy, _, reqs, rfl, rfl, rfl, rfl⟩

section
variable (hw : h.bit K.PCIE_CTL_DBGWIN = true)
include hw

theorem windowAccess_register (ho : off < 0x2000) (hs : csrShape off size = true) (wr : Bool) : windowAccess h wr off size data tag =
    if wr then aditWrite h .window (aditAddr off) size data
    else complete (if (regIndex (off / 8 * 8)).isSome && !isHalted h (cselCore h).val then setNothalted h else h) tag .ok
      (readPart off size (aditVal h (off / 8 * 8))) := by
  rw [windowAccess, hw, Bool.not_true, if_neg Bool.false_ne_true, if_pos ho, hs, Bool.not_true, if_neg Bool.false_ne_true]
  rfl

section
variable (ho : 0x200000 ≤ off) (hs : size ∈ [1, 2, 4, 8]) (ha : off % size = 0)
include ho hs ha

theorem windowAccess_aperture (wr : Bool) : windowAccess h wr off size data tag =
    if !faceOwns h .window then (if wr then logAccess h srcAdit (.host 0) .tgterr (0x3C00000 + off) else complete h tag .tgterr 0)
    else if h.bit K.ADIT_STAT_BUSY then { h with dbg := { h.dbg with apertures := h.dbg.apertures ++ [(wr, off, size, data, tag)] } }
    else apertureIssue h wr off size data tag := by
  have shape : (!(size == 1 || size == 2 || size == 4 || size == 8) || off % size != 0) = false := by
    have sizes : size = 1 ∨ size = 2 ∨ size = 4 ∨ size = 8 := by simpa only [List.mem_cons, List.not_mem_nil, or_false] using hs
    rw [ha]
    obtain rfl | rfl | rfl | rfl := sizes <;> rfl
  rw [windowAccess, hw, Bool.not_true, if_neg Bool.false_ne_true, if_neg (by omega), if_neg (by omega), shape, Bool.false_or]

end

end

end

end

end Sys2Proof.Machine
end

section
/-!
PROOF. Accesses of the host to a function, and the PCI Express controller as a whole (R327 to R345, R471).
-/
namespace Sys2Proof.Machine
open Sys2Proof

section
variable {h : Hw} {f : Func} {bar off size data tag : Nat}

/-! ### Accesses of the host -/

theorem memWrite_long (hs : 512 < size) (p : Bool) : memWrite h f bar off size data p = h := by
  rw [memWrite, decide_eq_true hs, Bool.or_true, if_pos rfl]

theorem memRead_long (hs : 4096 < size) : memRead1 h f bar off size tag = h := by
  rw [memRead1, decide_eq_true hs, Bool.or_true, if_pos rfl]

section
variable (hr : hostReaches h f = true)
include hr

theorem memWrite_poisoned (hs : size ≤ 512) : memWrite h f bar off size data true = h.cnt K.PCIE_ERRCNT_POISONED := by
  rw [memWrite, hr, decide_eq_false (Nat.not_lt.2 hs), Bool.not_true, Bool.or_false, if_neg Bool.false_ne_true, if_pos rfl]

theorem memWrite_window (hs : size ≤ 512) {o : Nat} (ht : hostTarget h f.val bar off true = .window o) :
    memWrite h f bar off size data false = windowAccess h true o size data 0 := by
  rw [memWrite, hr, decide_eq_false (Nat.not_lt.2 hs), Bool.not_true, Bool.or_false, if_neg Bool.false_ne_true, if_neg Bool.false_ne_true, ht]

theorem memWrite_target (hs : size ≤ 512) (ht : ∀ o, hostTarget h f.val bar off true ≠ .window o) :
    memWrite h f bar off size data false = hostWrite h f bar off size data := by
  rw [memWrite, hr, decide_eq_false (Nat.not_lt.2 hs), Bool.not_true, Bool.or_false, if_neg Bool.false_ne_true, if_neg Bool.false_ne_true]
  split
  next o e => exact absurd e (ht o)
  next => rfl

theorem memRead_target (hs : size ≤ 4096) (ht : ∀ o, hostTarget h f.val bar off false ≠ .window o) :
    memRead1 h f bar off size tag = hostRead h f bar off size tag := by
  rw [memRead1, hr, decide_eq_false (Nat.not_lt.2 hs), Bool.not_true, Bool.or_false, if_neg Bool.false_ne_true]
  split
  next o e => exact absurd e (ht o)
  next => rfl

end

theorem logBar_leaves (h : Hw) (f : Func) (st : Status) (off : Nat) : (logBar h f st off).gal = h.gal ∧ (logBar h f st off).pcie = h.pcie :=
  ⟨(kept_logErr ..).gal, (kept_logErr ..).pcie⟩

theorem hostRead_fails {st : Status} {logged : Option Status} (ht : hostTarget h f.val bar off false = .fail st logged) :
    (hostRead h f bar off size tag).gal = h.gal ∧
    (hostRead h f bar off size tag).pcie.lastCpl = [(tag, (completionOf st).1, (completionOf st).2, 0)] := by
  rw [hostRead, ht]
  dsimp only
  cases logged with
  | none => exact ⟨rfl, by rw [lastCpl_complete, ite_self]⟩
  | some l => exact ⟨(logBar_leaves h f l off).1, by rw [lastCpl_complete, ite_self]⟩

end

/-! ### The controller -/

theorem onHw_same {s : State} {f : Hw → Hw} (e : f s.hw = s.hw) : s.onHw f = s := by rw [State.onHw, e]

/-- Settles O57: the link, configuration, accesses of the host, completions, resets of functions, MSI-X, host rings and the
debug window. -/
theorem pcieController : Obligations.PcieController := by
  unfold Obligations.PcieController
  refine ⟨fun s gen width flit down hp hl hs h0 hg hw hm hf => ⟨_, rfl, linkRises_leaves down hp hl hs gen.isLt h0 hg hw hm hf⟩,
    fun s hu hp hr => ⟨⟨_, rfl, ?_⟩, ⟨_, rfl, ?_⟩⟩,
    fun s f v n hu hr hf => ?_, fun s f bar off size data a tag hr => ?_, fun s id st data => ?_, fun s f hu => ?_,
    fun s f v hr => ⟨_, rfl, ?_⟩, fun s m f data gate => ⟨fun hf => ⟨_, rfl, ?_⟩, fun he hf hc => ⟨_, rfl, ?_⟩⟩,
    fun s m q head gate ho => ⟨fun hq => ⟨_, rfl, onHw_same ?_⟩, fun hq hd => ⟨_, rfl, ?_⟩, fun hq hd => ⟨_, rfl, ?_⟩⟩,
    fun s q e hen hd hk hr hb hu ho => ⟨_, rfl, ringDelivery_leaves hen hd hk hr hb hu ho⟩,
    fun s m v gate => ⟨fun hm => ⟨_, rfl, ?_⟩, fun h0 ha => ⟨_, rfl, ?_⟩⟩, fun s wr off size data => ?_⟩
  · simp only [State.onHw]
    rw [if_pos hu]
    exact hotReset_leaves hp hr
  · simp only [State.onHw]
    rw [if_pos hu]
    exact hotReset_leaves hp hr
  · have hc := configReaches hu hr hf
    refine ⟨⟨_, rfl, ?_⟩, ⟨_, rfl, ?_⟩, ⟨_, rfl, ?_⟩, fun reg => ⟨_, rfl, ?_⟩, ⟨_, rfl, ?_⟩⟩
    · simp only [State.onHw]
      rw [configRequest_busMaster hc, func_onFunc_self]
      exact ⟨rfl, rfl⟩
    · simp only [State.onHw]
      rw [configRequest_memSpace hc, func_onFunc_self]
      exact ⟨rfl, rfl⟩
    · simp only [State.onHw]
      rw [configRequest_msixMask hc, maskVectors_leaves]
    · obtain ⟨csr, ident, cls⟩ := configRead_leaves s.hw f.val reg
      simp only [State.onHw]
      rw [configRequest_read hc]
      exact ⟨csr, _, rfl, ident, cls⟩
    · simp only [State.onHw]
      rw [configRequest_vfEnable hc]
      split
      · exact setVfs_leaves s.hw (Nat.lt_trans n.isLt (by decide))
      · rfl
  · refine ⟨fun long p => ⟨_, rfl, onHw_same (memWrite_long long p)⟩, fun long => ⟨_, rfl, onHw_same (memRead_long long)⟩,
      fun hs => ⟨_, rfl, ?_⟩, fun hs => ⟨_, rfl, ?_⟩, fun h0 h256 ht => ⟨_, rfl, ?_⟩, fun h0 h256 ht => ⟨_, rfl, ?_⟩, fun hs => ⟨_, rfl, ?_⟩⟩
    · simp only [State.onHw]
      cases ht : hostTarget s.hw f.val bar.val off true with
      | window o => trivial
      | hub a =>
        rw [memWrite_target hr hs (by rw [ht]; exact fun _ => nofun), hostWrite, ht]
        obtain ⟨l, reqs, mem, all⟩ := hostIssue_leaves s.hw f .pwrite a size data 0
        refine ⟨l, reqs, mem, fun q hq => ?_⟩
        obtain ⟨hm, hk, -, hsize, hsplit⟩ := all q hq
        exact ⟨hm, hk, hsize, hsplit⟩
      | msixTable o =>
        rw [memWrite_target hr hs (by rw [ht]; exact fun _ => nofun), hostWrite, ht]
        exact (writeTable_leaves s.hw f.val o size data).symm
      | fail st logged =>
        rw [memWrite_target hr hs (by rw [ht]; exact fun _ => nofun), hostWrite, ht]
        exact logBar_leaves ..
      | notOwned =>
        rw [memWrite_target hr hs (by rw [ht]; exact fun _ => nofun), hostWrite, ht]
        exact logBar_leaves ..
      | hole =>
        rw [memWrite_target hr hs (by rw [ht]; exact fun _ => nofun), hostWrite, ht]
        exact ⟨(kept_logErr ..).gal, (kept_logErr ..).pcie⟩
      | zero | pba o =>
        rw [memWrite_target hr hs (by rw [ht]; exact fun _ => nofun), hostWrite, ht]
        exact ⟨rfl, rfl⟩
    · simp only [State.onHw]
      cases ht : hostTarget s.hw f.val bar.val off false with
      | window o => trivial
      | hub a =>
        rw [memRead_target hr hs (by rw [ht]; exact fun _ => nofun), hostRead, ht]
        obtain ⟨l, reqs, mem, all⟩ := hostIssue_leaves s.hw f .read a size 0 tag.val
        exact ⟨l, reqs, mem, all⟩
      | fail st logged =>
        rw [memRead_target hr hs (by rw [ht]; exact fun _ => nofun)]
        exact hostRead_fails ht
      | hole =>
        rw [memRead_target hr hs (by rw [ht]; exact fun _ => nofun), hostRead, ht]
        exact ⟨(kept_logErr ..).gal, _, lastCpl_ok ..⟩
      | zero | notOwned | msixTable o | pba o =>
        rw [memRead_target hr hs (by rw [ht]; exact fun _ => nofun), hostRead, ht]
        exact ⟨rfl, _, lastCpl_ok ..⟩
    · simp only [State.onHw]
      rw [memWrite_target hr (by omega) (by rw [ht]; exact fun _ => nofun), hostWrite, ht]
      exact hostIssue_whole s.hw f .pwrite h0 h256 data 0
    · simp only [State.onHw]
      rw [memRead_target hr (by omega) (by rw [ht]; exact fun _ => nofun), hostRead, ht]
      dsimp only
      rw [hostIssue_whole s.hw f .read h0 h256 0 tag.val]
      refine ⟨List.length_append, fun q hq => ?_⟩
      rw [List.getLast?_concat] at hq
      cases hq
      exact ⟨rfl, rfl, rfl, rfl, rfl⟩
    · simp only [State.onHw]
      rw [memWrite_poisoned hr hs]
      exact ⟨rfl, rd_cnt_self s.hw⟩
  · refine ⟨fun ht => ⟨_, rfl, ?_⟩, fun r g ht hq => ⟨fun hst => ⟨_, rfl, onHw_same ?_⟩, fun hst => ⟨_, rfl, ?_⟩⟩,
      fun r g q ht hq hm hk => ⟨⟨_, rfl, ?_⟩, ⟨_, rfl, ?_⟩⟩⟩
    · simp only [State.onHw]
      rw [completionArrives_none ht]
      exact ⟨rfl, rd_cnt_self s.hw⟩
    · rw [completionArrives_loader ht hq, if_pos hst]
    · simp only [State.onHw]
      rw [completionArrives_loader ht hq, if_neg hst, pcie_loadFails]
      exact taken_reqs ht
    · have read : q.kind ≠ .pwrite := by rw [hk]; decide
      have taken := taken_reqs ht
      simp only [State.onHw]
      rw [completionArrives_answers ht hq, answer_eq read hm]
      exact ⟨by rw [takeHostReq_some ht], taken⟩
    · have read : q.kind ≠ .pwrite := by rw [hk]; decide
      simp only [State.onHw]
      rw [completionLate_answers ht hq, answer_eq read hm, takeHostReq_some ht]
      exact ⟨rfl, rd_cnt_self { s.hw with pcie := { s.hw.pcie with reqs := s.hw.pcie.reqs.filter fun x => x.id != id } }⟩
  · refine ⟨fun h0 hf => ⟨_, rfl, ?_⟩, fun h0 => ⟨_, rfl, ?_⟩, fun n hm lo hi => ⟨_, rfl, ?_⟩, fun hf => ⟨_, rfl, ?_⟩,
      fun hf => ⟨_, rfl, ?_⟩, fun hf ho hp => ⟨_, rfl, ?_⟩⟩
    · simp only [State.onHw]
      rw [if_pos hu]
      exact flr_function h0 hf
    · simp only [State.onHw]
      rw [if_pos hu, h0]
      exact flr_device s.hw
    · simp only [State.onHw]
      rw [hu, hm, decide_eq_true ⟨lo, hi⟩]
      exact ⟨rfl, rfl⟩
    · simp only [State.onHw]
      rw [if_pos hu]
      exact enableMsix_off hf
    · obtain ⟨on, conflict⟩ := enableMsix_on hf
      simp only [State.onHw]
      rw [if_pos hu, on, conflict]
      exact ⟨rfl, fun hp => by rw [rangeClash_past hp, Bool.or_true]⟩
    · obtain ⟨on, conflict⟩ := enableMsix_on hf
      simp only [State.onHw]
      rw [if_pos hu, on, conflict, rangeClash_alone ho hp, Bool.or_false]
      exact ⟨rfl, rfl⟩
  · simp only [State.onHw]
    rw [if_pos hr]
    exact unmask_leaves ..
  · simp only [State.onHw]
    rw [gated_ok gate]
    exact writeFuncMsix_ignored hf m _ _
  · simp only [State.onHw]
    rw [gated_ok gate]
    exact writeFuncMsix_leaves he hf hc m _
  · rw [gated_ok gate]
    exact writeHring_low hq m _ _
  · simp only [State.onHw]
    rw [gated_ok gate, writeHring_head hq m head.isLt ho, if_neg (Nat.not_lt.2 hd)]
  · simp only [State.onHw]
    rw [gated_ok gate, writeHring_head hq m head.isLt ho, if_pos hd]
  · simp only [State.onHw]
    rw [gated_ok gate]
    exact writeDbgwin_takes hm v
  · simp only [State.onHw]
    rw [gated_ok gate]
    exact writeDbgwin_ignored h0 ha v
  · refine ⟨fun hr => ⟨_, rfl, onHw_same ?_⟩, fun hr ho => ?_⟩
    · have out : (hostReaches s.hw 0 && decide (off < 0x400000)) = false := by
        obtain hr | ho := hr
        · rw [hr, Bool.false_and]
        · rw [decide_eq_false (Nat.not_lt.2 ho), Bool.and_false]
      rw [out, if_neg Bool.false_ne_true]
    · have inside : (hostReaches s.hw 0 && decide (off < 0x400000)) = true := by rw [hr, decide_eq_true ho, Bool.and_self]
      refine ⟨fun hc => ⟨⟨_, rfl, ?_⟩, ⟨_, rfl, ?_⟩⟩, fun hw h2 hs => ⟨⟨_, rfl, ?_⟩, fun hf h16 => ⟨_, rfl, ?_⟩⟩,
        fun hw h2 hs ha => ⟨fun hf => ⟨_, rfl, ?_⟩, fun hf hb => ⟨_, rfl, ?_⟩⟩⟩
      · simp only [State.onHw]
        rw [inside, if_pos rfl, windowAccess_drops hc]
        exact ⟨lastCpl_ok .., rfl⟩
      · simp only [State.onHw]
        rw [inside, if_pos rfl, windowAccess_drops hc]
        exact ⟨(kept_logErr ..).gal, (kept_logErr ..).pcie⟩
      · simp only [State.onHw]
        rw [inside, if_pos rfl, windowAccess_register hw h2 hs, if_neg Bool.false_ne_true]
        refine ⟨?_, lastCpl_ok ..⟩
        rw [gal_complete]
        split <;> rfl
      · simp only [State.onHw]
        rw [inside, if_pos rfl, windowAccess_register hw h2 hs, if_pos rfl, aditWrite_refused hf h16]
        exact ⟨(setRefused_leaves _).1, rfl⟩
      · simp only [State.onHw]
        rw [inside, if_pos rfl, windowAccess_aperture hw h2 hs ha, hf, Bool.not_false, if_pos rfl]
        cases wr with
        | true => exact ⟨(kept_logErr ..).gal, nofun⟩
        | false => exact ⟨rfl, fun _ => rfl⟩
      · simp only [State.onHw]
        rw [inside, if_pos rfl, windowAccess_aperture hw h2 hs ha, hf, Bool.not_true, if_neg Bool.false_ne_true, hb, if_neg Bool.false_ne_true]
        exact apertureIssue_leaves hs ha wr

end Sys2Proof.Machine
end

section
/-!
PROOF. QueueCommands does not hold as it is stated: its clause on disabling a queue asks of no field of Qq.CFG that it holds a
value its width allows, as its clause on enabling does by CfgFits (R243 to R246).
-/
namespace Sys2Proof.Machine

/-- Q0 is enabled by an EN that holds 3, which no write of the one-bit field leaves. -/
def wideEnState : State := ⟨[], {}, { ({} : Hw) with csr := [((K.SCHED_Q_CFG_EN 0).id, 3)] }⟩

/-- A write of 0 to EN leaves 2 of the 3, so that it enables the queue, which is enabled. -/
theorem wideEn_staysEnabled : (match exec (.queueDisable (.core 0) 0) wideEnState with
    | .next t => qEn t.hw 0
    | _ => false) = true := by decide +kernel

/-- Refutes O46: with 3 in the field EN of Q0, QUEUE_DISABLE does not disable it. -/
theorem not_queueCommands : ¬ Obligations.QueueCommands := by
  unfold Obligations.QueueCommands
  rintro ⟨-, -, -, configure, -⟩
  obtain ⟨-, disable⟩ := configure wideEnState (.core 0) 0 (by decide) (.inl (by decide))
  obtain ⟨t, ht, disabled, -⟩ := disable (by decide)
  have stays := wideEn_staysEnabled
  rw [ht] at stays
  exact absurd (disabled.symm.trans stays) (by decide)

end Sys2Proof.Machine
end

section
/-!
PROOF. What the work of the fabric and of the queues leaves of the loader (R83, R297, R310).
-/
namespace Sys2Proof.Machine
open Sys2Proof

/-- The loader, the keys, the pins and the control registers are as they were. -/
structure LoaderSame (h t : Hw) : Prop where
  ldr : t.ldr = h.ldr
  keys : t.keys = h.keys
  control : ControlKept h t

namespace LoaderSame
variable {h t u : Hw} {n s : Nat}

theorem refl (h : Hw) : LoaderSame h h := ⟨rfl, rfl, .refl h⟩
theorem trans (a : LoaderSame h t) (b : LoaderSame t u) : LoaderSame h u :=
  ⟨b.ldr.trans a.ldr, b.keys.trans a.keys, a.control.trans b.control⟩
theorem of_kept (k : Kept h t) : LoaderSame h t := ⟨k.ldr, k.keys, .of_kept k⟩
theorem onDie (h : Hw) (n : Nat) (f : DieSt → DieSt) : LoaderSame h (h.onDie n f) := ⟨rfl, rfl, .onDie h n f⟩
theorem wr (h : Hw) {k : Key} (hk : 0x400000 ≤ k.addr) (v : Nat) : LoaderSame h (h.wr k v) := ⟨rfl, rfl, .wr h hk v⟩
theorem cnt (h : Hw) {k : Key} (hk : 0x400000 ≤ k.addr) : LoaderSame h (h.cnt k) := wr h hk _
theorem of_gal (h : Hw) (x : Gallery) : LoaderSame h { h with gal := x } := ⟨rfl, rfl, .of_gal h x⟩
theorem runDesign (h : Hw) : LoaderSame h (runDesign h) := ⟨(designRan_runDesign h).ldr, (designRan_runDesign h).keys, .ofDesign h⟩

theorem foldl {α : Type} {f : Hw → α → Hw} (hf : ∀ h x, LoaderSame h (f h x)) (l : List α) (h : Hw) : LoaderSame h (l.foldl f h) :=
  List.foldlRecOn (motive := LoaderSame h) l f (refl h) fun t ht x _ => ht.trans (hf t x)

theorem refreshSites (h : Hw) (n : Nat) : LoaderSame h (refreshSites h n) := by
  have moved := sitesMoved_refreshSites (n := n) h
  refine ⟨moved.ldr, moved.keys, moved.rst, moved.pwr, fun k hk => moved.rd k hk.sched fun m _ => hk.ne ?_⟩
  simp only [K.CLK_NET_STAT_SWITCHING]
  omega

/-! ### Fences -/

theorem dieUnready (h : Hw) (n : Nat) : LoaderSame h (dieUnready h n) := ⟨rfl, rfl, .dieUnready h n⟩

theorem countRead (h : Hw) (who a k : Nat) : LoaderSame h (countRead h who a k) := by
  have corr (g : Hw) (m : Nat) : LoaderSame g (g.cnt (K.ERR_CNT_CORR m)) := cnt g (by simp only [K.ERR_CNT_CORR]; omega)
  have uncorr (g : Hw) (m : Nat) : LoaderSame g (g.cnt (K.ERR_CNT_UNCORR m)) := cnt g (by simp only [K.ERR_CNT_UNCORR]; omega)
  unfold Machine.countRead
  split
  · exact refl h
  next m _ =>
    extract_lets l bad dead fixed g
    have counted : LoaderSame h g := by
      simp only [g]
      split
      · exact refl h
      · exact corr h m
    clear_value g fixed dead bad
    split
    · exact counted.trans ((uncorr g m).trans (of_kept (kept_logEntry ..)))
    · split
      · exact counted
      · dsimp only
        split
        · exact counted
        · exact counted.trans ((of_kept (.csr rfl)).trans (of_kept (kept_logEntry ..)))

theorem secPerform (h : Hw) (n s : Nat) (r : SecReq) : LoaderSame h (secPerform h n s r) := by
  unfold Machine.secPerform
  dsimp only
  split
  · exact onDie ..
  · split
    · exact of_kept (kept_hubWrite ..)
    · exact (countRead ..).trans (onDie ..)

theorem closeFence (h : Hw) (n s : Nat) : LoaderSame h (closeFence h n s) := by
  unfold Machine.closeFence
  split
  · exact refl h
  · extract_lets a c wires taps b d e
    have ran : LoaderSame h a := runDesign h
    have emptied : LoaderSame a b := ((of_kept (kept_draw a)).trans (onDie ..)).trans (foldl (fun g r => secPerform g n s r) _ _)
    have shown : LoaderSame b d := (wr b (by simp only [K.FENCE_SEC_FENCE]; omega) 1).trans (wr _ (by simp only [K.FENCE_SEC_SETTLED]; omega) 0)
    exact ((ran.trans emptied).trans shown).trans ((onDie d n _).trans (refreshSites ..))

theorem settleFence (h : Hw) (n s : Nat) : LoaderSame h (settleFence h n s) := by
  unfold Machine.settleFence
  split
  · exact (((runDesign h).trans (wr _ (by simp only [K.FENCE_SEC_SETTLED]; omega) 1)).trans (onDie ..)).trans (of_gal ..)
  · exact refl h

theorem nextSector (h : Hw) (n s : Nat) : LoaderSame h (nextSector h n s) := by
  have frame : LoaderSame h (h.wr (K.SCRUB_STAT_FRAME n) 0) := wr h (by simp only [K.SCRUB_STAT_FRAME]; omega) 0
  unfold Machine.nextSector
  dsimp only
  split
  · exact (frame.trans (onDie ..)).trans (wr _ (by simp only [K.SCRUB_STAT_SECTOR]; omega) _)
  · exact ((frame.trans (onDie ..)).trans (onDie ..)).trans
      ((wr _ (by simp only [K.SCRUB_STAT_SECTOR]; omega) 0).trans (wr _ (by simp only [K.SCRUB_STAT_INCOMPLETE]; omega) 0))

theorem skipRest (h : Hw) (n s : Nat) : LoaderSame h (skipRest h n s) := by
  unfold Machine.skipRest
  split
  · exact (wr h (by simp only [K.SCRUB_STAT_INCOMPLETE]; omega) 1).trans (nextSector ..)
  · exact refl h

theorem liftFence (h : Hw) (n s : Nat) : LoaderSame h (liftFence h n s) := by
  unfold Machine.liftFence
  split
  · exact refl h
  · extract_lets a init high b
    have skipped : LoaderSame h a := ((settleFence h n s).trans (runDesign _)).trans (skipRest ..)
    have cleared (g : Hw) : LoaderSame g (((g.wr (K.FENCE_SEC_FENCE n s) 0).wr (K.FENCE_SEC_SETTLED n s) 0).wr (K.FENCE_SEC_LIFTING n s) 0) :=
      ((wr g (by simp only [K.FENCE_SEC_FENCE]; omega) 0).trans (wr _ (by simp only [K.FENCE_SEC_SETTLED]; omega) 0)).trans
        (wr _ (by simp only [K.FENCE_SEC_LIFTING]; omega) 0)
    exact (skipped.trans (onDie a n _)).trans ((cleared b).trans ((dieUnready ..).trans (refreshSites ..)))

/-! ### Frames -/

theorem reviveSpines (h : Hw) (n s : Nat) : LoaderSame h (reviveSpines h n s) := by
  unfold Machine.reviveSpines
  dsimp only
  exact (foldl (fun g x => wr g (by simp only [K.SPINE_OFF_OFF]; omega) _) _ h).trans (onDie ..)

theorem putFrame (h : Hw) (n k data : Nat) : LoaderSame h (putFrame h n k data) := by
  unfold Machine.putFrame
  dsimp only
  split
  · exact ((onDie ..).trans (onDie ..)).trans (reviveSpines ..)
  · exact onDie ..

theorem loadFrames (h : Hw) (n k : Nat) (l : List Nat) : LoaderSame h (loadFrames h n k l).1 := by
  induction l generalizing h k with
  | nil => exact refl h
  | cons v l ih =>
    rw [Machine.loadFrames]
    split
    · exact refl h
    · split
      · exact refl h
      · split
        · exact of_kept (kept_logEntry ..)
        · exact (putFrame ..).trans (ih ..)

theorem zeroFrames (h : Hw) (n : Nat) (p : Nat → Bool) : LoaderSame h (zeroFrames h n p) :=
  ((runDesign h).trans (onDie ..)).trans (refreshSites ..)

theorem clearFrames (h : Hw) (l : Load) : LoaderSame h (clearFrames h l) := by
  unfold Machine.clearFrames
  dsimp only
  exact (foldl (fun g n => (zeroFrames ..).trans (dieUnready ..)) _ h).trans (foldl (fun g x => zeroFrames ..) _ _)

/-! ### Sectors of a segment -/

theorem prepareSectors (h : Hw) (l : Load) (e : DirEnt) : LoaderSame h (prepareSectors h l e).1 := by
  have fences (g : Hw) : LoaderSame g (e.sectors.foldl
      (fun h x => Machine.settleFence (Machine.closeFence h (x / 192) (x % 192)) (x / 192) (x % 192)) g) :=
    foldl (fun g x => (closeFence ..).trans (settleFence ..)) _ g
  unfold Machine.prepareSectors
  dsimp only
  split
  · exact dieUnready ..
  · exact (dieUnready ..).trans (fences _)

theorem liftDone (h : Hw) (l : Load) (g : Legend) (i : Nat) : LoaderSame h (liftDone h l g i).1 := by
  unfold Machine.liftDone
  exact foldl (fun t x => liftFence ..) _ h

end LoaderSame

/-- A load with other sectors fenced, written or lifted is the same load. -/
theorem prepareSectors_load (h : Hw) (l : Load) (e : DirEnt) : (prepareSectors h l e).2.fail = l.fail ∧ (prepareSectors h l e).2.seg = l.seg ∧
    (prepareSectors h l e).2.src = l.src := by
  unfold prepareSectors
  dsimp only
  split <;> exact ⟨rfl, rfl, rfl⟩

end Sys2Proof.Machine
end

section
/-!
PROOF. The loader's steps: a load that begins, fails or goes on (R277 to R283, R296).
-/
namespace Sys2Proof.Machine
open Sys2Proof

section
variable {h : Hw} {l : Load} {g : Legend}

/-! ### A load begins -/

/-- The queue of one frame writer is enabled for the load. -/
def openWriter (h : Hw) (n : Nat) : Hw :=
  if qEn h (252 + n) then h
  else (((h.setQueue (252 + n) {}).wr (K.SCHED_Q_CFG_AUTO (252 + n)) 1).wr (K.SCHED_Q_AFF_MASK (252 + n)) (2 ^ (59 + n))).wr
    (K.SCHED_Q_CFG_EN (252 + n)) 1

theorem openWriters_eq (h : Hw) : openWriters h = (List.range 4).foldl openWriter h := rfl

theorem qEn_openWriter (h : Hw) (n : Nat) : qEn (openWriter h n) (252 + n) = true ∧ ∀ q, qEn h q = true → qEn (openWriter h n) q = true := by
  unfold openWriter
  split
  next he => exact ⟨he, fun _ hq => hq⟩
  next =>
    have self (u : Hw) : (u.wr (K.SCHED_Q_CFG_EN (252 + n)) 1).rd (K.SCHED_Q_CFG_EN (252 + n)) = 1 := Hw.rd_wr_self ..
    refine ⟨by rw [qEn, Hw.bit, self]; rfl, fun q hq => ?_⟩
    by_cases hn : q = 252 + n
    · rw [hn, qEn, Hw.bit, self]
      rfl
    · have en : (K.SCHED_Q_CFG_EN q).id ≠ (K.SCHED_Q_CFG_EN (252 + n)).id ∧ (K.SCHED_Q_CFG_EN q).id ≠ (K.SCHED_Q_CFG_AUTO (252 + n)).id ∧
          (K.SCHED_Q_CFG_EN q).id ≠ (K.SCHED_Q_AFF_MASK (252 + n)).id := by
        simp only [Key.id, K.SCHED_Q_CFG_EN, K.SCHED_Q_CFG_AUTO, K.SCHED_Q_AFF_MASK]
        omega
      rw [qEn, Hw.bit, Hw.rd_wr_ne _ en.1, Hw.rd_wr_ne _ en.2.2, Hw.rd_wr_ne _ en.2.1]
      exact hq

theorem qEn_openWriters (h : Hw) : ∀ n, n < 4 → qEn (openWriters h) (252 + n) = true := by
  have all (k : Nat) : ∀ n, n < k → qEn ((List.range k).foldl openWriter h) (252 + n) = true := by
    induction k with
    | zero => exact fun n hn => absurd hn (Nat.not_lt_zero n)
    | succ k ih =>
      intro n hn
      rw [List.range_succ, List.foldl_append, List.foldl_cons, List.foldl_nil]
      obtain ⟨self, other⟩ := qEn_openWriter ((List.range k).foldl openWriter h) k
      obtain hk | rfl := Nat.lt_succ_iff_lt_or_eq.1 hn
      · exact other _ (ih n hk)
      · exact self
  exact all 4

/-- A load has entered LEGEND. -/
def loadOpened (h : Hw) (l : Load) (golden : Bool) : Hw :=
  (((({ openWriters h with ldr := { (openWriters h).ldr with load := some l, boot := [] }, pins := { (openWriters h).pins with cfgErr := false } } : Hw).wr
    K.CFG_LOAD_STAGE stLegend).wr K.CFG_LOAD_SRC (srcCode l.src)).wrB K.CFG_LOAD_GOLDEN golden).wr K.CFG_LOAD_SEG 0

theorem startLoad_hub (h : Hw) (a : Nat) (r : Option Nat) : startLoad h { src := .hub a, reply := r } = loadOpened h { src := .hub a, reply := r } false := rfl
theorem startLoad_boot (h : Hw) (a : Nat) (golden : Bool) (r : Option Nat) (p : Option Nat) :
    startLoad h { src := .boot a golden, reply := r, primary := p } = loadOpened h { src := .boot a golden, reply := r, primary := p } golden := rfl

theorem loadOpened_leaves (h : Hw) (l : Load) (golden : Bool) : loadStage (loadOpened h l golden) = 1 ∧
    (loadOpened h l golden).pins.cfgErr = false ∧ (∀ n, n < 4 → qEn (loadOpened h l golden) (252 + n) = true) ∧
    (loadOpened h l golden).ldr.load = some l ∧ (loadOpened h l golden).rd K.CFG_LOAD_GOLDEN = b2n golden := by
  have writers := qEn_openWriters h
  unfold loadOpened
  generalize openWriters h = w at writers
  generalize hu : ({ w with ldr := { w.ldr with load := some l, boot := [] }, pins := { w.pins with cfgErr := false } } : Hw) = u
  have csr : u.csr = w.csr := by rw [← hu]
  have low : b2n golden % 2 ^ K.CFG_LOAD_GOLDEN.w = b2n golden := by cases golden <;> rfl
  refine ⟨?_, ?_, fun n hn => ?_, ?_, ?_⟩
  · rw [loadStage, Hw.wrB, Hw.rd_wr_ne _ (by decide), Hw.rd_wr_ne _ (by decide), Hw.rd_wr_ne _ (by decide), Hw.rd_wr_self]
    rfl
  · rw [Hw.wr_pins, Hw.wrB, Hw.wr_pins, Hw.wr_pins, Hw.wr_pins, ← hu]
  · have off {k : Key} (ha : k.addr = 0xC00000) (hl : k.lo < 64) : (K.SCHED_Q_CFG_EN (252 + n)).id ≠ k.id := by
      simp only [Key.id, ha, K.SCHED_Q_CFG_EN]
      omega
    rw [qEn, Hw.bit, Hw.wrB, Hw.rd_wr_ne _ (off rfl (by decide)), Hw.rd_wr_ne _ (off rfl (by decide)), Hw.rd_wr_ne _ (off rfl (by decide)),
      Hw.rd_wr_ne _ (off rfl (by decide)), Hw.rd_congr csr]
    exact writers n hn
  · rw [Hw.wr_ldr, Hw.wrB, Hw.wr_ldr, Hw.wr_ldr, Hw.wr_ldr, ← hu]
  · rw [Hw.rd_wr_ne _ (by decide), Hw.wrB, Hw.rd_wr_self, low]

/-! ### A load fails -/

theorem loadFails_leaves (hl : h.ldr.load = some l) (hf : l.fail = none) (code detail seg faddr : Nat) :
    loadStage (loadFails h code detail seg faddr) = 7 ∧
    (loadFails h code detail seg faddr).ldr.load.bind (·.fail) = some (code, detail, seg, faddr) := by
  rw [loadFails, hl]
  dsimp only
  rw [hf, Option.isSome_none, if_neg Bool.false_ne_true]
  refine ⟨(Hw.rd_wr_self ..).trans rfl, ?_⟩
  rw [Hw.wr_ldr]
  rfl

theorem keys_loadFails (h : Hw) (code detail seg faddr : Nat) : (loadFails h code detail seg faddr).keys = h.keys := by
  unfold loadFails
  split
  · split <;> rfl
  · rfl

theorem mem_loadFails (h : Hw) (code detail seg faddr : Nat) : (loadFails h code detail seg faddr).mem = h.mem := by
  unfold loadFails
  split
  · split <;> rfl
  · rfl

/-! ### A load goes on -/

theorem stageFor_segment {i : Nat} (hi : i < g.dir.length) : stageFor g i ≠ stProgram ∧ stageFor g i < 16 := by
  rw [stageFor, List.getElem?_eq_getElem hi]
  dsimp only
  split
  · exact ⟨by decide, by decide⟩
  · exact ⟨by decide, by decide⟩

theorem proceed_leaves (h : Hw) (l : Load) {i : Nat} (hi : i < g.dir.length) : loadStage (proceed h l g i) = stageFor g i ∧
    (proceed h l g i).ldr.load = some { l with seg := i } ∧ (proceed h l g i).keys = h.keys ∧ (proceed h l g i).mem = h.mem := by
  obtain ⟨segment, small⟩ := stageFor_segment hi
  rw [proceed, if_neg segment]
  refine ⟨?_, ?_, rfl, rfl⟩
  · rw [loadStage, Hw.rd_wr_ne _ (by decide), Hw.rd_wr_self]
    exact Nat.mod_eq_of_lt small
  · rw [Hw.wr_ldr, Hw.wr_ldr]

end

end Sys2Proof.Machine
end

section
/-!
PROOF. The Legend, its directory and the segments (R269 to R282).
-/
namespace Sys2Proof.Machine
open Sys2Proof

/-! ### The directory -/

theorem fieldAt_take (l : List Byte) {off n m : Nat} (hm : off + n ≤ m) : fieldAt (l.take m) off n = fieldAt l off n := by
  rw [fieldAt, List.drop_take, List.take_take, Nat.min_eq_left (by omega), fieldAt]

theorem readEntry_take (l : List Byte) {m : Nat} (hm : 128 ≤ m) : readEntry (l.take m) = readEntry l := by
  rw [readEntry, fieldAt_take l (by omega), fieldAt_take l (by omega), fieldAt_take l (by omega), fieldAt_take l (by omega),
    fieldAt_take l (by omega), readEntry]

/-- The entries of a directory lie in its first bytes. -/
theorem readDir_take (n : Nat) : ∀ (l : List Byte) (m : Nat), 128 * n ≤ m → readDir n (l.take m) = readDir n l := by
  induction n with
  | zero => exact fun _ _ _ => rfl
  | succ n ih =>
    intro l m hm
    rw [readDir, readEntry_take l (by omega), List.drop_take, ih _ _ (by omega), readDir]

section
variable {h t : Hw} {ld : Load} {l : List Byte}

/-! ### The checks of the Legend -/

theorem none_of_ite {c : Prop} [Decidable c] {x : Nat} {y : Option Nat} (e : (if c then some x else y) = none) : y = none := by
  split at e
  · cases e
  · exact e

/-- A Legend without fault has a directory, and the directory keeps the rules of R274. -/
theorem legendFails_none (hn : legendFails h ld l = none) : ∃ dir, readDir (segCount l) (l.drop 4096) = some dir ∧
    dirOk h (readLegend l dir) (fieldAt l 0x12 1) = true := by
  unfold legendFails at hn
  dsimp only at hn
  iterate 12 replace hn := none_of_ite hn
  rw [readDir_take _ _ _ (Nat.le_refl _)] at hn
  split at hn
  · cases hn
  next dir hd =>
    refine ⟨dir, hd, ?_⟩
    split at hn
    next ok => exact ok
    · cases hn

/-- The directory of a sound Legend begins with a segment of the image program. -/
theorem stageFor_first {g : Legend} {e : Nat} (ok : dirOk h g e = true) : 0 < g.dir.length ∧ stageFor g 0 = 2 := by
  unfold dirOk at ok
  simp only [Bool.and_eq_true] at ok
  obtain ⟨⟨⟨⟨⟨⟨⟨⟨-, -⟩, -⟩, -⟩, first⟩, -⟩, -⟩, -⟩, -⟩ := ok
  cases hd : g.dir with
  | nil =>
    rw [hd] at first
    cases first
  | cons x xs =>
    rw [hd] at first
    have program : x.frames = false := Bool.not_eq_true' _ ▸ first
    refine ⟨by rw [List.length_cons]; omega, ?_⟩
    rw [stageFor, hd, List.getElem?_cons_zero]
    dsimp only
    rw [program]
    rfl

section
variable (kept : ControlKept h t)
include kept

theorem fuseWord_of_kept : fuseWord t = fuseWord h := by
  funext w
  rw [fuseWord, kept.rst, fuseWord]

theorem fuseWords_of_kept : fuseWords t = fuseWords h := by
  funext lo n
  rw [fuseWords, fuseWord_of_kept kept, fuseWords]

theorem fuseMapCrc_of_kept : fuseMapCrc t = fuseMapCrc h := by
  have codes (w : Nat) (hw : w < 3) : t.rd (K.RST_PINMAP_CODES w) = h.rd (K.RST_PINMAP_CODES w) :=
    kept.rd _ ⟨by simp only [K.RST_PINMAP_CODES]; omega, by simp only [K.RST_PINMAP_CODES]; omega⟩
  have sum : (List.range 3).foldl (fun x w => x + t.rd (K.RST_PINMAP_CODES w) * 2 ^ (64 * w)) 0 =
      (List.range 3).foldl (fun x w => x + h.rd (K.RST_PINMAP_CODES w) * 2 ^ (64 * w)) 0 :=
    List.foldl_ext _ _ _ fun x w hw => by rw [codes w (List.mem_range.1 hw)]
  rw [fuseMapCrc, sum, fuseMapCrc]

theorem unwrapped_of_kept (l : List Byte) : unwrapped t l = unwrapped h l := by rw [unwrapped, fuseWords_of_kept kept, unwrapped]

end

theorem released_of_dies (hd : t.dies = h.dies) : released t = released h := by
  funext n
  rw [released, die_congr hd, released]

theorem dirOk_of_dies (hd : t.dies = h.dies) : dirOk t = dirOk h := by
  funext g e
  rw [dirOk, released_of_dies hd, dirOk]

/-- The checks see of the device the control registers, the fuses and which dies are released. -/
theorem legendFails_congr {ld' : Load} (kept : ControlKept h t) (hd : t.dies = h.dies) (hs : ld'.src = ld.src) :
    legendFails t ld' l = legendFails h ld l := by
  have ident : t.rd K.ID_IDENT_IDENT = h.rd K.ID_IDENT_IDENT := kept.rd _ ⟨by decide, by decide⟩
  unfold legendFails
  rw [ident, fuseWord_of_kept kept, fuseWords_of_kept kept, released_of_dies hd, fuseMapCrc_of_kept kept, unwrapped_of_kept kept,
    dirOk_of_dies hd, hs]

end

end Sys2Proof.Machine
end

section
/-!
PROOF. Segments, the image program and the ends of a load (R277 to R283, R296).
-/
namespace Sys2Proof.Machine
open Sys2Proof

section
variable {h : Hw} {l : Load} {op head b : List Byte}

/-! ### The Legend -/

/-- The load with the KIND of its Legend, when the Legend is judged. -/
def legendRead (h : Hw) (l : Load) (b : List Byte) : Hw :=
  { h.wr K.CFG_LOAD_KIND (bits (fieldAt b 0 8) 51 48) with
    ldr := { (h.wr K.CFG_LOAD_KIND (bits (fieldAt b 0 8) 51 48)).ldr with load := some { l with kind := bits (fieldAt b 0 8) 51 48 } } }

theorem legendFails_read (h : Hw) (l : Load) (b : List Byte) :
    legendFails (legendRead h l b) { l with kind := bits (fieldAt b 0 8) 51 48 } b = legendFails h l b :=
  legendFails_congr ((ControlKept.wr h (j := K.CFG_LOAD_KIND) (by decide) _).trans (.of_ldr _ _)) rfl rfl

/-- OPENKEY shows, once the signature has been judged, whether the device takes any key. -/
def openKeyShown (h : Hw) (l : Load) (b : List Byte) : Hw :=
  if (legendFails h l b).all (8 ≤ ·) then (legendRead h l b).wrB K.CFG_LOAD_OPENKEY (fuseWords (legendRead h l b) 4 6 == 0) else legendRead h l b

theorem ldr_openKeyShown (h : Hw) (l : Load) (b : List Byte) :
    (openKeyShown h l b).ldr.load = some { l with kind := bits (fieldAt b 0 8) 51 48 } := by
  unfold openKeyShown
  split <;> rfl

section
variable (hr : loaderRuns h = true) (hl : h.ldr.load = some l) (hf : l.fail = none) (hs : loadStage h = 1)
  (h1 : sourceBytes h l 0 4096 op = some (head, .ok, h)) (h2 : sourceBytes h l 0 (4096 + 128 * segCount head) op = some (b, .ok, h))
include hr hl hf hs h1 h2

theorem checkLegend_fails {code : Nat} (hw : legendFails h l b = some code) :
    checkLegend h op = loadFails (openKeyShown h l b) code 0 0 0 := by
  have go : (!loaderRuns h || decide (loadStage h ≠ stLegend) || l.fail.isSome) = false := by
    rw [hr, hf, hs]
    rfl
  have judged := legendFails_read h l b
  have shown : openKeyShown h l b = if (some code).all (8 ≤ ·) then
      (legendRead h l b).wrB K.CFG_LOAD_OPENKEY (fuseWords (legendRead h l b) 4 6 == 0) else legendRead h l b := by rw [openKeyShown, hw]
  rw [hw] at judged
  rw [checkLegend, hl]
  dsimp only
  rw [go, if_neg Bool.false_ne_true, h1]
  dsimp only
  rw [if_neg (by decide), h2]
  dsimp only
  rw [if_neg (by decide), shown]
  unfold legendRead at judged
  dsimp only at judged
  rw [judged]
  rfl

theorem checkLegend_passes (hw : legendFails h l b = none) : ∃ u : Hw, ∃ ld : Load, ld.legend =
    some (readLegend b ((readDir (segCount b) (b.drop 4096)).getD [])) ∧
    checkLegend h op = proceed u ld (readLegend b ((readDir (segCount b) (b.drop 4096)).getD [])) 0 := by
  have go : (!loaderRuns h || decide (loadStage h ≠ stLegend) || l.fail.isSome) = false := by
    rw [hr, hf, hs]
    rfl
  have judged := legendFails_read h l b
  rw [hw] at judged
  rw [checkLegend, hl]
  dsimp only
  rw [go, if_neg Bool.false_ne_true, h1]
  dsimp only
  rw [if_neg (by decide), h2]
  dsimp only
  rw [if_neg (by decide)]
  unfold legendRead at judged
  dsimp only at judged
  rw [judged]
  exact ⟨_, _, rfl, rfl⟩

end

end

end Sys2Proof.Machine
end

section
/-!
PROOF. The segments of an image (R276, R280, R297).
-/
namespace Sys2Proof.Machine
open Sys2Proof

section
variable {h t : Hw} {l : Load} {g : Legend} {e : DirEnt} {op b : List Byte}

/-- A segment is opened with the key of the image. -/
theorem openSegment_congr (hk : t.keys = h.keys) (g : Legend) (i : Nat) (e : DirEnt) (b : List Byte) :
    openSegment t g i e b = openSegment h g i e b := by rw [openSegment, hk, openSegment]

/-- The port that delivers the image may forget the bytes of a segment that is laid. -/
def sourceUsed (h : Hw) (l : Load) (e : DirEnt) : Hw :=
  match srcPort l.src with
  | some q => if (port h q).taken then onPort h q fun x => { x with used := e.offset + e.len } else h
  | none => h

theorem sourceUsed_leaves (h : Hw) (l : Load) (e : DirEnt) : (sourceUsed h l e).ldr.load = h.ldr.load ∧ (sourceUsed h l e).keys = h.keys ∧
    (sourceUsed h l e).mem = h.mem ∧ (sourceUsed h l e).csr = h.csr ∧ (sourceUsed h l e).cores = h.cores := by
  unfold sourceUsed
  split
  next q _ =>
    split
    · cases q <;> exact ⟨rfl, rfl, rfl, rfl, rfl⟩
    · exact ⟨rfl, rfl, rfl, rfl, rfl⟩
  next => exact ⟨rfl, rfl, rfl, rfl, rfl⟩

/-- The key of the image has advanced past a segment. -/
def keyAdvanced (h : Hw) (e : DirEnt) : Hw := { h with keys := { h.keys with image := h.keys.image.map fun k => keyNext k e.tag } }

/-- The frames of a segment go into the die, and the load goes on or fails at the frame refused. -/
def layFrames (h : Hw) (l : Load) (g : Legend) (e : DirEnt) (p : List Byte) : Hw :=
  match loadFrames (runDesign h) e.range.1 e.range.2.1 (splitFrames e.range.2.2 p) with
  | (h, some (st, k)) => loadFails (refreshSites h e.range.1) 0x0F st l.seg (e.range.1 * 2 ^ 18 + k)
  | (h, none) => proceed (liftDone (refreshSites h e.range.1) l g l.seg).1 (liftDone (refreshSites h e.range.1) l g l.seg).2 g
      ((liftDone (refreshSites h e.range.1) l g l.seg).2.seg + 1)

theorem layFrames_leaves (hl : h.ldr.load = some l) (hf : l.fail = none) (hi : l.seg + 1 < g.dir.length) (p : List Byte) :
    (layFrames h l g e p).keys = h.keys ∧ ((layFrames h l g e p).ldr.load.map (·.seg) = some (l.seg + 1) ∨
      loadStage (layFrames h l g e p) = 7 ∧ ∃ st k, (layFrames h l g e p).ldr.load.bind (·.fail) = some (0x0F, st, l.seg, k)) := by
  have laid : LoaderSame h (loadFrames (runDesign h) e.range.1 e.range.2.1 (splitFrames e.range.2.2 p)).1 :=
    (LoaderSame.runDesign h).trans (.loadFrames ..)
  unfold layFrames
  generalize loadFrames (runDesign h) e.range.1 e.range.2.1 (splitFrames e.range.2.2 p) = r at laid
  obtain ⟨u, refused⟩ := r
  have sites : LoaderSame h (refreshSites u e.range.1) := laid.trans (.refreshSites ..)
  cases refused with
  | some x =>
    obtain ⟨st, k⟩ := x
    dsimp only
    obtain ⟨stage, fail⟩ := loadFails_leaves ((congrArg Loader.load sites.ldr).trans hl) hf 0x0F st l.seg (e.range.1 * 2 ^ 18 + k)
    exact ⟨(keys_loadFails ..).trans sites.keys, .inr ⟨stage, st, _, fail⟩⟩
  | none =>
    dsimp only
    have lifted := sites.trans (.liftDone (refreshSites u e.range.1) l g l.seg)
    have seg : (liftDone (refreshSites u e.range.1) l g l.seg).2.seg = l.seg := rfl
    generalize liftDone (refreshSites u e.range.1) l g l.seg = d at lifted seg
    obtain ⟨-, load, keys, -⟩ := proceed_leaves d.1 d.2 (i := d.2.seg + 1) (by rw [seg]; exact hi)
    exact ⟨keys.trans lifted.keys, .inl (by rw [load, seg]; rfl)⟩

/-- The device and the load when a segment is opened: the sectors of its frames are ready. -/
def segmentReady (h : Hw) (l : Load) (e : DirEnt) : Hw × Load := if e.frames then prepareSectors h l e else (h, l)

theorem segmentReady_leaves (h : Hw) (l : Load) (e : DirEnt) : LoaderSame h (segmentReady h l e).1 ∧
    (segmentReady h l e).2.fail = l.fail ∧ (segmentReady h l e).2.seg = l.seg := by
  unfold segmentReady
  split
  · exact ⟨.prepareSectors h l e, (prepareSectors_load h l e).1, (prepareSectors_load h l e).2.1⟩
  · exact ⟨.refl h, rfl, rfl⟩

/-- The device that holds a load. -/
def withLoad (h : Hw) (l : Load) : Hw := { h with ldr := { h.ldr with load := some l } }

/-- What a segment with these bytes does to the load: it fails, or its frames or its program are laid. -/
def segmentOpened (h : Hw) (l : Load) (g : Legend) (e : DirEnt) (b : List Byte) : Hw :=
  match openSegment (withLoad h l) g l.seg e b with
  | .error code => loadFails (withLoad h l) code 0 l.seg e.faddr
  | .ok p =>
    let v := sourceUsed (keyAdvanced (withLoad h l) e) l e
    if e.frames then layFrames v l g e p
    else proceed (hubWrite v none (workBase v + l.progLen) e.len (ofBytes p) (allOn e.len)) { l with progLen := l.progLen + e.len } g (l.seg + 1)

theorem segmentFree (hr : loaderRuns h = true) (hs : loadStage h = 2 ∨ loadStage h = 3)
    (hc : e.frames = true → (h.die e.range.1).eng.claim = none) :
    (!loaderRuns h || decide (loadStage h ≠ stProgseg ∧ loadStage h ≠ stFrames) || (e.frames && (h.die e.range.1).eng.claim.isSome)) = false := by
  have free : (e.frames && (h.die e.range.1).eng.claim.isSome) = false := by
    cases hfr : e.frames with
    | true => rw [hc hfr]; rfl
    | false => rfl
  rw [hr, free]
  obtain hs | hs := hs
  · rw [hs]
    rfl
  · rw [hs]
    rfl

theorem takeSegment_opens (hr : loaderRuns h = true) (hl : h.ldr.load = some l) (hg : l.legend = some g) (he : g.dir[l.seg]? = some e)
    (hs : loadStage h = 2 ∨ loadStage h = 3) (h1 : sourceBytes h l e.offset e.len op = some (b, .ok, h))
    (hc : e.frames = true → (h.die e.range.1).eng.claim = none) :
    takeSegment h op = segmentOpened (segmentReady h l e).1 (segmentReady h l e).2 g e b := by
  have go := segmentFree hr hs hc
  generalize hp : segmentReady h l e = p
  unfold segmentReady at hp
  rw [takeSegment, hl]
  dsimp only
  rw [hg]
  dsimp only
  rw [he]
  dsimp only
  rw [go, if_neg Bool.false_ne_true, h1]
  dsimp only
  rw [if_neg (by decide), hp]
  rfl

/-! ### What a segment leaves -/

section
variable {u : Hw} (same : LoaderSame h u) (hf : l.fail = none)
include same hf

theorem segmentOpened_fails {code : Nat} (ho : openSegment h g l.seg e b = .error code) : loadStage (segmentOpened u l g e b) = 7 ∧
    (segmentOpened u l g e b).ldr.load.bind (·.fail) = some (code, 0, l.seg, e.faddr) ∧ (segmentOpened u l g e b).mem = u.mem := by
  have opened : openSegment (withLoad u l) g l.seg e b = .error code := (openSegment_congr (t := withLoad u l) same.keys g l.seg e b).trans ho
  rw [segmentOpened, opened]
  dsimp only
  obtain ⟨stage, fail⟩ := loadFails_leaves (h := withLoad u l) rfl hf code 0 l.seg e.faddr
  exact ⟨stage, fail, mem_loadFails ..⟩

theorem segmentOpened_frames {p : List Byte} (ho : openSegment h g l.seg e b = .ok p) (hfr : e.frames = true)
    (hi : l.seg + 1 < g.dir.length) : (segmentOpened u l g e b).keys.image = h.keys.image.map (fun k => keyNext k e.tag) ∧
    ((segmentOpened u l g e b).ldr.load.map (·.seg) = some (l.seg + 1) ∨ loadStage (segmentOpened u l g e b) = 7 ∧
      ∃ st k, (segmentOpened u l g e b).ldr.load.bind (·.fail) = some (0x0F, st, l.seg, k)) := by
  have opened : openSegment (withLoad u l) g l.seg e b = .ok p := (openSegment_congr (t := withLoad u l) same.keys g l.seg e b).trans ho
  obtain ⟨load, keys, -⟩ := sourceUsed_leaves (keyAdvanced (withLoad u l) e) l e
  rw [segmentOpened, opened]
  dsimp only
  rw [if_pos hfr]
  obtain ⟨laid, rest⟩ := layFrames_leaves (e := e) (load.trans rfl) hf hi p
  refine ⟨?_, rest⟩
  rw [laid, keys, ← same.keys]
  rfl

omit hf in
theorem segmentOpened_program {p : List Byte} (ho : openSegment h g l.seg e b = .ok p) (hfr : e.frames = false)
    (hi : l.seg + 1 < g.dir.length) (hh : prioHolds u none (workBase u + l.progLen) e.len = false) :
    (segmentOpened u l g e b).ldr.load.map (·.seg) = some (l.seg + 1) ∧
    (segmentOpened u l g e b).ldr.load.map (·.progLen) = some (l.progLen + e.len) ∧
    (segmentOpened u l g e b).keys.image = h.keys.image.map (fun k => keyNext k e.tag) ∧
    (segmentOpened u l g e b).mem = u.mem.writeN (workBase u + l.progLen) e.len (ofBytes p) (allOn e.len) := by
  have opened : openSegment (withLoad u l) g l.seg e b = .ok p := (openSegment_congr (t := withLoad u l) same.keys g l.seg e b).trans ho
  obtain ⟨-, keys, mem, csr, cores⟩ := sourceUsed_leaves (keyAdvanced (withLoad u l) e) l e
  rw [segmentOpened, opened]
  dsimp only
  rw [if_neg (by rw [hfr]; exact Bool.false_ne_true)]
  generalize sourceUsed (keyAdvanced (withLoad u l) e) l e = v at keys mem csr cores
  have base : workBase v = workBase u := by rw [workBase, Hw.rd_congr csr]; rfl
  have free : prioHolds v none (workBase u + l.progLen) e.len = false := by
    rw [prioHolds_congr cores fun d => Hw.rd_congr csr _]
    exact hh
  obtain ⟨-, load, lkeys, lmem⟩ := proceed_leaves (hubWrite v none (workBase v + l.progLen) e.len (ofBytes p) (allOn e.len))
    { l with progLen := l.progLen + e.len } hi
  rw [load, lkeys, lmem, base]
  refine ⟨rfl, rfl, ?_, ?_⟩
  · rw [(kept_hubWrite ..).keys, keys, ← same.keys]
    rfl
  · rw [hubWrite_eq free, mem_touchLines]
    exact congrArg (fun m : Mem => m.writeN (workBase u + l.progLen) e.len (ofBytes p) (allOn e.len)) mem

end

end

end Sys2Proof.Machine
end

section
/-!
PROOF. The loader from request to end (R277 to R283, R296).
-/
namespace Sys2Proof.Machine
open Sys2Proof

section
variable {h t : Hw} {l : Load} {g : Legend}

/-! ### A request -/

theorem takeRequest_hub {e : QEntry} (hr : loaderRuns h = true) (hl : h.ldr.load = none) (hen : qEn h 0 = true) (ha : qAuto h 0 = false)
    (ho : oldest h 0 = some e) (hp : (slotDesc h 0 e.slot).w7.toNat ≠ (Src.event 0).code) (hm : (slotDesc h 0 e.slot).w2.toNat.testBit 0 = true) :
    takeRequest h = loadOpened (dispatch (leave h 0 e))
      { src := .hub (slotDesc h 0 e.slot).w1.toNat, reply := replyOf (slotDesc h 0 e.slot) } false := by
  have go : (!loaderRuns h || h.ldr.load.isSome || !qEn h 0 || qAuto h 0) = false := by
    rw [hr, hl, hen, ha]
    rfl
  have port : ((slotDesc h 0 e.slot).w7.toNat == (Src.event 0).code) = false := beq_eq_false_iff_ne.2 hp
  rw [takeRequest, go, if_neg Bool.false_ne_true, ho]
  dsimp only
  rw [port, if_neg Bool.false_ne_true, if_neg Bool.false_ne_true, hm, if_pos rfl]
  exact startLoad_hub ..

/-! ### The image program and VERIFY -/

theorem feedingPll_congr (hn : ∀ n m, t.net n m = h.net n m) (hr : ∀ k, k.addr ≠ 0xC00000 → k.lo < 64 → t.rd k = h.rd k) (n m : Nat) :
    feedingPll t n m = feedingPll h n m := by
  have sel := hr (K.CLK_NET_SRC_SEL n m) (by simp only [K.CLK_NET_SRC_SEL]; omega) (by simp only [K.CLK_NET_SRC_SEL]; omega)
  have selsrc : t.bit (K.CLK_NET_SRC_SELSRC n m) = h.bit (K.CLK_NET_SRC_SELSRC n m) :=
    bit_eq_of_rd (hr _ (by simp only [K.CLK_NET_SRC_SELSRC]; omega) (by simp only [K.CLK_NET_SRC_SELSRC]; omega))
  have src0 := hr (K.CLK_NET_SRC_SRC0 n m) (by simp only [K.CLK_NET_SRC_SRC0]; omega) (by simp only [K.CLK_NET_SRC_SRC0]; omega)
  have src1 := hr (K.CLK_NET_SRC_SRC1 n m) (by simp only [K.CLK_NET_SRC_SRC1]; omega) (by simp only [K.CLK_NET_SRC_SRC1]; omega)
  rw [feedingPll, wantedInput, netSrc, selsrc, sel, src0, src1, hn, feedingPll, wantedInput, netSrc]

theorem locksOk_stage (h : Hw) (g : Legend) (v : Nat) : locksOk (h.wr K.CFG_LOAD_STAGE v) g = locksOk h g := by
  have pll : feedingPll (h.wr K.CFG_LOAD_STAGE v) = feedingPll h := by
    funext n m
    refine feedingPll_congr (h := h) (t := h.wr K.CFG_LOAD_STAGE v) (fun _ _ => rfl) (fun k hk hl => Hw.rd_wr_ne h ?_ v) n m
    simp only [Key.id, K.CFG_LOAD_STAGE]
    omega
  rw [locksOk, pll]
  rfl

theorem programReturns_fails (hr : loaderRuns h = true) (hl : h.ldr.load = some l) (hs : loadStage h = 4) (hp : h.pc 0 = l.ret)
    (hd : (h.core 0).dev = none) (hg : h.g 0 1 ≠ 0) : programReturns h = loadFails h 0x10 0xFF l.seg 0 := by
  rw [programReturns, hl]
  dsimp only
  rw [hr, hd, if_neg (by simp [hs, hp, stProgram]), if_neg hg]

theorem programReturns_verifies (hr : loaderRuns h = true) (hl : h.ldr.load = some l) (hg : l.legend = some g) (hs : loadStage h = 4)
    (hp : h.pc 0 = l.ret) (hd : (h.core 0).dev = none) (h0 : h.g 0 1 = 0) (hk : locksOk h g = false) (hv : g.verify = false) :
    loadStage (programReturns h) = 5 := by
  have stage : loadStage (h.wr K.CFG_LOAD_STAGE stVerify) = stVerify := Hw.rd_wr_self ..
  rw [programReturns, hl]
  dsimp only
  rw [hr, hd, if_neg (by simp [hs, hp, stProgram]), if_pos h0, tryVerify, Hw.wr_ldr, hl]
  dsimp only
  rw [hg]
  dsimp only
  rw [if_neg (not_not.2 stage), hv, locksOk_stage, hk]
  exact stage

theorem verifyTimeout_fails (hr : loaderRuns h = true) (hl : h.ldr.load = some l) (hg : l.legend = some g) (hs : loadStage h = 5)
    (hk : locksOk h g = false) : verifyTimeout h = loadFails h 0x11 0 l.seg 0 := by
  rw [verifyTimeout, hl]
  dsimp only
  rw [hg]
  dsimp only
  rw [hr, hs, hk]
  rfl

theorem sourceStalls_fails (hr : loaderRuns h = true) (hl : h.ldr.load = some l) (hs : loadStage h = 1 ∨ loadStage h = 2 ∨ loadStage h = 3) :
    sourceStalls h = loadFails h 0x13 0 l.seg 0 := by
  rw [sourceStalls, hl]
  dsimp only
  rw [hr]
  obtain hs | hs | hs := hs
  · rw [hs]; rfl
  · rw [hs]; rfl
  · rw [hs]; rfl

/-! ### The end of a load -/

theorem optByte_of_kept (kept : ControlKept h t) {i : Nat} (hi : i < 64) : optByte t i = optByte h i := by
  rw [optByte, kept.rd _ ⟨by simp only [K.RST_OPT_BYTES]; omega, by simp only [K.RST_OPT_BYTES]; omega⟩, optByte]

theorem goldenOn_of_kept (kept : ControlKept h t) : goldenOn t = goldenOn h := by
  rw [goldenOn, optByte_of_kept kept (by decide), goldenOn]

theorem goldenAddr_of_kept (kept : ControlKept h t) : goldenAddr t = goldenAddr h := by
  have word : optWord t 0x0C = optWord h 0x0C :=
    List.foldl_ext _ _ _ fun x j hj => by
      have := List.mem_range.1 hj
      rw [optByte_of_kept kept (by omega)]
  rw [goldenAddr, word, goldenAddr]

theorem ldrPinsSame_closeWriters (h : Hw) : (closeWriters h).pins = h.pins := by
  have rel : QueueRel fun h t : Hw => t.pins = h.pins := {
    refl := fun _ => rfl
    trans := fun a b => b.trans a
    kept := fun k => k.pins
    onDie := fun _ _ _ => rfl
    wr := fun _ _ _ => rfl
    gal := fun _ _ => rfl
    guest := fun _ _ => rfl }
  exact rel.foldl (fun g n => rel.disableQueue g (252 + n)) (List.range 4) h

theorem pins_dropSource (h : Hw) (l : Load) : (dropSource h l).pins = h.pins := by
  unfold dropSource
  dsimp only
  split
  · split <;> rfl
  · rfl

theorem endLoad_leaves (hr : l.reply = none) {code : Nat} (hc : code < 256) (detail seg faddr : Nat) :
    (endLoad h l code detail seg faddr).ldr.load = none ∧ loadStage (endLoad h l code detail seg faddr) = 0 ∧
    (endLoad h l code detail seg faddr).pins = h.pins ∧ (endLoad h l code detail seg faddr).rd K.CFG_LOADERR_CODE = code := by
  have pins : (dropSource (closeWriters h) l).pins = h.pins := (pins_dropSource ..).trans (ldrPinsSame_closeWriters h)
  unfold endLoad loadReply
  rw [hr]
  dsimp only
  generalize dropSource (closeWriters h) l = u at pins
  have shown : (putLoadErr u code (l.primary.getD 0) detail seg faddr).rd K.CFG_LOADERR_CODE = code := by
    rw [putLoadErr, Hw.rd_wr_ne _ (by decide), Hw.rd_wr_ne _ (by decide), Hw.rd_wr_ne _ (by decide), Hw.rd_wr_ne _ (by decide), Hw.rd_wr_self]
    exact Nat.mod_eq_of_lt hc
  have same : (putLoadErr u code (l.primary.getD 0) detail seg faddr).pins = u.pins := rfl
  generalize putLoadErr u code (l.primary.getD 0) detail seg faddr = v at shown same
  generalize hw : ({ v with ldr := { v.ldr with load := none } } : Hw) = w
  have csr : w.csr = v.csr := by rw [← hw]
  refine ⟨?_, ?_, ?_, ?_⟩
  · rw [Hw.wr_ldr, ← hw]
  · exact Hw.rd_wr_self ..
  · rw [Hw.wr_pins, ← hw]
    exact same.trans pins
  · rw [Hw.rd_wr_ne _ (by decide), Hw.rd_congr csr, shown]

/-- The golden image is the source. -/
def fromGolden (s : LoadSrc) : Bool := match s with | .boot _ g => g | _ => false

theorem fromGolden_false {s : LoadSrc} (hb : ∀ a, s ≠ .boot a true) : fromGolden s = false := by
  cases s with
  | boot a g =>
    cases g with
    | true => exact absurd rfl (hb a)
    | false => rfl
  | _ => rfl

/-- CLEAR of a failed load: where no fallback is called for, the load ends. -/
theorem clearDone_eq {code detail seg faddr : Nat} (hr : loaderRuns h = true) (hl : h.ldr.load = some l)
    (hf : l.fail = some (code, detail, seg, faddr)) : clearDone h =
      if !fromGolden l.src && !(l.kind == 2) && !(code == 5 || code == 6) && code != 0x15 && goldenOn (clearFrames h l) then
        startLoad (dropSource (clearFrames h l) l) { src := .boot (goldenAddr (clearFrames h l)) true, reply := l.reply, primary := some code }
      else endLoad (if l.kind == 2 || (code == 5 || code == 6) then clearFrames h l
        else { clearFrames h l with pins := { (clearFrames h l).pins with cfgErr := true } }) l code detail seg faddr := by
  rw [clearDone, hl]
  dsimp only
  rw [hf]
  dsimp only
  rw [hr, Bool.not_true, if_neg Bool.false_ne_true]
  rfl

section
variable {code detail seg faddr : Nat} (hr : loaderRuns h = true) (hl : h.ldr.load = some l) (hf : l.fail = some (code, detail, seg, faddr))
  (hb : ∀ a, l.src ≠ .boot a true) (hk : l.kind ≠ 2) (h5 : code ≠ 5) (h6 : code ≠ 6) (h15 : code ≠ 0x15)
include hr hl hf hb hk h5 h6 h15

theorem clearDone_falls (hg : goldenOn h = true) : loadStage (clearDone h) = 1 ∧ (clearDone h).ldr.load =
    some { src := .boot (goldenAddr h) true, reply := l.reply, primary := some code } ∧ (clearDone h).rd K.CFG_LOAD_GOLDEN = 1 := by
  have kept := (LoaderSame.clearFrames h l).control
  rw [clearDone_eq hr hl hf, fromGolden_false hb, beq_eq_false_iff_ne.2 hk, beq_eq_false_iff_ne.2 h5, beq_eq_false_iff_ne.2 h6,
    bne_iff_ne.2 h15, goldenOn_of_kept kept, hg, if_pos (by rfl), startLoad_boot, goldenAddr_of_kept kept]
  obtain ⟨stage, -, -, load, golden⟩ := loadOpened_leaves (dropSource (clearFrames h l) l)
    { src := .boot (goldenAddr h) true, reply := l.reply, primary := some code } true
  exact ⟨stage, load, golden⟩

omit hb h15 in
theorem clearDone_ends (hg : goldenOn h = false) (hp : l.reply = none) (hc : code < 256) : (clearDone h).ldr.load = none ∧
    loadStage (clearDone h) = 0 ∧ (clearDone h).pins.cfgErr = true ∧ (clearDone h).rd K.CFG_LOADERR_CODE = code := by
  have kept := (LoaderSame.clearFrames h l).control
  rw [clearDone_eq hr hl hf, beq_eq_false_iff_ne.2 hk, beq_eq_false_iff_ne.2 h5, beq_eq_false_iff_ne.2 h6, goldenOn_of_kept kept, hg,
    Bool.and_false, if_neg Bool.false_ne_true, Bool.or_false, Bool.or_false, if_neg Bool.false_ne_true]
  obtain ⟨load, stage, pins, shown⟩ := endLoad_leaves (h := { clearFrames h l with pins := { (clearFrames h l).pins with cfgErr := true } }) hp hc
    detail seg faddr
  exact ⟨load, stage, by rw [pins], shown⟩

end

end

/-- Settles O47: a request taken, the Legend judged, segments laid, the image program heard, and the ends of a load. -/
theorem loaderStages : Obligations.LoaderStages := by
  unfold Obligations.LoaderStages
  refine ⟨fun s e hr hl hen ha ho hp hm => ⟨_, rfl, ?_⟩, fun s l op head b hr hl hf hs h1 h2 => ⟨_, rfl, ?_⟩,
    fun s l g e op b hr hl hf hg he hs h1 => ⟨fun hfr hc => ⟨_, rfl, ?_⟩, fun hfr hh => ⟨_, rfl, ?_⟩⟩,
    fun s l hr hl hf => ⟨fun hs hp hd hg => ⟨_, rfl, ?_⟩, fun g hg hs hp hd h0 hk hv => ⟨_, rfl, programReturns_verifies hr hl hg hs hp hd h0 hk hv⟩,
      fun g hg hs hk => ⟨_, rfl, ?_⟩, fun hs => ⟨_, rfl, ?_⟩⟩,
    fun s l code detail seg faddr hr hl hf hb hk h5 h6 h15 => ⟨fun hg hp hc => ⟨_, rfl, clearDone_ends hr hl hf hk h5 h6 hg hp hc⟩,
      fun hg => ⟨_, rfl, clearDone_falls hr hl hf hb hk h5 h6 h15 hg⟩⟩⟩
  · simp only [State.onHw]
    rw [takeRequest_hub hr hl hen ha ho hp hm]
    obtain ⟨stage, err, writers, load, -⟩ := loadOpened_leaves (dispatch (leave s.hw 0 e))
      { src := .hub (slotDesc s.hw 0 e.slot).w1.toNat, reply := replyOf (slotDesc s.hw 0 e.slot) } false
    exact ⟨stage, err, writers, load⟩
  · simp only [State.onHw]
    cases hw : legendFails s.hw l b with
    | some code =>
      dsimp only
      rw [checkLegend_fails hr hl hf hs h1 h2 hw]
      exact loadFails_leaves (ldr_openKeyShown ..) hf code 0 0 0
    | none =>
      obtain ⟨u, ld, legend, e⟩ := checkLegend_passes hr hl hf hs h1 h2 hw
      obtain ⟨dir, hd, ok⟩ := legendFails_none hw
      rw [hd, Option.getD_some] at legend e
      obtain ⟨first, stage⟩ := stageFor_first ok
      obtain ⟨pstage, load, -⟩ := proceed_leaves u ld first
      dsimp only
      rw [e, pstage, load, hd]
      refine ⟨stage, ?_⟩
      rw [Option.bind_some, legend]
      rfl
  · obtain ⟨same, fail, seg⟩ := segmentReady_leaves s.hw l e
    simp only [State.onHw]
    rw [takeSegment_opens hr hl hg he hs h1 fun _ => hc]
    generalize segmentReady s.hw l e = r at same fail seg
    rw [← seg]
    cases ho : openSegment s.hw g r.2.seg e b with
    | error code =>
      obtain ⟨stage, failed, -⟩ := segmentOpened_fails same (fail.trans hf) ho
      exact ⟨stage, failed⟩
    | ok p => exact fun hi => segmentOpened_frames same (fail.trans hf) ho hfr hi
  · have ready : segmentReady s.hw l e = (s.hw, l) := by
      rw [segmentReady, hfr]
      rfl
    simp only [State.onHw]
    rw [takeSegment_opens hr hl hg he hs h1 (by rw [hfr]; exact nofun), ready]
    cases ho : openSegment s.hw g l.seg e b with
    | error code => exact segmentOpened_fails (.refl s.hw) hf ho
    | ok p => exact fun hi => segmentOpened_program (.refl s.hw) ho hfr hi hh
  · simp only [State.onHw]
    rw [programReturns_fails hr hl hs hp hd hg]
    exact loadFails_leaves hl hf ..
  · simp only [State.onHw]
    rw [verifyTimeout_fails hr hl hg hs hk]
    exact loadFails_leaves hl hf ..
  · simp only [State.onHw]
    rw [sourceStalls_fails hr hl hs]
    exact loadFails_leaves hl hf ..

end Sys2Proof.Machine
end

section
/-!
PROOF. What the design, the gates and a held channel leave of the links and of the registers (R106, R125, R372, R373).
-/
namespace Sys2Proof.Machine
open Sys2Proof

/-! ### Links under the edges of the design -/

/-- A link without its counts of sent blocks and the slots of its channel. -/
def LinkSt.settled (x : LinkSt) : LinkSt :=
  { x with countOut := 0, switchOut := none, rscR0 := none, rscTold := false, rscBuf := [], rscShown := 0, rscSent := none, rscMute := 0, sentBlock := none }

theorem settled_counted (x : LinkSt) (n : Nat) : (x.counted n).settled = x.settled := by
  unfold LinkSt.counted
  split
  · rfl
  · rfl

theorem settled_chanSeeks (h : Hw) (e : Edges) (l : Nat) (x : LinkSt) : (chanSeeks h e l x).settled = x.settled := by
  unfold chanSeeks
  extract_lets n tx rx y
  have noted : y.settled = x.settled := by
    unfold y
    split
    · rfl
    · rfl
  clear_value y
  split
  · split
    · exact (settled_counted y 1).trans noted
    · exact noted
  · exact noted

theorem settled_chanAfter (h : Hw) (c : Nat) (e : Edges) (l : Nat) : (chanAfter h c e l).settled = (linkSt h l).settled := by
  unfold chanAfter
  extract_lets x n w tx rx due y
  split
  · rfl
  · split
    · exact settled_chanSeeks ..
    · have shown : y.settled = x.settled := by
        unfold y
        split
        · rfl
        · rfl
      clear_value y
      split
      · exact (settled_counted y _).trans shown
      · exact shown

/-- Every link is the same but for its counts of sent blocks and the slots of its channel. -/
structure LinksSettled (h t : Hw) : Prop where
  link : ∀ l, (linkSt t l).settled = (linkSt h l).settled

namespace LinksSettled
variable {h t u : Hw}

theorem refl (h : Hw) : LinksSettled h h := ⟨fun _ => rfl⟩
theorem trans (a : LinksSettled h t) (b : LinksSettled t u) : LinksSettled h u := ⟨fun l => (b.link l).trans (a.link l)⟩
theorem of_eq (e : t.bortik = h.bortik) : LinksSettled h t := ⟨fun l => by rw [linkSt, e, linkSt]⟩
theorem foldl {α : Type} {f : Hw → α → Hw} {l : List α} (hf : ∀ h, ∀ x ∈ l, LinksSettled h (f h x)) (h : Hw) : LinksSettled h (l.foldl f h) :=
  List.foldlRecOn (motive := LinksSettled h) l f (refl h) fun t ht x hx => ht.trans (hf t x hx)

theorem chans (h : Hw) (c : Nat) (e : Edges) (ls : List Nat) (k : Nat) :
    (SMap.get (ls.foldl (fun t l => SMap.set t l (chanAfter h c e l) {}) h.bortik.links) k {}).settled = (linkSt h k).settled := by
  refine List.foldlRecOn (motive := fun t : SMap LinkSt => (SMap.get t k {}).settled = (linkSt h k).settled) ls _ rfl fun t ht l _ => ?_
  by_cases hk : k = l
  · rw [hk, SMap.get_set_self, settled_chanAfter]
  · rw [SMap.get_set_ne _ hk, ht]

theorem countRam (h : Hw) {n : Nat} (hn : n < 4) (r : Nat × Nat × Nat × List Nat) : LinksSettled h (countRam h n r) :=
  of_eq (kept_countRam h hn r).bortik

theorem edgeStep (h : Hw) (e : Edges) : LinksSettled h (edgeStep h e) := by
  unfold Machine.edgeStep
  simp only
  refine trans ?_ (foldl (fun t (r : Nat × Nat × Nat × Nat × List Nat) hr => countRam t ?_ r.2) _)
  · exact ⟨fun k => chans h h.freeCtr e _ k⟩
  · obtain ⟨n, hn, hr⟩ := List.mem_flatMap.1 hr
    split at hr
    · cases hr
    · obtain ⟨_, -, hr⟩ := List.mem_flatMap.1 hr
      obtain ⟨_, -, hr⟩ := List.mem_flatMap.1 hr
      obtain ⟨_, -, rfl⟩ := List.mem_map.1 hr
      exact List.mem_range.1 hn

theorem runDesign (h : Hw) : LinksSettled h (runDesign h) := by
  unfold Machine.runDesign
  split
  · exact refl h
  · refine trans ?_ (foldl (fun t r _ => edgeStep t _) _)
    exact of_eq rfl

end LinksSettled

/-! ### Gates and domains -/

/-- A register that the gates of networks and the state of a domain leave alone. -/
structure OffGate (k : Key) : Prop where
  sched : OffSched k
  halted : ∀ n m, m < 64 → k.id ≠ (K.CLK_NET_STAT_HALTED n m).id
  pdom : ∀ n d, k.id ≠ (K.PDOM_STAT_TOOFAST n d).id ∧ k.id ≠ (K.PDOM_STAT_HELD n d).id

/-- The registers of HUB.LANE and HUB.BORTIK are none of them. -/
theorem offGate_of_bortik {k : Key} (hl : k.lo < 64) (ha : 0x1600000 ≤ k.addr ∧ k.addr < 0x2000000) : OffGate k := by
  obtain ⟨a, lo, w, r⟩ := k
  dsimp only at hl ha
  refine ⟨?_, fun n m _ => ?_, fun n d => ⟨?_, ?_⟩⟩
  · simp only [OffSched]
    omega
  · simp only [Key.id, K.CLK_NET_STAT_HALTED, ne_eq]
    omega
  · simp only [Key.id, K.PDOM_STAT_TOOFAST, ne_eq]
    omega
  · simp only [Key.id, K.PDOM_STAT_HELD, ne_eq]
    omega

/-- The design has run, gates moved and domains were held or released. -/
structure GatesRan (h t : Hw) : Prop where
  links : LinksSettled h t
  rd : ∀ k, OffGate k → t.rd k = h.rd k

namespace GatesRan
variable {h t u : Hw}

theorem refl (h : Hw) : GatesRan h h := ⟨.refl h, fun _ _ => rfl⟩
theorem trans (a : GatesRan h t) (b : GatesRan t u) : GatesRan h u := ⟨a.links.trans b.links, fun k hk => (b.rd k hk).trans (a.rd k hk)⟩
theorem of_kept (a : Kept h t) : GatesRan h t := ⟨.of_eq a.bortik, fun k hk => a.rd k hk.sched⟩
theorem wr (h : Hw) {k : Key} (hk : ∀ j, OffGate j → j.id ≠ k.id) (v : Nat) : GatesRan h (h.wr k v) :=
  ⟨.of_eq rfl, fun j hj => Hw.rd_wr_ne h (hk j hj) v⟩
theorem foldl {α : Type} {f : Hw → α → Hw} {l : List α} (hf : ∀ h, ∀ x ∈ l, GatesRan h (f h x)) (h : Hw) : GatesRan h (l.foldl f h) :=
  List.foldlRecOn (motive := GatesRan h) l f (refl h) fun t ht x hx => ht.trans (hf t x hx)
theorem onNet (h : Hw) (n m : Nat) (f : NetSt → NetSt) : GatesRan h (h.onNet n m f) := ⟨.of_eq rfl, fun _ _ => rfl⟩
theorem setPdomClosed (h : Hw) (d : Nat) (l : List Nat) : GatesRan h (h.setPdomClosed d l) := ⟨.of_eq rfl, fun _ _ => rfl⟩
theorem halted (h : Hw) (n : Nat) {m : Nat} (hm : m < 64) (v : Nat) : GatesRan h (h.wr (K.CLK_NET_STAT_HALTED n m) v) :=
  wr h (fun _ hj => hj.halted n m hm) v
theorem runDesign (h : Hw) : GatesRan h (runDesign h) := ⟨.runDesign h, fun k hk => (designRan_runDesign h).rd k hk.sched⟩
theorem edgeStep (h : Hw) (e : Edges) : GatesRan h (edgeStep h e) := ⟨.edgeStep h e, fun k hk => (designRan_edgeStep h e).rd k hk.sched⟩

theorem gateClosed (h : Hw) (n : Nat) {m : Nat} (hm : m < 64) : GatesRan h (gateClosed h n m) := by
  unfold Machine.gateClosed
  extract_lets u v
  have fell : GatesRan u v := by
    unfold v
    split
    · exact edgeStep ..
    · exact refl u
  exact (runDesign h).trans (fell.trans ((onNet ..).trans (halted _ n hm 1)))

theorem closeGate (h : Hw) (n : Nat) {m : Nat} (hm : m < 64) : GatesRan h (closeGate h n m) := by
  unfold Machine.closeGate
  split
  · exact refl h
  · split
    · exact (runDesign h).trans (onNet ..)
    · exact gateClosed h n hm

theorem openGate (h : Hw) (n : Nat) {m : Nat} (hm : m < 64) : GatesRan h (openGate h n m) :=
  (runDesign h).trans ((onNet ..).trans (halted _ n hm 0))

theorem refreshTooFast (h : Hw) (d : Nat) : GatesRan h (refreshTooFast h d) :=
  foldl (fun g n _ => wr g (fun _ hj => (hj.pdom n d).1) _) h

theorem held (h : Hw) (d v : Nat) : GatesRan h ((List.range 4).foldl (fun h n => h.wr (K.PDOM_STAT_HELD n d) v) h) :=
  foldl (fun g n _ => wr g (fun _ hj => (hj.pdom n d).2) _) h

theorem holdDomain (h : Hw) (d : Nat) : GatesRan h (holdDomain h d) := by
  unfold Machine.holdDomain
  extract_lets nets u old v w
  have closed : GatesRan h u := foldl (fun g x _ => closeGate g (x / 64) (Nat.mod_lt x (by decide))) h
  have noted : GatesRan u v := setPdomClosed ..
  exact closed.trans (noted.trans ((held v d 1).trans (refreshTooFast w d)))

theorem tryRelease (h : Hw) (d : Nat) (autorun : Bool) : GatesRan h (tryRelease h d autorun) := by
  unfold Machine.tryRelease
  extract_lets a ready u v
  split
  · have opened : GatesRan h u := by
      unfold u
      split
      · exact foldl (fun g x _ => openGate g (x / 64) (Nat.mod_lt x (by decide))) h
      · exact refl h
    have noted : GatesRan u v := setPdomClosed ..
    exact opened.trans (noted.trans ((held v d 0).trans (refreshTooFast ..)))
  · exact refl h

theorem linkEvent (h : Hw) (code l lane arg : Nat) : GatesRan h (linkEvent h code l lane arg) := of_kept (kept_postEvent h (by decide) ..)

end GatesRan

/-! ### A held channel -/

theorem linkSt_onLink_self (h : Hw) (l : Nat) (f : LinkSt → LinkSt) : linkSt (onLink h l f) l = f (linkSt h l) := by
  rw [linkSt, onLink, SMap.upd, SMap.get_set_self, linkSt]

theorem linkSt_onLink_ne (h : Hw) {l k : Nat} (hk : k ≠ l) (f : LinkSt → LinkSt) : linkSt (onLink h l f) k = linkSt h k := by
  rw [linkSt, onLink, SMap.upd, SMap.get_set_ne _ hk, linkSt]

/-- A link without what its channel holds. -/
def LinkSt.session (x : LinkSt) : LinkSt := { x.settled with rscHeld := false, rscMark := none }

theorem session_of_settled {x y : LinkSt} (e : x.settled = y.settled) : x.session = y.session := by
  rw [LinkSt.session, e, LinkSt.session]

/-- A held channel ends no session and writes ALIGNED alone. -/
theorem holdRsc_leaves (h : Hw) (l cause : Nat) : (∀ k, (linkSt (holdRsc h l cause) k).session = (linkSt h k).session) ∧
    ∀ k, OffGate k → k.id ≠ (K.BORTIK_LINK_RSCSTAT_ALIGNED l).id → (holdRsc h l cause).rd k = h.rd k := by
  unfold holdRsc
  split
  · exact ⟨fun _ => rfl, fun _ _ _ => rfl⟩
  · extract_lets u
    have marked (k : Nat) : (linkSt u k).session = (linkSt h k).session := by
      unfold u
      by_cases hk : k = l
      · rw [hk, linkSt_onLink_self]
        rfl
      · rw [linkSt_onLink_ne _ hk]
        rfl
    have cleared (k : Key) (hk : k.id ≠ (K.BORTIK_LINK_RSCSTAT_ALIGNED l).id) : u.rd k = h.rd k := by
      unfold u
      exact Hw.rd_wr_ne h hk 0
    clear_value u
    have held := (GatesRan.holdDomain u (u.rd (K.BORTIK_LINK_RSC_PDOM l))).trans (.linkEvent _ 8 l 0 cause)
    exact ⟨fun k => (session_of_settled (held.links.link k)).trans (marked k), fun k hk hn => (held.rd k hk).trans (cleared k hn)⟩

theorem session_holdRsc (h : Hw) (l cause k : Nat) : (linkSt (holdRsc h l cause) k).session = (linkSt h k).session := (holdRsc_leaves h l cause).1 k

theorem rd_holdRsc (h : Hw) (l cause : Nat) {k : Key} (hk : OffGate k) (hn : k.id ≠ (K.BORTIK_LINK_RSCSTAT_ALIGNED l).id) :
    (holdRsc h l cause).rd k = h.rd k := (holdRsc_leaves h l cause).2 k hk hn

end Sys2Proof.Machine
end

section
/-!
PROOF. A link comes up: signal, advert, climb, key and UP (R355 to R358, R363, R368).
-/
namespace Sys2Proof.Machine
open Sys2Proof

section
variable {h t u : Hw} {l : Nat}

/-! ### What a link's work leaves -/

/-- A field of a lane's registers was written at bit lo, on any lanes. -/
structure LanesSet (lo : Nat) (h t : Hw) : Prop where
  rest : t = { h with csr := t.csr }
  rd : ∀ k : Key, k.lo < 64 → k.lo ≠ lo ∨ k.addr < 0x1600000 → t.rd k = h.rd k

namespace LanesSet
variable {lo : Nat}

theorem refl (lo : Nat) (h : Hw) : LanesSet lo h h := ⟨rfl, fun _ _ _ => rfl⟩
theorem trans (a : LanesSet lo h t) (b : LanesSet lo t u) : LanesSet lo h u :=
  ⟨by rw [b.rest, a.rest], fun k hl hk => (b.rd k hl hk).trans (a.rd k hl hk)⟩
theorem foldl {α : Type} {f : Hw → α → Hw} (hf : ∀ h x, LanesSet lo h (f h x)) (l : List α) (h : Hw) : LanesSet lo h (l.foldl f h) :=
  List.foldlRecOn (motive := LanesSet lo h) l f (refl lo h) fun t ht x _ => ht.trans (hf t x)
theorem wr (h : Hw) {j : Key} (hl : j.lo < 64) (ha : 0x1600000 ≤ j.addr) (v : Nat) : LanesSet j.lo h (h.wr j v) :=
  ⟨rfl, fun k hk hn => Hw.rd_wr_ne h (by simp only [Key.id, ne_eq]; omega) v⟩
theorem addSat (h : Hw) {j : Key} (hl : j.lo < 64) (ha : 0x1600000 ≤ j.addr) (n : Nat) : LanesSet j.lo h (h.addSat j n) := wr h hl ha _
theorem bortik (a : LanesSet lo h t) : t.bortik = h.bortik := by rw [a.rest]
theorem link (a : LanesSet lo h t) (l : Nat) : linkSt t l = linkSt h l := by rw [linkSt, a.bortik, linkSt]
theorem keys (a : LanesSet lo h t) : t.keys = h.keys := by rw [a.rest]
theorem pwr (a : LanesSet lo h t) : t.pwr = h.pwr := by rw [a.rest]

theorem step (h : Hw) (l v : Nat) : LanesSet 0 h (setLaneStep h l v) :=
  foldl (fun g k => wr g (j := K.LANE_STAT_STEP k) (by simp only [K.LANE_STAT_STEP]; omega) (by simp only [K.LANE_STAT_STEP]; omega) v) _ h
theorem lock (h : Hw) (l : Nat) (v : Bool) : LanesSet 3 h (setLaneLock h l v) :=
  foldl (fun g k => wr g (j := K.LANE_STAT_LOCK k) (by simp only [K.LANE_STAT_LOCK]; omega) (by simp only [K.LANE_STAT_LOCK]; omega) _) _ h
theorem precoded (h : Hw) (ks : List Nat) (f : Hw → Nat → Bool) : LanesSet 4 h (ks.foldl (fun h k => h.wrB (K.LANE_STAT_PRECODED k) (f h k)) h) :=
  foldl (fun g k => wr g (j := K.LANE_STAT_PRECODED k) (by simp only [K.LANE_STAT_PRECODED]; omega) (by simp only [K.LANE_STAT_PRECODED]; omega) _) ks h
theorem error (h : Hw) (k n : Nat) : LanesSet 0 h (h.addSat (K.LANE_ERR_COUNT k) n) :=
  wr h (j := K.LANE_ERR_COUNT k) (by simp only [K.LANE_ERR_COUNT]; omega) (by simp only [K.LANE_ERR_COUNT]; omega) _
theorem counted (h : Hw) (xs : List (Nat × Nat)) : LanesSet 0 h (xs.foldl (fun h x => h.addSat (K.LANE_ERR_COUNT x.1) x.2) h) := by
  refine foldl (fun g x => ?_) xs h
  exact error g x.1 x.2
theorem errors (h : Hw) (l : Nat) (r : StepResult) : LanesSet 0 h (countErrors h l r) := by
  rw [countErrors]
  refine foldl (fun g x => ?_) _ h
  exact error g x.1 x.2.1
theorem symbols (h : Hw) (l : Nat) (fr : BFrame) : LanesSet 0 h (countSymbols h l fr) := counted h _

theorem state (a : LanesSet lo h t) (hl : lo < 45) : lkState t l = lkState h l :=
  a.rd _ (by simp only [K.BORTIK_LINK_STAT_STATE]; omega) (.inl (by simp only [K.BORTIK_LINK_STAT_STATE]; omega))
theorem cause (a : LanesSet lo h t) (hl : lo < 45) : t.rd (K.BORTIK_LINK_STAT_DOWNCAUSE l) = h.rd (K.BORTIK_LINK_STAT_DOWNCAUSE l) :=
  a.rd _ (by simp only [K.BORTIK_LINK_STAT_DOWNCAUSE]; omega) (.inl (by simp only [K.BORTIK_LINK_STAT_DOWNCAUSE]; omega))
theorem stepped (a : LanesSet lo h t) (hl : lo < 45) : t.rd (K.BORTIK_LINK_STAT_STEP l) = h.rd (K.BORTIK_LINK_STAT_STEP l) :=
  a.rd _ (by simp only [K.BORTIK_LINK_STAT_STEP]; omega) (.inl (by simp only [K.BORTIK_LINK_STAT_STEP]; omega))

end LanesSet

/-- Whether a link may run: a few registers, the supplies and the sleep of A2. -/
theorem mayRun_congr (hl : l < 64) (hp : t.pwr = h.pwr) (hb : t.bortik.asleep = h.bortik.asleep)
    (hr : ∀ k : Key, k.lo ≤ 24 → k.lo ≠ 3 ∨ k.addr < 0x1600000 → t.rd k = h.rd k) :
    (linkEn t l && lanesPowered t l) = (linkEn h l && lanesPowered h l) := by
  have en : t.rd (K.BORTIK_LINK_CFG_EN l) = h.rd (K.BORTIK_LINK_CFG_EN l) :=
    hr _ (by simp only [K.BORTIK_LINK_CFG_EN]; omega) (.inl (by simp only [K.BORTIK_LINK_CFG_EN]; omega))
  have crystal : t.rd K.CLK_STAT_XABSENT = h.rd K.CLK_STAT_XABSENT := hr _ (by decide) (.inr (by decide))
  have die : t.rd (K.RST_DIE_INRESET (l / 16)) = h.rd (K.RST_DIE_INRESET (l / 16)) :=
    hr _ (by simp only [K.RST_DIE_INRESET]; omega) (.inr (by simp only [K.RST_DIE_INRESET]; omega))
  simp only [linkEn, lanesPowered, dieUp, Hw.bit, en, crystal, die, hp, hb]

theorem LanesSet.mayRun (a : LanesSet 3 h t) (hl : l < 64) : (linkEn t l && lanesPowered t l) = (linkEn h l && lanesPowered h l) :=
  mayRun_congr hl a.pwr (by rw [a.bortik]) fun k hk hn => a.rd k (by omega) hn

theorem state_setLk (h : Hw) (l : Nat) {st : Nat} (hs : st < 16) : lkState (setLk h l st) l = st :=
  (Hw.rd_wr_self ..).trans (Nat.mod_eq_of_lt hs)

theorem rd_setLk {k : Key} (h : Hw) (l st : Nat) (hl : k.lo < 64) (hk : k.lo ≠ 48) : (setLk h l st).rd k = h.rd k :=
  Hw.rd_wr_ne h (by simp only [Key.id, K.BORTIK_LINK_STAT_STATE, ne_eq]; omega) st

theorem rest_leaves (h : Hw) (hl : l < 64) : (lkState (rest h l) l = if linkEn h l && lanesPowered h l then 1 else 0) ∧
    (rest h l).rd (K.BORTIK_LINK_STAT_DOWNCAUSE l) = h.rd (K.BORTIK_LINK_STAT_DOWNCAUSE l) ∧ (rest h l).bortik = h.bortik := by
  have locks := LanesSet.lock h l false
  have lane (g : Hw) (st v : Nat) (hs : st < 16) : lkState (setLaneStep (setLk g l st) l v) l = st ∧
      (setLaneStep (setLk g l st) l v).rd (K.BORTIK_LINK_STAT_DOWNCAUSE l) = g.rd (K.BORTIK_LINK_STAT_DOWNCAUSE l) ∧
      (setLaneStep (setLk g l st) l v).bortik = g.bortik := by
    have steps := LanesSet.step (setLk g l st) l v
    refine ⟨(steps.state (by decide)).trans (state_setLk g l hs), (steps.cause (by decide)).trans (rd_setLk g l st ?_ ?_), steps.bortik⟩
    · simp only [K.BORTIK_LINK_STAT_DOWNCAUSE]; omega
    · simp only [K.BORTIK_LINK_STAT_DOWNCAUSE]; omega
  unfold rest
  dsimp only
  rw [← locks.mayRun hl, ← locks.cause (l := l) (by decide), ← locks.bortik]
  split
  · exact lane _ lkDetect 1 (by decide)
  · exact lane _ lkOff 0 (by decide)

theorem bringUpFails_leaves (h : Hw) (hl : l < 64) {cause : Nat} (hc : cause < 256) :
    (bringUpFails h l cause).rd (K.BORTIK_LINK_STAT_DOWNCAUSE l) = cause ∧
    (lkState (bringUpFails h l cause) l = if linkEn h l && lanesPowered h l then 1 else 0) := by
  obtain ⟨state, shown, -⟩ := rest_leaves (h.wr (K.BORTIK_LINK_STAT_DOWNCAUSE l) cause) hl
  have runs : (linkEn (h.wr (K.BORTIK_LINK_STAT_DOWNCAUSE l) cause) l && lanesPowered (h.wr (K.BORTIK_LINK_STAT_DOWNCAUSE l) cause) l) =
      (linkEn h l && lanesPowered h l) := mayRun_congr hl rfl rfl fun k hk hn => Hw.rd_wr_ne h (by
    simp only [Key.id, K.BORTIK_LINK_STAT_DOWNCAUSE, ne_eq]
    omega) cause
  refine ⟨shown.trans ((Hw.rd_wr_self ..).trans (Nat.mod_eq_of_lt hc)), ?_⟩
  rw [bringUpFails, state, runs]

/-! ### Signal and advert -/

theorem rd_wr_step (h : Hw) (l : Nat) {v : Nat} (hv : v < 8) : (h.wr (K.BORTIK_LINK_STAT_STEP l) v).rd (K.BORTIK_LINK_STAT_STEP l) = v :=
  (Hw.rd_wr_self ..).trans (Nat.mod_eq_of_lt hv)

/-- A step is recorded in STEP, not in the link's state. -/
theorem stepped_setLk (h : Hw) (l st : Nat) : (setLk h l st).rd (K.BORTIK_LINK_STAT_STEP l) = h.rd (K.BORTIK_LINK_STAT_STEP l) :=
  rd_setLk h l st (by simp only [K.BORTIK_LINK_STAT_STEP]; omega) (by simp only [K.BORTIK_LINK_STAT_STEP]; omega)

/-- The partner's advert taken in, with the step agreed. -/
def agreedWith (h : Hw) (l : Nat) (a : Advert) (step : Nat) : Hw :=
  let u := onLink h.draw.2 l fun x => { x with partner := some a.serial, nonce := h.draw.1 % 2 ^ 64, nonceIn := a.nonce.toNat, agreed := step, climb := 2, resume := wantsResume h.draw.2 l a.serial && a.resume, lastInTheirs := a.lastSeq.toNat }
  ((linkLanes u l).foldl (fun h k => h.wrB (K.LANE_STAT_PRECODED k) (h.bit (K.LANE_CFG_PRECODE k) && a.precode && decide (4 ≤ step))) u).wr (K.BORTIK_LINK_STAT_STEP l) step

theorem agreedWith_leaves (h : Hw) (l : Nat) (a : Advert) {step : Nat} (hs : step < 8) :
    (linkSt (agreedWith h l a step) l).partner = some a.serial ∧ (agreedWith h l a step).rd (K.BORTIK_LINK_STAT_STEP l) = step := by
  unfold agreedWith
  extract_lets u
  have known : (linkSt u l).partner = some a.serial := by
    simp only [u, linkSt_onLink_self]
  exact ⟨(congrArg LinkSt.partner ((LanesSet.precoded u _ _).link l)).trans known, rd_wr_step _ l hs⟩

/-- An advert that fits agrees the step and goes on to the climb, or to the alignment where step 1 is all there is. -/
theorem advert_accepts {a : Advert} {step : Nat} (hs : lkState h l = 2) (hw : a.width.val = h.rd (K.BORTIK_LINK_CFG_WIDTH l)) (ho : a.lanesOk = true)
    (hm : a.maxStep.val ≠ 0) (hp : min 5 (min (ownMaxStep h l) a.maxStep.val) = step) : (linkSt (advert h l a) l).partner = some a.serial ∧
      (advert h l a).rd (K.BORTIK_LINK_STAT_STEP l) = step ∧ (lkState (advert h l a) l = if step = 1 then 4 else 3) := by
  have fits : ¬ (a.width.val ≠ h.rd (K.BORTIK_LINK_CFG_WIDTH l) ∨ (!a.lanesOk) = true) := by
    rw [ho]
    simp [hw]
  have goes : advert h l a = if step = 1 then setLk (agreedWith h l a step) l lkAlign
      else setLaneStep (setLk (agreedWith h l a step) l lkClimb) l 2 := by
    rw [advert, if_neg (fun hn => hn hs), if_neg fits, if_neg hm, ← hp]
    rfl
  obtain ⟨known, noted⟩ := agreedWith_leaves h l a (step := step) (by omega)
  rw [goes]
  split
  · exact ⟨known, (stepped_setLk ..).trans noted, state_setLk _ l (by decide)⟩
  · have steps := LanesSet.step (setLk (agreedWith h l a step) l lkClimb) l 2
    exact ⟨(congrArg LinkSt.partner (steps.link l)).trans known, (steps.stepped (by decide)).trans ((stepped_setLk ..).trans noted),
      (steps.state (by decide)).trans (state_setLk _ l (by decide))⟩

theorem advert_width {a : Advert} (hl : l < 64) (hs : lkState h l = 2) (hw : a.width.val ≠ h.rd (K.BORTIK_LINK_CFG_WIDTH l)) :
    (advert h l a).rd (K.BORTIK_LINK_STAT_DOWNCAUSE l) = 8 := by
  rw [advert, if_neg (fun hn => hn hs), if_pos (.inl hw)]
  exact (bringUpFails_leaves h hl (by decide)).1

/-! ### The climb -/

theorem stepPasses_congr (a : LanesSet 0 h t) (l step : Nat) (r : StepResult) : stepPasses t l step r = stepPasses h l step r := by
  have width : t.rd (K.BORTIK_LINK_CFG_WIDTH l) = h.rd (K.BORTIK_LINK_CFG_WIDTH l) :=
    a.rd _ (by simp only [K.BORTIK_LINK_CFG_WIDTH]; omega) (.inl (by simp only [K.BORTIK_LINK_CFG_WIDTH]; omega))
  have warn : t.rd K.BORTIK_CTL_MARGWARN = h.rd K.BORTIK_CTL_MARGWARN := a.rd _ (by decide) (.inl (by decide))
  simp only [stepPasses, linkWidth, width, warn]

theorem climbEnds_passed {r : StepResult} (hs : lkState h l = 3) (hp : stepPasses h l (linkSt h l).climb r = true) :
    climbEnds h l r = if (linkSt h l).climb < (linkSt h l).agreed then
      setLaneStep (onLink (countErrors h l r) l fun x => { x with climb := x.climb + 1 }) l ((linkSt h l).climb + 1)
    else setLk (countErrors h l r) l lkAlign := by
  have counted := LanesSet.errors h l r
  rw [climbEnds, if_neg (fun hn => hn hs)]
  dsimp only
  rw [counted.link, stepPasses_congr counted, hp, if_pos rfl]

theorem climbEnds_goesOn {r : StepResult} (hs : lkState h l = 3) (hp : stepPasses h l (linkSt h l).climb r = true) :
    if (linkSt h l).climb < (linkSt h l).agreed then
      lkState (climbEnds h l r) l = 3 ∧ (linkSt (climbEnds h l r) l).climb = (linkSt h l).climb + 1
    else lkState (climbEnds h l r) l = 4 := by
  have counted := LanesSet.errors h l r
  rw [climbEnds_passed hs hp]
  split
  · have steps := LanesSet.step (onLink (countErrors h l r) l fun x => { x with climb := x.climb + 1 }) l ((linkSt h l).climb + 1)
    refine ⟨(steps.state (by decide)).trans ((counted.state (by decide)).trans hs), ?_⟩
    rw [steps.link, linkSt_onLink_self, counted.link]
  · exact state_setLk (st := 4) _ l (by decide)

theorem climbEnds_failed {r : StepResult} (hs : lkState h l = 3) (hp : stepPasses h l (linkSt h l).climb r = false) :
    lkState (climbEnds h l r) l = 4 ∧ (climbEnds h l r).rd (K.BORTIK_LINK_STAT_STEP l) = ((linkSt h l).climb - 1) % 8 := by
  have counted := LanesSet.errors h l r
  rw [climbEnds, if_neg (fun hn => hn hs)]
  dsimp only
  rw [counted.link, stepPasses_congr counted, hp, if_neg Bool.false_ne_true]
  refine ⟨((LanesSet.step _ l _).state (by decide)).trans (state_setLk (st := 4) _ l (by decide)), ((LanesSet.step _ l _).stepped (by decide)).trans ?_⟩
  exact (stepped_setLk ..).trans (Hw.rd_wr_self ..)

end

end Sys2Proof.Machine
end

section
/-!
PROOF. Keys, sessions and the end of a link (R356, R359, R363, R364, R368).
-/
namespace Sys2Proof.Machine
open Sys2Proof

/-! ### Queues and links -/

/-- The links and the keys are the same. -/
structure LinksKept (h t : Hw) : Prop where
  bortik : t.bortik = h.bortik
  keys : t.keys = h.keys

theorem linksKept : QueueRel LinksKept where
  refl _ := ⟨rfl, rfl⟩
  trans a b := ⟨b.bortik.trans a.bortik, b.keys.trans a.keys⟩
  kept k := ⟨k.bortik, k.keys⟩
  onDie _ _ _ := ⟨rfl, rfl⟩
  wr _ _ _ := ⟨rfl, rfl⟩
  gal _ _ := ⟨rfl, rfl⟩
  guest _ _ := ⟨rfl, rfl⟩

section
variable {h t u : Hw} {l : Nat}

theorem LinksKept.link (a : LinksKept h t) (l : Nat) : linkSt t l = linkSt h l := by rw [linkSt, a.bortik, linkSt]
theorem LinksKept.cur (a : LinksKept h t) (l : Nat) : linkCur t l = linkCur h l := by rw [linkCur, a.keys, linkCur]
theorem LinksKept.pend (a : LinksKept h t) (l : Nat) : linkPend t l = linkPend h l := by rw [linkPend, a.keys, linkPend]

theorem kept_leave (h : Hw) (q : Nat) (e : QEntry) : Kept h (leave h q e) := (kept_setQueue ..).trans (kept_dropTicket ..)

theorem linksKept_dropUnacked (h : Hw) (l : Nat) : LinksKept h (dropUnacked h l) := by
  unfold dropUnacked
  refine linksKept.foldl (fun g b => ?_) _ h
  split
  · exact linksKept.trans (linksKept.kept (kept_leave ..)) (linksKept.wr ..)
  · exact linksKept.refl g

/-! ### Sending -/

/-- Blocks were sent on link l: its counts, and the block last sent. -/
structure SentOn (l : Nat) (h t : Hw) : Prop where
  rest : t = { h with bortik := { h.bortik with links := t.bortik.links } }
  link : (linkSt t l).settled = (linkSt h l).settled

theorem settled_sendBlock (h : Hw) (l : Nat) (b : BBlock) : (linkSt (sendBlock h l b) l).settled = (linkSt h l).settled := by
  rw [sendBlock, linkSt_onLink_self]
  exact settled_counted ..

theorem SentOn.block (h : Hw) (l : Nat) (b : BBlock) : SentOn l h (sendBlock h l b) := ⟨rfl, settled_sendBlock ..⟩

theorem sentBlock_sendBlock (h : Hw) (l : Nat) (b : BBlock) : (linkSt (sendBlock h l b) l).sentBlock = some b := by
  rw [sendBlock, linkSt_onLink_self]

namespace SentOn
theorem refl (l : Nat) (h : Hw) : SentOn l h h := ⟨rfl, rfl⟩
theorem trans (a : SentOn l h t) (b : SentOn l t u) : SentOn l h u := ⟨by rw [b.rest, a.rest], b.link.trans a.link⟩
theorem csr (a : SentOn l h t) : t.csr = h.csr := by rw [a.rest]
theorem rd (a : SentOn l h t) (k : Key) : t.rd k = h.rd k := Hw.rd_congr a.csr k
theorem keys (a : SentOn l h t) : t.keys = h.keys := by rw [a.rest]
theorem foldl {α : Type} {f : Hw → α → Hw} (hf : ∀ h x, SentOn l h (f h x)) (xs : List α) (h : Hw) : SentOn l h (xs.foldl f h) :=
  List.foldlRecOn (motive := SentOn l h) xs f (refl l h) fun t ht x _ => ht.trans (hf t x)
end SentOn

/-- Every doorbell that stands unacknowledged is sent again and counted. -/
theorem replayFrom_leaves (h : Hw) (l : Nat) (p : SentBell → Bool) :
    SentOn l (h.addSat (K.BORTIK_LINK_CNT_REPLAY l) ((linkSt h l).unacked.filter p).length) (replayFrom h l p) := by
  unfold replayFrom
  exact SentOn.foldl (fun g b => .block g l _) _ _

theorem rd_addSat_self (h : Hw) (k : Key) (n : Nat) : (h.addSat k n).rd k = min (2 ^ k.w - 1) (h.rd k + n) := by
  refine (Hw.rd_wr_self ..).trans ((Nat.mod_eq_of_lt ?_).trans (Nat.min_comm ..))
  have := Nat.two_pow_pos k.w
  rw [satAdd]
  omega

theorem replays_replayFrom (h : Hw) (l : Nat) (p : SentBell → Bool) : (replayFrom h l p).rd (K.BORTIK_LINK_CNT_REPLAY l) =
    min (2 ^ (K.BORTIK_LINK_CNT_REPLAY l).w - 1) (h.rd (K.BORTIK_LINK_CNT_REPLAY l) + ((linkSt h l).unacked.filter p).length) :=
  ((replayFrom_leaves h l p).rd _).trans (rd_addSat_self ..)

/-! ### Keys -/

theorem keys_freshKeys (h : Hw) (l : Nat) : (freshKeys h l).keys = h.keys := by
  unfold freshKeys
  split
  · rfl
  · rfl

theorem keys_goUp (h : Hw) (l : Nat) : (goUp h l).keys = h.keys := by
  unfold goUp
  extract_lets x u a v w y
  have first : u.keys = h.keys := keys_freshKeys h l
  have began : v.keys = u.keys := by
    unfold v
    split
    · exact (replayFrom_leaves u l _).keys
    · exact (kept_dispatch _).keys.trans (linksKept_dropUnacked u l).keys
  exact (kept_postEvent _ (by decide) ..).keys.trans (began.trans first)

/-- A link with a key is UP. -/
theorem state_goUp (hl : l < 64) (h : Hw) : lkState (goUp h l) l = 6 := by
  unfold goUp
  extract_lets x u a v w y
  have shown : lkState y l = 6 := (Hw.rd_wr_ne _ (by simp only [Key.id, K.BORTIK_LINK_STAT_STATE, K.BORTIK_LINK_STAT_RESUMED]; omega) _).trans
    (state_setLk _ l (by decide))
  refine ((kept_postEvent y (by decide) ..).rd _ (offGate_of_bortik ?_ ?_).sched).trans shown
  · simp only [K.BORTIK_LINK_STAT_STATE]; omega
  · simp only [K.BORTIK_LINK_STAT_STATE]; omega

theorem tryKey_current (hl : l < 64) (hc : (linkCur h l).isSome = true) : lkState (tryKey h l) l = 6 := by
  unfold tryKey
  rw [Option.isNone_eq_false_iff.2 hc, if_neg Bool.false_ne_true]
  dsimp only
  rw [if_pos hc]
  exact state_goUp hl h

theorem tryKey_none (hc : linkCur h l = none) (hp : linkPend h l = none) : lkState (tryKey h l) l = 5 := by
  unfold tryKey
  rw [hc, Option.isNone_none, if_pos rfl]
  dsimp only
  rw [promoteKey, linkCur_setLinkKeys, hp, Option.isSome_none, if_neg Bool.false_ne_true]
  exact state_setLk _ l (by decide)

theorem tryKey_pending (hl : l < 64) (hc : linkCur h l = none) (hp : (linkPend h l).isSome = true) : lkState (tryKey h l) l = 6 ∧
    linkCur (tryKey h l) l = linkPend h l ∧ linkPend (tryKey h l) l = none := by
  unfold tryKey
  rw [hc, Option.isNone_none, if_pos rfl]
  dsimp only
  rw [promoteKey, linkCur_setLinkKeys, if_pos hp]
  have same := keys_goUp (setLinkKeys h l (linkPend h l) none) l
  refine ⟨state_goUp hl _, ?_, ?_⟩
  · rw [linkCur, same]
    exact linkCur_setLinkKeys ..
  · rw [linkPend, same]
    exact linkPend_setLinkKeys ..

/-! ### The end of a link -/

/-- A live link that ends keeps no key, names its cause and is at rest. -/
theorem endLink_leaves (hl : l < 64) (hs : 5 ≤ lkState h l) {cause : Nat} (hc : cause < 256) : lkState (endLink h l cause) l ≤ 1 ∧
    (endLink h l cause).rd (K.BORTIK_LINK_STAT_DOWNCAUSE l) = cause ∧ (linkSt (endLink h l cause) l).keyOut = none ∧
    (linkSt (endLink h l cause) l).keyIn = none := by
  have live : lkState h l ≠ lkOff := by
    rw [lkOff]
    omega
  rw [endLink, if_neg live]
  extract_lets up a b c d e
  have shown : b.rd (K.BORTIK_LINK_STAT_DOWNCAUSE l) = cause := (Hw.rd_wr_self ..).trans (Nat.mod_eq_of_lt hc)
  have named : d.rd (K.BORTIK_LINK_STAT_DOWNCAUSE l) = cause := (Hw.rd_wr_ne _ (by
    simp only [Key.id, K.BORTIK_LINK_STAT_DOWNCAUSE, K.BORTIK_GAZ_INFO_VALID, ne_eq]
    omega) _).trans shown
  have keys : (linkSt d l).keyOut = none ∧ (linkSt d l).keyIn = none := by
    have same : linkSt d l = linkSt c l := rfl
    rw [same]
    simp only [c, linkSt_onLink_self, and_self]
  clear_value d
  have told : e.rd (K.BORTIK_LINK_STAT_DOWNCAUSE l) = d.rd (K.BORTIK_LINK_STAT_DOWNCAUSE l) ∧ e.bortik = d.bortik := by
    unfold e
    split
    · have event := kept_postEvent (d.cnt (K.BORTIK_LINK_CNT_DOWNS l)) (q := 3) (by decide) (0 * 2 ^ 16 + l * 2 ^ 8 + 2) cause 0 0
      refine ⟨(event.rd _ (offGate_of_bortik ?_ ?_).sched).trans (Hw.rd_wr_ne _ ?_ _), event.bortik⟩
      · simp only [K.BORTIK_LINK_STAT_DOWNCAUSE]; omega
      · simp only [K.BORTIK_LINK_STAT_DOWNCAUSE]; omega
      · simp only [Key.id, K.BORTIK_LINK_STAT_DOWNCAUSE, K.BORTIK_LINK_CNT_DOWNS, ne_eq]; omega
    · exact ⟨rfl, rfl⟩
  clear_value e
  obtain ⟨state, cause', bortik⟩ := rest_leaves e hl
  have same : linkSt (rest e l) l = linkSt d l := by rw [linkSt, bortik, told.2, linkSt]
  rw [same]
  refine ⟨?_, cause'.trans (told.1.trans named), keys⟩
  rw [state]
  split <;> omega

end

end Sys2Proof.Machine
end

section
/-!
PROOF. Lanes of a live link, and the frames it hears (R359 to R362, R365 to R367, R374).
-/
namespace Sys2Proof.Machine
open Sys2Proof

section
variable {h t u : Hw} {l k : Nat}

/-! ### Lanes -/

theorem lost_of_session {x y : LinkSt} (e : x.session = y.session) : x.lost = y.lost := by
  have e' := congrArg LinkSt.lost e
  exact e'

/-- The work of LANE_LOCK_LOSS. -/
def loseLock (h : Hw) (l k : Nat) : Hw :=
  holdRsc (onLink (h.wr (K.LANE_STAT_LOCK k) 0) l fun x => { x with lost := if x.lost.contains k then x.lost else x.lost ++ [k] }) l 2

theorem loseLock_leaves (hk : k < 64) (h : Hw) (l : Nat) : (loseLock h l k).rd (K.LANE_STAT_LOCK k) = 0 ∧ k ∈ (linkSt (loseLock h l k) l).lost := by
  unfold loseLock
  generalize hu : onLink (h.wr (K.LANE_STAT_LOCK k) 0) l _ = u
  have off : u.rd (K.LANE_STAT_LOCK k) = 0 := by
    have written : (h.wr (K.LANE_STAT_LOCK k) 0).rd (K.LANE_STAT_LOCK k) = 0 := Hw.rd_wr_self ..
    rw [← hu]
    exact written
  have lost : k ∈ (linkSt u l).lost := by
    rw [← hu, linkSt_onLink_self]
    dsimp only
    split
    next hc => exact List.contains_iff_mem.1 hc
    · exact List.mem_append_right _ (List.mem_singleton_self k)
  have same : (linkSt (holdRsc u l 2) l).lost = (linkSt u l).lost := lost_of_session (session_holdRsc u l 2 l)
  refine ⟨(rd_holdRsc u l 2 (offGate_of_bortik ?_ ?_) ?_).trans off, by rw [same]; exact lost⟩
  · simp only [K.LANE_STAT_LOCK]; omega
  · simp only [K.LANE_STAT_LOCK]; omega
  · simp only [Key.id, K.LANE_STAT_LOCK, K.BORTIK_LINK_RSCSTAT_ALIGNED, ne_eq]; omega

/-- The margin and the lowest margin of a lane stand in fields of one register. -/
theorem measureMargin_leaves (hk : k < 64) (ho : linkOfLane h k = some l) (hs : lkState h l = 6) (m : Fin 64) :
    (measureMargin h k m.val).rd (K.LANE_STAT_MARGIN k) = m.val ∧
    (measureMargin h k m.val).rd (K.LANE_STAT_MINMARGIN k) = min m.val (h.rd (K.LANE_STAT_MINMARGIN k)) := by
  have up : ¬ lkState h l ≠ lkUp := fun hn => hn hs
  rw [measureMargin, ho]
  dsimp only
  rw [if_neg up]
  have lowest : (h.wr (K.LANE_STAT_MARGIN k) m.val).rd (K.LANE_STAT_MINMARGIN k) = h.rd (K.LANE_STAT_MINMARGIN k) :=
    Hw.rd_wr_ne _ (by simp only [Key.id, K.LANE_STAT_MARGIN, K.LANE_STAT_MINMARGIN]; omega) _
  rw [lowest]
  generalize hu : (h.wr (K.LANE_STAT_MARGIN k) m.val).wr (K.LANE_STAT_MINMARGIN k) _ = u
  have margin : u.rd (K.LANE_STAT_MARGIN k) = m.val := by
    rw [← hu, Hw.rd_wr_ne _ (by simp only [Key.id, K.LANE_STAT_MARGIN, K.LANE_STAT_MINMARGIN, ne_eq]; omega), Hw.rd_wr_self]
    exact Nat.mod_eq_of_lt m.isLt
  have least : u.rd (K.LANE_STAT_MINMARGIN k) = min m.val (h.rd (K.LANE_STAT_MINMARGIN k)) := by
    rw [← hu, Hw.rd_wr_self]
    exact Nat.mod_eq_of_lt (Nat.lt_of_le_of_lt (Nat.min_le_left ..) m.isLt)
  clear hu
  split
  · split
    · exact ⟨margin, least⟩
    · have event (g : Hw) := kept_postEvent g (q := 3) (by decide) (k * 2 ^ 16 + l * 2 ^ 8 + 7) m.val 0 0
      refine ⟨((event _).rd _ (offGate_of_bortik ?_ ?_).sched).trans ((Hw.rd_wr_ne _ ?_ 1).trans margin),
        ((event _).rd _ (offGate_of_bortik ?_ ?_).sched).trans ((Hw.rd_wr_ne _ ?_ 1).trans least)⟩
      · simp only [K.LANE_STAT_MARGIN]; omega
      · simp only [K.LANE_STAT_MARGIN]; omega
      · simp only [Key.id, K.LANE_STAT_MARGIN, K.LANE_STAT_MARGLOW, ne_eq]; omega
      · simp only [K.LANE_STAT_MINMARGIN]; omega
      · simp only [K.LANE_STAT_MINMARGIN]; omega
      · simp only [Key.id, K.LANE_STAT_MINMARGIN, K.LANE_STAT_MARGLOW, ne_eq]; omega
  · split
    · exact ⟨margin, least⟩
    · exact ⟨margin, least⟩

theorem regain_leaves (h : Hw) (l : Nat) :
    (linkSt (setLaneLock (onLink h l fun x => { x with lost := [] }) l true) l).lost = [] ∧
    lkState (setLaneLock (onLink h l fun x => { x with lost := [] }) l true) l = lkState h l := by
  have locks := LanesSet.lock (onLink h l fun x => { x with lost := [] }) l true
  refine ⟨?_, locks.state (by decide)⟩
  rw [locks.link, linkSt_onLink_self]

/-! ### Frames that do not pass -/

section
variable {lk : Link} {fr : BFrame}

/-- A NAK asks for the SEQ after the last one. -/
def askReplay (h : Hw) (l : Nat) : Hw := sendBlock h l (.nak (BitVec.ofNat 16 (nextSeq (linkSt h l).lastIn)))

theorem sentOn_askReplay (h : Hw) (l : Nat) : SentOn l h (askReplay h l) := .block ..

/-- What an uncorrectable frame does once it is counted. -/
def afterUncorr (h : Hw) (l : Nat) (fr : BFrame) : Hw :=
  let h := h.cnt (K.BORTIK_LINK_CNT_UNCORR l)
  let h := if hasData fr then askReplay h l else h
  if fr.rsc then holdRsc h l 3 else h

/-- What a frame that does not verify does, before its failures are counted up. -/
def afterBad (h : Hw) (l : Nat) (fr : BFrame) : Hw :=
  let h := h.addSat (K.BORTIK_LINK_CNT_UNCORR l) (fr.blocks.filter (· == .badType)).length
  let h := askReplay (onLink (h.cnt (K.BORTIK_LINK_CNT_AUTHFAIL l)) l fun x => { x with fails := x.fails + 1 }) l
  if fr.rsc then holdRsc (h.wr (K.BORTIK_LINK_RSCSTAT_LOSSY l) 1) l 4 else h

theorem frameArrives_up (hs : lkState h lk.val = 6) : frameArrives h lk fr =
    if fr.uncorr then afterUncorr (countSymbols h lk.val fr) lk.val fr
    else if !fr.tagOk || fr.blocks.contains .badType then
      let t := afterBad (countSymbols h lk.val fr) lk.val fr
      if 8 ≤ (linkSt t lk.val).fails then endLink t lk.val dcAuth else t
    else fr.blocks.foldl (deliverBlock lk) (onLink (countSymbols h lk.val fr) lk.val fun x =>
      { x with fails := 0, countIn := x.countIn + (fr.blocks.map blocksOf).sum }) := by
  have up : ¬ lkState h lk.val = lkNokey := by rw [hs]; decide
  have live : ¬ lkState h lk.val ≠ lkUp := fun hn => hn hs
  unfold frameArrives
  dsimp only
  rw [if_neg up, if_neg live]
  rfl

end
end

end Sys2Proof.Machine
end

section
/-!
PROOF. Frames that fail, and single blocks of a verified frame (R361, R362, R364 to R367, R371, R374).
-/
namespace Sys2Proof.Machine
open Sys2Proof

section
variable {h t u : Hw} {l : Nat}

/-! ### Frames that do not pass -/

theorem offGate_linkState (hl : l < 64) : OffGate (K.BORTIK_LINK_STAT_STATE l) := by
  refine offGate_of_bortik ?_ ?_
  · simp only [K.BORTIK_LINK_STAT_STATE]; omega
  · simp only [K.BORTIK_LINK_STAT_STATE]; omega

theorem offGate_linkCnt (hl : l < 64) : OffGate (K.BORTIK_LINK_CNT_UNCORR l) := by
  refine offGate_of_bortik ?_ ?_
  · simp only [K.BORTIK_LINK_CNT_UNCORR]; omega
  · simp only [K.BORTIK_LINK_CNT_UNCORR]; omega

theorem state_holdRsc (hl : l < 64) (h : Hw) (cause : Nat) : lkState (holdRsc h l cause) l = lkState h l :=
  rd_holdRsc h l cause (offGate_linkState hl) (by
    simp only [Key.id, K.BORTIK_LINK_STAT_STATE, K.BORTIK_LINK_RSCSTAT_ALIGNED, ne_eq]
    omega)

theorem state_wr {j : Key} (hj : (K.BORTIK_LINK_STAT_STATE l).id ≠ j.id) (h : Hw) (v : Nat) : lkState (h.wr j v) l = lkState h l := Hw.rd_wr_ne h hj v

theorem SentOn.state (a : SentOn l h t) : lkState t l = lkState h l := a.rd _

theorem afterUncorr_leaves (hl : l < 64) (h : Hw) (fr : BFrame) : lkState (afterUncorr h l fr) l = lkState h l ∧
    (afterUncorr h l fr).rd (K.BORTIK_LINK_CNT_UNCORR l) = min (2 ^ (K.BORTIK_LINK_CNT_UNCORR l).w - 1) (h.rd (K.BORTIK_LINK_CNT_UNCORR l) + 1) ∧
    (fr.rsc = false → hasData fr = false → (afterUncorr h l fr).bortik = h.bortik) := by
  unfold afterUncorr
  extract_lets u v
  have state : lkState u l = lkState h l := state_wr (by simp only [Key.id, K.BORTIK_LINK_STAT_STATE, K.BORTIK_LINK_CNT_UNCORR]; omega) h _
  have count : u.rd (K.BORTIK_LINK_CNT_UNCORR l) = _ := rd_cnt_self h
  have asked : SentOn l u v := by
    unfold v
    split
    · exact sentOn_askReplay u l
    · exact .refl l u
  refine ⟨?_, ?_, fun hr hd => ?_⟩
  · split
    · exact (state_holdRsc hl v 3).trans (asked.state.trans state)
    · exact asked.state.trans state
  · split
    · refine (rd_holdRsc v l 3 (offGate_linkCnt hl) ?_).trans ((asked.rd _).trans count)
      simp only [Key.id, K.BORTIK_LINK_CNT_UNCORR, K.BORTIK_LINK_RSCSTAT_ALIGNED, ne_eq]
      omega
    · exact (asked.rd _).trans count
  · have quiet : v = u := by
      unfold v
      rw [hd, if_neg Bool.false_ne_true]
    rw [hr, if_neg Bool.false_ne_true, quiet]
    rfl

theorem heard_of_session {x y : LinkSt} (e : x.session = y.session) : x.fails = y.fails ∧ x.lastIn = y.lastIn := by
  have fails := congrArg LinkSt.fails e
  have last := congrArg LinkSt.lastIn e
  exact ⟨fails, last⟩

theorem session_sentOn (a : SentOn l h t) : (linkSt t l).session = (linkSt h l).session := session_of_settled a.link

theorem afterBad_leaves (hl : l < 64) (h : Hw) (fr : BFrame) : lkState (afterBad h l fr) l = lkState h l ∧
    (linkSt (afterBad h l fr) l).fails = (linkSt h l).fails + 1 ∧ (linkSt (afterBad h l fr) l).lastIn = (linkSt h l).lastIn := by
  unfold afterBad
  extract_lets a v
  obtain ⟨u, hu⟩ : ∃ u, u = onLink (a.cnt (K.BORTIK_LINK_CNT_AUTHFAIL l)) l fun x => { x with fails := x.fails + 1 } := ⟨_, rfl⟩
  have state : lkState u l = lkState h l := by
    rw [hu]
    exact (state_wr (by simp only [Key.id, K.BORTIK_LINK_STAT_STATE, K.BORTIK_LINK_CNT_AUTHFAIL, ne_eq]; omega) a _).trans
      (state_wr (by simp only [Key.id, K.BORTIK_LINK_STAT_STATE, K.BORTIK_LINK_CNT_UNCORR]; omega) h _)
  have failed : (linkSt u l).fails = (linkSt h l).fails + 1 ∧ (linkSt u l).lastIn = (linkSt h l).lastIn := by
    rw [hu, linkSt_onLink_self]
    exact ⟨rfl, rfl⟩
  have asked : SentOn l u v := by
    rw [hu]
    exact sentOn_askReplay _ l
  clear_value v
  have same : (linkSt v l).fails = (linkSt u l).fails ∧ (linkSt v l).lastIn = (linkSt u l).lastIn := heard_of_session (session_sentOn asked)
  split
  · have lossy : lkState (v.wr (K.BORTIK_LINK_RSCSTAT_LOSSY l) 1) l = lkState v l :=
      state_wr (by simp only [Key.id, K.BORTIK_LINK_STAT_STATE, K.BORTIK_LINK_RSCSTAT_LOSSY, ne_eq]; omega) v 1
    have held := heard_of_session (session_holdRsc (v.wr (K.BORTIK_LINK_RSCSTAT_LOSSY l) 1) l 4 l)
    exact ⟨(state_holdRsc hl _ 4).trans (lossy.trans (asked.state.trans state)), held.1.trans (same.1.trans failed.1), held.2.trans (same.2.trans failed.2)⟩
  · exact ⟨asked.state.trans state, same.1.trans failed.1, same.2.trans failed.2⟩

section
variable {lk : Link} {fr : BFrame}

theorem frameArrives_uncorr (hs : lkState h lk.val = 6) (hu : fr.uncorr = true) :
    lkState (frameArrives h lk fr) lk.val = 6 ∧ (frameArrives h lk fr).rd (K.BORTIK_LINK_CNT_UNCORR lk.val) =
      min (2 ^ (K.BORTIK_LINK_CNT_UNCORR lk.val).w - 1) (h.rd (K.BORTIK_LINK_CNT_UNCORR lk.val) + 1) ∧
    (fr.rsc = false → hasData fr = false → (frameArrives h lk fr).bortik = h.bortik) := by
  have symbols := LanesSet.symbols h lk.val fr
  obtain ⟨state, count, quiet⟩ := afterUncorr_leaves lk.isLt (countSymbols h lk.val fr) fr
  have before : (countSymbols h lk.val fr).rd (K.BORTIK_LINK_CNT_UNCORR lk.val) = h.rd (K.BORTIK_LINK_CNT_UNCORR lk.val) :=
    symbols.rd _ (by simp only [K.BORTIK_LINK_CNT_UNCORR]; omega) (.inl (by simp only [K.BORTIK_LINK_CNT_UNCORR]; omega))
  rw [frameArrives_up hs, hu, if_pos rfl]
  exact ⟨state.trans ((symbols.state (by decide)).trans hs), by rw [count, before], fun hr hd => (quiet hr hd).trans symbols.bortik⟩

theorem frameArrives_bad (hs : lkState h lk.val = 6) (hu : fr.uncorr = false) (hb : fr.tagOk = false ∨ .badType ∈ fr.blocks) :
    ((linkSt h lk.val).fails < 7 → lkState (frameArrives h lk fr) lk.val = 6 ∧
      (linkSt (frameArrives h lk fr) lk.val).fails = (linkSt h lk.val).fails + 1 ∧
      (linkSt (frameArrives h lk fr) lk.val).lastIn = (linkSt h lk.val).lastIn) ∧
    (7 ≤ (linkSt h lk.val).fails → lkState (frameArrives h lk fr) lk.val ≤ 1 ∧
      (frameArrives h lk fr).rd (K.BORTIK_LINK_STAT_DOWNCAUSE lk.val) = 3) := by
  have symbols := LanesSet.symbols h lk.val fr
  obtain ⟨state, fails, last⟩ := afterBad_leaves lk.isLt (countSymbols h lk.val fr) fr
  have bad : (!fr.tagOk || fr.blocks.contains .badType) = true := by
    obtain hb | hb := hb
    · rw [hb]; rfl
    · rw [List.contains_iff_mem.2 hb, Bool.or_true]
  have up : lkState (afterBad (countSymbols h lk.val fr) lk.val fr) lk.val = 6 := state.trans ((symbols.state (by decide)).trans hs)
  rw [symbols.link] at fails last
  rw [frameArrives_up hs, hu, if_neg Bool.false_ne_true, bad, if_pos rfl]
  dsimp only
  rw [fails]
  refine ⟨fun h7 => ?_, fun h7 => ?_⟩
  · rw [if_neg (by omega)]
    exact ⟨up, fails, last⟩
  · rw [if_pos (by omega)]
    obtain ⟨down, cause, -⟩ := endLink_leaves (h := afterBad (countSymbols h lk.val fr) lk.val fr) (cause := dcAuth) lk.isLt (by omega) (by decide)
    exact ⟨down, cause⟩

theorem frameArrives_verified (hs : lkState h lk.val = 6) (hu : fr.uncorr = false) (ht : fr.tagOk = true) (hb : .badType ∉ fr.blocks) :
    frameArrives h lk fr = fr.blocks.foldl (deliverBlock lk) (onLink (countSymbols h lk.val fr) lk.val fun x =>
      { x with fails := 0, countIn := x.countIn + (fr.blocks.map blocksOf).sum }) := by
  have good : ¬ (!fr.tagOk || fr.blocks.contains .badType) = true := by
    rw [ht, Bool.not_true, Bool.false_or]
    exact fun hc => hb (List.contains_iff_mem.1 hc)
  rw [frameArrives_up hs, hu, if_neg Bool.false_ne_true, if_neg good]

/-- The link as a verified frame of one block leaves it before the block acts. -/
def heardBlock (h : Hw) (l : Nat) (b : BBlock) : Hw := onLink h l fun x => { x with fails := 0, countIn := x.countIn + (blocksOf b + 0) }

theorem frameArrives_one (hs : lkState h lk.val = 6) {b : BBlock} (hb : b ≠ .badType) :
    frameArrives h lk ⟨false, true, false, [b], []⟩ = deliverBlock lk (heardBlock h lk.val b) b := by
  have none : countSymbols h lk.val ⟨false, true, false, [b], []⟩ = h := by
    rw [countSymbols, List.zip_nil_right]
    rfl
  rw [frameArrives_verified hs rfl rfl (by simpa using hb.symm), none]
  rfl

theorem linkSt_heardBlock (h : Hw) (l : Nat) (b : BBlock) :
    linkSt (heardBlock h l b) l = { linkSt h l with fails := 0, countIn := (linkSt h l).countIn + (blocksOf b + 0) } := linkSt_onLink_self ..

end
end

end Sys2Proof.Machine
end

section
/-!
PROOF. The blocks of a verified frame, one by one (R364 to R367, R371, R374).
-/
namespace Sys2Proof.Machine
open Sys2Proof

section
variable {h t u : Hw} {l q seq : Nat}

/-! ### Acknowledgement and rejection -/

theorem linksKept_ackArrives (h : Hw) (l seq : Nat) :
    LinksKept (onLink h l fun x => { x with unacked := x.unacked.filter fun b => !(seqUpTo b.seq seq) }) (ackArrives h l seq) := by
  unfold ackArrives
  refine linksKept.trans (linksKept.foldl (fun g b => ?_) _ _) (linksKept.kept (kept_dispatch _))
  split
  · exact linksKept.kept (kept_leave ..)
  · exact linksKept.refl g

theorem unacked_ackArrives (h : Hw) (l seq : Nat) :
    (linkSt (ackArrives h l seq) l).unacked = (linkSt h l).unacked.filter fun b => !seqUpTo b.seq seq := by
  rw [(linksKept_ackArrives h l seq).link, linkSt_onLink_self]

theorem linksKept_rejectEntry (h : Hw) (q slot check : Nat) : LinksKept h (rejectEntry h q slot check) := by
  unfold rejectEntry
  split
  · exact linksKept.trans (linksKept.trans (linksKept.kept (kept_leave ..)) (linksKept.wr ..))
      (linksKept.trans (linksKept.kept (kept_logErr ..)) (linksKept.kept (kept_dispatch _)))
  · exact linksKept.refl h

/-- A rejected SEQ stands unacknowledged no more. -/
theorem unacked_rejectArrives (h : Hw) (l seq check : Nat) : ∀ b ∈ (linkSt (rejectArrives h l seq check) l).unacked, b.seq ≠ seq := by
  unfold rejectArrives
  split
  next hf =>
    intro b hb he
    exact List.find?_eq_none.1 hf b hb (by rw [he, beq_self_eq_true])
  next x hf =>
    intro b hb he
    rw [(linksKept_rejectEntry ..).link, onKnown, linkSt_onLink_self, linkSt_onLink_self] at hb
    have kept := (List.mem_filter.1 hb).2
    rw [he, bne_self_eq_false] at kept
    exact Bool.false_ne_true kept

/-! ### Credit and marks -/

theorem known_creditArrives (h : Hw) (l q cred adm : Nat) :
    (SMap.get (linkSt (creditArrives h l q cred adm) l).known q none).map (fun x => (x.cred, x.admitted)) = some (cred, adm) := by
  rw [creditArrives, linkSt_onLink_self]
  dsimp only
  rw [SMap.get_set_self]
  rfl

theorem linksKept_refreshKmin (h : Hw) (d : Nat) : LinksKept h (refreshKmin h d) := by
  unfold refreshKmin refreshTooFast
  extract_lets v w
  exact linksKept.trans (linksKept.foldl (fun g n => linksKept.wr ..) _ h) (linksKept.foldl (fun g n => linksKept.wr ..) _ _)

theorem mark_rscMarked (h : Hw) (l v k w kmin : Nat) : (linkSt (rscMarked h l v k w kmin) l).rscMark = some (v, k, w, kmin) := by
  unfold rscMarked
  rw [(linksKept_refreshKmin ..).link]
  have same (g : Hw) (j : Key) (x : Nat) : linkSt (g.wr j x) l = linkSt g l := rfl
  rw [same, linkSt_onLink_self]

/-! ### Beacons -/

/-- The Gazetteer holds a serial number for link l. -/
structure Gazetted (l v : Nat) (h : Hw) : Prop where
  serial : h.rd (K.BORTIK_GAZ_SERIAL_SERIAL l) = v
  valid : h.rd (K.BORTIK_GAZ_INFO_VALID l) = 1

namespace Gazetted
variable {v : Nat}

theorem wr (a : Gazetted l v h) {j : Key} (hs : (K.BORTIK_GAZ_SERIAL_SERIAL l).id ≠ j.id) (hv : (K.BORTIK_GAZ_INFO_VALID l).id ≠ j.id) (x : Nat) :
    Gazetted l v (h.wr j x) := ⟨(Hw.rd_wr_ne h hs x).trans a.serial, (Hw.rd_wr_ne h hv x).trans a.valid⟩

/-- The fields of the information word below VALID, and the registers behind it. -/
theorem info (a : Gazetted l v h) {lo w : Nat} (hl : lo < 63) (x : Nat) : Gazetted l v (h.wr ⟨0x1A20008 + l * 0x40, lo, w, 0⟩ x) := by
  refine a.wr ?_ ?_ x
  · simp only [Key.id, K.BORTIK_GAZ_SERIAL_SERIAL, ne_eq]; omega
  · simp only [Key.id, K.BORTIK_GAZ_INFO_VALID, ne_eq]; omega

theorem behind (a : Gazetted l v h) {i w : Nat} (hi : i < 4) (x : Nat) : Gazetted l v (h.wr ⟨0x1A20010 + l * 0x40 + i * 8, 0, w, 0⟩ x) := by
  refine a.wr ?_ ?_ x
  · simp only [Key.id, K.BORTIK_GAZ_SERIAL_SERIAL, ne_eq]; omega
  · simp only [Key.id, K.BORTIK_GAZ_INFO_VALID, ne_eq]; omega

theorem digest (a : Gazetted l v h) (d : Nat) : Gazetted l v (putDigest h (K.BORTIK_GAZ_DIG_DIG l) d) :=
  List.foldlRecOn (motive := Gazetted l v) _ _ a fun _ ht w hw => ht.behind (i := w) (by
    have := List.mem_range.1 hw
    omega) _

theorem event (a : Gazetted l v h) (hl : l < 64) (code arg : Nat) : Gazetted l v (linkEvent h code l 0 arg) := by
  have posted := kept_postEvent h (q := 3) (by decide) (0 * 2 ^ 16 + l * 2 ^ 8 + code) arg 0 0
  refine ⟨(posted.rd _ (offGate_of_bortik ?_ ?_).sched).trans a.serial, (posted.rd _ (offGate_of_bortik ?_ ?_).sched).trans a.valid⟩
  · simp only [K.BORTIK_GAZ_SERIAL_SERIAL]; omega
  · simp only [K.BORTIK_GAZ_SERIAL_SERIAL]; omega
  · simp only [K.BORTIK_GAZ_INFO_VALID]; omega
  · simp only [K.BORTIK_GAZ_INFO_VALID]; omega

theorem ite_event (a : Gazetted l v h) (hl : l < 64) (c : Prop) [Decidable c] (code arg : Nat) :
    Gazetted l v (if c then linkEvent h code l 0 arg else h) := by
  split
  · exact a.event hl code arg
  · exact a

end Gazetted

theorem bortik_ite_event (h : Hw) (c : Prop) [Decidable c] (code l arg : Nat) : (if c then linkEvent h code l 0 arg else h).bortik = h.bortik := by
  split
  · exact (kept_postEvent h (by decide) ..).bortik
  · rfl

theorem beaconArrives_leaves (hl : l < 64) (h : Hw) (sr : Word) (p : Byte) (c : BitVec 16) (i : BitVec 32) (d : BitVec 256) (e : BitVec 32) (r : Bool) :
    Gazetted l sr.toNat (beaconArrives h l sr p c i d e r) ∧ (linkSt (beaconArrives h l sr p c i d e r) l).beaconLost = false := by
  unfold beaconArrives
  extract_lets kept valid image ready dig u1 u2 u3 u4 u5 u6 u7
  have first : Gazetted l sr.toNat u1 := by
    refine ⟨(Hw.rd_wr_ne _ ?_ 1).trans ((Hw.rd_wr_self ..).trans (Nat.mod_eq_of_lt sr.isLt)), Hw.rd_wr_self ..⟩
    simp only [Key.id, K.BORTIK_GAZ_SERIAL_SERIAL, K.BORTIK_GAZ_INFO_VALID, ne_eq]
    omega
  have flags : Gazetted l sr.toNat u2 := (first.info (by decide) _).info (by decide) _
  have place : Gazetted l sr.toNat u3 := (flags.info (by decide) _).info (by decide) _
  have shown : Gazetted l sr.toNat u4 := (place.info (by decide) _).digest _
  have seen : Gazetted l sr.toNat u5 := by
    have timed : Gazetted l sr.toNat (u4.wr (K.BORTIK_GAZ_SEEN_TIME l) u4.now) := by
      refine shown.wr ?_ ?_ _
      · simp only [Key.id, K.BORTIK_GAZ_SERIAL_SERIAL, K.BORTIK_GAZ_SEEN_TIME, ne_eq]; omega
      · simp only [Key.id, K.BORTIK_GAZ_INFO_VALID, K.BORTIK_GAZ_SEEN_TIME, ne_eq]; omega
    exact ⟨timed.serial, timed.valid⟩
  have heard : (linkSt u5 l).beaconLost = false := by
    simp only [u5, linkSt_onLink_self]
  clear_value u5
  have links : (if kept ≠ 0 ∧ ready = true ∧ r = true ∧ dig ≠ d.toNat then linkEvent u7 5 l 0 e.toNat else u7).bortik = u5.bortik :=
    (bortik_ite_event ..).trans ((bortik_ite_event ..).trans (bortik_ite_event ..))
  refine ⟨((seen.ite_event hl _ 3 _).ite_event hl _ 4 _).ite_event hl _ 5 _, ?_⟩
  rw [linkSt, links]
  exact heard

end

end Sys2Proof.Machine
end

section
/-!
PROOF. Doorbells over a link, and what a link sends (R364 to R367, R374, R375).
-/
namespace Sys2Proof.Machine
open Sys2Proof

section
variable {h t u : Hw} {l q seq : Nat} {lk : Link}

/-! ### Doorbells -/

theorem nextSeq_ne {n : Nat} : n ≠ nextSeq n := by
  rw [nextSeq]
  omega

theorem seqUpTo_self (n : Nat) : seqUpTo n n = true := by
  rw [seqUpTo, decide_eq_true_eq]
  omega

/-- A SEQ admitted before is acknowledged again. -/
theorem bellArrives_old {n : BitVec 16} (d : Desc) (hn : n.toNat = (linkSt h l).lastIn) :
    bellArrives h l lk q n.toNat d = sendBlock h l (.ack n) := by
  have other : n.toNat ≠ nextSeq (linkSt h l).lastIn := by
    rw [← hn]
    exact nextSeq_ne
  have before : seqUpTo n.toNat (linkSt h l).lastIn = true := by
    rw [← hn]
    exact seqUpTo_self _
  unfold bellArrives
  dsimp only
  rw [if_pos other, before, if_pos rfl, ← hn, BitVec.ofNat_toNat, BitVec.setWidth_eq]

/-- The next SEQ that passes the checks is admitted, counted and acknowledged. -/
theorem bellArrives_next {n : BitVec 16} {d : Desc} (hn : n.toNat = nextSeq (linkSt h l).lastIn) (he : qEn h q = true)
    (hp : permitted h (.master (.link lk)) q = true) (hc : qCred h q ≠ 0)
    (hf : heldBy h q < h.rd (K.SCHED_Q_CFG_TRES q) ∨ 0 < sharedFree h) (hh : h.sched.held.length < 65536) :
    (linkSt (bellArrives h l lk q n.toNat d) l).lastIn = n.toNat ∧
    (linkSt (bellArrives h l lk q n.toNat d) l).sentBlock = some (.ack n) ∧
    admittedTo (bellArrives h l lk q n.toNat d) l q = nextSeq (admittedTo h l q) := by
  unfold bellArrives
  extract_lets x u
  rw [if_neg (fun hne => hne hn)]
  have taken : (linkSt u l).lastIn = n.toNat ∧ (linkSt u l).admitted = (linkSt h l).admitted := by
    simp only [u, linkSt_onLink_self, and_self]
  obtain ⟨tk, shared, ticket, -⟩ := takeTicket_some (h := u) (q := q) hf hh
  have entered := tryEnter_ok (h := u) (src := .master (.link lk)) (d := d) he hp hc ticket
  have kept := kept_tryEnter u q (.master (.link lk)) d
  clear_value u
  rw [entered] at kept ⊢
  dsimp only at kept ⊢
  generalize place _ q _ (some tk) _ = v at kept
  have link : linkSt v l = linkSt u l := by rw [linkSt, kept.bortik, linkSt]
  generalize hw : onLink v l (fun x => { x with admitted := SMap.upd x.admitted q 0 nextSeq }) = w
  have counted : (linkSt w l).lastIn = n.toNat ∧ SMap.get (linkSt w l).admitted q 0 = nextSeq (admittedTo h l q) := by
    rw [← hw, linkSt_onLink_self, link]
    dsimp only
    rw [SMap.upd, SMap.get_set_self, taken.2, admittedTo]
    exact ⟨taken.1, rfl⟩
  have ready : linkSt (dispatch w) l = linkSt w l := by rw [linkSt, (kept_dispatch w).bortik, linkSt]
  rw [← ready] at counted
  have sent := settled_sendBlock (dispatch w) l (.ack (BitVec.ofNat 16 n.toNat))
  have last := congrArg LinkSt.lastIn sent
  have admitted := congrArg LinkSt.admitted sent
  refine ⟨Eq.trans last counted.1, ?_, ?_⟩
  · rw [sentBlock_sendBlock, BitVec.ofNat_toNat, BitVec.setWidth_eq]
  · rw [admittedTo]
    exact (congrArg (fun m => SMap.get m q 0) admitted).trans counted.2

/-! ### Credit and deliveries -/

theorem creditSend_sends (hs : lkState h l = 6) (he : qEn h q = true) (hk : qKind h q = 3) (hi : qIdx h q = l)
    (ht : SMap.get (linkSt h l).told q 0 ≠ qCred h q + 1) (hn : (linkSt h l).told.length < 256) :
    (linkSt (creditSend h l q) l).sentBlock = some (.credit (Fin.ofNat 16384 q) (BitVec.ofNat 13 (qCred h q)) (BitVec.ofNat 16 (admittedTo h l q))) := by
  have room : (SMap.get (linkSt h l).told q 0 == 0 && decide (256 ≤ (linkSt h l).told.length)) = false := by
    rw [decide_eq_false (Nat.not_le.2 hn), Bool.and_false]
  have owned : (qKind h q != 3) = false ∧ (qIdx h q != l) = false := by
    rw [hk, hi]
    exact ⟨rfl, bne_self_eq_false l⟩
  have goes : (lkState h l ≠ lkUp || !qEn h q || qKind h q != 3 || qIdx h q != l || SMap.get (linkSt h l).told q 0 == qCred h q + 1 ||
      (SMap.get (linkSt h l).told q 0 == 0 && decide (256 ≤ (linkSt h l).told.length))) = false := by
    rw [room, owned.1, owned.2, he, hs, beq_eq_false_iff_ne.2 ht]
    rfl
  unfold creditSend
  dsimp only
  rw [goes, if_neg Bool.false_ne_true, sentBlock_sendBlock]
  have same (x : Nat) : admittedTo (onLink h l fun y => { y with told := SMap.set y.told q x 0 }) l q = admittedTo h l q := by
    rw [admittedTo, linkSt_onLink_self, admittedTo]
  rw [same]

theorem linkDelivery_sends {e : QEntry} {dest : Nat} {a : Announced} (hl : l < 64) (he : qEn h q = true) (hd : qDeliver h q = true) (hk : qKind h q = 3)
    (hi : qIdx h q = l) (hs : lkState h l = 6) (hn : (linkSt h l).unacked.length < 64)
    (ho : ((h.queue q).entries.find? fun e => !((linkSt h l).unacked.any fun b => b.q == q && b.slot == e.slot)) = some e)
    (hdest : dest = h.rd (K.SCHED_Q_DEST_DEST q)) (hlt : dest < 16384) (hknown : SMap.get (linkSt h l).known dest none = some a)
    (hcred : partnerCredit a ≠ 0) :
    (linkSt (linkDelivery h q) l).unacked = (linkSt h l).unacked ++ [⟨(linkSt h l).nextOut, q, e.slot, dest⟩] ∧
    (linkSt (linkDelivery h q) l).sentBlock = some (.doorbell (Fin.ofNat 16384 dest) (BitVec.ofNat 16 (linkSt h l).nextOut) (slotDesc h q e.slot)) := by
  have own : qIdx h q % 64 = l := by
    rw [hi]
    exact Nat.mod_eq_of_lt hl
  have goes : (!qEn h q || !qDeliver h q || qKind h q != 3 || lkState h l != lkUp || decide (64 ≤ (linkSt h l).unacked.length)) = false := by
    rw [he, hd, hk, hs, decide_eq_false (Nat.not_le.2 hn)]
    rfl
  unfold linkDelivery
  dsimp only
  rw [own, goes, if_neg Bool.false_ne_true, ho]
  dsimp only
  rw [← hdest, if_neg (Nat.not_le.2 hlt), hknown]
  dsimp only
  rw [if_neg hcred]
  generalize hu : onKnown _ l dest _ = u
  have waits : (linkSt u l).unacked = (linkSt h l).unacked ++ [⟨(linkSt h l).nextOut, q, e.slot, dest⟩] := by
    rw [← hu, onKnown, linkSt_onLink_self, linkSt_onLink_self]
  have sent := settled_sendBlock u l (.doorbell (Fin.ofNat 16384 dest) (BitVec.ofNat 16 (linkSt h l).nextOut) (slotDesc h q e.slot))
  have unacked := congrArg LinkSt.unacked sent
  exact ⟨Eq.trans unacked waits, sentBlock_sendBlock ..⟩

/-! ### Beacons lost -/

theorem lost_leaves (hl : l < 64) (h : Hw) :
    (linkSt (linkEvent (onLink h l fun x => { x with beaconLost := true }) 6 l 0 0) l).beaconLost = true ∧
    lkState (linkEvent (onLink h l fun x => { x with beaconLost := true }) 6 l 0 0) l = lkState h l := by
  have event := kept_postEvent (onLink h l fun x => { x with beaconLost := true }) (q := 3) (by decide) (0 * 2 ^ 16 + l * 2 ^ 8 + 6) 0 0 0
  have same : linkSt (linkEvent (onLink h l fun x => { x with beaconLost := true }) 6 l 0 0) l = linkSt (onLink h l fun x => { x with beaconLost := true }) l := by
    rw [linkSt, linkEvent, event.bortik, linkSt]
  refine ⟨?_, (event.rd _ (offGate_linkState hl).sched)⟩
  rw [same, linkSt_onLink_self]

/-! ### Keys that change on a live link (R364) -/

/-- What a KEYSWITCH of a direction does before a KROLL that waits is looked at. -/
def switched (h : Hw) (l dir : Nat) : Hw :=
  let x := linkSt h l
  match dir, x.switchOut, x.switchIn with
  | 0, some true, _ => newBaseKey h l
  | 0, _, _ =>
    let e := (h.rd (K.BORTIK_LINK_STAT_EPOCH l) + 1) % 2 ^ 32
    let k := (linkCur h l).map fun k => deriveKey h l true k e
    (onLink h l fun x => { x with switchOut := none, keyOut := k, countOut := 0 }).wr (K.BORTIK_LINK_STAT_EPOCH l) e
  | _, _, some true => newBaseKey h l
  | _, _, _ =>
    let e := (x.epochIn + 1) % 2 ^ 32
    let k := (linkCur h l).map fun k => deriveKey h l false k e
    onLink h l fun x => { x with switchIn := none, keyIn := k, epochIn := e, countIn := 0 }

/-- Where no KROLL waits, a KEYSWITCH that stands is all. -/
theorem epochSwitch_eq {dir : Nat} (hs : lkState h l = 6)
    (hd : (if dir = 0 then (linkSt h l).switchOut else (linkSt h l).switchIn).isSome = true) (hr : (linkSt (switched h l dir) l).rollDue = false) :
    epochSwitch h l dir = switched h l dir := by
  have stands : (lkState h l ≠ lkUp || (if dir = 0 then (linkSt h l).switchOut.isNone else (linkSt h l).switchIn.isNone)) = false := by
    have none : (if dir = 0 then (linkSt h l).switchOut.isNone else (linkSt h l).switchIn.isNone) = false := by
      split at hd
      next hz => rw [if_pos hz, Option.isNone_eq_false_iff, hd]
      next hz => rw [if_neg hz, Option.isNone_eq_false_iff, hd]
    rw [hs, none]
    rfl
  have due : ((linkSt (switched h l dir) l).rollDue && (linkSt (switched h l dir) l).switchOut.isNone &&
      (linkSt (switched h l dir) l).switchIn.isNone) = false := by
    rw [hr]
    rfl
  unfold epochSwitch
  dsimp only
  rw [stands, if_neg Bool.false_ne_true]
  exact if_neg (fun hn => Bool.false_ne_true (due.symm.trans hn))

theorem switched_in (hi : (linkSt h l).switchIn = some false) : switched h l 1 = onLink h l fun x =>
    { x with switchIn := none, keyIn := (linkCur h l).map fun k => deriveKey h l false k (((linkSt h l).epochIn + 1) % 2 ^ 32),
             epochIn := ((linkSt h l).epochIn + 1) % 2 ^ 32, countIn := 0 } := by
  unfold switched
  dsimp only
  rw [hi]
  generalize (linkSt h l).switchOut = o
  cases o with
  | none => rfl
  | some b => cases b <;> rfl

theorem switched_out (ho : (linkSt h l).switchOut = some false) : switched h l 0 =
    (onLink h l fun x => { x with switchOut := none, keyOut := (linkCur h l).map fun k => deriveKey h l true k ((h.rd (K.BORTIK_LINK_STAT_EPOCH l) + 1) % 2 ^ 32), countOut := 0 }).wr
      (K.BORTIK_LINK_STAT_EPOCH l) ((h.rd (K.BORTIK_LINK_STAT_EPOCH l) + 1) % 2 ^ 32) := by
  unfold switched
  dsimp only
  rw [ho]
  generalize (linkSt h l).switchIn = i
  cases i <;> rfl

theorem switched_base {dir : Nat} (hd : (if dir = 0 then (linkSt h l).switchOut else (linkSt h l).switchIn) = some true) :
    switched h l dir = newBaseKey h l := by
  unfold switched
  cases dir with
  | zero =>
    rw [if_pos rfl] at hd
    dsimp only
    rw [hd]
    generalize (linkSt h l).switchIn = i
    cases i <;> rfl
  | succ n =>
    rw [if_neg (Nat.succ_ne_zero n)] at hd
    dsimp only
    rw [hd]
    generalize (linkSt h l).switchOut = o
    cases o <;> rfl

theorem epochSwitch_receives (hs : lkState h l = 6) (hi : (linkSt h l).switchIn = some false) (hr : (linkSt h l).rollDue = false) :
    (linkSt (epochSwitch h l 1) l).epochIn = ((linkSt h l).epochIn + 1) % 2 ^ 32 ∧ (linkSt (epochSwitch h l 1) l).switchIn = none ∧
    (linkSt (epochSwitch h l 1) l).keyOut = (linkSt h l).keyOut := by
  have quiet : (linkSt (switched h l 1) l).rollDue = false := by
    rw [switched_in hi, linkSt_onLink_self]
    exact hr
  rw [epochSwitch_eq hs (by rw [if_neg Nat.one_ne_zero, hi, Option.isSome_some]) quiet, switched_in hi, linkSt_onLink_self]
  exact ⟨rfl, rfl, rfl⟩

theorem epochSwitch_sends (hs : lkState h l = 6) (ho : (linkSt h l).switchOut = some false) (hr : (linkSt h l).rollDue = false) :
    (epochSwitch h l 0).rd (K.BORTIK_LINK_STAT_EPOCH l) = (h.rd (K.BORTIK_LINK_STAT_EPOCH l) + 1) % 2 ^ 32 ∧
    (linkSt (epochSwitch h l 0) l).switchOut = none ∧ (linkSt (epochSwitch h l 0) l).keyIn = (linkSt h l).keyIn := by
  have same (g : Hw) (j : Key) (v : Nat) : linkSt (g.wr j v) l = linkSt g l := rfl
  have quiet : (linkSt (switched h l 0) l).rollDue = false := by
    rw [switched_out ho, same, linkSt_onLink_self]
    exact hr
  rw [epochSwitch_eq hs (by rw [if_pos rfl, ho, Option.isSome_some]) quiet, switched_out ho, same, linkSt_onLink_self]
  exact ⟨(Hw.rd_wr_self ..).trans (Nat.mod_mod ..), rfl, rfl⟩

/-- A new base key takes effect in both directions. -/
theorem newBaseKey_leaves (hp : (linkPend h l).isSome = true) : linkCur (newBaseKey h l) l = linkPend h l ∧ linkPend (newBaseKey h l) l = none ∧
    (newBaseKey h l).rd (K.BORTIK_LINK_STAT_EPOCH l) = 0 ∧ (linkSt (newBaseKey h l) l).switchOut = none ∧ (linkSt (newBaseKey h l) l).switchIn = none ∧
    (linkSt (newBaseKey h l) l).rollDue = (linkSt h l).rollDue := by
  obtain ⟨k, hk⟩ := Option.isSome_iff_exists.1 hp
  unfold newBaseKey
  dsimp only
  rw [if_pos hp]
  obtain ⟨u, hu⟩ : ∃ u, u = onLink (promoteKey h l) l fun x => { x with switchOut := none, switchIn := none } := ⟨_, rfl⟩
  rw [← hu]
  have keys : u.keys = (setLinkKeys h l (linkPend h l) none).keys := by rw [hu]; rfl
  have cur : linkCur u l = some k := by rw [linkCur, keys, ← hk]; exact linkCur_setLinkKeys h l (linkPend h l) none
  have pend : linkPend u l = none := by rw [linkPend, keys]; exact linkPend_setLinkKeys h l (linkPend h l) none
  have cleared : (linkSt u l).switchOut = none ∧ (linkSt u l).switchIn = none ∧ (linkSt u l).rollDue = (linkSt h l).rollDue := by
    rw [hu, linkSt_onLink_self]
    exact ⟨rfl, rfl, rfl⟩
  clear hu
  have same (g : Hw) (j : Key) (v : Nat) : linkSt (g.wr j v) l = linkSt g l := rfl
  have keysSame := keys_freshKeys u l
  refine ⟨?_, ?_, ?_⟩
  · rw [linkCur, keysSame, hk]
    exact cur
  · rw [linkPend, keysSame]
    exact pend
  · unfold freshKeys
    rw [cur]
    dsimp only
    rw [same, linkSt_onLink_self]
    exact ⟨Hw.rd_wr_self .., cleared⟩

theorem epochSwitch_base {dir : Nat} (hs : lkState h l = 6) (hd : (if dir = 0 then (linkSt h l).switchOut else (linkSt h l).switchIn) = some true)
    (hp : (linkPend h l).isSome = true) (hr : (linkSt h l).rollDue = false) : linkCur (epochSwitch h l dir) l = linkPend h l ∧
      linkPend (epochSwitch h l dir) l = none ∧ (epochSwitch h l dir).rd (K.BORTIK_LINK_STAT_EPOCH l) = 0 ∧
      (linkSt (epochSwitch h l dir) l).switchOut = none ∧ (linkSt (epochSwitch h l dir) l).switchIn = none := by
  obtain ⟨cur, pend, epoch, out, into, due⟩ := newBaseKey_leaves hp
  have base := switched_base hd
  rw [epochSwitch_eq hs (by rw [hd, Option.isSome_some]) (by rw [base, due, hr]), base]
  exact ⟨cur, pend, epoch, out, into⟩

theorem epochSwitch_waits {dir : Nat} (hw : lkState h l ≠ 6 ∨ (if dir = 0 then (linkSt h l).switchOut else (linkSt h l).switchIn) = none) :
    epochSwitch h l dir = h := by
  have stops : (lkState h l ≠ lkUp || (if dir = 0 then (linkSt h l).switchOut.isNone else (linkSt h l).switchIn.isNone)) = true := by
    obtain hw | hw := hw
    · rw [decide_eq_true (show lkState h l ≠ lkUp from hw), Bool.true_or]
    · have none : (if dir = 0 then (linkSt h l).switchOut.isNone else (linkSt h l).switchIn.isNone) = true := by
        split at hw
        next hz => rw [if_pos hz, hw, Option.isNone_none]
        next hz => rw [if_neg hz, hw, Option.isNone_none]
      rw [none, Bool.or_true]
  unfold epochSwitch
  dsimp only
  rw [stops, if_pos rfl]

end

end Sys2Proof.Machine
end

section
/-!
PROOF. Remote seam channels (R371 to R373), and the statement about the links.
-/
namespace Sys2Proof.Machine
open Sys2Proof

section
variable {h t u : Hw} {l : Nat}

/-! ### Clocks the design leaves -/

theorem pllK_congr (a : DesignRan h t) (n i k : Nat) : pllK t n i k = pllK h n i k := by
  have pll (i : Nat) : t.pll n i = h.pll n i := by rw [Hw.pll, a.plls, Hw.pll]
  have ref (i : Nat) : t.rd (K.CLK_PLL_REF_REFSEL n i) = h.rd (K.CLK_PLL_REF_REFSEL n i) :=
    a.rd _ (by simp only [OffSched, K.CLK_PLL_REF_REFSEL]; omega)
  have d (i : Nat) : t.rd (K.CLK_PLL_MUL_D n i) = h.rd (K.CLK_PLL_MUL_D n i) := a.rd _ (by simp only [OffSched, K.CLK_PLL_MUL_D]; omega)
  have m (i : Nat) : t.rd (K.CLK_PLL_MUL_M n i) = h.rd (K.CLK_PLL_MUL_M n i) := a.rd _ (by simp only [OffSched, K.CLK_PLL_MUL_M]; omega)
  have o (i k : Nat) : t.rd (K.CLK_PLL_OUT_O n i k) = h.rd (K.CLK_PLL_OUT_O n i k) := a.rd _ (by simp only [OffSched, K.CLK_PLL_OUT_O]; omega)
  induction i generalizing k with
  | zero => simp only [pllK, pll, ref, d, m, o]
  | succ i ih => simp only [pllK, pll, ref, d, m, o, ih]

theorem netK_runDesign (h : Hw) (n m : Nat) : netK (runDesign h) n m = netK h n m := by
  have ran := designRan_runDesign h
  have cur : ((runDesign h).net n m).cur = (h.net n m).cur := (fields_of_control (ran.net n m)).1.2.1
  simp only [netK, sourceK, cur, pllK_congr ran]

/-! ### A channel's fill check -/

theorem rd_rsc (a : DesignRan h t) {k : Key} (hl : k.lo < 64) (ha : 0x1A00000 ≤ k.addr) : t.rd k = h.rd k :=
  a.rd k (by simp only [OffSched]; omega)

theorem rscOk_runDesign (h : Hw) (l : Nat) : rscOk (runDesign h) l = rscOk h l := by
  have ran := designRan_runDesign h
  have pdom : (runDesign h).rd (K.BORTIK_LINK_RSC_PDOM l) = h.rd (K.BORTIK_LINK_RSC_PDOM l) :=
    rd_rsc ran (by simp only [K.BORTIK_LINK_RSC_PDOM]; omega) (by simp only [K.BORTIK_LINK_RSC_PDOM]; omega)
  have tx : (runDesign h).rd (K.BORTIK_LINK_RSC_TXNET l) = h.rd (K.BORTIK_LINK_RSC_TXNET l) :=
    rd_rsc ran (by simp only [K.BORTIK_LINK_RSC_TXNET]; omega) (by simp only [K.BORTIK_LINK_RSC_TXNET]; omega)
  have rx : (runDesign h).rd (K.BORTIK_LINK_RSC_RXNET l) = h.rd (K.BORTIK_LINK_RSC_RXNET l) :=
    rd_rsc ran (by simp only [K.BORTIK_LINK_RSC_RXNET]; omega) (by simp only [K.BORTIK_LINK_RSC_RXNET]; omega)
  have kmin : (runDesign h).rd (K.BORTIK_LINK_RSCSTAT_KMIN l) = h.rd (K.BORTIK_LINK_RSCSTAT_KMIN l) :=
    rd_rsc ran (by simp only [K.BORTIK_LINK_RSCSTAT_KMIN]; omega) (by simp only [K.BORTIK_LINK_RSCSTAT_KMIN]; omega)
  have nets (d : Nat) : (runDesign h).rd (K.PDOM_NETS_NETS (l / 16) d) = h.rd (K.PDOM_NETS_NETS (l / 16) d) :=
    rd_rsc ran (by simp only [K.PDOM_NETS_NETS]; omega) (by simp only [K.PDOM_NETS_NETS]; omega)
  have mark : (linkSt (runDesign h) l).rscMark = (linkSt h l).rscMark := by
    have same := congrArg LinkSt.rscMark ((LinksSettled.runDesign h).link l)
    exact same
  simp only [rscOk, pdom, tx, rx, kmin, nets, mark, netK_runDesign]

/-- A channel whose fill check may end now. -/
structure Filling (h : Hw) (l : Nat) : Prop where
  up : lkState h l = 6
  en : h.bit (K.BORTIK_LINK_RSC_EN l) = true
  apart : h.bit (K.BORTIK_LINK_RSCSTAT_ALIGNED l) = false
  released : released h (l / 16) = true
  ok : rscOk h l = true

theorem Filling.runDesign (a : Filling h l) : Filling (runDesign h) l where
  up := (rd_rsc (designRan_runDesign h) (by simp only [K.BORTIK_LINK_STAT_STATE]; omega) (by simp only [K.BORTIK_LINK_STAT_STATE]; omega)).trans a.up
  en := by
    rw [Hw.bit, rd_rsc (designRan_runDesign h) (by simp only [K.BORTIK_LINK_RSC_EN]; omega) (by simp only [K.BORTIK_LINK_RSC_EN]; omega)]
    exact a.en
  apart := by
    rw [Hw.bit, rd_rsc (designRan_runDesign h) (by simp only [K.BORTIK_LINK_RSCSTAT_ALIGNED]; omega) (by simp only [K.BORTIK_LINK_RSCSTAT_ALIGNED]; omega)]
    exact a.apart
  released := by
    have same := congrArg DieSt.setReset ((designRan_runDesign h).die (l / 16))
    have same' : ((Machine.runDesign h).die (l / 16)).setReset = (h.die (l / 16)).setReset := same
    rw [Machine.released, same']
    exact a.released
  ok := (rscOk_runDesign h l).trans a.ok

theorem Filling.goes (a : Filling h l) : (lkState h l ≠ lkUp || !h.bit (K.BORTIK_LINK_RSC_EN l) || h.bit (K.BORTIK_LINK_RSCSTAT_ALIGNED l) ||
    !Machine.released h (l / 16) || !rscOk h l) = false := by
  rw [a.up, a.en, a.apart, a.released, a.ok]
  rfl

/-- A steady fill check aligns the channel with its DELTA. -/
theorem rscAligns_steady (hl : l < 64) (a : Filling h l) : (rscAligns h l true).rd (K.BORTIK_LINK_RSCSTAT_ALIGNED l) = 1 ∧
    (rscAligns h l true).rd (K.BORTIK_LINK_RSCSTAT_DELTA l) = chanDelta h l % 2 ^ 48 := by
  rw [rscAligns, a.goes, if_neg Bool.false_ne_true]
  extract_lets old delta u v w
  have aligned : v.rd (K.BORTIK_LINK_RSCSTAT_ALIGNED l) = 1 := (Hw.rd_wr_ne _ (by
    simp only [Key.id, K.BORTIK_LINK_RSCSTAT_ALIGNED, K.BORTIK_LINK_RSCSTAT_DELTA, ne_eq]
    omega) _).trans (Hw.rd_wr_self ..)
  have found : v.rd (K.BORTIK_LINK_RSCSTAT_DELTA l) = chanDelta h l % 2 ^ 48 := Hw.rd_wr_self ..
  clear_value v
  have logged : Kept v w := by
    unfold w
    split
    · exact kept_logEvent ..
    · exact .refl v
  have left := (GatesRan.of_kept logged).trans (.tryRelease w (w.rd (K.BORTIK_LINK_RSC_PDOM l)) (w.bit K.BORTIK_CTL_AUTORUN))
  rw [Bool.not_true, if_neg Bool.false_ne_true]
  refine ⟨(left.rd _ (offGate_of_bortik ?_ ?_)).trans aligned, (left.rd _ (offGate_of_bortik ?_ ?_)).trans found⟩
  · simp only [K.BORTIK_LINK_RSCSTAT_ALIGNED]; omega
  · simp only [K.BORTIK_LINK_RSCSTAT_ALIGNED]; omega
  · simp only [K.BORTIK_LINK_RSCSTAT_DELTA]; omega
  · simp only [K.BORTIK_LINK_RSCSTAT_DELTA]; omega

theorem rscAligns_unsteady (a : Filling h l) : (rscAligns h l false).rd (K.BORTIK_LINK_RSCSTAT_NOTSYNC l) = 1 ∧
    (rscAligns h l false).rd (K.BORTIK_LINK_RSCSTAT_ALIGNED l) = 0 := by
  rw [rscAligns, a.goes, if_neg Bool.false_ne_true, Bool.not_false, if_pos rfl]
  have apart : h.rd (K.BORTIK_LINK_RSCSTAT_ALIGNED l) = 0 := by
    have := a.apart
    rwa [Hw.bit, bne_eq_false_iff_eq] at this
  refine ⟨Hw.rd_wr_self .., (Hw.rd_wr_ne h ?_ 1).trans apart⟩
  simp only [Key.id, K.BORTIK_LINK_RSCSTAT_ALIGNED, K.BORTIK_LINK_RSCSTAT_NOTSYNC]
  omega

/-- A slip holds the channel. -/
theorem slip_leaves (hl : l < 64) (he : h.bit (K.BORTIK_LINK_RSC_EN l) = true) (ha : h.bit (K.BORTIK_LINK_RSCSTAT_ALIGNED l) = true) :
    (holdRsc (h.wr (K.BORTIK_LINK_RSCSTAT_SLIP l) 1) l 1).rd (K.BORTIK_LINK_RSCSTAT_SLIP l) = 1 ∧
    (holdRsc (h.wr (K.BORTIK_LINK_RSCSTAT_SLIP l) 1) l 1).rd (K.BORTIK_LINK_RSCSTAT_ALIGNED l) = 0 := by
  have slip : (h.wr (K.BORTIK_LINK_RSCSTAT_SLIP l) 1).rd (K.BORTIK_LINK_RSCSTAT_SLIP l) = 1 := Hw.rd_wr_self ..
  have en : (h.wr (K.BORTIK_LINK_RSCSTAT_SLIP l) 1).bit (K.BORTIK_LINK_RSC_EN l) = true := by
    rw [Hw.bit, Hw.rd_wr_ne h (by simp only [Key.id, K.BORTIK_LINK_RSCSTAT_SLIP, K.BORTIK_LINK_RSC_EN]; omega)]
    exact he
  have aligned : (h.wr (K.BORTIK_LINK_RSCSTAT_SLIP l) 1).bit (K.BORTIK_LINK_RSCSTAT_ALIGNED l) = true := by
    rw [Hw.bit, Hw.rd_wr_ne h (by simp only [Key.id, K.BORTIK_LINK_RSCSTAT_SLIP, K.BORTIK_LINK_RSCSTAT_ALIGNED]; omega)]
    exact ha
  generalize h.wr (K.BORTIK_LINK_RSCSTAT_SLIP l) 1 = u at slip en aligned
  refine ⟨(rd_holdRsc u l 1 (offGate_of_bortik ?_ ?_) ?_).trans slip, ?_⟩
  · simp only [K.BORTIK_LINK_RSCSTAT_SLIP]; omega
  · simp only [K.BORTIK_LINK_RSCSTAT_SLIP]; omega
  · simp only [Key.id, K.BORTIK_LINK_RSCSTAT_ALIGNED, K.BORTIK_LINK_RSCSTAT_SLIP, ne_eq]; omega
  · rw [holdRsc, en, aligned, if_neg (by decide)]
    extract_lets v
    have cleared : v.rd (K.BORTIK_LINK_RSCSTAT_ALIGNED l) = 0 := (Hw.rd_wr_self u (K.BORTIK_LINK_RSCSTAT_ALIGNED l) 0 :)
    clear_value v
    have held := (GatesRan.holdDomain v (v.rd (K.BORTIK_LINK_RSC_PDOM l))).trans (.linkEvent _ 8 l 0 1)
    refine (held.rd _ (offGate_of_bortik ?_ ?_)).trans cleared
    · simp only [K.BORTIK_LINK_RSCSTAT_ALIGNED]; omega
    · simp only [K.BORTIK_LINK_RSCSTAT_ALIGNED]; omega

end

end Sys2Proof.Machine
end

section
/-!
PROOF. The statement about the Bortik links (R347 to R377).
-/
namespace Sys2Proof.Machine
open Sys2Proof

section
variable {s : State} {h : Hw} {l : Link}

/-- In NOKEY nothing but a beacon acts. -/
theorem frameArrives_nokey {fr : BFrame} (hs : lkState h l.val = 5) (hf : fr.fixed = [])
    (hb : ∀ b ∈ fr.blocks, ∀ sr p c i d e r, b ≠ .beacon sr p c i d e r) : frameArrives h l fr = h := by
  have none : countSymbols h l.val fr = h := by
    rw [countSymbols, hf, List.zip_nil_right]
    rfl
  unfold frameArrives
  dsimp only
  rw [if_pos (show lkState h l.val = lkNokey from hs), none]
  refine List.foldlRecOn (motive := fun t => t = h) _ _ rfl fun t ht b hm => ?_
  split
  next sr p c i d e r => exact absurd rfl (hb _ hm sr p c i d e r)
  next => exact ht

theorem frameArrives_elsewhere {fr : BFrame} (h5 : lkState h l.val ≠ 5) (h6 : lkState h l.val ≠ 6) : frameArrives h l fr = h := by
  unfold frameArrives
  dsimp only
  rw [if_neg (show ¬ lkState h l.val = lkNokey from h5), if_pos (show lkState h l.val ≠ lkUp from h6)]

theorem linkComesUp (s : State) (l : Link) :
    (lkState s.hw l.val = 1 → lanesPowered s.hw l.val = true → Ends (exec (.linkSignalDetect l) s) fun t => lkState t.hw l.val = 2) ∧
    (lkState s.hw l.val = 2 → Ends (exec (.linkStep1Timeout l) s) fun t => t.hw.rd (K.BORTIK_LINK_STAT_DOWNCAUSE l.val) = 7 ∧
      lkState t.hw l.val = if linkEn s.hw l.val && lanesPowered s.hw l.val then 1 else 0) ∧
    (∀ a : Advert, lkState s.hw l.val = 2 → a.width.val = s.hw.rd (K.BORTIK_LINK_CFG_WIDTH l.val) → a.lanesOk = true →
      a.maxStep.val ≠ 0 → Ends (exec (.bortikAdvert l a) s) fun t => (linkSt t.hw l.val).partner = some a.serial ∧
        t.hw.rd (K.BORTIK_LINK_STAT_STEP l.val) = min 5 (min (ownMaxStep s.hw l.val) a.maxStep.val) ∧
        lkState t.hw l.val = if min 5 (min (ownMaxStep s.hw l.val) a.maxStep.val) = 1 then 4 else 3) ∧
    (∀ a : Advert, lkState s.hw l.val = 2 → a.width.val ≠ s.hw.rd (K.BORTIK_LINK_CFG_WIDTH l.val) →
      Ends (exec (.bortikAdvert l a) s) fun t => t.hw.rd (K.BORTIK_LINK_STAT_DOWNCAUSE l.val) = 8) ∧
    (∀ r : StepResult, lkState s.hw l.val = 3 →
      (stepPasses s.hw l.val (linkSt s.hw l.val).climb r = true → Ends (exec (.climbStepComplete l r) s) fun t =>
        if (linkSt s.hw l.val).climb < (linkSt s.hw l.val).agreed then
          lkState t.hw l.val = 3 ∧ (linkSt t.hw l.val).climb = (linkSt s.hw l.val).climb + 1
        else lkState t.hw l.val = 4) ∧
      (stepPasses s.hw l.val (linkSt s.hw l.val).climb r = false → Ends (exec (.climbStepComplete l r) s) fun t =>
        lkState t.hw l.val = 4 ∧ t.hw.rd (K.BORTIK_LINK_STAT_STEP l.val) = ((linkSt s.hw l.val).climb - 1) % 8)) ∧
    (lkState s.hw l.val = 4 → ((linkCur s.hw l.val).isSome = true → Ends (exec (.linkAlignComplete l) s) fun t =>
        lkState t.hw l.val = 6) ∧
      (linkCur s.hw l.val = none → linkPend s.hw l.val = none → Ends (exec (.linkAlignComplete l) s) fun t =>
        lkState t.hw l.val = 5)) ∧
    (lkState s.hw l.val = 5 → linkCur s.hw l.val = none → (linkPend s.hw l.val).isSome = true →
      Ends (exec (.linkKeyAvailable l) s) fun t => lkState t.hw l.val = 6 ∧ linkCur t.hw l.val = linkPend s.hw l.val ∧
        linkPend t.hw l.val = none) := by
  have locks := LanesSet.lock s.hw l.val true
  have cur : linkCur (setLaneLock s.hw l.val true) l.val = linkCur s.hw l.val := by rw [linkCur, locks.keys, linkCur]
  have pend : linkPend (setLaneLock s.hw l.val true) l.val = linkPend s.hw l.val := by rw [linkPend, locks.keys, linkPend]
  refine ⟨fun h1 hp => ⟨_, rfl, ?_⟩, fun h2 => ⟨_, rfl, ?_⟩, fun a h2 hw ho hm => ⟨_, rfl, advert_accepts h2 hw ho hm rfl⟩,
    fun a h2 hw => ⟨_, rfl, advert_width l.isLt h2 hw⟩,
    fun r h3 => ⟨fun hp => ⟨_, rfl, climbEnds_goesOn h3 hp⟩, fun hp => ⟨_, rfl, climbEnds_failed h3 hp⟩⟩,
    fun h4 => ⟨fun hc => ⟨_, rfl, ?_⟩, fun hc hn => ⟨_, rfl, ?_⟩⟩, fun h5 hc hp => ⟨_, rfl, ?_⟩⟩
  · have found : (lkState s.hw l.val = lkDetect && lanesPowered s.hw l.val) = true := by
      rw [h1, hp]
      rfl
    simp only [State.onHw]
    rw [found, if_pos rfl]
    exact state_setLk _ l.val (by decide)
  · simp only [State.onHw]
    rw [if_pos (show lkState s.hw l.val = lkStep1 from h2)]
    exact bringUpFails_leaves s.hw l.isLt (by decide)
  · simp only [State.onHw]
    rw [if_pos (show lkState s.hw l.val = lkAlign from h4)]
    exact tryKey_current l.isLt (by rw [cur, hc])
  · simp only [State.onHw]
    rw [if_pos (show lkState s.hw l.val = lkAlign from h4)]
    exact tryKey_none (by rw [cur, hc]) (by rw [pend, hn])
  · simp only [State.onHw]
    rw [if_pos (show lkState s.hw l.val = lkNokey from h5)]
    exact tryKey_pending l.isLt hc hp

/-- Frames of a link that is UP. -/
theorem frameHeard (l : Link) (fr : BFrame) (hs : lkState s.hw l.val = 6) :
    (fr.uncorr = true → Ends (exec (.bortikFrameReceive l fr) s) fun t => lkState t.hw l.val = 6 ∧
      t.hw.rd (K.BORTIK_LINK_CNT_UNCORR l.val) = min (2 ^ (K.BORTIK_LINK_CNT_UNCORR l.val).w - 1)
        (s.hw.rd (K.BORTIK_LINK_CNT_UNCORR l.val) + 1) ∧ (fr.rsc = false → hasData fr = false → t.hw.bortik = s.hw.bortik)) ∧
    (fr.uncorr = false → (fr.tagOk = false ∨ .badType ∈ fr.blocks) → (linkSt s.hw l.val).fails < 7 →
      Ends (exec (.bortikFrameReceive l fr) s) fun t => lkState t.hw l.val = 6 ∧
        (linkSt t.hw l.val).fails = (linkSt s.hw l.val).fails + 1 ∧ (linkSt t.hw l.val).lastIn = (linkSt s.hw l.val).lastIn) ∧
    (fr.uncorr = false → (fr.tagOk = false ∨ .badType ∈ fr.blocks) → 7 ≤ (linkSt s.hw l.val).fails →
      Ends (exec (.bortikFrameReceive l fr) s) fun t => lkState t.hw l.val ≤ 1 ∧
        t.hw.rd (K.BORTIK_LINK_STAT_DOWNCAUSE l.val) = 3) ∧
    (fr.uncorr = false → fr.tagOk = true → .badType ∉ fr.blocks → Ends (exec (.bortikFrameReceive l fr) s) fun t =>
      t.hw = fr.blocks.foldl (deliverBlock l) (onLink (countSymbols s.hw l.val fr) l.val fun x =>
        { x with fails := 0, countIn := x.countIn + (fr.blocks.map blocksOf).sum })) :=
  ⟨fun hu => ⟨_, rfl, frameArrives_uncorr hs hu⟩, fun hu hb h7 => ⟨_, rfl, (frameArrives_bad hs hu hb).1 h7⟩,
    fun hu hb h7 => ⟨_, rfl, (frameArrives_bad hs hu hb).2 h7⟩, fun hu ht hb => ⟨_, rfl, frameArrives_verified hs hu ht hb⟩⟩

/-- A frame of one block that acts: the block's own work, on the link that heard it. -/
theorem oneBlock {P : Hw → Prop} (hs : lkState s.hw l.val = 6) {b : BBlock} (hb : b ≠ .badType)
    (hp : P (deliverBlock l (heardBlock s.hw l.val b) b)) :
    Ends (exec (.bortikFrameReceive l ⟨false, true, false, [b], []⟩) s) fun t => P t.hw :=
  ⟨_, rfl, by rw [State.onHw, frameArrives_one hs hb]; exact hp⟩

theorem blocksHeard (l : Link) (fr : BFrame) (hs : lkState s.hw l.val = 6) :
    (∀ seq, fr = ⟨false, true, false, [.ack seq], []⟩ → Ends (exec (.bortikFrameReceive l fr) s) fun t =>
      (linkSt t.hw l.val).unacked = (linkSt s.hw l.val).unacked.filter fun b => !seqUpTo b.seq seq.toNat) ∧
    (∀ seq, fr = ⟨false, true, false, [.nak seq], []⟩ → Ends (exec (.bortikFrameReceive l fr) s) fun t =>
      t.hw.rd (K.BORTIK_LINK_CNT_REPLAY l.val) = min (2 ^ (K.BORTIK_LINK_CNT_REPLAY l.val).w - 1) (s.hw.rd (K.BORTIK_LINK_CNT_REPLAY l.val) +
        ((linkSt s.hw l.val).unacked.filter fun b => seqUpTo seq.toNat b.seq).length)) ∧
    (∀ seq check, fr = ⟨false, true, false, [.reject seq check], []⟩ → Ends (exec (.bortikFrameReceive l fr) s) fun t =>
      ∀ b ∈ (linkSt t.hw l.val).unacked, b.seq ≠ seq.toNat) ∧
    (∀ e nb, fr = ⟨false, true, false, [.keySwitch e nb], []⟩ → Ends (exec (.bortikFrameReceive l fr) s) fun t =>
      (linkSt t.hw l.val).switchIn = some nb) ∧
    (∀ v k w kmin, fr = ⟨false, true, false, [.rscMark v k w kmin], []⟩ → Ends (exec (.bortikFrameReceive l fr) s) fun t =>
      (linkSt t.hw l.val).rscMark = some (v.toNat, k.toNat, w.toNat, kmin.toNat)) ∧
    (∀ sr p c i d e r, fr = ⟨false, true, false, [.beacon sr p c i d e r], []⟩ → Ends (exec (.bortikFrameReceive l fr) s) fun t =>
      t.hw.rd (K.BORTIK_GAZ_SERIAL_SERIAL l.val) = sr.toNat ∧ t.hw.rd (K.BORTIK_GAZ_INFO_VALID l.val) = 1 ∧
      (linkSt t.hw l.val).beaconLost = false) ∧
    (∀ q c a, fr = ⟨false, true, false, [.credit q c a], []⟩ → Ends (exec (.bortikFrameReceive l fr) s) fun t =>
      (SMap.get (linkSt t.hw l.val).known q.val none).map (fun x => (x.cred, x.admitted)) = some (c.toNat, a.toNat)) := by
  refine ⟨fun seq hf => ?_, fun seq hf => ?_, fun seq check hf => ?_, fun e nb hf => ?_, fun v k w kmin hf => ?_,
    fun sr p c i d e r hf => ?_, fun q c a hf => ?_⟩
  · rw [hf]
    refine oneBlock (P := fun t => (linkSt t l.val).unacked = _) hs nofun ?_
    exact (unacked_ackArrives ..).trans (by rw [linkSt_heardBlock])
  · rw [hf]
    refine oneBlock (P := fun t => t.rd (K.BORTIK_LINK_CNT_REPLAY l.val) = _) hs nofun ?_
    refine (replays_replayFrom ..).trans ?_
    rw [linkSt_heardBlock]
    rfl
  · rw [hf]
    refine oneBlock (P := fun t => ∀ b ∈ (linkSt t l.val).unacked, b.seq ≠ seq.toNat) hs nofun ?_
    exact unacked_rejectArrives (heardBlock s.hw l.val (.reject seq check)) l.val seq.toNat check.toNat
  · rw [hf]
    refine oneBlock (P := fun t => (linkSt t l.val).switchIn = some nb) hs nofun ?_
    rw [deliverBlock, linkSt_onLink_self]
  · rw [hf]
    refine oneBlock (P := fun t => (linkSt t l.val).rscMark = _) hs nofun ?_
    exact mark_rscMarked ..
  · rw [hf]
    obtain ⟨gaz, lost⟩ := beaconArrives_leaves l.isLt (heardBlock s.hw l.val (.beacon sr p c i d e r)) sr p c i d e r
    exact oneBlock (P := fun t => t.rd (K.BORTIK_GAZ_SERIAL_SERIAL l.val) = sr.toNat ∧ t.rd (K.BORTIK_GAZ_INFO_VALID l.val) = 1 ∧
      (linkSt t l.val).beaconLost = false) hs nofun ⟨gaz.serial, gaz.valid, lost⟩
  · rw [hf]
    refine oneBlock (P := fun t => (SMap.get (linkSt t l.val).known q.val none).map (fun x => (x.cred, x.admitted)) = some (c.toNat, a.toNat)) hs nofun ?_
    exact known_creditArrives ..

theorem bellsHeard (l : Link) (fr : BFrame) (hs : lkState s.hw l.val = 6) :
    (∀ (q : Queue) (n : BitVec 16) (d : Desc), fr = ⟨false, true, false, [.doorbell q n d], []⟩ →
      n.toNat = nextSeq (linkSt s.hw l.val).lastIn → qEn s.hw q.val = true → permitted s.hw (.master (.link l)) q.val = true →
      qCred s.hw q.val ≠ 0 → (heldBy s.hw q.val < s.hw.rd (K.SCHED_Q_CFG_TRES q.val) ∨ 0 < sharedFree s.hw) →
      s.hw.sched.held.length < 65536 → Ends (exec (.bortikFrameReceive l fr) s) fun t => (linkSt t.hw l.val).lastIn = n.toNat ∧
        (linkSt t.hw l.val).sentBlock = some (.ack n) ∧ admittedTo t.hw l.val q.val = nextSeq (admittedTo s.hw l.val q.val)) ∧
    (∀ (q : Queue) (n : BitVec 16) (d : Desc), fr = ⟨false, true, false, [.doorbell q n d], []⟩ →
      n.toNat = (linkSt s.hw l.val).lastIn → Ends (exec (.bortikFrameReceive l fr) s) fun t =>
        (linkSt t.hw l.val).lastIn = n.toNat ∧ (linkSt t.hw l.val).sentBlock = some (.ack n) ∧ t.hw.mem = s.hw.mem ∧
        t.hw.sched = s.hw.sched) := by
  refine ⟨fun q n d hf hn he hp hc ht hh => ?_, fun q n d hf hn => ?_⟩
  · rw [hf]
    refine oneBlock (P := fun t => (linkSt t l.val).lastIn = n.toNat ∧ (linkSt t l.val).sentBlock = some (.ack n) ∧
      admittedTo t l.val q.val = nextSeq (admittedTo s.hw l.val q.val)) hs nofun ?_
    have link := linkSt_heardBlock s.hw l.val (.doorbell q n d)
    have same : admittedTo (heardBlock s.hw l.val (.doorbell q n d)) l.val q.val = admittedTo s.hw l.val q.val := by
      rw [admittedTo, link, admittedTo]
    rw [← same]
    exact bellArrives_next (h := heardBlock s.hw l.val (.doorbell q n d)) (by rw [link]; exact hn) he hp hc ht hh
  · rw [hf]
    refine oneBlock (P := fun t => (linkSt t l.val).lastIn = n.toNat ∧ (linkSt t l.val).sentBlock = some (.ack n) ∧ t.mem = s.hw.mem ∧
      t.sched = s.hw.sched) hs nofun ?_
    have link := linkSt_heardBlock s.hw l.val (.doorbell q n d)
    have last : n.toNat = (linkSt (heardBlock s.hw l.val (.doorbell q n d)) l.val).lastIn := by
      rw [link]
      exact hn
    rw [deliverBlock, bellArrives_old d last]
    have sent := congrArg LinkSt.lastIn (settled_sendBlock (heardBlock s.hw l.val (.doorbell q n d)) l.val (.ack n))
    exact ⟨Eq.trans sent last.symm, sentBlock_sendBlock .., rfl, rfl⟩

end

end Sys2Proof.Machine
end

section
/-!
PROOF. The statement about the Bortik links, assembled (R347 to R377).
-/
namespace Sys2Proof.Machine
open Sys2Proof

section
variable {s : State}

/-- What a link sends, and its keys, beacons and channel. -/
theorem linkSends (s : State) (l : Link) : (5 ≤ lkState s.hw l.val → Ends (exec (.beaconSend l) s) fun t =>
      (linkSt t.hw l.val).sentBlock = some (ownBeacon s.hw l.val) ∧ t.hw.csr = s.hw.csr) ∧
    (5 ≤ lkState s.hw l.val → (linkSt s.hw l.val).beaconLost = false → Ends (exec (.beaconLostTimeout l) s) fun t =>
      (linkSt t.hw l.val).beaconLost = true ∧ lkState t.hw l.val = lkState s.hw l.val) ∧
    (lkState s.hw l.val = 6 → Ends (exec (.replayTimeout l) s) fun t =>
      t.hw.rd (K.BORTIK_LINK_CNT_REPLAY l.val) = min (2 ^ (K.BORTIK_LINK_CNT_REPLAY l.val).w - 1)
        (s.hw.rd (K.BORTIK_LINK_CNT_REPLAY l.val) + (linkSt s.hw l.val).unacked.length)) := by
  refine ⟨fun h5 => ⟨_, rfl, ?_⟩, fun h5 hb => ⟨_, rfl, ?_⟩, fun h6 => ⟨_, rfl, ?_⟩⟩
  · simp only [State.onHw]
    rw [if_pos (show lkNokey ≤ lkState s.hw l.val from h5)]
    exact ⟨sentBlock_sendBlock .., rfl⟩
  · have live : (decide (lkState s.hw l.val < lkNokey) || (linkSt s.hw l.val).beaconLost) = false := by
      rw [hb, decide_eq_false (Nat.not_lt.2 (show lkNokey ≤ lkState s.hw l.val from h5))]
      rfl
    simp only [State.onHw]
    rw [live, if_neg Bool.false_ne_true]
    exact lost_leaves l.isLt s.hw
  · simp only [State.onHw]
    rw [if_pos (show lkState s.hw l.val = lkUp from h6), replays_replayFrom, List.filter_true]

theorem rscBlockHeard (l : Link) (cyc : Fin 128) (i : Fin 32) (x : BitVec 240) (hs : lkState s.hw l.val = 6)
    (he : s.hw.bit (K.BORTIK_LINK_RSC_EN l.val) = true) : Ends (exec (.bortikRscBlock l cyc i x) s) fun t =>
      SMap.get (linkSt t.hw l.val).rscBuf (32 * cyc.val + i.val) 0 = x.toNat ∧ t.hw.csr = s.hw.csr := by
  refine ⟨_, rfl, ?_⟩
  have up : (lkState s.hw l.val = lkUp && s.hw.bit (K.BORTIK_LINK_RSC_EN l.val)) = true := by
    rw [hs, he]
    rfl
  simp only [State.onHw]
  rw [up, if_pos rfl, linkSt_onLink_self]
  exact ⟨SMap.get_set_self .., rfl⟩

theorem creditTold (l : Link) (q : Queue) (hs : lkState s.hw l.val = 6) (he : qEn s.hw q.val = true) (hk : qKind s.hw q.val = 3)
    (hi : qIdx s.hw q.val = l.val) (ht : SMap.get (linkSt s.hw l.val).told q.val 0 ≠ qCred s.hw q.val + 1)
    (hn : (linkSt s.hw l.val).told.length < 256) : Ends (exec (.creditSend l q) s) fun t => (linkSt t.hw l.val).sentBlock =
      some (.credit q (BitVec.ofNat 13 (qCred s.hw q.val)) (BitVec.ofNat 16 (admittedTo s.hw l.val q.val))) := by
  refine ⟨_, rfl, ?_⟩
  have same : Fin.ofNat 16384 q.val = q := Fin.ext (Nat.mod_eq_of_lt q.isLt)
  have sent := creditSend_sends hs he hk hi ht hn
  rw [same] at sent
  exact sent

theorem rscAligned (l : Link) (a : Filling s.hw l.val) :
    (∀ delta, chanDelta (runDesign s.hw) l.val = delta.toNat → Ends (exec (.rscAlignComplete l true delta) s) fun t =>
      t.hw.rd (K.BORTIK_LINK_RSCSTAT_ALIGNED l.val) = 1 ∧ t.hw.rd (K.BORTIK_LINK_RSCSTAT_DELTA l.val) = delta.toNat) ∧
    (∀ delta, Ends (exec (.rscAlignComplete l false delta) s) (fun t => t.hw.rd (K.BORTIK_LINK_RSCSTAT_NOTSYNC l.val) = 1 ∧
      t.hw.rd (K.BORTIK_LINK_RSCSTAT_ALIGNED l.val) = 0)) := by
  refine ⟨fun delta hd => ⟨_, rfl, ?_⟩, fun delta => ⟨_, rfl, ?_⟩⟩
  · have found : (true && chanDelta (runDesign s.hw) l.val != delta.toNat) = false := by
      rw [hd, bne_self_eq_false]
      rfl
    obtain ⟨aligned, value⟩ := rscAligns_steady l.isLt a.runDesign
    simp only [State.onHw]
    rw [found, if_neg Bool.false_ne_true]
    exact ⟨aligned, value.trans (by rw [hd, Nat.mod_eq_of_lt delta.isLt])⟩
  · simp only [State.onHw]
    rw [Bool.false_and, if_neg Bool.false_ne_true]
    exact rscAligns_unsteady a.runDesign

end

/-- Settles O58: bring-up, lanes, frames and their blocks, what a link sends, its keys, and its remote seam channel. -/
theorem bortikLinks : Obligations.BortikLinks := by
  unfold Obligations.BortikLinks
  refine ⟨linkComesUp, fun s k m ho => ⟨⟨_, rfl, onHw_same ?_⟩, ⟨_, rfl, onHw_same ?_⟩⟩,
    fun s l k m ho => ⟨fun h5 => ⟨_, rfl, ?_⟩, fun h6 => ⟨_, rfl, measureMargin_leaves k.isLt ho h6 m⟩⟩,
    fun s l hn => ⟨⟨_, rfl, ?_⟩, fun h5 => ⟨_, rfl, ?_⟩⟩, fun s l fr hs => ?_, fun s l fr => ⟨fun h5 h6 => ⟨_, rfl, onHw_same ?_⟩, fun h5 hf hb => ⟨_, rfl, onHw_same ?_⟩⟩,
    fun s l => ?_⟩
  · rw [ho]
  · rw [measureMargin, ho]
  · simp only [State.onHw]
    rw [ho]
    dsimp only
    rw [if_neg (Nat.not_lt.2 (show lkNokey ≤ lkState s.hw l.val from h5))]
    exact loseLock_leaves k.isLt s.hw l.val
  · simp only [State.onHw]
    rw [if_neg (by rwa [List.isEmpty_iff])]
    exact regain_leaves s.hw l.val
  · simp only [State.onHw]
    rw [if_neg (by rwa [List.isEmpty_iff])]
    exact endLink_leaves l.isLt h5 (by decide)
  · obtain ⟨uncorr, bad, ends, verified⟩ := frameHeard l fr hs
    obtain ⟨ack, nak, reject, key, mark, beacon, credit⟩ := blocksHeard l fr hs
    obtain ⟨next, old⟩ := bellsHeard l fr hs
    exact ⟨uncorr, bad, ends, verified, ack, nak, reject, key, mark, beacon, credit, next, old⟩
  · exact frameArrives_elsewhere h5 h6
  · exact frameArrives_nokey h5 hf hb
  · obtain ⟨beacon, lost, replay⟩ := linkSends s l
    refine ⟨beacon, lost, replay, fun dir hw => ⟨_, rfl, onHw_same ?_⟩, fun h6 hi hr => ⟨_, rfl, epochSwitch_receives h6 hi hr⟩,
      fun dir h6 hd hp hr => ⟨_, rfl, ?_⟩, fun h6 ho hr => ⟨_, rfl, epochSwitch_sends h6 ho hr⟩,
      fun cyc i x h6 he => rscBlockHeard l cyc i x h6 he, fun q h6 he hk hi ht hn => creditTold l q h6 he hk hi ht hn,
      fun q e dest a he hd hk hi h6 hn ho hdest hlt hknown hcred => ⟨_, rfl, linkDelivery_sends l.isLt he hd hk hi h6 hn ho hdest hlt hknown hcred⟩,
      fun h6 he ha hr ho => rscAligned l ⟨h6, he, ha, hr, ho⟩, fun he ha => ⟨_, rfl, ?_⟩⟩
    · exact epochSwitch_waits (by simpa only [← Fin.val_eq_zero_iff] using hw)
    · exact epochSwitch_base h6 (by simpa only [← Fin.val_eq_zero_iff] using hd) hp hr
    · simp only [State.onHw]
      rw [ha, if_pos rfl]
      exact slip_leaves l.isLt he ha

end Sys2Proof.Machine
end

section
/-!
PROOF. What the design, the gates and the states of groups leave of the seams (R114 to R125, R132).
-/
namespace Sys2Proof.Machine
open Sys2Proof

/-! ### Views of a seam -/

section
variable {β : Type}

/-- A view of a seam that its slots, its spare swaps and its messages do not enter. -/
structure OffSlots (p : SeamSt → β) : Prop where
  same : ∀ x sent shown mute swaps frozen msg,
    p { x with sent := sent, shown := shown, mute := mute, swaps := swaps, frozen := frozen, msg := msg } = p x

namespace OffSlots
variable {p : SeamSt → β} (hp : OffSlots p)
include hp

theorem sent (x : SeamSt) (a : List (Nat × List (Nat × Nat))) : p { x with sent := a } = p x := hp.same x a x.shown x.mute x.swaps x.frozen x.msg
theorem shown (x : SeamSt) (a : List (Nat × Nat)) : p { x with shown := a } = p x := hp.same x x.sent a x.mute x.swaps x.frozen x.msg
theorem mute (x : SeamSt) (a : List (Nat × Nat)) : p { x with mute := a } = p x := hp.same x x.sent x.shown a x.swaps x.frozen x.msg
theorem lost (x : SeamSt) (a : List (Nat × Nat)) (b : List Nat) (c : Option SeamMsg) : p { x with swaps := a, frozen := b, msg := c } = p x :=
  hp.same x x.sent x.shown x.mute a b c
theorem swaps (x : SeamSt) (a : List (Nat × Nat)) (b : List Nat) : p { x with swaps := a, frozen := b } = p x := hp.lost x a b x.msg

theorem slotsAfter (h : Hw) (c : Nat) (e : Edges) (k : Nat) : p (slotsAfter h c e k) = p (h.seamSt k) := by
  unfold Machine.slotsAfter
  extract_lets keep
  refine List.foldlRecOn (motive := fun st => p st = p (h.seamSt k)) _ _ rfl fun st hst x _ => ?_
  obtain ⟨n, d, b⟩ := x
  dsimp -zeta only
  extract_lets tx rx vTx vRx due mute u
  have muted : p u = p st := by
    unfold u
    split
    · exact hp.mute ..
    · rfl
  clear_value u
  refine List.foldlRecOn (motive := fun y => p y = p (h.seamSt k)) _ _ (muted.trans hst) fun y hy g _ => ?_
  extract_lets key v
  have heard : p v = p y := by
    unfold v
    split
    · split
      · exact hp.same y _ _ y.mute y.swaps y.frozen y.msg
      · split
        · exact hp.shown ..
        · rfl
    · rfl
  clear_value v
  split
  · exact (hp.sent ..).trans (heard.trans hy)
  · exact heard.trans hy

end OffSlots

/-- Every seam looks the same in a view. -/
structure SeamsKept (p : SeamSt → β) (h t : Hw) : Prop where
  view : ∀ k, p (t.seamSt k) = p (h.seamSt k)

namespace SeamsKept
variable {p : SeamSt → β} {h t u : Hw}

theorem refl (h : Hw) : SeamsKept p h h := ⟨fun _ => rfl⟩
theorem trans (a : SeamsKept p h t) (b : SeamsKept p t u) : SeamsKept p h u := ⟨fun k => (b.view k).trans (a.view k)⟩
theorem of_eq (e : t.seam = h.seam) : SeamsKept p h t := ⟨fun k => by rw [Hw.seamSt, e, Hw.seamSt]⟩
theorem of_kept (a : Kept h t) : SeamsKept p h t := of_eq a.seam
theorem foldl {α : Type} {f : Hw → α → Hw} {l : List α} (hf : ∀ h, ∀ x ∈ l, SeamsKept p h (f h x)) (h : Hw) : SeamsKept p h (l.foldl f h) :=
  List.foldlRecOn (motive := SeamsKept p h) l f (refl h) fun t ht x hx => ht.trans (hf t x hx)
theorem wr (h : Hw) (k : Key) (v : Nat) : SeamsKept p h (h.wr k v) := of_eq rfl
theorem onSeam (h : Hw) (k : Nat) {f : SeamSt → SeamSt} (hf : ∀ x, p (f x) = p x) : SeamsKept p h (h.onSeam k f) := by
  refine ⟨fun j => ?_⟩
  by_cases hj : j = k
  · rw [hj, seamSt_onSeam_self, hf]
  · rw [Hw.seamSt, Hw.onSeam, SMap.get_put_ne _ hj, Hw.seamSt]

/-- The work at the queues and of answers leaves the seams. -/
theorem queueRel (p : SeamSt → β) : QueueRel (SeamsKept p) where
  refl := refl
  trans := trans
  kept := of_kept
  onDie _ _ _ := of_eq rfl
  wr := wr
  gal _ _ := of_eq rfl
  guest _ _ := of_eq rfl

section
variable (hp : OffSlots p)
include hp

theorem edgeStep (h : Hw) (e : Edges) : SeamsKept p h (edgeStep h e) := by
  unfold Machine.edgeStep
  simp only
  refine trans ?_ (foldl (fun t (r : Nat × Nat × Nat × Nat × List Nat) hr => of_kept (kept_countRam t ?_ r.2)) _)
  · refine ⟨fun k => ?_⟩
    refine List.foldlRecOn (motive := fun t : SMap SeamSt => p (SMap.get t k {}) = p (h.seamSt k)) _ _ rfl fun t ht j _ => ?_
    by_cases hj : k = j
    · rw [hj, SMap.get_put_self, hp.slotsAfter]
    · rw [SMap.get_put_ne _ hj, ht]
  · obtain ⟨n, hn, hr⟩ := List.mem_flatMap.1 hr
    split at hr
    · cases hr
    · obtain ⟨_, -, hr⟩ := List.mem_flatMap.1 hr
      obtain ⟨_, -, hr⟩ := List.mem_flatMap.1 hr
      obtain ⟨_, -, rfl⟩ := List.mem_map.1 hr
      exact List.mem_range.1 hn

theorem runDesign (h : Hw) : SeamsKept p h (runDesign h) := by
  unfold Machine.runDesign
  split
  · exact refl h
  · refine trans ?_ (foldl (fun t r _ => edgeStep hp t _) _)
    exact of_eq rfl

theorem snapSeam (h : Hw) (k : Nat) : SeamsKept p h (snapSeam h k) := by
  unfold Machine.snapSeam
  split
  · exact refl h
  · extract_lets c
    have drawn : SeamsKept p h h.draw.2 := of_eq rfl
    refine drawn.trans (foldl (fun g d _ => foldl (fun g i _ => ?_) g) _)
    split
    · exact onSeam g k fun _ => hp.shown ..
    · exact refl g

theorem gateClosed (h : Hw) (n m : Nat) : SeamsKept p h (gateClosed h n m) := by
  unfold Machine.gateClosed
  extract_lets u v
  have fell : SeamsKept p u v := by
    unfold v
    split
    · exact edgeStep hp ..
    · exact refl u
  exact (runDesign hp h).trans (fell.trans (of_eq rfl))

theorem closeGate (h : Hw) (n m : Nat) : SeamsKept p h (closeGate h n m) := by
  unfold Machine.closeGate
  split
  · exact refl h
  · split
    · exact (runDesign hp h).trans (of_eq rfl)
    · exact gateClosed hp h n m

theorem openGate (h : Hw) (n m : Nat) : SeamsKept p h (openGate h n m) := (runDesign hp h).trans (of_eq rfl)

omit hp in
theorem refreshTooFast (h : Hw) (d : Nat) : SeamsKept p h (refreshTooFast h d) := foldl (fun _ _ _ => wr ..) h

omit hp in
theorem refreshKmin (h : Hw) (d : Nat) : SeamsKept p h (refreshKmin h d) := by
  unfold Machine.refreshKmin
  extract_lets v w
  have written : SeamsKept p h ((List.range 4).foldl (fun h n => h.wr (K.PDOM_STAT_KMIN n d) w) h) := foldl (fun _ _ _ => wr ..) h
  exact written.trans (refreshTooFast ..)

theorem holdDomain (h : Hw) (d : Nat) : SeamsKept p h (holdDomain h d) := by
  unfold Machine.holdDomain
  extract_lets nets u old v w
  have closed : SeamsKept p h u := foldl (fun g x _ => closeGate hp g _ _) h
  have noted : SeamsKept p u v := ⟨fun _ => rfl⟩
  have held : SeamsKept p v w := foldl (fun _ _ _ => wr ..) v
  exact closed.trans (noted.trans (held.trans (refreshTooFast w d)))

theorem tryRelease (h : Hw) (d : Nat) (autorun : Bool) : SeamsKept p h (tryRelease h d autorun) := by
  unfold Machine.tryRelease
  extract_lets a ready u v
  split
  · have opened : SeamsKept p h u := by
      unfold u
      split
      · exact foldl (fun g x _ => openGate hp g _ _) h
      · exact refl h
    have noted : SeamsKept p u v := ⟨fun _ => rfl⟩
    have released : SeamsKept p v ((List.range 4).foldl (fun h n => h.wr (K.PDOM_STAT_HELD n d) 0) v) := foldl (fun _ _ _ => wr ..) v
    exact opened.trans (noted.trans (released.trans (refreshTooFast ..)))
  · exact refl h

omit hp in
theorem setBindGroups (h : Hw) (n d b st : Nat) : SeamsKept p h (setBindGroups h n d b st) := foldl (fun _ _ _ => wr ..) h

theorem unalign (h : Hw) (n d b : Nat) : SeamsKept p h (unalign h n d b) :=
  (runDesign hp h).trans ((onSeam _ n fun _ => hp.sent ..).trans ((wr ..).trans (setBindGroups ..)))

theorem holdSeamDomains (h : Hw) (n : Nat) : SeamsKept p h (holdSeamDomains h n) :=
  foldl (fun g _ _ => (unalign hp g ..).trans (holdDomain hp ..)) h

omit hp in
theorem holdGroups (h : Hw) (k : Nat) (q : Nat → Nat → Bool) : SeamsKept p h (holdGroups h k q) := of_eq (seam_holdGroups ..)

omit hp in
theorem refreshOffline (h : Hw) (n : Nat) : SeamsKept p h (refreshOffline h n) := foldl (fun _ _ _ => wr ..) h

omit hp in
theorem refreshRet (h : Hw) (k : Nat) : SeamsKept p h (refreshRet h k) := (wr ..).trans (wr ..)

omit hp in
theorem refreshGroups (h : Hw) (k : Nat) : SeamsKept p h (refreshGroups h k) := by
  unfold Machine.refreshGroups
  refine foldl (fun g d _ => foldl (fun g i _ => ?_) g) h
  split
  · exact wr ..
  · exact (wr ..).trans (wr ..)

theorem failSeam (h : Hw) (k : Nat) : SeamsKept p h (failSeam h k) := by
  unfold Machine.failSeam
  extract_lets u v w
  have snapped : SeamsKept p h u := (runDesign hp h).trans (snapSeam hp ..)
  have failed : SeamsKept p u v := (onSeam u k fun x => hp.lost x [] [] none).trans (wr ..)
  have held : SeamsKept p v w := holdGroups ..
  have all := snapped.trans (failed.trans held)
  split
  · exact all.trans (holdSeamDomains hp ..)
  · exact all.trans (refreshOffline ..)

end

end SeamsKept
end

end Sys2Proof.Machine
end

section
/-!
PROOF. What the states of groups, failures and retirements leave of the registers of the seams (R128, R132, R140, R144, R145).
-/
namespace Sys2Proof.Machine
open Sys2Proof

/-! ### Registers off the groups -/

/-- A register that the states of groups, bindings and domains do not enter. -/
structure OffGroups (k : Key) : Prop where
  gate : OffGate k
  group : ∀ s d g, d < 2 → g < 128 → k.id ≠ (K.SEAM_GRP_STAT_GSTATE s d g).id ∧ k.id ≠ (K.SEAM_GRP_STAT_AMODE s d g).id
  aligned : ∀ n d b, d < 2 → b < 16 → k.id ≠ (K.SEAM_BIND_STAT_ALIGNED n d b).id
  kmin : ∀ n d, k.id ≠ (K.PDOM_STAT_KMIN n d).id
  offline : ∀ n p, n < 4 → p < 8 → k.id ≠ (K.FPORT_STAT_OFFLINE n p).id

/-- Groups changed their states, and what follows from that at bindings, domains and ports. -/
structure GroupsMoved (h t : Hw) : Prop where
  rd : ∀ k, OffGroups k → t.rd k = h.rd k

namespace GroupsMoved
variable {h t u : Hw}

theorem refl (h : Hw) : GroupsMoved h h := ⟨fun _ _ => rfl⟩
theorem trans (a : GroupsMoved h t) (b : GroupsMoved t u) : GroupsMoved h u := ⟨fun k hk => (b.rd k hk).trans (a.rd k hk)⟩
theorem of_gates (a : GatesRan h t) : GroupsMoved h t := ⟨fun k hk => a.rd k hk.gate⟩
theorem of_kept (a : Kept h t) : GroupsMoved h t := of_gates (.of_kept a)
theorem of_csr (e : t.csr = h.csr) : GroupsMoved h t := ⟨fun k _ => Hw.rd_congr e k⟩
theorem wr (h : Hw) {k : Key} (hk : ∀ j, OffGroups j → j.id ≠ k.id) (v : Nat) : GroupsMoved h (h.wr k v) :=
  ⟨fun j hj => Hw.rd_wr_ne h (hk j hj) v⟩
theorem foldl {α : Type} {f : Hw → α → Hw} {l : List α} (hf : ∀ h, ∀ x ∈ l, GroupsMoved h (f h x)) (h : Hw) : GroupsMoved h (l.foldl f h) :=
  List.foldlRecOn (motive := GroupsMoved h) l f (refl h) fun t ht x hx => ht.trans (hf t x hx)

theorem gstate (h : Hw) (s : Nat) {d g : Nat} (hd : d < 2) (hg : g < 128) (v : Nat) : GroupsMoved h (h.wr (K.SEAM_GRP_STAT_GSTATE s d g) v) :=
  wr h (fun _ hj => (hj.group s d g hd hg).1) v
theorem amode (h : Hw) (s : Nat) {d g : Nat} (hd : d < 2) (hg : g < 128) (v : Nat) : GroupsMoved h (h.wr (K.SEAM_GRP_STAT_AMODE s d g) v) :=
  wr h (fun _ hj => (hj.group s d g hd hg).2) v

theorem mem_seamGroups {k g : Nat} (hg : g ∈ List.range (seamGroups k)) : g < 128 := by
  have := List.mem_range.1 hg
  unfold seamGroups at this
  split at this <;> omega

theorem mem_bindGroups {n d b g : Nat} (hg : g ∈ bindGroups h n d b) : g < 128 := List.mem_range.1 (List.mem_filter.1 hg).1

theorem snapSeam (h : Hw) (k : Nat) : GroupsMoved h (snapSeam h k) := by
  unfold Machine.snapSeam
  split
  · exact refl h
  · extract_lets c
    have drawn : GroupsMoved h h.draw.2 := of_csr rfl
    refine drawn.trans (foldl (fun g d _ => foldl (fun g i _ => ?_) g) _)
    split
    · exact of_csr rfl
    · exact refl g

theorem setBindGroups (h : Hw) (n : Nat) {d : Nat} (hd : d < 2) (b st : Nat) : GroupsMoved h (setBindGroups h n d b st) :=
  foldl (fun g _ hi => gstate g n hd (mem_bindGroups (List.mem_filter.1 hi).1) st) h

theorem unalign (h : Hw) (n : Nat) {d b : Nat} (hd : d < 2) (hb : b < 16) : GroupsMoved h (unalign h n d b) := by
  have ran : GroupsMoved h (runDesign h) := of_gates (.runDesign h)
  have sent (g : Hw) (f : SeamSt → SeamSt) : GroupsMoved g (g.onSeam n f) := of_csr rfl
  exact ran.trans ((sent ..).trans ((wr _ (fun _ hj => hj.aligned n d b hd hb) 0).trans (setBindGroups _ n hd b _)))

theorem holdSeamDomains (h : Hw) (n : Nat) : GroupsMoved h (holdSeamDomains h n) :=
  foldl (fun g x hx => by
    obtain ⟨m, d, b⟩ := x
    obtain ⟨-, hd, hb⟩ := mem_allBindings (List.mem_filter.1 hx).1
    exact (unalign g m hd hb).trans (of_gates (.holdDomain ..))) h

theorem holdGroups (h : Hw) (k : Nat) (q : Nat → Nat → Bool) : GroupsMoved h (holdGroups h k q) := by
  unfold Machine.holdGroups
  refine foldl (fun g d hd => foldl (fun g i hi => ?_) g) h
  split
  · exact refl g
  · exact gstate g k (List.mem_range.1 hd) (mem_seamGroups hi) _

theorem refreshOffline (h : Hw) {n : Nat} (hn : n < 4) : GroupsMoved h (refreshOffline h n) :=
  foldl (fun g p hp => wr g (fun _ hj => hj.offline n p hn (List.mem_range.1 hp)) _) h

theorem refreshGroups (h : Hw) (k : Nat) : GroupsMoved h (refreshGroups h k) := by
  unfold Machine.refreshGroups
  refine foldl (fun g d hd => foldl (fun g i hi => ?_) g) h
  have hd2 := List.mem_range.1 hd
  have hg := mem_seamGroups hi
  split
  · exact gstate g k hd2 hg _
  · exact (amode g k hd2 hg _).trans (gstate _ k hd2 hg _)

theorem refreshKmin (h : Hw) (d : Nat) : GroupsMoved h (refreshKmin h d) := by
  unfold Machine.refreshKmin
  extract_lets v w
  have written : GroupsMoved h ((List.range 4).foldl (fun h n => h.wr (K.PDOM_STAT_KMIN n d) w) h) :=
    foldl (fun g n _ => wr g (fun _ hj => hj.kmin n d) w) h
  exact written.trans (of_gates (.refreshTooFast ..))

end GroupsMoved

/-! ### Registers of a seam -/

section
variable {h t u : Hw} {k : Nat}

theorem offGate_of_lo {j : Key} (ha : 0x1004000 ≤ j.addr) (hl : j.lo < 64) (h3 : j.lo ≠ 3) (h4 : j.lo ≠ 4) : OffGate j := by
  obtain ⟨a, lo, w, r⟩ := j
  dsimp only at ha hl h3 h4
  refine ⟨?_, fun n m _ => ?_, fun n d => ⟨?_, ?_⟩⟩
  · simp only [OffSched]
    omega
  · simp only [Key.id, K.CLK_NET_STAT_HALTED, ne_eq]
    omega
  · simp only [Key.id, K.PDOM_STAT_TOOFAST, ne_eq]
    omega
  · simp only [Key.id, K.PDOM_STAT_HELD, ne_eq]
    omega

theorem seamBase_ge (k : Nat) : 0x2800000 ≤ seamBase k := by
  unfold seamBase
  split <;> omega

/-- A field of SEAM.STAT, but for those at the bits of HELD, TOOFAST and KMIN. -/
theorem offGroups_stat {lo w r : Nat} (hl : lo < 64) (h3 : lo ≠ 3) (h4 : lo ≠ 4) (h12 : lo ≠ 12) : OffGroups ⟨seamBase k + 8, lo, w, r⟩ where
  gate := offGate_of_lo (Nat.le_trans (by decide) (Nat.le_trans (seamBase_ge k) (Nat.le_add_right ..))) hl h3 h4
  group s d g hd hg := by
    constructor
    · simp only [Key.id, K.SEAM_GRP_STAT_GSTATE, seamBase, ne_eq]
      split <;> split <;> omega
    · simp only [Key.id, K.SEAM_GRP_STAT_AMODE, seamBase, ne_eq]
      split <;> split <;> omega
  aligned n d b hd hb := by
    simp only [Key.id, K.SEAM_BIND_STAT_ALIGNED, seamBase, ne_eq]
    split <;> omega
  kmin n d := by
    simp only [Key.id, K.PDOM_STAT_KMIN, ne_eq]
    omega
  offline n p hn hp := by
    simp only [Key.id, K.FPORT_STAT_OFFLINE, seamBase, ne_eq]
    split <;> omega

theorem offGroups_state (k : Nat) : OffGroups (K.SEAM_STAT_STATE k) := offGroups_stat (by decide) (by decide) (by decide) (by decide)

theorem GroupsMoved.state (a : GroupsMoved h t) (k : Nat) : seamState t k = seamState h k := a.rd _ (offGroups_state k)

theorem state_wr_self (h : Hw) (k : Nat) {v : Nat} (hv : v < 16) : seamState (h.wr (K.SEAM_STAT_STATE k) v) k = v :=
  (Hw.rd_wr_self ..).trans (Nat.mod_eq_of_lt hv)

/-- A seam that fails is FAILED. -/
theorem state_failSeam (h : Hw) {k : Nat} (hk : k < 8) : seamState (failSeam h k) k = 9 := by
  unfold failSeam
  extract_lets u v w
  have failed : seamState v k = 9 := state_wr_self _ k (by decide)
  have held : seamState w k = 9 := ((GroupsMoved.holdGroups v k _).state k).trans failed
  split
  · exact ((GroupsMoved.holdSeamDomains w k).state k).trans held
  · exact ((GroupsMoved.refreshOffline w (by omega)).state k).trans held

theorem awaitPlan_leaves (h : Hw) (k : Nat) : seamState (awaitPlan h k) k = 6 ∧ ((awaitPlan h k).seamSt k).planDue = true := by
  unfold awaitPlan
  have due : ((h.onSeam k fun s => { s with planDue := true }).seamSt k).planDue = true := by rw [seamSt_onSeam_self]
  generalize (h.onSeam k fun s => { s with planDue := true }) = u at due
  have same : (holdGroups (u.wr (K.SEAM_STAT_STATE k) 6) k fun d g => amode h k d g == 1).seamSt k = u.seamSt k := by
    rw [Hw.seamSt, seam_holdGroups, Hw.seamSt]
    rfl
  refine ⟨((GroupsMoved.holdGroups _ k _).state k).trans (state_wr_self u k (by decide)), ?_⟩
  rw [same]
  exact due

end

end Sys2Proof.Machine
end

section
/-!
PROOF. Lanes that are measured, spared and lost (R136 to R140).
-/
namespace Sys2Proof.Machine
open Sys2Proof

/-! ### Registers off a lane's failure -/

/-- A register that a failing lane, and the seam that fails with it, do not write. -/
structure OffFailing (k : Key) : Prop where
  groups : OffGroups k
  stat : ∀ s, k.id ≠ (K.SEAM_STAT_STATE s).id ∧ k.id ≠ (K.SEAM_STAT_RET0 s).id ∧ k.id ≠ (K.SEAM_STAT_RET1 s).id
  spare : ∀ s d g, d < 2 → g < 128 → k.id ≠ (K.SEAM_GRP_STAT_SPARE s d g).id

/-- Lanes failed. -/
structure LanesFailed (h t : Hw) : Prop where
  rd : ∀ k, OffFailing k → t.rd k = h.rd k

namespace LanesFailed
variable {h t u : Hw}

theorem refl (h : Hw) : LanesFailed h h := ⟨fun _ _ => rfl⟩
theorem trans (a : LanesFailed h t) (b : LanesFailed t u) : LanesFailed h u := ⟨fun k hk => (b.rd k hk).trans (a.rd k hk)⟩
theorem of_groups (a : GroupsMoved h t) : LanesFailed h t := ⟨fun k hk => a.rd k hk.groups⟩
theorem of_csr (e : t.csr = h.csr) : LanesFailed h t := of_groups (.of_csr e)
theorem wr (h : Hw) {k : Key} (hk : ∀ j, OffFailing j → j.id ≠ k.id) (v : Nat) : LanesFailed h (h.wr k v) :=
  ⟨fun j hj => Hw.rd_wr_ne h (hk j hj) v⟩
theorem state (h : Hw) (s v : Nat) : LanesFailed h (h.wr (K.SEAM_STAT_STATE s) v) := wr h (fun _ hj => (hj.stat s).1) v
theorem refreshRet (h : Hw) (k : Nat) : LanesFailed h (refreshRet h k) := (wr h (fun _ hj => (hj.stat k).2.1) _).trans (wr _ (fun _ hj => (hj.stat k).2.2) _)

theorem failSeam (h : Hw) {k : Nat} (hk : k < 8) : LanesFailed h (failSeam h k) := by
  unfold Machine.failSeam
  extract_lets u v w
  have snapped : LanesFailed h u := of_groups ((GroupsMoved.of_gates (.runDesign h)).trans (.snapSeam ..))
  have swapped (f : SeamSt → SeamSt) : LanesFailed u (u.onSeam k f) := of_csr rfl
  have failed : LanesFailed u v := (swapped _).trans (state ..)
  have held : LanesFailed v w := of_groups (.holdGroups ..)
  have all := snapped.trans (failed.trans held)
  split
  · exact all.trans (of_groups (.holdSeamDomains ..))
  · exact all.trans (of_groups (.refreshOffline _ (by omega)))

theorem awaitPlan (h : Hw) (k : Nat) : LanesFailed h (awaitPlan h k) := by
  have due (f : SeamSt → SeamSt) : LanesFailed h (h.onSeam k f) := of_csr rfl
  exact (due _).trans ((state ..).trans (of_groups (.holdGroups ..)))

theorem retireGroup (h : Hw) {k d g : Nat} (hk : k < 8) (hd : d < 2) (hg : g < 128) : LanesFailed h (retireGroup h k d g) := by
  unfold Machine.retireGroup
  split
  · exact refl h
  · extract_lets u v w
    have ran : GroupsMoved h (Machine.runDesign h) := .of_gates (.runDesign h)
    have retired : LanesFailed h u := of_groups (ran.trans ((GroupsMoved.snapSeam ..).trans (.gstate _ k hd hg _)))
    have swapped : LanesFailed u v := of_csr rfl
    have counted : LanesFailed v w := refreshRet ..
    have all := retired.trans (swapped.trans counted)
    split
    · exact all.trans (awaitPlan ..)
    · split
      · exact all.trans (failSeam _ hk)
      · exact all

theorem laneFails (h : Hw) {k : Nat} (hk : k < 8) (l : LaneRef) : LanesFailed h (laneFails h k l) := by
  unfold Machine.laneFails
  extract_lets d g spare u
  have hd : d < 2 := l.dir.isLt
  have hg : g < 128 := l.g.isLt
  split
  · exact refl h
  · have marked : LanesFailed h u := of_csr rfl
    split
    · exact marked.trans (retireGroup u hk hd hg)
    · split
      · split
        · exact marked.trans (retireGroup u hk hd hg)
        · exact marked.trans (wr u (fun _ hj => hj.spare k d g hd hg) 1)
      · split
        · have swaps (f : SeamSt → SeamSt) : LanesFailed u (u.onSeam k f) := of_csr rfl
          exact marked.trans ((swaps _).trans (of_groups (.gstate _ k hd hg _)))
        · exact marked.trans (retireGroup u hk hd hg)

theorem portsOffline (h : Hw) (n : Nat) {k : Key} (hk : OffSched k) (hg : 0x2000000 ≤ k.addr) (h0 : k.lo ≠ 0) (h16 : k.lo ≠ 16) : (portsOffline h n).rd k = h.rd k := by
  unfold Machine.portsOffline
  refine List.foldlRecOn (motive := fun t : Hw => t.rd k = h.rd k) _ _ rfl fun t ht p _ => ?_
  refine ((Answered.answers ..).rd k hk (.inr hg)).trans ?_
  have low := hk.1
  split
  · exact ht
  · refine (rd_setFport ?_ ?_).trans ht
    · simp only [Key.id, K.FPORT_STAT_INB, ne_eq]; omega
    · simp only [Key.id, K.FPORT_STAT_OUTB, ne_eq]; omega

theorem hubGone (h : Hw) (s : Nat) {k : Key} (hk : OffSched k) (hg : 0x2000000 ≤ k.addr) (h0 : k.lo ≠ 0) (h16 : k.lo ≠ 16) : (hubGone h s).rd k = h.rd k := by
  unfold Machine.hubGone
  split
  · exact portsOffline h _ hk hg h0 h16
  · rfl

end LanesFailed

/-! ### Lanes of a seam -/

/-- The lanes, and the same without what a failure marks. -/
def SeamSt.laneTable (x : SeamSt) : List (Nat × LaneSt) := x.lanes

theorem offSlots_lanes : OffSlots SeamSt.laneTable := ⟨fun _ _ _ _ _ _ _ => rfl⟩

section
variable {h t u : Hw} {k : Nat}

theorem SeamsKept.lane (a : SeamsKept SeamSt.laneTable h t) (k i : Nat) : t.lane k i = h.lane k i := by
  have same : (t.seamSt k).lanes = (h.seamSt k).lanes := a.view k
  rw [Hw.lane, same, Hw.lane]

theorem seamsKept_awaitPlan (h : Hw) (k : Nat) : SeamsKept SeamSt.laneTable h (awaitPlan h k) :=
  (SeamsKept.onSeam h k (f := fun s => { s with planDue := true }) fun _ => rfl).trans ((SeamsKept.wr ..).trans (.holdGroups ..))

theorem seamsKept_retireGroup (h : Hw) (k d g : Nat) : SeamsKept SeamSt.laneTable h (retireGroup h k d g) := by
  unfold retireGroup
  split
  · exact .refl h
  · extract_lets u v w
    have retired : SeamsKept SeamSt.laneTable h u :=
      (SeamsKept.runDesign offSlots_lanes h).trans ((SeamsKept.snapSeam offSlots_lanes ..).trans (.wr ..))
    have swapped : SeamsKept SeamSt.laneTable u v := .onSeam u k fun _ => rfl
    have counted : SeamsKept SeamSt.laneTable v w := .refreshRet ..
    have all := retired.trans (swapped.trans counted)
    split
    · exact all.trans (seamsKept_awaitPlan ..)
    · split
      · exact all.trans (.failSeam offSlots_lanes ..)
      · exact all

theorem lane_onLane_self (h : Hw) (k i : Nat) (f : LaneSt → LaneSt) : (h.onLane k i f).lane k i = f (h.lane k i) := by
  rw [Hw.lane, Hw.onLane, seamSt_onSeam_self, SMap.get_set_self]

theorem lane_onLane_ne (h : Hw) (k : Nat) {i j : Nat} (hj : j ≠ i) (f : LaneSt → LaneSt) : (h.onLane k i f).lane k j = h.lane k j := by
  rw [Hw.lane, Hw.onLane, seamSt_onSeam_self, SMap.get_set_ne _ hj, Hw.lane]

/-- A lane that fails is marked, and no other lane changes. -/
theorem laneFails_lane (h : Hw) (k : Nat) (l : LaneRef) (hr : isRetired h k l.dir.val l.g.val = false) (hf : (h.lane k (laneNo l)).failed = false) :
    SeamsKept SeamSt.laneTable (h.onLane k (laneNo l) fun x => { x with failed := true }) (laneFails h k l) := by
  unfold laneFails
  extract_lets d g spare u
  have inService : (isRetired h k d g || (h.lane k (laneNo l)).failed) = false := by
    rw [hf, Bool.or_false]
    exact hr
  rw [inService, if_neg Bool.false_ne_true]
  split
  · exact seamsKept_retireGroup ..
  · split
    · split
      · exact seamsKept_retireGroup ..
      · exact .wr ..
    · split
      · refine SeamsKept.trans (.onSeam u k (f := fun s => { s with swaps := _ }) fun _ => ?_) (.wr ..)
        rfl
      · exact seamsKept_retireGroup ..

theorem seamsKept_hubGone {β : Type} (p : SeamSt → β) (h : Hw) (k : Nat) : SeamsKept p h (hubGone h k) := by
  unfold hubGone
  split
  · unfold portsOffline
    refine .foldl (fun g i _ => ?_) h
    have start : SeamsKept p g (if (fport g (k - 4) i).inTags.isEmpty then g else setFport g (k - 4) i { fport g (k - 4) i with inTags := [] }) := by
      split
      · exact .refl g
      · exact .of_eq rfl
    exact start.trans ((SeamsKept.queueRel p).foldl (fun g (x : Nat × GReq) => (SeamsKept.queueRel p).answer g x.2 .offline 0) _ _)
  · exact .refl h

end

end Sys2Proof.Machine
end

section
/-!
PROOF. The eye monitor, a finished spare swap, and an abrupt failure (R136 to R138).
-/
namespace Sys2Proof.Machine
open Sys2Proof

/-! ### Margins -/

/-- What the eye monitor shows of a lane. -/
def LaneSt.eye (x : LaneSt) : Nat × Nat := (x.margin, x.minMargin)
/-- What it shows of every lane of a seam. -/
def SeamSt.eyes (x : SeamSt) (i : Nat) : Nat × Nat := (SMap.get x.lanes i {}).eye

theorem offSlots_eyes : OffSlots SeamSt.eyes := ⟨fun _ _ _ _ _ _ _ => rfl⟩

section
variable {h t u : Hw} {k : Nat}

theorem SeamsKept.eyes (a : SeamsKept SeamSt.laneTable h t) : SeamsKept SeamSt.eyes h t := by
  refine ⟨fun k => funext fun i => ?_⟩
  have same : (t.seamSt k).lanes = (h.seamSt k).lanes := a.view k
  rw [SeamSt.eyes, same, SeamSt.eyes]

theorem SeamsKept.eye (a : SeamsKept SeamSt.eyes h t) (k i : Nat) : (t.lane k i).eye = (h.lane k i).eye := congrFun (a.view k) i

theorem seamsKept_onLane (h : Hw) (k i : Nat) {f : LaneSt → LaneSt} (hf : ∀ x, (f x).eye = x.eye) : SeamsKept SeamSt.eyes h (h.onLane k i f) := by
  refine ⟨fun s => funext fun j => ?_⟩
  by_cases hs : s = k
  · subst hs
    by_cases hj : j = i
    · subst hj
      exact (congrArg LaneSt.eye (lane_onLane_self h s j f)).trans (hf _)
    · exact congrArg LaneSt.eye (lane_onLane_ne h s hj f)
  · rw [Hw.seamSt, Hw.onLane, Hw.onSeam, SMap.get_put_ne _ hs, Hw.seamSt]

theorem seamsKept_laneFails (h : Hw) (k : Nat) (l : LaneRef) : SeamsKept SeamSt.eyes h (laneFails h k l) := by
  cases hs : isRetired h k l.dir.val l.g.val || (h.lane k (laneNo l)).failed with
  | true =>
    unfold laneFails
    dsimp only
    rw [hs, if_pos rfl]
    exact .refl h
  | false =>
    obtain ⟨hr, hf⟩ := Bool.or_eq_false_iff.1 hs
    have marked : SeamsKept SeamSt.eyes h (h.onLane k (laneNo l) fun x => { x with failed := true }) := seamsKept_onLane h k _ fun _ => rfl
    exact marked.trans (laneFails_lane h k l hr hf).eyes

theorem seamsKept_abruptFail (h : Hw) (k : Nat) (l : LaneRef) (b : Bool) : SeamsKept SeamSt.eyes h (abruptFail h k l b) := by
  unfold abruptFail
  extract_lets u v w
  have frozen : SeamsKept SeamSt.eyes h u := ((SeamsKept.runDesign offSlots_eyes h).trans (.snapSeam offSlots_eyes ..)).trans
    (.onSeam _ k (f := fun s => { s with frozen := laneNo l :: s.frozen }) fun _ => rfl)
  have shown : SeamsKept SeamSt.eyes u v := (SeamsKept.wr ..).trans (.wr ..)
  have locked : SeamsKept SeamSt.eyes v w := seamsKept_onLane v k _ fun _ => rfl
  exact frozen.trans (shown.trans (locked.trans ((SeamsKept.of_kept (kept_logEvent ..)).trans (seamsKept_laneFails ..))))

theorem kept_lane (a : Kept h t) (k i : Nat) : t.lane k i = h.lane k i := (SeamsKept.of_kept (p := SeamSt.laneTable) a).lane k i

theorem seamsKept_eyeWarn (h : Hw) (k : Nat) (l : LaneRef) (m : Nat) : SeamsKept SeamSt.eyes h (eyeWarn h k l m) := by
  unfold eyeWarn
  extract_lets warn x
  split
  · split
    · exact .refl h
    · have warned : SeamsKept SeamSt.eyes h (h.onLane k (laneNo l) fun x => { x with warned := true }) := seamsKept_onLane h k _ fun _ => rfl
      exact warned.trans ((SeamsKept.of_kept (kept_logEvent ..)).trans (.of_kept (kept_postOpen _ (by decide))))
  · split
    · exact seamsKept_onLane h k _ fun _ => rfl
    · exact .refl h

theorem measureLane_self (h : Hw) (k : Nat) (x : EyeSample) :
    ((measureLane h k x).lane k (laneNo x.ln)).eye = (x.margin.val, min (h.lane k (laneNo x.ln)).minMargin x.margin.val) := by
  unfold measureLane
  extract_lets i low u v
  have noted : (u.lane k i).eye = (x.margin.val, min (h.lane k i).minMargin x.margin.val) := by
    unfold u
    rw [lane_onLane_self]
    rfl
  have packed : SeamsKept SeamSt.eyes u v := by
    unfold v
    split
    · exact .wr ..
    · exact .refl u
  exact ((packed.trans (seamsKept_eyeWarn ..)).eye k i).trans noted

theorem measureLane_ne (h : Hw) (k : Nat) (x : EyeSample) {j : Nat} (hj : j ≠ laneNo x.ln) : ((measureLane h k x).lane k j).eye = (h.lane k j).eye := by
  unfold measureLane
  extract_lets i low u v
  have other : u.lane k j = h.lane k j := lane_onLane_ne h k hj _
  have packed : SeamsKept SeamSt.eyes u v := by
    unfold v
    split
    · exact .wr ..
    · exact .refl u
  exact ((packed.trans (seamsKept_eyeWarn ..)).eye k j).trans (congrArg LaneSt.eye other)

/-- Samples of a lane that agree leave their margin, and the lowest seen. -/
theorem measured (xs : List EyeSample) (h : Hw) (k i v : Nat) (hv : ∀ y ∈ xs, laneNo y.ln = i → y.margin.val = v) :
    ((xs.foldl (fun h x => measureLane h k x) h).lane k i).eye =
      if ∃ y ∈ xs, laneNo y.ln = i then (v, min (h.lane k i).minMargin v) else (h.lane k i).eye := by
  induction xs generalizing h with
  | nil => rw [if_neg (by simp)]; rfl
  | cons y xs ih =>
    have rest := ih (measureLane h k y) fun z hz => hv z (List.mem_cons_of_mem _ hz)
    rw [List.foldl_cons, rest]
    by_cases hy : laneNo y.ln = i
    · have now := measureLane_self h k y
      rw [hy, hv y (List.mem_cons_self ..) hy] at now
      have least : ((measureLane h k y).lane k i).minMargin = min (h.lane k i).minMargin v := congrArg Prod.snd now
      have here : ∃ z ∈ y :: xs, laneNo z.ln = i := ⟨y, List.mem_cons_self .., hy⟩
      rw [if_pos here, least, now]
      split
      · rw [Nat.min_assoc, Nat.min_self]
      · rfl
    · have now := measureLane_ne h k y (j := i) (fun e => hy e.symm)
      have least : ((measureLane h k y).lane k i).minMargin = (h.lane k i).minMargin := congrArg Prod.snd now
      have same : (∃ z ∈ y :: xs, laneNo z.ln = i) ↔ ∃ z ∈ xs, laneNo z.ln = i := by simp [hy]
      rw [least, now]
      simp only [same]

/-- Lanes that are measured show their margins, whatever failed with them. -/
theorem measureLanes_shows (h : Hw) (k i v : Nat) (xs : List EyeSample) (hv : ∀ y ∈ xs, laneNo y.ln = i → y.margin.val = v)
    (hx : ∃ y ∈ xs, laneNo y.ln = i ∧ laneExists k y.ln = true) (hf : (h.lane k i).failed = false) :
    ((measureLanes h k xs).lane k i).eye = (v, min (h.lane k i).minMargin v) := by
  unfold measureLanes
  extract_lets ys u
  have agree : ∀ y ∈ ys, laneNo y.ln = i → y.margin.val = v := fun y hy => hv y (List.mem_filter.1 hy).1
  have there : ∃ y ∈ ys, laneNo y.ln = i := by
    obtain ⟨y, hy, hi, he⟩ := hx
    exact ⟨y, List.mem_filter.2 ⟨hy, by rw [he, hi, hf]; rfl⟩, hi⟩
  have noted := measured ys h k i v agree
  rw [if_pos there] at noted
  have dealt : SeamsKept SeamSt.eyes u ((((ys.filter fun x => laneAbrupt u k x || laneFailing u k x).foldr placeSample []).foldl
      (fun g x => if laneAbrupt u k x then abruptFail g k x.ln false else laneFails g k x.ln) u)) := .foldl (fun g x _ => by
    split
    · exact seamsKept_abruptFail ..
    · exact seamsKept_laneFails ..) u
  exact (dealt.eye k i).trans noted

/-! ### A spare takes over -/

theorem ne_of_mem_erase {α : Type} (m : SMap α) (k : Nat) : ∀ e ∈ SMap.erase m k, e.1 ≠ k := by
  induction m with
  | nil => intro e he; cases he
  | cons x m ih =>
    intro e he
    rw [SMap.erase] at he
    split at he
    · exact ih e he
    next hk =>
      rcases List.mem_cons.1 he with rfl | he
      · exact hk
      · exact ih e he

/-- What a finished swap does. -/
def swapped (h : Hw) (k d g l : Nat) : Hw :=
  let h := (runDesign h).onSeam k fun x => { x with
    swaps := SMap.erase x.swaps (d * 128 + g)
    frozen := x.frozen.filter (· != d * 2304 + 17 * g + l) }
  let h := (h.wr (K.SEAM_GRP_STAT_SPARE k d g) 2).wr (K.SEAM_GRP_STAT_SPARELANE k d g) l
  h.wr (K.SEAM_GRP_STAT_GSTATE k d g) (groupState h k d g)

theorem swapped_leaves (h : Hw) (k d g : Nat) {l : Nat} (hl : l < 16) : (swapped h k d g l).rd (K.SEAM_GRP_STAT_SPARE k d g) = 2 ∧
    (swapped h k d g l).rd (K.SEAM_GRP_STAT_SPARELANE k d g) = l ∧ ∀ e ∈ ((swapped h k d g l).seamSt k).swaps, e.1 ≠ d * 128 + g := by
  unfold swapped
  extract_lets u v
  have spare : v.rd (K.SEAM_GRP_STAT_SPARE k d g) = 2 :=
    (Hw.rd_wr_ne _ (by simp only [Key.id, K.SEAM_GRP_STAT_SPARE, K.SEAM_GRP_STAT_SPARELANE, ne_eq]; omega) l).trans (Hw.rd_wr_self ..)
  have lane : v.rd (K.SEAM_GRP_STAT_SPARELANE k d g) = l := (Hw.rd_wr_self ..).trans (Nat.mod_eq_of_lt hl)
  have gone : ∀ e ∈ (u.seamSt k).swaps, e.1 ≠ d * 128 + g := by
    unfold u
    rw [seamSt_onSeam_self]
    exact ne_of_mem_erase _ _
  refine ⟨(Hw.rd_wr_ne v ?_ _).trans spare, (Hw.rd_wr_ne v ?_ _).trans lane, gone⟩
  · simp only [Key.id, K.SEAM_GRP_STAT_SPARE, K.SEAM_GRP_STAT_GSTATE, ne_eq]; omega
  · simp only [Key.id, K.SEAM_GRP_STAT_SPARELANE, K.SEAM_GRP_STAT_GSTATE, ne_eq]; omega

/-! ### An abrupt failure -/

theorem offFailing_lossy (k : Nat) : OffFailing (K.SEAM_STAT_LOSSY k) where
  groups := offGroups_stat (by decide) (by decide) (by decide) (by decide)
  stat s := by
    simp only [Key.id, K.SEAM_STAT_LOSSY, K.SEAM_STAT_STATE, K.SEAM_STAT_RET0, K.SEAM_STAT_RET1, ne_eq]
    omega
  spare s d g hd hg := by
    simp only [Key.id, K.SEAM_STAT_LOSSY, K.SEAM_GRP_STAT_SPARE, ne_eq]
    omega

theorem offFailing_grpLossy (k d g : Nat) : OffFailing (K.SEAM_GRP_STAT_LOSSY k d g) where
  groups := {
    gate := offGate_of_lo (Nat.le_trans (by decide) (Nat.le_trans (seamBase_ge k) (by simp only [K.SEAM_GRP_STAT_LOSSY]; omega)))
      (by simp only [K.SEAM_GRP_STAT_LOSSY]; omega) (by simp only [K.SEAM_GRP_STAT_LOSSY]; omega) (by simp only [K.SEAM_GRP_STAT_LOSSY]; omega)
    group := fun s e i _ _ => by
      simp only [Key.id, K.SEAM_GRP_STAT_LOSSY, K.SEAM_GRP_STAT_GSTATE, K.SEAM_GRP_STAT_AMODE, ne_eq]
      omega
    aligned := fun n e b _ _ => by
      simp only [Key.id, K.SEAM_GRP_STAT_LOSSY, K.SEAM_BIND_STAT_ALIGNED, ne_eq]
      omega
    kmin := fun n e => by
      simp only [Key.id, K.SEAM_GRP_STAT_LOSSY, K.PDOM_STAT_KMIN, ne_eq]
      omega
    offline := fun n p _ _ => by
      simp only [Key.id, K.SEAM_GRP_STAT_LOSSY, K.FPORT_STAT_OFFLINE, ne_eq]
      omega }
  stat s := by
    simp only [Key.id, K.SEAM_GRP_STAT_LOSSY, K.SEAM_STAT_STATE, K.SEAM_STAT_RET0, K.SEAM_STAT_RET1, ne_eq]
    omega
  spare s e i _ _ := by
    simp only [Key.id, K.SEAM_GRP_STAT_LOSSY, K.SEAM_GRP_STAT_SPARE, ne_eq]
    omega

/-- GSTATE of a group is the same where neither the scheduler nor the error log holds it. -/
theorem isRetired_congr {d g : Nat} (e : t.rd (K.SEAM_GRP_STAT_GSTATE k d g) = h.rd (K.SEAM_GRP_STAT_GSTATE k d g)) : isRetired t k d g = isRetired h k d g := by
  rw [isRetired, e, isRetired]

theorem offGate_gstate (k d g : Nat) : OffGate (K.SEAM_GRP_STAT_GSTATE k d g) :=
  offGate_of_lo (Nat.le_trans (by decide) (Nat.le_trans (seamBase_ge k) (by simp only [K.SEAM_GRP_STAT_GSTATE]; omega)))
    (by simp only [K.SEAM_GRP_STAT_GSTATE]; omega) (by simp only [K.SEAM_GRP_STAT_GSTATE]; omega) (by simp only [K.SEAM_GRP_STAT_GSTATE]; omega)

theorem csr_snapSeam (h : Hw) (k : Nat) : (snapSeam h k).csr = h.csr := by
  unfold snapSeam
  split
  · rfl
  · refine List.foldlRecOn (motive := fun t : Hw => t.csr = h.csr) _ _ rfl fun t ht d _ => ?_
    refine List.foldlRecOn (motive := fun t : Hw => t.csr = h.csr) _ _ ht fun t ht g _ => ?_
    split
    · exact ht
    · exact ht

/-- The state in which an abrupt failure is dealt with. -/
def lossyShown (h : Hw) (k : Nat) (l : LaneRef) (b : Bool) : Hw :=
  let h := (snapSeam (runDesign h) k).onSeam k fun s => { s with frozen := laneNo l :: s.frozen }
  let h := (h.wr (K.SEAM_GRP_STAT_LOSSY k l.dir.val l.g.val) 1).wr (K.SEAM_STAT_LOSSY k) 1
  logEvent (h.onLane k (laneNo l) fun x => { x with noLock := b }) srcSeam 0 (seamBase k + 8)

theorem lossyShown_leaves (h : Hw) (k : Nat) (l : LaneRef) (b : Bool) : (lossyShown h k l b).rd (K.SEAM_STAT_LOSSY k) = 1 ∧
    (lossyShown h k l b).rd (K.SEAM_GRP_STAT_LOSSY k l.dir.val l.g.val) = 1 ∧
    isRetired (lossyShown h k l b) k l.dir.val l.g.val = isRetired h k l.dir.val l.g.val ∧
    ((lossyShown h k l b).lane k (laneNo l)).failed = (h.lane k (laneNo l)).failed := by
  unfold lossyShown
  extract_lets u v
  have base : u.csr = (runDesign h).csr := csr_snapSeam ..
  have ran := designRan_runDesign h
  have lanes : SeamsKept SeamSt.laneTable h u := ((SeamsKept.runDesign offSlots_lanes h).trans (.snapSeam offSlots_lanes ..)).trans
    (.onSeam _ k (f := fun s => { s with frozen := laneNo l :: s.frozen }) fun _ => rfl)
  have seam : v.rd (K.SEAM_STAT_LOSSY k) = 1 := Hw.rd_wr_self ..
  have group : v.rd (K.SEAM_GRP_STAT_LOSSY k l.dir.val l.g.val) = 1 := (Hw.rd_wr_ne _ (by
    simp only [Key.id, K.SEAM_STAT_LOSSY, K.SEAM_GRP_STAT_LOSSY, ne_eq]
    omega) 1).trans (Hw.rd_wr_self ..)
  have gstate : v.rd (K.SEAM_GRP_STAT_GSTATE k l.dir.val l.g.val) = h.rd (K.SEAM_GRP_STAT_GSTATE k l.dir.val l.g.val) := by
    refine (Hw.rd_wr_ne _ ?_ 1).trans ((Hw.rd_wr_ne _ ?_ 1).trans ((Hw.rd_congr base _).trans (ran.rd _ (offGate_gstate ..).sched)))
    · simp only [Key.id, K.SEAM_GRP_STAT_GSTATE, K.SEAM_STAT_LOSSY, ne_eq]; omega
    · simp only [Key.id, K.SEAM_GRP_STAT_GSTATE, K.SEAM_GRP_STAT_LOSSY, ne_eq]; omega
  have same : v.lane k (laneNo l) = h.lane k (laneNo l) := (lanes.trans ((SeamsKept.wr ..).trans (.wr ..))).lane k _
  clear_value v
  have logged := kept_logEvent (v.onLane k (laneNo l) fun x => { x with noLock := b }) srcSeam 0 (seamBase k + 8)
  refine ⟨(logged.rd _ (offFailing_lossy k).groups.gate.sched).trans seam, (logged.rd _ (offFailing_grpLossy k ..).groups.gate.sched).trans group,
    isRetired_congr ((logged.rd _ (offGate_gstate ..).sched).trans gstate), ?_⟩
  rw [kept_lane logged, lane_onLane_self, same]

/-- A lane that fails abruptly is shown, and is out of service unless its group is retired. -/
theorem abruptFail_leaves (hk : k < 8) (h : Hw) (l : LaneRef) (b : Bool) (hf : (h.lane k (laneNo l)).failed = false) :
    (hubGone (abruptFail h k l b) k).rd (K.SEAM_STAT_LOSSY k) = 1 ∧ (hubGone (abruptFail h k l b) k).rd (K.SEAM_GRP_STAT_LOSSY k l.dir.val l.g.val) = 1 ∧
    (isRetired h k l.dir.val l.g.val = false → ((hubGone (abruptFail h k l b) k).lane k (laneNo l)).failed = true) := by
  obtain ⟨seam, group, retired, failed⟩ := lossyShown_leaves h k l b
  have goes : abruptFail h k l b = laneFails (lossyShown h k l b) k l := rfl
  have dealt := LanesFailed.laneFails (lossyShown h k l b) hk l
  have far (j : Key) (hj : seamBase k ≤ j.addr) : 0x2000000 ≤ j.addr := Nat.le_trans (by decide) (Nat.le_trans (seamBase_ge k) hj)
  rw [goes]
  refine ⟨?_, ?_, fun hr => ?_⟩
  · exact (LanesFailed.hubGone _ k (offFailing_lossy k).groups.gate.sched (far _ (by simp only [K.SEAM_STAT_LOSSY]; omega)) (by simp only [K.SEAM_STAT_LOSSY]; omega)
      (by simp only [K.SEAM_STAT_LOSSY]; omega)).trans ((dealt.rd _ (offFailing_lossy k)).trans seam)
  · exact (LanesFailed.hubGone _ k (offFailing_grpLossy k ..).groups.gate.sched (far _ (by simp only [K.SEAM_GRP_STAT_LOSSY]; omega))
      (by simp only [K.SEAM_GRP_STAT_LOSSY]; omega) (by simp only [K.SEAM_GRP_STAT_LOSSY]; omega)).trans ((dealt.rd _ (offFailing_grpLossy k ..)).trans group)
  · have marked := (laneFails_lane (lossyShown h k l b) k l (retired.trans hr) (failed.trans hf)).trans (seamsKept_hubGone SeamSt.laneTable _ k)
    rw [marked.lane, lane_onLane_self]

end

end Sys2Proof.Machine
end

section
/-!
PROOF. Degrade plans, alignment and rejoin (R120, R124, R142 to R148).
-/
namespace Sys2Proof.Machine
open Sys2Proof

section
variable {h t u : Hw} {n : Nat}

/-! ### Choosing a plan -/

/-- The committed configuration, the retired groups and the plans of a seam are the same. -/
structure PlansSame (n : Nat) (h t : Hw) : Prop where
  mode : ∀ d g, cmode t n d g = cmode h n d g
  bind : ∀ d g, t.rd (K.SEAM_GRP_CFG_BIND n d g) = h.rd (K.SEAM_GRP_CFG_BIND n d g)
  retired : ∀ d g, isRetired t n d g = isRetired h n d g
  plans : (t.seamSt n).plans = (h.seamSt n).plans

namespace PlansSame

theorem bindGroups (a : PlansSame n h t) (d b : Nat) : bindGroups t n d b = bindGroups h n d b := by
  simp only [Machine.bindGroups, a.mode, a.bind]

theorem needed (a : PlansSame n h t) : planNeeded t n = planNeeded h n := by
  have retired (d : Nat) : retiredGroups t n d = retiredGroups h n d :=
    List.filter_congr fun g _ => a.retired d g
  simp only [planNeeded, retired, a.mode]

theorem usable (a : PlansSame n h t) (p : List Nat) : planUsable t n p = planUsable h n p := by
  simp only [planUsable, a.bindGroups, a.mode]

theorem fits (a : PlansSame n h t) (p : List Nat) : planFits t n p = planFits h n p := by
  have retired (d : Nat) : isRetired t n d = isRetired h n d := funext (a.retired d)
  simp only [planFits, a.bindGroups, a.mode, retired]

theorem choose (a : PlansSame n h t) : choosePlan t n = choosePlan h n := by
  simp only [choosePlan, a.plans, a.usable, a.fits]

end PlansSame

/-- The view of a seam's plans. -/
def SeamSt.planned (x : SeamSt) : Option (List Nat) × Bool × List (List Nat) := (x.plan, x.planDue, x.plans)
theorem offSlots_planned : OffSlots SeamSt.planned := ⟨fun _ _ _ _ _ _ _ => rfl⟩

theorem SeamsKept.plan (a : SeamsKept SeamSt.planned h t) (k : Nat) : (t.seamSt k).plan = (h.seamSt k).plan := congrArg Prod.fst (a.view k)
theorem SeamsKept.planDue (a : SeamsKept SeamSt.planned h t) (k : Nat) : (t.seamSt k).planDue = (h.seamSt k).planDue :=
  congrArg (fun x => x.2.1) (a.view k)
theorem SeamsKept.plans (a : SeamsKept SeamSt.planned h t) (k : Nat) : (t.seamSt k).plans = (h.seamSt k).plans :=
  congrArg (fun x => x.2.2) (a.view k)

/-- The design has run, and the plan is due no more. -/
def planTaken (h : Hw) (n : Nat) : Hw := (runDesign h).onSeam n fun s => { s with planDue := false }

theorem planTaken_leaves (h : Hw) (n : Nat) : PlansSame n h (planTaken h n) ∧ ((planTaken h n).seamSt n).plan = (h.seamSt n).plan ∧
    ((planTaken h n).seamSt n).planDue = false := by
  have ran := designRan_runDesign h
  have seams := SeamsKept.runDesign offSlots_planned h
  have off {k : Key} (ha : 0x2800000 ≤ k.addr) (hl : k.lo < 64) : (planTaken h n).rd k = h.rd k := ran.rd k (by
    simp only [OffSched]
    omega)
  refine ⟨⟨fun d g => ?_, fun d g => off ?_ ?_, fun d g => isRetired_congr (off ?_ ?_), ?_⟩, ?_, ?_⟩
  · unfold cmode
    split
    · refine off ?_ ?_
      · simp only [K.SEAM_GRP_CFG_MODE]; omega
      · simp only [K.SEAM_GRP_CFG_MODE]; omega
    · rfl
  · simp only [K.SEAM_GRP_CFG_BIND]; omega
  · simp only [K.SEAM_GRP_CFG_BIND]; omega
  · exact Nat.le_trans (seamBase_ge n) (by simp only [K.SEAM_GRP_STAT_GSTATE]; omega)
  · simp only [K.SEAM_GRP_STAT_GSTATE]; omega
  · rw [planTaken, seamSt_onSeam_self]
    exact seams.plans n
  · rw [planTaken, seamSt_onSeam_self]
    exact seams.plan n
  · rw [planTaken, seamSt_onSeam_self]

/-! ### Applying a plan -/

/-- Without a plan that fits, the seam fails where it needs one. -/
theorem applyPlan_none (hn : n < 8) (hc : choosePlan h n = none) :
    seamState (applyPlan h n) n = (if planNeeded h n then 9 else 5) ∧ ((applyPlan h n).seamSt n).planDue = false := by
  obtain ⟨same, -, due⟩ := planTaken_leaves h n
  have fails := same.choose.trans hc
  have goes : applyPlan h n = if planNeeded (planTaken h n) n then failSeam (planTaken h n) n
      else refreshGroups ((planTaken h n).wr (K.SEAM_STAT_STATE n) 5) n := by
    unfold applyPlan
    rw [← planTaken]
    dsimp only
    rw [fails]
  rw [goes, same.needed]
  split
  · exact ⟨state_failSeam _ hn, ((SeamsKept.failSeam offSlots_planned _ n).planDue n).trans due⟩
  · exact ⟨((GroupsMoved.refreshGroups _ n).state n).trans (state_wr_self _ n (by decide)),
      (((SeamsKept.wr ..).trans (.refreshGroups ..)).planDue n).trans due⟩

/-- The bindings a plan moves. -/
def planMoves (h : Hw) (n : Nat) (p : List Nat) : List (Nat × Nat × Nat) :=
  allBindings.filter fun x => x.1 == n && bindEn h x && bindMap h x != bindMap (withPlan h n p) x

/-- A plan in force, its bindings unaligned and its groups mapped. -/
def planInForce (h : Hw) (n : Nat) (p : List Nat) : Hw :=
  let t := if (h.seamSt n).plan == some p then h else (planMoves h n p).foldl (fun h x => holdDomain h (bindPdom h x)) h
  refreshGroups (((planMoves h n p).foldl (fun h x => unalign h x.1 x.2.1 x.2.2) (withPlan t n p)).wr (K.SEAM_STAT_STATE n) 5) n

theorem planInForce_leaves (h : Hw) (n : Nat) (p : List Nat) (hd : (h.seamSt n).planDue = false) :
    seamState (planInForce h n p) n = 5 ∧ ((planInForce h n p).seamSt n).plan = some p ∧ ((planInForce h n p).seamSt n).planDue = false := by
  unfold planInForce
  extract_lets t
  have held : SeamsKept SeamSt.planned h t := by
    unfold t
    split
    · exact .refl h
    · exact .foldl (fun g _ _ => .holdDomain offSlots_planned g _) h
  have applied : ((withPlan t n p).seamSt n).plan = some p ∧ ((withPlan t n p).seamSt n).planDue = false := by
    rw [withPlan, seamSt_onSeam_self]
    exact ⟨rfl, (held.planDue n).trans hd⟩
  have mapped (u : Hw) : SeamsKept SeamSt.planned u
      (refreshGroups (((planMoves h n p).foldl (fun h x => unalign h x.1 x.2.1 x.2.2) u).wr (K.SEAM_STAT_STATE n) 5) n) :=
    (SeamsKept.foldl (fun g _ _ => .unalign offSlots_planned g ..) u).trans ((SeamsKept.wr ..).trans (.refreshGroups ..))
  exact ⟨((GroupsMoved.refreshGroups _ n).state n).trans (state_wr_self _ n (by decide)), ((mapped _).plan n).trans applied.1,
    ((mapped _).planDue n).trans applied.2⟩

/-- A plan that fits is applied; a new one is recorded. -/
theorem applyPlan_some {p : List Nat} (hc : choosePlan h n = some p) :
    seamState (applyPlan h n) n = 5 ∧ ((applyPlan h n).seamSt n).plan = some p ∧ ((applyPlan h n).seamSt n).planDue = false ∧
    ((h.seamSt n).plan ≠ some p → (applyPlan h n).rd (K.SEAM_STAT_PLAN n) = planIndex p + 1) := by
  obtain ⟨same, plan, due⟩ := planTaken_leaves h n
  have found := same.choose.trans hc
  have goes : applyPlan h n = if ((planTaken h n).seamSt n).plan == some p then planInForce (planTaken h n) n p
      else postOpen (((planMoves (planTaken h n) n p).foldl (fun h x => refreshKmin h (bindPdom h x)) (planInForce (planTaken h n) n p)).wr
        (K.SEAM_STAT_PLAN n) (planIndex p + 1)) 2 := by
    unfold applyPlan
    rw [← planTaken]
    dsimp only
    rw [found]
    rfl
  obtain ⟨state, force, taken⟩ := planInForce_leaves (planTaken h n) n p due
  rw [goes, plan]
  split
  next old => exact ⟨state, force, taken, fun hn => absurd (eq_of_beq old) hn⟩
  next new =>
    generalize planInForce (planTaken h n) n p = u at state force taken
    have limits : GroupsMoved u ((planMoves (planTaken h n) n p).foldl (fun h x => refreshKmin h (bindPdom h x)) u) := .foldl (fun g _ _ => .refreshKmin g _) u
    have seams : SeamsKept SeamSt.planned u ((planMoves (planTaken h n) n p).foldl (fun h x => refreshKmin h (bindPdom h x)) u) :=
      .foldl (fun g _ _ => .refreshKmin g _) u
    generalize (planMoves (planTaken h n) n p).foldl (fun h x => refreshKmin h (bindPdom h x)) u = v at limits seams
    have posted := kept_postOpen (v.wr (K.SEAM_STAT_PLAN n) (planIndex p + 1)) (q := 2) (by decide)
    have view : SeamsKept SeamSt.planned u (postOpen (v.wr (K.SEAM_STAT_PLAN n) (planIndex p + 1)) 2) := seams.trans ((SeamsKept.wr ..).trans (.of_kept posted))
    have small : planIndex p + 1 < 2 ^ 3 := by
      have : planIndex p < 2 ^ 2 := Nat.mod_lt _ (by decide)
      omega
    refine ⟨(posted.rd _ (offGroups_state n).gate.sched).trans ((Hw.rd_wr_ne _ ?_ _).trans ((limits.state n).trans state)),
      (view.plan n).trans force, (view.planDue n).trans taken, fun _ => ?_⟩
    · simp only [Key.id, K.SEAM_STAT_STATE, K.SEAM_STAT_PLAN]; omega
    · refine (posted.rd _ (OffGroups.gate (offGroups_stat ?_ ?_ ?_ ?_)).sched).trans ((Hw.rd_wr_self ..).trans (Nat.mod_eq_of_lt small))
      all_goals decide

/-! ### Alignment -/

/-- The view of a seam's recorded offsets. -/
def SeamSt.offsets (x : SeamSt) : List (Nat × Nat) := x.deltas
theorem offSlots_offsets : OffSlots SeamSt.offsets := ⟨fun _ _ _ _ _ _ _ => rfl⟩

theorem bindOffset_lt (h : Hw) (x : Nat × Nat × Nat) : bindOffset h x < 2 ^ 48 := Nat.mod_lt _ (Nat.two_pow_pos 48)

theorem offGate_delta (n d b : Nat) : OffGate (K.SEAM_BIND_STAT_DELTA n d b) := by
  refine offGate_of_lo ?_ ?_ ?_ ?_ <;> simp only [K.SEAM_BIND_STAT_DELTA] <;> omega

theorem offGate_aligned (n d b : Nat) : OffGate (K.SEAM_BIND_STAT_ALIGNED n d b) := by
  refine offGate_of_lo ?_ ?_ ?_ ?_ <;> simp only [K.SEAM_BIND_STAT_ALIGNED] <;> omega

/-- The state of a group is not in its binding's register. -/
theorem rd_setBindGroups {k : Key} (h : Hw) (n d b st : Nat) (hk : ∀ g, g < 128 → k.id ≠ (K.SEAM_GRP_STAT_GSTATE n d g).id) :
    (setBindGroups h n d b st).rd k = h.rd k :=
  List.foldlRecOn (motive := fun t : Hw => t.rd k = h.rd k) _ _ rfl fun t ht g hg =>
    (Hw.rd_wr_ne t (hk g (GroupsMoved.mem_bindGroups (List.mem_filter.1 hg).1)) st).trans ht

theorem seamsKept_bindStat {β : Type} (p : SeamSt → β) (h : Hw) (n d b : Nat) : SeamsKept p h (bindStat h n d b) := by
  unfold bindStat
  dsimp only
  exact (SeamsKept.wr ..).trans ((SeamsKept.wr ..).trans ((SeamsKept.wr ..).trans (.wr ..)))

theorem alignBinding_leaves (hn : n < 4) {d b : Nat} (hd : d < 2) (h : Hw) :
    (alignBinding h n d b).rd (K.SEAM_BIND_STAT_DELTA n d b) = bindOffset h (n, d, b) ∧
    (alignBinding h n d b).rd (K.SEAM_BIND_STAT_ALIGNED n d b) = 1 ∧
    SMap.get ((alignBinding h n d b).seamSt n).deltas (d * 16 + b) 0 = bindOffset h (n, d, b) + 1 := by
  unfold alignBinding
  extract_lets delta i old u v w x
  have noted : SMap.get (u.seamSt n).deltas i 0 = delta + 1 := by
    unfold u
    rw [seamSt_onSeam_self]
    dsimp only
    rw [SMap.get_set_self]
  have seams : SeamsKept SeamSt.offsets u w := (seamsKept_bindStat SeamSt.offsets u n d b).trans ((SeamsKept.wr ..).trans (.wr ..))
  have value : w.rd (K.SEAM_BIND_STAT_DELTA n d b) = delta := (Hw.rd_wr_ne _ (by
    simp only [Key.id, K.SEAM_BIND_STAT_ALIGNED, K.SEAM_BIND_STAT_DELTA, ne_eq]
    omega) 1).trans ((Hw.rd_wr_self ..).trans (Nat.mod_eq_of_lt (bindOffset_lt ..)))
  have aligned : w.rd (K.SEAM_BIND_STAT_ALIGNED n d b) = 1 := Hw.rd_wr_self ..
  clear_value u w
  have logged : Kept w x := by
    unfold x
    split
    · exact kept_logEvent ..
    · exact .refl w
  have released := GatesRan.tryRelease (setBindGroups x n d b gLive) (bindPdom x (n, d, b)) (x.bit (K.SEAM_CTL_AUTORUN n))
  have tail := (seams.trans (.of_kept logged)).trans ((SeamsKept.setBindGroups x n d b gLive).trans
    (.tryRelease offSlots_offsets _ (bindPdom x (n, d, b)) (x.bit (K.SEAM_CTL_AUTORUN n))))
  generalize tryRelease (setBindGroups x n d b gLive) (bindPdom x (n, d, b)) (x.bit (K.SEAM_CTL_AUTORUN n)) = t at released tail
  have deltas : (t.seamSt n).deltas = (u.seamSt n).deltas := tail.view n
  refine ⟨(released.rd _ (offGate_delta ..)).trans ((rd_setBindGroups x n d b _ fun g hg => ?_).trans ((logged.rd _ (offGate_delta ..).sched).trans value)),
    (released.rd _ (offGate_aligned ..)).trans ((rd_setBindGroups x n d b _ fun g hg => ?_).trans ((logged.rd _ (offGate_aligned ..).sched).trans aligned)), ?_⟩
  · simp only [Key.id, K.SEAM_BIND_STAT_DELTA, K.SEAM_GRP_STAT_GSTATE, ne_eq]; omega
  · simp only [Key.id, K.SEAM_BIND_STAT_ALIGNED, K.SEAM_GRP_STAT_GSTATE, seamBase_fabric hn, ne_eq]; omega
  · rw [deltas]
    exact noted

/-! ### Rejoin -/

theorem rejoinSeam_ends (h : Hw) (n : Nat) : seamState (rejoinSeam h n) n = 5 ∨ (seamState (rejoinSeam h n) n = 6 ∧ ((rejoinSeam h n).seamSt n).planDue = true) := by
  obtain ⟨u, goes⟩ : ∃ u, rejoinSeam h n = if planNeeded u n then awaitPlan u n else u.wr (K.SEAM_STAT_STATE n) 5 := ⟨_, rfl⟩
  rw [goes]
  split
  · exact .inr (awaitPlan_leaves u n)
  · exact .inl (state_wr_self u n (by decide))

end

end Sys2Proof.Machine
end

section
/-!
PROOF. The statement about lanes, degrade plans, alignment and rejoin (R120, R124, R136 to R138, R142 to R148).
-/
namespace Sys2Proof.Machine
open Sys2Proof

section
variable {s : State}

/-- Lanes of one group have numbers of their own. -/
theorem laneNo_inj {dir : Fin 2} {g : Fin 128} {x y : Fin 17} (e : laneNo ⟨dir, g, x⟩ = laneNo ⟨dir, g, y⟩) : x = y := by
  simp only [laneNo] at e
  exact Fin.ext (by omega)

/-- The samples of an EYE_MEASURE. -/
def eyeSamples (dir : Fin 2) (g : Fin 128) (lanes : List (Fin 17 × Fin 64 × Nat)) : List EyeSample := lanes.map fun x => ⟨⟨dir, g, x.1⟩, x.2.1, x.2.2⟩

theorem eyeSamples_show (h : Hw) (k : Nat) (dir : Fin 2) (g : Fin 128) (lanes : List (Fin 17 × Fin 64 × Nat)) {x : Fin 17 × Fin 64 × Nat} (hx : x ∈ lanes)
    (he : laneExists k ⟨dir, g, x.1⟩ = true) (hf : (h.lane k (laneNo ⟨dir, g, x.1⟩)).failed = false) (hu : ∀ y ∈ lanes, y.1 = x.1 → y = x) :
    ((hubGone (measureLanes h k (eyeSamples dir g lanes)) k).lane k (laneNo ⟨dir, g, x.1⟩)).eye =
      (x.2.1.val, min (h.lane k (laneNo ⟨dir, g, x.1⟩)).minMargin x.2.1.val) := by
  have agree : ∀ y ∈ eyeSamples dir g lanes, laneNo y.ln = laneNo ⟨dir, g, x.1⟩ → y.margin.val = x.2.1.val := by
    intro y hy hn
    obtain ⟨z, hz, rfl⟩ := List.mem_map.1 hy
    rw [hu z hz (laneNo_inj hn)]
  have there : ∃ y ∈ eyeSamples dir g lanes, laneNo y.ln = laneNo ⟨dir, g, x.1⟩ ∧ laneExists k y.ln = true :=
    ⟨_, List.mem_map.2 ⟨x, hx, rfl⟩, rfl, he⟩
  exact ((seamsKept_hubGone SeamSt.eyes _ k).eye k _).trans (measureLanes_shows h k _ _ _ agree there hf)

theorem eyeShown (k : SeamId) (dir : Fin 2) (g : Fin 128) (lanes : List (Fin 17 × Fin 64 × Nat)) (hs : seamLive s.hw k.val = true) :
    Ends (exec (.eyeMeasure k dir g lanes) s) fun t => ∀ x ∈ lanes, ∀ i, i = laneNo ⟨dir, g, x.1⟩ →
      laneExists k.val ⟨dir, g, x.1⟩ = true → (s.hw.lane k.val i).failed = false → (∀ y ∈ lanes, y.1 = x.1 → y = x) →
      (t.hw.lane k.val i).margin = x.2.1.val ∧
      (t.hw.lane k.val i).minMargin = min (s.hw.lane k.val i).minMargin x.2.1.val := by
  have goes : exec (.eyeMeasure k dir g lanes) s = .next (s.onHw fun h =>
      if seamLive h k.val then hubGone (measureLanes h k.val (eyeSamples dir g lanes)) k.val else h) := rfl
  refine ⟨_, goes, fun x hx i hi he hf hu => ?_⟩
  rw [hi] at hf ⊢
  have eye := eyeSamples_show s.hw k.val dir g lanes hx he hf hu
  simp only [State.onHw]
  rw [hs, if_pos rfl]
  generalize (hubGone (measureLanes s.hw k.val (eyeSamples dir g lanes)) k.val).lane k.val (laneNo ⟨dir, g, x.1⟩) = y at eye ⊢
  exact ⟨congrArg Prod.fst eye, congrArg Prod.snd eye⟩

theorem spareUsed (k : SeamId) (dir : Fin 2) (g : Fin 128) (l : Nat) (hw : swapping s.hw k.val dir.val g.val = some l) (hl : l < 16) :
    Ends (exec (.spareSwapComplete k dir g) s) fun t =>
      t.hw.rd (K.SEAM_GRP_STAT_SPARE k.val dir.val g.val) = 2 ∧ t.hw.rd (K.SEAM_GRP_STAT_SPARELANE k.val dir.val g.val) = l ∧
      ∀ e ∈ (t.hw.seamSt k.val).swaps, e.1 ≠ dir.val * 128 + g.val := by
  refine ⟨_, rfl, ?_⟩
  simp only [State.onHw]
  rw [hw]
  exact swapped_leaves s.hw k.val dir.val g.val hl

theorem laneLost (k : SeamId) (ln : LaneRef) (hs : seamLive s.hw k.val = true ∨ seamState s.hw k.val = 6) (he : laneExists k.val ln = true)
    (hf : (s.hw.lane k.val (laneNo ln)).failed = false) : Ends (exec (.laneAbruptFail k ln) s) fun t =>
      t.hw.rd (K.SEAM_STAT_LOSSY k.val) = 1 ∧ t.hw.rd (K.SEAM_GRP_STAT_LOSSY k.val ln.dir.val ln.g.val) = 1 ∧
      (isRetired s.hw k.val ln.dir.val ln.g.val = false → (t.hw.lane k.val (laneNo ln)).failed = true) := by
  refine ⟨_, rfl, ?_⟩
  have heard : ((seamLive s.hw k.val || seamState s.hw k.val == smDegrade) && laneExists k.val ln && !(s.hw.lane k.val (laneNo ln)).failed) = true := by
    rw [he, hf]
    obtain hs | hs := hs
    · rw [hs]; rfl
    · rw [hs, show (6 == smDegrade) = true from rfl, Bool.or_true]; rfl
  simp only [State.onHw]
  rw [heard, if_pos rfl]
  exact abruptFail_leaves k.isLt s.hw ln true hf

theorem planApplied (n : Die) (h6 : seamState s.hw n.val = 6) (hd : (s.hw.seamSt n.val).planDue = true) :
    (choosePlan s.hw n.val = none → Ends (exec (.degradePlanApply n) s) fun t =>
      seamState t.hw n.val = (if planNeeded s.hw n.val then 9 else 5) ∧ (t.hw.seamSt n.val).planDue = false) ∧
    (∀ p, choosePlan s.hw n.val = some p → Ends (exec (.degradePlanApply n) s) fun t =>
      seamState t.hw n.val = 5 ∧ (t.hw.seamSt n.val).plan = some p ∧ (t.hw.seamSt n.val).planDue = false ∧
      ((s.hw.seamSt n.val).plan ≠ some p → t.hw.rd (K.SEAM_STAT_PLAN n.val) = planIndex p + 1)) := by
  have due : ((s.hw.seamSt n.val).planDue && seamState s.hw n.val == smDegrade) = true := by
    rw [hd, h6]
    rfl
  refine ⟨fun hc => ⟨_, rfl, ?_⟩, fun p hc => ⟨_, rfl, ?_⟩⟩
  · simp only [State.onHw]
    rw [due, if_pos rfl]
    exact applyPlan_none (Nat.lt_trans n.isLt (by decide)) hc
  · simp only [State.onHw]
    rw [due, if_pos rfl]
    exact applyPlan_some hc

theorem bindingAligned (n : Die) (dir : Fin 2) (b : Fin 16) (delta : BitVec 48) (tx rx : Nat) (hs : seamLive s.hw n.val = true)
    (he : bindEn s.hw (n.val, dir.val, b.val) = true) (ha : s.hw.bit (K.SEAM_BIND_STAT_ALIGNED n.val dir.val b.val) = false)
    (ho : bindOk s.hw n.val dir.val b.val = true) (hr : released s.hw n.val = true) (hf : released s.hw (farDie n.val) = true)
    (ht : tx = txNet s.hw (n.val, dir.val, b.val)) (hx : rx = rxNet s.hw (n.val, dir.val, b.val))
    (hd : bindOffset (runDesign s.hw) (n.val, dir.val, b.val) = delta.toNat) :
    Ends (exec (.bindingAlign n dir b delta) s) fun t => t.hw.rd (K.SEAM_BIND_STAT_DELTA n.val dir.val b.val) = delta.toNat ∧
      t.hw.rd (K.SEAM_BIND_STAT_ALIGNED n.val dir.val b.val) = 1 ∧
      SMap.get (t.hw.seamSt n.val).deltas (dir.val * 16 + b.val) 0 = t.hw.rd (K.SEAM_BIND_STAT_DELTA n.val dir.val b.val) + 1 ∧
      ((∀ n m, n < 4 → m < 64 → netHalted s.hw n m = true) → delta.toNat =
        ((s.hw.net (rx / 64) (rx % 64)).stake + 2 ^ 48 - (s.hw.net (tx / 64) (tx % 64)).stake) % 2 ^ 48) := by
  refine ⟨_, rfl, ?_⟩
  have goes : (seamLive s.hw n.val && bindEn s.hw (n.val, dir.val, b.val) && !s.hw.bit (K.SEAM_BIND_STAT_ALIGNED n.val dir.val b.val) &&
      bindOk s.hw n.val dir.val b.val && released s.hw n.val && released s.hw (farDie n.val) &&
      bindOffset (runDesign s.hw) (n.val, dir.val, b.val) == delta.toNat) = true := by
    rw [hs, he, ha, ho, hr, hf, hd, beq_self_eq_true]
    rfl
  obtain ⟨value, aligned, noted⟩ := alignBinding_leaves n.isLt dir.isLt (b := b.val) (runDesign s.hw)
  simp only [State.onHw]
  rw [goes, if_pos rfl, value, noted]
  refine ⟨hd, aligned, rfl, fun hh => ?_⟩
  rw [← hd, runDesign_of_halted hh, ht, hx]
  rfl

end

/-- Settles O44: the eye monitor, spares and abrupt failures, degrade plans, the alignment of a binding, and rejoin. -/
theorem seamLanesAndRecovery : Obligations.SeamLanesAndRecovery := by
  unfold Obligations.SeamLanesAndRecovery
  refine ⟨⟨fun s k dir g lanes hs => eyeShown k dir g lanes hs, fun s k dir g l hw hl => spareUsed k dir g l hw hl,
    fun s k ln hs he hf => laneLost k ln hs he hf⟩,
    fun s n h6 hd => planApplied n h6 hd,
    fun s n dir b delta tx rx hs he ha ho hr hf ht hx hd => bindingAligned n dir b delta tx rx hs he ha ho hr hf ht hx hd,
    fun s n h8 h5 => ⟨_, rfl, ?_⟩, fun s n h8 => ⟨_, rfl, ?_⟩⟩
  · have joins : ¬ seamState s.hw n.val ≠ smRejoin := fun hn => hn h8
    have stands : (stage s.hw n.val == 5) = true := by rw [h5]; rfl
    simp only [State.onHw]
    rw [if_neg joins, if_neg Bool.false_ne_true, stands, if_pos rfl]
    exact rejoinSeam_ends s.hw n.val
  · have joins : ¬ seamState s.hw n.val ≠ smRejoin := fun hn => hn h8
    simp only [State.onHw]
    rw [if_neg joins, if_pos trivial]
    exact state_failSeam s.hw (Nat.lt_trans n.isLt (by decide))

end Sys2Proof.Machine
end

section
/-!
PROOF. The stages of a seam's training, and its messages (R129 to R135).
-/
namespace Sys2Proof.Machine
open Sys2Proof

section
variable {h t u : Hw} {k : Nat}

/-! ### Stages -/

/-- A seam goes to a stage of training, in STATE or in REJOIN. -/
theorem stage_setStage (h : Hw) (k : Nat) {st : Nat} (hs : st < 8) : stage (setStage h k st) k = st := by
  unfold setStage
  split
  next h8 =>
    have same : seamState (h.onSeam k fun s => { s with phase := st }) k = 8 := h8
    rw [stage, if_pos same, seamSt_onSeam_self]
  next h8 =>
    have state : seamState (h.wr (K.SEAM_STAT_STATE k) st) k = st := state_wr_self h k (by omega)
    rw [stage, state, if_neg (by omega)]

/-- The stage stands in STATE and in PHASE alone. -/
theorem stage_congr (hs : seamState t k = seamState h k) (hp : (t.seamSt k).phase = (h.seamSt k).phase) : stage t k = stage h k := by
  rw [stage, hs, hp, stage]

theorem stage_onSeam (h : Hw) (k : Nat) {f : SeamSt → SeamSt} (hf : ∀ x, (f x).phase = x.phase) : stage (h.onSeam k f) k = stage h k :=
  stage_congr rfl (by rw [seamSt_onSeam_self, hf])

/-- Going to a stage changes nothing else of the seam. -/
theorem seamSt_setStage {β : Type} (p : SeamSt → β) (hp : ∀ x a, p { x with phase := a } = p x) (h : Hw) (k st : Nat) :
    p ((setStage h k st).seamSt k) = p (h.seamSt k) := by
  unfold setStage
  split
  · rw [seamSt_onSeam_self, hp]
  · rfl

/-! ### Lanes that do not pass -/

/-- Lanes listed are marked as failed. -/
def markLanes (h : Hw) (k : Nat) (l : List LaneTest) : Hw :=
  l.foldl (fun h t => h.onLane k (laneNo t.ln) fun x => { x with failed := true, noLock := !t.locked }) h

theorem markLanes_keeps (h : Hw) (k i : Nat) (l : List LaneTest) (hf : (h.lane k i).failed = true) : ((markLanes h k l).lane k i).failed = true := by
  refine List.foldlRecOn (motive := fun t : Hw => (t.lane k i).failed = true) l _ hf fun t ht x _ => ?_
  by_cases hi : i = laneNo x.ln
  · rw [hi, lane_onLane_self]
  · rw [lane_onLane_ne _ _ hi]
    exact ht

theorem markLanes_failed (h : Hw) (k : Nat) (l : List LaneTest) : ∀ x ∈ l, ((markLanes h k l).lane k (laneNo x.ln)).failed = true := by
  induction l generalizing h with
  | nil => intro x hx; cases hx
  | cons y l ih =>
    intro x hx
    rcases List.mem_cons.1 hx with rfl | hx
    · exact markLanes_keeps _ k _ l (by rw [lane_onLane_self])
    · exact ih _ x hx

theorem markLanes_stage (h : Hw) (k : Nat) (l : List LaneTest) : stage (markLanes h k l) k = stage h k :=
  List.foldlRecOn (motive := fun t : Hw => stage t k = stage h k) l _ rfl fun t ht x _ => by
    refine Eq.trans (stage_congr (h := t) rfl ?_) ht
    rw [Hw.onLane, seamSt_onSeam_self]

theorem lane_setStage (h : Hw) (k st i : Nat) : (setStage h k st).lane k i = h.lane k i := by
  rw [Hw.lane, seamSt_setStage SeamSt.lanes (fun _ _ => rfl), Hw.lane]

/-! ### Starting -/

theorem trainFabric_live {n : Nat} (hs : seamState h n = 0) (he : h.bit (K.SEAM_CTL_EN n) = true) (hl : endsLive h n = true) :
    seamState (trainFabric h n) n = 1 := by
  have goes : (seamState h n != smOff || !h.bit (K.SEAM_CTL_EN n)) = false := by rw [hs, he]; rfl
  rw [trainFabric, goes, if_neg Bool.false_ne_true, if_pos hl]
  exact state_trainStart

theorem trainFabric_noHub {n : Nat} (hs : seamState h n = 0) (he : h.bit (K.SEAM_CTL_EN n) = true) (hl : endsLive h n = false) :
    seamState (trainFabric h n) n = 0 ∧ (trainFabric h n).rd (K.SEAM_STAT_NOHUB n) = 1 := by
  have goes : (seamState h n != smOff || !h.bit (K.SEAM_CTL_EN n)) = false := by rw [hs, he]; rfl
  rw [trainFabric, goes, if_neg Bool.false_ne_true, hl, if_neg Bool.false_ne_true]
  refine ⟨(Hw.rd_wr_ne h ?_ 1).trans hs, Hw.rd_wr_self ..⟩
  simp only [Key.id, K.SEAM_STAT_STATE, K.SEAM_STAT_NOHUB]
  omega

/-! ### Messages -/

theorem badMessage_leaves (h : Hw) (k : Nat) : stage (badMessage h k) k = stage h k ∧
    (badMessage h k).rd (K.SEAM_STAT_CRCERR k) = min 255 (h.rd (K.SEAM_STAT_CRCERR k) + 1) ∧ (badMessage h k).seam = h.seam := by
  have same : (badMessage h k).seamSt k = h.seamSt k := rfl
  refine ⟨stage_congr (Hw.rd_wr_ne h ?_ _) (by rw [same]), rd_cnt_self h, rfl⟩
  simp only [Key.id, K.SEAM_STAT_STATE, K.SEAM_STAT_CRCERR, ne_eq]
  omega

/-- What a MAP that is sent changes of its seam. -/
theorem seamSt_sendMap (h : Hw) (k : Nat) :
    (sendMap h k).seamSt k = { h.seamSt k with mackOwner := false, mackFar := false, msg := some (.map (mapBody h k) (crc16 (mapBody h k))) } := by
  rw [sendMap, seamSt_onSeam_self]

theorem stage_sendMap (h : Hw) (k : Nat) : stage (sendMap h k) k = stage h k := stage_onSeam h k fun _ => rfl

/-- The map goes out afresh, or the seam fails after the third. -/
def mapAgain (h : Hw) (k : Nat) : Hw :=
  let h := sendMap (h.onSeam k fun x => { x with attempts := x.attempts + 1 }) k
  if 3 ≤ (h.seamSt k).attempts then failSeam h k else h

theorem mapAgain_leaves (hk : k < 8) (h : Hw) (h4 : stage h k = 4) :
    if 2 ≤ (h.seamSt k).attempts then seamState (mapAgain h k) k = 9
    else stage (mapAgain h k) k = 4 ∧ ((mapAgain h k).seamSt k).attempts = (h.seamSt k).attempts + 1 := by
  obtain ⟨u, hu⟩ : ∃ u, u = sendMap (h.onSeam k fun x => { x with attempts := x.attempts + 1 }) k := ⟨_, rfl⟩
  have tries : (u.seamSt k).attempts = (h.seamSt k).attempts + 1 := by rw [hu, seamSt_sendMap, seamSt_onSeam_self]
  have still : stage u k = 4 := by
    rw [hu, stage_sendMap]
    refine (stage_onSeam h k ?_).trans h4
    exact fun _ => rfl
  have goes : mapAgain h k = if 3 ≤ (u.seamSt k).attempts then failSeam u k else u := by rw [hu]; rfl
  rw [goes, tries]
  by_cases h2 : 2 ≤ (h.seamSt k).attempts
  · rw [if_pos h2, if_pos (by omega)]
    exact state_failSeam u hk
  · rw [if_neg h2, if_neg (by omega)]
    exact ⟨still, tries⟩

/-- A report is recorded. -/
def reportHeard (h : Hw) (k : Nat) (dir : Fin 2) (v : Nat) : Hw :=
  h.onSeam k fun x => if dir = 0 then { x with report0 := some v } else { x with report1 := some v }

theorem reportHeard_leaves (h : Hw) (k : Nat) (dir : Fin 2) (v : Nat) : stage (reportHeard h k dir v) k = stage h k ∧
    (if dir = 0 then ((reportHeard h k dir v).seamSt k).report0 else ((reportHeard h k dir v).seamSt k).report1) = some v ∧
    ((((reportHeard h k dir v).seamSt k).report0.isSome && ((reportHeard h k dir v).seamSt k).report1.isSome) =
      (if dir = 0 then (h.seamSt k).report1 else (h.seamSt k).report0).isSome) := by
  unfold reportHeard
  rw [seamSt_onSeam_self]
  by_cases hd : dir = 0
  · simp only [if_pos hd]
    exact ⟨stage_onSeam h k fun _ => rfl, trivial, Bool.true_and _⟩
  · simp only [if_neg hd]
    exact ⟨stage_onSeam h k fun _ => rfl, trivial, Bool.and_true _⟩

/-- Both reports stand: MAP goes out. -/
def mapOut (h : Hw) (k : Nat) : Hw := setStage (sendMap (h.onSeam k fun x => { x with attempts := 0 }) k) k smMap

theorem mapOut_leaves (h : Hw) (k : Nat) : stage (mapOut h k) k = 4 ∧ ((mapOut h k).seamSt k).attempts = 0 ∧
    (∃ b, ((mapOut h k).seamSt k).msg = some (.map b (crc16 b))) ∧ ((mapOut h k).seamSt k).report0 = (h.seamSt k).report0 ∧
    ((mapOut h k).seamSt k).report1 = (h.seamSt k).report1 := by
  obtain ⟨u, hu⟩ : ∃ u, u = h.onSeam k fun x => { x with attempts := 0 } := ⟨_, rfl⟩
  have goes : mapOut h k = setStage (sendMap u k) k smMap := by rw [hu]; rfl
  have base : u.seamSt k = { h.seamSt k with attempts := 0 } := by rw [hu, seamSt_onSeam_self]
  have sent := seamSt_sendMap u k
  rw [goes]
  refine ⟨stage_setStage _ k (by decide), ?_, ⟨mapBody u k, ?_⟩, ?_, ?_⟩
  · rw [seamSt_setStage SeamSt.attempts fun _ _ => rfl, sent, base]
  · rw [seamSt_setStage SeamSt.msg fun _ _ => rfl, sent]
  · rw [seamSt_setStage SeamSt.report0 fun _ _ => rfl, sent, base]
  · rw [seamSt_setStage SeamSt.report1 fun _ _ => rfl, sent, base]

end

end Sys2Proof.Machine
end

section
/-!
PROOF. A seam goes LIVE, and a hub seam ends the reset of its die (R128, R132, R135, R438).
-/
namespace Sys2Proof.Machine
open Sys2Proof

section
variable {h t u : Hw} {k : Nat}

/-! ### Going LIVE -/

/-- The view of a seam's record of training. -/
def SeamSt.record (x : SeamSt) : Bool := x.trained
theorem SeamsKept.trained (a : SeamsKept SeamSt.record h t) (k : Nat) : (t.seamSt k).trained = (h.seamSt k).trained := a.view k
theorem offSlots_record : OffSlots SeamSt.record := ⟨fun _ _ _ _ _ _ _ => rfl⟩

theorem seamsKept_marked (h : Hw) (k i : Nat) (f : LaneSt → LaneSt) : SeamsKept SeamSt.record h (h.onLane k i f) := by
  unfold Hw.onLane
  exact .onSeam h k fun _ => rfl

theorem seamsKept_settleGroup (h : Hw) (k d g : Nat) (bad : List Nat) : SeamsKept SeamSt.record h (settleGroup h k d g bad) := by
  unfold settleGroup
  extract_lets u
  have marked : SeamsKept SeamSt.record h u := .foldl (fun g _ _ => seamsKept_marked g ..) h
  refine marked.trans ?_
  clear_value u
  split
  · exact .refl u
  · split
    · exact (SeamsKept.wr ..).trans (.wr ..)
    · split
      · exact (SeamsKept.wr ..).trans (.wr ..)
      · exact (SeamsKept.wr ..).trans (.wr ..)
    · exact .wr ..

theorem seamsKept_settleSeam (h : Hw) (k : Nat) : SeamsKept SeamSt.record h (settleSeam h k) :=
  .foldl (fun g _ _ => .foldl (fun g _ _ => seamsKept_settleGroup g ..) g) h

/-- Settling the groups by a map leaves the record that there is one. -/
theorem seamsKept_mapStands (h : Hw) (k : Nat) : SeamsKept SeamSt.record h (refreshRet (refreshGroups (settleSeam h k) k) k) :=
  (seamsKept_settleSeam h k).trans ((SeamsKept.refreshGroups ..).trans (.refreshRet ..))

/-- The map of a seam stands, and its groups are settled by it. -/
def mapStands (h : Hw) (k : Nat) : Hw :=
  refreshRet (refreshGroups (settleSeam
    (h.onSeam k fun s => { s with map0 := trainedMap h k 0, map1 := trainedMap h k 1, trained := true }) k) k) k

/-- A seam whose map stands goes LIVE, waits for a plan or fails. -/
def mapJudged (h : Hw) (k : Nat) : Hw :=
  if !isFabric k && (decide (64 - (retiredGroups h k 0).length < 8) || decide (64 - (retiredGroups h k 1).length < 8)) then failSeam h k
  else
    let h := h.wr (K.SEAM_STAT_STATE k) 5
    if k < 4 then (if planNeeded h k then awaitPlan h k else h) else refreshOffline h (k - 4)

theorem goLive_eq (h : Hw) (k : Nat) : goLive h k = mapJudged (mapStands h k) k := rfl

theorem mapStands_trained (h : Hw) (k : Nat) : ((mapStands h k).seamSt k).trained = true := by
  unfold mapStands
  refine ((seamsKept_mapStands _ k).trained k).trans ?_
  rw [seamSt_onSeam_self]

theorem mapJudged_fabric (w : Hw) (hk : k < 4) : mapJudged w k =
    if planNeeded (w.wr (K.SEAM_STAT_STATE k) 5) k then awaitPlan (w.wr (K.SEAM_STAT_STATE k) 5) k else w.wr (K.SEAM_STAT_STATE k) 5 := by
  have fabric : isFabric k = true := decide_eq_true hk
  unfold mapJudged
  rw [fabric, Bool.not_true, Bool.false_and, if_neg Bool.false_ne_true, if_pos hk]

theorem mapJudged_hub (w : Hw) (h4 : 4 ≤ k) :
    mapJudged w k = failSeam w k ∨ mapJudged w k = refreshOffline (w.wr (K.SEAM_STAT_STATE k) 5) (k - 4) := by
  unfold mapJudged
  split
  · exact .inl rfl
  · exact .inr (if_neg (show ¬ k < 4 by omega))

theorem goLive_fabric (h : Hw) (hk : k < 4) : ((goLive h k).seamSt k).trained = true ∧
    (seamState (goLive h k) k = 5 ∨ (seamState (goLive h k) k = 6 ∧ ((goLive h k).seamSt k).planDue = true)) := by
  have known := mapStands_trained h k
  rw [goLive_eq, mapJudged_fabric _ hk]
  generalize mapStands h k = w at known
  have live : seamState (w.wr (K.SEAM_STAT_STATE k) 5) k = 5 := state_wr_self w k (by decide)
  have shown : SeamsKept SeamSt.record w (w.wr (K.SEAM_STAT_STATE k) 5) := .wr ..
  have trained : ((w.wr (K.SEAM_STAT_STATE k) 5).seamSt k).trained = true := (shown.trained k).trans known
  generalize w.wr (K.SEAM_STAT_STATE k) 5 = x at live trained ⊢
  by_cases hp : planNeeded x k = true
  · rw [if_pos hp]
    have due : SeamsKept SeamSt.record x (awaitPlan x k) :=
      (SeamsKept.onSeam x k (f := fun s => { s with planDue := true }) fun _ => rfl).trans ((SeamsKept.wr ..).trans (.holdGroups ..))
    exact ⟨(due.trained k).trans trained, .inr (awaitPlan_leaves x k)⟩
  · rw [if_neg hp]
    exact ⟨trained, .inl live⟩

theorem goLive_hub (h : Hw) (h4 : 4 ≤ k) (h8 : k < 8) : ((goLive h k).seamSt k).trained = true ∧
    (seamState (goLive h k) k = 5 ∨ seamState (goLive h k) k = 9) := by
  have known := mapStands_trained h k
  rw [goLive_eq]
  generalize mapStands h k = w at known
  rcases mapJudged_hub w h4 with failed | up
  · rw [failed]
    exact ⟨((SeamsKept.failSeam offSlots_record w k).trained k).trans known, .inr (state_failSeam w h8)⟩
  · rw [up]
    have live : seamState (w.wr (K.SEAM_STAT_STATE k) 5) k = 5 := state_wr_self w k (by decide)
    have shown : SeamsKept SeamSt.record w (refreshOffline (w.wr (K.SEAM_STAT_STATE k) 5) (k - 4)) :=
      (SeamsKept.wr ..).trans (.refreshOffline ..)
    exact ⟨(shown.trained k).trans known, .inl (((GroupsMoved.refreshOffline _ (by omega)).state k).trans live)⟩

/-! ### The reset of a die ends -/

/-- The state of seam k, and its record of training, are the same. -/
structure HubKept (k : Nat) (h t : Hw) : Prop where
  state : seamState t k = seamState h k
  trained : (t.seamSt k).trained = (h.seamSt k).trained

namespace HubKept

theorem refl (k : Nat) (h : Hw) : HubKept k h h := ⟨rfl, rfl⟩
theorem trans (a : HubKept k h t) (b : HubKept k t u) : HubKept k h u := ⟨b.state.trans a.state, b.trained.trans a.trained⟩
theorem of_eq (ec : t.csr = h.csr) (es : t.seam = h.seam) : HubKept k h t := ⟨Hw.rd_congr ec _, by rw [Hw.seamSt, es, Hw.seamSt]⟩
theorem wr (h : Hw) {j : Key} (hj : (K.SEAM_STAT_STATE k).id ≠ j.id) (v : Nat) : HubKept k h (h.wr j v) := ⟨Hw.rd_wr_ne h hj v, rfl⟩
theorem foldl {α : Type} {f : Hw → α → Hw} {l : List α} (hf : ∀ h, ∀ x ∈ l, HubKept k h (f h x)) (h : Hw) : HubKept k h (l.foldl f h) :=
  List.foldlRecOn (motive := HubKept k h) l f (refl k h) fun t ht x hx => ht.trans (hf t x hx)
theorem onSeam (h : Hw) {n : Nat} (hn : k ≠ n) (f : SeamSt → SeamSt) : HubKept k h (h.onSeam n f) :=
  ⟨rfl, by rw [Hw.seamSt, Hw.onSeam, SMap.get_put_ne _ hn, Hw.seamSt]⟩

/-- The registers of a fabric seam are none of a hub seam's. -/
theorem wrFabric (h4 : 4 ≤ k) (h : Hw) {n : Nat} {j : Key} (hl : j.lo < 64) (ha : 0x2800000 + n * 0x1000000 ≤ j.addr)
    (hb : j.addr < 0x2900000 + n * 0x1000000) (v : Nat) : HubKept k h (h.wr j v) :=
  wr h (by
    simp only [Key.id, K.SEAM_STAT_STATE, seamBase, if_neg (show ¬ k < 4 by omega), ne_eq]
    omega) v

theorem refreshRet (h4 : 4 ≤ k) (h : Hw) {n : Nat} (hn : n < 4) : HubKept k h (refreshRet h n) := by
  unfold Machine.refreshRet
  refine (wrFabric h4 h (n := n) ?_ ?_ ?_ _).trans (wrFabric h4 _ (n := n) ?_ ?_ ?_ _)
  · simp only [K.SEAM_STAT_RET0]; omega
  · simp only [K.SEAM_STAT_RET0, seamBase_fabric hn]; omega
  · simp only [K.SEAM_STAT_RET0, seamBase_fabric hn]; omega
  · simp only [K.SEAM_STAT_RET1]; omega
  · simp only [K.SEAM_STAT_RET1, seamBase_fabric hn]; omega
  · simp only [K.SEAM_STAT_RET1, seamBase_fabric hn]; omega

/-- A field of a group's STAT of a fabric seam. -/
theorem wrGroup (h4 : 4 ≤ k) (h : Hw) {n d g lo w r : Nat} (hn : n < 4) (hd : d < 2) (hg : g < 128) (hl : lo < 64) (v : Nat) :
    HubKept k h (h.wr ⟨seamBase n + 0x1008 + d * 0x800 + g * 0x10, lo, w, r⟩ v) := by
  refine wrFabric h4 h (n := n) hl ?_ ?_ v
  · simp only [seamBase_fabric hn]; omega
  · simp only [seamBase_fabric hn]; omega

theorem startLanes (h4 : 4 ≤ k) (h : Hw) {n : Nat} (hn : n < 4) : HubKept k h (startLanes h n) := by
  have drawn : HubKept k h h.draw.2 := of_eq rfl rfl
  have apart : k ≠ n := by omega
  unfold Machine.startLanes
  dsimp only
  exact drawn.trans (onSeam _ apart _)

theorem trainStart (h4 : 4 ≤ k) (h : Hw) {n : Nat} (hn : n < 4) : HubKept k h (trainStart h n) := by
  unfold Machine.trainStart
  extract_lets a b c d e
  have apart : k ≠ n := by omega
  have lanes : HubKept k h a := (startLanes h4 h hn).trans (onSeam _ apart _)
  have groups : HubKept k a b := foldl (fun g d hd => foldl (fun g i hi => by
    have hd2 := List.mem_range.1 hd
    have hg := GroupsMoved.mem_seamGroups hi
    exact (((wrGroup h4 g hn hd2 hg (by decide) _).trans (wrGroup h4 _ hn hd2 hg (by decide) _)).trans
      (wrGroup h4 _ hn hd2 hg (by decide) _)).trans (wrGroup h4 _ hn hd2 hg (by decide) _)) g) a
  have bindings : HubKept k b c := by
    unfold c
    rw [if_pos hn]
    refine foldl (fun g x hx => ?_) b
    obtain ⟨m, i, j⟩ := x
    obtain ⟨hm, hi, hj⟩ := mem_allBindings (List.mem_filter.1 hx).1
    refine wrFabric h4 g (n := m) ?_ ?_ ?_ 0
    · simp only [K.SEAM_BIND_STAT_ALIGNED]; omega
    · simp only [K.SEAM_BIND_STAT_ALIGNED]; omega
    · simp only [K.SEAM_BIND_STAT_ALIGNED]; omega
  have stat (g : Hw) {lo w r : Nat} (hl : lo < 64) (v : Nat) : HubKept k g (g.wr ⟨seamBase n + 8, lo, w, r⟩ v) := by
    refine wrFabric h4 g (n := n) hl ?_ ?_ v
    · simp only [seamBase_fabric hn]; omega
    · simp only [seamBase_fabric hn]; omega
  have hub : HubKept k c d := (refreshRet h4 c hn).trans (stat _ (by decide) 0)
  have plan : HubKept k d e := by
    unfold e
    rw [if_pos hn]
    exact stat d (by decide) 0
  exact ((lanes.trans groups).trans (bindings.trans hub)).trans (plan.trans (stat e (by decide) 1))

theorem startRejoin (h4 : 4 ≤ k) (h : Hw) {n : Nat} (hn : n < 4) : HubKept k h (startRejoin h n) := by
  unfold Machine.startRejoin
  split
  · split
    · refine (startLanes h4 h hn).trans (wrFabric h4 _ (n := n) ?_ ?_ ?_ smRejoin)
      · simp only [K.SEAM_STAT_STATE]; omega
      · simp only [K.SEAM_STAT_STATE, seamBase_fabric hn]; omega
      · simp only [K.SEAM_STAT_STATE, seamBase_fabric hn]; omega
    · exact trainStart h4 h hn
  · exact refl k h

theorem refreshOffline (h : Hw) {n : Nat} (hn : n < 4) : HubKept k h (refreshOffline h n) :=
  ⟨(GroupsMoved.refreshOffline h hn).state k, by
    have same : SeamsKept SeamSt.record h (Machine.refreshOffline h n) := .refreshOffline ..
    exact same.trained k⟩

theorem scrubRestart (h : Hw) (n : Nat) : HubKept k h (scrubRestart h n) := by
  unfold Machine.scrubRestart
  extract_lets u
  have first : HubKept k h u := of_eq rfl rfl
  have base := seamBase_ge k
  refine first.trans ((wr u ?_ 0).trans ((wr _ ?_ 0).trans (wr _ ?_ 0)))
  · simp only [Key.id, K.SEAM_STAT_STATE, K.SCRUB_STAT_SECTOR, ne_eq]; omega
  · simp only [Key.id, K.SEAM_STAT_STATE, K.SCRUB_STAT_FRAME, ne_eq]; omega
  · simp only [Key.id, K.SEAM_STAT_STATE, K.SCRUB_STAT_INCOMPLETE, ne_eq]; omega

theorem portRegisters (h : Hw) (n : Nat) : HubKept k h (portRegisters h n) := by
  refine ⟨?_, rfl⟩
  have outside : (!portField n (K.SEAM_STAT_STATE k).id) = true := by
    rw [Bool.not_eq_true', portField, within, decide_eq_false_iff_not]
    simp only [Key.id, K.SEAM_STAT_STATE, dieBase, seamBase]
    split <;> omega
  exact (SMap.get_keep h.csr (fun i => !portField n i) (K.SEAM_STAT_STATE k).id (K.SEAM_STAT_STATE k).rst).trans (if_pos outside)

theorem startLinks (h : Hw) : HubKept k h (startLinks h) := by
  have base := seamBase_ge k
  refine foldl (fun g l _ => ?_) h
  unfold startLink
  split
  · have shown : HubKept k g (setLk g l lkDetect) := wr g (by
      simp only [Key.id, K.SEAM_STAT_STATE, K.BORTIK_LINK_STAT_STATE, ne_eq]
      omega) _
    refine shown.trans (foldl (fun u i _ => wr u ?_ 1) _)
    simp only [Key.id, K.SEAM_STAT_STATE, K.LANE_STAT_STEP, seamBase, ne_eq]
    split <;> omega
  · exact refl k g

theorem dieResetEnds (h4 : 4 ≤ k) (h : Hw) {n : Nat} (hn : n < 4) : HubKept k h (dieResetEnds h n) := by
  unfold Machine.dieResetEnds
  split
  · exact refl k h
  · extract_lets u
    have out : HubKept k h (h.wr (K.RST_DIE_INRESET n) 0) := wr h (by
      have base := seamBase_ge k
      simp only [Key.id, K.SEAM_STAT_STATE, K.RST_DIE_INRESET, ne_eq]
      omega) 0
    have ports : HubKept k h u := out.trans ((scrubRestart _ n).trans (portRegisters _ n))
    exact ports.trans ((refreshOffline u hn).trans ((startRejoin h4 _ hn).trans
      ((startRejoin h4 _ (Nat.mod_lt _ (by decide))).trans (startLinks _))))

theorem flashReport (h : Hw) (n : Nat) : HubKept k h (flashReport h n) := by
  unfold Machine.flashReport
  split
  · refine HubKept.trans (t := h.onOut n fun o => { o with cut := false }) (of_eq rfl rfl) (wr _ ?_ flInterrupted)
    simp only [Key.id, K.SEAM_STAT_STATE, K.OUTPOST_FLSTAT_STATUS, ne_eq]
    omega
  · exact refl k h

end HubKept

/-- A hub seam that goes LIVE ends the reset of its die; one that fails does not. -/
theorem seamUp_hub (h : Hw) (h4 : 4 ≤ k) (h8 : k < 8) : ((seamUp h k).seamSt k).trained = true ∧
    (seamState (seamUp h k) k = 5 ∨ seamState (seamUp h k) k = 9) := by
  obtain ⟨trained, state⟩ := goLive_hub h h4 h8
  unfold seamUp
  extract_lets u
  rw [if_neg (show ¬ k < 4 by omega)]
  split
  · have ended := (HubKept.flashReport (k := k) u (k - 4)).trans (HubKept.dieResetEnds h4 _ (n := k - 4) (by omega))
    rw [ended.trained, ended.state]
    exact ⟨trained, state⟩
  · exact ⟨trained, state⟩

theorem seamUp_fabric (h : Hw) (hk : k < 4) : seamUp h k = goLive h k := by
  unfold seamUp
  dsimp only
  rw [if_pos hk]

end

end Sys2Proof.Machine
end

section
/-!
PROOF. Training of a seam, stage by stage (R129 to R135).
-/
namespace Sys2Proof.Machine
open Sys2Proof

section
variable {s : State}

theorem trainingStarted (n : Die) (h0 : seamState s.hw n.val = 0) (he : s.hw.bit (K.SEAM_CTL_EN n.val) = true) :
    (endsLive s.hw n.val = true → Ends (exec (.fabricSeamTrainStart n) s) fun t => seamState t.hw n.val = 1) ∧
    (endsLive s.hw n.val = false → Ends (exec (.fabricSeamTrainStart n) s) fun t =>
      seamState t.hw n.val = 0 ∧ t.hw.rd (K.SEAM_STAT_NOHUB n.val) = 1) :=
  ⟨fun hl => ⟨_, rfl, trainFabric_live h0 he hl⟩, fun hl => ⟨_, rfl, trainFabric_noHub h0 he hl⟩⟩

theorem prbsDone (k : SeamId) (tests : List LaneTest) (h2 : stage s.hw k.val = 2) :
    ((∀ x ∈ tests, lanePasses s.hw k.val x = true) → Ends (exec (.seamPrbsDone ⟨k, tests⟩) s) fun t => stage t.hw k.val = 3) ∧
    ((∃ x ∈ tests, lanePasses s.hw k.val x = false) → exec (.seamPrbsDone ⟨k, tests⟩) s = .next s) := by
  have here : (stage s.hw k.val == smPrbs) = true := by rw [h2]; rfl
  refine ⟨fun ha => ⟨_, rfl, ?_⟩, fun hf => congrArg Host.Outcome.next (onHw_same ?_)⟩
  · have all : tests.all (lanePasses s.hw k.val) = true := List.all_eq_true.2 ha
    simp only [State.onHw]
    rw [here, all, if_pos (Bool.and_self true)]
    exact stage_setStage s.hw k.val (by decide)
  · obtain ⟨x, hx, fails⟩ := hf
    have some : tests.all (lanePasses s.hw k.val) = false := List.all_eq_false.2 ⟨x, hx, by rw [fails]; exact Bool.false_ne_true⟩
    rw [some, Bool.and_false, if_neg Bool.false_ne_true]

theorem prbsTimeout (k : SeamId) (tests : List LaneTest) (h2 : stage s.hw k.val = 2) :
    Ends (exec (.seamPrbsTimeout k tests) s) fun t => stage t.hw k.val = 3 ∧
      ∀ x ∈ tests, lanePasses s.hw k.val x = false → (t.hw.lane k.val (laneNo x.ln)).failed = true := by
  have here : (stage s.hw k.val == smPrbs) = true := by rw [h2]; rfl
  refine ⟨_, rfl, ?_⟩
  simp only [State.onHw]
  rw [here, if_pos rfl]
  refine ⟨stage_setStage _ k.val (by decide), fun x hx fails => ?_⟩
  rw [lane_setStage]
  exact markLanes_failed s.hw k.val _ x (List.mem_filter.2 ⟨hx, by rw [fails]; rfl⟩)

theorem reportMissed (k : SeamId) (h3 : stage s.hw k.val = 3) :
    Ends (exec (.seamReportTimeout k) s) fun t => seamState t.hw k.val = 9 := by
  have here : (stage s.hw k.val == smReport) = true := by rw [h3]; rfl
  refine ⟨_, rfl, ?_⟩
  simp only [State.onHw]
  rw [here, if_pos rfl]
  exact state_failSeam s.hw k.isLt

theorem mapMissed (k : SeamId) (h4 : stage s.hw k.val = 4) :
    Ends (exec (.seamMapTimeout k) s) fun t =>
      if 2 ≤ (s.hw.seamSt k.val).attempts then seamState t.hw k.val = 9
      else stage t.hw k.val = 4 ∧ (t.hw.seamSt k.val).attempts = (s.hw.seamSt k.val).attempts + 1 := by
  have here : (stage s.hw k.val != smMap) = false := by rw [h4]; rfl
  refine ⟨_, rfl, ?_⟩
  simp only [State.onHw]
  rw [here, if_neg Bool.false_ne_true]
  exact mapAgain_leaves k.isLt s.hw h4

/-- A sound report is recorded; where both stand, MAP goes out. -/
theorem exec_report (k : SeamId) (dir : Fin 2) (body : List Byte) (crc : BitVec 16) (hr : endReached s.hw k.val (dir.val == 1) = true)
    (hc : crc16 body = crc.toNat) (h3 : stage s.hw k.val = 3) :
    exec (.seamLrpt k dir body crc) s = .next (s.onHw fun h =>
      if (if dir = 0 then (h.seamSt k.val).report1 else (h.seamSt k.val).report0).isSome then
        mapOut (reportHeard h k.val dir (ofBytes body)) k.val
      else reportHeard h k.val dir (ofBytes body)) := by
  have sound : (crc16 body != crc.toNat) = false := by rw [hc, bne_self_eq_false]
  have here : (stage s.hw k.val != smReport) = false := by rw [h3]; rfl
  obtain ⟨-, -, both⟩ := reportHeard_leaves s.hw k.val dir (ofBytes body)
  have goes : exec (.seamLrpt k dir body crc) s = .next (s.onHw fun _ =>
      if ((reportHeard s.hw k.val dir (ofBytes body)).seamSt k.val).report0.isSome &&
          ((reportHeard s.hw k.val dir (ofBytes body)).seamSt k.val).report1.isSome then
        mapOut (reportHeard s.hw k.val dir (ofBytes body)) k.val
      else reportHeard s.hw k.val dir (ofBytes body)) := by
    show Host.Outcome.next (s.onHw _) = _
    simp only [State.onHw]
    rw [hr, sound, here, if_neg (show ¬ (!true) = true from Bool.false_ne_true), if_neg Bool.false_ne_true, if_neg Bool.false_ne_true]
    rfl
  rw [goes]
  simp only [State.onHw]
  rw [both]

/-- The report of a direction that is the first to arrive, and that of the second, after which MAP goes out. -/
theorem reportTaken (k : SeamId) (dir : Fin 2) (body : List Byte) (crc : BitVec 16) (hr : endReached s.hw k.val (dir.val == 1) = true)
    (hc : crc16 body = crc.toNat) (h3 : stage s.hw k.val = 3) :
    Ends (exec (.seamLrpt k dir body crc) s) fun t =>
      (if dir = 0 then (t.hw.seamSt k.val).report0 else (t.hw.seamSt k.val).report1) = some (ofBytes body) ∧
      (let other := if dir = 0 then (s.hw.seamSt k.val).report1 else (s.hw.seamSt k.val).report0
       (other = none → stage t.hw k.val = 3) ∧
       (other ≠ none → stage t.hw k.val = 4 ∧ (t.hw.seamSt k.val).attempts = 0 ∧
         ∃ b, (t.hw.seamSt k.val).msg = some (.map b (crc16 b)))) := by
  obtain ⟨still, heard, -⟩ := reportHeard_leaves s.hw k.val dir (ofBytes body)
  refine ⟨_, exec_report k dir body crc hr hc h3, ?_⟩
  simp only [State.onHw]
  generalize (if dir = 0 then (s.hw.seamSt k.val).report1 else (s.hw.seamSt k.val).report0) = other
  cases other with
  | none => exact ⟨heard, fun _ => still.trans h3, fun hn => absurd rfl hn⟩
  | some w =>
    obtain ⟨stands, tries, sent, first, second⟩ := mapOut_leaves (reportHeard s.hw k.val dir (ofBytes body)) k.val
    refine ⟨?_, fun hn => (nomatch hn), fun _ => ⟨stands, tries, sent⟩⟩
    rw [← first, ← second] at heard
    exact heard

theorem reportSpoilt (k : SeamId) (dir : Fin 2) (body : List Byte) (crc : BitVec 16) (hr : endReached s.hw k.val (dir.val == 1) = true)
    (hc : crc16 body ≠ crc.toNat) :
    Ends (exec (.seamLrpt k dir body crc) s) fun t => stage t.hw k.val = stage s.hw k.val ∧
      t.hw.rd (K.SEAM_STAT_CRCERR k.val) = min 255 (s.hw.rd (K.SEAM_STAT_CRCERR k.val) + 1) ∧ t.hw.seam = s.hw.seam := by
  refine ⟨_, rfl, ?_⟩
  simp only [State.onHw]
  rw [hr, if_neg (show ¬ (!true) = true from Bool.false_ne_true), if_pos (bne_iff_ne.2 hc)]
  exact badMessage_leaves s.hw k.val

theorem mackSpoilt (k : SeamId) (owner : Bool) (received computed : BitVec 16) (hr : endReached s.hw k.val owner = true)
    (hc : received ≠ computed) :
    Ends (exec (.seamMack k owner received computed) s) fun t => stage t.hw k.val = stage s.hw k.val ∧
      t.hw.rd (K.SEAM_STAT_CRCERR k.val) = min 255 (s.hw.rd (K.SEAM_STAT_CRCERR k.val) + 1) ∧ t.hw.seam = s.hw.seam := by
  refine ⟨_, rfl, ?_⟩
  simp only [State.onHw]
  rw [hr, if_neg (show ¬ (!true) = true from Bool.false_ne_true), if_pos hc]
  exact badMessage_leaves s.hw k.val

/-- An end's agreement is noted. -/
def mackHeard (h : Hw) (k : Nat) (owner : Bool) : Hw :=
  h.onSeam k fun x => if owner then { x with mackOwner := true } else { x with mackFar := true }

theorem mackHeard_leaves (h : Hw) (k : Nat) (owner : Bool) : stage (mackHeard h k owner) k = stage h k ∧
    (if owner then ((mackHeard h k owner).seamSt k).mackOwner else ((mackHeard h k owner).seamSt k).mackFar) = true ∧
    (!((mackHeard h k owner).seamSt k).mackOwner || !((mackHeard h k owner).seamSt k).mackFar) =
      !(if owner then (h.seamSt k).mackFar else (h.seamSt k).mackOwner) := by
  unfold mackHeard
  rw [seamSt_onSeam_self]
  cases owner with
  | true => exact ⟨stage_onSeam h k fun _ => rfl, rfl, rfl⟩
  | false => exact ⟨stage_onSeam h k fun _ => rfl, rfl, Bool.or_false _⟩

/-- Both ends agree on the map: GO is sent, and the stage or the training is over. -/
def mapAgreed (h : Hw) (k : Nat) : Hw :=
  let h := h.onSeam k fun x => { x with msg := some .go }
  if seamState h k == smRejoin then setStage h k 5 else seamUp h k

/-- A rejoining seam goes on to the last stage. -/
theorem mapAgreed_rejoin {h : Hw} {k : Nat} (h8 : seamState h k = 8) : seamState (mapAgreed h k) k = 8 ∧ stage (mapAgreed h k) k = 5 := by
  unfold mapAgreed
  extract_lets u
  have same : seamState u k = 8 := h8
  rw [if_pos (show (seamState u k == smRejoin) = true by rw [same]; rfl)]
  refine ⟨?_, stage_setStage u k (by decide)⟩
  rw [setStage, if_pos same]
  exact same

/-- A seam that trains has trained, and is LIVE, or waits for a plan or has failed, after its kind. -/
theorem mapAgreed_up (h : Hw) (k : SeamId) (h8 : seamState h k.val ≠ 8) : ((mapAgreed h k.val).seamSt k.val).trained = true ∧
    (k.val < 4 → seamState (mapAgreed h k.val) k.val = 5 ∨
      (seamState (mapAgreed h k.val) k.val = 6 ∧ ((mapAgreed h k.val).seamSt k.val).planDue = true)) ∧
    (4 ≤ k.val → seamState (mapAgreed h k.val) k.val = 5 ∨ seamState (mapAgreed h k.val) k.val = 9) := by
  unfold mapAgreed
  extract_lets u
  have same : seamState u k.val ≠ 8 := h8
  clear_value u
  rw [if_neg (show ¬ (seamState u k.val == smRejoin) = true from fun he => same (eq_of_beq he))]
  by_cases hk : k.val < 4
  · rw [seamUp_fabric u hk]
    obtain ⟨trained, state⟩ := goLive_fabric u hk
    exact ⟨trained, fun _ => state, fun h4 => absurd hk (by omega)⟩
  · obtain ⟨trained, state⟩ := seamUp_hub u (Nat.le_of_not_lt hk) k.isLt
    exact ⟨trained, fun h4 => absurd h4 hk, fun _ => state⟩

/-- A MACK that echoes the MAP is noted; the second one ends the stage. -/
theorem exec_mack (k : SeamId) (owner : Bool) (received computed : BitVec 16) (hr : endReached s.hw k.val owner = true)
    (hc : received = computed) (h4 : stage s.hw k.val = 4) (hm : mackMatches s.hw k.val received computed = true) :
    exec (.seamMack k owner received computed) s = .next (s.onHw fun h =>
      if (if owner then (h.seamSt k.val).mackFar else (h.seamSt k.val).mackOwner) then mapAgreed (mackHeard h k.val owner) k.val
      else mackHeard h k.val owner) := by
  have here : (stage s.hw k.val != smMap || !mackMatches s.hw k.val received computed) = false := by rw [h4, hm]; rfl
  obtain ⟨-, -, both⟩ := mackHeard_leaves s.hw k.val owner
  have goes : exec (.seamMack k owner received computed) s = .next (s.onHw fun _ =>
      if !((mackHeard s.hw k.val owner).seamSt k.val).mackOwner || !((mackHeard s.hw k.val owner).seamSt k.val).mackFar then
        mackHeard s.hw k.val owner
      else mapAgreed (mackHeard s.hw k.val owner) k.val) := by
    show Host.Outcome.next (s.onHw _) = _
    simp only [State.onHw]
    rw [hr, if_neg (show ¬ (!true) = true from Bool.false_ne_true), if_neg (not_not_intro hc), here, if_neg Bool.false_ne_true]
    rfl
  rw [goes]
  simp only [State.onHw]
  rw [both]
  generalize (if owner then (s.hw.seamSt k.val).mackFar else (s.hw.seamSt k.val).mackOwner) = other
  cases other with
  | true => rfl
  | false => rfl

theorem mackFirst (k : SeamId) (owner : Bool) (received computed : BitVec 16) (hr : endReached s.hw k.val owner = true)
    (hc : received = computed) (h4 : stage s.hw k.val = 4) (hm : mackMatches s.hw k.val received computed = true)
    (ho : (if owner then (s.hw.seamSt k.val).mackFar else (s.hw.seamSt k.val).mackOwner) = false) :
    Ends (exec (.seamMack k owner received computed) s) fun t => stage t.hw k.val = 4 ∧
      (if owner then (t.hw.seamSt k.val).mackOwner else (t.hw.seamSt k.val).mackFar) = true := by
  obtain ⟨still, noted, -⟩ := mackHeard_leaves s.hw k.val owner
  refine ⟨_, exec_mack k owner received computed hr hc h4 hm, ?_⟩
  simp only [State.onHw]
  rw [ho, if_neg Bool.false_ne_true]
  exact ⟨still.trans h4, noted⟩

theorem mackSecond (k : SeamId) (owner : Bool) (received computed : BitVec 16) (hr : endReached s.hw k.val owner = true)
    (hc : received = computed) (h4 : stage s.hw k.val = 4) (hm : mackMatches s.hw k.val received computed = true)
    (ho : (if owner then (s.hw.seamSt k.val).mackFar else (s.hw.seamSt k.val).mackOwner) = true) :
    Ends (exec (.seamMack k owner received computed) s) fun t =>
      (seamState s.hw k.val = 8 → seamState t.hw k.val = 8 ∧ stage t.hw k.val = 5) ∧
      (seamState s.hw k.val ≠ 8 → (t.hw.seamSt k.val).trained = true) ∧
      (seamState s.hw k.val ≠ 8 → k.val < 4 →
        seamState t.hw k.val = 5 ∨ (seamState t.hw k.val = 6 ∧ (t.hw.seamSt k.val).planDue = true)) ∧
      (seamState s.hw k.val ≠ 8 → 4 ≤ k.val → seamState t.hw k.val = 5 ∨ seamState t.hw k.val = 9) := by
  refine ⟨_, exec_mack k owner received computed hr hc h4 hm, ?_⟩
  simp only [State.onHw]
  rw [ho, if_pos rfl]
  have same : seamState (mackHeard s.hw k.val owner) k.val = seamState s.hw k.val := rfl
  generalize mackHeard s.hw k.val owner = u at same
  rw [← same]
  refine ⟨mapAgreed_rejoin, fun h8 => ?_, fun h8 => ?_, fun h8 => ?_⟩
  · exact (mapAgreed_up u k h8).1
  · exact (mapAgreed_up u k h8).2.1
  · exact (mapAgreed_up u k h8).2.2

end

/-- Settles O43: training from RESET over PRBS, REPORT and MAP to LIVE, with its failures and limits, and messages with a bad CRC. -/
theorem seamTraining : Obligations.SeamTraining := by
  unfold Obligations.SeamTraining
  refine ⟨fun s n h0 he => trainingStarted n h0 he, fun s k tests => ⟨fun h1 => ⟨_, rfl, ?_⟩, fun h2 => ?_, reportMissed k, mapMissed k⟩,
    fun s k dir body crc hr => ⟨reportTaken k dir body crc hr, reportSpoilt k dir body crc hr⟩,
    fun s k owner received computed hr => ⟨mackSpoilt k owner received computed hr, fun hc h4 hm =>
      ⟨mackFirst k owner received computed hr hc h4 hm, mackSecond k owner received computed hr hc h4 hm⟩⟩⟩
  · have here : (stage s.hw k.val == smReset) = true := by rw [h1]; rfl
    simp only [State.onHw]
    rw [here, if_pos rfl]
    exact stage_setStage s.hw k.val (by decide)
  · obtain ⟨passes, waits⟩ := prbsDone k tests h2
    exact ⟨passes, waits, prbsTimeout k tests h2⟩

end Sys2Proof.Machine
end
